-- ==== Sys2Proof/Word.lean ====
section
/-! DEFINITION. The machine's word types. -/

namespace Sys2Proof

/-- One byte of memory. -/
abbrev Byte := BitVec 8

/-- A 16-bit field, an event code, a unit identifier. -/
abbrev Half := BitVec 16

/-- A 32-bit register or lane register. -/
abbrev Word := BitVec 32

/-- A 64-bit register, address or counter. -/
abbrev DWord := BitVec 64

/-- One of the sixteen tenants (R1). -/
abbrev TenantId := Fin 16

/-- One of the 192 tumblers (R15). -/
abbrev TumblerId := Fin 192

/-- One of a tumbler's 32 group slots (R169). -/
abbrev SlotId := Fin 32

/-- One of a tenant's 64 submission or completion rings. -/
abbrev RingId := Fin 64

/-- One of the nine fabric ports (R301). -/
abbrev PortId := Fin 9

/-- One of the four quadrants, slices, spindle sections or update engines (R15). -/
abbrev QuadId := Fin 4

/-- One of the 32 check units (R15). -/
abbrev CheckId := Fin 32

end Sys2Proof
end

