-- ==== Sys2Proof/Syntax.lean ====
section
/-! DEFINITION. The commands: one constructor for each row of spec/opcode_table.json, in the table's order, with
the operands of each row. What the world outside the module supplies to an event (what training found, what a
sensor reads, what a host-memory read returned, whether a signature verifies) is an operand of the event. -/

namespace Sys2Proof

/-- Who makes a register access or a request (R8, R11, R385, R395). -/
inductive Agent where
  /-- host software, over the host link -/
  | host
  /-- service firmware, on service core `c` -/
  | core (c : Fin 8)
  /-- the keeper, over its private link -/
  | keeper
  /-- the power controller -/
  | power
  deriving DecidableEq, Repr

/-- The clock domains that the keeper releases, in the order of R30 step 4. -/
inductive Domain where
  | service | store | fabric | hbm | array
  deriving DecidableEq, Repr

/-- The fields of a tumbler instruction word other than its opcode (R178). -/
structure IWord where
  /-- bits 55:48 -/
  dst : BitVec 8
  /-- bits 47:40 -/
  sa : BitVec 8
  /-- bits 39:32 -/
  sb : BitVec 8
  /-- bits 31:24 -/
  sc : BitVec 8
  /-- bits 23:20; 15 means always -/
  pred : BitVec 4
  /-- bit 19 -/
  pnot : Bool
  /-- bits 18:16 -/
  keep : BitVec 3
  /-- bits 15:0 -/
  mod : Half
  deriving DecidableEq, Repr

/-- What a controller finds on a read of a granule or line (R250, R265). -/
inductive Finding where
  /-- no error -/
  | sound
  /-- a single-bit error inside a die, which the die corrects -/
  | die
  /-- an error that the class's code corrects: in HBM one confined to one pin -/
  | corrected
  /-- an error that it does not correct -/
  | uncorrectable
  /-- HBM data as it should be, with this metadata word beside it (R261) -/
  | word (w : Word)
  deriving DecidableEq, Repr

/-- The feed and position strap pins as sampled: 1 for an open pin (R491, R496). -/
structure Straps where
  feed : BitVec 12
  par : Bool
  pos : BitVec 6
  deriving DecidableEq, Repr

/-- The kinds of conventional PCIe reset, each a device reset at once (R353, R381). -/
inductive PcieReset where
  | conventional | hot | functionLevel
  deriving DecidableEq, Repr

/-- How the training of a port ended: all eight lanes, one healthy half, or none (R303, R304). -/
inductive TrainResult where
  | x8
  /-- the healthy half: lanes 0 to 3, or 4 to 7 when `hi` -/
  | x4 (hi : Bool)
  | failed
  deriving DecidableEq, Repr

/-- A 320-byte flit as it arrives at a port, after the Reed-Solomon decode (R302, R303). -/
structure Flit where
  /-- the 280 packet bytes -/
  bytes : List Byte
  /-- LINK bits 11:0 -/
  seq : BitVec 12
  /-- LINK bits 23:12 -/
  ack : BitVec 12
  /-- LINK bits 25:24 -/
  vc : BitVec 2
  /-- LINK bits 31:26 -/
  credits : BitVec 6
  /-- LINK bits 63:32, CRC-32C over bytes 000h to 11Bh -/
  crc : Word
  /-- symbols that the code corrected -/
  correctedSymbols : Nat
  /-- the code could not correct the flit -/
  uncorrectable : Bool
  deriving DecidableEq, Repr

/-- The function's MSI-X control in configuration space, as the host has set it (R389). -/
structure MsixCtl where
  enable : Bool
  functionMask : Bool
  deriving DecidableEq, Repr

/-- The inputs of the health monitor (R408), one for each row of its table. -/
inductive RiskInput where
  | hbmCe1 | hbmCe2 | hbmUe | storeSram | linkRetrain | linkDegraded | linksDown
  | droop | droopCorrelated | droopTwice | feedWide | thermalWarn | thermalNear
  | clock | clockUnlock | agreement1 | agreement3 | peers | host | unstable
  deriving DecidableEq, Repr

/-- An input event of the health monitor, and the channel that the monitor decides to map out with it, if any (R270, R408). -/
structure HealthEvent where
  input : RiskInput
  failing : Option (Fin 192)
  deriving DecidableEq, Repr

/-- The temperatures the power controller reads, in tenths of a degree (R503). -/
structure Temps where
  /-- the four compute dies -/
  die : List Int
  /-- the twelve HBM stacks -/
  hbm : List Int
  /-- the flash controller -/
  flash : Int
  deriving DecidableEq, Repr

/-- A journal record that a writer offers (R432, R433). -/
structure JRecord where
  kind : Half
  /-- WRITER: the keeper, on the keeper lane, or service firmware -/
  byKeeper : Bool
  /-- FFh for none -/
  tenant : Byte
  key : DWord
  payload : List Byte
  deriving DecidableEq, Repr

/-- How a boot stage ended (R461): what the stage's own check found. -/
inductive StageEnd where
  | ok | failed
  deriving DecidableEq, Repr

/-- The two bindings of the sideband (R499). -/
inductive Binding where
  | smbus | i3c
  deriving DecidableEq, Repr

/-- How the power controller's rails and inputs read at one sample (R445, R452). -/
structure PowerReading where
  /-- input, mV -/
  vin : Half
  /-- 10 ms mean, W -/
  mean10ms : Half
  /-- highest 10 µs value of the last 10 ms, W -/
  peak : Half
  /-- the input has exceeded 2,800 W for 50 µs -/
  over50us : Bool
  /-- the 100 ms mean has stayed below 90 % of the limit for 100 ms -/
  low100ms : Bool
  deriving DecidableEq, Repr

/-- A ring: submission or completion ring `r` of tenant `t`, or the admin ring (R358). -/
inductive RingSel where
  | tenant (t : TenantId) (r : RingId)
  | admin
  deriving DecidableEq, Repr

/-- The commands of the module. -/
inductive Instr where
  -- registers and the command tree
  | registerWrite (a : Agent) (off : Nat) (wide : Bool) (v : DWord)
  | bar0UnsupportedRequest (a : Agent) (off size : Nat) (write : Bool)
  | lowHalfRead (a : Agent) (off : Nat)
  | highHalfRead (a : Agent) (off : Nat)
  | lowHalfWrite (a : Agent) (off : Nat) (v : Word)
  | highHalfWrite (a : Agent) (off : Nat) (v : Word)
  | markerForward (unit : Nat)
  -- clocks
  | clkHostRequest (d : BitVec 2)
  | clkFwRequest (d : BitVec 2)
  | arrayClockHold
  | arrayClockResume
  | deferredDividerChange
  | refLost
  | refReturn
  | pllRelock
  | pllUnlock
  | holdoverDeadline
  | refHostPresent
  | refAutoTimeout
  | moduleRailRelease (pins : Straps)
  | pllLock
  | pllLockTimeout
  | domainRelease (d : Domain)
  -- the array
  | aissue (u : TumblerId) (g : SlotId) (w : IWord)
  | arrayDescriptorAccept
  | operationStart
  | arrayOperandArrival
  | cellTailEnd
  | drainStart
  | drainEnd
  | completionWordAccepted
  | chainWaitExpiry
  | chainSpillEnd
  | chainFillEnd
  | arraySequencerReady
  -- numerical safeguards
  | samplePoint
  | sampleFinish
  | amaxReport
  | poisonSource
  -- the spindle
  | rissue (u : TumblerId) (g : SlotId) (w : IWord)
  | rowDescriptorAccept
  | rowOperationStart (t : TenantId)
  | rowChunkStart (q : QuadId)
  | rowChunkEnd (q : QuadId)
  | rowOperationEnd (t : TenantId)
  | spindleReady
  -- steps and updates
  | stepOpen (t : TenantId) (r : RingId)
  | stepCommit (t : TenantId) (r : RingId)
  | updateStart (t : TenantId)
  | updateResume (t : TenantId)
  | optimiserPassEnd (t : TenantId)
  | quantiserPassEnd (t : TenantId)
  | commitPoint (t : TenantId)
  | stepCancel (t : TenantId) (r : RingId)
  | updateEngineReady
  -- tumbler instructions
  | iadd (u : TumblerId) (g : SlotId) (w : IWord)
  | isub (u : TumblerId) (g : SlotId) (w : IWord)
  | imul (u : TumblerId) (g : SlotId) (w : IWord)
  | imad (u : TumblerId) (g : SlotId) (w : IWord)
  | imin (u : TumblerId) (g : SlotId) (w : IWord)
  | imax (u : TumblerId) (g : SlotId) (w : IWord)
  | ishl (u : TumblerId) (g : SlotId) (w : IWord)
  | ishr (u : TumblerId) (g : SlotId) (w : IWord)
  | and (u : TumblerId) (g : SlotId) (w : IWord)
  | or (u : TumblerId) (g : SlotId) (w : IWord)
  | xor (u : TumblerId) (g : SlotId) (w : IWord)
  | not (u : TumblerId) (g : SlotId) (w : IWord)
  | mov (u : TumblerId) (g : SlotId) (w : IWord)
  | sel (u : TumblerId) (g : SlotId) (w : IWord)
  | icmp (u : TumblerId) (g : SlotId) (w : IWord)
  | popc (u : TumblerId) (g : SlotId) (w : IWord)
  | shfl (u : TumblerId) (g : SlotId) (w : IWord)
  | vote (u : TumblerId) (g : SlotId) (w : IWord)
  | sreg (u : TumblerId) (g : SlotId) (w : IWord)
  | movi (u : TumblerId) (g : SlotId) (w : IWord)
  | fadd (u : TumblerId) (g : SlotId) (w : IWord)
  | fmul (u : TumblerId) (g : SlotId) (w : IWord)
  | ffma (u : TumblerId) (g : SlotId) (w : IWord)
  | fmin (u : TumblerId) (g : SlotId) (w : IWord)
  | fmax (u : TumblerId) (g : SlotId) (w : IWord)
  | fcmp (u : TumblerId) (g : SlotId) (w : IWord)
  | fdiv (u : TumblerId) (g : SlotId) (w : IWord)
  | fsqrt (u : TumblerId) (g : SlotId) (w : IWord)
  | frsq (u : TumblerId) (g : SlotId) (w : IWord)
  | fexp2 (u : TumblerId) (g : SlotId) (w : IWord)
  | flog2 (u : TumblerId) (g : SlotId) (w : IWord)
  | fabs (u : TumblerId) (g : SlotId) (w : IWord)
  | bra (u : TumblerId) (g : SlotId) (w : IWord)
  | call (u : TumblerId) (g : SlotId) (w : IWord)
  | ret (u : TumblerId) (g : SlotId) (w : IWord)
  | exit (u : TumblerId) (g : SlotId) (w : IWord)
  | nop (u : TumblerId) (g : SlotId) (w : IWord)
  | fenceGroup (u : TumblerId) (g : SlotId) (w : IWord)
  | fenceBlock (u : TumblerId) (g : SlotId) (w : IWord)
  | fenceDevice (u : TumblerId) (g : SlotId) (w : IWord)
  | fenceSystem (u : TumblerId) (g : SlotId) (w : IWord)
  | ldl (u : TumblerId) (g : SlotId) (w : IWord)
  | stl (u : TumblerId) (g : SlotId) (w : IWord)
  | ld (u : TumblerId) (g : SlotId) (w : IWord)
  | st (u : TumblerId) (g : SlotId) (w : IWord)
  | loadReturn (u : TumblerId) (k : Nat)
  | tableWalkEnd (k : Nat) (f : Finding)
  | ldr (u : TumblerId) (g : SlotId) (w : IWord)
  | str (u : TumblerId) (g : SlotId) (w : IWord)
  | twait (u : TumblerId) (g : SlotId) (w : IWord)
  | tokenCompletion (u : TumblerId)
  | cvt (u : TumblerId) (g : SlotId) (w : IWord)
  | qblk (u : TumblerId) (g : SlotId) (w : IWord)
  | rand (u : TumblerId) (g : SlotId) (w : IWord)
  | atom (u : TumblerId) (g : SlotId) (w : IWord)
  | barg (u : TumblerId) (g : SlotId) (w : IWord)
  | barm (u : TumblerId) (g : SlotId) (w : IWord)
  | barb (u : TumblerId) (g : SlotId) (w : IWord)
  | spoison (u : TumblerId) (g : SlotId) (w : IWord)
  | barrierWatchdogExpiry (u : TumblerId) (k : Nat)
  | repackWaitExpiry (u : TumblerId) (g : SlotId)
  | blockPlace (l : Nat) (u : TumblerId)
  | launchComplete (l : Nat)
  | launchStop (l : Nat)
  | blockPreempt (u : TumblerId) (l b : Nat)
  | blockResume (u : TumblerId) (l b : Nat)
  | tumblerReady (u : TumblerId)
  -- memory model and central store
  | translationMarker (unit : Nat)
  | isolationMarker (unit : Nat)
  | slicemapWrite (i : Nat) (v : Word)
  | slicemapChangeEnd
  | partitionApply
  | partitionApplyEnd
  | lineFillEnd (q : QuadId) (k : Nat) (f : List Finding) (gens : List (List Byte))
  | writebackAccepted (q : QuadId) (k : Nat) (f : List Finding) (gens : List (List Byte))
  | reductionRequest (q : QuadId)
  | reductionExecute (q : QuadId)
  | evictionLockRelease (q : QuadId)
  | cstWriteBack
  | cstFlush
  | cstDeadMark
  | cstPin
  | cstUnpin
  | rangeOpEnd
  | storeScrub (q : QuadId) (granule : Nat) (f : Finding)
  | deadReadsClear (t : Fin 17)
  | storeReady (q : QuadId)
  -- HBM
  | hbmTrainingEnd (failed : List (Fin 192))
  | hbmInitGo
  | hbmInitEnd
  | protectionClassChange (g : Nat) (corrected : Bool)
  | hbmScrubRead (granule : Nat) (f : Finding) (gens : List (List Byte))
  | scrubPassEnd
  | hbmTempRead (stack : Fin 12) (t : Int)
  | mapoutGo (ch : Fin 192)
  | relayoutEnd (lost : List Nat) (gens : List (List Byte))
  | frozenStageEnd (data : Option (List Byte))
  | frozenRestoreCopyEnd
  -- placement
  | alloc (t : TenantId) (r : RingId)
  | free (t : TenantId) (r : RingId)
  | query (t : TenantId) (r : RingId)
  | constrain (t : TenantId) (r : RingId)
  | frozenLoad (t : TenantId) (r : RingId)
  | boundaryWork (t : TenantId) (badFrames : List (Nat × Nat × Nat))
  -- fabric
  | flitReceive (p : PortId) (f : Flit)
  | portTrainingEnd (p : PortId) (res : TrainResult)
  | authFragment (p : PortId) (frag : List Byte)
  | swHello (p : PortId) (chainOk sigOk : Bool)
  | swDone (p : PortId)
  | authAbort (p : PortId)
  | authTimeout (p : PortId)
  | inboundRead (p : PortId)
  | inboundWrite (p : PortId)
  | inboundReduce (p : PortId)
  | inboundAtomic (p : PortId)
  | inboundSignal (p : PortId)
  | inboundMcastWrite (p : PortId)
  | readRsp (p : PortId)
  | ack (p : PortId)
  | atomicRsp (p : PortId)
  | nack (p : PortId)
  | nodeAssign (p : PortId)
  | announce (p : PortId)
  | peerMarker (e : Fin 16)
  | teardown (p : PortId)
  | feedAlert (p : PortId)
  | partner (p : PortId)
  | sfWard (p : PortId)
  | remoteTimeout (reqId : Word)
  | atomicRetry (reqId : Word)
  | outcomeUnknown (reqId : Word)
  | receiptExpiry (p : PortId)
  | transfer (t : TenantId) (r : RingId)
  | transferEnd (e : Fin 16)
  | fabricReady
  -- signals and barriers
  | barActivate (t : TenantId) (r : RingId)
  | barMembers (t : TenantId) (r : RingId)
  | barClose (t : TenantId) (r : RingId)
  | barrierTimeout (slot : Fin 64)
  | synReady
  -- rings and tenant commands
  | sqTailWrite (t : TenantId) (r : RingId) (v : Half)
  | sqFetchEnd (q : RingSel) (entries : List (List Byte)) (ok : Bool)
  | cqHeadWrite (t : TenantId) (r : RingId) (v : Half)
  | completionRecordWrite (q : RingSel) (ok : Bool)
  | ringResume (t : TenantId) (r : RingId)
  | ringFlush (t : TenantId) (r : RingId)
  | faultHeadWrite (t : TenantId) (v : Word)
  | nopCommand (t : TenantId) (r : RingId)
  | launch (t : TenantId) (r : RingId)
  | hostCopy (t : TenantId) (r : RingId) (data : List Byte) (ok : Bool)
  | wait (t : TenantId) (r : RingId)
  | waitTimeout (t : TenantId) (r : RingId) (idx : Half)
  | signal (t : TenantId) (r : RingId)
  | numericPolicy (t : TenantId) (r : RingId)
  | deadMark (t : TenantId) (r : RingId)
  | abort (t : TenantId) (r : RingId)
  -- admin commands
  | tenantCreate (block ward streams : List Byte) (ok : Bool)
  | tenantReset (rest : List (RingId × List Byte))
  | cqCreate
  | sqCreate
  | ringDelete
  | wardUpdate (image : List Byte) (ok : Bool)
  | tenantAbort
  | adminDoorbell (v : Word)
  | adminRingEnable (v : Word)
  | adminResume
  | adminFlush
  | bar4Access (off : Nat) (write : Bool) (data : List Byte)
  | configRetryEnd
  | hostLinkDown
  | hostLinkUp (rate : BitVec 2) (width : BitVec 3) (flit : Bool)
  | linkHoldExpiry
  | pcieReset (k : PcieReset) (pins : Straps)
  -- interrupts
  | raise (a : Agent) (src : BitVec 12)
  | maskSet (a : Agent) (i : Fin 128) (v : Word)
  | maskClr (a : Agent) (i : Fin 128) (v : Word)
  | pendSet (a : Agent) (i : Fin 128) (v : Word)
  | pendClr (a : Agent) (i : Fin 128) (v : Word)
  | interruptDelivery (ctl : MsixCtl)
  | heldVectorRelease (ctl : MsixCtl) (vec : Fin 2048)
  | icuReady
  -- check units
  | checkStart (a : Agent) (u : CheckId) (v : Word)
  | checkFinish (a : Agent) (u : CheckId)
  | checkAbort (a : Agent) (u : CheckId)
  | checkOwnerAssign (u : CheckId) (owner : BitVec 2)
  | feedB (a : Agent) (u : CheckId) (v : Byte)
  | feedH (a : Agent) (u : CheckId) (v : Word)
  | feedW (a : Agent) (u : CheckId) (v : DWord)
  | checkFeedProcess (u : CheckId)
  | checkComplete (u : CheckId)
  -- resilience
  | healthInput (h : HealthEvent)
  | riskHoldExpiry (i : RiskInput)
  | secureRequest (v : Word)
  | securingStart (t : TenantId)
  | drainBlockEnd (t : TenantId) (layer : Fin 3) (other : Option (List Byte)) (ok : Bool)
  | drainWaitExpiry (t : TenantId)
  | restoreGo (v : Word) (desc binds : List Byte)
  | restoreStepEnd (data : List Byte) (code : Half)
  -- durable store and power
  | journalRecordRequest (rec : JRecord)
  | coalesceExpiry (t : TenantId)
  | journalCopyAVerified (jseq : Nat)
  | journalRecordCommitted (jseq : Nat)
  | journalScrub (weak : List (Nat × Bool))
  | durableStoreStart
  | wearBudgetUpdate
  | powerSample (p : PowerReading)
  | inputLow
  | inputHigh
  | droopWarning
  | droopRecovery
  | resetLevel
  | resetRecordsComplete
  | inputStable
  | holdupCharged
  | holdupTestEnd (us : Half)
  | holdupRetest (us : Half)
  | railPowerGood
  | railTimeout
  | railRetry
  | railsDown
  | pwrEnOpen
  -- boot and the keeper
  | bootStage (e : StageEnd)
  | trialExpiry
  | keeperWatchdogExpiry
  | entropyFail
  | mbxGo (fromHost : Bool) (v : Word)
  | status
  | measure
  | certGet
  | attest (sig : List Byte)
  | extend
  | stage (manifest : List Byte) (verified : Bool) (cutOff : Bool)
  | activate
  | confirm
  | anchorSet
  | debugToken (accepted : Bool) (token : List Byte)
  | grant
  | revoke
  | wardWrite
  | domainSet
  | frozenDigest
  | frozenRestore
  -- counters and telemetry
  | snapGo (a : Agent)
  | snapshotMarker (unit : Nat)
  | snapshotComplete
  | telemetryPeriod (hostOk : Bool) (temps : Temps)
  -- the module
  | strapCompare (pins : Straps)
  | thermalRead (temps : Temps)
  | thermalReliefExpiry
  | coolDownExpiry
  | setEndpointId (b : Binding) (eid : Byte)
  | getEndpointId (b : Binding)
  | getEndpointUuid (b : Binding)
  | getMctpVersionSupport (b : Binding) (mtype : Byte)
  | getMessageTypeSupport (b : Binding)
  | getVendorMessageSupport (b : Binding)
  | settid (b : Binding) (tid : Byte)
  | gettid (b : Binding)
  | getpldmversion (b : Binding) (ptype : Byte)
  | getpldmtypes (b : Binding)
  | getpldmcommands (b : Binding) (ptype : Byte)
  | getpdrrepositoryinfo (b : Binding)
  | getpdr (b : Binding) (handle : Word)
  | getsensorreading (b : Binding) (id : Half)
  | getstatesensorreadings (b : Binding) (id : Half)
  | pollforplatformeventmessage (b : Binding)
  | telemetryGet (b : Binding)
  | powerStatus (b : Binding)
  | strapsGet (b : Binding) (pins : Straps)
  | unsupportedSidebandMessage (b : Binding) (mtype : Byte) (cmd : Byte)
  -- the remaining rows
  | minClear
  | pwrEnClose
  | inputNormal
  | hbmRefresh (ch : Fin 192) (bank : Nat)
  | interruptTaken (core : Option (Fin 8))
  | bucketRefill
  | hostCopyEnd (t : TenantId) (r : RingId) (idx : Half) (ok : Bool)
  | frozenLoadEnd (t : TenantId) (r : RingId) (idx : Half) (data : List Byte) (code : Half)
  | classChangeEnd
  | dynamicAddressAssignment (addr : BitVec 7)
  deriving DecidableEq, Repr

end Sys2Proof
end

