-- ==== Sys2Proof/Decode.lean ====
section
/-! DEFINITION. No command of the module is spelt by a word of its own: no row of spec/opcode_table.json gives bits. -/

namespace Sys2Proof

/-- The command that a word spells by the table's bits: none, since the table gives no row any bits. -/
def decodeTableWord (_nbits _w : Nat) : Option Instr := none

end Sys2Proof
end

