-- ==== Sys2Proof/Config.lean ====
section
/-! DEFINITION. The values that the spec leaves open: opaque constants with no body, so that no proof can see
what they are. Which command applies which of them is said at the command and in the assumption log. -/

namespace Sys2Proof.Config

/-- The free values: whatever the spec leaves open at one step is this function at the step's own index
(`State.free`). Nothing constrains it. -/
opaque freeValue : Nat → Nat

/-- The secret seed the module's entropy source supplies for stream keys, nonces and the agreement monitor's
private draws (R104, R379, R469, R471). -/
opaque entropy : Nat → Nat

/-- FRSQ of an FP32 operand (R179): which of the results within 2 units in the last place the device returns. -/
opaque frsqPick : Word → Nat

/-- FEXP2 of an FP32 operand (R179), likewise. -/
opaque fexp2Pick : Word → Nat

/-- FLOG2 of an FP32 operand (R179), likewise. -/
opaque flog2Pick : Word → Nat

/-- The two check symbols of a corrected granule's 32 data symbols (R263): the spec names the code, not its field polynomial or
generator. -/
opaque checkSymbols : List Half → Word

/-- The 16 parity bytes of an RS(160,144) codeword's 144 bytes (R302): the spec names the code, not its field polynomial or generator. -/
opaque flitParity : List Byte → BitVec 128

/-- exp of an FP32 operand in the spindle (R138): the spec states no precision. -/
opaque spindleExp : Word → Word

/-- log of an FP32 operand in the spindle (R138), likewise. -/
opaque spindleLog : Word → Word

/-- SHAKE256 of the mask ROM, fixed at manufacture (R467). -/
opaque maskRomDigest : BitVec 256

/-- The module's serial number, which a debug token names (R472). -/
opaque serial : Nat

/-- The endpoint UUID that the module reports on the sideband (R500): the spec gives no value. -/
opaque endpointUuid : BitVec 128

/-- The PCI vendor identifier of the function's configuration space (R500): the spec gives no value. -/
opaque pciVendor : Half

/-- The version that the module reports for a message type or PLDM type (R500): the spec gives none. -/
opaque protocolVersion : Nat → Word

end Sys2Proof.Config
end

