-- ==== Sys2Proof/Machine/Bits.lean ====
section
/-! DEFINITION. Bit fields, byte order and small list operations: little-endian values (R4), fields of records by
byte offset, sign extension, and the codes of R394. -/

namespace Sys2Proof.Machine

/-- The value of bytes, least significant first (R4). -/
def leNat : List Byte → Nat
  | [] => 0
  | b :: bs => b.toNat + 256 * leNat bs

/-- A value as `n` bytes, least significant first (R4). -/
def leBytes : Nat → Nat → List Byte
  | 0, _ => []
  | n + 1, v => BitVec.ofNat 8 v :: leBytes n (v / 256)

/-- The field of `n` bytes at byte offset `off` of a record; bytes beyond its end read 0. -/
def fld (r : List Byte) (off n : Nat) : Nat := leNat ((r.drop off).take n)

/-- Bits `hi` down to `lo` of a value. -/
def bits (v hi lo : Nat) : Nat := v / 2 ^ lo % 2 ^ (hi + 1 - lo)

/-- One bit of a value. -/
def bit (v i : Nat) : Bool := v.testBit i

/-- One bit as a number. -/
def b2n (b : Bool) : Nat := if b then 1 else 0

/-- A value read as a two's complement number of `w` bits. -/
def signed (w v : Nat) : Int :=
  if 2 ^ (w - 1) ≤ v % 2 ^ w then (v % 2 ^ w : Nat) - (2 ^ w : Nat) else ((v % 2 ^ w : Nat) : Int)

/-- A number as a two's complement value of `w` bits. -/
def unsigned (w : Nat) (i : Int) : Nat := (i % (2 ^ w : Nat)).toNat

/-- `v` with bits `lo + w - 1 : lo` replaced by `x`. -/
def setBits (v lo w x : Nat) : Nat :=
  v - v / 2 ^ lo % 2 ^ w * 2 ^ lo + x % 2 ^ w * 2 ^ lo

/-- The record with the bytes `bs` written at byte offset `off`. -/
def patch (r : List Byte) (off : Nat) (bs : List Byte) : List Byte :=
  r.take off ++ bs ++ r.drop (off + bs.length)

/-- The record with the field of `n` bytes at `off` written as `v`. -/
def setFld (r : List Byte) (off n v : Nat) : List Byte := patch r off (leBytes n v)

/-- `n` zero bytes. -/
def zeros (n : Nat) : List Byte := List.replicate n 0

/-- The numbers from `a`, `n` of them, in rising order. -/
def upto (a : Nat) : Nat → List Nat
  | 0 => []
  | n + 1 => a :: upto (a + 1) n

/-- The list with its entry at `i` replaced. -/
def setAt {α : Type} : List α → Nat → α → List α
  | [], _, _ => []
  | _ :: xs, 0, v => v :: xs
  | x :: xs, i + 1, v => x :: setAt xs i v

/-- The list with its entry at `i` changed. -/
def modAt {α : Type} : List α → Nat → (α → α) → List α
  | [], _, _ => []
  | x :: xs, 0, f => f x :: xs
  | x :: xs, i + 1, f => x :: modAt xs i f

/-- The list without its entry at `i`. -/
def dropAt {α : Type} : List α → Nat → List α
  | [], _ => []
  | _ :: xs, 0 => xs
  | x :: xs, i + 1 => x :: dropAt xs i

/-- The position of the first entry that satisfies a test. -/
def findAt {α : Type} (p : α → Bool) : List α → Option Nat
  | [] => none
  | x :: xs => if p x then some 0 else (findAt p xs).map (· + 1)

/-- A list cut into pieces of `n` entries (`fuel` at least its length). -/
def chunks {α : Type} (n : Nat) : Nat → List α → List (List α)
  | 0, _ => []
  | fuel + 1, xs => if xs.isEmpty then [] else xs.take n :: chunks n fuel (xs.drop n)

/-- The sum of a list. -/
def sumNat : List Nat → Nat
  | [] => 0
  | x :: xs => x + sumNat xs

/-- The least power of two whose exponent `e` satisfies `v ≤ 2 ^ e`, from `e`, at most `fuel` tries. -/
def log2UpFrom (v : Nat) : Nat → Nat → Nat
  | 0, e => e
  | fuel + 1, e => if v ≤ 2 ^ e then e else log2UpFrom v fuel (e + 1)

/-- The number of 1 bits of the lowest `n` bits. -/
def popcount : Nat → Nat → Nat
  | 0, _ => 0
  | n + 1, v => v % 2 + popcount n (v / 2)

/-- One step of a reflected CRC: the state with its lowest bit shifted out. -/
def crcStepR (poly st : Nat) : Nat := if st % 2 = 1 then Nat.xor (st / 2) poly else st / 2

/-- One step of an unreflected CRC of width `w`. -/
def crcStepL (w poly st : Nat) : Nat :=
  if st.testBit (w - 1) then Nat.xor (st * 2 % 2 ^ w) poly else st * 2 % 2 ^ w

/-- A function applied `n` times. -/
def times {α : Type} (f : α → α) : Nat → α → α
  | 0, x => x
  | n + 1, x => times f n (f x)

/-- The CRC state after one byte, for the codes of R394: 0 CRC-32C, 1 CRC-64 of ECMA-182, 2 CRC-16 CCITT; 3 acts as 0. -/
def crcByte (poly st : Nat) (b : Byte) : Nat :=
  if poly = 1 then times (crcStepL 64 0x42F0E1EBA9EA3693) 8 (Nat.xor st (b.toNat * 2 ^ 56))
  else if poly = 2 then times (crcStepL 16 0x1021) 8 (Nat.xor st (b.toNat * 2 ^ 8))
  else times (crcStepR 0x82F63B78) 8 (Nat.xor st b.toNat)

/-- The initial value of a code (R394). -/
def crcInit (poly : Nat) : Nat := if poly = 1 then 0 else if poly = 2 then 0xFFFF else 0xFFFFFFFF

/-- The final exclusive-or of a code (R394). -/
def crcFinal (poly st : Nat) : Nat := if poly = 1 ∨ poly = 2 then st else Nat.xor st 0xFFFFFFFF

/-- The CRC state after bytes in ascending order. -/
def crcFold (poly : Nat) : Nat → List Byte → Nat
  | st, [] => st
  | st, b :: bs => crcFold poly (crcByte poly st b) bs

/-- The code of a whole record. -/
def crcOf (poly : Nat) (bs : List Byte) : Nat := crcFinal poly (crcFold poly (crcInit poly) bs)

/-- CRC-32C, the code of the device's records, packets and flits. -/
def crc32c (bs : List Byte) : Nat := crcOf 0 bs

end Sys2Proof.Machine
end

