-- ==== Sys2Proof/Machine/KMap.lean ====
section
/-! DEFINITION. Sparse data by key: a list of key and value pairs in one canonical form, keys strictly rising. -/

namespace Sys2Proof.Machine

/-- Sparse data by key (memory bytes, register words, records by index). -/
abbrev KMap (α : Type) := List (Nat × α)

/-- The value listed under a key. -/
def KMap.find {α : Type} : KMap α → Nat → Option α
  | [], _ => none
  | (k, v) :: m, i => if k = i then some v else KMap.find m i

/-- The value listed under a key, or what an unlisted key reads as. -/
def KMap.get {α : Type} (m : KMap α) (i : Nat) (d : α) : α := (KMap.find m i).getD d

/-- Lists `v` under `i`, in its place. -/
def KMap.put {α : Type} : KMap α → Nat → α → KMap α
  | [], i, v => [(i, v)]
  | (k, w) :: m, i, v =>
    if i < k then (i, v) :: (k, w) :: m
    else if i = k then (i, v) :: m
    else (k, w) :: KMap.put m i v

/-- Unlists a key. -/
def KMap.del {α : Type} (m : KMap α) (i : Nat) : KMap α := m.filter fun kv => kv.1 != i

/-- Writes `v` under `i`, unlisting the key when `v` is what an unlisted key reads as. -/
def KMap.set {α : Type} [DecidableEq α] (m : KMap α) (i : Nat) (v d : α) : KMap α :=
  if v = d then KMap.del m i else KMap.put m i v

/-- Changes the value of a key, which reads as `d` when unlisted. -/
def KMap.modify {α : Type} (m : KMap α) (i : Nat) (d : α) (f : α → α) : KMap α :=
  KMap.put m i (f (KMap.get m i d))

/-- The entries whose key and value satisfy a test. -/
def KMap.keep {α : Type} (m : KMap α) (p : Nat → α → Bool) : KMap α :=
  m.filter fun kv => p kv.1 kv.2

/-- Every value changed, the keys standing. -/
def KMap.mapVals {α : Type} (m : KMap α) (f : Nat → α → α) : KMap α :=
  m.map fun kv => (kv.1, f kv.1 kv.2)

/-- Whether every key of the list is above `k`, and the keys rise. -/
def KMap.risingFrom {α : Type} : Nat → KMap α → Bool
  | _, [] => true
  | k, (j, _) :: m => decide (k < j) && KMap.risingFrom j m

/-- The canonical form: keys strictly rising. -/
def KMap.rising {α : Type} : KMap α → Bool
  | [] => true
  | (k, _) :: m => KMap.risingFrom k m

/-- No entry holds what an unlisted key reads as. -/
def KMap.noDefault {α : Type} [DecidableEq α] (m : KMap α) (d : α) : Bool :=
  m.all fun kv => !decide (kv.2 = d)

end Sys2Proof.Machine
end

