-- ==== Sys2Proof/Machine/Regs.lean ====
section
/-! DEFINITION. The registers of BAR0: one constructor for each register of the register tables of spec/, with its
offset, its width, its reset value, the bits of it that take writes, and its fields. Generated once from those
tables by their columns Bits, Field, Access and Reset. -/

namespace Sys2Proof.Machine

/-- The registers of BAR0 (the rule that gives each stands beside it). An array of registers is one constructor with
its indices. -/
inductive Reg where
  /-- CLK.STATUS (R32) -/
  | clkStatus
  /-- CLK.EVENTS (R32) -/
  | clkEvents
  /-- CLK.ARRDIV (R32) -/
  | clkArrdiv
  /-- CLK.REFSEL (R32) -/
  | clkRefsel
  /-- CLK.FRAME (R32) -/
  | clkFrame
  /-- ARR.STATUS (R66) -/
  | arrStatus
  /-- ARR.QDEPTH (R66) -/
  | arrQdepth
  /-- ARR.CHAINWAIT (R66) -/
  | arrChainwait
  /-- ARR.EVENTS (R66) -/
  | arrEvents
  /-- ARR.ORDER (R66) -/
  | arrOrder
  /-- ARR.TENQUOTA[t] (R66) -/
  | arrTenquota (t : Nat)
  /-- ARR.TENLIMIT[t] (R66) -/
  | arrTenlimit (t : Nat)
  /-- ARR.AGM_CTRL (R118) -/
  | arrAgmCtrl
  /-- ARR.AGM_THRESH[f] (R118) -/
  | arrAgmThresh (f : Nat)
  /-- ARR.AGM_STATUS (R118) -/
  | arrAgmStatus
  /-- ARR.AGM_EVENTS (R118) -/
  | arrAgmEvents
  /-- ARR.AGM_COUNT (R118) -/
  | arrAgmCount
  /-- ARR.AGM_SKIP (R118) -/
  | arrAgmSkip
  /-- ARR.SPN_STATUS (R144) -/
  | arrSpnStatus
  /-- ARR.SPN_EVENTS (R144) -/
  | arrSpnEvents
  /-- ARR.SPN_PAGES (R144) -/
  | arrSpnPages
  /-- ARR.SPN_TENANT[t] (R144) -/
  | arrSpnTenant (t : Nat)
  /-- ARR.CAM_STRETCH (R144) -/
  | arrCamStretch
  /-- ARR.UPD_STATUS (R167) -/
  | arrUpdStatus
  /-- ARR.UPD_EVENTS (R167) -/
  | arrUpdEvents
  /-- ARR.UPD_DRAIN_WAIT (R167) -/
  | arrUpdDrainWait
  /-- ARR.UPD_TENANT[t] (R167) -/
  | arrUpdTenant (t : Nat)
  /-- CST.STATUS (R252) -/
  | cstStatus
  /-- CST.CTRL (R252) -/
  | cstCtrl
  /-- CST.EVENTS (R252) -/
  | cstEvents
  /-- CST.SRAM_CE (R252) -/
  | cstSramCe
  /-- CST.PARTITION[s] (R252) -/
  | cstPartition (s : Nat)
  /-- CST.PARTITION_NEXT[s] (R252) -/
  | cstPartitionNext (s : Nat)
  /-- CST.PART_CTRL (R252) -/
  | cstPartCtrl
  /-- CST.OP_BASE (R252) -/
  | cstOpBase
  /-- CST.OP_LEN (R252) -/
  | cstOpLen
  /-- CST.OP_CTRL (R252) -/
  | cstOpCtrl
  /-- CST.OP_RESULT (R252) -/
  | cstOpResult
  /-- CST.DEADCTL[t] (R252) -/
  | cstDeadctl (t : Nat)
  /-- CST.DEAD_READS[t] (R252) -/
  | cstDeadReads (t : Nat)
  /-- CST.SLICEMAP[w] (R252) -/
  | cstSlicemap (w : Nat)
  /-- HBM.STATUS (R274) -/
  | hbmStatus
  /-- HBM.EVENTS (R274) -/
  | hbmEvents
  /-- HBM.CTRL (R274) -/
  | hbmCtrl
  /-- HBM.CAPACITY (R274) -/
  | hbmCapacity
  /-- HBM.MAPOUT (R274) -/
  | hbmMapout
  /-- HBM.RELAYOUT_FRONTIER (R274) -/
  | hbmRelayoutFrontier
  /-- HBM.RELAYOUT_BUF (R274) -/
  | hbmRelayoutBuf
  /-- HBM.INIT (R274) -/
  | hbmInit
  /-- HBM.UE_ADDR (R274) -/
  | hbmUeAddr
  /-- HBM.CHSTATE[c] (R274) -/
  | hbmChstate (c : Nat)
  /-- HBM.CLASSMAP[w] (R274) -/
  | hbmClassmap (w : Nat)
  /-- HBM.PCMAP[k] (R274) -/
  | hbmPcmap (k : Nat)
  /-- FAB.STATUS (R332) -/
  | fabStatus
  /-- FAB.EVENTS (R332) -/
  | fabEvents
  /-- FAB.NODE (R332) -/
  | fabNode
  /-- FAB.REMOTE_TMO (R332) -/
  | fabRemoteTmo
  /-- FAB.ATOM_RETRY (R332) -/
  | fabAtomRetry
  /-- FAB.OUTSTANDING (R332) -/
  | fabOutstanding
  /-- FAB.PEERS (R332) -/
  | fabPeers
  /-- FAB.E2E_ERR (R332) -/
  | fabE2eErr
  /-- FAB.PORT[p] (R332) -/
  | fabPort (p : Nat)
  /-- FAB.PORT_ERR[p] (R332) -/
  | fabPortErr (p : Nat)
  /-- FAB.PORTMAP[i] (R332) -/
  | fabPortmap (i : Nat)
  /-- SYN.STATUS (R351) -/
  | synStatus
  /-- SYN.EVENTS (R351) -/
  | synEvents
  /-- SYN.REFUSED (R351) -/
  | synRefused
  /-- SYN.TENSLOTS[t] (R351) -/
  | synTenslots (t : Nat)
  /-- SYN.SLOT[s] (R351) -/
  | synSlot (s : Nat)
  /-- HIF.STATUS (R382) -/
  | hifStatus
  /-- HIF.EVENTS (R382) -/
  | hifEvents
  /-- HIF.CTRL (R382) -/
  | hifCtrl
  /-- HIF.APERTURE_BASE (R382) -/
  | hifApertureBase
  /-- HIF.ADMIN_SQ_BASE (R382) -/
  | hifAdminSqBase
  /-- HIF.ADMIN_CQ_BASE (R382) -/
  | hifAdminCqBase
  /-- HIF.ADMIN_CFG (R382) -/
  | hifAdminCfg
  /-- HIF.ADMIN_DB (R382) -/
  | hifAdminDb
  /-- HIF.ADMIN_HEADS (R382) -/
  | hifAdminHeads
  /-- TEN.STATE[t] (R382) -/
  | tenState (t : Nat)
  /-- TEN.EVENTS (R382) -/
  | tenEvents
  /-- ICU.STATUS (R398) -/
  | icuStatus
  /-- ICU.EVENTS (R398) -/
  | icuEvents
  /-- ICU.RAISE (R398) -/
  | icuRaise
  /-- ICU.CORE_PRIO[c] (R398) -/
  | icuCorePrio (c : Nat)
  /-- ICU.MASK_SET[w] (R398) -/
  | icuMaskSet (w : Nat)
  /-- ICU.MASK_CLR[w] (R398) -/
  | icuMaskClr (w : Nat)
  /-- ICU.PEND_SET[w] (R398) -/
  | icuPendSet (w : Nat)
  /-- ICU.PEND_CLR[w] (R398) -/
  | icuPendClr (w : Nat)
  /-- ICU.ROUTE[s] (R398) -/
  | icuRoute (s : Nat)
  /-- CHK.CTRL[u] (R399) -/
  | chkCtrl (u : Nat)
  /-- CHK.STATUS[u] (R399) -/
  | chkStatus (u : Nat)
  /-- CHK.LEN[u] (R399) -/
  | chkLen (u : Nat)
  /-- CHK.TAG[u] (R399) -/
  | chkTag (u : Nat)
  /-- CHK.EXPECT[u] (R399) -/
  | chkExpect (u : Nat)
  /-- CHK.RESULT[u] (R399) -/
  | chkResult (u : Nat)
  /-- CHK.FED[u] (R399) -/
  | chkFed (u : Nat)
  /-- CHK.FEED_B[u] (R399) -/
  | chkFeedB (u : Nat)
  /-- CHK.FEED_H[u] (R399) -/
  | chkFeedH (u : Nat)
  /-- CHK.FEED_W[u] (R399) -/
  | chkFeedW (u : Nat)
  /-- CHK.MISMATCH (R399) -/
  | chkMismatch
  /-- RES.STATUS (R426) -/
  | resStatus
  /-- RES.EVENTS (R426) -/
  | resEvents
  /-- RES.RISK (R426) -/
  | resRisk
  /-- RES.CTRL (R426) -/
  | resCtrl
  /-- RES.FEED (R426) -/
  | resFeed
  /-- RES.PARTNER (R426) -/
  | resPartner
  /-- RES.SECURE (R426) -/
  | resSecure
  /-- RES.RESTORE_DESC (R426) -/
  | resRestoreDesc
  /-- RES.RESTORE_CTRL (R426) -/
  | resRestoreCtrl
  /-- RES.RESTORE_STATUS (R426) -/
  | resRestoreStatus
  /-- RES.POLICY[t] (R426) -/
  | resPolicy (t : Nat)
  /-- RES.L3_ADDR[t] (R426) -/
  | resL3Addr (t : Nat)
  /-- RES.L3_SIZE[t] (R426) -/
  | resL3Size (t : Nat)
  /-- RES.GEN[t][n] (R426) -/
  | resGen (t : Nat) (n : Nat)
  /-- PWR.STATUS (R452) -/
  | pwrStatus
  /-- PWR.EVENTS (R452) -/
  | pwrEvents
  /-- PWR.VIN (R452) -/
  | pwrVin
  /-- PWR.PIN (R452) -/
  | pwrPin
  /-- PWR.LIMIT (R452) -/
  | pwrLimit
  /-- PWR.HOLDUP (R452) -/
  | pwrHoldup
  /-- PWR.CTRL (R452) -/
  | pwrCtrl
  /-- DUR.STATUS (R453) -/
  | durStatus
  /-- DUR.EVENTS (R453) -/
  | durEvents
  /-- DUR.CTRL (R453) -/
  | durCtrl
  /-- DUR.JSEQ (R453) -/
  | durJseq
  /-- DUR.LIFE (R453) -/
  | durLife
  /-- DUR.TLC_WRITTEN (R453) -/
  | durTlcWritten
  /-- DUR.SLC_WRITTEN (R453) -/
  | durSlcWritten
  /-- DUR.HOURS (R453) -/
  | durHours
  /-- DUR.CYCLES (R453) -/
  | durCycles
  /-- DUR.SPARE (R453) -/
  | durSpare
  /-- DUR.BUDGET[a] (R453) -/
  | durBudget (a : Nat)
  /-- DUR.LASTCOMMIT_STEP[u] (R453) -/
  | durLastcommitStep (u : Nat)
  /-- DUR.LASTCOMMIT_SEQ[u] (R453) -/
  | durLastcommitSeq (u : Nat)
  /-- DUR.LASTCOMMIT_CURSOR_LO[u] (R453) -/
  | durLastcommitCursorLo (u : Nat)
  /-- DUR.LASTCOMMIT_CURSOR_HI[u] (R453) -/
  | durLastcommitCursorHi (u : Nat)
  /-- SEC.BOOT_STATUS (R475) -/
  | secBootStatus
  /-- SEC.STATUS (R475) -/
  | secStatus
  /-- SEC.EVENTS (R475) -/
  | secEvents
  /-- SEC.CTRL (R475) -/
  | secCtrl
  /-- SEC.LIMIT (R475) -/
  | secLimit
  /-- SEC.MBX_CTRL (R475) -/
  | secMbxCtrl
  /-- SEC.MBX_STATUS (R475) -/
  | secMbxStatus
  /-- SEC.MBX_BUF[w] (R475) -/
  | secMbxBuf (w : Nat)
  /-- CNT.STATUS (R487) -/
  | cntStatus
  /-- CNT.EVENTS (R487) -/
  | cntEvents
  /-- CNT.SNAP (R487) -/
  | cntSnap
  /-- CNT.SNAP_SEQ (R487) -/
  | cntSnapSeq
  /-- CNT.UNITS (R487) -/
  | cntUnits
  /-- CNT.TELE_CFG (R487) -/
  | cntTeleCfg
  /-- CNT.TELE_BASE (R487) -/
  | cntTeleBase
  /-- CNT.TELE_SEQ (R487) -/
  | cntTeleSeq
  /-- CNT.UNITMAP[i] (R487) -/
  | cntUnitmap (i : Nat)
  /-- CNT.SHADOW[i][k] (R487) -/
  | cntShadow (i : Nat) (k : Nat)
  /-- PWR.THERM (R507) -/
  | pwrTherm
  /-- PWR.STRAPS (R507) -/
  | pwrStraps
  /-- ICU.MSIX[v][k] (R389) -/
  | icuMsix (v : Nat) (k : Nat)
  /-- ICU.PBA[w] (R389) -/
  | icuPba (w : Nat)
  deriving DecidableEq, Repr

/-- The BAR0 offset of a register: its block's base (the table of BAR0 register blocks) and its offset in the block. -/
def Reg.offset : Reg → Nat
  | .clkStatus => 0x10000
  | .clkEvents => 0x10004
  | .clkArrdiv => 0x10008
  | .clkRefsel => 0x1000c
  | .clkFrame => 0x10010
  | .arrStatus => 0x200000
  | .arrQdepth => 0x200004
  | .arrChainwait => 0x200008
  | .arrEvents => 0x20000c
  | .arrOrder => 0x200010
  | .arrTenquota t => 0x200100 + 0x4 * t
  | .arrTenlimit t => 0x200140 + 0x4 * t
  | .arrAgmCtrl => 0x200800
  | .arrAgmThresh f => 0x200810 + 0x4 * f
  | .arrAgmStatus => 0x200840
  | .arrAgmEvents => 0x200844
  | .arrAgmCount => 0x200848
  | .arrAgmSkip => 0x200850
  | .arrSpnStatus => 0x200c00
  | .arrSpnEvents => 0x200c04
  | .arrSpnPages => 0x200c08
  | .arrSpnTenant t => 0x200c40 + 0x4 * t
  | .arrCamStretch => 0x200c80
  | .arrUpdStatus => 0x201000
  | .arrUpdEvents => 0x201004
  | .arrUpdDrainWait => 0x201008
  | .arrUpdTenant t => 0x201040 + 0x4 * t
  | .cstStatus => 0x300000
  | .cstCtrl => 0x300004
  | .cstEvents => 0x300008
  | .cstSramCe => 0x30000c
  | .cstPartition s => 0x300010 + 0x4 * s
  | .cstPartitionNext s => 0x300020 + 0x4 * s
  | .cstPartCtrl => 0x300030
  | .cstOpBase => 0x300040
  | .cstOpLen => 0x300048
  | .cstOpCtrl => 0x30004c
  | .cstOpResult => 0x300050
  | .cstDeadctl t => 0x300100 + 0x4 * t
  | .cstDeadReads t => 0x300180 + 0x4 * t
  | .cstSlicemap w => 0x310000 + 0x4 * w
  | .hbmStatus => 0x400000
  | .hbmEvents => 0x400004
  | .hbmCtrl => 0x400008
  | .hbmCapacity => 0x400010
  | .hbmMapout => 0x400018
  | .hbmRelayoutFrontier => 0x400020
  | .hbmRelayoutBuf => 0x400028
  | .hbmInit => 0x400030
  | .hbmUeAddr => 0x400038
  | .hbmChstate c => 0x400100 + 0x4 * c
  | .hbmClassmap w => 0x401000 + 0x4 * w
  | .hbmPcmap k => 0x402000 + 0x4 * k
  | .fabStatus => 0x500000
  | .fabEvents => 0x500004
  | .fabNode => 0x500008
  | .fabRemoteTmo => 0x50000c
  | .fabAtomRetry => 0x500010
  | .fabOutstanding => 0x500014
  | .fabPeers => 0x500018
  | .fabE2eErr => 0x50001c
  | .fabPort p => 0x500100 + 0x4 * p
  | .fabPortErr p => 0x500140 + 0x8 * p
  | .fabPortmap i => 0x500200 + 0x4 * i
  | .synStatus => 0x600000
  | .synEvents => 0x600004
  | .synRefused => 0x600008
  | .synTenslots t => 0x600040 + 0x4 * t
  | .synSlot s => 0x600100 + 0x8 * s
  | .hifStatus => 0x40000
  | .hifEvents => 0x40004
  | .hifCtrl => 0x40008
  | .hifApertureBase => 0x40010
  | .hifAdminSqBase => 0x40018
  | .hifAdminCqBase => 0x40020
  | .hifAdminCfg => 0x40028
  | .hifAdminDb => 0x4002c
  | .hifAdminHeads => 0x40030
  | .tenState t => 0x80000 + 0x4 * t
  | .tenEvents => 0x80040
  | .icuStatus => 0x100000
  | .icuEvents => 0x100004
  | .icuRaise => 0x100008
  | .icuCorePrio c => 0x100100 + 0x4 * c
  | .icuMaskSet w => 0x101000 + 4 * w
  | .icuMaskClr w => 0x101200 + 4 * w
  | .icuPendSet w => 0x101400 + 4 * w
  | .icuPendClr w => 0x101600 + 4 * w
  | .icuRoute s => 0x102000 + 0x4 * s
  | .chkCtrl u => 0x110000 + 0x80 * u
  | .chkStatus u => 0x110004 + 0x80 * u
  | .chkLen u => 0x110008 + 0x80 * u
  | .chkTag u => 0x110010 + 0x80 * u
  | .chkExpect u => 0x110018 + 0x80 * u
  | .chkResult u => 0x110020 + 0x80 * u
  | .chkFed u => 0x110028 + 0x80 * u
  | .chkFeedB u => 0x110030 + 0x80 * u
  | .chkFeedH u => 0x110034 + 0x80 * u
  | .chkFeedW u => 0x110038 + 0x80 * u
  | .chkMismatch => 0x111000
  | .resStatus => 0x700000
  | .resEvents => 0x700004
  | .resRisk => 0x700008
  | .resCtrl => 0x70000c
  | .resFeed => 0x700010
  | .resPartner => 0x700018
  | .resSecure => 0x700020
  | .resRestoreDesc => 0x700028
  | .resRestoreCtrl => 0x700030
  | .resRestoreStatus => 0x700034
  | .resPolicy t => 0x700100 + 0x8 * t
  | .resL3Addr t => 0x700200 + 0x8 * t
  | .resL3Size t => 0x700280 + 0x4 * t
  | .resGen t n => 0x700400 + 0x20 * t + 0x8 * (n - 1)
  | .pwrStatus => 0x20000
  | .pwrEvents => 0x20004
  | .pwrVin => 0x20008
  | .pwrPin => 0x2000c
  | .pwrLimit => 0x20010
  | .pwrHoldup => 0x20014
  | .pwrCtrl => 0x20018
  | .durStatus => 0x800000
  | .durEvents => 0x800004
  | .durCtrl => 0x800008
  | .durJseq => 0x800010
  | .durLife => 0x800018
  | .durTlcWritten => 0x800020
  | .durSlcWritten => 0x800028
  | .durHours => 0x800030
  | .durCycles => 0x800034
  | .durSpare => 0x800038
  | .durBudget a => 0x800040 + 0x8 * a
  | .durLastcommitStep u => 0x800100 + 0x20 * u
  | .durLastcommitSeq u => 0x800108 + 0x20 * u
  | .durLastcommitCursorLo u => 0x800110 + 0x20 * u
  | .durLastcommitCursorHi u => 0x800118 + 0x20 * u
  | .secBootStatus => 0xa00000
  | .secStatus => 0xa00004
  | .secEvents => 0xa00008
  | .secCtrl => 0xa0000c
  | .secLimit => 0xa00010
  | .secMbxCtrl => 0xa00020
  | .secMbxStatus => 0xa00024
  | .secMbxBuf w => 0xa01000 + 4 * w
  | .cntStatus => 0x900000
  | .cntEvents => 0x900004
  | .cntSnap => 0x900008
  | .cntSnapSeq => 0x90000c
  | .cntUnits => 0x900010
  | .cntTeleCfg => 0x900014
  | .cntTeleBase => 0x900018
  | .cntTeleSeq => 0x900020
  | .cntUnitmap i => 0x900100 + 0x4 * i
  | .cntShadow i k => 0x910000 + 0x80 * i + 0x8 * k
  | .pwrTherm => 0x20020
  | .pwrStraps => 0x20024
  | .icuMsix v k => 0x108000 + 0x10 * v + 4 * k
  | .icuPba w => 0x107f00 + 8 * w

/-- Whether a register is one of those marked 64-bit. -/
def Reg.wide : Reg → Bool
  | .clkStatus => false
  | .clkEvents => false
  | .clkArrdiv => false
  | .clkRefsel => false
  | .clkFrame => true
  | .arrStatus => false
  | .arrQdepth => false
  | .arrChainwait => false
  | .arrEvents => false
  | .arrOrder => true
  | .arrTenquota _ => false
  | .arrTenlimit _ => false
  | .arrAgmCtrl => false
  | .arrAgmThresh _ => false
  | .arrAgmStatus => false
  | .arrAgmEvents => false
  | .arrAgmCount => true
  | .arrAgmSkip => false
  | .arrSpnStatus => false
  | .arrSpnEvents => false
  | .arrSpnPages => false
  | .arrSpnTenant _ => false
  | .arrCamStretch => true
  | .arrUpdStatus => false
  | .arrUpdEvents => false
  | .arrUpdDrainWait => true
  | .arrUpdTenant _ => false
  | .cstStatus => false
  | .cstCtrl => false
  | .cstEvents => false
  | .cstSramCe => false
  | .cstPartition _ => false
  | .cstPartitionNext _ => false
  | .cstPartCtrl => false
  | .cstOpBase => true
  | .cstOpLen => false
  | .cstOpCtrl => false
  | .cstOpResult => false
  | .cstDeadctl _ => false
  | .cstDeadReads _ => false
  | .cstSlicemap _ => false
  | .hbmStatus => false
  | .hbmEvents => false
  | .hbmCtrl => false
  | .hbmCapacity => true
  | .hbmMapout => false
  | .hbmRelayoutFrontier => true
  | .hbmRelayoutBuf => false
  | .hbmInit => false
  | .hbmUeAddr => true
  | .hbmChstate _ => false
  | .hbmClassmap _ => false
  | .hbmPcmap _ => false
  | .fabStatus => false
  | .fabEvents => false
  | .fabNode => false
  | .fabRemoteTmo => false
  | .fabAtomRetry => false
  | .fabOutstanding => false
  | .fabPeers => false
  | .fabE2eErr => false
  | .fabPort _ => false
  | .fabPortErr _ => true
  | .fabPortmap _ => false
  | .synStatus => false
  | .synEvents => false
  | .synRefused => false
  | .synTenslots _ => false
  | .synSlot _ => true
  | .hifStatus => false
  | .hifEvents => false
  | .hifCtrl => false
  | .hifApertureBase => true
  | .hifAdminSqBase => true
  | .hifAdminCqBase => true
  | .hifAdminCfg => false
  | .hifAdminDb => false
  | .hifAdminHeads => false
  | .tenState _ => false
  | .tenEvents => false
  | .icuStatus => false
  | .icuEvents => false
  | .icuRaise => false
  | .icuCorePrio _ => false
  | .icuMaskSet _ => false
  | .icuMaskClr _ => false
  | .icuPendSet _ => false
  | .icuPendClr _ => false
  | .icuRoute _ => false
  | .chkCtrl _ => false
  | .chkStatus _ => false
  | .chkLen _ => true
  | .chkTag _ => true
  | .chkExpect _ => true
  | .chkResult _ => true
  | .chkFed _ => true
  | .chkFeedB _ => false
  | .chkFeedH _ => false
  | .chkFeedW _ => true
  | .chkMismatch => false
  | .resStatus => false
  | .resEvents => false
  | .resRisk => false
  | .resCtrl => false
  | .resFeed => false
  | .resPartner => true
  | .resSecure => false
  | .resRestoreDesc => true
  | .resRestoreCtrl => false
  | .resRestoreStatus => false
  | .resPolicy _ => true
  | .resL3Addr _ => true
  | .resL3Size _ => false
  | .resGen _ _ => true
  | .pwrStatus => false
  | .pwrEvents => false
  | .pwrVin => false
  | .pwrPin => false
  | .pwrLimit => false
  | .pwrHoldup => false
  | .pwrCtrl => false
  | .durStatus => false
  | .durEvents => false
  | .durCtrl => false
  | .durJseq => true
  | .durLife => false
  | .durTlcWritten => true
  | .durSlcWritten => true
  | .durHours => false
  | .durCycles => false
  | .durSpare => false
  | .durBudget _ => true
  | .durLastcommitStep _ => true
  | .durLastcommitSeq _ => true
  | .durLastcommitCursorLo _ => true
  | .durLastcommitCursorHi _ => true
  | .secBootStatus => false
  | .secStatus => false
  | .secEvents => false
  | .secCtrl => false
  | .secLimit => true
  | .secMbxCtrl => false
  | .secMbxStatus => false
  | .secMbxBuf _ => false
  | .cntStatus => false
  | .cntEvents => false
  | .cntSnap => false
  | .cntSnapSeq => false
  | .cntUnits => false
  | .cntTeleCfg => false
  | .cntTeleBase => true
  | .cntTeleSeq => false
  | .cntUnitmap _ => false
  | .cntShadow _ _ => true
  | .pwrTherm => false
  | .pwrStraps => false
  | .icuMsix _ _ => false
  | .icuPba _ => true

/-- The owner code of an interrupt source (R385): 0 host, 1 service firmware, 2 keeper, 3 for a reserved source. The
sources of the check units start with service firmware, those of units 28 to 31 with the keeper, as CHK.CTRL.OWNER does. -/
def sourceOwner0 (s : Nat) : Nat :=
  if s < 0x410 then 0
  else if s = 0x410 then 0
  else if 0x420 ≤ s ∧ s < 0x43C then 1
  else if 0x43C ≤ s ∧ s < 0x440 then 2
  else if 0x440 ≤ s ∧ s < 0x460 then 1
  else if 0x480 ≤ s ∧ s < 0x4A0 then 0
  else if 0x800 ≤ s ∧ s < 0xC00 then 1
  else if 0xC00 ≤ s ∧ s < 0xD00 then 2
  else if 0xF00 ≤ s ∧ s < 0xF80 then 0
  else if 0xF80 ≤ s ∧ s < 0x1000 then 1
  else 3

/-- The kinds of one die and the number of units of each kind there (R477, R478), in ascending order of identifier. -/
def unitKinds (die : Nat) : List (Nat × Nat × Nat) :=
  if die = 4 then [(0x13, 0, 1)]
  else if die = 5 then [(0x14, 0, 1)]
  else
    (if die = 0 then [(0x00, 0, 1), (0x01, 0, 1)] else []) ++ [(0x02, 0, 1)] ++
    (if die = 2 then [(0x03, 0, 1)] else []) ++
    [(0x04, 0, 1), (0x05, 0, 32), (0x06, 0, 48), (0x07, 0, 1), (0x08, 0, 48), (0x09, 0, 4),
     (0x0A, if die = 0 then 0 else 2 * die + 1, if die = 0 then 3 else 2)] ++
    (if die = 0 then [(0x0B, 0, 1)] else []) ++ [(0x0C, 0, 2)] ++
    (if die = 0 then [(0x0D, 0, 1), (0x0E, 0, 32)] else []) ++
    (if die = 1 then [(0x0F, 0, 1)] else []) ++ (if die = 3 then [(0x10, 0, 1)] else []) ++
    (if die = 0 then [(0x11, 0, 1)] else []) ++ [(0x12, 0, 1)]

/-- The identifier of a unit (R477): die, kind, instance. -/
def unitIdOf (die kind inst : Nat) : Nat := die * 0x2000 + kind * 0x100 + inst

/-- The identifier of the unit at an index among one die's kinds. -/
def unitAtIn (die : Nat) : List (Nat × Nat × Nat) → Nat → Option Nat
  | [], _ => none
  | (k, first, n) :: rest, i => if i < n then some (unitIdOf die k (first + i)) else unitAtIn die rest (i - n)

/-- How many units one die holds. -/
def unitCountIn : List (Nat × Nat × Nat) → Nat
  | [] => 0
  | (_, _, n) :: rest => n + unitCountIn rest

/-- The identifier of the unit at an index among a list of dies. -/
def unitAtDies : List Nat → Nat → Nat
  | [], _ => 0
  | d :: ds, i =>
    if i < unitCountIn (unitKinds d) then (unitAtIn d (unitKinds d) i).getD 0
    else unitAtDies ds (i - unitCountIn (unitKinds d))

/-- The identifier of unit index `i` (R485): the 603 units of R478 in ascending order of identifier. -/
def unitAt (i : Nat) : Nat := unitAtDies [0, 1, 2, 3, 4, 5] i

/-- The default disagreement thresholds of a format code (R108): the alarm and the warning exponent, 0 for off. -/
def agmDefault (f : Nat) : Nat × Nat :=
  if f = 0 ∨ f = 8 then (8, 10) else if f = 1 then (5, 7) else if f = 2 then (3, 4)
  else if f = 3 ∨ f = 6 then (2, 3) else (0, 0)

/-- The value a register holds at reset, as the Reset columns of the register tables give it. -/
def Reg.reset : Reg → DWord
  | .clkStatus => 0x0
  | .clkEvents => 0x0
  | .clkArrdiv => 0x0
  | .clkRefsel => 0x2
  | .clkFrame => 0x0
  | .arrStatus => 0x0
  | .arrQdepth => 0x0
  | .arrChainwait => 0x1000
  | .arrEvents => 0x0
  | .arrOrder => 0x1111111111111111
  | .arrTenquota _ => 0x20
  | .arrTenlimit _ => 0xFFFFFF
  | .arrAgmCtrl => 0x861
  | .arrAgmThresh f => BitVec.ofNat 64 ((agmDefault f).1 * 256 + (agmDefault f).2)
  | .arrAgmStatus => 0x0
  | .arrAgmEvents => 0x0
  | .arrAgmCount => 0x0
  | .arrAgmSkip => 0x0
  | .arrSpnStatus => 0x0
  | .arrSpnEvents => 0x0
  | .arrSpnPages => 0x100
  | .arrSpnTenant _ => 0x2010
  | .arrCamStretch => 0x0
  | .arrUpdStatus => 0x0
  | .arrUpdEvents => 0x0
  | .arrUpdDrainWait => 0x0
  | .arrUpdTenant _ => 0x0
  | .cstStatus => 0x0
  | .cstCtrl => 0x3
  | .cstEvents => 0x0
  | .cstSramCe => 0x0
  | .cstPartition _ => 0x100
  | .cstPartitionNext _ => 0x0
  | .cstPartCtrl => 0x0
  | .cstOpBase => 0x0
  | .cstOpLen => 0x0
  | .cstOpCtrl => 0x0
  | .cstOpResult => 0x0
  | .cstDeadctl _ => 0x0
  | .cstDeadReads _ => 0x0
  | .cstSlicemap _ => 0x32103210
  | .hbmStatus => 0x0
  | .hbmEvents => 0x0
  | .hbmCtrl => 0x43C
  | .hbmCapacity => 0x0
  | .hbmMapout => 0x0
  | .hbmRelayoutFrontier => 0x0
  | .hbmRelayoutBuf => 0x0
  | .hbmInit => 0x0
  | .hbmUeAddr => 0x0
  | .hbmChstate _ => 0x0
  | .hbmClassmap _ => 0x0
  | .hbmPcmap _ => 0x1FF
  | .fabStatus => 0x0
  | .fabEvents => 0x0
  | .fabNode => 0xFFFF
  | .fabRemoteTmo => 0x32
  | .fabAtomRetry => 0x19
  | .fabOutstanding => 0x0
  | .fabPeers => 0x0
  | .fabE2eErr => 0x0
  | .fabPort _ => 0x0
  | .fabPortErr _ => 0x0
  | .fabPortmap _ => 0x0
  | .synStatus => 0x0
  | .synEvents => 0x0
  | .synRefused => 0x0
  | .synTenslots _ => 0x4
  | .synSlot _ => 0x0
  | .hifStatus => 0x0
  | .hifEvents => 0x0
  | .hifCtrl => 0xA0000
  | .hifApertureBase => 0x0
  | .hifAdminSqBase => 0x0
  | .hifAdminCqBase => 0x0
  | .hifAdminCfg => 0x404
  | .hifAdminDb => 0x0
  | .hifAdminHeads => 0x0
  | .tenState _ => 0x0
  | .tenEvents => 0x0
  | .icuStatus => 0x0
  | .icuEvents => 0x0
  | .icuRaise => 0x0
  | .icuCorePrio _ => 0xFF
  | .icuMaskSet _ => 0xFFFFFFFF
  | .icuMaskClr _ => 0xFFFFFFFF
  | .icuPendSet _ => 0x0
  | .icuPendClr _ => 0x0
  | .icuRoute s => BitVec.ofNat 64 (0x0FF80000 + (sourceOwner0 s % 4) * 0x50000000)
  | .chkCtrl u => if 28 ≤ u then 0x200 else 0
  | .chkStatus _ => 0x0
  | .chkLen _ => 0x0
  | .chkTag _ => 0x0
  | .chkExpect _ => 0x0
  | .chkResult _ => 0x0
  | .chkFed _ => 0x0
  | .chkFeedB _ => 0x0
  | .chkFeedH _ => 0x0
  | .chkFeedW _ => 0x0
  | .chkMismatch => 0x0
  | .resStatus => 0x0
  | .resEvents => 0x0
  | .resRisk => 0x0
  | .resCtrl => 0x3C0002
  | .resFeed => 0xFFFFFFFF
  | .resPartner => 0xFFFFFFFF
  | .resSecure => 0x0
  | .resRestoreDesc => 0x0
  | .resRestoreCtrl => 0x0
  | .resRestoreStatus => 0x0
  | .resPolicy _ => 0x3E80032
  | .resL3Addr _ => 0x0
  | .resL3Size _ => 0x0
  | .resGen _ _ => 0xFFFFFFFFFFFFFFFF
  | .pwrStatus => 0x1
  | .pwrEvents => 0x0
  | .pwrVin => 0xFFFF0000
  | .pwrPin => 0x0
  | .pwrLimit => 0x960
  | .pwrHoldup => 0x0
  | .pwrCtrl => 0x0
  | .durStatus => 0x0
  | .durEvents => 0x0
  | .durCtrl => 0xC8
  | .durJseq => 0x0
  | .durLife => 0x0
  | .durTlcWritten => 0x0
  | .durSlcWritten => 0x0
  | .durHours => 0x0
  | .durCycles => 0x0
  | .durSpare => 0x0
  | .durBudget _ => 0x0
  | .durLastcommitStep _ => 0x0
  | .durLastcommitSeq _ => 0x0
  | .durLastcommitCursorLo _ => 0x0
  | .durLastcommitCursorHi _ => 0x0
  | .secBootStatus => 0x0
  | .secStatus => 0x0
  | .secEvents => 0x0
  | .secCtrl => 0x258
  | .secLimit => 0x0
  | .secMbxCtrl => 0x0
  | .secMbxStatus => 0x0
  | .secMbxBuf _ => 0x0
  | .cntStatus => 0x0
  | .cntEvents => 0x0
  | .cntSnap => 0x0
  | .cntSnapSeq => 0x0
  | .cntUnits => 0x25B
  | .cntTeleCfg => 0x403E8
  | .cntTeleBase => 0x0
  | .cntTeleSeq => 0x0
  | .cntUnitmap i => BitVec.ofNat 64 (unitAt i)
  | .cntShadow _ _ => 0x0
  | .pwrTherm => 0x0
  | .pwrStraps => 0
  | .icuMsix _ k => if k = 3 then 1 else 0
  | .icuPba _ => 0x0

/-- The bits of a register whose access type is RW. -/
def Reg.rwMask : Reg → DWord
  | .clkArrdiv => 0x3
  | .clkRefsel => 0x3
  | .arrChainwait => 0xFFFFFF
  | .cstDeadctl _ => 0x1
  | .fabRemoteTmo => 0x3FF
  | .fabAtomRetry => 0x3F
  | .hifCtrl => 0xFFFF0001
  | .hifApertureBase => 0xFFFFFFFFFFFFF000
  | .hifAdminSqBase => 0xFFFFFFFFFFFFF000
  | .hifAdminCqBase => 0xFFFFFFFFFFFFF000
  | .hifAdminCfg => 0xFFFF0F0F
  | .hifAdminDb => 0xFFFFFFFF
  | .icuCorePrio _ => 0xFF
  | .icuRoute _ => 0xCFFFF7FF
  | .chkCtrl _ => 0x31F
  | .chkLen _ => 0xFFFFFFFFFFFFFFFF
  | .chkTag _ => 0xFFFFFFFFFFFFFFFF
  | .chkExpect _ => 0xFFFFFFFFFFFFFFFF
  | .resCtrl => 0xFFFFFFFF
  | .resRestoreDesc => 0xFFFFFFFFFFFFFFC0
  | .resRestoreCtrl => 0xF
  | .resPolicy _ => 0xFFFFFFFFFFFF
  | .resL3Addr _ => 0xFFFFFFFFFFFFFFFF
  | .resL3Size _ => 0xFFFFFFFF
  | .pwrLimit => 0xFFF
  | .durCtrl => 0x3FF
  | .secCtrl => 0xFFFF
  | .secMbxCtrl => 0x1FFF00FF
  | .secMbxBuf _ => 0xFFFFFFFF
  | .cntTeleCfg => 0x800FFFFF
  | .cntTeleBase => 0xFFFFFFFFFFFFFF00
  | .icuMsix _ _ => 0xFFFFFFFF
  | _ => 0

/-- The bits of a register whose access type is W1C and that take a clearing write under R8 (the ICU windows have commands of their own). -/
def Reg.w1cMask : Reg → DWord
  | .clkEvents => 0xF
  | .arrEvents => 0xF
  | .arrAgmEvents => 0xF
  | .arrSpnEvents => 0xF
  | .arrUpdEvents => 0x7
  | .cstEvents => 0x3F
  | .hbmEvents => 0x3F
  | .fabEvents => 0x7F
  | .synEvents => 0x1F
  | .hifEvents => 0xF
  | .tenEvents => 0xFFFFFFFF
  | .icuEvents => 0x3
  | .chkMismatch => 0xFFFFFFFF
  | .resEvents => 0xFF
  | .pwrEvents => 0x3F
  | .durEvents => 0x3F
  | .secEvents => 0x7
  | .cntEvents => 0x7
  | _ => 0

/-- The bits of a register that are not reserved. -/
def Reg.fieldMask : Reg → DWord
  | .clkStatus => 0xFF
  | .clkEvents => 0xF
  | .clkArrdiv => 0xFF
  | .clkRefsel => 0x3
  | .clkFrame => 0xFFFFFFFFFFFFFFFF
  | .arrStatus => 0xF39
  | .arrQdepth => 0x3FF
  | .arrChainwait => 0xFFFFFF
  | .arrEvents => 0xF
  | .arrOrder => 0xFFFFFFFFFFFFFFFF
  | .arrTenquota _ => 0x3FF
  | .arrTenlimit _ => 0xFFFFFF
  | .arrAgmCtrl => 0xFFF9
  | .arrAgmThresh _ => 0xFFFF
  | .arrAgmStatus => 0x7
  | .arrAgmEvents => 0xF
  | .arrAgmCount => 0xFFFFFFFFFFFFFFFF
  | .arrAgmSkip => 0xFFFFFFFF
  | .arrSpnStatus => 0x7FF
  | .arrSpnEvents => 0xF
  | .arrSpnPages => 0x1FF
  | .arrSpnTenant _ => 0x7FFFFFF
  | .arrCamStretch => 0xFFFFFFFFFFFFFFFF
  | .arrUpdStatus => 0x1FF
  | .arrUpdEvents => 0x7
  | .arrUpdDrainWait => 0xFFFFFFFFFFFFFFFF
  | .arrUpdTenant _ => 0x7
  | .cstStatus => 0xF
  | .cstCtrl => 0x3
  | .cstEvents => 0x3F
  | .cstSramCe => 0xFFFFFFFF
  | .cstPartition _ => 0x7FFFFFF
  | .cstPartitionNext _ => 0x3FFFF
  | .cstPartCtrl => 0x1
  | .cstOpBase => 0xFFFFFFFFFF00
  | .cstOpLen => 0xFFFFFFFF
  | .cstOpCtrl => 0xF
  | .cstOpResult => 0xFFFFFFFF
  | .cstDeadctl _ => 0x3
  | .cstDeadReads _ => 0xFFFFFFFF
  | .cstSlicemap _ => 0xFFFFFFFF
  | .hbmStatus => 0x1FF000F
  | .hbmEvents => 0x3F
  | .hbmCtrl => 0xFFFF
  | .hbmCapacity => 0xFFFFFFFFFFFFFFFF
  | .hbmMapout => 0x800000FF
  | .hbmRelayoutFrontier => 0xFFFFFFFFFF
  | .hbmRelayoutBuf => 0xFFFFFF
  | .hbmInit => 0x1
  | .hbmUeAddr => 0xFFFFFFFFFFC0
  | .hbmChstate _ => 0xC0FFFFFF
  | .hbmClassmap _ => 0xFFFFFFFF
  | .hbmPcmap _ => 0x1FF
  | .fabStatus => 0x7FF
  | .fabEvents => 0x7F
  | .fabNode => 0xFFFFFFFF
  | .fabRemoteTmo => 0x3FF
  | .fabAtomRetry => 0x3F
  | .fabOutstanding => 0x3FFF3FFF
  | .fabPeers => 0x1FFFF
  | .fabE2eErr => 0xFFFFFFFF
  | .fabPort _ => 0xFF7
  | .fabPortErr _ => 0xFFFFFFFFFFFFFFFF
  | .fabPortmap _ => 0xFFFFFFFF
  | .synStatus => 0xFF
  | .synEvents => 0x1F
  | .synRefused => 0xFFFFFFFF
  | .synTenslots _ => 0x7F7F
  | .synSlot _ => 0xFFFFFFFF000F0003
  | .hifStatus => 0x1FF
  | .hifEvents => 0xF
  | .hifCtrl => 0xFFFF0007
  | .hifApertureBase => 0xFFFFFFFFFFFFF000
  | .hifAdminSqBase => 0xFFFFFFFFFFFFF000
  | .hifAdminCqBase => 0xFFFFFFFFFFFFF000
  | .hifAdminCfg => 0xFFFF0F0F
  | .hifAdminDb => 0xFFFFFFFF
  | .hifAdminHeads => 0xFFFFFFFF
  | .tenState _ => 0xFFFFFF03
  | .tenEvents => 0xFFFFFFFF
  | .icuStatus => 0x3
  | .icuEvents => 0x3
  | .icuRaise => 0xFFF
  | .icuCorePrio _ => 0x1FFF
  | .icuMaskSet _ => 0xFFFFFFFF
  | .icuMaskClr _ => 0xFFFFFFFF
  | .icuPendSet _ => 0xFFFFFFFF
  | .icuPendClr _ => 0xFFFFFFFF
  | .icuRoute _ => 0xFFFFF7FF
  | .chkCtrl _ => 0x3FF
  | .chkStatus _ => 0x1FF
  | .chkLen _ => 0xFFFFFFFFFFFFFFFF
  | .chkTag _ => 0xFFFFFFFFFFFFFFFF
  | .chkExpect _ => 0xFFFFFFFFFFFFFFFF
  | .chkResult _ => 0xFFFFFFFFFFFFFFFF
  | .chkFed _ => 0xFFFFFFFFFFFFFFFF
  | .chkFeedB _ => 0xFFFFFFFF
  | .chkFeedH _ => 0xFFFFFFFF
  | .chkFeedW _ => 0xFFFFFFFFFFFFFFFF
  | .chkMismatch => 0xFFFFFFFF
  | .resStatus => 0x1F
  | .resEvents => 0xFF
  | .resRisk => 0xFFFF0003
  | .resCtrl => 0xFFFFFFFF
  | .resFeed => 0xFFFFFFFF
  | .resPartner => 0xFFFFFFFFFFFF
  | .resSecure => 0x8000070F
  | .resRestoreDesc => 0xFFFFFFFFFFFFFFC0
  | .resRestoreCtrl => 0x8000000F
  | .resRestoreStatus => 0xFFFF800F
  | .resPolicy _ => 0xFFFFFFFFFFFF
  | .resL3Addr _ => 0xFFFFFFFFFFFFFFFF
  | .resL3Size _ => 0xFFFFFFFF
  | .resGen _ _ => 0xFFFFFFFFFFFFFFFF
  | .pwrStatus => 0x17
  | .pwrEvents => 0x3F
  | .pwrVin => 0xFFFFFFFF
  | .pwrPin => 0xFFFFFFFF
  | .pwrLimit => 0xFFF
  | .pwrHoldup => 0xFFFF
  | .pwrCtrl => 0x1
  | .durStatus => 0xFF
  | .durEvents => 0x3F
  | .durCtrl => 0x3FF
  | .durJseq => 0xFFFFFFFFFFFFFFFF
  | .durLife => 0xFFFFFFFF
  | .durTlcWritten => 0xFFFFFFFFFFFFFFFF
  | .durSlcWritten => 0xFFFFFFFFFFFFFFFF
  | .durHours => 0xFFFFFFFF
  | .durCycles => 0xFFFFFFFF
  | .durSpare => 0xFFFFFFFF
  | .durBudget _ => 0xFFFFFFFFFFFFFFFF
  | .durLastcommitStep _ => 0xFFFFFFFFFFFFFFFF
  | .durLastcommitSeq _ => 0xFFFFFFFFFFFFFFFF
  | .durLastcommitCursorLo _ => 0xFFFFFFFFFFFFFFFF
  | .durLastcommitCursorHi _ => 0xFFFFFFFFFFFFFFFF
  | .secBootStatus => 0xFF00FFC7
  | .secStatus => 0xF
  | .secEvents => 0x7
  | .secCtrl => 0xFFFF
  | .secLimit => 0x1FFFFFFFFFF
  | .secMbxCtrl => 0x9FFF00FF
  | .secMbxStatus => 0xFFFF1FFF
  | .secMbxBuf _ => 0xFFFFFFFF
  | .cntStatus => 0x7
  | .cntEvents => 0x7
  | .cntSnap => 0x1
  | .cntSnapSeq => 0xFFFFFFFF
  | .cntUnits => 0x3FF
  | .cntTeleCfg => 0x800FFFFF
  | .cntTeleBase => 0xFFFFFFFFFFFFFF00
  | .cntTeleSeq => 0xFFFFFFFF
  | .cntUnitmap _ => 0xFFFF
  | .cntShadow _ _ => 0xFFFFFFFFFFFFFFFF
  | .pwrTherm => 0xFFFFFF
  | .pwrStraps => 0x303F
  | .icuMsix _ _ => 0xFFFFFFFF
  | .icuPba _ => 0xFFFFFFFFFFFFFFFF

/-- The register of block CLK that stands at a BAR0 offset. -/
def Reg.findClk (o : Nat) : Option Reg :=
  if o = 0x10000 then some .clkStatus else
  if o = 0x10004 then some .clkEvents else
  if o = 0x10008 then some .clkArrdiv else
  if o = 0x1000c then some .clkRefsel else
  if o = 0x10010 then some .clkFrame else
  none

/-- The register of block ARR that stands at a BAR0 offset. -/
def Reg.findArr (o : Nat) : Option Reg :=
  if o = 0x200000 then some .arrStatus else
  if o = 0x200004 then some .arrQdepth else
  if o = 0x200008 then some .arrChainwait else
  if o = 0x20000c then some .arrEvents else
  if o = 0x200010 then some .arrOrder else
  if 0x200100 ≤ o ∧ (o - 0x200100) % 0x4 = 0 ∧ (o - 0x200100) / 0x4 < 16 then some (.arrTenquota ((o - 0x200100) / 0x4)) else
  if 0x200140 ≤ o ∧ (o - 0x200140) % 0x4 = 0 ∧ (o - 0x200140) / 0x4 < 16 then some (.arrTenlimit ((o - 0x200140) / 0x4)) else
  if o = 0x200800 then some .arrAgmCtrl else
  if 0x200810 ≤ o ∧ (o - 0x200810) % 0x4 = 0 ∧ (o - 0x200810) / 0x4 < 9 then some (.arrAgmThresh ((o - 0x200810) / 0x4)) else
  if o = 0x200840 then some .arrAgmStatus else
  if o = 0x200844 then some .arrAgmEvents else
  if o = 0x200848 then some .arrAgmCount else
  if o = 0x200850 then some .arrAgmSkip else
  if o = 0x200c00 then some .arrSpnStatus else
  if o = 0x200c04 then some .arrSpnEvents else
  if o = 0x200c08 then some .arrSpnPages else
  if 0x200c40 ≤ o ∧ (o - 0x200c40) % 0x4 = 0 ∧ (o - 0x200c40) / 0x4 < 16 then some (.arrSpnTenant ((o - 0x200c40) / 0x4)) else
  if o = 0x200c80 then some .arrCamStretch else
  if o = 0x201000 then some .arrUpdStatus else
  if o = 0x201004 then some .arrUpdEvents else
  if o = 0x201008 then some .arrUpdDrainWait else
  if 0x201040 ≤ o ∧ (o - 0x201040) % 0x4 = 0 ∧ (o - 0x201040) / 0x4 < 16 then some (.arrUpdTenant ((o - 0x201040) / 0x4)) else
  none

/-- The register of block CST that stands at a BAR0 offset. -/
def Reg.findCst (o : Nat) : Option Reg :=
  if o = 0x300000 then some .cstStatus else
  if o = 0x300004 then some .cstCtrl else
  if o = 0x300008 then some .cstEvents else
  if o = 0x30000c then some .cstSramCe else
  if 0x300010 ≤ o ∧ (o - 0x300010) % 0x4 = 0 ∧ (o - 0x300010) / 0x4 < 4 then some (.cstPartition ((o - 0x300010) / 0x4)) else
  if 0x300020 ≤ o ∧ (o - 0x300020) % 0x4 = 0 ∧ (o - 0x300020) / 0x4 < 4 then some (.cstPartitionNext ((o - 0x300020) / 0x4)) else
  if o = 0x300030 then some .cstPartCtrl else
  if o = 0x300040 then some .cstOpBase else
  if o = 0x300048 then some .cstOpLen else
  if o = 0x30004c then some .cstOpCtrl else
  if o = 0x300050 then some .cstOpResult else
  if 0x300100 ≤ o ∧ (o - 0x300100) % 0x4 = 0 ∧ (o - 0x300100) / 0x4 < 17 then some (.cstDeadctl ((o - 0x300100) / 0x4)) else
  if 0x300180 ≤ o ∧ (o - 0x300180) % 0x4 = 0 ∧ (o - 0x300180) / 0x4 < 17 then some (.cstDeadReads ((o - 0x300180) / 0x4)) else
  if 0x310000 ≤ o ∧ (o - 0x310000) % 0x4 = 0 ∧ (o - 0x310000) / 0x4 < 24576 then some (.cstSlicemap ((o - 0x310000) / 0x4)) else
  none

/-- The register of block HBM that stands at a BAR0 offset. -/
def Reg.findHbm (o : Nat) : Option Reg :=
  if o = 0x400000 then some .hbmStatus else
  if o = 0x400004 then some .hbmEvents else
  if o = 0x400008 then some .hbmCtrl else
  if o = 0x400010 then some .hbmCapacity else
  if o = 0x400018 then some .hbmMapout else
  if o = 0x400020 then some .hbmRelayoutFrontier else
  if o = 0x400028 then some .hbmRelayoutBuf else
  if o = 0x400030 then some .hbmInit else
  if o = 0x400038 then some .hbmUeAddr else
  if 0x400100 ≤ o ∧ (o - 0x400100) % 0x4 = 0 ∧ (o - 0x400100) / 0x4 < 192 then some (.hbmChstate ((o - 0x400100) / 0x4)) else
  if 0x401000 ≤ o ∧ (o - 0x401000) % 0x4 = 0 ∧ (o - 0x401000) / 0x4 < 384 then some (.hbmClassmap ((o - 0x401000) / 0x4)) else
  if 0x402000 ≤ o ∧ (o - 0x402000) % 0x4 = 0 ∧ (o - 0x402000) / 0x4 < 384 then some (.hbmPcmap ((o - 0x402000) / 0x4)) else
  none

/-- The register of block FAB that stands at a BAR0 offset. -/
def Reg.findFab (o : Nat) : Option Reg :=
  if o = 0x500000 then some .fabStatus else
  if o = 0x500004 then some .fabEvents else
  if o = 0x500008 then some .fabNode else
  if o = 0x50000c then some .fabRemoteTmo else
  if o = 0x500010 then some .fabAtomRetry else
  if o = 0x500014 then some .fabOutstanding else
  if o = 0x500018 then some .fabPeers else
  if o = 0x50001c then some .fabE2eErr else
  if 0x500100 ≤ o ∧ (o - 0x500100) % 0x4 = 0 ∧ (o - 0x500100) / 0x4 < 9 then some (.fabPort ((o - 0x500100) / 0x4)) else
  if 0x500140 ≤ o ∧ (o - 0x500140) % 0x8 = 0 ∧ (o - 0x500140) / 0x8 < 9 then some (.fabPortErr ((o - 0x500140) / 0x8)) else
  if 0x500200 ≤ o ∧ (o - 0x500200) % 0x4 = 0 ∧ (o - 0x500200) / 0x4 < 16 then some (.fabPortmap ((o - 0x500200) / 0x4)) else
  none

/-- The register of block SYN that stands at a BAR0 offset. -/
def Reg.findSyn (o : Nat) : Option Reg :=
  if o = 0x600000 then some .synStatus else
  if o = 0x600004 then some .synEvents else
  if o = 0x600008 then some .synRefused else
  if 0x600040 ≤ o ∧ (o - 0x600040) % 0x4 = 0 ∧ (o - 0x600040) / 0x4 < 16 then some (.synTenslots ((o - 0x600040) / 0x4)) else
  if 0x600100 ≤ o ∧ (o - 0x600100) % 0x8 = 0 ∧ (o - 0x600100) / 0x8 < 64 then some (.synSlot ((o - 0x600100) / 0x8)) else
  none

/-- The register of block HIF that stands at a BAR0 offset. -/
def Reg.findHif (o : Nat) : Option Reg :=
  if o = 0x40000 then some .hifStatus else
  if o = 0x40004 then some .hifEvents else
  if o = 0x40008 then some .hifCtrl else
  if o = 0x40010 then some .hifApertureBase else
  if o = 0x40018 then some .hifAdminSqBase else
  if o = 0x40020 then some .hifAdminCqBase else
  if o = 0x40028 then some .hifAdminCfg else
  if o = 0x4002c then some .hifAdminDb else
  if o = 0x40030 then some .hifAdminHeads else
  none

/-- The register of block TEN that stands at a BAR0 offset. -/
def Reg.findTen (o : Nat) : Option Reg :=
  if 0x80000 ≤ o ∧ (o - 0x80000) % 0x4 = 0 ∧ (o - 0x80000) / 0x4 < 16 then some (.tenState ((o - 0x80000) / 0x4)) else
  if o = 0x80040 then some .tenEvents else
  none

/-- The register of block ICU that stands at a BAR0 offset. -/
def Reg.findIcu (o : Nat) : Option Reg :=
  if o = 0x100000 then some .icuStatus else
  if o = 0x100004 then some .icuEvents else
  if o = 0x100008 then some .icuRaise else
  if 0x100100 ≤ o ∧ (o - 0x100100) % 0x4 = 0 ∧ (o - 0x100100) / 0x4 < 8 then some (.icuCorePrio ((o - 0x100100) / 0x4)) else
  if 0x101000 ≤ o ∧ (o - 0x101000) % 4 = 0 ∧ (o - 0x101000) / 4 < 128 then some (.icuMaskSet ((o - 0x101000) / 4)) else
  if 0x101200 ≤ o ∧ (o - 0x101200) % 4 = 0 ∧ (o - 0x101200) / 4 < 128 then some (.icuMaskClr ((o - 0x101200) / 4)) else
  if 0x101400 ≤ o ∧ (o - 0x101400) % 4 = 0 ∧ (o - 0x101400) / 4 < 128 then some (.icuPendSet ((o - 0x101400) / 4)) else
  if 0x101600 ≤ o ∧ (o - 0x101600) % 4 = 0 ∧ (o - 0x101600) / 4 < 128 then some (.icuPendClr ((o - 0x101600) / 4)) else
  if 0x102000 ≤ o ∧ (o - 0x102000) % 0x4 = 0 ∧ (o - 0x102000) / 0x4 < 4096 then some (.icuRoute ((o - 0x102000) / 0x4)) else
  if 0x108000 ≤ o ∧ (o - 0x108000) % 4 = 0 ∧ (o - 0x108000) / 16 < 2048 then some (.icuMsix ((o - 0x108000) / 16) ((o - 0x108000) % 16 / 4)) else
  if 0x107f00 ≤ o ∧ (o - 0x107f00) % 8 = 0 ∧ (o - 0x107f00) / 8 < 32 then some (.icuPba ((o - 0x107f00) / 8)) else
  none

/-- The register of block CHK that stands at a BAR0 offset. -/
def Reg.findChk (o : Nat) : Option Reg :=
  if 0x110000 ≤ o ∧ (o - 0x110000) % 0x80 = 0 ∧ (o - 0x110000) / 0x80 < 32 then some (.chkCtrl ((o - 0x110000) / 0x80)) else
  if 0x110004 ≤ o ∧ (o - 0x110004) % 0x80 = 0 ∧ (o - 0x110004) / 0x80 < 32 then some (.chkStatus ((o - 0x110004) / 0x80)) else
  if 0x110008 ≤ o ∧ (o - 0x110008) % 0x80 = 0 ∧ (o - 0x110008) / 0x80 < 32 then some (.chkLen ((o - 0x110008) / 0x80)) else
  if 0x110010 ≤ o ∧ (o - 0x110010) % 0x80 = 0 ∧ (o - 0x110010) / 0x80 < 32 then some (.chkTag ((o - 0x110010) / 0x80)) else
  if 0x110018 ≤ o ∧ (o - 0x110018) % 0x80 = 0 ∧ (o - 0x110018) / 0x80 < 32 then some (.chkExpect ((o - 0x110018) / 0x80)) else
  if 0x110020 ≤ o ∧ (o - 0x110020) % 0x80 = 0 ∧ (o - 0x110020) / 0x80 < 32 then some (.chkResult ((o - 0x110020) / 0x80)) else
  if 0x110028 ≤ o ∧ (o - 0x110028) % 0x80 = 0 ∧ (o - 0x110028) / 0x80 < 32 then some (.chkFed ((o - 0x110028) / 0x80)) else
  if 0x110030 ≤ o ∧ (o - 0x110030) % 0x80 = 0 ∧ (o - 0x110030) / 0x80 < 32 then some (.chkFeedB ((o - 0x110030) / 0x80)) else
  if 0x110034 ≤ o ∧ (o - 0x110034) % 0x80 = 0 ∧ (o - 0x110034) / 0x80 < 32 then some (.chkFeedH ((o - 0x110034) / 0x80)) else
  if 0x110038 ≤ o ∧ (o - 0x110038) % 0x80 = 0 ∧ (o - 0x110038) / 0x80 < 32 then some (.chkFeedW ((o - 0x110038) / 0x80)) else
  if o = 0x111000 then some .chkMismatch else
  none

/-- The register of block RES that stands at a BAR0 offset. -/
def Reg.findRes (o : Nat) : Option Reg :=
  if o = 0x700000 then some .resStatus else
  if o = 0x700004 then some .resEvents else
  if o = 0x700008 then some .resRisk else
  if o = 0x70000c then some .resCtrl else
  if o = 0x700010 then some .resFeed else
  if o = 0x700018 then some .resPartner else
  if o = 0x700020 then some .resSecure else
  if o = 0x700028 then some .resRestoreDesc else
  if o = 0x700030 then some .resRestoreCtrl else
  if o = 0x700034 then some .resRestoreStatus else
  if 0x700100 ≤ o ∧ (o - 0x700100) % 0x8 = 0 ∧ (o - 0x700100) / 0x8 < 16 then some (.resPolicy ((o - 0x700100) / 0x8)) else
  if 0x700200 ≤ o ∧ (o - 0x700200) % 0x8 = 0 ∧ (o - 0x700200) / 0x8 < 16 then some (.resL3Addr ((o - 0x700200) / 0x8)) else
  if 0x700280 ≤ o ∧ (o - 0x700280) % 0x4 = 0 ∧ (o - 0x700280) / 0x4 < 16 then some (.resL3Size ((o - 0x700280) / 0x4)) else
  if 0x700400 ≤ o ∧ (o - 0x700400) % 8 = 0 ∧ (o - 0x700400) / 32 < 16 ∧ (o - 0x700400) % 32 / 8 < 3 then some (.resGen ((o - 0x700400) / 32) ((o - 0x700400) % 32 / 8 + 1)) else
  none

/-- The register of block PWR that stands at a BAR0 offset. -/
def Reg.findPwr (o : Nat) : Option Reg :=
  if o = 0x20000 then some .pwrStatus else
  if o = 0x20004 then some .pwrEvents else
  if o = 0x20008 then some .pwrVin else
  if o = 0x2000c then some .pwrPin else
  if o = 0x20010 then some .pwrLimit else
  if o = 0x20014 then some .pwrHoldup else
  if o = 0x20018 then some .pwrCtrl else
  if o = 0x20020 then some .pwrTherm else
  if o = 0x20024 then some .pwrStraps else
  none

/-- The register of block DUR that stands at a BAR0 offset. -/
def Reg.findDur (o : Nat) : Option Reg :=
  if o = 0x800000 then some .durStatus else
  if o = 0x800004 then some .durEvents else
  if o = 0x800008 then some .durCtrl else
  if o = 0x800010 then some .durJseq else
  if o = 0x800018 then some .durLife else
  if o = 0x800020 then some .durTlcWritten else
  if o = 0x800028 then some .durSlcWritten else
  if o = 0x800030 then some .durHours else
  if o = 0x800034 then some .durCycles else
  if o = 0x800038 then some .durSpare else
  if 0x800040 ≤ o ∧ (o - 0x800040) % 0x8 = 0 ∧ (o - 0x800040) / 0x8 < 3 then some (.durBudget ((o - 0x800040) / 0x8)) else
  if 0x800100 ≤ o ∧ (o - 0x800100) % 0x20 = 0 ∧ (o - 0x800100) / 0x20 < 16 then some (.durLastcommitStep ((o - 0x800100) / 0x20)) else
  if 0x800108 ≤ o ∧ (o - 0x800108) % 0x20 = 0 ∧ (o - 0x800108) / 0x20 < 16 then some (.durLastcommitSeq ((o - 0x800108) / 0x20)) else
  if 0x800110 ≤ o ∧ (o - 0x800110) % 0x20 = 0 ∧ (o - 0x800110) / 0x20 < 16 then some (.durLastcommitCursorLo ((o - 0x800110) / 0x20)) else
  if 0x800118 ≤ o ∧ (o - 0x800118) % 0x20 = 0 ∧ (o - 0x800118) / 0x20 < 16 then some (.durLastcommitCursorHi ((o - 0x800118) / 0x20)) else
  none

/-- The register of block SEC that stands at a BAR0 offset. -/
def Reg.findSec (o : Nat) : Option Reg :=
  if o = 0xa00000 then some .secBootStatus else
  if o = 0xa00004 then some .secStatus else
  if o = 0xa00008 then some .secEvents else
  if o = 0xa0000c then some .secCtrl else
  if o = 0xa00010 then some .secLimit else
  if o = 0xa00020 then some .secMbxCtrl else
  if o = 0xa00024 then some .secMbxStatus else
  if 0xa01000 ≤ o ∧ (o - 0xa01000) % 4 = 0 ∧ (o - 0xa01000) / 4 < 1024 then some (.secMbxBuf ((o - 0xa01000) / 4)) else
  none

/-- The register of block CNT that stands at a BAR0 offset. -/
def Reg.findCnt (o : Nat) : Option Reg :=
  if o = 0x900000 then some .cntStatus else
  if o = 0x900004 then some .cntEvents else
  if o = 0x900008 then some .cntSnap else
  if o = 0x90000c then some .cntSnapSeq else
  if o = 0x900010 then some .cntUnits else
  if o = 0x900014 then some .cntTeleCfg else
  if o = 0x900018 then some .cntTeleBase else
  if o = 0x900020 then some .cntTeleSeq else
  if 0x900100 ≤ o ∧ (o - 0x900100) % 0x4 = 0 ∧ (o - 0x900100) / 0x4 < 603 then some (.cntUnitmap ((o - 0x900100) / 0x4)) else
  if 0x910000 ≤ o ∧ (o - 0x910000) % 8 = 0 ∧ (o - 0x910000) / 0x80 < 603 then some (.cntShadow ((o - 0x910000) / 0x80) ((o - 0x910000) % 0x80 / 8)) else
  none

/-- The register whose base stands at a BAR0 offset, by block. -/
def Reg.find (o : Nat) : Option Reg :=
  if o < 0x10000 then none
  else if o < 0x20000 then Reg.findClk o
  else if o < 0x40000 then Reg.findPwr o
  else if o < 0x80000 then Reg.findHif o
  else if o < 0x100000 then Reg.findTen o
  else if o < 0x110000 then Reg.findIcu o
  else if o < 0x200000 then Reg.findChk o
  else if o < 0x300000 then Reg.findArr o
  else if o < 0x400000 then Reg.findCst o
  else if o < 0x500000 then Reg.findHbm o
  else if o < 0x600000 then Reg.findFab o
  else if o < 0x700000 then Reg.findSyn o
  else if o < 0x800000 then Reg.findRes o
  else if o < 0x900000 then Reg.findDur o
  else if o < 0xA00000 then Reg.findCnt o
  else if o < 0xB00000 then Reg.findSec o
  else none

/-- A field of a register: its lowest bit and its width. -/
structure Field where
  reg : Reg
  lo : Nat
  w : Nat
  deriving DecidableEq, Repr

/-! The fields, named after the register and the field. -/

def F.clkStatusArrDiv : Field := ⟨.clkStatus, 6, 2⟩
def F.clkStatusArrStepping : Field := ⟨.clkStatus, 5, 1⟩
def F.clkStatusHoldover : Field := ⟨.clkStatus, 4, 1⟩
def F.clkStatusRefLocalOk : Field := ⟨.clkStatus, 3, 1⟩
def F.clkStatusRefHostOk : Field := ⟨.clkStatus, 2, 1⟩
def F.clkStatusRefSrc : Field := ⟨.clkStatus, 1, 1⟩
def F.clkStatusPllLock : Field := ⟨.clkStatus, 0, 1⟩
def F.clkEventsClockLoss : Field := ⟨.clkEvents, 3, 1⟩
def F.clkEventsArrStepped : Field := ⟨.clkEvents, 2, 1⟩
def F.clkEventsPllUnlock : Field := ⟨.clkEvents, 1, 1⟩
def F.clkEventsRefLost : Field := ⟨.clkEvents, 0, 1⟩
def F.clkArrdivEffective : Field := ⟨.clkArrdiv, 6, 2⟩
def F.clkArrdivPwrFloor : Field := ⟨.clkArrdiv, 4, 2⟩
def F.clkArrdivFwReq : Field := ⟨.clkArrdiv, 2, 2⟩
def F.clkArrdivHostReq : Field := ⟨.clkArrdiv, 0, 2⟩
def F.clkRefselMode : Field := ⟨.clkRefsel, 0, 2⟩
def F.clkFrameCount : Field := ⟨.clkFrame, 0, 64⟩
def F.arrStatusTenant : Field := ⟨.arrStatus, 8, 4⟩
def F.arrStatusHeld : Field := ⟨.arrStatus, 5, 1⟩
def F.arrStatusDraining : Field := ⟨.arrStatus, 4, 1⟩
def F.arrStatusRunning : Field := ⟨.arrStatus, 3, 1⟩
def F.arrStatusReady : Field := ⟨.arrStatus, 0, 1⟩
def F.arrQdepthDepth : Field := ⟨.arrQdepth, 0, 10⟩
def F.arrChainwaitCycles : Field := ⟨.arrChainwait, 0, 24⟩
def F.arrEventsChainDiscard : Field := ⟨.arrEvents, 3, 1⟩
def F.arrEventsChainSpill : Field := ⟨.arrEvents, 2, 1⟩
def F.arrEventsOpFault : Field := ⟨.arrEvents, 1, 1⟩
def F.arrEventsQueueFull : Field := ⟨.arrEvents, 0, 1⟩
def F.arrOrderWeight : Field := ⟨.arrOrder, 0, 64⟩
def F.arrTenquotaQuota (t : Nat) : Field := ⟨.arrTenquota t, 0, 10⟩
def F.arrTenlimitMaxAcc (t : Nat) : Field := ⟨.arrTenlimit t, 0, 24⟩
def F.arrAgmCtrlEscScore : Field := ⟨.arrAgmCtrl, 8, 8⟩
def F.arrAgmCtrlPeriodLog2 : Field := ⟨.arrAgmCtrl, 3, 5⟩
def F.arrAgmCtrlEnable : Field := ⟨.arrAgmCtrl, 0, 1⟩
def F.arrAgmThreshAlarmExp (f : Nat) : Field := ⟨.arrAgmThresh f, 8, 8⟩
def F.arrAgmThreshWarnExp (f : Nat) : Field := ⟨.arrAgmThresh f, 0, 8⟩
def F.arrAgmStatusHeld : Field := ⟨.arrAgmStatus, 0, 3⟩
def F.arrAgmEventsEscalated : Field := ⟨.arrAgmEvents, 3, 1⟩
def F.arrAgmEventsSkip : Field := ⟨.arrAgmEvents, 2, 1⟩
def F.arrAgmEventsAlarm : Field := ⟨.arrAgmEvents, 1, 1⟩
def F.arrAgmEventsWarn : Field := ⟨.arrAgmEvents, 0, 1⟩
def F.arrAgmCountSamples : Field := ⟨.arrAgmCount, 0, 64⟩
def F.arrAgmSkipSkipped : Field := ⟨.arrAgmSkip, 0, 32⟩
def F.arrSpnStatusQdepth : Field := ⟨.arrSpnStatus, 2, 9⟩
def F.arrSpnStatusBusy : Field := ⟨.arrSpnStatus, 1, 1⟩
def F.arrSpnStatusReady : Field := ⟨.arrSpnStatus, 0, 1⟩
def F.arrSpnEventsRowFault : Field := ⟨.arrSpnEvents, 3, 1⟩
def F.arrSpnEventsStatsFail : Field := ⟨.arrSpnEvents, 2, 1⟩
def F.arrSpnEventsStatsDrop : Field := ⟨.arrSpnEvents, 1, 1⟩
def F.arrSpnEventsStatsSpill : Field := ⟨.arrSpnEvents, 0, 1⟩
def F.arrSpnPagesFree : Field := ⟨.arrSpnPages, 0, 9⟩
def F.arrSpnTenantPagesHeld (t : Nat) : Field := ⟨.arrSpnTenant t, 18, 9⟩
def F.arrSpnTenantPagesMax (t : Nat) : Field := ⟨.arrSpnTenant t, 9, 9⟩
def F.arrSpnTenantQuota (t : Nat) : Field := ⟨.arrSpnTenant t, 0, 9⟩
def F.arrCamStretchCycles : Field := ⟨.arrCamStretch, 0, 64⟩
def F.arrUpdStatusTenant : Field := ⟨.arrUpdStatus, 5, 4⟩
def F.arrUpdStatusEngBusy : Field := ⟨.arrUpdStatus, 1, 4⟩
def F.arrUpdStatusReady : Field := ⟨.arrUpdStatus, 0, 1⟩
def F.arrUpdEventsDrainWait : Field := ⟨.arrUpdEvents, 2, 1⟩
def F.arrUpdEventsRefused : Field := ⟨.arrUpdEvents, 1, 1⟩
def F.arrUpdEventsListInvalid : Field := ⟨.arrUpdEvents, 0, 1⟩
def F.arrUpdDrainWaitCycles : Field := ⟨.arrUpdDrainWait, 0, 64⟩
def F.arrUpdTenantState (t : Nat) : Field := ⟨.arrUpdTenant t, 0, 3⟩
def F.cstStatusMapBusy : Field := ⟨.cstStatus, 3, 1⟩
def F.cstStatusOpBusy : Field := ⟨.cstStatus, 2, 1⟩
def F.cstStatusPartBusy : Field := ⟨.cstStatus, 1, 1⟩
def F.cstStatusReady : Field := ⟨.cstStatus, 0, 1⟩
def F.cstCtrlScrub : Field := ⟨.cstCtrl, 1, 1⟩
def F.cstCtrlCompress : Field := ⟨.cstCtrl, 0, 1⟩
def F.cstEventsSramUe : Field := ⟨.cstEvents, 5, 1⟩
def F.cstEventsSramCe : Field := ⟨.cstEvents, 4, 1⟩
def F.cstEventsLockWait : Field := ⟨.cstEvents, 3, 1⟩
def F.cstEventsPinFail : Field := ⟨.cstEvents, 2, 1⟩
def F.cstEventsPartInvalid : Field := ⟨.cstEvents, 1, 1⟩
def F.cstEventsPartDone : Field := ⟨.cstEvents, 0, 1⟩
def F.cstSramCeCount : Field := ⟨.cstSramCe, 0, 32⟩
def F.cstPartitionScratch (s : Nat) : Field := ⟨.cstPartition s, 18, 9⟩
def F.cstPartitionPin (s : Nat) : Field := ⟨.cstPartition s, 9, 9⟩
def F.cstPartitionCache (s : Nat) : Field := ⟨.cstPartition s, 0, 9⟩
def F.cstPartitionNextPin (s : Nat) : Field := ⟨.cstPartitionNext s, 9, 9⟩
def F.cstPartitionNextScratch (s : Nat) : Field := ⟨.cstPartitionNext s, 0, 9⟩
def F.cstPartCtrlApply : Field := ⟨.cstPartCtrl, 0, 1⟩
def F.cstOpBaseLine : Field := ⟨.cstOpBase, 8, 40⟩
def F.cstOpLenLines : Field := ⟨.cstOpLen, 0, 32⟩
def F.cstOpCtrlGo : Field := ⟨.cstOpCtrl, 3, 1⟩
def F.cstOpCtrlOp : Field := ⟨.cstOpCtrl, 0, 3⟩
def F.cstOpResultNotPinned : Field := ⟨.cstOpResult, 0, 32⟩
def F.cstDeadctlClear (t : Nat) : Field := ⟨.cstDeadctl t, 1, 1⟩
def F.cstDeadctlEventEn (t : Nat) : Field := ⟨.cstDeadctl t, 0, 1⟩
def F.cstDeadReadsCount (t : Nat) : Field := ⟨.cstDeadReads t, 0, 32⟩
def F.cstSlicemapEntry (w : Nat) : Field := ⟨.cstSlicemap w, 0, 32⟩
def F.hbmStatusLivePc : Field := ⟨.hbmStatus, 16, 9⟩
def F.hbmStatusInitBusy : Field := ⟨.hbmStatus, 3, 1⟩
def F.hbmStatusRelayoutBusy : Field := ⟨.hbmStatus, 2, 1⟩
def F.hbmStatusTrained : Field := ⟨.hbmStatus, 1, 1⟩
def F.hbmStatusReady : Field := ⟨.hbmStatus, 0, 1⟩
def F.hbmEventsMapoutRefused : Field := ⟨.hbmEvents, 5, 1⟩
def F.hbmEventsScrubPass : Field := ⟨.hbmEvents, 4, 1⟩
def F.hbmEventsRelayoutDone : Field := ⟨.hbmEvents, 3, 1⟩
def F.hbmEventsMapout : Field := ⟨.hbmEvents, 2, 1⟩
def F.hbmEventsUe : Field := ⟨.hbmEvents, 1, 1⟩
def F.hbmEventsThermal : Field := ⟨.hbmEvents, 0, 1⟩
def F.hbmCtrlUeLimit : Field := ⟨.hbmCtrl, 8, 8⟩
def F.hbmCtrlScrubMin : Field := ⟨.hbmCtrl, 0, 8⟩
def F.hbmCapacityBytes : Field := ⟨.hbmCapacity, 0, 64⟩
def F.hbmMapoutGo : Field := ⟨.hbmMapout, 31, 1⟩
def F.hbmMapoutChannel : Field := ⟨.hbmMapout, 0, 8⟩
def F.hbmRelayoutFrontierLine : Field := ⟨.hbmRelayoutFrontier, 0, 40⟩
def F.hbmRelayoutBufRegions : Field := ⟨.hbmRelayoutBuf, 16, 8⟩
def F.hbmRelayoutBufOffset : Field := ⟨.hbmRelayoutBuf, 0, 16⟩
def F.hbmInitGo : Field := ⟨.hbmInit, 0, 1⟩
def F.hbmUeAddrGranule : Field := ⟨.hbmUeAddr, 6, 42⟩
def F.hbmChstateState (c : Nat) : Field := ⟨.hbmChstate c, 30, 2⟩
def F.hbmChstateUe (c : Nat) : Field := ⟨.hbmChstate c, 16, 8⟩
def F.hbmChstateCe (c : Nat) : Field := ⟨.hbmChstate c, 0, 16⟩
def F.hbmClassmapClass (w : Nat) : Field := ⟨.hbmClassmap w, 0, 32⟩
def F.hbmPcmapPc (k : Nat) : Field := ⟨.hbmPcmap k, 0, 9⟩
def F.fabStatusPortsUp : Field := ⟨.fabStatus, 2, 9⟩
def F.fabStatusNodeValid : Field := ⟨.fabStatus, 1, 1⟩
def F.fabStatusReady : Field := ⟨.fabStatus, 0, 1⟩
def F.fabEventsLateRsp : Field := ⟨.fabEvents, 6, 1⟩
def F.fabEventsReceiptBusy : Field := ⟨.fabEvents, 5, 1⟩
def F.fabEventsE2eCheck : Field := ⟨.fabEvents, 4, 1⟩
def F.fabEventsTeardown : Field := ⟨.fabEvents, 3, 1⟩
def F.fabEventsMembership : Field := ⟨.fabEvents, 2, 1⟩
def F.fabEventsAuthFail : Field := ⟨.fabEvents, 1, 1⟩
def F.fabEventsLinkState : Field := ⟨.fabEvents, 0, 1⟩
def F.fabNodeInc : Field := ⟨.fabNode, 16, 16⟩
def F.fabNodeNode : Field := ⟨.fabNode, 0, 16⟩
def F.fabRemoteTmoUs : Field := ⟨.fabRemoteTmo, 0, 10⟩
def F.fabAtomRetryUs : Field := ⟨.fabAtomRetry, 0, 6⟩
def F.fabOutstandingTumbler : Field := ⟨.fabOutstanding, 16, 14⟩
def F.fabOutstandingEngine : Field := ⟨.fabOutstanding, 0, 14⟩
def F.fabPeersLive : Field := ⟨.fabPeers, 0, 17⟩
def F.fabE2eErrCount : Field := ⟨.fabE2eErr, 0, 32⟩
def F.fabPortLanes (p : Nat) : Field := ⟨.fabPort p, 4, 8⟩
def F.fabPortState (p : Nat) : Field := ⟨.fabPort p, 0, 3⟩
def F.fabPortErrRetrains (p : Nat) : Field := ⟨.fabPortErr p, 56, 8⟩
def F.fabPortErrReplays (p : Nat) : Field := ⟨.fabPortErr p, 32, 24⟩
def F.fabPortErrCorrected (p : Nat) : Field := ⟨.fabPortErr p, 0, 32⟩
def F.fabPortmapPorts (i : Nat) : Field := ⟨.fabPortmap i, 0, 32⟩
def F.synStatusActive : Field := ⟨.synStatus, 1, 7⟩
def F.synStatusReady : Field := ⟨.synStatus, 0, 1⟩
def F.synEventsReleaseFail : Field := ⟨.synEvents, 4, 1⟩
def F.synEventsRefused : Field := ⟨.synEvents, 3, 1⟩
def F.synEventsOwnerLost : Field := ⟨.synEvents, 2, 1⟩
def F.synEventsTimeout : Field := ⟨.synEvents, 1, 1⟩
def F.synEventsOverrun : Field := ⟨.synEvents, 0, 1⟩
def F.synRefusedCount : Field := ⟨.synRefused, 0, 32⟩
def F.synTenslotsHeld (t : Nat) : Field := ⟨.synTenslots t, 8, 7⟩
def F.synTenslotsMax (t : Nat) : Field := ⟨.synTenslots t, 0, 7⟩
def F.synSlotGen (s : Nat) : Field := ⟨.synSlot s, 32, 32⟩
def F.synSlotTenant (s : Nat) : Field := ⟨.synSlot s, 16, 4⟩
def F.synSlotState (s : Nat) : Field := ⟨.synSlot s, 0, 2⟩
def F.hifStatusWidth : Field := ⟨.hifStatus, 6, 3⟩
def F.hifStatusRate : Field := ⟨.hifStatus, 4, 2⟩
def F.hifStatusFlit : Field := ⟨.hifStatus, 3, 1⟩
def F.hifStatusAdminRun : Field := ⟨.hifStatus, 2, 1⟩
def F.hifStatusLinkUp : Field := ⟨.hifStatus, 1, 1⟩
def F.hifStatusReady : Field := ⟨.hifStatus, 0, 1⟩
def F.hifEventsBar4Miss : Field := ⟨.hifEvents, 3, 1⟩
def F.hifEventsHostAccess : Field := ⟨.hifEvents, 2, 1⟩
def F.hifEventsAdminHalt : Field := ⟨.hifEvents, 1, 1⟩
def F.hifEventsLinkDown : Field := ⟨.hifEvents, 0, 1⟩
def F.hifCtrlLinkHold : Field := ⟨.hifCtrl, 16, 16⟩
def F.hifCtrlAdminFlush : Field := ⟨.hifCtrl, 2, 1⟩
def F.hifCtrlAdminResume : Field := ⟨.hifCtrl, 1, 1⟩
def F.hifCtrlBar4En : Field := ⟨.hifCtrl, 0, 1⟩
def F.hifApertureBaseBase : Field := ⟨.hifApertureBase, 12, 52⟩
def F.hifAdminSqBaseBase : Field := ⟨.hifAdminSqBase, 12, 52⟩
def F.hifAdminCqBaseBase : Field := ⟨.hifAdminCqBase, 12, 52⟩
def F.hifAdminCfgEnable : Field := ⟨.hifAdminCfg, 31, 1⟩
def F.hifAdminCfgMsix : Field := ⟨.hifAdminCfg, 16, 15⟩
def F.hifAdminCfgCqLog2 : Field := ⟨.hifAdminCfg, 8, 4⟩
def F.hifAdminCfgSqLog2 : Field := ⟨.hifAdminCfg, 0, 4⟩
def F.hifAdminDbCqHead : Field := ⟨.hifAdminDb, 16, 16⟩
def F.hifAdminDbSqTail : Field := ⟨.hifAdminDb, 0, 16⟩
def F.hifAdminHeadsCqTail : Field := ⟨.hifAdminHeads, 16, 16⟩
def F.hifAdminHeadsSqHead : Field := ⟨.hifAdminHeads, 0, 16⟩
def F.tenStateDomain (t : Nat) : Field := ⟨.tenState t, 16, 16⟩
def F.tenStateHalted (t : Nat) : Field := ⟨.tenState t, 8, 8⟩
def F.tenStateState (t : Nat) : Field := ⟨.tenState t, 0, 2⟩
def F.tenEventsResetDone : Field := ⟨.tenEvents, 16, 16⟩
def F.tenEventsCreated : Field := ⟨.tenEvents, 0, 16⟩
def F.icuStatusHostHeld : Field := ⟨.icuStatus, 1, 1⟩
def F.icuStatusReady : Field := ⟨.icuStatus, 0, 1⟩
def F.icuEventsQueueFull : Field := ⟨.icuEvents, 1, 1⟩
def F.icuEventsDenied : Field := ⟨.icuEvents, 0, 1⟩
def F.icuRaiseSource : Field := ⟨.icuRaise, 0, 12⟩
def F.icuCorePrioDepth (c : Nat) : Field := ⟨.icuCorePrio c, 8, 5⟩
def F.icuCorePrioPrio (c : Nat) : Field := ⟨.icuCorePrio c, 0, 8⟩
def F.icuMaskSetMask (w : Nat) : Field := ⟨.icuMaskSet w, 0, 32⟩
def F.icuMaskClrMask (w : Nat) : Field := ⟨.icuMaskClr w, 0, 32⟩
def F.icuPendSetPend (w : Nat) : Field := ⟨.icuPendSet w, 0, 32⟩
def F.icuPendClrPend (w : Nat) : Field := ⟨.icuPendClr w, 0, 32⟩
def F.icuRouteKind (s : Nat) : Field := ⟨.icuRoute s, 30, 2⟩
def F.icuRouteOwner (s : Nat) : Field := ⟨.icuRoute s, 28, 2⟩
def F.icuRouteCores (s : Nat) : Field := ⟨.icuRoute s, 20, 8⟩
def F.icuRoutePrio (s : Nat) : Field := ⟨.icuRoute s, 12, 8⟩
def F.icuRouteVector (s : Nat) : Field := ⟨.icuRoute s, 0, 11⟩
def F.chkCtrlOwner (u : Nat) : Field := ⟨.chkCtrl u, 8, 2⟩
def F.chkCtrlAbort (u : Nat) : Field := ⟨.chkCtrl u, 7, 1⟩
def F.chkCtrlFinish (u : Nat) : Field := ⟨.chkCtrl u, 6, 1⟩
def F.chkCtrlStart (u : Nat) : Field := ⟨.chkCtrl u, 5, 1⟩
def F.chkCtrlDoneIrq (u : Nat) : Field := ⟨.chkCtrl u, 4, 1⟩
def F.chkCtrlCmpEn (u : Nat) : Field := ⟨.chkCtrl u, 3, 1⟩
def F.chkCtrlTagOff (u : Nat) : Field := ⟨.chkCtrl u, 2, 1⟩
def F.chkCtrlPoly (u : Nat) : Field := ⟨.chkCtrl u, 0, 2⟩
def F.chkStatusQueue (u : Nat) : Field := ⟨.chkStatus u, 4, 5⟩
def F.chkStatusStray (u : Nat) : Field := ⟨.chkStatus u, 3, 1⟩
def F.chkStatusState (u : Nat) : Field := ⟨.chkStatus u, 0, 3⟩
def F.chkLenValue (u : Nat) : Field := ⟨.chkLen u, 0, 64⟩
def F.chkTagValue (u : Nat) : Field := ⟨.chkTag u, 0, 64⟩
def F.chkExpectValue (u : Nat) : Field := ⟨.chkExpect u, 0, 64⟩
def F.chkResultValue (u : Nat) : Field := ⟨.chkResult u, 0, 64⟩
def F.chkFedValue (u : Nat) : Field := ⟨.chkFed u, 0, 64⟩
def F.chkFeedBData (u : Nat) : Field := ⟨.chkFeedB u, 0, 32⟩
def F.chkFeedHData (u : Nat) : Field := ⟨.chkFeedH u, 0, 32⟩
def F.chkFeedWData (u : Nat) : Field := ⟨.chkFeedW u, 0, 64⟩
def F.chkMismatchUnit : Field := ⟨.chkMismatch, 0, 32⟩
def F.resStatusFeedFm : Field := ⟨.resStatus, 4, 1⟩
def F.resStatusDraining : Field := ⟨.resStatus, 3, 1⟩
def F.resStatusCorrelated : Field := ⟨.resStatus, 2, 1⟩
def F.resStatusPartnerValid : Field := ⟨.resStatus, 1, 1⟩
def F.resStatusReady : Field := ⟨.resStatus, 0, 1⟩
def F.resEventsUnstable : Field := ⟨.resEvents, 7, 1⟩
def F.resEventsRestore : Field := ⟨.resEvents, 6, 1⟩
def F.resEventsFeedMismatch : Field := ⟨.resEvents, 5, 1⟩
def F.resEventsCorrelated : Field := ⟨.resEvents, 4, 1⟩
def F.resEventsPartner : Field := ⟨.resEvents, 3, 1⟩
def F.resEventsAbandoned : Field := ⟨.resEvents, 2, 1⟩
def F.resEventsSecured : Field := ⟨.resEvents, 1, 1⟩
def F.resEventsRisk : Field := ⟨.resEvents, 0, 1⟩
def F.resRiskCause : Field := ⟨.resRisk, 16, 16⟩
def F.resRiskLevel : Field := ⟨.resRisk, 0, 2⟩
def F.resCtrlHoldS : Field := ⟨.resCtrl, 16, 16⟩
def F.resCtrlDrainWaitMs : Field := ⟨.resCtrl, 4, 12⟩
def F.resCtrlFabShare : Field := ⟨.resCtrl, 0, 4⟩
def F.resFeedFmFeed : Field := ⟨.resFeed, 16, 16⟩
def F.resFeedStrapFeed : Field := ⟨.resFeed, 0, 16⟩
def F.resPartnerInc : Field := ⟨.resPartner, 32, 16⟩
def F.resPartnerFeed : Field := ⟨.resPartner, 16, 16⟩
def F.resPartnerNode : Field := ⟨.resPartner, 0, 16⟩
def F.resSecureGo : Field := ⟨.resSecure, 31, 1⟩
def F.resSecureLayers : Field := ⟨.resSecure, 8, 3⟩
def F.resSecureTenant : Field := ⟨.resSecure, 0, 4⟩
def F.resRestoreDescAddr : Field := ⟨.resRestoreDesc, 6, 58⟩
def F.resRestoreCtrlGo : Field := ⟨.resRestoreCtrl, 31, 1⟩
def F.resRestoreCtrlTenant : Field := ⟨.resRestoreCtrl, 0, 4⟩
def F.resRestoreStatusCode : Field := ⟨.resRestoreStatus, 16, 16⟩
def F.resRestoreStatusBusy : Field := ⟨.resRestoreStatus, 15, 1⟩
def F.resRestoreStatusStep : Field := ⟨.resRestoreStatus, 0, 4⟩
def F.resPolicyL3Floor (t : Nat) : Field := ⟨.resPolicy t, 32, 16⟩
def F.resPolicyL2Floor (t : Nat) : Field := ⟨.resPolicy t, 16, 16⟩
def F.resPolicyL1Floor (t : Nat) : Field := ⟨.resPolicy t, 0, 16⟩
def F.resL3AddrAddr (t : Nat) : Field := ⟨.resL3Addr t, 0, 64⟩
def F.resL3SizeGib (t : Nat) : Field := ⟨.resL3Size t, 0, 32⟩
def F.resGenStep (t : Nat) (n : Nat) : Field := ⟨.resGen t n, 0, 64⟩
def F.pwrStatusHoldupOk : Field := ⟨.pwrStatus, 4, 1⟩
def F.pwrStatusState : Field := ⟨.pwrStatus, 0, 3⟩
def F.pwrEventsFloor : Field := ⟨.pwrEvents, 5, 1⟩
def F.pwrEventsHoldupFault : Field := ⟨.pwrEvents, 4, 1⟩
def F.pwrEventsInputHigh : Field := ⟨.pwrEvents, 3, 1⟩
def F.pwrEventsInputLow : Field := ⟨.pwrEvents, 2, 1⟩
def F.pwrEventsRecovered : Field := ⟨.pwrEvents, 1, 1⟩
def F.pwrEventsDroopWarning : Field := ⟨.pwrEvents, 0, 1⟩
def F.pwrVinVinMin : Field := ⟨.pwrVin, 16, 16⟩
def F.pwrVinVin : Field := ⟨.pwrVin, 0, 16⟩
def F.pwrPinPeak : Field := ⟨.pwrPin, 16, 16⟩
def F.pwrPinMean : Field := ⟨.pwrPin, 0, 16⟩
def F.pwrLimitWatts : Field := ⟨.pwrLimit, 0, 12⟩
def F.pwrHoldupUs : Field := ⟨.pwrHoldup, 0, 16⟩
def F.pwrCtrlMinClear : Field := ⟨.pwrCtrl, 0, 1⟩
def F.durStatusResetCause : Field := ⟨.durStatus, 5, 3⟩
def F.durStatusReadOnly : Field := ⟨.durStatus, 4, 1⟩
def F.durStatusWorn : Field := ⟨.durStatus, 3, 1⟩
def F.durStatusRepaired : Field := ⟨.durStatus, 2, 1⟩
def F.durStatusScanBusy : Field := ⟨.durStatus, 1, 1⟩
def F.durStatusReady : Field := ⟨.durStatus, 0, 1⟩
def F.durEventsBlockRetired : Field := ⟨.durEvents, 5, 1⟩
def F.durEventsCommitsLost : Field := ⟨.durEvents, 4, 1⟩
def F.durEventsFlashWorn : Field := ⟨.durEvents, 3, 1⟩
def F.durEventsWearBudget : Field := ⟨.durEvents, 2, 1⟩
def F.durEventsJournalCorrupt : Field := ⟨.durEvents, 1, 1⟩
def F.durEventsJournalRepaired : Field := ⟨.durEvents, 0, 1⟩
def F.durCtrlCoalesceUs : Field := ⟨.durCtrl, 0, 10⟩
def F.durJseqLast : Field := ⟨.durJseq, 0, 64⟩
def F.durLifeSlcUsed : Field := ⟨.durLife, 16, 16⟩
def F.durLifeTlcUsed : Field := ⟨.durLife, 0, 16⟩
def F.durTlcWrittenMib : Field := ⟨.durTlcWritten, 0, 64⟩
def F.durSlcWrittenMib : Field := ⟨.durSlcWritten, 0, 64⟩
def F.durHoursHours : Field := ⟨.durHours, 0, 32⟩
def F.durCyclesResets : Field := ⟨.durCycles, 16, 16⟩
def F.durCyclesDroops : Field := ⟨.durCycles, 0, 16⟩
def F.durSpareSlc : Field := ⟨.durSpare, 16, 16⟩
def F.durSpareTlc : Field := ⟨.durSpare, 0, 16⟩
def F.durBudgetDaily (a : Nat) : Field := ⟨.durBudget a, 32, 32⟩
def F.durBudgetLevel (a : Nat) : Field := ⟨.durBudget a, 0, 32⟩
def F.durLastcommitStepValue (u : Nat) : Field := ⟨.durLastcommitStep u, 0, 64⟩
def F.durLastcommitSeqValue (u : Nat) : Field := ⟨.durLastcommitSeq u, 0, 64⟩
def F.durLastcommitCursorLoValue (u : Nat) : Field := ⟨.durLastcommitCursorLo u, 0, 64⟩
def F.durLastcommitCursorHiValue (u : Nat) : Field := ⟨.durLastcommitCursorHi u, 0, 64⟩
def F.secBootStatusError : Field := ⟨.secBootStatus, 24, 8⟩
def F.secBootStatusStage : Field := ⟨.secBootStatus, 8, 8⟩
def F.secBootStatusSlot : Field := ⟨.secBootStatus, 6, 2⟩
def F.secBootStatusTrial : Field := ⟨.secBootStatus, 2, 1⟩
def F.secBootStatusHalted : Field := ⟨.secBootStatus, 1, 1⟩
def F.secBootStatusDone : Field := ⟨.secBootStatus, 0, 1⟩
def F.secStatusDebug : Field := ⟨.secStatus, 3, 1⟩
def F.secStatusIdentLocked : Field := ⟨.secStatus, 2, 1⟩
def F.secStatusEntropyFail : Field := ⟨.secStatus, 1, 1⟩
def F.secStatusBusy : Field := ⟨.secStatus, 0, 1⟩
def F.secEventsLinkAuthFail : Field := ⟨.secEvents, 2, 1⟩
def F.secEventsReservedIdx : Field := ⟨.secEvents, 1, 1⟩
def F.secEventsMbxStray : Field := ⟨.secEvents, 0, 1⟩
def F.secCtrlTrialS : Field := ⟨.secCtrl, 0, 16⟩
def F.secLimitLimit : Field := ⟨.secLimit, 0, 41⟩
def F.secMbxCtrlGo : Field := ⟨.secMbxCtrl, 31, 1⟩
def F.secMbxCtrlLength : Field := ⟨.secMbxCtrl, 16, 13⟩
def F.secMbxCtrlOpcode : Field := ⟨.secMbxCtrl, 0, 8⟩
def F.secMbxStatusCode : Field := ⟨.secMbxStatus, 16, 16⟩
def F.secMbxStatusLength : Field := ⟨.secMbxStatus, 0, 13⟩
def F.secMbxBufData (w : Nat) : Field := ⟨.secMbxBuf w, 0, 32⟩
def F.cntStatusTeleRun : Field := ⟨.cntStatus, 2, 1⟩
def F.cntStatusSnapBusy : Field := ⟨.cntStatus, 1, 1⟩
def F.cntStatusReady : Field := ⟨.cntStatus, 0, 1⟩
def F.cntEventsTeleHostFail : Field := ⟨.cntEvents, 2, 1⟩
def F.cntEventsSnapStray : Field := ⟨.cntEvents, 1, 1⟩
def F.cntEventsSnapDone : Field := ⟨.cntEvents, 0, 1⟩
def F.cntSnapGo : Field := ⟨.cntSnap, 0, 1⟩
def F.cntSnapSeqSeq : Field := ⟨.cntSnapSeq, 0, 32⟩
def F.cntUnitsCount : Field := ⟨.cntUnits, 0, 10⟩
def F.cntTeleCfgEnable : Field := ⟨.cntTeleCfg, 31, 1⟩
def F.cntTeleCfgLog2 : Field := ⟨.cntTeleCfg, 16, 4⟩
def F.cntTeleCfgPeriodMs : Field := ⟨.cntTeleCfg, 0, 16⟩
def F.cntTeleBaseBase : Field := ⟨.cntTeleBase, 8, 56⟩
def F.cntTeleSeqSeq : Field := ⟨.cntTeleSeq, 0, 32⟩
def F.cntUnitmapUnit (i : Nat) : Field := ⟨.cntUnitmap i, 0, 16⟩
def F.cntShadowValue (i : Nat) (k : Nat) : Field := ⟨.cntShadow i k, 0, 64⟩
def F.pwrThermTripSensor : Field := ⟨.pwrTherm, 16, 8⟩
def F.pwrThermHbmMax : Field := ⟨.pwrTherm, 8, 8⟩
def F.pwrThermDieMax : Field := ⟨.pwrTherm, 0, 8⟩
def F.pwrStrapsChanged : Field := ⟨.pwrStraps, 13, 1⟩
def F.pwrStrapsFeedOk : Field := ⟨.pwrStraps, 12, 1⟩
def F.pwrStrapsPos : Field := ⟨.pwrStraps, 0, 6⟩
def F.icuMsixWord (v : Nat) (k : Nat) : Field := ⟨.icuMsix v k, 0, 32⟩
def F.icuPbaPending (w : Nat) : Field := ⟨.icuPba w, 0, 64⟩

end Sys2Proof.Machine
end

