-- ==== Sys2Proof/Machine/Types.lean ====
section
/-! DEFINITION. The parts of the machine's state, unit by unit: plain data, each field with the rule that names it. -/

namespace Sys2Proof.Machine

/-! ### What the device sends out -/

/-- Who an event or a message is for. -/
inductive Dest where
  /-- no named receiver: the register that shows it announces it (R386) -/
  | device
  | tenant (t : Nat)
  | firmware
  | host
  | keeper
  /-- the health monitor (R408) -/
  | health
  deriving DecidableEq, Repr

/-- What leaves the device, or passes between its units where no register shows it. -/
inductive Output where
  /-- an event code with its arguments (R12) -/
  | event (code : Nat) (dest : Dest) (args : List Nat)
  /-- a write into host memory (R357) -/
  | hostWrite (addr : Nat) (bytes : List Byte)
  /-- a request to read host memory (R357, R360) -/
  | hostRead (addr len : Nat)
  /-- an MSI-X message (R389) -/
  | msix (addr data : Nat)
  /-- a marker that a unit has forwarded (R19) -/
  | marker (unit kind arg : Nat)
  /-- a packet that a port sends (R309, R318) -/
  | packet (port : Nat) (bytes : List Byte)
  /-- a flit that a port sends, or sends again: its 320 bytes (R302, R303) -/
  | flit (port : Nat) (bytes : List Byte)
  /-- a NAK that a port sends, naming the last good flit (R303) -/
  | nak (port seq : Nat)
  /-- an authentication frame that the keeper sends on a port (R470) -/
  | authFrame (port : Nat) (bytes : List Byte)
  /-- a sideband answer (R499 to R502) -/
  | sideband (b : Binding) (bytes : List Byte)
  /-- the function answers configuration requests (R354) -/
  | configReady
  deriving DecidableEq, Repr

/-- What the last register or BAR4 access returned (R8, R10, R356). -/
inductive Resp where
  | none
  /-- data of a read -/
  | data (v : DWord)
  /-- data of a BAR4 read -/
  | bytes (bs : List Byte)
  /-- completed with Unsupported Request -/
  | unsupported
  deriving DecidableEq, Repr

/-! ### Command tree (R18, R19) -/

/-- A command-tree message standing at its receiver, oldest first. Descriptors travel as the bytes read (R195). -/
inductive TreeMsg where
  /-- AISSUE: the issuing tumbler, group slot, lane, destination register, tenant, launch and the descriptor (R196) -/
  | arrIssue (u g lane dst tenant launch : Nat) (desc : List Byte)
  /-- RISSUE, likewise (R135) -/
  | rowIssue (u g lane dst tenant launch : Nat) (desc : List Byte)
  /-- an operation's completion message to the issuing tumbler: token slot, sequence, status (R39) -/
  | tokenDone (slot seq status : Nat)
  /-- a marker: its kind and argument (R19) -/
  | marker (kind arg : Nat)
  /-- a translation marker: a tenant and a range of 2 MiB pages (R215) -/
  | translation (tenant page count : Nat)
  /-- an isolation marker: a range of frames (R215) -/
  | isolation (frame count : Nat)
  /-- a peer marker: the nodes whose entries changed (R308) -/
  | peers (nodes : List Nat)
  /-- a snapshot marker with its SEQ (R481, R482) -/
  | snapshot (seq : Nat)
  deriving DecidableEq, Repr

/-! ### Clocks (Device organisation and clocking) -/

/-- Where an array clock step stands (R23). -/
inductive ClkStep where
  | idle
  /-- running at the old rate until the next alignment-frame boundary -/
  | waiting
  /-- the array clock is held low for one frame -/
  | held
  deriving DecidableEq, Repr

/-- The clocks' state beside the CLK registers. -/
structure Clk where
  /-- the module rails stand released (R30) -/
  rails : Bool
  /-- housekeeping and keeper run from the reference (R30 step 1) -/
  bypass : Bool
  /-- a reference source is selected (R26) -/
  selected : Bool
  /-- the Auto wait for the host reference runs (R26) -/
  autoWait : Bool
  /-- the reference mode chosen at reset: 0 host, 1 local, 2 auto (R26) -/
  mode : Nat
  /-- PLL lock attempts that timed out (R30) -/
  tries : Nat
  /-- domains released from reset so far, of the five of R30 step 4 -/
  released : Nat
  step : ClkStep
  /-- a change of the effective divider made during a step (R23) -/
  deferred : Bool
  /-- the reference is missing (R27, R508) -/
  refMissing : Bool
  /-- lock is lost and not regained (R28, R508) -/
  unlocked : Bool
  deriving DecidableEq, Repr

/-! ### Interrupt controller and check units -/

/-- The interrupt controller's state beside its registers. -/
structure Icu where
  /-- the interrupt queues of the service cores, at most 16 entries each, oldest first (R389) -/
  coreQ : KMap (List Nat)
  /-- the keeper's interrupt queue, at most 32 entries, oldest first (R389) -/
  keeperQ : List Nat
  /-- the last core to receive a delivery (R391) -/
  lastCore : Nat
  /-- sources held for a host vector: source and vector (R389) -/
  held : List (Nat × Nat)
  deriving DecidableEq, Repr

/-- A check unit's state beside its registers (R394 to R397). -/
structure Chk where
  /-- feeds queued, at most 16, oldest first -/
  queue : List (List Byte)
  /-- feed writes that wait at the unit while the queue is full -/
  waiting : List (List Byte)
  /-- the code's state -/
  crc : Nat
  /-- POLY, CMP_EN and DONE_IRQ as START took them -/
  poly : Nat
  cmp : Bool
  irq : Bool
  /-- FINISH has been written -/
  finishing : Bool
  deriving DecidableEq, Repr

/-! ### Rings (Host interface, queues and tenants) -/

/-- How far a submission entry has come (R360, R361, R364). -/
inductive EntryPhase where
  | staged | started | finished | recorded
  deriving DecidableEq, Repr

/-- A submission entry that the scheduler has staged (R363). -/
structure Entry where
  /-- the model's own number of the command -/
  cid : Nat
  /-- its index in the ring -/
  idx : Nat
  bytes : List Byte
  phase : EntryPhase
  status : Nat
  result0 : Nat
  result1 : Nat
  /-- fault entries were written for it (R363) -/
  faults : Bool
  deriving DecidableEq, Repr

/-- A submission ring (R358 to R360, R370). -/
structure Sq where
  base : Nat
  log2 : Nat
  cq : Nat
  weight : Nat
  tail : Nat
  head : Nat
  /-- the halting status of a halted ring -/
  halted : Option Nat
  /-- staged entries, oldest first; a recorded one stays until its index is staged again -/
  entries : List Entry
  /-- submitted entries that an ABORT marked before they were fetched (R368) -/
  marked : List Nat
  deriving DecidableEq, Repr

/-- A completion ring (R358, R361). -/
structure Cq where
  base : Nat
  log2 : Nat
  /-- released by host software -/
  head : Nat
  /-- the next slot the device writes -/
  tail : Nat
  /-- PHASE of the present pass -/
  phase : Bool
  /-- records written and not released -/
  used : Nat
  /-- finished commands that wait for their record: ring and command, in order of completion -/
  waiting : List (Nat × Nat)
  deriving DecidableEq, Repr

/-- The fault ring and status block of a tenant (R374, R376). -/
structure FaultRing where
  statusAddr : Nat
  addr : Nat
  entries : Nat
  tail : Nat
  head : Nat
  lost : Nat
  offered : Nat
  /-- an overflow entry stands since FAULT_HEAD last moved -/
  overflowed : Bool
  deriving DecidableEq, Repr

/-- An ABORT whose own record follows those it causes (R368): its ring and number, the targets not yet fetched by ring and
index, the targets without a record, and how it ends. -/
structure AbortJob where
  /-- 16 for the admin ring -/
  tenant : Nat
  ring : Nat
  cid : Nat
  targetTenant : Nat
  marks : List (Nat × Nat)
  left : List Nat
  status : Nat
  result0 : Nat
  result1 : Nat
  deriving DecidableEq, Repr

/-- A HOST_COPY that runs (R365): its command, the host bus address, the virtual address, the length, the direction (1 to the host),
and what the host memory read holds. -/
structure HostJob where
  tenant : Nat
  ring : Nat
  cid : Nat
  addr : Nat
  va : Nat
  bytes : Nat
  toHost : Bool
  data : List Byte
  deriving DecidableEq, Repr

/-- The host interface's state beside its registers (Host interface, queues and tenants). -/
structure Hif where
  /-- the admin rings (R382); their heads and tails are shown in the HIF registers -/
  adminSq : Sq
  adminCq : Cq
  /-- the admin ring stands: ENABLE, or not yet idle after it was cleared -/
  adminOn : Bool
  aborts : List AbortJob
  /-- the model's number of the next command staged -/
  nextCid : Nat
  /-- the tenant last served, and the ring last served of each tenant with the starts left in its turn (R367) -/
  lastTenant : Nat
  turns : KMap (Nat × Nat)
  /-- configuration requests are answered normally (R354) -/
  configReady : Bool
  /-- the link has reached L0 since reset (R354) -/
  trained : Bool
  /-- the link went down without a reset and LINK_HOLD runs (R381) -/
  linkHold : Bool
  /-- the host is lost: a device reset follows once every tenant is secured (R381) -/
  hostLost : Bool
  copies : List HostJob
  deriving DecidableEq, Repr

/-! ### Power and the durable store (Durable store and power behaviour; Module, connectors and environment) -/

/-- Where the power controller stands in R446, R447 and R505. -/
inductive PwrPhase where
  /-- waits for an input at or above 40.0 V for 20 ms -/
  | waitInput
  /-- charges the hold-up bank -/
  | charging
  /-- tests the bank -/
  | testing
  /-- `n` rails stand at power-good -/
  | rails (n : Nat)
  /-- the rails dropped on a failure; retries after 1 s -/
  | retryWait
  /-- off after three failures -/
  | failedOff
  /-- every rail stands -/
  | up
  /-- the rails fall in reverse order -/
  | falling
  deriving DecidableEq, Repr

/-- The power controller's own state: it lives while the input stands, rails or no rails. -/
structure Pwr where
  phase : PwrPhase
  /-- rail failures since the last full power-up (R446) -/
  failures : Nat
  /-- the rail that failed, by its order; 0 for none (sensor 35, R501) -/
  failedRail : Nat
  /-- the PWR_EN pin is open (R492) -/
  enOpen : Bool
  /-- the cause of the reset sequence that runs (R449): 2 reset level, 3 input high, 4 clock loss, 5 other, 6 thermal -/
  resetting : Option Nat
  /-- records discarded by that sequence (R449) -/
  discarded : Nat
  /-- the load is cut to 300 W (R449 step 1) -/
  cut : Bool
  /-- the power floor before WARNING (R448) -/
  floorBefore : Nat
  /-- thermal trip latch: the sensor that tripped (R505) -/
  trip : Option Nat
  /-- every powered sensor has read below warning for 60 s since the trip (R505) -/
  cooled : Bool
  /-- the straps in use (R496) -/
  straps : Straps
  /-- the bank has been tested (sensor 3, R501) -/
  tested : Bool
  /-- the last temperatures read, for the sideband (R501, R503) -/
  temps : Option Temps
  /-- sensors read above warning, above warning + 5 and above shutdown at the last reading, by sensor ID (R503) -/
  hot : List Nat
  hotter : List Nat
  trips : List Nat
  /-- the cause of the reset that this start-up follows and has still to report; 0 for none (R449) -/
  report : Nat
  /-- the PORT_PRSNT# pins that are low, by port (R494) -/
  fitted : BitVec 9 := 0x1FF
  deriving DecidableEq, Repr

/-- A journal record that waits to start (R434). -/
structure JReq where
  item : JRecord
  /-- a COMMIT record still in its coalescing time -/
  coalescing : Bool
  deriving DecidableEq, Repr

/-- A journal record in progress (R434). -/
structure JRun where
  jseq : Nat
  item : JRecord
  bytes : List Byte
  /-- copy A is programmed and verified -/
  copyA : Bool
  deriving DecidableEq, Repr

/-- The journal's state in the flash controller (R431 to R435). -/
structure Journal where
  /-- JSEQ of the next record to start -/
  next : Nat
  /-- records not started, oldest first -/
  queue : List JReq
  /-- records in progress, at most four -/
  run : List JRun
  /-- the newest committed record of each kind and key: JSEQ under kind × 2^64 + key -/
  live : KMap Nat
  /-- bytes written to the SLC and the TLC areas that make no whole MiB yet (R453) -/
  slcRest : Nat
  tlcRest : Nat
  /-- SNAP_DIGEST of the COMMIT records that DUR.LASTCOMMIT shows, by tenant slot (R440) -/
  lastSnap : KMap (List Byte)
  deriving DecidableEq, Repr

/-- One block of a generation: its manifest fields and its data (R403, R405). -/
structure GenBlock where
  handle : Nat
  part : Nat
  off : Nat
  len : Nat
  digest : BitVec 256
  data : List Byte
  deriving DecidableEq, Repr

/-- A layer-2 generation on flash (R438): its state 1 WRITING, 2 COMPLETE, 3 FREE, and its blocks in order. -/
structure FlashGen where
  state : Nat
  step : Nat
  seq : Nat
  bytes : Nat
  manifest : List Byte
  blocks : List GenBlock
  deriving DecidableEq, Repr

/-- What the flash array holds: all that outlives a power cut (R430, R451). -/
structure Flash where
  /-- the two copies of each journal slot (R431) -/
  ringA : KMap (List Byte)
  ringB : KMap (List Byte)
  /-- generation slots: 2 × tenant slot + generation slot (R433, R438) -/
  gens : KMap FlashGen
  /-- frozen-image area: the image of a frame under its key (R284) -/
  frozen : KMap (List Byte)
  /-- spill area: a spilled frame's bytes and the check taken when they were written (R293) -/
  spill : KMap (List Byte × Nat)
  /-- firmware slots: the image's manifest bytes of R458 by slot (R430) -/
  images : KMap (List Byte)
  deriving DecidableEq, Repr

/-- The health monitor (R408): the inputs whose level is held. -/
structure Health where
  inputs : List RiskInput
  deriving DecidableEq, Repr

/-! ### Numerical safeguards -/

/-- A numeric record (R96). FP32 fields are their words. -/
structure NumRec where
  /-- its place in the numeric area -/
  slot : Nat
  handle : Nat
  cls : Nat
  fmt : Nat
  baseFmt : Nat
  jit : Bool
  escalated : Bool
  pinFmt : Bool
  frozen : Bool
  floor : Bool
  tileScale : Word
  histLen : Nat
  histValid : Nat
  histHead : Nat
  jitLeft : Nat
  /-- sixteen FP32 maxima -/
  hist : List Word
  histStep : Nat
  stepAmax : Word
  stepNonfinite : Nat
  stepSat : Nat
  floorExp : Int
  ovfSteps : Nat
  alarmScore : Nat
  link : Nat
  stepSamples : Nat
  stepDMax : Word
  stepDSum : Word
  runSamples : Nat
  runDMax : Word
  warnCount : Nat
  alarmCount : Nat
  escDenied : Nat
  zeroFlush : Nat
  escalations : Nat
  /-- the tensor was produced in the current step (R101) -/
  produced : Bool
  /-- an alarm was raised on it in the current step (R111) -/
  alarmed : Bool
  /-- ALARM_SCORE as the current step began (R116) -/
  scoreBefore : Nat
  /-- SATURATION was raised for it in the current step (R100) -/
  satRaised : Bool
  deriving DecidableEq, Repr

/-- A tenant's numeric state (R117). -/
structure NumState where
  lossScale : Word
  cleanSteps : Nat
  growthInterval : Nat
  backoffStep : Nat
  backoffLimit : Nat
  scaleMargin : Nat
  policy : Nat
  step : Nat
  poison : Bool
  poisonCause : Nat
  poisonUnit : Nat
  poisonHandle : Nat
  poisonHits : Nat
  poisonedSteps : Nat
  lsMinExp : Int
  lsMaxExp : Int
  fallbackTensors : Nat
  deriving DecidableEq, Repr

/-- A report that a producer has sent to the scale manager (R100). -/
structure AmaxReport where
  tenant : Nat
  handle : Nat
  amax : Word
  nonfinite : Nat
  /-- the output's format code -/
  fmt : Nat
  /-- the TILE_SCALE that the producer wrote into the metadata header, if it wrote one -/
  scale : Option Word
  deriving DecidableEq, Repr

/-- A poison report on its way to a tenant's numeric state (R113). -/
structure PoisonReport where
  tenant : Nat
  cause : Nat
  unit : Nat
  handle : Nat
  deriving DecidableEq, Repr

/-- One element of a sampled block: its operand pairs in FP32, the prior output with ADD_C, the drained output in FP32. -/
structure SampleElem where
  pairs : List (Word × Word)
  prior : Option Word
  y : Word
  deriving DecidableEq, Repr

/-- A sample that the agreement monitor holds (R104 to R110). -/
structure Sample where
  tenant : Nat
  cMeta : Nat
  ofmt : Nat
  /-- FP32 factor α of R85 -/
  alpha : Word
  elems : List SampleElem
  deriving DecidableEq, Repr

/-- The agreement monitor's state beside its registers. -/
structure Agm where
  /-- 64 × 64 output blocks drained (R104) -/
  blocks : Nat
  /-- the block number of the next sample point; none until the first is set -/
  next : Option Nat
  /-- which seed the private generator took as the array domain left reset, and the draws taken of it since (R119) -/
  seed : Nat
  draws : Nat
  held : List Sample
  /-- blocks drained that stand at or past the sample point, to be taken or skipped -/
  offered : List Sample
  /-- metadata areas registered with their handles: first address, length, tenant, handle (R109) -/
  areas : List (Nat × Nat × Nat × Nat)
  deriving DecidableEq, Repr

/-! ### Steps (Weight update and step commit) -/

/-- A commit record (R156): its header, and its stream snapshot as counters by stream. -/
structure CommitRec where
  seq : Nat
  step : Nat
  kind : Nat
  phase : Nat
  buf : Nat
  lossScale : Word
  cursor : List Byte
  skipped : Nat
  updates : Nat
  counters : KMap Nat
  deriving DecidableEq, Repr

/-- Where a tenant's step stands (R158). -/
inductive StepPhase where
  | idle | opened | updating | sealing | post
  deriving DecidableEq, Repr

/-- Update work in progress (R150 to R155). -/
structure UpdWork where
  descs : List (List Byte)
  /-- the tensor the optimiser pass is at, and the one the quantiser pass is at -/
  idx : Nat
  quant : Nat
  /-- A_step of the tensors whose optimiser pass has ended -/
  astep : List Word
  deriving DecidableEq, Repr

/-- A tenant's step (R156 to R166). -/
structure Step where
  /-- the step word -/
  seq : Nat
  slot : Nat
  buf : Nat
  rec0 : CommitRec
  rec1 : CommitRec
  phase : StepPhase
  /-- the open step's control block (R157): STEP, PHASE, ON_POISON, CURSOR_NEXT -/
  scbStep : Nat
  scbPhase : Nat
  onPoison : Nat
  cursorNext : List Byte
  /-- the update list of the commit accepted: its bytes' address and count -/
  listAddr : Nat
  listCount : Nat
  /-- the STEP_COMMIT that has been accepted -/
  commit : Option Nat
  work : Option UpdWork
  /-- the update waits on a securing drain (R165) -/
  drainWait : Bool
  /-- STEP_OPEN commands held: for a partition, a fetch or a frozen recovery (R166, R268, R293) -/
  openHeld : Option Nat
  /-- STEP_CANCEL commands that wait for IDLE (R161) -/
  cancels : List Nat
  /-- the state in force is lost (R425) -/
  lost : Bool
  /-- live stream counters (R88), and the streams' keys: given in a table, or drawn by the seed -/
  counters : KMap Nat
  keys : KMap Nat
  keySeed : Nat
  deriving DecidableEq, Repr

/-! ### Placement of data and work -/

/-- A part of a tensor (R281, R297): its query code, which of two buffers or slots it belongs to, its size, its virtual
address and its frames in order; a packed part lies in one frame at an offset. -/
structure Part where
  code : Nat
  side : Nat
  bytes : Nat
  va : Nat
  frames : List Nat
  packOff : Option Nat
  corrected : Bool
  spilled : Bool
  moving : Bool
  pinned : Bool
  declined : Bool
  /-- the step number of its last move; 0 if it never moved (R297) -/
  movedStep : Nat
  deriving DecidableEq, Repr

/-- Constraint flags with their slices and hint (R298). -/
structure Constraint where
  flags : Nat
  slices : Nat
  hint : Nat
  deriving DecidableEq, Repr

/-- A pack frame (R283): its frame and page, its class and rights, the bytes given out, and the parts it holds. -/
structure Pack where
  frame : Nat
  va : Nat
  corrected : Bool
  w : Bool
  exec : Bool
  used : Nat
  parts : Nat
  deriving DecidableEq, Repr

/-- A tensor of a tenant (R278, R280). -/
structure Tensor where
  index : Nat
  gen : Nat
  cls : Nat
  fmt : Nat
  lifetime : Nat
  reuse : Nat
  phases : Nat
  flags : Nat
  histLen : Nat
  vectors : Nat
  length : Nat
  escCap : Nat
  link : Nat
  shareName : Nat
  parts : List Part
  constraint : Constraint
  /-- a constraint accepted that takes effect at the next boundary, with its CLEAR mask -/
  pending : Option (Nat × Constraint)
  /-- freed: the handle is stale, the frames go at a boundary (R285) -/
  freed : Bool
  /-- MiB charged (R289) -/
  charged : Nat
  deriving DecidableEq, Repr

/-- A shared frozen weight (R284). -/
structure Frozen where
  name : Nat
  vectors : Nat
  length : Nat
  fmt : Nat
  mask : Nat
  creator : Nat
  /-- the sharers: tenant and handle -/
  sharers : List (Nat × Nat)
  parts : List Part
  /-- a FROZEN_LOAD has completed; one runs: tenant, handle and command -/
  loaded : Bool
  loading : Option (Nat × Nat × Nat)
  /-- no source yielded one of its frames (R269) -/
  unrecovered : Bool
  /-- tile scale and source maximum of the load (R101) -/
  scale : Word
  amax : Word
  deriving DecidableEq, Repr

/-- A tenant's part of the placement engine (R286 to R298). -/
structure Place where
  hbmQuota : Nat
  pinQuota : Nat
  scratchQuota : Nat
  share : Nat
  slice : Nat
  rights : Nat
  tensors : List Tensor
  /-- generations of handle indices used before -/
  gens : KMap Nat
  /-- numeric, step and save areas: virtual addresses, and the frames of the three in this order -/
  numVa : Nat
  stepVa : Nat
  saveVa : Nat
  areas : List Nat
  packs : List Pack
  /-- when a step of each phase was last opened, as the count of commands staged (R292) -/
  phaseUsed : KMap Nat
  /-- the phase in force for the partition -/
  phase : Nat
  /-- the engine holds the dispatch of the tenant's rings for boundary work (R286) -/
  hold : Bool
  /-- frames of writable pages moved at this boundary (R288), and whether the engine has tried its moves at it -/
  moved : Nat
  worked : Bool
  deriving DecidableEq, Repr

/-! ### Securing and restore (Failure survival and restore) -/

/-- A block of a generation still to be read (R403): the staged bytes of small state, or a piece of a part. -/
structure SrcBlock where
  handle : Nat
  part : Nat
  off : Nat
  len : Nat
  staged : Option (List Byte)
  deriving DecidableEq, Repr

/-- Where a drain stands (R413). -/
inductive DrainPhase where
  /-- blocks are read and written -/
  | blocks
  /-- its last write, the manifest or the closing journal record, is on its way -/
  | closing
  deriving DecidableEq, Repr

/-- A drain of one tenant into one layer (R411, R413). -/
structure Drain where
  tenant : Nat
  layer : Nat
  step : Nat
  seq : Nat
  buf : Nat
  slot : Nat
  blocks : List SrcBlock
  done : List GenBlock
  rereads : Nat
  paused : Bool
  phase : DrainPhase
  /-- layer 2: the generation slot written -/
  genSlot : Nat
  /-- layers 1 and 3: the fabric global address of its manifest, and the offset of the next block from there -/
  base : Nat
  next : Nat
  deriving DecidableEq, Repr

/-- A restore in progress (R420 to R427). -/
structure Restore where
  tenant : Nat
  desc : List Byte
  binds : List Byte
  /-- the step of R422 that runs -/
  step : Nat
  /-- the manifest found, the record slot it secured, the blocks read, and the stream counters after step 5 -/
  manifest : List Byte
  slot : List Byte
  blocks : List (List Byte)
  counters : KMap Nat
  deriving DecidableEq, Repr

/-- A manifest directory that this device publishes (R423): its newer half, STEP and manifest of each half, and how often
it has been published. -/
structure Directory where
  newer : Nat
  step0 : Nat
  manifest0 : List Byte
  step1 : Nat
  manifest1 : List Byte
  times : Nat
  deriving DecidableEq, Repr

/-- The digest of a block of a state buffer (R404). -/
structure BlockDigest where
  handle : Nat
  part : Nat
  off : Nat
  digest : BitVec 256
  deriving DecidableEq, Repr

/-- The securing and restore logic's state beside the RES registers. -/
structure Secure where
  /-- securings due: tenant and layer (R411) -/
  due : List (Nat × Nat)
  drains : List Drain
  /-- tenants whose layer-2 drain waits for its bucket, 0807h raised (R442) -/
  budgetWait : List Nat
  restore : Option Restore
  /-- the stretch of the partner's reservation that a tenant's layer-1 generation has: offset and length -/
  regions : KMap (Nat × Nat)
  /-- the manifest directories that this device publishes, by tenant slot (R423) -/
  dirs : KMap Directory
  /-- the digests that drains of layers 1 and 2 have computed of a tenant's state buffer: SEQ of its record, and the blocks (R414) -/
  digests : KMap (Nat × List BlockDigest)
  deriving DecidableEq, Repr

/-! ### Memory (Address spaces and memory ordering; The central store; HBM3E memory) -/

/-- A granule of a resident line (R238): the bytes held and the bytes written since the fill, as masks; poison; 64 bytes. -/
structure Gran where
  held : Nat
  wrote : Nat
  poison : Bool
  data : List Byte
  deriving DecidableEq, Repr

/-- A tag of the store and its line (R238 to R241, R247). -/
structure Line where
  pinned : Bool
  /-- marked dead: it holds no data -/
  dead : Bool
  /-- 0 normal, 1 keep, 2 evict-first -/
  hint : Nat
  /-- when it was last used; one installed as least recently used stands below the others -/
  used : Int
  /-- its four granules -/
  g : List Gran
  /-- the region whose tag and slot it has (R234); none in a transient line buffer (R231) -/
  region : Option Nat := none
  /-- the half-slots of its form, chosen at the last fill or write: 0 ZERO, 1 PACKED, 2 FULL (R239) -/
  form : Nat := 2
  deriving DecidableEq, Repr

/-- A line in a slice's write-back buffer (R242). -/
structure WriteBack where
  slice : Nat
  line : Nat
  g : List Gran
  deriving DecidableEq, Repr

/-- One lane's part of an ATOM (R188), or an inbound atomic: the byte offset in the line, the type (0 I32, 1 U32, 2 I64,
3 F32), the operation, the operand and the compare value. -/
structure AtomLane where
  lane : Nat
  off : Nat
  ty : Nat
  op : Nat
  operand : Nat
  compare : Nat
  deriving DecidableEq, Repr

/-- Who a request of the reduction unit comes from. -/
inductive RedSrc where
  /-- an in-store sum of a row operation, by tenant and sequence number, with the virtual address of its first byte -/
  | spindle (t seq va : Nat)
  /-- access `k` of tumbler `u` -/
  | tumbler (u k : Nat)
  /-- an inbound request of a port, by its place among the port's requests -/
  | port (p key : Nat)
  deriving DecidableEq, Repr

/-- A request of the reduction and atomic unit (R243, R244). -/
structure RedReq where
  line : Nat
  tenant : Nat
  /-- operation code of R243; 0 for atomics -/
  code : Nat
  mask : Nat
  data : List Byte
  atoms : List AtomLane
  src : RedSrc
  /-- the unit that issued it at the device (R249) -/
  unit : Nat
  deriving DecidableEq, Repr

/-- A slice of the store (R231, R244, R245). -/
structure Slice where
  ready : Bool
  /-- lines that a fill from HBM is on its way for, oldest first -/
  fills : List Nat
  /-- reduction requests on their way to the slice -/
  arrivals : List RedReq
  /-- the reduction unit's queue, and the hold buffer -/
  queue : List RedReq
  hold : List RedReq
  /-- lines locked (R244 step 4) -/
  locked : List Nat
  /-- an eviction that waits on a locked line: that line (R245) -/
  waits : List Nat
  deriving DecidableEq, Repr

/-- A range operation that runs (R246). -/
structure RangeOp where
  op : Nat
  /-- lines not yet done -/
  lines : List Nat
  deriving DecidableEq, Repr

/-- A frozen frame's recovery (R268). -/
structure Recovery where
  frame : Nat
  /-- name of the weight, and the tenants named -/
  name : Nat
  tenants : List Nat
  /-- the staging frame, and how far the sequence is: 0 staging, 1 the keeper asked, 2 copying -/
  staging : Nat
  stage : Nat
  /-- sources tried: the flash image first, then a peer -/
  tried : Nat
  deriving DecidableEq, Repr

/-- A translation that a unit holds (R214): the page's first 2 MiB, its first frame, its rights, and whether it is a 1 GiB page. -/
structure Tlb where
  tenant : Nat
  page : Nat
  frame : Nat
  w : Bool
  exec : Bool
  big : Bool := false
  deriving DecidableEq, Repr

/-- The memory of the module: HBM, the central store and its slices, and the translation caches. Bytes, granules and lines are
listed by physical address ÷ 1, 64 and 256; what is not listed is zero, sound and not resident (R253, R276). -/
structure Mem where
  hbm : KMap Byte
  hbmPoison : KMap Bool
  /-- the scratchpad part, by window offset -/
  scratch : KMap Byte
  scratchPoison : KMap Bool
  lines : KMap Line
  wb : List WriteBack
  stamp : Nat
  slices : KMap Slice
  /-- slice-map entries written and not yet in effect (R233): register index and value -/
  mapNew : List (Nat × Word)
  /-- the partition that an apply in progress leads to: SCRATCH and PIN of each slice (R236) -/
  applying : Option (List (Nat × Nat))
  /-- the range operation that runs -/
  op : Option RangeOp
  /-- class changes that run (R264): group and new class -/
  classNew : List (Nat × Bool)
  /-- the channel whose relayout runs -/
  relayout : Option Nat
  /-- stacks with a die above 85 °C, whose refresh interval is halved (R255) -/
  warm : List Nat
  /-- errors that the dies of a channel corrected since the last scrub pass, and the results read at its end (R255, R265) -/
  dieNew : KMap Nat
  dieRead : KMap Nat
  recoveries : List Recovery
  /-- translation caches, by unit -/
  tlb : KMap (List Tlb)
  /-- frames that firmware has let go and zeroes once the markers for them have passed every unit (R215) -/
  retired : List Nat
  /-- the engine has to take the partition and the pins anew: a phase, or a PIN constraint, has changed (R287) -/
  replan : Bool
  deriving DecidableEq, Repr

/-! ### The keeper (Firmware, boot and attestation) -/

/-- The one-time fuses (R457). -/
structure Fuses where
  rootDigest : BitVec 256
  secret : BitVec 256
  /-- 0 production, 1 token-enabled, 2 open, 3 as 0 -/
  debug : Nat
  /-- SVN_FUSE bits burned -/
  svn : Nat
  used : Bool
  deriving DecidableEq, Repr

/-- What an identity signature is for (R465): a report for a host address, or the proof of a port's link authentication. -/
inductive SigUse where
  | report (addr : Nat) (bytes : List Byte)
  | proof (port : Nat) (frame : List Byte)
  deriving DecidableEq, Repr

/-- A signature whose index has been taken (R465). -/
structure SigReq where
  index : Nat
  use : SigUse
  deriving DecidableEq, Repr

/-- What the keeper does once a record stands in journal and mirror (R462). -/
inductive KeeperNext where
  | quiet
  /-- ends the mailbox command in progress with a status and a response -/
  | finish (code : Nat) (resp : List Byte)
  /-- CONFIRM after its step 1, and after its step 2 (R460) -/
  | confirmFloor (svn : Nat) (fuse : Bool)
  | confirmEnd (svn : Nat) (fuse : Bool)
  /-- a reservation: the new LIMIT (R465) -/
  | limit (v : Nat)
  | anchor (digest : List Byte)
  deriving DecidableEq, Repr

/-- A record that the keeper has offered and waits for. -/
structure KeeperWait where
  kind : Nat
  key : Nat
  next : KeeperNext
  deriving DecidableEq, Repr

/-- The keeper's own state. -/
structure Keeper where
  fuses : Fuses
  /-- the mirror ring in the keeper area: the newest payload of each kind and key, and the next sequence number (R462) -/
  mirror : KMap (List Byte)
  mirrorSeq : Nat
  /-- the identity certificate and its chain, in the keeper area (R464) -/
  cert : List Byte
  /-- starts counted, and a debug token accepted for the next one (R472) -/
  boots : Nat
  token : Option (List Byte)
  /-- TRIAL slots that have been booted (R461) -/
  tried : List Nat
  /-- M0 to M15 (R467) -/
  meas : List (BitVec 256)
  /-- the next identity index, the LIMIT being reserved, and the signatures not yet released (R465) -/
  next : Nat
  reserving : Option Nat
  sigs : List SigReq
  /-- the channels whose command waits or runs, in order of arrival; true for the host's (R473) -/
  chans : List Bool
  /-- the command in front has been started and waits on a record -/
  busy : Bool
  waits : List KeeperWait
  /-- the firmware channel's registers, in the layout of the SEC block (R473) -/
  fw : KMap DWord
  /-- the trial timer runs (R461) -/
  trial : Bool
  /-- DEBUG is forced to production (R461 stage 04h) -/
  forced : Bool
  /-- isolation entries by frame: bits 15:0 read, 31:16 write (R212) -/
  iso : KMap Nat
  /-- the ward table image last written for each tenant (R315), and the domain table (R313) -/
  wards : KMap (List Byte)
  domains : KMap Nat
  /-- digests of frozen frames: handle and digest by frame (R284) -/
  digests : KMap (Nat × BitVec 256)
  /-- service firmware's ward table, by index (R312) -/
  sfWards : KMap (List Byte)
  deriving DecidableEq, Repr

/-! ### Counters and the sideband (Counters and telemetry; Module, connectors and environment) -/

/-- A snapshot and the telemetry built on it (R481 to R486). -/
structure Cnt where
  /-- SEQ of the snapshot in progress -/
  seq : Nat
  /-- units that have taken its marker, by identifier -/
  taken : List Nat
  /-- the sums that the last record was built on -/
  base : List Nat
  /-- the newest telemetry record, for the sideband -/
  newest : List Byte
  deriving DecidableEq, Repr

/-- The sideband endpoint (R499, R500), which lives while the input stands. -/
structure Sideband where
  /-- the endpoint IDs of the two bindings; 0 for none -/
  eidSmbus : Nat
  eidI3c : Nat
  tid : Nat
  /-- the I3C dynamic address -/
  dyn : Option Nat
  deriving DecidableEq, Repr

/-! ### The array sequencer (The Mortise array) -/

/-- Where an accepted array operation stands (R34, R50, R60, R64). -/
inductive ArrPhase where
  | queued
  /-- its bank is filled from the spill area first -/
  | filling
  /-- started; operands are on their way -/
  | reading
  /-- the last accumulate is done; the bank closes -/
  | tail
  /-- waits for the drain path -/
  | due
  | draining
  /-- ended; its completion word and token are to come -/
  | ending
  deriving DecidableEq, Repr

/-- A chain that is open (R58 to R61, R131): what its opening link fixed, its bank's contents, and where they are. -/
structure Chain where
  tenant : Nat
  chain : Nat
  m : Nat
  n : Nat
  shape : Nat
  groups : Nat
  ofmt : Nat
  /-- α₁ of each problem or group -/
  alpha : List Word
  /-- SPILL_ADDR of the link that holds it -/
  spill : Nat
  /-- the bank held; none once spilled -/
  bank : Option Nat
  spilling : Bool
  /-- the accumulators, FA40 codes by (g × N + j) × M + i -/
  data : List Nat
  deriving DecidableEq, Repr

/-- An accepted array operation (R38, R53). -/
structure ArrOp where
  tenant : Nat
  seq : Nat
  /-- issuing tumbler, its token slot, and the launch -/
  u : Nat
  slot : Nat
  launch : Nat
  desc : List Byte
  phase : ArrPhase
  status : Nat
  bank : Nat
  /-- first draw claimed (R43) -/
  c0 : Nat
  /-- α of each problem or group as formed for this link, and for the drain (R85, R131) -/
  alpha : List Word
  alphaOut : List Word
  /-- output tile scale of each problem or group (R85 step 4) -/
  tileC : List Word
  /-- the chain it continues -/
  chain : Option Chain
  /-- the accumulators -/
  data : List Nat
  inexact : Bool
  /-- operand elements as FP32 by group, position and k, for the sample path (R65) -/
  opA : List (List (List Word))
  opB : List (List (List Word))
  /-- outputs and prior outputs of each problem as FP32 once drained, for the sample path (R65) -/
  outs : List (List Nat × List Nat)
  /-- another producer wrote the same metadata at the same time (R94) -/
  clash : Bool
  deriving DecidableEq, Repr

/-- The array sequencer's state beside its registers. -/
structure ArrSeq where
  /-- sequence numbers given, by tenant -/
  seqs : KMap Nat
  /-- accepted operations not yet ended: those that have been chosen, in the order in which they were, then the others, oldest first -/
  ops : List ArrOp
  chains : List Chain
  /-- the tenants whose next operation a hold prefers (R58) -/
  prefer : List Nat
  /-- the tenant last started, and the starts left in its turn (R55) -/
  lastTenant : Nat
  left : Nat
  /-- what waits for the one drain path or uses it, in the order in which it fell due (R50): a spill, its tenant and chain; or
  a drain, its tenant and sequence number -/
  path : List (Bool × Nat × Nat)
  deriving DecidableEq, Repr

/-! ### The spindle (The backward pass) -/

/-- An entry of the side memory with its hidden tag (R139). -/
structure StatEntry where
  tenant : Nat
  set : Nat
  epoch : Nat
  w0 : Word
  w1 : Word
  deriving DecidableEq, Repr

/-- A side-memory page taken: its tenant, set and which 8,192 entries of the set it holds. -/
structure StatPage where
  tenant : Nat
  set : Nat
  index : Nat
  entries : KMap StatEntry
  deriving DecidableEq, Repr

/-- An accepted row operation. -/
structure RowOp where
  tenant : Nat
  seq : Nat
  u : Nat
  slot : Nat
  launch : Nat
  desc : List Byte
  /-- 0 queued, 1 running, 2 ending -/
  phase : Nat
  status : Nat
  c0 : Nat
  /-- LOSS_SCALE read at the start -/
  lossScale : Word
  /-- chunks that each section has started, and those ended in all -/
  starts : KMap Nat
  ended : Nat
  spilled : Bool
  dropped : Bool
  /-- running AMAX and NONFINITE, side-area entries by K-block × ROWS + row, and the other header counts of an output -/
  amax : Word
  nonfinite : Nat
  entries : KMap (List Byte)
  escDenied : Nat
  zeroFlush : Nat
  /-- in-store sums that slices have still to perform, the reduced loss so far, and whether a loss has been reported (R112, R138) -/
  sums : Nat
  loss : Word
  told : Bool
  /-- another producer wrote the same metadata at the same time (R94) -/
  clash : Bool
  deriving DecidableEq, Repr

/-- The spindle's state beside its registers. -/
structure Spindle where
  seqs : KMap Nat
  ops : List RowOp
  /-- the chunk that runs on each section: tenant, sequence number and chunk -/
  running : KMap (Nat × Nat × Nat)
  /-- the tenant a section last served -/
  last : KMap Nat
  pages : List StatPage
  deriving DecidableEq, Repr

/-! ### Tumblers (Tumbler cores and thread groups) -/

/-- What a fragment waits for: at a barrier, with the lanes that have arrived with it. -/
inductive FragSt where
  | ready
  /-- its reconvergence point (R180) -/
  | point
  | barg (lanes : Nat)
  /-- the instances not yet released that its lanes have arrived at: mask and lanes -/
  | barm (insts : List (Nat × Nat))
  | barb (k lanes : Nat)
  /-- a token: the destination register, the token's slot, and the lanes that take the status (R197) -/
  | twait (dst slot lanes : Nat)
  /-- a remote load or atomic (R318) -/
  | remote
  /-- partners to re-pack with (R181) -/
  | repack
  deriving DecidableEq, Repr

/-- A fragment of a group: its lanes, its instruction address, and the reconvergence points it is inside of, innermost first. -/
structure Frag where
  mask : Nat
  pc : Nat
  path : List Nat
  st : FragSt
  /-- it runs gathered with others of its launch: the lowest slot of the gathered group (R181) -/
  gathered : Option Nat
  /-- its wait for partners at this instruction has expired (R181) -/
  waited : Bool
  deriving DecidableEq, Repr

/-- A thread group in a slot (R169). -/
structure Group where
  launch : Nat
  block : Nat
  /-- GROUPID -/
  idx : Nat
  /-- registers by 32 × number + lane -/
  regs : KMap Word
  /-- predicates p0 to p14 as lane masks -/
  preds : KMap Nat
  /-- lanes that have not exited -/
  live : Nat
  frags : List Frag
  /-- the reconvergence stack: entry number and address; entries in use -/
  stack : KMap Nat
  nextEntry : Nat
  /-- registers whose result is on its way -/
  busy : List Nat
  /-- the register cache: at most four registers, the least recently used first (R172) -/
  cache : List Nat
  /-- remote-error words by lane (R328) -/
  rerr : KMap Nat
  deriving DecidableEq, Repr

/-- A block on a tumbler (R176). -/
structure Block where
  launch : Nat
  num : Nat
  slots : List Nat
  lmem : KMap Byte
  /-- the groups of a pre-empted block, as saved (R208) -/
  saved : Option (List Group)
  deriving DecidableEq, Repr

/-- A token-table entry (R198). -/
structure Token where
  tenant : Nat
  seq : Nat
  launch : Nat
  /-- the status, once the operation has ended -/
  status : Option Nat
  deriving DecidableEq, Repr

/-- A near-cache line (R177, R186): its four sectors as granules. -/
structure NearLine where
  line : Nat
  tenant : Nat
  launch : Nat
  used : Nat
  g : List Gran
  deriving DecidableEq, Repr

/-- Kinds of a memory access of a tumbler that is on its way. -/
inductive AccessKind where
  | load | store | atomic
  /-- a remote load or atomic, and a remote store, reduction or signal (R317) -/
  | remote | remoteStore
  deriving DecidableEq, Repr

/-- One lane of an access: its group's slot, its addresses, its operand and ATOM's compare value. -/
structure AccLane where
  slot : Nat
  lane : Nat
  va : Nat
  pa : Nat
  data : Nat
  compare : Nat
  deriving DecidableEq, Repr

/-- A memory access of a tumbler that is on its way. -/
structure Access where
  id : Nat
  kind : AccessKind
  launch : Nat
  tenant : Nat
  nc : Bool
  size : Nat
  dst : Nat
  lanes : List AccLane
  /-- ATOM's modifier -/
  mod : Nat
  /-- pages whose translation is being walked -/
  walks : List Nat
  /-- answers of slices or of other devices still to come -/
  left : Nat
  /-- values answered, by lane -/
  vals : KMap Nat
  deriving DecidableEq, Repr

structure Tumbler where
  ready : Bool
  groups : KMap Group
  blocks : List Block
  tokens : KMap Token
  cache : List NearLine
  stamp : Nat
  acc : List Access
  nextAcc : Nat
  deriving DecidableEq, Repr

/-- A launch (R173 to R177, R205). -/
structure Launch where
  id : Nat
  tenant : Nat
  /-- the ring and number of its command -/
  ring : Nat
  cid : Nat
  desc : List Byte
  blocks : Nat
  /-- blocks placed and ended so far -/
  placed : Nat
  ended : Nat
  /-- the first fault reported, with the kind of an abort (0604h) -/
  code : Nat
  stopped : Bool
  deriving DecidableEq, Repr

/-! ### The fabric port (The Xagagen fabric port) -/

/-- A peer-table entry (R308): incarnation, state (0 LIVE, 1 DEAD, 2 LEFT), feed and FLAGS bit 0. -/
structure Peer where
  inc : Nat
  state : Nat
  feed : Nat
  capable : Bool
  deriving DecidableEq, Repr

/-- A partner reservation (R312): one this device holds, with its frames, or one a peer holds for it. -/
structure Reservation where
  peer : Nat
  inc : Nat
  off : Nat
  bytes : Nat
  frames : List Nat
  deriving DecidableEq, Repr

/-- What waits on an outbound request. -/
inductive ReqSrc where
  /-- access `a` of tumbler `u`, for some lanes: slot and lane -/
  | tumbler (u a : Nat) (lanes : List (Nat × Nat))
  /-- a data packet of the transfer that engine `e` runs, of `n` bytes at `off` -/
  | engine (e off n : Nat)
  /-- that transfer's signal -/
  | engineSignal (e : Nat)
  /-- a SIGNAL command: tenant, ring and number -/
  | command (t r cid : Nat)
  /-- a barrier's multicast release: nothing waits on it -/
  | release
  deriving DecidableEq, Repr

/-- A request from its send to its response (R324, R327, R329). -/
structure FabReq where
  id : Nat
  src : ReqSrc
  /-- 16 for service firmware -/
  tenant : Nat
  /-- the sending engine, whose quadrant a loopback enters -/
  engine : Nat
  packet : List Byte
  /-- the port that sent it; none while it waits for one -/
  port : Option Nat
  retried : Bool
  deriving DecidableEq, Repr

/-- A receipt-cache entry (R329): its key, and the stored response once DONE. -/
structure Receipt where
  src : Nat
  inc : Nat
  id : Nat
  done : Option (List Byte)
  deriving DecidableEq, Repr

/-- An inbound request that a slice's reduction unit has (R313). -/
structure Landing where
  key : Nat
  packet : List Byte
  /-- the physical address it resolved to -/
  pa : Nat
  /-- the lanes of an ATOMIC -/
  lanes : List Nat
  deriving DecidableEq, Repr

/-- An authentication exchange (R469, R470): the device's nonce, the frame in progress (type, fragments, bytes), whether it is
complete, and whether the proof has been sent. -/
structure AuthX where
  nonce : Nat
  ftype : Nat
  fragments : Nat
  frame : List Byte
  whole : Bool
  proved : Bool
  deriving DecidableEq, Repr

/-- A port (R302 to R304, R311, R313, R329). -/
structure Port where
  /-- the last flit received in order -/
  rxSeq : Option Nat
  /-- packets that wait to be sent, with the multicast request that each ends -/
  tx : List (List Byte × Option Nat)
  /-- SEQ of the next flit to send, and of the oldest not acknowledged -/
  txSeq : Nat
  txAck : Nat
  /-- packets sent and not acknowledged by the link: the SEQ after the last flit of each, and the multicast request it ends -/
  unacked : List (Nat × Option Nat)
  /-- the replay buffer: SEQ and packet space of each flit sent and not acknowledged, oldest first (R303) -/
  sentFlits : List (Nat × List Byte)
  /-- replays counted towards a retrain -/
  replays : Nat
  /-- credits that the peer has returned, by virtual channel -/
  credits : KMap Nat
  /-- credits that the device has still to return, by virtual channel, as its queues have freed (R325) -/
  owed : KMap Nat
  /-- the bytes of a packet that continues in the next flit -/
  rx : List Byte
  /-- packets received, by virtual channel, oldest first -/
  requests : List (List Byte)
  responses : List (List Byte)
  mgmt : List (List Byte)
  landing : List Landing
  receipts : List Receipt
  auth : Option AuthX
  /-- it has been UP since the device reset -/
  wasUp : Bool
  deriving DecidableEq, Repr

/-- Whose transfer an engine runs (R319). -/
inductive XferOwner where
  | command (r cid : Nat)
  /-- service firmware, for a drain of a tenant into a layer: one of its blocks, or its manifest -/
  | drain (t layer : Nat) (manifest : Bool)
  deriving DecidableEq, Repr

/-- A transfer (R319, R320). -/
structure Xfer where
  owner : XferOwner
  tenant : Nat
  desc : List Byte
  /-- service firmware's own data; none when the bytes are at LOCAL -/
  data : Option (List Byte)
  /-- bytes sent or asked for, and bytes acknowledged or received -/
  sent : Nat
  done : Nat
  status : Nat
  /-- state of the CRC-64 with CHECK, the bytes it has taken, and data that returned out of order, by offset -/
  crc : Nat
  crcAt : Nat
  early : KMap (List Byte)
  /-- offsets of a GET's packets that have been received -/
  got : List Nat
  /-- the signal: 0 none due, 1 due, 2 sent, 3 answered -/
  signal : Nat
  deriving DecidableEq, Repr

/-- The fabric port's state beside the FAB registers. -/
structure Fab where
  ports : KMap Port
  /-- the peer table by node, and the entries that each engine caches (R308) -/
  peers : KMap Peer
  cached : KMap (KMap Peer)
  /-- EPOCH and MSEQ last taken (R311) -/
  last : Option (Nat × Nat)
  /-- this device is partner-capable (R312) -/
  capable : Bool
  /-- reservations held, those others hold for this device, and the partner chosen: node and incarnation (R296) -/
  held : List Reservation
  origins : List Reservation
  partner : Option (Nat × Nat)
  /-- outstanding requests, those sent and those that wait for a port, in order -/
  reqs : List FabReq
  nextReq : Nat
  /-- REQ_ID of the next atomic (R329) -/
  nextAtom : Nat
  nextKey : Nat
  /-- the transfer that each engine runs, and those that wait for one -/
  xfers : KMap Xfer
  queue : List Xfer
  deriving DecidableEq, Repr

/-! ### Signals and barriers -/

/-- A barrier slot in use (R341): the owner, the record's virtual and physical address, and the freezing status. -/
structure SynSlot where
  tenant : Nat
  va : Nat
  pa : Nat
  status : Nat
  /-- the record's 2,048 bytes as the unit has left them (R340) -/
  image : List Byte
  deriving DecidableEq, Repr

/-- A WAIT command that waits (R339): its tenant, ring and number, the word, the target and condition; and, once its condition has held, its
status and the word's value. -/
structure WaitCmd where
  tenant : Nat
  ring : Nat
  cid : Nat
  pa : Nat
  target : Nat
  cond : Nat
  met : Option (Nat × Nat)
  deriving DecidableEq, Repr

/-- A tenant's part of the machine. -/
structure Tenant where
  sqs : KMap Sq
  cqs : KMap Cq
  fault : FaultRing
  num : NumState
  /-- numeric records, by handle (R96) -/
  recs : KMap NumRec
  step : Step
  place : Place
  deriving DecidableEq, Repr

end Sys2Proof.Machine
end

