-- ==== Sys2Proof/Machine/State.lean ====
section
/-! DEFINITION. The state of the module as a block: the queue of waiting commands, every register of BAR0, and every
other piece of state that the spec gives its units. Plain data. -/

namespace Sys2Proof.Machine

/-- Why the machine stops with a fault: never. The spec gives every command an effect, and its own faults are
statuses and events, which are effects on the state (R12, R371). Nobody raises one, so it is neither safe nor unsafe. -/
inductive Fault where
  deriving DecidableEq, Repr

/-- Why a command has no meaning. -/
inductive Refusal where
  /-- the command is not modelled yet, by its mnemonic; raised by the dispatch alone; safe -/
  | notModelled (mnemonic : String)
  deriving DecidableEq, Repr

/-- The module's state. -/
structure State where
  /-- the commands that wait, first in first out (the model's own queue) -/
  pending : List Instr
  /-- what the device has sent out, newest first (the model's own record) -/
  out : List Output
  /-- the index of the next free value (the model's own counter) -/
  free : Nat
  /-- what the last register or BAR4 access returned -/
  resp : Resp
  /-- the registers of BAR0 by offset; an unlisted one holds its reset value -/
  regs : KMap DWord
  /-- high halves latched by a low-half read: requester, register offset, value (R11) -/
  latches : List (Agent × Nat × Word)
  /-- low halves held by a low-half write (R11) -/
  lowHeld : List (Agent × Nat × Word)
  /-- command-tree messages standing at their receivers, by unit identifier (R18) -/
  tree : KMap (List TreeMsg)
  /-- the units' counters: slot k of unit u under 16 × u + k (R478) -/
  counts : KMap Nat
  clk : Clk
  icu : Icu
  /-- the 32 check units (R394) -/
  chk : KMap Chk
  hif : Hif
  pwr : Pwr
  mem : Mem
  /-- the flash array -/
  flash : Flash
  journal : Journal
  health : Health
  sec : Secure
  keeper : Keeper
  cnt : Cnt
  side : Sideband
  agm : Agm
  arr : ArrSeq
  spn : Spindle
  /-- the 192 tumblers -/
  tum : KMap Tumbler
  /-- launches that have not completed, and the next launch's number -/
  launches : List Launch
  nextLaunch : Nat
  fab : Fab
  /-- the 64 barrier slots in use, by number -/
  syn : KMap SynSlot
  waits : List WaitCmd
  /-- AMAX reports and poison reports that stand at the scale manager, oldest first (R100, R113) -/
  amax : List AmaxReport
  poison : List PoisonReport
  /-- the shared frozen weights (R284) -/
  frozen : List Frozen
  /-- the tenants' parts, by tenant -/
  ten : KMap Tenant
  deriving DecidableEq, Repr

def Clk.reset : Clk :=
  { rails := false, bypass := true, selected := false, autoWait := false, mode := 2, tries := 0, released := 0,
    step := .idle, deferred := false, refMissing := false, unlocked := false }

def Icu.reset : Icu := { coreQ := [], keeperQ := [], lastCore := 7, held := [] }

def Chk.reset : Chk :=
  { queue := [], waiting := [], crc := 0, poly := 0, cmp := false, irq := false, finishing := false }

def Sq.reset : Sq :=
  { base := 0, log2 := 4, cq := 0, weight := 1, tail := 0, head := 0, halted := none, entries := [], marked := [] }

def Cq.reset : Cq := { base := 0, log2 := 4, head := 0, tail := 0, phase := true, used := 0, waiting := [] }

def Hif.reset : Hif :=
  { adminSq := Sq.reset, adminCq := Cq.reset, adminOn := false, aborts := [], nextCid := 0, lastTenant := 15, turns := [], configReady := false,
    trained := false, linkHold := false, hostLost := false, copies := [] }

def FaultRing.reset : FaultRing :=
  { statusAddr := 0, addr := 0, entries := 0, tail := 0, head := 0, lost := 0, offered := 0, overflowed := false }

/-- The creation values of a tenant's numeric state (R117). -/
def NumState.reset : NumState :=
  { lossScale := 0x47800000, cleanSteps := 0, growthInterval := 2000, backoffStep := 2, backoffLimit := 4,
    scaleMargin := 1, policy := 5, step := 0, poison := false, poisonCause := 0, poisonUnit := 0, poisonHandle := 0,
    poisonHits := 0, poisonedSteps := 0, lsMinExp := 0, lsMaxExp := 24, fallbackTensors := 0 }

def CommitRec.reset : CommitRec :=
  { seq := 0, step := 0, kind := 0, phase := 0, buf := 0, lossScale := 0, cursor := [], skipped := 0, updates := 0,
    counters := [] }

def Step.reset : Step :=
  { seq := 0, slot := 0, buf := 0, rec0 := CommitRec.reset, rec1 := CommitRec.reset, phase := .idle, scbStep := 0,
    scbPhase := 0, onPoison := 0, cursorNext := [], listAddr := 0, listCount := 0, commit := none, work := none,
    drainWait := false, openHeld := none, cancels := [], lost := false, counters := [], keys := [], keySeed := 0 }

def Place.reset : Place :=
  { hbmQuota := 0, pinQuota := 0, scratchQuota := 0, share := 0, slice := 0, rights := 0, tensors := [], gens := [],
    numVa := 0, stepVa := 0, saveVa := 0, areas := [], packs := [], phaseUsed := [], phase := 0, hold := false, moved := 0,
    worked := false }

def Tenant.reset : Tenant :=
  { sqs := [], cqs := [], fault := FaultRing.reset, num := NumState.reset, recs := [], step := Step.reset,
    place := Place.reset }

def Secure.reset : Secure := { due := [], drains := [], budgetWait := [], restore := none, regions := [], dirs := [], digests := [] }

def Agm.reset : Agm := { blocks := 0, next := none, seed := 0, draws := 0, held := [], offered := [], areas := [] }

def Straps.reset : Straps := { feed := BitVec.allOnes 12, par := true, pos := 63 }

def Pwr.reset : Pwr :=
  { phase := .waitInput, failures := 0, failedRail := 0, enOpen := false, resetting := none, discarded := 0, cut := false,
    floorBefore := 0, trip := none, cooled := true, straps := Straps.reset, tested := false, temps := none,
    hot := [], hotter := [], trips := [], report := 0 }

def Flash.reset : Flash := { ringA := [], ringB := [], gens := [], frozen := [], spill := [], images := [] }

def Journal.reset : Journal := { next := 1, queue := [], run := [], live := [], slcRest := 0, tlcRest := 0, lastSnap := [] }

def Fuses.reset : Fuses := { rootDigest := 0, secret := 0, debug := 0, svn := 0, used := false }

/-- Slot states in a SLOT_STATE record's STATE byte (R459, R462). -/
def slotEmpty : Nat := 0
def slotStaged : Nat := 1
def slotTrial : Nat := 2
def slotGood : Nat := 3
def slotBad : Nat := 4

/-- The payload of a SLOT_STATE record (R462). -/
def slotPayload (state version svn : Nat) : List Byte := leBytes 1 state ++ leBytes 8 version ++ leBytes 2 svn

/-- The index of a kind and key among records. -/
def liveKey (kind key : Nat) : Nat := kind * 2 ^ 64 + key

/-- A keeper as manufactured: slot 0 holds a GOOD bundle, the others are EMPTY (R459). -/
def Keeper.reset : Keeper :=
  { fuses := Fuses.reset
    mirror := [(liveKey 0x103 0, slotPayload slotGood 0 0), (liveKey 0x103 1, slotPayload slotEmpty 0 0),
      (liveKey 0x103 2, slotPayload slotEmpty 0 0), (liveKey 0x103 3, slotPayload slotEmpty 0 0)]
    mirrorSeq := 0, cert := [], boots := 0, token := none, tried := [], meas := List.replicate 16 0, next := 0,
    reserving := none, sigs := [], chans := [], busy := false, waits := [], fw := [], trial := false, forced := false, iso := [],
    wards := [], domains := [], digests := [], sfWards := [] }

def Cnt.reset : Cnt := { seq := 0, taken := [], base := List.replicate 8 0, newest := [] }

def Sideband.reset : Sideband := { eidSmbus := 0, eidI3c := 0, tid := 0, dyn := none }

def Gran.reset : Gran := { held := 0, wrote := 0, poison := false, data := List.replicate 64 0 }

def Slice.reset : Slice :=
  { ready := false, fills := [], arrivals := [], queue := [], hold := [], locked := [], waits := [] }

def Mem.reset : Mem :=
  { hbm := [], hbmPoison := [], scratch := [], scratchPoison := [], lines := [], wb := [], stamp := 0, slices := [],
    mapNew := [], applying := none, op := none, classNew := [], relayout := none, warm := [], dieNew := [], dieRead := [], recoveries := [], tlb := [], retired := [], replan := false }

def ArrSeq.reset : ArrSeq := { seqs := [], ops := [], chains := [], prefer := [], lastTenant := 15, left := 0, path := [] }

def Spindle.reset : Spindle := { seqs := [], ops := [], running := [], last := [], pages := [] }

def Tumbler.reset : Tumbler :=
  { ready := false, groups := [], blocks := [], tokens := [], cache := [], stamp := 0, acc := [], nextAcc := 0 }

def Port.reset : Port :=
  { rxSeq := none, tx := [], txSeq := 0, txAck := 0, unacked := [], sentFlits := [], replays := 0, credits := [], owed := [], rx := [], requests := [], responses := [], mgmt := [],
    landing := [], receipts := [], auth := none, wasUp := false }

def Fab.reset : Fab :=
  { ports := [], peers := [], cached := [], last := none, capable := false, held := [], origins := [], partner := none, reqs := [],
    nextReq := 0, nextAtom := 0, nextKey := 0, xfers := [], queue := [] }

/-- The machine right after power-up: no rail released, every register at its reset value. -/
def State.reset : State :=
  { pending := [], out := [], free := 0, resp := .none, regs := [], latches := [], lowHeld := [], tree := [],
    counts := [], clk := Clk.reset, icu := Icu.reset, chk := [], hif := Hif.reset, pwr := Pwr.reset, mem := Mem.reset, flash := Flash.reset,
    journal := Journal.reset, health := { inputs := [] }, sec := Secure.reset, keeper := Keeper.reset,
    cnt := Cnt.reset, side := Sideband.reset, agm := Agm.reset, arr := ArrSeq.reset, spn := Spindle.reset, tum := [], launches := [],
    nextLaunch := 0, fab := Fab.reset, syn := [], waits := [], amax := [], poison := [], frozen := [],
    ten := [] }

end Sys2Proof.Machine
end

