-- ==== Sys2Proof/Machine/Ops.lean ====
section
/-! DEFINITION. The named operations that every command's meaning is built of: registers and their fields, event bits
and the interrupt sources they raise, outputs, counters, free values, and the tenants' parts. -/

namespace Sys2Proof.Machine

/-! ### Registers -/

/-- The value of a register: what is listed at its offset, else its reset value. -/
def State.reg (s : State) (r : Reg) : DWord := KMap.get s.regs r.offset r.reset

/-- Writes a register, in the canonical form: a register at its reset value is not listed. -/
def State.setReg (s : State) (r : Reg) (v : DWord) : State :=
  { s with regs := KMap.set s.regs r.offset v r.reset }

/-- Returns every register of a range of offsets to its reset value. -/
def State.resetBlock (s : State) (lo hi : Nat) : State :=
  { s with regs := s.regs.filter fun x => !(decide (lo ≤ x.1 ∧ x.1 < hi)) }

/-- The value of a field of a register. -/
def State.rd (s : State) (f : Field) : Nat := ((s.reg f.reg).extractLsb' f.lo f.w).toNat

/-- The bits of a field. -/
def Field.mask (f : Field) : DWord := ((BitVec.allOnes f.w).setWidth 64) <<< f.lo

/-- A register word with a field replaced. -/
def Field.put (f : Field) (w : DWord) (v : Nat) : DWord :=
  (w &&& ~~~ f.mask) ||| (((BitVec.ofNat f.w v).setWidth 64) <<< f.lo)

/-- Writes a field of a register and leaves its other bits. -/
def State.wr (s : State) (f : Field) (v : Nat) : State := s.setReg f.reg (f.put (s.reg f.reg) v)

/-- Whether a one-bit field is set. -/
def State.has (s : State) (f : Field) : Bool := s.rd f == 1

/-- Adds to a field, modulo its width. -/
def State.add (s : State) (f : Field) (n : Nat) : State := s.wr f (s.rd f + n)

/-- Adds to a field that stops at its highest value. -/
def State.addSat (s : State) (f : Field) (n : Nat) : State := s.wr f (min (s.rd f + n) (2 ^ f.w - 1))

/-! ### Outputs, free values, counters -/

/-- Sends something out of the device. -/
def State.emit (s : State) (o : Output) : State := { s with out := o :: s.out }

/-- Sends several things out, the first first. -/
def State.emits (s : State) (os : List Output) : State := { s with out := os.reverse ++ s.out }

/-- Reports an event code (R12). -/
def State.event (s : State) (code : Nat) (d : Dest) (args : List Nat) : State := s.emit (.event code d args)

/-- The free value at this point: nothing constrains it. -/
def State.draw (s : State) : Nat := Config.freeValue s.free

/-- Passes the free value just used. -/
def State.drawn (s : State) : State := { s with free := s.free + 1 }

/-- One of several candidates, left open: the spec lets the device take any of them. -/
def State.pick {α : Type} (s : State) (xs : List α) : Option α :=
  if xs.isEmpty then none else xs[s.draw % xs.length]?

/-- Adds to counter slot `k` of unit `u`, modulo 2^64 (R478, R480). -/
def State.count (s : State) (u k n : Nat) : State :=
  { s with counts := KMap.set s.counts (16 * u + k) ((KMap.get s.counts (16 * u + k) 0 + n) % 2 ^ 64) 0 }

/-! ### Interrupt sources and event bits -/

/-- The owner of a source (R385): 0 host, 1 service firmware, 2 keeper, 3 none. The source of a check unit belongs to
the unit's owner. -/
def State.sourceOwner (s : State) (n : Nat) : Nat :=
  if 0x420 ≤ n ∧ n < 0x43C then if s.rd (F.chkCtrlOwner (n - 0x420)) = 1 then 0 else 1
  else sourceOwner0 n

/-- Sets the pending bit of a source (R384); nothing before the controller is READY (R400). -/
def State.pend (s : State) (n : Nat) : State :=
  if s.has F.icuStatusReady then
    s.setReg (.icuPendSet (n / 32)) (s.reg (.icuPendSet (n / 32)) ||| BitVec.ofNat 64 (2 ^ (n % 32)))
      |>.count (unitIdOf 0 0x0D 0) 1 1
  else s

/-- The block event of an events register and whether its host copy is raised too (R386). -/
def blockEvent (f : Field) : Option (Nat × Bool) :=
  match f.reg with
  | .clkEvents => if f.lo = 3 then some (1, false) else some (0, true)
  | .pwrEvents => some (2, true)
  | .arrEvents => some (3, true)
  | .arrAgmEvents => some (4, true)
  | .arrSpnEvents => some (5, true)
  | .arrUpdEvents => some (6, true)
  | .cstEvents => some (7, true)
  | .hbmEvents => some (8, true)
  | .fabEvents => some (9, true)
  | .synEvents => some (0xA, true)
  | .resEvents => some (0xB, true)
  | .durEvents => some (0xC, true)
  | .cntEvents => some (0xD, true)
  | .hifEvents => some (0xE, true)
  | .tenEvents => some (0xF, true)
  | .icuEvents => some (0x10, true)
  | .chkMismatch => some (0x11, true)
  | _ => none

/-- One bit of an events register. -/
def Field.at (f : Field) (i : Nat) : Field := { f with lo := f.lo + i, w := 1 }

/-- Sets a bit of an events register; when it was clear, raises both copies of its block event (R386). -/
def State.setEvent (s : State) (f : Field) : State :=
  if s.has f then s
  else
    match blockEvent f with
    | some (i, both) =>
      let s := (s.wr f 1).pend (0x440 + i)
      if both then s.pend (0x480 + i) else s
    | none =>
      -- the keeper raises C02h to C0Fh for the SEC events (R475)
      match f.reg with
      | .secEvents => (s.wr f 1).pend (0xC02 + f.lo)
      | _ => s.wr f 1

/-- Raises a source (R384); a reserved one is discarded and sets DENIED (R385). Nothing before READY (R400). -/
def State.raise (s : State) (n : Nat) : State :=
  if !s.has F.icuStatusReady then s
  else if s.sourceOwner n = 3 then (s.setEvent F.icuEventsDenied).count (unitIdOf 0 0x0D 0) 3 1
  else s.pend n

/-- A write that the controller ignores for want of ownership (R385). -/
def State.denied (s : State) : State :=
  (s.setEvent F.icuEventsDenied).count (unitIdOf 0 0x0D 0) 3 1

/-- Whether the array clock stands still: in a step of its divider (R23), or with the load cut (R449). -/
def State.arrayStops (s : State) : Bool := s.pwr.cut || s.clk.step == .held

/-! ### Command tree -/

/-- The messages that stand at a unit. -/
def State.inbox (s : State) (u : Nat) : List TreeMsg := KMap.get s.tree u []

/-- Sends a message to a unit, behind those that stand there (R18). Messages of different senders stand in the order in which the commands
sent them (DESIGN CHOICE, log 173). -/
def State.send (s : State) (u : Nat) (m : TreeMsg) : State :=
  { s with tree := KMap.set s.tree u (s.inbox u ++ [m]) [] }

/-- Takes the first message that stands at a unit. -/
def State.popMsg (s : State) (u : Nat) : State :=
  { s with tree := KMap.set s.tree u (s.inbox u).tail [] }

/-! ### Unit identifiers (R477) -/

def tumblerUnit (u : Nat) : Nat := unitIdOf (u / 48) 0x06 (u % 48)
def arrayUnit : Nat := unitIdOf 0 0x01 0
def monitorUnit : Nat := unitIdOf 2 0x03 0
def spindleUnit (q : Nat) : Nat := unitIdOf q 0x04 0
def updateUnit (q : Nat) : Nat := unitIdOf q 0x07 0
def channelUnit (c : Nat) : Nat := unitIdOf (c / 48) 0x08 (c % 48)
def engineUnit (e : Nat) : Nat := unitIdOf (e / 4) 0x09 (e % 4)
def portUnit (p : Nat) : Nat := unitIdOf (if p < 3 then 0 else (p - 1) / 2) 0x0A p
def hostLinkUnit : Nat := unitIdOf 0 0x0B 0
def coreUnit (c : Nat) : Nat := unitIdOf (c / 2) 0x0C (c % 2)
def icuUnit : Nat := unitIdOf 0 0x0D 0
def checkUnit (u : Nat) : Nat := unitIdOf 0 0x0E u
def barrierUnit : Nat := unitIdOf 1 0x0F 0
def flashLinkUnit : Nat := unitIdOf 3 0x10 0
def powerUnit : Nat := unitIdOf 0 0x11 0
def digestUnit (q : Nat) : Nat := unitIdOf q 0x12 0
def keeperUnit : Nat := unitIdOf 4 0x13 0
def flashUnit : Nat := unitIdOf 5 0x14 0
def clkUnit : Nat := unitIdOf 0 0x00 0
/-- The bank of a slice that serves an address's line (R232). -/
def bankUnit (slice addr : Nat) : Nat := unitIdOf slice 0x05 (Nat.xor (bits addr 12 8) (bits addr 17 13))

/-- The time tag of a unit (R479): its cycle counter, which the model leaves out, so a free value. -/
def State.tag (s : State) : Nat := s.draw % 2 ^ 64

/-! ### What units have under way -/

/-- Whether actions that earlier messages caused at a unit are still to be completed: the operations that the array sequencer or the spindle
has accepted. A completion message acts at once. -/
def State.busyAt (s : State) (u : Nat) : Bool :=
  (u == arrayUnit && !s.arr.ops.isEmpty) || (u == spindleUnit 0 && !s.spn.ops.isEmpty)

/-- Whether an access leaves the device. -/
def AccessKind.isRemote : AccessKind → Bool
  | .remote => true
  | .remoteStore => true
  | _ => false

/-! ### Tenants -/

def State.tenant (s : State) (t : Nat) : Tenant := KMap.get s.ten t Tenant.reset

def State.setTenant (s : State) (t : Nat) (x : Tenant) : State :=
  { s with ten := KMap.set s.ten t x Tenant.reset }

def State.modTenant (s : State) (t : Nat) (f : Tenant → Tenant) : State := s.setTenant t (f (s.tenant t))

/-- Whether a tenant is ACTIVE (R377). -/
def State.active (s : State) (t : Nat) : Bool := s.rd (F.tenStateState t) == 2

/-! ### Host memory (R357) -/

/-- Whether the host aperture reaches `n` bytes from a host bus address. -/
def State.reaches (s : State) (addr n : Nat) : Bool :=
  let b := (s.reg .hifApertureBase).toNat
  decide (b ≤ addr ∧ addr + n ≤ b + 2 ^ 40)

/-- Writes host memory through the aperture: a write outside it reaches nothing and sets HOST_ACCESS. -/
def State.hostWrite (s : State) (addr : Nat) (bs : List Byte) : State :=
  if s.reaches addr bs.length then (s.emit (.hostWrite addr bs)).count hostLinkUnit 1 1
  else s.setEvent F.hifEventsHostAccess

end Sys2Proof.Machine
end

