-- ==== Sys2Proof/Machine/JournalOps.lean ====
section
/-! DEFINITION. The journal (Durable store and power behaviour): building a record, offering it, starting it, committing
it, and reading the rings back. -/

namespace Sys2Proof.Machine

/-- The number of slots of a ring (R431). -/
def journalSlots : Nat := 1048576

/-- The check of a journal record: CRC-32C over bytes 000h to FFBh with JSEQ folded first as the tag (R432). -/
def journalCrc (jseq : Nat) (body : List Byte) : Nat :=
  crcFinal 0 (crcFold 0 (crcInit 0) (leBytes 8 jseq ++ body))

/-- KEY of a record: that of a POWER_EVENT is its JSEQ (R433). -/
def journalKey (r : JRecord) (jseq : Nat) : Nat := if r.kind.toNat = 5 then jseq else r.key.toNat

/-- The 4,092 bytes of a record before its CRC (R432). -/
def journalBody (r : JRecord) (jseq time : Nat) : List Byte :=
  leBytes 4 0x314A4B48 ++ leBytes 2 r.kind.toNat ++ [if r.byKeeper then 1 else 0] ++ [r.tenant] ++ leBytes 8 jseq ++
    leBytes 8 (journalKey r jseq) ++ leBytes 2 r.payload.length ++ leBytes 2 1 ++ leBytes 4 0 ++ leBytes 8 time ++
    zeros 24 ++ r.payload.take 4024 ++ zeros (4024 - r.payload.length) ++ zeros 4

/-- A journal record (R432). -/
def journalBytes (r : JRecord) (jseq time : Nat) : List Byte :=
  let b := journalBody r jseq time
  b ++ leBytes 4 (journalCrc jseq b)

/-- Whether a copy is valid: MAGIC, FORMAT and CRC are correct (R432). -/
def journalValid (c : List Byte) : Bool :=
  fld c 0 4 == 0x314A4B48 && fld c 0x1A 2 == 1 &&
    fld c 0xFFC 4 == journalCrc (fld c 8 8) (c.take 0xFFC)

/-- The record that a copy's bytes hold. -/
def journalRead (c : List Byte) : JRecord :=
  { kind := BitVec.ofNat 16 (fld c 4 2), byKeeper := fld c 6 1 == 1, tenant := BitVec.ofNat 8 (fld c 7 1),
    key := BitVec.ofNat 64 (fld c 0x10 8), payload := (c.drop 0x40).take (fld c 0x18 2) }

/-- Whether the journal accepts a record from its writer (R433). -/
def journalTakes (r : JRecord) : Bool :=
  if 0x100 ≤ r.kind.toNat ∧ r.kind.toNat ≤ 0x1FF then r.byKeeper else !r.byKeeper

/-- The JSEQ of the oldest live record. -/
def oldestLive : KMap Nat → Option Nat
  | [] => none
  | (_, j) :: m =>
    match oldestLive m with
    | none => some j
    | some i => some (min i j)

/-- Starts one record: it takes the next JSEQ (R431, R434). -/
def State.journalBegin (s : State) (r : JRecord) : State :=
  let j := s.journal.next
  let run : JRun := { jseq := j, item := r, bytes := journalBytes r j s.tag, copyA := false }
  { s with journal := { s.journal with next := j + 1, run := s.journal.run ++ [run] }, free := s.free + 1 }

/-- Before the write position comes within 65,536 slots of the oldest live record, that record's content is written again
under a new JSEQ (R435). -/
def State.journalGuard (s : State) : State :=
  match oldestLive s.journal.live with
  | some j =>
    if j + journalSlots ≤ s.journal.next + 65536 then
      let c := KMap.get s.flash.ringA (j % journalSlots) []
      let r := journalRead c
      if s.journal.run.any (fun x => x.item.kind == r.kind && x.item.key == r.key) then s
      else s.journalBegin r
    else s
  | none => s

/-- Starts queued records while fewer than four are in progress (R434); none during a reset sequence (R449), none before
READY (R454). -/
def State.journalStart : Nat → State → State
  | 0, s => s
  | n + 1, s =>
    if s.journal.run.length < 4 ∧ s.pwr.resetting.isNone ∧ s.has F.durStatusReady then
      match findAt (fun q : JReq => !q.coalescing) s.journal.queue with
      | none => s
      | some i =>
        match s.journal.queue[i]? with
        | none => s
        | some q =>
          let s := s.journalGuard
          State.journalStart n
            ({ s with journal := { s.journal with queue := dropAt s.journal.queue i } }.journalBegin q.item)
    else s

/-- Whether the input stands in WARNING (R448). -/
def State.inWarning (s : State) : Bool := s.rd F.pwrStatusState == 3

/-- Offers a record to the journal (R433, R434): one that its writer may not offer is discarded with 0907h; a COMMIT waits
its coalescing time, and a newer one of the same KEY replaces it. -/
def State.journalOffer (s : State) (r : JRecord) : State :=
  if !journalTakes r then s.event 0x0907 .keeper [r.kind.toNat]
  else
    let wait := r.kind.toNat == 1 && s.rd F.durCtrlCoalesceUs != 0 && !s.inWarning
    let same := fun q : JReq => q.coalescing && r.kind.toNat == 1 && q.item.kind == r.kind && q.item.key == r.key
    let queue := s.journal.queue.filter (fun q => !same q) ++ [{ item := r, coalescing := wait }]
    State.journalStart 4 { s with journal := { s.journal with queue := queue } }

/-- A record's copies, as its commit leaves them. -/
def State.journalProgram (s : State) (x : JRun) : State :=
  let slot := x.jseq % journalSlots
  { s with flash := { s.flash with
      ringA := KMap.put s.flash.ringA slot x.bytes
      ringB := KMap.put s.flash.ringB slot x.bytes } }

/-- The JSEQs of the live POWER_EVENT records, oldest first (their KEY is their JSEQ). -/
def powerEvents (m : KMap Nat) : List Nat :=
  (m.filter fun x => decide (liveKey 5 0 ≤ x.1 ∧ x.1 < liveKey 6 0)).map (·.2)

/-- The live records after one more is committed: the newest of its kind and key; of POWER_EVENT the newest 256 (R433). -/
def liveAfter (m : KMap Nat) (kind key jseq : Nat) : KMap Nat :=
  let m := KMap.put m (liveKey kind key) jseq
  if kind = 5 ∧ 256 < (powerEvents m).length then KMap.del m (liveKey 5 ((powerEvents m).headD 0)) else m

/-- Bytes written to the SLC areas: whole MiB are counted in SLC_WRITTEN, and its share of the rated endurance in SLC_USED
(R441, R453: 16 GiB of 30,000 cycles). -/
def State.slcWrite (s : State) (n : Nat) : State :=
  let b := s.journal.slcRest + n
  let s := { s with journal := { s.journal with slcRest := b % 2 ^ 20 } }.add F.durSlcWrittenMib (b / 2 ^ 20)
  s.wr F.durLifeSlcUsed (min 0xFFFF (s.rd F.durSlcWrittenMib * 1000 / (16384 * 30000)))

/-- The lifetime allowance of TLC writes in MiB (R441). -/
def tlcAllowance : Nat := 4375 * 2 ^ 20

/-- Bytes written to the TLC areas (R443, R453); reaching the lifetime allowance raises 0808h once. -/
def State.tlcWrite (s : State) (n : Nat) : State :=
  let b := s.journal.tlcRest + n
  let s := { s with journal := { s.journal with tlcRest := b % 2 ^ 20 } }.add F.durTlcWrittenMib (b / 2 ^ 20)
  let s := s.count flashUnit 2 n
  let s := s.wr F.durLifeTlcUsed (min 0xFFFF (s.rd F.durTlcWrittenMib * 1000 / tlcAllowance))
  if tlcAllowance ≤ s.rd F.durTlcWrittenMib ∧ !s.has F.durStatusWorn then
    ((s.wr F.durStatusWorn 1).setEvent F.durEventsFlashWorn).event 0x0808 .device []
  else s

/-- The acknowledgement of a record (R434 step 3): both copies stand, and it is live. -/
def State.journalCommit (s : State) (x : JRun) : State :=
  let s := s.journalProgram x
  let s := { s with journal := { s.journal with
    run := s.journal.run.filter (fun y => y.jseq != x.jseq)
    live := liveAfter s.journal.live x.item.kind.toNat (journalKey x.item x.jseq) x.jseq } }
  let s := if (s.reg .durJseq).toNat < x.jseq then s.setReg .durJseq (BitVec.ofNat 64 x.jseq) else s
  (s.count flashUnit 1 1 |>.count flashUnit 2 8192).slcWrite 8192

/-- Service firmware's record of a kind. -/
def firmwareRecord (kind tenant key : Nat) (payload : List Byte) : JRecord :=
  { kind := BitVec.ofNat 16 kind, byKeeper := false, tenant := BitVec.ofNat 8 tenant, key := BitVec.ofNat 64 key,
    payload := payload }

/-- The keeper's record of a kind. -/
def keeperRecord (kind key : Nat) (payload : List Byte) : JRecord :=
  { kind := BitVec.ofNat 16 kind, byKeeper := true, tenant := 0xFF, key := BitVec.ofNat 64 key, payload := payload }

/-- The payload of a LIFETIME record (R433): the DUR counters and the budget state, in an order of the model's own. -/
def State.lifetimePayload (s : State) : List Byte :=
  leBytes 8 (s.reg .durTlcWritten).toNat ++ leBytes 8 (s.reg .durSlcWritten).toNat ++ leBytes 4 (s.reg .durHours).toNat ++
    leBytes 4 (s.reg .durCycles).toNat ++ leBytes 4 (s.reg .durSpare).toNat ++ leBytes 4 (s.reg .durLife).toNat ++
    leBytes 8 (s.reg (.durBudget 0)).toNat ++ leBytes 8 (s.reg (.durBudget 1)).toNat ++
    leBytes 8 (s.reg (.durBudget 2)).toNat

/-- The payload of a POWER_EVENT record (R433): CAUSE, VIN_MIN, the warning's duration (time, left free) and the records
discarded. -/
def State.powerPayload (s : State) (cause : Nat) : List Byte :=
  leBytes 1 cause ++ leBytes 2 (s.rd F.pwrVinVinMin) ++ leBytes 4 (s.draw % 2 ^ 32) ++ leBytes 2 s.pwr.discarded

end Sys2Proof.Machine
end

