-- ==== Sys2Proof/Machine/Reset.lean ====
section
/-! DEFINITION. Device reset (R31, R449, R451): what it keeps and what it returns to reset, and the reset sequence that
leads to it. -/

namespace Sys2Proof.Machine

/-- What the keeper keeps through a device reset: its fuses, the keeper area, and what it must know at the next boot
(R461, R462, R472, R476). -/
def Keeper.restart (k : Keeper) : Keeper :=
  { Keeper.reset with
    fuses := k.fuses, mirror := k.mirror, mirrorSeq := k.mirrorSeq, cert := k.cert, boots := k.boots, token := k.token,
    tried := k.tried }

/-- A device reset: every register and every piece of state takes its reset value, but for CLK.REFSEL (R31), what the
flash holds (R451), and what the power controller keeps of its own (R497, R505). -/
def State.deviceReset (s : State) : State :=
  { State.reset with
    pending := s.pending
    out := s.out
    free := s.free
    flash := s.flash
    pwr := { s.pwr with resetting := none, discarded := 0, cut := false, floorBefore := 0 }
    keeper := s.keeper.restart
    side := s.side
    regs := ((State.reset.setReg .clkRefsel (s.reg .clkRefsel)).wr F.pwrThermTripSensor (s.rd F.pwrThermTripSensor)).regs }

/-- The reset sequence starts (R449 step 1 and 3): the load is cut, and records not yet started are discarded. A sequence
that runs is not started again. -/
def State.resetSequence (s : State) (cause : Nat) : State :=
  match s.pwr.resetting with
  | some _ => s
  | none =>
    { s with
      pwr := { s.pwr with resetting := some cause, cut := true, discarded := s.journal.queue.length }
      journal := { s.journal with queue := [] } }

/-- Records in progress complete, both copies (R449 step 2). -/
def State.finishRecords (s : State) : State := s.journal.run.foldl State.journalCommit s

/-- The POWER_EVENT record of a reset (R449 step 4), both copies. -/
def State.powerEvent (s : State) (cause : Nat) : State :=
  let s := s.journalBegin (firmwareRecord 5 0xFF 0 (s.powerPayload cause))
  s.finishRecords

/-- Whether a reset of this cause ends with the rails falling: those of R449's POWER_EVENT, and a thermal shutdown (R505). -/
def railsFall (cause : Nat) : Bool := cause != 5

/-- The sequence's end (R449): the records in progress complete, one POWER_EVENT record is written for a reset level, a high
input or a clock loss, and the device resets. -/
def State.resetEnd (s : State) (cause : Nat) : State :=
  let s := s.finishRecords
  let s := if cause = 2 ∨ cause = 3 ∨ cause = 4 then s.powerEvent cause else s
  let s := s.deviceReset
  if railsFall cause then { s with pwr := { s.pwr with phase := .falling } } else s

end Sys2Proof.Machine
end

