-- ==== Sys2Proof/Machine/Health.lean ====
section
/-! DEFINITION. The health monitor (R408, R409) and the triggers of securing that a rise of the risk level pulls (R410). -/

namespace Sys2Proof.Machine

/-- The level an input sets (R408). -/
def riskLevel : RiskInput → Nat
  | .hbmCe1 => 1 | .hbmCe2 => 2 | .hbmUe => 2 | .storeSram => 2 | .linkRetrain => 1 | .linkDegraded => 1
  | .linksDown => 2 | .droop => 2 | .droopCorrelated => 3 | .droopTwice => 3 | .feedWide => 3 | .thermalWarn => 1
  | .thermalNear => 2 | .clock => 2 | .clockUnlock => 2 | .agreement1 => 1 | .agreement3 => 2 | .peers => 2 | .host => 2
  | .unstable => 2

/-- The event code of an input (R426 RISK.CAUSE); 0000h where the input's row names no code (R12). -/
def riskCode : RiskInput → Nat
  | .hbmCe1 => 0 | .hbmCe2 => 0 | .hbmUe => 0x030D | .storeSram => 0x0309 | .linkRetrain => 0x040A
  | .linkDegraded => 0x040A | .linksDown => 0x040A | .droop => 0x0801 | .droopCorrelated => 0x0801
  | .droopTwice => 0x0801 | .feedWide => 0x0801 | .thermalWarn => 0 | .thermalNear => 0 | .clock => 0x0810
  | .clockUnlock => 0x0815 | .agreement1 => 0x0205 | .agreement3 => 0x0205 | .peers => 0x070D | .host => 0x0610
  | .unstable => 0x070F

/-- The highest level of the inputs held and its cause; the earliest held of equals. -/
def riskOf : List RiskInput → Nat × Nat
  | [] => (0, 0)
  | i :: is => if (riskOf is).1 ≤ riskLevel i then (riskLevel i, riskCode i) else riskOf is

/-- STEP of a tenant's newest complete generation in a layer (R426): all ones for none. -/
def State.genStep (s : State) (t layer : Nat) : Nat := (s.reg (.resGen t layer)).toNat

/-- The committed step of the record in force. -/
def Step.record (x : Step) : CommitRec := if x.slot = 0 then x.rec0 else x.rec1

/-- Whether a tenant's generation in a layer is older than its record in force; none at all is older (R410). -/
def State.genOlder (s : State) (t layer : Nat) : Bool :=
  s.genStep t layer == 2 ^ 64 - 1 || decide (s.genStep t layer < (s.tenant t).step.record.step)

/-- A layer of a tenant becomes due (R411): two triggers for one layer make one securing. Layer 2 joins every layer-1
securing of a correlated pair (R407). -/
def State.dueLayer (s : State) (t layer : Nat) : State :=
  let add := fun (d : List (Nat × Nat)) (l : Nat) => if d.contains (t, l) then d else d ++ [(t, l)]
  let d := add s.sec.due layer
  let d := if layer = 1 ∧ s.has F.resStatusCorrelated then add d 2 else d
  { s with sec := { s.sec with due := d } }

/-- Every ACTIVE tenant's layers become due, those whose layer-1 generation is older than its record in force if `older`. -/
def State.dueAll (s : State) (layers : List Nat) (older : Bool) : State :=
  (upto 0 16).foldl
    (fun s t =>
      if s.active t && (!older || s.genOlder t 1) then layers.foldl (fun s l => s.dueLayer t l) s else s) s

/-- The risk level is recomputed (R408): a change raises 070Ch (R409), a rise to 2 or 3 its securings (R410). -/
def State.recomputeRisk (s : State) : State :=
  let old := s.rd F.resRiskLevel
  let (level, cause) := riskOf s.health.inputs
  let s := (s.wr F.resRiskLevel level).wr F.resRiskCause cause
  if level = old then s
  else
    let s := (s.setEvent F.resEventsRisk).event 0x070C .device [level, cause]
    let s := if old < 2 ∧ 2 ≤ level then s.dueAll [1] true else s
    if old < 3 ∧ 3 ≤ level then s.dueAll [1, 2] true else s

/-- An input occurs (R408): its level is held anew. The monitor runs once RES is READY (R428). -/
def State.healthInput (s : State) (i : RiskInput) : State :=
  if s.has F.resStatusReady then
    { s with health := { inputs := s.health.inputs.filter (fun j => j != i) ++ [i] } }.recomputeRisk
  else s

/-- An input's hold time ends (R408). -/
def State.riskExpiry (s : State) (i : RiskInput) : State :=
  { s with health := { inputs := s.health.inputs.filter fun j => j != i } }.recomputeRisk

/-- The share of the fabric that a layer-1 drain may use, in eighths (R410, R426): doubled, up to 8, at risk level 3. -/
def State.fabShare (s : State) : Nat :=
  let f := s.rd F.resCtrlFabShare
  let f := if f = 0 then 1 else min f 8
  if s.rd F.resRiskLevel = 3 then min (2 * f) 8 else f

def execRiskHoldExpiry (i : RiskInput) (s : State) : Host.Outcome State Fault Refusal := .next (s.riskExpiry i)

/-- SECURE_REQUEST (R410): a write of RES.SECURE with GO; bits 10:8 name the layers, bits 3:0 the tenant. -/
def State.secureRequest (s : State) (v : Word) : State :=
  let t := (v.extractLsb' 0 4).toNat
  if v.getLsbD 31 && s.active t then
    [1, 2, 3].foldl (fun s l => if v.getLsbD (7 + l) then s.dueLayer t l else s) s
  else s

def execSecureRequest (v : Word) (s : State) : Host.Outcome State Fault Refusal := .next (s.secureRequest v)

end Sys2Proof.Machine
end

