-- ==== Sys2Proof/Machine/Clock.lean ====
section
/-! DEFINITION. Clocks (Device organisation and clocking): the array divider and its step, the reference, lock and
holdover, start-up from the rails' release, and the release of the clock domains. -/

namespace Sys2Proof.Machine

/-! ### The array divider (R22, R23) -/

/-- A divider request as it acts: 11b counts as 10b (R32). -/
def divider (n : Nat) : Nat := if n = 3 then 2 else n

/-- The slowest of the three requests (R22). -/
def State.slowest (s : State) : Nat :=
  max (divider (s.rd F.clkArrdivHostReq)) (max (divider (s.rd F.clkArrdivFwReq)) (divider (s.rd F.clkArrdivPwrFloor)))

/-- After a change of a request: a change of the effective divider starts the step sequence, or waits for the running one
to end (R23); a change that does not alter it has no effect (R22). -/
def State.divide (s : State) : State :=
  match s.clk.step with
  | .idle =>
    if s.slowest = s.rd F.clkArrdivEffective then s
    else
      { s with clk := { s.clk with step := .waiting } }.wr F.clkArrdivEffective s.slowest
        |>.wr F.clkStatusArrStepping 1 |>.count clkUnit 1 1
  | _ => { s with clk := { s.clk with deferred := s.slowest != s.rd F.clkArrdivEffective } }

/-- CLK_HOST_REQUEST (R22): a host write of HOST_REQ; 11b stores 10b (R32). -/
def execClkHostRequest (d : BitVec 2) (s : State) : Host.Outcome State Fault Refusal :=
  .next (s.wr F.clkArrdivHostReq (divider d.toNat)).divide

/-- Service firmware's request (R22, R504). -/
def State.fwRequest (s : State) (d : Nat) : State := (s.wr F.clkArrdivFwReq d).divide

/-- CLK_FW_REQUEST (R22). -/
def execClkFwRequest (d : BitVec 2) (s : State) : Host.Outcome State Fault Refusal := .next (s.fwRequest d.toNat)

/-- ARRAY_CLOCK_HOLD (R23): at the next frame boundary the array clock is held low. -/
def execArrayClockHold (s : State) : Host.Outcome State Fault Refusal :=
  match s.clk.step with
  | .waiting => .next { s with clk := { s.clk with step := .held } }
  | _ => .next s

/-- ARRAY_CLOCK_RESUME (R23): the array clock starts at the new divider. -/
def State.clockResume (s : State) : State :=
  match s.clk.step with
  | .held =>
    ({ s with clk := { s.clk with step := .idle } }.wr F.clkStatusArrDiv (s.rd F.clkArrdivEffective)
      |>.wr F.clkStatusArrStepping 0).setEvent F.clkEventsArrStepped
  | _ => s

def execArrayClockResume (s : State) : Host.Outcome State Fault Refusal := .next s.clockResume

/-- DEFERRED_DIVIDER_CHANGE (R23): a change made during a step is taken once the sequence has ended. -/
def execDeferredDividerChange (s : State) : Host.Outcome State Fault Refusal :=
  match s.clk.step with
  | .idle =>
    if s.clk.deferred then .next { s with clk := { s.clk with deferred := false } }.divide else .next s
  | _ => .next s

/-! ### Reference, lock and holdover (R26 to R28, R508) -/

/-- Whether the PLL is in holdover. -/
def State.inHoldover (s : State) : Bool := s.has F.clkStatusHoldover

/-- The PLL enters its single holdover (R508): a later cause does not restart it. -/
def State.enterHoldover (s : State) : State :=
  if s.inHoldover then s else (s.wr F.clkStatusHoldover 1).count clkUnit 2 1

/-- REF_LOST (R27): the reference has no edge for 200 ns; the reference in use counts as present no longer (R26). -/
def State.refLost (s : State) : State :=
  if !s.has F.clkStatusPllLock || s.clk.refMissing then s
  else
    let s := { s with clk := { s.clk with refMissing := true } }
    let s := if s.rd F.clkStatusRefSrc = 0 then s.wr F.clkStatusRefHostOk 0 else s.wr F.clkStatusRefLocalOk 0
    ((s.enterHoldover.setEvent F.clkEventsRefLost).event 0x0810 .device []).healthInput .clock

def execRefLost (s : State) : Host.Outcome State Fault Refusal := .next s.refLost

/-- REF_RETURN (R27): the reference returns, and the PLL starts to relock. An on-module oscillator that runs again is present; the host
reference counts as present by REF_HOST_PRESENT (R26). -/
def State.refReturn (s : State) : State :=
  if s.clk.refMissing then
    let s := { s with clk := { s.clk with refMissing := false } }
    if s.rd F.clkStatusRefSrc = 1 then s.wr F.clkStatusRefLocalOk 1 else s
  else s

def execRefReturn (s : State) : Host.Outcome State Fault Refusal := .next s.refReturn

/-- PLL_RELOCK (R28, R508): the relock condition is met; the holdover ends when the reference is also present. -/
def State.pllRelock (s : State) : State :=
  if s.inHoldover then
    let s := { s with clk := { s.clk with unlocked := false } }
    if s.clk.refMissing then s else s.wr F.clkStatusHoldover 0
  else s

def execPllRelock (s : State) : Host.Outcome State Fault Refusal := .next s.pllRelock

/-- PLL_UNLOCK (R28): lock is lost while the reference has edges. PLL_LOCK stays set through the holdover (DESIGN CHOICE, log 172). -/
def State.pllUnlock (s : State) : State :=
  if !s.has F.clkStatusPllLock || s.clk.unlocked then s
  else
    let s := { s with clk := { s.clk with unlocked := true } }
    ((s.enterHoldover.setEvent F.clkEventsPllUnlock).event 0x0815 .device []).healthInput .clockUnlock

def execPllUnlock (s : State) : Host.Outcome State Fault Refusal := .next s.pllUnlock

/-- HOLDOVER_DEADLINE (R27, R28, R508): 2 ms have passed from the first entry with the reference still missing or lock not
regained, or lock was lost again within 1 s: CLOCK_LOSS, and the reset of R449. -/
def State.holdoverDeadline (s : State) : State :=
  if s.inHoldover && (s.clk.refMissing || s.clk.unlocked) then
    ((s.setEvent F.clkEventsClockLoss).event 0x0811 .device []).resetSequence 4
  else s

def execHoldoverDeadline (s : State) : Host.Outcome State Fault Refusal := .next s.holdoverDeadline

/-- The reference mode as it acts: 11b is taken as 10b (R26). -/
def State.refMode (s : State) : Nat := if s.rd F.clkRefselMode = 3 then 2 else s.rd F.clkRefselMode

/-- REF_HOST_PRESENT (R26): the host reference counts as present; a wait for it, by the mode chosen at reset, ends. -/
def State.refHostPresent (s : State) : State :=
  let s := s.wr F.clkStatusRefHostOk 1
  if s.clk.rails && !s.clk.selected && (s.clk.mode == 0 || s.clk.autoWait) then
    { s with clk := { s.clk with selected := true, autoWait := false } }.wr F.clkStatusRefSrc 0
  else s

def execRefHostPresent (s : State) : Host.Outcome State Fault Refusal := .next s.refHostPresent

/-- REF_AUTO_TIMEOUT (R26): 100 ms pass in Auto without the host reference. -/
def execRefAutoTimeout (s : State) : Host.Outcome State Fault Refusal :=
  if s.clk.autoWait then
    .next ({ s with clk := { s.clk with selected := true, autoWait := false } }.wr F.clkStatusRefSrc 1)
  else .next s

/-! ### Straps (R496) -/

/-- The parity of a 12-bit strap and its parity pin: odd over all thirteen. -/
def strapOdd (p : Straps) : Bool := (popcount 12 p.feed.toNat + b2n p.par) % 2 == 1

/-- The feed that the straps name (R496): FFFFh for none or an invalid strap. -/
def strapFeed (p : Straps) : Nat :=
  if p.feed = BitVec.allOnes 12 ∨ !strapOdd p then 0xFFFF else p.feed.toNat

/-- Whether the straps are invalid: neither all open nor a valid value with odd parity (R496). -/
def strapInvalid (p : Straps) : Bool :=
  !(p.feed == BitVec.allOnes 12 && p.par) && (!strapOdd p || p.feed == BitVec.allOnes 12)

/-- STRAP_SAMPLE (R496): the straps are sampled and decoded. -/
def State.sampleStraps (s : State) (p : Straps) : State :=
  let s := { s with pwr := { s.pwr with straps := p } }
  let s := ((s.wr F.resFeedStrapFeed (strapFeed p)).wr F.pwrStrapsPos p.pos.toNat).wr F.pwrStrapsChanged 0
  let s := s.wr F.pwrStrapsFeedOk (b2n (strapFeed p != 0xFFFF))
  if strapInvalid p then s.event 0x0813 .device [] else s

/-! ### Start-up (R30) -/

/-- R30 step 1: the straps are sampled (R496), the reference is selected by REFSEL, and housekeeping and keeper run from it
in bypass; the mask ROM starts (R461 stage 01h). The on-module oscillator runs with the rails (R26). -/
def State.startClocks (s : State) (p : Straps) : State :=
  let s := s.sampleStraps p
  let s := s.wr F.clkStatusRefLocalOk 1
  let sel := s.refMode == 1 || s.has F.clkStatusRefHostOk
  let s := { s with clk := { Clk.reset with rails := true, selected := sel, autoWait := !sel && s.refMode == 2, mode := s.refMode } }
  (s.wr F.clkStatusRefSrc (b2n (s.refMode == 1))).wr F.secBootStatusStage 1

/-- MODULE_RAIL_RELEASE (R30, R446 step 5): with every rail standing, the module rails are released. -/
def State.railRelease (s : State) (p : Straps) : State :=
  if s.pwr.phase = .up ∧ s.clk.rails = false then s.startClocks p else s

def execModuleRailRelease (p : Straps) (s : State) : Host.Outcome State Fault Refusal := .next (s.railRelease p)

/-- PLL_LOCK (R30 step 3): housekeeping and keeper move to their dividers. -/
def State.pllLock (s : State) : State :=
  if s.clk.rails && s.clk.bypass && s.clk.selected && !s.has F.secBootStatusHalted then
    { s with clk := { s.clk with bypass := false } }.wr F.clkStatusPllLock 1
  else s

def execPllLock (s : State) : Host.Outcome State Fault Refusal := .next s.pllLock

/-- PLL_LOCK_TIMEOUT (R30): the mask ROM retries twice; after the third attempt it halts, and SEC.BOOT_STATUS shows the
failure (ERROR 01h at stage 01h). -/
def State.pllLockTimeout (s : State) : State :=
  if s.clk.rails && s.clk.bypass && s.clk.selected && decide (s.clk.tries < 3) then
    let s := { s with clk := { s.clk with tries := s.clk.tries + 1 } }
    if s.clk.tries = 3 then (s.wr F.secBootStatusHalted 1).wr F.secBootStatusError 1 else s
  else s

def execPllLockTimeout (s : State) : Host.Outcome State Fault Refusal := .next s.pllLockTimeout

/-- The place of a domain in the order of release (R30 step 4). -/
def domainOrder : Domain → Nat
  | .service => 0 | .store => 1 | .fabric => 2 | .hbm => 3 | .array => 4

/-- Whether a domain has left reset. -/
def State.released (s : State) (d : Domain) : Bool := decide (domainOrder d < s.clk.released)

end Sys2Proof.Machine
end

