-- ==== Sys2Proof/Machine/Power.lean ====
section
/-! DEFINITION. The power controller (Durable store and power behaviour; Module, connectors and environment): input
levels, the array power floor, rails and power-up, the reset sequence, straps and temperatures. -/

namespace Sys2Proof.Machine

/-! ### The floor (R445) -/

/-- PWR_FLOOR takes a value; a change sets FLOOR and starts the step of R23. -/
def State.setFloor (s : State) (n : Nat) : State :=
  if s.rd F.clkArrdivPwrFloor = n then s
  else (((s.wr F.clkArrdivPwrFloor n).setEvent F.pwrEventsFloor).count powerUnit 2 1).divide

/-- PWR.LIMIT as it acts (R452): at most 2,400 W and at least 600 W. -/
def State.powerLimit (s : State) : Nat := max 600 (min 2400 (s.rd F.pwrLimitWatts))

/-- The floor after a sample (R445). -/
def State.nextFloor (s : State) (p : PowerReading) : Nat :=
  let f := s.rd F.clkArrdivPwrFloor
  if s.inWarning || p.over50us then 2
  else if s.powerLimit < p.mean10ms.toNat then min 2 (f + 1)
  else if p.low100ms then f - 1
  else f

/-- An input below 20 V takes the power controller's own supply, and with it the thermal trip latch (R505). -/
def State.supplyLost (s : State) : State :=
  { s with pwr := { s.pwr with trip := none, cooled := true } }.wr F.pwrThermTripSensor 0

/-- POWER_SAMPLE (R445, R452): the measured input and power, the lowest input since MIN_CLEAR, and the floor. -/
def State.powerSample (s : State) (p : PowerReading) : State :=
  let s := if p.vin.toNat < 20000 then s.supplyLost else s
  let s := s.wr F.pwrVinVin p.vin.toNat
  let s := s.wr F.pwrVinVinMin (min (s.rd F.pwrVinVinMin) p.vin.toNat)
  let s := (s.wr F.pwrPinPeak p.peak.toNat).wr F.pwrPinMean p.mean10ms.toNat
  (s.count powerUnit 3 s.draw).drawn.setFloor (s.nextFloor p)

def execPowerSample (p : PowerReading) (s : State) : Host.Outcome State Fault Refusal := .next (s.powerSample p)

/-- MIN_CLEAR (R452): VIN_MIN takes the present input. -/
def State.minClear (s : State) : State := s.wr F.pwrVinVinMin (s.rd F.pwrVinVin)

def execMinClear (s : State) : Host.Outcome State Fault Refusal := .next s.minClear

/-! ### Input levels (R444, R448) -/

/-- The input enters the LOW band (R444). -/
def State.enterLow (s : State) : State :=
  ((s.wr F.pwrStatusState 2).setEvent F.pwrEventsInputLow).event 0x0803 .device []

/-- INPUT_LOW (R444): once for each entry into the band from above. -/
def State.inputLow (s : State) : State := if s.rd F.pwrStatusState = 1 then s.enterLow else s

def execInputLow (s : State) : Host.Outcome State Fault Refusal := .next s.inputLow

/-- INPUT_NORMAL (R444): the input rises from the LOW band. -/
def State.inputNormal (s : State) : State := if s.rd F.pwrStatusState = 2 then s.wr F.pwrStatusState 1 else s

def execInputNormal (s : State) : Host.Outcome State Fault Refusal := .next s.inputNormal

/-- What an input at the reset level, or a high one, does to the controller: with the rails up the reset sequence of R449,
during power-up a restart (R447). -/
def State.inputReset (s : State) (cause : Nat) : State :=
  match s.pwr.phase with
  | .up => s.resetSequence cause
  | .rails _ => { s with pwr := { s.pwr with phase := .falling } }
  | .charging => { s with pwr := { s.pwr with phase := .waitInput } }
  | .testing => { s with pwr := { s.pwr with phase := .waitInput } }
  | _ => s

/-- INPUT_HIGH (R444): the input is disconnected, 0804h, and the reset sequence runs on hold-up energy. -/
def State.inputHigh (s : State) : State :=
  (((s.wr F.pwrStatusState 4).setEvent F.pwrEventsInputHigh).event 0x0804 .device []).inputReset 3

def execInputHigh (s : State) : Host.Outcome State Fault Refusal := .next s.inputHigh

/-- Drains of layers 2 and 3 pause, or go on (R417). -/
def State.pauseDrains (s : State) (p : Bool) : State :=
  { s with sec := { s.sec with
      drains := s.sec.drains.map fun d => if 2 ≤ d.layer then { d with paused := p } else d } }

/-- Coalescing ends (R434): every queued record may start. -/
def State.endCoalescing (s : State) : State :=
  State.journalStart 4
    { s with journal := { s.journal with queue := s.journal.queue.map fun q => { q with coalescing := false } } }

/-- DROOP_WARNING (R448): WARNING begins. -/
def State.droopWarning (s : State) : State :=
  if s.pwr.phase = .up ∧ (s.rd F.pwrStatusState = 1 ∨ s.rd F.pwrStatusState = 2) then
    let s := { s with pwr := { s.pwr with floorBefore := s.rd F.clkArrdivPwrFloor } }
    let s := ((s.wr F.pwrStatusState 3).setEvent F.pwrEventsDroopWarning).event 0x0801 .device []
    let s := (s.setFloor 2).endCoalescing
    let s := (s.journalOffer (firmwareRecord 4 0xFF 0 s.lifetimePayload)).pauseDrains true
    let s := (s.addSat F.durCyclesDroops 1).count powerUnit 1 1
    s.healthInput (if s.has F.resStatusCorrelated then .droopCorrelated else .droop)
  else s

def execDroopWarning (s : State) : Host.Outcome State Fault Refusal := .next s.droopWarning

/-- DROOP_RECOVERY (R448): the input has stayed above 39.0 V for 100 µs: the floor returns, drains resume and a POWER_EVENT
record with CAUSE 01h is queued. -/
def State.droopRecovery (s : State) : State :=
  if s.inWarning ∧ s.pwr.resetting.isNone then
    let s := if s.rd F.pwrVinVin < 40000 then s.enterLow else s.wr F.pwrStatusState 1
    let s := (s.setEvent F.pwrEventsRecovered).setFloor s.pwr.floorBefore
    let r := firmwareRecord 5 0xFF 0 (s.powerPayload 1)
    ((s.drawn.journalOffer r).pauseDrains false)
  else s

def execDroopRecovery (s : State) : Host.Outcome State Fault Refusal := .next s.droopRecovery

/-- RESET_LEVEL (R449): the input reaches 33.0 V. -/
def State.resetLevel (s : State) : State := s.inputReset 2

def execResetLevel (s : State) : Host.Outcome State Fault Refusal := .next s.resetLevel

/-- What the strap pins show at a sample whose command does not bring them: a free value (log 243). -/
def State.drawStraps (s : State) : Straps := ⟨BitVec.ofNat 12 s.draw, s.draw.testBit 12, BitVec.ofNat 6 (s.draw / 2 ^ 13)⟩

/-- RESET_RECORDS_COMPLETE (R449): steps 2 to 5 of the sequence that runs. A reset that leaves the rails up samples the straps and begins
at R30 (R447, R496). -/
def State.resetRecordsComplete (s : State) : State :=
  match s.pwr.resetting with
  | some cause =>
    let s := s.resetEnd cause
    if !railsFall cause ∧ s.pwr.phase = .up then s.drawn.startClocks s.drawStraps else s
  | none => s

def execResetRecordsComplete (s : State) : Host.Outcome State Fault Refusal := .next s.resetRecordsComplete

/-- PWR_EN_OPEN (R492): treated as an input at the reset level. -/
def State.pwrEnOpen (s : State) : State := { s with pwr := { s.pwr with enOpen := true } }.resetLevel

def execPwrEnOpen (s : State) : Host.Outcome State Fault Refusal := .next s.pwrEnOpen

/-- PWR_EN_CLOSE (R492). -/
def execPwrEnClose (s : State) : Host.Outcome State Fault Refusal :=
  .next { s with pwr := { s.pwr with enOpen := false } }

/-! ### Power-up (R446, R447, R450) -/

/-- INPUT_STABLE (R446 step 1, R492, R505 step 4): charging starts unless PWR_EN is open or the module has not cooled. -/
def State.inputStable (s : State) : State :=
  if s.pwr.phase = .waitInput ∧ !s.pwr.enOpen ∧ s.pwr.cooled then { s with pwr := { s.pwr with phase := .charging } }
  else s

def execInputStable (s : State) : Host.Outcome State Fault Refusal := .next s.inputStable

/-- HOLDUP_CHARGED (R446 step 2 and 3): the discharge test runs. -/
def execHoldupCharged (s : State) : Host.Outcome State Fault Refusal :=
  .next (if s.pwr.phase = .charging then { s with pwr := { s.pwr with phase := .testing } } else s)

/-- The result of a bank test (R450): below 4,000 µs, 0806h and HOLDUP_OK clear. -/
def State.holdup (s : State) (us : Half) : State :=
  let s := { s with pwr := { s.pwr with tested := true } }.wr F.pwrHoldupUs us.toNat
  if us.toNat < 4000 then
    ((s.wr F.pwrStatusHoldupOk 0).setEvent F.pwrEventsHoldupFault).event 0x0806 .device []
  else s.wr F.pwrStatusHoldupOk 1

/-- HOLDUP_TEST_END (R446 step 3): PWR.HOLDUP is written and the first rail starts. -/
def State.holdupTestEnd (s : State) (us : Half) : State :=
  if s.pwr.phase = .testing then { s.holdup us with pwr := { (s.holdup us).pwr with phase := .rails 0 } } else s

def execHoldupTestEnd (us : Half) (s : State) : Host.Outcome State Fault Refusal := .next (s.holdupTestEnd us)

/-- HOLDUP_RETEST (R450): each 24 hours. -/
def execHoldupRetest (us : Half) (s : State) : Host.Outcome State Fault Refusal :=
  .next (if s.pwr.phase = .up then s.holdup us else s)

/-- RAIL_POWER_GOOD (R446 step 4 and 5): the next rail starts; after the ninth every rail stands. -/
def State.railPowerGood (s : State) : State :=
  match s.pwr.phase with
  | .rails n =>
    if n + 1 = 9 then { s with pwr := { s.pwr with phase := .up, failures := 0, failedRail := 0 } }
    else { s with pwr := { s.pwr with phase := .rails (n + 1) } }
  | _ => s

def execRailPowerGood (s : State) : Host.Outcome State Fault Refusal := .next s.railPowerGood

/-- RAIL_TIMEOUT (R446): every rail drops; the controller retries after 1 s, and stays off after three failures. -/
def State.railTimeout (s : State) : State :=
  match s.pwr.phase with
  | .rails n =>
    { s with pwr := { s.pwr with
        phase := if s.pwr.failures + 1 = 3 then .failedOff else .retryWait
        failures := s.pwr.failures + 1, failedRail := n + 1 } }
  | _ => s

def execRailTimeout (s : State) : Host.Outcome State Fault Refusal := .next s.railTimeout

/-- RAIL_RETRY (R446): the rails are raised again from the first. -/
def execRailRetry (s : State) : Host.Outcome State Fault Refusal :=
  .next (if s.pwr.phase = .retryWait then { s with pwr := { s.pwr with phase := .rails 0 } } else s)

/-- RAILS_DOWN (R447): the rails have fallen, and the controller waits for its input again. CLK.REFSEL does not outlive
them (R31). -/
def State.railsDown (s : State) : State :=
  if s.pwr.phase = .falling then
    { s with pwr := { s.pwr with phase := .waitInput } }.setReg .clkRefsel (Reg.reset .clkRefsel)
  else s

def execRailsDown (s : State) : Host.Outcome State Fault Refusal := .next s.railsDown

/-! ### Straps (R497) -/

/-- STRAP_COMPARE (R497): the pins against the values in use; a difference raises 0814h. -/
def State.strapCompare (s : State) (p : Straps) : State :=
  if p = s.pwr.straps then s.wr F.pwrStrapsChanged 0
  else (s.wr F.pwrStrapsChanged 1).event 0x0814 .firmware []

def execStrapCompare (pins : Straps) (s : State) : Host.Outcome State Fault Refusal := .next (s.strapCompare pins)

/-! ### Temperatures (R503 to R505) -/

/-- Every sensor by its sensor ID (R501), its warning and its shutdown limit, and its reading, in tenths of a degree. -/
def sensors (t : Temps) : List (Nat × Int × Int × Int) :=
  (upto 0 4).map (fun q => (4 + q, 950, 1100, t.die.getD q 0)) ++
    (upto 0 12).map (fun k => (8 + k, 900, 1050, t.hbm.getD k 0)) ++ [(20, 800, 950, t.flash)]

/-- The sensors whose reading is above a limit. -/
def above (t : Temps) (limit : Int × Int → Int) : List Nat :=
  ((sensors t).filter fun x => decide (limit (x.2.1, x.2.2.1) < x.2.2.2)).map (·.1)

/-- The sensors that a limit counts for: above it at this reading and at the last (R503). -/
def twice (now before : List Nat) : List Nat := now.filter before.contains

/-- The highest of readings, in whole degrees. -/
def hottest : List Int → Int
  | [] => 0
  | [x] => x
  | x :: xs => max x (hottest xs)

/-- THERMAL_READ (R503): each limit counts after two readings above it; a warning slows the array and informs the health
monitor (R504), a shutdown trips (R505). -/
def State.thermalRead (s : State) (t : Temps) : State :=
  if s.pwr.phase ≠ .up then { s with pwr := { s.pwr with temps := some t } }
  else
    let hot := above t (·.1)
    let hotter := above t fun l => l.1 + 50
    let near := above t fun l => l.2 - 50
    let tooHot := above t (·.2)
    let warn := twice hot s.pwr.hot
    let warn5 := twice hotter s.pwr.hotter
    let trip := twice tooHot s.pwr.trips
    let s := { s with pwr := { s.pwr with temps := some t, hot := hot, hotter := hotter, trips := tooHot } }
    let s := s.wr F.pwrThermDieMax (unsigned 8 (hottest t.die / 10))
    let s := s.wr F.pwrThermHbmMax (unsigned 8 (hottest t.hbm / 10))
    let s := if warn.isEmpty then s else s.healthInput .thermalWarn
    let s := if near.isEmpty then s else s.healthInput .thermalNear
    let s := if warn.isEmpty then s else s.fwRequest (max 1 (s.rd F.clkArrdivFwReq))
    let s := if warn5.isEmpty then s else s.fwRequest 2
    match trip, s.pwr.resetting with
    | x :: _, none =>
      { (s.wr F.pwrThermTripSensor x) with pwr := { s.pwr with trip := some x, cooled := false } }.resetSequence 6
    | _, _ => s

def execThermalRead (temps : Temps) (s : State) : Host.Outcome State Fault Refusal := .next (s.thermalRead temps)

/-- Whether every sensor last read at most a limit; with no reading yet nothing speaks against it. -/
def State.allWithin (s : State) (limit : Int × Int → Int) : Bool :=
  match s.pwr.temps with
  | some t => (above t limit).isEmpty
  | none => true

/-- THERMAL_RELIEF_EXPIRY (R504): with every sensor 5 degrees below its warning limit, FW_REQ returns to /24. -/
def execThermalReliefExpiry (s : State) : Host.Outcome State Fault Refusal :=
  .next (if s.allWithin fun l => l.1 - 50 then s.fwRequest 0 else s)

/-- COOL_DOWN_EXPIRY (R505 step 4): with every powered sensor below its warning limit, power-up may start again. -/
def execCoolDownExpiry (s : State) : Host.Outcome State Fault Refusal :=
  .next (if s.allWithin fun l => l.1 - 1 then { s with pwr := { s.pwr with cooled := true } } else s)

end Sys2Proof.Machine
end

