-- ==== Sys2Proof/Machine/Counters.lean ====
section
/-! DEFINITION. Counters, snapshots and telemetry (Counters and telemetry). -/

namespace Sys2Proof.Machine

/-- Whether a counter slot counts what the model leaves out or no rule decides, by unit kind (R478): cycles, the row activations of a
channel, the TLPs and replays of the host link, the bytes of the flash link and of each digest unit, and retired blocks. -/
def openSlot (kind k : Nat) : Bool :=
  k == 0 || [(0x07, 3), (0x08, 3), (0x0B, 1), (0x0B, 2), (0x0B, 3), (0x0C, 1), (0x10, 1), (0x10, 2), (0x12, 1), (0x14, 3)].contains (kind, k)

/-- The kind in a unit identifier (R477). -/
def unitKind (unit : Nat) : Nat := unit / 256 % 32

/-- A unit's counter slot as the unit holds it (R478); an open one is free above what the model counts in it. -/
def State.slot (s : State) (unit k : Nat) : Nat :=
  KMap.get s.counts (16 * unit + k) 0 + if openSlot (unitKind unit) k then Config.freeValue (s.free + k) else 0

/-- The index of a unit (R485). -/
def unitIndex (unit : Nat) : Option Nat := findAt (fun i => unitAt i == unit) (upto 0 603)

/-- Copies slots `k` and above, `n` of them, into a shadow set (R482 step 1). -/
def State.shadow (s : State) (i unit : Nat) : Nat → Nat → State
  | 0, _ => s
  | n + 1, k => (s.setReg (.cntShadow i k) (BitVec.ofNat 64 (s.slot unit k))).shadow i unit n (k + 1)

/-- A unit takes a snapshot marker (R482): slots 0 to 14 and SEQ, all in one cycle. -/
def State.takeShadow (s : State) (seq i : Nat) : State :=
  let s := s.shadow i (unitAt i) 15 0
  let s := { s with free := s.free + 16 }
  s.setReg (.cntShadow i 15) (BitVec.ofNat 64 seq)

/-- SNAP_GO (R481, R488): accepted when READY and not busy; otherwise it is ignored and sets SNAP_STRAY. -/
def State.snapGo (s : State) : State :=
  if s.has F.cntStatusReady && !s.has F.cntStatusSnapBusy then
    let seq := (s.rd F.cntSnapSeqSeq + 1) % 2 ^ 32
    let s := { s with cnt := { s.cnt with seq := seq, taken := [] } }.wr F.cntStatusSnapBusy 1
    { s with tree := (upto 0 603).foldl (fun x i => KMap.put x (unitAt i) (KMap.get x (unitAt i) [] ++ [.snapshot seq])) s.tree }
  else s.setEvent F.cntEventsSnapStray

def execSnapGo (_a : Agent) (s : State) : Host.Outcome State Fault Refusal := .next s.snapGo

/-- The SEQ of a snapshot marker. -/
def TreeMsg.snapSeq : TreeMsg → Option Nat
  | .snapshot n => some n
  | _ => none

/-- SNAPSHOT_MARKER (R19, R482): a unit at which the marker stands copies its counters into its shadow set and forwards the marker. It
waits for no work in progress, so the marker passes the messages that stand before it; none that stands behind it acts before it. -/
def State.snapshotMarker (s : State) (unit : Nat) : State :=
  match unitIndex unit, (s.inbox unit).findSome? TreeMsg.snapSeq with
  | some i, some seq =>
    let s := { s with tree := KMap.set s.tree unit ((s.inbox unit).eraseP fun m => m.snapSeq.isSome) [] }
    { s.takeShadow seq i with cnt := { s.cnt with taken := unit :: s.cnt.taken } }
  | _, _ => s

def execSnapshotMarker (unit : Nat) (s : State) : Host.Outcome State Fault Refusal := .next (s.snapshotMarker unit)

/-- A snapshot's completion (R484). -/
def State.snapshotEnd (s : State) : State :=
  ((s.wr F.cntSnapSeqSeq s.cnt.seq).wr F.cntStatusSnapBusy 0).setEvent F.cntEventsSnapDone

/-- SNAPSHOT_COMPLETE (R484): every unit has taken the marker. -/
def State.snapshotComplete (s : State) : State :=
  if s.has F.cntStatusSnapBusy && s.cnt.taken.length == 603 then s.snapshotEnd else s

def execSnapshotComplete (s : State) : Host.Outcome State Fault Refusal := .next s.snapshotComplete

/-! ### Telemetry (R486) -/

/-- The sum of counter slots over units, as the shadow sets hold them. -/
def State.shadowSum (s : State) (kind : Nat) (slots : List Nat) : Nat :=
  sumNat ((upto 0 603).map fun i =>
    if unitKind (unitAt i) = kind then sumNat (slots.map fun k => (s.reg (.cntShadow i k)).toNat) else 0)

/-- The sums whose growth a record reports: array cycles and accumulate cycles, HBM bytes, bytes acknowledged, flits received,
corrected and uncorrectable findings. -/
def State.teleSums (s : State) : List Nat :=
  [s.shadowSum 1 [0], s.shadowSum 1 [1], s.shadowSum 8 [1, 2], s.shadowSum 9 [2], s.shadowSum 0x0A [2],
   s.shadowSum 8 [4] + s.shadowSum 5 [8], s.shadowSum 8 [5]]

/-- The growth of a sum since the record before, in `w` bits. -/
def growth (w : Nat) (now before : List Nat) (i : Nat) : Nat :=
  (now.getD i 0 + 2 ^ 64 - before.getD i 0) % 2 ^ 64 % 2 ^ w

/-- The number of ACTIVE tenants. -/
def State.activeCount (s : State) : Nat := ((upto 0 16).filter s.active).length

/-- A telemetry record (R486). -/
def State.teleRecord (s : State) (seq : Nat) (t : Temps) (now : List Nat) : List Byte :=
  leBytes 4 seq ++ leBytes 4 (s.rd F.cntSnapSeqSeq) ++ leBytes 2 (s.rd F.fabNodeNode) ++ leBytes 2 (s.rd F.fabNodeInc) ++
    leBytes 1 (s.rd F.resRiskLevel) ++ leBytes 1 (s.rd F.pwrStatusState) ++ leBytes 1 (s.rd F.clkStatusArrDiv) ++
    leBytes 1 s.activeCount ++ leBytes 8 (s.reg (.cntShadow 0 0)).toNat ++ leBytes 2 (s.rd F.pwrVinVin) ++
    leBytes 2 (s.rd F.pwrPinMean) ++ leBytes 2 (s.rd F.pwrPinPeak) ++ leBytes 2 (s.rd F.pwrHoldupUs) ++
    leBytes 2 (unsigned 16 (hottest t.die)) ++ leBytes 2 (unsigned 16 (hottest t.hbm)) ++
    leBytes 2 ((s.reg .hbmCapacity).toNat / 2 ^ 30) ++ leBytes 2 (s.rd F.fabStatusPortsUp) ++
    leBytes 2 (s.rd F.durLifeTlcUsed) ++ leBytes 2 (s.rd F.durLifeSlcUsed) ++ zeros 4 ++
    leBytes 8 (growth 64 now s.cnt.base 0) ++ leBytes 8 (growth 64 now s.cnt.base 1) ++
    leBytes 8 (growth 64 now s.cnt.base 2) ++ leBytes 8 (growth 64 now s.cnt.base 3) ++
    leBytes 8 (growth 64 now s.cnt.base 4) ++ leBytes 4 (growth 32 now s.cnt.base 5) ++
    leBytes 4 (growth 32 now s.cnt.base 6) ++ zeros 152 ++ zeros 4 ++ leBytes 4 seq

/-- LOG2 of the ring as it acts (R487). -/
def State.teleLog2 (s : State) : Nat :=
  let n := s.rd F.cntTeleCfgLog2
  if 4 ≤ n ∧ n ≤ 12 then n else 4

/-- TELEMETRY_PERIOD (R486): a snapshot, the record built from it, its host write and the sideband's copy; with the host link down
the sideband alone carries it. A snapshot in progress delays it. -/
def State.telemetry (s : State) (hostOk : Bool) (t : Temps) : State :=
  if !s.has F.cntTeleCfgEnable then s.wr F.cntStatusTeleRun 0
  else if s.has F.cntStatusSnapBusy || !s.has F.cntStatusReady then s
  else
    let s := s.wr F.cntStatusTeleRun 1
    let s := { s with cnt := { s.cnt with seq := (s.rd F.cntSnapSeqSeq + 1) % 2 ^ 32 } }
    let s := ((upto 0 603).foldl (fun s i => s.takeShadow s.cnt.seq i) s).snapshotEnd
    let seq := (s.rd F.cntTeleSeqSeq + 1) % 2 ^ 32
    let now := s.teleSums
    let r := s.teleRecord seq t now
    let addr := s.rd F.cntTeleBaseBase * 256 + 256 * (seq % 2 ^ s.teleLog2)
    let s := if hostOk && s.has F.hifStatusLinkUp && s.reaches addr 256 then s.hostWrite addr r else s.setEvent F.cntEventsTeleHostFail
    { s.wr F.cntTeleSeqSeq seq with cnt := { s.cnt with base := now, newest := r } }

def execTelemetryPeriod (hostOk : Bool) (temps : Temps) (s : State) : Host.Outcome State Fault Refusal :=
  .next (s.telemetry hostOk temps)

end Sys2Proof.Machine
end

