-- ==== Sys2Proof/Machine/Durable.lean ====
section
/-! DEFINITION. The durable store (Durable store and power behaviour): the journal's commands, its scrub and its scan at
start-up, and the wear budget. -/

namespace Sys2Proof.Machine

/-- JOURNAL_RECORD_REQUEST (R433, R434). -/
def execJournalRecordRequest (rec : JRecord) (s : State) : Host.Outcome State Fault Refusal := .next (s.journalOffer rec)

/-- COALESCE_EXPIRY (R434): a queued COMMIT record of a tenant slot has waited COALESCE_US. -/
def State.coalesceExpiry (s : State) (t : Nat) : State :=
  State.journalStart 4
    { s with journal := { s.journal with
        queue := s.journal.queue.map fun q =>
          if q.item.kind.toNat = 1 ∧ q.item.key.toNat = t then { q with coalescing := false } else q } }

def execCoalesceExpiry (t : TenantId) (s : State) : Host.Outcome State Fault Refusal := .next (s.coalesceExpiry t)

/-- JOURNAL_COPY_A_VERIFIED (R434 step 1 and 2): copy A stands, and copy B is programmed. -/
def State.copyAVerified (s : State) (jseq : Nat) : State :=
  match s.journal.run.find? (fun x => x.jseq == jseq) with
  | none => s
  | some x =>
    { s with
      journal := { s.journal with
        run := s.journal.run.map fun y => if y.jseq = jseq then { y with copyA := true } else y }
      flash := { s.flash with ringA := KMap.put s.flash.ringA (jseq % journalSlots) x.bytes } }

def execJournalCopyAVerified (jseq : Nat) (s : State) : Host.Outcome State Fault Refusal := .next (s.copyAVerified jseq)

/-- Reports a copy rewritten from the other (R436). -/
def State.repaired (s : State) : State := (s.setEvent F.durEventsJournalRepaired).event 0x0809 .device []

/-- Reports a record lost or inconsistent (R436, R437). -/
def State.corrupt (s : State) : State := (s.setEvent F.durEventsJournalCorrupt).event 0x080A .device []

/-- One live record's scrub (R435): a copy that is weak, or fails its check, is rewritten from the other. -/
def State.scrubRecord (s : State) (weak : List (Nat × Bool)) (jseq : Nat) : State :=
  let slot := jseq % journalSlots
  let a := KMap.get s.flash.ringA slot []
  let b := KMap.get s.flash.ringB slot []
  let badA := !journalValid a || weak.contains (jseq, false)
  let badB := !journalValid b || weak.contains (jseq, true)
  let s := if badA && journalValid b then
      { s with flash := { s.flash with ringA := KMap.put s.flash.ringA slot b } }.repaired.slcWrite 4096 else s
  if badB && journalValid a then
    { s with flash := { s.flash with ringB := KMap.put s.flash.ringB slot a } }.repaired.slcWrite 4096
  else s

/-- JOURNAL_SCRUB (R435): every live record, once a day. The operand names the copies that needed correction beyond half the
controller's limit: JSEQ, and true for copy B. -/
def execJournalScrub (weak : List (Nat × Bool)) (s : State) : Host.Outcome State Fault Refusal :=
  .next (s.journal.live.foldl (fun s x => s.scrubRecord weak x.2) s)

/-! ### The scan at start-up (R436, R437) -/

/-- What the scan decides of a slot: the record's copy, whether a copy is rewritten from the other, and whether the slot is
corrupt. -/
structure SlotScan where
  copy : Option (List Byte)
  repair : Bool
  corrupt : Bool
  deriving DecidableEq, Repr

/-- The decision on one slot (R436). -/
def scanSlot (a b : List Byte) : SlotScan :=
  if journalValid a then
    if journalValid b then
      if fld a 8 8 = fld b 8 8 then { copy := some a, repair := false, corrupt := !(a == b) }
      else if fld b 8 8 < fld a 8 8 then { copy := some a, repair := true, corrupt := false }
      else { copy := some b, repair := true, corrupt := false }
    else { copy := some a, repair := true, corrupt := false }
  else if journalValid b then { copy := some b, repair := true, corrupt := false }
  else { copy := none, repair := false, corrupt := !(a.isEmpty && b.isEmpty) }

/-- The slots that hold anything. -/
def State.usedSlots (s : State) : List Nat :=
  let a := s.flash.ringA.map (·.1)
  a ++ ((s.flash.ringB.map (·.1)).filter fun i => !a.contains i)

/-- What the scan decides of a slot of the rings. -/
def State.slotScan (s : State) (slot : Nat) : SlotScan := scanSlot (KMap.get s.flash.ringA slot []) (KMap.get s.flash.ringB slot [])

/-- The highest JSEQ committed (R436). -/
def State.lastCommitted (s : State) : Nat := s.usedSlots.foldl (fun n i => max n (((s.slotScan i).copy.map fun c => fld c 8 8).getD 0)) 0

/-- Whether a slot is one of the four next after the last committed record: what stands there without a valid copy was in progress, and
no later record exists (R434, R437). -/
def nextSlot (last slot : Nat) : Bool := decide ((slot + journalSlots - (last + 1) % journalSlots) % journalSlots < 4)

/-- The scan of one slot: copies rewritten, events raised, and the record committed there listed under its JSEQ. `last` is the highest JSEQ
committed. -/
def State.scanOne (last : Nat) (x : State × KMap (List Byte)) (slot : Nat) : State × KMap (List Byte) :=
  let (s, recs) := x
  let d := s.slotScan slot
  let s := if d.corrupt && (d.copy.isSome || !nextSlot last slot) then s.corrupt else s
  match d.copy with
  | none => (s, recs)
  | some c =>
    let s := if d.repair then (s.repaired.wr F.durStatusRepaired 1).slcWrite 4096 else s
    ({ s with flash := { s.flash with ringA := KMap.put s.flash.ringA slot c, ringB := KMap.put s.flash.ringB slot c } },
      KMap.put recs (fld c 8 8) c)

/-- The records live after the scan (R433, R437): the newest of each kind and key among those committed, oldest first. -/
def liveOf : KMap (List Byte) → KMap Nat → KMap Nat
  | [], m => m
  | (j, c) :: rs, m => liveOf rs (liveAfter m (fld c 4 2) (fld c 0x10 8) j)

/-- The payload of the live record of a kind and key. -/
def State.livePayload (s : State) (kind key : Nat) : Option (List Byte) :=
  match KMap.find s.journal.live (liveKey kind key) with
  | some j => some (journalRead (KMap.get s.flash.ringA (j % journalSlots) [])).payload
  | none => none

/-- Fills one tenant slot's LASTCOMMIT (R440). -/
def State.fillCommit (s : State) (u : Nat) : State :=
  match s.livePayload 1 u with
  | none => s
  | some p =>
    let s := (s.setReg (.durLastcommitStep u) (BitVec.ofNat 64 (fld p 0 8))).setReg (.durLastcommitSeq u)
      (BitVec.ofNat 64 (fld p 8 8))
    let s := (s.setReg (.durLastcommitCursorLo u) (BitVec.ofNat 64 (fld p 0x18 8))).setReg (.durLastcommitCursorHi u)
      (BitVec.ofNat 64 (fld p 0x20 8))
    { s with journal := { s.journal with lastSnap := KMap.put s.journal.lastSnap u ((p.drop 0x38).take 32) } }

/-- The lifetime counters of a LIFETIME record, in the order of `lifetimePayload`; full reserves where there is none. -/
def State.fillLifetime (s : State) : State :=
  match s.livePayload 4 0 with
  | none => (s.wr F.durSpareSlc 1000).wr F.durSpareTlc 1000
  | some p =>
    let set := fun (s : State) (r : Reg) (off n : Nat) => s.setReg r (BitVec.ofNat 64 (fld p off n))
    let s := set (set (set s .durTlcWritten 0 8) .durSlcWritten 8 8) .durHours 0x10 4
    let s := set (set (set s .durCycles 0x14 4) .durSpare 0x18 4) .durLife 0x1C 4
    set (set (set s (.durBudget 0) 0x20 8) (.durBudget 1) 0x28 8) (.durBudget 2) 0x30 8

/-- The CAUSE of the POWER_EVENT record of a JSEQ. -/
def State.eventCause (s : State) (jseq : Nat) : Nat :=
  fld (journalRead (KMap.get s.flash.ringA (jseq % journalSlots) [])).payload 0 1

/-- The POWER_EVENT records that follow the LIFETIME record count on (R433). -/
def State.countEvents (s : State) : State :=
  let base := (KMap.find s.journal.live (liveKey 4 0)).getD 0
  ((powerEvents s.journal.live).filter fun j => decide (base < j)).foldl
    (fun s j =>
      let c := s.eventCause j
      let s := if c = 1 ∨ c = 2 then s.addSat F.durCyclesDroops 1 else s
      if c = 2 ∨ c = 3 ∨ c = 4 then s.addSat F.durCyclesResets 1 else s) s

/-- The generation slots whose record says WRITING are marked FREE, and what they hold is freed (R454 step 2). -/
def State.freeGeneration (s : State) (g : Nat) : State :=
  match s.livePayload 2 g with
  | none => { s with flash := { s.flash with gens := KMap.del s.flash.gens g } }
  | some p =>
    if fld p 0 1 = 1 then
      let s := { s with flash := { s.flash with gens := KMap.del s.flash.gens g } }
      s.journalOffer (firmwareRecord 2 (g / 2) g (leBytes 1 3 ++ p.drop 1))
    else if fld p 0 1 = 3 then { s with flash := { s.flash with gens := KMap.del s.flash.gens g } }
    else s

/-- With fewer than 2 % of the reserve's blocks left, the TLC areas are read-only (R443). -/
def State.checkReserve (s : State) : State := if s.rd F.durSpareTlc < 20 then s.wr F.durStatusReadOnly 1 else s

/-- DURABLE_STORE_START (R454): the scan, the stale extents, the DUR registers, and READY. -/
def State.durableStart (s : State) : State :=
  if s.has F.durStatusReady || s.clk.released == 0 then s
  else
    let (s, recs) := s.usedSlots.foldl (State.scanOne s.lastCommitted) (s, [])
    let live := liveOf recs []
    let last := (recs.getLast?.map (·.1)).getD 0
    let s := { s with journal := { s.journal with live := live, next := last + 1 } }
    let s := s.setReg .durJseq (BitVec.ofNat 64 last)
    let s := (upto 0 16).foldl State.fillCommit s.fillLifetime.countEvents.checkReserve
    let newest := ((powerEvents live).getLast?).getD 0
    let cause := if newest = 0 then 0 else s.eventCause newest
    let cause := if 2 ≤ cause then cause else 0
    let s := s.wr F.durStatusResetCause cause
    let s := { s with pwr := { s.pwr with report := if newest = last then cause else 0 } }
    let s := { s with flash := { s.flash with frozen := [], spill := [] } }
    let s := (upto 0 32).foldl State.freeGeneration s
    State.journalStart 4 ((s.wr F.durStatusScanBusy 0).wr F.durStatusReady 1)

def execDurableStoreStart (s : State) : Host.Outcome State Fault Refusal := .next s.durableStart

/-! ### The wear budget (R441 to R443) -/

/-- The share of an area in percent: generations, spill, frozen images. -/
def areaShare (a : Nat) : Nat := if a = 0 then 70 else if a = 1 then 20 else 10

/-- The level of a bucket in MiB, signed. -/
def State.bucket (s : State) (a : Nat) : Int := signed 32 (s.rd (F.durBudgetLevel a))

def State.setBucket (s : State) (a : Nat) (v : Int) : State := s.wr (F.durBudgetLevel a) (unsigned 32 v)

/-- Whether a spill or a frozen image may be written: while its bucket is positive (R442), and not on read-only areas (R443). -/
def State.areaWritable (s : State) (a : Nat) : Bool := !s.has F.durStatusReadOnly && decide (0 < s.bucket a)

/-- The daily allowance in MiB (R442). -/
def State.dailyAllowance (s : State) : Nat :=
  let days := 1826 - s.rd F.durHoursHours / 24
  max ((tlcAllowance - s.rd F.durTlcWrittenMib) / max 1 days) (tlcAllowance / 1826 / 100)

/-- One bucket's hour (R442): its share of D is set, and it takes an hour's refill, at most two days of its share. -/
def State.refill (s : State) (a : Nat) : State :=
  let d := s.dailyAllowance * areaShare a / 100
  (s.wr (F.durBudgetDaily a) d).setBucket a (min (s.bucket a + (d / 24 : Nat)) (2 * d : Nat))

/-- The hour of the wear budget (R442, R443). -/
def State.wearBudget (s : State) : State :=
  let s := (s.add F.durHoursHours 1).refill 0
  (((s.refill 1).refill 2).tlcWrite 0).checkReserve

end Sys2Proof.Machine
end

