-- ==== Sys2Proof/Machine/Faults.lean ====
section
/-! DEFINITION. A tenant's fault ring and status block in host memory (Host interface, queues and tenants): what the device
writes there, and the descriptors and event entries themselves. -/

namespace Sys2Proof.Machine

/-- A tenant's fault ring, changed. -/
def State.modFault (s : State) (t : Nat) (f : FaultRing → FaultRing) : State :=
  s.modTenant t fun x => { x with fault := f x.fault }

/-- The status block's fields that the fault ring moves (R374). -/
def State.writeFaultStatus (s : State) (t : Nat) : State :=
  let f := (s.tenant t).fault
  s.hostWrite (f.statusAddr + 4) (leBytes 4 f.tail ++ leBytes 4 f.lost ++ leBytes 4 f.offered)

/-- A tenant's whole status block (R374). -/
def State.writeStatusBlock (s : State) (t : Nat) : State :=
  let x := s.tenant t
  s.hostWrite x.fault.statusAddr
    (leBytes 1 (s.rd (F.tenStateState t)) ++ zeros 3 ++ leBytes 4 x.fault.tail ++ leBytes 4 x.fault.lost ++
      leBytes 4 x.fault.offered ++ leBytes 8 (if (x.step.slot = 0) then x.step.rec0.step else x.step.rec1.step) ++ zeros 40)

/-- Writes an entry at FAULT_TAIL, then FAULT_TAIL + 1 into the status block behind it, and raises the ring's source (R376). -/
def State.pushFault (s : State) (t : Nat) (e : List Byte) : State :=
  let f := (s.tenant t).fault
  let s := s.hostWrite (f.addr + 32 * (f.tail % f.entries)) e
  let s := s.modFault t fun f => { f with tail := (f.tail + 1) % 2 ^ 32 }
  (s.writeFaultStatus t).raise (0x400 + t)

/-- An event entry (R375). -/
def State.eventEntry (s : State) (code t unit a0 a1 : Nat) : List Byte :=
  leBytes 2 code ++ [0xFF] ++ leBytes 1 t ++ leBytes 2 unit ++ zeros 2 ++ leBytes 8 a0 ++ leBytes 8 a1 ++ leBytes 8 s.tag

/-- Offers an entry to a tenant's fault ring (R376): with the ring full it is dropped and counted, and the first drop since
FAULT_HEAD moved writes one FAULT_OVERFLOW entry in the last free slot. A slot with no ring takes nothing. -/
def State.faultEntry (s : State) (t : Nat) (e : List Byte) : State :=
  let f := (s.tenant t).fault
  if f.entries = 0 then s
  else
    let s := s.modFault t fun f => { f with offered := (f.offered + 1) % 2 ^ 32 }
    if (f.tail + 2 ^ 32 - f.head) % 2 ^ 32 + 1 < f.entries then s.pushFault t e
    else
      let s := s.modFault t fun f => { f with lost := (f.lost + 1) % 2 ^ 32 }
      if f.overflowed then s.writeFaultStatus t
      else
        let s := s.modFault t fun f => { f with overflowed := true }
        (s.pushFault t (s.eventEntry 0x60D t (coreUnit 0) 0 0)).drawn

/-- Raises an event to a tenant: the event, and its entry in the tenant's fault ring (R375). -/
def State.tell (s : State) (t code unit a0 a1 : Nat) : State :=
  let e := s.eventEntry code t unit a0 a1
  (s.event code (.tenant t) [unit, a0, a1]).faultEntry t e |>.drawn

/-- The number of HBM frames that keeper and firmware hold for themselves: groups 0 to 3. -/
def systemFrames : Nat := 64

/-- Whether a physical address lies in a page table or in the isolation table: what a tenant's translation reads. -/
def inTables (a : Nat) : Bool := decide (0 < a ∧ a < systemFrames * 2 ^ 21)

/-- A memory fault descriptor (R218). -/
def State.memDescriptor (s : State) (code kind t unit va pa : Nat) : List Byte :=
  leBytes 2 code ++ leBytes 1 kind ++ leBytes 1 t ++ leBytes 2 unit ++ zeros 2 ++ leBytes 8 va ++ leBytes 8 pa ++ leBytes 8 s.tag

/-! The access kinds of a descriptor (R218). -/
def kindLoad : Nat := 0
def kindStore : Nat := 1
def kindAtomic : Nat := 2
def kindFetch : Nat := 3
def kindEngineRead : Nat := 4
def kindEngineWrite : Nat := 5
def kindWalk : Nat := 6

/-- A unit that detects a memory-class fault writes one descriptor into the tenant's fault state (R218); poison met in a page table or an
isolation entry is met by the walk. -/
def State.memFault (s : State) (code kind t unit va pa : Nat) : State :=
  let kind := if code = 0x304 && inTables pa then kindWalk else kind
  let e := s.memDescriptor code kind t unit va pa
  (s.event code (.tenant t) [kind, unit, va, pa]).faultEntry t e |>.drawn

end Sys2Proof.Machine
end

