-- ==== Sys2Proof/Machine/Num.lean ====
section
/-! DEFINITION. Number formats and rounding (Number formats and rounding): values as exact dyadic numbers, one rounding
step shared by every format, arithmetic formed exactly and rounded once, and the draws of streams. -/

namespace Sys2Proof.Machine

/-! ### Values -/

/-- A floating-point value: a NaN and an infinity with their sign, or (−1)^neg × n × 2^e exactly. A zero keeps its sign (R70). -/
inductive Fp where
  | nan (neg : Bool)
  | inf (neg : Bool)
  | fin (neg : Bool) (n : Nat) (e : Int)
  deriving DecidableEq, Repr

/-- The formats of R69. -/
inductive Fmt where
  | fp32 | bf16 | e4m3 | e5m2 | fa40 | e2m1 | e5m3
  /-- a master with its residue (R149) -/
  | master
  deriving DecidableEq, Repr

/-- Exponent width, fraction width and bias of a format (R69). -/
def Fmt.ebits : Fmt → Nat
  | .fp32 => 8 | .bf16 => 8 | .e4m3 => 4 | .e5m2 => 5 | .fa40 => 8 | .e2m1 => 2 | .e5m3 => 5 | .master => 8

def Fmt.fbits : Fmt → Nat
  | .fp32 => 23 | .bf16 => 7 | .e4m3 => 3 | .e5m2 => 2 | .fa40 => 31 | .e2m1 => 1 | .e5m3 => 3 | .master => 39

def Fmt.bias : Fmt → Int
  | .fp32 => 127 | .bf16 => 127 | .e4m3 => 7 | .e5m2 => 15 | .fa40 => 127 | .e2m1 => 1 | .e5m3 => 15 | .master => 127

/-- Whether the format has infinities, at the top exponent (R69). -/
def Fmt.hasInf : Fmt → Bool
  | .fp32 => true | .bf16 => true | .e5m2 => true | .fa40 => true | .master => true | _ => false

/-- The code of the largest finite magnitude (R69). -/
def Fmt.maxCode : Fmt → Nat
  | .fp32 => 0x7F7FFFFF | .bf16 => 0x7F7F | .e4m3 => 0x7E | .e5m2 => 0x7B | .fa40 => 0x7F7FFFFFFF | .e2m1 => 7 | .e5m3 => 0xFE | .master => 0x7F7FFFFFFFFF

/-- The canonical NaN's magnitude code; E2M1 and E5M3 have none (R69). -/
def Fmt.nanCode : Fmt → Nat
  | .fp32 => 0x7FC00000 | .bf16 => 0x7FC0 | .e4m3 => 0x7F | .e5m2 => 0x7E | .fa40 => 0x7FC0000000 | .e2m1 => 0 | .e5m3 => 0xFF | .master => 0x7FC000000000

/-- The width of a code without its sign bit. -/
def Fmt.mbits (f : Fmt) : Nat := f.ebits + f.fbits

/-- The exponent of the smallest subnormal. -/
def Fmt.minExp (f : Fmt) : Int := 1 - f.bias - f.fbits

/-- The value of a magnitude code below the special codes. -/
def Fmt.magnitude (f : Fmt) (m : Nat) : Nat × Int :=
  let x := m / 2 ^ f.fbits
  let q := m % 2 ^ f.fbits
  if x = 0 then (q, f.minExp) else (2 ^ f.fbits + q, (x : Int) - f.bias - f.fbits)

/-- The value of a code (R69). -/
def Fmt.decode (f : Fmt) (c : Nat) : Fp :=
  let neg := bit c f.mbits && f != .e5m3
  let m := c % 2 ^ f.mbits
  let top := m / 2 ^ f.fbits == 2 ^ f.ebits - 1
  if f.hasInf && top then (if m % 2 ^ f.fbits = 0 then .inf neg else .nan neg)
  else if f == .e4m3 && m == 0x7F then .nan neg
  else .fin neg (f.magnitude m).1 (f.magnitude m).2

/-! ### Rounding (R87, R89) -/

/-- A rounding mode; the stochastic one with its 32-bit draw. -/
inductive RMode where
  | nearest | zero | stochastic (u : Nat)
  deriving DecidableEq, Repr

/-- `n × 2^e` as numerator and denominator. -/
def dyadic (n : Nat) (e : Int) : Nat × Nat :=
  if 0 ≤ e then (n * 2 ^ e.toNat, 1) else (n, 2 ^ (-e).toNat)

/-- The floor of the base-2 logarithm of a positive rational. -/
def logRat (n d : Nat) : Int :=
  let k := (Nat.log2 n : Int) - Nat.log2 d
  let ge := if 0 ≤ k then decide (d * 2 ^ k.toNat ≤ n) else decide (d ≤ n * 2 ^ (-k).toNat)
  if ge then k else k - 1

/-- A rational as a multiple of 2^q: the integer part, and the rest as a fraction. -/
def quantise (n d : Nat) (q : Int) : Nat × Nat × Nat :=
  let (n, d) := if 0 ≤ q then (n, d * 2 ^ q.toNat) else (n * 2 ^ (-q).toNat, d)
  (n / d, n % d, d)

/-- The multiple of the spacing that a mode chooses, of integer part `lo` and rest `r / d`. -/
def roundUp (m : RMode) (lo r d : Nat) : Nat :=
  if r = 0 then lo
  else
    match m with
    | .zero => lo
    | .nearest => if d < 2 * r ∨ (d = 2 * r ∧ lo % 2 = 1) then lo + 1 else lo
    | .stochastic u => if u < 2 ^ 32 * r / d then lo + 1 else lo

/-- The code of `k × 2^q` in a format whose spacing there is 2^q. -/
def Fmt.codeOf (f : Fmt) (k : Nat) (q : Int) : Nat :=
  -- a full significand one binade up stands when the rounding has carried
  if k < 2 ^ f.fbits then k
  else (((q - f.minExp).toNat + 1) * 2 ^ f.fbits) + (k - 2 ^ f.fbits)

/-- The sign bit of a code. -/
def Fmt.sign (f : Fmt) (neg : Bool) : Nat := if neg && f != .e5m3 then 2 ^ f.mbits else 0

/-- What an overflow gives (R89). -/
def Fmt.overflow (f : Fmt) (sat neg : Bool) : Nat :=
  f.sign neg +
    (if sat then f.maxCode
     else if f.hasInf then (2 ^ f.ebits - 1) * 2 ^ f.fbits
     else if f = .e4m3 then f.nanCode else f.maxCode)

/-- Rounds a positive rational `n / d` into a format (R87, R89). -/
def Fmt.roundRat (f : Fmt) (m : RMode) (sat neg : Bool) (n d : Nat) : Nat :=
  if n = 0 then f.sign neg
  else
    let q := max (logRat n d - f.fbits) f.minExp
    let (lo, r, d') := quantise n d q
    let k := roundUp m lo r d'
    let code := if k = 2 ^ (f.fbits + 1) then f.codeOf (2 ^ f.fbits) (q + 1) else f.codeOf k q
    let big := f.magnitude f.maxCode
    let (bn, bd) := dyadic big.1 big.2
    let tooBig :=
      match m with
      | .nearest => decide (f.maxCode < code)
      | .zero => false
      | .stochastic _ => decide (bn * d < n * bd)
    if tooBig then f.overflow sat neg else f.sign neg + min code f.maxCode

/-- Rounds a value into a format. -/
def Fmt.round (f : Fmt) (m : RMode) (sat : Bool) (v : Fp) : Nat :=
  match v with
  | .nan neg => f.sign neg + f.nanCode
  | .inf neg =>
    if f.hasInf then f.sign neg + (2 ^ f.ebits - 1) * 2 ^ f.fbits
    else if f = .e4m3 ∧ sat = false then f.sign neg + f.nanCode
    else f.sign neg + f.maxCode
  | .fin neg n e => f.roundRat m sat neg (dyadic n e).1 (dyadic n e).2

/-- Rounds to nearest even, overflowing to infinity. -/
def Fmt.near (f : Fmt) (v : Fp) : Nat := f.round .nearest false v

/-- A value rounded to nearest even into a format and read back. -/
def Fmt.fit (f : Fmt) (v : Fp) : Fp := f.decode (f.near v)

/-! ### Exact arithmetic -/

def Fp.neg : Fp → Fp
  | .nan s => .nan s
  | .inf s => .inf !s
  | .fin s n e => .fin (!s) n e

def Fp.isNeg : Fp → Bool
  | .nan s => s
  | .inf s => s
  | .fin s _ _ => s

def Fp.abs : Fp → Fp
  | .nan s => .nan s
  | .inf _ => .inf false
  | .fin _ n e => .fin false n e

def Fp.isZero : Fp → Bool
  | .fin _ 0 _ => true
  | _ => false

def Fp.isNan : Fp → Bool
  | .nan _ => true
  | _ => false

def Fp.finite : Fp → Bool
  | .fin _ _ _ => true
  | _ => false

/-- A value as an integer multiple of 2^e, exactly, for `e` at most its exponent. -/
def Fp.scaled (neg : Bool) (n : Nat) (e base : Int) : Int :=
  let v : Int := (n * 2 ^ (e - base).toNat : Nat)
  if neg then -v else v

/-- The exact sum; of two opposite values, +0 (R82). Of two NaNs the first gives its sign (DESIGN CHOICE, log 179). -/
def Fp.add : Fp → Fp → Fp
  | .nan s, _ => .nan s
  | _, .nan s => .nan s
  | .inf s, .inf t => if s = t then .inf s else .nan false
  | .inf s, _ => .inf s
  | _, .inf s => .inf s
  | .fin s n e, .fin t m g =>
    let low := min e g
    let v := Fp.scaled s n e low + Fp.scaled t m g low
    if v = 0 then .fin (s && t) 0 low else .fin (decide (v < 0)) v.natAbs low

/-- The exact product. -/
def Fp.mul : Fp → Fp → Fp
  | .nan s, _ => .nan s
  | _, .nan s => .nan s
  | .inf s, .inf t => .inf (s != t)
  | .inf s, .fin t n _ => if n = 0 then .nan false else .inf (s != t)
  | .fin s n _, .inf t => if n = 0 then .nan false else .inf (s != t)
  | .fin s n e, .fin t m g => .fin (s != t) (n * m) (e + g)

def Fp.sub (a b : Fp) : Fp := a.add b.neg

/-- A power of two. -/
def Fp.two (e : Int) : Fp := .fin false 1 e

/-- A value multiplied by a power of two. -/
def Fp.shift (v : Fp) (k : Int) : Fp :=
  match v with
  | .fin s n e => .fin s n (e + k)
  | v => v

/-- The quotient, rounded once into a format. -/
def Fmt.div (f : Fmt) (m : RMode) (a b : Fp) : Nat :=
  match a, b with
  | .nan s, _ => f.round m false (.nan s)
  | _, .nan s => f.round m false (.nan s)
  | .inf _, .inf _ => f.round m false (.nan false)
  | .inf s, .fin t _ _ => f.round m false (.inf (s != t))
  | .fin s _ _, .inf t => f.sign (s != t)
  | .fin s n e, .fin t d g =>
    if d = 0 then (if n = 0 then f.round m false (.nan false) else f.round m false (.inf (s != t)))
    else
      let (n, a) := dyadic n e
      let (d, b) := dyadic d g
      f.roundRat m false (s != t) (n * b) (a * d)

/-- The integer square root by bits from 2^k down. -/
def isqrtFrom (v : Nat) : Nat → Nat → Nat
  | 0, r => if (r + 1) * (r + 1) ≤ v then r + 1 else r
  | k + 1, r =>
    let t := r + 2 ^ (k + 1)
    isqrtFrom v k (if t * t ≤ v then t else r)

def isqrt (v : Nat) : Nat := isqrtFrom v (Nat.log2 v / 2 + 1) 0

/-- The square root, rounded once into a format to nearest even. -/
def Fmt.sqrt (f : Fmt) (a : Fp) : Nat :=
  match a with
  | .nan s => f.near (.nan s)
  | .inf s => if s then f.near (.nan false) else f.near (.inf false)
  | .fin s n e =>
    if n = 0 then f.sign s
    else if s then f.near (.nan false)
    else
      -- enough bits for the rounding, an even exponent, and a sticky bit below
      let k := 2 * (f.fbits + 4) + (if e % 2 = 0 then 0 else 1)
      let v := n * 2 ^ k
      let r := isqrt v
      f.near (.fin false (2 * r + (if r * r = v then 0 else 1)) ((e - k) / 2 - 1))

/-- Comparison of finite values and infinities: −1, 0 or 1; none with a NaN. Zeros compare equal. -/
def Fp.cmp (a b : Fp) : Option Int :=
  match a, b with
  | .nan _, _ => none
  | _, .nan _ => none
  | .inf s, .inf t => some (if s = t then 0 else if s then -1 else 1)
  | .inf s, _ => some (if s then -1 else 1)
  | _, .inf s => some (if s then 1 else -1)
  | .fin s n e, .fin t m g =>
    let low := min e g
    let v := Fp.scaled s n e low - Fp.scaled t m g low
    some (if v < 0 then -1 else if v = 0 then 0 else 1)

def Fp.lt (a b : Fp) : Bool := a.cmp b == some (-1)
def Fp.le (a b : Fp) : Bool := a.cmp b == some (-1) || a.cmp b == some 0

/-- The larger of two values as codes (R243): +0 above −0, and a NaN operand gives the canonical NaN. -/
def Fmt.maxOf (f : Fmt) (a b : Nat) : Nat :=
  let x := f.decode a
  let y := f.decode b
  match x.cmp y with
  | none => f.near (if x.isNan then x else y)
  | some 1 => a
  | some 0 => if x.isNeg then b else a
  | some _ => b

/-- The smaller of two values as codes, likewise. -/
def Fmt.minOf (f : Fmt) (a b : Nat) : Nat :=
  let x := f.decode a
  let y := f.decode b
  match x.cmp y with
  | none => f.near (if x.isNan then x else y)
  | some 1 => b
  | some 0 => if x.isNeg then a else b
  | some _ => a

/-! ### FP32 and FA40 by word -/

/-- The value of an FP32 word. -/
def f32 (w : Nat) : Fp := Fmt.decode .fp32 w

/-- A value rounded to FP32 to nearest even. -/
def toF32 (v : Fp) : Nat := Fmt.near .fp32 v

def f32add (a b : Nat) : Nat := toF32 ((f32 a).add (f32 b))
def f32sub (a b : Nat) : Nat := toF32 ((f32 a).sub (f32 b))
def f32mul (a b : Nat) : Nat := toF32 ((f32 a).mul (f32 b))
def f32fma (a b c : Nat) : Nat := toF32 (((f32 a).mul (f32 b)).add (f32 c))
def f32div (a b : Nat) : Nat := Fmt.div .fp32 .nearest (f32 a) (f32 b)
def f32sqrt (a : Nat) : Nat := Fmt.sqrt .fp32 (f32 a)

/-- Whether an FP32 word is a NaN or an infinity. -/
def f32bad (w : Nat) : Bool := !(f32 w).finite

/-- The FP32 word of 2^k, for k in its range. -/
def f32pow2 (k : Int) : Nat := toF32 (Fp.two k)

/-- An integer as FP32. -/
def f32ofInt (i : Int) : Nat := toF32 (.fin (decide (i < 0)) i.natAbs 0)

/-! ### Integers (R90) -/

/-- The integer a value rounds to under a mode. -/
def Fp.toInt (m : RMode) (v : Fp) : Int :=
  match v with
  | .fin s n e =>
    let (n, d) := dyadic n e
    let k : Int := (roundUp m (n / d) (n % d) d : Nat)
    if s then -k else k
  | _ => 0

/-- A conversion to an integer of `w` bits: it saturates, and a NaN gives 0. -/
def Fp.toIntSat (w : Nat) (m : RMode) (v : Fp) : Int :=
  let hi : Int := (2 ^ (w - 1) : Nat) - 1
  let lo : Int := -((2 ^ (w - 1) : Nat) : Int)
  match v with
  | .nan _ => 0
  | .inf s => if s then lo else hi
  | v => max lo (min hi (v.toInt m))

/-- An integer as a value. -/
def Fp.ofInt (i : Int) : Fp := .fin (decide (i < 0)) i.natAbs 0

/-! ### Draws (R88) -/

/-- One round of Philox4x32 (PRESUMED: the published function). -/
def philoxRound (c : List Nat) (k0 k1 : Nat) : List Nat :=
  let p0 := 0xD2511F53 * lane4 c 0
  let p1 := 0xCD9E8D57 * lane4 c 2
  [Nat.xor (Nat.xor (p1 / 2 ^ 32) (lane4 c 1)) k0, p1 % 2 ^ 32,
   Nat.xor (Nat.xor (p0 / 2 ^ 32) (lane4 c 3)) k1, p0 % 2 ^ 32]
where
  lane4 (c : List Nat) (i : Nat) : Nat := c.getD i 0

/-- The rounds of Philox4x32, the key raised between them. -/
def philoxRounds : Nat → List Nat → Nat → Nat → List Nat
  | 0, c, _, _ => c
  | n + 1, c, k0, k1 =>
    philoxRounds n (philoxRound c k0 k1) ((k0 + 0x9E3779B9) % 2 ^ 32) ((k1 + 0xBB67AE85) % 2 ^ 32)

/-- The draw at counter value `c` of the stream with key `key`. -/
def drawAt (key c : Nat) : Nat :=
  let b := c % 2 ^ 128 / 4
  let ctr := [b % 2 ^ 32, b / 2 ^ 32 % 2 ^ 32, b / 2 ^ 64 % 2 ^ 32, b / 2 ^ 96 % 2 ^ 32]
  (philoxRounds 10 ctr (key % 2 ^ 32) (key / 2 ^ 32 % 2 ^ 32)).getD (c % 4) 0

end Sys2Proof.Machine
end

