-- ==== Sys2Proof/Machine/Memory.lean ====
section
/-! DEFINITION. Memory as every unit reaches it (Address spaces and memory ordering; The central store): home slices,
resident lines and their granules, reads, writes, fills, evictions, write-back, dead marks, poison, and what the reduction
and atomic unit computes. -/

namespace Sys2Proof.Machine

/-! ### Addresses (R6, R232, R234, R235, R238, R262) -/

/-- The scratchpad window. -/
def windowBase : Nat := 0x10000000000

def inHbm (a : Nat) : Bool := decide (a < 0x6000000000)
def inWindow (a : Nat) : Bool := decide (windowBase ≤ a ∧ a < windowBase + 2 ^ 30)

/-- The slice-map entry of an HBM frame (R233): SLICE in bits 1:0, HINT in bits 3:2. -/
def State.mapEntry (s : State) (frame : Nat) : Nat :=
  (s.reg (.cstSlicemap (frame / 8))).toNat / 2 ^ (4 * (frame % 8)) % 16

/-- The home slice of an address (R232). -/
def State.home (s : State) (a : Nat) : Nat :=
  if inWindow a then (a - windowBase) / 2 ^ 28 else s.mapEntry (a / 2 ^ 21) % 4

/-- The placement hint of a line's frame (R233): 11b is taken as normal. -/
def State.hintOf (s : State) (line : Nat) : Nat :=
  let h := s.mapEntry (line / 8192) / 4
  if h = 3 then 0 else h

/-- The set of an HBM line within its slice (R238). -/
def setOf (line : Nat) : Nat := Nat.xor (bits (line * 256) 19 8) (bits (line * 256) 31 20)

/-- The class of an HBM address's protection group (R262): whether it is corrected. -/
def State.corrected (s : State) (a : Nat) : Bool :=
  let g := a / 2 ^ 25
  (s.reg (.hbmClassmap (g / 32))).getLsbD (g % 32)

/-- Why a physical address cannot be accessed (R217, R235, R258, R262): 0303h, or 0 when it can. -/
def State.paFault (s : State) (a : Nat) : Nat :=
  if inHbm a then
    if a < (s.reg .hbmCapacity).toNat ∧ !(s.corrected a && a / 2 ^ 21 % 16 == 15) then 0 else 0x303
  else if inWindow a then
    let o := a - windowBase
    let q := o / 2 ^ 28
    let live := s.rd (F.cstPartitionScratch q)
    -- regions that leave the scratchpad part fault from the apply on (R236)
    let live := match s.mem.applying with
      | some ps => min live (ps.getD q (live, 0)).1
      | none => live
    if o % 2 ^ 28 / 2 ^ 20 < live then 0 else 0x303
  else 0x303

/-! ### The interleave (R257) -/

/-- The pseudo-channel slot of a line under `p` live pseudo-channels. -/
def pcSlot (p line : Nat) : Nat :=
  let g := line / p
  (line % p + g * 0x9E3779B9 / 2 ^ 16 % p) % p

/-- The pseudo-channel that holds a line. -/
def State.pcOf (s : State) (line : Nat) : Nat :=
  (s.reg (.hbmPcmap (pcSlot (max 1 (s.rd F.hbmStatusLivePc)) line))).toNat

/-- The place of a line (R257): its pseudo-channel, and the byte offset of its line position there. -/
def State.linePlace (s : State) (line : Nat) : Nat × Nat :=
  (s.pcOf line, 256 * (line / max 1 (s.rd F.hbmStatusLivePc)))

/-- The global channel that holds an address. -/
def State.channelOf (s : State) (a : Nat) : Nat := s.pcOf (a / 256) / 2

/-! ### Slices -/

def State.slice (s : State) (q : Nat) : Slice := KMap.get s.mem.slices q Slice.reset

def State.setSlice (s : State) (q : Nat) (x : Slice) : State :=
  { s with mem := { s.mem with slices := KMap.set s.mem.slices q x Slice.reset } }

/-- Cache regions in force in a slice. -/
def State.cacheRegions (s : State) (q : Nat) : Nat := s.rd (F.cstPartitionCache q)

/-- Adds to a counter of the bank that serves an address (R478). -/
def State.bankCount (s : State) (a k : Nat) : State := s.count (bankUnit (s.home a) a) k 1

/-! ### Granules -/

/-- Every byte of a granule. -/
def allHeld : Nat := 2 ^ 64 - 1

def Gran.full (g : Gran) : Bool := g.held == allHeld
def Gran.dirty (g : Gran) : Bool := g.wrote != 0

/-- The bytes of a list where the mask says so, of another elsewhere. -/
def blend : Nat → List Byte → List Byte → List Byte
  | _, [], _ => []
  | m, a :: as, bs => (if m % 2 = 1 then a else bs.headD 0) :: blend (m / 2) as bs.tail

/-- Bytes listed from an address, of those unlisted 0. -/
def cells (m : KMap Byte) (a n : Nat) : List Byte := (upto a n).map fun i => KMap.get m i 0

/-- Writes bytes into a sparse memory, in its canonical form. -/
def putCells (m : KMap Byte) : Nat → List Byte → KMap Byte
  | _, [] => m
  | a, b :: bs => putCells (KMap.set m a b 0) (a + 1) bs

/-- Drops what is listed in a range of keys. -/
def dropRange {α : Type} (m : KMap α) (a n : Nat) : KMap α := m.filter fun x => !decide (a ≤ x.1 ∧ x.1 < a + n)

/-- The granule that stands below the store's lines for granule `g` of memory: the write-back buffer over HBM (R242). -/
def State.below (s : State) (g : Nat) : Gran :=
  let base : Gran :=
    { held := allHeld, wrote := 0, poison := KMap.get s.mem.hbmPoison g false, data := cells s.mem.hbm (64 * g) 64 }
  match s.mem.wb.find? (fun w => w.line == g / 4) with
  | none => base
  | some w =>
    let x := w.g.getD (g % 4) Gran.reset
    if x.dirty then
      { base with
        data := blend x.wrote x.data base.data
        poison := x.poison || (base.poison && x.wrote != allHeld) }
    else base

/-- The granule as every reader at the slice sees it (R219): the line's bytes over what stands below. -/
def State.seen (s : State) (g : Nat) : Gran :=
  match KMap.find s.mem.lines (g / 4) with
  | none => s.below g
  | some l =>
    let x := l.g.getD (g % 4) Gran.reset
    if l.dead then s.below g
    else
      let b := s.below g
      { held := allHeld, wrote := x.wrote, poison := x.poison || (b.poison && x.held != allHeld),
        data := blend x.held x.data b.data }

/-- A scratchpad granule. -/
def State.scratchGran (s : State) (o : Nat) : Gran :=
  { held := allHeld, wrote := 0, poison := KMap.get s.mem.scratchPoison (o / 64) false,
    data := cells s.mem.scratch (o / 64 * 64) 64 }

/-- The granule at an address, wherever it lies. -/
def State.granAt (s : State) (a : Nat) : Gran :=
  if inWindow a then s.scratchGran (a - windowBase) else s.seen (a / 64)

/-- The granules of a span of bytes. -/
def granSpan (a n : Nat) : List Nat := if n = 0 then [] else upto (a / 64) ((a + n - 1) / 64 - a / 64 + 1)

/-- The bytes at a physical address, as performed at its slice (R219). -/
def State.read (s : State) (a n : Nat) : List Byte :=
  (((granSpan a n).map fun g => (s.granAt (64 * g)).data).flatten.drop (a % 64)).take n

/-- Whether a span touches a poisoned granule (R251). -/
def State.poisoned (s : State) (a n : Nat) : Bool := (granSpan a n).any fun g => (s.granAt (64 * g)).poison

/-! ### Lines and their places (R231, R234, R236, R238 to R240) -/

/-- The lines of a span. -/
def lineSpan (a n : Nat) : List Nat := if n = 0 then [] else upto (a / 256) ((a + n - 1) / 256 - a / 256 + 1)

/-- The half-slots of the form that a line is given at a fill or a write (R239): ZERO none, PACKED one, when its non-zero bytes fit 96
beside the header, else FULL. A line not fully held, or a pinned one, is FULL; a dead tag holds no data (R247). -/
def State.halves (s : State) (l : Line) : Nat :=
  if l.dead then 0
  else if s.has F.cstCtrlCompress && !l.pinned && l.g.all Gran.full then
    let nz := sumNat (l.g.map fun g => countNz g.data)
    if nz = 0 then 0 else if nz ≤ 96 then 1 else 2
  else 2
where
  countNz (bs : List Byte) : Nat := (bs.filter fun b => b != 0).length

/-- A slice's partition in force, and the one that an apply in progress leads to: SCRATCH and PIN. -/
def State.partNow (s : State) (q : Nat) : Nat × Nat := (s.rd (F.cstPartitionScratch q), s.rd (F.cstPartitionPin q))

def State.partNext (s : State) (q : Nat) : Nat × Nat :=
  match s.mem.applying with
  | some ps => ps.getD q (s.partNow q)
  | none => s.partNow q

/-- The cache regions of a slice that keep their role (R234, R236). -/
def State.cacheList (s : State) (q : Nat) : List Nat :=
  let lo := max (s.partNow q).1 (s.partNext q).1
  upto lo (256 - max (s.partNow q).2 (s.partNext q).2 - lo)

/-- The pinned regions of a slice that keep their role. -/
def State.pinList (s : State) (q : Nat) : List Nat :=
  let n := min (s.partNow q).2 (s.partNext q).2
  upto (256 - n) n

/-- Whether an apply in progress takes a line's region from its part. -/
def State.leaving (s : State) (line : Nat) (l : Line) : Bool :=
  s.mem.applying.isSome &&
    match l.region with
    | some r => !(if l.pinned then s.pinList (s.home (line * 256)) else s.cacheList (s.home (line * 256))).contains r
    | none => false

/-- The other unpinned lines of a line's set in its slice. -/
def State.setMates (s : State) (line : Nat) : List (Nat × Line) :=
  s.mem.lines.filter fun x =>
    x.1 != line && !x.2.pinned && setOf x.1 == setOf line && s.home (x.1 * 256) == s.home (line * 256)

/-- Whether a line of the store is locked by the reduction unit (R244). -/
def State.isLocked (s : State) (line : Nat) : Bool := (s.slice (s.home (line * 256))).locked.contains line

/-- The least recently used of some lines. -/
def leastUsed : List (Nat × Line) → Option Nat
  | [] => none
  | x :: xs => some (xs.foldl (fun (b : Nat × Line) y => if y.2.used < b.2.used then y else b) x).1

/-- The victim among a set's lines (R240): a dead tag, then the least recently used evict-first, normal and keep line, none of
them locked, and all in cache regions. -/
def State.victim (s : State) (mates : List (Nat × Line)) : Option Nat :=
  let free := mates.filter fun x => x.2.region.isSome && !s.isLocked x.1
  match leastUsed (free.filter fun x => x.2.dead) with
  | some v => some v
  | none =>
    match leastUsed (free.filter fun x => x.2.hint == 2) with
    | some v => some v
    | none =>
      match leastUsed (free.filter fun x => x.2.hint == 0) with
      | some v => some v
      | none => leastUsed (free.filter fun x => x.2.hint == 1)

/-- Removes a line: its dirty granules move to the write-back buffer, and a dead tag just ends (R242, R248). -/
def State.evict (s : State) (line : Nat) : State :=
  match KMap.find s.mem.lines line with
  | none => s
  | some l =>
    let s' := { s with mem := { s.mem with lines := KMap.del s.mem.lines line } }
    if !l.dead && l.g.any Gran.dirty then
      { s' with mem := { s'.mem with
          wb := s'.mem.wb ++ [WriteBack.mk (s.home (line * 256)) line l.g] } }.bankCount (line * 256) 4
    else s'

/-- Whether a region of a set has a tag entry and space for `need` half-slots beside some lines: two tags and a slot for each
region (R231). -/
def regionRoom (mates : List (Nat × Line)) (need r : Nat) : Bool :=
  let here := mates.filter fun x => x.2.region == some r
  decide (here.length < 2 ∧ sumNat (here.map (·.2.form)) + need ≤ 2)

/-- A cache region with room for a line of `need` half-slots in its set: the line's own, if it has one, before the lowest. -/
def State.openRegion (s : State) (line need : Nat) (own : Option Nat) : Option Nat :=
  let mates := s.setMates line
  let rs := s.cacheList (s.home (line * 256))
  match own.filter fun r => rs.contains r && regionRoom mates need r with
  | some r => some r
  | none => rs.find? (regionRoom mates need)

/-- Whether one more keep line would make them more than half of the set's slots (R240). -/
def State.keepFull (s : State) (line : Nat) : Bool :=
  let keeps := (s.setMates line).filter fun x => x.2.hint == 1
  decide ((s.cacheList (s.home (line * 256))).length < 2 * (keeps.length + 1))

/-- Makes room for a line in its set, one victim after the other (R240), `fuel` at least their number + 1: a region, none when no unlocked
candidate is left or the slice has no cache region. -/
def State.makeRoom : Nat → State → Nat → Nat → Option Nat → State × Option Nat
  | 0, s, _, _, _ => (s, none)
  | n + 1, s, line, need, own =>
    match s.openRegion line need own with
    | some r => (s, some r)
    | none =>
      match s.victim (s.setMates line) with
      | none => (s, none)
      | some v => State.makeRoom n (s.evict v) line need own

/-- Makes room for a keep line that would exceed its half: it replaces the least recently used keep line. -/
def State.keepRoom (s : State) (line : Nat) : State :=
  if s.keepFull line then
    match leastUsed ((s.setMates line).filter fun x => x.2.hint == 1 && !s.isLocked x.1) with
    | some v => s.evict v
    | none => s
  else s

def State.putLine (s : State) (line : Nat) (l : Line) : State :=
  { s with mem := { s.mem with lines := KMap.put s.mem.lines line l } }

/-- Uses a line: it becomes the most recently used. -/
def State.useLine (s : State) (line : Nat) : State :=
  match KMap.find s.mem.lines line with
  | none => s
  | some l => { s.putLine line { l with used := s.mem.stamp + 1 } with mem :=
      { (s.putLine line { l with used := s.mem.stamp + 1 }).mem with stamp := s.mem.stamp + 1 } }

/-- Puts a line, old or new, into its set, in the form that it now takes; false when it finds no place, and then it is not resident. A
pinned line keeps its slot. -/
def State.install (s : State) (line : Nat) (l : Line) : State × Bool :=
  let l := { l with form := s.halves l }
  if l.pinned then (s.putLine line l, true)
  else
    let s := if l.hint = 1 then s.keepRoom line else s
    match State.makeRoom (s.mem.lines.length + 1) s line l.form l.region with
    | (s, some r) => (s.putLine line { l with region := some r }, true)
    | (s, none) => (s, false)

/-- An eviction finds every candidate of a line's set locked (R245): it waits on the least recently used, and LOCK_WAIT sets. -/
def State.lockWait (s : State) (line : Nat) : State :=
  let q := s.home (line * 256)
  match leastUsed ((s.setMates line).filter fun x => x.2.region.isSome) with
  | some v =>
    let x := s.slice q
    let s := s.setSlice q { x with waits := if x.waits.contains v then x.waits else x.waits ++ [v] }
    (s.setEvent F.cstEventsLockWait).bankCount (line * 256) 6
  | none => s

/-- Asks HBM for a line, once. -/
def State.requestFill (s : State) (line : Nat) : State :=
  let q := s.home (line * 256)
  let x := s.slice q
  if inWindow (line * 256) || x.fills.contains line then s
  else (s.setSlice q { x with fills := x.fills ++ [line] }).bankCount (line * 256) 3

/-- The lines in a slice's transient line buffers, of which there are 64 (R231). -/
def State.transients (s : State) (q : Nat) : Nat :=
  (s.mem.lines.filter fun x => x.2.region.isNone && s.home (x.1 * 256) == q).length

/-- A line that a fill brings from HBM (R238): every granule that is not dirty is filled, written bytes kept. -/
def State.filled (s : State) (line : Nat) (old : Option Line) (hint : Nat) : Line :=
  let g := (upto 0 4).map fun i =>
    let b := s.below (4 * line + i)
    match old with
    | none => { b with wrote := 0 }
    | some l =>
      let x := l.g.getD i Gran.reset
      if l.dead then { b with wrote := 0 }
      else
        { held := allHeld, wrote := x.wrote, poison := x.poison || (b.poison && x.held != allHeld),
          data := blend x.held x.data b.data }
  { pinned := (old.map (·.pinned)).getD false, dead := false, hint := hint, used := s.mem.stamp, g := g
    region := old.bind (·.region) }

/-- How a new line's hint is taken (R240): evict-first when the request is marked so, else the frame's. -/
def State.fillHint (s : State) (line : Nat) (streaming : Bool) : Nat := if streaming then 2 else s.hintOf line

/-- Below every line of a set: the least recently used. -/
def leastStamp (mates : List (Nat × Line)) : Int := (mates.map fun x => x.2.used).foldl min 0 - 1

/-- Where a line just installed stands in its set's order (R240): an evict-first line as least recently used, any other as most recently. -/
def State.newStamp (s : State) (line hint : Nat) : Int := if hint = 2 then leastStamp (s.setMates line) else s.mem.stamp + 1

/-- A use is counted. -/
def State.tickUse (s : State) : State := { s with mem := { s.mem with stamp := s.mem.stamp + 1 } }

/-- Fills a line at once; true when it is resident after. -/
def State.fill (s : State) (line : Nat) (streaming : Bool) : State × Bool :=
  let old := KMap.find s.mem.lines line
  let hint := match old with | some l => if l.dead then s.fillHint line streaming else l.hint | none => s.fillHint line streaming
  let l := { s.filled line old hint with used := s.newStamp line hint }
  ((s.count (channelUnit (s.channelOf (line * 256))) 1 256).tickUse).install line l

/-- A read that misses (R238, R240, R242): while a write-back of the line is on its way the read is served from the write-back buffer and
fills nothing; with every candidate locked, the fill waits for one. -/
def State.miss (s : State) (line : Nat) (streaming : Bool) : State :=
  let s := s.bankCount (line * 256) 3
  if s.mem.wb.any fun w => w.line == line then s
  else
    match s.fill line streaming with
    | (s, true) => s
    | (s, false) => if (s.cacheList (s.home (line * 256))).isEmpty then s else (s.lockWait line).requestFill line

/-! ### Dead reads (R248, R249) -/

/-- A read of a dead tag by reader `t` (16 for service firmware, domain 0000h and securing drains) at unit `unit` ends the tag: the read is
counted, and the first one raises 0306h. -/
def State.deadTouch (s : State) (line t unit : Nat) : State :=
  let first := s.rd (F.cstDeadReadsCount t) == 0
  let s := (s.addSat (F.cstDeadReadsCount t) 1).bankCount (line * 256) 7
  let s := if first && s.has (F.cstDeadctlEventEn t) then
      if t < 16 then s.tell t 0x306 (bankUnit (s.home (line * 256)) (line * 256)) (line * 256) unit
      else s.event 0x306 .firmware [line * 256, unit] else s
  { s with mem := { s.mem with lines := KMap.del s.mem.lines line } }

/-- A read of a dead tag fetches the line from HBM: the tag becomes a live line. -/
def State.deadRead (s : State) (line t unit : Nat) (streaming : Bool) : State := (s.deadTouch line t unit).miss line streaming

/-! ### Writes (R238, R251) -/

/-- A granule after a masked write: poison ends when the whole granule is written. -/
def Gran.write (g : Gran) (m : Nat) (d : List Byte) : Gran :=
  { held := Nat.lor g.held m, wrote := Nat.lor g.wrote m, poison := g.poison && m != allHeld, data := blend m d g.data }

/-- Writes one granule in HBM itself: what a write-back does, and a write to a slice with no cache region. -/
def State.hbmWrite (s : State) (g m : Nat) (d : List Byte) (poison : Bool) : State :=
  let old := cells s.mem.hbm (64 * g) 64
  { s with mem := { s.mem with
      hbm := putCells s.mem.hbm (64 * g) (blend m d old)
      hbmPoison := KMap.set s.mem.hbmPoison g (poison || (KMap.get s.mem.hbmPoison g false && m != allHeld)) false }
    }.count (channelUnit (s.channelOf (64 * g))) 2 64

/-- HBM accepts a line's write-back (R242, R266): dirty granules are written whole, partial ones merged, poisoned ones marked. -/
def State.acceptLine (s : State) (w : WriteBack) : State :=
  (upto 0 4).foldl
    (fun s i =>
      let x := w.g.getD i Gran.reset
      if x.dirty then s.hbmWrite (4 * w.line + i) x.wrote x.data x.poison else s) s

/-- Write-backs of a line still in the buffer are accepted. -/
def State.settle (s : State) (line : Nat) : State :=
  let mine := s.mem.wb.filter fun w => w.line == line
  mine.foldl State.acceptLine { s with mem := { s.mem with wb := s.mem.wb.filter fun w => w.line != line } }

/-! ### Waited words (R339) -/

/-- What a wait condition gives on a word: the ending status once it holds. -/
def waitStatus (cond w t : Nat) : Option Nat :=
  if cond = 0 then (if (w + 2 ^ 64 - t % 2 ^ 64) % 2 ^ 64 < 2 ^ 63 then some 0 else none)
  else if cond = 1 then (if w = t then some 0 else none)
  else if cond = 2 then (if w = t then none else some 0)
  else
    let st := w / 2 ^ 32 % 2 ^ 16
    if st ≠ 0 ∨ (w % 2 ^ 32 + 2 ^ 32 - t % 2 ^ 32) % 2 ^ 32 < 2 ^ 31 then some st else none

/-- A wait against the word as it stands: met once, with the value then. -/
def State.tryWait (s : State) (w : WaitCmd) : WaitCmd :=
  match w.met with
  | some _ => w
  | none =>
    let v := leNat (s.read w.pa 8)
    { w with met := (waitStatus w.cond v w.target).map fun st => (st, v) }

/-- The waits on a line's words, evaluated at every change of it; those met stand behind those met before. -/
def State.checkWaits (s : State) (line : Nat) : State :=
  if s.waits.any fun w => w.pa / 256 == line && w.met.isNone then
    let ws := s.waits.map fun w => if w.pa / 256 = line ∧ w.met.isNone then (s.tryWait w, true) else (w, false)
    let now := fun (x : WaitCmd × Bool) => x.2 && x.1.met.isSome
    { s with waits := ((ws.filter fun x => !now x) ++ ws.filter now).map (·.1) }
  else s

/-- The keeper's region of HBM, where the isolation table stands (R212): frame 0. -/
def keeperLine (line : Nat) : Bool := decide (line < 8192)

/-- The isolation entry of a frame (R212). -/
def State.isoEntry (s : State) (f : Nat) : Nat := KMap.get s.keeper.iso f 0

/-- The keeper writes an entry over its private link: its four bytes stand in HBM, and no line of the table stays in the store (R212). -/
def State.setIso (s : State) (f v : Nat) : State :=
  { s with
    keeper := { s.keeper with iso := KMap.set s.keeper.iso f v 0 }
    mem := { s.mem with
      hbm := putCells s.mem.hbm (4 * f) (leBytes 4 v)
      lines := KMap.del s.mem.lines (f / 64)
      wb := s.mem.wb.filter fun w => w.line != f / 64 } }

/-- The keeper rewrites every entry that is not 0. -/
def State.mapIso (s : State) (g : Nat → Nat → Nat) : State :=
  s.keeper.iso.foldl (fun (s : State) x => s.setIso x.1 (g x.1 (s.isoEntry x.1))) s

/-! ### Ranges zeroed and flushed, and what holds requests (R230, R233, R236, R264) -/

/-- A whole range of bytes written as zero and flushed, so that the zeros stand in HBM (R230, R264). -/
def State.zeroRange (s : State) (a n : Nat) : State :=
  if inWindow a then
    { s with mem := { s.mem with
        scratch := dropRange s.mem.scratch (a - windowBase) n
        scratchPoison := dropRange s.mem.scratchPoison ((a - windowBase) / 64) (n / 64) } }
  else
    { s with mem := { s.mem with
        hbm := dropRange s.mem.hbm a n
        hbmPoison := dropRange s.mem.hbmPoison (a / 64) (n / 64)
        lines := dropRange s.mem.lines (a / 256) (n / 256)
        wb := s.mem.wb.filter fun w => !decide (a / 256 ≤ w.line ∧ w.line < a / 256 + n / 256) } }

/-- Writes back and invalidates the lines of a range (FLUSH of R246), HBM accepting them. -/
def State.flushRange (s : State) (a n : Nat) : State :=
  let mine := (s.mem.lines.filter fun x => decide (a / 256 ≤ x.1 ∧ x.1 < a / 256 + n / 256)).map (·.1)
  mine.foldl (fun s l => (s.evict l).settle l) s

/-- The frames of a slice-map word whose SLICE differs between two values. -/
def mapChanged (i old new : Nat) : List Nat :=
  ((upto 0 8).filter fun e => old / 2 ^ (4 * e) % 4 != new / 2 ^ (4 * e) % 4).map fun e => 8 * i + e

/-- Whether a frame's requests are held for a slice-map change. -/
def State.frameHeld (s : State) (frame : Nat) : Bool :=
  s.mem.mapNew.any fun x => (mapChanged x.1 (s.reg (.cstSlicemap x.1)).toNat x.2.toNat).contains frame

/-- SLICEMAP_CHANGE_END (R233): the lines of the changed frames are written back and invalidated in the old slice, the new
entries take effect. It waits on locked lines. -/
def State.slicemapChangeEnd (s : State) : State :=
  let frames := (s.mem.mapNew.map fun x => mapChanged x.1 (s.reg (.cstSlicemap x.1)).toNat x.2.toNat).flatten
  if s.mem.lines.any (fun x => frames.contains (x.1 / 8192) && s.isLocked x.1) then s.setEvent F.cstEventsLockWait
  else
    let s := frames.foldl (fun s f => s.flushRange (f * 2 ^ 21) (2 ^ 21)) s
    let s := s.mem.mapNew.foldl (fun s x => s.setReg (.cstSlicemap x.1) (x.2.setWidth 64)) s
    { s with mem := { s.mem with mapNew := [] } }.wr F.cstStatusMapBusy 0

/-- Sets a group's class: every granule is zero, and the class bit takes effect (R264 steps 2 and 3). -/
def State.setClass (s : State) (g : Nat) (c : Bool) : State :=
  let s := s.zeroRange (g * 2 ^ 25) (2 ^ 25)
  let old := s.reg (.hbmClassmap (g / 32))
  let b := BitVec.ofNat 64 (2 ^ (g % 32))
  s.setReg (.hbmClassmap (g / 32)) (if c then old ||| b else old &&& ~~~ b)

/-- A class change ends: it is the first of its group's. -/
def State.endClass (s : State) (x : Nat × Bool) : State :=
  { s with mem := { s.mem with classNew := s.mem.classNew.erase x } }.setClass x.1 x.2

/-- A request to a frame that a slice-map change holds, or to a group whose class changes, is held until the change has ended: what it does
stands behind that end (R233, R264). A line in a region that an apply takes away is written back first, and the request then misses
(R236). -/
def State.awaitHeld (s : State) (line : Nat) : State :=
  if inWindow (line * 256) then s
  else
    let s := if s.frameHeld (line / 8192) then s.slicemapChangeEnd else s
    let s := (s.mem.classNew.filter fun x => x.1 == line / 2 ^ 17).foldl State.endClass s
    match KMap.find s.mem.lines line with
    | some l => if s.leaving line l && !s.isLocked line then (s.evict line).settle line else s
    | none => s

/-! ### Reads and writes of a line -/

/-- Whether a line holds the bytes of a mask. -/
def Line.holds (l : Line) (mask : Nat) : Bool :=
  (upto 0 4).all fun i =>
    let m := mask / 2 ^ (64 * i) % 2 ^ 64
    Nat.land m (l.g.getD i Gran.reset).held == m

/-- Every byte of a line. -/
def wholeLine : Nat := 2 ^ 256 - 1

/-- What a read of some bytes of a line does to the store: a dead tag is read, bytes not held are fetched with the line, the line is
used. -/
def State.readBytes (s : State) (line mask t unit : Nat) (streaming : Bool) : State :=
  let s := (s.awaitHeld line).bankCount (line * 256) 1
  if inWindow (line * 256) then s
  else
    match KMap.find s.mem.lines line with
    | some l => if l.dead then s.deadRead line t unit streaming else if l.holds mask then s.useLine line else s.miss line streaming
    | none => s.miss line streaming

/-- A read of a whole line. -/
def State.readLine (s : State) (line t unit : Nat) (streaming : Bool) : State := s.readBytes line wholeLine t unit streaming

/-- A read of a span by a unit, the lines marked evict-first if `streaming`. -/
def State.readAs (s : State) (a n t unit : Nat) (streaming : Bool) : State :=
  (lineSpan a n).foldl
    (fun s l =>
      let from' := max a (256 * l) - 256 * l
      let to' := min (a + n) (256 * l + 256) - 256 * l
      s.readBytes l (2 ^ to' - 2 ^ from') t unit streaming) s

/-- A written line that finds no place: in a slice without a cache region, or with the transient buffers taken, its bytes go to HBM;
with every candidate locked it stands in a transient buffer until one is unlocked (R231, R245). -/
def State.writeThrough (s : State) (line : Nat) (l : Line) : State :=
  let q := s.home (line * 256)
  if (s.cacheList q).isEmpty || decide (64 ≤ s.transients q) then
    { s with mem := { s.mem with lines := KMap.del s.mem.lines line } }.acceptLine { slice := q, line := line, g := l.g }
  else (s.putLine line { l with region := none }).lockWait line

/-- A masked write of one line: four granule masks and 256 bytes. It allocates without reading HBM; a write-back of the line that is on
its way is waited for (R242). -/
def State.lineBytes (s : State) (line : Nat) (mask : Nat) (d : List Byte) : State :=
  let s := (s.awaitHeld line).bankCount (line * 256) 2
  let gm := fun (i : Nat) => mask / 2 ^ (64 * i) % 2 ^ 64
  let gd := fun (i : Nat) => (d.drop (64 * i)).take 64
  if inWindow (line * 256) then
    (upto 0 4).foldl
      (fun s i =>
        let o := line * 256 - windowBase + 64 * i
        let g := (s.scratchGran o).write (gm i) (gd i)
        { s with mem := { s.mem with
            scratch := putCells s.mem.scratch o g.data
            scratchPoison := KMap.set s.mem.scratchPoison (o / 64) g.poison false } }) s
  else
    let s := s.settle line
    let new := fun (l : Line) => { l with g := (upto 0 4).map fun i => (l.g.getD i Gran.reset).write (gm i) (gd i) }
    let l : Line :=
      match (KMap.find s.mem.lines line).filter fun l => !l.dead with
      | some l => new { l with used := s.mem.stamp + 1 }
      | none => new { pinned := false, dead := false, hint := s.hintOf line, used := s.newStamp line (s.hintOf line)
                      g := List.replicate 4 Gran.reset }
    match s.tickUse.install line l with
    | (s, true) => s
    | (s, false) => s.writeThrough line l

/-- A masked write of one line by an agent other than the keeper: in the keeper's region it is discarded and 0907h is raised (R212). -/
def State.writeLine (s : State) (line : Nat) (mask : Nat) (d : List Byte) : State :=
  if keeperLine line then s.event 0x907 .keeper [line * 256] else (s.lineBytes line mask d).checkWaits line

/-- Writes bytes at a physical address, performed at its slice. -/
def State.write (s : State) (a : Nat) (bs : List Byte) : State :=
  (lineSpan a bs.length).foldl
    (fun s l =>
      let from' := max a (256 * l)
      let to' := min (a + bs.length) (256 * l + 256)
      let n := to' - from'
      let o := from' - 256 * l
      s.writeLine l ((2 ^ n - 1) * 2 ^ o) (zeros o ++ (bs.drop (from' - a)).take n ++ zeros (256 - o - n))) s

/-! ### What the reduction and atomic unit computes (R188, R189, R243) -/

/-- The element size of a reduction, and 0 for a code outside the table. -/
def redSize (code : Nat) : Nat :=
  if code = 1 ∨ code = 3 ∨ code = 4 ∨ code = 5 ∨ code = 8 ∨ code = 9 then 4
  else if code = 2 ∨ code = 6 ∨ code = 7 then 2 else 0

/-- Two elements combined (R243). -/
def redElement (code a b : Nat) : Nat :=
  match code with
  | 1 => f32add a b
  | 2 => Fmt.near .bf16 ((Fmt.decode .bf16 a).add (Fmt.decode .bf16 b))
  | 3 => (a + b) % 2 ^ 32
  | 4 => Fmt.maxOf .fp32 a b
  | 5 => Fmt.minOf .fp32 a b
  | 6 => Fmt.maxOf .bf16 a b
  | 7 => Fmt.minOf .bf16 a b
  | 8 => if signed 32 a < signed 32 b then b else a
  | 9 => if signed 32 b < signed 32 a then b else a
  | _ => a

/-- Whether a request's mask covers whole elements only (R243). -/
def redValid (code mask : Nat) : Bool :=
  let n := redSize code
  n != 0 && (upto 0 (256 / n)).all fun i =>
    mask / 2 ^ (n * i) % 2 ^ n == 0 || mask / 2 ^ (n * i) % 2 ^ n == 2 ^ n - 1

/-- A line's bytes after a reduction: the elements the mask covers, those of poisoned granules apart (R244 step 5). -/
def redCombine (code mask : Nat) (poisoned : Nat → Bool) (old new : List Byte) : List Byte :=
  let n := redSize code
  ((upto 0 (256 / n)).map fun i =>
    let o := (old.drop (n * i)).take n
    if mask / 2 ^ (n * i) % 2 = 1 ∧ !poisoned (n * i / 64) then
      leBytes n (redElement code (leNat o) (leNat ((new.drop (n * i)).take n)))
    else o).flatten

/-- The bytes of an ATOM's word. -/
def atomBytes (ty : Nat) : Nat := if ty = 2 then 8 else 4

/-- The new value of an ATOM's word (R188, R189). -/
def atomValue (op ty old a c : Nat) : Nat :=
  let w := 8 * atomBytes ty
  let less := fun (x y : Nat) => if ty = 1 then decide (x < y) else decide (signed w x < signed w y)
  match op with
  | 0 => if ty = 3 then f32add old a else (old + a) % 2 ^ w
  | 1 => if ty = 3 then Fmt.minOf .fp32 old a else if less a old then a else old
  | 2 => if ty = 3 then Fmt.maxOf .fp32 old a else if less old a then a else old
  | 3 => Nat.land old a
  | 4 => Nat.lor old a
  | 5 => Nat.xor old a
  | 6 => a
  | _ => if old = c then a else old

/-- The lanes of an ATOM in ascending order on a line's bytes: the bytes after, and each lane's value (R189). -/
def atomLanes : List Byte → List AtomLane → List Byte × List (Nat × Nat)
  | bs, [] => (bs, [])
  | bs, x :: xs =>
    let old := fld bs x.off (atomBytes x.ty)
    let bs' := setFld bs x.off (atomBytes x.ty) (atomValue x.op x.ty old x.operand x.compare)
    let (bs'', vs) := atomLanes bs' xs
    (bs'', (x.lane, old) :: vs)

/-- What a request of the reduction unit answers: its lanes' values, and 0304h for a poisoned granule. -/
structure RedAnswer where
  req : RedReq
  code : Nat
  values : List (Nat × Nat)
  deriving DecidableEq, Repr

/-- The granules of its line that a request touches. -/
def RedReq.grans (r : RedReq) : List Nat :=
  if r.code = 0 then (upto 0 4).filter fun i => r.atoms.any fun x => x.off / 64 == i
  else (upto 0 4).filter fun i => r.mask / 2 ^ (64 * i) % 2 ^ 64 != 0

/-- Performs a request on its line (R244 steps 3 and 5): poisoned granules are not combined. -/
def State.perform (s : State) (r : RedReq) : State × RedAnswer :=
  let a := r.line * 256
  let old := s.read a 256
  let bad := fun (i : Nat) => (s.granAt (a + 64 * i)).poison
  let hurt := r.grans.any bad
  let s := s.bankCount a 5
  if r.code = 0 then
    let good := r.atoms.filter fun x => !bad (x.off / 64)
    let (new, vals) := atomLanes old good
    let mask := good.foldl (fun m x => Nat.lor m ((2 ^ atomBytes x.ty - 1) * 2 ^ x.off)) 0
    let s := if mask = 0 then s else s.writeLine r.line mask new
    (s, { req := r, code := if hurt then 0x304 else 0, values := vals })
  else
    let new := redCombine r.code r.mask bad old r.data
    let mask := (upto 0 4).foldl (fun m i => if bad i then m - m / 2 ^ (64 * i) % 2 ^ 64 * 2 ^ (64 * i) else m) r.mask
    let s := if mask = 0 then s else s.writeLine r.line mask new
    (s, { req := r, code := if hurt then 0x304 else 0, values := [] })

end Sys2Proof.Machine
end

