-- ==== Sys2Proof/Machine/Store.lean ====
section
/-! DEFINITION. The central store's commands (The central store): slice map, partition, range operations, dead marks, scrub,
and the reduction unit's queue and locks. -/

namespace Sys2Proof.Machine

/-! ### What waits at a slice (R233, R236, R242 to R246) -/

/-- Whether a line's requests can be served: it is of the scratchpad, or resident and fully held. -/
def State.resident (s : State) (line : Nat) : Bool :=
  inWindow (line * 256) ||
    match KMap.find s.mem.lines line with
    | some l => !l.dead && l.g.all Gran.full
    | none => false

/-- Whether no further request to a line enters the queue: an eviction, a range operation, an apply or a slice-map change waits for it
(R233, R245). -/
def State.barred (s : State) (line : Nat) : Bool :=
  (s.slice (s.home (line * 256))).waits.contains line || s.frameHeld (line / 8192) ||
    (match s.mem.op with | some o => o.lines.contains line | none => false) ||
    match KMap.find s.mem.lines line with
    | some l => s.leaving line l
    | none => false

/-- Held requests whose line has become resident enter the queue, in order, while it has room. -/
def State.admitWaiting (s : State) (q : Nat) : State :=
  let x := s.slice q
  let ready := x.hold.filter fun r => s.resident r.line && !s.barred r.line
  let take := ready.take (60 - x.queue.length)
  s.setSlice q { x with queue := x.queue ++ take, hold := x.hold.filter fun r => !take.contains r }

/-- A line that held requests wait for and that is not resident is asked for, once HBM has accepted its write-back (R245 step 3). -/
def State.refillHeld (s : State) (line : Nat) : State :=
  if (s.slice (s.home (line * 256))).hold.any (fun r => r.line == line) && !s.resident line &&
      !s.mem.wb.any fun w => w.line == line then s.requestFill line
  else s

/-- What waited on some lines goes on in every slice: held requests enter, or their lines are asked for. -/
def State.proceed (s : State) : State :=
  (upto 0 4).foldl
    (fun (s : State) q => let s := s.admitWaiting q; (s.slice q).hold.foldl (fun (s : State) r => s.refillHeld r.line) s) s

/-! ### Start-up (R253) -/

/-- The store domain leaves reset: the CST registers and those of the update engines, whose domain it is, stand at their reset values
(R145, R253). -/
def State.storeRestart (s : State) : State := (s.resetBlock 0x300000 0x330000).resetBlock 0x200C00 0x201000

/-- STORE_READY (R253): a slice has invalidated its tags and zeroed its SRAM; READY sets when all four have. Requests that came before it
have waited. -/
def State.storeReady (s : State) (q : Nat) : State :=
  if s.clk.released < 2 || (s.slice q).ready then s
  else
    let s := { s with mem := { s.mem with lines := s.mem.lines.filter fun x => s.home (x.1 * 256) != q } }
    let s := s.zeroRange (windowBase + q * 2 ^ 28) (2 ^ 28)
    let s := s.setSlice q { Slice.reset with ready := true, arrivals := (s.slice q).arrivals }
    if (upto 0 4).all fun i => (s.slice i).ready then s.wr F.cstStatusReady 1 else s

def execStoreReady (q : QuadId) (s : State) : Host.Outcome State Fault Refusal := .next (s.storeReady q)

/-! ### The slice map (R233) -/

/-- SLICEMAP_WRITE (R233): a changed SLICE holds the frame's requests and sets MAP_BUSY; a write that changes only HINT takes
effect at once. -/
def State.slicemapWrite (s : State) (i : Nat) (v : Word) : State :=
  if 24576 ≤ i then s
  else if (mapChanged i (s.reg (.cstSlicemap i)).toNat v.toNat).isEmpty then s.setReg (.cstSlicemap i) (v.setWidth 64)
  else { s with mem := { s.mem with mapNew := s.mem.mapNew ++ [(i, v)] } }.wr F.cstStatusMapBusy 1

def execSlicemapWrite (i : Nat) (v : Word) (s : State) : Host.Outcome State Fault Refusal := .next (s.slicemapWrite i v)

def execSlicemapChangeEnd (s : State) : Host.Outcome State Fault Refusal :=
  .next (if s.has F.cstStatusReady then s.slicemapChangeEnd.proceed else s)

/-! ### The partition (R234 to R236) -/

/-- PARTITION_APPLY (R236): the check of every slice, and step 1: the values are taken, and regions that leave the scratchpad part lose
their contents. -/
def State.partitionApply (s : State) : State :=
  if s.has F.cstStatusPartBusy then s
  else if (upto 0 4).any fun q => decide (256 < s.rd (F.cstPartitionNextScratch q) + s.rd (F.cstPartitionNextPin q)) then
    s.setEvent F.cstEventsPartInvalid
  else
    let s := (upto 0 4).foldl
      (fun s q =>
        let old := s.rd (F.cstPartitionScratch q)
        let new := s.rd (F.cstPartitionNextScratch q)
        s.zeroRange (windowBase + q * 2 ^ 28 + new * 2 ^ 20) ((old - new) * 2 ^ 20)) s
    { s with mem := { s.mem with
        applying := some ((upto 0 4).map fun q => (s.rd (F.cstPartitionNextScratch q), s.rd (F.cstPartitionNextPin q))) } }.wr
      F.cstStatusPartBusy 1

def execPartitionApply (s : State) : Host.Outcome State Fault Refusal := .next s.partitionApply

/-- Unpins a line: its dirty granules are written back and it is invalidated (R241). -/
def State.unpinLine (s : State) (line : Nat) : State :=
  match KMap.find s.mem.lines line with
  | some l => if l.pinned then s.evict line else s
  | none => s

/-- The pinned lines of a line's set in its slice, the line itself apart. -/
def State.pinnedMates (s : State) (line : Nat) : List (Nat × Line) :=
  s.mem.lines.filter fun x =>
    x.1 != line && x.2.pinned && setOf x.1 == setOf line && s.home (x.1 * 256) == s.home (line * 256)

/-- Step 2 of R236 for one line of a leaving region: it is written back and invalidated, and a pinned one is unpinned. -/
def State.partitionLine (s : State) (line : Nat) : State :=
  match KMap.find s.mem.lines line with
  | none => s
  | some l => if l.pinned then (s.evict line).setEvent F.cstEventsPinFail else s.evict line

/-- The lines in regions that an apply takes away. -/
def State.leavingLines (s : State) : List Nat := (s.mem.lines.filter fun x => s.leaving x.1 x.2).map (·.1)

/-- PARTITION_APPLY_END (R236 steps 2 to 4): the leaving regions are emptied, the new partition stands, and all four slices have finished.
Locked lines there are waited for. -/
def State.partitionApplyEnd (s : State) : State :=
  match s.mem.applying with
  | none => s
  | some ps =>
    let s' := (s.leavingLines.filter fun l => !s.isLocked l).foldl State.partitionLine s
    if s'.leavingLines != [] then s'.setEvent F.cstEventsLockWait
    else
      let s := (upto 0 4).foldl
        (fun s q =>
          let p := ps.getD q (0, 0)
          ((s.wr (F.cstPartitionScratch q) p.1).wr (F.cstPartitionPin q) p.2).wr (F.cstPartitionCache q) (256 - p.1 - p.2)) s'
      let s := { s with mem := { s.mem with applying := none } }
      ((s.wr F.cstStatusPartBusy 0).setEvent F.cstEventsPartDone).proceed

def execPartitionApplyEnd (s : State) : Host.Outcome State Fault Refusal := .next s.partitionApplyEnd

/-! ### Range operations (R241, R246, R247) -/

/-- Marks a line dead (R247): one in a cache region loses its data without write-back and keeps its tag; one in a transient buffer has no
tag to keep. -/
def State.deadMarkLine (s : State) (line : Nat) : State :=
  match KMap.find s.mem.lines line with
  | some l =>
    if l.pinned then s
    else if l.region.isNone then { s with mem := { s.mem with lines := KMap.del s.mem.lines line } }
    else s.putLine line { l with dead := true, form := 0, g := List.replicate 4 Gran.reset }
  | none => s

/-- A free pinned slot of a line's set: its region. -/
def State.pinSlot (s : State) (line : Nat) : Option Nat :=
  (s.pinList (s.home (line * 256))).find? fun r => !(s.pinnedMates line).any fun x => x.2.region == some r

/-- Pins a line (R241): resident or filled, into a pinned slot of its set; else it is counted. -/
def State.pinLine (s : State) (line : Nat) : State :=
  let s := s.settle line
  let old := KMap.find s.mem.lines line
  if (old.map (·.pinned)).getD false then s
  else
    match s.pinSlot line with
    | some r => s.putLine line { s.filled line old (s.hintOf line) with pinned := true, region := some r, form := 2 }
    | none => (s.add F.cstOpResultNotPinned 1).setEvent F.cstEventsPinFail

/-- Writes back a line's dirty granules; the line stays, clean (R246). -/
def State.cleanLine (s : State) (line : Nat) : State :=
  match KMap.find s.mem.lines line with
  | some l =>
    if l.dead || !l.g.any Gran.dirty then s
    else
      let s := (s.settle line).acceptLine { slice := 0, line := line, g := l.g }
      (s.bankCount (line * 256) 4).putLine line
        { l with g := (upto 0 4).map fun i =>
            let x := l.g.getD i Gran.reset
            { (blendGran s line i x) with wrote := 0 } }
  | none => s
where
  blendGran (s : State) (line i : Nat) (x : Gran) : Gran :=
    if x.held = allHeld then x
    else if x.wrote = 0 then x
    else { s.below (4 * line + i) with wrote := 0 }

/-- One line's part of a range operation. -/
def State.rangeLine (s : State) (op line : Nat) : State :=
  match op with
  | 0 => s.cleanLine line
  | 1 => s.evict line
  | 2 => s.deadMarkLine line
  | 3 => s.pinLine line
  | _ => s.unpinLine line

/-- The lines that a range operation has to visit: those resident, or every line for a pin. -/
def State.rangeLines (s : State) (op : Nat) : List Nat :=
  let base := s.rd F.cstOpBaseLine
  let n := s.rd F.cstOpLenLines
  if op = 3 then upto base n
  else (s.mem.lines.filter fun x => decide (base ≤ x.1 ∧ x.1 < base + n)).map (·.1)

/-- Whether a line of a range operation has to wait: it is locked, or its slice is not ready (R245, R253). -/
def State.rangeWaits (s : State) (line : Nat) : Bool := s.isLocked line || !s.has F.cstStatusReady

/-- A range operation starts (R246): each home slice performs it on its lines, and locked lines wait (R245). Ignored while one
runs; a length of 0 does nothing (R252). -/
def State.rangeOp (s : State) (op : Nat) : State :=
  if s.has F.cstStatusOpBusy then s
  else if s.rd F.cstOpLenLines = 0 then s.wr F.cstOpCtrlOp op
  else
    let lines := s.rangeLines op
    let s := (s.wr F.cstOpCtrlOp op).wr F.cstStatusOpBusy 1
    let s := if op = 3 then s.setReg .cstOpResult 0 else s
    let wait := lines.filter s.rangeWaits
    let s := (lines.filter fun l => !s.rangeWaits l).foldl (fun s l => s.rangeLine op l) s
    let s := if lines.any s.isLocked then s.setEvent F.cstEventsLockWait else s
    { s with mem := { s.mem with op := some { op := op, lines := wait } } }

def execCstWriteBack (s : State) : Host.Outcome State Fault Refusal := .next (s.rangeOp 0)
def execCstFlush (s : State) : Host.Outcome State Fault Refusal := .next (s.rangeOp 1)
def execCstDeadMark (s : State) : Host.Outcome State Fault Refusal := .next (s.rangeOp 2)
def execCstPin (s : State) : Host.Outcome State Fault Refusal := .next (s.rangeOp 3)
def execCstUnpin (s : State) : Host.Outcome State Fault Refusal := .next (s.rangeOp 4)

/-- RANGE_OP_END (R246): the lines that waited are done, and OP_BUSY clears. -/
def State.rangeOpEnd (s : State) : State :=
  match s.mem.op with
  | none => s
  | some o =>
    if o.lines.any s.rangeWaits then s
    else
      let s := o.lines.foldl (fun s l => s.rangeLine o.op l) s
      ({ s with mem := { s.mem with op := none } }.wr F.cstStatusOpBusy 0).proceed

def execRangeOpEnd (s : State) : Host.Outcome State Fault Refusal := .next s.rangeOpEnd

/-- One range operation of service firmware's own, from its start to its end (R246). -/
def State.rangeRun (s : State) (op line n : Nat) : State :=
  (((s.wr F.cstOpBaseLine line).wr F.cstOpLenLines n).rangeOp op).rangeOpEnd

/-- A range operation whose lines are all locked is started, and waits for them (R245). -/
def State.rangeWait (s : State) (op : Nat) (lines : List Nat) : State :=
  { s with mem := { s.mem with op := some { op := op, lines := lines } } }.wr F.cstStatusOpBusy 1 |>.setEvent F.cstEventsLockWait

/-- DEAD_READS_CLEAR (R252). -/
def execDeadReadsClear (t : Fin 17) (s : State) : Host.Outcome State Fault Refusal :=
  .next (s.wr (F.cstDeadReadsCount t) 0)

/-! ### SRAM errors (R250) -/

/-- A corrected SRAM error. -/
def State.sramCorrected (s : State) (a : Nat) : State :=
  ((s.addSat F.cstSramCeCount 1).setEvent F.cstEventsSramCe).bankCount a 8

/-- An uncorrectable SRAM error in a granule: a clean one of an HBM line is dropped and fetched again; a dirty or partial one, or
one of the scratchpad, is poisoned, 0309h is raised and the health monitor told. -/
def State.sramLost (s : State) (g : Nat) : State :=
  let s := s.setEvent F.cstEventsSramUe
  let poison := fun (s : State) => (s.event 0x309 .firmware [64 * g]).healthInput .storeSram
  if inWindow (64 * g) then
    poison { s with mem := { s.mem with
      scratchPoison := KMap.set s.mem.scratchPoison ((64 * g - windowBase) / 64) true false } }
  else
    match KMap.find s.mem.lines (g / 4) with
    | none => s
    | some l =>
      let x := l.g.getD (g % 4) Gran.reset
      if x.wrote = 0 then
        let s := (s.evict (g / 4)).settle (g / 4)
        s.putLine (g / 4) { s.filled (g / 4) none l.hint with pinned := l.pinned, used := l.used, region := l.region, form := l.form }
      else poison (s.putLine (g / 4) { l with g := setAt l.g (g % 4) { x with poison := true } })

/-- STORE_SCRUB (R250): the scrubber's next line, by the granule met and what it finds there. -/
def State.storeScrub (s : State) (q g : Nat) (f : Finding) : State :=
  if !s.has F.cstCtrlScrub || !(s.slice q).ready then s
  else
    match f with
    | .corrected => s.sramCorrected (64 * g)
    | .uncorrectable => s.sramLost g
    | .sound => s
    -- findings of HBM alone
    | .die => s
    | .word _ => s

def execStoreScrub (q : QuadId) (granule : Nat) (f : Finding) (s : State) : Host.Outcome State Fault Refusal :=
  .next (s.storeScrub q granule f)

/-! ### Fills, and the reduction unit's queue (R243 to R245) -/

/-- Sends a request to the reduction unit of its line's home slice. -/
def State.sendRed (s : State) (r : RedReq) : State :=
  let q := s.home (r.line * 256)
  s.setSlice q { s.slice q with arrivals := (s.slice q).arrivals ++ [r] }

/-- A request takes its place in the hold buffer; its line is asked for unless it is there, or something waits for it. A dead tag ends: it
is read (R248). -/
def State.holdRed (s : State) (q : Nat) (r : RedReq) : State :=
  let s := match KMap.find s.mem.lines r.line with
    | some l => if l.dead then s.deadTouch r.line r.tenant r.unit else s
    | none => s
  let s := s.setSlice q { s.slice q with hold := (s.slice q).hold ++ [r] }
  if s.barred r.line then s else s.refillHeld r.line

/-- REDUCTION_REQUEST (R243 to R245): the oldest request on its way arrives. An invalid one is answered 030Ch; one whose line is
resident, on which nothing waits, and which no held request precedes, enters the queue of 60; another waits in the hold buffer of 64.
With the hold buffer full, or before READY, none is accepted. -/
def State.redArrive (s : State) (q : Nat) : State × Option RedAnswer :=
  let x := s.slice q
  match x.arrivals with
  | [] => (s, none)
  | r :: rest =>
    if !x.ready || decide (64 ≤ x.hold.length) then (s, none)
    else if r.code != 0 && !redValid r.code r.mask || (r.code == 0 && r.atoms.isEmpty) then
      (s.setSlice q { x with arrivals := rest }, some { req := r, code := 0x30C, values := [] })
    else
      let s := (s.setSlice q { x with arrivals := rest }).awaitHeld r.line
      let x := s.slice q
      if s.resident r.line && !s.barred r.line && !(x.hold.any fun y => y.line == r.line) && decide (x.queue.length < 60) then
        (s.setSlice q { x with queue := x.queue ++ [r] }, none)
      else (s.holdRed q r, none)

/-- A line that stands in a transient buffer for want of a cache region goes when no request for it remains (R244 step 1). -/
def State.dropTransient (s : State) (q line : Nat) : State :=
  match KMap.find s.mem.lines line with
  | some l => if l.region.isNone && (s.cacheList q).isEmpty then s.evict line else s
  | none => s

/-- REDUCTION_EXECUTE (R244): the unit starts the first queued request; its line stays locked while the queue holds more for it. A
line of a slice with no cache region is written back when none is left. -/
def State.redExecute (s : State) (q : Nat) : State × Option RedAnswer :=
  let x := s.slice q
  match x.queue with
  | [] => (s, none)
  | r :: rest =>
    let (s, a) := s.perform r
    let x := s.slice q
    let more := rest.any fun y => y.line == r.line
    let locked := if more then (if x.locked.contains r.line then x.locked else r.line :: x.locked)
      else x.locked.filter fun l => l != r.line
    let s := (s.setSlice q { x with queue := rest, locked := locked }).admitWaiting q
    ((if (s.slice q).queue.any fun y => y.line == r.line then s else s.dropTransient q r.line), some a)

/-- Lines that wait in transient buffers for a place in a line's set are put into it. -/
def State.placeWaiting (s : State) (line : Nat) : State :=
  ((s.setMates line).filter fun x => x.2.region.isNone).foldl (fun (s : State) x => (s.install x.1 x.2).1) s

/-- EVICTION_LOCK_RELEASE (R245): the line an eviction waited on is no longer locked: it leaves the store with the combined
result, its place is taken, and requests held for it will refill it. -/
def State.lockRelease (s : State) (q : Nat) : State :=
  let x := s.slice q
  match x.waits.filter fun l => !x.locked.contains l && !x.queue.any (fun r => r.line == l) with
  | [] => s
  | l :: _ =>
    let s := s.evict l
    let s := s.setSlice q { s.slice q with waits := (s.slice q).waits.filter fun m => m != l }
    (s.placeWaiting l).refillHeld l

def execEvictionLockRelease (q : QuadId) (s : State) : Host.Outcome State Fault Refusal := .next (s.lockRelease q)

/-- The `k`-th fill of a slice ends (R238): the line is installed and waiting requests proceed. It waits for a write-back of the line, for
an unlocked candidate, and in a slice with no cache region for one of the 64 transient buffers. -/
def State.fillEnd (s : State) (q k : Nat) : State :=
  match (s.slice q).fills[k]? with
  | none => s
  | some line =>
    let done := fun (s : State) => (s.setSlice q { s.slice q with fills := dropAt (s.slice q).fills k }).admitWaiting q
    if s.mem.wb.any fun w => w.line == line then s
    else if (s.cacheList q).isEmpty then
      if 64 ≤ s.transients q then s
      else
        done ((s.count (channelUnit (s.channelOf (line * 256))) 1 256).putLine line
          { s.filled line (KMap.find s.mem.lines line) 0 with form := 2 })
    else
      match s.fill line false with
      | (s', true) => done s'
      | (_, false) => s.lockWait line

end Sys2Proof.Machine
end

