-- ==== Sys2Proof/Machine/Hbm.lean ====
section
/-! DEFINITION. HBM (HBM3E memory): the interleave, training and initialisation, protection classes, findings, the scrub,
and channel map-out. -/

namespace Sys2Proof.Machine

/-! ### Frames in use -/

/-- The frames of some parts. -/
def partFrames (ps : List Part) : List Nat := (ps.map fun q => q.frames).flatten

/-- Every frame that a tenant, a shared frozen weight, a partner reservation or a recovery holds, or that firmware has still to zero. -/
def State.usedFrames (s : State) : List Nat :=
  (s.ten.map fun x => x.2.place.areas ++ x.2.place.packs.map (·.frame) ++
      (x.2.place.tensors.map fun t => partFrames t.parts).flatten).flatten ++
    (s.frozen.map fun z => partFrames z.parts).flatten ++ (s.fab.held.map fun r => r.frames).flatten ++
    s.mem.recoveries.map (·.staging) ++ s.mem.retired

/-! ### Start-up (R275, R276) -/

/-- A channel changes state (R270): 030Eh with the channel and the new state. -/
def State.channelState (s : State) (c st : Nat) : State :=
  ((s.wr (F.hbmChstateState c) st).setEvent F.hbmEventsMapout).event 0x30E .device [c, st]

/-- The dies' error-check-and-scrub results are read: at start-up, and once per scrub pass (R255). -/
def State.readDies (s : State) : State := { s with mem := { s.mem with dieRead := s.mem.dieNew, dieNew := [] } }

/-- The channels still in use that a durable map-out record names. -/
def State.recordedChannels (s : State) : List Nat :=
  (upto 0 192).filter fun c => (KMap.find s.journal.live (liveKey 3 c)).isSome && decide (s.rd (F.hbmChstateState c) < 2)

/-- Service firmware has read the durable map-out records: each channel named enters FAILING (R270, R275). -/
def State.recordsRead (s : State) : State :=
  if !s.has F.durStatusReady then s
  else s.recordedChannels.foldl (fun (s : State) c => if s.rd (F.hbmChstateState c) = 0 then s.channelState c 1 else s) s

/-- HBM_TRAINING_END (R275): channels that fail are FAILED_TRAINING, and TRAINED sets; service firmware reads the map-out records. -/
def State.trainingEnd (s : State) (failed : List (Fin 192)) : State :=
  if s.clk.released < 4 || s.has F.hbmStatusTrained then s
  else (((failed.foldl (fun s c => s.channelState c 3) s).wr F.hbmStatusTrained 1).readDies).recordsRead

def execHbmTrainingEnd (failed : List (Fin 192)) (s : State) : Host.Outcome State Fault Refusal :=
  .next (s.trainingEnd failed)

/-- The channels in use: live or FAILING. -/
def State.liveChannels (s : State) : List Nat := (upto 0 192).filter fun c => decide (s.rd (F.hbmChstateState c) < 2)

/-- Writes PCMAP from the channels in use, in ascending order, and LIVE_PC (R271, R276). -/
def State.buildMap (s : State) (channels : List Nat) : State :=
  let pcs := (channels.map fun c => [2 * c, 2 * c + 1]).flatten
  let s := (upto 0 384).foldl (fun s k => s.wr (F.hbmPcmapPc k) (pcs.getD k 0x1FF)) s
  s.wr F.hbmStatusLivePc pcs.length

/-- HBM_INIT_GO (R275, R276 steps 1 and 2): service firmware writes it once it has read the map-out records, and has written MAPOUT.GO
for each channel that they name. -/
def State.initGo (s : State) : State :=
  if !s.has F.hbmStatusTrained || s.has F.hbmStatusReady || s.has F.hbmStatusInitBusy || !s.has F.durStatusReady then s
  else
    let s := s.recordsRead
    let s := s.recordedChannels.foldl (fun (s : State) c => (s.wr F.hbmMapoutChannel c).channelState c 2) s
    let s := s.buildMap s.liveChannels
    ((upto 0 384).foldl (fun s w => s.setReg (.hbmClassmap w) 0) s).wr F.hbmStatusInitBusy 1

def execHbmInitGo (s : State) : Host.Outcome State Fault Refusal := .next s.initGo

/-- HBM_INIT_END (R276 steps 3 and 4): every granule is zero, CAPACITY reads P GiB and READY sets. What waits in the slices stays. -/
def State.initEnd (s : State) : State :=
  if !s.has F.hbmStatusInitBusy then s
  else
    let s := { s with mem := { s.mem with hbm := [], hbmPoison := [] } }
    let s := s.setReg .hbmCapacity (BitVec.ofNat 64 (s.rd F.hbmStatusLivePc * 2 ^ 30))
    (s.wr F.hbmStatusInitBusy 0).wr F.hbmStatusReady 1

def execHbmInitEnd (s : State) : Host.Outcome State Fault Refusal := .next s.initEnd

/-! ### Protection classes (R262, R264) -/

/-- Whether a frame of a group is in use: mapped, or firmware's own from the reservation of its regions on (R229). -/
def State.groupUsed (s : State) (g : Nat) : Bool :=
  s.usedFrames.any (fun f => f / 16 == g) || (decide (16 * g < systemFrames) && decide (9 < s.rd F.secBootStatusStage))

/-- PROTECTION_CLASS_CHANGE (R264): a group with no frame in use; its requests are held until the change ends. -/
def State.classChange (s : State) (g : Nat) (c : Bool) : State :=
  if 12288 ≤ g || s.groupUsed g then s
  else { s with mem := { s.mem with classNew := s.mem.classNew ++ [(g, c)] } }

def execProtectionClassChange (g : Nat) (corrected : Bool) (s : State) : Host.Outcome State Fault Refusal :=
  .next (s.classChange g corrected)

/-- CLASS_CHANGE_END (R264): the oldest change that runs ends. -/
def State.classChangeEnd (s : State) : State :=
  match s.mem.classNew with
  | [] => s
  | x :: _ => s.endClass x

def execClassChangeEnd (s : State) : Host.Outcome State Fault Refusal := .next s.classChangeEnd

/-! ### The metadata word and the corrected code (R261 to R263) -/

/-- The CRC-16 of a granule: over its address, then its data. -/
def granuleCrc (g : Nat) (d : List Byte) : Nat := crcOf 2 (leBytes 8 (64 * g) ++ d)

/-- The metadata word beside a granule: CRC-16 and MARK. -/
def State.metaWord (s : State) (g : Nat) : Word :=
  BitVec.ofNat 32 (granuleCrc g (cells s.mem.hbm (64 * g) 64) + (if KMap.get s.mem.hbmPoison g false then 0x5A5A else 0) * 2 ^ 16)

/-- Data symbol `j` of a granule: what pin `j` carries over the 16 beats, beat by beat from bit 0. -/
def pinSymbol (d : List Byte) (j : Nat) : Half :=
  BitVec.ofNat 16 (sumNat ((upto 0 16).map fun n => if bit (leNat ((d.drop (4 * n)).take 4)) j then 2 ^ n else 0))

/-- The 4-byte check of a granule of a corrected group, and where it lies in the group's check frame. -/
def State.granuleCheck (s : State) (g : Nat) : Word :=
  Config.checkSymbols ((upto 0 32).map fun j => pinSymbol (cells s.mem.hbm (64 * g) 64) j)

def checkPlace (g : Nat) : Nat :=
  let f := g / 32768
  (16 * (f / 16) + 15) * 2 ^ 21 + 4 * (32768 * (f % 16) + g % 32768)

/-! ### Findings (R265, R270) -/

/-- A channel's map-out record (R433): channel, state, and the capacity after the map-out. -/
def State.mapoutRecord (s : State) (c : Nat) : State :=
  s.journalOffer (firmwareRecord 3 0xFF c
    (leBytes 1 c ++ leBytes 1 1 ++ leBytes 8 ((s.reg .hbmCapacity).toNat - 2 ^ 31)))

/-- A live channel enters FAILING (R270, R271 step 1), which the health monitor takes as an input (R408). -/
def State.failing (s : State) (c : Nat) : State :=
  if s.rd (F.hbmChstateState c) = 0 then ((s.channelState c 1).mapoutRecord c).healthInput .hbmUe else s

/-- An uncorrectable finding on a channel (R265): the granule is poisoned, counted and reported; at UE_LIMIT the channel is FAILING. One
already poisoned is not counted again. -/
def State.hbmLostAt (s : State) (c g : Nat) : State :=
  if KMap.get s.mem.hbmPoison g false then s
  else
    let corr := s.corrected (64 * g)
    let s := s.hbmWrite g allHeld (zeros 64) true
    let s := (s.addSat (F.hbmChstateUe c) 1).count (channelUnit c) 5 1
    let s := (s.setReg .hbmUeAddr (BitVec.ofNat 64 (64 * g))).setEvent F.hbmEventsUe
    let s := s.event 0x30D .firmware [64 * g] |>.event 0x30D .health [64 * g]
    let s := if corr then s.healthInput .hbmUe else s
    let limit := s.rd F.hbmCtrlUeLimit
    if limit ≠ 0 ∧ limit ≤ s.rd (F.hbmChstateUe c) then s.failing c else s

/-- An uncorrectable finding at a granule. -/
def State.hbmLost (s : State) (g : Nat) : State := s.hbmLostAt (s.channelOf (64 * g)) g

/-- An error confined to one pin (R265): the code of a corrected group corrects it, which the channel's CE count shows; in a detect-only
group it is a CRC mismatch. -/
def State.hbmCorrected (s : State) (g : Nat) : State :=
  if s.corrected (64 * g) then
    let c := s.channelOf (64 * g)
    (s.addSat (F.hbmChstateCe c) 1).count (channelUnit c) 4 1
  else s.hbmLost g

/-- A metadata word as read (R261): a CRC that mismatches, or a MARK of no meaning, is an uncorrectable finding; MARK 5A5Ah makes the
granule poisoned. -/
def State.findWord (s : State) (g : Nat) (w : Word) : State :=
  let mark := bits w.toNat 16 16
  if bits w.toNat 0 16 ≠ granuleCrc g (cells s.mem.hbm (64 * g) 64) ∨ (mark ≠ 0 ∧ mark ≠ 0x5A5A) then s.hbmLost g
  else if mark = 0x5A5A then { s with mem := { s.mem with hbmPoison := KMap.set s.mem.hbmPoison g true false } }
  else s

/-- What a controller finds at a granule. -/
def State.find (s : State) (g : Nat) (f : Finding) : State :=
  match f with
  | .sound => s
  | .die =>
    let c := s.channelOf (64 * g)
    { s with mem := { s.mem with dieNew := KMap.put s.mem.dieNew c (KMap.get s.mem.dieNew c 0 + 1) } }
  | .corrected => s.hbmCorrected g
  | .uncorrectable => s.hbmLost g
  | .word w => s.findWord g w

/-- The findings on a line's four granules. -/
def State.findLine (s : State) (line : Nat) (f : List Finding) : State :=
  (upto 0 4).foldl (fun s i => s.find (4 * line + i) (f.getD i .sound)) s

/-- SCRUB_PASS_END (R255, R267): SCRUB_PASS sets, the dies' results are read, and the UE counts of the pass start again. With SCRUB_MIN 0
the scrubber stands (R274). -/
def State.scrubPassEnd (s : State) : State :=
  if s.rd F.hbmCtrlScrubMin = 0 then s
  else (((upto 0 192).foldl (fun s c => s.wr (F.hbmChstateUe c) 0) s).setEvent F.hbmEventsScrubPass).readDies

def execScrubPassEnd (s : State) : Host.Outcome State Fault Refusal := .next s.scrubPassEnd

/-- HBM_TEMP_READ (R255): each 1 ms; above 85 °C the refresh interval is halved and THERMAL sets; the reading goes to the health
monitor, which takes one above the warning limit of R503. -/
def State.hbmTemp (s : State) (k : Nat) (t : Int) : State :=
  if 850 < t then
    let s := if s.mem.warm.contains k then s
      else { s with mem := { s.mem with warm := k :: s.mem.warm } }.setEvent F.hbmEventsThermal
    if 900 < t then s.healthInput .thermalWarn else s
  else { s with mem := { s.mem with warm := s.mem.warm.filter fun j => j != k } }

def execHbmTempRead (stack : Fin 12) (t : Int) (s : State) : Host.Outcome State Fault Refusal := .next (s.hbmTemp stack t)

/-- HBM_REFRESH (R255): a bank is refreshed. Its length in cycles is time, which the model leaves free. -/
def State.refresh (s : State) (ch : Nat) : State := (s.count (channelUnit ch) 6 s.draw).drawn

def execHbmRefresh (ch : Fin 192) (_bank : Nat) (s : State) : Host.Outcome State Fault Refusal := .next (s.refresh ch)

/-- HEALTH_INPUT (R408): an input of the health monitor occurs. Of a channel that the monitor has decided to map out, service
firmware requests FAILING (R270). -/
def State.healthDecides (s : State) (h : HealthEvent) : State :=
  let s := s.healthInput h.input
  match h.failing with
  | some c => s.failing c
  | none => s

def execHealthInput (h : HealthEvent) (s : State) : Host.Outcome State Fault Refusal := .next (s.healthDecides h)

/-! ### Markers -/

/-- Every unit that translates tenant addresses (R214), by identifier. -/
def State.translators : List Nat :=
  (upto 0 192).map tumblerUnit ++ [arrayUnit] ++ (upto 0 4).map spindleUnit ++ (upto 0 4).map updateUnit ++
    (upto 0 16).map engineUnit

/-- Sends a message to every unit that translates. -/
def State.markAll (s : State) (m : TreeMsg) : State := State.translators.foldl (fun s u => s.send u m) s

end Sys2Proof.Machine
end

