-- ==== Sys2Proof/Machine/Translate.lean ====
section
/-! DEFINITION. Tenant virtual addresses (Address spaces and memory ordering): page tables in HBM, the walk, the isolation
check, translation caches, mapping changes and their markers. -/

namespace Sys2Proof.Machine

/-! ### Where service firmware keeps its tables (R211, R212) -/

/-- The keeper's region: frame 0, whose group is corrected (R229). -/
def keeperFrame : Nat := 0

/-- The `k`-th frame of the page tables: frames of corrected groups, the first 15 of each (R262). -/
def tableFrame (k : Nat) : Nat := 16 * (1 + k / 15) + k % 15

/-- A tenant's level-1 root. -/
def rootOf (t : Nat) : Nat := tableFrame (2 * t) * 2 ^ 21

/-- The level-2 table under level-1 index `i` of a tenant. -/
def level2Of (t i : Nat) : Nat := tableFrame (2 * t + 1) * 2 ^ 21 + 4096 * i

/-- The first virtual address that the level-2 tables do not reach. -/
def vaEnd : Nat := 2 ^ 39

/-! ### Entries (R210) -/

/-- A level-2 entry for a frame at a physical address. -/
def pageEntry (pa : Nat) (w exec : Bool) : Nat := pa + 8 * b2n exec + 4 * b2n w + 2 + 1

/-- The physical address of a frame (R212). -/
def frameAddr (f : Nat) : Nat := if f < 196608 then f * 2 ^ 21 else windowBase + (f - 196608) * 2 ^ 21

/-- The frame of a physical address (R212); none outside HBM and the scratchpad window. -/
def frameOf (a : Nat) : Option Nat :=
  if inHbm a then some (a / 2 ^ 21) else if inWindow a then some (196608 + (a - windowBase) / 2 ^ 21) else none

/-- Whether a level-1 entry may be used: V, and no reserved bit. -/
def level1Ok (e : Nat) : Bool :=
  bit e 0 && bits e 63 48 == 0 && bits e 11 4 == 0 && (if bit e 1 then bits e 29 12 == 0 else bits e 3 2 == 0)

/-- Whether a level-2 entry may be used. -/
def level2Ok (e : Nat) : Bool := bit e 0 && bit e 1 && bits e 63 48 == 0 && bits e 20 4 == 0

/-! ### The isolation table (R212, R213) -/

/-- Whether a tenant may use a frame: its read bit, and its write bit where the page is writable. -/
def State.isoAllows (s : State) (f t : Nat) (w : Bool) : Bool :=
  let e := s.isoEntry f
  bit e t && (!w || bit e (16 + t))

/-! ### The walk (R210, R213, R214, R218) -/

/-- What a translation gives: a physical address, or a fault code with the physical address reached. -/
inductive Xlat where
  | pa (a : Nat)
  | fault (code pa : Nat)
  deriving DecidableEq, Repr

/-- What a walk gives: a translation of the address's 2 MiB, or a fault. -/
inductive Walk where
  | entry (e : Tlb)
  | fault (code pa : Nat)
  deriving DecidableEq, Repr

/-- Where the isolation entry of a frame stands. -/
def isoAddr (f : Nat) : Nat := keeperFrame * 2 ^ 21 + 4 * f

/-- The isolation check of a page of `n` frames at `pa`: 0, or the fault's code and the address reached. One outside HBM and the window always
fails; a poisoned entry is 0304h at the entry. -/
def State.isoCheck (s : State) (t pa n : Nat) (w : Bool) : Nat × Nat :=
  match frameOf pa with
  | none => (0x307, pa)
  | some f =>
    match (upto f n).find? fun i => s.poisoned (isoAddr i) 4 with
    | some i => (0x304, isoAddr i)
    | none => if (upto f n).all fun i => s.isoAllows i t w then (0, pa) else (0x307, pa)

/-- The translation of an address through a page that starts at `page` and covers `n` frames from `pa`. -/
def State.leaf (s : State) (t va e pa n : Nat) : Walk :=
  match s.isoCheck t pa n (bit e 2) with
  | (0, _) =>
    .entry { tenant := t, page := va / 2 ^ 21 / n * n, frame := (frameOf pa).getD 0, w := bit e 2, exec := bit e 3, big := n != 1 }
  | (c, a) => .fault c a

/-- A walk of a tenant's tables: two levels, then the isolation entries. -/
def State.walk (s : State) (t va : Nat) : Walk :=
  if va < 2 ^ 21 ∨ 2 ^ 48 ≤ va then .fault 0x301 0
  else
    let a1 := rootOf t + 8 * (va / 2 ^ 30)
    if s.poisoned a1 8 then .fault 0x304 a1
    else
      let e1 := leNat (s.read a1 8)
      if !level1Ok e1 then .fault 0x301 0
      else if bit e1 1 then s.leaf t va e1 (bits e1 47 30 * 2 ^ 30) 512
      else
        let a2 := bits e1 47 12 * 4096 + 8 * (va / 2 ^ 21 % 512)
        if s.poisoned a2 8 then .fault 0x304 a2
        else
          let e2 := leNat (s.read a2 8)
          if level2Ok e2 then s.leaf t va e2 (bits e2 47 21 * 2 ^ 21) 1 else .fault 0x301 0

/-! ### Translation caches (R214) -/

/-- The translations that a unit holds. -/
def State.tlbOf (s : State) (u : Nat) : List Tlb := KMap.get s.mem.tlb u []

def State.setTlb (s : State) (u : Nat) (x : List Tlb) : State :=
  { s with mem := { s.mem with tlb := KMap.set s.mem.tlb u x [] } }

/-- The 2 MiB pages, and the frames, that an entry covers. -/
def Tlb.span (e : Tlb) : Nat := if e.big then 512 else 1

/-- Whether `x` lies in the `n` from `a` on. -/
def inRun (a n x : Nat) : Bool := decide (a ≤ x ∧ x < a + n)

/-- Whether two runs meet. -/
def runsMeet (a n b m : Nat) : Bool := decide (a < b + m ∧ b < a + n)

/-- A unit's entry for an address. -/
def State.tlbFind (s : State) (u t va : Nat) : Option Tlb :=
  (s.tlbOf u).find? fun e => e.tenant == t && inRun e.page e.span (va / 2 ^ 21)

/-- Caches a translation in a cache of `cap` entries, the oldest going. -/
def State.tlbPut (s : State) (u cap : Nat) (e : Tlb) : State := s.setTlb u ((e :: s.tlbOf u).take cap)

/-- Why an access through an entry ends (R211, R217): the page's rights, then the physical address. -/
def State.accessFault (s : State) (e : Tlb) (va : Nat) (write fetch : Bool) : Xlat :=
  let pa := frameAddr (e.frame + (va / 2 ^ 21 - e.page)) + va % 2 ^ 21
  if write && !e.w then .fault 0x302 pa
  else if fetch && !e.exec then .fault 0x308 pa
  else
    match s.paFault pa with
    | 0 => .pa pa
    | c => .fault c pa

/-- A unit translates an address: from its cache, or by a walk that is cached. -/
def State.translate (s : State) (u cap t va : Nat) (write fetch : Bool) : State × Xlat :=
  match s.tlbFind u t va with
  | some e => (s, s.accessFault e va write fetch)
  | none =>
    match s.walk t va with
    | .fault c pa => (s, .fault c pa)
    | .entry e => (s.tlbPut u cap e, s.accessFault e va write fetch)

/-- The pieces of a span that lie in one 2 MiB page each: virtual address and length. -/
def pagePieces (va n : Nat) : List (Nat × Nat) :=
  (upto (va / 2 ^ 21) ((va + n - 1) / 2 ^ 21 + 1 - va / 2 ^ 21)).map fun p =>
    let a := max va (p * 2 ^ 21)
    (a, min (va + n) ((p + 1) * 2 ^ 21) - a)

/-- What a span translates to: physical pieces in order, or the first fault with its virtual address. -/
inductive Spans where
  | ok (ps : List (Nat × Nat))
  | fault (code va pa : Nat)
  deriving DecidableEq, Repr

/-- Translates pieces in order. -/
def State.translatePieces (s : State) (u cap t : Nat) (write : Bool) : List (Nat × Nat) → State × Spans
  | [] => (s, .ok [])
  | (va, n) :: rest =>
    match s.translate u cap t va write false with
    | (s, .fault c pa) => (s, .fault c va pa)
    | (s, .pa a) =>
      -- a page of the scratchpad window covers two regions (R235)
      match s.paFault (a + n - 1) with
      | 0 =>
        match s.translatePieces u cap t write rest with
        | (s, .ok ps) => (s, .ok ((a, n) :: ps))
        | x => x
      | c =>
        let b := (a + n - 1) / 2 ^ 20 * 2 ^ 20
        (s, .fault c (va + (b - a)) b)

/-- Translates a span of a tenant's space for a unit; an empty one needs nothing. -/
def State.translateSpan (s : State) (u cap t va n : Nat) (write : Bool) : State × Spans :=
  if n = 0 then (s, .ok []) else s.translatePieces u cap t write (pagePieces va n)

/-- Translates spans in order; the first fault's code, virtual and physical address. -/
def State.checkSpans (s : State) (u cap t : Nat) (write : Bool) : List (Nat × Nat) → State × Option (Nat × Nat × Nat)
  | [] => (s, none)
  | (va, n) :: rest =>
    match s.translateSpan u cap t va n write with
    | (s, .fault c a pa) => (s, some (c, a, pa))
    | (s, .ok _) => s.checkSpans u cap t write rest

/-- The bytes of physical pieces. -/
def State.readSpans (s : State) (ps : List (Nat × Nat)) : List Byte := (ps.map fun p => s.read p.1 p.2).flatten

/-- Whether physical pieces touch poison. -/
def State.spansPoisoned (s : State) (ps : List (Nat × Nat)) : Bool := ps.any fun p => s.poisoned p.1 p.2

/-- What reading physical pieces does to the store. -/
def State.touchSpans (s : State) (ps : List (Nat × Nat)) (t u : Nat) (streaming : Bool) : State :=
  ps.foldl (fun s p => s.readAs p.1 p.2 t u streaming) s

/-- Writes bytes to physical pieces. -/
def State.writeSpans (s : State) : List (Nat × Nat) → List Byte → State
  | [], _ => s
  | (a, n) :: ps, bs => (s.write a (bs.take n)).writeSpans ps (bs.drop n)

/-- An engine's read of a tenant's span: the bytes, or a memory fault code with its addresses; poison is 0304h (R251). -/
inductive Fetched where
  | ok (bs : List Byte)
  | fault (code va pa : Nat)
  deriving DecidableEq, Repr

/-- A unit reads a span of a tenant's space at the slices (R219, R223). -/
def State.fetchSpan (s : State) (u cap t va n : Nat) (streaming : Bool) : State × Fetched :=
  match s.translateSpan u cap t va n false with
  | (s, .fault c a pa) => (s, .fault c a pa)
  | (s, .ok ps) =>
    let s := s.touchSpans ps t u streaming
    if s.spansPoisoned ps then (s, .fault 0x304 va (ps.headD (0, 0)).1) else (s, .ok (s.readSpans ps))

/-- A unit writes a span of a tenant's space; 0, or a memory fault code with its addresses, nothing written. -/
def State.storeSpan (s : State) (u cap t va : Nat) (bs : List Byte) : State × Fetched :=
  match s.translateSpan u cap t va bs.length true with
  | (s, .fault c a pa) => (s, .fault c a pa)
  | (s, .ok ps) => (s.writeSpans ps bs, .ok [])

/-- Cache sizes of the units (R214). -/
def tlbTumbler : Nat := 64
def tlbArray : Nat := 256
def tlbSpindle : Nat := 32
def tlbUpdate : Nat := 64
def tlbEngine : Nat := 32

/-! ### Service firmware's view: the tables it writes (R211, R215) -/

/-- Maps a 2 MiB page of a tenant to a frame; no part lies where the level-2 tables do not reach. -/
def State.mapPage (s : State) (t va f : Nat) (w exec : Bool) : State :=
  if vaEnd ≤ va then s
  else
    let i := va / 2 ^ 30
    let s := s.write (rootOf t + 8 * i) (leBytes 8 (level2Of t i + 1))
    s.write (level2Of t i + 8 * (va / 2 ^ 21 % 512)) (leBytes 8 (pageEntry (frameAddr f) w exec))

/-- Unmaps a 2 MiB page of a tenant. -/
def State.unmapPage (s : State) (t va : Nat) : State :=
  if vaEnd ≤ va then s else s.write (level2Of t (va / 2 ^ 30) + 8 * (va / 2 ^ 21 % 512)) (zeros 8)

/-- Whether the first 512 of some frames make one 1 GiB page of HBM. -/
def leafFrames (fs : List Nat) : Bool :=
  match fs with
  | [] => false
  | f :: _ => f % 512 == 0 && decide (f + 512 ≤ 196608) && decide (512 ≤ fs.length) && (fs.take 512 == upto f 512)

/-- Maps frames at rising pages, `fuel` at least their number; a part above 1 GiB uses 1 GiB pages where they fit (R283). -/
def State.mapPages (s : State) (fuel t va : Nat) (fs : List Nat) (big w exec : Bool) : State :=
  match fuel with
  | 0 => s
  | fuel + 1 =>
    match fs with
    | [] => s
    | f :: rest =>
      if big && va % 2 ^ 30 == 0 && leafFrames fs then
        (s.write (rootOf t + 8 * (va / 2 ^ 30)) (leBytes 8 (pageEntry (frameAddr f) w exec))).mapPages fuel t (va + 2 ^ 30)
          (fs.drop 512) big w exec
      else (s.mapPage t va f w exec).mapPages fuel t (va + 2 ^ 21) rest big w exec

/-- Unmaps `n` pages, and sends the translation marker for them (R215). A 1 GiB page among them goes as a whole. -/
def State.unmapPages (s : State) (t va n : Nat) : State :=
  let s := (upto 0 n).foldl (fun s i => s.unmapPage t (va + i * 2 ^ 21)) s
  let s := (upto (va / 2 ^ 30) ((va + n * 2 ^ 21 + 2 ^ 30 - 1) / 2 ^ 30 - va / 2 ^ 30)).foldl
    (fun s i => if bit (leNat (s.read (rootOf t + 8 * i) 8)) 1 then s.write (rootOf t + 8 * i) (zeros 8) else s) s
  s.markAll (.translation t (va / 2 ^ 21) n)

/-- Frees a tenant's page tables (R230 step 3). -/
def State.freeTables (s : State) (t : Nat) : State :=
  (s.zeroRange (rootOf t) (2 ^ 21)).zeroRange (tableFrame (2 * t + 1) * 2 ^ 21) (2 ^ 21)

/-- Whether some unit still holds a translation onto a frame: it is not to be reused yet (R215). -/
def State.frameCached (s : State) (f : Nat) : Bool := s.mem.tlb.any fun x => x.2.any fun e => inRun e.frame e.span f

/-! ### The keeper's grants (R212, R229) -/

/-- GRANT of write or read on a frame to a tenant (R229): refused with a write bit beside another tenant's read, and before the
keeper has reserved the table's region. -/
def State.grantOk (s : State) (f t : Nat) (write : Bool) : Bool :=
  let e := s.isoEntry f
  if write then (e % 2 ^ 16) - e % 2 ^ 16 / 2 ^ t % 2 * 2 ^ t == 0 else true

def State.grantFrame (s : State) (t : Nat) (write : Bool) (f : Nat) : State :=
  let e := s.isoEntry f
  s.setIso f (Nat.lor e (if write then 2 ^ t + 2 ^ (16 + t) else 2 ^ t))

/-- The frames that isolation entries stand for (R212). -/
def frameEnd : Nat := 196608 + 512

/-- An isolation entry without a tenant. -/
def isoWithout (t v : Nat) : Nat := v - v / 2 ^ t % 2 * 2 ^ t - v / 2 ^ (16 + t) % 2 * 2 ^ (16 + t)

/-- Takes a tenant's bits from a frame. -/
def State.revokeFrame (s : State) (t f : Nat) : State := s.setIso f (isoWithout t (s.isoEntry f))

/-- Runs of consecutive frames: first frame and count. -/
def frameRuns : List Nat → List (Nat × Nat)
  | [] => []
  | f :: fs =>
    match frameRuns fs with
    | (g, n) :: rest => if g = f + 1 then (f, n + 1) :: rest else (f, 1) :: (g, n) :: rest
    | [] => [(f, 1)]

/-- Injects the isolation markers for frames whose entries have changed (R215). -/
def State.markFrames (s : State) (fs : List Nat) : State := (frameRuns fs).foldl (fun s r => s.markAll (.isolation r.1 r.2)) s

/-- Grants frames to a tenant, and injects the markers. -/
def State.grantFrames (s : State) (t : Nat) (write : Bool) (fs : List Nat) : State :=
  (fs.foldl (fun s f => s.grantFrame t write f) s).markFrames fs

/-- Revokes frames, and injects the markers. -/
def State.revokeFrames (s : State) (t : Nat) (fs : List Nat) : State := (fs.foldl (fun s f => s.revokeFrame t f) s).markFrames fs

/-! ### Markers at a unit (R215) -/

/-- The entries of a cache that a message leaves. -/
def tlbAfter (m : TreeMsg) (x : List Tlb) : List Tlb :=
  match m with
  | .translation t p n => x.filter fun e => !(e.tenant == t && runsMeet p n e.page e.span)
  | .isolation f n => x.filter fun e => !runsMeet f n e.frame e.span
  | _ => x

/-- Whether an isolation marker for a frame still stands at some unit. -/
def State.markerDue (s : State) (f : Nat) : Bool :=
  s.tree.any fun x => x.2.any fun m => match m with | .isolation g n => inRun g n f | _ => false

/-- Firmware lets frames go: they are zeroed once their markers have passed every unit (R215, R216). -/
def State.retire (s : State) (fs : List Nat) : State :=
  { s with mem := { s.mem with retired := s.mem.retired ++ fs.filter fun f => !s.mem.retired.contains f } }

/-- Zeroes the frames let go that no unit can reach any longer, and gives them back (R215 step 3, R230). -/
def State.settleRetired (s : State) : State :=
  let go := s.mem.retired.filter fun f => !s.markerDue f && !s.frameCached f
  if go.isEmpty then s
  else
    let s := go.foldl (fun (s : State) f => s.zeroRange (frameAddr f) (2 ^ 21)) s
    { s with mem := { s.mem with retired := s.mem.retired.filter fun f => !go.contains f } }

/-- A unit forwards the marker that stands first at it, dropping those entries. -/
def State.forwardMarker (s : State) (u : Nat) (m : TreeMsg) : State :=
  let s := (s.popMsg u).setTlb u (tlbAfter m (s.tlbOf u))
  State.settleRetired (match m with
  | .translation t p _ => s.emit (.marker u 2 (t * 2 ^ 32 + p))
  | .isolation f _ => s.emit (.marker u 3 f)
  | _ => s)

/-- Whether a tumbler has an access on its way that an old entry of a range has translated. -/
def State.usesRange (s : State) (unit t p n : Nat) : Bool :=
  s.tum.any fun x => tumblerUnit x.1 == unit && x.2.acc.any fun a =>
    a.tenant == t && a.walks.isEmpty && !a.kind.isRemote && a.lanes.any fun l => inRun p n (l.va / 2 ^ 21)

/-- Whether a tumbler has an access on its way that an entry onto a range of frames has translated. -/
def State.usesFrames (s : State) (unit f n : Nat) : Bool :=
  s.tum.any fun x => tumblerUnit x.1 == unit && x.2.acc.any fun a =>
    a.walks.isEmpty && !a.kind.isRemote && a.lanes.any fun l =>
      match s.tlbFind unit a.tenant l.va with
      | some e => runsMeet f n e.frame e.span
      | none => false

/-- Whether a unit has completed what earlier messages caused, so that it may forward a message: a marker (R19, R215). -/
def State.mayForward (s : State) (u : Nat) (m : TreeMsg) : Bool :=
  match m with
  | .translation t p n => !s.usesRange u t p n
  | .isolation f n => !s.usesFrames u f n
  | .marker _ _ => !s.busyAt u
  | .snapshot _ => true
  | _ => false

/-- A unit forwards a marker that stands first at it. -/
def State.forward (s : State) (u : Nat) (m : TreeMsg) : State :=
  match m with
  | .marker k x => (s.popMsg u).emit (.marker u k x)
  | .snapshot _ => s.snapshotMarker u
  | m => s.forwardMarker u m

/-- A unit handles messages in order: before one it forwards the markers that stand before it and satisfy a test, while it may (R19). -/
def State.passMarkersIf (p : TreeMsg → Bool) (u : Nat) : Nat → State → State
  | 0, s => s
  | fuel + 1, s =>
    match s.inbox u with
    | m :: _ => if p m && s.mayForward u m then State.passMarkersIf p u fuel (s.forward u m) else s
    | [] => s

def State.passMarkers (s : State) (u : Nat) : State := State.passMarkersIf (fun _ => true) u (s.inbox u).length s

/-- Firmware waits for the markers on their way: every unit that translates forwards what it may. -/
def State.passAll (s : State) : State := State.translators.foldl State.passMarkers s

end Sys2Proof.Machine
end

