-- ==== Sys2Proof/Machine/Rings.lean ====
section
/-! DEFINITION. The rings (Host interface, queues and tenants): staging, the scheduler's turns, starting and finishing
commands, completion records, halting, and the doorbells. -/

namespace Sys2Proof.Machine

/-! ### Rings by owner

A ring's owner is a tenant, or 16 for the admin ring. -/

/-- The owner number of the admin ring. -/
def adminOwner : Nat := 16

def State.sq? (s : State) (o r : Nat) : Option Sq :=
  if o = adminOwner then (if s.hif.adminOn then some s.hif.adminSq else none) else KMap.find (s.tenant o).sqs r

def State.cq? (s : State) (o r : Nat) : Option Cq :=
  if o = adminOwner then (if s.hif.adminOn then some s.hif.adminCq else none) else KMap.find (s.tenant o).cqs r

/-- The SQs halted of a tenant, as TEN.STATE shows them (R382). -/
def State.showHalted (s : State) (o : Nat) : State :=
  if o < 16 then
    s.wr (F.tenStateHalted o) (min 255 ((s.tenant o).sqs.filter fun x => x.2.halted.isSome).length)
  else s.wr F.hifStatusAdminRun (b2n (s.hif.adminOn && s.hif.adminSq.halted.isNone))

def State.setSq (s : State) (o r : Nat) (x : Sq) : State :=
  if o = adminOwner then
    ({ s with hif := { s.hif with adminSq := x } }.wr F.hifAdminHeadsSqHead x.head).showHalted o
  else (s.modTenant o fun t => { t with sqs := KMap.put t.sqs r x }).showHalted o

def State.setCq (s : State) (o r : Nat) (x : Cq) : State :=
  if o = adminOwner then { s with hif := { s.hif with adminCq := x } }.wr F.hifAdminHeadsCqTail x.tail
  else s.modTenant o fun t => { t with cqs := KMap.put t.cqs r x }

def Sq.size (q : Sq) : Nat := 2 ^ q.log2
def Cq.size (q : Cq) : Nat := 2 ^ q.log2

/-! ### Entries (R363, R365, R366) -/

def Entry.opc (e : Entry) : Nat := fld e.bytes 0 1
def Entry.flags (e : Entry) : Nat := fld e.bytes 1 1
def Entry.cmdId (e : Entry) : Nat := fld e.bytes 2 2
def Entry.barrier (e : Entry) : Bool := bit e.flags 0
def Entry.notify (e : Entry) : Bool := bit e.flags 1
def Entry.silent (e : Entry) : Bool := bit e.flags 2

/-- A field of an entry's ARGS. -/
def Entry.arg (e : Entry) (off n : Nat) : Nat := fld e.bytes (8 + off) n

/-- Whether a command has ended. -/
def Entry.ended (e : Entry) : Bool := e.phase == .finished || e.phase == .recorded

/-- The fields of each opcode's ARGS, offset and size; none for an opcode outside the tables. -/
def argFields (opc : Nat) : Option (List (Nat × Nat)) :=
  match opc with
  | 0x00 => some []
  | 0x01 => some [(0, 8), (8, 4)]
  | 0x02 => some [(0, 8), (8, 8), (0x10, 4), (0x14, 1)]
  | 0x03 => some [(0, 8), (8, 8), (0x10, 1), (0x14, 4)]
  | 0x04 => some [(0, 8), (8, 16)]
  | 0x05 => some [(0, 8)]
  | 0x10 => some [(0, 8)]
  | 0x11 => some [(0, 8)]
  | 0x12 => some [(0, 8)]
  | 0x13 => some [(0, 2), (4, 4), (8, 6)]
  | 0x18 => some [(0, 8)]
  | 0x19 => some [(0, 4)]
  | 0x1A => some [(0, 4), (8, 8), (0x10, 4)]
  | 0x1B => some [(0, 4), (8, 16)]
  | 0x1C => some [(0, 4), (4, 1), (5, 1), (8, 8)]
  | 0x1D => some [(0, 8), (8, 8)]
  | 0x20 => some [(0, 8)]
  | 0x21 => some [(0, 1), (1, 1), (2, 2)]
  | 0x22 => some [(0, 1)]
  | 0x30 => some [(0, 1), (1, 1), (2, 2), (4, 2)]
  | 0x80 => some [(0, 8)]
  | 0x81 => some [(0, 1)]
  | 0x82 => some [(0, 1), (1, 1), (2, 1), (8, 8)]
  | 0x83 => some [(0, 1), (1, 1), (2, 1), (3, 1), (4, 1), (8, 8)]
  | 0x84 => some [(0, 1), (1, 1), (2, 1)]
  | 0x85 => some [(0, 1), (8, 8)]
  | 0x86 => some [(0, 1), (8, 1), (9, 1), (10, 2), (12, 2)]
  | _ => none

/-- Whether a ring's owner accepts an opcode (R365, R366). -/
def opcodeOk (o opc : Nat) : Bool := (argFields opc).isSome && (decide (opc < 0x80) == decide (o < 16))

/-- Whether an entry's reserved fields are 0 (R363): FLAGS bits 7:3, offset 04h, and what ARGS does not name. -/
def Entry.reservedOk (e : Entry) : Bool :=
  let fs := (argFields e.opc).getD []
  bits e.flags 7 3 == 0 && fld e.bytes 4 4 == 0 &&
    (upto 0 56).all fun i => fs.any (fun f => decide (f.1 ≤ i ∧ i < f.1 + f.2)) || e.arg i 1 == 0

/-- The commands whose Barrier column reads "always" (R365). -/
def alwaysBarrier (opc : Nat) : Bool := opc == 0x10 || opc == 0x11 || opc == 0x12 || opc == 0x13 || opc == 0x1D

/-- An entry of a ring by the command's number. -/
def Sq.entry (q : Sq) (cid : Nat) : Option Entry := q.entries.find? fun e => e.cid == cid

/-- A ring with one entry changed. -/
def Sq.modEntry (q : Sq) (cid : Nat) (f : Entry → Entry) : Sq :=
  { q with entries := q.entries.map fun e => if e.cid = cid then f e else e }

def State.modEntry (s : State) (o r cid : Nat) (f : Entry → Entry) : State :=
  match s.sq? o r with
  | some q => s.setSq o r (q.modEntry cid f)
  | none => s

/-- A command's entry. -/
def State.entry? (s : State) (o r cid : Nat) : Option Entry := (s.sq? o r).bind fun q => q.entry cid

/-! ### Statuses (R371, R372) -/

/-- Kinds of a completion status. -/
inductive StatusKind where
  | success | warning | outcome | fault
  deriving DecidableEq, Repr

/-- The kind of a status that a command of an opcode ends with. -/
def statusKind (opc st : Nat) : StatusKind :=
  if st = 0 then .success
  else if st = 0x603 then .warning
  else if st = 0x604 ∨ st = 0x60C then .outcome
  else if (opc = 4 ∨ opc = 5) ∧ (st = 0x401 ∨ st = 0x402 ∨ st = 0x405) then .outcome
  -- a WAIT's own codes are all outcomes; a memory or queue-class fault of it is a fault
  else if opc = 3 ∧ !(0x601 ≤ st ∧ st ≤ 0x610) ∧ !(0x301 ≤ st ∧ st ≤ 0x308) then .outcome
  else if opc = 0x11 ∧ st = 0x203 then .outcome
  else if 0x18 ≤ opc ∧ opc ≤ 0x1C ∧ st = 0x317 then .outcome
  else .fault

/-! ### Finishing (R361, R363) -/

/-- Ends one command: its record waits at the CQ; with SILENT only a status other than 0 has one. A command that has ended is not ended
again. -/
def State.finishOne (s : State) (o r cid status res0 res1 : Nat) : State :=
  match s.sq? o r with
  | none => s
  | some q =>
    match q.entry cid with
    | none => s
    | some e =>
      if e.ended then s
      else
        let quiet := e.silent && status == 0
        let s := s.setSq o r (q.modEntry cid fun e =>
          { e with phase := if quiet then .recorded else .finished, status := status, result0 := res0, result1 := res1 })
        if quiet then s
        else
          match s.cq? o q.cq with
          | some c => s.setCq o q.cq { c with waiting := c.waiting ++ [(r, cid)] }
          | none => s

/-- The WAIT commands whose condition has held end, in the order in which it did (R339). -/
def State.settleWaits (s : State) : State :=
  let done := s.waits.filter fun w => w.met.isSome
  if done.isEmpty then s
  else
    done.foldl (fun (s : State) w => match w.met with | some m => s.finishOne w.tenant w.ring w.cid m.1 m.2 0 | none => s)
      { s with waits := s.waits.filter fun w => w.met.isNone }

/-- A command ends, behind the waits that were met before. -/
def State.finish (s : State) (o r cid status res0 res1 : Nat) : State := s.settleWaits.finishOne o r cid status res0 res1

/-- A command whose failure wrote fault entries (R376). -/
def State.markFaults (s : State) (o r cid : Nat) : State := s.modEntry o r cid fun e => { e with faults := true }

/-- A completion record (R363). -/
def State.record (s : State) (o r head : Nat) (e : Entry) (phase : Bool) : List Byte :=
  leBytes 2 e.status ++ leBytes 2 e.cmdId ++ leBytes 2 head ++ leBytes 1 (if o = adminOwner then 0xFF else r) ++
    leBytes 1 (b2n phase + 2 * b2n (statusKind e.opc e.status == .warning) + 4 * b2n e.faults) ++
    leBytes 8 e.result0 ++ leBytes 8 e.result1 ++ leBytes 8 s.tag

/-- Halts a ring (R370). -/
def State.halt (s : State) (o r st : Nat) : State :=
  match s.sq? o r with
  | none => s
  | some q =>
    let s := s.setSq o r { q with halted := some st }
    if o = adminOwner then s.setEvent F.hifEventsAdminHalt else s

/-- An ABORT whose targets all have their records ends (R368). -/
def State.closeAborts (s : State) : State :=
  let done := s.hif.aborts.filter fun j => j.marks.isEmpty && j.left.isEmpty
  let s := { s with hif := { s.hif with aborts := s.hif.aborts.filter fun j => !(j.marks.isEmpty && j.left.isEmpty) } }
  done.foldl (fun s j => s.finish j.tenant j.ring j.cid j.status j.result0 j.result1) s

/-- A command's record has been written. -/
def State.recorded (s : State) (cid : Nat) : State :=
  { s with hif := { s.hif with aborts := s.hif.aborts.map fun (j : AbortJob) => { j with left := j.left.filter fun c => c != cid } } }.closeAborts

/-- The admin ring stops once idle after ENABLE has been cleared (R382). -/
def State.adminIdle (s : State) : State :=
  if s.hif.adminOn && !s.has F.hifAdminCfgEnable && s.hif.adminSq.head == s.hif.adminSq.tail &&
      s.hif.adminSq.entries.all fun e => e.phase == .recorded then
    { s with hif := { s.hif with adminOn := false } }.showHalted adminOwner
  else s

/-- Writes the record of the first command that waits at a CQ (R361), when a slot is free and the link is up. A fault status
halts its SQ; NOTIFY raises the CQ's source. `ok` says whether the write reached the host. -/
def State.recordWrite (s : State) (o c : Nat) (ok : Bool) : State :=
  let s := s.settleWaits
  match s.cq? o c with
  | none => s
  | some q =>
    match q.waiting with
    | [] => s
    | (r, cid) :: rest =>
      if q.used = q.size ∨ !s.has F.hifStatusLinkUp then s
      else
        match s.entry? o r cid with
        | none => s.setCq o c { q with waiting := rest }
        | some e =>
          let head := match s.sq? o r with | some x => x.head | none => 0
          let s' := if ok then s.hostWrite (q.base + 32 * q.tail) (s.record o r head e q.phase)
            else s.setEvent F.hifEventsHostAccess
          let wrap := q.tail + 1 == q.size
          let s' := s'.setCq o c
            { q with waiting := rest, used := q.used + 1, tail := if wrap then 0 else q.tail + 1, phase := q.phase != wrap }
          let s' := (s'.modEntry o r cid fun e => { e with phase := .recorded }).drawn
          let s' := if e.notify then s'.raise (if o = adminOwner then 0x410 else 0x40 * o + c) else s'
          let s' := if statusKind e.opc e.status = .fault then s'.halt o r e.status else s'
          (s'.recorded cid).adminIdle

/-! ### Staging (R360) -/

/-- How many entries the next fetch brings: at most 16, and it does not wrap. -/
def Sq.fetchCount (q : Sq) : Nat := min 16 (min ((q.tail + q.size - q.head) % q.size) (q.size - q.head))

/-- Stages one entry: one that an ABORT has marked ends ABORTED without starting. -/
def State.stageEntry (s : State) (o r : Nat) (bytes : List Byte) : State :=
  match s.sq? o r with
  | none => s
  | some q =>
    let cid := s.hif.nextCid
    let idx := q.head
    let e : Entry :=
      { cid := cid, idx := idx, bytes := bytes, phase := .staged, status := 0, result0 := 0, result1 := 0, faults := false }
    let marked := q.marked.contains idx
    let s := { s with hif := { s.hif with
      nextCid := cid + 1
      aborts := s.hif.aborts.map fun (j : AbortJob) =>
        if j.targetTenant = o ∧ j.marks.contains (r, idx) then
          { j with marks := j.marks.filter fun m => m != (r, idx), left := j.left ++ [cid] } else j } }
    let s := s.setSq o r
      { q with
        head := (idx + 1) % q.size
        marked := q.marked.filter fun i => i != idx
        entries := (q.entries.filter fun (x : Entry) => !(x.idx == idx && x.phase == .recorded)) ++ [e] }
    if marked then s.finish o r cid 0x604 0 0 else s

/-- SQ_FETCH_END (R360): the entries fetched are staged and SQ_HEAD advances past each. A fetch that fails halts the ring. -/
def State.fetchEnd (s : State) (o r : Nat) (es : List (List Byte)) (ok : Bool) : State :=
  match s.sq? o r with
  | none => s
  | some q =>
    let n := q.fetchCount
    if n = 0 then s
    else
      let a := q.base + 64 * q.head
      if !s.reaches a (64 * n) || !ok then (s.setEvent F.hifEventsHostAccess).halt o r 0x605
      else
        let s := (s.emit (.hostRead a (64 * n))).count hostLinkUnit 2 1
        (es.take n).foldl (fun s b => s.stageEntry o r b) s

/-- The owner and the index of a ring named. -/
def ringPair : RingSel → Nat × Nat
  | .tenant t r => (t, r)
  | .admin => (adminOwner, 0)

def execSqFetchEnd (q : RingSel) (entries : List (List Byte)) (ok : Bool) (s : State) : Host.Outcome State Fault Refusal :=
  .next (if s.pwr.cut then s else s.fetchEnd (ringPair q).1 (ringPair q).2 entries ok)

def execCompletionRecordWrite (q : RingSel) (ok : Bool) (s : State) : Host.Outcome State Fault Refusal :=
  .next (if s.pwr.cut then s else s.recordWrite (ringPair q).1 (ringPair q).2 ok)

/-! ### The scheduler's turns (R364, R367) -/

/-- Whether an entry may start after those before it (R364): its barrier, if it has one, is met. -/
def mayStart (earlier : List Entry) (e : Entry) : Bool :=
  !(e.barrier || alwaysBarrier e.opc) || earlier.all Entry.ended

/-- The next entry of a list that has not started, when it may start. -/
def nextEntry : List Entry → List Entry → Option Entry
  | _, [] => none
  | before, e :: es => if e.phase = .staged then (if mayStart before e then some e else none) else nextEntry (before ++ [e]) es

/-- The entry that a ring could start. -/
def State.startable (s : State) (o r : Nat) : Option Entry :=
  match s.sq? o r with
  | some q => if q.halted.isSome then none else nextEntry [] q.entries
  | none => none

/-- A list turned so that it begins after `k`. -/
def rotateAfter (k : Nat) (xs : List Nat) : List Nat := (xs.filter fun x => decide (k < x)) ++ xs.filter fun x => decide (x ≤ k)

/-- The ring of a tenant whose turn it is: weighted rotation by WEIGHT. -/
def State.ringTurn (s : State) (t : Nat) : Option Nat :=
  if !s.active t || (s.tenant t).place.hold then none
  else
    let (last, left) := KMap.get s.hif.turns t (63, 0)
    if left ≠ 0 ∧ (s.startable t last).isSome then some last
    else (rotateAfter last ((s.tenant t).sqs.map (·.1))).find? fun r => (s.startable t r).isSome

/-- The tenant and ring whose command starts next: tenants in plain rotation, one staged command a turn. -/
def State.turn (s : State) : Option (Nat × Nat) :=
  match (rotateAfter s.hif.lastTenant (upto 0 16)).find? fun t => (s.ringTurn t).isSome with
  | some t => (s.ringTurn t).map fun r => (t, r)
  | none => none

/-- Passes the turn on, after a start of ring `r` of tenant `t`. -/
def State.passTurn (s : State) (t r : Nat) : State :=
  let (last, left) := KMap.get s.hif.turns t (63, 0)
  let w := match s.sq? t r with | some q => q.weight | none => 1
  let left := if left ≠ 0 ∧ last = r then left - 1 else w - 1
  { s with hif := { s.hif with lastTenant := t, turns := KMap.put s.hif.turns t (r, left) } }

/-- Starts an entry: an opcode outside the tables ends with 0601h and a reserved field set with 0602h; else the command runs. -/
def State.startEntry (s : State) (o r : Nat) (e : Entry) (run : State → Entry → State) : State :=
  let s := s.modEntry o r e.cid fun e => { e with phase := .started }
  if !opcodeOk o e.opc then s.finish o r e.cid 0x601 0 0
  else if !e.reservedOk then s.finish o r e.cid 0x602 0 0
  else run s e

/-- A tenant command of opcode `opc` on ring `r` of tenant `t` starts, if it is the scheduler's next. -/
def State.runCommand (s : State) (t r opc : Nat) (run : State → Entry → State) : State :=
  let s := s.settleWaits
  if !s.has F.hifStatusReady || s.turn ≠ some (t, r) then s
  else
    match s.startable t r with
    | none => s
    | some e => if opcodeOk t e.opc && e.opc != opc then s else (s.passTurn t r).startEntry t r e run

/-- An admin command of opcode `opc` starts, if it is the admin ring's next. -/
def State.runAdmin (s : State) (opc : Nat) (run : State → Entry → State) : State :=
  let s := s.settleWaits
  if !s.has F.hifStatusReady then s
  else
    match s.startable adminOwner 0 with
    | none => s
    | some e => if opcodeOk adminOwner e.opc && e.opc != opc then s else s.startEntry adminOwner 0 e run

/-! ### Doorbells (R359 to R362, R370) -/

/-- A new tail for a ring: one at or above its size is ignored and halts it (R360). -/
def State.newTail (s : State) (o r v : Nat) : State :=
  match s.sq? o r with
  | none => s
  | some q => if q.size ≤ v then s.halt o r 0x607 else s.setSq o r { q with tail := v }

/-- A new head for a completion ring: the records up to it are released, at most those written (R361). -/
def State.newHead (s : State) (o c v : Nat) : State :=
  match s.cq? o c with
  | none => s
  | some q =>
    if q.size ≤ v then s
    else
      let k := min ((v + q.size - q.head) % q.size) q.used
      s.setCq o c { q with head := (q.head + k) % q.size, used := q.used - k }

/-- Whether a doorbell write acts: firmware accepts commands, and the tenant is ACTIVE (R362, R383). -/
def State.doorbell (s : State) (t : Nat) : Bool := s.has F.hifStatusReady && s.active t

def execSqTailWrite (t : TenantId) (r : RingId) (v : Half) (s : State) : Host.Outcome State Fault Refusal :=
  .next (if s.doorbell t then s.newTail t r v.toNat else s)

def execCqHeadWrite (t : TenantId) (r : RingId) (v : Half) (s : State) : Host.Outcome State Fault Refusal :=
  .next (if s.doorbell t then s.newHead t r v.toNat else s)

/-- RESUME (R370): a halted ring runs again. -/
def State.ringResume (s : State) (o r : Nat) : State :=
  match s.sq? o r with
  | some q => if q.halted.isSome then s.setSq o r { q with halted := none } else s
  | none => s

/-- FLUSH (R370): every fetched command of a halted ring that has not started ends ABORTED, in index order; then the ring runs. -/
def State.ringFlush (s : State) (o r : Nat) : State :=
  match s.sq? o r with
  | some q =>
    if q.halted.isSome then
      ((q.entries.filter fun e => e.phase == .staged).foldl (fun s e => s.finish o r e.cid 0x604 0 0) s).ringResume o r
    else s
  | none => s

def execRingResume (t : TenantId) (r : RingId) (s : State) : Host.Outcome State Fault Refusal :=
  .next (if s.doorbell t then s.ringResume t r else s)

def execRingFlush (t : TenantId) (r : RingId) (s : State) : Host.Outcome State Fault Refusal :=
  .next (if s.doorbell t then s.ringFlush t r else s)

/-- FAULT_HEAD_WRITE (R362, R376). -/
def execFaultHeadWrite (t : TenantId) (v : Word) (s : State) : Host.Outcome State Fault Refusal :=
  .next (if s.doorbell t then
      s.modFault t fun f => { f with head := v.toNat, overflowed := f.overflowed && f.head == v.toNat } else s)

/-- What a doorbell slot's words read (R362): offset within the slot of ring `r`. -/
def State.doorbellRead (s : State) (t r off : Nat) : Nat :=
  let q := s.sq? t r
  let c := s.cq? t r
  match off with
  | 0x00 => (q.map (·.tail)).getD 0
  | 0x04 => (q.map (·.head)).getD 0
  | 0x08 => (c.map (·.head)).getD 0
  | 0x0C => (c.map fun c => c.tail + 2 ^ 16 * b2n c.phase).getD 0
  | 0x14 => (q.map fun q => match q.halted with | none => 1 | some st => 2 + 2 ^ 16 * st).getD 0
  | 0x20 => if r = 0 then (s.tenant t).fault.head else 0
  | _ => 0

/-- A CONTROL write of the admin ring in HIF.CTRL (R382). -/
def execAdminResume (s : State) : Host.Outcome State Fault Refusal := .next (s.ringResume adminOwner 0)
def execAdminFlush (s : State) : Host.Outcome State Fault Refusal := .next (s.ringFlush adminOwner 0)

/-- ADMIN_DOORBELL (R382, R383): tail and released head of the admin rings; discarded before READY. -/
def State.adminDoorbell (s : State) (v : Nat) : State :=
  if !s.has F.hifStatusReady then s
  else
    let s := s.setReg .hifAdminDb (BitVec.ofNat 64 v)
    (s.newTail adminOwner 0 (v % 2 ^ 16)).newHead adminOwner 0 (v / 2 ^ 16)

def execAdminDoorbell (v : Word) (s : State) : Host.Outcome State Fault Refusal := .next (s.adminDoorbell v.toNat)

/-- A size field of ADMIN_CFG, within its limits. -/
def adminLog2 (n : Nat) : Nat := min 12 (max 4 n)

/-- ADMIN_RING_ENABLE (R382): ENABLE starts the admin ring, empty, at its bases; its CQ's source goes to the vector of MSIX;
clearing it stops the ring once idle. -/
def State.adminEnable (s : State) (v : Nat) : State :=
  let s := s.setReg .hifAdminCfg (BitVec.ofNat 64 v &&& (Reg.hifAdminCfg).rwMask)
  if !s.has F.hifAdminCfgEnable then s.adminIdle
  else if s.hif.adminOn then s
  else
    let sq := { Sq.reset with base := (s.reg .hifAdminSqBase).toNat, log2 := adminLog2 (s.rd F.hifAdminCfgSqLog2) }
    let cq := { Cq.reset with base := (s.reg .hifAdminCqBase).toNat, log2 := adminLog2 (s.rd F.hifAdminCfgCqLog2) }
    let s := { s with hif := { s.hif with adminOn := true } }
    (s.setSq adminOwner 0 sq).setCq adminOwner 0 cq

def execAdminRingEnable (v : Word) (s : State) : Host.Outcome State Fault Refusal := .next (s.adminEnable v.toNat)

/-! ### Commands of the rings alone -/

/-- NOP_COMMAND (R365). -/
def execNopCommand (t : TenantId) (r : RingId) (s : State) : Host.Outcome State Fault Refusal :=
  .next (s.runCommand t r 0 fun s e => s.finish t r e.cid 0 0 0)

end Sys2Proof.Machine
end

