-- ==== Sys2Proof/Machine/Quant.lean ====
section
/-! DEFINITION. The block-scaled formats HN4 and T2 (Number formats and rounding, R72 to R80, R91 to R93, R509): decoding
an element, and quantising a block. -/

namespace Sys2Proof.Machine

/-- A block as a producer writes it: its block word, its 32 element codes, its escape entry if it has one, and what it adds to
the header's counts. -/
structure QBlock where
  word : Nat
  codes : List Nat
  /-- an HN4 entry's ESCALE or a T2 entry's WORD, and its 32 DATA codes -/
  entry : Option (Nat × List Nat)
  flush : Nat
  nonfinite : Nat
  denied : Nat
  deriving DecidableEq, Repr

/-- The greatest magnitude among finite values. -/
def maxAbs : List Fp → Fp
  | [] => .fin false 0 0
  | v :: vs =>
    let m := maxAbs vs
    if v.finite && m.lt v.abs then v.abs else m

/-- Half of a list's length. -/
def countIf {α : Type} (p : α → Bool) (xs : List α) : Nat := (xs.filter p).length

/-! ### HN4 -/

/-- The value of an E5M3 scale code. -/
def scaleVal (c : Nat) : Fp := Fmt.decode .e5m3 c

/-- Six times a scale, shifted down `s` binades. -/
def sixScale (c s : Nat) : Fp := ((scaleVal c).mul (.fin false 6 0)).shift (-(s : Int))

/-- The smallest scale code from `c`, at most `n` tried, whose six-fold is not below `m` (R91 step 3). -/
def scaleFrom (m : Fp) : Nat → Nat → Nat
  | 0, c => c
  | n + 1, c => if m.le (sixScale c 0) then c else scaleFrom m n (c + 1)

/-- The largest sub-scale from 0 to 3 that a sub-block of maximum `m` allows (R91 step 4). -/
def subScale (m : Fp) (c : Nat) : Nat :=
  if m.le (sixScale c 3) then 3 else if m.le (sixScale c 2) then 2 else if m.le (sixScale c 1) then 1 else 0

/-- The four sub-scales of a block. -/
def subScales (vs : List Fp) (c : Nat) : List Nat :=
  (upto 0 4).map fun j => subScale (maxAbs ((vs.drop (8 * j)).take 8)) c

/-- An element's code (R91 step 5): the quotient in FA40, rounded to E2M1 and clamped to ±6. -/
def hnCode (m : RMode) (v : Fp) (c s : Nat) : Nat :=
  match v with
  | .fin _ _ _ =>
    let q := Fmt.decode .fa40 (Fmt.div .fa40 .nearest v ((scaleVal c).shift (-(s : Int))))
    Fmt.round .e2m1 m true q
  | _ => 0

/-- The codes of a block's elements under a scale and its sub-scales. -/
def hnCodes (mode : Nat → RMode) (vs : List Fp) (c : Nat) (subs : List Nat) : List Nat :=
  (upto 0 32).map fun k => hnCode (mode k) (vs.getD k (.fin false 0 0)) c (subs.getD (k / 8) 0)

/-- The block word of a scale and its sub-scales (R73). -/
def hnWord (c : Nat) (subs : List Nat) : Nat :=
  c + 256 * (subs.getD 0 0 + 4 * subs.getD 1 0 + 16 * subs.getD 2 0 + 64 * subs.getD 3 0)

/-- How many non-zero finite inputs the codes encode as magnitude 0. -/
def flushed (vs : List Fp) (codes : List Nat) : Nat :=
  countIf (fun x => x.1.finite && !x.1.isZero && x.2 % 8 == 0) (vs.zip codes)

/-- Whether a maximum is too large for any scale: above 6 × 114,688. -/
def tooLarge (m : Fp) : Bool := !m.le (sixScale 0xFE 0)

/-- The exponent of the escape scale (R92): the smallest power of two E with max ÷ E ≤ 448, from −149 to 127; 1 when no
finite input is non-zero. -/
def escExp (m : Fp) : Int :=
  match m with
  | .fin _ n e =>
    if n = 0 then 0
    else
      let (a, b) := dyadic n e
      let k := logRat a (448 * b)
      let (p, q) := dyadic 448 k
      max (-149) (min 127 (if a * q ≤ p * b then k else k + 1))
  | _ => 0

/-- The codes written for an escaped block, and its sub-scales, which the spec calls ignored and leaves open: `junk`. -/
def junkCodes (junk : Nat) : List Nat := (upto 0 32).map fun k => junk / 2 ^ (8 + 4 * k) % 16

/-- Those of an escaped T2 block: any but 10b, which no producer writes (R80). -/
def junkT2 (junk : Nat) : List Nat := (upto 0 32).map fun k => [0, 1, 3].getD (junk / 3 ^ k % 3) 0

/-- The block with an escape entry (R92). -/
def hnEscape (esc : Nat → RMode) (vs : List Fp) (junk : Nat) : QBlock :=
  let e := escExp (maxAbs vs)
  { word := 0xFF + 256 * (junk % 256), codes := junkCodes junk
    entry := some (f32pow2 e,
      (upto 0 32).map fun k => Fmt.round .e4m3 (esc k) false ((vs.getD k (.fin false 0 0)).shift (-e)))
    flush := 0, nonfinite := countIf (fun v => !v.finite) vs, denied := 0 }

/-- The block with codes (R91), every value finite. -/
def hnPlain (mode : Nat → RMode) (vs : List Fp) : QBlock :=
  if vs.all Fp.isZero then
    { word := 0, codes := vs.map fun v => if v.isNeg then 8 else 0, entry := none, flush := 0, nonfinite := 0, denied := 0 }
  else
    let m := maxAbs vs
    let c := if tooLarge m then 0xFE else scaleFrom m 254 1
    let subs := subScales vs c
    let codes := hnCodes mode vs c subs
    { word := hnWord c subs, codes := codes, entry := none, flush := flushed vs codes, nonfinite := 0, denied := 0 }

/-- Quantises 32 values, each already divided by the tile scale, to HN4 (R91, R92): `limit` is ESC_LIMIT, and `room` says that
the side area has room. Escape values take the modes `esc` (R509; QBLK alone claims its own draws). -/
def quantHN4 (mode esc : Nat → RMode) (limit : Nat) (room : Bool) (junk : Nat) (vs : List Fp) : QBlock :=
  let bad := vs.any fun v => !v.finite
  if bad then
    if room then hnEscape esc vs junk
    else
      let b := hnPlain mode (vs.map fun v => if v.finite then v else .fin false 0 0)
      { b with nonfinite := countIf (fun v => !v.finite) vs, denied := 1 }
  else if tooLarge (maxAbs vs) then
    if room then hnEscape esc vs junk else { hnPlain mode vs with denied := 1 }
  else
    let b := hnPlain mode vs
    if limit ≠ 0 ∧ limit ≤ b.flush then
      if room then hnEscape esc vs junk else { b with denied := 1 }
    else b

/-- The value of an E2M1 code. -/
def e2m1 (c : Nat) : Fp := Fmt.decode .e2m1 (c % 16)

/-- The value of element `k` of an HN4 block that is not escaped, without the tile scale (R73, R74). -/
def hnValue (word k code : Nat) : Fp :=
  let c := word % 256
  if c = 0 then .fin (bit code 3) 0 0
  else ((scaleVal c).mul (e2m1 code)).shift (-((word / 2 ^ (8 + 2 * (k / 8)) % 4 : Nat) : Int))

/-! ### T2 -/

/-- The sum of magnitudes in FA40, in ascending order of element, each sum rounded. -/
def sumFa40 : Fp → List Fp → Fp
  | a, [] => a
  | a, v :: vs => sumFa40 (Fmt.fit .fa40 (a.add v.abs)) vs

/-- The mean of magnitudes as FP32 (R93 step 3): at most the largest finite value. -/
def meanWord (vs : List Fp) : Nat :=
  min 0x7F7FFFFF (toF32 ((sumFa40 (.fin false 0 0) vs).shift (-5)))

/-- Magnitudes `a ÷ b` against 1/2 or 1, exactly: whether `a > k × b` for `k` = 2^e. -/
def exceeds (a b : Fp) (e : Int) : Bool := (b.abs.shift e).lt a.abs

/-- floor(2^32 × |a ÷ b|). -/
def ratio32 (a b : Fp) : Nat :=
  match a, b with
  | .fin _ n e, .fin _ d g =>
    let (p, q) := dyadic n e
    let (r, t) := dyadic d g
    if r = 0 then 0 else 2 ^ 32 * p * t / (q * r)
  | _, _ => 0

/-- An element's ternary code (R93 step 5). -/
def t2Code (m : RMode) (v w : Fp) : Nat :=
  let one := !(v.abs).lt w.abs
  let set :=
    match m with
    | .nearest => exceeds v w (-1)
    | .zero => one
    | .stochastic u => one || decide (u < ratio32 v w)
  if set && !v.isZero then (if v.isNeg then 3 else 1) else 0

/-- Quantises 32 values, each already divided by the tile scale, to T2 (R93). -/
def quantT2 (mode : Nat → RMode) (limit : Nat) (room : Bool) (junk : Nat) (vs : List Fp) : QBlock :=
  let nz := countIf (fun v => !v.isZero) vs
  let zero := { word := 0, codes := List.replicate 32 0, entry := none, flush := nz, nonfinite := 0, denied := 0 }
  if vs.any (fun v => !v.finite) then
    { zero with word := 0x7FC00000, flush := 0, nonfinite := countIf (fun v => !v.finite) vs }
  else if nz = 0 then zero
  else
    let w := meanWord vs
    if w = 0 then zero
    else
      let wv := f32 w
      let codes := (upto 0 32).map fun k => t2Code (mode k) (vs.getD k (.fin false 0 0)) wv
      let plain : QBlock :=
        { word := w, codes := codes, entry := none, nonfinite := 0, denied := 0
          flush := countIf (fun x => !x.1.isZero && x.2 == 0) (vs.zip codes) }
      let m := maxAbs vs
      if limit ≠ 0 ∧ (wv.mul (.fin false limit 0)).lt m then
        if !room || tooLarge m then { plain with denied := 1 }
        else
          let b := hnPlain mode vs
          { word := 0xFFFFFFFF, codes := junkT2 junk, entry := some (b.word, b.codes), flush := 0, nonfinite := 0
            denied := 0 }
      else plain

/-- The value of a T2 code under its block word, without the tile scale (R80): 10b reads as 0. -/
def t2Value (word code : Nat) : Fp :=
  match f32 word with
  | .nan s => .nan s
  | w => if code % 4 = 1 then w else if code % 4 = 3 then w.neg else .fin false 0 0

end Sys2Proof.Machine
end

