-- ==== Sys2Proof/Machine/Scale.lean ====
section
/-! DEFINITION. The scale manager (Numerical safeguards): numeric records and the tenant's numeric state with their bytes in
the numeric area, tile scales, histories, fallback, escalation, poisoned steps, and the numeric policy. -/

namespace Sys2Proof.Machine

/-! ### Areas in corrected HBM (R96, R117, R156) -/

/-- Frames of the numeric area: the numeric state, then 16,384 records (an arrangement of the model's own). -/
def numFrames : Nat := 3

/-- Frames of the step area. -/
def stepFrames : Nat := 1

/-- The largest number of numeric records (R96). -/
def maxRecs : Nat := 16384

/-- Writes bytes into one frame of a tenant's areas: the `i`-th of its frames, at an offset. A tenant without areas has nowhere
to write. -/
def State.putArea (s : State) (t i off : Nat) (bs : List Byte) : State :=
  match (s.tenant t).place.areas[i]? with
  | some f => s.write (frameAddr f + off) bs
  | none => s

/-- A small signed field as its byte. -/
def i8 (i : Int) : Nat := unsigned 8 i

/-- The bytes of a numeric record (R96). -/
def NumRec.bytes (r : NumRec) : List Byte :=
  let mode := b2n r.jit + 2 * b2n r.escalated + 4 * b2n r.pinFmt + 8 * b2n r.frozen + 16 * b2n r.floor
  leBytes 4 r.handle ++ leBytes 1 r.cls ++ leBytes 1 r.fmt ++ leBytes 1 r.baseFmt ++ leBytes 1 mode ++
    leBytes 4 r.tileScale.toNat ++ leBytes 1 r.histLen ++ leBytes 1 r.histValid ++ leBytes 1 r.histHead ++
    leBytes 1 r.jitLeft ++ ((upto 0 16).map fun i => leBytes 4 (r.hist.getD i 0).toNat).flatten ++ leBytes 8 r.histStep ++
    leBytes 4 r.stepAmax.toNat ++ leBytes 4 r.stepNonfinite ++ leBytes 4 r.stepSat ++ leBytes 1 (i8 r.floorExp) ++
    leBytes 1 r.ovfSteps ++ leBytes 1 r.alarmScore ++ zeros 1 ++ leBytes 4 r.link ++ leBytes 4 r.stepSamples ++
    leBytes 4 r.stepDMax.toNat ++ leBytes 4 r.stepDSum.toNat ++ leBytes 8 r.runSamples ++ leBytes 4 r.runDMax.toNat ++
    leBytes 4 r.warnCount ++ leBytes 4 r.alarmCount ++ leBytes 4 r.escDenied ++ leBytes 4 r.zeroFlush ++
    leBytes 4 r.escalations ++ zeros 104

/-- The bytes of a tenant's numeric state (R117). -/
def NumState.bytes (n : NumState) : List Byte :=
  leBytes 4 n.lossScale.toNat ++ leBytes 4 n.cleanSteps ++ leBytes 4 n.growthInterval ++ leBytes 1 n.backoffStep ++
    leBytes 1 n.backoffLimit ++ leBytes 1 n.scaleMargin ++ leBytes 1 n.policy ++ leBytes 8 n.step ++ leBytes 1 (b2n n.poison) ++
    leBytes 1 n.poisonCause ++ leBytes 2 n.poisonUnit ++ leBytes 4 n.poisonHandle ++ leBytes 4 n.poisonHits ++
    leBytes 4 n.poisonedSteps ++ leBytes 1 (i8 n.lsMinExp) ++ leBytes 1 (i8 n.lsMaxExp) ++ zeros 2 ++
    leBytes 4 n.fallbackTensors ++ zeros 16

/-- Writes a tenant's numeric state. -/
def State.setNum (s : State) (t : Nat) (n : NumState) : State :=
  (s.modTenant t fun x => { x with num := n }).putArea t 0 0 n.bytes

/-- Where a record lies in the numeric area: frame and offset. -/
def recPlace (slot : Nat) : Nat × Nat := ((256 * slot + 256) / 2 ^ 21, (256 * slot + 256) % 2 ^ 21)

/-- Writes a numeric record. -/
def State.setRec (s : State) (t : Nat) (r : NumRec) : State :=
  (s.modTenant t fun x => { x with recs := KMap.put x.recs r.handle r }).putArea t (recPlace r.slot).1 (recPlace r.slot).2 r.bytes

/-- A tenant's record of a handle. -/
def State.rec? (s : State) (t h : Nat) : Option NumRec := KMap.find (s.tenant t).recs h

def State.modRec (s : State) (t h : Nat) (f : NumRec → NumRec) : State :=
  match s.rec? t h with
  | some r => s.setRec t (f r)
  | none => s

/-- Changes every record of a tenant. -/
def State.mapRecs (s : State) (t : Nat) (f : NumRec → NumRec) : State :=
  (s.tenant t).recs.foldl (fun s x => s.modRec t x.1 f) s

/-! ### Formats (R41, R99) -/

def fmtFP32 : Nat := 0
def fmtBF16 : Nat := 1
def fmtE4M3 : Nat := 2
def fmtE5M2 : Nat := 3
def fmtINT8 : Nat := 4
def fmtINT4 : Nat := 5
def fmtHN4 : Nat := 6
def fmtT2 : Nat := 7

/-- Whether a format is scaled, so that a tensor of it has a record (R96). -/
def scaledFmt (f : Nat) : Bool := f == 2 || f == 3 || f == 6 || f == 7

/-- The target magnitude Q_f. -/
def scaleTarget (f : Nat) : Nat := if f = 2 then 448 else if f = 3 then 57344 else if f = 6 then 1536 else 1

/-- The least k with n ≤ d × 2^k. -/
def ceilLog (n d : Nat) : Int :=
  let k := logRat n d
  let (a, b) := if 0 ≤ k then (n, d * 2 ^ k.toNat) else (n * 2 ^ (-k).toNat, d)
  if a = b then k else k + 1

/-- h of R99 for a maximum `a` (an FP32 word), margin `m` and format `f`: 0 when the maximum is 0 or not finite. -/
def scaleExp (a : Word) (m f : Nat) : Int :=
  match f32 a.toNat with
  | .fin _ n e =>
    if n = 0 then 0
    else
      let (p, q) := dyadic n (e + m)
      ceilLog p (q * scaleTarget f)
  | _ => 0

/-- The greater of two FP32 words that are not NaN. -/
def maxWord (a b : Word) : Word := if (f32 a.toNat).lt (f32 b.toNat) then b else a

/-- The largest valid history entry: those pushed last. -/
def NumRec.histMax (r : NumRec) : Word :=
  ((upto 1 r.histValid).map fun i => r.hist.getD ((r.histHead + 16 * r.histLen - i) % r.histLen) 0).foldl maxWord 0

/-- The exponent of a scale clamped (R99). -/
def clampExp (h : Int) : Int := max (-126) (min 127 h)

/-- TILE_SCALE's exponent for a maximum (R99), the floor honoured. -/
def NumRec.tileExp (r : NumRec) (a : Word) (margin : Nat) : Int :=
  let h := scaleExp a margin r.fmt
  clampExp (if r.floor then max h r.floorExp else h)

/-- TILE_SCALE by R99; 1.0 for a record escalated to BF16. -/
def NumRec.rescale (r : NumRec) (margin : Nat) : NumRec :=
  { r with tileScale := if scaledFmt r.fmt then BitVec.ofNat 32 (f32pow2 (r.tileExp r.histMax margin)) else 0x3F800000 }

/-- The exponent of a power-of-two scale. -/
def scaleLog (w : Word) : Int :=
  match f32 w.toNat with
  | .fin _ n e => if n = 0 then 0 else (Nat.log2 n : Int) + e
  | _ => 0

/-! ### Reports (R100) -/

/-- The AMAX of an FP8 format's largest finite value, as FP32. -/
def fp8Limit (f : Nat) : Option Word := if f = 2 then some 0x43E00000 else if f = 3 then some 0x47600000 else none

/-- A report in real units. -/
def NumRec.realAmax (r : NumRec) (x : AmaxReport) : Word :=
  if x.fmt = 2 ∨ x.fmt = 3 then BitVec.ofNat 32 (f32mul x.amax.toNat (x.scale.getD r.tileScale).toNat) else x.amax

/-- A tenant's event names handle and one more argument; the unit is the service core that runs the scale manager. -/
def State.scaleEvent (s : State) (t code a0 a1 : Nat) : State := s.tell t code (coreUnit 0) a0 a1

/-- A report enters its record's step fields (R100); a format limit counts as saturation, which is raised once per tensor and step. -/
def State.takeAmax (s : State) (x : AmaxReport) : State :=
  match s.rec? x.tenant x.handle with
  | none => s
  | some r =>
    let sat := fp8Limit x.fmt == some x.amax
    let s := if sat && !r.satRaised then s.scaleEvent x.tenant 0x202 x.handle 0 else s
    s.setRec x.tenant
      { r with
        stepAmax := maxWord r.stepAmax (r.realAmax x)
        stepNonfinite := min (2 ^ 32 - 1) (r.stepNonfinite + x.nonfinite)
        stepSat := r.stepSat + b2n sat
        satRaised := r.satRaised || sat
        produced := true }

/-- AMAX_REPORT (R100): the oldest report is taken. -/
def State.amaxReport (s : State) : State :=
  match s.amax with
  | [] => s
  | x :: rest => { s with amax := rest }.takeAmax x

def execAmaxReport (s : State) : Host.Outcome State Fault Refusal := .next s.amaxReport

/-- A producer reports a metadata header's AMAX and NONFINITE (R100). -/
def State.reportAmax (s : State) (t h : Nat) (amax : Word) (nonfinite fmt : Nat) (scale : Option Word) : State :=
  { s with amax := s.amax ++ [{ tenant := t, handle := h, amax := amax, nonfinite := nonfinite, fmt := fmt, scale := scale }] }

/-! ### Fallback (R102) -/

/-- A record put into fallback. -/
def NumRec.fallback (r : NumRec) : NumRec := { r with histValid := 0, jitLeft := r.histLen, jit := true }

/-- `n` records of a tenant were put into fallback at once: 0207h once, and counted. -/
def State.fellBack (s : State) (t n : Nat) : State :=
  if n = 0 then s
  else
    let num := (s.tenant t).num
    (s.setNum t { num with fallbackTensors := num.fallbackTensors + n }).scaleEvent t 0x207 n 0

/-- Whether a tenant has a record in fallback. -/
def State.inFallback (s : State) (t : Nat) : Bool := (s.tenant t).recs.any fun x => x.2.jitLeft != 0

/-- 0208h, when the last record in fallback has returned. -/
def State.rebuilt (s : State) (t : Nat) (before : Bool) : State :=
  if before && !s.inFallback t then s.scaleEvent t 0x208 0 0 else s

/-! ### Escalation (R111) -/

/-- The next rung for a class. -/
def rung (cls f : Nat) : Option Nat :=
  if cls = 5 then (if f = 6 then some 3 else if f = 3 then some 1 else none)
  else if f = 7 then some 6 else if f = 6 then some 2 else if f = 2 ∨ f = 3 then some 1 else none

/-- A gradient's format of the family of a working format (R128). -/
def gradientFmt (f : Nat) : Nat := if f = 6 ∨ f = 7 then 6 else if f = 2 ∨ f = 3 then 3 else 1

/-- A record moved to a format. -/
def NumRec.escalateTo (r : NumRec) (f margin : Nat) : NumRec :=
  ({ r with fmt := f, escalated := true, floor := false, alarmScore := 0, escalations := r.escalations + 1 }.fallback).rescale margin

/-- The place of a gradient's format on its ladder (R111). -/
def gradientRung (f : Nat) : Nat := if f = 6 then 0 else if f = 3 then 1 else 2

/-- One record moves to a format, with its event. -/
def State.escalateOne (s : State) (t h f : Nat) : State :=
  ((s.modRec t h fun r => r.escalateTo f (s.tenant t).num.scaleMargin).setEvent F.arrAgmEventsEscalated).scaleEvent t 0x206 h f

/-- Escalates a tensor, and its linked gradient to the same family unless the gradient stands there or higher already; the number of records
moved. -/
def State.escalate (s : State) (t h : Nat) : State × Nat :=
  match s.rec? t h with
  | none => (s, 0)
  | some r =>
    match rung r.cls r.fmt with
    | none => (s, 0)
    | some f =>
      let s := s.escalateOne t h f
      match s.rec? t r.link with
      | some g =>
        if r.link ≠ 0 ∧ !g.pinFmt ∧ gradientRung g.fmt < gradientRung (gradientFmt f) then (s.escalateOne t r.link (gradientFmt f), 2) else (s, 1)
      | none => (s, 1)

/-- Whether the conditions that do not look at a score allow an escalation (R111, R116). -/
def State.mayEscalate (s : State) (t : Nat) (r : NumRec) : Bool :=
  bit (s.tenant t).num.policy 0 && !r.pinFmt && !r.frozen && s.rd F.arrAgmCtrlEscScore != 0

/-! ### The end of a step (R97, R101, R111, R114 to R116) -/

/-- The current step's fields return to 0. -/
def NumRec.clearStep (r : NumRec) : NumRec :=
  { r with
    stepAmax := 0, stepNonfinite := 0, stepSat := 0, stepSamples := 0, stepDMax := 0, stepDSum := 0, produced := false,
    alarmed := false, satRaised := false, scoreBefore := r.alarmScore }

/-- A poisoned step's samples enter no ALARM_SCORE (R116): what they added is taken back. -/
def NumRec.unscore (r : NumRec) : NumRec := { r with alarmScore := r.scoreBefore }

/-- A record at a commit (R101): one whose tensor was produced in the step, and that is not frozen. -/
def NumRec.commit (r : NumRec) (step margin : Nat) : NumRec :=
  if r.produced && !r.frozen then
    let r := { r with
      hist := setAt r.hist r.histHead r.stepAmax
      histHead := (r.histHead + 1) % r.histLen
      histValid := min r.histLen (r.histValid + 1)
      histStep := step
      floor := false
      ovfSteps := 0
      jitLeft := r.jitLeft - 1
      jit := r.jit && decide (1 < r.jitLeft) }
    r.rescale margin
  else r

/-- Acts on one record's alarm score at a commit (R111); counts the records moved. -/
def State.commitScore (s : State × Nat) (t h : Nat) : State × Nat :=
  match s.1.rec? t h with
  | none => s
  | some r =>
    if r.alarmScore = 0 then s
    else
      let score := if r.alarmed then r.alarmScore else r.alarmScore - 1
      let s' := s.1.setRec t { r with alarmScore := score }
      if s'.rd F.arrAgmCtrlEscScore ≤ score ∧ s'.mayEscalate t r then
        let x := s'.escalate t h
        (x.1, s.2 + x.2)
      else (s', s.2)

/-- The handles of a tenant's records. -/
def State.recHandles (s : State) (t : Nat) : List Nat := (s.tenant t).recs.map (·.1)

/-- The scale manager at a step commit (R101, R111): histories, scores and escalations, and the step's fields cleared. -/
def State.commitScales (s : State) (t step : Nat) : State :=
  let before := s.inFallback t
  let s := s.mapRecs t fun r => r.commit step (s.tenant t).num.scaleMargin
  let s := s.rebuilt t before
  let (s, n) := (s.recHandles t).foldl (fun x h => State.commitScore x t h) (s, 0)
  (s.fellBack t n).mapRecs t NumRec.clearStep

/-- The loss scale grows at a commit (R115). -/
def NumState.grow (n : NumState) : NumState :=
  let c := n.cleanSteps + 1
  if n.growthInterval ≤ c then
    let up : Nat := f32mul n.lossScale.toNat 0x40000000
    let top := f32pow2 n.lsMaxExp
    { n with
      cleanSteps := 0
      lossScale := if bit n.policy 2 then (if (f32 top).lt (f32 up) then BitVec.ofNat 32 top else BitVec.ofNat 32 up) else n.lossScale }
  else { n with cleanSteps := c }

/-- The loss scale at the end of a poisoned step (R115). -/
def NumState.backOff (n : NumState) : NumState :=
  if bit n.policy 2 && n.poisonCause != 5 then
    let low : Nat := f32pow2 n.lsMinExp
    let half := f32mul n.lossScale.toNat 0x3F000000
    { n with cleanSteps := 0, lossScale := if (f32 half).lt (f32 low) then BitVec.ofNat 32 low else BitVec.ofNat 32 half }
  else n

/-- One record at the end of a poisoned step (R116); counts the records escalated. -/
def State.backOffRec (s : State × Nat) (t h : Nat) : State × Nat :=
  match s.1.rec? t h with
  | none => s
  | some r =>
    if r.stepNonfinite = 0 ∧ r.stepSat = 0 ∨ r.frozen = true then s
    else
      let num := (s.1.tenant t).num
      let r := { r with
        ovfSteps := min 255 (r.ovfSteps + 1)
        floorExp := max (-128) (min 127 (scaleLog r.tileScale + num.backoffStep))
        floor := true }
      let r := r.rescale num.scaleMargin
      if num.backoffLimit ≠ 0 ∧ num.backoffLimit ≤ r.ovfSteps then
        let s' := s.1.setRec t { r with ovfSteps := 0 }
        if s'.mayEscalate t r then
          let x := s'.escalate t h
          (x.1, s.2 + x.2)
        else (s', s.2)
      else (s.1.setRec t r, s.2)

/-- The backoff of a poisoned step (R115, R116). -/
def State.backOff (s : State) (t : Nat) : State :=
  let s := (s.setNum t (s.tenant t).num.backOff).mapRecs t NumRec.unscore
  let (s, n) := (s.recHandles t).foldl (fun x h => State.backOffRec x t h) (s, 0)
  s.fellBack t n

/-- The end of a step's numeric state: POISON and its hits, and the records' step fields, clear. -/
def State.clearStepNums (s : State) (t : Nat) : State :=
  let n := (s.tenant t).num
  (s.setNum t { n with poison := false, poisonCause := 0, poisonUnit := 0, poisonHandle := 0, poisonHits := 0 }).mapRecs t
    NumRec.clearStep

/-! ### Poison sources (R113) -/

/-- Whether a tenant's step is OPEN or UPDATING (R158, R204). -/
def State.stepRuns (s : State) (t : Nat) : Bool :=
  (s.tenant t).step.phase == .opened || (s.tenant t).step.phase == .updating

/-- A report sets POISON, or counts as a hit; one that comes when no step is open is dropped. -/
def State.poisonNow (s : State) (t cause unit h : Nat) : State :=
  if !s.stepRuns t && (s.tenant t).step.phase != .sealing then s
  else
    let n := (s.tenant t).num
    s.setNum t
      (if n.poison then { n with poisonHits := n.poisonHits + 1 }
       else { n with poison := true, poisonCause := cause, poisonUnit := unit, poisonHandle := h })

/-- POISON_SOURCE (R113): the first report that stands at the scale manager reaches its tenant's numeric state. -/
def State.poisonSource (s : State) : State :=
  match s.poison with
  | [] => s
  | x :: rest => { s with poison := rest }.poisonNow x.tenant x.cause x.unit x.handle

/-- A unit sends a poison report. -/
def State.sendPoison (s : State) (t cause unit h : Nat) : State :=
  { s with poison := s.poison ++ [{ tenant := t, cause := cause, unit := unit, handle := h }] }

/-! ### NUMERIC_POLICY (R117, R365) -/

/-- The numeric state that a NUMERIC_POLICY command asks for, unless a field breaks the limits of R117. -/
def NumState.policyOf (n : NumState) (e : Entry) : Option NumState :=
  let f := e.arg 0 2
  let pick := fun (i v old : Nat) => if bit f i then v else old
  let pickI := fun (i v : Nat) (old : Int) => if bit f i then signed 8 v else old
  let x := { n with
    growthInterval := pick 0 (e.arg 4 4) n.growthInterval
    backoffStep := pick 1 (e.arg 8 1) n.backoffStep
    backoffLimit := pick 2 (e.arg 9 1) n.backoffLimit
    scaleMargin := pick 3 (e.arg 10 1) n.scaleMargin
    policy := pick 4 (e.arg 11 1) n.policy
    lsMinExp := pickI 5 (e.arg 12 1) n.lsMinExp
    lsMaxExp := pickI 6 (e.arg 13 1) n.lsMaxExp }
  if 128 ≤ f ∨ x.growthInterval = 0 ∨ 8 < x.scaleMargin ∨ 8 ≤ x.policy ∨ x.lsMinExp < -24 ∨ 24 < x.lsMinExp ∨
      x.lsMaxExp < -24 ∨ 24 < x.lsMaxExp ∨ x.lsMaxExp < x.lsMinExp then none
  else some x

/-- NUMERIC_POLICY: between steps only. -/
def State.numericPolicy (s : State) (t r : Nat) (e : Entry) : State :=
  if (s.tenant t).step.phase ≠ .idle then s.finish t r e.cid 0x608 0 0
  else
    match (s.tenant t).num.policyOf e with
    | none => s.finish t r e.cid 0x602 0 0
    | some n => (s.setNum t n).finish t r e.cid 0 0 0

def execNumericPolicy (t : TenantId) (r : RingId) (s : State) : Host.Outcome State Fault Refusal :=
  .next (s.runCommand t r 0x13 fun s e => s.numericPolicy t r e)

end Sys2Proof.Machine
end

