-- ==== Sys2Proof/Machine/StepBase.lean ====
section
/-! DEFINITION. What the units need of a tenant's step (Weight update and step commit): its phases, the end of a step, and its abort on the
device's own account. -/

namespace Sys2Proof.Machine

def State.modStep (s : State) (t : Nat) (f : Step → Step) : State := s.modTenant t fun x => { x with step := f x.step }

/-- A step number that follows the record in force. -/
def State.stepNow (s : State) (t : Nat) : Nat := (s.tenant t).step.record.step

/-! ### Phases of a step (R158, R167) -/

/-- STATE of ARR.UPD_TENANT. -/
def StepPhase.code : StepPhase → Nat
  | .idle => 0 | .opened => 1 | .updating => 2 | .sealing => 3 | .post => 4

def State.setPhase (s : State) (t : Nat) (p : StepPhase) : State :=
  (s.modStep t fun x => { x with phase := p }).wr (F.arrUpdTenantState t) p.code

/-- The ring of a command of a tenant. -/
def State.ringOf (s : State) (t cid : Nat) : Nat :=
  (((s.tenant t).sqs.find? fun x => x.2.entries.any fun e => e.cid == cid).map (·.1)).getD 0

/-- Ends a command of a tenant by its number. -/
def State.endCmd (s : State) (t cid status r0 r1 : Nat) : State := s.finish t (s.ringOf t cid) cid status r0 r1

/-- The update engines are taken, or given back. -/
def State.engines (s : State) (t : Nat) (busy : Bool) : State :=
  (s.wr F.arrUpdStatusEngBusy (if busy then 15 else 0)).wr F.arrUpdStatusTenant (if busy then t else 0)

/-- Gives the update engines back if a tenant has them. -/
def State.enginesOff (s : State) (t : Nat) : State := if (s.tenant t).step.work.isSome then s.engines t false else s

/-- A step's end: IDLE, its numeric fields cleared, and the cancels that waited for it answered (R158, R161). -/
def State.endStep (s : State) (t : Nat) : State :=
  let s := (s.enginesOff t).clearStepNums t
  let cs := (s.tenant t).step.cancels
  let s := s.modStep t fun x => { x with commit := none, work := none, drainWait := false, cancels := [] }
  let s := s.setPhase t .idle
  cs.foldl (fun s c => s.endCmd t c 0x603 (s.stepNow t) 0) s

/-! ### Refusal and abort (R160 to R162) -/

/-- The rewind of a refusal: live counters from the record in force. -/
def State.rewind (s : State) (t : Nat) : State := s.modStep t fun x => { x with counters := x.record.counters }

/-- The reports of a tenant that stand at the scale manager as its step ends enter the step, in order. -/
def State.settleReports (s : State) (t : Nat) : State :=
  let a := s.amax.filter fun x => x.tenant == t
  let p := s.poison.filter fun x => x.tenant == t
  let s := { s with amax := s.amax.filter fun x => x.tenant != t, poison := s.poison.filter fun x => x.tenant != t }
  p.foldl (fun (s : State) x => s.poisonNow x.tenant x.cause x.unit x.handle) (a.foldl State.takeAmax s)

/-- Whether reports of a tenant stand at the scale manager. -/
def State.reportsDue (s : State) (t : Nat) : Bool := (s.amax.any fun x => x.tenant == t) || s.poison.any fun x => x.tenant == t

/-- The backoff of a step that ends with POISON set; POISONED_STEPS counts it (R114 to R116). -/
def State.poisonEnd (s : State) (t : Nat) : State :=
  let n := (s.tenant t).num
  if n.poison then (s.setNum t { n with poisonedSteps := n.poisonedSteps + 1 }).backOff t else s

/-- The step that is open ends ABORTED (R161, R162): nothing once the commit point has passed. A step without a STEP_COMMIT reports
it as an event. -/
def State.abortStep (s : State) (t : Nat) : State :=
  let x := (s.tenant t).step
  if x.phase = .idle ∨ x.phase = .post then s
  else
    let s := (((s.settleReports t).rewind t).poisonEnd t).setEvent F.arrUpdEventsRefused
    let s := s.endStep t
    match x.commit with
    | some c => s.endCmd t c 0x604 (s.stepNow t) 0
    | none => s.tell t 0x604 (coreUnit 0) x.scbStep 0

/-- An operation of a tenant has ended with a code: poison aborts the tenant's open step (R162). -/
def State.afterCode (s : State) (t code : Nat) : State := if code = 0x304 then s.abortStep t else s

/-- A command of a tenant ends with a memory-class fault, met by a unit (R162, R218). -/
def State.finishMem (s : State) (o r cid code kind unit va pa res0 : Nat) : State :=
  (((s.memFault code kind o unit va pa).markFaults o r cid).finish o r cid code res0 0).afterCode o code

end Sys2Proof.Machine
end

