-- ==== Sys2Proof/Machine/Agm.lean ====
section
/-! DEFINITION. The agreement monitor (Numerical safeguards, R104 to R110): the block count and its sample points, the samples
held, the FP32 reference, the disagreement, and its reports. -/

namespace Sys2Proof.Machine

/-- PERIOD in blocks (R118): PERIOD_LOG2 within 10 to 20. -/
def State.period (s : State) : Nat := 2 ^ min 20 (max 10 (s.rd F.arrAgmCtrlPeriodLog2))

/-- A draw of the monitor's private generator, as its seed gives it. -/
def State.agmDraw (s : State) : Nat := Config.entropy (2 ^ 40 * (s.agm.seed + 1) + s.agm.draws) % 2 ^ 32

/-- The monitor as the array domain leaves reset (R119): no sample is held, the block count is 0, and the generator takes a new seed. -/
def State.agmRestart (s : State) : State :=
  { s with agm := { Agm.reset with areas := s.agm.areas, seed := s.free } }.drawn

/-- The sample point that stands (R104): the first is block PERIOD ÷ 2. -/
def State.samplePointAt (s : State) : Nat := s.agm.next.getD (s.period / 2)

/-- Drained blocks are counted (R104, R105): the block at the sample point is offered, and the next point is drawn. `sample`
gives what would be sampled of block `i` of those drained now. -/
def State.countBlocks (s : State) (n : Nat) (sample : Nat → Sample) : State :=
  if !s.has F.arrAgmCtrlEnable then s
  else
    let first := s.agm.blocks
    let pt := s.samplePointAt
    let s := { s with agm := { s.agm with blocks := first + n, next := some pt } }
    -- sample points lie half of the least period, 512 blocks, apart at least
    times (fun s =>
      let p := s.samplePointAt
      if first ≤ p ∧ p < first + n then
        { s with agm := { s.agm with
            offered := s.agm.offered ++ [sample (p - first)]
            next := some (p + s.period / 2 + s.agmDraw % s.period)
            draws := s.agm.draws + 1 } }
      else s) (n / 512 + 2) s

/-- SAMPLE_POINT (R104, R110): the sample due is taken when fewer than four are held; else it is skipped and counted. -/
def State.samplePoint (s : State) : State :=
  match s.agm.offered with
  | [] => s
  | x :: rest =>
    let s := { s with agm := { s.agm with offered := rest } }
    if s.agm.held.length < 4 then
      { s with agm := { s.agm with held := s.agm.held ++ [x] } }.wr F.arrAgmStatusHeld (s.agm.held.length + 1)
    else ((s.addSat F.arrAgmSkipSkipped 1).setEvent F.arrAgmEventsSkip).count monitorUnit 2 1

def execSamplePoint (s : State) : Host.Outcome State Fault Refusal := .next (if s.arrayStops then s else s.samplePoint)

/-- The reference r_e of an element (R106). -/
def SampleElem.reference (x : SampleElem) (alpha : Word) : Nat :=
  let sum := x.pairs.foldl (fun acc p => f32add acc (f32mul p.1.toNat p.2.toNat)) 0
  let r := f32mul sum alpha.toNat
  match x.prior with
  | some c => f32add r c.toNat
  | none => r

/-- The disagreement of a block (R107), sums in ascending order of element; none when a value is not finite. -/
def disagreement (rs ys : List Nat) : Option Nat :=
  if rs.any f32bad || ys.any f32bad then none
  else
    let num := (rs.zip ys).foldl (fun a p => let d := f32sub p.2 p.1; f32add a (f32mul d d)) 0
    let den := rs.foldl (fun a r => f32add a (f32mul r r)) 0
    if rs.all fun r => (f32 r).isZero then
      some (if ys.all fun y => (f32 y).isZero then 0 else 0x7F800000)
    else some (f32div (f32sqrt num) (f32sqrt den))

/-- Whether a disagreement exceeds 2^−e; an exponent of 0 turns the test off. -/
def exceedsPow (d e : Nat) : Bool := e != 0 && (Fp.two (-(e : Int))).lt (f32 d)

/-- The tensor whose metadata area contains an address (R109). -/
def State.areaOwner (s : State) (t a : Nat) : Option Nat :=
  if a = 0 then none
  else (s.agm.areas.find? fun x => x.2.2.1 == t && decide (x.1 ≤ a ∧ a < x.1 + x.2.1)).map fun x => x.2.2.2

/-- Adds an attributed sample to its record (R109). -/
def NumRec.addSample (r : NumRec) (d : Option Nat) (warn alarm : Bool) : NumRec :=
  let r := { r with runSamples := r.runSamples + 1 }
  match d with
  | none => r
  | some d =>
    { r with
      stepSamples := r.stepSamples + 1
      stepDMax := maxWord r.stepDMax (BitVec.ofNat 32 d)
      stepDSum := BitVec.ofNat 32 (f32add r.stepDSum.toNat d)
      runDMax := maxWord r.runDMax (BitVec.ofNat 32 d)
      warnCount := r.warnCount + b2n warn
      alarmCount := r.alarmCount + b2n alarm
      alarmScore := min 255 (r.alarmScore + 4 * b2n alarm)
      alarmed := r.alarmed || alarm }

/-- SAMPLE_FINISH (R106 to R109): the first sample held is compared, counted, and reported. -/
def State.sampleFinish (s : State) : State :=
  match s.agm.held with
  | [] => s
  | x :: rest =>
    let s := { s with agm := { s.agm with held := rest } }.wr F.arrAgmStatusHeld rest.length
    let d := disagreement (x.elems.map fun e => e.reference x.alpha) (x.elems.map fun e => e.y.toNat)
    let warn := (d.map fun d => exceedsPow d (s.rd (F.arrAgmThreshWarnExp x.ofmt))).getD false
    let alarm := (d.map fun d => exceedsPow d (s.rd (F.arrAgmThreshAlarmExp x.ofmt))).getD false
    let h := (s.areaOwner x.tenant x.cMeta).getD 0
    let s := (s.add F.arrAgmCountSamples 1).count monitorUnit 1 1
    let s := if h = 0 then s else s.modRec x.tenant h fun r => r.addSample d warn alarm
    let s : State := if warn then ((s.setEvent F.arrAgmEventsWarn).count monitorUnit 3 1).tell x.tenant 0x204 monitorUnit h 0 else s
    if alarm then
      let s : State := (((s.setEvent F.arrAgmEventsAlarm).count monitorUnit 4 1).tell x.tenant 0x205 monitorUnit h 0).healthInput .agreement1
      if h != 0 && bit (s.tenant x.tenant).num.policy 1 then s.sendPoison x.tenant 4 monitorUnit h else s
    else s

def execSampleFinish (s : State) : Host.Outcome State Fault Refusal := .next (if s.arrayStops then s else s.sampleFinish)

/-- Whether the monitor holds, or is due, a sample of a tenant (R110). -/
def State.sampleHeld (s : State) (t : Nat) : Bool := (s.agm.held ++ s.agm.offered).any fun x => x.tenant == t

/-- A tenant reset discards the tenant's samples (R119). -/
def State.dropSamples (s : State) (t : Nat) : State :=
  let held := s.agm.held.filter fun x => x.tenant != t
  { s with agm := { s.agm with
      held := held
      offered := s.agm.offered.filter fun x => x.tenant != t
      areas := s.agm.areas.filter fun x => x.2.2.1 != t } }.wr F.arrAgmStatusHeld held.length

end Sys2Proof.Machine
end

