-- ==== Sys2Proof/Machine/PlaceOps.lean ====
section
/-! DEFINITION. The placement engine's own operations (Placement of data and work): handles, the parts of a tensor, frames and
packing, virtual addresses, charges, mapping, and release. -/

namespace Sys2Proof.Machine

def State.modPlace (s : State) (t : Nat) (f : Place → Place) : State := s.modTenant t fun x => { x with place := f x.place }

/-- A boundary of a tenant ends: the next has its own budget of moves (R288). -/
def State.endBoundary (s : State) (t : Nat) : State := s.modPlace t fun p => { p with moved := 0, worked := false }

/-! ### Handles (R278) -/

/-- A handle of an index and a generation. -/
def handleOf (gen idx : Nat) : Nat := gen * 2 ^ 20 + idx

def Tensor.handle (x : Tensor) : Nat := handleOf x.gen x.index

/-- The live tensor that a handle names; a stale handle names none. -/
def State.tensor? (s : State) (t h : Nat) : Option Tensor :=
  (s.tenant t).place.tensors.find? fun x => x.handle == h && !x.freed

/-- The tensor of a handle, freed or not: one freed keeps its frames until a boundary (R285). -/
def State.heldTensor (s : State) (t h : Nat) : Option Tensor := (s.tenant t).place.tensors.find? fun x => x.handle == h

def State.modTensor (s : State) (t h : Nat) (f : Tensor → Tensor) : State :=
  s.modPlace t fun p => { p with tensors := p.tensors.map fun x => if x.handle = h then f x else x }

/-- The generation that an index is issued with next. -/
def Place.nextGen (p : Place) (i : Nat) : Nat := match KMap.find p.gens i with | some g => (g + 1) % 4096 | none => 0

/-- The lowest index of a tenant that no live tensor has, and its next generation; a tensor freed and not yet released keeps its handle
from being issued again. -/
def State.newHandle (s : State) (t : Nat) : Option (Nat × Nat) :=
  let p := (s.tenant t).place
  ((upto 1 (min 1048575 (p.tensors.length + 1))).find? fun i =>
    !p.tensors.any fun x => x.index == i && (!x.freed || x.gen == p.nextGen i)).map fun i => (p.nextGen i, i)

/-! ### Parts of a class (R148, R281) -/

/-- The bytes of one vector of a format. -/
def vectorBytes (fmt n : Nat) : Nat :=
  if fmt = 0 then 4 * n else if fmt = 1 then 2 * n else if fmt = 2 ∨ fmt = 3 ∨ fmt = 4 then n
  else if fmt = 5 ∨ fmt = 6 then (n + 1) / 2 else (n + 3) / 4

/-- The block words of a metadata area for `n` elements. -/
def wordBytes (fmt n : Nat) : Nat := if fmt = 6 then n / 32 * 2 else if fmt = 7 then n / 32 * 4 else 0

/-- ESC_OFFSET: the header and the block words, to a multiple of 64. -/
def escOffset (fmt n : Nat) : Nat := (256 + wordBytes fmt n + 63) / 64 * 64

/-- The size of a side-area entry (R77). -/
def entryBytes (fmt : Nat) : Nat := if fmt = 6 then 48 else 32

/-- The size of a metadata area. -/
def metaBytes (fmt n cap : Nat) : Nat :=
  if fmt = 6 ∨ fmt = 7 then escOffset fmt n + cap * entryBytes fmt else 256

/-- A part to be allocated: query code, side, bytes, whether it always takes whole frames, and whether it is metadata. -/
structure PartSpec where
  code : Nat
  side : Nat
  bytes : Nat
  whole : Bool
  isMeta : Bool
  deriving DecidableEq, Repr

/-- The copies of a weight for one slot, or of a frozen weight: the forward copy, and for HN4 and T2 the backward copy. -/
def copySpecs (fmt v l cap side : Nat) (whole : Bool) : List PartSpec :=
  let one := fun (code rows n : Nat) =>
    [PartSpec.mk code side (rows * vectorBytes fmt n) whole false, PartSpec.mk (code + 1) side (metaBytes fmt (v * l) cap) whole true]
  one 0 v l ++ (if fmt = 6 ∨ fmt = 7 then one 2 l v else [])

/-- The parts that a declaration asks for, beside its numeric record. -/
def classParts (cls fmt v l flags cap : Nat) : List PartSpec :=
  let n := v * l
  let state := fun (side : Nat) =>
    [PartSpec.mk 4 side (4 * n) false false] ++ (if bit flags 0 then [PartSpec.mk 5 side (2 * n) false false] else []) ++
      [PartSpec.mk 6 side (4 * n) false false] ++ (if bit flags 1 then [PartSpec.mk 7 side (4 * n) false false] else [])
  match cls with
  | 1 => state 0 ++ state 1 ++ copySpecs fmt v l cap 0 true ++ copySpecs fmt v l cap 1 true
  | 2 => copySpecs fmt v l cap 0 (bits flags 3 2 != 0)
  | 8 => [PartSpec.mk 0 0 (v * vectorBytes fmt l) false false]
  | _ =>
    [PartSpec.mk 0 0 (v * vectorBytes fmt l) false false] ++
      (if fmt = 6 then [PartSpec.mk 1 0 (metaBytes fmt n cap) false true] else [])

/-- Whether a part is packed (R283). -/
def PartSpec.packed (x : PartSpec) : Bool := !x.whole && decide (x.bytes ≤ 2 ^ 20)

/-- Whole frames of a part. -/
def framesOf (bytes : Nat) : Nat := (bytes + 2 ^ 21 - 1) / 2 ^ 21

/-- The protection class of a class of tensors, with its CORRECTED constraint. -/
def correctedClass (cls : Nat) (c : Constraint) : Bool := cls == 1 || cls == 2 || bit c.flags 2

/-! ### Frames -/

/-- Frames of HBM that can be given out. -/
def State.frameCount (s : State) : Nat := (s.reg .hbmCapacity).toNat / 2 ^ 21

/-- The frames that are held by someone, or wait for a unit to drop its translation (R215). -/
def State.heldFrames (s : State) : List Nat :=
  s.usedFrames ++ (s.mem.tlb.map fun x => (x.2.map fun e => upto e.frame e.span).flatten).flatten

/-- Whether a frame can hold data of a class: its group has it, or nothing in the group is held. -/
def frameFits (s : State) (held : List Nat) (corr : Bool) (f : Nat) : Bool :=
  !(corr && f % 16 == 15) && !held.contains f &&
    (s.corrected (f * 2 ^ 21) == corr || !held.any fun h => h / 16 == f / 16)

/-- The lowest `n` frames from `f` on, of `fuel` tried, that can hold data of a class. -/
def findFrames (s : State) (held : List Nat) (corr : Bool) : Nat → Nat → Nat → List Nat
  | 0, _, _ => []
  | fuel + 1, f, n =>
    if n = 0 then []
    else if frameFits s held corr f then f :: findFrames s (f :: held) corr fuel (f + 1) (n - 1)
    else findFrames s held corr fuel (f + 1) n

/-- Free frames of a class, `n` of them, below frame `top`; fewer when they lack. -/
def State.freeFrames (s : State) (corr : Bool) (n top : Nat) : List Nat :=
  findFrames s s.heldFrames corr (top - systemFrames) systemFrames n

/-- Converts the groups of frames that have not their class yet (R264, R289). -/
def State.convertGroups (s : State) (corr : Bool) (fs : List Nat) : State :=
  fs.foldl (fun s f => if s.corrected (f * 2 ^ 21) = corr then s else s.setClass (f / 16) corr) s

/-! ### Slice map and hints (R290) -/

/-- The fill hint that REUSE gives; masters and moments are evict-first. -/
def reuseHint (reuse code : Nat) : Nat := if 4 ≤ code then 2 else if reuse = 0 then 2 else if reuse = 2 then 1 else 0

/-- Writes a frame's slice-map entry, with nothing of the frame in the store. -/
def State.setMapEntry (s : State) (f slice hint : Nat) : State :=
  if f < 196608 then
    let r := Reg.cstSlicemap (f / 8)
    let v := (s.reg r).toNat
    s.setReg r (BitVec.ofNat 64 (setBits v (4 * (f % 8)) 4 (slice + 4 * hint)))
  else s

/-- The slices of a mask, all four for 0. -/
def sliceList (m : Nat) : List Nat :=
  let xs := (upto 0 4).filter fun i => bit m i
  if xs.isEmpty then [0, 1, 2, 3] else xs

/-- Homes frames over slices in rotation. -/
def State.homeFrames (s : State) (fs : List Nat) (slices hint : Nat) : State :=
  let ss := sliceList slices
  fs.foldl (fun s f => (s.flushRange (f * 2 ^ 21) (2 ^ 21)).setMapEntry f (ss.getD (f % ss.length) 0) hint) s

/-! ### Virtual addresses (R209, R279) -/

/-- The numeric area's virtual address; the step and save areas follow it. -/
def numericVa : Nat := 2 ^ 21
def saveFrames : Nat := 1
def areaFrames : Nat := numFrames + stepFrames + saveFrames

/-- The bytes of virtual space kept for a part: a working copy may grow, up to from T2 to BF16, when its tensor escalates. -/
def reservedBytes (cls code bytes : Nat) : Nat := if cls = 1 ∧ code < 4 then 8 * bytes else bytes

/-- The stretches of a tenant's virtual space that parts of a class take: address and length. -/
def partsTaken (cls : Nat) (ps : List Part) : List (Nat × Nat) :=
  (ps.filter fun (q : Part) => q.packOff.isNone).map fun (q : Part) => (q.va, framesOf (reservedBytes cls q.code q.bytes) * 2 ^ 21)

/-- The stretches of a tenant's virtual space in use: address and length. -/
def Place.taken (p : Place) : List (Nat × Nat) :=
  (numericVa, areaFrames * 2 ^ 21) ::
    ((p.packs.map fun k => (k.va, 2 ^ 21)) ++ (p.tensors.map fun x => partsTaken x.cls x.parts).flatten)

/-- The lowest address from `a` on, aligned, where `n` bytes are free of some stretches; `fuel` at least their number + 1. -/
def fitVa (taken : List (Nat × Nat)) (align n : Nat) : Nat → Nat → Nat
  | 0, a => a
  | fuel + 1, a =>
    match taken.find? fun x => decide (x.1 < a + n ∧ a < x.1 + x.2) with
    | some x => fitVa taken align n fuel ((x.1 + x.2 + align - 1) / align * align)
    | none => a

/-- A new virtual address for frames, clear of some stretches. -/
def newVa (taken : List (Nat × Nat)) (bytes : Nat) : Nat :=
  let align := if 2 ^ 30 < bytes then 2 ^ 30 else 2 ^ 21
  fitVa taken align (framesOf bytes * 2 ^ 21) (taken.length + 1) align

/-! ### Charges (R289) -/

/-- MiB charged for detect-only and corrected frames. -/
def chargeOf (detect corr : Nat) : Nat := 2 * detect + (corr * 32 + 14) / 15

/-- What a tenant has been charged: areas, pack frames, tensors. -/
def State.hbmCharged (s : State) (t : Nat) : Nat :=
  let p := (s.tenant t).place
  chargeOf 0 (if p.areas.isEmpty then 0 else numFrames + stepFrames) +
    sumNat (p.packs.map fun k => if k.corrected then chargeOf 0 1 else chargeOf 1 0) + sumNat (p.tensors.map (·.charged))

/-- Whether a part is pinned by a PIN constraint: the copies and data, not state buffers. -/
def Part.pinnable (q : Part) : Bool := decide (q.code < 4)

/-- Whole MiB of some bytes. -/
def mibOf (n : Nat) : Nat := (n + 2 ^ 20 - 1) / 2 ^ 20

/-- The bytes that a tensor's PIN asks for, and those of them that are pinned. -/
def Tensor.pinBytes (x : Tensor) : Nat := sumNat ((x.parts.filter Part.pinnable).map (·.bytes))
def Tensor.pinnedBytes (x : Tensor) : Nat := sumNat ((x.parts.filter fun q => q.pinned).map (·.bytes))

/-- Whether a tensor has a PIN constraint once what waits has taken effect. -/
def Tensor.asksPin (x : Tensor) : Bool :=
  match x.pending with
  | some (clear, c) => (bit x.constraint.flags 0 && !bit clear 0) || bit c.flags 0
  | none => bit x.constraint.flags 0

/-- MiB charged for pins: the pinned bytes of the tensors that ask for a PIN (R289). -/
def State.pinCharged (s : State) (t : Nat) : Nat :=
  mibOf (sumNat (((s.tenant t).place.tensors.filter fun x => !x.freed && bit x.constraint.flags 0).map Tensor.pinnedBytes))

/-- A tenant's scratchpad pages (R289, R291). -/
def State.scratchPages (s : State) (t : Nat) : List Nat :=
  ((s.tenant t).place.tensors.map fun x => (partFrames x.parts).filter fun f => decide (196608 ≤ f)).flatten

/-- MiB charged for scratchpad pages. -/
def State.scratchCharged (s : State) (t : Nat) : Nat := 2 * (s.scratchPages t).length

/-! ### Allocation of parts -/

/-- The bytes to a multiple of 256. -/
def up256 (n : Nat) : Nat := (n + 255) / 256 * 256

/-- Rights of a class's pages (R132, R211): W but for frozen weights, EXEC for scratch. -/
def classW (cls : Nat) : Bool := cls != 2
def classExec (cls : Nat) : Bool := cls == 8

/-- Puts a part into a pack frame, a new one when none has room: nothing when a frame lacks. -/
def State.packPart (s : State) (t cls : Nat) (corr : Bool) (x : PartSpec) (done : List (Nat × Nat)) (slices hint : Nat) : Option (State × Part) :=
  let p := (s.tenant t).place
  let n := up256 x.bytes
  let mine := fun (k : Pack) => k.corrected == corr && k.w == classW cls && k.exec == classExec cls
  let part := fun (k : Pack) =>
    { code := x.code, side := x.side, bytes := x.bytes, va := k.va + k.used, frames := [k.frame], packOff := some k.used,
      corrected := corr, spilled := false, moving := false, pinned := false, declined := false, movedStep := 0 : Part }
  match p.packs.find? fun k => mine k && decide (k.used + n ≤ 2 ^ 21) with
  | some k =>
    some (s.modPlace t fun p => { p with packs := p.packs.map fun j =>
        if j.frame = k.frame then { j with used := j.used + n, parts := j.parts + 1 } else j }, part k)
  | none =>
    match s.freeFrames corr 1 s.frameCount with
    | f :: _ =>
      let k : Pack :=
        { frame := f, va := newVa (p.taken ++ done) 1, corrected := corr, w := classW cls, exec := classExec cls, used := 0, parts := 0 }
      if vaEnd ≤ k.va then none
      else
      let s := (s.convertGroups corr [f]).homeFrames [f] slices hint
      let s := (s.grantFrames t k.w [f]).mapPage t k.va f k.w k.exec
      some (s.modPlace t fun p => { p with packs := p.packs ++ [{ k with used := n, parts := 1 }] }, part k)
    | [] => none

/-- The virtual address of a part of its own pages, clear of those made before it: a working copy's other slot shares the address
of the first. -/
def State.sideVa (s : State) (t cls : Nat) (done : List Part) (x : PartSpec) : Nat :=
  match done.find? fun q => x.code < 4 && q.code == x.code with
  | some q => q.va
  | none => newVa ((s.tenant t).place.taken ++ partsTaken cls done) (reservedBytes cls x.code x.bytes)

/-- Whether a part is mapped: a working copy only in the slot in force. -/
def mapped (cls code side inForce : Nat) : Bool := cls != 1 || decide (4 ≤ code) || side == inForce

/-- Maps a part at its address. -/
def State.mapPart (s : State) (t cls : Nat) (q : Part) : State :=
  s.mapPages (q.frames.length + 1) t q.va q.frames (decide (2 ^ 30 < q.bytes)) (classW cls) (classExec cls)

/-- Gives a part whole frames and its own pages. -/
def State.wholePart (s : State) (t cls : Nat) (corr : Bool) (x : PartSpec) (done : List Part) (slices hint inForce : Nat) :
    Option (State × Part) :=
  let n := framesOf x.bytes
  let fs := s.freeFrames corr n s.frameCount
  let va := s.sideVa t cls done x
  if fs.length < n ∨ vaEnd < va + framesOf (reservedBytes cls x.code x.bytes) * 2 ^ 21 then none
  else
    let q : Part :=
      { code := x.code, side := x.side, bytes := x.bytes, va := va, frames := fs, packOff := none, corrected := corr
        spilled := false, moving := false, pinned := false, declined := false, movedStep := 0 }
    let s := ((s.convertGroups corr fs).homeFrames fs slices hint).grantFrames t (classW cls) fs
    some (if mapped cls x.code x.side inForce then s.mapPart t cls q else s, q)

/-- The physical address of an offset in a part. -/
def Part.addr (q : Part) (off : Nat) : Nat :=
  match q.packOff with
  | some o => frameAddr (q.frames.headD 0) + o + off
  | none => frameAddr (q.frames.getD (off / 2 ^ 21) 0) + off % 2 ^ 21

/-- The physical pieces of a span of a part; what lies past its frames is nowhere. -/
def Part.pieces (q : Part) (off n : Nat) : List (Nat × Nat) :=
  let n := match q.packOff with
    | some _ => if q.frames.isEmpty then 0 else min n (q.bytes - off)
    | none => min n (q.frames.length * 2 ^ 21 - off)
  if n = 0 then []
  else
    match q.packOff with
    | some _ => [(q.addr off, n)]
    | none => (pagePieces off n).map fun x => (q.addr x.1, x.2)

/-- Where in a part an offset of a frame lies. -/
def Part.offsetOf (q : Part) (f o : Nat) : Option Nat :=
  match q.packOff with
  | some p => if q.frames.headD 0 = f ∧ !q.frames.isEmpty ∧ p ≤ o ∧ o < p + q.bytes then some (o - p) else none
  | none => (findAt (fun g => g == f) q.frames).bind fun i => if i * 2 ^ 21 + o < q.bytes then some (i * 2 ^ 21 + o) else none

/-- Whether an active barrier record lies in a frame, or in some parts: the engine neither unmaps, moves nor unpins it (R341). -/
def State.recordFrame (s : State) (f : Nat) : Bool := s.syn.any fun y => frameOf y.2.pa == some f

def State.holdsRecord (s : State) (ps : List Part) : Bool :=
  s.syn.any fun y => match frameOf y.2.pa with
    | some f => ps.any fun q => (q.offsetOf f (y.2.pa % 2 ^ 21)).isSome
    | none => false

/-- Reads, and writes, bytes of a part as the placement engine or the update engine does. -/
def State.readPart (s : State) (q : Part) (off n : Nat) : List Byte := s.readSpans (q.pieces off n)

def State.writePart (s : State) (q : Part) (off : Nat) (bs : List Byte) : State := s.writeSpans (q.pieces off bs.length) bs

/-- Writes a new metadata area's header fields, and registers it with the handle (R109, R281). -/
def State.openMeta (s : State) (t h fmt n cap : Nat) (q : Part) : State :=
  let s := if fmt = 6 ∨ fmt = 7 then s.writePart q 0xC (leBytes 4 cap ++ leBytes 8 (escOffset fmt n)) else s
  if s.agm.areas.any fun x => x.1 == q.va && x.2.2.1 == t then s
  else { s with agm := { s.agm with areas := s.agm.areas ++ [(q.va, q.bytes, t, h)] } }

/-- Allocates parts one after the other: nothing when frames lack. -/
def State.buildParts (s : State) (t h cls fmt n cap : Nat) (corr : Bool) (slices reuse inForce : Nat) :
    List PartSpec → List Part → Option (State × List Part)
  | [], done => some (s, done)
  | x :: rest, done =>
    let hint := reuseHint reuse x.code
    match if x.packed then s.packPart t cls corr x (partsTaken cls done) slices hint else s.wholePart t cls corr x done slices hint inForce with
    | none => none
    | some (s, q) =>
      let s := if x.isMeta then s.openMeta t h fmt n cap q else s
      s.buildParts t h cls fmt n cap corr slices reuse inForce rest (done ++ [q])

/-- The pack frames that parts would add, for the quota (R289): each part goes into the first pack frame with room, as it does when
it is built, and each new pack frame is charged whole. -/
def newPacks (rooms : List Nat) : List PartSpec → Nat
  | [] => 0
  | x :: rest =>
    let n := up256 x.bytes
    if !x.packed then newPacks rooms rest
    else
      match findAt (fun r => decide (n ≤ r)) rooms with
      | some i => newPacks (modAt rooms i (· - n)) rest
      | none => 1 + newPacks (rooms ++ [2 ^ 21 - n]) rest

/-- The room left in a tenant's pack frames of some rights, in order. -/
def State.packRooms (s : State) (t cls : Nat) (corr : Bool) : List Nat :=
  ((s.tenant t).place.packs.filter fun k => k.corrected == corr && k.w == classW cls && k.exec == classExec cls).map fun k =>
    2 ^ 21 - k.used

/-- The whole frames of some parts. -/
def wholeFrames (xs : List PartSpec) : Nat := sumNat ((xs.filter fun x => !x.packed).map fun x => framesOf x.bytes)

/-! ### Release (R285) -/

/-- Drops a part from its pack frame; the frame goes when it was the last, and is zeroed once no unit can reach it. -/
def State.unpack (s : State) (t f : Nat) : State :=
  let p := (s.tenant t).place
  match p.packs.find? fun k => k.frame == f with
  | none => s
  | some k =>
    if 1 < k.parts then s.modPlace t fun p => { p with packs := p.packs.map fun j => if j.frame = f then { j with parts := j.parts - 1 } else j }
    else
      (((s.unmapPages t k.va 1).revokeFrames t [f]).retire [f]).modPlace t fun p => { p with packs := p.packs.filter fun j => j.frame != f }

/-- Releases a part of a tenant's own: its pages go, and its frames are zeroed once no unit can reach them. -/
def State.releasePart (s : State) (t : Nat) (q : Part) : State :=
  match q.packOff with
  | some _ => s.unpack t (q.frames.headD 0)
  | none => ((s.unmapPages t q.va q.frames.length).revokeFrames t q.frames).retire q.frames

/-- Detaches a tenant from a shared frozen weight: its pages and read bits go. -/
def State.detachPart (s : State) (t : Nat) (q : Part) : State := (s.unmapPages t q.va q.frames.length).revokeFrames t q.frames

/-- The key of a frame's image in the spill area, and in the frozen-image area (R284, R293). -/
def spillKey (t h code i : Nat) : Nat := ((t * 2 ^ 32 + h) * 16 + code) * 2 ^ 24 + i
def imageKey (name code i : Nat) : Nat := (name * 16 + code) * 2 ^ 24 + i

/-- The name under which a frozen weight that is not shared stands among the frozen weights: above every SHARE_NAME. -/
def ownName (t h : Nat) : Nat := 2 ^ 64 + t * 2 ^ 32 + h

/-- The frozen weight that a tensor is. -/
def State.frozenOf (s : State) (t : Nat) (x : Tensor) : Option Frozen :=
  if x.cls = 2 then s.frozen.find? fun z => z.sharers.any fun y => y == (t, x.handle) else none

def State.modFrozen (s : State) (name : Nat) (f : Frozen → Frozen) : State :=
  { s with frozen := s.frozen.map fun z => if z.name = name then f z else z }

/-- Drops a frozen weight's images. -/
def State.dropImages (s : State) (z : Frozen) : State :=
  { s with flash := { s.flash with frozen := s.flash.frozen.filter fun x => !decide (x.1 / 2 ^ 28 = z.name) } }

/-- Drops what a tensor holds in the spill area. -/
def State.dropSpill (s : State) (t h : Nat) : State :=
  { s with flash := { s.flash with spill := s.flash.spill.filter fun x => !decide (x.1 / 2 ^ 28 = t * 2 ^ 32 + h) } }

/-- Releases what a tensor holds: its parts, or its share of a frozen weight, whose frames go with the last sharer. -/
def State.releaseParts (s : State) (t : Nat) (x : Tensor) : State :=
  match s.frozenOf t x with
  | none => (x.parts.foldl (fun (s : State) (q : Part) => s.releasePart t q) s).dropSpill t x.handle
  | some z =>
    let left := z.sharers.filter fun y => y != (t, x.handle)
    if !left.isEmpty then
      (x.parts.foldl (fun (s : State) (q : Part) => s.detachPart t q) s).modFrozen z.name fun z => { z with sharers := left }
    else
      let s := x.parts.foldl (fun (s : State) (q : Part) => s.releasePart t q) s
      { s.dropImages z with frozen := s.frozen.filter fun (y : Frozen) => y.name != z.name }

/-- Removes a tensor that was freed: frames, numeric record, metadata registration. -/
def State.removeTensor (s : State) (t : Nat) (x : Tensor) : State :=
  let h := x.handle
  let s := s.releaseParts t x
  let s := { s with agm := { s.agm with areas := s.agm.areas.filter fun a => !(a.2.2.1 == t && a.2.2.2 == h) } }
  s.modTenant t fun y =>
    { y with
      recs := KMap.del y.recs h
      place := { y.place with tensors := y.place.tensors.filter fun z => z.handle != h } }

end Sys2Proof.Machine
end

