-- ==== Sys2Proof/Machine/Copies.lean ====
section
/-! DEFINITION. Grids of elements in memory (Number formats and rounding, R71, R75 to R80, R90, R123, R154): packing codes,
quantising a grid into a format with its metadata, decoding one, and the working copies that the update engine writes. -/

namespace Sys2Proof.Machine

/-! ### Packing (R71) -/

/-- The bits of an element of a format; FP32 for 0. -/
def fmtBits (fmt : Nat) : Nat :=
  if fmt = 0 then 32 else if fmt = 1 then 16 else if fmt = 5 ∨ fmt = 6 then 4 else if fmt = 7 then 2 else 8

/-- Codes narrower than a byte gathered into bytes, the first lowest. -/
def packBits (w : Nat) (xs : List Nat) : List Byte :=
  (chunks (8 / w) xs.length xs).map fun c => BitVec.ofNat 8 (c.foldr (fun x acc => acc * 2 ^ w + x % 2 ^ w) 0)

/-- A vector of codes as bytes. -/
def packVector (fmt : Nat) (xs : List Nat) : List Byte :=
  let w := fmtBits fmt
  if 8 ≤ w then (xs.map fun x => leBytes (w / 8) x).flatten else packBits w xs

/-- Element `i` of a vector of a format in bytes. -/
def elementAt (fmt : Nat) (bs : List Byte) (i : Nat) : Nat :=
  let w := fmtBits fmt
  if 8 ≤ w then fld bs (w / 8 * i) (w / 8) else fld bs (w * i / 8) 1 / 2 ^ (w * i % 8) % 2 ^ w

/-- The number format of a format code that stands alone, without blocks. -/
def plainFmt (fmt : Nat) : Option Fmt :=
  match fmt with
  | 0 => some .fp32
  | 1 => some .bf16
  | 2 => some .e4m3
  | 3 => some .e5m2
  | _ => none

/-- A value's code in a format without blocks. -/
def plainCode (fmt : Nat) (m : RMode) (sat : Bool) (v : Fp) : Nat :=
  match plainFmt fmt with
  | some f => f.round m sat v
  | none => unsigned (fmtBits fmt) (v.toIntSat (fmtBits fmt) m)

/-- The value of a code in a format without blocks. -/
def plainValue (fmt c : Nat) : Fp :=
  match plainFmt fmt with
  | some f => f.decode c
  | none => Fp.ofInt (signed (fmtBits fmt) c)

/-! ### Blocks (R72 to R80) -/

/-- Whether a block word marks an escape. -/
def escaped (fmt word : Nat) : Bool := if fmt = 6 then word % 256 == 0xFF else word / 2 ^ 24 == 0xFF

/-- The exact value of element `k` of a block, of tile scale `tile`; `entry` is an HN4 entry's ESCALE or a T2 entry's WORD, with
its DATA. -/
def blockValue (fmt : Nat) (tile : Fp) (word : Nat) (entry : Option (Nat × List Nat)) (k code : Nat) : Fp :=
  let x :=
    if escaped fmt word then
      match entry with
      | some (e, d) =>
        if fmt = 6 then (f32 e).mul (Fmt.decode .e4m3 (d.getD k 0)) else hnValue e k (d.getD k 0)
      | none => .nan false
    else if fmt = 6 then hnValue word k code else t2Value word code
  x.mul tile

/-- A value decoded to FP32 (R90): formed in FA40 and rounded once. -/
def decodedWord (v : Fp) : Nat := toF32 (Fmt.fit .fa40 v)

/-- The bytes of an escape entry (R77). -/
def entryOf (fmt pos kblock : Nat) (e : Nat × List Nat) : List Byte :=
  leBytes 4 pos ++ leBytes 4 kblock ++
    (if fmt = 6 then leBytes 4 e.1 ++ zeros 4 ++ packVector 2 e.2 else leBytes 2 e.1 ++ zeros 6 ++ packVector 6 e.2)

/-- An escape entry's scale and DATA, read from its bytes. -/
def entryRead (fmt : Nat) (bs : List Byte) : Nat × List Nat :=
  if fmt = 6 then (fld bs 8 4, (upto 0 32).map fun k => elementAt 2 (bs.drop 16) k)
  else (fld bs 8 2, (upto 0 32).map fun k => elementAt 6 (bs.drop 16) k)

/-! ### Quantising a grid -/

/-- A grid quantised: its vectors' codes, its blocks in the order of R76, and the header's counts. -/
structure QGrid where
  rows : List (List Nat)
  blocks : List QBlock
  escCount : Nat
  denied : Nat
  flush : Nat
  nonfinite : Nat
  deriving DecidableEq, Repr

/-- The value at vector `v` and position `p`. -/
def gridAt (vs : List (List Fp)) (v p : Nat) : Fp := (vs.getD v []).getD p (.fin false 0 0)

/-- The blocks of a grid of vectors of `l` positions, blocked across, in ascending K-block and position; `mode` gives each
element's rounding by its place in layout order, `junk` what the spec leaves open of an escaped block. -/
def gridBlocks (fmt cap limit l : Nat) (mode : Nat → RMode) (junk : Nat → Nat) (vs : List (List Fp)) : List QBlock :=
  ((upto 0 (vs.length / 32 * l)).foldl
    (fun (acc : List QBlock × Nat) i =>
      let xs := (upto 0 32).map fun k => gridAt vs (32 * (i / l) + k) (i % l)
      let m := fun (k : Nat) => mode ((32 * (i / l) + k) * l + i % l)
      let room := decide (acc.2 < cap)
      let q := if fmt = 6 then quantHN4 m m limit room (junk i) xs else quantT2 m limit room (junk i) xs
      (acc.1 ++ [q], acc.2 + b2n q.entry.isSome)) ([], 0)).1

/-- Quantises a grid whose values are already divided by the tile scale. -/
def quantGrid (fmt cap limit l : Nat) (sat : Bool) (mode : Nat → RMode) (junk : Nat → Nat) (vs : List (List Fp)) : QGrid :=
  if fmt = 6 ∨ fmt = 7 then
    let qs := gridBlocks fmt cap limit l mode junk vs
    { rows := (upto 0 vs.length).map fun v => (upto 0 l).map fun p =>
        match qs[v / 32 * l + p]? with
        | some q => q.codes.getD (v % 32) 0
        | none => 0
      blocks := qs
      escCount := countIf (fun q => q.entry.isSome) qs
      denied := sumNat (qs.map (·.denied)), flush := sumNat (qs.map (·.flush)), nonfinite := sumNat (qs.map (·.nonfinite)) }
  else
    { rows := (upto 0 vs.length).map fun v => (upto 0 l).map fun p => plainCode fmt (mode (v * l + p)) sat (gridAt vs v p)
      blocks := [], escCount := 0, denied := 0, flush := 0
      nonfinite := sumNat (vs.map fun row => countIf (fun x => !x.finite) (row.take l)) }

/-- The block words of a grid, as bytes. -/
def QGrid.words (g : QGrid) (fmt : Nat) : List Byte := (g.blocks.map fun q => leBytes (if fmt = 6 then 2 else 4) q.word).flatten

/-- Its escape entries, as bytes. -/
def QGrid.entries (g : QGrid) (fmt l : Nat) : List Byte :=
  ((upto 0 g.blocks.length).map fun i =>
    match g.blocks[i]? with
    | some q => match q.entry with | some e => entryOf fmt (i % l) (i / l) e | none => []
    | none => []).flatten

/-- The value that a grid holds at a vector and position, of tile scale `tile`. -/
def QGrid.value (g : QGrid) (fmt l : Nat) (tile : Fp) (v p : Nat) : Fp :=
  let code := (g.rows.getD v []).getD p 0
  if fmt = 6 ∨ fmt = 7 then
    match g.blocks[v / 32 * l + p]? with
    | some q => blockValue fmt tile q.word q.entry (v % 32) code
    | none => .fin false 0 0
  else (plainValue fmt code).mul tile

/-- The header fields that a producer of a copy writes (R75, R154): all but ESC_CAPACITY, ESC_OFFSET and ESC_LIMIT. -/
def headerAfter (hd : List Byte) (fmt : Nat) (tile amax : Word) (g : QGrid) : List Byte :=
  let hd := setFld (setFld (setFld hd 0 4 tile.toNat) 4 4 amax.toNat) 8 4 g.escCount
  setFld (setFld (setFld (setFld hd 0x19 1 fmt) 0x1C 4 g.nonfinite) 0x20 4 g.denied) 0x24 4 g.flush

/-! ### Working copies and frozen weights (R123, R154, R155) -/

/-- A value grid turned: vector `p` takes what stood at position `p`. -/
def turned {α : Type} (d : α) (l : Nat) (vs : List (List α)) : List (List α) :=
  (upto 0 l).map fun p => vs.map fun row => row.getD p d

/-- FP32 words cut into vectors. -/
def gridOf (l : Nat) (ws : List Nat) : List (List Nat) := chunks l ws.length ws

/-- The FP32 words of bytes. -/
def wordsOf (bs : List Byte) : List Nat := (upto 0 (bs.length / 4)).map fun i => fld bs (4 * i) 4

/-- The greatest finite magnitude of FP32 words. -/
def amaxOf (ws : List Nat) : Word :=
  ws.foldl (fun m w => if (f32 w).finite then maxWord m (BitVec.ofNat 32 (w % 2 ^ 31)) else m) 0

/-- What rounds each element of a copy: one draw each from a stream, or nearest even. -/
def copyMode (key : Option Nat) (c0 i : Nat) : RMode :=
  match key with
  | some k => .stochastic (drawAt k (c0 + i))
  | none => .nearest

/-- Writes one copy of a grid of FP32 words into a part and its metadata, and offers its blocks to the agreement monitor with the
words themselves as reference (R109). AMAX is in real units for HN4 and T2, divided by T for FP8. -/
def State.writeCopy (s : State) (t fmt : Nat) (tile amax : Word) (mode : Nat → RMode) (data md : Part) (vs : List (List Nat)) :
    State :=
  let l := (vs.headD []).length
  let hd := s.readPart md 0 256
  let tv := f32 tile.toNat
  let e := scaleLog tile
  let junk := fun i => Config.freeValue (s.free + i)
  let g := quantGrid fmt (fld hd 0xC 4) (fld hd 0x18 1) l (fmt == 2 || fmt == 3) mode junk
    (vs.map fun row => row.map fun w => if scaledFmt fmt then (f32 w).shift (-e) else f32 w)
  let s := { s with free := s.free + g.blocks.length }
  let s := s.writePart data 0 (g.rows.map fun r => packVector fmt r).flatten
  let s := s.writePart md 256 (g.words fmt)
  let s := if g.escCount = 0 then s else s.writePart md (fld hd 0x10 8) (g.entries fmt l)
  let shown := if fmt = 2 ∨ fmt = 3 then BitVec.ofNat 32 (toF32 ((f32 amax.toNat).shift (-e))) else amax
  let s := s.writePart md 0 (headerAfter hd fmt tile shown g)
  let across := (l + 63) / 64
  s.countBlocks ((vs.length + 63) / 64 * across) fun i =>
    { tenant := t, cMeta := md.va, ofmt := fmt, alpha := 0x3F800000
      elems := ((upto (64 * (i / across)) (min 64 (vs.length - 64 * (i / across)))).map fun v =>
        (upto (64 * (i % across)) (min 64 (l - 64 * (i % across)))).map fun p =>
          { pairs := [(BitVec.ofNat 32 ((vs.getD v []).getD p 0), 0x3F800000)], prior := none
            y := BitVec.ofNat 32 (decodedWord (g.value fmt l (if scaledFmt fmt then tv else .fin false 1 0) v p))
              : SampleElem }).flatten }

/-- A tensor's part of a code in a slot. -/
def findPart (ps : List Part) (code side : Nat) : Option Part := ps.find? fun q => q.code == code && q.side == side

/-- Writes the forward copy, and for HN4 and T2 the backward copy, of a grid (R123); `key` is the stream's for stochastic rounding,
and each copy takes one draw for each element from `c0` on. -/
def State.writeCopies (s : State) (t fmt : Nat) (tile amax : Word) (key : Option Nat) (c0 : Nat) (ps : List Part) (side : Nat)
    (vs : List (List Nat)) : State :=
  let l := (vs.headD []).length
  let s := match findPart ps 0 side, findPart ps 1 side with
    | some d, some m => s.writeCopy t fmt tile amax (copyMode key c0) d m vs
    | _, _ => s
  match findPart ps 2 side, findPart ps 3 side with
  | some d, some m => s.writeCopy t fmt tile amax (copyMode key (c0 + vs.length * l)) d m (turned 0 l vs)
  | _, _ => s

/-- The elements that the copies of a format hold together: the draws they take. -/
def copyDraws (fmt v l : Nat) : Nat := if fmt = 6 ∨ fmt = 7 then 2 * v * l else v * l

end Sys2Proof.Machine
end

