-- ==== Sys2Proof/Machine/Shake.lean ====
section
/-! DEFINITION. SHAKE256, the hash of the device's digests (R405, R457, R467). The spec names the function and leaves
its definition to the standard; the text here follows the standard (PRESUMED). -/

namespace Sys2Proof.Machine

/-- A 64-bit word rotated left. -/
def rotl64 (v n : Nat) : Nat := v * 2 ^ n % 2 ^ 64 + v / 2 ^ (64 - n)

/-- Lane `i` of the sponge's state. -/
def lane (a : List Nat) (i : Nat) : Nat := a.getD i 0

/-- The walk over the lanes: after lane (x, y) comes (y, 2x + 3y), from (1, 0). -/
def shakeWalk : Nat → Nat → Nat → List Nat
  | 0, _, _ => []
  | n + 1, x, y => (x + 5 * y) :: shakeWalk n y ((2 * x + 3 * y) % 5)

/-- How far lane `j` is rotated: the `k`-th lane of the walk, from 1, by the `k`-th triangular number; lane 0 by none. -/
def shakeTurn (j : Nat) : Nat :=
  match findAt (fun i => i == j) (shakeWalk 24 1 0) with
  | some k => (k + 1) * (k + 2) / 2 % 64
  | none => 0

/-- The register of eight bits that the round constants are read from, after `n` shifts: its feedback is x^8 + x^6 + x^5 + x^4 + 1. -/
def shakeFeed : Nat → Nat
  | 0 => 1
  | n + 1 =>
    let r := 2 * shakeFeed n
    if 2 ^ 8 ≤ r then Nat.xor r (2 ^ 8 + 2 ^ 6 + 2 ^ 5 + 2 ^ 4 + 1) else r

/-- The constant of round `r`: bit 2^j - 1 is the register's lowest bit after j + 7r shifts. -/
def shakeConst (r : Nat) : Nat :=
  sumNat ((upto 0 7).map fun j => if (shakeFeed (j + 7 * r)).testBit 0 then 2 ^ (2 ^ j - 1) else 0)

/-- The rotations and the constants, formed once. -/
def shakeTurns : List Nat := (upto 0 25).map shakeTurn
def shakeConsts : List Nat := (upto 0 24).map shakeConst

/-- The parity of a column of lanes. -/
def keccakColumn (a : List Nat) (x : Nat) : Nat :=
  Nat.xor (lane a x) (Nat.xor (lane a (x + 5)) (Nat.xor (lane a (x + 10)) (Nat.xor (lane a (x + 15)) (lane a (x + 20)))))

/-- One round. -/
def keccakRound (a : List Nat) (rc : Nat) : List Nat :=
  let c := (upto 0 5).map (keccakColumn a)
  let d := (upto 0 5).map fun x => Nat.xor (lane c ((x + 4) % 5)) (rotl64 (lane c ((x + 1) % 5)) 1)
  let t := (upto 0 25).map fun i => Nat.xor (lane a i) (lane d (i % 5))
  -- lane (x, y) of the result comes from the lane (x + 3y, x)
  let b := (upto 0 25).map fun i =>
    let j := (i % 5 + 3 * (i / 5)) % 5 + 5 * (i % 5)
    rotl64 (lane t j) (shakeTurns.getD j 0)
  let e := (upto 0 25).map fun i =>
    let y := 5 * (i / 5)
    Nat.xor (lane b i) (Nat.land (2 ^ 64 - 1 - lane b ((i + 1) % 5 + y)) (lane b ((i + 2) % 5 + y)))
  match e with
  | e0 :: es => Nat.xor e0 rc :: es
  | [] => []

/-- The permutation. -/
def keccak (a : List Nat) : List Nat := shakeConsts.foldl keccakRound a

/-- A block of 136 bytes taken into the state. -/
def keccakAbsorb (a : List Nat) (blk : List Byte) : List Nat :=
  keccak ((upto 0 25).map fun i => Nat.xor (lane a i) (fld blk (8 * i) 8))

/-- The message padded to whole blocks: 1Fh, zeros, and 80h in the last byte. -/
def shakePad (m : List Byte) : List Byte :=
  let k := 136 - m.length % 136
  if k = 1 then m ++ [0x9F] else m ++ [0x1F] ++ zeros (k - 2) ++ [0x80]

/-- The output's first `n` blocks. -/
def shakeSqueeze : Nat → List Nat → List Byte
  | 0, _ => []
  | n + 1, a => ((a.take 17).map (leBytes 8)).flatten ++ shakeSqueeze n (keccak a)

/-- The first `n` bytes of SHAKE256 over a message. -/
def shake256 (n : Nat) (m : List Byte) : List Byte :=
  let p := shakePad m
  (shakeSqueeze (n / 136 + 1) ((chunks 136 p.length p).foldl keccakAbsorb (List.replicate 25 0))).take n

/-- The 32-byte digest of a message, as a number of 256 bits, byte 0 least significant. -/
def digest256 (m : List Byte) : BitVec 256 := BitVec.ofNat 256 (leNat (shake256 32 m))

end Sys2Proof.Machine
end

