-- ==== Sys2Proof/Machine/Place.lean ====
section
/-! DEFINITION. The placement commands (Placement of data and work): ALLOC, FREE, QUERY, CONSTRAIN and FROZEN_LOAD. -/

namespace Sys2Proof.Machine

/-! ### Service firmware's own accesses to tenant memory -/

/-- Service firmware reads, and writes, a tenant's memory; it caches no translation. -/
def State.fwRead (s : State) (t va n : Nat) : State × Fetched := s.fetchSpan (coreUnit 0) 0 t va n false
def State.fwWrite (s : State) (t va : Nat) (bs : List Byte) : State × Fetched := s.storeSpan (coreUnit 0) 0 t va bs

/-- Runs a command on a record of `n` bytes that it names in tenant memory, 64-byte aligned. -/
def State.withRecord (s : State) (t r : Nat) (e : Entry) (va n : Nat) (k : State → List Byte → State) : State :=
  if va % 64 ≠ 0 then s.finish t r e.cid 0x602 0 0
  else
    match s.fwRead t va n with
    | (s, .fault c a pa) => s.finishMem t r e.cid c kindEngineRead (coreUnit 0) a pa 0
    | (s, .ok bs) => k s bs

/-! ### What runs, and step boundaries (R286) -/

/-- Whether a launch, array, row or update operation of a tenant runs. -/
def State.running (s : State) (t : Nat) : Bool :=
  s.launches.any (fun l => l.tenant == t) || s.arr.ops.any (fun o => o.tenant == t) || s.spn.ops.any (fun o => o.tenant == t) ||
    (s.tenant t).step.work.isSome

/-- Whether an outbound fabric operation of a tenant is on its way, or waits for an engine (R216). -/
def State.outbound (s : State) (t : Nat) : Bool :=
  s.fab.reqs.any (fun r => r.tenant == t) || s.fab.xfers.any (fun x => x.2.tenant == t) || s.fab.queue.any (fun x => x.tenant == t)

/-- Whether the mapping of a tenant's writable pages may change (R216). -/
def State.remappable (s : State) (t : Nat) : Bool := !s.running t && !s.outbound t

/-- Whether a tenant stands at a step boundary. -/
def State.atBoundary (s : State) (t : Nat) : Bool := (s.tenant t).step.phase == .idle && !s.running t

/-! ### Spilling (R292, R293) -/

/-- Whether a mask of phases includes a phase; 0 means all three. -/
def inPhases (mask phase : Nat) : Bool := mask == 0 || bit mask phase

/-- Whether a part of a tensor may spill on its tenant's account. -/
def State.maySpill (s : State) (t : Nat) (x : Tensor) : Bool :=
  (x.cls == 2 || x.cls == 6 || x.cls == 7) && x.lifetime != 0 && !bit x.constraint.flags 1 && !x.freed &&
    !inPhases x.phases (s.tenant t).place.phase && s.atBoundary t && (x.cls == 2 || !s.outbound t) && !s.holdsRecord x.parts

/-- The tensors that share a tensor's frames: itself, or every sharer of the frozen weight. -/
def State.sharersOf (s : State) (t : Nat) (x : Tensor) : List (Nat × Tensor) :=
  match s.frozenOf t x with
  | some z => z.sharers.filterMap fun y => ((s.tenant y.1).place.tensors.find? fun w => w.handle == y.2).map fun w => (y.1, w)
  | none => [(t, x)]

/-- When a tensor's phases were last in force, as the latest of them. -/
def State.lastUsed (s : State) (t : Nat) (x : Tensor) : Nat :=
  ((upto 0 3).filter fun p => inPhases x.phases p).foldl (fun m p => max m (KMap.get (s.tenant t).place.phaseUsed p 0)) 0

/-- Changes the parts of a tensor wherever they are held: by each sharer and in the frozen weight. -/
def State.modParts (s : State) (t : Nat) (x : Tensor) (f : Part → Part) : State :=
  let s := (s.sharersOf t x).foldl (fun s y => s.modTensor y.1 y.2.handle fun w => { w with parts := w.parts.map f }) s
  match s.frozenOf t x with
  | some z => s.modFrozen z.name fun z => { z with parts := z.parts.map f }
  | none => s

/-- Whether two parts are the same part of a tensor, in the same slot or buffer. -/
def Part.same (q p : Part) : Bool := p.code == q.code && p.side == q.side

/-- Changes one part of a tensor wherever it is held. -/
def State.modPart (s : State) (t : Nat) (x : Tensor) (q : Part) (f : Part → Part) : State :=
  s.modParts t x fun p => if q.same p then f p else p

/-- Unmaps a part of whole frames for every tenant that maps it, and takes their rights. -/
def State.unmapPart (s : State) (t : Nat) (x : Tensor) (q : Part) : State :=
  (s.sharersOf t x).foldl (fun s y =>
    match y.2.parts.find? q.same with
    | some p => s.detachPart y.1 p
    | none => s) s

/-- Maps a part of whole frames, as it now stands, for every tenant that holds it. -/
def State.remapPart (s : State) (t : Nat) (x : Tensor) (q : Part) : State :=
  (s.sharersOf t x).foldl (fun s y =>
    match (s.heldTensor y.1 y.2.handle).bind fun w => w.parts.find? q.same with
    | some p => (s.grantFrames y.1 (classW x.cls) p.frames).mapPart y.1 x.cls p
    | none => s) s

/-- The check of a spilled frame: CRC-64 with the tag (tenant, handle, frame index) of eight bytes (R293, R394). -/
def spillCheck (t h i : Nat) (d : List Byte) : Nat := crcFinal 1 (crcFold 1 (crcInit 1) (leBytes 1 t ++ leBytes 4 h ++ leBytes 3 i ++ d))

/-- Where the keeper's digest of a spilled frozen frame is kept: beside those of frames. -/
def spilledDigest (key : Nat) : Nat := 2 ^ 32 + key

/-- The keeper's digest of a frame, taken to another key. -/
def State.moveDigest (s : State) (old new : Nat) : State :=
  match KMap.find s.keeper.digests old with
  | some x => { s with keeper := { s.keeper with digests := KMap.put (KMap.del s.keeper.digests old) new x } }
  | none => s

/-- Spills a part (R293): a frozen weight's frames are dropped; another's are written to the spill area with their check. -/
def State.spillPart (s : State) (t : Nat) (x : Tensor) (q : Part) : State :=
  let s :=
    if x.cls = 2 then s
    else
      let s := (upto 0 q.frames.length).foldl
        (fun (s : State) i =>
          let d := s.read (frameAddr (q.frames.getD i 0)) (2 ^ 21)
          { s with flash := { s.flash with
              spill := KMap.put s.flash.spill (spillKey t x.handle q.code i) (d, spillCheck t x.handle i d) } }) s
      (s.tlcWrite (q.frames.length * 2 ^ 21)).setBucket 1 (s.bucket 1 - (2 * q.frames.length : Nat))
  let s := q.frames.foldl (fun (s : State) f => s.flushRange (frameAddr f) (2 ^ 21)) s
  let s := (s.unmapPart t x q).retire q.frames
  let s := match s.frozenOf t x with
    | some z => (upto 0 q.frames.length).foldl
        (fun (s : State) i => s.moveDigest (q.frames.getD i 0) (spilledDigest (imageKey z.name q.code i))) s
    | none => s
  s.modPart t x q fun q => { q with frames := [], spilled := true, pinned := false }

/-- The parts that could spill, each with the time its phase was last in force: those of whole frames, of tensors that every
sharer lets go; flash writes stop when the spill budget is used up. -/
def State.spillable (s : State) : List (Nat × Nat × Tensor × Part) :=
  (s.ten.map fun y =>
    (y.2.place.tensors.map fun x =>
      if (s.sharersOf y.1 x).all fun z => s.maySpill z.1 z.2 then
        (x.parts.filter fun q =>
          q.packOff.isNone && !q.spilled && !q.frames.isEmpty &&
            (if x.cls = 2 then (match s.frozenOf y.1 x with | some z => z.loaded | none => false)
             else s.areaWritable 1)).map
          fun q => (s.lastUsed y.1 x, y.1, x, q)
      else []).flatten).flatten

/-- The entry with the least stamp. -/
def oldest {α : Type} : List (Nat × α) → Option (Nat × α)
  | [] => none
  | x :: xs => some (xs.foldl (fun b y => if y.1 < b.1 then y else b) x)

/-- Spills parts until `n` frames of a class are free below frame `top`, or nothing may spill any longer; first, and after each spill,
the markers on their way are waited for, so that frames let go can be had. -/
def State.spillTurns (s : State) (corr : Bool) (n top : Nat) : Nat → State
  | 0 => s
  | fuel + 1 =>
    if n ≤ (s.freeFrames corr n top).length then s
    else
      match oldest s.spillable with
      | some (_, t, x, q) => (s.spillPart t x q).passAll.spillTurns corr n top fuel
      | none => s

/-- Spills for `n` frames of a class below frame `top` (R292): at most as many parts as there are. -/
def State.spillFor (s : State) (corr : Bool) (n top : Nat) : State :=
  if n ≤ (s.freeFrames corr n top).length then s
  else
    let s := s.passAll
    s.spillTurns corr n top s.spillable.length

/-! ### Fetching (R293) -/

/-- Writes a frame as poisoned (R265, R293). -/
def State.poisonFrame (s : State) (f : Nat) (d : List Byte) : State :=
  (upto 0 32768).foldl (fun s i => s.hbmWrite (f * 32768 + i) allHeld ((d.drop (64 * i)).take 64) true) s

/-- What flash holds of frame `i` of a spilled part, and whether it passes its check: the CRC-64 kept with it, or the keeper's digest. -/
def State.spilledFrame (s : State) (t : Nat) (x : Tensor) (code i : Nat) : List Byte × Bool :=
  match s.frozenOf t x with
  | some z =>
    let d := KMap.get s.flash.frozen (imageKey z.name code i) (zeros (2 ^ 21))
    (d, match KMap.find s.keeper.digests (spilledDigest (imageKey z.name code i)) with
      | some y => y.2 == digest256 d
      | none => false)
  | none =>
    let (d, crc) := KMap.get s.flash.spill (spillKey t x.handle code i) (zeros (2 ^ 21), 0)
    (d, crc == spillCheck t x.handle i d)

/-- How a tensor's frames are homed: slices and hint, constraints before the declaration; masters and moments are always
evict-first (R290). -/
def Tensor.homing (x : Tensor) (code : Nat) : Nat × Nat :=
  (if bit x.constraint.flags 3 then x.constraint.slices else 0,
   if bit x.constraint.flags 4 && decide (code < 4) then x.constraint.hint else reuseHint x.reuse code)

/-- One frame of a spilled part comes back (R293): `bad` says that flash did not return what it holds. A frame that fails its check is
poisoned and 0318h raised. -/
def State.fetchFrame (s : State) (t : Nat) (x : Tensor) (q : Part) (f i : Nat) (bad : Bool) : State :=
  let (d, good) := s.spilledFrame t x q.code i
  let s := match s.frozenOf t x with
    | some z => s.moveDigest (spilledDigest (imageKey z.name q.code i)) f
    | none => s
  if good && !bad then s.write (frameAddr f) d else (s.poisonFrame f d).tell t 0x318 (coreUnit 0) x.handle i

/-- Fetches a spilled part into new frames: nothing when frames lack. -/
def State.fetchPart (s : State) (t : Nat) (x : Tensor) (q : Part) (bad : List (Nat × Nat × Nat)) : Option State :=
  let n := framesOf q.bytes
  let s := s.spillFor q.corrected n s.frameCount
  let fs := s.freeFrames q.corrected n s.frameCount
  if fs.length < n then none
  else
    let s := (s.convertGroups q.corrected fs).homeFrames fs (x.homing q.code).1 (x.homing q.code).2
    let s := (upto 0 n).foldl
      (fun (s : State) i => s.fetchFrame t x q (fs.getD i 0) i (bad.contains (x.handle, q.code, i))) s
    let s := (s.modPart t x q fun q => { q with frames := fs, spilled := false }).remapPart t x q
    some { s with flash := { s.flash with
      spill := (upto 0 n).foldl (fun m i => KMap.del m (spillKey t x.handle q.code i)) s.flash.spill } }

/-- Fetches the spilled parts of a tensor; what cannot be fetched stays. `bad` are the frames, by handle, part code and place, of which
flash does not return what it holds. -/
def State.fetchTensor (s : State) (t : Nat) (x : Tensor) (bad : List (Nat × Nat × Nat)) : State :=
  (x.parts.filter fun q => q.spilled).foldl (fun (s : State) (q : Part) => (s.fetchPart t x q bad).getD s) s

/-! ### ALLOC (R278 to R284, R289) -/

/-- The formats that a class declares (R281). -/
def classFmts (cls : Nat) : List Nat :=
  match cls with
  | 1 => [1, 2, 6, 7]
  | 2 => [1, 2, 6, 7]
  | 5 => [0, 1]
  | 6 => [0, 1, 2, 3, 4, 6]
  | 7 => [1, 2, 3, 4, 5, 6]
  | 8 => [0, 1, 2, 3, 4, 5, 6, 7]
  | _ => []

/-- A gradient's base format from its activation's (R128). -/
def gradientBase (f : Nat) : Option Nat :=
  match f with
  | 0 => some 0
  | 1 => some 1
  | 2 => some 3
  | 3 => some 3
  | 4 => some 1
  | 6 => some 6
  | _ => none

/-- The tensor that a descriptor declares, without handle, format and parts. -/
def descTensor (d : List Byte) : Tensor :=
  { index := 0, gen := 0, cls := fld d 0 1, fmt := fld d 1 1, lifetime := fld d 2 1, reuse := fld d 3 1, phases := fld d 4 1
    flags := fld d 5 1, histLen := if fld d 6 1 = 0 then 16 else fld d 6 1, vectors := fld d 8 4, length := fld d 0xC 4
    escCap := fld d 0x10 4, link := fld d 0x14 4, shareName := fld d 0x18 8, parts := []
    constraint := { flags := 0, slices := 0, hint := 0 }, pending := none, freed := false, charged := 0 }

/-- Whether the format-free fields of a descriptor are allowed (R282). -/
def descOk (d : List Byte) (x : Tensor) : Bool :=
  fld d 7 1 == 0 && fld d 0x22 30 == 0 && !(classFmts x.cls).isEmpty && bits x.flags 7 4 == 0 && bits x.phases 7 3 == 0 &&
    decide (x.lifetime ≤ 3 ∧ x.reuse ≤ 2 ∧ x.histLen ≤ 16) && decide (1 ≤ x.vectors ∧ x.vectors ≤ 2 ^ 24) &&
    decide (1 ≤ x.length ∧ x.length ≤ 2 ^ 24) && (bits x.flags 3 2 == 0 || (x.cls == 2 && bits x.flags 3 2 != 3)) &&
    (x.link == 0 || x.cls == 5)

/-- The format of a declared tensor, or the status that refuses it. -/
def State.declaredFmt (s : State) (t : Nat) (x : Tensor) : Except Nat Nat :=
  let fmt : Except Nat Nat :=
    if x.cls = 5 ∧ x.link ≠ 0 then
      match s.tensor? t x.link with
      | none => .error 0x315
      | some a => if a.cls = 6 then (match gradientBase a.fmt with | some f => .ok f | none => .error 0x311) else .error 0x311
    else if (classFmts x.cls).contains x.fmt then .ok x.fmt else .error 0x311
  match fmt with
  | .error c => .error c
  | .ok f => if (f = 6 ∨ f = 7) ∧ (x.vectors % 32 ≠ 0 ∨ x.length % 32 ≠ 0) then .error 0x311 else .ok f

/-- Whether a tensor has a numeric record (R96, R281). -/
def Tensor.recorded (x : Tensor) : Bool := x.cls != 8 && scaledFmt x.fmt

/-- The lowest free place in the numeric area; none when 16,384 are taken. -/
def State.recSlot (s : State) (t : Nat) : Option Nat :=
  (upto 0 maxRecs).find? fun i => !(s.tenant t).recs.any fun y => y.2.slot == i

/-- A new record, in fallback (R102, R120). -/
def newRec (x : Tensor) (slot : Nat) : NumRec :=
  { slot := slot, handle := x.handle, cls := x.cls, fmt := x.fmt, baseFmt := x.fmt, jit := true, escalated := false, pinFmt := false
    frozen := false, floor := false, tileScale := 0x3F800000, histLen := x.histLen, histValid := 0, histHead := 0
    jitLeft := x.histLen, hist := List.replicate 16 0, histStep := 0, stepAmax := 0, stepNonfinite := 0, stepSat := 0, floorExp := 0
    ovfSteps := 0, alarmScore := 0, link := 0, stepSamples := 0, stepDMax := 0, stepDSum := 0, runSamples := 0, runDMax := 0
    warnCount := 0, alarmCount := 0, escDenied := 0, zeroFlush := 0, escalations := 0, produced := false, alarmed := false
    satRaised := false, scoreBefore := 0 }

/-- A record takes a loaded frozen weight's values (R101). -/
def NumRec.loadedWith (r : NumRec) (scale amax : Word) (step : Nat) : NumRec :=
  { r with
    tileScale := scale, hist := setAt r.hist 0 amax, histValid := 1, histHead := 1 % r.histLen, histStep := step, frozen := true
    jit := false, jitLeft := 0 }

/-- The scale manager takes a frozen weight's load into a record, and raises 0208h when it was the last in fallback. -/
def State.loadRec (s : State) (t h : Nat) (scale amax : Word) : State :=
  let before := s.inFallback t
  (s.modRec t h fun r => r.loadedWith scale amax (s.tenant t).step.record.step).rebuilt t before

/-- Enters an allocated tensor: the handle's generation, its numeric record and its link. -/
def State.enterTensor (s : State) (t : Nat) (x : Tensor) (slot : Nat) : State :=
  let s := s.modPlace t fun p => { p with tensors := p.tensors ++ [x], gens := KMap.put p.gens x.index x.gen }
  let s := if x.recorded then (s.setRec t (newRec x slot)).fellBack t 1 else s
  if x.cls = 5 ∧ x.link ≠ 0 then s.modRec t x.link fun r => { r with link := x.handle } else s

/-- Builds a tensor's own parts, or gives the status that refuses it (R282, R289). -/
def State.buildTensor (s : State) (t : Nat) (x : Tensor) : Except Nat (State × Tensor) :=
  let corr := correctedClass x.cls x.constraint
  let specs := classParts x.cls x.fmt x.vectors x.length x.flags x.escCap
  let whole := wholeFrames specs
  let packs := newPacks (s.packRooms t x.cls corr) specs
  let charge := if corr then chargeOf 0 whole else chargeOf whole 0
  let packCharge := packs * (if corr then chargeOf 0 1 else chargeOf 1 0)
  if (s.tenant t).place.hbmQuota < s.hbmCharged t + charge + packCharge then .error 0x312
  else
    let s := s.spillFor corr (whole + packs) s.frameCount
    match s.buildParts t x.handle x.cls x.fmt (x.vectors * x.length) x.escCap corr 0 x.reuse (s.tenant t).step.buf specs [] with
    | none => .error 0x313
    | some (s, ps) => .ok (s, { x with parts := ps, charged := charge })

/-- Attaches a tenant to a loaded shared weight (R284 step 3), or gives the status that refuses it. -/
def State.attachTensor (s : State) (t : Nat) (x : Tensor) (z : Frozen) : Except Nat (State × Tensor) :=
  if z.vectors ≠ x.vectors ∨ z.length ≠ x.length ∨ z.fmt ≠ x.fmt ∨ !bit z.mask t ∨ z.sharers.any (fun y => y.1 == t) ∨ !z.loaded then
    .error 0x316
  else
    let charge := chargeOf 0 (sumNat (z.parts.map fun q => framesOf q.bytes))
    if (s.tenant t).place.hbmQuota < s.hbmCharged t + charge then .error 0x312
    else
      let ps := z.parts.foldl
        (fun (done : List Part) q => done ++ [{ q with
          va := newVa ((s.tenant t).place.taken ++ partsTaken 2 done) q.bytes, declined := false }]) []
      if ps.any fun (q : Part) => decide (vaEnd < q.va + framesOf q.bytes * 2 ^ 21) then .error 0x313
      else
      let s := ps.foldl (fun (s : State) (q : Part) => (s.grantFrames t false q.frames).mapPart t 2 q) s
      let s := { s with agm := { s.agm with areas := s.agm.areas ++
        (ps.filter fun (q : Part) => q.code == 1 || q.code == 3).map fun (q : Part) => (q.va, q.bytes, t, x.handle) } }
      let s := s.modFrozen z.name fun z => { z with sharers := z.sharers ++ [(t, x.handle)] }
      .ok (s, { x with parts := ps, charged := charge })

/-- A new frozen weight's entry. -/
def frozenEntry (t name : Nat) (x : Tensor) (mask : Nat) : Frozen :=
  { name := name, vectors := x.vectors, length := x.length, fmt := x.fmt, mask := Nat.lor mask (2 ^ t), creator := t
    sharers := [(t, x.handle)], parts := x.parts, loaded := false, loading := none, unrecovered := false, scale := 0x3F800000
    amax := 0 }

/-- What an allocation makes, or the status that refuses it. -/
def State.allocate (s : State) (t : Nat) (d : List Byte) : Except Nat (State × Nat) :=
  let x := descTensor d
  if !descOk d x then .error 0x311
  else
    match s.declaredFmt t x, s.newHandle t with
    | .error c, _ => .error c
    | _, none => .error 0x312
    | .ok f, some (g, i) =>
      let x := { x with fmt := f, index := i, gen := g }
      let slot := s.recSlot t
      if x.recorded && slot.isNone then .error 0x314
      else
        let named := s.frozen.find? fun z => z.name == x.shareName
        if bit x.flags 2 && named.isSome || bit x.flags 3 && named.isNone then .error 0x316
        else
          let made : Except Nat (State × Tensor) :=
            match bit x.flags 3, named with
            | true, some z => s.attachTensor t x z
            | _, _ => s.buildTensor t x
          match made with
          | .error c => .error c
          | .ok (s, x) =>
            let s := s.enterTensor t x (slot.getD 0)
            if bit x.flags 3 then
              match named with
              | some z => .ok (s.loadRec t x.handle z.scale z.amax, x.handle)
              | none => .ok (s, x.handle)
            else if x.cls = 2 then
              let name := if bit x.flags 2 then x.shareName else ownName t x.handle
              .ok ({ s with frozen := s.frozen ++ [frozenEntry t name x (fld d 0x20 2)] }, x.handle)
            else .ok (s, x.handle)

/-- ALLOC (R282): the status, and nothing allocated unless it is success. -/
def State.alloc (s : State) (t r : Nat) (e : Entry) : State :=
  s.withRecord t r e (e.arg 0 8) 64 fun s d =>
    match s.allocate t d with
    | .error c => s.finish t r e.cid c 0 0
    | .ok (s, h) => s.finish t r e.cid 0 h 0

def execAlloc (t : TenantId) (r : RingId) (s : State) : Host.Outcome State Fault Refusal :=
  .next (s.runCommand t r 0x18 fun s e => s.alloc t r e)

/-! ### FREE (R285) -/

/-- FREE: the handle is stale at once; the frames go at a boundary. -/
def State.freeTensor (s : State) (t r : Nat) (e : Entry) : State :=
  let h := e.arg 0 4
  match s.tensor? t h with
  | none => s.finish t r e.cid 0x315 0 0
  | some x =>
    if s.holdsRecord x.parts then s.finish t r e.cid 0x317 0 0
    else (s.modTensor t h fun x => { x with freed := true }).finish t r e.cid 0 0 0

def execFree (t : TenantId) (r : RingId) (s : State) : Host.Outcome State Fault Refusal :=
  .next (s.runCommand t r 0x19 fun s e => s.freeTensor t r e)

/-! ### QUERY (R297) -/

/-- The slices that frames are homed in, as a mask. -/
def State.sliceMask (s : State) (fs : List Nat) : Nat := fs.foldl (fun m f => Nat.lor m (2 ^ (s.home (frameAddr f)))) 0

/-- The class that a part is reported under: masters and residues as master, moments as moment. -/
def Part.reportClass (q : Part) (cls : Nat) : Nat := if q.code = 4 ∨ q.code = 5 then 3 else if q.code = 6 ∨ q.code = 7 then 4 else cls

/-- MiB charged for a part's whole frames; a packed part is charged through its pack frame. -/
def Part.charge (q : Part) : Nat :=
  if q.packOff.isSome then 0
  else if q.corrected then chargeOf 0 (framesOf q.bytes) else chargeOf (framesOf q.bytes) 0

/-- A query record of a part, `alt` being the other buffer's address. -/
def State.queryRecord (s : State) (x : Tensor) (shared : Bool) (q : Part) (alt charged : Nat) : List Byte :=
  let st := b2n (!q.spilled) + 2 * b2n q.declined + 4 * b2n q.spilled + 8 * b2n q.moving + 16 * b2n q.pinned + 32 * b2n shared +
    64 * b2n (x.constraint.flags != 0)
  leBytes 4 x.handle ++ leBytes 1 q.code ++ leBytes 1 (q.reportClass x.cls) ++ leBytes 1 (b2n q.corrected) ++ leBytes 1 st ++
    leBytes 8 q.va ++ leBytes 8 alt ++ leBytes 8 q.bytes ++ leBytes 1 (s.sliceMask q.frames) ++
    leBytes 1 (match q.frames with | f :: _ => s.hintOf (f * 8192) | [] => 0) ++ leBytes 1 x.lifetime ++ leBytes 1 x.reuse ++
    leBytes 4 x.constraint.flags ++ leBytes 4 charged ++ leBytes 4 (if q.pinned then mibOf q.bytes else 0) ++
    leBytes 8 q.movedStep ++ zeros 8

/-- The record of a tensor's numeric record. -/
def State.recRecord (s : State) (t : Nat) (x : Tensor) : List (List Byte) :=
  let p := (s.tenant t).place
  match s.rec? t x.handle with
  | none => []
  | some r =>
    let at' := recPlace r.slot
    let q : Part :=
      { code := 8, side := 0, bytes := 256, va := p.numVa + at'.1 * 2 ^ 21 + at'.2, frames := [p.areas.getD at'.1 0], packOff := some at'.2
        corrected := true, spilled := false, moving := false, pinned := false, declined := false, movedStep := 0 }
    [s.queryRecord x false q 0 0]

/-- The records of a tensor, in part order. -/
def State.tensorRecords (s : State) (t : Nat) (x : Tensor) : List (List Byte) :=
  let buf := (s.tenant t).step.buf
  let shared := match s.frozenOf t x with | some z => decide (z.name < 2 ^ 64 ∧ 1 < z.sharers.length) | none => false
  ((upto 0 8).map fun code =>
    match (x.parts.filter fun q => q.code == code) with
    | [] => []
    | [q] => [s.queryRecord x shared q 0 q.charge]
    | q :: q' :: _ =>
      let (a, b) := if q.side = buf then (q, q') else (q', q)
      [s.queryRecord x shared a (if 4 ≤ code then b.va else 0) (a.charge + b.charge)]).flatten ++ s.recRecord t x

/-- The query header. -/
def State.queryHeader (s : State) (t count written : Nat) : List Byte :=
  let p := (s.tenant t).place
  leBytes 4 count ++ leBytes 4 written ++ leBytes 8 p.numVa ++ leBytes 8 p.stepVa ++ leBytes 8 p.saveVa ++
    leBytes 4 (s.hbmCharged t) ++ leBytes 4 (s.pinCharged t) ++ leBytes 4 (s.scratchCharged t) ++
    leBytes 2 (if s.has F.resStatusPartnerValid then s.rd F.resPartnerNode else 0xFFFF) ++
    leBytes 1 (b2n (s.has F.resStatusPartnerValid && s.has F.resStatusCorrelated)) ++ zeros 17

/-- Tensors in ascending order of handle. -/
def byHandle : List Tensor → List Tensor
  | [] => []
  | x :: xs => insert x (byHandle xs)
where
  insert (x : Tensor) : List Tensor → List Tensor
    | [] => [x]
    | y :: ys => if x.handle ≤ y.handle then x :: y :: ys else y :: insert x ys

/-- QUERY: the records that fit, and the full count. -/
def State.query (s : State) (t r : Nat) (e : Entry) : State :=
  let h := e.arg 0 4
  let va := e.arg 8 8
  let n := e.arg 0x10 4
  if va % 64 ≠ 0 then s.finish t r e.cid 0x602 0 0
  else if h ≠ 0 ∧ (s.tensor? t h).isNone then s.finish t r e.cid 0x315 0 0
  else
    let xs := byHandle ((s.tenant t).place.tensors.filter fun x => !x.freed && (h == 0 || x.handle == h))
    let recs := (xs.map fun x => s.tensorRecords t x).flatten
    let fit := recs.take ((n - 64) / 64)
    let bytes := if n < 64 then [] else s.queryHeader t recs.length fit.length ++ fit.flatten
    match s.fwWrite t va bytes with
    | (s, .fault c a pa) => s.finishMem t r e.cid c kindEngineWrite (coreUnit 0) a pa 0
    | (s, .ok _) => s.finish t r e.cid 0 recs.length 0

def execQuery (t : TenantId) (r : RingId) (s : State) : Host.Outcome State Fault Refusal :=
  .next (s.runCommand t r 0x1A fun s e => s.query t r e)

/-! ### CONSTRAIN (R298) -/

/-- A tensor's charge once its frames are corrected. -/
def Tensor.correctedCharge (x : Tensor) : Nat :=
  chargeOf 0 (sumNat ((x.parts.filter fun q => q.packOff.isNone).map fun q => framesOf q.bytes))

/-- Whether a tensor that its class leaves detect-only waits to become corrected. -/
def Tensor.turnsCorrected (x : Tensor) : Bool :=
  !correctedClass x.cls x.constraint && match x.pending with | some (_, c) => bit c.flags 2 | none => false

/-- What a tenant is charged once some tensors, in detect-only frames, have become corrected: their own frames, and the pack frames that
go with them (R289). -/
def State.chargeCorrected (s : State) (t : Nat) (xs : List Tensor) : Nat :=
  let packs := (s.tenant t).place.packs.filter fun k => !k.corrected &&
    xs.any fun x => x.parts.any fun q => q.packOff.isSome && q.frames == [k.frame]
  s.hbmCharged t + sumNat (xs.map fun x => x.correctedCharge - x.charged) + packs.length * (chargeOf 0 1 - chargeOf 1 0)

/-- Whether a constraint is refused. -/
def State.constraintRefused (s : State) (t : Nat) (x : Tensor) (set clear slices : Nat) : Bool :=
  let p := (s.tenant t).place
  let pin := mibOf (sumNat (((p.tensors.filter fun y => y.handle == x.handle ||
    (!y.freed && y.asksPin && !y.parts.any fun q => q.declined)).map Tensor.pinBytes)))
  let turning := p.tensors.filter fun y => y.handle != x.handle && !y.freed && y.turnsCorrected
  Nat.land set clear != 0 || (bit set 0 && decide (p.pinQuota < pin)) ||
    (bit set 2 && !correctedClass x.cls x.constraint &&
      decide (p.hbmQuota < s.chargeCorrected t (x :: turning))) ||
    (bit set 3 && slices == 0) || ((bit set 5 || bit set 6) && !x.recorded) ||
    (s.holdsRecord x.parts && ((bit clear 0 && bit x.constraint.flags 0) ||
      correctedClass x.cls { x.constraint with flags := Nat.lor (x.constraint.flags - Nat.land x.constraint.flags clear) set } !=
        correctedClass x.cls x.constraint))

/-- Joins a constraint to one that has not taken effect yet. -/
def joinConstraint (old : Option (Nat × Constraint)) (set clear slices hint : Nat) : Nat × Constraint :=
  match old with
  | none => (clear, { flags := set, slices := slices, hint := hint })
  | some (c, k) =>
    (Nat.lor (c - Nat.land c set) clear,
      { flags := Nat.lor (k.flags - Nat.land k.flags clear) set, slices := if bit set 3 then slices else k.slices
        hint := if bit set 4 then hint else k.hint })

/-- CONSTRAIN: refused with nothing changed, or accepted for the next boundary. -/
def State.constrain (s : State) (t r : Nat) (e : Entry) : State :=
  let h := e.arg 0 4
  let set := e.arg 8 4
  let clear := e.arg 0xC 4
  let slices := e.arg 0x10 1
  let hint := e.arg 0x11 1
  match s.tensor? t h with
  | none => s.finish t r e.cid 0x315 0 0
  | some x =>
    if 128 ≤ set ∨ 128 ≤ clear ∨ 16 ≤ slices ∨ 4 ≤ hint ∨ e.arg 0x12 6 ≠ 0 then s.finish t r e.cid 0x602 0 0
    else if s.constraintRefused t x set clear slices then s.finish t r e.cid 0x317 0 0
    else
      ((s.modTensor t h fun x => { x with pending := some (joinConstraint x.pending set clear slices hint) }).modPlace t fun p =>
        { p with worked := false }).finish t r e.cid 0 0 0

def execConstrain (t : TenantId) (r : RingId) (s : State) : Host.Outcome State Fault Refusal :=
  .next (s.runCommand t r 0x1B fun s e => s.constrain t r e)

/-! ### FROZEN_LOAD (R123, R284, R365) -/

/-- FROZEN_LOAD starts: a frozen weight of the tenant's own making, which no load runs on. -/
def State.frozenLoad (s : State) (t r : Nat) (e : Entry) : State :=
  match s.tensor? t (e.arg 0 4) with
  | none => s.finish t r e.cid 0x315 0 0
  | some x =>
    if x.cls ≠ 2 ∨ 1 < e.arg 4 1 ∨ 1 < e.arg 5 1 then s.finish t r e.cid 0x602 0 0
    else
      match s.frozenOf t x with
      | none => s.finish t r e.cid 0x602 0 0
      | some z =>
        if z.creator ≠ t ∨ z.loading.isSome then s.finish t r e.cid 0x316 0 0
        else s.modFrozen z.name fun z => { z with loading := some (t, x.handle, e.cid), loaded := false }

def execFrozenLoad (t : TenantId) (r : RingId) (s : State) : Host.Outcome State Fault Refusal :=
  .next (s.runCommand t r 0x1C fun s e => s.frozenLoad t r e)

/-- The bytes of a part's flash image `i`: a frame, or the whole of a packed part. -/
def State.imageBytes (s : State) (q : Part) (i : Nat) : List Byte :=
  match q.packOff with
  | some _ => s.readPart q 0 q.bytes
  | none => s.read (frameAddr (q.frames.getD i 0)) (2 ^ 21)

/-- The flash images and the keeper's digests of a loaded weight's frames (R284). -/
def State.recordImages (s : State) (z : Frozen) (h : Nat) : State :=
  let s := z.parts.foldl
    (fun (s : State) (q : Part) => (upto 0 q.frames.length).foldl
      (fun (s : State) i =>
        let f := q.frames.getD i 0
        { s with
          flash := { s.flash with frozen := KMap.put s.flash.frozen (imageKey z.name q.code i) (s.imageBytes q i) }
          keeper := { s.keeper with digests := KMap.put s.keeper.digests f (h, digest256 (s.read (frameAddr f) (2 ^ 21))) } }) s) s
  let n := sumNat (z.parts.map fun q => if q.packOff.isSome then q.bytes else q.frames.length * 2 ^ 21)
  (s.tlcWrite n).setBucket 2 (s.bucket 2 - (mibOf n : Nat))

/-- The tile scale of a load: R99 over the source's own maximum, with the creator's margin. -/
def State.loadScale (s : State) (t fmt : Nat) (amax : Word) : Word :=
  if scaledFmt fmt then BitVec.ofNat 32 (f32pow2 (clampExp (scaleExp amax (s.tenant t).num.scaleMargin fmt))) else 0x3F800000

/-- A load completes with the words read: copies, image, digests and every sharer's record. -/
def State.loadFrozen (s : State) (t h : Nat) (z : Frozen) (ws : List Nat) : State :=
  let amax := amaxOf ws
  let scale := s.loadScale t z.fmt amax
  let s := s.writeCopies t z.fmt scale amax none 0 z.parts 0 (gridOf z.length ws)
  let s := s.recordImages z h
  let s := s.modFrozen z.name fun z =>
    { z with loaded := true, loading := none, unrecovered := false, scale := scale, amax := amax }
  z.sharers.foldl (fun s y => s.loadRec y.1 y.2 scale amax) s

/-- The frames that a load writes, new ones where the weight was spilled (R284, R287): nothing when they lack. -/
def State.loadFrames (s : State) (t : Nat) (x : Tensor) : Option State :=
  (x.parts.filter fun q => q.spilled).foldl
    (fun (a : Option State) (q : Part) => a.bind fun s =>
      let n := framesOf q.bytes
      let s := s.spillFor q.corrected n s.frameCount
      let fs := s.freeFrames q.corrected n s.frameCount
      if fs.length < n then none
      else
        let s := (s.convertGroups q.corrected fs).homeFrames fs (x.homing q.code).1 (x.homing q.code).2
        some ((s.modPart t x q fun q => { q with frames := fs, spilled := false }).remapPart t x q)) (some s)

/-- A load ends without success: the weight is not loaded. -/
def State.loadFailed (s : State) (z : Frozen) : State := s.modFrozen z.name fun z => { z with loading := none }

/-- The FP32 words of a load's source bytes. -/
def sourceWords (fmt : Nat) (bs : List Byte) : List Nat :=
  if fmt = 0 then wordsOf bs else (upto 0 (bs.length / 2)).map fun i => fld bs (2 * i) 2 * 2 ^ 16

/-- A command of a ring that has started and not ended, by its index. -/
def State.startedAt (s : State) (t r idx : Nat) : Option Entry :=
  (s.sq? t r).bind fun q => q.entries.find? fun e => e.idx == idx && e.phase == .started

/-- FROZEN_LOAD_END: the source has been read and the load ends; of a fabric source `data` is what the fabric returned, or `code`
the status it failed with. The flash image waits until it may be written, and
the command with it; a weight that was spilled takes new frames, at a boundary. -/
def State.frozenLoadEnd (s : State) (t r idx : Nat) (data : List Byte) (code : Nat) : State :=
  match s.startedAt t r idx with
  | none => s
  | some e =>
    match (s.frozen.find? fun z => match z.loading with | some (t', _, c) => t' == t && c == e.cid | none => false) with
    | none => s
    | some z0 =>
      if !s.areaWritable 2 && (e.arg 4 1 != 1 || code == 0) || z0.parts.any (fun q => q.spilled) && !s.atBoundary t then s
      else
        match (s.heldTensor t (e.arg 0 4)).elim (some s) (s.loadFrames t) with
        | none => (s.loadFailed z0).finish t r e.cid 0x313 0 0
        | some s =>
        let z := (s.frozen.find? fun y => y.name == z0.name).getD z0
        let fmt := e.arg 5 1
        let n := z.vectors * z.length * (if fmt = 0 then 4 else 2)
        let h := e.arg 0 4
        if e.arg 4 1 = 1 then
          if code ≠ 0 then ((s.loadFailed z).finish t r e.cid code 0 0).afterCode t code
          else (s.loadFrozen t h z (sourceWords fmt (data.take n ++ zeros (n - data.length)))).finish t r e.cid 0 n 0
        else
          match s.fetchSpan (updateUnit 0) tlbUpdate t (e.arg 8 8) n true with
          | (s, .fault c a pa) => (s.loadFailed z).finishMem t r e.cid c kindEngineRead (updateUnit 0) a pa 0
          | (s, .ok bs) => (s.loadFrozen t h z (sourceWords fmt bs)).finish t r e.cid 0 n 0

def execFrozenLoadEnd (t : TenantId) (r : RingId) (idx : Half) (data : List Byte) (code : Half) (s : State) :
    Host.Outcome State Fault Refusal := .next (s.frozenLoadEnd t r idx.toNat data code.toNat)

end Sys2Proof.Machine
end

