-- ==== Sys2Proof/Machine/Steps.lean ====
section
/-! DEFINITION. Steps and the weight update (Weight update and step commit): commit records and the step area, the optimiser and
quantiser passes, the commit point, refusal, skip, cancel and abort, and poison sources. -/

namespace Sys2Proof.Machine

/-! ### Streams (R88) -/

/-- The key of a tenant's stream: given in the stream table, or drawn at creation. -/
def Step.key (x : Step) (i : Nat) : Nat :=
  match KMap.find x.keys i with
  | some k => k
  | none => Config.entropy (x.keySeed + i) % 2 ^ 64

/-- Claims `n` draws of a tenant's stream: the first counter value. -/
def State.claim (s : State) (t i n : Nat) : State × Nat :=
  let c := KMap.get (s.tenant t).step.counters i 0
  (s.modStep t fun x => { x with counters := KMap.set x.counters i ((c + n) % 2 ^ 128) 0 }, c)

/-! ### The step area (R156) -/

/-- The stream snapshot of counters. -/
def Step.snapshot (x : Step) (cs : KMap Nat) : List Byte :=
  ((upto 0 4096).map fun i => leBytes 16 (KMap.get cs i 0) ++ leBytes 8 (x.key i) ++ zeros 8).flatten

/-- Header bytes 00h to 37h of a commit record. -/
def CommitRec.head (r : CommitRec) : List Byte :=
  leBytes 8 r.seq ++ leBytes 8 r.step ++ leBytes 1 r.kind ++ leBytes 1 r.phase ++ leBytes 1 r.buf ++ zeros 1 ++
    leBytes 4 r.lossScale.toNat ++ r.cursor.take 16 ++ zeros (16 - r.cursor.length) ++ leBytes 8 r.skipped ++ leBytes 8 r.updates

/-- A commit record's header with its CHECK, and its snapshot. -/
def Step.recordBytes (x : Step) (r : CommitRec) : List Byte :=
  let snap := x.snapshot r.counters
  r.head ++ leBytes 8 (crcOf 1 (r.head ++ snap)) ++ zeros 192 ++ snap

/-- Where a record slot lies in the step area (an arrangement of the model's own), and its length (R156). -/
def slotOffset (slot : Nat) : Nat := if slot = 0 then 0x1000 else 0x22000
def slotBytes : Nat := 131328

/-- Writes a commit record into a slot. -/
def State.writeRecord (s : State) (t slot : Nat) (r : CommitRec) : State :=
  let s := s.modStep t fun x => if slot = 0 then { x with rec0 := r } else { x with rec1 := r }
  s.putArea t 3 (slotOffset slot) ((s.tenant t).step.recordBytes r)

/-- Writes the step word (R156). -/
def State.writeStepWord (s : State) (t seq slot buf : Nat) : State :=
  (s.modStep t fun x => { x with seq := seq, slot := slot, buf := buf }).putArea t 3 0 (leBytes 8 (4 * seq + 2 * slot + buf))

/-- The journal's COMMIT record of the record in force (R439). -/
def State.commitRecord (s : State) (t : Nat) : State :=
  let x := (s.tenant t).step
  let r := x.record
  s.journalOffer (firmwareRecord 1 t t
    (leBytes 8 r.step ++ leBytes 8 x.seq ++ leBytes 1 r.kind ++ leBytes 1 r.phase ++ leBytes 2 (KMap.get s.keeper.domains t 0) ++
      leBytes 4 r.lossScale.toNat ++ r.cursor.take 16 ++ zeros (16 - r.cursor.length) ++ leBytes 8 r.skipped ++
      leBytes 8 r.updates ++ shake256 32 (x.snapshot r.counters)))

/-! ### Refusal, skip, cancel and abort (R160 to R162) -/

/-- A skip record through the pending slot (R160). -/
def State.skipRecord (s : State) (t : Nat) : State :=
  let x := (s.tenant t).step
  let r := x.record
  let new : CommitRec :=
    { r with
      seq := x.seq + 1, kind := 2, phase := x.scbPhase, lossScale := (s.tenant t).num.lossScale, cursor := x.cursorNext
      skipped := r.skipped + 1, counters := x.counters }
  let s := s.writeRecord t (1 - x.slot) new
  let s := s.writeStepWord t (x.seq + 1) (1 - x.slot) x.buf
  (s.commitRecord t).tell t 0x20C (coreUnit 0) new.step 0

/-- A poisoned step is refused at its end (R160): its one report, 0203h with the cause, unit and handle (R114), is the STEP_COMMIT's completion
(R373). -/
def State.refuse (s : State) (t : Nat) : State :=
  let x := (s.tenant t).step
  let s := s.settleReports t
  let n := (s.tenant t).num
  let s := ((s.rewind t).poisonEnd t).setEvent F.arrUpdEventsRefused
  let s := if x.onPoison = 1 then s.skipRecord t else s
  let s := s.endStep t
  match x.commit with
  | some c => (s.event 0x203 (.tenant t) [n.poisonCause, n.poisonUnit, n.poisonHandle]).endCmd t c 0x203 (s.stepNow t) n.poisonCause
  | none => s

/-- STEP_CANCEL acts (R161). -/
def State.cancelStep (s : State) (t r : Nat) (e : Entry) (scb : List Byte) : State :=
  let x := (s.tenant t).step
  match x.phase with
  | .idle => s.finish t r e.cid 0x20D (s.stepNow t) 0
  | p =>
    if fld scb 0 8 ≠ x.scbStep then s.finish t r e.cid 0x20A (s.stepNow t) 0
    else if p = .sealing ∨ p = .post then s.modStep t fun x => { x with cancels := x.cancels ++ [e.cid] }
    else
      let s := s.settleReports t
      let s := if (s.tenant t).num.poison then s.mapRecs t NumRec.unscore else s
      let s := (s.rewind t).endStep t
      let s := match x.commit with
        | some c => s.endCmd t c 0x604 (s.stepNow t) 0
        | none => s
      s.finish t r e.cid 0 (s.stepNow t) 0

/-- Whether a step control block is well formed (R157). -/
def scbOk (b : List Byte) : Bool :=
  decide (fld b 8 1 ≤ 2 ∧ fld b 9 1 ≤ 1) && fld b 0xA 6 == 0 && fld b 0x2C 84 == 0

/-- Runs a step command on its control block. -/
def State.withScb (s : State) (t r : Nat) (e : Entry) (k : State → List Byte → State) : State :=
  s.withRecord t r e (e.arg 0 8) 128 fun s b => if scbOk b then k s b else s.finish t r e.cid 0x602 0 0

def execStepCancel (t : TenantId) (r : RingId) (s : State) : Host.Outcome State Fault Refusal :=
  .next (s.runCommand t r 0x12 fun s e => s.withScb t r e fun s b => s.cancelStep t r e b)

/-- STEP_COMMIT is accepted (R158): it then waits for the tenant's operations and samples. -/
def State.acceptCommit (s : State) (t r : Nat) (e : Entry) (b : List Byte) : State :=
  let x := (s.tenant t).step
  if x.phase = .idle then s.finish t r e.cid 0x20D (s.stepNow t) 0
  else if x.phase ≠ .opened ∨ x.commit.isSome ∨ fld b 0 8 ≠ x.scbStep then s.finish t r e.cid 0x20A (s.stepNow t) 0
  else
    s.modStep t fun x =>
      { x with
        commit := some e.cid, onPoison := fld b 9 1, cursorNext := (b.drop 0x10).take 16, listAddr := fld b 0x20 8
        listCount := if fld b 0x20 8 = 0 then 0 else fld b 0x28 4 }

def execStepCommit (t : TenantId) (r : RingId) (s : State) : Host.Outcome State Fault Refusal :=
  .next (s.runCommand t r 0x11 fun s e => s.withScb t r e fun s b => s.acceptCommit t r e b)

/-! ### The update list (R150, R152) -/

/-- Whether an update descriptor of a tenant is valid, by itself. -/
def State.updOk (s : State) (t : Nat) (d : List Byte) : Bool :=
  match s.tensor? t (fld d 0 4), s.tensor? t (fld d 4 4) with
  | some w, some g =>
    w.cls == 1 && g.cls == 5 && g.link == 0 && decide (g.fmt ≤ 1) && g.vectors == w.vectors && g.length == w.length &&
      (fld d 8 1 == 1 || fld d 8 1 == 2) && bits (fld d 9 1) 7 2 == 0 && !(bit (fld d 9 1) 0 && fld d 8 1 == 1) &&
      decide (fld d 0xA 2 ≤ 4095) && fld d 0x2C 20 == 0 && (fld d 8 1 == 2 || bit w.flags 1) &&
      !((w.fmt == 6 || w.fmt == 7) && (w.vectors % 32 != 0 || w.length % 32 != 0))
  | _, _ => false

/-- Whether no handle is named twice. -/
def namesDistinct : List Nat → Bool
  | [] => true
  | x :: xs => !xs.contains x && namesDistinct xs

/-- The list fails (R152): the commit ends with 0209h, and the step stays open. -/
def State.listInvalid (s : State) (t : Nat) : State :=
  match (s.tenant t).step.commit with
  | none => s
  | some c =>
    let s := (s.modStep t fun x => { x with commit := none }).setPhase t .opened
    (s.setEvent F.arrUpdEventsListInvalid).endCmd t c 0x209 (s.stepNow t) 0

/-- A memory fault of update work refuses the step before its commit point (R161, R218), and the commit ends with the fault's code; poison
aborts the step (R162). -/
def State.updateFault (s : State) (t q code kind va pa : Nat) : State :=
  let s := s.memFault code kind t (updateUnit q) va pa
  if code = 0x304 then s.abortStep t
  else
    match (s.tenant t).step.commit with
    | none => s
    | some c =>
      let s := ((((s.settleReports t).rewind t).poisonEnd t).setEvent F.arrUpdEventsRefused).endStep t
      (s.markFaults t (s.ringOf t c) c).endCmd t c code (s.stepNow t) 0

/-- Whether a securing drain reads a tenant's buffer (R165); layer 3 reads flash. -/
def State.bufferDrained (s : State) (t buf : Nat) : Bool :=
  s.sec.drains.any fun d => d.tenant == t && d.buf == buf && d.layer != 3

/-! ### Sealing and the commit point (R158, R159) -/

/-- SEALING: the pending record, header and live counters, into the pending slot. -/
def State.seal (s : State) (t : Nat) (updated : Bool) : State :=
  let x := (s.tenant t).step
  let r := x.record
  let s := (s.enginesOff t).modStep t fun x => { x with work := none }
  let new : CommitRec :=
    { seq := x.seq + 1, step := x.scbStep, kind := 1, phase := x.scbPhase, buf := if updated then 1 - x.buf else x.buf
      lossScale := ((s.tenant t).num.grow).lossScale, cursor := x.cursorNext, skipped := r.skipped
      updates := r.updates + b2n updated, counters := x.counters }
  (s.writeRecord t (1 - x.slot) new).setPhase t .sealing

/-- The working copies' addresses map to the slot in force (R148, R159 step 1). -/
def State.remapCopies (s : State) (t : Nat) : State :=
  let p := (s.tenant t).place
  let buf := (s.tenant t).step.buf
  ((p.tensors.filter fun x => x.cls == 1).map fun x => x.parts.filter fun q => decide (q.code < 4)).flatten.foldl
    (fun (s : State) (q : Part) => if q.side = buf then (s.unmapPages t q.va (framesOf (reservedBytes 1 0 q.bytes))).mapPart t 1 q else s) s

/-- The ESC_DENIED and ZERO_FLUSH sums over a tensor's metadata headers (R96). -/
def State.headerSums (s : State) (t h : Nat) : Nat × Nat :=
  match s.tensor? t h with
  | none => (0, 0)
  | some x =>
    let buf := (s.tenant t).step.buf
    let hs := (x.parts.filter fun q => (q.code == 1 || q.code == 3) && (x.cls != 1 || q.side == buf)).map fun q => s.readPart q 0 256
    (sumNat (hs.map fun b => fld b 0x20 4), sumNat (hs.map fun b => fld b 0x24 4))

/-- R159 step 3. -/
def State.addSums (s : State) (t : Nat) : State :=
  (s.recHandles t).foldl (fun s h =>
    let (d, z) := s.headerSums t h
    s.modRec t h fun r => { r with escDenied := (r.escDenied + d) % 2 ^ 32, zeroFlush := (r.zeroFlush + z) % 2 ^ 32 }) s

/-- The layers whose floor is reached become due (R410). -/
def State.floorsDue (s : State) (t : Nat) : State :=
  let reached := fun (l f : Nat) => f ≠ 0 ∧ (s.genStep t l = 2 ^ 64 - 1 ∨ s.genStep t l + f ≤ s.stepNow t)
  let s' := if reached 1 (s.rd (F.resPolicyL1Floor t)) then s.dueLayer t 1 else s
  let s' := if reached 2 (s.rd (F.resPolicyL2Floor t)) then s'.dueLayer t 2 else s'
  if reached 3 (s.rd (F.resPolicyL3Floor t)) then s'.dueLayer t 3 else s'

/-- The post-commit actions (R159), in order. -/
def State.postCommit (s : State) (t : Nat) (updated : Bool) : State :=
  let x := (s.tenant t).step
  let r := x.record
  let s := if updated then s.remapCopies t else s
  let s := s.commitScales t r.step
  let s := s.setNum t { (s.tenant t).num.grow with step := r.step }
  let s := ((s.addSums t).commitRecord t).floorsDue t
  let s := s.hostWrite ((s.tenant t).fault.statusAddr + 0x10) (leBytes 8 r.step)
  let s := s.endStep t
  match x.commit with
  | some c => s.endCmd t c 0 r.step 0
  | none => s

/-- COMMIT_POINT (R158): with POISON clear, the step word is written in one store, and the post-commit actions run; else the step is
refused. It waits for the step's reports to the scale manager (R101, R113). -/
def State.commitPoint (s : State) (t : Nat) : State :=
  let x := (s.tenant t).step
  if x.phase ≠ .sealing then s
  else if s.reportsDue t then s
  else if (s.tenant t).num.poison then s.refuse t
  else
    let new := if x.slot = 0 then x.rec1 else x.rec0
    let s := (s.writeStepWord t (x.seq + 1) (1 - x.slot) new.buf).setPhase t .post
    s.postCommit t (new.buf != x.buf)

def execCommitPoint (t : TenantId) (s : State) : Host.Outcome State Fault Refusal := .next (s.commitPoint t)

/-! ### Update work (R151 to R155, R165) -/

/-- Starts the update passes on a validated list; an empty one seals at once. -/
def State.startWork (s : State) (t : Nat) (ds : List (List Byte)) : State :=
  if ds.isEmpty then s.seal t false
  else
    (s.modStep t fun x => { x with drainWait := false, work := some { descs := ds, idx := 0, quant := 0, astep := [] } }).engines t true

/-- The list is good: it waits for a drain of the pending buffer, or starts. -/
def State.listGood (s : State) (t : Nat) (ds : List (List Byte)) : State :=
  if !ds.isEmpty && s.bufferDrained t (1 - (s.tenant t).step.buf) then
    if (s.tenant t).step.drainWait then s
    else
      ((s.modStep t fun x => { x with drainWait := true }).setEvent F.arrUpdEventsDrainWait).tell t 0x20B (updateUnit 0)
        (s.tenant t).step.scbStep 0
  else s.startWork t ds

/-- Reads and validates the update list. -/
def State.readList (s : State) (t : Nat) : State :=
  let x := (s.tenant t).step
  if x.listCount = 0 then s.listGood t []
  else if x.listAddr % 64 ≠ 0 ∨ 65536 < x.listCount then s.listInvalid t
  else
    match s.fetchSpan (updateUnit 0) tlbUpdate t x.listAddr (64 * x.listCount) false with
    | (s, .fault c a pa) => s.updateFault t 0 c kindEngineRead a pa
    | (s, .ok bs) =>
      let ds := chunks 64 bs.length bs
      if ds.all (fun d => s.updOk t d) && namesDistinct (ds.map fun d => fld d 0 4) then s.listGood t ds else s.listInvalid t

/-- Whether another tenant's update holds the engines. -/
def State.enginesTaken (s : State) (t : Nat) : Bool := s.ten.any fun x => x.1 != t && x.2.step.work.isSome

/-- UPDATE_START (R158): once the tenant's operations have ended, no sample of it is held, and its reports have reached the scale manager. -/
def State.updateStart (s : State) (t : Nat) : State :=
  let x := (s.tenant t).step
  if x.phase ≠ .opened ∨ x.commit.isNone ∨ s.running t = true ∨ s.sampleHeld t = true ∨ s.reportsDue t = true ∨ s.enginesTaken t = true ∨
      !s.has F.arrUpdStatusReady then s
  else
    let s := (upto 0 4).foldl (fun (s : State) q => s.passMarkers (updateUnit q)) (s.setPhase t .updating)
    if (s.tenant t).num.poison then s.refuse t else s.readList t

def execUpdateStart (t : TenantId) (s : State) : Host.Outcome State Fault Refusal := .next (s.updateStart t)

/-- UPDATE_RESUME (R165): the drain has ended or been abandoned, and the engines are free. The cycles waited are time, so free. -/
def State.updateResume (s : State) (t : Nat) : State :=
  let x := (s.tenant t).step
  if x.phase ≠ .updating ∨ !x.drainWait ∨ s.bufferDrained t (1 - x.buf) ∨ s.enginesTaken t then s
  else
    let s := (s.add F.arrUpdDrainWaitCycles s.draw).drawn
    if (s.tenant t).num.poison then s.refuse t else s.readList t

def execUpdateResume (t : TenantId) (s : State) : Host.Outcome State Fault Refusal := .next (s.updateResume t)

/-- A parameter's new state. -/
structure UpdElem where
  w : Nat
  residue : Nat
  m : Nat
  v : Nat
  deriving DecidableEq, Repr

/-- What the optimiser makes of one element (R151, R153): the state, or the poison cause. -/
def updElement (d : List Byte) (res : Bool) (lossScale grad w residue m v : Nat) : Except Nat UpdElem :=
  let c := fun (o : Nat) => fld d o 4
  let g := f32mul (c 0x28) (f32div grad lossScale)
  if f32bad g then .error 2
  else
    let b1 := c 0x10
    let b2 := c 0x14
    let adam := fld d 8 1 == 1
    let m' := if adam then f32add (f32mul b1 m) (f32mul (f32sub 0x3F800000 b1) g) else f32add (f32mul b1 m) g
    let v' := if adam then f32add (f32mul b2 v) (f32mul (f32sub 0x3F800000 b2) (f32mul g g)) else 0
    let u :=
      if adam then f32div (f32mul m' (c 0x20)) (f32add (f32sqrt (f32mul v' (c 0x24))) (c 0x18))
      else if bit (fld d 9 1) 0 then f32add g (f32mul b1 m') else m'
    let step := f32mul (c 0xC) (f32add u (f32mul (c 0x1C) w))
    let old := if res then Fmt.decode .master (w * 2 ^ 16 + residue) else f32 w
    let new := old.sub (f32 step)
    let w' := if res then Fmt.near .master new / 2 ^ 16 else toF32 new
    let r' := if res then Fmt.near .master new % 2 ^ 16 else 0
    if f32bad m' ∨ f32bad v' ∨ f32bad w' then .error 3 else .ok { w := w', residue := r', m := m', v := v' }

/-- The engine that a panel belongs to (R147). -/
def panelEngine (l i : Nat) : Nat := (i / l / 32 * ((l + 31) / 32) + i % l / 32) % 4

/-- The elements of a tensor in ascending order, up to the first that poisons: its index and cause. -/
def updElements (f : Nat → Except Nat UpdElem) : List Nat → List UpdElem → Except (Nat × Nat) (List UpdElem)
  | [], acc => .ok acc.reverse
  | i :: is, acc =>
    match f i with
    | .error c => .error (i, c)
    | .ok x => updElements f is (x :: acc)

/-- A part's elements as numbers of `w` bytes; none without the part. -/
def State.partWords (s : State) (ps : List Part) (code side n w : Nat) : List Nat :=
  match findPart ps code side with
  | some q => let bs := s.readPart q 0 (n * w); (upto 0 n).map fun i => fld bs (w * i) w
  | none => []

/-- Writes a part's elements. -/
def State.putPart (s : State) (ps : List Part) (code side w : Nat) (xs : List Nat) : State :=
  match findPart ps code side with
  | some q => s.writePart q 0 (xs.map fun x => leBytes w x).flatten
  | none => s

/-- Whether a part's bytes touch poison. -/
def State.partPoisoned (s : State) (q : Part) : Bool := s.spansPoisoned (q.pieces 0 q.bytes)

/-- The tensors of a descriptor. -/
def State.updPair (s : State) (t : Nat) (d : List Byte) : Option (Tensor × Tensor) :=
  match s.heldTensor t (fld d 0 4), s.heldTensor t (fld d 4 4) with
  | some w, some g => some (w, g)
  | _, _ => none

/-- The optimiser pass over one tensor (R151): the new state into the pending buffer and A_step; or the poison that ends the work. -/
def State.optimise (s : State) (t : Nat) (d : List Byte) (w g : Tensor) : State × Except (Nat × Nat) Word :=
  let buf := (s.tenant t).step.buf
  let n := w.vectors * w.length
  let res := bit w.flags 0
  let gw := if g.fmt = 0 then s.partWords g.parts 0 0 n 4 else (s.partWords g.parts 0 0 n 2).map fun x => x * 2 ^ 16
  let ws := s.partWords w.parts 4 buf n 4
  let rs := s.partWords w.parts 5 buf n 2
  let ms := s.partWords w.parts 6 buf n 4
  let vs := s.partWords w.parts 7 buf n 4
  let ls := (s.tenant t).num.lossScale.toNat
  match updElements (fun i => updElement d res ls (gw.getD i 0) (ws.getD i 0) (rs.getD i 0) (ms.getD i 0) (vs.getD i 0)) (upto 0 n) [] with
  | .error x => (s, .error x)
  | .ok xs =>
    let s := s.putPart w.parts 4 (1 - buf) 4 (xs.map (·.w))
    let s := s.putPart w.parts 5 (1 - buf) 2 (xs.map (·.residue))
    let s := s.putPart w.parts 6 (1 - buf) 4 (xs.map (·.m))
    let s := s.putPart w.parts 7 (1 - buf) 4 (xs.map (·.v))
    let s := (upto 0 4).foldl (fun s e => s.count (updateUnit e) 1 (countIf (fun i => panelEngine w.length i == e) (upto 0 n))) s
    (s, .ok (amaxOf (xs.map (·.w))))

/-- The engines that work on a tensor of `v` vectors of length `l`: those that panels belong to. -/
def panelEngines (v l : Nat) : List Nat := upto 0 (min 4 ((v + 31) / 32 * ((l + 31) / 32)))

/-- Some parts of a tensor, as an engine reads and writes them: code, side, and whether it writes. -/
def spansOf (ps : List Part) (cs : List (Nat × Nat)) : List (Nat × Nat) :=
  cs.filterMap fun c => (findPart ps c.1 c.2).map fun (q : Part) => (q.va, q.bytes)

/-- The engines translate what their panels read and write (R214): the engine, access kind, code and addresses of the first fault. -/
def State.panelCheck (s : State) (t : Nat) (reads writes : List (Nat × Nat)) : List Nat → State × Option (Nat × Nat × Nat × Nat × Nat)
  | [] => (s, none)
  | q :: qs =>
    match s.checkSpans (updateUnit q) tlbUpdate t false reads with
    | (s, some (c, va, pa)) => (s, some (q, kindEngineRead, c, va, pa))
    | (s, none) =>
      match s.checkSpans (updateUnit q) tlbUpdate t true writes with
      | (s, some (c, va, pa)) => (s, some (q, kindEngineWrite, c, va, pa))
      | (s, none) => s.panelCheck t reads writes qs

/-- What the optimiser pass over a weight reads and writes. -/
def optimiserReads (buf : Nat) (w g : Tensor) : List (Nat × Nat) :=
  spansOf g.parts [(0, 0)] ++ spansOf w.parts [(4, buf), (5, buf), (6, buf), (7, buf)]
def optimiserWrites (buf : Nat) (w : Tensor) : List (Nat × Nat) :=
  spansOf w.parts [(4, 1 - buf), (5, 1 - buf), (6, 1 - buf), (7, 1 - buf)]

/-- OPTIMISER_PASS_END (R151 to R153): the next tensor of the list, the pipelines at most one tensor apart. -/
def State.optimiserPassEnd (s : State) (t : Nat) : State :=
  match (s.tenant t).step.work with
  | none => s
  | some k =>
    if (s.tenant t).num.poison then s.refuse t
    else if k.quant + 2 ≤ k.idx then s
    else
      match k.descs[k.idx]? with
      | none => s
      | some d =>
        match s.updPair t d with
        | none => s
        | some (w, g) =>
          let buf := (s.tenant t).step.buf
          match s.panelCheck t (optimiserReads buf w g) (optimiserWrites buf w) (panelEngines w.vectors w.length) with
          | (s, some (q, kind, c, va, pa)) => s.updateFault t q c kind va pa
          | (s, none) =>
            let read := (g.parts.filter fun q => q.code == 0) ++ w.parts.filter fun q => decide (4 ≤ q.code) && q.side == buf
            match read.find? s.partPoisoned with
            | some q => s.updateFault t 0 0x304 kindEngineRead q.va (q.addr 0)
            | none =>
              match s.optimise t d w g with
              | (s, .error (i, c)) =>
                (s.poisonNow t c (updateUnit (panelEngine w.length i)) (if c = 2 then g.handle else w.handle)).refuse t
              | (s, .ok a) =>
                s.modStep t fun x => { x with work := some { k with idx := k.idx + 1, astep := k.astep ++ [a] } }

def execOptimiserPassEnd (t : TenantId) (s : State) : Host.Outcome State Fault Refusal := .next (s.optimiserPassEnd t)

/-- The format and tile scale that a working copy is written in (R99, R103, R154 step 2). -/
def State.copyScale (s : State) (t : Nat) (w : Tensor) (a : Word) : Nat × Word :=
  match s.rec? t w.handle with
  | none => (w.fmt, 0x3F800000)
  | some r =>
    let m := (s.tenant t).num.scaleMargin
    if !scaledFmt r.fmt then (r.fmt, 0x3F800000)
    else
      let top := if r.jit then a else maxWord r.histMax a
      (r.fmt, BitVec.ofNat 32 (f32pow2 (r.tileExp top m)))

/-- The bytes that a copy's part needs in a format. -/
def copyNeed (fmt v l cap code : Nat) : Nat :=
  if code % 2 = 0 then (if code = 0 then v * vectorBytes fmt l else l * vectorBytes fmt v) else metaBytes fmt (v * l) cap

/-- Gives a working copy's part the frames that an escalated format needs, at its own address: as many as are free. -/
def State.growCopy (s : State) (t : Nat) (w : Tensor) (fmt code side : Nat) : State :=
  match findPart w.parts code side with
  | none => s
  | some q =>
    let need := framesOf (copyNeed fmt w.vectors w.length w.escCap code)
    if need ≤ q.frames.length then s
    else
      let fs := s.freeFrames q.corrected (need - q.frames.length) s.frameCount
      let s := ((s.convertGroups q.corrected fs).homeFrames fs (if bit w.constraint.flags 3 then w.constraint.slices else 0)
        (reuseHint w.reuse code)).grantFrames t true fs
      s.modTensor t w.handle fun x =>
        let ps := x.parts.map fun p =>
          if p.code = code ∧ p.side = side then { p with frames := p.frames ++ fs, bytes := copyNeed fmt w.vectors w.length w.escCap code }
          else p
        { x with
          parts := ps
          -- the frames that it takes are charged (R289)
          charged := chargeOf 0 (sumNat ((ps.filter fun p => p.packOff.isNone).map fun p => p.frames.length)) }

/-- A copy's metadata header takes the side area that its format gives (R75). -/
def State.openCopyMeta (s : State) (fmt n : Nat) (w : Tensor) (ps : List Part) (code side : Nat) : State :=
  match findPart ps code side with
  | some q => if fmt ≠ w.fmt ∧ (fmt = 6 ∨ fmt = 7) then s.writePart q 0x10 (leBytes 8 (escOffset fmt n)) else s
  | none => s

/-- The quantiser pass over one tensor (R154, R155). -/
def State.quantise (s : State) (t : Nat) (d : List Byte) (w : Tensor) (a : Word) : State :=
  let buf := (s.tenant t).step.buf
  let (fmt, scale) := s.copyScale t w a
  let side := 1 - buf
  let codes := if fmt = 6 ∨ fmt = 7 then [0, 1, 2, 3] else [0, 1]
  let s := codes.foldl (fun s c => s.growCopy t w fmt c side) s
  let ps := ((s.heldTensor t w.handle).map (·.parts)).getD w.parts
  let s := [1, 3].foldl (fun s c => s.openCopyMeta fmt (w.vectors * w.length) w ps c side) s
  let sr := bit (fld d 9 1) 1
  let stream := fld d 0xA 2
  let key := (s.tenant t).step.key stream
  let (s, c0) := if sr then s.claim t stream (copyDraws fmt w.vectors w.length) else (s, 0)
  let ws := s.partWords ps 4 side (w.vectors * w.length) 4
  let copies := ps.filter fun q => decide (q.code < 2) || fmt == 6 || fmt == 7
  let s := s.writeCopies t fmt scale a (if sr then some key else none) c0 copies side (gridOf w.length ws)
  let shown := if fmt = 2 ∨ fmt = 3 then BitVec.ofNat 32 (toF32 ((f32 a.toNat).shift (-(scaleLog scale)))) else a
  let s := (upto 0 4).foldl (fun s e => s.count (updateUnit e) 2
    (countIf (fun i => panelEngine w.length i == e) (upto 0 (w.vectors * w.length)))) s
  s.reportAmax t w.handle shown 0 fmt (some scale)

/-- QUANTISER_PASS_END (R154): one tensor's working copies stand; after the last, the pending record is sealed. -/
def State.quantiserPassEnd (s : State) (t : Nat) : State :=
  match (s.tenant t).step.work with
  | none => s
  | some k =>
    if (s.tenant t).num.poison then s.refuse t
    else if k.idx ≤ k.quant then s
    else
      match k.descs[k.quant]? with
      | none => s
      | some d =>
        match s.heldTensor t (fld d 0 4) with
        | none => s
        | some w =>
          match s.panelCheck t (spansOf w.parts [(4, 1 - (s.tenant t).step.buf)]) [] (panelEngines w.vectors w.length) with
          | (s, some (q, kind, c, va, pa)) => s.updateFault t q c kind va pa
          | (s, none) =>
            let s := s.quantise t d w (k.astep.getD k.quant 0)
            if k.quant + 1 = k.descs.length then s.seal t true
            else s.modStep t fun x => { x with work := some { k with quant := k.quant + 1 } }

def execQuantiserPassEnd (t : TenantId) (s : State) : Host.Outcome State Fault Refusal := .next (s.quantiserPassEnd t)

/-- POISON_SOURCE (R113, R153): the oldest report reaches its tenant's numeric state; update work that runs ends at once. -/
def State.poisonArrives (s : State) : State :=
  match s.poison with
  | [] => s
  | x :: _ =>
    let s := s.poisonSource
    if (s.tenant x.tenant).step.phase = .updating ∧ (s.tenant x.tenant).num.poison = true then s.refuse x.tenant else s

def execPoisonSource (s : State) : Host.Outcome State Fault Refusal := .next s.poisonArrives

/-- UPDATE_ENGINE_READY (R168): the engines stand at their reset values 256 store cycles after the store domain. -/
def execUpdateEngineReady (s : State) : Host.Outcome State Fault Refusal :=
  .next (if s.clk.released < 2 then s else s.wr F.arrUpdStatusReady 1)

end Sys2Proof.Machine
end

