-- ==== Sys2Proof/Machine/Boundary.lean ====
section
/-! DEFINITION. Step boundaries (Placement of data and work, R285 to R293, R298): migrations, fetches, the partition and pins,
constraints, the release of freed tensors, and STEP_OPEN, which waits for them. -/

namespace Sys2Proof.Machine

/-! ### Moves (R271, R288, R298) -/

/-- The frame that stands for `f` after frames `olds` moved to `news`. -/
def movedTo (olds news : List Nat) (f : Nat) : Nat :=
  match findAt (fun x => x == f) olds with
  | some i => news.getD i f
  | none => f

/-- Copies a frame's contents: its bytes, its poison, and with them the keeper's digest. -/
def State.copyFrame (s : State) (f f' : Nat) : State :=
  let s := s.flushRange (frameAddr f) (2 ^ 21)
  let s := s.write (frameAddr f') (s.read (frameAddr f) (2 ^ 21))
  let s := { s with mem := { s.mem with
    hbmPoison := (s.mem.hbmPoison.filter fun (x : Nat × Bool) => inRun (f * 2 ^ 15) (2 ^ 15) x.1).foldl
      (fun (m : KMap Bool) (x : Nat × Bool) => KMap.set m (x.1 - f * 2 ^ 15 + f' * 2 ^ 15) x.2 false) s.mem.hbmPoison } }
  s.moveDigest f f'

/-- The check of a copy through a check unit: the CRC-64 of both frames (R216). -/
def State.sameCopy (s : State) (f f' : Nat) : Bool :=
  let crc := fun (f : Nat) => crcFinal 1 (crcFold 1 (crcInit 1) (s.read (frameAddr f) (2 ^ 21)))
  crc f == crc f'

/-- Frames moved are copied one by one, and the copies checked (R216 steps 1 and 2): nothing when a check fails. -/
def State.copyFrames (s : State) (olds news : List Nat) : Option State :=
  let s := (olds.zip news).foldl (fun (s : State) y => s.copyFrame y.1 y.2) s
  if (olds.zip news).all fun y => s.sameCopy y.1 y.2 then some s else none

/-- Free frames to move to, those that a map-out has spilled for among them (R292); none where a record pins an old one (R341), or where the
pages are writable and the tenant's work may still use them (R216). -/
def State.targets (s : State) (t : Nat) (olds : List Nat) (w corr : Bool) (top : Nat) : Option (List Nat) :=
  let news := s.freeFrames corr olds.length top
  if news.length < olds.length || olds.any s.recordFrame || (w && !s.remappable t) then none else some news

/-- Moves some frames of a part to free frames of a class below `top` (R216): the copy is made and checked, the mapping changes with its
markers, and the old frames are let go. Nothing when frames lack. -/
def State.movePart (s : State) (t : Nat) (x : Tensor) (q : Part) (sel : Nat → Bool) (corr : Bool) (top : Nat) : Option State :=
  let olds := q.frames.filter sel
  (s.targets t olds (classW x.cls) corr top).bind fun news =>
    (((s.convertGroups corr news).homeFrames news (x.homing q.code).1 (x.homing q.code).2).copyFrames olds news).map fun s =>
      let live := mapped x.cls q.code q.side (s.tenant t).step.buf
      let s := if live then s.unmapPart t x q else s.revokeFrames t olds
      let now := s.stepNow t
      let s := s.modPart t x q fun p =>
        let fs := p.frames.map (movedTo olds news)
        let all := fs.all fun f => s.corrected (f * 2 ^ 21) == corr
        { p with frames := fs, corrected := if all then corr else p.corrected, moving := !all, movedStep := now }
      let s := if live then s.remapPart t x q else s.grantFrames t true news
      s.retire olds

/-- Moves a pack frame, with all its parts, to a free frame of a class below `top`: nothing when there is none. -/
def State.movePack (s : State) (t : Nat) (k : Pack) (corr : Bool) (top : Nat) : Option State :=
  (s.targets t [k.frame] k.w corr top).bind fun news =>
    let f := news.headD 0
    (((s.convertGroups corr [f]).setMapEntry f (s.home (frameAddr k.frame)) (s.hintOf (k.frame * 8192))).copyFrames [k.frame] [f]).map fun s =>
      let s := (s.unmapPages t k.va 1).revokeFrames t [k.frame]
      let s := (s.grantFrames t k.w [f]).mapPage t k.va f k.w k.exec
      let now := s.stepNow t
      let g := fun (q : Part) =>
        if q.packOff.isSome && q.frames == [k.frame] then { q with frames := [f], corrected := corr, movedStep := now } else q
      let s := s.modPlace t fun p =>
        { p with
          packs := p.packs.map fun j => if j.frame = k.frame then { j with frame := f, corrected := corr } else j
          tensors := p.tensors.map fun x => { x with parts := x.parts.map g } }
      State.retire { s with frozen := s.frozen.map fun z => { z with parts := z.parts.map g } } [k.frame]

/-- Moves the `i`-th frame of a tenant's areas to a free corrected frame below `top`. -/
def State.moveArea (s : State) (t i : Nat) (top : Nat) : Option State :=
  let p := (s.tenant t).place
  let f := p.areas.getD i 0
  let w := decide (numFrames + stepFrames ≤ i)
  (s.targets t [f] w true top).bind fun news =>
    let f' := news.headD 0
    ((s.convertGroups true [f']).copyFrames [f] [f']).map fun s =>
      let va := numericVa + i * 2 ^ 21
      let s := (s.unmapPages t va 1).revokeFrames t [f]
      let s := (s.grantFrames t w [f']).mapPage t va f' w false
      (s.modPlace t fun p => { p with areas := setAt p.areas i f' }).retire [f]

/-- Moves the frames of a partner's reservation (R271, R312): no tenant maps them. -/
def State.moveHeld (s : State) (r : Reservation) (sel : Nat → Bool) (top : Nat) : Option State :=
  let olds := r.frames.filter sel
  let news := s.freeFrames true olds.length top
  if news.length < olds.length then none
  else
    ((s.convertGroups true news).homeFrames news 0 0).copyFrames olds news |>.map fun s =>
      { s with fab := { s.fab with held := s.fab.held.map fun y =>
        if y = r then { y with frames := y.frames.map (movedTo olds news) } else y } }.retire olds

/-- Does what can be done. -/
def State.tryMove (s : State) (f : State → Option State) : State := (f s).getD s

/-! ### Map-out (R271 step 2) -/

/-- The capacity after the next map-out, when a channel is FAILING. -/
def State.mapoutCap (s : State) : Option Nat :=
  if (upto 0 192).any fun c => s.rd (F.hbmChstateState c) == 1 then some ((s.reg .hbmCapacity).toNat - 2 ^ 31) else none

/-- Whether a frame has to leave for a map-out. -/
def mustLeave (cap f : Nat) : Bool := decide (f < 196608 ∧ cap ≤ f * 2 ^ 21)

/-- Whether a tenant holds frames that have to leave. -/
def State.mapoutDue (s : State) (t : Nat) : Bool :=
  match s.mapoutCap with
  | none => false
  | some cap =>
    let p := (s.tenant t).place
    (p.areas ++ p.packs.map (·.frame) ++ (p.tensors.map fun x => partFrames x.parts).flatten).any fun f => mustLeave cap f && !s.recordFrame f

/-- Migrates a tenant's frames for a map-out. -/
def State.mapoutMoves (s : State) (t : Nat) : State :=
  match s.mapoutCap with
  | none => s
  | some cap =>
    let p := (s.tenant t).place
    let top := cap / 2 ^ 21
    let s := (upto 0 p.areas.length).foldl
      (fun s i => if mustLeave cap (p.areas.getD i 0) then (s.spillFor true 1 top).tryMove fun s => s.moveArea t i top else s) s
    let s := (p.packs.filter fun k => mustLeave cap k.frame).foldl
      (fun (s : State) k => (s.spillFor k.corrected 1 top).tryMove fun s => s.movePack t k k.corrected top) s
    p.tensors.foldl (fun (s : State) x =>
      (x.parts.filter fun q => q.packOff.isNone && q.frames.any (mustLeave cap)).foldl
        (fun (s : State) q =>
          (s.spillFor q.corrected (countIf (mustLeave cap) q.frames) top).tryMove fun s =>
            s.movePart t x q (fun f => mustLeave cap f && !s.recordFrame f) q.corrected top) s) s

/-! ### Fetches (R293) -/

/-- The tensors that a step of a tenant's phase needs fetched. -/
def State.fetchDue (s : State) (t : Nat) : List Tensor :=
  let p := (s.tenant t).place
  if (s.tenant t).step.openHeld.isNone then []
  else p.tensors.filter fun x => !x.freed && inPhases x.phases p.phase && x.parts.any fun q => q.spilled

/-! ### The partition and pins (R236, R241, R291) -/

/-- The bytes of a part that are homed in a slice. -/
def State.sliceBytes (s : State) (q : Part) (slice : Nat) : Nat :=
  match q.packOff with
  | some _ => if s.home (frameAddr (q.frames.headD 0)) = slice then up256 q.bytes else 0
  | none => sumNat ((upto 0 q.frames.length).map fun i =>
      if s.home (frameAddr (q.frames.getD i 0)) = slice then min (2 ^ 21) (q.bytes - i * 2 ^ 21) else 0)

/-- What stands for a tensor among those that share its frames: the first sharer. -/
def State.pinKey (s : State) (x : Nat × Tensor) : Nat × Nat :=
  match s.frozenOf x.1 x.2 with
  | some z => z.sharers.headD (x.1, x.2.handle)
  | none => (x.1, x.2.handle)

/-- Whether some tensors hold the frames of another. -/
def State.pinHas (s : State) (l : List (Nat × Tensor)) (x : Nat × Tensor) : Bool := l.any fun y => s.pinKey y == s.pinKey x

/-- Some tensors without those that share the frames of an earlier one. -/
def State.distinct (s : State) (xs : List (Nat × Tensor)) : List (Nat × Tensor) :=
  xs.foldl (fun (k : List (Nat × Tensor)) x => if s.pinHas k x then k else k ++ [x]) []

/-- Regions that tensors need in a slice; frames that several share are counted once. -/
def State.pinLoad (s : State) (xs : List (Nat × Tensor)) (slice : Nat) : Nat :=
  mibOf (sumNat ((s.distinct xs).map fun x => sumNat ((x.2.parts.filter fun q => q.pinnable).map fun q => s.sliceBytes q slice)))

/-- The regions of the scratchpad part in a slice (R291): two for each scratchpad page of a tenant there, and no fewer than the next
partition names for others. -/
def State.scratchLoad (s : State) (slice : Nat) : Nat :=
  max (s.rd (F.cstPartitionNextScratch slice))
    (2 * sumNat (s.ten.map fun y => countIf (fun f => (f - 196608) / 128 == slice) (s.scratchPages y.1)))

/-- Whether tensors' pins leave every slice its 16 cache regions. -/
def State.pinFits (s : State) (xs : List (Nat × Tensor)) : Bool :=
  (upto 0 4).all fun q => decide (s.pinLoad xs q + s.scratchLoad q + 16 ≤ 256)

/-- The tensors whose tenants ask for a pin in the phases in force, in ascending tenant order. -/
def State.pinWanted (s : State) : List (Nat × Tensor) :=
  (s.ten.map fun y => (byHandle (y.2.place.tensors.filter fun x =>
    !x.freed && ((bit x.constraint.flags 0 && inPhases x.phases y.2.place.phase) ||
      (s.holdsRecord x.parts && x.parts.any fun q => q.pinned)))).map fun x => (y.1, x)).flatten

/-- Hot frozen weights shared by two or more tenants. -/
def State.hotFrozen (s : State) : List (Nat × Tensor) :=
  (s.frozen.filter fun z => decide (2 ≤ z.sharers.length) && z.loaded).filterMap fun z =>
    match z.sharers with
    | (t, h) :: _ => (s.heldTensor t h).bind fun x => if x.reuse = 2 then some (t, x) else none
    | [] => none

/-- Declines pins from the front until the rest fit, but no part with an active barrier record (R341): those kept and those declined. -/
def State.fitPins (s : State) : List (Nat × Tensor) → List (Nat × Tensor) × List (Nat × Tensor)
  | [] => ([], [])
  | x :: xs =>
    if s.pinFits (x :: xs) then (x :: xs, [])
    else
      let (k, d) := s.fitPins xs
      if s.holdsRecord x.2.parts then (x :: k, d) else (k, x :: d)

/-- The pins of the phases in force: kept, and declined; hot frozen weights while regions remain. -/
def State.pinPlan (s : State) : List (Nat × Tensor) × List (Nat × Tensor) :=
  let (k, d) := s.fitPins s.pinWanted
  (s.hotFrozen.foldl (fun (k : List (Nat × Tensor)) x => if !s.pinHas k x && s.pinFits (k ++ [x]) then k ++ [x] else k) k, d)

/-- The tensors whose parts are pinned. -/
def State.pinnedNow (s : State) : List (Nat × Tensor) :=
  (s.ten.map fun y => (y.2.place.tensors.filter fun x => x.parts.any fun q => q.pinned).map fun x => (y.1, x)).flatten

/-- Whether the partition in force is other than some kept pins, and the scratchpad pages, ask for. -/
def State.partitionDiffers (s : State) (k : List (Nat × Tensor)) : Bool :=
  (upto 0 4).any fun q => s.rd (F.cstPartitionPin q) != s.pinLoad k q || s.rd (F.cstPartitionScratch q) != s.scratchLoad q

/-- Whether the plan is other than what stands. -/
def State.planDiffers (s : State) : Bool :=
  let (k, d) := s.pinPlan
  !(k.all (s.pinHas s.pinnedNow)) || !(s.pinnedNow.all (s.pinHas k)) ||
    (d.any fun x => x.2.parts.any fun q => q.pinnable && !q.declined) || s.partitionDiffers k

/-- The engine takes the partition and the pins: at each phase change and each change of PIN constraints, and at no other time (R287).
What the decision changes is carried out at a boundary. -/
def State.planPins (s : State) : State := { s with mem := { s.mem with replan := s.mem.replan || s.planDiffers } }

/-- The lines of a tensor that a PIN covers: first line and count. -/
def Tensor.pinRuns (x : Tensor) : List (Nat × Nat) :=
  ((x.parts.filter Part.pinnable).map fun q => (q.pieces 0 q.bytes).map fun p => (p.1 / 256, (lineSpan p.1 p.2).length)).flatten

/-- Pins or unpins a tensor's lines, and marks its parts, with every tensor that shares them. -/
def State.pinTensor (s : State) (t : Nat) (x : Tensor) (on : Bool) : State :=
  (x.pinRuns.foldl (fun (s : State) r => s.rangeRun (if on then 3 else 4) r.1 r.2) s).modParts t x fun q =>
    if q.pinnable then { q with pinned := on, declined := false } else q

/-- Marks a tensor's pin as declined (R291). -/
def State.declinePin (s : State) (t : Nat) (x : Tensor) : State :=
  if x.parts.any fun q => q.pinnable && !q.declined then
    (s.modTensor t x.handle fun x =>
      { x with parts := x.parts.map fun q => if q.pinnable then { q with declined := true } else q }).tell t 0x317 (coreUnit 0) x.handle 0
  else s

/-- Whether pins and unpins have to wait: another range operation runs, or a line of theirs is locked (R245, R246). -/
def State.pinsBlocked (s : State) (xs : List (Nat × Tensor)) : Bool :=
  s.has F.cstStatusOpBusy || xs.any fun x => x.2.pinRuns.any fun r => (upto r.1 r.2).any s.isLocked

/-- The pins that leave and those that come, once the partition stands. -/
def State.changePins (s : State) (k d : List (Nat × Tensor)) : State :=
  let old := s.pinnedNow
  let off := s.distinct (old.filter fun x => !s.pinHas k x)
  let on := (s.distinct k).filter fun x => !s.pinHas old x
  if s.pinsBlocked (off ++ on) then s
  else
    let s := off.foldl (fun (s : State) x => s.pinTensor x.1 x.2 false) s
    let s := on.foldl (fun (s : State) x => s.pinTensor x.1 x.2 true) s
    let s := d.foldl (fun s x => s.declinePin x.1 x.2) s
    { s with mem := { s.mem with replan := false } }

/-- The partition and the pins (R288 task 4): the apply first, and the pins once it has ended. -/
def State.pinWork (s : State) : State :=
  if !s.mem.replan || s.has F.cstStatusPartBusy then s
  else
    let (k, d) := s.pinPlan
    if s.partitionDiffers k then
      ((upto 0 4).foldl
        (fun s q => (s.wr (F.cstPartitionNextPin q) (s.pinLoad k q)).wr (F.cstPartitionNextScratch q) (s.scratchLoad q)) s).partitionApply
    else s.changePins k d

/-! ### Constraints (R298) -/

/-- A record returns to its declared format (CLEAR_ESC), with fallback. -/
def State.clearEscalation (s : State) (t h : Nat) : State :=
  let margin := (s.tenant t).num.scaleMargin
  let back := fun (r : NumRec) => ({ r with fmt := r.baseFmt, escalated := false }.fallback).rescale margin
  match s.rec? t h with
  | none => s
  | some r =>
    let s := s.modRec t h back
    if r.link ≠ 0 ∧ (s.rec? t r.link).isSome then (s.modRec t r.link back).fellBack t 2 else s.fellBack t 1

/-- The largest amount of writable data moved for a tenant at one boundary, in frames (R288). -/
def moveBudget : Nat := 1024

/-- Frames of a part that a move may carry now: of those not yet in the class, as many as are free, and of writable pages as many as the
boundary's budget leaves. -/
def State.movable (s : State) (t : Nat) (x : Tensor) (q : Part) (corr : Bool) : List Nat :=
  let todo := q.frames.filter fun f => s.corrected (f * 2 ^ 21) != corr
  let todo := todo.take (s.freeFrames corr todo.length s.frameCount).length
  if classW x.cls then todo.take (moveBudget - (s.tenant t).place.moved) else todo

/-- Frames moved are counted. -/
def State.countMoved (s : State) (t n : Nat) : State := s.modPlace t fun p => { p with moved := p.moved + n }

/-- Whether a pack frame of a tensor stays where it is: in its class, or corrected for another tensor in it. -/
def State.packStays (s : State) (t : Nat) (x : Tensor) (k : Pack) (corr : Bool) : Bool :=
  s.corrected (k.frame * 2 ^ 21) == corr ||
    (!corr && (s.tenant t).place.tensors.any fun y => y.handle != x.handle && correctedClass y.cls y.constraint &&
      y.parts.any fun q => q.packOff.isSome && q.frames == [k.frame])

/-- The pack frames that parts of a tensor lie in. -/
def State.packsOf (s : State) (t : Nat) (x : Tensor) : List Pack :=
  (s.tenant t).place.packs.filter fun k => x.parts.any fun q => q.packOff.isSome && q.frames == [k.frame]

/-- Moves a tensor's frames into, or out of, corrected groups, as far as free frames and the budget go (R288, R298). -/
def State.moveClass (s : State) (t : Nat) (x : Tensor) (corr : Bool) : State :=
  let s := (x.parts.filter fun q => q.packOff.isNone).foldl
    (fun (s : State) q =>
      let now := s.movable t x q corr
      if now.isEmpty then s
      else s.tryMove fun s => (s.movePart t x q now.contains corr s.frameCount).map fun s => s.countMoved t now.length) s
  ((s.packsOf t x).filter fun k => !s.packStays t x k corr).foldl
    (fun (s : State) k =>
      if (s.tenant t).place.moved < moveBudget then
        s.tryMove fun s => (s.movePack t k corr s.frameCount).map fun s => s.countMoved t 1
      else s) s

/-- Whether all of a tensor stands in its class. -/
def State.classDone (s : State) (t : Nat) (x : Tensor) (corr : Bool) : Bool :=
  (x.parts.all fun q => q.packOff.isSome || q.frames.all fun f => s.corrected (f * 2 ^ 21) == corr) &&
    (s.packsOf t x).all fun k => s.packStays t x k corr

/-- A constraint once it takes effect. -/
def Tensor.constrained (x : Tensor) (clear : Nat) (k : Constraint) : Constraint :=
  { flags := Nat.lor (x.constraint.flags - Nat.land x.constraint.flags clear) (k.flags % 64)
    slices := if bit k.flags 3 then k.slices else x.constraint.slices
    hint := if bit k.flags 4 then k.hint else x.constraint.hint }

/-- A constraint takes effect, its tensor standing in its class. -/
def State.settleConstraint (s : State) (t : Nat) (x : Tensor) (clear : Nat) (k : Constraint) : State :=
  let new := x.constrained clear k
  let corr := correctedClass x.cls new
  let n := sumNat ((x.parts.filter fun q => q.packOff.isNone).map fun q => framesOf q.bytes)
  let turned := corr != correctedClass x.cls x.constraint
  let s := s.modTensor t x.handle fun y =>
    { y with
      constraint := new, pending := none
      charged := if turned then (if corr then chargeOf 0 n else chargeOf n 0) else y.charged
      parts := y.parts.map fun q => if q.packOff.isNone && turned then { q with corrected := corr, moving := false } else q }
  let s := if x.recorded then s.modRec t x.handle fun r => { r with pinFmt := bit new.flags 5 } else s
  let s := if bit k.flags 6 then s.clearEscalation t x.handle else s
  let y := { x with constraint := new }
  let s := if bit (Nat.lor k.flags clear) 3 || bit (Nat.lor k.flags clear) 4 then
      x.parts.foldl (fun (s : State) q => s.homeFrames q.frames (y.homing q.code).1 (y.homing q.code).2) s
    else s
  if bit new.flags 0 != bit x.constraint.flags 0 then s.planPins else s

/-- A constraint is applied: its tensor moves first, and the constraint waits for the next boundary while some of it has still to move. -/
def State.applyConstraint (s : State) (t : Nat) (h clear : Nat) (k : Constraint) : State :=
  match s.heldTensor t h with
  | none => s
  | some x =>
    let corr := correctedClass x.cls (x.constrained clear k)
    let s := if corr != correctedClass x.cls x.constraint then s.moveClass t x corr else s
    match s.heldTensor t h with
    | none => s
    | some x =>
      if corr != correctedClass x.cls x.constraint && !s.classDone t x corr then s else s.settleConstraint t x clear k

/-- Constraints that wait, in handle order. -/
def State.constraintWork (s : State) (t : Nat) : State :=
  (byHandle ((s.tenant t).place.tensors.filter fun x => x.pending.isSome && !x.freed)).foldl
    (fun (s : State) x =>
      match x.pending with
      | some (c, k) => s.applyConstraint t x.handle c k
      | none => s) s

/-! ### Release (R285) -/

/-- Whether a freed tensor's frames may go: no drain reads them, no outbound operation of the tenant may use them, no recovery or load of
the frozen weight runs. -/
def State.mayRelease (s : State) (t : Nat) (x : Tensor) : Bool :=
  !(s.sec.drains.any fun d => d.tenant == t && d.blocks.any fun b => b.handle == x.handle) &&
    match s.frozenOf t x with
    | some z => !(s.mem.recoveries.any fun r => (partFrames z.parts).contains r.frame) && z.loading.isNone
    | none => !s.outbound t

def State.releaseDue (s : State) (t : Nat) : List Tensor :=
  (s.tenant t).place.tensors.filter fun x => x.freed && s.mayRelease t x

/-! ### The boundary (R286, R288) -/

/-- Whether the engine has work for a tenant's boundary. Moves that it has tried wait for the next one. -/
def State.boundaryDue (s : State) (t : Nat) : Bool :=
  !(s.fetchDue t).isEmpty || s.mem.replan || !(s.releaseDue t).isEmpty ||
    (!(s.tenant t).place.worked && (s.mapoutDue t || (s.tenant t).place.tensors.any fun x => x.pending.isSome && !x.freed))


/-- Whether a recovery of a frozen weight names a tenant (R268). -/
def State.recovering (s : State) (t : Nat) : Bool := s.mem.recoveries.any fun r => r.tenants.contains t

/-- Whether a frozen weight that a tenant shares lost a frame for good (R269). -/
def State.unrecovered (s : State) (t : Nat) : Bool := s.frozen.any fun z => z.unrecovered && z.sharers.any fun y => y.1 == t

/-- A STEP_OPEN held is accepted once nothing holds it (R158, R166, R268, R269, R293). -/
def State.tryOpen (s : State) (t : Nat) : State :=
  match (s.tenant t).step.openHeld with
  | none => s
  | some c =>
    if s.recovering t then s
    else if s.unrecovered t then (s.modStep t fun x => { x with openHeld := none }).endCmd t c 0x310 0 0
    else if s.boundaryDue t || s.has F.cstStatusPartBusy then s
    else
      let s := s.modStep t fun x => { x with openHeld := none }
      let s := (s.modPlace t fun p => { p with phaseUsed := KMap.put p.phaseUsed p.phase s.hif.nextCid }).endBoundary t
      -- the fields of the current step are 0 at a boundary (R97)
      ((s.mapRecs t NumRec.clearStep).setPhase t .opened).endCmd t c 0 (s.tenant t).step.scbStep 0

/-- BOUNDARY_WORK (R286, R288): at a boundary the tasks run in order; with operations of the tenant still running, the engine holds
its rings until they end. `bad` are the fetched frames of which flash does not return what it holds. While the partition applies, or the
pins wait, what comes after them waits. -/
def State.boundaryWork (s : State) (t : Nat) (bad : List (Nat × Nat × Nat)) : State :=
  if !s.active t || (s.tenant t).step.phase ≠ .idle then s
  else if s.running t then
    let s := s.endBoundary t
    s.modPlace t fun p => { p with hold := p.hold || s.boundaryDue t }
  else
    let s := (s.mapRecs t NumRec.clearStep).mapoutMoves t
    let s := (s.fetchDue t).foldl (fun s x => s.fetchTensor t x bad) s
    let s := s.pinWork
    if s.has F.cstStatusPartBusy || s.mem.replan then s.modPlace t fun p => { p with hold := true }
    else
      let s := s.constraintWork t
      let s := (s.releaseDue t).foldl (fun s x => s.removeTensor t x) s
      let s := s.modPlace t fun p => { p with hold := s.mem.replan, worked := true }
      s.tryOpen t

def execBoundaryWork (t : TenantId) (badFrames : List (Nat × Nat × Nat)) (s : State) : Host.Outcome State Fault Refusal :=
  .next (s.boundaryWork t badFrames)

/-! ### STEP_OPEN (R158) -/

/-- STEP_OPEN: refused out of sequence; else it opens, or is held. -/
def State.openStep (s : State) (t r : Nat) (e : Entry) (b : List Byte) : State :=
  let x := (s.tenant t).step
  if x.lost then s.finish t r e.cid 0x712 0 0
  else if x.phase ≠ .idle ∨ x.openHeld.isSome ∨ fld b 0 8 ≠ x.record.step + 1 then s.finish t r e.cid 0x20A 0 0
  else
    let s := s.modStep t fun x =>
      { x with
        openHeld := some e.cid, scbStep := fld b 0 8, scbPhase := fld b 8 1, onPoison := fld b 9 1
        cursorNext := (b.drop 0x10).take 16 }
    let old := (s.tenant t).place.phase
    let s := s.modPlace t fun p => { p with phase := fld b 8 1 }
    -- the partition and the pins are taken at each phase change (R287, R291)
    (if old = fld b 8 1 then s else s.planPins).tryOpen t

def execStepOpen (t : TenantId) (r : RingId) (s : State) : Host.Outcome State Fault Refusal :=
  .next (s.runCommand t r 0x10 fun s e => s.withScb t r e fun s b => s.openStep t r e b)

end Sys2Proof.Machine
end

