-- ==== Sys2Proof/Machine/TumBase.lean ====
section
/-! DEFINITION. What the tumblers share with the engines that they issue to (Tumbler cores and thread groups): launches, groups,
lane registers and the token table. -/

namespace Sys2Proof.Machine

/-! ### Launches (R173, R174) -/

def State.launch? (s : State) (l : Nat) : Option Launch := s.launches.find? fun x => x.id == l

def State.modLaunch (s : State) (l : Nat) (f : Launch → Launch) : State :=
  { s with launches := s.launches.map fun x => if x.id = l then f x else x }

def Launch.repack (x : Launch) : Bool := bit (fld x.desc 1 1) 0
def Launch.system (x : Launch) : Bool := bit (fld x.desc 1 1) 1
/-- Registers per thread. -/
def Launch.regs (x : Launch) : Nat := 8 * fld x.desc 2 1
/-- Groups of a block. -/
def Launch.groups (x : Launch) : Nat := fld x.desc 3 1
/-- Local memory of a block in bytes. -/
def Launch.lmem (x : Launch) : Nat := 4096 * fld x.desc 4 2
def Launch.entry (x : Launch) : Nat := fld x.desc 8 8
def Launch.args (x : Launch) : Nat := fld x.desc 0x10 8
def Launch.argSize (x : Launch) : Nat := fld x.desc 0x18 4

/-! ### Tumblers and groups -/

def State.tumbler (s : State) (u : Nat) : Tumbler := KMap.get s.tum u Tumbler.reset

def State.setTumbler (s : State) (u : Nat) (x : Tumbler) : State :=
  { s with tum := KMap.set s.tum u x Tumbler.reset }

def State.modTumbler (s : State) (u : Nat) (f : Tumbler → Tumbler) : State := s.setTumbler u (f (s.tumbler u))

def State.group? (s : State) (u g : Nat) : Option Group := KMap.find (s.tumbler u).groups g

def State.setGroup (s : State) (u g : Nat) (x : Group) : State :=
  s.modTumbler u fun y => { y with groups := KMap.put y.groups g x }

def State.modGroup (s : State) (u g : Nat) (f : Group → Group) : State :=
  match s.group? u g with
  | some x => s.setGroup u g (f x)
  | none => s

/-! ### Lane registers (R178): `lim` is the kernel's register count -/

/-- Lane `l` of register `n`; a register at or above the count reads 0. -/
def Group.lane (x : Group) (lim n l : Nat) : Nat := if n < lim then (KMap.get x.regs (32 * n + l) 0).toNat else 0

/-- Writes lane `l` of register `n`; a register at or above the count is not written. -/
def Group.setLane (x : Group) (lim n l v : Nat) : Group :=
  if n < lim then { x with regs := KMap.set x.regs (32 * n + l) (BitVec.ofNat 32 v) 0 } else x

/-- A register pair's 64 bits, the lower register low. -/
def Group.pair (x : Group) (lim n l : Nat) : Nat := x.lane lim n l + 2 ^ 32 * x.lane lim (n + 1) l

def Group.setPair (x : Group) (lim n l v : Nat) : Group :=
  (x.setLane lim n l (v % 2 ^ 32)).setLane lim (n + 1) l (v / 2 ^ 32 % 2 ^ 32)

/-- Register count of a group's kernel. -/
def State.regLimit (s : State) (launch : Nat) : Nat := ((s.launch? launch).map Launch.regs).getD 0

/-! ### Tokens (R37, R198) -/

/-- The lowest free slot of a token table of 64. -/
def Tumbler.freeToken (x : Tumbler) : Option Nat := (upto 0 64).find? fun k => (KMap.find x.tokens k).isNone

/-- The token of an accepted operation (R37). -/
def tokenWord (t slot seq : Nat) : Nat := 2 ^ 63 + t * 2 ^ 54 + slot * 2 ^ 48 + seq % 2 ^ 48

/-- An engine's answer to an issue (R195): the token or status in the issuing lane's register pair, which is no longer awaited. A
group that has gone takes nothing. -/
def State.answerIssue (s : State) (u g lane dst launch v : Nat) : State :=
  match s.group? u g with
  | none => s
  | some x =>
    if x.launch = launch then
      s.setGroup u g { x.setPair (s.regLimit launch) dst lane v with busy := (x.busy.erase dst).erase (dst + 1) }
    else s

/-- Takes a token slot of a tumbler. -/
def State.takeToken (s : State) (u slot : Nat) (t seq launch : Nat) : State :=
  s.modTumbler u fun x =>
    { x with tokens := KMap.put x.tokens slot { tenant := t, seq := seq, launch := launch, status := none } }

end Sys2Proof.Machine
end

