-- ==== Sys2Proof/Machine/ArrDesc.lean ====
section
/-! DEFINITION. The array descriptor (The Mortise array, R33, R40 to R49, R125, R126, R510): its fields, its checks, where an
operation's operands and outputs lie, and what it costs. -/

namespace Sys2Proof.Machine

/-! ### Fields (R40): functions of the 128 bytes -/

def dShape (d : List Byte) : Nat := fld d 1 1
def dAfmt (d : List Byte) : Nat := fld d 2 1
def dBfmt (d : List Byte) : Nat := fld d 3 1
def dOfmt (d : List Byte) : Nat := fld d 4 1
def dRound (d : List Byte) : Nat := fld d 5 1 % 4
def dSat (d : List Byte) : Bool := bit (fld d 5 1) 2
def dFlags (d : List Byte) : Nat := fld d 6 2
def dM (d : List Byte) : Nat := fld d 8 2
def dN (d : List Byte) : Nat := fld d 0xA 2
def dK (d : List Byte) : Nat := fld d 0xC 3
def dGroups (d : List Byte) : Nat := fld d 0x34 2
def dAlpha (d : List Byte) : Nat := fld d 0x44 4
def dCMeta (d : List Byte) : Nat := fld d 0x58 8
def dDone (d : List Byte) : Nat := fld d 0x60 8
def dSpill (d : List Byte) : Nat := fld d 0x68 8
def dStream (d : List Byte) : Nat := fld d 0x70 2
def dChain (d : List Byte) : Nat := fld d 0x72 2
def dTag (d : List Byte) : Nat := fld d 0x74 4
def dAccCont (d : List Byte) : Bool := bit (dFlags d) 2
def dHold (d : List Byte) : Bool := bit (dFlags d) 3
def dACam (d : List Byte) : Bool := bit (dFlags d) 4
def dBCam (d : List Byte) : Bool := bit (dFlags d) 5
def dAddC (d : List Byte) : Bool := bit (dFlags d) 6
def dAfterPrev (d : List Byte) : Bool := bit (dFlags d) 7

/-! ### Formats and pairs (R33, R41) -/

/-- Whether a format carries block scales. -/
def blockFmt (f : Nat) : Bool := f == 6 || f == 7

def fp8Fmt (f : Nat) : Bool := f == 2 || f == 3

/-- Twice the products per cell per array cycle of a format pair; 0 for an invalid one (R33). -/
def pairRate (a b : Nat) : Nat :=
  if a = 1 ∧ b = 1 then 1
  else if (fp8Fmt a && fp8Fmt b) || (a == 4 && b == 4) || (fp8Fmt a && b == 6) || (a == 6 && fp8Fmt b) then 2
  else if (a = 5 ∧ b = 5) ∨ (a = 6 ∧ b = 6) then 4
  else if (a = 6 ∧ b = 7) ∨ (a = 7 ∧ b = 6) then 8
  else 0

/-- The K granule of a pair (R33). -/
def pairGranule (a b : Nat) : Nat := if blockFmt a || blockFmt b || a == 5 then 32 else 16

/-- Four times the bytes of an element (R47). -/
def quarterBytes (f : Nat) : Nat := if f = 1 then 8 else if f = 5 ∨ f = 6 then 2 else if f = 7 then 1 else 4

/-! ### Checks of 0102h (R40 to R44, R86) -/

/-- The limits of a shape (R44). -/
def shapeOk (d : List Byte) : Bool :=
  let m := dM d
  let n := dN d
  let g := dGroups d
  let within := fun (a b : Nat) => decide (1 ≤ m ∧ m ≤ a ∧ 1 ≤ n ∧ n ≤ b)
  let thin := fun (w : Nat) => decide (16 ≤ w ∧ w ≤ 512 ∧ w % 16 = 0 ∧ 1 ≤ g ∧ g ≤ 128 ∧ g * w ≤ 2048)
  match dShape d with
  | 0 => within 2048 2048 && g == 1
  | 1 => within 1024 2048 && g == 1
  | 2 => within 2048 1024 && g == 1
  | 3 => within 1024 1024 && g == 1
  | 4 => within 1024 1024 && g == 4
  | 5 => within 2048 2048 && thin n
  | 6 => within 2048 2048 && thin m
  | _ => false

/-- The first check of R510. -/
def arrInvalid (d : List Byte) : Bool :=
  let o := dOfmt d
  !(fld d 0 1 == 2 && shapeOk d && pairRate (dAfmt d) (dBfmt d) != 0
    && (o == 0 || o == 1 || o == 2 || o == 3 || o == 6 || o == 8)
    && dRound d != 3 && bits (fld d 5 1) 7 3 == 0
    && bits (dFlags d) 15 10 == 0 && bits (dFlags d) 1 0 == 0 && (bits (dFlags d) 9 8 == 0 || dShape d == 3)
    && dK d != 0 && dK d % pairGranule (dAfmt d) (dBfmt d) == 0 && fld d 0xF 1 == 0
    && fld d 0x36 2 == 0 && fld d 0x78 8 == 0 && decide (dStream d ≤ 4095)
    && (o != 6 || (dN d % 32 == 0 && dCMeta d != 0 && !dAddC d)))

/-! ### Addresses (R42, R44) -/

/-- Problems or groups. -/
def arrProblems (d : List Byte) : Nat := dGroups d

/-- Whether the groups share an operand (R44): A in THIN_N, B in THIN_M. -/
def aShared (d : List Byte) : Bool := dShape d == 5
def bShared (d : List Byte) : Bool := dShape d == 6

/-- What problem or group `g` adds to the addresses of A, B and C. -/
def aOff (d : List Byte) (g : Nat) : Nat := if aShared d then 0 else g * fld d 0x38 4
def bOff (d : List Byte) (g : Nat) : Nat := if bShared d then 0 else g * fld d 0x3C 4
def cOff (d : List Byte) (g : Nat) : Nat := g * fld d 0x40 4

/-- The alignment checks of R510: addresses, leading dimensions, applied strides, and SPILL_ADDR when HOLD is set. C_META is checked for every
output format, A_META and B_META only for a format that has metadata (DESIGN CHOICE, log 176). -/
def arrMisaligned (d : List Byte) : Bool :=
  let strided := decide (1 < dGroups d)
  !((fld d 0x10 8) % 256 == 0 && (fld d 0x18 8) % 256 == 0 && (fld d 0x20 8) % 256 == 0
    && (fld d 0x28 4) % 256 == 0 && (fld d 0x2C 4) % 256 == 0 && (fld d 0x30 4) % 256 == 0
    && (!strided || aShared d || (fld d 0x38 4) % 256 == 0) && (!strided || bShared d || (fld d 0x3C 4) % 256 == 0)
    && (!strided || (fld d 0x40 4) % 256 == 0)
    && (!blockFmt (dAfmt d) || (fld d 0x48 8) % 256 == 0) && (!blockFmt (dBfmt d) || (fld d 0x50 8) % 256 == 0)
    && dCMeta d % 256 == 0 && dDone d % 16 == 0 && (!dHold d || dSpill d % 256 == 0))

/-- One operand of one problem: its format, address, leading dimension, whether it passes the cam, its positions, its metadata. -/
structure Opnd where
  fmt : Nat
  addr : Nat
  ld : Nat
  cam : Bool
  pos : Nat
  mta : Nat
  deriving DecidableEq, Repr

def opndA (d : List Byte) (g : Nat) : Opnd :=
  { fmt := dAfmt d, addr := fld d 0x10 8 + aOff d g, ld := fld d 0x28 4, cam := dACam d, pos := dM d
    mta := fld d 0x48 8 + aOff d g }

def opndB (d : List Byte) (g : Nat) : Opnd :=
  { fmt := dBfmt d, addr := fld d 0x18 8 + bOff d g, ld := fld d 0x2C 4, cam := dBCam d, pos := dN d
    mta := fld d 0x50 8 + bOff d g }

/-- The vectors of an operand (R42): K of its positions, or through the cam one of K elements for each position. -/
def Opnd.vectors (x : Opnd) (k : Nat) : List (Nat × Nat) :=
  (upto 0 (if x.cam then x.pos else k)).map fun i => (x.addr + i * x.ld, vectorBytes x.fmt (if x.cam then k else x.pos))

/-- The header and block words of an operand's metadata (R75, R76). -/
def Opnd.words (x : Opnd) (k : Nat) : List (Nat × Nat) :=
  if blockFmt x.fmt then [(x.mta, 256), (x.mta + 256, k / 32 * x.pos * (if x.fmt = 6 then 2 else 4))] else []

/-- Bytes of an output vector of `m` elements. -/
def outBytes (o m : Nat) : Nat := if o = 8 then 5 * m else vectorBytes o m

/-- The vectors of C that a problem's descriptor names. -/
def cVectors (d : List Byte) (g : Nat) : List (Nat × Nat) :=
  (upto 0 (dN d)).map fun j => (fld d 0x20 8 + cOff d g + j * fld d 0x30 4, outBytes (dOfmt d) (dM d))

/-- The output vectors of a problem: none for a held link. -/
def outVectors (d : List Byte) (g : Nat) : List (Nat × Nat) := if dHold d then [] else cVectors d g

/-- The output metadata of a problem, where the drain writes some. -/
def outMeta (d : List Byte) (g : Nat) : List (Nat × Nat) :=
  if dHold d || dCMeta d == 0 then []
  else (dCMeta d + cOff d g, 256) ::
    (if dOfmt d = 6 then [(dCMeta d + cOff d g + 256, dN d / 32 * dM d * 2)] else [])

/-- What a drain that does not end in success leaves undefined (R62, R95): C, the header, the block words and the escape entries, the side
area being where the header `hd` of each problem says. -/
def outUndefined (d : List Byte) (hd : Nat → List Byte) : List (Nat × Nat) :=
  ((upto 0 (arrProblems d)).map fun g =>
    outVectors d g ++ outMeta d g ++
      (if dHold d || dOfmt d != 6 then [] else [(dCMeta d + cOff d g + fld (hd g) 0x10 8, fld (hd g) 0xC 4 * entryBytes 6)])).flatten

/-- Bytes of a chain's spill area (R60). -/
def spillBytes (groups m n : Nat) : Nat := 5 * groups * m * n

/-- What an operation reads. -/
def arrReads (d : List Byte) : List (Nat × Nat) :=
  ((upto 0 (arrProblems d)).map fun g =>
    (opndA d g).vectors (dK d) ++ (opndA d g).words (dK d) ++ (opndB d g).vectors (dK d) ++ (opndB d g).words (dK d)).flatten

/-- What an operation writes. -/
def arrWrites (d : List Byte) : List (Nat × Nat) :=
  ((upto 0 (arrProblems d)).map fun g => outVectors d g ++ outMeta d g).flatten ++
    (if dDone d = 0 then [] else [(dDone d, 16)]) ++
    (if dHold d && dSpill d != 0 then [(dSpill d, spillBytes (arrProblems d) (dM d) (dN d))] else [])

/-! ### Cost (R48, R49, R50, R125, R126) -/

/-- Elements of an operand that one reduction step delivers (R125). -/
def aStep (d : List Byte) : Nat := if aShared d then dM d else dM d * dGroups d
def bStep (d : List Byte) : Nat := if bShared d then dN d else dN d * dGroups d

/-- Four times the cam bytes of a reduction step. -/
def camStep (d : List Byte) : Nat :=
  (if dACam d then aStep d * quarterBytes (dAfmt d) else 0) + (if dBCam d then bStep d * quarterBytes (dBfmt d) else 0)

def ceilDiv (a b : Nat) : Nat := (a + b - 1) / b

/-- C_K of R49, with `e` escaped K-blocks. -/
def accCycles (d : List Byte) (e : Nat) : Nat :=
  let p := pairRate (dAfmt d) (dBfmt d)
  ceilDiv (max 16384 (camStep d * p) * (2 * dK d + e * (32 * p - 64))) (16384 * p)

/-- C_K without the cam's stretch. -/
def baseCycles (d : List Byte) (e : Nat) : Nat :=
  let p := pairRate (dAfmt d) (dBfmt d)
  ceilDiv (2 * dK d + e * (32 * p - 64)) p

/-- G of R126. -/
def camFill (d : List Byte) : Nat := ceilDiv (camStep d) 64

/-- Bytes that an operation routes through the cam. -/
def camBytes (d : List Byte) : Nat := camStep d * dK d / 4

/-- Rows and columns of the array that an operation uses. -/
def usedRows (d : List Byte) : Nat := if bShared d then dM d * dGroups d else dM d
def usedCols (d : List Byte) : Nat := if aShared d then dN d * dGroups d else dN d

/-- D of R50: active cells of the fullest tile. -/
def drainCycles (d : List Byte) : Nat :=
  let cells := min 1024 (usedRows d) * min 1024 (usedCols d)
  if dHold d then 0 else if dOfmt d = 8 then ceilDiv (5 * cells) 4096 else ceilDiv cells 1024

/-! ### Translation of many spans (R217) -/

/-- Why an engine's work stops: a status of its own, or a memory fault with its access kind and addresses. -/
inductive Stop where
  | status (code : Nat)
  | mem (code kind va pa : Nat)
  deriving DecidableEq, Repr

def Stop.code : Stop → Nat
  | .status c => c
  | .mem c _ _ _ => c

/-- Reads spans of a tenant's space in order. -/
def State.fetchVecs (s : State) (u cap t : Nat) : List (Nat × Nat) → State × Except Stop (List (List Byte))
  | [] => (s, .ok [])
  | (va, n) :: rest =>
    match s.fetchSpan u cap t va n false with
    | (s, .fault c a pa) => (s, .error (.mem c kindEngineRead a pa))
    | (s, .ok bs) =>
      match s.fetchVecs u cap t rest with
      | (s, .ok xs) => (s, .ok (bs :: xs))
      | x => x

/-- Writes byte strings to a tenant's space in order, until one faults. -/
def State.storeVecs (s : State) (u cap t : Nat) : List (Nat × List Byte) → State × Option Stop
  | [] => (s, none)
  | (va, bs) :: rest =>
    match s.storeSpan u cap t va bs with
    | (s, .fault c a pa) => (s, some (.mem c kindEngineWrite a pa))
    | (s, .ok _) => s.storeVecs u cap t rest

/-- Free bytes: what the spec leaves undefined. -/
def State.freeBytes (s : State) (n : Nat) : List Byte := (upto 0 n).map fun i => BitVec.ofNat 8 (Config.freeValue (s.free + i))

/-- Leaves spans partly written and undefined: every byte that can be written takes a free value. -/
def State.scribble (s : State) (u cap t : Nat) (ps : List (Nat × Nat)) : State :=
  ps.foldl
    (fun (s : State) p =>
      let s' := (s.storeSpan u cap t p.1 (s.freeBytes p.2)).1
      { s' with free := s.free + p.2 }) s

end Sys2Proof.Machine
end

