-- ==== Sys2Proof/Machine/ArrData.lean ====
section
/-! DEFINITION. The arithmetic of the Mortise array (The Mortise array; Number formats and rounding): operands as they arrive,
the accumulators, and the drain. -/

namespace Sys2Proof.Machine

/-! ### Operands (R42, R72 to R80) -/

/-- An operand of one problem as received: its vectors, tile scale and block words, and the side-area entries of its escaped blocks
in the order of R77, each under the place of its block word. -/
structure OpndRead where
  vecs : List (List Byte)
  tile : Word
  words : List Nat
  entries : List (Nat × (Nat × List Nat))
  deriving DecidableEq, Repr

/-- Whether an entry names its block, and is one that R78 takes. -/
def entryOk (fmt pos i : Nat) (bs : List Byte) : Bool :=
  fld bs 0 4 == i % pos && fld bs 4 4 == i / pos && (fmt == 6 || fld bs 8 1 != 0xFF)

/-- Reads the entries of escaped blocks, given by the places of their words, from entry `n` of the side area (R79). -/
def State.readEntries (s : State) (u cap t fmt pos side count : Nat) :
    List Nat → Nat → State × Except Stop (List (Nat × (Nat × List Nat)))
  | [], _ => (s, .ok [])
  | i :: rest, n =>
    if count ≤ n then (s, .error (.status 0x109))
    else
      match s.fetchSpan u cap t (side + n * entryBytes fmt) (entryBytes fmt) false with
      | (s, .fault c a pa) => (s, .error (.mem c kindEngineRead a pa))
      | (s, .ok bs) =>
        if !entryOk fmt pos i bs then (s, .error (.status 0x109))
        else
          match s.readEntries u cap t fmt pos side count rest (n + 1) with
          | (s, .ok xs) => (s, .ok ((i, entryRead fmt bs) :: xs))
          | x => x

/-- The block words of metadata bytes. -/
def blockWords (fmt n : Nat) (bs : List Byte) : List Nat :=
  let w := if fmt = 6 then 2 else 4
  (upto 0 n).map fun i => fld bs (w * i) w

/-- Reads one operand of a problem: metadata ahead of elements. -/
def State.readOpnd (s : State) (u cap t : Nat) (x : Opnd) (k : Nat) : State × Except Stop OpndRead :=
  match s.fetchVecs u cap t (x.words k) with
  | (s, .error e) => (s, .error e)
  | (s, .ok mds) =>
    let hd := mds.getD 0 []
    let words := blockWords x.fmt (k / 32 * x.pos) (mds.getD 1 [])
    if blockFmt x.fmt && fld hd 0x10 8 % 64 != 0 then (s, .error (.status 0x103))
    else
      let esc := if blockFmt x.fmt then (upto 0 words.length).filter fun i => escaped x.fmt (words.getD i 0) else []
      match s.readEntries u cap t x.fmt x.pos (x.mta + fld hd 0x10 8) (fld hd 8 4) esc 0 with
      | (s, .error e) => (s, .error e)
      | (s, .ok es) =>
        match s.fetchVecs u cap t (x.vectors k) with
        | (s, .error e) => (s, .error e)
        | (s, .ok vs) =>
          (s, .ok { vecs := vs, tile := if blockFmt x.fmt then BitVec.ofNat 32 (fld hd 0 4) else 0x3F800000, words := words, entries := es })

/-- The code of element `k` of position `p` (R42). -/
def Opnd.code (x : Opnd) (r : OpndRead) (p k : Nat) : Nat :=
  if x.cam then elementAt x.fmt (r.vecs.getD p []) k else elementAt x.fmt (r.vecs.getD k []) p

/-- The word and the entry of the block of position `p` that holds element `k`. -/
def Opnd.block (x : Opnd) (r : OpndRead) (p k : Nat) : Nat × Option (Nat × List Nat) :=
  let i := k / 32 * x.pos + p
  (r.words.getD i 0, KMap.find r.entries i)

/-- The HN4 element that a code stands for before its block scale (R73, R74): sub-scales are shifts. -/
def hnRaw (word k code : Nat) : Fp :=
  if word % 256 = 0 then .fin (bit code 3) 0 0
  else (e2m1 code).shift (-((word / 2 ^ (8 + 2 * (k / 8)) % 4 : Nat) : Int))

/-- The block scale of an HN4 word; a zero-coded block needs none. -/
def hnScale (word : Nat) : Fp := if word % 256 = 0 then .fin false 1 0 else scaleVal (word % 256)

/-- The multiplier's input for an element (R33): the element before its block scale. -/
def Opnd.raw (x : Opnd) (r : OpndRead) (p k : Nat) : Fp :=
  let c := x.code r p k
  if blockFmt x.fmt then
    match x.block r p k with
    | (_, some (e, d)) => if x.fmt = 6 then Fmt.decode .e4m3 (d.getD (k % 32) 0) else hnRaw e (k % 32) (d.getD (k % 32) 0)
    | (w, none) =>
      if x.fmt = 6 then hnRaw w (k % 32) c
      else if c % 4 = 1 then .fin false 1 0 else if c % 4 = 3 then .fin true 1 0 else .fin false 0 0
  else plainValue x.fmt c

/-- The block scale that the scale stage applies (R73, R78, R80). -/
def Opnd.scale (x : Opnd) (r : OpndRead) (p k : Nat) : Fp :=
  if blockFmt x.fmt then
    match x.block r p k with
    | (_, some (e, _)) => if x.fmt = 6 then f32 e else hnScale e
    | (w, none) => if x.fmt = 6 then hnScale w else f32 w
  else .fin false 1 0

/-- Whether the scale stage rounds for a block of this operand (R83): a T2 scale or an FP32 escape scale. -/
def Opnd.rounds (x : Opnd) (r : OpndRead) (p k : Nat) : Bool :=
  blockFmt x.fmt && ((x.block r p k).2.isSome == (x.fmt == 6))

/-- An element as FP32 without its tile scale, for the sample path (R90, R106). -/
def Opnd.sample (x : Opnd) (r : OpndRead) (p k : Nat) : Word :=
  let c := x.code r p k
  BitVec.ofNat 32
    (if blockFmt x.fmt then
      let b := x.block r p k
      decodedWord (blockValue x.fmt (.fin false 1 0) b.1 b.2 (k % 32) c)
    else toF32 (plainValue x.fmt c))

def Opnd.samples (x : Opnd) (r : OpndRead) (k : Nat) : List (List Word) :=
  (upto 0 x.pos).map fun p => (upto 0 k).map fun i => x.sample r p i

/-- The K-blocks of an operand that hold an escaped block (R49). -/
def Opnd.escBlocks (x : Opnd) (r : OpndRead) : List Nat := r.entries.map fun e => e.1 / x.pos

/-! ### Accumulation (R33 to R36, R82, R83, R131) -/

/-- Whether an FP32 word is a power of two: the scale stage then multiplies exactly. -/
def powerWord (w : Nat) : Bool :=
  match f32 w with
  | .fin _ n _ => n != 0 && n == 2 ^ Nat.log2 n
  | _ => false

/-- The scale stage's multiplication by ρ (R131). -/
def rhoScale (rho : Nat) (v : Fp) : Fp :=
  let x := v.mul (f32 rho)
  if powerWord rho then x else Fmt.fit .fa40 x

/-- The FA40 adder: an operation's first sum is written into the bank (R35). -/
def bankAdd (acc : Option Nat) (v : Fp) : Nat :=
  match acc with
  | none => Fmt.near .fa40 v
  | some a => Fmt.near .fa40 ((Fmt.decode .fa40 a).add v)

/-- An exact sum of values. -/
def sumExact : List Fp → Fp
  | [] => .fin false 0 0
  | [v] => v
  | v :: vs => v.add (sumExact vs)

/-- The terms that the FA40 adder takes for one cell, in ascending k: one for each scaling block of 32, or for each product. -/
def cellTerms (a b : Opnd) (ra rb : OpndRead) (rho k i j : Nat) : List Fp :=
  if blockFmt a.fmt || blockFmt b.fmt then
    (upto 0 (k / 32)).map fun n =>
      let sum := sumExact ((upto (32 * n) 32).map fun q => (a.raw ra i q).mul (b.raw rb j q))
      let v := (sum.mul (a.scale ra i (32 * n))).mul (b.scale rb j (32 * n))
      rhoScale rho (if a.rounds ra i (32 * n) || b.rounds rb j (32 * n) then Fmt.fit .fa40 v else v)
  else (upto 0 k).map fun q => rhoScale rho ((a.raw ra i q).mul (b.raw rb j q))

/-- Whether an accumulator's magnitude has reached 2^32 (R36). -/
def reached32 (c : Nat) : Bool := !((Fmt.decode .fa40 c).abs.lt (Fp.two 32))

/-- One cell's accumulation: the bank's value after, and whether it reached 2^32 on the way. -/
def cellRun : Option Nat → List Fp → Nat × Bool
  | acc, [] => (acc.getD 0, false)
  | acc, v :: vs =>
    let c := bankAdd acc v
    let r := cellRun (some c) vs
    (r.1, reached32 c || r.2)

/-- One problem's accumulators, element (i, j) at j × M + i; `old` is the bank it continues. -/
def problemRun (d : List Byte) (a b : Opnd) (ra rb : OpndRead) (rho : Nat) (old : Option (List Nat)) : List Nat × Bool :=
  let xs := (upto 0 (dM d * dN d)).map fun e =>
    cellRun (old.map fun o => o.getD e 0) (cellTerms a b ra rb rho (dK d) (e % dM d) (e / dM d))
  (xs.map (·.1), xs.any (·.2) && (dAfmt d == 4 || dAfmt d == 5))

/-- α of R85 step 1: ALPHA × T_A rounded to FP32, then that times T_B rounded (DESIGN CHOICE, log 178). -/
def alphaOf (d : List Byte) (ta tb : Word) : Word :=
  BitVec.ofNat 32 (f32mul (f32mul (dAlpha d) ta.toNat) tb.toNat)

/-- What the operands of all problems give. -/
structure ArrRead where
  a : List OpndRead
  b : List OpndRead
  deriving DecidableEq, Repr

/-- Reads the operands of problems in order, A before B: of several faults the first met so ends the operation (DESIGN CHOICE, log 177). -/
def State.readProblems (s : State) (u cap t : Nat) (d : List Byte) : List Nat → State × Except Stop ArrRead
  | [] => (s, .ok { a := [], b := [] })
  | g :: gs =>
    match s.readOpnd u cap t (opndA d g) (dK d) with
    | (s, .error e) => (s, .error e)
    | (s, .ok ra) =>
      match s.readOpnd u cap t (opndB d g) (dK d) with
      | (s, .error e) => (s, .error e)
      | (s, .ok rb) =>
        match s.readProblems u cap t d gs with
        | (s, .ok r) => (s, .ok { a := ra :: r.a, b := rb :: r.b })
        | x => x

/-- Distinct numbers of a list. -/
def distinct : List Nat → List Nat
  | [] => []
  | x :: xs => if xs.contains x then distinct xs else x :: distinct xs

/-- E_K of R49: escaped K-blocks of any operand of any problem. -/
def escapedBlocks (d : List Byte) (r : ArrRead) : Nat :=
  (distinct (((upto 0 (arrProblems d)).map fun g =>
    (match r.a[g]? with | some x => (opndA d g).escBlocks x | none => []) ++
    (match r.b[g]? with | some x => (opndB d g).escBlocks x | none => [])).flatten)).length

/-- An operation with its operands taken in: the accumulators, α of each problem, and the sample path's copies. -/
def ArrOp.accumulate (o : ArrOp) (r : ArrRead) : ArrOp :=
  let d := o.desc
  let gs := upto 0 (arrProblems d)
  let alpha := gs.map fun g =>
    alphaOf d ((r.a[g]?.map (·.tile)).getD 0x3F800000) ((r.b[g]?.map (·.tile)).getD 0x3F800000)
  let first := match o.chain with | some c => c.alpha | none => alpha
  let size := dM d * dN d
  let runs := gs.map fun g =>
    match r.a[g]?, r.b[g]? with
    | some ra, some rb =>
      let rho := if o.chain.isSome then f32div ((alpha.getD g 0).toNat) ((first.getD g 0).toNat) else 0x3F800000
      problemRun d (opndA d g) (opndB d g) ra rb rho (o.chain.map fun _ => (o.data.drop (g * size)).take size)
    | _, _ => ([], false)
  { o with
    alpha := alpha, alphaOut := first
    data := (runs.map (·.1)).flatten
    inexact := o.inexact || runs.any (·.2)
    opA := gs.map fun g => match r.a[g]? with | some x => (opndA d g).samples x (dK d) | none => []
    opB := gs.map fun g => match r.b[g]? with | some x => (opndB d g).samples x (dK d) | none => [] }

/-! ### The drain (R85, R86) -/

/-- The rounding of element (i, j) of problem `g`: its draw is that of R43. -/
def drainMode (d : List Byte) (key c0 g e : Nat) : RMode :=
  if dRound d = 1 then .stochastic (drawAt key (c0 + g * dN d * dM d + e)) else if dRound d = 2 then .zero else .nearest

/-- y of R85 steps 2 and 3; `prior` is the existing output element. -/
def drainValue (alpha : Word) (acc : Nat) (prior : Option Fp) : Fp :=
  let y := Fmt.fit .fa40 ((f32 alpha.toNat).mul (Fmt.decode .fa40 acc))
  match prior with
  | some c => Fmt.fit .fa40 (y.add c)
  | none => y

/-- The value of an output element in OFMT. -/
def outValue (o c : Nat) : Fp := if o = 8 then Fmt.decode .fa40 c else plainValue o c

/-- Element `i` of an output vector's bytes. -/
def outElement (o : Nat) (bs : List Byte) (i : Nat) : Nat := if o = 8 then fld bs (5 * i) 5 else elementAt o bs i

/-- What draining one problem gives: writes in order, AMAX and NONFINITE, and the outputs as FP32, element (i, j) at j × M + i. -/
structure DrainOut where
  writes : List (Nat × List Byte)
  amax : Word
  nonfinite : Nat
  outs : List Nat
  deriving DecidableEq, Repr

/-- The greatest finite magnitude of values, as FP32. -/
def amaxVals (vs : List Nat) : Word := amaxOf vs

/-- The drain of a problem in a format without blocks (R85 step 5, R86). -/
def drainPlain (d : List Byte) (g key c0 : Nat) (alpha : Word) (acc : List Nat) (prior : List (List Byte)) : DrainOut :=
  let m := dM d
  let o := dOfmt d
  let code := fun (j i : Nat) =>
    let old := if dAddC d then some (outValue o (outElement o (prior.getD j []) i)) else none
    let y := drainValue alpha (acc.getD (j * m + i) 0) old
    if o = 8 then Fmt.near .fa40 y else plainCode o (drainMode d key c0 g (j * m + i)) (dSat d) y
  let rows := (upto 0 (dN d)).map fun j => (upto 0 m).map fun i => code j i
  let vals := (rows.map fun r => r.map fun c => outValue o c).flatten
  let outs := vals.map toF32
  let nf := countIf (fun v => !v.finite) vals
  let amax := amaxVals outs
  let cm := dCMeta d + cOff d g
  { writes := ((outVectors d g).zip rows).map (fun x =>
        (x.1.1, if o = 8 then (x.2.map fun c => leBytes 5 c).flatten else packVector o x.2)) ++
      (if dCMeta d = 0 then [] else [(cm + 4, leBytes 4 amax.toNat), (cm + 0x1C, leBytes 4 nf)])
    amax := amax, nonfinite := nf, outs := outs }

/-- The drain of a problem to HN4 (R85 step 4, R86): blocked along j, the header last; `hd` is the header of C_META. -/
def drainHN4 (d : List Byte) (g key c0 : Nat) (alpha tile : Word) (acc : List Nat) (hd : List Byte) (junk : Nat → Nat) : DrainOut :=
  let m := dM d
  let recip := f32 (f32div 0x3F800000 tile.toNat)
  let ys := (upto 0 (dN d)).map fun j => (upto 0 m).map fun i =>
    Fmt.fit .fa40 ((drainValue alpha (acc.getD (j * m + i) 0) none).mul recip)
  let q := quantGrid 6 (fld hd 0xC 4) (fld hd 0x18 1) m (dSat d) (drainMode d key c0 g) junk ys
  let outs := ((upto 0 (dN d)).map fun j => (upto 0 m).map fun i => decodedWord (q.value 6 m (f32 tile.toNat) j i)).flatten
  let amax := amaxVals outs
  let cm := dCMeta d + cOff d g
  { writes := ((outVectors d g).zip q.rows).map (fun x => (x.1.1, packVector 6 x.2)) ++
      [(cm + 256, q.words 6)] ++ (if q.escCount = 0 then [] else [(cm + fld hd 0x10 8, q.entries 6 m)]) ++
      [(cm + 4, leBytes 4 amax.toNat ++ leBytes 4 q.escCount), (cm + 0x19, leBytes 1 6),
       (cm + 0x1C, leBytes 4 q.nonfinite ++ leBytes 4 q.denied ++ leBytes 4 q.flush)]
    amax := amax, nonfinite := q.nonfinite, outs := outs }

/-- Drains one problem: what it reads first, then its writes; the outputs and prior outputs as FP32, or why it stops. -/
def State.drainProblem (s : State) (o : ArrOp) (g : Nat) : State × Except Stop (DrainOut × List Nat) :=
  let d := o.desc
  let u := arrayUnit
  let size := dM d * dN d
  let acc := (o.data.drop (g * size)).take size
  let alpha := o.alphaOut.getD g 0
  let key := (s.tenant o.tenant).step.key (dStream d)
  let reads := if dOfmt d = 6 then [(dCMeta d + cOff d g, 256)] else if dAddC d then outVectors d g else []
  match s.fetchVecs u tlbArray o.tenant reads with
  | (s, .error e) => (s, .error e)
  | (s, .ok rs) =>
    let out :=
      if dOfmt d = 6 then drainHN4 d g key o.c0 alpha (o.tileC.getD g 0) acc (rs.getD 0 []) fun i => Config.freeValue (s.free + i)
      else drainPlain d g key o.c0 alpha acc rs
    let s := if dOfmt d = 6 then { s with free := s.free + size } else s
    match s.storeVecs u tlbArray o.tenant out.writes with
    | (s, some e) => (s, .error e)
    | (s, none) =>
      let prior := if dAddC d then
          ((upto 0 (dN d)).map fun j => (upto 0 (dM d)).map fun i => toF32 (outValue (dOfmt d) (outElement (dOfmt d) (rs.getD j []) i))).flatten
        else []
      (s, .ok (out, prior))

/-- Drains the problems of an operation in order. -/
def State.drainProblems (s : State) (o : ArrOp) : List Nat → State × Except Stop (List (DrainOut × List Nat))
  | [] => (s, .ok [])
  | g :: gs =>
    match s.drainProblem o g with
    | (s, .error e) => (s, .error e)
    | (s, .ok x) =>
      match s.drainProblems o gs with
      | (s, .ok xs) => (s, .ok (x :: xs))
      | y => y

/-- Edge blocks counted as one: the 64 × 64 blocks of a length. -/
def blocks64 (n : Nat) : Nat := (n + 63) / 64

/-- What the sample path copies of block `b` of an operation's output (R65, R106). -/
def ArrOp.sampleBlock (o : ArrOp) (b : Nat) : Sample :=
  let d := o.desc
  let m := dM d
  let per := blocks64 m * blocks64 (dN d)
  let g := b / per
  let i0 := 64 * (b % per % blocks64 m)
  let j0 := 64 * (b % per / blocks64 m)
  let out := o.outs.getD g ([], [])
  { tenant := o.tenant, cMeta := if dCMeta d = 0 then 0 else dCMeta d + cOff d g, ofmt := dOfmt d, alpha := o.alphaOut.getD g 0
    elems := ((upto j0 (min 64 (dN d - j0))).map fun j => (upto i0 (min 64 (m - i0))).map fun i =>
      { pairs := ((o.opA.getD g []).getD i []).zip ((o.opB.getD g []).getD j [])
        prior := if dAddC d then some (BitVec.ofNat 32 (out.2.getD (j * m + i) 0)) else none
        y := BitVec.ofNat 32 (out.1.getD (j * m + i) 0) }).flatten }

end Sys2Proof.Machine
end

