-- ==== Sys2Proof/Machine/RowDesc.lean ====
section
/-! DEFINITION. The row descriptor and the arithmetic of row operations (The backward pass, R137, R138, R112). -/

namespace Sys2Proof.Machine

/-! ### Fields (R137) -/

def rOp (d : List Byte) : Nat := fld d 1 1
def rIfmt (d : List Byte) : Nat := fld d 2 1
def rOfmt (d : List Byte) : Nat := fld d 3 1
def rRound (d : List Byte) : Nat := fld d 4 1 % 4
def rSat (d : List Byte) : Bool := bit (fld d 4 1) 2
def rRms (d : List Byte) : Bool := bit (fld d 5 1) 0
def rAffine (d : List Byte) : Bool := bit (fld d 5 1) 1
def rWeighted (d : List Byte) : Bool := bit (fld d 5 1) 2
def rKeep (d : List Byte) : Bool := bit (fld d 5 1) 3
def rBacking (d : List Byte) : Bool := bit (fld d 5 1) 4
def rReadP (d : List Byte) : Bool := bit (fld d 5 1) 5
def rSet (d : List Byte) : Nat := fld d 6 2
def rRows (d : List Byte) : Nat := fld d 8 4
def rLen (d : List Byte) : Nat := fld d 0xC 4
def rX (d : List Byte) : Nat := fld d 0x10 8
def rY (d : List Byte) : Nat := fld d 0x18 8
def rG (d : List Byte) : Nat := fld d 0x20 8
def rP (d : List Byte) : Nat := fld d 0x28 8
def rR (d : List Byte) : Nat := fld d 0x30 8
def rMeta (d : List Byte) : Nat := fld d 0x38 8
def rXLd (d : List Byte) : Nat := fld d 0x40 4
def rYLd (d : List Byte) : Nat := fld d 0x44 4
def rGLd (d : List Byte) : Nat := fld d 0x48 4
def rIscale (d : List Byte) : Nat := fld d 0x4C 4
def rOscale (d : List Byte) : Nat := fld d 0x50 4
def rParam (d : List Byte) : Nat := fld d 0x54 4
def rRow0 (d : List Byte) : Nat := fld d 0x58 4
def rEpoch (d : List Byte) : Nat := fld d 0x5C 2
def rStream (d : List Byte) : Nat := fld d 0x5E 2
def rDone (d : List Byte) : Nat := fld d 0x60 8
def rTag (d : List Byte) : Nat := fld d 0x68 4
def rS (d : List Byte) : Nat := fld d 0x70 8

/-! The row operations (R138). -/
def rowNormFwd : Nat := 1
def rowNormBwd : Nat := 2
def rowSoftFwd : Nat := 3
def rowSoftBwd : Nat := 4
def rowLossCe : Nat := 5
def rowLossSq : Nat := 6
def rowFree : Nat := 0xF

/-- Whether an operation reads statistics entries (R141). -/
def rowReads (d : List Byte) : Bool := rOp d == rowNormBwd || (rOp d == rowSoftBwd && !rReadP d)

/-- Whether an operation writes them (R140). -/
def rowKeeps (d : List Byte) : Bool := (rOp d == rowNormFwd || rOp d == rowSoftFwd) && rKeep d

/-- Whether an operation reads a second tensor at G. -/
def rowTensorG (d : List Byte) : Bool := rOp d == rowNormBwd || rOp d == rowSoftBwd || rOp d == rowLossSq

def rowLoss (d : List Byte) : Bool := rOp d == rowLossCe || rOp d == rowLossSq

/-- The checks of 0102h (R137, R143): a backward operation needs a SET, and HN4 output needs what R86 asks. -/
def rowInvalid (d : List Byte) : Bool :=
  let o := rOp d
  let i := rIfmt d
  let y := rOfmt d
  !(fld d 0 1 == 1 && (o == 1 || o == 2 || o == 3 || o == 4 || o == 5 || o == 6 || o == 0xF)
    && (i == 0 || i == 1 || i == 2 || i == 3 || i == 8) && (y == 0 || y == 1 || y == 2 || y == 3 || y == 6)
    && rRound d != 3 && bits (fld d 4 1) 7 3 == 0 && bits (fld d 5 1) 7 6 == 0 && decide (rSet d < 4096)
    && (o == rowFree || decide (1 ≤ rRows d ∧ rRows d ≤ 2 ^ 24 ∧ 1 ≤ rLen d ∧ rLen d ≤ 2 ^ 22))
    && fld d 0x6C 4 == 0 && fld d 0x78 8 == 0 && decide (rStream d ≤ 4095)
    && !((o == rowNormBwd || o == rowSoftBwd) && rSet d == 0) && (o == rowFree || y != 6 || (rLen d % 32 == 0 && rMeta d != 0)))

def rowMisaligned (d : List Byte) : Bool :=
  !(rX d % 256 == 0 && rY d % 256 == 0 && rG d % 256 == 0 && rXLd d % 256 == 0 && rYLd d % 256 == 0 && rGLd d % 256 == 0
    && rP d % 64 == 0 && rR d % 64 == 0 && rS d % 64 == 0 && rMeta d % 256 == 0 && rDone d % 16 == 0)

/-- Bytes of an input element: FP32, BF16, FP8 or FA40 raw. -/
def rowElem (f : Nat) : Nat := if f = 0 then 4 else if f = 1 then 2 else if f = 8 then 5 else 1

/-- Chunks of 256 rows (R142). -/
def rowChunks (d : List Byte) : Nat := ceilDiv (rRows d) 256

/-- Rows of chunk `c`. -/
def chunkRows (d : List Byte) (c : Nat) : Nat := min 256 (rRows d - 256 * c)

/-- Passes of an operation (R138). -/
def rowPasses (d : List Byte) : Nat :=
  if rOp d = rowLossSq then 1 else if rOp d = rowNormFwd ∨ rOp d = rowSoftFwd then (if rLen d ≤ 1024 then 1 else 2) else 2

/-- The spans of rows `r0` to `r0 + n - 1` of a tensor: one in each index vector. -/
def rowSpans (addr ld s len r0 n : Nat) : List (Nat × Nat) := (upto 0 len).map fun f => (addr + f * ld + r0 * s, n * s)

/-- The bytes of `n` output elements from row `r0` of an index vector: offset and length. -/
def outSpan (o r0 n : Nat) : Nat × Nat := if o = 6 then (r0 / 2, (n + 1) / 2) else (vectorBytes o r0, vectorBytes o n)

/-- Rows `r0` on of the output. -/
def rowOutSpans (d : List Byte) (r0 n : Nat) : List (Nat × Nat) :=
  (upto 0 (rLen d)).map fun f => (rY d + f * rYLd d + (outSpan (rOfmt d) r0 n).1, (outSpan (rOfmt d) r0 n).2)

/-- The gains and biases at P (R138). -/
def rowGains (d : List Byte) : List (Nat × Nat) :=
  if !rAffine d then []
  else if rOp d = rowNormFwd then (rP d, 4 * rLen d) :: (if rRms d then [] else [(rP d + 4 * rLen d, 4 * rLen d)])
  else if rOp d = rowNormBwd then [(rP d, 4 * rLen d)]
  else []

/-- What a chunk reads: X, then G, then targets and weights. -/
def rowReadsOf (d : List Byte) (r0 n : Nat) : List (Nat × Nat) :=
  rowSpans (rX d) (rXLd d) (rowElem (rIfmt d)) (rLen d) r0 n ++
    (if rowTensorG d then rowSpans (rG d) (rGLd d) (rowElem (rIfmt d)) (rLen d) r0 n
     else if rOp d = rowLossCe then [(rG d + 4 * r0, 4 * n)] else []) ++
    (if rowLoss d && rWeighted d then [(rP d + 4 * r0, 4 * n)] else [])

/-- What a chunk writes, the statistics' backing included. -/
def rowWritesOf (d : List Byte) (r0 n : Nat) : List (Nat × Nat) :=
  rowOutSpans d r0 n ++
    (if rOp d = rowNormBwd then [(rR d, 8 * rLen d)] else if rowLoss d then [(rR d + 4 * r0, 4 * n), (rS d, 4)] else []) ++
    (if rowKeeps d && rBacking d && rS d != 0 then [(rS d + 8 * r0, 8 * n)] else [])

/-- The output metadata of a row operation. -/
def rowMetas (d : List Byte) : List (Nat × Nat) :=
  if rMeta d = 0 then [] else (rMeta d, 256) :: (if rOfmt d = 6 then [(rMeta d + 256, rLen d / 32 * rRows d * 2)] else [])

/-! ### Arithmetic: FP32 with FA40 sums (R138) -/

/-- A sum in FA40, each addition rounded, as FP32. -/
def sumF (ws : List Nat) : Nat := toF32 (ws.foldl (fun (a : Fp) w => Fmt.fit .fa40 (a.add (f32 w))) (.fin false 0 0))

def meanF (ws : List Nat) : Nat := f32div (sumF ws) (f32ofInt ws.length)

def f32one : Nat := 0x3F800000
def f32nan : Nat := 0x7FC00000

def spExp (w : Nat) : Nat := (Config.spindleExp (BitVec.ofNat 32 w)).toNat
def spLog (w : Nat) : Nat := (Config.spindleLog (BitVec.ofNat 32 w)).toNat

/-- One row's inputs as FP32. -/
structure RowIn where
  x : List Nat
  g : List Nat
  gain : Option (List Nat)
  bias : Option (List Nat)
  stat : Nat × Nat
  target : Int
  w : Nat
  deriving DecidableEq, Repr

/-- What one row gives: outputs before OSCALE, its statistics entry, its terms of the gain-gradient sums, its loss. -/
structure RowRes where
  y : List Nat
  stat : Nat × Nat
  colA : List Nat
  colB : List Nat
  loss : Nat
  bad : Bool
  deriving DecidableEq, Repr

/-- The canonical NaN that not-finite values cause (R70): with the sign of the first NaN among them; positive when infinities alone cause it
(DESIGN CHOICE, log 179). -/
def nanOf (vs : List Nat) : Nat :=
  match vs.find? fun v => (f32 v).isNan with
  | some v => f32nan + v / 2 ^ 31 * 2 ^ 31
  | none => f32nan

/-- A row of `n` elements whose every output is the NaN `w`. -/
def rowNan (n w : Nat) : RowRes :=
  { y := List.replicate n w, stat := (w, w), colA := List.replicate n w, colB := List.replicate n w, loss := 0, bad := false }

/-- NORM_FWD of a row. -/
def rowNormF (rms : Bool) (eps : Nat) (r : RowIn) : RowRes :=
  if r.x.any f32bad then rowNan r.x.length (nanOf r.x)
  else
    let mu := if rms then 0 else meanF r.x
    let c := r.x.map fun x => f32sub x mu
    let rho := f32div f32one (f32sqrt (f32add (meanF (c.map fun v => f32mul v v)) eps))
    let n := c.map fun v => f32mul v rho
    let n := match r.gain with | some g => (n.zip g).map fun p => f32mul p.1 p.2 | none => n
    let n := match r.bias with | some b => (n.zip b).map fun p => f32add p.1 p.2 | none => n
    { y := n, stat := (mu, rho), colA := [], colB := [], loss := 0, bad := false }

/-- NORM_BWD of a row. -/
def rowNormB (rms : Bool) (r : RowIn) : RowRes :=
  if r.x.any f32bad || r.g.any f32bad then rowNan r.x.length (nanOf (r.x ++ r.g))
  else
    let (mu, rho) := r.stat
    let xh := r.x.map fun x => f32mul (f32sub x mu) rho
    let g := match r.gain with | some q => (r.g.zip q).map fun p => f32mul p.1 p.2 | none => r.g
    let mg := meanF g
    let mx := meanF ((g.zip xh).map fun p => f32mul p.1 p.2)
    let y := (g.zip xh).map fun p =>
      f32mul rho (f32sub (if rms then p.1 else f32sub p.1 mg) (f32mul p.2 mx))
    { y := y, stat := r.stat, colA := (r.g.zip xh).map fun p => f32mul p.1 p.2, colB := r.g, loss := 0, bad := false }

def negInf : Nat := 0xFF800000

/-- Whether a soft-maximum row is not finite (R112): a NaN or +infinity; −infinity is a mask. -/
def softBad (vs : List Nat) : Bool := vs.any fun v => f32bad v && v != negInf

/-- The soft maximum of a row: probabilities, m and z. -/
def softRow (vs : List Nat) : List Nat × (Nat × Nat) :=
  if softBad vs then (List.replicate vs.length (nanOf vs), (nanOf vs, nanOf vs))
  else if vs.all fun v => v == negInf then (List.replicate vs.length 0, (negInf, 0))
  else
    let m := vs.foldl (fun a v => if (f32 a).lt (f32 v) then v else a) negInf
    let es := vs.map fun v => if v = negInf then 0 else spExp (f32sub v m)
    let z := sumF es
    (es.map fun e => f32div e z, (m, z))

/-- Probabilities from an entry (m, z). -/
def softAgain (vs : List Nat) (st : Nat × Nat) : List Nat :=
  if softBad vs then List.replicate vs.length (nanOf vs)
  else vs.map fun v => if v = negInf then 0 else f32div (spExp (f32sub v st.1)) st.2

/-- SOFTMAX_BWD of a row: a NaN or +infinity among its inputs makes every output a NaN (R112). -/
def rowSoftB (param : Nat) (readP : Bool) (r : RowIn) : RowRes :=
  let v := if readP then r.x else r.x.map fun x => f32mul param x
  if softBad v || softBad r.g then rowNan r.x.length (nanOf (v ++ r.g)) else
  let p := if readP then v else softAgain v r.stat
  let delta := sumF ((r.g.zip p).map fun q => f32mul q.1 q.2)
  { y := (p.zip r.g).map fun q => f32mul (f32mul param q.1) (f32sub q.2 delta)
    stat := r.stat, colA := [], colB := [], loss := 0, bad := false }

/-- LOSS_CE of a row: an ignored row gives loss 0 and a zero seed; a target outside the row has no x_target: its loss is `free`. -/
def rowCe (scale param free : Nat) (r : RowIn) : RowRes :=
  if r.target = -1 then
    { y := r.x.map fun _ => 0, stat := (0, 0), colA := [], colB := [], loss := 0, bad := false }
  else
    let (p, m, z) := softRow r.x
    let pw := f32mul param r.w
    let sw := f32mul (f32mul scale param) r.w
    let hit := fun (i : Nat) => r.target == (i : Int)
    let loss := if 0 ≤ r.target ∧ r.target < r.x.length then
        f32mul pw (f32sub (f32add (spLog z) m) (r.x.getD r.target.toNat 0))
      else free % 2 ^ 32
    { y := (upto 0 r.x.length).map fun i => f32mul sw (if hit i then f32sub (p.getD i 0) f32one else p.getD i 0)
      stat := (0, 0), colA := [], colB := [], loss := loss, bad := f32bad loss }

/-- LOSS_SQ of a row. -/
def rowSq (scale param : Nat) (r : RowIn) : RowRes :=
  let e := (r.x.zip r.g).map fun q => f32sub q.1 q.2
  let sw := f32mul (f32mul scale param) r.w
  let loss := f32div (f32mul (f32mul param r.w) (sumF (e.map fun v => f32mul v v))) 0x40000000
  { y := e.map fun v => f32mul sw v, stat := (0, 0), colA := [], colB := [], loss := loss, bad := f32bad loss }

/-- One row of an operation. -/
def rowRun (d : List Byte) (scale free : Nat) (r : RowIn) : RowRes :=
  if rOp d = rowNormFwd then rowNormF (rRms d) (rParam d) r
  else if rOp d = rowNormBwd then rowNormB (rRms d) r
  else if rOp d = rowSoftFwd then
    let q := softRow (r.x.map fun x => f32mul (rParam d) x)
    { y := q.1, stat := q.2, colA := [], colB := [], loss := 0, bad := false }
  else if rOp d = rowSoftBwd then rowSoftB (rParam d) (rReadP d) r
  else if rOp d = rowLossCe then rowCe scale (rParam d) free r
  else rowSq scale (rParam d) r

/-- An input element as FP32, scaled by ISCALE. -/
def rowInput (d : List Byte) (c : Nat) : Nat :=
  f32mul (toF32 (if rIfmt d = 8 then Fmt.decode .fa40 c else plainValue (rIfmt d) c)) (rIscale d)

/-- Element `r` of the bytes of an index vector. -/
def rowElement (d : List Byte) (bs : List Byte) (r : Nat) : Nat := fld bs (rowElem (rIfmt d) * r) (rowElem (rIfmt d))

/-- Rounding of output element (r, f) (R138). -/
def rowMode (d : List Byte) (key c0 f r : Nat) : RMode :=
  if rRound d = 1 then .stochastic (drawAt key (c0 + f * rRows d + r)) else if rRound d = 2 then .zero else .nearest

end Sys2Proof.Machine
end

