-- ==== Sys2Proof/Machine/Array.lean ====
section
/-! DEFINITION. The array sequencer (The Mortise array, R34, R37 to R39, R43, R50 to R68): acceptance, order, chains, outcomes. -/

namespace Sys2Proof.Machine

/-! ### What the registers show (R66) -/

def ArrOp.started (o : ArrOp) : Bool := o.phase != .queued

/-- Whether an operation owns its bank. -/
def ArrOp.owns (o : ArrOp) : Bool := o.started && o.phase != .ending

/-- STATUS and QDEPTH follow the sequencer's state. -/
def State.showArr (s : State) : State :=
  let ops := s.arr.ops
  let s := s.wr F.arrStatusHeld (b2n (!s.arr.chains.isEmpty))
  let s := s.wr F.arrStatusDraining
    (b2n (ops.any (fun o => o.phase == .draining || o.phase == .filling) || s.arr.chains.any fun c => c.spilling))
  let s := s.wr F.arrStatusRunning (b2n (ops.any fun o => o.phase == .reading))
  s.wr F.arrQdepthDepth ops.length

def State.setArr (s : State) (x : ArrSeq) : State := { s with arr := x }.showArr

/-- An operation of a tenant by its sequence number, changed. -/
def State.modOp (s : State) (t q : Nat) (f : ArrOp → ArrOp) : State :=
  s.setArr { s.arr with ops := s.arr.ops.map fun o => if o.tenant = t ∧ o.seq = q then f o else o }

/-- The array domain leaves reset (R67, R119): both banks are free, the queue and all token tables empty, and the sequencer's and the
agreement monitor's registers at their reset values. -/
def State.arrRestart (s : State) : State :=
  let s := { s with arr := ArrSeq.reset }.resetBlock 0x200000 0x200C00
  ((s.tum.map (·.1)).foldl (fun (s : State) u => s.modTumbler u fun x => { x with tokens := [] }) s).agmRestart

/-- The sequencer is ready 64 array cycles after the array domain (R67). -/
def State.arrReady (s : State) : State := if s.clk.released < 5 then s else s.wr F.arrStatusReady 1

def execArraySequencerReady (s : State) : Host.Outcome State Fault Refusal := .next s.arrReady

/-! ### Acceptance (R37, R53) -/

/-- ARRAY_DESCRIPTOR_ACCEPT: the first issue standing at the sequencer is accepted with a token, or refused; the markers before it are forwarded
first (R19). -/
def State.arrAccept (s : State) : State :=
  let s := s.passMarkers arrayUnit
  match s.inbox arrayUnit with
  | .arrIssue u g lane dst t launch desc :: _ =>
    let s := s.popMsg arrayUnit
    let mine := s.arr.ops.filter fun o => o.tenant == t
    if !s.has F.arrStatusReady || decide (512 ≤ s.arr.ops.length) || decide (s.rd (F.arrTenquotaQuota t) ≤ mine.length) then
      (s.setEvent F.arrEventsQueueFull).answerIssue u g lane dst launch 0x101
    else
      match (s.tumbler u).freeToken with
      | none => s.answerIssue u g lane dst launch 0x10B
      | some slot =>
        let q := KMap.get s.arr.seqs t 0 + 1
        let o : ArrOp :=
          { tenant := t, seq := q, u := u, slot := slot, launch := launch, desc := desc, phase := .queued, status := 0, bank := 0, c0 := 0
            alpha := [], alphaOut := [], tileC := [], chain := none, data := [], inexact := false, opA := [], opB := [], outs := []
            clash := false }
        let s := s.setArr { s.arr with seqs := KMap.put s.arr.seqs t q, ops := s.arr.ops ++ [o] }
        (s.takeToken u slot t q launch).answerIssue u g lane dst launch (tokenWord t slot q)
  | _ => s

def execArrayDescriptorAccept (s : State) : Host.Outcome State Fault Refusal := .next (if s.arrayStops then s else s.arrAccept)

/-! ### Banks and chains (R34, R58 to R61) -/

/-- The operations that own a bank, or are to take it when its owner's drain ends. -/
def State.bankOwners (s : State) (b : Nat) : List ArrOp := s.arr.ops.filter fun o => o.owns && o.bank == b

/-- Whether a chain holds a bank. -/
def State.bankHeld (s : State) (b : Nat) : Bool := s.arr.chains.any fun c => c.bank == some b

/-- Whether an operation is past its last accumulate, with a drain to come or in progress. -/
def ArrOp.leaving (o : ArrOp) : Bool := !dHold o.desc && (o.phase == .tail || o.phase == .due || o.phase == .draining)

/-- The bank of an operation that starts (R52, R59): a free one, else the one that a drain of one operation will free. -/
def State.nextBank (s : State) : Option Nat :=
  match [0, 1].find? fun b => (s.bankOwners b).isEmpty && !s.bankHeld b with
  | some b => some b
  | none => [0, 1].find? fun b => !s.bankHeld b && (match s.bankOwners b with | [o] => o.leaving | _ => false)

/-- Whether an operation that has started has its bank to itself: it accumulates, or fills, only then (R52, R59). -/
def State.bankClear (s : State) (o : ArrOp) : Bool :=
  (s.bankOwners o.bank).all fun x => x.tenant == o.tenant && x.seq == o.seq

def State.chain? (s : State) (t c : Nat) : Option Chain := s.arr.chains.find? fun x => x.tenant == t && x.chain == c

/-- Ends a chain: its bank is free, its state gone. -/
def State.dropChain (s : State) (t c : Nat) : State :=
  s.setArr { s.arr with
    chains := s.arr.chains.filter fun x => !(x.tenant == t && x.chain == c)
    path := s.arr.path.filter fun p => p != (true, t, c) }

/-- Whether a continuing link differs from the link that opened its chain (R61). -/
def Chain.differs (c : Chain) (d : List Byte) : Bool :=
  !(c.m == dM d && c.n == dN d && c.shape == dShape d && c.groups == dGroups d && c.ofmt == dOfmt d)

/-! ### Choice (R54, R55, R57, R58) -/

/-- WEIGHT of a tenant in ARR.ORDER. -/
def State.arrWeight (s : State) (t : Nat) : Nat := (s.reg .arrOrder).toNat / 2 ^ (4 * t) % 16

/-- The oldest operation of a tenant that has not started. -/
def State.nextOp (s : State) (t : Nat) : Option ArrOp := s.arr.ops.find? fun o => o.tenant == t && o.phase == .queued

/-- Whether an operation may start now: the tenant's previous accepted operation has ended where AFTER_PREV asks it (R57), the link it
continues has closed, and it has a bank. -/
def State.opReady (s : State) (o : ArrOp) : Bool :=
  let earlier := s.arr.ops.filter fun x => x.tenant == o.tenant && x.started
  let open' := earlier.any fun x =>
    dHold x.desc && dChain x.desc == dChain o.desc && (x.phase == .filling || x.phase == .reading || x.phase == .tail)
  (!dAfterPrev o.desc || earlier.all fun x => x.seq + 1 != o.seq || x.phase == .ending) &&
  (if dAccCont o.desc then
    !open' &&
    match s.chain? o.tenant (dChain o.desc) with
    | some c => !c.spilling && (c.bank.isSome || s.nextBank.isSome)
    | none => true
  else s.nextBank.isSome)

/-- Whether a tenant's next operation may start now. -/
def State.tenantReady (s : State) (t : Nat) : Bool :=
  s.arrWeight t != 0 && match s.nextOp t with | some o => s.opReady o | none => false

/-- The tenant that a hold prefers (R58), until its next operation starts and whatever becomes of the bank meanwhile. -/
def State.preferred (s : State) : Option Nat := s.arr.prefer.find? s.tenantReady

/-- The tenant whose operation starts next: a holder's, else by rotation and weight. A tenant whose oldest operation cannot start yet is
passed over, and loses what is left of its turn (DESIGN CHOICE, log 174). -/
def State.arrTurn (s : State) : Option Nat :=
  match s.preferred with
  | some t => some t
  | none =>
    if s.arr.left != 0 && s.tenantReady s.arr.lastTenant then some s.arr.lastTenant
    else (rotateAfter s.arr.lastTenant (upto 0 16)).find? s.tenantReady

/-- Passes the rotation's turn on as an operation of tenant `t` starts; no hold prefers the tenant any longer. An operation that ends in the
checks of R510 has not started and passes nothing. -/
def State.passArr (s : State) (t : Nat) : State :=
  let own := s.preferred == some t
  let x : ArrSeq := { s.arr with prefer := s.arr.prefer.filter fun x => x != t }
  let x := if own then x
    else if x.left ≠ 0 ∧ x.lastTenant = t then { x with left := x.left - 1 }
    else { x with lastTenant := t, left := s.arrWeight t - 1 }
  s.setArr x

/-! ### Ending (R39, R62, R63) -/

/-- An operation ends with a status: what it owned is free, and its completion word and token are to come. -/
def State.arrEnd (s : State) (o : ArrOp) (status : Nat) : State :=
  let s := s.setArr { s.arr with path := s.arr.path.filter fun p => p != (false, o.tenant, o.seq) }
  s.modOp o.tenant o.seq fun x =>
    { x with phase := .ending, status := status, chain := none, data := [], opA := [], opB := [], outs := [] }

/-- What an operation's fault does beside its end (R63): its chain is broken, OP_FAULT sets; poison aborts the tenant's open step (R162). -/
def State.arrFaulted (s : State) (o : ArrOp) (e : Stop) : State :=
  let s := match e with
    | .mem c k va pa => s.memFault c k o.tenant arrayUnit va pa
    | .status _ => s
  let s := if dAccCont o.desc || dHold o.desc then s.dropChain o.tenant (dChain o.desc) else s
  let s := (s.setEvent F.arrEventsOpFault).count arrayUnit 5 1
  if e.code = 0x304 then s.abortStep o.tenant else s

/-- An operation ends with a fault (R63): its bank is discarded and its chain broken. -/
def State.arrFault (s : State) (o : ArrOp) (e : Stop) : State :=
  ((s.count arrayUnit 4 1).arrEnd o e.code).arrFaulted o e

/-- A status of success (R62). -/
def arrSuccess (status : Nat) : Bool := status == 0 || status == 0x108

/-- The blocks of an operation that has ended in success are counted and offered to the agreement monitor (R104, R105): those of no link and
no raw output that is a spill. -/
def State.arrSample (s : State) (o : ArrOp) : State :=
  let d := o.desc
  if dHold d || dAccCont d then s
  else s.countBlocks (arrProblems d * blocks64 (dM d) * blocks64 (dN d)) o.sampleBlock

/-- COMPLETION_WORD_ACCEPTED (R39, R54): the first ended operation whose tenant has none before it writes its completion word and
sends its token message. A word that cannot be written ends a successful operation with that fault. A misaligned DONE_ADDR that has ended
the operation 0103h is written all the same, and so is the word of an operation that an ABORT of its launch ended (DESIGN CHOICE, log 175). -/
def State.arrWord (s : State) : State :=
  match s.arr.ops.find? fun o =>
      o.phase == .ending && !((s.arr.ops.takeWhile fun x => x != o).any fun x => x.tenant == o.tenant) with
  | none => s
  | some o =>
    let word := leBytes 2 o.status ++ zeros 2 ++ leBytes 4 (dTag o.desc) ++ leBytes 8 s.tag
    let (s, status) :=
      if dDone o.desc = 0 then (s, o.status)
      else
        match s.drawn.storeSpan arrayUnit tlbArray o.tenant (dDone o.desc) word with
        | (s, .ok _) => (s, o.status)
        | (s, .fault c a pa) =>
          if arrSuccess o.status then (s.arrFaulted o (.mem c kindEngineWrite a pa), c) else (s, o.status)
    let s := if arrSuccess status then s.arrSample o else s
    let s := s.setArr { s.arr with ops := s.arr.ops.filter fun x => !(x.tenant == o.tenant && x.seq == o.seq) }
    s.send (tumblerUnit o.u) (.tokenDone o.slot o.seq status)

def execCompletionWordAccepted (s : State) : Host.Outcome State Fault Refusal := .next s.arrWord

/-! ### Start (R43, R55, R510) -/

/-- The first check of R510 that an operation fails, its translations made last. -/
def State.arrChecks (s : State) (o : ArrOp) : State × Option Stop :=
  let d := o.desc
  let t := o.tenant
  if arrInvalid d then (s, some (.status 0x102))
  else if arrMisaligned d then (s, some (.status 0x103))
  else if s.rd (F.arrTenlimitMaxAcc t) < accCycles d 0 then (s, some (.status 0x10A))
  else
    let ch := s.chain? t (dChain d)
    if dAccCont d && (match ch with | some c => c.differs d | none => true) then (s, some (.status 0x105))
    else if (blockFmt (dAfmt d) && fld d 0x48 8 == 0) || (blockFmt (dBfmt d) && fld d 0x50 8 == 0) then (s, some (.status 0x109))
    else
      let fill := match ch with
        | some c => if dAccCont d && c.bank.isNone then [(c.spill, spillBytes c.groups c.m c.n)] else []
        | none => []
      let prior := if dAddC d then ((upto 0 (arrProblems d)).map fun g => outVectors d g).flatten else []
      match s.checkSpans arrayUnit tlbArray t false (arrReads d ++ prior ++ fill) with
      | (s, some (c, va, pa)) => (s, some (.mem c kindEngineRead va pa))
      | (s, none) =>
        match s.checkSpans arrayUnit tlbArray t true (arrWrites d) with
        | (s, some (c, va, pa)) => (s, some (.mem c kindEngineWrite va pa))
        | (s, none) =>
          -- a link that leaves its bank held writes no C, but may not name a read-only one (R132)
          if !dHold d then (s, none)
          else
            match s.checkSpans arrayUnit tlbArray t true ((upto 0 (arrProblems d)).map (cVectors d)).flatten with
            | (s, some (0x302, va, pa)) => (s, some (.mem 0x302 kindEngineWrite va pa))
            | (s, _) => (s, none)

/-- T_C of each problem (R85 step 4), read at the start; ESC_OFFSET must be a multiple of 64 (R75). -/
def State.readTiles (s : State) (o : ArrOp) : State × Except Stop (List Word) :=
  let d := o.desc
  if dOfmt d = 6 ∧ !dHold d then
    match s.fetchVecs arrayUnit tlbArray o.tenant ((upto 0 (arrProblems d)).map fun g => (dCMeta d + cOff d g, 256)) with
    | (s, .error e) => (s, .error e)
    | (s, .ok hs) =>
      if hs.any fun h => fld h 0x10 8 % 64 != 0 then (s, .error (.status 0x103))
      else (s, .ok (hs.map fun h => BitVec.ofNat 32 (fld h 0 4)))
  else (s, .ok [])

/-- Whether an operation claims draws (R43): its drain rounds stochastically. -/
def arrClaims (d : List Byte) : Bool := dRound d == 1 && dOfmt d != 8 && !dHold d

/-- An operation that is chosen stands behind those chosen before it. -/
def State.chooseOp (s : State) (o : ArrOp) : State :=
  s.setArr { s.arr with
    ops := (s.arr.ops.filter (·.started)) ++ o :: s.arr.ops.filter fun x => !x.started && !(x.tenant == o.tenant && x.seq == o.seq) }

/-- An operation that has passed its checks starts: array cycle 0 of R64. -/
def State.arrBegin (s : State) (o : ArrOp) : State :=
  let d := o.desc
  let t := o.tenant
  let s := s.passArr t
  let ch := if dAccCont d then s.chain? t (dChain d) else none
  let (s, c0) := if arrClaims d then s.claim t (dStream d) (dGroups d * dM d * dN d) else (s, 0)
  let (s, tiles) := s.readTiles o
  match tiles with
  | .error e => s.arrFault o e
  | .ok ts =>
    let bank := match ch with | some c => (c.bank.getD (s.nextBank.getD 0)) | none => s.nextBank.getD 0
    let fill := match ch with | some c => c.bank.isNone | none => false
    let s := if ch.isSome then s.dropChain t (dChain d) else s
    -- idle cycles of the sequencer are its own time: a free count
    let s := (s.count arrayUnit 3 s.draw).drawn
    let s := s.wr F.arrStatusTenant t
    s.modOp t o.seq fun x =>
      { x with phase := if fill then .filling else .reading, bank := bank, c0 := c0, tileC := ts, chain := ch
               data := match ch with | some c => c.data | none => [] }

/-- Whether the sequencer may start an operation (R52): one at most is before its last accumulate, and none fills its bank. -/
def State.mayStart (s : State) : Bool :=
  !(s.arr.ops.any fun o => o.phase == .filling) && decide ((s.arr.ops.filter fun o => o.phase == .reading).length ≤ 1)

/-- OPERATION_START (R52, R55): the next operation in turn is checked and starts, as early as C_K of the one before it. -/
def State.opStart (s : State) : State :=
  if !s.mayStart then s
  else
    match s.arrTurn with
    | none => s
    | some t =>
      match s.nextOp t with
      | none => s
      | some o =>
        match (s.chooseOp o).arrChecks o with
        | (s, some e) => s.arrFault o e
        | (s, none) => s.arrBegin o

def execOperationStart (s : State) : Host.Outcome State Fault Refusal := .next (if s.arrayStops then s else s.opStart)

/-- CHAIN_FILL_END (R60): a continuing link has filled its bank, which the drain before it has freed, from the spill area. -/
def State.fillBank (s : State) : State :=
  match s.arr.ops.find? fun o => o.phase == .filling && s.bankClear o with
  | none => s
  | some o =>
    match o.chain with
    | none => s
    | some c =>
      match s.fetchVecs arrayUnit tlbArray o.tenant [(c.spill, spillBytes c.groups c.m c.n)] with
      | (s, .error e) => s.arrFault o e
      | (s, .ok bs) =>
        let raw := bs.headD []
        s.modOp o.tenant o.seq fun x =>
          { x with phase := .reading, data := (upto 0 (c.groups * c.m * c.n)).map fun i => fld raw (5 * i) 5 }

def execChainFillEnd (s : State) : Host.Outcome State Fault Refusal := .next (if s.arrayStops then s else s.fillBank)

/-! ### Accumulation (R48, R49, R62, R65) -/

/-- What an operation's accumulate phase counts (R49, R144, R478). -/
def State.countRun (s : State) (d : List Byte) (e : Nat) : State :=
  let ck := accCycles d e
  let stretch := ck - baseCycles d e
  -- how much of the cam's fill lies hidden under the operation before is time: a free part of G
  let g := camFill d
  let hidden := if g = 0 then 0 else s.draw % (g + 1)
  let s := if g = 0 then s else s.drawn
  let s := (s.count arrayUnit 1 ck).count arrayUnit 8 e
  let s := s.setReg .arrCamStretch (BitVec.ofNat 64 ((s.reg .arrCamStretch).toNat + stretch + hidden))
  -- the four sections share the bytes turned; the spec gives no division
  let r := (upto 0 3).foldl
    (fun (x : State × Nat) q =>
      let n := x.1.draw % (x.2 + 1)
      ((x.1.count (unitIdOf q 2 0) 1 n).drawn, x.2 - n)) (s, camBytes d)
  let s := if camBytes d = 0 then s else r.1.count (unitIdOf 3 2 0) 1 r.2
  if stretch = 0 then s else (upto 0 4).foldl (fun (s : State) q => s.count (unitIdOf q 2 0) 2 stretch) s

/-- ARRAY_OPERAND_ARRIVAL (R63, R79): the operands of the operation that started first arrive, where poison or an unmatched escape ends it;
else its sums stand in the bank and the cell tail begins. Its first accumulate waits for the drain that frees its bank (R52, R59). -/
def State.operands (s : State) : State :=
  match s.arr.ops.find? fun o => o.phase == .reading with
  | none => s
  | some o =>
    if !s.bankClear o then s else
    match s.readProblems arrayUnit tlbArray o.tenant o.desc (upto 0 (arrProblems o.desc)) with
    | (s, .error e) => s.arrFault o e
    | (s, .ok r) =>
      (s.countRun o.desc (escapedBlocks o.desc r)).modOp o.tenant o.seq fun x => { x.accumulate r with phase := .tail }

def execArrayOperandArrival (s : State) : Host.Outcome State Fault Refusal := .next (if s.arrayStops then s else s.operands)

/-- The chain that a HOLD link leaves (R58, R60, R131). -/
def ArrOp.held (o : ArrOp) : Chain :=
  let d := o.desc
  { tenant := o.tenant, chain := dChain d, m := dM d, n := dN d, shape := dShape d, groups := dGroups d, ofmt := dOfmt d
    alpha := o.alphaOut, spill := dSpill d, bank := some o.bank, spilling := false, data := o.data }

/-- A status of success: INT_INEXACT when an integer sum reached 2^32 (R36). -/
def ArrOp.success (o : ArrOp) : Nat := if o.inexact then 0x108 else 0

/-- CELL_TAIL_END (R51, R58): a HOLD link leaves its bank held, in place of any older chain of the name; another's drain falls due. -/
def State.tailEnd (s : State) : State :=
  match s.arr.ops.find? fun o => o.phase == .tail with
  | none => s
  | some o =>
    if dHold o.desc then
      let s := (s.dropChain o.tenant (dChain o.desc)).count arrayUnit 4 1
      let s := s.setArr { s.arr with
        chains := s.arr.chains ++ [o.held]
        prefer := (s.arr.prefer.filter fun x => x != o.tenant) ++ [o.tenant] }
      s.arrEnd o o.success
    else
      let s := s.setArr { s.arr with path := s.arr.path ++ [(false, o.tenant, o.seq)] }
      s.modOp o.tenant o.seq fun x => { x with phase := .due }

def execCellTailEnd (s : State) : Host.Outcome State Fault Refusal := .next (if s.arrayStops then s else s.tailEnd)

/-! ### The drain path (R50, R60, R64) -/

/-- The operation whose drain stands first on the path. -/
def State.pathOp (s : State) : Option ArrOp :=
  match s.arr.path with
  | (false, t, q) :: _ => s.arr.ops.find? fun o => o.tenant == t && o.seq == q
  | _ => none

/-- The output metadata that an array operation's drain writes. -/
def arrMetas (d : List Byte) : List (Nat × Nat) := ((upto 0 (arrProblems d)).map (outMeta d)).flatten

/-- Whether some byte is in spans of both lists. -/
def spansMeet (a b : List (Nat × Nat)) : Bool := a.any fun x => b.any fun y => decide (x.1 < y.1 + y.2 ∧ y.1 < x.1 + x.2)

/-- Whether a drain, or a row operation, of a tenant is at work and writes metadata in given spans. -/
def ArrOp.meets (o : ArrOp) (t : Nat) (ms : List (Nat × Nat)) : Bool :=
  o.tenant == t && o.phase == .draining && spansMeet (arrMetas o.desc) ms
def RowOp.meets (o : RowOp) (t : Nat) (ms : List (Nat × Nat)) : Bool :=
  o.tenant == t && o.phase == 1 && !o.starts.isEmpty && spansMeet (rowMetas o.desc) ms

/-- Two producers that write one metadata area at the same time leave it undefined (R94): those at work that a starting one meets. -/
def State.metaClash (s : State) (t : Nat) (ms : List (Nat × Nat)) : Bool :=
  (s.arr.ops.any fun o => o.meets t ms) || s.spn.ops.any fun o => o.meets t ms

/-- Marks them. -/
def State.markClash (s : State) (t : Nat) (ms : List (Nat × Nat)) : State :=
  { s with
    arr := { s.arr with ops := s.arr.ops.map fun o => if o.meets t ms then { o with clash := true } else o }
    spn := { s.spn with ops := s.spn.ops.map fun o => if o.meets t ms then { o with clash := true } else o } }

/-- DRAIN_START: the drain that fell due first begins once the path is free. -/
def State.drainStart (s : State) : State :=
  match s.pathOp with
  | some o =>
    if o.phase = .due then
      let ms := arrMetas o.desc
      let clash := s.metaClash o.tenant ms
      (s.markClash o.tenant ms).modOp o.tenant o.seq fun x => { x with phase := .draining, clash := clash }
    else s
  | none => s

def execDrainStart (s : State) : Host.Outcome State Fault Refusal := .next (if s.arrayStops then s else s.drainStart)

/-- What a drain leaves undefined when it does not end in success (R62, R95). -/
def State.spoil (s : State) (o : ArrOp) : State :=
  let hd := fun (g : Nat) =>
    match (s.fetchSpan arrayUnit tlbArray o.tenant (dCMeta o.desc + cOff o.desc g) 256 false).2 with
    | .ok bs => bs
    | .fault _ _ _ => []
  s.scribble arrayUnit tlbArray o.tenant (outUndefined o.desc hd)

/-- The reports of a drain's metadata headers to their tensors (R100). -/
def State.reportDrain (s : State) (o : ArrOp) (outs : List (DrainOut × List Nat)) : State :=
  let d := o.desc
  if dCMeta d = 0 then s
  else
    (upto 0 (arrProblems d)).foldl
      (fun (s : State) g =>
        match outs[g]?, s.areaOwner o.tenant (dCMeta d + cOff d g) with
        | some x, some h => s.reportAmax o.tenant h x.1.amax x.1.nonfinite (dOfmt d) none
        | _, _ => s) s

/-- DRAIN_END (R64, R85, R86): the last beat is accepted. A fault of the drain leaves C partly written and the rest undefined. -/
def State.drainEnd (s : State) : State :=
  match s.pathOp with
  | none => s
  | some o =>
    if o.phase ≠ .draining then s
    else
      match s.drainProblems o (upto 0 (arrProblems o.desc)) with
      | (s, .error e) => (s.spoil o).arrFault o e
      | (s, .ok outs) =>
        let s := if o.clash then s.scribble arrayUnit tlbArray o.tenant (arrMetas o.desc) else s
        let s := (s.count arrayUnit 2 (drainCycles o.desc)).count arrayUnit 4 1
        let s := (s.reportDrain o outs).arrEnd o o.success
        s.modOp o.tenant o.seq fun x => { x with opA := o.opA, opB := o.opB, outs := outs.map fun y => (y.1.outs, y.2) }

def execDrainEnd (s : State) : Host.Outcome State Fault Refusal := .next (if s.arrayStops then s else s.drainEnd)

/-! ### Held banks that wait (R60) -/

/-- The first held bank that another tenant's waiting operation displaces. -/
def State.waitingChain (s : State) : Option Chain :=
  s.arr.chains.find? fun c =>
    c.bank.isSome && !c.spilling && s.arr.ops.any fun o => o.tenant != c.tenant && o.phase == .queued

/-- CHAIN_WAIT_EXPIRY (R60): the bank is to be spilled, or, with no spill area, is discarded. -/
def State.chainWait (s : State) : State :=
  match s.waitingChain with
  | none => s
  | some c =>
    if c.spill = 0 then ((s.dropChain c.tenant c.chain).setEvent F.arrEventsChainDiscard).count arrayUnit 7 1
    else
      s.setArr { s.arr with
        chains := s.arr.chains.map fun x => if x.tenant = c.tenant ∧ x.chain = c.chain then { x with spilling := true } else x
        path := s.arr.path ++ [(true, c.tenant, c.chain)] }

def execChainWaitExpiry (s : State) : Host.Outcome State Fault Refusal := .next (if s.arrayStops then s else s.chainWait)

/-- CHAIN_SPILL_END (R60): the spill that stands first on the path ends and its bank is free. One that cannot be written discards
the chain. -/
def State.spillEnd (s : State) : State :=
  match s.arr.path with
  | (true, t, k) :: rest =>
    let s := s.setArr { s.arr with path := rest }
    match s.chain? t k with
    | none => s
    | some c =>
      match s.storeSpan arrayUnit tlbArray t c.spill (c.data.map fun x => leBytes 5 x).flatten with
      | (s, .fault code a pa) =>
        ((((s.memFault code kindEngineWrite t arrayUnit a pa).dropChain t k).setEvent F.arrEventsChainDiscard).count arrayUnit 7 1)
      | (s, .ok _) =>
        let s := s.setArr { s.arr with
          chains := s.arr.chains.map fun x =>
            if x.tenant = t ∧ x.chain = k then { x with bank := none, spilling := false, data := [] } else x }
        (s.setEvent F.arrEventsChainSpill).count arrayUnit 6 1
  | _ => s

def execChainSpillEnd (s : State) : Host.Outcome State Fault Refusal := .next (if s.arrayStops then s else s.spillEnd)

/-! ### Aborts and resets (R62, R68) -/

/-- An operation is aborted before its token message: it stops, its bank and chain are discarded, and what its drain has written, or has begun
to write, is undefined (R62, R95). -/
def State.arrAbort (s : State) (o : ArrOp) : State :=
  if o.phase = .ending then
    let s := if arrSuccess o.status then s.spoil o else s
    let s := if dHold o.desc then s.dropChain o.tenant (dChain o.desc) else s
    s.modOp o.tenant o.seq fun x => { x with status := 0x604 }
  else
    let s := if o.phase = .draining then s.spoil o else s
    let s := if o.started && dAccCont o.desc then s.dropChain o.tenant (dChain o.desc) else s
    (s.count arrayUnit 4 1).arrEnd o 0x604

/-- The accepted operations of a launch end ABORTED (R369). -/
def State.arrAbortLaunch (s : State) (l : Nat) : State :=
  (s.arr.ops.filter fun o => o.launch == l).foldl State.arrAbort s

/-- A tenant reset in the array (R68): its operations and chains go with no token message, and its registers return to reset. -/
def State.arrReset (s : State) (t : Nat) : State :=
  let s := (s.arr.ops.filter fun o => o.tenant == t).foldl State.arrAbort s
  let x := s.arr
  let s := s.setArr { x with
    seqs := KMap.del x.seqs t
    ops := x.ops.filter fun o => o.tenant != t
    chains := x.chains.filter fun c => c.tenant != t
    prefer := x.prefer.filter fun y => y != t
    path := x.path.filter fun p => p.2.1 != t
    left := if x.lastTenant = t then 0 else x.left }
  let keep := fun (m : TreeMsg) => match m with
    | .arrIssue _ _ _ _ t' _ _ => t' != t
    | _ => true
  let s := { s with tree := KMap.set s.tree arrayUnit ((s.inbox arrayUnit).filter keep) [] }
  (s.setReg (.arrTenquota t) (Reg.arrTenquota t).reset).setReg (.arrTenlimit t) (Reg.arrTenlimit t).reset

end Sys2Proof.Machine
end

