-- ==== Sys2Proof/Machine/Spindle.lean ====
section
/-! DEFINITION. The spindle (The backward pass, R135 to R146): acceptance, the statistics side memory, chunks, and outcomes. -/

namespace Sys2Proof.Machine

/-! ### What the registers show (R144) -/

def State.pagesHeld (s : State) (t : Nat) : Nat := (s.spn.pages.filter fun p => p.tenant == t).length

def State.showSpn (s : State) : State :=
  let s := s.wr F.arrSpnStatusQdepth s.spn.ops.length
  let s := s.wr F.arrSpnStatusBusy (b2n (s.spn.ops.any fun o => o.phase == 1))
  let s := s.wr F.arrSpnPagesFree (256 - s.spn.pages.length)
  (upto 0 16).foldl (fun (s : State) t => s.wr (F.arrSpnTenantPagesHeld t) (s.pagesHeld t)) s

def State.setSpn (s : State) (x : Spindle) : State := { s with spn := x }.showSpn

def State.modRow (s : State) (t q : Nat) (f : RowOp → RowOp) : State :=
  s.setSpn { s.spn with ops := s.spn.ops.map fun o => if o.tenant = t ∧ o.seq = q then f o else o }

/-- The spindle is ready 2,048 store cycles after the store domain (R145). -/
def State.spnReady (s : State) : State := if s.clk.released < 2 then s else s.wr F.arrSpnStatusReady 1

def execSpindleReady (s : State) : Host.Outcome State Fault Refusal := .next s.spnReady

/-! ### Acceptance (R135) -/

/-- ROW_DESCRIPTOR_ACCEPT: the first issue standing at the spindle is accepted with a token, or refused; the markers before it are forwarded
first (R19). -/
def State.rowAccept (s : State) : State :=
  let s := s.passMarkers (spindleUnit 0)
  match s.inbox (spindleUnit 0) with
  | .rowIssue u g lane dst t launch desc :: _ =>
    let s := s.popMsg (spindleUnit 0)
    let mine := s.spn.ops.filter fun o => o.tenant == t
    if !s.has F.arrSpnStatusReady || decide (256 ≤ s.spn.ops.length) || decide (s.rd (F.arrSpnTenantQuota t) ≤ mine.length) then
      s.answerIssue u g lane dst launch 0x110
    else
      match (s.tumbler u).freeToken with
      | none => s.answerIssue u g lane dst launch 0x10B
      | some slot =>
        let q := KMap.get s.spn.seqs t 0 + 1
        let o : RowOp :=
          { tenant := t, seq := q, u := u, slot := slot, launch := launch, desc := desc, phase := 0, status := 0, c0 := 0, lossScale := 0
            starts := [], ended := 0, spilled := false, dropped := false, amax := 0, nonfinite := 0, entries := [], escDenied := 0
            zeroFlush := 0, sums := 0, loss := 0, told := false, clash := false }
        let s := s.setSpn { s.spn with seqs := KMap.put s.spn.seqs t q, ops := s.spn.ops ++ [o] }
        (s.takeToken u slot t q launch).answerIssue u g lane dst launch (tokenWord t slot q)
  | _ => s

def execRowDescriptorAccept (s : State) : Host.Outcome State Fault Refusal := .next s.rowAccept

/-! ### The statistics side memory (R139 to R141) -/

/-- The page of a set that holds its entry `n`. -/
def State.statPage (s : State) (t set n : Nat) : Option StatPage :=
  s.spn.pages.find? fun p => p.tenant == t && p.set == set && p.index == n / 8192

/-- The entry `n` of a tenant's set, whatever its epoch. -/
def State.statEntry (s : State) (t set n : Nat) : Option StatEntry := (s.statPage t set n).bind fun p => KMap.find p.entries (n % 8192)

/-- Takes a page for entry `n` of a set, if it has none: while the tenant's share and a free page allow. -/
def State.takePage (s : State) (t set n : Nat) : State × Bool :=
  if (s.statPage t set n).isSome then (s, true)
  else if s.pagesHeld t < s.rd (F.arrSpnTenantPagesMax t) ∧ s.spn.pages.length < 256 then
    (s.setSpn { s.spn with pages := s.spn.pages ++ [{ tenant := t, set := set, index := n / 8192, entries := [] }] }, true)
  else (s, false)

/-- Writes an entry with its tag. -/
def State.putStat (s : State) (n : Nat) (e : StatEntry) : State :=
  s.setSpn { s.spn with pages := s.spn.pages.map fun p =>
    if p.tenant = e.tenant ∧ p.set = e.set ∧ p.index = n / 8192 then { p with entries := KMap.put p.entries (n % 8192) e } else p }

/-- Frees pages: those of a tenant, of one set or of all. -/
def State.freePages (s : State) (t : Nat) (set : Option Nat) : State :=
  s.setSpn { s.spn with pages := s.spn.pages.filter fun p => !(p.tenant == t && (set.all fun x => p.set == x)) }

/-- The status of a backward operation's search for its entries (R141); 0 when each has one. -/
def State.statSearch (s : State) (o : RowOp) : Nat :=
  let d := o.desc
  let bad := (upto 0 (rRows d)).filterMap fun r =>
    match s.statEntry o.tenant (rSet d) (rRow0 d + r) with
    | some e => if e.epoch = rEpoch d then none else some 0x112
    | none => if rS d = 0 then some 0x111 else none
  bad.headD 0

/-- Row `r`'s entry: the side memory's, or the backing's bytes. -/
def State.statOf (s : State) (o : RowOp) (r : Nat) (backing : List Byte) (i : Nat) : Nat × Nat :=
  match s.statEntry o.tenant (rSet o.desc) (rRow0 o.desc + r) with
  | some e => (e.w0.toNat, e.w1.toNat)
  | none => (fld backing (8 * i) 4, fld backing (8 * i + 4) 4)

/-! ### Ending (R39, R143) -/

/-- Where a faulted operation's outputs lie. -/
def rowOutputs (d : List Byte) : List (Nat × Nat) :=
  rowOutSpans d 0 (rRows d) ++
    (if rOp d = rowNormBwd then [(rR d, 8 * rLen d)] else if rowLoss d then [(rR d, 4 * rRows d), (rS d, 4)] else [])

/-- A row operation ends with a fault; once a chunk has started, its outputs are undefined. Poison aborts the tenant's open step
(R162). -/
def State.rowFault (s : State) (o : RowOp) (q : Nat) (e : Stop) : State :=
  let s := match e with
    | .mem c k va pa => s.memFault c k o.tenant (spindleUnit q) va pa
    | .status _ => s
  let s := if o.starts.isEmpty then s else s.scribble (spindleUnit q) tlbSpindle o.tenant (rowOutputs o.desc)
  let s := (s.setEvent F.arrSpnEventsRowFault).modRow o.tenant o.seq fun x => { x with phase := 2, status := e.code }
  if e.code = 0x304 then s.abortStep o.tenant else s

/-- Writes an ended operation's completion word and sends its token message; a word that cannot be written ends a successful operation with
that fault. -/
def State.rowWord (s : State) (o : RowOp) (status : Nat) : State :=
  let word := leBytes 2 status ++ zeros 2 ++ leBytes 4 (rTag o.desc) ++ leBytes 8 s.tag
  let (s, st) :=
    if rDone o.desc = 0 then (s, status)
    else
      match s.drawn.storeSpan (spindleUnit 0) tlbSpindle o.tenant (rDone o.desc) word with
      | (s, .ok _) => (s, status)
      | (s, .fault c a pa) =>
        if status = 0 ∨ status = 0x113 ∨ status = 0x114 then
          ((s.memFault c kindEngineWrite o.tenant (spindleUnit 0) a pa).setEvent F.arrSpnEventsRowFault, c)
        else (s, status)
  let s := s.setSpn { s.spn with ops := s.spn.ops.filter fun x => !(x.tenant == o.tenant && x.seq == o.seq) }
  s.send (tumblerUnit o.u) (.tokenDone o.slot o.seq st)

/-! ### Start (R38, R136 to R138) -/

/-- The checks of a row operation in order; translations last. -/
def State.rowChecks (s : State) (o : RowOp) : State × Option Stop :=
  let d := o.desc
  if rowInvalid d then (s, some (.status 0x102))
  else if rowMisaligned d then (s, some (.status 0x103))
  else if rOp d = rowFree then (s, none)
  else
    match s.checkSpans (spindleUnit 0) tlbSpindle o.tenant false (rowReadsOf d 0 (rRows d) ++ rowGains d) with
    | (s, some (c, va, pa)) => (s, some (.mem c kindEngineRead va pa))
    | (s, none) =>
      let writes := rowWritesOf d 0 (rRows d) ++ (if rMeta d = 0 then [] else [(rMeta d, 256)]) ++
        (if rOfmt d = 6 then [(rMeta d + 256, rLen d / 32 * rRows d * 2)] else []) ++ (if rDone d = 0 then [] else [(rDone d, 16)])
      match s.checkSpans (spindleUnit 0) tlbSpindle o.tenant true writes with
      | (s, some (c, va, pa)) => (s, some (.mem c kindEngineWrite va pa))
      | (s, none) => (s, none)

/-- ROW_OPERATION_START: a tenant's oldest row operation starts when none of the tenant's runs. -/
def State.rowStart (s : State) (t : Nat) : State :=
  match s.spn.ops.find? fun o => o.tenant == t with
  | none => s
  | some o =>
    if o.phase ≠ 0 then s
    else
      match s.rowChecks o with
      | (s, some e) => s.rowFault o 0 e
      | (s, none) =>
        let d := o.desc
        if rOp d = rowFree then (s.freePages t (some (rSet d))).modRow t o.seq fun x => { x with phase := 2 }
        else
          let (s, c0) := if rRound d = 1 then s.claim t (rStream d) (rRows d * rLen d) else (s, 0)
          let ls := (s.tenant t).num.lossScale.toNat
          s.modRow t o.seq fun x => { x with phase := 1, c0 := c0, lossScale := BitVec.ofNat 32 ls }

def execRowOperationStart (t : TenantId) (s : State) : Host.Outcome State Fault Refusal := .next (s.rowStart t)

/-! ### Chunks (R136, R142) -/

/-- The next chunk that a section may take of an operation: chunk c runs on section c mod 4. -/
def RowOp.nextChunk (o : RowOp) (q : Nat) : Option Nat :=
  let c := q + 4 * KMap.get o.starts q 0
  if o.phase = 1 ∧ c < rowChunks o.desc then some c else none

/-- The operation whose chunk a section takes next: tenants in rotation. -/
def State.chunkTurn (s : State) (q : Nat) : Option RowOp :=
  let ready := fun (t : Nat) => s.spn.ops.find? fun o => o.tenant == t && (o.nextChunk q).isSome
  (rotateAfter (KMap.get s.spn.last q 15) (upto 0 16)).findSome? ready

/-- Whether a chunk reads statistics from the backing: a row of it has no entry in the side memory. -/
def State.chunkBacked (s : State) (o : RowOp) (c : Nat) : Bool :=
  rowReads o.desc && (upto (256 * c) (chunkRows o.desc c)).any fun r => (s.statEntry o.tenant (rSet o.desc) (rRow0 o.desc + r)).isNone

/-- What a chunk reads, in groups: X, G, weights, gains and biases, statistics backing, output header. -/
def chunkGroups (d : List Byte) (r0 n : Nat) (backed : Bool) : List (List (Nat × Nat)) :=
  [rowSpans (rX d) (rXLd d) (rowElem (rIfmt d)) (rLen d) r0 n,
   if rowTensorG d then rowSpans (rG d) (rGLd d) (rowElem (rIfmt d)) (rLen d) r0 n
   else if rOp d = rowLossCe then [(rG d + 4 * r0, 4 * n)] else [],
   if rowLoss d && rWeighted d then [(rP d + 4 * r0, 4 * n)] else [],
   rowGains d,
   if backed then [(rS d + 8 * r0, 8 * n)] else [],
   if rOfmt d = 6 then [(rMeta d, 256)] else []]

/-- A section translates at the start of a chunk what the chunk reads and writes (R214). -/
def State.chunkTranslate (s : State) (o : RowOp) (q c : Nat) : State × Option Stop :=
  let d := o.desc
  let n := chunkRows d c
  let s := s.passMarkers (spindleUnit q)
  match s.checkSpans (spindleUnit q) tlbSpindle o.tenant false (chunkGroups d (256 * c) n (s.chunkBacked o c)).flatten with
  | (s, some (e, va, pa)) => (s, some (.mem e kindEngineRead va pa))
  | (s, none) =>
    match s.checkSpans (spindleUnit q) tlbSpindle o.tenant true (rowWritesOf d (256 * c) n) with
    | (s, some (e, va, pa)) => (s, some (.mem e kindEngineWrite va pa))
    | (s, none) => (s, none)

/-- ROW_CHUNK_START (R136, R141, R214): a free section takes a chunk. A backward operation's entries are all looked up before its first,
since a failing search writes no output. -/
def State.chunkStart (s : State) (q : Nat) : State :=
  if (KMap.find s.spn.running q).isSome then s
  else
    match s.chunkTurn q with
    | none => s
    | some o =>
      let code := if rowReads o.desc && o.starts.isEmpty then s.statSearch o else 0
      if code ≠ 0 then
        ((s.setEvent F.arrSpnEventsStatsFail).count (spindleUnit q) 4 1).rowFault o q (.status code)
      else
        match o.nextChunk q with
        | none => s
        | some c =>
          let ms := if o.starts.isEmpty then rowMetas o.desc else []
          let clash := s.metaClash o.tenant ms
          let s := (s.markClash o.tenant ms).modRow o.tenant o.seq fun x =>
            { x with starts := KMap.put x.starts q (KMap.get x.starts q 0 + 1), clash := x.clash || clash }
          match s.chunkTranslate o q c with
          | (s, some e) => s.rowFault ((s.spn.ops.find? fun x => x.tenant == o.tenant && x.seq == o.seq).getD o) q e
          | (s, none) => s.setSpn { s.spn with running := KMap.put s.spn.running q (o.tenant, o.seq, c), last := KMap.put s.spn.last q o.tenant }

def execRowChunkStart (q : QuadId) (s : State) : Host.Outcome State Fault Refusal := .next (s.chunkStart q)

/-- Reads groups of spans. -/
def State.fetchGroups (s : State) (u cap t : Nat) : List (List (Nat × Nat)) → State × Except Stop (List (List (List Byte)))
  | [] => (s, .ok [])
  | g :: gs =>
    match s.fetchVecs u cap t g with
    | (s, .error e) => (s, .error e)
    | (s, .ok x) =>
      match s.fetchGroups u cap t gs with
      | (s, .ok xs) => (s, .ok (x :: xs))
      | y => y

/-- Row `i` of a chunk, of what the chunk read. -/
def State.rowIn (s : State) (o : RowOp) (r0 i : Nat) (gs : List (List (List Byte))) : RowIn :=
  let d := o.desc
  let words := fun (bs : List Byte) => wordsOf bs
  { x := (gs.getD 0 []).map fun bs => rowInput d (rowElement d bs i)
    g := if rowTensorG d then (gs.getD 1 []).map fun bs => rowInput d (rowElement d bs i) else []
    gain := ((gs.getD 3 [])[0]?).map words
    bias := ((gs.getD 3 [])[1]?).map words
    stat := if rowReads d then s.statOf o (r0 + i) ((gs.getD 4 []).headD []) i else (0, 0)
    target := if rOp d = rowLossCe then signed 32 (fld ((gs.getD 1 []).headD []) (4 * i) 4) else 0
    w := if rWeighted d then fld ((gs.getD 2 []).headD []) (4 * i) 4 else f32one }

/-- The in-store sums of FP32 words at physical pieces that lie from virtual address `va` on: one request for each line (R243). -/
def sumReqs (u t seq : Nat) : Nat → List (Nat × Nat) → List Byte → List RedReq
  | _, [], _ => []
  | va, (p, m) :: ps, bs =>
    (lineSpan p m).map (fun l =>
      let a := max p (256 * l)
      let n := min (p + m) (256 * l + 256) - a
      let off := a - 256 * l
      { line := l, tenant := t, code := 1, mask := (2 ^ n - 1) * 2 ^ off
        data := zeros off ++ (bs.drop (a - p)).take n ++ zeros (256 - off - n), atoms := []
        src := .spindle t seq (va + (a - p)), unit := u }) ++ sumReqs u t seq (va + m) ps (bs.drop m)

/-- In-store sums of an operation (R243): FP32 words added at a virtual address; the operation waits for what the slices answer. -/
def State.storeSums (s : State) (u : Nat) (o : RowOp) (va : Nat) (ws : List Nat) : State × Option Stop :=
  let bs := (ws.map fun w => leBytes 4 w).flatten
  match s.translateSpan u tlbSpindle o.tenant va bs.length true with
  | (s, .fault c a pa) => (s, some (.mem c kindEngineWrite a pa))
  | (s, .ok ps) =>
    let rs := sumReqs u o.tenant o.seq va ps bs
    ((rs.foldl State.sendRed s).modRow o.tenant o.seq fun x => { x with sums := x.sums + rs.length }, none)

/-- One entry of a forward operation goes to the side memory and, for want of a page or with BACKING, to S (R140). -/
def State.keepStat (s : State) (o : RowOp) (q r : Nat) (st : Nat × Nat) : State × Option Stop :=
  let d := o.desc
  let n := rRow0 d + r
  let (s, page) := s.takePage o.tenant (rSet d) n
  let s := if page then
      s.putStat n { tenant := o.tenant, set := rSet d, epoch := rEpoch d, w0 := BitVec.ofNat 32 st.1, w1 := BitVec.ofNat 32 st.2 }
    else s
  if rS d ≠ 0 ∧ (!page ∨ rBacking d) then
    match s.storeSpan (spindleUnit q) tlbSpindle o.tenant (rS d + 8 * r) (leBytes 4 st.1 ++ leBytes 4 st.2) with
    | (s, .fault c a pa) => (s, some (.mem c kindEngineWrite a pa))
    | (s, .ok _) =>
      if page then (s, none)
      else
        (((s.setEvent F.arrSpnEventsStatsSpill).count (spindleUnit q) 3 1).modRow o.tenant o.seq fun x => { x with spilled := true }, none)
  else if page then (s, none)
  else ((s.setEvent F.arrSpnEventsStatsDrop).modRow o.tenant o.seq fun x => { x with dropped := true }, none)

/-- The entries of a chunk's rows in order, until a write faults. -/
def State.keepStats (s : State) (o : RowOp) (q : Nat) : List (Nat × (Nat × Nat)) → State × Option Stop
  | [] => (s, none)
  | (r, st) :: rest =>
    match s.keepStat o q r st with
    | (s, none) => s.keepStats o q rest
    | x => x

/-- A chunk's output grid: index vectors of its rows, rounded (R138). -/
def chunkGrid (o : RowOp) (key r0 n : Nat) (hd : List Byte) (junk : Nat → Nat) (rs : List RowRes) : QGrid :=
  let d := o.desc
  let recip := f32 (f32div f32one (fld hd 0 4))
  let val := fun (f i : Nat) =>
    let y := f32 (f32mul ((rs.getD i (rowNan 0 0)).y.getD f 0) (rOscale d))
    if rOfmt d = 6 then Fmt.fit .fa40 (y.mul recip) else y
  quantGrid (rOfmt d) (fld hd 0xC 4 - o.entries.length) (fld hd 0x18 1) n (rSat d)
    (fun e => rowMode d key o.c0 (e / n) (r0 + e % n)) junk
    ((upto 0 (rLen d)).map fun f => (upto 0 n).map fun i => val f i)

/-- The writes of a chunk's outputs: elements, and the block words of HN4. -/
def chunkWrites (d : List Byte) (r0 n : Nat) (g : QGrid) : List (Nat × List Byte) :=
  ((rowOutSpans d r0 n).zip g.rows).map (fun x => (x.1.1, packVector (rOfmt d) x.2)) ++
    (if rOfmt d = 6 then
      (upto 0 (rLen d / 32)).map fun b =>
        (rMeta d + 256 + (b * rRows d + r0) * 2, (((g.blocks.drop (b * n)).take n).map fun q => leBytes 2 q.word).flatten)
     else [])

/-- The side-area entries of a chunk, each under its place in the order of R77. -/
def chunkEntries (d : List Byte) (r0 n : Nat) (g : QGrid) (m : KMap (List Byte)) : KMap (List Byte) :=
  (upto 0 g.blocks.length).foldl
    (fun (m : KMap (List Byte)) i =>
      match (g.blocks[i]?).bind (·.entry) with
      | some e => KMap.put m (i / n * rRows d + r0 + i % n) (entryOf 6 (r0 + i % n) (i / n) e)
      | none => m) m

/-- What a chunk adds to its operation's header sums. -/
def RowOp.addChunk (o : RowOp) (r0 n : Nat) (hd : List Byte) (g : QGrid) : RowOp :=
  let d := o.desc
  let tile := if rOfmt d = 6 then f32 (fld hd 0 4) else .fin false 1 0
  let vals := ((upto 0 (rLen d)).map fun f => (upto 0 n).map fun i => g.value (rOfmt d) n tile f i).flatten
  { o with
    amax := maxWord o.amax (amaxOf (vals.map decodedWord))
    nonfinite := o.nonfinite + (if rOfmt d = 6 then g.nonfinite else countIf (fun v => !v.finite) vals)
    entries := chunkEntries d r0 n g o.entries
    escDenied := o.escDenied + g.denied, zeroFlush := o.zeroFlush + g.flush }

/-- The sums and losses of a chunk (R138): in-store sums of gain gradients, or losses to R and their sum to S; a loss that is not finite
poisons the step (R112). The reduced loss adds up as chunks end. -/
def State.chunkSums (s : State) (o : RowOp) (q r0 : Nat) (rs : List RowRes) : State × Option Stop :=
  let d := o.desc
  let u := spindleUnit q
  if rOp d = rowNormBwd then
    let col := fun (f : RowRes → List Nat) => (upto 0 (rLen d)).map fun k => sumF (rs.map fun r => (f r).getD k 0)
    match s.storeSums u o (rR d) (col (·.colA)) with
    | (s, some e) => (s, some e)
    | (s, none) => s.storeSums u o (rR d + 4 * rLen d) (col (·.colB))
  else if rowLoss d then
    let sum := sumF (rs.map (·.loss))
    let bad := rs.any (·.bad)
    let s := s.modRow o.tenant o.seq fun x =>
      { x with told := x.told || bad, loss := BitVec.ofNat 32 (f32add x.loss.toNat sum) }
    let s := if bad then s.sendPoison o.tenant 1 u 0 else s
    match s.storeVecs u tlbSpindle o.tenant [(rR d + 4 * r0, (rs.map fun r => leBytes 4 r.loss).flatten)] with
    | (s, some e) => (s, some e)
    | (s, none) => s.storeSums u o (rS d) [sum]
  else if rowKeeps d then s.keepStats o q ((upto r0 rs.length).zip (rs.map (·.stat)))
  else (s, none)

/-- One chunk of an operation on a section: its rows are computed and written; or why it stops. -/
def State.chunkRun (s : State) (o : RowOp) (q c : Nat) : State × Option Stop :=
  let d := o.desc
  let u := spindleUnit q
  let r0 := 256 * c
  let n := chunkRows d c
  match s.fetchGroups u tlbSpindle o.tenant (chunkGroups d r0 n (s.chunkBacked o c)) with
  | (s, .error e) => (s, some e)
  | (s, .ok gs) =>
    let free := fun (i : Nat) => Config.freeValue (s.free + i)
    let rs := (upto 0 n).map fun i => rowRun d o.lossScale.toNat (free i) (s.rowIn o r0 i gs)
    let s := { s with free := s.free + n }
    let hd := (gs.getD 5 []).headD []
    let junk := fun (i : Nat) => Config.freeValue (s.free + i)
    let key := (s.tenant o.tenant).step.key (rStream d)
    let g := chunkGrid o key r0 n hd junk rs
    let s := { s with free := s.free + g.blocks.length }
    match s.storeVecs u tlbSpindle o.tenant (chunkWrites d r0 n g) with
    | (s, some e) => (s, some e)
    | (s, none) =>
      let s := s.modRow o.tenant o.seq fun x => x.addChunk r0 n hd g
      s.chunkSums o q r0 rs

/-- ROW_CHUNK_END: a section ends its chunk; of an operation that has ended meanwhile nothing more is written. -/
def State.chunkEnd (s : State) (q : Nat) : State :=
  match KMap.find s.spn.running q with
  | none => s
  | some (t, k, c) =>
    let s := s.setSpn { s.spn with running := KMap.del s.spn.running q }
    match s.spn.ops.find? fun o => o.tenant == t && o.seq == k && o.phase == 1 with
    | none => s
    | some o =>
      let s := (s.count (spindleUnit q) 1 (rowPasses o.desc * rLen o.desc + 16)).count (spindleUnit q) 2 1
      match s.chunkRun o q c with
      | (s, some e) => s.rowFault o q e
      | (s, none) => s.modRow t o.seq fun x => { x with ended := x.ended + 1 }

def execRowChunkEnd (q : QuadId) (s : State) : Host.Outcome State Fault Refusal := .next (s.chunkEnd q)

/-- The header of an ended operation's output, its side area before it (R75, R77, R86). -/
def RowOp.headerWrites (o : RowOp) (hd : List Byte) : List (Nat × List Byte) :=
  let m := rMeta o.desc
  if m = 0 then []
  else if rOfmt o.desc = 6 then
    (if o.entries.isEmpty then [] else [(m + fld hd 0x10 8, (o.entries.map (·.2)).flatten)]) ++
      [(m + 4, leBytes 4 o.amax.toNat ++ leBytes 4 o.entries.length), (m + 0x19, leBytes 1 6),
       (m + 0x1C, leBytes 4 o.nonfinite ++ leBytes 4 o.escDenied ++ leBytes 4 o.zeroFlush)]
  else [(m + 4, leBytes 4 o.amax.toNat), (m + 0x1C, leBytes 4 o.nonfinite)]

/-- The answer to an in-store sum (R143, R244): poison that it met ends its operation. -/
def State.sumAnswer (s : State) (t seq va code : Nat) (line : Nat) : State :=
  match s.spn.ops.find? fun o => o.tenant == t && o.seq == seq with
  | none => s
  | some o =>
    let s := s.modRow t seq fun x => { x with sums := x.sums - 1 }
    if code ≠ 0 ∧ o.phase = 1 then s.rowFault o 0 (.mem code kindEngineWrite va (256 * line)) else s

/-- ROW_OPERATION_END (R143): the last chunk has ended and its sums are performed, or the operation has; a reduced loss that is not finite
poisons the step (R112); the header is written, then the completion word and the token message follow. -/
def State.rowEnd (s : State) (t : Nat) : State :=
  match s.spn.ops.find? fun o => o.tenant == t with
  | none => s
  | some o =>
    if o.phase = 2 then s.rowWord o o.status
    else if o.phase = 1 ∧ o.ended = rowChunks o.desc ∧ o.sums = 0 then
      let s := if f32bad o.loss.toNat && !o.told then s.sendPoison t 1 (spindleUnit 0) 0 else s
      let md := if rMeta o.desc = 0 then [] else [(rMeta o.desc, 256)]
      match s.fetchVecs (spindleUnit 0) tlbSpindle t md with
      | (s, .error e) => s.rowFault o 0 e
      | (s, .ok hs) =>
        match s.storeVecs (spindleUnit 0) tlbSpindle t (o.headerWrites (hs.headD [])) with
        | (s, some e) => s.rowFault o 0 e
        | (s, none) =>
          let s := if o.clash then s.scribble (spindleUnit 0) tlbSpindle t (rowMetas o.desc) else s
          s.rowWord o (if o.dropped then 0x114 else if o.spilled then 0x113 else 0)
    else s

def execRowOperationEnd (t : TenantId) (s : State) : Host.Outcome State Fault Refusal := .next (s.rowEnd t)

/-! ### Aborts and resets (R143, R146) -/

/-- An accepted row operation ends ABORTED; a running one leaves its outputs undefined. -/
def State.rowAbort (s : State) (o : RowOp) : State :=
  let s := if o.phase = 1 ∧ !o.starts.isEmpty then s.scribble (spindleUnit 0) tlbSpindle o.tenant (rowOutputs o.desc) else s
  s.modRow o.tenant o.seq fun x => { x with phase := 2, status := 0x604 }

/-- The accepted row operations of a launch end ABORTED (R369). -/
def State.rowAbortLaunch (s : State) (l : Nat) : State :=
  (s.spn.ops.filter fun o => o.launch == l).foldl State.rowAbort s

/-- A tenant reset in the spindle (R146). -/
def State.rowReset (s : State) (t : Nat) : State :=
  let s := (s.spn.ops.filter fun o => o.tenant == t).foldl State.rowAbort s
  let x := s.spn
  let s := s.setSpn { x with
    seqs := KMap.del x.seqs t
    ops := x.ops.filter fun o => o.tenant != t
    running := x.running.filter fun r => r.2.1 != t }
  let keep := fun (m : TreeMsg) => match m with
    | .rowIssue _ _ _ _ t' _ _ => t' != t
    | _ => true
  let s := { s with tree := KMap.set s.tree (spindleUnit 0) ((s.inbox (spindleUnit 0)).filter keep) [] }
  ((s.freePages t none).setReg (.arrSpnTenant t) (Reg.arrSpnTenant t).reset).showSpn

end Sys2Proof.Machine
end

