-- ==== Sys2Proof/Machine/TumExec.lean ====
section
/-! DEFINITION. How a tumbler runs a group (Tumbler cores and thread groups): fragments and reconvergence, gathering, the near
cache, barriers' release, faults, and the issue of one instruction. -/

namespace Sys2Proof.Machine

/-! ### Lane masks -/

/-- Every lane. -/
def allLanes : Nat := 2 ^ 32 - 1

def lanesOf (m : Nat) : List Nat := (upto 0 32).filter fun l => bit m l

def maskOf (ls : List Nat) : Nat := ls.foldl (fun m l => Nat.lor m (2 ^ l)) 0

/-- The lanes of `a` outside `b`. -/
def maskDiff (a b : Nat) : Nat := maskOf ((lanesOf a).filter fun l => !bit b l)

/-- Whether every lane of `a` is in `b`. -/
def maskIn (a b : Nat) : Bool := (lanesOf a).all fun l => bit b l

/-! ### Fragments (R180) -/

/-- Whether a waiting fragment yields to its group's others: at a reconvergence point or a barrier. -/
def FragSt.yields : FragSt → Bool
  | .point => true
  | .barg _ => true
  | .barm _ => true
  | .barb _ _ => true
  | _ => false

/-- The fragment that a group runs: the first that does not yield. -/
def Group.current (x : Group) : Option Nat := findAt (fun f => !f.st.yields) x.frags

def Group.modFrag (x : Group) (i : Nat) (f : Frag → Frag) : Group := { x with frags := modAt x.frags i f }

/-- A ready fragment that has reached its reconvergence point waits there. -/
def Group.arrive (x : Group) (f : Frag) : Frag :=
  let here := match f.path with
    | e :: _ => KMap.find x.stack e == some f.pc
    | [] => false
  if f.st == .ready && here then { f with st := .point, gathered := none, waited := false } else f

/-- An entry whose remaining fragments all stand at its point. -/
def Group.joinable (x : Group) : Option Nat :=
  (x.frags.filterMap fun f => f.path.head?).find? fun e =>
    x.frags.all fun f => !f.path.contains e || (f.st == .point && f.path.head? == some e)

/-- The fragments of an entry made one, in the place of the first. -/
def mergeAt (e : Nat) (new : Frag) : List Frag → List Frag
  | [] => []
  | f :: fs => if f.path.contains e then new :: fs.filter (fun g => !g.path.contains e) else f :: mergeAt e new fs

/-- Rejoins the fragments of one entry. -/
def Group.join (x : Group) : Group :=
  match x.joinable with
  | none => x
  | some e =>
    let mine := x.frags.filter fun f => f.path.contains e
    let new : Frag :=
      { mask := mine.foldl (fun m f => Nat.lor m f.mask) 0, pc := KMap.get x.stack e 0
        path := (mine.head?.map fun f => f.path.tail).getD [], st := .ready, gathered := none, waited := false }
    { x with frags := mergeAt e new x.frags, stack := KMap.del x.stack e }

/-- A group after its fragments have moved: those at their points wait, complete entries rejoin, and entries that no fragment is
inside of any longer are popped. -/
def Group.settle (x : Group) : Group :=
  let x := { x with frags := x.frags.filter fun f => f.mask != 0 }
  let x := times (fun (x : Group) => Group.join { x with frags := x.frags.map x.arrive }) 34 x
  { x with stack := x.stack.filter fun e => x.frags.any fun f => f.path.contains e.1 }

/-! ### The near cache (R177, R186, R220) -/

/-- The near-cache set of a line: 64 sets of 8 ways. -/
def nearSet (line : Nat) : Nat := line % 64

/-- A launch's line in a tumbler's near cache. -/
def State.nearLine (s : State) (u l line : Nat) : Option NearLine :=
  (s.tumbler u).cache.find? fun n => n.line == line && n.launch == l

/-- Writes a near-cache line's dirty bytes back to its slice, by byte masks. -/
def State.nearBack (s : State) (n : NearLine) : State :=
  let mask := (upto 0 4).foldl (fun m i => m + (n.g.getD i Gran.reset).wrote * 2 ^ (64 * i)) 0
  if mask = 0 then s else s.writeLine n.line mask (n.g.map (·.data)).flatten

/-- Writes back and invalidates the lines of a tumbler that satisfy a test. -/
def State.nearFlush (s : State) (u : Nat) (p : NearLine → Bool) : State :=
  let s := ((s.tumbler u).cache.filter p).foldl State.nearBack s
  s.modTumbler u fun x => { x with cache := x.cache.filter fun n => !p n }

/-- The least recently used line of some. -/
def oldestNear : List NearLine → Option NearLine
  | [] => none
  | n :: ns => some (ns.foldl (fun (b : NearLine) m => if m.used < b.used then m else b) n)

/-- Puts a line into the near cache: a full set writes back its least recently used line. -/
def State.nearPut (s : State) (u : Nat) (n : NearLine) : State :=
  let set := (s.tumbler u).cache.filter fun m => nearSet m.line == nearSet n.line && !(m.line == n.line && m.launch == n.launch)
  let s := if set.length < 8 then s
    else match oldestNear set with
      | some o => s.nearFlush u fun m => m.line == o.line && m.launch == o.launch
      | none => s
  s.modTumbler u fun x =>
    { x with
      cache := { n with used := x.stamp + 1 } :: x.cache.filter fun m => !(m.line == n.line && m.launch == n.launch)
      stamp := x.stamp + 1 }

/-! ### The end of a launch on a tumbler (R177, R198, R205) -/

/-- Whether a launch has a block on a tumbler. -/
def State.onTumbler (s : State) (u l : Nat) : Bool := (s.tumbler u).blocks.any fun b => b.launch == l

/-- A launch's last block has left a tumbler: its lines are written back and invalidated, the tokens of its ended operations are
freed, and loads on their way have no receiver. -/
def State.leaveTumbler (s : State) (u l : Nat) : State :=
  if s.onTumbler u l then s
  else
    (s.nearFlush u fun n => n.launch == l).modTumbler u fun x =>
      { x with
        tokens := x.tokens.filter fun k => !(k.2.launch == l && k.2.status.isSome)
        acc := x.acc.filter fun a => !(a.launch == l && a.kind == .load) }

/-- A tumbler stops every group of a launch (R205). -/
def State.stopHere (s : State) (l u : Nat) : State :=
  if !s.onTumbler u l then s
  else
    let n := ((s.tumbler u).blocks.filter fun b => b.launch == l).length
    let s := s.modTumbler u fun x =>
      { x with
        groups := x.groups.filter fun g => g.2.launch != l
        blocks := x.blocks.filter fun b => b.launch != l }
    (s.modLaunch l fun x => { x with ended := x.ended + n }).leaveTumbler u l

/-- A thread of a launch faults (R205): the tumbler stops the launch's groups, and the first code stands. -/
def State.tumFault (s : State) (u l code : Nat) : State :=
  let s := s.count (tumblerUnit u) 8 1
  (s.modLaunch l fun x => { x with code := if x.code = 0 then code else x.code, stopped := true }).stopHere l u

/-- A thread meets a memory-class fault (R218); poison aborts the tenant's open step (R162). -/
def State.tumMemFault (s : State) (u l t code kind va pa : Nat) : State :=
  let s := (s.memFault code kind t (tumblerUnit u) va pa).tumFault u l code
  if code = 0x304 then s.abortStep t else s

/-! ### Barriers' release (R191 to R194, R225) -/

/-- Whether a group has a tenant-memory access on its way. -/
def State.groupPending (s : State) (u g : Nat) : Bool :=
  (s.tumbler u).acc.any fun a =>
    !a.kind.isRemote && some a.launch == (s.group? u g).map (·.launch) && a.lanes.any fun x => x.slot == g

/-- The lanes of a group that have arrived at BARG, at BARM with a mask, and at BARB `k`. -/
def Group.atBarg (x : Group) : Nat := x.frags.foldl (fun m f => match f.st with | .barg a => Nat.lor m a | _ => m) 0
def Group.atBarm (x : Group) (k : Nat) : Nat :=
  x.frags.foldl (fun m f => match f.st with | .barm is => is.foldl (fun m i => if i.1 = k then Nat.lor m i.2 else m) m | _ => m) 0
def Group.atBarb (x : Group) (k : Nat) : Nat :=
  x.frags.foldl (fun m f => match f.st with | .barb q a => if q = k then Nat.lor m a else m | _ => m) 0

/-- The masks at which a group waits for BARM. -/
def Group.barMasks (x : Group) : List Nat :=
  ((x.frags.map fun f => match f.st with | .barm is => is.map (·.1) | _ => []).flatten).eraseDups

/-- A fragment's wait without an instance of BARM that is released. -/
def FragSt.pass (st : FragSt) (m : Nat) : FragSt :=
  match st with
  | .barm is =>
    let rest := is.filter fun i => i.1 != m
    if rest.isEmpty then .ready else .barm rest
  | st => st

/-- Releases the fragments that satisfy a test. -/
def Group.release (x : Group) (p : FragSt → Bool) : Group :=
  Group.settle { x with frags := x.frags.map fun f => if p f.st then { f with st := .ready } else f }

/-- A group's own barriers. -/
def Group.ownBars (x : Group) : Group :=
  let x := if x.atBarg ≠ 0 ∧ maskIn x.live x.atBarg then x.release fun st => match st with | .barg _ => true | _ => false else x
  x.barMasks.foldl
    (fun (x : Group) m =>
      if x.atBarm m ≠ 0 ∧ (lanesOf m).all (fun l => !bit x.live l || bit (x.atBarm m) l) then
        Group.settle { x with frags := x.frags.map fun f => { f with st := f.st.pass m } }
      else x) x

/-- The slots of a block's groups on a tumbler. -/
def State.blockSlots (s : State) (u l b : Nat) : List Nat :=
  ((s.tumbler u).groups.filter fun g => g.2.launch == l && g.2.block == b).map (·.1)

/-- A block's barriers. -/
def State.blockBars (s : State) (u l b : Nat) : State :=
  let slots := s.blockSlots u l b
  if slots.any (s.groupPending u) then s
  else
    (upto 0 16).foldl
      (fun (s : State) k =>
        let gs := slots.filterMap fun g => s.group? u g
        if (gs.any fun x => x.atBarb k != 0) && gs.all fun x => maskIn x.live (x.atBarb k) then
          slots.foldl (fun (s : State) g => s.modGroup u g fun x => x.release fun st => match st with | .barb q _ => q == k | _ => false) s
        else s) s

/-- Releases what can be released of a launch's barriers on a tumbler: every participant has arrived, and its accesses are performed. -/
def State.releaseBars (s : State) (u l : Nat) : State :=
  let slots := ((s.tumbler u).groups.filter fun g => g.2.launch == l).map (·.1)
  let s := slots.foldl (fun (s : State) g => if s.groupPending u g then s else s.modGroup u g Group.ownBars) s
  ((s.tumbler u).blocks.filter fun b => b.launch == l).foldl (fun (s : State) b => s.blockBars u l b.num) s

/-! ### Issue (R170 to R172, R178, R181, R183) -/

/-- A constituent of what issues: its slot, its fragment's place, its lanes, and those whose guard holds. -/
structure Member where
  slot : Nat
  i : Nat
  act : Nat
  on : Nat
  deriving DecidableEq, Repr

/-- What an instruction issues with. -/
structure Ctx where
  u : Nat
  l : Launch
  w : IWord
  ms : List Member
  deriving DecidableEq, Repr

/-- The registers an instruction names: sources as field (0 SA, 1 SB, 2 SC), first register and count; results as first register and
count. -/
structure Form where
  srcs : List (Nat × Nat × Nat)
  dst : List (Nat × Nat)
  deriving DecidableEq, Repr

/-- The lanes whose guard holds (R178). -/
def Group.guard (x : Group) (w : IWord) : Nat :=
  if w.pred.toNat = 15 then allLanes
  else
    let m := KMap.get x.preds w.pred.toNat 0
    if w.pnot then maskDiff allLanes m else m

/-- The member that a group's current fragment makes. -/
def Group.member (x : Group) (g : Nat) (w : IWord) : Option Member :=
  match x.current with
  | none => none
  | some i =>
    match x.frags[i]? with
    | none => none
    | some f => some { slot := g, i := i, act := f.mask, on := Nat.land f.mask (x.guard w) }

/-- Every register that the sources of a form name, one that two of them name twice. -/
def Form.reads (f : Form) : List Nat := (f.srcs.map fun x => upto x.2.1 x.2.2).flatten

/-- Uses a register in a register cache of four (R172). -/
def cacheTouch (c : List Nat) (r : Nat) : List Nat :=
  let c := c.filter (fun x => x != r) ++ [r]
  c.drop (c.length - 4)

/-- Tumbler cycles that reads of one bank cost beyond the first (R171). -/
def bankWaits (c : List Nat) (f : Form) : Nat :=
  let rs := f.reads.filter fun r => !c.contains r
  sumNat ((upto 0 4).map fun b => (rs.filter fun r => r % 4 == b).length - 1)

/-- The register cache after an instruction: kept sources, then results. -/
def cacheAfter (c : List Nat) (w : IWord) (f : Form) : List Nat :=
  let c := f.srcs.foldl (fun c x => if w.keep.toNat.testBit x.1 then (upto x.2.1 x.2.2).foldl cacheTouch c else c) c
  f.dst.foldl (fun c x => (upto x.1 x.2).foldl cacheTouch c) c

/-- The fragments of a launch on a tumbler that could run with one at `pc`: by slot, each group's current fragment, ready or waiting for
partners, and not gathered yet (R181). -/
def State.partners (s : State) (u l pc : Nat) : List (Nat × Nat × Nat) :=
  (s.tumbler u).groups.filterMap fun g =>
    if g.2.launch ≠ l then none
    else
      match g.2.current with
      | none => none
      | some i =>
        match g.2.frags[i]? with
        | some f => if f.pc = pc ∧ (f.st = .ready ∨ f.st = .repack) ∧ f.gathered = none then some (g.1, i, f.mask) else none
        | none => none

/-- Merges fragments in ascending slot order, skipping those whose columns are taken: those merged, and those left (R181 rule 2). -/
def mergeLanes : List (Nat × Nat × Nat) → Nat → List (Nat × Nat × Nat) × List (Nat × Nat × Nat)
  | [], _ => ([], [])
  | x :: xs, m =>
    if Nat.land x.2.2 m = 0 then let r := mergeLanes xs (Nat.lor m x.2.2); (x :: r.1, r.2)
    else let r := mergeLanes xs m; (r.1, x :: r.2)

/-- The gathered groups of some fragments (R181 rule 3). -/
def gatherAll : Nat → List (Nat × Nat × Nat) → List (List (Nat × Nat × Nat))
  | 0, _ => []
  | n + 1, xs => if xs.isEmpty then [] else let r := mergeLanes xs 0; r.1 :: gatherAll n r.2

/-- Sets up gathered groups: each with its lowest slot; one fragment alone runs ungathered. Register caches start empty. -/
def State.gather (s : State) (u : Nat) (xs : List (Nat × Nat × Nat)) : State :=
  (gatherAll 32 xs).foldl
    (fun (s : State) grp =>
      let low := if grp.length < 2 then none else grp.head?.map (·.1)
      let s := if low.isSome then s.count (tumblerUnit u) 3 1 else s
      grp.foldl
        (fun (s : State) x => s.modGroup u x.1 fun y =>
          { y.modFrag x.2.1 (fun f => { f with st := .ready, gathered := low, waited := true }) with
            cache := if low.isSome then [] else y.cache }) s) s

/-- Whether a fragment waits for partners. -/
def State.seeking (s : State) (u : Nat) (xs : List (Nat × Nat × Nat)) : Bool :=
  xs.any fun x => ((s.group? u x.1).bind fun y => y.frags[x.2.1]?).any fun f => f.st == .repack

/-- The members that issue with group `g`, once gathering is settled: none when it waits for partners, or is led by a lower slot. A fragment
of fewer than 16 lanes looks for partners; one of more lanes joins those that wait for partners at its address (R181 rules 1 and 2). -/
def State.members (s : State) (u g : Nat) (l : Launch) (w : IWord) : State × List Member :=
  match s.group? u g with
  | none => (s, [])
  | some x =>
    match x.current with
    | none => (s, [])
    | some i =>
      match x.frags[i]? with
      | none => (s, [])
      | some f =>
        if f.st ≠ .ready then (s, [])
        else
          let s' :=
            let xs := s.partners u l.id f.pc
            if l.repack ∧ f.gathered = none ∧ !f.waited ∧ (popcount 32 f.mask < 16 ∨ s.seeking u xs) then
              if xs.length < 2 then s.modGroup u g fun y => y.modFrag i fun f => { f with st := .repack }
              else s.gather u xs
            else s
          match (s'.group? u g).bind fun y => y.frags[i]? with
          | none => (s', [])
          | some f' =>
            if f'.st ≠ .ready then (s', [])
            else
              match f'.gathered with
              | none => (s', ((s'.group? u g).bind fun y => y.member g w).toList)
              | some low =>
                if low ≠ g then (s', [])
                else
                  (s', (s'.tumbler u).groups.filterMap fun y =>
                    match y.2.current with
                    | none => none
                    | some j =>
                      match y.2.frags[j]? with
                      | some q => if q.gathered = some low then y.2.member y.1 w else none
                      | none => none)

/-- A gathered group splits back into its constituents (R181 rule 5). -/
def State.split (s : State) (u : Nat) (ms : List Member) : State :=
  ms.foldl (fun (s : State) m => s.modGroup u m.slot fun x =>
    { x with frags := x.frags.map fun f => { f with gathered := none } }) s

/-- After an instruction: fragments settle, and a gathered group of which one constituent has left splits. -/
def State.afterIssue (s : State) (u : Nat) (ms : List Member) : State :=
  let s := ms.foldl (fun (s : State) m => s.modGroup u m.slot Group.settle) s
  let whole := ms.all fun m =>
    match s.group? u m.slot with
    | none => false
    | some x =>
      match x.current with
      | none => false
      | some i => ((x.frags[i]?).map fun f => f.gathered.isSome && (f.st == .ready || f.st == .remote)).getD false
  if ms.length < 2 || whole then s else s.split u ms

/-- The instruction address that members stand at. -/
def State.pcOf' (s : State) (u : Nat) (ms : List Member) : Nat :=
  match ms with
  | m :: _ => (((s.group? u m.slot).bind fun x => x.frags[m.i]?).map (·.pc)).getD 0
  | [] => 0

/-- Advances members past the instruction, and keeps their register caches. -/
def State.advance (s : State) (c : Ctx) (f : Form) : State :=
  c.ms.foldl
    (fun (s : State) m => s.modGroup c.u m.slot fun x =>
      { x.modFrag m.i (fun q => { q with pc := (q.pc + 8) % 2 ^ 64, waited := false }) with cache := cacheAfter x.cache c.w f }) s

/-- Whether an instruction must wait: a source is awaited in one of its groups (R170, R195). A result that is awaited holds nothing back. -/
def State.awaits (s : State) (c : Ctx) (f : Form) : Bool :=
  c.ms.any fun m => ((s.group? c.u m.slot).map fun x => f.reads.any fun r => x.busy.contains r).getD true

/-- The opcode of an instruction word (R178). -/
def opcodeOf (v : Nat) : Nat := bits v 63 56

/-- The other fields of an instruction word (R178). -/
def wordFields (v : Nat) : IWord :=
  { dst := BitVec.ofNat 8 (bits v 55 48), sa := BitVec.ofNat 8 (bits v 47 40), sb := BitVec.ofNat 8 (bits v 39 32)
    sc := BitVec.ofNat 8 (bits v 31 24), pred := BitVec.ofNat 4 (bits v 23 20), pnot := bit v 19
    keep := BitVec.ofNat 3 (bits v 18 16), mod := BitVec.ofNat 16 (bits v 15 0) }

/-- The runs of opcodes that R179 lists, each from its first to its last. -/
def opcodeRuns : List (Nat × Nat) :=
  [(0x00, 0x13), (0x40, 0x4B), (0x80, 0x84), (0x90, 0x95), (0xA0, 0xA2), (0xC0, 0xC2), (0xD0, 0xD0), (0xE0, 0xE2), (0xE8, 0xE8)]

/-- Whether R179 lists an opcode. -/
def opcodeListed (o : Nat) : Bool := opcodeRuns.any fun r => decide (r.1 ≤ o ∧ o ≤ r.2)

/-- Whether the word that stands at the fetched address has an opcode that R179 does not list, for a lane whose guard by that word holds. -/
def State.unlisted (s : State) (c : Ctx) (pa : Nat) : Bool :=
  let v := leNat (s.read pa 8)
  !opcodeListed (opcodeOf v) && c.ms.any fun m =>
    ((s.group? c.u m.slot).map fun x => Nat.land m.act (x.guard (wordFields v)) != 0).getD false

/-- Issues an instruction of group `g` of tumbler `u` (R170): its group has it next, its operands are there, and `ok` holds; else nothing
happens, nor with the load cut (R449). The fetch is translated and checked (R211, R214); a fetched word with an opcode that R179 does not list ends the thread 0120h. -/
def State.issue (s : State) (u g : Nat) (w : IWord) (f : Form) (ok : State → Ctx → Bool) (run : State → Ctx → State) : State :=
  if s.pwr.cut then s else
  match (s.group? u g).bind fun x => s.launch? x.launch with
  | none => s
  | some l =>
    match s.members u g l w with
    | (s, ms) =>
      let c : Ctx := { u := u, l := l, w := w, ms := ms }
      if ms.isEmpty || s.awaits c f || !ok s c then s
      else
        let pc := s.pcOf' u ms
        match s.translate (tumblerUnit u) tlbTumbler l.tenant pc false true with
        | (s, .fault code pa) => s.tumMemFault u l.id l.tenant code kindFetch pc pa
        | (s, .pa pa) =>
          let s := s.readAs pa 8 l.tenant (tumblerUnit u) false
          if s.poisoned pa 8 then s.tumMemFault u l.id l.tenant 0x304 kindFetch pc pa
          else
            let waits := ((ms.head?.bind fun m => s.group? u m.slot).map fun x => bankWaits x.cache f).getD 0
            let s := s.count (tumblerUnit u) 1 1
            let s := s.count (tumblerUnit u) 2 (sumNat (ms.map fun m => popcount 32 m.act))
            let s := s.count (tumblerUnit u) 4 waits
            if s.unlisted c pa then s.tumFault u l.id 0x120 else (run (s.advance c f) c).afterIssue u ms

/-- The lanes that execute, over all constituents. -/
def Ctx.lanes (c : Ctx) : List (Nat × Nat) := (c.ms.map fun m => (lanesOf m.on).map fun l => (m.slot, l)).flatten

/-- Whether any lane executes. -/
def Ctx.any (c : Ctx) : Bool := c.ms.any fun m => m.on != 0

/-- An instruction that ends its threads with 0120h when its MOD is not one that R179 gives. -/
def State.legal (s : State) (c : Ctx) (good : Bool) (run : State → State) : State :=
  if !c.any then s else if good then run s else s.tumFault c.u c.l.id 0x120

/-- Issuing never waits on memory. -/
def always : State → Ctx → Bool := fun _ _ => true

/-- The issuing lane of a constituent (R195): its lowest whose guard holds. -/
def Member.issuing (m : Member) : Option Nat := (lanesOf m.on).head?

end Sys2Proof.Machine
end

