-- ==== Sys2Proof/Machine/TumAlu.lean ====
section
/-! DEFINITION. Tumbler instructions that only compute (R178, R179, R183): integer, logic, compare, lane exchange, special registers
and floating point. -/

namespace Sys2Proof.Machine

/-! ### Lane by lane -/

/-- Changes each constituent's group, with the group as it stood before. -/
def State.eachMember (s : State) (c : Ctx) (f : Member → Group → Group) : State :=
  c.ms.foldl (fun (s : State) m => s.modGroup c.u m.slot (f m)) s

/-- Writes register DST of every executing lane from the lane's sources. -/
def State.eachLane (s : State) (c : Ctx) (f : Member → Group → Nat → Nat) : State :=
  s.eachMember c fun m x => (lanesOf m.on).foldl (fun (y : Group) l => y.setLane c.l.regs c.w.dst.toNat l (f m x l)) x

/-- Writes the register pair at DST of every executing lane. -/
def State.eachPair (s : State) (c : Ctx) (f : Member → Group → Nat → Nat) : State :=
  s.eachMember c fun m x => (lanesOf m.on).foldl (fun (y : Group) l => y.setPair c.l.regs c.w.dst.toNat l (f m x l)) x

/-- Writes predicate DST of every executing lane; DST 15 and above names none. -/
def State.eachPred (s : State) (c : Ctx) (f : Group → Nat → Bool) : State :=
  s.eachMember c fun m x =>
    let d := c.w.dst.toNat
    if 15 ≤ d then x
    else
      let keep := maskDiff (KMap.get x.preds d 0) m.on
      { x with preds := KMap.set x.preds d (Nat.lor keep (maskOf ((lanesOf m.on).filter (f x)))) 0 }

/-- A source of a lane: field 0 SA, 1 SB, 2 SC. -/
def Ctx.src (c : Ctx) (k : Nat) (x : Group) (l : Nat) : Nat :=
  x.lane c.l.regs (if k = 0 then c.w.sa.toNat else if k = 1 then c.w.sb.toNat else c.w.sc.toNat) l

/-- A source register pair of a lane. -/
def Ctx.srcPair (c : Ctx) (k : Nat) (x : Group) (l : Nat) : Nat :=
  x.pair c.l.regs (if k = 0 then c.w.sa.toNat else if k = 1 then c.w.sb.toNat else c.w.sc.toNat) l

/-- The form of an instruction of `n` sources, each of `k` registers, whose result has as many. -/
def formOf (w : IWord) (n k : Nat) : Form :=
  { srcs := [(0, w.sa.toNat, k), (1, w.sb.toNat, k), (2, w.sc.toNat, k)].take n, dst := [(w.dst.toNat, k)] }

/-- The form of an instruction that writes a predicate. -/
def predForm (w : IWord) : Form := { srcs := [(0, w.sa.toNat, 1), (1, w.sb.toNat, 1)], dst := [] }

/-! ### Integers (R179) -/

/-- Registers of a source or result: two with MOD bit 1. -/
def intSpan (w : IWord) : Nat := if w.mod.toNat.testBit 1 then 2 else 1

/-- An integer instruction of `n` sources: `f width unsigned a b c`. -/
def State.intOp (s : State) (u g : Nat) (w : IWord) (n : Nat) (f : Nat → Bool → Nat → Nat → Nat → Nat) : State :=
  s.issue u g w (formOf w n (intSpan w)) always fun s c =>
    s.legal c (decide (w.mod.toNat ≤ 3)) fun s =>
      let us := w.mod.toNat.testBit 0
      if w.mod.toNat.testBit 1 then
        s.eachPair c fun _ x l => f 64 us (c.srcPair 0 x l) (c.srcPair 1 x l) (c.srcPair 2 x l)
      else s.eachLane c fun _ x l => f 32 us (c.src 0 x l) (c.src 1 x l) (c.src 2 x l)

/-- The smaller and the larger of two integers. -/
def intLess (k : Nat) (us : Bool) (a b : Nat) : Bool := if us then decide (a < b) else decide (signed k a < signed k b)

def execIadd (u : TumblerId) (g : SlotId) (w : IWord) (s : State) : Host.Outcome State Fault Refusal :=
  .next (s.intOp u g w 2 fun k _ a b _ => (a + b) % 2 ^ k)

def execIsub (u : TumblerId) (g : SlotId) (w : IWord) (s : State) : Host.Outcome State Fault Refusal :=
  .next (s.intOp u g w 2 fun k _ a b _ => (a + 2 ^ k - b) % 2 ^ k)

def execImul (u : TumblerId) (g : SlotId) (w : IWord) (s : State) : Host.Outcome State Fault Refusal :=
  .next (s.intOp u g w 2 fun k _ a b _ => a * b % 2 ^ k)

def execImad (u : TumblerId) (g : SlotId) (w : IWord) (s : State) : Host.Outcome State Fault Refusal :=
  .next (s.intOp u g w 3 fun k _ a b c => (a * b + c) % 2 ^ k)

def execImin (u : TumblerId) (g : SlotId) (w : IWord) (s : State) : Host.Outcome State Fault Refusal :=
  .next (s.intOp u g w 2 fun k us a b _ => if intLess k us b a then b else a)

def execImax (u : TumblerId) (g : SlotId) (w : IWord) (s : State) : Host.Outcome State Fault Refusal :=
  .next (s.intOp u g w 2 fun k us a b _ => if intLess k us a b then b else a)

/-- Bits of one draw, apart for every slot and lane. -/
def freeLane (d slot l k : Nat) : Nat := d / 2 ^ (64 * (32 * slot + l)) % 2 ^ k

/-- A shift: by its width or more, the spec states no result, and each lane's is free. -/
def State.shiftOp (s : State) (u g : Nat) (w : IWord) (f : Nat → Bool → Nat → Nat → Nat) : State :=
  s.issue u g w (formOf w 2 (intSpan w)) always fun s c =>
    s.legal c (decide (w.mod.toNat ≤ 3)) fun s =>
      let d := s.draw
      let us := w.mod.toNat.testBit 0
      let go := fun (k slot l a b : Nat) => if b < k then f k us a b else freeLane d slot l k
      State.drawn
        (if w.mod.toNat.testBit 1 then s.eachPair c fun m x l => go 64 m.slot l (c.srcPair 0 x l) (c.srcPair 1 x l)
         else s.eachLane c fun m x l => go 32 m.slot l (c.src 0 x l) (c.src 1 x l))

def execIshl (u : TumblerId) (g : SlotId) (w : IWord) (s : State) : Host.Outcome State Fault Refusal :=
  .next (s.shiftOp u g w fun k _ a b => a * 2 ^ b % 2 ^ k)

def execIshr (u : TumblerId) (g : SlotId) (w : IWord) (s : State) : Host.Outcome State Fault Refusal :=
  .next (s.shiftOp u g w fun k us a b => if us then a / 2 ^ b else unsigned k (signed k a / (2 ^ b : Nat)))

/-! ### Logic (R179): no MOD bit has a meaning -/

def State.logicOp (s : State) (u g : Nat) (w : IWord) (n : Nat) (f : Nat → Nat → Nat) : State :=
  s.issue u g w (formOf w n 1) always fun s c =>
    s.legal c (w.mod == 0) fun s => s.eachLane c fun _ x l => f (c.src 0 x l) (c.src 1 x l)

def execAnd (u : TumblerId) (g : SlotId) (w : IWord) (s : State) : Host.Outcome State Fault Refusal :=
  .next (s.logicOp u g w 2 Nat.land)

def execOr (u : TumblerId) (g : SlotId) (w : IWord) (s : State) : Host.Outcome State Fault Refusal :=
  .next (s.logicOp u g w 2 Nat.lor)

def execXor (u : TumblerId) (g : SlotId) (w : IWord) (s : State) : Host.Outcome State Fault Refusal :=
  .next (s.logicOp u g w 2 Nat.xor)

def execNot (u : TumblerId) (g : SlotId) (w : IWord) (s : State) : Host.Outcome State Fault Refusal :=
  .next (s.logicOp u g w 1 fun a _ => 2 ^ 32 - 1 - a)

def execMov (u : TumblerId) (g : SlotId) (w : IWord) (s : State) : Host.Outcome State Fault Refusal :=
  .next (s.logicOp u g w 1 fun a _ => a)

def execPopc (u : TumblerId) (g : SlotId) (w : IWord) (s : State) : Host.Outcome State Fault Refusal :=
  .next (s.logicOp u g w 1 fun a _ => popcount 32 a)

/-- The predicate number of SEL, in SC's low four bits: 15 holds always. -/
def selects (w : IWord) (x : Group) (l : Nat) : Bool :=
  let p := w.sc.toNat % 16
  p == 15 || bit (KMap.get x.preds p 0) l

def State.selOp (s : State) (u g : Nat) (w : IWord) : State :=
  s.issue u g w (formOf w 2 1) always fun s c =>
    s.legal c (w.mod == 0) fun s => s.eachLane c fun _ x l => if selects w x l then c.src 0 x l else c.src 1 x l

def execSel (u : TumblerId) (g : SlotId) (w : IWord) (s : State) : Host.Outcome State Fault Refusal := .next (s.selOp u g w)

/-- A comparison code of ICMP and FCMP against an order. -/
def compares (code : Nat) (lt eq : Bool) : Bool :=
  if code = 0 then eq else if code = 1 then !eq else if code = 2 then lt else if code = 3 then lt || eq
  else if code = 4 then !lt && !eq else !lt

def State.icmpOp (s : State) (u g : Nat) (w : IWord) : State :=
  s.issue u g w (predForm w) always fun s c =>
    s.legal c (decide (w.mod.toNat ≤ 5)) fun s =>
      s.eachPred c fun x l =>
        let a := signed 32 (c.src 0 x l)
        let b := signed 32 (c.src 1 x l)
        compares w.mod.toNat (decide (a < b)) (decide (a = b))

def execIcmp (u : TumblerId) (g : SlotId) (w : IWord) (s : State) : Host.Outcome State Fault Refusal := .next (s.icmpOp u g w)

/-! ### Lanes and special registers (R179, R183) -/

/-- The lane that SHFL reads; none outside the group. -/
def shflLane (mode l v : Nat) : Option Nat :=
  let n : Int := if mode = 0 then v else if mode = 1 then (l : Int) - v else if mode = 2 then l + v else Nat.xor l v
  if 0 ≤ n ∧ n < 32 then some n.toNat else none

/-- SHFL: a lane that reads outside the group or an inactive lane gets a value that the spec does not state. -/
def State.shflOp (s : State) (u g : Nat) (w : IWord) : State :=
  s.issue u g w (formOf w 2 1) always fun s c =>
    s.legal c (decide (w.mod.toNat ≤ 3)) fun s =>
      let d := s.draw
      State.drawn
        (s.eachLane c fun m x l =>
          match shflLane w.mod.toNat l (c.src 1 x l) with
          | some n => if bit m.on n then c.src 0 x n else freeLane d m.slot l 32
          | none => freeLane d m.slot l 32)

def execShfl (u : TumblerId) (g : SlotId) (w : IWord) (s : State) : Host.Outcome State Fault Refusal := .next (s.shflOp u g w)

/-- VOTE over the executing lanes of a constituent whose SA is not 0. -/
def State.voteOp (s : State) (u g : Nat) (w : IWord) : State :=
  s.issue u g w (formOf w 1 1) always fun s c =>
    s.legal c (decide (w.mod.toNat ≤ 2)) fun s =>
      s.eachLane c fun m x _ =>
        let yes := maskOf ((lanesOf m.on).filter fun l => c.src 0 x l != 0)
        if w.mod.toNat = 0 then b2n (yes == m.on) else if w.mod.toNat = 1 then b2n (yes != 0) else yes

def execVote (u : TumblerId) (g : SlotId) (w : IWord) (s : State) : Host.Outcome State Fault Refusal := .next (s.voteOp u g w)

/-- What SREG reads in a lane. -/
def State.special (s : State) (c : Ctx) (x : Group) (l : Nat) : Nat :=
  match c.w.mod.toNat with
  | 0 => l
  | 1 => x.idx
  | 2 => x.block % 2 ^ 32
  | 3 => x.block / 2 ^ 32 % 2 ^ 32
  | 4 => c.u
  | 5 => c.ms.foldl (fun a m => Nat.lor a m.on) 0
  | 6 => s.draw % 2 ^ 32
  | 7 => s.draw / 2 ^ 32 % 2 ^ 32
  | _ => KMap.get x.rerr l 0

/-- SREG; the remote-error flag is cleared by its read (R328). The cycle counter is free. -/
def State.sregOp (s : State) (u g : Nat) (w : IWord) : State :=
  s.issue u g w { srcs := [], dst := [(w.dst.toNat, 1)] } always fun s c =>
    s.legal c (decide (w.mod.toNat ≤ 8)) fun s =>
      let s' := s.eachLane c fun _ x l => s.special c x l
      State.drawn
        (if w.mod.toNat = 8 then s'.eachMember c fun m x => { x with rerr := x.rerr.filter fun e => !bit m.on e.1 } else s')

def execSreg (u : TumblerId) (g : SlotId) (w : IWord) (s : State) : Host.Outcome State Fault Refusal := .next (s.sregOp u g w)

def State.moviOp (s : State) (u g : Nat) (w : IWord) : State :=
  s.issue u g w { srcs := [], dst := [(w.dst.toNat, 1)] } always fun s c =>
    s.eachLane c fun _ _ _ => unsigned 32 (signed 16 w.mod.toNat)

def execMovi (u : TumblerId) (g : SlotId) (w : IWord) (s : State) : Host.Outcome State Fault Refusal := .next (s.moviOp u g w)

/-! ### Floating point (R70, R179) -/

/-- A floating-point instruction of `n` sources that MOD bit 0 makes two packed BF16. -/
def State.fpOp (s : State) (u g : Nat) (w : IWord) (n : Nat) (f : Fmt → Nat → Nat → Nat → Nat) : State :=
  s.issue u g w (formOf w n 1) always fun s c =>
    s.legal c (decide (w.mod.toNat ≤ 1)) fun s =>
      s.eachLane c fun _ x l =>
        let a := c.src 0 x l
        let b := c.src 1 x l
        let d := c.src 2 x l
        if w.mod.toNat = 0 then f .fp32 a b d
        else f .bf16 (a % 2 ^ 16) (b % 2 ^ 16) (d % 2 ^ 16) + 2 ^ 16 * f .bf16 (a / 2 ^ 16) (b / 2 ^ 16) (d / 2 ^ 16)

def execFadd (u : TumblerId) (g : SlotId) (w : IWord) (s : State) : Host.Outcome State Fault Refusal :=
  .next (s.fpOp u g w 2 fun f a b _ => f.near ((f.decode a).add (f.decode b)))

def execFmul (u : TumblerId) (g : SlotId) (w : IWord) (s : State) : Host.Outcome State Fault Refusal :=
  .next (s.fpOp u g w 2 fun f a b _ => f.near ((f.decode a).mul (f.decode b)))

def execFfma (u : TumblerId) (g : SlotId) (w : IWord) (s : State) : Host.Outcome State Fault Refusal :=
  .next (s.fpOp u g w 3 fun f a b d => f.near (((f.decode a).mul (f.decode b)).add (f.decode d)))

def execFmin (u : TumblerId) (g : SlotId) (w : IWord) (s : State) : Host.Outcome State Fault Refusal :=
  .next (s.fpOp u g w 2 fun f a b _ => f.minOf a b)

def execFmax (u : TumblerId) (g : SlotId) (w : IWord) (s : State) : Host.Outcome State Fault Refusal :=
  .next (s.fpOp u g w 2 fun f a b _ => f.maxOf a b)

/-- FCMP: with a NaN, only `ne` holds. -/
def State.fcmpOp (s : State) (u g : Nat) (w : IWord) : State :=
  s.issue u g w (predForm w) always fun s c =>
    s.legal c (decide (w.mod.toNat ≤ 5)) fun s =>
      s.eachPred c fun x l =>
        match (f32 (c.src 0 x l)).cmp (f32 (c.src 1 x l)) with
        | none => w.mod.toNat == 1
        | some o => compares w.mod.toNat (decide (o < 0)) (decide (o = 0))

def execFcmp (u : TumblerId) (g : SlotId) (w : IWord) (s : State) : Host.Outcome State Fault Refusal := .next (s.fcmpOp u g w)

/-- A floating-point instruction whose MOD is all reserved. -/
def State.fpPlain (s : State) (u g : Nat) (w : IWord) (n : Nat) (f : Nat → Nat → Nat) : State := s.logicOp u g w n f

def execFdiv (u : TumblerId) (g : SlotId) (w : IWord) (s : State) : Host.Outcome State Fault Refusal :=
  .next (s.fpPlain u g w 2 f32div)

def execFsqrt (u : TumblerId) (g : SlotId) (w : IWord) (s : State) : Host.Outcome State Fault Refusal :=
  .next (s.fpPlain u g w 1 fun a _ => f32sqrt a)

/-- FABS: a NaN becomes the canonical NaN of its sign (R70). -/
def f32abs (a : Nat) : Nat := if (f32 a).isNan then toF32 (f32 a) else a % 2 ^ 31

def execFabs (u : TumblerId) (g : SlotId) (w : IWord) (s : State) : Host.Outcome State Fault Refusal :=
  .next (s.fpPlain u g w 1 fun a _ => f32abs a)

/-! ### Within two units in the last place -/

/-- FP32 words as integers in the order of their values. -/
def f32index (w : Nat) : Int := if w < 2 ^ 31 then w else -((w - 2 ^ 31 : Nat) : Int)
def f32ofIndex (i : Int) : Nat := if 0 ≤ i then i.toNat else 2 ^ 31 + (-i).toNat

/-- A signed rational `±n / d`. -/
structure Rat2 where
  neg : Bool
  n : Nat
  d : Nat
  deriving DecidableEq, Repr

/-- Whether a finite FP32 word lies within two units in the last place of `r`. -/
def near2 (r : Rat2) (w : Nat) : Bool :=
  match f32 w with
  | .fin s n e =>
    let q := if r.n = 0 then -149 else max (logRat r.n r.d - 23) (-149)
    let a := dyadic n e
    let x : Int := (if s then -1 else 1) * (a.1 * r.d : Nat)
    let y : Int := (if r.neg then -1 else 1) * (r.n * a.2 : Nat)
    let u := dyadic 2 q
    decide ((x - y).natAbs * u.2 ≤ u.1 * r.d * a.2)
  | _ => false

/-- The word that `pick` chooses of those within two units in the last place of `r`, which does not overflow. -/
def within2 (pick : Nat) (r : Rat2) : Nat :=
  let c := Fmt.roundRat .fp32 .nearest false r.neg r.n r.d
  let cs := ((upto 0 9).map fun (k : Nat) => f32ofIndex (f32index c + (k : Int) - 4)).filter (near2 r)
  cs.getD (pick % cs.length) c

/-- 1 ÷ √(n × 2^e) to 80 bits and more. -/
def rsqrtRat (n : Nat) (e : Int) : Rat2 :=
  let m := if e % 2 = 0 then n else 2 * n
  let h := (if e % 2 = 0 then e else e - 1) / 2
  let v := dyadic (isqrt (2 ^ 240 / m)) (-120 - h)
  { neg := false, n := v.1, d := v.2 }

/-- FRSQ of a word, with IEEE 754 results at zeros, infinities and below zero. -/
def f32rsq (a : Nat) : Nat :=
  match f32 a with
  | .nan s => toF32 (.nan s)
  | .inf s => if s then toF32 (.nan false) else 0
  | .fin s n e =>
    if n = 0 then toF32 (.inf s)
    else if s then toF32 (.nan false)
    else within2 (Config.frsqPick (BitVec.ofNat 32 a)) (rsqrtRat n e)

/-- ln 2 in units of 2^-160. -/
def ln2Fixed : Nat := 0xB17217F7D1CF79ABC9E3B39803F2F6AF40F34326

/-- The terms of the exponential series in units of 2^-160: `x` the argument, `t` the last term, `k` its number. -/
def expSeries (x : Nat) : Nat → Nat → Nat → Nat
  | 0, _, _ => 0
  | n + 1, t, k => t + expSeries x n (t * x / 2 ^ 160 / (k + 1)) (k + 1)

/-- FEXP2 of a word. -/
def f32exp2 (a : Nat) : Nat :=
  match f32 a with
  | .nan s => toF32 (.nan s)
  | .inf s => if s then 0 else toF32 (.inf false)
  | .fin s n e =>
    -- the operand in units of 2^-160; one of exponent 40 and more overflows or underflows by far
    let h : Nat := if 0 ≤ e then n * 2 ^ (160 + min e.toNat 40) else n * 2 ^ 160 / 2 ^ (-e).toNat
    let v : Int := if s then -(h : Int) else h
    let i := v / (2 ^ 160 : Nat)
    let f := (v % (2 ^ 160 : Nat)).toNat
    if 128 ≤ i then toF32 (.inf false)
    else
      let p := expSeries (f * ln2Fixed / 2 ^ 160) 60 (2 ^ 160) 0
      let r := dyadic p (max i (-400) - 160)
      within2 (Config.fexp2Pick (BitVec.ofNat 32 a)) { neg := false, n := r.1, d := r.2 }

/-- Bits of the base-2 logarithm of `m` ÷ 2^190, in 1 up to 2, most significant first: `n` of them. -/
def logBits : Nat → Nat → Nat → Nat
  | 0, _, acc => acc
  | n + 1, m, acc =>
    let q := m * m / 2 ^ 190
    if 2 ^ 191 ≤ q then logBits n (q / 2) (2 * acc + 1) else logBits n q (2 * acc)

/-- FLOG2 of a word. -/
def f32log2 (a : Nat) : Nat :=
  match f32 a with
  | .nan s => toF32 (.nan s)
  | .inf s => if s then toF32 (.nan false) else toF32 (.inf false)
  | .fin s n e =>
    if n = 0 then toF32 (.inf true)
    else if s then toF32 (.nan false)
    else
      let k := Nat.log2 n
      let v : Int := (e + k) * (2 ^ 90 : Nat) + logBits 90 (n * 2 ^ (190 - k)) 0
      within2 (Config.flog2Pick (BitVec.ofNat 32 a)) { neg := decide (v < 0), n := v.natAbs, d := 2 ^ 90 }

def execFrsq (u : TumblerId) (g : SlotId) (w : IWord) (s : State) : Host.Outcome State Fault Refusal :=
  .next (s.fpPlain u g w 1 fun a _ => f32rsq a)

def execFexp2 (u : TumblerId) (g : SlotId) (w : IWord) (s : State) : Host.Outcome State Fault Refusal :=
  .next (s.fpPlain u g w 1 fun a _ => f32exp2 a)

def execFlog2 (u : TumblerId) (g : SlotId) (w : IWord) (s : State) : Host.Outcome State Fault Refusal :=
  .next (s.fpPlain u g w 1 fun a _ => f32log2 a)

end Sys2Proof.Machine
end

