-- ==== Sys2Proof/Machine/TumMem.lean ====
section
/-! DEFINITION. Tumbler memory (Tumbler cores and thread groups; Address spaces and memory ordering): local memory, loads and stores
through the near cache and past it, atomics, table walks and fences. -/

namespace Sys2Proof.Machine

/-! ### Operands -/

/-- Bytes that each lane accesses, by MOD 2:0. -/
def memSize (w : IWord) : Nat := 2 ^ (w.mod.toNat % 8)

/-- The signed byte offset in MOD 15:4. -/
def memOffset (w : IWord) : Int := signed 12 (w.mod.toNat / 16)

/-- Whether MOD is one of R179: a size of 1 to 16 bytes, and bit 3 on LD and ST alone (R221). -/
def memLegal (w : IWord) (nc : Bool) : Bool := decide (w.mod.toNat % 8 ≤ 4) && (nc || !w.mod.toNat.testBit 3)

/-- Registers that a size takes. -/
def memRegs (size : Nat) : Nat := if size ≤ 4 then 1 else size / 4

/-- The value in `k` registers from `n`, the first lowest. -/
def Group.wide (x : Group) (lim n k l : Nat) : Nat :=
  (upto 0 k).foldl (fun v i => v + x.lane lim (n + i) l * 2 ^ (32 * i)) 0

/-- Writes a value into `k` registers from `n`. -/
def Group.setWide (x : Group) (lim n k l v : Nat) : Group :=
  (upto 0 k).foldl (fun (y : Group) i => y.setLane lim (n + i) l (v / 2 ^ (32 * i) % 2 ^ 32)) x

/-! ### Local memory (R187, R188, R190) -/

/-- The block of a group. -/
def State.blockOf (s : State) (u : Nat) (x : Group) : Option Block :=
  (s.tumbler u).blocks.find? fun b => b.launch == x.launch && b.num == x.block

def State.modBlock (s : State) (u l n : Nat) (f : Block → Block) : State :=
  s.modTumbler u fun x => { x with blocks := x.blocks.map fun b => if b.launch = l ∧ b.num = n then f b else b }

/-- A lane's local access: its slot, lane and address. -/
abbrev LocalLane := Nat × Nat × Nat

/-- Puts lanes in ascending order of column. -/
def insertByLane (a : LocalLane) : List LocalLane → List LocalLane
  | [] => [a]
  | b :: bs => if a.2.1 < b.2.1 then a :: b :: bs else b :: insertByLane a bs

/-- The local addresses of the executing lanes, in ascending lane order: `f` of a lane. -/
def State.localAt (s : State) (c : Ctx) (f : Group → Nat → Nat) : List LocalLane :=
  (c.lanes.filterMap fun x => (s.group? c.u x.1).map fun y => (x.1, x.2, f y x.2)).foldl (fun xs a => insertByLane a xs) []

/-- Those of LDL and STL: one register and a signed offset. -/
def State.localLanes (s : State) (c : Ctx) (off : Int) : List LocalLane :=
  s.localAt c fun y l => unsigned 32 ((c.src 0 y l : Int) + off)

/-- Whether a local address is in the block's range and aligned. -/
def localOk (l : Launch) (size a : Nat) : Bool := decide (a + size ≤ l.lmem) && a % size == 0

/-- Cycles beyond the first that bank conflicts cost (R187). -/
def localWaits (size : Nat) (xs : List LocalLane) : Nat :=
  let words := ((xs.map fun x => upto (x.2.2 / 8) ((size + 7) / 8)).flatten).eraseDups
  (upto 0 32).foldl (fun m b => max m ((words.filter fun w => w % 32 == b).length - 1)) 0

def State.localBytes (s : State) (u slot a n : Nat) : List Byte :=
  (((s.group? u slot).bind fun x => s.blockOf u x).map fun b => cells b.lmem a n).getD (zeros n)

def State.putLocal (s : State) (u slot a : Nat) (bs : List Byte) : State :=
  match s.group? u slot with
  | none => s
  | some x => s.modBlock u x.launch x.block fun b => { b with lmem := putCells b.lmem a bs }

/-- A loaded value in a register: the spec states no bits above those of a load of 1 or 2 bytes, and they are free. -/
def widen (size d slot l v : Nat) : Nat :=
  if size < 4 then v + 2 ^ (8 * size) * freeLane d slot l (32 - 8 * size) else v

/-- LDL and STL: an address outside the block's range, or misaligned, ends the thread with 0121h. -/
def State.localOp (s : State) (u g : Nat) (w : IWord) (store : Bool) : State :=
  let k := memRegs (memSize w)
  let form : Form := if store then { srcs := [(0, w.sa.toNat, 1), (1, w.sb.toNat, k)], dst := [] }
    else { srcs := [(0, w.sa.toNat, 1)], dst := [(w.dst.toNat, k)] }
  s.issue u g w form always fun s c =>
    s.legal c (memLegal w false) fun s =>
      let xs := s.localLanes c (memOffset w)
      let n := memSize w
      if xs.any fun x => !localOk c.l n x.2.2 then s.tumFault u c.l.id 0x121
      else
        let s := s.count (tumblerUnit u) 4 (localWaits n xs)
        let d := s.draw
        xs.foldl
          (fun (s : State) x =>
            if store then
              match s.group? u x.1 with
              | some y => s.putLocal u x.1 x.2.2 (leBytes n (y.wide c.l.regs w.sb.toNat k x.2.1))
              | none => s
            else
              let v := widen n d x.1 x.2.1 (leNat (s.localBytes u x.1 x.2.2 n))
              s.modGroup u x.1 fun y => y.setWide c.l.regs w.dst.toNat k x.2.1 v) s.drawn

def execLdl (u : TumblerId) (g : SlotId) (w : IWord) (s : State) : Host.Outcome State Fault Refusal := .next (s.localOp u g w false)
def execStl (u : TumblerId) (g : SlotId) (w : IWord) (s : State) : Host.Outcome State Fault Refusal := .next (s.localOp u g w true)

/-! ### ATOM's modifier (R188) -/

def atomOp (w : IWord) : Nat := w.mod.toNat % 16
def atomType (w : IWord) : Nat := w.mod.toNat / 16 % 4
def atomSpace (w : IWord) : Nat := w.mod.toNat / 64 % 4

def atomLegal (w : IWord) : Bool :=
  decide (w.mod.toNat < 256) && decide (atomOp w ≤ 7) && atomSpace w != 3 &&
    (atomType w != 3 || [0, 1, 2, 6, 7].contains (atomOp w))

/-- Registers of ATOM's operand and result. -/
def atomRegs (w : IWord) : Nat := if atomType w = 2 then 2 else 1

def atomForm (w : IWord) : Form :=
  let k := atomRegs w
  { srcs := [(0, w.sa.toNat, 2), (1, w.sb.toNat, k)] ++ (if atomOp w = 7 then [(2, w.sc.toNat, k)] else [])
    dst := [(w.dst.toNat, k)] }

/-- A local-memory ATOM: its lanes in ascending order, each at the address in its SA pair; each receives what it read. -/
def State.localAtom (s : State) (c : Ctx) : State :=
  let w := c.w
  let k := atomRegs w
  let n := 4 * k
  let xs := s.localAt c (c.srcPair 0)
  if xs.any fun x => !localOk c.l n x.2.2 then s.tumFault c.u c.l.id 0x121
  else
    -- operands are read before any result is written
    let before := s
    xs.foldl
      (fun (s : State) x =>
        match before.group? c.u x.1 with
        | none => s
        | some y =>
          let old := leNat (s.localBytes c.u x.1 x.2.2 n)
          let new := atomValue (atomOp w) (atomType w) old (y.wide c.l.regs w.sb.toNat k x.2.1) (y.wide c.l.regs w.sc.toNat k x.2.1)
          (s.putLocal c.u x.1 x.2.2 (leBytes n new)).modGroup c.u x.1 fun z => z.setWide c.l.regs w.dst.toNat k x.2.1 old) s

/-! ### Accesses on their way -/

def State.putAccess (s : State) (u : Nat) (a : Access) : State :=
  s.modTumbler u fun x => { x with acc := x.acc.map fun b => if b.id = a.id then a else b }

def State.dropAccess (s : State) (u id : Nat) : State :=
  s.modTumbler u fun x => { x with acc := x.acc.filter fun b => b.id != id }

def AccessKind.fault : AccessKind → Nat
  | .load => kindLoad
  | .store => kindStore
  | .atomic => kindAtomic
  | .remote => kindLoad
  | .remoteStore => kindStore

/-- The lines that an access touches, ascending. -/
def insertUp (a : Nat) : List Nat → List Nat
  | [] => [a]
  | b :: bs => if a = b then b :: bs else if a < b then a :: b :: bs else b :: insertUp a bs

def Access.lines (a : Access) : List Nat := a.lanes.foldl (fun ls x => insertUp (x.pa / 256) ls) []

/-- Registers that an access writes. -/
def Access.regs (a : Access) : List Nat := upto a.dst (memRegs a.size)

/-- Whether an access's result registers are awaited: a remote access holds its fragment instead, and a store has none. -/
def AccessKind.awaited : AccessKind → Bool
  | .load => true
  | .atomic => true
  | _ => false

/-- Makes an access's result registers awaited in its groups, or no longer: once for each access that has them on its way. -/
def State.await (s : State) (u : Nat) (a : Access) (on : Bool) : State :=
  if !a.kind.awaited then s
  else
    ((a.lanes.map (·.slot)).eraseDups).foldl
      (fun (s : State) g => s.modGroup u g fun x =>
        if x.launch = a.launch then
          { x with busy := if on then a.regs ++ x.busy else a.regs.foldl List.erase x.busy }
        else x) s

/-- An access whose lanes have their values: they are written, and what waited on it goes on. -/
def State.finishAccess (s : State) (u : Nat) (a : Access) : State :=
  let d := s.draw
  let s := a.lanes.foldl
    (fun (s : State) x => s.modGroup u x.slot fun y =>
      if y.launch = a.launch then
        y.setWide (s.regLimit a.launch) a.dst (memRegs a.size) x.lane
          (widen a.size d x.slot x.lane (KMap.get a.vals (32 * x.slot + x.lane) 0))
      else y) s.drawn
  ((s.await u a false).dropAccess u a.id).releaseBars u a.launch

/-- An access that ends in a memory-class fault. -/
def State.failAccess (s : State) (u : Nat) (a : Access) (code kind va pa : Nat) : State :=
  ((s.await u a false).dropAccess u a.id).tumMemFault u a.launch a.tenant code kind va pa

/-! ### Loads (R184 to R186, R220, R221) -/

/-- The bytes of its sector that a lane accesses. -/
def laneMask (size pa : Nat) : Nat := (2 ^ size - 1) * 2 ^ (pa % 64)

/-- Whether the near cache holds all that a lane loads. -/
def State.nearHas (s : State) (u : Nat) (a : Access) (pa : Nat) : Bool :=
  match s.nearLine u a.launch (pa / 256) with
  | none => false
  | some n => Nat.land (n.g.getD (pa / 64 % 4) Gran.reset).held (laneMask a.size pa) == laneMask a.size pa

/-- The lines that an access still needs from the store. -/
def State.needs (s : State) (u : Nat) (a : Access) : List Nat :=
  if a.nc then a.lines
  else (a.lanes.filter fun x => !s.nearHas u a x.pa).foldl (fun ls x => insertUp (x.pa / 256) ls) []

/-- The bytes of a line that an access reads at the slice: those of its lanes, or the whole sectors that the near cache lacks. -/
def State.loadMask (s : State) (u : Nat) (a : Access) (line : Nat) : Nat :=
  ((a.lanes.filter fun x => x.pa / 256 == line).filter fun x => a.nc || !s.nearHas u a x.pa).foldl
    (fun m x => Nat.lor m ((if a.nc then laneMask a.size x.pa else allHeld) * 2 ^ (64 * (x.pa / 64 % 4)))) 0

/-- Whether some bytes of a line can be served: the store holds them, in the line or in its write-back, or the line is a dead tag that
the read revives, and no change holds its frame (R233, R238, R242). -/
def State.loadable (s : State) (line mask : Nat) : Bool :=
  inWindow (line * 256) ||
    (!s.frameHeld (line / 8192) &&
      ((s.mem.wb.any fun w => w.line == line) ||
        match KMap.find s.mem.lines line with
        | some l => l.dead || l.holds mask
        | none => false))

/-- Whether all that an access needs of a line can be served. -/
def State.loadsNow (s : State) (u : Nat) (a : Access) (line : Nat) : Bool := s.loadable line (s.loadMask u a line)

/-- Asks for the lines that are not there. -/
def State.askLines (s : State) (u : Nat) (a : Access) (ls : List Nat) : State :=
  ls.foldl (fun (s : State) l => if s.loadsNow u a l then s else s.requestFill l) s

/-- A line of a launch in the near cache, made if it is not there. -/
def State.nearAt (s : State) (u l t line : Nat) : NearLine :=
  (s.nearLine u l line).getD { line := line, tenant := t, launch := l, used := 0, g := List.replicate 4 Gran.reset }

def State.nearGet (s : State) (u : Nat) (a : Access) (line : Nat) : NearLine := s.nearAt u a.launch a.tenant line

/-- Fills the sectors of a near-cache line that an access lacks, from its slice. -/
def State.nearFill (s : State) (u : Nat) (a : Access) (line : Nat) : State × NearLine :=
  let n := s.nearGet u a line
  let lack := (upto 0 4).filter fun i =>
    a.lanes.any fun x => x.pa / 256 == line && x.pa / 64 % 4 == i && !s.nearHas u a x.pa
  if lack.isEmpty then (s.count (tumblerUnit u) 5 1, n)
  else
    let s := (s.count (tumblerUnit u) 6 1).readBytes line (s.loadMask u a line) a.tenant (tumblerUnit u) false
    let g := (upto 0 4).map fun i =>
      let x := n.g.getD i Gran.reset
      if lack.contains i then
        let b := s.granAt (line * 256 + 64 * i)
        { held := allHeld, wrote := x.wrote, poison := x.poison || b.poison, data := blend x.held x.data b.data }
      else x
    (s, { n with g := g })

/-- Values and poison of an access's lanes on one line, from its sectors. -/
def laneValues (a : Access) (line : Nat) (gs : List Gran) (vals : KMap Nat) : KMap Nat :=
  (a.lanes.filter fun x => x.pa / 256 == line).foldl
    (fun m x =>
      let g := gs.getD (x.pa / 64 % 4) Gran.reset
      KMap.put m (32 * x.slot + x.lane) (fld g.data (x.pa % 64) a.size)) vals

def lanePoison (a : Access) (line : Nat) (gs : List Gran) : Option AccLane :=
  (a.lanes.filter fun x => x.pa / 256 == line).find? fun x => (gs.getD (x.pa / 64 % 4) Gran.reset).poison

/-- A load's data: line by line, through the near cache or from the slice; poison ends it with 0304h. -/
def State.finishLoad (s : State) (u : Nat) (a : Access) : State :=
  let r := a.lines.foldl
    (fun (r : State × KMap Nat × Option AccLane) line =>
      if a.nc then
        let s := r.1.readBytes line (r.1.loadMask u a line) a.tenant (tumblerUnit u) false
        let gs := (upto 0 4).map fun i => s.granAt (line * 256 + 64 * i)
        (s, laneValues a line gs r.2.1, r.2.2.or (lanePoison a line gs))
      else
        let f := r.1.nearFill u a line
        (f.1.nearPut u f.2, laneValues a line f.2.g r.2.1, r.2.2.or (lanePoison a line f.2.g)))
    (s, [], none)
  match r.2.2 with
  | some x => r.1.failAccess u a 0x304 kindLoad x.va x.pa
  | none => r.1.finishAccess u { a with vals := r.2.1 }

/-- A load whose addresses are translated: served at once by the near cache, or on its way. -/
def State.startLoad (s : State) (u : Nat) (a : Access) : State :=
  let s := if a.nc then a.lines.foldl (fun (s : State) l => s.nearFlush u fun n => n.line == l && n.launch == a.launch) s else s
  match s.needs u a with
  | [] => s.finishLoad u a
  | ls => (s.putAccess u a).askLines u a ls

/-- LOAD_RETURN (R185): the data of the `k`-th access comes back once every line it needs is there. -/
def State.loadReturn (s : State) (u k : Nat) : State :=
  match (s.tumbler u).acc[k]? with
  | none => s
  | some a =>
    if a.kind != .load || !a.walks.isEmpty then s
    else if (s.needs u a).all (s.loadsNow u a) then s.finishLoad u a
    else s.askLines u a (s.needs u a)

def execLoadReturn (u : TumblerId) (k : Nat) (s : State) : Host.Outcome State Fault Refusal := .next (s.loadReturn u k)

/-! ### Stores (R184, R186, R221) -/

/-- A store's lanes on one line in ascending order: mask and bytes. -/
def storeLine (a : Access) (line : Nat) : Nat × List Byte :=
  (a.lanes.filter fun x => x.pa / 256 == line).foldl
    (fun (r : Nat × List Byte) x =>
      (Nat.lor r.1 ((2 ^ a.size - 1) * 2 ^ (x.pa % 256)), patch r.2 (x.pa % 256) (leBytes a.size x.data))) (0, zeros 256)

/-- A store performed: in the near cache, or at the slice for NC. After the launch has left the tumbler (R205) there is no line of it
to hold the bytes, and they go to the slice. -/
def State.doStore (s : State) (u : Nat) (a : Access) : State :=
  a.lines.foldl
    (fun (s : State) line =>
      let m := storeLine a line
      if a.nc || !s.onTumbler u a.launch then
        (s.nearFlush u fun n => n.line == line && n.launch == a.launch).writeLine line m.1 m.2
      else
        let n := s.nearGet u a line
        let s := s.count (tumblerUnit u) (if (s.nearLine u a.launch line).isSome then 5 else 6) 1
        s.nearPut u
          { n with g := (upto 0 4).map fun i =>
              let gm := m.1 / 2 ^ (64 * i) % 2 ^ 64
              let x := n.g.getD i Gran.reset
              if gm = 0 then x else x.write gm ((m.2.drop (64 * i)).take 64) }) s

/-! ### Atomics of tenant memory (R189) -/

/-- The requests of an ATOM: one per line, its lanes in ascending order. -/
def State.sendAtoms (s : State) (u : Nat) (a : Access) : State :=
  a.lines.foldl
    (fun (s : State) line =>
      let s := s.nearFlush u fun n => n.line == line && n.launch == a.launch
      s.sendRed
        { line := line, tenant := a.tenant, code := 0, mask := 0, data := []
          atoms := (a.lanes.filter fun x => x.pa / 256 == line).map fun x =>
            { lane := 32 * x.slot + x.lane, off := x.pa % 256, ty := a.mod / 16 % 4, op := a.mod % 16, operand := x.data, compare := x.compare }
          src := .tumbler u a.id, unit := tumblerUnit u }) s

/-- A slice's answer to an ATOM: its lanes' values, or 0304h. -/
def State.atomAnswer (s : State) (u id : Nat) (code : Nat) (values : List (Nat × Nat)) : State :=
  match (s.tumbler u).acc.find? fun a => a.id == id with
  | none => s
  | some a =>
    if code ≠ 0 then
      let x := a.lanes.headD { slot := 0, lane := 0, va := 0, pa := 0, data := 0, compare := 0 }
      s.failAccess u a code kindAtomic x.va x.pa
    else
      let a := { a with vals := values.foldl (fun m v => KMap.put m v.1 v.2) a.vals, left := a.left - 1 }
      if a.left = 0 then s.finishAccess u a else s.putAccess u a

/-! ### Translation of an access (R184, R211, R214) -/

/-- What translating an access's lanes gives. -/
inductive Resolved where
  | ok (lanes : List AccLane)
  /-- pages that the cache lacks -/
  | missing (pages : List Nat)
  | fault (code va pa : Nat)
  deriving DecidableEq, Repr

/-- The lanes of an access through the tumbler's translation cache. -/
def State.resolve (s : State) (u t : Nat) (write : Bool) (lanes : List AccLane) : Resolved :=
  let unit := tumblerUnit u
  let missing := (lanes.filter fun x => (s.tlbFind unit t x.va).isNone).foldl (fun ps x => insertUp (x.va / 2 ^ 21) ps) []
  if !missing.isEmpty then .missing missing
  else
    lanes.foldr
      (fun x r =>
        match s.tlbFind unit t x.va with
        | none => .missing [x.va / 2 ^ 21]
        | some e =>
          match s.accessFault e x.va write false, r with
          | .fault c pa, _ => .fault c x.va pa
          | .pa pa, .ok xs => .ok ({ x with pa := pa } :: xs)
          | .pa _, r => r) (.ok [])

/-- An access goes as far as its translations allow. -/
def State.runAccess (s : State) (u : Nat) (a : Access) : State :=
  match s.resolve u a.tenant (a.kind != .load) a.lanes with
  | .missing ps => s.putAccess u { a with walks := ps }
  | .fault c va pa => s.failAccess u a c a.kind.fault va pa
  | .ok lanes =>
    let a := { a with lanes := lanes, walks := [] }
    match a.kind with
    | .load => s.startLoad u a
    | .store => (((s.putAccess u a).doStore u a).dropAccess u a.id).releaseBars u a.launch
    | .atomic =>
      let a := { a with left := a.lines.length }
      (s.putAccess u a).sendAtoms u a
    | .remote => s
    | .remoteStore => s

/-- The walks that run, over all tumblers: tumbler, access and page. -/
def State.allWalks (s : State) : List (Nat × Access × Nat) :=
  (s.tum.map fun x => (x.2.acc.map fun a => a.walks.map fun p => (x.1, a, p)).flatten).flatten

/-- The entry that a walk reads last. -/
def State.walkEnd (s : State) (t va : Nat) : Nat :=
  let e1 := leNat (s.read (rootOf t + 8 * (va / 2 ^ 30)) 8)
  if level1Ok e1 && !bit e1 1 then bits e1 47 12 * 4096 + 8 * (va / 2 ^ 21 % 512) else rootOf t + 8 * (va / 2 ^ 30)

/-- A walk of page `p` at address `va` ends; what a controller finds on an entry that the store does not hold stands. -/
def State.walkDone (s : State) (u : Nat) (a : Access) (p va : Nat) (f : Finding) : State :=
  let e := s.walkEnd a.tenant va
  let s := if (KMap.find s.mem.lines (e / 256)).isNone then s.find (e / 64) f else s
  match s.walk a.tenant va with
  | .fault c pa =>
    s.failAccess u a c (if c = 0x304 then kindWalk else a.kind.fault)
      (((a.lanes.find? fun x => x.va / 2 ^ 21 == p).map (·.va)).getD va) pa
  | .entry e =>
    let s := s.tlbPut (tumblerUnit u) tlbTumbler e
    let a := { a with walks := a.walks.filter fun q => q != p }
    if a.walks.isEmpty then s.runAccess u a else s.putAccess u a

/-- TABLE_WALK_END (R214, R218): the `k`-th walk ends. -/
def State.tableWalkEnd (s : State) (k : Nat) (f : Finding) : State :=
  match s.allWalks[k]? with
  | none => s
  | some x => s.walkDone x.1 x.2.1 x.2.2 (x.2.2 * 2 ^ 21) f

def execTableWalkEnd (k : Nat) (f : Finding) (s : State) : Host.Outcome State Fault Refusal := .next (s.tableWalkEnd k f)

/-! ### Issue of tenant-memory accesses -/

/-- The executing lanes of an access in ascending column order, with addresses and operands of `k` registers. -/
def State.accLanes (s : State) (c : Ctx) (off : Int) (k : Nat) : List AccLane :=
  let xs := c.lanes.filterMap fun x => (s.group? c.u x.1).map fun y =>
    ({ slot := x.1, lane := x.2, va := unsigned 64 ((c.srcPair 0 y x.2 : Int) + off), pa := 0
       data := y.wide c.l.regs c.w.sb.toNat k x.2, compare := y.wide c.l.regs c.w.sc.toNat k x.2 } : AccLane)
  xs.foldl (fun ys a => put a ys) []
where
  put (a : AccLane) : List AccLane → List AccLane
    | [] => [a]
    | b :: bs => if a.lane < b.lane then a :: b :: bs else b :: put a bs

/-- Whether the group's accesses on their way let one to these lanes start: none awaits its translation, and none is to the same line,
so that accesses to one granule keep program order (R221, R226). -/
def State.clear (s : State) (c : Ctx) (lanes : List AccLane) : Bool :=
  (s.tumbler c.u).acc.all fun a =>
    a.kind.isRemote || a.launch != c.l.id || !(a.lanes.any fun x => c.ms.any fun m => m.slot == x.slot) ||
      (a.walks.isEmpty && !(a.lanes.any fun x => lanes.any fun y => x.va / 256 == y.va / 256))

/-- Starts an access: misaligned lanes end it with 0305h. -/
def State.access (s : State) (c : Ctx) (kind : AccessKind) (nc : Bool) (size : Nat) (lanes : List AccLane) : State :=
  match lanes.find? fun x => x.va % size != 0 with
  | some x => s.tumMemFault c.u c.l.id c.l.tenant 0x305 kind.fault x.va 0
  | none =>
    let a : Access :=
      { id := (s.tumbler c.u).nextAcc, kind := kind, launch := c.l.id, tenant := c.l.tenant, nc := nc, size := size, dst := c.w.dst.toNat
        lanes := lanes, mod := c.w.mod.toNat, walks := [], left := 0, vals := [] }
    let s := s.modTumbler c.u fun x => { x with acc := x.acc ++ [a], nextAcc := x.nextAcc + 1 }
    (s.await c.u a true).runAccess c.u a

def State.tenantOp (s : State) (u g : Nat) (w : IWord) (store : Bool) : State :=
  let k := memRegs (memSize w)
  let form : Form := if store then { srcs := [(0, w.sa.toNat, 2), (1, w.sb.toNat, k)], dst := [] }
    else { srcs := [(0, w.sa.toNat, 2)], dst := [(w.dst.toNat, k)] }
  s.issue u g w form (fun s c => s.clear c (s.accLanes c (memOffset w) k)) fun s c =>
    s.legal c (memLegal w true) fun s =>
      s.access c (if store then .store else .load) (w.mod.toNat.testBit 3) (memSize w) (s.accLanes c (memOffset w) k)

def execLd (u : TumblerId) (g : SlotId) (w : IWord) (s : State) : Host.Outcome State Fault Refusal := .next (s.tenantOp u g w false)
def execSt (u : TumblerId) (g : SlotId) (w : IWord) (s : State) : Host.Outcome State Fault Refusal := .next (s.tenantOp u g w true)

/-- A tenant-memory ATOM (R189). -/
def State.tenantAtom (s : State) (c : Ctx) : State :=
  s.access c .atomic true (4 * atomRegs c.w) (s.accLanes c 0 (atomRegs c.w))

/-! ### Fences (R227) -/

/-- Whether the accesses of the members' groups are performed, and, for a system fence, their remote accesses acknowledged. -/
def State.quiet (s : State) (c : Ctx) (remote : Bool) : Bool :=
  (s.tumbler c.u).acc.all fun a =>
    (a.kind.isRemote && !remote) || a.launch != c.l.id || !(a.lanes.any fun x => c.ms.any fun m => m.slot == x.slot)

/-- NOP by MOD 2:0: 0 a plain no-operation, 1 to 4 the fences. -/
def State.nopOp (s : State) (u g : Nat) (w : IWord) (code : Nat) : State :=
  let good := fun (c : Ctx) => w.mod.toNat < 8 && decide (code ≤ 4) && (decide (code < 3) || c.l.system)
  s.issue u g w { srcs := [], dst := [] } (fun s c => !good c || !c.any || code == 0 || s.quiet c (code == 4)) fun s c =>
    s.legal c (good c) fun s => if 3 ≤ code then s.nearFlush u fun n => n.launch == c.l.id else s

def execNop (u : TumblerId) (g : SlotId) (w : IWord) (s : State) : Host.Outcome State Fault Refusal :=
  .next (s.nopOp u g w (w.mod.toNat % 8))
def execFenceGroup (u : TumblerId) (g : SlotId) (w : IWord) (s : State) : Host.Outcome State Fault Refusal := .next (s.nopOp u g w 1)
def execFenceBlock (u : TumblerId) (g : SlotId) (w : IWord) (s : State) : Host.Outcome State Fault Refusal := .next (s.nopOp u g w 2)
def execFenceDevice (u : TumblerId) (g : SlotId) (w : IWord) (s : State) : Host.Outcome State Fault Refusal := .next (s.nopOp u g w 3)
def execFenceSystem (u : TumblerId) (g : SlotId) (w : IWord) (s : State) : Host.Outcome State Fault Refusal := .next (s.nopOp u g w 4)

end Sys2Proof.Machine
end

