-- ==== Sys2Proof/Machine/TumCtl.lean ====
section
/-! DEFINITION. Tumbler control flow, barriers and tokens (Tumbler cores and thread groups, R180, R191 to R198). -/

namespace Sys2Proof.Machine

/-! ### Branches (R180, R181) -/

/-- A fragment split: the lanes that stay first, then those that move. -/
def splitFrag (i : Nat) (stay move : Frag) : List Frag → List Frag
  | [] => []
  | f :: fs => match i with | 0 => stay :: move :: fs | j + 1 => f :: splitFrag j stay move fs

/-- Moves a whole fragment. -/
def Group.jump (x : Group) (i pc : Nat) : Group := x.modFrag i fun f => { f with pc := pc % 2 ^ 64, waited := false }

/-- A divergent BRA in one fragment: the not-taken lanes run first, inside the pushed reconvergence point. -/
def Group.diverge (x : Group) (m : Member) (target point : Nat) : Group :=
  match x.frags[m.i]? with
  | none => x
  | some f =>
    let e := x.nextEntry
    let stay : Frag := { f with mask := maskDiff f.mask m.on, path := e :: f.path, gathered := none, waited := false }
    let move : Frag := { stay with mask := m.on, pc := target % 2 ^ 64 }
    { x with frags := splitFrag m.i stay move x.frags, stack := KMap.put x.stack e (point % 2 ^ 64), nextEntry := e + 1 }

/-- A constituent's branch. -/
def State.branch (s : State) (c : Ctx) (pc : Nat) (m : Member) : State :=
  let target := unsigned 64 ((pc : Int) + 8 * signed 16 c.w.mod.toNat)
  let point := pc + 8 * (c.w.sb.toNat + 256 * c.w.sc.toNat)
  match s.group? c.u m.slot with
  | none => s
  | some x =>
    if m.on = 0 then s
    else if m.on = m.act then s.setGroup c.u m.slot (x.jump m.i target)
    else if 32 ≤ x.stack.length then s.tumFault c.u c.l.id 0x124
    else s.setGroup c.u m.slot (x.diverge m target point)

/-- BRA: one that diverges across a gathered group splits it. -/
def State.braOp (s : State) (u g : Nat) (w : IWord) : State :=
  s.issue u g w { srcs := [], dst := [] } always fun s c =>
    let pc := unsigned 64 ((s.pcOf' u c.ms : Int) - 8)
    let same := c.ms.all (fun m => m.on == 0) || c.ms.all fun m => m.on == m.act
    let s := if same then s else s.split u c.ms
    c.ms.foldl (fun (s : State) m => s.branch c pc m) s

def execBra (u : TumblerId) (g : SlotId) (w : IWord) (s : State) : Host.Outcome State Fault Refusal := .next (s.braOp u g w)

/-- CALL and RET: the spec says that they call and return, and gives neither a target nor where the return address is kept: the
executing lanes go on at a free instruction address. -/
def State.callOp (s : State) (u g : Nat) (w : IWord) : State :=
  s.issue u g w { srcs := [], dst := [] } always fun s c =>
    let pc := 8 * s.draw % 2 ^ 64
    let s := (if c.ms.all fun m => m.on == m.act then s else s.split u c.ms).drawn
    s.eachMember c fun m x =>
      if m.on = 0 then x
      else if m.on = m.act then x.jump m.i pc
      else
        match x.frags[m.i]? with
        | none => x
        | some f =>
          { x with frags := splitFrag m.i { f with mask := maskDiff f.mask m.on } { f with mask := m.on, pc := pc } x.frags }

def execCall (u : TumblerId) (g : SlotId) (w : IWord) (s : State) : Host.Outcome State Fault Refusal := .next (s.callOp u g w)
def execRet (u : TumblerId) (g : SlotId) (w : IWord) (s : State) : Host.Outcome State Fault Refusal := .next (s.callOp u g w)

/-! ### EXIT (R177, R180, R198) -/

/-- A group whose every lane has exited leaves its slot, and a block without groups leaves the tumbler. -/
def State.endGroup (s : State) (u slot : Nat) : State :=
  match s.group? u slot with
  | none => s
  | some x =>
    if x.live ≠ 0 then s
    else
      let s := s.modTumbler u fun y => { y with groups := KMap.del y.groups slot }
      if (s.blockSlots u x.launch x.block).isEmpty then
        let s := s.modTumbler u fun y => { y with blocks := y.blocks.filter fun b => !(b.launch == x.launch && b.num == x.block) }
        (s.modLaunch x.launch fun l => { l with ended := l.ended + 1 }).leaveTumbler u x.launch
      else s

def State.exitOp (s : State) (u g : Nat) (w : IWord) : State :=
  s.issue u g w { srcs := [], dst := [] } always fun s c =>
    s.legal c (w.mod == 0) fun s =>
      let s := s.split u c.ms
      let s := s.eachMember c fun m x =>
        { x.modFrag m.i (fun f => { f with mask := maskDiff f.mask m.on }) with live := maskDiff x.live m.on }
      let s := c.ms.foldl (fun (s : State) m => (s.modGroup u m.slot Group.settle).endGroup u m.slot) s
      s.releaseBars u c.l.id

def execExit (u : TumblerId) (g : SlotId) (w : IWord) (s : State) : Host.Outcome State Fault Refusal := .next (s.exitOp u g w)

/-! ### Barriers (R191 to R194) -/

/-- The executing constituents wait, and what can be released is. -/
def State.barWait (s : State) (c : Ctx) (st : Member → Group → FragSt) : State :=
  let s := s.split c.u c.ms
  let s := s.eachMember c fun m x =>
    if m.on = 0 then x else { x.modFrag m.i (fun f => { f with st := st m x }) with cache := [] }
  s.releaseBars c.u c.l.id

def State.bargOp (s : State) (u g : Nat) (w : IWord) : State :=
  s.issue u g w { srcs := [], dst := [] } always fun s c =>
    s.legal c (w.mod == 0) fun s => s.barWait c fun m _ => .barg m.on

def execBarg (u : TumblerId) (g : SlotId) (w : IWord) (s : State) : Host.Outcome State Fault Refusal := .next (s.bargOp u g w)

/-- The instances that a constituent's lanes arrive at: mask and lanes. -/
def Ctx.barInsts (c : Ctx) (m : Member) (x : Group) : List (Nat × Nat) :=
  (lanesOf m.on).foldl
    (fun is l =>
      let k := c.src 0 x l
      if is.any fun i => i.1 == k then is.map fun i => if i.1 = k then (k, Nat.lor i.2 (2 ^ l)) else i else is ++ [(k, 2 ^ l)]) []

/-- Whether BARM's masks break R193: a lane outside its mask, or two different masks with a lane in common. -/
def barBad (x : Group) (is : List (Nat × Nat)) : Bool :=
  let old := x.barMasks
  is.any fun i => !maskIn i.2 i.1 || (old ++ is.map (·.1)).any fun m => m != i.1 && Nat.land m i.1 != 0

def State.barmOp (s : State) (u g : Nat) (w : IWord) : State :=
  s.issue u g w { srcs := [(0, w.sa.toNat, 1)], dst := [] } always fun s c =>
    s.legal c (w.mod == 0) fun s =>
      if c.ms.any fun m => ((s.group? u m.slot).map fun x => barBad x (c.barInsts m x)).getD false then s.tumFault u c.l.id 0x510
      else s.barWait c fun m x => .barm (c.barInsts m x)

def execBarm (u : TumblerId) (g : SlotId) (w : IWord) (s : State) : Host.Outcome State Fault Refusal := .next (s.barmOp u g w)

def State.barbOp (s : State) (u g : Nat) (w : IWord) : State :=
  s.issue u g w { srcs := [], dst := [] } always fun s c =>
    s.legal c (decide (w.mod.toNat < 16)) fun s => s.barWait c fun m _ => .barb w.mod.toNat m.on

def execBarb (u : TumblerId) (g : SlotId) (w : IWord) (s : State) : Host.Outcome State Fault Refusal := .next (s.barbOp u g w)

/-- A group's barrier instances on which lanes wait: 1 for BARG, one for each mask of BARM and each barrier of BARB. -/
def Group.instances (x : Group) : Nat :=
  b2n (x.atBarg != 0) + x.barMasks.length + ((upto 0 16).filter fun k => x.atBarb k != 0).length

/-- BARRIER_WATCHDOG_EXPIRY (R192): the `k`-th instance that waits on the tumbler, group by group, ends its launch with 0503h. -/
def State.barExpiry (s : State) (u k : Nat) : State :=
  let all := ((s.tumbler u).groups.map fun g => List.replicate g.2.instances g.2.launch).flatten
  match all[k]? with
  | some l => s.tumFault u l 0x503
  | none => s

def execBarrierWatchdogExpiry (u : TumblerId) (k : Nat) (s : State) : Host.Outcome State Fault Refusal := .next (s.barExpiry u k)

/-- REPACK_WAIT_EXPIRY (R181): the fragment issues alone; partners that had arrived have merged with it already. -/
def State.repackExpiry (s : State) (u g : Nat) : State :=
  s.modGroup u g fun x => { x with frags := x.frags.map fun f => if f.st = .repack then { f with st := .ready, waited := true } else f }

def execRepackWaitExpiry (u : TumblerId) (g : SlotId) (s : State) : Host.Outcome State Fault Refusal := .next (s.repackExpiry u g)

/-! ### Engine issue (R195, R196, R222) -/

/-- Whether the issuing groups have no NC store and no ATOM on its way. -/
def State.settled (s : State) (c : Ctx) : Bool :=
  (s.tumbler c.u).acc.all fun a =>
    !(a.kind == .atomic || (a.kind == .store && a.nc)) || !(a.lanes.any fun x => c.ms.any fun m => m.slot == x.slot)

/-- A constituent's issue: its descriptor leaves on the command tree, and its DST pair is awaited. -/
def State.issueOne (s : State) (c : Ctx) (row : Bool) (m : Member) : State :=
  match m.issuing, s.group? c.u m.slot with
  | some l, some x =>
    let a := c.src 0 x l
    if a % 128 != 0 || decide (c.l.lmem < a + 128) then s.tumFault c.u c.l.id 0x121
    else
      let desc := s.localBytes c.u m.slot a 128
      let d := c.w.dst.toNat
      let s := s.setGroup c.u m.slot { x with busy := d :: (d + 1) :: x.busy }
      if row then s.send (spindleUnit 0) (.rowIssue c.u m.slot l d c.l.tenant c.l.id desc)
      else s.send arrayUnit (.arrIssue c.u m.slot l d c.l.tenant c.l.id desc)
  | _, _ => s

def State.engineOp (s : State) (u g : Nat) (w : IWord) (row : Bool) : State :=
  s.issue u g w { srcs := [(0, w.sa.toNat, 1)], dst := [(w.dst.toNat, 2)] } State.settled fun s c =>
    s.legal c (w.mod == 0) fun s => c.ms.foldl (fun (s : State) m => s.issueOne c row m) s

def execAissue (u : TumblerId) (g : SlotId) (w : IWord) (s : State) : Host.Outcome State Fault Refusal :=
  .next (s.engineOp u g w false)
def execRissue (u : TumblerId) (g : SlotId) (w : IWord) (s : State) : Host.Outcome State Fault Refusal :=
  .next (s.engineOp u g w true)

/-! ### Tokens (R197, R198) -/

/-- What a token names on a tumbler: its slot and entry, unless it is stale. -/
def State.tokenAt (s : State) (u tok : Nat) : Option (Nat × Token) :=
  let slot := bits tok 53 48
  if !bit tok 63 then none
  else
    match KMap.find (s.tumbler u).tokens slot with
    | some k => if k.tenant = bits tok 62 54 ∧ k.seq % 2 ^ 48 = bits tok 47 0 then some (slot, k) else none
    | none => none

def State.freeSlot (s : State) (u slot : Nat) : State := s.modTumbler u fun x => { x with tokens := KMap.del x.tokens slot }

/-- Writes a register of some lanes of a group. -/
def State.writeLanes (s : State) (u g lim dst lanes : Nat) (f : Nat → Nat) : State :=
  s.modGroup u g fun x => (lanesOf lanes).foldl (fun (y : Group) l => y.setLane lim dst l (f l)) x

/-- The waits of a group on a token slot: result register and lanes. -/
def Group.tokenWaits (x : Group) (slot : Nat) : List (Nat × Nat) :=
  x.frags.filterMap fun f => match f.st with | .twait d k lanes => if k = slot then some (d, lanes) else none | _ => none

/-- A group in which what waits on a token slot has received its status and goes on. -/
def Group.wake (x : Group) (lim slot status : Nat) : Group :=
  let y := (x.tokenWaits slot).foldl
    (fun (y : Group) w => (lanesOf w.2).foldl (fun (y : Group) l => y.setLane lim w.1 l (status % 2 ^ 16)) y) x
  { y with
    frags := y.frags.map fun f => match f.st with | .twait _ k _ => if k = slot then { f with st := .ready } else f | _ => f }

/-- The groups of a tumbler, those of pre-empted blocks among them (R208). -/
def Tumbler.everyGroup (x : Tumbler) : List Group :=
  x.groups.map (·.2) ++ (x.blocks.map fun b => b.saved.getD []).flatten

/-- Releases every waiter on a token slot with a status, those of pre-empted blocks too (R197, R208); whether there was one. -/
def State.releaseToken (s : State) (u slot status : Nat) : State × Bool :=
  let go := fun (x : Group) => if (x.tokenWaits slot).isEmpty then x else x.wake (s.regLimit x.launch) slot status
  (s.modTumbler u fun y =>
    { y with
      groups := y.groups.map fun g => (g.1, go g.2)
      blocks := y.blocks.map fun b => { b with saved := b.saved.map fun gs => gs.map go } },
   (s.tumbler u).everyGroup.any fun x => !(x.tokenWaits slot).isEmpty)

/-- TWAIT of one constituent: a stale token gives 010Ch, an ended operation its status and frees the slot; an unfinished one makes the
fragment wait, or with POLL gives bit 31, the bits below it unstated. -/
def State.twaitOne (s : State) (c : Ctx) (m : Member) : State :=
  match m.issuing, s.group? c.u m.slot with
  | some l, some x =>
    let d := c.w.dst.toNat
    let put := fun (s : State) (f : Nat → Nat) => s.writeLanes c.u m.slot c.l.regs d m.on f
    match s.tokenAt c.u (c.srcPair 0 x l) with
    | none => put s fun _ => 0x10C
    | some (slot, k) =>
      match k.status with
      | some st => (put s fun _ => st % 2 ^ 16).freeSlot c.u slot
      | none =>
        if c.w.mod.toNat = 1 then
          let v := s.draw
          (put s fun l => 2 ^ 31 + freeLane v m.slot l 31).drawn
        else
          s.setGroup c.u m.slot { x.modFrag m.i (fun f => { f with st := .twait d slot m.on, gathered := none }) with cache := [] }
  | _, _ => s

def State.twaitOp (s : State) (u g : Nat) (w : IWord) : State :=
  s.issue u g w { srcs := [(0, w.sa.toNat, 2)], dst := [(w.dst.toNat, 1)] } always fun s c =>
    s.legal c (decide (w.mod.toNat ≤ 1)) fun s => c.ms.foldl (fun (s : State) m => s.twaitOne c m) s

def execTwait (u : TumblerId) (g : SlotId) (w : IWord) (s : State) : Host.Outcome State Fault Refusal := .next (s.twaitOp u g w)

/-- TOKEN_COMPLETION (R197, R198): the message that stands first behind the markers reaches the tumbler; waiters are released, and the slot is freed when
one was, or when the launch has left. -/
def State.tokenCompletion (s : State) (u : Nat) : State :=
  let s := s.passMarkers (tumblerUnit u)
  match s.inbox (tumblerUnit u) with
  | .tokenDone slot q status :: _ =>
    let s := s.popMsg (tumblerUnit u)
    match KMap.find (s.tumbler u).tokens slot with
    | none => s
    | some k =>
      if k.seq ≠ q then s
      else
        let s := s.modTumbler u fun x => { x with tokens := KMap.put x.tokens slot { k with status := some status } }
        match s.releaseToken u slot status with
        | (s, woke) => if woke || !s.onTumbler u k.launch then s.freeSlot u slot else s
  | _ => s

def execTokenCompletion (u : TumblerId) (s : State) : Host.Outcome State Fault Refusal := .next (s.tokenCompletion u)

end Sys2Proof.Machine
end

