-- ==== Sys2Proof/Machine/TumData.lean ====
section
/-! DEFINITION. Tumbler conversion, block quantisation, random draws and step poison (Tumbler cores and thread groups, R199 to R204). -/

namespace Sys2Proof.Machine

/-! ### Draws -/

/-- The key of a tenant's stream. -/
def State.streamKey (s : State) (t i : Nat) : Nat := (s.tenant t).step.key i

/-- RAND of one constituent. -/
def State.randOne (s : State) (c : Ctx) (m : Member) : State :=
  match m.issuing, s.group? c.u m.slot with
  | some l, some x =>
    let i := c.src 0 x l
    if 4095 < i then s.tumFault c.u c.l.id 0x120
    else
      let two := c.w.mod.toNat = 1
      let key := s.streamKey c.l.tenant i
      match s.claim c.l.tenant i (if two then 64 else 32) with
      | (s, c0) =>
        s.modGroup c.u m.slot fun y => (lanesOf m.on).foldl
          (fun (y : Group) l =>
            if two then
              y.setPair c.l.regs c.w.dst.toNat l (drawAt key (c0 + 2 * l) + 2 ^ 32 * drawAt key (c0 + 2 * l + 1))
            else y.setLane c.l.regs c.w.dst.toNat l (drawAt key (c0 + l))) y
  | _, _ => s

def State.randOp (s : State) (u g : Nat) (w : IWord) : State :=
  s.issue u g w { srcs := [(0, w.sa.toNat, 1)], dst := [(w.dst.toNat, if w.mod.toNat = 1 then 2 else 1)] } always fun s c =>
    s.legal c (decide (w.mod.toNat ≤ 1)) fun s => c.ms.foldl (fun (s : State) m => s.randOne c m) s

def execRand (u : TumblerId) (g : SlotId) (w : IWord) (s : State) : Host.Outcome State Fault Refusal := .next (s.randOp u g w)

/-! ### CVT (R199) -/

def cvtDst (w : IWord) : Nat := bits w.mod.toNat 15 12
def cvtSrc (w : IWord) : Nat := bits w.mod.toNat 11 8
def cvtRound (w : IWord) : Nat := bits w.mod.toNat 7 6

/-- Whether CVT's MOD names one of R199's conversions. -/
def cvtLegal (w : IWord) : Bool :=
  w.mod.toNat % 32 == 0 && cvtRound w != 3 && decide (cvtDst w ≤ 5) && decide (cvtSrc w ≤ 5) &&
    ((cvtDst w == 0) != (cvtSrc w == 0))

/-- A lane's conversion: the result's code. -/
def cvtCode (w : IWord) (m : RMode) (v : Nat) : Nat :=
  plainCode (cvtDst w) m (w.mod.toNat.testBit 5) (plainValue (cvtSrc w) (v % 2 ^ fmtBits (cvtSrc w)))

/-- The rounding mode of a ROUND field, with the draw of the stochastic one. -/
def roundMode (r draw : Nat) : RMode := if r = 1 then .stochastic draw else if r = 2 then .zero else .nearest

/-- A narrow code in the low bits of a register; the spec states none above it, and they are free. -/
def lowBits (b d slot l v : Nat) : Nat := if b < 32 then v + 2 ^ b * freeLane d slot l (32 - b) else v

/-- CVT of one constituent; with stochastic rounding it claims 32 draws, and lane `l` takes the `l`-th. -/
def State.cvtOne (s : State) (c : Ctx) (m : Member) : State :=
  match m.issuing, s.group? c.u m.slot with
  | some l, some x =>
    let i := c.src 1 x l
    let some' := cvtRound c.w == 1
    if some' && decide (4095 < i) then s.tumFault c.u c.l.id 0x120
    else
      let key := s.streamKey c.l.tenant i
      match if some' then s.claim c.l.tenant i 32 else (s, 0) with
      | (s, c0) =>
        let d := s.draw
        (s.modGroup c.u m.slot fun y => (lanesOf m.on).foldl
          (fun (y : Group) l => y.setLane c.l.regs c.w.dst.toNat l
            (lowBits (fmtBits (cvtDst c.w)) d m.slot l
              (cvtCode c.w (roundMode (cvtRound c.w) (drawAt key (c0 + l))) (c.src 0 x l)))) y).drawn
  | _, _ => s

def State.cvtOp (s : State) (u g : Nat) (w : IWord) : State :=
  let form := if cvtRound w = 1 then formOf w 2 1 else formOf w 1 1
  s.issue u g w form always fun s c =>
    s.legal c (cvtLegal w) fun s => c.ms.foldl (fun (s : State) m => s.cvtOne c m) s

def execCvt (u : TumblerId) (g : SlotId) (w : IWord) (s : State) : Host.Outcome State Fault Refusal := .next (s.cvtOp u g w)

/-! ### Byte spans through the near cache and at the slices, for QBLK -/

/-- What a part of QBLK comes to: the state, and a memory fault's code, kind and addresses. -/
abbrev Part2 (α : Type) := State × Except (Nat × Nat × Nat × Nat) α

/-- A granule through the near cache, its sector filled. -/
def State.nearGran (s : State) (u l t g : Nat) : State × Gran :=
  let n := s.nearAt u l t (g / 4)
  let x := n.g.getD (g % 4) Gran.reset
  if x.full then (s.count (tumblerUnit u) 5 1, x)
  else
    let s := (s.count (tumblerUnit u) 6 1).readBytes (g / 4) (allHeld * 2 ^ (64 * (g % 4))) t (tumblerUnit u) false
    let b := s.granAt (64 * g)
    let y : Gran := { held := allHeld, wrote := x.wrote, poison := x.poison || b.poison, data := blend x.held x.data b.data }
    (s.nearPut u { n with g := setAt n.g (g % 4) y }, y)

/-- Bytes at a physical address through the near cache, and whether a sector is poisoned. -/
def State.nearBytes (s : State) (u l t a n : Nat) : State × List Byte × Bool :=
  let r := (granSpan a n).foldl
    (fun (r : State × List Byte × Bool) g =>
      match r.1.nearGran u l t g with
      | (s, x) => (s, r.2.1 ++ x.data, r.2.2 || x.poison)) (s, [], false)
  (r.1, (r.2.1.drop (a % 64)).take n, r.2.2)

/-- Bytes written at a physical address in the near cache. -/
def State.nearWrite (s : State) (u l t a : Nat) (bs : List Byte) : State :=
  (granSpan a bs.length).foldl
    (fun (s : State) g =>
      let lo := max a (64 * g)
      let k := min (a + bs.length) (64 * g + 64) - lo
      let o := lo - 64 * g
      let n := s.nearAt u l t (g / 4)
      let x := (n.g.getD (g % 4) Gran.reset).write ((2 ^ k - 1) * 2 ^ o)
        (zeros o ++ (bs.drop (lo - a)).take k ++ zeros (64 - o - k))
      s.nearPut u { n with g := setAt n.g (g % 4) x }) s

/-- QBLK reads a span of its tenant's space as a load does. -/
def State.spanLoad (s : State) (u : Nat) (l : Launch) (va n : Nat) : Part2 (List Byte) :=
  match s.translateSpan (tumblerUnit u) tlbTumbler l.tenant va n false with
  | (s, .fault c a pa) => (s, .error (c, kindLoad, a, pa))
  | (s, .ok ps) =>
    let r := ps.foldl
      (fun (r : State × List Byte × Bool) p =>
        match r.1.nearBytes u l.id l.tenant p.1 p.2 with
        | (s, bs, bad) => (s, r.2.1 ++ bs, r.2.2 || bad)) (s, [], false)
    if r.2.2 then (r.1, .error (0x304, kindLoad, va, (ps.headD (0, 0)).1)) else (r.1, .ok r.2.1)

/-- QBLK writes a span of its tenant's space as a store does. -/
def State.spanStore (s : State) (u : Nat) (l : Launch) (va : Nat) (bs : List Byte) : Part2 Unit :=
  match s.translateSpan (tumblerUnit u) tlbTumbler l.tenant va bs.length true with
  | (s, .fault c a pa) => (s, .error (c, kindStore, a, pa))
  | (s, .ok ps) =>
    (ps.foldl
      (fun (r : State × List Byte) p => (r.1.nearWrite u l.id l.tenant p.1 (r.2.take p.2), r.2.drop p.2)) (s, bs) |>.1, .ok ())

/-- QBLK changes a field of `n` bytes at its slice in one access, the near cache's line written back first (R189): what stood there. -/
def State.fieldAtomic (s : State) (u : Nat) (l : Launch) (va n : Nat) (f : Nat → Nat) : Part2 Nat :=
  match s.translateSpan (tumblerUnit u) tlbTumbler l.tenant va n true with
  | (s, .fault c a pa) => (s, .error (c, kindAtomic, a, pa))
  | (s, .ok ps) =>
    let s := ps.foldl
      (fun (s : State) p => s.nearFlush u fun x => x.launch == l.id && (lineSpan p.1 p.2).contains x.line) s
    if s.spansPoisoned ps then (s, .error (0x304, kindAtomic, va, (ps.headD (0, 0)).1))
    else
      let old := leNat (s.readSpans ps)
      ((s.touchSpans ps l.tenant (tumblerUnit u) false).writeSpans ps (leBytes n (f old)), .ok old)

/-- One part after another. -/
def Part2.andThen {α β : Type} (r : Part2 α) (f : State → α → Part2 β) : Part2 β :=
  match r with
  | (s, .error e) => (s, .error e)
  | (s, .ok a) => f s a

/-! ### QBLK (R200 to R202) -/

/-- QBLK's format, and whether it decodes. -/
def qFmt (w : IWord) : Nat := w.mod.toNat % 16
def qDecode (w : IWord) : Bool := w.mod.toNat.testBit 4
def qLegal (w : IWord) : Bool := decide (w.mod.toNat < 32) && (qFmt w == 6 || qFmt w == 7)

/-- A context's fields. -/
def qMeta (x : List Byte) : Nat := fld x 0 8
def qWord (x : List Byte) : Nat := fld x 8 8
def qEntry (x : List Byte) : Nat := fld x 0x10 8
def qTile (x : List Byte) : Nat := fld x 0x18 4
def qStream (x : List Byte) : Nat := fld x 0x24 2
def qRound (x : List Byte) : Nat := fld x 0x26 1

/-- Bytes of a block word and of an escape entry. -/
def qWordBytes (fmt : Nat) : Nat := if fmt = 6 then 2 else 4
def qEntryBytes (fmt : Nat) : Nat := if fmt = 6 then 48 else 32

/-- The block that the lanes hold: SA times the reciprocal of T, both in FP32; an inactive lane holds 0. -/
def qValues (c : Ctx) (m : Member) (x : Group) (tile : Nat) : List Fp :=
  let r := f32div 0x3F800000 tile
  (upto 0 32).map fun k => if bit m.on k then f32 (f32mul (c.src 0 x k) r) else .fin false 0 0

/-- The block as quantised. -/
def qBlock (fmt round : Nat) (draw : Nat → Nat) (limit : Nat) (room : Bool) (junk : Nat) (vs : List Fp) : QBlock :=
  let mode := fun k => roundMode round (draw k)
  let esc := fun k => roundMode round (draw (32 + k))
  if fmt = 6 then quantHN4 mode esc limit room junk vs else quantT2Esc mode esc limit room junk vs
where
  /-- T2 with the escape entry's own draws -/
  quantT2Esc (mode esc : Nat → RMode) (limit : Nat) (room : Bool) (junk : Nat) (vs : List Fp) : QBlock :=
    let q := quantT2 mode limit room junk vs
    match q.entry with
    | none => q
    | some _ => let b := hnPlain esc vs; { q with entry := some (b.word, b.codes) }

/-- The largest finite magnitude of the values that a block describes, as an FP32 word. -/
def qAmax (fmt tile : Nat) (b : QBlock) : Nat :=
  (upto 0 32).foldl
    (fun m k =>
      let v := decodedWord (blockValue fmt (f32 tile) b.word b.entry k (b.codes.getD k 0))
      if f32bad v then m else Fmt.maxOf .fp32 m (v % 2 ^ 31)) 0

/-- Writes the entry of an escaped block: the count claims its index. -/
def State.qEscape (s : State) (u : Nat) (l : Launch) (x hd : List Byte) (fmt : Nat) (e : Nat × List Nat) : Part2 Unit :=
  (s.fieldAtomic u l (qMeta x + 8) 4 fun n => (n + 1) % 2 ^ 32).andThen fun s i =>
    s.spanStore u l ((qMeta x + fld hd 0x10 8 + i * qEntryBytes fmt) % 2 ^ 64) (entryOf fmt (fld x 0x1C 4) (fld x 0x20 4) e)

/-- The header's part of an encoding (R201 step 5). -/
def State.qHeader (s : State) (u : Nat) (l : Launch) (x : List Byte) (fmt : Nat) (b : QBlock) : Part2 Unit :=
  (s.fieldAtomic u l (qMeta x + 0x1C) 4 fun n => (n + b.nonfinite) % 2 ^ 32).andThen fun s _ =>
    (s.fieldAtomic u l (qMeta x + 0x24) 4 fun n => (n + b.flush) % 2 ^ 32).andThen fun s _ =>
      (s.fieldAtomic u l (qMeta x + 4) 4 fun n => Fmt.maxOf .fp32 n (qAmax fmt (qTile x) b)).andThen fun s _ =>
        (s.fieldAtomic u l (qMeta x + 0x19) 1 fun _ => fmt).andThen fun s _ => (s, .ok ())

/-- Encoding: the block's codes. -/
def State.qEncode (s : State) (c : Ctx) (m : Member) (g : Group) (x : List Byte) (fmt : Nat) (draw : Nat → Nat) : Part2 (List Nat) :=
  -- ESC_COUNT, ESC_CAPACITY and ESC_LIMIT as they stand at the slice
  (s.fieldAtomic c.u c.l (qMeta x) 0x28 id).andThen fun s h =>
    let hd := leBytes 0x28 h
    let b := qBlock fmt (qRound x) draw (fld hd 0x18 1) (decide (fld hd 8 4 < fld hd 0xC 4)) s.draw (qValues c m g (qTile x))
    let s := s.drawn
    Part2.andThen
      (match b.entry with
       | some e => s.qEscape c.u c.l x hd fmt e
       | none =>
         if b.denied = 0 then (s, .ok ())
         else (s.fieldAtomic c.u c.l (qMeta x + 0x20) 4 fun n => (n + 1) % 2 ^ 32).andThen fun s _ => (s, .ok ()))
      fun s _ =>
        (s.spanStore c.u c.l (qWord x) (leBytes (qWordBytes fmt) b.word)).andThen fun s _ =>
          (s.qHeader c.u c.l x fmt b).andThen fun s _ =>
            let s := match s.areaOwner c.l.tenant (qMeta x) with
              | some h => s.reportAmax c.l.tenant h (BitVec.ofNat 32 (qAmax fmt (qTile x) b)) b.nonfinite fmt none
              | none => s
            (s, .ok b.codes)

/-- Decoding: FP32 words of the lanes' codes. An escaped T2 block whose entry carries scale code FFh has no entry (R78): its values, which the
spec does not state, are free. -/
def State.qDecodeOne (s : State) (c : Ctx) (g : Group) (x : List Byte) (fmt : Nat) : Part2 (List Nat) :=
  (s.spanLoad c.u c.l (qWord x) (qWordBytes fmt)).andThen fun s wb =>
    let word := leNat wb
    Part2.andThen
      (if escaped fmt word then (s.spanLoad c.u c.l (qEntry x) (qEntryBytes fmt)).andThen fun s e => (s, .ok (some (entryRead fmt e)))
       else (s, .ok none))
      fun s e =>
        if fmt = 7 && (match e with | some (w, _) => w % 256 == 0xFF | none => false) then
          ({ s with free := s.free + 32 }, .ok ((upto 0 32).map fun k => Config.freeValue (s.free + k) % 2 ^ 32))
        else
        (s, .ok ((upto 0 32).map fun k =>
          decodedWord (blockValue fmt (f32 (qTile x)) word e k (c.src 0 g k % 2 ^ fmtBits fmt))))

/-- QBLK of one constituent. Its context's reserved ROUND codes, and with stochastic rounding a STREAM above 4,095, end the thread. -/
def State.qblkOne (s : State) (c : Ctx) (m : Member) : State :=
  match m.issuing, s.group? c.u m.slot with
  | some l, some g =>
    let a := c.src 1 g l
    if a % 16 != 0 || decide (c.l.lmem < a + 48) then s.tumFault c.u c.l.id 0x121
    else
      let x := s.localBytes c.u m.slot a 48
      let fmt := qFmt c.w
      let sto := !qDecode c.w && qRound x == 1
      if 2 < qRound x || (sto && decide (4095 < qStream x)) then s.tumFault c.u c.l.id 0x120
      else
        let key := s.streamKey c.l.tenant (qStream x)
        match if sto then s.claim c.l.tenant (qStream x) 64 else (s, 0) with
        | (s, c0) =>
          match if qDecode c.w then s.qDecodeOne c g x fmt else s.qEncode c m g x fmt fun k => drawAt key (c0 + k) with
          | (s, .error (code, kind, va, pa)) => s.tumMemFault c.u c.l.id c.l.tenant code kind va pa
          | (s, .ok vs) =>
            s.modGroup c.u m.slot fun y => (lanesOf m.on).foldl
              (fun (y : Group) l => y.setLane c.l.regs c.w.dst.toNat l (vs.getD l 0)) y
  | _, _ => s

def State.qblkOp (s : State) (u g : Nat) (w : IWord) : State :=
  s.issue u g w (formOf w 2 1) (fun s c => s.quiet c false) fun s c =>
    s.legal c (qLegal w) fun s => c.ms.foldl (fun (s : State) m => s.qblkOne c m) s

def execQblk (u : TumblerId) (g : SlotId) (w : IWord) (s : State) : Host.Outcome State Fault Refusal := .next (s.qblkOp u g w)

/-! ### SPOISON (R204) -/

/-- SPOISON of one constituent: nothing without a step in OPEN or UPDATING. -/
def State.spoisonOne (s : State) (c : Ctx) (m : Member) : State :=
  match m.issuing, s.group? c.u m.slot with
  | some l, some g =>
    let ph := (s.tenant c.l.tenant).step.phase
    if ph = .opened ∨ ph = .updating then s.sendPoison c.l.tenant 5 (tumblerUnit c.u) (c.src 0 g l) else s
  | _, _ => s

def State.spoisonOp (s : State) (u g : Nat) (w : IWord) : State :=
  s.issue u g w { srcs := [(0, w.sa.toNat, 1)], dst := [] } State.settled fun s c =>
    s.legal c (w.mod == 0) fun s => c.ms.foldl (fun (s : State) m => s.spoisonOne c m) s

def execSpoison (u : TumblerId) (g : SlotId) (w : IWord) (s : State) : Host.Outcome State Fault Refusal := .next (s.spoisonOp u g w)

end Sys2Proof.Machine
end

