-- ==== Sys2Proof/Machine/TumLaunch.lean ====
section
/-! DEFINITION. Launches on the tumblers (Tumbler cores and thread groups, R173 to R177, R205 to R208): placing blocks, completing and
stopping a launch, pre-emption, start-up and tenant reset. -/

namespace Sys2Proof.Machine

/-! ### Kernel descriptors (R173 to R175) -/

/-- Groups of a kernel that a scheduler holds (R174). -/
def groupsPerScheduler (regs : Nat) : Nat := min 8 (65536 / (128 * regs))

/-- Whether a kernel descriptor keeps R173 and fits a tumbler. -/
def kernelOk (d : List Byte) : Bool :=
  let regs := fld d 2 1
  let groups := fld d 3 1
  let lmem := fld d 4 2
  let dog := fld d 6 1
  fld d 0 1 == 1 && decide (fld d 1 1 < 4) && decide (1 ≤ regs ∧ regs ≤ 32) && decide (1 ≤ groups ∧ groups ≤ 32) &&
    decide (lmem ≤ 64) && (dog == 0 || decide (10 ≤ dog ∧ dog ≤ 40)) && fld d 8 8 % 256 == 0 &&
    decide (fld d 0x18 4 ≤ 4096 ∧ fld d 0x18 4 ≤ lmem * 4096) && ((d.drop 0x1C).take 36).all (fun b => b == 0) &&
    decide ((groups + 3) / 4 ≤ groupsPerScheduler (8 * regs))

/-! ### Placing a block (R176) -/

/-- Slots that may not be taken: held, or with an answer for an earlier group still on its way. -/
def State.slotTaken (s : State) (u g : Nat) : Bool :=
  let msg := fun (m : TreeMsg) =>
    match m with
    | .arrIssue v h _ _ _ _ _ => v == u && h == g
    | .rowIssue v h _ _ _ _ _ => v == u && h == g
    | _ => false
  (s.group? u g).isSome || ((s.tumbler u).acc.any fun a => a.lanes.any fun x => x.slot == g) ||
    (s.inbox arrayUnit).any msg || (s.inbox (spindleUnit 0)).any msg

/-- Slots for the groups of a block, each the lowest free of its scheduler; none when they do not suffice. Scheduler `q` owns slots q,
q + 4, …. -/
def State.slotsFor (s : State) (u : Nat) : List Nat → List Nat → Option (List Nat)
  | [], acc => some acc
  | k :: ks, acc =>
    match (upto 0 32).find? fun g => g % 4 == k % 4 && !s.slotTaken u g && !acc.contains g with
    | some g => s.slotsFor u ks (acc ++ [g])
    | none => none

/-- Register bytes that a scheduler's groups hold. -/
def State.regBytes (s : State) (u q : Nat) : Nat :=
  sumNat (((s.tumbler u).groups.filter fun g => g.1 % 4 == q).map fun g => 128 * s.regLimit g.2.launch)

/-- Local memory that a tumbler's resident blocks hold. -/
def State.localUse (s : State) (u : Nat) : Nat :=
  sumNat (((s.tumbler u).blocks.filter fun b => b.saved.isNone).map fun b => ((s.launch? b.launch).map Launch.lmem).getD 0)

/-- Whether a tumbler has registers and local memory for a block of a launch. -/
def State.blockFits (s : State) (u : Nat) (l : Launch) : Bool :=
  decide (s.localUse u + l.lmem ≤ 2 ^ 18) && (upto 0 4).all fun q =>
    decide (s.regBytes u q + ((upto 0 l.groups).filter fun k => k % 4 == q).length * (128 * l.regs) ≤ 65536)

/-- A fresh group of a block. -/
def Launch.group (l : Launch) (block idx : Nat) : Group :=
  { launch := l.id, block := block, idx := idx, regs := [], preds := [], live := allLanes
    frags := [{ mask := allLanes, pc := l.entry, path := [], st := .ready, gathered := none, waited := false }]
    stack := [], nextEntry := 0, busy := [], cache := [], rerr := [] }

/-- BLOCK_PLACE (R176): the launch's next block on a tumbler with room, behind the markers that firmware sent the tumbler before it (R18, R19);
registers, predicates and local memory start zero, and the arguments are copied. -/
def State.blockPlace (s : State) (n u : Nat) : State :=
  let s := s.passMarkers (tumblerUnit u)
  match s.launch? n with
  | none => s
  | some l =>
    if !(s.tumbler u).ready || l.stopped || decide (l.blocks ≤ l.placed) || !s.blockFits u l then s
    else
      match s.slotsFor u (upto 0 l.groups) [] with
      | none => s
      | some slots =>
        let k := l.placed
        let s := s.modLaunch n fun x => { x with placed := k + 1 }
        let s := s.modTumbler u fun x =>
          { x with blocks := x.blocks ++ [{ launch := n, num := k, slots := slots, lmem := [], saved := none }] }
        let s := (upto 0 l.groups).foldl (fun (s : State) i => s.setGroup u (slots.getD i 0) (l.group k i)) s
        match s.fetchSpan (tumblerUnit u) tlbTumbler l.tenant l.args l.argSize false with
        | (s, .fault c va pa) => s.tumMemFault u n l.tenant c kindLoad va pa
        | (s, .ok bs) => s.modBlock u n k fun b => { b with lmem := putCells b.lmem 0 bs }

def execBlockPlace (l : Nat) (u : TumblerId) (s : State) : Host.Outcome State Fault Refusal := .next (s.blockPlace l u)

/-! ### The end of a launch (R177, R205) -/

/-- LAUNCH_STOP (R205): a launch in which a thread has faulted, or which an abort ends, stops on every tumbler. -/
def State.launchStop (s : State) (n : Nat) : State :=
  match s.launch? n with
  | none => s
  | some l => if l.stopped then (upto 0 192).foldl (fun (s : State) u => s.stopHere n u) s else s

def execLaunchStop (l : Nat) (s : State) : Host.Outcome State Fault Refusal := .next (s.launchStop l)

/-- Whether stores, atomics or remote accesses of a launch are still on their way. -/
def State.launchBusy (s : State) (n : Nat) : Bool := s.tum.any fun x => x.2.acc.any fun a => a.launch == n

/-- Memory-class fault codes (R217). -/
def memoryClass (c : Nat) : Bool := decide (0x301 ≤ c ∧ c ≤ 0x308)

/-- LAUNCH_COMPLETE (R177, R205): every block has ended, every tumbler has written back, and the command ends with the first fault. -/
def State.launchComplete (s : State) (n : Nat) : State :=
  match s.launch? n with
  | none => s
  | some l =>
    if (l.stopped || l.placed == l.blocks) && l.ended == l.placed && !s.launchBusy n then
      let s := { s with launches := s.launches.filter fun x => x.id != n }
      let s := if memoryClass l.code then s.markFaults l.tenant l.ring l.cid else s
      s.finish l.tenant l.ring l.cid l.code (if l.code = 0x604 then 0 else l.code) 0
    else s

def execLaunchComplete (l : Nat) (s : State) : Host.Outcome State Fault Refusal := .next (s.launchComplete l)

/-! ### Pre-emption (R208) -/

/-- A group as it is saved: gathered fragments are apart, and a wait for partners has stopped. -/
def Group.park (x : Group) : Group :=
  { x with
    cache := []
    frags := x.frags.map fun f => { f with gathered := none, st := if f.st = .repack then .ready else f.st } }

/-- Bytes that a pre-empted block writes to its tenant's save area, and where: registers and local memory, in one of the area's four parts. -/
def State.saveSpan (s : State) (u : Nat) (k : Launch) : Nat × Nat :=
  ((s.tenant k.tenant).place.saveVa + 2 ^ 19 * (u % 4), min (2 ^ 19) (128 * k.regs * k.groups + k.lmem))

/-- Writes a pre-empted block to its tenant's save area; the spec gives no layout, and the bytes are free. What is restored stands in
`Block.saved`. -/
def State.saveBlock (s : State) (u l : Nat) : State :=
  match s.launch? l with
  | none => s
  | some k => if (s.tenant k.tenant).place.areas.isEmpty then s else s.scribble (tumblerUnit u) tlbTumbler k.tenant [s.saveSpan u k]

/-- BLOCK_PREEMPT (R208): once the block's loads and issues have been answered, its groups leave their slots, saved. -/
def State.blockPreempt (s : State) (u l b : Nat) : State :=
  let slots := s.blockSlots u l b
  let gs := slots.filterMap fun g => s.group? u g
  if gs.isEmpty || (gs.any fun x => !x.busy.isEmpty) ||
      (s.tumbler u).acc.any (fun a => a.lanes.any fun x => slots.contains x.slot) then s
  else
    let s := s.split u (slots.map fun g => { slot := g, i := 0, act := 0, on := 0 })
    let gs := slots.filterMap fun g => s.group? u g
    State.saveBlock (s.modTumbler u fun x =>
      { x with
        groups := x.groups.filter fun g => !slots.contains g.1
        blocks := x.blocks.map fun y =>
          if y.launch = l ∧ y.num = b then { y with slots := [], saved := some (gs.map Group.park) } else y }) u l

def execBlockPreempt (u : TumblerId) (l b : Nat) (s : State) : Host.Outcome State Fault Refusal := .next (s.blockPreempt u l b)

/-- Reads a pre-empted block back from its tenant's save area: a memory-class fault's code and addresses, or none. -/
def State.loadBlock (s : State) (u : Nat) (k : Launch) : State × Fetched :=
  if (s.tenant k.tenant).place.areas.isEmpty then (s, .ok [])
  else s.fetchSpan (tumblerUnit u) tlbTumbler k.tenant (s.saveSpan u k).1 (s.saveSpan u k).2 false

/-- BLOCK_RESUME (R208): the block takes slots of its schedulers on the same tumbler, and goes on as saved. -/
def State.blockResume (s : State) (u l b : Nat) : State :=
  match (s.tumbler u).blocks.find? fun x => x.launch == l && x.num == b, s.launch? l with
  | some x, some k =>
    match x.saved with
    | none => s
    | some gs =>
      if !s.blockFits u k then s
      else
        match s.slotsFor u (gs.map (·.idx)) [] with
        | none => s
        | some slots =>
          let s := s.modTumbler u fun y =>
            { y with blocks := y.blocks.map fun z => if z.launch = l ∧ z.num = b then { z with slots := slots, saved := none } else z }
          let s := (slots.zip gs).foldl (fun (s : State) y => s.setGroup u y.1 y.2) s
          match s.loadBlock u k with
          | (s, .fault c va pa) => s.tumMemFault u l k.tenant c kindLoad va pa
          | (s, .ok _) => s.releaseBars u l
  | _, _ => s

def execBlockResume (u : TumblerId) (l b : Nat) (s : State) : Host.Outcome State Fault Refusal := .next (s.blockResume u l b)

/-! ### Start-up and tenant reset (R206, R207) -/

/-- TUMBLER_READY (R206): slots, token table and near cache are empty, and the tumbler accepts blocks. -/
def execTumblerReady (u : TumblerId) (s : State) : Host.Outcome State Fault Refusal :=
  .next (if s.clk.released < 2 || (s.tumbler u).ready then s else s.setTumbler u { Tumbler.reset with ready := true })

/-- Whether a message concerns a tenant's work on a tumbler whose tokens are `tokens`. -/
def tenantMsg (t : Nat) (tokens : KMap Token) (m : TreeMsg) : Bool :=
  match m with
  | .arrIssue _ _ _ _ k _ _ => k == t
  | .rowIssue _ _ _ _ k _ _ => k == t
  | .tokenDone slot q _ => ((KMap.find tokens slot).map fun x => x.tenant == t && x.seq == q).getD false
  | _ => false

/-- A tenant reset in every tumbler (R207): groups, blocks, lines without write-back, tokens and accesses of the tenant go; other
tenants are not touched. -/
def State.tumReset (s : State) (t : Nat) : State :=
  let mine := (s.launches.filter fun l => l.tenant == t).map (·.id)
  let tree := s.tree.filterMap fun x =>
    let tokens := match (upto 0 192).find? fun u => tumblerUnit u == x.1 with
      | some u => (s.tumbler u).tokens
      | none => []
    let ms := x.2.filter fun m => !tenantMsg t tokens m
    if ms.isEmpty then none else some (x.1, ms)
  let tum := s.tum.map fun x => (x.1,
    { x.2 with
      groups := x.2.groups.filter fun g => !mine.contains g.2.launch
      blocks := x.2.blocks.filter fun b => !mine.contains b.launch
      cache := x.2.cache.filter fun n => n.tenant != t
      tokens := x.2.tokens.filter fun k => k.2.tenant != t
      acc := x.2.acc.filter fun a => a.tenant != t })
  { s with tree := tree, tum := tum, launches := s.launches.filter fun l => l.tenant != t }

end Sys2Proof.Machine
end

