-- ==== Sys2Proof/Machine/FabBase.lean ====
section
/-! DEFINITION. The fabric port's common parts (The Xagagen fabric port): packets, wards, the peer table as engines see it, ports and
their states, flows, and how a request leaves. -/

namespace Sys2Proof.Machine

/-! ### Packets (R309) -/

def tyRead : Nat := 0x01
def tyWrite : Nat := 0x02
def tyReduce : Nat := 0x03
def tyAtomic : Nat := 0x04
def tySignal : Nat := 0x05
def tyMcast : Nat := 0x06
def tyReadRsp : Nat := 0x10
def tyAck : Nat := 0x11
def tyAtomicRsp : Nat := 0x12
def tyNack : Nat := 0x13
def tyMgmt : Nat := 0x20

/-- A packet's fields. `mask` has a meaning with FLAGS.MASKED: bit i for byte i of the line. -/
structure Pkt where
  ty : Nat
  flags : Nat
  len : Nat
  dst : Nat
  src : Nat
  dstInc : Nat
  srcInc : Nat
  domain : Nat
  flow : Nat
  op : Nat
  off : Nat
  id : Nat
  status : Nat
  mask : Nat
  data : List Byte
  deriving DecidableEq, Repr

def Pkt.retry (p : Pkt) : Bool := bit p.flags 0
def Pkt.masked (p : Pkt) : Bool := bit p.flags 1
def Pkt.ordered (p : Pkt) : Bool := bit p.flags 2

/-- A length to whole 8-byte units. -/
def up8 (n : Nat) : Nat := (n + 7) / 8 * 8

/-- Bytes of data that follow the header: none for the types that carry none. -/
def dataLen (ty len : Nat) : Nat := if ty = tyRead ∨ ty = tyAck ∨ ty = tyNack then 0 else len

/-- Header bytes 00h to 1Bh, which the trailer covers. -/
def Pkt.head (p : Pkt) : List Byte :=
  leBytes 1 p.ty ++ leBytes 1 p.flags ++ leBytes 2 p.len ++ leBytes 2 p.dst ++ leBytes 2 p.src ++ leBytes 2 p.dstInc ++
    leBytes 2 p.srcInc ++ leBytes 2 p.domain ++ leBytes 1 p.flow ++ leBytes 1 p.op ++ leBytes 8 p.off ++ leBytes 4 p.id

/-- The mask and the data. -/
def Pkt.body (p : Pkt) : List Byte := (if p.masked then leBytes 32 p.mask else []) ++ p.data

/-- The packet as bytes, with its trailer. -/
def Pkt.bytes (p : Pkt) : List Byte :=
  p.head ++ leBytes 2 p.status ++ zeros 2 ++ p.body ++ zeros (up8 p.data.length - p.data.length) ++
    leBytes 4 (crc32c (p.head ++ p.body)) ++ zeros 4

/-- The length of the packet that begins some bytes. -/
def pktLength (bs : List Byte) : Nat :=
  32 + (if bit (fld bs 1 1) 1 then 32 else 0) + up8 (dataLen (fld bs 0 1) (fld bs 2 2)) + 8

/-- The packet that bytes spell. -/
def Pkt.of (bs : List Byte) : Pkt :=
  let masked := bit (fld bs 1 1) 1
  { ty := fld bs 0 1, flags := fld bs 1 1, len := fld bs 2 2, dst := fld bs 4 2, src := fld bs 6 2, dstInc := fld bs 8 2
    srcInc := fld bs 0xA 2, domain := fld bs 0xC 2, flow := fld bs 0xE 1 % 8, op := fld bs 0xF 1, off := fld bs 0x10 6
    id := fld bs 0x18 4, status := fld bs 0x1C 2, mask := if masked then fld bs 0x20 32 else 0
    data := (bs.drop (if masked then 64 else 32)).take (dataLen (fld bs 0 1) (fld bs 2 2)) }

/-- Whether a packet's trailer holds. -/
def pktSound (bs : List Byte) : Bool :=
  let n := pktLength bs
  let masked := bit (fld bs 1 1) 1
  fld bs (n - 8) 4 ==
    crc32c (bs.take 0x1C ++ (if masked then (bs.drop 32).take 32 else []) ++ (Pkt.of bs).data)

/-- Cuts packet space into packets, idle units skipped: the packets, and what continues in the next flit. -/
def cutPackets : Nat → List Byte → List (List Byte) × List Byte
  | 0, bs => ([], bs)
  | n + 1, bs =>
    if bs.length < 8 then ([], bs)
    else if fld bs 0 1 = 0 then cutPackets n (bs.drop 8)
    else if bs.length < 32 ∨ bs.length < pktLength bs then ([], bs)
    else
      let r := cutPackets n (bs.drop (pktLength bs))
      (bs.take (pktLength bs) :: r.1, r.2)

/-! ### Fabric global addresses (R7) -/

def nodeOf (a : Nat) : Nat := a / 2 ^ 48
def offsetOf (a : Nat) : Nat := a % 2 ^ 48

/-! ### Wards (R315, R316) -/

/-- The owner number of service firmware's ward table. -/
def sfTenant : Nat := 16

/-- Entries 0 to COUNT − 1 of a ward table. -/
def State.wardEntries (s : State) (t : Nat) : List (List Byte) :=
  if t = sfTenant then
    match s.keeper.sfWards.getLast? with
    | some x => (upto 0 (x.1 + 1)).map fun i => KMap.get s.keeper.sfWards i (zeros 32)
    | none => []
  else
    let w := KMap.get s.keeper.wards t []
    (upto 0 (min 64 (fld w 0x20 1))).map fun i => (w.drop (64 + 32 * i)).take 32

/-- Whether a ward entry's reserved fields are 0. -/
def wardEntryOk (e : List Byte) : Bool :=
  bits (fld e 6 1) 7 5 == 0 && fld e 7 1 == 0 && fld e 0xE 2 == 0 && fld e 0x16 2 == 0 && fld e 0x18 8 == 0

/-- PERM's bit for a packet type. -/
def permBit (ty : Nat) : Nat := ty - 1

/-- Whether an entry covers a request: node, the whole range of `n` bytes, and type. -/
def wardCovers (e : List Byte) (node off n ty : Nat) : Bool :=
  decide (fld e 0 2 ≤ node ∧ node ≤ fld e 2 2 ∧ fld e 8 6 ≤ off ∧ off + n ≤ fld e 0x10 6 + 1) && bit (fld e 6 1) (permBit ty)

/-- The domain under which a tenant's ward lets a request go: that of the first entry that covers it. -/
def State.wardDomain (s : State) (t node off n ty : Nat) : Option Nat :=
  ((s.wardEntries t).find? fun e => wardCovers e node off n ty).map fun e => fld e 4 2

/-- The domain under which it lets a multicast write go. -/
def State.wardMcast (s : State) (t group flow : Nat) : Option Nat :=
  let w := if t = sfTenant then [] else KMap.get s.keeper.wards t []
  if bit (fld w 0 32) group && bit (fld w 0x21 1) flow then some (fld w 0x22 2) else none

/-! ### Flits (R302) -/

/-- Every second byte, from the first. -/
def evens {α : Type} : List α → List α
  | [] => []
  | [x] => [x]
  | x :: _ :: xs => x :: evens xs

/-- A flit as sent: packet space, LINK, and the parity of the two interleaved codewords. -/
def flitBytes (packets : List Byte) (seq ack vc credits : Nat) : List Byte :=
  let b := packets ++ zeros (280 - packets.length) ++ leBytes 4 (seq + ack * 2 ^ 12 + vc * 2 ^ 24 + credits * 2 ^ 26)
  let b := b ++ leBytes 4 (crc32c b)
  let parity := fun (xs : List Byte) => leBytes 16 (Config.flitParity (evens xs)).toNat
  b ++ ((parity b).zip (parity (b.drop 1))).flatMap fun x => [x.1, x.2]

/-- A packet's bytes in the packet space of `n` flits, the first of them `seq`. -/
def flitsOf : Nat → Nat → List Byte → List (Nat × List Byte)
  | 0, _, _ => []
  | n + 1, seq, bs => (seq % 4096, bs.take 280) :: flitsOf n (seq + 1) (bs.drop 280)

/-! ### Ports (R301 to R306) -/

def State.port (s : State) (p : Nat) : Port := KMap.get s.fab.ports p Port.reset

def State.modPort (s : State) (p : Nat) (f : Port → Port) : State :=
  { s with fab := { s.fab with ports := KMap.set s.fab.ports p (f (s.port p)) Port.reset } }

/-- The states of FAB.PORT (R304). -/
def portDown : Nat := 0
def portTraining : Nat := 1
def portAuth : Nat := 2
def portUp : Nat := 3
def portDegraded : Nat := 4
def portRetrain : Nat := 5

def State.portState (s : State) (p : Nat) : Nat := s.rd (F.fabPortState p)

/-- Whether a port passes packets. -/
def State.passes (s : State) (p : Nat) : Bool := s.portState p == portUp || s.portState p == portDegraded

/-- The credits that a port's next flit returns: those of the lowest virtual channel with any. -/
def Port.returns (x : Port) : Nat × Nat :=
  match (upto 0 3).find? fun v => KMap.get x.owed v 0 != 0 with
  | some v => (v, min 63 (KMap.get x.owed v 0))
  | none => (0, 0)

/-- Sends a flit, for the first time or again (R302, R303): LINK carries SEQ, the last SEQ received in order, and credits. -/
def State.sendFlit (p : Nat) (s : State) (f : Nat × List Byte) : State :=
  let x := s.port p
  let c := x.returns
  (s.modPort p fun x => { x with owed := KMap.set x.owed c.1 (KMap.get x.owed c.1 0 - c.2) 0 }).emit
    (.flit p (flitBytes f.2 f.1 (x.rxSeq.getD 4095) c.1 c.2))

/-- A queue of a virtual channel frees the space of a packet, in 64-byte units (R325). -/
def State.owe (s : State) (p vc : Nat) (bs : List Byte) : State :=
  s.modPort p fun x => { x with owed := KMap.put x.owed vc (KMap.get x.owed vc 0 + (bs.length + 63) / 64) }

/-- Sends the first packet that waits at a port, when its flits fit the replay buffer of 512. Nothing goes out with the load cut (R449). -/
def State.txStep (p : Nat) (s : State) : State :=
  match (s.port p).tx with
  | [] => s
  | (bs, mc) :: rest =>
    let x := s.port p
    let n := (bs.length + 279) / 280
    if s.pwr.cut || !s.passes p || decide (512 < (x.txSeq + 4096 - x.txAck) % 4096 + n) then s
    else
      let e := (x.txSeq + n) % 4096
      let fs := flitsOf n x.txSeq bs
      let s := s.modPort p fun x => { x with tx := rest, txSeq := e, unacked := x.unacked ++ [(e, mc)], sentFlits := x.sentFlits ++ fs }
      (fs.foldl (State.sendFlit p) (s.emit (.packet p bs))).count (portUnit p) 1 n

/-- Sends what waits at a port as far as it can. -/
def State.drainTx (s : State) (p : Nat) : State := times (State.txStep p) (s.port p).tx.length s

/-- Hands a packet to a port. -/
def State.sendPacket (s : State) (p : Nat) (bs : List Byte) (mc : Option Nat) : State :=
  (s.modPort p fun x => { x with tx := x.tx ++ [(bs, mc)] }).drainTx p

/-! ### Flows (R306) -/

/-- The port that a destination and flow map to. -/
def State.mapped (s : State) (dst flow : Nat) : Option Nat :=
  let i := (dst * 8 + flow) % 64
  let p := bits (s.rd (F.fabPortmapPorts (i / 4))) (8 * (i % 4) + 7) (8 * (i % 4))
  if p < 9 then some p else none

/-- A request's flow: destination, domain and FLOW; the source is always this device. -/
def FabReq.flow (r : FabReq) : Nat × Nat × Nat :=
  let p := Pkt.of r.packet
  (p.dst, p.domain, p.flow)

/-- Whether a request is a multicast write, which its port's link ends. -/
def FabReq.mcast (r : FabReq) : Bool := (Pkt.of r.packet).ty == tyMcast

/-- Whether a request's packet comes from a tumbler's pool (R324). -/
def ReqSrc.pool : ReqSrc → Bool
  | .tumbler .. => true
  | _ => false

/-- Replaces the outstanding requests; FAB.OUTSTANDING shows their numbers. -/
def State.setReqs (s : State) (rs : List FabReq) : State :=
  let n := (rs.filter fun r => r.src.pool).length
  ({ s with fab := { s.fab with reqs := rs } }.wr F.fabOutstandingTumbler n).wr F.fabOutstandingEngine (rs.length - n)

/-- Sends one waiting request, unless one of its flow waits before it, or the flow has been remapped and a packet sent on the old port is not
acknowledged yet. The second part lists the flows that wait. -/
def State.pumpReq (x : State × List (Nat × Nat × Nat)) (r : FabReq) : State × List (Nat × Nat × Nat) :=
  let (s, waiting) := x
  let k := r.flow
  match if waiting.contains k then none else s.mapped k.1 k.2.2 with
  | none => (s, k :: waiting)
  | some p =>
    if !s.passes p || s.fab.reqs.any fun q => q.port.isSome && q.port != some p && q.flow == k then (s, k :: waiting)
    else
      let s := s.setReqs (s.fab.reqs.map fun q => if q.id = r.id then { q with port := some p } else q)
      ((s.sendPacket p r.packet (if r.mcast then some r.id else none)).count (engineUnit r.engine) 1 1, waiting)

/-- Sends the waiting requests that can go, in order. -/
def State.pump (s : State) : State := ((s.fab.reqs.filter fun r => r.port.isNone).foldl State.pumpReq (s, [])).1

/-! ### Port states -/

/-- Service firmware fills the port map from the ports that pass packets, each ×8 port twice as often as each ×4 port (R306). -/
def State.fillMap (s : State) : State :=
  let ps := ((upto 0 9).map fun p => if s.portState p = portUp then [p, p] else if s.portState p = portDegraded then [p] else []).flatten
  let at' := fun (i : Nat) => if ps.isEmpty then 0xFF else ps.getD (i % ps.length) 0xFF
  (upto 0 16).foldl
    (fun (s : State) i => s.wr (F.fabPortmapPorts i) (leNat ((upto 0 4).map fun e => BitVec.ofNat 8 (at' (4 * i + e))))) s

/-- A port changes state (R304): LINK_STATE, 040Ah to firmware and monitor, the map, and what the health monitor takes (R408). A port that goes
DOWN drops what it had not delivered. -/
def State.portTo (s : State) (p st : Nat) : State :=
  let old := s.portState p
  if old = st then s
  else
    let s := s.wr (F.fabPortState p) st
    let s := if st = portDown then
        (s.wr (F.fabPortLanes p) 0).modPort p fun x =>
          { x with rxSeq := none, tx := [], txSeq := 0, txAck := 0, unacked := [], sentFlits := [], replays := 0, rx := [], auth := none }
      else s
    let s := s.modPort p fun x => { x with wasUp := x.wasUp || st == portUp, auth := if st = portAuth then x.auth else none }
    let s := s.wr F.fabStatusPortsUp (sumNat ((upto 0 9).map fun q => if s.passes q then 2 ^ q else 0))
    let s := ((s.setEvent F.fabEventsLinkState).event 0x40A .firmware [p, st]).event 0x40A .health [p, st]
    let s := if (st = portDown ∨ st = portDegraded) ∧ (s.port p).wasUp then s.healthInput .linkDegraded else s
    let s := if old = portUp ∧ 3 ≤ ((upto 0 9).filter fun q => s.portState q != portUp).length then s.healthInput .linksDown else s
    let s := s.fillMap
    ((upto 0 9).foldl State.drainTx s).pump

/-- A port retrains (R303). -/
def State.retrain (s : State) (p : Nat) : State :=
  let s := ((s.addSat (F.fabPortErrRetrains p) 1).count (portUnit p) 5 1).healthInput .linkRetrain
  (s.modPort p fun x => { x with replays := 0, rx := [] }).portTo p portRetrain

/-! ### The peer table (R308) -/

/-- This device's node and incarnation. -/
def State.node (s : State) : Nat := s.rd F.fabNodeNode
def State.inc (s : State) : Nat := s.rd F.fabNodeInc

/-- A peer's entry as an engine sees it: from its cache of 256, else from the table, which it then caches. -/
def State.peer (s : State) (e node : Nat) : State × Option Peer :=
  let c := KMap.get s.fab.cached e []
  match KMap.find c node with
  | some x => (s, some x)
  | none =>
    match KMap.find s.fab.peers node with
    | none => (s, none)
    | some x =>
      let c := if 256 ≤ c.length then c.tail else c
      ({ s with fab := { s.fab with cached := KMap.put s.fab.cached e (KMap.put c node x) } }, some x)

/-- PEER_MARKER (R308): an engine drops its copies of the entries named, and forwards the marker; the markers before it go first (R19). -/
def State.peerMarker (s : State) (e : Nat) : State :=
  let s := s.passMarkers (engineUnit e)
  match s.inbox (engineUnit e) with
  | .peers ns :: _ =>
    let s := s.popMsg (engineUnit e)
    let c := (KMap.get s.fab.cached e []).filter fun x => !ns.contains x.1
    { s with fab := { s.fab with cached := KMap.set s.fab.cached e c [] } }.emit (.marker (engineUnit e) 4 (ns.headD 0))
  | _ => s

def execPeerMarker (e : Fin 16) (s : State) : Host.Outcome State Fault Refusal := .next (s.peerMarker e)

/-! ### A request leaves (R313, R316, R327, R333, R338) -/

/-- A request that its ward lets go. -/
structure Ask where
  src : ReqSrc
  tenant : Nat
  engine : Nat
  ty : Nat
  flags : Nat
  dst : Nat
  domain : Nat
  flow : Nat
  op : Nat
  off : Nat
  len : Nat
  mask : Nat
  data : List Byte
  deriving DecidableEq, Repr

/-- The port whose inbound path serves an engine's quadrant for loopback (R338). -/
def loopPort (e : Nat) : Nat := [0, 3, 5, 7].getD (e / 4) 0

/-- The incarnation a request names: none when its target is not LIVE. -/
def State.target (s : State) (a : Ask) : State × Option Nat :=
  if a.ty = tyMcast then (s, some 0)
  else if a.dst = s.node then (s, some s.inc)
  else
    match s.peer a.engine a.dst with
    | (s, some x) => (s, if x.state = 0 then some x.inc else none)
    | (s, none) => (s, none)

/-- A request leaves: it waits for its port, or loops back; or it ends at once with the code answered. -/
def State.ask (s : State) (a : Ask) : State × Nat :=
  if !s.has F.fabStatusNodeValid then (s, 0x402)
  else
    match s.target a with
    | (s, none) => (s, 0x402)
    | (s, some inc) =>
      let key := s.fab.nextReq
      let atomic := a.ty == tyAtomic
      let id := (if atomic then s.fab.nextAtom else key) % 2 ^ 32
      let p : Pkt :=
        { ty := a.ty, flags := a.flags, len := a.len, dst := a.dst, src := s.node, dstInc := inc, srcInc := s.inc, domain := a.domain
          flow := a.flow, op := a.op, off := a.off, id := id, status := 0, mask := a.mask, data := a.data }
      let own := a.ty != tyMcast && a.dst == s.node
      let r : FabReq :=
        { id := key, src := a.src, tenant := a.tenant, engine := a.engine, packet := p.bytes
          port := if own then some (loopPort a.engine) else none, retried := false }
      let s := { s with fab := { s.fab with nextReq := key + 1, nextAtom := s.fab.nextAtom + b2n atomic } }.setReqs (s.fab.reqs ++ [r])
      if own then
        ((s.modPort (loopPort a.engine) fun x => { x with requests := x.requests ++ [p.bytes] }).count (engineUnit a.engine) 1 1, 0)
      else (s.pump, 0)

/-- The engine that serves a tumbler's remote instructions: one of its quadrant. -/
def engineOf (u : Nat) : Nat := 4 * (u / 48)

end Sys2Proof.Machine
end

