-- ==== Sys2Proof/Machine/Sync.lean ====
section
/-! DEFINITION. The barrier and signal unit (Signals and barriers): signal words, barrier records and slots, arrivals and generations,
membership, freezing, closing and lost owners. -/

namespace Sys2Proof.Machine

/-! ### Barrier records (R340) -/

/-- A field of a record. -/
def State.recField (s : State) (x : SynSlot) (off n : Nat) : Nat := leNat (s.read (x.pa + off) n)

/-- Writes a field of a record. -/
def State.putField (s : State) (x : SynSlot) (off n v : Nat) : State := s.write (x.pa + off) (leBytes n v)

def offRelease : Nat := 0
def offGen : Nat := 8
def offMembers : Nat := 0xC
def offArrivedN : Nat := 0xE
def offEarlyN : Nat := 0x10
def offMask : Nat := 0x40
def offArrived : Nat := 0x240
def offEarly : Nat := 0x440

/-- Member `m`'s bit of a bitmap of a record. -/
def State.memberBit (s : State) (x : SynSlot) (off m : Nat) : Bool := bit (s.recField x (off + m / 8) 1) (m % 8)

def State.putMember (s : State) (x : SynSlot) (off m : Nat) (v : Bool) : State :=
  s.putField x (off + m / 8) 1 (setBits (s.recField x (off + m / 8) 1) (m % 8) 1 (b2n v))

/-! ### Slots (R351) -/

def State.slot? (s : State) (k : Nat) : Option SynSlot := KMap.find s.syn k

/-- STATE of SYN.SLOT. -/
def slotActive : Nat := 1
def slotFrozen : Nat := 2

def SynSlot.frozen (x : SynSlot) : Bool := x.status != 0

/-- Slots held: SYN.STATUS.ACTIVE and TENSLOTS.HELD show them. -/
def State.showSlots (s : State) : State :=
  (upto 0 16).foldl
    (fun (s : State) t => s.wr (F.synTenslotsHeld t) (s.syn.filter fun x => x.2.tenant == t).length)
    (s.wr F.synStatusActive s.syn.length)

/-- Binds a slot, with its record as it now stands. -/
def State.putSlot (s : State) (k : Nat) (x : SynSlot) : State :=
  let s := { s with syn := KMap.put s.syn k { x with image := s.read x.pa 2048 } }
  let s := (s.wr (F.synSlotTenant k) x.tenant).wr (F.synSlotState k) (if x.frozen then slotFrozen else slotActive)
  (s.wr (F.synSlotGen k) (s.recField x offGen 4)).showSlots

def State.dropSlot (s : State) (k : Nat) : State :=
  ({ s with syn := KMap.del s.syn k }.setReg (.synSlot k) 0).showSlots

/-- The store domain leaves reset (R352): every slot is FREE, and the SYN registers stand at their reset values. -/
def State.synRestart (s : State) : State := { s with syn := [] }.resetBlock 0x600000 0x700000

/-- The slot whose record an address lies in. -/
def State.slotAt (s : State) (pa : Nat) : Option (Nat × SynSlot) := s.syn.find? fun x => x.2.pa / 2048 == pa / 2048

/-- Whether bytes touch an active record. -/
def State.touchesRecord (s : State) (pa n : Nat) : Bool := s.syn.any fun x => decide (x.2.pa < pa + n ∧ pa < x.2.pa + 2048)

/-- Whether nothing has been stored to an active record since the unit left it. -/
def State.intact (s : State) (x : SynSlot) : Bool := s.read x.pa 2048 == x.image

/-- A slot whose record has been stored to: its behaviour is undefined (R340), so the record, the slot's STATUS and the answer are free. -/
def State.upset (s : State) (k : Nat) (x : SynSlot) : State × Nat :=
  let s' := s.drawn.drawn
  ((s'.drawn.write x.pa (leBytes 2048 s.draw)).putSlot k { x with status := s.drawn.draw % 2 ^ 16 }, s'.draw % 2 ^ 16)

/-- Whether some of an owner's blocks is pre-empted (R346). -/
def State.ownerPreempted (s : State) (t : Nat) : Bool :=
  s.tum.any fun u => u.2.blocks.any fun b => b.saved.isSome && ((s.launch? b.launch).map (·.tenant)) == some t

/-! ### Releases (R343, R347) -/

/-- In MCAST mode, sends the release word to the group; false when the owner's ward no longer allows it. -/
def State.sendRelease (s : State) (x : SynSlot) : State × Bool :=
  if s.recField x 0x12 1 = 0 then (s, true)
  else
    let g := s.recField x 0x14 2
    let f := s.recField x 0x13 1
    match s.wardMcast x.tenant g f with
    | none => (s.setEvent F.synEventsReleaseFail, false)
    | some d =>
      ((s.ask { src := .release, tenant := x.tenant, engine := 4, ty := tyMcast, flags := 4, dst := g, domain := d, flow := f, op := 0
                off := s.recField x 0x18 8 % 2 ^ 48, len := 8, mask := 0, data := s.read (x.pa + offRelease) 8 }).1, true)

/-- Writes a record's release word: COMPLETED and STATUS. -/
def State.writeRelease (s : State) (x : SynSlot) (completed st : Nat) : State :=
  s.putField x offRelease 8 (completed + st * 2 ^ 32)

/-- The events bit of a freezing status (R347 step 4). -/
def freezeEvent (st : Nat) : Field :=
  if st = 0x502 then F.synEventsOverrun else if st = 0x50B then F.synEventsTimeout else F.synEventsReleaseFail

/-- A slot freezes (R347). With STATUS 0404h nothing is sent. -/
def State.freeze (s : State) (k : Nat) (x : SynSlot) (st : Nat) : State :=
  let s := s.writeRelease x (s.recField x offRelease 4) st
  let s := if st = 0x404 then s else (s.sendRelease x).1
  let s := s.tell x.tenant st barrierUnit k (s.recField x offGen 4)
  (s.setEvent (freezeEvent st)).putSlot k { x with status := st }

/-- The completion rules (R343): while every member has arrived, generations complete; at most the early one after the first. -/
def State.complete (k : Nat) (x : SynSlot) : Nat → State → State
  | 0, s => s
  | n + 1, s =>
    if s.recField x offArrivedN 2 ≠ s.recField x offMembers 2 then s
    else
      let g := s.recField x offGen 4
      let s := (s.writeRelease x g 0).putField x offGen 4 ((g + 1) % 2 ^ 32)
      let s := s.write (x.pa + offArrived) (s.read (x.pa + offEarly) 512)
      let s := s.putField x offArrivedN 2 (s.recField x offEarlyN 2)
      let s := (s.write (x.pa + offEarly) (zeros 512)).putField x offEarlyN 2 0
      let s := (s.count barrierUnit 2 1).putSlot k x
      match s.sendRelease x with
      | (s, true) => s.complete k x n
      | (s, false) => s.freeze k x 0x404

/-! ### Arrivals (R341, R342) -/

/-- An arrival at slot `k`: 0 for ACK, else the code of its NACK. -/
def State.arrive (s : State) (k : Nat) (x : SynSlot) (v : Nat) : State × Nat :=
  let a := v % 2 ^ 32
  let m := v / 2 ^ 32 % 2 ^ 12
  let d := (a + 2 ^ 32 - s.recField x offGen 4) % 2 ^ 32
  let s := s.count barrierUnit 1 1
  if 2 ^ 44 ≤ v then (s, 0x501)
  else if !s.intact x then s.upset k x
  else if s.poisoned x.pa 2048 then (s, 0x304)
  else if x.frozen then (s, x.status)
  else if !s.memberBit x offMask m then (s, 0x506)
  else if d = 0 then
    if s.memberBit x offArrived m then (s, 0x507)
    else
      let s := (s.putMember x offArrived m true).putField x offArrivedN 2 (s.recField x offArrivedN 2 + 1)
      ((s.putSlot k x).complete k x 2, 0)
  else if d = 1 then
    if !s.memberBit x offArrived m then (s, 0x508)
    else if s.memberBit x offEarly m then (s, 0x507)
    else (((s.putMember x offEarly m true).putField x offEarlyN 2 (s.recField x offEarlyN 2 + 1)).putSlot k x, 0)
  else if d < 2 ^ 31 then (s.freeze k x 0x502, 0x502)
  else (s, 0x509)

/-! ### Signals (R335, R336) -/

/-- The new value of a word under SOP 01h to 04h. -/
def signalValue (sop old v : Nat) : Nat :=
  if sop = 1 then v else if sop = 2 then (old + v) % 2 ^ 64 else if sop = 3 then Nat.lor old v else max old v

/-- Whether a signal body is one of R335. -/
def signalBody (b : List Byte) : Bool :=
  b.length == 16 && decide (1 ≤ fld b 8 1 ∧ fld b 8 1 ≤ 5) && (b.drop 9).all (· == 0)

/-- The unit's answer to a signal: refusals are counted (R351). -/
def State.refused (x : State × Nat) : State × Nat :=
  if x.2 = 0 then x
  else (((x.1.setEvent F.synEventsRefused).addSat F.synRefusedCount 1).count barrierUnit 3 1, x.2)

/-- A signal to a physical address by tenant `t` (R335, R336, R341): 0 for ACK, else the NACK's code. -/
def State.signalAt (s : State) (pa : Nat) (b : List Byte) : State × Nat :=
  if !signalBody b then State.refused (s, 0x501)
  else
    match s.slotAt pa with
    | some (k, x) => State.refused (if pa = x.pa then s.arrive k x (fld b 0 8) else (s, 0x501))
    | none =>
      if fld b 8 1 = 5 then State.refused (s, 0x505)
      else
        let s := s.readAs pa 8 sfTenant barrierUnit false
        if s.poisoned pa 8 then (s, 0x304)
        else
        let s := s.bankCount pa 5
        (s.write pa (leBytes 8 (signalValue (fld b 8 1) (leNat (s.read pa 8)) (fld b 0 8))), 0)

/-! ### Activation (R341) -/

/-- Whether a physical address lies in a pinned part of a tenant. -/
def State.inPinned (s : State) (t pa : Nat) : Bool :=
  (s.tenant t).place.tensors.any fun x =>
    x.parts.any fun q => q.pinned && (q.pieces 0 q.bytes).any fun p => decide (p.1 ≤ pa ∧ pa < p.1 + p.2)

/-- The bytes of a record that must be 0. -/
def recordReserved (b : List Byte) : Bool := ((b.drop 0x25).take 27).all (· == 0) && (b.drop 0x640).all (· == 0)

/-- The lowest free slot. -/
def State.openSlot? (s : State) : Option Nat := (upto 0 64).find? fun k => (s.slot? k).isNone

/-- BAR_ACTIVATE: the checks of R341 in their order, then the slot is bound and the record's unit fields are written. -/
def State.activateAt (s : State) (t va pa : Nat) : State × Nat × Nat :=
  let b := s.read pa 2048
  let mask := fld b offMask 512
  if s.touchesRecord pa 2048 || !(inWindow pa || s.inPinned t pa) || !recordReserved b || decide (1 < fld b 0x12 1) || mask == 0 then (s, 0x50C, 0)
  else if fld b 0x12 1 = 1 ∧ (s.wardMcast t (fld b 0x14 2) (fld b 0x13 1)).isNone then (s, 0x404, 0)
  else
    match s.openSlot? with
    | none => (s, 0x50A, 0)
    | some k =>
      if s.rd (F.synTenslotsMax t) ≤ s.rd (F.synTenslotsHeld t) then (s, 0x50A, 0)
      else
        let x : SynSlot := { tenant := t, va := va, pa := pa, status := 0, image := [] }
        let g := fld b 0x20 4
        let s := s.putField x offMembers 2 (popcount 4096 mask)
        let s := (s.putField x offGen 4 g).putField x 0x24 1 k
        let s := (s.putField x offArrivedN 2 0).putField x offEarlyN 2 0
        let s := (s.write (pa + offArrived) (zeros 512)).write (pa + offEarly) (zeros 512)
        ((s.writeRelease x ((g + 2 ^ 32 - 1) % 2 ^ 32) 0).putSlot k x, 0, k)

def State.barActivate (s : State) (t r : Nat) (e : Entry) : State :=
  let va := e.arg 0 8
  if va % 2048 ≠ 0 then s.finish t r e.cid 0x50C 0 0
  else
    match s.translate (engineUnit 4) tlbEngine t va true false with
    | (s, .fault _ _) => s.finish t r e.cid 0x50C 0 0
    | (s, .pa pa) =>
      if s.poisoned pa 2048 then s.finish t r e.cid 0x50C 0 0
      else
        match s.activateAt t va pa with
        | (s, 0, k) => s.finish t r e.cid 0 k 0
        | (s, c, _) => s.finish t r e.cid c 0 0

def execBarActivate (t : TenantId) (r : RingId) (s : State) : Host.Outcome State Fault Refusal :=
  .next (if s.has F.synStatusReady then s.runCommand t r 0x20 fun s e => s.barActivate t r e else s)

/-! ### Membership (R345) and closing (R348) -/

/-- A slot that a tenant owns. -/
def State.ownSlot (s : State) (t k : Nat) : Option SynSlot := (s.slot? k).bind fun x => if x.tenant = t then some x else none

/-- BAR_MEMBERS on a slot: the status, and the GEN in force after. -/
def State.members' (s : State) (t k op m : Nat) : State × Nat × Nat :=
  match s.ownSlot t k with
  | none => (s, 0x50C, 0)
  | some x =>
    if x.frozen ∨ 4096 ≤ m ∨ 1 < op then (s, 0x50C, 0)
    else if !s.intact x then
      let u := s.upset k x
      (u.1, u.2, u.1.recField x offGen 4)
    else
      let n := s.recField x offMembers 2
      let has := s.memberBit x offMask m
      if op = 0 then
        if has then (s, 0x50C, 0)
        else
          let s := ((s.putMember x offMask m true).putField x offMembers 2 (n + 1)).putSlot k x
          (s, 0, s.recField x offGen 4)
      else if !has ∨ n = 1 then (s, 0x50C, 0)
      else
        let a := s.memberBit x offArrived m
        let e := s.memberBit x offEarly m
        let s := ((s.putMember x offMask m false).putMember x offArrived m false).putMember x offEarly m false
        let s := s.putField x offMembers 2 (n - 1)
        let s := s.putField x offArrivedN 2 (s.recField x offArrivedN 2 - b2n a)
        let s := s.putField x offEarlyN 2 (s.recField x offEarlyN 2 - b2n e)
        let s := (s.putSlot k x).complete k x 2
        (s, 0, s.recField x offGen 4)

def execBarMembers (t : TenantId) (r : RingId) (s : State) : Host.Outcome State Fault Refusal :=
  .next (if s.has F.synStatusReady then s.runCommand t r 0x21 fun s e =>
      match s.members' t (e.arg 0 1) (e.arg 1 1) (e.arg 2 2) with
      | (s, c, g) => s.finish t r e.cid c g 0
    else s)

/-- BAR_CLOSE (R348): an active slot is released with 050Dh first. -/
def State.closeSlot (s : State) (k : Nat) (x : SynSlot) : State :=
  if x.frozen then s.dropSlot k
  else (((s.writeRelease x (s.recField x offRelease 4) 0x50D).sendRelease x).1).dropSlot k

def execBarClose (t : TenantId) (r : RingId) (s : State) : Host.Outcome State Fault Refusal :=
  .next (if s.has F.synStatusReady then s.runCommand t r 0x22 fun s e =>
      match s.ownSlot t (e.arg 0 1) with
      | none => s.finish t r e.cid 0x50C 0 0
      | some x => (s.closeSlot (e.arg 0 1) x).finish t r e.cid 0 0 0
    else s)

/-! ### Timeouts (R346), lost owners (R349) and start-up (R352) -/

/-- BARRIER_TIMEOUT: an open generation that has counted an arrival has not completed within TMO_US. -/
def State.barrierTimeout (s : State) (k : Nat) : State :=
  match s.slot? k with
  | none => s
  | some x =>
    if x.frozen || s.recField x 0x16 2 == 0 || s.recField x offArrivedN 2 == 0 || s.ownerPreempted x.tenant then s
    else if s.intact x then s.freeze k x 0x50B else (s.upset k x).1

def execBarrierTimeout (slot : Fin 64) (s : State) : Host.Outcome State Fault Refusal := .next (s.barrierTimeout slot)

/-- A slot's owner is lost: at its reset the release is sent and firmware told; at a teardown nothing is sent. -/
def State.loseSlot (s : State) (k : Nat) (x : SynSlot) (send : Bool) : State :=
  let s := s.writeRelease x (s.recField x offRelease 4) 0x504
  let s := if send then ((s.sendRelease x).1).event 0x504 .firmware [k, x.tenant] else s
  (s.setEvent F.synEventsOwnerLost).dropSlot k

/-- Every slot of a tenant. -/
def State.loseSlots (s : State) (t : Nat) (send : Bool) : State :=
  (s.syn.filter fun x => x.2.tenant == t).foldl (fun (s : State) x => s.loseSlot x.1 x.2 send) s

/-- SYN_READY (R352): 256 store cycles after the store domain leaves reset. -/
def State.synReady (s : State) : State := if s.clk.released < 2 then s else s.wr F.synStatusReady 1

def execSynReady (s : State) : Host.Outcome State Fault Refusal := .next s.synReady

end Sys2Proof.Machine
end

