-- ==== Sys2Proof/Machine/FabTum.lean ====
section
/-! DEFINITION. Remote operations of tumblers (The Xagagen fabric port): the packets that LDR, STR and a remote ATOM make, their ward
checks and slots, and what an answer or a failure does to the thread. -/

namespace Sys2Proof.Machine

/-! ### The modifier of LDR and STR (R317) -/

def remoteKind (w : IWord) : Nat := w.mod.toNat / 16 % 16
def remoteFlow (w : IWord) : Nat := w.mod.toNat / 256 % 8

/-- Whether MOD is one that R317 and R337 give. -/
def remoteLegal (w : IWord) (store : Bool) : Bool :=
  decide (w.mod.toNat < 2 ^ 11) && !w.mod.toNat.testBit 3 && decide (w.mod.toNat % 8 ≤ 4) &&
    (if store then decide (remoteKind w ≤ 10) && (remoteKind w != 10 || memSize w == 16) else remoteKind w == 0)

/-! ### Packets (R318) -/

/-- A packet that a remote instruction makes: its ward range begins at `lo` and has `n` bytes; `data` stands from `off`, under a mask if
there is one; its lanes in ascending order. -/
structure Draft where
  ty : Nat
  op : Nat
  lo : Nat
  n : Nat
  off : Nat
  len : Nat
  mask : Option Nat
  data : List Byte
  lanes : List AccLane
  deriving DecidableEq, Repr

/-- The lowest address of some lanes, and the bytes from there to the end of the highest. -/
def laneSpan (size : Nat) (xs : List AccLane) : Nat × Nat :=
  let lo := xs.foldl (fun m x => min m x.va) (2 ^ 64)
  (lo, xs.foldl (fun m x => max m (x.va + size)) 0 - lo)

/-- An access's lanes on one line. -/
def Access.on (a : Access) (line : Nat) : List AccLane := a.lanes.filter fun x => x.va / 256 == line

/-- The packet that reads some lanes of a line. -/
def readDraft (a : Access) (line : Nat) : Draft :=
  let xs := a.on line
  let sp := laneSpan a.size xs
  { ty := tyRead, op := 0, lo := sp.1, n := sp.2, off := sp.1, len := sp.2, mask := none, data := [], lanes := xs }

/-- The packet that writes, or reduces, some lanes into a line: with a byte mask unless they write all of it. -/
def storeDraft (a : Access) (line kind : Nat) (xs : List AccLane) : Draft :=
  let m := storeLine { a with lanes := xs } line
  let sp := laneSpan a.size xs
  { ty := if kind = 0 then tyWrite else tyReduce, op := kind, lo := sp.1, n := sp.2, off := line * 256, len := 256
    mask := if m.1 = 2 ^ 256 - 1 then none else some m.1, data := m.2, lanes := xs }

/-- Lanes in rounds: each takes, of the lanes that name one element, the first left. -/
def elementRounds : Nat → List AccLane → List (List AccLane)
  | 0, _ => []
  | n + 1, xs =>
    if xs.isEmpty then []
    else
      let first := xs.foldl (fun (ys : List AccLane) x => if ys.any fun y => y.va == x.va then ys else ys ++ [x]) []
      first :: elementRounds n (xs.filter fun x => !first.contains x)

/-- The packet that carries an ATOM's lanes of one line: word offsets by lane, the lane mask, operands, and compare values for CAS. -/
def atomDraft (a : Access) (line : Nat) : Draft :=
  let xs := a.on line
  let offs := xs.foldl (fun (bs : List Byte) x => setFld bs x.lane 1 (x.va % 256)) (zeros 32)
  let mask := xs.foldl (fun m x => Nat.lor m (2 ^ x.lane)) 0
  let data := offs ++ leBytes 4 mask ++ zeros 4 ++ (xs.map fun x => leBytes 8 x.data).flatten ++
    (if a.mod % 16 = 7 then (xs.map fun x => leBytes 8 x.compare).flatten else [])
  let sp := laneSpan a.size xs
  { ty := tyAtomic, op := a.mod % 64, lo := sp.1, n := sp.2, off := line * 256, len := data.length, mask := none, data := data, lanes := xs }

/-- A lane's signal. -/
def signalDraft (x : AccLane) : Draft :=
  { ty := tySignal, op := 0, lo := x.va, n := 8, off := x.va, len := 16, mask := none, data := leBytes 16 x.data, lanes := [x] }

/-- The packets of an access, in the order sent. -/
def remoteDrafts (a : Access) (ty kind : Nat) : List Draft :=
  if ty = tyRead then a.lines.map (readDraft a)
  else if ty = tyAtomic then a.lines.map (atomDraft a)
  else if kind = 10 then a.lanes.map signalDraft
  else if kind = 0 then a.lines.map fun l => storeDraft a l 0 (a.on l)
  else (a.lines.map fun l => (elementRounds 32 (a.on l)).map (storeDraft a l kind)).flatten

/-! ### Failures (R328) -/

/-- The fabric fault descriptor of a request. -/
def State.fabDescriptor (s : State) (code ty t unit target addr id op : Nat) (retried : Bool) : List Byte :=
  let gone := match KMap.find s.fab.peers target with | some x => x.state != 0 | none => false
  leBytes 2 code ++ leBytes 1 ty ++ leBytes 1 t ++ leBytes 2 unit ++ leBytes 2 target ++ leBytes 8 addr ++ leBytes 4 id ++ leBytes 1 op ++
    leBytes 1 (b2n gone + 2 * b2n retried) ++ zeros 2 ++ leBytes 8 s.tag

/-- A failing remote access is reported: the descriptor, and the code as a tenant fault event. -/
def State.fabFault (s : State) (code ty t unit target addr id op : Nat) (retried : Bool) : State :=
  let e := s.fabDescriptor code ty t unit target addr id op retried
  (s.event code (.tenant t) [ty, unit, target, addr]).faultEntry t e |>.drawn

/-- The threads of some lanes take a remote error: the first code stands. -/
def State.remoteError (s : State) (u l : Nat) (lanes : List (Nat × Nat)) (code : Nat) : State :=
  lanes.foldl
    (fun (s : State) x => s.modGroup u x.1 fun y =>
      if y.launch = l ∧ KMap.get y.rerr x.2 0 = 0 then { y with rerr := KMap.put y.rerr x.2 (1 + code * 2 ^ 16) } else y) s

/-! ### Answers -/

/-- The groups of an access run on. -/
def State.wake (s : State) (u : Nat) (a : Access) : State :=
  ((a.lanes.map (·.slot)).eraseDups).foldl
    (fun (s : State) g => s.modGroup u g fun x =>
      if x.launch = a.launch then { x with frags := x.frags.map fun f => if f.st = .remote then { f with st := .ready } else f } else x) s

/-- Values for some lanes of an access, and one packet less to come; with the last, a load's or atomic's thread goes on. -/
def State.remotePart (s : State) (u : Nat) (a : Access) (vals : List ((Nat × Nat) × Nat)) : State :=
  let a := { a with
    vals := vals.foldl (fun m v => KMap.put m (32 * v.1.1 + v.1.2) v.2) a.vals, left := a.left - 1 }
  if a.left ≠ 0 then s.putAccess u a
  else if a.kind = .remote then (s.wake u a).finishAccess u a
  else s.dropAccess u a.id

/-- A tumbler's access by its number. -/
def State.access? (s : State) (u id : Nat) : Option Access := (s.tumbler u).acc.find? fun a => a.id == id

/-- Some lanes of an access fail: all ones of its size for a load or atomic, the error flag, and the report. -/
def State.remoteFail (s : State) (u id : Nat) (lanes : List (Nat × Nat)) (p : Pkt) (code : Nat) (retried : Bool) : State :=
  match s.access? u id with
  | none => s
  | some a =>
    let s := s.remoteError u a.launch lanes code
    let s := s.fabFault code p.ty a.tenant (tumblerUnit u) p.dst (p.dst * 2 ^ 48 + p.off) p.id p.op retried
    s.remotePart u a (lanes.map fun x => (x, 2 ^ (8 * a.size) - 1))

/-- A tumbler's request is answered: the bytes of a read, or the lanes' words of an atomic. -/
def State.remoteAnswer (s : State) (u id : Nat) (lanes : List (Nat × Nat)) (p rsp : Pkt) : State :=
  match s.access? u id with
  | none => s
  | some a =>
    let words := lanes.zip (upto 0 lanes.length)
    let val := fun (x : (Nat × Nat) × Nat) =>
      if p.ty = tyAtomic then fld rsp.data (8 * x.2) a.size
      else
        match a.lanes.find? fun y => y.slot == x.1.1 && y.lane == x.1.2 with
        | some y => fld rsp.data (y.va % 2 ^ 48 - p.off) a.size
        | none => 0
    s.remotePart u a (if a.kind = .remote then words.map fun x => (x.1, val x) else [])

/-! ### Issue (R316, R324) -/

/-- Slots of the pool in use: by a tumbler, and in all. -/
def State.poolUse (s : State) (u : Nat) : Nat × Nat :=
  let xs := s.fab.reqs.filter fun r => r.src.pool
  ((xs.filter fun r => match r.src with | .tumbler v _ _ => v == u | _ => false).length, xs.length)

/-- Whether the pool has slots for some packets of a tumbler. -/
def State.poolFree (s : State) (u n : Nat) : Bool :=
  decide ((s.poolUse u).1 + n ≤ 128 ∧ (s.poolUse u).2 + n ≤ 8192)

/-- Sends one packet of an access: without a ward entry, or to a peer that is not LIVE, its lanes fail at once. -/
def State.sendDraft (s : State) (u : Nat) (a : Access) (flow : Nat) (d : Draft) : State :=
  let node := nodeOf d.lo
  let ls := d.lanes.map fun x => (x.slot, x.lane)
  let fail := fun (s : State) (code : Nat) =>
    s.remoteFail u a.id ls
      { ty := d.ty, flags := 0, len := 0, dst := node, src := 0, dstInc := 0, srcInc := 0, domain := 0, flow := 0, op := d.op
        off := offsetOf d.off, id := 0, status := 0, mask := 0, data := [] } code false
  match s.wardDomain a.tenant node (offsetOf d.lo) d.n d.ty with
  | none => fail s 0x404
  | some dom =>
    match s.ask
      { src := .tumbler u a.id ls, tenant := a.tenant, engine := engineOf u, ty := d.ty, flags := if d.mask.isSome then 2 else 0
        dst := node, domain := dom, flow := flow, op := d.op, off := offsetOf d.off, len := d.len, mask := d.mask.getD 0, data := d.data } with
    | (s, 0) => s
    | (s, code) => fail s code

/-- A remote access starts: a load or atomic holds its thread. -/
def State.remoteGo (s : State) (c : Ctx) (a : Access) (ty kind flow : Nat) : State :=
  let ds := remoteDrafts a ty kind
  let a := { a with left := ds.length }
  let s := s.count (tumblerUnit c.u) 7 1
  let s := s.modTumbler c.u fun x => { x with acc := x.acc ++ [a], nextAcc := x.nextAcc + 1 }
  let s := if a.kind = .remote then
      c.ms.foldl (fun (s : State) m => if m.on = 0 then s else s.modGroup c.u m.slot fun x => x.modFrag m.i fun f => { f with st := .remote }) s
    else s
  ds.foldl (fun (s : State) d => s.sendDraft c.u a flow d) s

/-- The access that a remote instruction makes. -/
def State.remoteAccess (s : State) (c : Ctx) (kind : AccessKind) (size : Nat) (lanes : List AccLane) : Access :=
  { id := (s.tumbler c.u).nextAcc, kind := kind, launch := c.l.id, tenant := c.l.tenant, nc := true, size := size, dst := c.w.dst.toNat
    lanes := lanes.map fun x => { x with pa := x.va }, mod := c.w.mod.toNat, walks := [], left := 0, vals := [] }

/-- Checks alignment, then starts the access: a misaligned lane ends the thread with 0305h. -/
def State.remoteStart (s : State) (c : Ctx) (a : Access) (ty kind flow size : Nat) : State :=
  match a.lanes.find? fun x => kind != 10 && (x.va % a.size != 0 || size != a.size) with
  | some x => s.tumMemFault c.u c.l.id c.l.tenant 0x305 a.kind.fault x.va 0
  | none => s.remoteGo c a ty kind flow

/-- LDR and STR. -/
def State.remoteOp (s : State) (u g : Nat) (w : IWord) (store : Bool) : State :=
  let k := memRegs (memSize w)
  let kind := if store then remoteKind w else 0
  let ty := if !store then tyRead else if kind = 0 then tyWrite else tyReduce
  let form : Form := if store then { srcs := [(0, w.sa.toNat, 2), (1, w.sb.toNat, k)], dst := [] }
    else { srcs := [(0, w.sa.toNat, 2)], dst := [(w.dst.toNat, k)] }
  let acc := fun (s : State) (c : Ctx) => s.remoteAccess c (if store then .remoteStore else .remote) (memSize w) (s.accLanes c 0 k)
  s.issue u g w form (fun s c => !remoteLegal w store || s.poolFree u (remoteDrafts (acc s c) ty kind).length) fun s c =>
    s.legal c (remoteLegal w store) fun s =>
      s.remoteStart c (acc s c) ty kind (remoteFlow w) (if 1 ≤ kind ∧ kind ≤ 9 then redSize kind else memSize w)

def execLdr (u : TumblerId) (g : SlotId) (w : IWord) (s : State) : Host.Outcome State Fault Refusal := .next (s.remoteOp u g w false)
def execStr (u : TumblerId) (g : SlotId) (w : IWord) (s : State) : Host.Outcome State Fault Refusal := .next (s.remoteOp u g w true)

/-! ### ATOM (R188, R189, R317) -/

/-- ATOM, by its space: tenant memory, local memory, or a fabric global address on flow 0. -/
def State.atomOp' (s : State) (u g : Nat) (w : IWord) : State :=
  let n := 4 * atomRegs w
  let acc := fun (s : State) (c : Ctx) => s.remoteAccess c .remote n (s.accLanes c 0 (atomRegs w))
  let ok := fun (s : State) (c : Ctx) =>
    !atomLegal w ||
      (if atomSpace w = 0 then s.clear c (s.accLanes c 0 (atomRegs w))
       else if atomSpace w = 2 then s.poolFree u (remoteDrafts (acc s c) tyAtomic 0).length else true)
  s.issue u g w (atomForm w) ok fun s c =>
    s.legal c (atomLegal w) fun s =>
      if atomSpace w = 0 then s.tenantAtom c
      else if atomSpace w = 1 then s.localAtom c
      else s.remoteStart c (acc s c) tyAtomic 0 0 n

def execAtom (u : TumblerId) (g : SlotId) (w : IWord) (s : State) : Host.Outcome State Fault Refusal := .next (s.atomOp' u g w)

end Sys2Proof.Machine
end

