-- ==== Sys2Proof/Machine/FabXfer.lean ====
section
/-! DEFINITION. Fabric engines (The Xagagen fabric port): transfer descriptors, the packets of a transfer, what their answers do, and how every
outbound request ends. -/

namespace Sys2Proof.Machine

/-! ### Descriptors (R319) -/

def xKind (d : List Byte) : Nat := fld d 1 1
def xOp (d : List Byte) : Nat := fld d 2 1
def xSpray (d : List Byte) : Bool := bit (fld d 3 1) 0
def xSignal (d : List Byte) : Bool := bit (fld d 3 1) 1
def xCheck (d : List Byte) : Bool := bit (fld d 3 1) 2
def xFlow (d : List Byte) : Nat := fld d 4 1
def xGroup (d : List Byte) : Nat := fld d 6 2
def xLocal (d : List Byte) : Nat := fld d 8 8
def xRemote (d : List Byte) : Nat := fld d 0x10 8
def xBytes (d : List Byte) : Nat := fld d 0x18 8
def xSigAddr (d : List Byte) : Nat := fld d 0x20 8
def xSigValue (d : List Byte) : Nat := fld d 0x28 8
def xDone (d : List Byte) : Nat := fld d 0x30 8
def xTag (d : List Byte) : Nat := fld d 0x38 4

/-- Whether a descriptor is valid. -/
def xferValid (d : List Byte) : Bool :=
  fld d 0 1 == 1 && decide (1 ≤ xKind d ∧ xKind d ≤ 4) && (if xKind d = 3 then redSize (xOp d) != 0 else xOp d == 0) &&
    decide (fld d 3 1 < 8 ∧ xFlow d < 8) && fld d 5 1 == 0 && fld d 0x3C 4 == 0 && (xKind d != 4 || decide (xGroup d < 256)) &&
    xLocal d % 64 == 0 && xRemote d % 64 == 0 && (xKind d != 4 || decide (xRemote d < 2 ^ 48)) &&
    decide (64 ≤ xBytes d ∧ xBytes d ≤ 2 ^ 40) && xBytes d % 64 == 0 && xDone d % 32 == 0

/-- The packet type of a transfer's data. -/
def xType (d : List Byte) : Nat := if xKind d = 1 then tyWrite else if xKind d = 2 then tyRead else if xKind d = 3 then tyReduce else tyMcast

/-- The domain under which a transfer's packets of one flow go: its whole range is checked (R319). -/
def State.xferDomain (s : State) (t : Nat) (d : List Byte) (flow : Nat) : Option Nat :=
  if xKind d = 4 then s.wardMcast t (xGroup d) flow
  else s.wardDomain t (nodeOf (xRemote d)) (offsetOf (xRemote d)) (xBytes d) (xType d)

/-- Why a transfer is refused before anything is sent: 0409h or 0404h; 0 when it is not. -/
def State.xferRefusal (s : State) (t : Nat) (d : List Byte) : Nat :=
  let flows := if xSpray d then upto 0 8 else [xFlow d]
  if !xferValid d then 0x409 else if flows.any fun f => (s.xferDomain t d f).isNone then 0x404 else 0

/-- A transfer as it starts. -/
def newXfer (o : XferOwner) (t : Nat) (d : List Byte) (data : Option (List Byte)) : Xfer :=
  { owner := o, tenant := t, desc := d, data := data, sent := 0, done := 0, status := 0
    crc := crcFold 1 (crcInit 1) (leBytes 8 (xRemote d)), crcAt := 0, early := [], got := []
    signal := if xSignal d then 1 else 0 }

/-! ### Engines -/

def State.xfer? (s : State) (e : Nat) : Option Xfer := KMap.find s.fab.xfers e

def State.putXfer (s : State) (e : Nat) (x : Xfer) : State := { s with fab := { s.fab with xfers := KMap.put s.fab.xfers e x } }

/-- Packets that an engine has outstanding. -/
def State.engineUse (s : State) (e : Nat) : Nat :=
  (s.fab.reqs.filter fun r => match r.src with | .engine f _ _ => f == e | .engineSignal f => f == e | _ => false).length

/-- Packets that an engine keeps outstanding, of whatever source (R324), and the lowest engine with a slot free. -/
def State.engineLoad (s : State) (e : Nat) : Nat := (s.fab.reqs.filter fun r => !r.src.pool && r.engine == e).length

def State.freeEngine (s : State) : Nat := ((upto 0 16).find? fun e => decide (s.engineLoad e < 512)).getD 0

/-- A transfer meets an event code: the first stands, and nothing more is sent. -/
def Xfer.fail (x : Xfer) (code : Nat) : Xfer := { x with status := if x.status = 0 then code else x.status }

/-- An engine's memory fault is reported to the tenant (R218). -/
def State.xferFault (s : State) (e : Nat) (x : Xfer) (code kind va pa : Nat) : State :=
  let s := s.putXfer e (x.fail code)
  if x.tenant < 16 then
    let s := s.memFault code kind x.tenant (engineUnit e) va pa
    match x.owner with
    | .command r cid => s.markFaults x.tenant r cid
    | .drain .. => s
  else s

/-- The bytes of a transfer's packet, read by its engine. -/
def State.xferData (s : State) (e : Nat) (x : Xfer) (off n : Nat) : State × Fetched :=
  match x.data with
  | some bs => (s, .ok ((bs.drop off).take n))
  | none => s.fetchSpan (engineUnit e) tlbEngine x.tenant (xLocal x.desc + off) n true

/-- Asks for a transfer's data packet, its flow and domain as given. -/
def State.askData (s : State) (e : Nat) (x : Xfer) (off n flow dom : Nat) (data : List Byte) : State × Nat :=
  let a := offsetOf (xRemote x.desc) + off
  s.ask
    { src := .engine e off n, tenant := x.tenant, engine := e, ty := xType x.desc, flags := 0
      dst := if xKind x.desc = 4 then xGroup x.desc else nodeOf (xRemote x.desc)
      domain := dom, flow := flow, op := xOp x.desc, off := a, len := n, mask := 0, data := data }

/-- Sends one data packet of a transfer (R320): false when none can go. -/
def State.feedData (s : State) (e : Nat) (x : Xfer) : State :=
  let a := xRemote x.desc + x.sent
  let n := min (256 - a % 256) (xBytes x.desc - x.sent)
  let i := a / 256 - xRemote x.desc / 256
  let flow := if xSpray x.desc then (xFlow x.desc + i) % 8 else xFlow x.desc
  match s.xferDomain x.tenant x.desc flow with
  | none => s.putXfer e (x.fail 0x404)
  | some dom =>
    match if xKind x.desc = 2 then (s, Fetched.ok []) else s.xferData e x x.sent n with
    | (s, .fault c va pa) => s.xferFault e x c kindEngineRead va pa
    | (s, .ok data) =>
      let x := if xCheck x.desc ∧ xKind x.desc ≠ 2 then { x with crc := crcFold 1 x.crc data, crcAt := x.crcAt + n } else x
      match s.askData e x x.sent n flow dom data with
      | (s, 0) => s.putXfer e { x with sent := x.sent + n }
      | (s, c) => s.putXfer e (x.fail c)

/-- Sends a transfer's signal (R320, R337): ADD by a SIGNAL packet, or SET by an ordered multicast write. -/
def State.feedSignal (s : State) (e : Nat) (x : Xfer) : State :=
  let d := x.desc
  let a := xSigAddr d
  let dom := if xKind d = 4 then s.wardMcast x.tenant (xGroup d) (xFlow d) else s.wardDomain x.tenant (nodeOf a) (offsetOf a) 8 tySignal
  match dom with
  | none => s.putXfer e { x.fail 0x404 with signal := 3 }
  | some dom =>
    let ask : Ask :=
      if xKind d = 4 then
        { src := .engineSignal e, tenant := x.tenant, engine := e, ty := tyMcast, flags := 4, dst := xGroup d, domain := dom, flow := xFlow d
          op := 0, off := offsetOf a, len := 8, mask := 0, data := leBytes 8 (xSigValue d) }
      else
        { src := .engineSignal e, tenant := x.tenant, engine := e, ty := tySignal, flags := 0, dst := nodeOf a, domain := dom, flow := xFlow d
          op := 0, off := offsetOf a, len := 16, mask := 0, data := leBytes 8 (xSigValue d) ++ [2] ++ zeros 7 }
    match s.ask ask with
    | (s, 0) => s.putXfer e { x with signal := 2 }
    | (s, c) => s.putXfer e { x.fail c with signal := 3 }

/-- One step of an engine: the next data packet while fewer than 512 are outstanding, then, without SPRAY, the signal. -/
def State.feedStep (e : Nat) (s : State) : State :=
  match s.xfer? e with
  | none => s
  | some x =>
    if x.status ≠ 0 ∨ 512 ≤ s.engineLoad e then s
    else if x.sent < xBytes x.desc then s.feedData e x
    else if x.signal = 1 ∧ !xSpray x.desc then s.feedSignal e x
    else s

/-- An engine sends what it can. -/
def State.feedEngine (s : State) (e : Nat) : State := times (State.feedStep e) 513 s

/-- An engine with no transfer takes the first that waits, behind the markers that stand at the engine (R19). -/
def State.takeXfer (s : State) (e : Nat) : State :=
  match s.xfer? e, s.fab.queue with
  | none, x :: rest => (({ s with fab := { s.fab with queue := rest } }.passMarkers (engineUnit e)).putXfer e x).feedEngine e
  | _, _ => s

/-- Gives a transfer to the lowest free engine, or has it wait for one. -/
def State.startXfer (s : State) (x : Xfer) : State :=
  let s := { s with fab := { s.fab with queue := s.fab.queue ++ [x] } }
  match (upto 0 16).find? fun e => (s.xfer? e).isNone with
  | some e => s.takeXfer e
  | none => s

/-! ### TRANSFER (R319, R365) -/

def State.transfer (s : State) (t r : Nat) (e : Entry) : State :=
  let va := e.arg 0 8
  if va % 64 ≠ 0 then s.finish t r e.cid 0x602 0 0
  else
    match s.fetchSpan (coreUnit 0) 0 t va 64 false with
    | (s, .fault c a pa) => s.finishMem t r e.cid c kindEngineRead (coreUnit 0) a pa 0
    | (s, .ok d) =>
      match s.xferRefusal t d with
      | 0 => s.startXfer (newXfer (.command r e.cid) t d none)
      | c => s.finish t r e.cid c 0 0

def execTransfer (t : TenantId) (r : RingId) (s : State) : Host.Outcome State Fault Refusal :=
  .next (s.runCommand t r 5 fun s e => s.transfer t r e)

/-! ### SIGNAL (R365): service firmware has an engine send the body -/

def State.signalCommand (s : State) (t r : Nat) (e : Entry) : State :=
  let a := e.arg 0 8
  match s.wardDomain t (nodeOf a) (offsetOf a) 8 tySignal with
  | none => s.finish t r e.cid 0x404 0 0
  | some dom =>
    match s.ask
      { src := .command t r e.cid, tenant := t, engine := s.freeEngine, ty := tySignal, flags := 0, dst := nodeOf a, domain := dom, flow := 0, op := 0
        off := offsetOf a, len := 16, mask := 0, data := (e.bytes.drop 16).take 16 } with
    | (s, 0) => s
    | (s, c) => s.finish t r e.cid c 0 0

def execSignal (t : TenantId) (r : RingId) (s : State) : Host.Outcome State Fault Refusal :=
  .next (s.runCommand t r 4 fun s e => s.signalCommand t r e)

/-! ### How a request ends (R327 to R329) -/

/-- The CRC of a GET takes the data that has become contiguous. -/
def Xfer.take (x : Xfer) : Xfer :=
  match KMap.find x.early x.crcAt with
  | none => x
  | some bs => { x with crc := crcFold 1 x.crc bs, crcAt := x.crcAt + bs.length, early := KMap.del x.early x.crcAt }

/-- A data packet of an engine is answered. -/
def State.xferAnswer (s : State) (e off n code : Nat) (data : List Byte) : State :=
  match s.xfer? e with
  | none => s
  | some x =>
    if code ≠ 0 then s.putXfer e (x.fail code)
    else if xKind x.desc = 2 then
      let bs := data.take n ++ zeros (n - data.length)
      let x := if xCheck x.desc then times Xfer.take 513 { x with early := KMap.put x.early off bs } else x
      match s.storeSpan (engineUnit e) tlbEngine x.tenant (xLocal x.desc + off) bs with
      | (s, .fault c va pa) => s.xferFault e x c kindEngineWrite va pa
      | (s, .ok _) => (s.putXfer e { x with done := x.done + n, got := off :: x.got }).count (engineUnit e) 2 n
    else (s.putXfer e { x with done := x.done + n }).count (engineUnit e) 2 n

/-- A transfer's signal is answered. -/
def State.signalAnswer (s : State) (e code : Nat) : State :=
  match s.xfer? e with
  | none => s
  | some x => s.putXfer e { (if code = 0 then x else x.fail code) with signal := 3 }

/-- Sends what can go now. -/
def State.fabGo (s : State) : State := (upto 0 16).foldl (fun (s : State) e => s.feedEngine e) s.pump

/-- An outbound request ends: with its response, or with a code. -/
def State.endReq (s : State) (r : FabReq) (code : Nat) (rsp : Pkt) : State :=
  let s := s.setReqs (s.fab.reqs.filter fun q => q.id != r.id)
  let p := Pkt.of r.packet
  let s := if code = 0x401 then s.count (engineUnit r.engine) 3 1 else if code = 0x403 then s.count (engineUnit r.engine) 4 1 else s
  let s :=
    match r.src with
    | .tumbler u a lanes => if code = 0 then s.remoteAnswer u a lanes p rsp else s.remoteFail u a lanes p code r.retried
    | .engine e off n => s.xferAnswer e off n code rsp.data
    | .engineSignal e => s.signalAnswer e code
    | .command t ring cid => (s.finish t ring cid code 0 0).afterCode t code
    | .release => s
  s.fabGo

/-- The packet of no response. -/
def Pkt.none' : Pkt :=
  { ty := 0, flags := 0, len := 0, dst := 0, src := 0, dstInc := 0, srcInc := 0, domain := 0, flow := 0, op := 0, off := 0, id := 0
    status := 0, mask := 0, data := [] }

/-- An outstanding request by its number. -/
def State.req? (s : State) (id : Nat) : Option FabReq := s.fab.reqs.find? fun r => r.id == id

/-- Whether a request is an atomic. -/
def FabReq.atomic (r : FabReq) : Bool := (Pkt.of r.packet).ty == tyAtomic

/-- The outstanding request that carries a REQ_ID, among the atomics or among the others: only atomics keep theirs apart (R329). -/
def State.reqOf (s : State) (atomic : Bool) (id : Nat) : Option FabReq :=
  s.fab.reqs.find? fun r => r.atomic == atomic && (Pkt.of r.packet).id == id

/-- REMOTE_TIMEOUT (R327): no response within REMOTE_TMO of the send; it does not apply to atomics (R329). -/
def State.remoteTimeout (s : State) (id : Nat) : State :=
  match s.reqOf false id with
  | some r => if r.port.isSome then s.endReq r 0x401 Pkt.none' else s
  | none => s

def execRemoteTimeout (reqId : Word) (s : State) : Host.Outcome State Fault Refusal := .next (s.remoteTimeout reqId.toNat)

/-- ATOMIC_RETRY (R329): an unanswered atomic is sent again, with RETRY set, the same REQ_ID and identical data, on its flow's port. -/
def State.atomicRetry (s : State) (id : Nat) : State :=
  match s.reqOf true id with
  | some r =>
    if r.port.isSome then
      let p := Pkt.of r.packet
      let bs := ({ p with flags := Nat.lor p.flags 1 } : Pkt).bytes
      let s := s.setReqs (s.fab.reqs.map fun q => if q.id = r.id then { q with packet := bs, retried := true } else q)
      if p.dst = s.node then s.modPort (loopPort r.engine) fun x => { x with requests := x.requests ++ [bs] }
      else
        match s.mapped p.dst p.flow with
        | some q => s.sendPacket q bs none
        | none => s
    else s
  | none => s

def execAtomicRetry (reqId : Word) (s : State) : Host.Outcome State Fault Refusal := .next (s.atomicRetry reqId.toNat)

/-- OUTCOME_UNKNOWN (R329): 150 µs after the first send the atomic ends with 0403h. -/
def State.outcomeUnknown (s : State) (id : Nat) : State :=
  match s.reqOf true id with
  | some r => if r.port.isSome then s.endReq r 0x403 Pkt.none' else s
  | none => s

def execOutcomeUnknown (reqId : Word) (s : State) : Host.Outcome State Fault Refusal := .next (s.outcomeUnknown reqId.toNat)

/-! ### Responses (R309, R318, R327 to R329) -/

/-- The first response of a port, if it is of a type; one that fails its trailer's check is discarded as R309 says. -/
def State.e2eFail (s : State) (p : Nat) : State :=
  (((((s.addSat F.fabE2eErrCount 1).setEvent F.fabEventsE2eCheck).event 0x408 .firmware [p]).event 0x408 .health [p]).count (portUnit p) 6 1)

/-- Takes the response in front of a port if it is of type `ty`, and answers the request it matches by SRC, REQ_ID and TYPE; one that finds
none is late. `f` says how the request ends. -/
def State.response (s : State) (p ty : Nat) (match' : Nat → Bool) (f : State → FabReq → Pkt → State) : State :=
  match (s.port p).responses with
  | [] => s
  | bs :: rest =>
    if (Pkt.of bs).ty ≠ ty then s
    else
      let s := s.modPort p fun x => { x with responses := rest }
      if !pktSound bs then s.e2eFail p
      else
        let k := Pkt.of bs
        match s.fab.reqs.find? fun r => (Pkt.of r.packet).id == k.id && r.port.isSome && (Pkt.of r.packet).dst == k.src && match' (Pkt.of r.packet).ty with
        | none => s.setEvent F.fabEventsLateRsp
        | some r => f s r k

def execReadRsp (p : PortId) (s : State) : Host.Outcome State Fault Refusal :=
  .next (s.response p tyReadRsp (fun t => t == tyRead) fun s r k => s.endReq r 0 k)

def execAck (p : PortId) (s : State) : Host.Outcome State Fault Refusal :=
  .next (s.response p tyAck (fun t => t == tyWrite || t == tyReduce || t == tySignal) fun s r k => s.endReq r 0 k)

def execAtomicRsp (p : PortId) (s : State) : Host.Outcome State Fault Refusal :=
  .next (s.response p tyAtomicRsp (fun t => t == tyAtomic) fun s r k => s.endReq r 0 k)

/-- NACK: RECEIPT_BUSY does not end an atomic, which retries (R329). -/
def execNack (p : PortId) (s : State) : Host.Outcome State Fault Refusal :=
  .next (s.response p tyNack (fun t => t != tyMcast) fun s r k =>
    if k.status = 0x407 ∧ r.atomic then s else s.endReq r k.status k)

end Sys2Proof.Machine
end

