-- ==== Sys2Proof/Machine/Manifest.lean ====
section
/-! DEFINITION. Generations and their manifests (Failure survival and restore): the manifest of R405, the directories of R423 that
this device publishes, and what service firmware reads back of its flash generations when it starts (R428). -/

namespace Sys2Proof.Machine

/-! ### Manifests (R405) -/

/-- What a manifest's header says of its generation. -/
structure GenHead where
  step : Nat
  seq : Nat
  node : Nat
  inc : Nat
  domain : Nat
  tenant : Nat
  layer : Nat
  correlated : Bool
  feed : Nat
  deriving DecidableEq, Repr

/-- A manifest entry. -/
def GenBlock.entry (b : GenBlock) : List Byte :=
  leBytes 4 b.handle ++ leBytes 1 b.part ++ leBytes 1 (b2n (decide (4 ≤ b.part ∧ b.part ≤ 7))) ++ zeros 2 ++ leBytes 8 b.off ++
    leBytes 4 b.len ++ zeros 12 ++ leBytes 32 b.digest.toNat

/-- A manifest, with COMPLETE set: header and entries. CHECK is tagged with STEP. -/
def manifestBytes (h : GenHead) (bs : List GenBlock) : List Byte :=
  let head := leBytes 8 h.step ++ leBytes 8 h.seq ++ leBytes 2 h.node ++ leBytes 2 h.inc ++ leBytes 2 h.domain ++ leBytes 1 h.tenant ++
    leBytes 1 h.layer ++ leBytes 4 bs.length ++ leBytes 4 (b2n h.correlated + 2) ++ leBytes 8 (sumNat (bs.map (·.len))) ++
    leBytes 2 h.feed ++ zeros 6
  let es := (bs.map GenBlock.entry).flatten
  head ++ leBytes 8 (crcFold 1 (crcFold 1 (crcInit 1) (leBytes 8 h.step)) (head ++ es)) ++ zeros 200 ++ es

/-- Whether bytes begin with a complete manifest of a layer whose CHECK holds. -/
def genManifestOk (m : List Byte) (layer : Nat) : Bool :=
  let n := fld m 0x18 4
  decide (256 + 64 * n ≤ m.length) && bit (fld m 0x1C 4) 1 && fld m 0x17 1 == layer &&
    fld m 0x30 8 == crcFold 1 (crcFold 1 (crcInit 1) (leBytes 8 (fld m 0 8))) (m.take 0x30 ++ (m.drop 256).take (64 * n))

/-- The entries of a manifest. -/
def manifestEntries (m : List Byte) : List (List Byte) := chunks 64 (fld m 0x18 4) (m.drop 256)

/-- The digest of a block (R404). -/
def blockDigest (step handle part off : Nat) (data : List Byte) : BitVec 256 :=
  BitVec.ofNat 256 (leNat (shake256 32 (leBytes 8 step ++ leBytes 4 handle ++ leBytes 1 part ++ zeros 3 ++ leBytes 8 off ++ data)))

/-! ### Manifest directories (R423) -/

/-- The offset of the manifest directories. -/
def dirBase : Nat := 0xF00000000000

/-- The directory of a tenant slot that none has been published for. -/
def Directory.empty : Directory :=
  { newer := 2 ^ 64 - 1, step0 := 2 ^ 64 - 1, manifest0 := [], step1 := 2 ^ 64 - 1, manifest1 := [], times := 0 }

/-- A directory's header bytes 00h to 27h: CHECK is tagged with the directory's offset. -/
def Directory.header (d : Directory) (u : Nat) : List Byte :=
  let h := leBytes 8 d.newer ++ leBytes 8 d.step0 ++ leBytes 8 d.step1 ++ leBytes 8 d.times
  h ++ leBytes 8 (crcFold 1 (crcFold 1 (crcInit 1) (leBytes 8 (dirBase + u * 2 ^ 21))) h)

/-- A byte of a directory. -/
def Directory.byte (d : Directory) (u i : Nat) : Byte :=
  if i < 0x1000 then (d.header u).getD i 0
  else if i < 0x100000 then d.manifest0.getD (i - 0x1000) 0
  else if i < 0x1FF000 then d.manifest1.getD (i - 0x100000) 0
  else 0

/-- The directory of a tenant slot. -/
def State.dir (s : State) (u : Nat) : Directory := KMap.get s.sec.dirs u Directory.empty

/-- Publishes a manifest: into the half that HEAD does not name. -/
def Directory.publish (d : Directory) (step : Nat) (m : List Byte) : Directory :=
  if d.newer = 0 then { d with newer := 1, step1 := step, manifest1 := m, times := d.times + 1 }
  else { d with newer := 0, step0 := step, manifest0 := m, times := d.times + 1 }

def State.publish (s : State) (u step : Nat) (m : List Byte) : State :=
  { s with sec := { s.sec with dirs := KMap.put s.sec.dirs u ((s.dir u).publish step m) } }

/-! ### Start-up (R428) -/

/-- Whether a generation slot's record says COMPLETE. -/
def State.genComplete (s : State) (g : Nat) : Bool :=
  match s.livePayload 2 g with
  | some p => fld p 0 1 == 2
  | none => false

/-- The complete flash generations of a tenant slot, the older first. -/
def State.flashGens (s : State) (u : Nat) : List FlashGen :=
  let gs := ([2 * u, 2 * u + 1].filter s.genComplete).filterMap fun g => KMap.find s.flash.gens g
  match gs with
  | [a, b] => if b.step < a.step then [b, a] else [a, b]
  | gs => gs

/-- Service firmware reads RES.GEN for layer 2 from the journal and rebuilds the directory of a tenant slot; PUBLISH counts from there
(R423). -/
def State.loadGens (s : State) (u : Nat) : State :=
  let gs := s.flashGens u
  let s := gs.foldl (fun (s : State) g => s.setReg (.resGen u 2) (BitVec.ofNat 64 g.step)) s
  if gs.isEmpty then s
  else
    let d := gs.foldl (fun (d : Directory) g => d.publish g.step g.manifest) (s.dir u)
    { s with sec := { s.sec with dirs := KMap.put s.sec.dirs u { d with times := 0 } } }

/-- RES becomes READY (R428). -/
def State.resReady (s : State) : State := ((upto 0 16).foldl State.loadGens s).wr F.resStatusReady 1

end Sys2Proof.Machine
end

