-- ==== Sys2Proof/Machine/FabIn.lean ====
section
/-! DEFINITION. Inbound requests of the fabric port (The Xagagen fabric port; Signals and barriers): resolution, ordering, the access at the
home slice, receipts, and the answers. -/

namespace Sys2Proof.Machine

/-! ### Service firmware's inbound space (R312, R418, R423) -/

/-- Bytes of the directories, from an offset. -/
def State.dirBytes (s : State) (off n : Nat) : List Byte :=
  (upto (off - dirBase) n).map fun i => (s.dir (i / 2 ^ 21)).byte (i / 2 ^ 21) (i % 2 ^ 21)

/-- Whether an offset lies in the directories. -/
def inDirs (off : Nat) : Bool := decide (dirBase ≤ off ∧ off < dirBase + 2 ^ 25)

/-- The physical address of an offset of service firmware's inbound space: that of a reservation held. -/
def State.sfResolve (s : State) (off : Nat) : Option Nat :=
  match s.fab.held.find? fun r => decide (r.off ≤ off ∧ off < r.off + r.bytes) && !r.frames.isEmpty with
  | some r => some (frameAddr (r.frames.getD ((off - r.off) / 2 ^ 21) 0) + (off - r.off) % 2 ^ 21)
  | none => none

/-! ### Resolution (R313) -/

/-- The tenant that a domain maps to; 16 for service firmware. -/
def State.domainTenant (s : State) (d : Nat) : Option Nat :=
  if d = 0 then some sfTenant else (s.keeper.domains.find? fun x => x.2 == d).map (·.1)

/-- The engine that translates for a port: one of its quadrant. -/
def portEngine (p : Nat) : Nat := 4 * (if p < 3 then 0 else (p - 1) / 2)

/-- Resolves an offset for a port. -/
def State.resolveIn (s : State) (p t off : Nat) (write : Bool) : State × Xlat :=
  if t = sfTenant then
    match s.sfResolve off with
    | some pa => (s, .pa pa)
    | none => (s, .fault 0x301 0)
  else s.translate (engineUnit (portEngine p)) tlbEngine t off write false

/-- The bytes of its line that a packet's data writes: mask, and 256 bytes. -/
def Pkt.line (k : Pkt) : Nat × List Byte :=
  let o := k.off % 256
  let m := (2 ^ k.data.length - 1) * 2 ^ o
  (if k.masked then Nat.land m k.mask else m, zeros o ++ k.data ++ zeros (256 - o - k.data.length))

/-- Whether a packet stays within its line. -/
def Pkt.inLine (k : Pkt) (n : Nat) : Bool := decide (k.off % 256 + n ≤ 256)

/-! ### Answers -/

/-- Sends a response, echoing the request's domain, flow and offset, on the port its flow maps to; with none the response is lost. -/
def State.sendRsp (s : State) (p dst flow : Nat) (bs : List Byte) : State :=
  if dst = s.node then s.modPort p fun x => { x with responses := x.responses ++ [bs] }
  else
    match s.mapped dst flow with
    | some q => s.sendPacket q bs none
    | none => s

def State.rspBytes (s : State) (k : Pkt) (ty status : Nat) (data : List Byte) : List Byte :=
  ({ ty := ty, flags := 0, len := data.length, dst := k.src, src := s.node, dstInc := k.srcInc, srcInc := s.inc, domain := k.domain
     flow := k.flow, op := 0, off := k.off, id := k.id, status := status, mask := 0, data := data } : Pkt).bytes

def State.respond (s : State) (p : Nat) (k : Pkt) (ty status : Nat) (data : List Byte) : State :=
  if k.ty = tyMcast then s else s.sendRsp p k.src k.flow (s.rspBytes k ty status data)

/-- ACK, or NACK with a code. -/
def State.ackOr (s : State) (p : Nat) (k : Pkt) (code : Nat) : State :=
  if code = 0 then s.respond p k tyAck 0 [] else s.respond p k tyNack code []

/-! ### Ordering (R322) -/

/-- Whether a request waits for an earlier packet of its flow: one that a reduction unit has for the same line, or, for a signal or an
ordered packet, any. -/
def State.mustWait (s : State) (p : Nat) (k : Pkt) : Bool :=
  (s.port p).landing.any fun l =>
    let j := Pkt.of l.packet
    j.src == k.src && j.dst == k.dst && j.domain == k.domain && j.flow == k.flow &&
      (k.ty == tySignal || k.ordered || j.off / 256 == k.off / 256)

/-- The request in front of a port leaves it, and its credits are owed to the peer (R325); a loopback has come over no link. -/
def State.takeRequest (s : State) (p : Nat) (k : Pkt) (bs : List Byte) (rest : List (List Byte)) : State :=
  let s := s.modPort p fun x => { x with requests := rest }
  if k.src = s.node then s else s.owe p 0 bs

/-- Takes the request in front of a port if it is of type `ty`: its trailer, its incarnation and its order are checked. -/
def State.inbound (s : State) (p ty : Nat) (f : State → Pkt → State) : State :=
  match (s.port p).requests with
  | [] => s
  | bs :: rest =>
    let k := Pkt.of bs
    if k.ty ≠ ty then s
    else
      let rested := s.takeRequest p k bs rest
      if !pktSound bs then rested.e2eFail p
      else if ty ≠ tyMcast ∧ k.dstInc ≠ s.inc then rested.respond p k tyNack 0x402 []
      else if s.mustWait p k then s
      else f rested k

/-- A request's tenant; an unknown domain is answered 0406h. -/
def State.withTenant (s : State) (p : Nat) (k : Pkt) (f : State → Nat → State) : State :=
  match s.domainTenant k.domain with
  | some t => f s t
  | none => s.respond p k tyNack 0x406 []

/-- A request refused because it touches an active record. -/
def State.recordNack (s : State) (p : Nat) (k : Pkt) : State :=
  match State.refused (s, 0x501) with
  | (s, c) => s.respond p k tyNack c []

/-- Resolves a request's address; a fault, or an access across lines, is answered by its code. -/
def State.withAddress (s : State) (p : Nat) (k : Pkt) (t n : Nat) (write : Bool) (f : State → Nat → State) : State :=
  if !k.inLine n then s.respond p k tyNack 0x305 []
  else
    match s.resolveIn p t k.off write with
    | (s, .fault c _) => s.respond p k tyNack c []
    | (s, .pa pa) => if s.touchesRecord pa n then s.recordNack p k else f s pa

/-! ### Reads and writes -/

/-- INBOUND_READ. -/
def State.inRead (s : State) (p : Nat) (k : Pkt) : State :=
  s.withTenant p k fun s t =>
    if t = sfTenant ∧ inDirs k.off then
      if k.inLine k.len then s.respond p k tyReadRsp 0 (s.dirBytes k.off k.len) else s.respond p k tyNack 0x305 []
    else
      s.withAddress p k t k.len false fun s pa =>
        let s := s.readAs pa k.len t (engineUnit (portEngine p)) false
        if s.poisoned pa k.len then s.respond p k tyNack 0x304 []
        else
          s.respond p k tyReadRsp 0 (s.read pa k.len)

def execInboundRead (p : PortId) (s : State) : Host.Outcome State Fault Refusal :=
  .next (s.inbound p tyRead fun s k => s.inRead p k)

/-- INBOUND_WRITE, and a multicast write: applied whole in one access of the home slice (R326). -/
def State.inWrite (s : State) (p : Nat) (k : Pkt) : State :=
  s.withTenant p k fun s t =>
    if t = sfTenant ∧ inDirs k.off then s.respond p k tyNack 0x302 []
    else
      s.withAddress p k t k.data.length true fun s pa =>
        let m := k.line
        (s.writeLine (pa / 256) m.1 m.2).ackOr p k 0

def execInboundWrite (p : PortId) (s : State) : Host.Outcome State Fault Refusal :=
  .next (s.inbound p tyWrite fun s k => s.inWrite p k)

def execInboundMcastWrite (p : PortId) (s : State) : Host.Outcome State Fault Refusal :=
  .next (s.inbound p tyMcast fun s k => s.inWrite p k)

/-! ### Reductions and atomics -/

/-- Hands a request to the reduction unit of its home slice. -/
def State.land (s : State) (p t pa : Nat) (k : Pkt) (code mask : Nat) (data : List Byte) (atoms : List AtomLane) : State :=
  let key := s.fab.nextKey
  let s := { s with fab := { s.fab with nextKey := key + 1 } }
  let s := s.modPort p fun x =>
    { x with landing := x.landing ++ [{ key := key, packet := k.bytes, pa := pa, lanes := atoms.map (·.lane) }] }
  s.sendRed { line := pa / 256, tenant := t, code := code, mask := mask, data := data, atoms := atoms, src := .port p key
              unit := engineUnit (portEngine p) }

/-- INBOUND_REDUCE: R243's check is the slice's. -/
def State.inReduce (s : State) (p : Nat) (k : Pkt) : State :=
  s.withTenant p k fun s t =>
    if t = sfTenant ∧ inDirs k.off then s.respond p k tyNack 0x302 []
    else
      s.withAddress p k t k.data.length true fun s pa =>
        let m := k.line
        if redSize k.op = 0 then s.respond p k tyNack 0x30C [] else s.land p t pa k k.op m.1 m.2 []

def execInboundReduce (p : PortId) (s : State) : Host.Outcome State Fault Refusal :=
  .next (s.inbound p tyReduce fun s k => s.inReduce p k)

/-- The lanes of an ATOMIC's data (R309). -/
def Pkt.atoms (k : Pkt) : List AtomLane :=
  let mask := fld k.data 32 4
  let ls := (upto 0 32).filter fun l => bit mask l
  (ls.zip (upto 0 ls.length)).map fun x =>
    { lane := x.1, off := fld k.data x.1 1, ty := k.op / 16 % 4, op := k.op % 16, operand := fld k.data (40 + 8 * x.2) 8
      compare := fld k.data (40 + 8 * ls.length + 8 * x.2) 8 }

/-- The receipt cache of a packet: its home port (R329 step 2). -/
def Pkt.home (k : Pkt) : Nat := (k.src + k.id) % 9

def Receipt.of (r : Receipt) (k : Pkt) : Bool := r.src == k.src && r.inc == k.srcInc && r.id == k.id

/-- A packet's receipt. -/
def State.receipt? (s : State) (k : Pkt) : Option Receipt := (s.port k.home).receipts.find? fun r => r.of k

/-- An atomic ends at the target: the response is stored in its entry, if it still lives, and sent. -/
def State.atomicDone (s : State) (p : Nat) (k : Pkt) (ty status : Nat) (data : List Byte) : State :=
  let bs := s.rspBytes k ty status data
  let s := s.modPort k.home fun x =>
    { x with receipts := x.receipts.map fun r => if r.of k then { r with done := some bs } else r }
  s.sendRsp p k.src k.flow bs

/-- A first arrival executes (R313, R329 step 3): its faults are stored like results. -/
def State.atomicFirst (s : State) (p : Nat) (k : Pkt) : State :=
  let s := s.modPort k.home fun x => { x with receipts := x.receipts ++ [{ src := k.src, inc := k.srcInc, id := k.id, done := none }] }
  let nack := fun (s : State) (c : Nat) => s.atomicDone p k tyNack c []
  match s.domainTenant k.domain with
  | none => nack s 0x406
  | some t =>
    let atoms := k.atoms
    let n := if k.op / 16 % 4 = 2 then 8 else 4
    if k.off % 8 ≠ 0 ∨ atoms.any fun x => x.off % n != 0 then nack s 0x305
    else if 8 ≤ k.op % 16 ∨ 64 ≤ k.op ∨ atoms.isEmpty ∨ (k.op / 16 % 4 = 3 ∧ ! [0, 1, 2, 6, 7].contains (k.op % 16)) then nack s 0x30C
    else if t = sfTenant ∧ inDirs k.off then nack s 0x302
    else
      match s.resolveIn p t k.off true with
      | (s, .fault c _) => nack s c
      | (s, .pa pa) =>
        if atoms.any fun x => s.touchesRecord (pa / 256 * 256 + x.off) n then
          match State.refused (s, 0x501) with
          | (s, c) => nack s c
        else s.land p t pa k 0 0 [] atoms

/-- INBOUND_ATOMIC (R329): a repeat replays its stored response or is discarded, a full cache answers 0407h, and a first arrival executes. -/
def State.inAtomic (s : State) (p : Nat) (k : Pkt) : State :=
  match s.receipt? k with
  | some r =>
    match r.done with
    | some bs => (s.count (portUnit k.home) 7 1).sendRsp p k.src k.flow bs
    | none => s
  | none =>
    if 4096 ≤ (s.port k.home).receipts.length then
      ((s.setEvent F.fabEventsReceiptBusy).count (portUnit k.home) 8 1).respond p k tyNack 0x407 []
    else s.atomicFirst p k

def execInboundAtomic (p : PortId) (s : State) : Host.Outcome State Fault Refusal :=
  .next (s.inbound p tyAtomic fun s k => s.inAtomic p k)

/-- RECEIPT_EXPIRY (R329 step 5): the oldest entry of a port's cache ends. -/
def execReceiptExpiry (p : PortId) (s : State) : Host.Outcome State Fault Refusal :=
  .next (s.modPort p fun x => { x with receipts := x.receipts.tail })

/-- The reduction unit answers an inbound request: by its code, or with the lanes' values in lane order. -/
def State.landed (s : State) (p key code : Nat) (values : List (Nat × Nat)) : State :=
  match (s.port p).landing.find? fun l => l.key == key with
  | none => s
  | some l =>
    let s := s.modPort p fun x => { x with landing := x.landing.filter fun m => m.key != key }
    let k := Pkt.of l.packet
    if k.ty = tyReduce then s.ackOr p k code
    else if code ≠ 0 then s.atomicDone p k tyNack code []
    else s.atomicDone p k tyAtomicRsp 0 ((values.map fun v => leBytes 8 v.2).flatten)

/-! ### Signals (R335, R336, R341) -/

/-- INBOUND_SIGNAL: before the unit is READY it waits (R352). -/
def State.inSignal (s : State) (p : Nat) (k : Pkt) : State :=
  s.withTenant p k fun s t =>
    if k.off % 8 ≠ 0 then s.respond p k tyNack 0x305 []
    else if t = sfTenant ∧ inDirs k.off then s.respond p k tyNack 0x302 []
    else
      match s.resolveIn p t k.off true with
      | (s, .fault c _) => s.respond p k tyNack c []
      | (s, .pa pa) =>
        match s.signalAt pa k.data with
        | (s, c) => s.ackOr p k c

def execInboundSignal (p : PortId) (s : State) : Host.Outcome State Fault Refusal :=
  .next (if s.has F.synStatusReady then s.inbound p tySignal fun s k => s.inSignal p k else s)

end Sys2Proof.Machine
end

