-- ==== Sys2Proof/Machine/Drain.lean ====
section
/-! DEFINITION. Securing (Failure survival and restore): what a generation holds, how a securing starts, the drains of the three
layers, and how they complete or are abandoned. -/

namespace Sys2Proof.Machine

/-! ### The secured set (R402, R403) -/

/-- The length of a block. -/
def blockMax : Nat := 2 ^ 26

/-- Cuts `n` bytes of a part into blocks. -/
def cutBlocks (handle part n : Nat) (staged : Option (List Byte)) : List SrcBlock :=
  (upto 0 ((n + blockMax - 1) / blockMax)).map fun i =>
    { handle := handle, part := part, off := blockMax * i, len := min blockMax (n - blockMax * i)
      staged := staged.map fun bs => (bs.drop (blockMax * i)).take blockMax }

/-- The parts of a trainable weight that a generation holds: the state buffer and the working copies in force, by part code. -/
def Tensor.secured (x : Tensor) (buf : Nat) : List Part :=
  if x.cls = 1 ∧ !x.freed then (upto 0 8).filterMap fun c => x.parts.find? fun q => q.code == c && q.side == buf else []

/-- A tenant's tensors by handle. -/
def State.byHandle (s : State) (t : Nat) : List Tensor :=
  let ts := (s.tenant t).place.tensors
  (ts.map fun x => x.handle).foldl (fun (m : List Nat) h => (m.filter fun y => decide (y < h)) ++ h :: m.filter fun y => decide (h < y)) []
    |>.filterMap fun h => ts.find? fun x => x.handle == h

/-- The small state staged: record slot, numeric state, numeric records in handle order. -/
def State.smallState (s : State) (t : Nat) : List SrcBlock :=
  let x := s.tenant t
  let recs := (x.recs.map fun r => r.2.bytes).flatten
  let slot := x.step.recordBytes x.step.record
  cutBlocks 0 0xF0 slot.length (some slot) ++ cutBlocks 0 0xF1 x.num.bytes.length (some x.num.bytes) ++
    cutBlocks 0 0xF2 recs.length (some recs)

/-- The blocks of a generation of the record in force, in order. -/
def State.sourceBlocks (s : State) (t : Nat) : List SrcBlock :=
  s.smallState t ++
    ((s.byHandle t).map fun x =>
      ((x.secured (s.tenant t).step.buf).map fun q => cutBlocks x.handle q.code q.bytes none).flatten).flatten

/-- The blocks of a generation on flash, as a layer-3 drain reads them. -/
def FlashGen.source (g : FlashGen) : List SrcBlock :=
  g.blocks.map fun b => { handle := b.handle, part := b.part, off := b.off, len := b.len, staged := some b.data }

def sourceBytes (bs : List SrcBlock) : Nat := sumNat (bs.map (·.len))

/-! ### Where a generation stands in a reservation or a window -/

/-- The room of a manifest of `n` entries, and a block's. -/
def manifestRoom (n : Nat) : Nat := (256 + 64 * n + 65535) / 65536 * 65536
def blockRoom (n : Nat) : Nat := (n + 63) / 64 * 64

/-- The room of a generation. -/
def genRoom (bs : List SrcBlock) : Nat := manifestRoom bs.length + sumNat (bs.map fun b => blockRoom b.len)

/-- The reservation that the partner holds for this device. -/
def State.reservation (s : State) : Option Reservation :=
  match s.fab.partner with
  | some (node, inc) => s.fab.origins.find? fun r => r.peer == node && r.inc == inc
  | none => none

/-- The stretch of the reservation that a tenant's next generation takes: its own when it is long enough, else the first free one. -/
def State.regionFor (s : State) (t n : Nat) (r : Reservation) : Option (Nat × Nat) :=
  let own := match KMap.find s.sec.regions t with
    | some x => if n ≤ x.2 then some x else none
    | none => none
  match own with
  | some x => some x
  | none =>
    let taken := (s.sec.regions.filter fun x => x.1 != t).map (·.2)
    let a := fitVa taken 65536 n (taken.length + 1) 0
    if a + n ≤ r.bytes then some (a, n) else none

/-! ### Drains -/

def State.drain? (s : State) (t layer : Nat) : Option Drain := s.sec.drains.find? fun d => d.tenant == t && d.layer == layer

def Drain.is (d : Drain) (t layer : Nat) : Bool := d.tenant == t && d.layer == layer

/-- The drains that run, as RES.STATUS shows them. -/
def State.setDrains (s : State) (ds : List Drain) : State :=
  { s with sec := { s.sec with drains := ds } }.wr F.resStatusDraining (b2n !ds.isEmpty)

def State.putDrain (s : State) (d : Drain) : State :=
  s.setDrains (s.sec.drains.map fun e => if e.is d.tenant d.layer then d else e)

/-- The feed identifier in use (R406). -/
def State.feedInUse (s : State) : Nat := if s.rd F.resFeedFmFeed ≠ 0xFFFF then s.rd F.resFeedFmFeed else s.rd F.resFeedStrapFeed

/-- The manifest of a drain's generation (R405). -/
def State.drainManifest (s : State) (d : Drain) : List Byte :=
  manifestBytes
    { step := d.step, seq := d.seq, node := s.node, inc := s.inc, domain := KMap.get s.keeper.domains d.tenant 0, tenant := d.tenant
      layer := d.layer, correlated := s.has F.resStatusCorrelated, feed := s.feedInUse } d.done

/-- Whether a transfer is a drain's. -/
def Xfer.drainOf (x : Xfer) (t layer : Nat) : Bool :=
  match x.owner with
  | .drain t' l _ => t' == t && l == layer
  | .command .. => false

/-- A GENERATION record (R433): MAP_EXTENT and MAP_CRC depend on an extent map whose layout the spec leaves open. -/
def State.genRecord (s : State) (g st step seq bytes : Nat) : State :=
  (s.journalOffer (firmwareRecord 2 (g / 2) g
    (leBytes 1 st ++ leBytes 8 step ++ leBytes 8 seq ++ leBytes 8 bytes ++ leBytes 4 (s.draw % 2 ^ 32) ++
      leBytes 8 (Config.freeValue (s.free + 1) % 2 ^ 64)))).drawn.drawn

/-- A generation slot that a drain has left is FREE. -/
def State.freeGenSlot (s : State) (g : Nat) : State :=
  match KMap.find s.flash.gens g with
  | some x =>
    if x.state = 1 then { s with flash := { s.flash with gens := KMap.del s.flash.gens g } }.genRecord g 3 x.step x.seq x.bytes else s
  | none => s

/-- What becomes of an abandoned drain's transfers: those that wait go, those that run send no more. -/
def State.dropDrainXfers (s : State) (t layer : Nat) : State :=
  { s with fab := { s.fab with
      queue := s.fab.queue.filter fun x => !x.drainOf t layer
      xfers := s.fab.xfers.mapVals fun _ x => if x.drainOf t layer then { x with status := 0x604 } else x } }

/-- Whether a securing of layer 1 or 2 still runs or can start: a layer-1 one needs a partner. -/
def State.securing (s : State) : Bool :=
  (s.sec.drains.any fun d => decide (d.layer ≤ 2)) || s.sec.due.any fun x => x.2 == 2 || (x.2 == 1 && s.reservation.isSome)

/-- With the host lost, the device resets once every tenant is secured (R381). -/
def State.lostEnd (s : State) : State := if s.hif.hostLost && !s.securing then s.resetSequence 5 else s

/-- A drain is abandoned (R416). -/
def State.abandon (s : State) (t layer cause : Nat) : State :=
  match s.drain? t layer with
  | none => s
  | some d =>
    let s := (s.setDrains (s.sec.drains.filter fun e => !e.is t layer)).dropDrainXfers t layer
    let s := if layer = 1 then s.setReg (.resGen t 1) (BitVec.allOnes 64) else if layer = 2 then s.freeGenSlot d.genSlot else s
    ((s.setEvent F.resEventsAbandoned).tell t 0x70A (coreUnit 0) layer cause).lostEnd

/-- A securing that cannot start in a layer is abandoned at once. -/
def State.abandonStart (s : State) (t layer cause : Nat) : State :=
  ((s.setEvent F.resEventsAbandoned).tell t 0x70A (coreUnit 0) layer cause).lostEnd

/-- Every drain of a tenant. -/
def State.abandonAll (s : State) (t cause : Nat) : State := [1, 2, 3].foldl (fun (s : State) l => s.abandon t l cause) s

/-- A drain completes (R415). -/
def State.drainDone (s : State) (d : Drain) : State :=
  let s := s.setDrains (s.sec.drains.filter fun e => !e.is d.tenant d.layer)
  let s := (s.setEvent F.resEventsSecured).tell d.tenant 0x70B (coreUnit 0) d.layer d.step
  let s := s.setReg (.resGen d.tenant d.layer) (BitVec.ofNat 64 d.step)
  (if d.layer = 3 then s else s.publish d.tenant d.step (s.drainManifest d)).lostEnd

/-! ### A securing starts (R410 to R412) -/

/-- A due securing of a tenant in a layer goes. -/
def State.undue (s : State) (t layer : Nat) : State :=
  { s with sec := { s.sec with
      due := s.sec.due.filter fun x => x != (t, layer)
      budgetWait := if layer = 2 then s.sec.budgetWait.filter fun x => x != t else s.sec.budgetWait } }

/-- Whether a tenant's due securing of a layer may start, its own layer's needs apart. -/
def State.mayStartDrain (s : State) (t layer : Nat) : Bool :=
  s.has F.resStatusReady && s.sec.due.contains (t, layer) && s.active t && (s.tenant t).step.phase != .post && (s.drain? t layer).isNone &&
    ((s.sec.restore.map (·.tenant)) != some t) && (layer != 1 || s.reservation.isSome) && (layer != 2 || s.has F.durStatusReady)

/-- The place of a tenant among those due (R411): none before any step. -/
def State.dueOrder (s : State) (t layer : Nat) : Nat := if s.genStep t layer = 2 ^ 64 - 1 then 0 else s.genStep t layer + 1

/-- Whether a tenant is the first served of those whose securing of a layer may start. -/
def State.dueFirst (s : State) (t layer : Nat) : Bool :=
  (upto 0 16).all fun u =>
    u == t || !s.mayStartDrain u layer ||
      decide (s.dueOrder t layer < s.dueOrder u layer ∨ (s.dueOrder t layer = s.dueOrder u layer ∧ t < u))

/-- A drain of the record in force. -/
def State.newDrain (s : State) (t layer : Nat) (bs : List SrcBlock) (genSlot base : Nat) : Drain :=
  let x := (s.tenant t).step
  { tenant := t, layer := layer, step := x.record.step, seq := x.seq, buf := x.buf, slot := x.slot, blocks := bs, done := [], rereads := 0
    paused := decide (2 ≤ layer) && s.inWarning, phase := .blocks, genSlot := genSlot, base := base, next := manifestRoom bs.length }

/-- Layer 1: a stretch of the partner's reservation; one too small is met as a memory-class NACK would be. -/
def State.startPartner (s : State) (t : Nat) : State :=
  match s.reservation with
  | none => s
  | some r =>
    let bs := s.sourceBlocks t
    let s := s.undue t 1
    match s.regionFor t (genRoom bs) r with
    | none => s.abandonStart t 1 7
    | some x =>
      let s := { s with sec := { s.sec with regions := KMap.put s.sec.regions t x } }
      s.setDrains (s.sec.drains ++ [s.newDrain t 1 bs 0 (r.peer * 2 ^ 48 + r.off + x.1)])

/-- The generation slot of a tenant that a layer-2 drain writes (R438): a FREE one, else that of the older generation. -/
def State.genSlotFor (s : State) (t : Nat) : Nat :=
  if !s.genComplete (2 * t) then 2 * t
  else if !s.genComplete (2 * t + 1) then 2 * t + 1
  else
    let st := fun g => match KMap.find s.flash.gens g with | some x => x.step | none => 0
    if st (2 * t + 1) < st (2 * t) then 2 * t + 1 else 2 * t

/-- Extents of 64 MiB that a generation takes, with its map extent. -/
def genExtents (bytes : Nat) : Nat := (bytes + blockMax - 1) / blockMax + 1

/-- Extents of the generation area in use, but for one slot's. -/
def State.extentsUsed (s : State) (g : Nat) : Nat := sumNat ((s.flash.gens.filter fun x => x.1 != g).map fun x => genExtents x.2.bytes)

/-- Whether the generations' bucket lets a drain start (R442). -/
def State.bucketAllows (s : State) (mib : Nat) : Bool :=
  decide ((mib : Int) ≤ s.bucket 0) ||
    (decide (2 ≤ s.rd F.resRiskLevel) && decide (-(s.rd (F.durBudgetDaily 0) : Int) ≤ s.bucket 0 - mib))

/-- Layer 2: the GENERATION record WRITING is offered; without the budget the securing stays due. -/
def State.startFlash (s : State) (t : Nat) : State :=
  let bs := s.sourceBlocks t
  let n := sourceBytes bs
  let g := s.genSlotFor t
  if s.has F.durStatusReadOnly ∨ 16384 < s.extentsUsed g + genExtents n then (s.undue t 2).abandonStart t 2 3
  else if !s.bucketAllows (mibOf n) then
    if s.sec.budgetWait.contains t then s
    else ({ s with sec := { s.sec with budgetWait := s.sec.budgetWait ++ [t] } }.setEvent F.durEventsWearBudget).event 0x807 .device [t]
  else
    let d := s.newDrain t 2 bs g 0
    let s := (s.undue t 2).setBucket 0 (s.bucket 0 - mibOf n)
    (s.setDrains (s.sec.drains ++ [d])).genRecord g 1 d.step d.seq n

/-- Layer 3: the newest complete flash generation, into the tenant's window. -/
def State.startShared (s : State) (t : Nat) : State :=
  let a := (s.reg (.resL3Addr t)).toNat
  let s := s.undue t 3
  match (s.flashGens t).getLast? with
  | none => s
  | some g =>
    if a = 0 then s
    else if s.rd (F.resL3SizeGib t) * 2 ^ 30 < genRoom g.source then s.abandonStart t 3 4
    else
      let d := s.newDrain t 3 g.source 0 a
      s.setDrains (s.sec.drains ++ [{ d with step := g.step, seq := g.seq }])

/-- SECURING_START (R412): the due layers of a tenant that may start, on the record in force. -/
def State.securingStart (s : State) (t : Nat) : State :=
  [1, 2, 3].foldl
    (fun (s : State) l =>
      if s.mayStartDrain t l && s.dueFirst t l then (if l = 1 then s.startPartner t else if l = 2 then s.startFlash t else s.startShared t)
      else s) s

def execSecuringStart (t : TenantId) (s : State) : Host.Outcome State Fault Refusal := .next (s.securingStart t)

/-- BUCKET_REFILL (R442): a bucket that refills continuously reaches what a waiting drain needs: the first of those that wait starts. -/
def State.bucketRefill (s : State) : State :=
  match s.sec.budgetWait with
  | [] => s
  | t :: _ =>
    let n := mibOf (sourceBytes (s.sourceBlocks t))
    let s := if s.bucket 0 < n then s.setBucket 0 (min n (2 * s.rd (F.durBudgetDaily 0))) else s
    if s.mayStartDrain t 2 then s.startFlash t else s

def execBucketRefill (s : State) : Host.Outcome State Fault Refusal := .next s.bucketRefill

/-! ### Blocks (R413, R414) -/

/-- The cause of a failed transfer (R416). -/
def xferCause (layer code : Nat) : Nat := if layer = 3 then 4 else if 0x301 ≤ code ∧ code ≤ 0x30F then 7 else 2

/-- A PUT descriptor of service firmware's (R319). -/
def putDesc (addr bytes : Nat) : List Byte :=
  leBytes 1 1 ++ leBytes 1 1 ++ zeros 1 ++ leBytes 1 1 ++ zeros 12 ++ leBytes 8 addr ++ leBytes 8 bytes ++ zeros 32

/-- Writes bytes by a PUT transfer; one that the ward table does not cover abandons the drain. -/
def State.drainPut (s : State) (t layer : Nat) (manifest : Bool) (addr : Nat) (bs : List Byte) : State :=
  let d := putDesc addr (blockRoom bs.length)
  match s.xferRefusal sfTenant d with
  | 0 => s.startXfer (newXfer (.drain t layer manifest) sfTenant d (some (bs ++ zeros (blockRoom bs.length - bs.length))))
  | c => (s.event c .firmware [t, layer]).abandon t layer (xferCause layer c)

/-- Whether a drain still has transfers. -/
def State.drainBusy (s : State) (t layer : Nat) : Bool :=
  (s.fab.queue.any fun x => x.drainOf t layer) || s.fab.xfers.any fun x => x.2.drainOf t layer && x.2.status != 0x604

/-- The manifest follows once every block has been written and acknowledged. -/
def State.drainClose (s : State) (t layer : Nat) : State :=
  match s.drain? t layer with
  | none => s
  | some d =>
    if d.phase ≠ .blocks ∨ !d.blocks.isEmpty ∨ s.drainBusy t layer then s
    else
      let m := s.drainManifest d
      let s := s.putDrain { d with phase := .closing }
      if layer = 2 then
        let n := sumNat (d.done.map (·.len))
        let s := { s with flash := { s.flash with gens := s.flash.gens.mapVals fun g x => if g = d.genSlot then { x with manifest := m } else x } }
        (s.tlcWrite m.length).genRecord d.genSlot 2 d.step d.seq n
      else s.drainPut t layer true d.base m

/-- Layer 2 writes a block into its slot. -/
def State.flashBlock (s : State) (d : Drain) (b : GenBlock) : State :=
  { s with flash := { s.flash with gens := s.flash.gens.mapVals fun g x =>
      if g = d.genSlot then { x with blocks := x.blocks ++ [b] } else x } }.tlcWrite b.len

/-- The digests that drains have computed of the state buffer that a drain reads. -/
def State.digestsOf (s : State) (d : Drain) : List BlockDigest :=
  match KMap.find s.sec.digests d.tenant with
  | some x => if x.1 = d.seq then x.2 else []
  | none => []

/-- Whether a block's digest differs from what another drain of the same state buffer has computed of it (R414). -/
def State.digestDiffers (s : State) (d : Drain) (b : GenBlock) : Bool :=
  d.layer != 3 && b.handle != 0 &&
    (s.digestsOf d).any fun c => c.handle == b.handle && c.part == b.part && c.off == b.off && c.digest != b.digest

/-- Keeps a block's digest for the drains that read it after. -/
def State.keepDigest (s : State) (d : Drain) (b : GenBlock) : State :=
  if d.layer = 3 ∨ b.handle = 0 then s
  else { s with sec := { s.sec with
    digests := KMap.put s.sec.digests d.tenant (d.seq, s.digestsOf d ++ [{ handle := b.handle, part := b.part, off := b.off, digest := b.digest }]) } }

/-- A block is written to its layer. -/
def State.putBlock (s : State) (d : Drain) (b : GenBlock) (rest : List SrcBlock) : State :=
  let s := s.putDrain { d with blocks := rest, done := d.done ++ [b], rereads := 0, next := d.next + blockRoom b.len }
  let s := if d.layer = 1 then s.setReg (.resGen d.tenant 1) (BitVec.allOnes 64) else s
  let s := s.keepDigest d b
  let s := if d.layer = 2 then s.flashBlock d b else s.drainPut d.tenant d.layer false (d.base + d.next) b.data
  s.drainClose d.tenant d.layer

/-- Two drains' digests of one block differ for good (R414). -/
def State.unstable (s : State) (t : Nat) : State :=
  let s := (s.abandon t 1 6).abandon t 2 6
  let s := { s with sec := { s.sec with digests := KMap.del s.sec.digests t } }
  ((s.setEvent F.resEventsUnstable).event 0x70F .device [t]).healthInput .unstable

/-- The physical pieces of a block of a part in force. -/
def State.blockPieces (s : State) (t : Nat) (d : Drain) (b : SrcBlock) : List (Nat × Nat) :=
  match (s.tenant t).place.tensors.find? fun x => x.handle == b.handle with
  | some x =>
    match x.parts.find? fun q => q.code == b.part && q.side == d.buf with
    | some q => q.pieces b.off b.len
    | none => []
  | none => []

/-- Whether a check unit is service firmware's, to check stripes (R413). -/
def State.canCheck (s : State) : Bool := (upto 0 28).any fun u => s.rd (F.chkCtrlOwner u) == 0

/-- Whether a drain of layer 2 may write: its WRITING record stands. -/
def State.slotOpen (s : State) (d : Drain) : Bool :=
  d.layer != 2 || (match KMap.find s.flash.gens d.genSlot with | some x => x.state == 1 && x.seq == d.seq | none => false)

/-- DRAIN_BLOCK_END: the next block is read, hashed and written. `other` gives the bytes that the read returned where they are not
those of the memory (R414); `ok` whether the flash could be written, or read. Nothing happens while the drain pauses (R417), with the load cut
(R449), while its WRITING record is not committed, while layer 2 has no check unit, or while the block touches poison that R425 has not repaired. -/
def State.drainBlockEnd (s : State) (t layer : Nat) (other : Option (List Byte)) (ok : Bool) : State :=
  match s.drain? t layer with
  | none => s
  | some d =>
    match d.blocks with
    | [] => s
    | b :: rest =>
      let ps := s.blockPieces t d b
      if d.paused || s.pwr.cut || !s.slotOpen d || (layer == 2 && !s.canCheck) || (b.staged.isNone && s.spansPoisoned ps) then s
      else if (!ok && layer != 1) || (layer == 2 && s.has F.durStatusReadOnly) then s.abandon t layer 3
      else
        let s := if b.staged.isNone then s.touchSpans ps 16 (digestUnit 0) true else s
        let data := other.getD (b.staged.getD (s.readSpans ps))
        let g : GenBlock :=
          { handle := b.handle, part := b.part, off := b.off, len := b.len, digest := blockDigest d.step b.handle b.part b.off data, data := data }
        if s.digestDiffers d g then (if d.rereads < 2 then s.putDrain { d with rereads := d.rereads + 1 } else s.unstable t)
        else s.putBlock d g rest

def execDrainBlockEnd (t : TenantId) (layer : Fin 3) (other : Option (List Byte)) (ok : Bool) (s : State) : Host.Outcome State Fault Refusal :=
  .next (s.drainBlockEnd t (layer + 1) other ok)

/-- DRAIN_WAIT_EXPIRY (R412): the wait of an update reaches DRAIN_WAIT_MS, and the drains of its buffer are abandoned. -/
def State.drainWaitExpiry (s : State) (t : Nat) : State :=
  let x := (s.tenant t).step
  if s.rd F.resCtrlDrainWaitMs = 0 ∨ !x.drainWait then s
  else
    (s.sec.drains.filter fun d => d.tenant == t && d.layer != 3 && d.buf != x.buf).foldl (fun (s : State) d => s.abandon t d.layer 5) s

def execDrainWaitExpiry (t : TenantId) (s : State) : Host.Outcome State Fault Refusal := .next (s.drainWaitExpiry t)

/-! ### A transfer of a drain ends; a GENERATION record commits -/

/-- A drain's transfer has ended with a status. -/
def State.drainXferEnd (s : State) (t layer : Nat) (manifest : Bool) (status : Nat) : State :=
  match s.drain? t layer with
  | none => s
  | some d =>
    if status = 0x604 then s
    else if status ≠ 0 then s.abandon t layer (xferCause layer status)
    else if manifest then s.drainDone d
    else s.drainClose t layer

/-- A generation slot is WRITING: what it held is freed. A drain abandoned in between leaves it FREE again. -/
def State.openGenSlot (s : State) (g : Nat) (p : List Byte) (runs : Bool) : State :=
  let x : FlashGen := { state := 1, step := fld p 1 8, seq := fld p 9 8, bytes := fld p 0x11 8, manifest := [], blocks := [] }
  let s := { s with flash := { s.flash with gens := KMap.put s.flash.gens g x } }
  if runs then s else s.freeGenSlot g

/-- A GENERATION record has been acknowledged (R438 steps 1 and 4). -/
def State.genCommitted (s : State) (g : Nat) (p : List Byte) : State :=
  let d := s.sec.drains.find? fun d => d.layer == 2 && d.genSlot == g && d.seq == fld p 9 8
  if fld p 0 1 = 1 then
    match KMap.find s.flash.gens g with
    | some x => if x.state = 1 ∧ x.seq = fld p 9 8 then s else s.openGenSlot g p d.isSome
    | none => s.openGenSlot g p d.isSome
  else if fld p 0 1 = 2 then
    match d with
    | some d =>
      let s := { s with flash := { s.flash with gens := s.flash.gens.mapVals fun i x => if i = g then { x with state := 2 } else x } }
      if d.phase = .closing then s.drainDone d else s
    | none => s
  else s
end Sys2Proof.Machine
end

