-- ==== Sys2Proof/Machine/FabEnd.lean ====
section
/-! DEFINITION. How a transfer ends (The Xagagen fabric port): its signal with SPRAY, its completion record, and its command or drain. -/

namespace Sys2Proof.Machine

/-- The packets of a transfer by offset and length, at most `n` of them (R320). -/
def xferPackets (d : List Byte) : Nat → Nat → List (Nat × Nat)
  | 0, _ => []
  | n + 1, off =>
    if xBytes d ≤ off then []
    else
      let k := min (256 - (xRemote d + off) % 256) (xBytes d - off)
      (off, k) :: xferPackets d n (off + k)

/-- A GET that fails leaves the local bytes of unreceived lines undefined: free values. -/
def State.getFailed (s : State) (e : Nat) (x : Xfer) : State :=
  if xKind x.desc ≠ 2 ∨ x.status = 0 ∨ x.tenant = sfTenant then s
  else
    ((xferPackets x.desc (xBytes x.desc / 256 + 2) 0).filter fun p => !x.got.contains p.1).foldl
      (fun (s : State) p => ((s.storeSpan (engineUnit e) tlbEngine x.tenant (xLocal x.desc + p.1) (leBytes p.2 s.draw)).1).drawn) s

/-- Whether a transfer has nothing more to send or to wait for. -/
def State.xferOver (s : State) (e : Nat) (x : Xfer) : Bool :=
  s.engineUse e == 0 && (x.status != 0 || (decide (xBytes x.desc ≤ x.sent) && (x.signal == 0 || x.signal == 3)))

/-- The CRC-64 of a completion record: with CHECK, of the whole data; of a failed transfer's data it is left open. -/
def State.xferCrc (s : State) (x : Xfer) : Nat :=
  if !xCheck x.desc then 0 else if x.status = 0 then x.crc else s.draw % 2 ^ 64

/-- The completion record (R320). -/
def State.xferRecord (s : State) (x : Xfer) : List Byte :=
  leBytes 2 x.status ++ zeros 2 ++ leBytes 4 (xTag x.desc) ++ leBytes 8 (Config.freeValue (s.free + 1) % 2 ^ 64) ++ leBytes 8 (s.xferCrc x) ++ leBytes 8 x.done

/-- Writes a transfer's completion record; a fault of its address is met like any other. -/
def State.writeXferRecord (s : State) (e : Nat) (x : Xfer) : State :=
  if xDone x.desc = 0 ∨ x.tenant = sfTenant then s
  else
    let r := s.xferRecord x
    match s.drawn.drawn.storeSpan (engineUnit e) tlbEngine x.tenant (xDone x.desc) r with
    | (s, .fault c va pa) => s.xferFault e x c kindEngineWrite va pa
    | (s, .ok _) => s

/-- A transfer ends: its record, then its command or the drain it belongs to; the engine takes the next. -/
def State.xferEnd (s : State) (e : Nat) (x : Xfer) : State :=
  let s := (s.getFailed e x).writeXferRecord e x
  let st := match s.xfer? e with | some y => y.status | none => x.status
  let s := { s with fab := { s.fab with xfers := KMap.del s.fab.xfers e } }
  let s :=
    match x.owner with
    | .command r cid => (s.finish x.tenant r cid st x.done 0).afterCode x.tenant st
    | .drain t layer m => s.drainXferEnd t layer m st
  s.takeXfer e

/-- TRANSFER_END: the packets of an engine's transfer are acknowledged or failed. With SPRAY the signal goes only now. -/
def State.transferEnd (s : State) (e : Nat) : State :=
  match s.xfer? e with
  | none => s
  | some x =>
    let s := if x.status = 0 ∧ x.signal = 1 ∧ xSpray x.desc ∧ xBytes x.desc ≤ x.sent ∧ s.engineUse e = 0 then s.feedSignal e x else s
    match s.xfer? e with
    | none => s
    | some x => if s.xferOver e x then s.xferEnd e x else s

def execTransferEnd (e : Fin 16) (s : State) : Host.Outcome State Fault Refusal := .next (s.transferEnd e)

end Sys2Proof.Machine
end

