-- ==== Sys2Proof/Machine/Registers.lean ====
section
/-! DEFINITION. Accesses to BAR0 (Scope and conventions): register writes by access type, Unsupported Requests, the
half accesses to 64-bit registers, and markers of the command tree. -/

namespace Sys2Proof.Machine

/-- The offset of the register an offset lies in: a 64-bit register's high half belongs to its base. -/
def regBase (off : Nat) : Option Reg :=
  match Reg.find off with
  | some r => some r
  | none =>
    match Reg.find (off - 4) with
    | some r => if r.wide && decide (4 ≤ off) then some r else none
    | none => none

/-- Whether the host's accesses to an offset are blocked before HIF.STATUS.READY (R10, R354): all but the IDENT, CLK,
PWR and SEC blocks. -/
def bar0Blocked (off : Nat) : Bool :=
  decide (0x40000 ≤ off ∧ off < 0xA00000) || decide (0xB00000 ≤ off)

/-- Whether an access of an agent completes with Unsupported Request: not naturally aligned 32-bit or 64-bit, or, from
the host, a blocked offset before READY (R10, R354). -/
def State.unsupported (s : State) (a : Agent) (off size : Nat) : Bool :=
  !((size == 4 || size == 8) && off % size == 0) ||
    (a == .host && bar0Blocked off && !s.has F.hifStatusReady)

/-- The owner code of the agent among interrupt sources (R385). -/
def agentOwner : Agent → Nat
  | .host => 0
  | .core _ => 1
  | .keeper => 2
  | .power => 3

/-- The owner code of a check unit as an interrupt owner code. -/
def State.chkOwner (s : State) (u : Nat) : Nat :=
  if s.rd (F.chkCtrlOwner u) = 0 then 1 else if s.rd (F.chkCtrlOwner u) = 1 then 0 else 2

/-- The RW bits of a register that the host may write and that have no command of their own (R32, R66, R118, R252,
R332, R382, R426, R452, R453, R475, R487). The access column restricts them; ADMIN_CFG.ENABLE, ADMIN_DB and HOST_REQ have
commands of their own. -/
def hostMask : Reg → DWord
  | .clkArrdiv => 0
  | .hifAdminCfg => 0x7FFF0F0F
  | .hifAdminDb => 0
  | .icuCorePrio _ => 0
  | .icuRoute _ => 0
  | .chkCtrl _ => 0
  | .chkLen _ => 0
  | .chkTag _ => 0
  | .chkExpect _ => 0
  | r => r.rwMask

/-- The bits that service firmware may write and that have no command of their own: the RW bits, and those the register
rules name as written by service firmware (R66, R118, R144, R252, R274, R332, R351, R382, R426, R453). -/
def firmwareMask : Reg → DWord
  | .arrOrder => 0xFFFFFFFFFFFFFFFF
  | .arrTenquota _ => 0x3FF
  | .arrTenlimit _ => 0xFFFFFF
  | .arrAgmCtrl => 0xFFF9
  | .arrAgmThresh _ => 0xFFFF
  | .arrSpnTenant _ => 0x3FFFF
  | .cstCtrl => 0x3
  | .cstPartitionNext _ => 0x3FFFF
  | .cstOpBase => 0xFFFFFFFFFF00
  | .cstOpLen => 0xFFFFFFFF
  | .cstOpCtrl => 0x7
  | .hbmCtrl => 0xFFFF
  | .hbmRelayoutBuf => 0xFFFFFF
  | .hbmMapout => 0xFF
  | .fabNode => 0xFFFFFFFF
  | .fabPortmap _ => 0xFFFFFFFF
  | .synTenslots _ => 0x7F
  | .hifStatus => 0x1
  | .resStatus => (Reg.resStatus).fieldMask
  | .resRisk => (Reg.resRisk).fieldMask
  | .resFeed => (Reg.resFeed).fieldMask
  | .resPartner => (Reg.resPartner).fieldMask
  | .resRestoreStatus => (Reg.resRestoreStatus).fieldMask
  | .resGen t n => (Reg.resGen t n).fieldMask
  | .durStatus => (Reg.durStatus).fieldMask
  | .durJseq => (Reg.durJseq).fieldMask
  | .durLife => (Reg.durLife).fieldMask
  | .durTlcWritten => (Reg.durTlcWritten).fieldMask
  | .durSlcWritten => (Reg.durSlcWritten).fieldMask
  | .durHours => (Reg.durHours).fieldMask
  | .durCycles => (Reg.durCycles).fieldMask
  | .durSpare => (Reg.durSpare).fieldMask
  | .durBudget a => (Reg.durBudget a).fieldMask
  | .durLastcommitStep u => (Reg.durLastcommitStep u).fieldMask
  | .durLastcommitSeq u => (Reg.durLastcommitSeq u).fieldMask
  | .durLastcommitCursorLo u => (Reg.durLastcommitCursorLo u).fieldMask
  | .durLastcommitCursorHi u => (Reg.durLastcommitCursorHi u).fieldMask
  | .clkArrdiv => 0
  | .hifAdminCfg => 0x7FFF0F0F
  | .hifAdminDb => 0
  | .icuCorePrio _ => 0
  | .icuRoute _ => 0
  | .icuMsix _ _ => 0
  | .chkCtrl _ => 0
  | .chkLen _ => 0
  | .chkTag _ => 0
  | .chkExpect _ => 0
  | .secMbxCtrl => 0
  | .secMbxBuf _ => 0
  | r => r.rwMask

/-- The bits that the keeper may write by a register access (R475): every field of SEC but those of the host channel,
TRIAL_S and the W1C bits. -/
def keeperMask : Reg → DWord
  | .secBootStatus => (Reg.secBootStatus).fieldMask
  | .secStatus => (Reg.secStatus).fieldMask
  | .secLimit => (Reg.secLimit).fieldMask
  | .secMbxStatus => (Reg.secMbxStatus).fieldMask
  | _ => 0

/-- The bits of a route entry that take a write from its owner (R388): only VECTOR in a host-owned entry, and none in
that of the admin CQ. -/
def routeMask (owner src : Nat) : DWord :=
  if owner = 0 then (if src = 0x410 then 0 else 0x7FF) else 0xCFFFF7FF

/-- The bits of a register that an agent's write sets. Ownership decides for CORE_PRIO, ROUTE and the check units
(R388, R395, R398). -/
def State.setMask (s : State) (a : Agent) (r : Reg) : DWord :=
  match r with
  | .icuCorePrio c => if a = .core (Fin.ofNat 8 c) ∧ c < 8 then 0xFF else 0
  | .icuRoute n =>
    if s.sourceOwner n = 3 then 0
    else if agentOwner a = s.sourceOwner n then routeMask (agentOwner a) n else 0
  | .chkCtrl u => if agentOwner a = s.chkOwner u then 0x1F else 0
  | .chkLen u => if agentOwner a = s.chkOwner u then r.rwMask else 0
  | .chkTag u => if agentOwner a = s.chkOwner u then r.rwMask else 0
  | .chkExpect u => if agentOwner a = s.chkOwner u then r.rwMask else 0
  | _ =>
    match a with
    | .host => hostMask r
    | .core _ => firmwareMask r
    | .keeper => keeperMask r
    | .power => 0

/-- The W1C bits that an agent's write clears: those of the EVENTS registers, from host software and service firmware.
CLK.EVENTS.CLOCK_LOSS is hidden from the host (R32). -/
def clearMask (a : Agent) (r : Reg) : DWord :=
  match a, r with
  | .host, .clkEvents => 0x7
  | .host, r => r.w1cMask
  | .core _, r => r.w1cMask
  | _, _ => 0

/-- Whether a register belongs to a mailbox channel: service firmware's channel has the same layout in the service cores'
private space, and an access of a service core reaches it there (R473). -/
def channelReg : Reg → Bool
  | .secMbxCtrl => true
  | .secMbxStatus => true
  | .secMbxBuf _ => true
  | _ => false

/-- A register of service firmware's mailbox channel. -/
def State.fwReg (s : State) (r : Reg) : DWord := KMap.get s.keeper.fw r.offset r.reset

def State.setFwReg (s : State) (r : Reg) (v : DWord) : State :=
  { s with keeper := { s.keeper with fw := KMap.set s.keeper.fw r.offset v r.reset } }

/-- A write to a channel's request registers: discarded while the channel is BUSY, if it is one of the buffer (R473). -/
def State.writeChannel (s : State) (a : Agent) (r : Reg) (v part : DWord) : State :=
  let m := r.rwMask &&& part
  match a, r with
  | .host, .secMbxBuf _ => if s.has F.secStatusBusy then s else s.setReg r ((s.reg r &&& ~~~ m) ||| (v &&& m))
  | .host, _ => s.setReg r ((s.reg r &&& ~~~ m) ||| (v &&& m))
  | .core _, .secMbxBuf _ =>
    if (s.fwReg .secStatus).getLsbD 0 then s else s.setFwReg r ((s.fwReg r &&& ~~~ m) ||| (v &&& m))
  | .core _, _ => s.setFwReg r ((s.fwReg r &&& ~~~ m) ||| (v &&& m))
  | _, _ => s

/-- A write of a register by an agent (R8): the bits that take the write are set, the W1C bits written as 1 cleared; a
write to the route of another's source is ignored and sets DENIED (R385). `part` selects the bits the access covers. -/
def State.writeReg (s : State) (a : Agent) (r : Reg) (v part : DWord) : State :=
  if channelReg r then s.writeChannel a r v part else
  let m := s.setMask a r &&& part
  let old := s.reg r
  let s' := s.setReg r (((old &&& ~~~ m) ||| (v &&& m)) &&& ~~~ (v &&& clearMask a r &&& part))
  match r with
  | .icuRoute n => if s.sourceOwner n = 3 ∨ agentOwner a ≠ s.sourceOwner n then s.denied else s'
  | _ => s'

/-- Any access of a requester to a register releases its latch and discards its held low half (R11). -/
def State.touch (s : State) (a : Agent) (base : Nat) : State :=
  { s with
    latches := s.latches.filter fun x => !(x.1 == a && x.2.1 == base)
    lowHeld := s.lowHeld.filter fun x => !(x.1 == a && x.2.1 == base) }

/-- The high half that a requester has latched, or the low half it holds, for a register. -/
def findHalf (xs : List (Agent × Nat × Word)) (a : Agent) (base : Nat) : Option Word :=
  (xs.find? fun x => x.1 == a && x.2.1 == base).map fun x => x.2.2

/-- A source's KIND (R388): a host-owned entry's is always 00b. -/
def State.routeKind (s : State) (n : Nat) : Nat := if s.sourceOwner n = 0 then 0 else s.rd (F.icuRouteKind n)

/-- A route entry as it reads (R388): KIND and OWNER by the source's owner, and the VECTOR of the admin CQ that of
HIF.ADMIN_CFG.MSIX. -/
def State.routeWord (s : State) (n : Nat) : DWord :=
  let w := (F.icuRouteKind n).put ((F.icuRouteOwner n).put (s.reg (.icuRoute n)) (s.sourceOwner n)) (s.routeKind n)
  if n = 0x410 then (F.icuRouteVector n).put w (s.rd F.hifAdminCfgMsix % 2048) else w

/-- The value of a register as an agent reads it: WO fields read 0; the alignment frame count and the counts of cycles
are driven by time, which the model leaves out, so they read as free values (R29). -/
def State.readReg (s : State) (a : Agent) (r : Reg) : DWord :=
  match a, r with
  | .core _, .secMbxCtrl => s.fwReg r
  | .core _, .secMbxStatus => s.fwReg r
  | .core _, .secMbxBuf _ => s.fwReg r
  | _, _ =>
  match r with
  | .clkFrame => BitVec.ofNat 64 s.draw
  -- while an update waits, its cycles so far are time
  | .arrUpdDrainWait => if s.ten.any fun x => x.2.step.drainWait then BitVec.ofNat 64 s.draw else s.reg r
  | .chkFeedW _ => 0
  -- values out of its range read as the nearest in it (R332)
  | .fabRemoteTmo => BitVec.ofNat 64 (min 1000 (max 10 (s.rd F.fabRemoteTmoUs)))
  -- while a relayout runs, how far it has come is time
  | .hbmRelayoutFrontier => if s.mem.relayout.isSome then BitVec.ofNat 64 (s.draw % 2 ^ 40) else s.reg r
  -- the clear windows read the current bits, as their set windows do (R8, R387)
  | .icuMaskClr w => s.reg (.icuMaskSet w)
  | .icuPendClr w => s.reg (.icuPendSet w)
  | .icuRoute n => s.routeWord n
  -- CLOCK_LOSS is readable only by the keeper and service firmware (R32)
  | .clkEvents => if a = .host then s.reg r &&& 0x7 else s.reg r
  | _ => s.reg r

/-- A feed write joins a unit (defined here because a half write may complete one): its bytes queue while the unit
runs, wait while the queue is full, and are stray outside RUNNING (R394, R396, R397). Only the owner's writes count
(R395). -/
def State.feed (s : State) (a : Agent) (u : Nat) (bs : List Byte) : State :=
  if agentOwner a ≠ s.chkOwner u then s
  else
    let c := KMap.get s.chk u Chk.reset
    if s.rd (F.chkStatusState u) = 1 ∧ !c.finishing then
      if c.queue.length < 16 ∧ c.waiting.isEmpty then
        { s with chk := KMap.put s.chk u { c with queue := c.queue ++ [bs] } }.wr (F.chkStatusQueue u) (c.queue.length + 1)
      else { s with chk := KMap.put s.chk u { c with waiting := c.waiting ++ [bs] } }
    else s.wr (F.chkStatusStray u) 1

/-- The low half of a 64-bit word. -/
def lowHalf (w : DWord) : Word := w.extractLsb' 0 32

/-- The high half of a 64-bit word. -/
def highHalf (w : DWord) : Word := w.extractLsb' 32 32

/-- A 64-bit word from its halves. -/
def joinHalves (hi lo : Word) : DWord := hi ++ lo

/-- LOW_HALF_READ (R11): returns the low half and latches the high half for the requester. -/
def State.lowHalfRead (s : State) (a : Agent) (off : Nat) : State :=
  if s.unsupported a off 4 then { s with resp := .unsupported }
  else
    match Reg.find off with
    | none => { s with resp := .data 0 }
    | some r =>
      let v := s.readReg a r
      let s := s.touch a off
      let s := { s with resp := .data ((lowHalf v).setWidth 64), free := s.free + 1 }
      if r.wide then { s with latches := (a, off, highHalf v) :: s.latches } else s

/-- HIGH_HALF_READ (R11): returns the latched value and releases the latch, or the high half of the present value. -/
def State.highHalfRead (s : State) (a : Agent) (off : Nat) : State :=
  if s.unsupported a off 4 then { s with resp := .unsupported }
  else
    match regBase off with
    | none => { s with resp := .data 0 }
    | some r =>
      let v := (findHalf s.latches a (off - 4)).getD (highHalf (s.readReg a r))
      let s := s.touch a (off - 4)
      { s with resp := .data (v.setWidth 64), free := s.free + 1 }

/-- LOW_HALF_WRITE (R11): the low half is held for its requester and has no effect of its own. -/
def State.lowHalfWrite (s : State) (a : Agent) (off : Nat) (v : Word) : State :=
  if s.unsupported a off 4 then { s with resp := .unsupported }
  else
    match Reg.find off with
    | some r =>
      if r.wide then
        let s := s.touch a off
        { s with lowHeld := (a, off, v) :: s.lowHeld, resp := .none }
      else s
    | none => s

/-- A whole write of a 64-bit register; that of FEED_W is a feed (R399). -/
def State.writeWide (s : State) (a : Agent) (r : Reg) (v part : DWord) : State :=
  match r with
  | .chkFeedW u => s.feed a u (leBytes 8 v.toNat)
  | _ => s.writeReg a r v part

/-- HIGH_HALF_WRITE (R11): the register takes the held low half and the new high half as one value; with none held it
keeps its low half and no field of that half acts. FEED_W has no present value: with no low half held it is fed with one of 0
(DESIGN CHOICE, log 171). -/
def State.highHalfWrite (s : State) (a : Agent) (off : Nat) (v : Word) : State :=
  if s.unsupported a off 4 then { s with resp := .unsupported }
  else
    match regBase off with
    | some r =>
      if r.wide && decide (r.offset + 4 = off) then
        match findHalf s.lowHeld a (off - 4) with
        | some lo => { (s.touch a (off - 4)).writeWide a r (joinHalves v lo) (BitVec.allOnes 64) with resp := .none }
        | none => { (s.touch a (off - 4)).writeWide a r (joinHalves v 0) 0xFFFFFFFF00000000 with resp := .none }
      else s
    | none => s

/-- A 32-bit write at an offset: a 32-bit register takes it whole. -/
def State.writeWord (s : State) (a : Agent) (off : Nat) (v : Word) : State :=
  match Reg.find off with
  | some r => if r.wide then s.lowHalfWrite a off v else s.writeReg a r (v.setWidth 64) 0xFFFFFFFF
  | none => s.highHalfWrite a off v

/-- REGISTER_WRITE (R8): a write to the fields that have no command of their own, by access type. An access that completes with
Unsupported Request leaves latches and held halves standing (DESIGN CHOICE, log 171). A 64-bit access to two
32-bit registers writes both; a 32-bit access to half of a 64-bit register is that half's write. -/
def State.registerWrite (s : State) (a : Agent) (off : Nat) (wide : Bool) (v : DWord) : State :=
  if s.unsupported a off (if wide then 8 else 4) then { s with resp := .unsupported }
  else if wide then
    match Reg.find off with
    | some r =>
      if r.wide then { (s.touch a off).writeReg a r v (BitVec.allOnes 64) with resp := .none }
      else { (s.writeWord a off (lowHalf v)).writeWord a (off + 4) (highHalf v) with resp := .none }
    | none => { (s.writeWord a (off + 4) (highHalf v)) with resp := .none }
  else { s.writeWord a off (v.setWidth 32) with resp := .none }

/-- BAR0_UNSUPPORTED_REQUEST (R10): the access completes with Unsupported Request and applies nothing. -/
def State.unsupportedRequest (s : State) (a : Agent) (off size : Nat) : State :=
  if s.unsupported a off size then { s with resp := .unsupported } else s

/-- MARKER_FORWARD (R19): a unit with a marker first among the messages that stand at it forwards it, once every action of the earlier
ones is complete. -/
def State.markerForward (s : State) (u : Nat) : State :=
  match s.inbox u with
  | .marker k x :: _ => if s.busyAt u then s else (s.popMsg u).emit (.marker u k x)
  | _ => s

def execRegisterWrite (a : Agent) (off : Nat) (wide : Bool) (v : DWord) (s : State) :
    Host.Outcome State Fault Refusal := .next (s.registerWrite a off wide v)

def execBar0UnsupportedRequest (a : Agent) (off size : Nat) (_write : Bool) (s : State) :
    Host.Outcome State Fault Refusal := .next (s.unsupportedRequest a off size)

def execLowHalfRead (a : Agent) (off : Nat) (s : State) : Host.Outcome State Fault Refusal :=
  .next (s.lowHalfRead a off)

def execHighHalfRead (a : Agent) (off : Nat) (s : State) : Host.Outcome State Fault Refusal :=
  .next (s.highHalfRead a off)

def execLowHalfWrite (a : Agent) (off : Nat) (v : Word) (s : State) : Host.Outcome State Fault Refusal :=
  .next (s.lowHalfWrite a off v)

def execHighHalfWrite (a : Agent) (off : Nat) (v : Word) (s : State) : Host.Outcome State Fault Refusal :=
  .next (s.highHalfWrite a off v)

def execMarkerForward (u : Nat) (s : State) : Host.Outcome State Fault Refusal := .next (s.markerForward u)

end Sys2Proof.Machine
end

