-- ==== Sys2Proof/Machine/Keeper.lean ====
section
/-! DEFINITION. The keeper (Firmware, boot and attestation): its records and their mirror, identity indices, the mailbox,
boot, measurements and slots. -/

namespace Sys2Proof.Machine

/-! ### Records (R462) -/

/-- The payload in force of a keeper record: the mirror's, which is written last. -/
def State.keeperValue (s : State) (kind key : Nat) : Option (List Byte) := KMap.find s.keeper.mirror (liveKey kind key)

/-- Writes a record into the mirror ring. -/
def State.mirrorPut (s : State) (kind key : Nat) (p : List Byte) : State :=
  { s with keeper := { s.keeper with
      mirror := KMap.put s.keeper.mirror (liveKey kind key) p, mirrorSeq := s.keeper.mirrorSeq + 1 } }

/-- Offers a keeper record; what follows waits until journal and mirror both hold it. -/
def State.keeperPut (s : State) (kind key : Nat) (p : List Byte) (next : KeeperNext) : State :=
  { s with keeper := { s.keeper with waits := s.keeper.waits ++ [KeeperWait.mk kind key next] } }.journalOffer
    (keeperRecord kind key p)

/-- A value that the keeper writes outside a command, at boot: into both stores. -/
def State.keeperSet (s : State) (kind key : Nat) (p : List Byte) : State :=
  (s.mirrorPut kind key p).journalOffer (keeperRecord kind key p)

/-! ### Slots and floors (R459, R460) -/

/-- A slot's state, version and SVN; a lost record counts as BAD (R463). -/
def State.slotState (s : State) (i : Nat) : Nat × Nat × Nat :=
  match s.keeperValue 0x103 i with
  | some p => (fld p 0 1, fld p 1 8, fld p 9 2)
  | none => (slotBad, 0, 0)

/-- The fuse floor: 1,024 for each bit burned (R457). -/
def State.fuseFloor (s : State) : Nat := 1024 * s.keeper.fuses.svn

/-- The effective floor (R460). -/
def State.floor (s : State) : Nat :=
  max (match s.keeperValue 0x102 0 with | some p => fld p 0 2 | none => 0) s.fuseFloor

/-- Marks a slot at boot or at a failed trial. -/
def State.markSlot (s : State) (i st : Nat) : State :=
  let (_, v, n) := s.slotState i
  s.keeperSet 0x103 i (slotPayload st v n)

/-- The slot booted. -/
def State.bootedSlot (s : State) : Nat := s.rd F.secBootStatusSlot

/-! ### Measurements (R467) -/

/-- Extends a measurement register by a digest. -/
def State.extendM (s : State) (i : Nat) (d : List Byte) : State :=
  { s with keeper := { s.keeper with
      meas := modAt s.keeper.meas i fun m => digest256 (leBytes 32 m.toNat ++ d) } }

/-- M0 to M15 as bytes. -/
def State.measBytes (s : State) : List Byte := (s.keeper.meas.map fun m => leBytes 32 m.toNat).flatten

/-! ### The mailbox (R473) -/

def State.mbxGet (s : State) (host : Bool) (r : Reg) : DWord := if host then s.reg r else s.fwReg r

def State.mbxPut (s : State) (host : Bool) (r : Reg) (v : DWord) : State :=
  if host then s.setReg r v else s.setFwReg r v

def State.mbxRd (s : State) (host : Bool) (f : Field) : Nat := ((s.mbxGet host f.reg).extractLsb' f.lo f.w).toNat

def State.mbxWr (s : State) (host : Bool) (f : Field) (v : Nat) : State :=
  s.mbxPut host f.reg (f.put (s.mbxGet host f.reg) v)

/-- The request in a channel's buffer: its first LENGTH bytes. -/
def State.mbxRequest (s : State) (host : Bool) : List Byte :=
  let n := min 4096 (s.mbxRd host F.secMbxCtrlLength)
  (((upto 0 ((n + 3) / 4)).map fun w => leBytes 4 (s.mbxGet host (.secMbxBuf w)).toNat).flatten).take n

/-- Writes bytes into a channel's buffer, from word `w`. -/
def State.mbxStore (s : State) (host : Bool) : Nat → List (List Byte) → State
  | _, [] => s
  | w, b :: bs => (s.mbxPut host (.secMbxBuf w) (BitVec.ofNat 64 (leNat b))).mbxStore host (w + 1) bs

/-- The opcodes a channel carries (R474). -/
def mbxKnows (host : Bool) (op : Nat) : Bool :=
  if host then [1, 2, 3, 4, 0x10, 0x11, 0x13, 0x14].contains op
  else [1, 2, 3, 5, 0x12, 0x20, 0x21, 0x22, 0x23, 0x24, 0x25].contains op

/-- The keeper firmware runs (R461 stage 07h). -/
def State.keeperRuns (s : State) : Bool := decide (8 ≤ s.rd F.secBootStatusStage)

/-- Ends the command in front (R473 step 4 and 5): response and status, BUSY clears, and the channel's source is raised. -/
def State.mbxEnd (s : State) (code : Nat) (resp : List Byte) : State :=
  match s.keeper.chans with
  | [] => s
  | host :: rest =>
    let s := s.mbxStore host 0 (chunks 4 resp.length resp)
    let s := (s.mbxWr host F.secMbxStatusCode code).mbxWr host F.secMbxStatusLength resp.length
    let s := s.mbxWr host F.secStatusBusy 0
    let s := { s with keeper := { s.keeper with chans := rest, busy := false } }
    (s.raise (if host then 0xC00 else 0xC01)).count keeperUnit 1 1

/-- Commands of an unknown opcode, or on the wrong channel, end with 0908h when their turn comes (R473, R474). -/
def State.mbxSettle : Nat → State → State
  | 0, s => s
  | n + 1, s =>
    match s.keeper.chans with
    | [] => s
    | host :: _ =>
      if s.keeperRuns && !mbxKnows host (s.mbxRd host F.secMbxCtrlOpcode) then State.mbxSettle n (s.mbxEnd 0x908 []) else s

/-- Ends the command in front and turns to the next. -/
def State.mbxFinish (s : State) (code : Nat) (resp : List Byte) : State := State.mbxSettle 2 (s.mbxEnd code resp)

/-- MBX_GO (R473): a write of MBX_CTRL with GO; while BUSY it is ignored and sets MBX_STRAY. -/
def State.mbxGo (s : State) (host : Bool) (v : Word) : State :=
  if s.mbxRd host F.secStatusBusy = 1 then s.setEvent F.secEventsMbxStray
  else
    let s := (s.mbxWr host F.secMbxCtrlOpcode (bits v.toNat 7 0)).mbxWr host F.secMbxCtrlLength (bits v.toNat 28 16)
    if v.getLsbD 31 then
      let s := s.mbxWr host F.secStatusBusy 1
      State.mbxSettle 2 { s with keeper := { s.keeper with chans := s.keeper.chans ++ [host] } }
    else s

def execMbxGo (fromHost : Bool) (v : Word) (s : State) : Host.Outcome State Fault Refusal := .next (s.mbxGo fromHost v)

/-- Performs a mailbox command: its opcode is that of the command in front, which has not been started. -/
def State.mbxDo (s : State) (op : Nat) (f : State → Bool → List Byte → State) : State :=
  match s.keeper.chans with
  | [] => s
  | host :: _ =>
    if s.keeperRuns && !s.keeper.busy && s.mbxRd host F.secMbxCtrlOpcode == op then f s host (s.mbxRequest host) else s

/-- The command in front waits on a record. -/
def State.mbxWait (s : State) (kind key : Nat) (p : List Byte) (next : KeeperNext) : State :=
  { s with keeper := { s.keeper with busy := true } }.keeperPut kind key p next

/-! ### Identity indices (R465) -/

def State.limit (s : State) : Nat := s.rd F.secLimitLimit

/-- Uses a released signature: a report goes to the host and its command ends, a proof goes out on its port. -/
def State.useSig (s : State) (u : SigUse) : State :=
  match u with
  | .report addr bs => ((s.hostWrite addr bs).count keeperUnit 2 1).mbxFinish 0 []
  | .proof p frame => (s.emit (.authFrame p frame)).count keeperUnit 2 1

/-- Releases signatures in index order, below the LIMIT in force. -/
def State.releaseSigs : Nat → State → State
  | 0, s => s
  | n + 1, s =>
    match s.keeper.sigs with
    | [] => s
    | r :: rs =>
      if r.index < s.limit then
        State.releaseSigs n ({ s with keeper := { s.keeper with sigs := rs } }.useSig r.use)
      else s

/-- Why a signature is refused: the key locked, or the entropy source failed (R463, R471); 0 for no reason. -/
def State.signRefusal (s : State) : Nat :=
  if s.has F.secStatusIdentLocked then 0x906
  else if s.has F.secStatusEntropyFail then 0x90A
  else if s.keeper.next = s.limit ∧ s.keeper.reserving.isNone ∧ 2 ^ 40 < s.limit + 256 then 0x905
  else 0

/-- Whether an index can be taken now: the one request that meets the end of a block being reserved waits. -/
def State.canTake (s : State) : Bool :=
  match s.keeper.reserving with
  | some v => decide (s.keeper.next < v)
  | none => true

/-- Takes the next index for a signature; at LIMIT it starts a reservation (R465). -/
def State.takeIndex (s : State) (u : SigUse) : State :=
  let i := s.keeper.next
  let s := { s with keeper := { s.keeper with next := i + 1, sigs := s.keeper.sigs ++ [SigReq.mk i u] } }
  if i < s.limit then State.releaseSigs s.keeper.sigs.length s
  else
    match s.keeper.reserving with
    | some _ => s
    | none =>
      let v := s.limit + 256
      { s with keeper := { s.keeper with reserving := some v } }.keeperPut 0x101 0 (leBytes 8 v) (.limit v)

/-! ### What follows a record -/

/-- CONFIRM step 3 (R460): SVN_FUSE bits are burned, and the trial ends. -/
def State.confirmEnd (s : State) (svn : Nat) (fuse : Bool) : State :=
  let k := s.keeper
  let bits := if fuse then max k.fuses.svn (min 64 (svn / 1024)) else k.fuses.svn
  let s := { s with keeper := { k with
      fuses := { k.fuses with svn := bits }, trial := false, tried := k.tried.filter fun i => i != s.bootedSlot } }
  (s.wr F.secBootStatusTrial 0).mbxFinish 0 []

/-- CONFIRM step 2 (R460): the software floor rises to the bundle's SVN. -/
def State.confirmFloor (s : State) (svn : Nat) (fuse : Bool) : State :=
  if s.floor < svn then s.keeperPut 0x102 0 (leBytes 2 svn) (.confirmEnd svn fuse) else s.confirmEnd svn fuse

/-- What the keeper does once a record stands in both stores. -/
def State.keeperThen (s : State) (n : KeeperNext) : State :=
  match n with
  | .quiet => s
  | .finish code resp => s.mbxFinish code resp
  | .confirmFloor svn fuse => s.confirmFloor svn fuse
  | .confirmEnd svn fuse => s.confirmEnd svn fuse
  | .anchor d => (s.extendM 6 d).mbxFinish 0 []
  | .limit v =>
    let s := { s.wr F.secLimitLimit v with keeper := { s.keeper with
        reserving := none, fuses := { s.keeper.fuses with used := true } } }
    let s := (s.setEvent F.secEventsReservedIdx).event 0x0904 .firmware [v]
    State.releaseSigs s.keeper.sigs.length s

/-- A keeper record has been acknowledged by the journal: the mirror takes it, and what waits on it goes on (R462). -/
def State.keeperAck (s : State) (kind key : Nat) (p : List Byte) : State :=
  let s := s.mirrorPut kind key p
  match findAt (fun w : KeeperWait => w.kind == kind && w.key == key) s.keeper.waits with
  | none => s
  | some i =>
    match s.keeper.waits[i]? with
    | none => s
    | some w => { s with keeper := { s.keeper with waits := dropAt s.keeper.waits i } }.keeperThen w.next

/-! ### Mailbox commands (R474) -/

/-- Ends a command whose host bus addresses lie outside the aperture with 0605h, and nothing done (R357); else goes on. -/
def State.mbxReach (s : State) (addr n : Nat) (f : State → State) : State :=
  if s.reaches addr n then f s else (s.setEvent F.hifEventsHostAccess).mbxFinish 0x605 []

/-- STATUS: SVN, VERSION, slot states, LIMIT and fuse floor, in that order. -/
def execStatus (s : State) : Host.Outcome State Fault Refusal :=
  .next (s.mbxDo 1 fun s _ _ =>
    let b := s.slotState s.bootedSlot
    s.mbxFinish 0 (leBytes 2 b.2.2 ++ leBytes 8 b.2.1 ++ ((upto 0 4).map fun i => leBytes 1 (s.slotState i).1).flatten ++
      leBytes 8 s.limit ++ leBytes 4 s.fuseFloor))

/-- MEASURE: M0 to M15. -/
def execMeasure (s : State) : Host.Outcome State Fault Refusal :=
  .next (s.mbxDo 2 fun s _ _ => s.mbxFinish 0 s.measBytes)

/-- The report of R468 before its signature. -/
def State.report (s : State) (t : Nat) (nonce : List Byte) : List Byte :=
  let b := s.slotState s.bootedSlot
  let flags := b2n (s.has F.secStatusDebug) + 2 * b2n (s.has F.secBootStatusTrial) + 4 * b2n (s.has F.secStatusEntropyFail)
  let dom := if t < 16 then KMap.get s.keeper.domains t 0 else 0
  let ward :=
    if t < 16 then leBytes 32 (digest256 (KMap.get s.keeper.wards t [] ++ leBytes 2 dom)).toNat else zeros 32
  leBytes 4 0x54414B48 ++ leBytes 2 1 ++ leBytes 1 t ++ leBytes 1 flags ++ leBytes 2 (s.rd F.fabNodeNode) ++
    leBytes 2 (s.rd F.fabNodeInc) ++ leBytes 2 b.2.2 ++ zeros 2 ++ leBytes 8 b.2.1 ++ nonce ++ leBytes 2 dom ++ zeros 6 ++
    ward ++ zeros 32 ++ s.measBytes

/-- ATTEST (R468): a signed report for a tenant, or for the device. The request is TENANT, NONCE and the address. -/
def execAttest (sig : List Byte) (s : State) : Host.Outcome State Fault Refusal :=
  .next (s.mbxDo 4 fun s _ req =>
    let t := fld req 0 1
    if !(decide (t < 16) || t == 0xFF) then s.mbxFinish 0x908 []
    else if s.signRefusal ≠ 0 then s.mbxFinish s.signRefusal []
    else if !s.canTake then s
    else
      let rep := s.report t ((req.drop 1).take 32)
      s.mbxReach (fld req 33 8) (rep.length + sig.length) fun s =>
        { s with keeper := { s.keeper with busy := true } }.takeIndex (.report (fld req 33 8) (rep ++ sig)))

/-- EXTEND (R467): one of M8 to M15. -/
def execExtend (s : State) : Host.Outcome State Fault Refusal :=
  .next (s.mbxDo 5 fun s _ req =>
    let i := fld req 0 1
    if 8 ≤ i ∧ i < 16 then (s.extendM i ((req.drop 1).take 32)).mbxFinish 0 [] else s.mbxFinish 0x908 [])

/-- Whether a manifest may be accepted, its signature apart (R458): magic, format, count, signer and reserved bytes. -/
def State.manifestOk (s : State) (m : List Byte) : Bool :=
  let zero := fun (off n : Nat) => ((m.drop off).take n).all (· == 0)
  let comp := fun (i : Nat) => zero (0x21 + 64 * i) 7
  m.length == 8192 && fld m 0 4 == 0x4D424B48 && fld m 4 2 == 1 && fld m 0x11 1 == 3 && decide (fld m 0x10 1 < 2) &&
    zero 0x12 14 && comp 0 && comp 1 && comp 2 && zero 0xE0 288 && zero 0xD48 4792 &&
    digest256 ((m.drop 0x200).take 68) == s.keeper.fuses.rootDigest

/-- The GOOD slots other than the one booted. -/
def State.otherGood (s : State) : List Nat :=
  (upto 0 4).filter fun i => i != s.bootedSlot && (s.slotState i).1 == slotGood

/-- STAGE (R459, R460): a bundle copied and verified into a slot. Refused for the slot booted, and for the only other GOOD
slot; a bundle that fails to verify, or is cut off, leaves the slot EMPTY. -/
def execStage (manifest : List Byte) (verified cutOff : Bool) (s : State) : Host.Outcome State Fault Refusal :=
  .next (s.mbxDo 0x10 fun s _ req =>
    let i := fld req 0 1
    if 4 ≤ i ∨ 2 ^ 28 < fld req 9 4 ∨ i = s.bootedSlot ∨ s.otherGood = [i] then s.mbxFinish 0x908 []
    else s.mbxReach (fld req 1 8) (fld req 9 4) fun s =>
      let s := s.emit (.hostRead (fld req 1 8) (fld req 9 4))
      if cutOff || !verified || !s.manifestOk manifest then
        s.mbxWait 0x103 i (slotPayload slotEmpty 0 0) (.finish 0x901 [])
      else if fld manifest 6 2 < s.floor then s.mbxWait 0x103 i (slotPayload slotEmpty 0 0) (.finish 0x902 [])
      else
        let s := { s with flash := { s.flash with images := KMap.put s.flash.images i manifest } }
        s.mbxWait 0x103 i (slotPayload slotStaged (fld manifest 8 8) (fld manifest 6 2)) (.finish 0 []))

/-- ACTIVATE (R459): a STAGED slot becomes TRIAL for the next device reset. -/
def execActivate (s : State) : Host.Outcome State Fault Refusal :=
  .next (s.mbxDo 0x11 fun s _ req =>
    let i := fld req 0 1
    let x := s.slotState i
    if i < 4 ∧ x.1 = slotStaged then s.mbxWait 0x103 i (slotPayload slotTrial x.2.1 x.2.2) (.finish 0 [])
    else s.mbxFinish 0x908 [])

/-- CONFIRM (R460): the booted TRIAL slot becomes GOOD; otherwise no effect. -/
def execConfirm (s : State) : Host.Outcome State Fault Refusal :=
  .next (s.mbxDo 0x12 fun s _ _ =>
    let i := s.bootedSlot
    let x := s.slotState i
    if s.has F.secBootStatusTrial then
      let fuse := bit (fld (KMap.get s.flash.images i []) 0x10 1) 0
      s.mbxWait 0x103 i (slotPayload slotGood x.2.1 x.2.2) (.confirmFloor x.2.2 fuse)
    else s.mbxFinish 0 [])

/-- ANCHOR_SET (R474): the fabric anchor digest is committed, and M6 extended. -/
def execAnchorSet (s : State) : Host.Outcome State Fault Refusal :=
  .next (s.mbxDo 0x13 fun s _ req =>
    s.mbxWait 0x104 0 (req.take 32 ++ zeros (32 - req.length)) (.anchor (req.take 32 ++ zeros (32 - req.length))))

/-- The debug policy of the fuses as it acts (R457, R461 stage 04h). -/
def State.debugFuse (s : State) : Nat :=
  if s.keeper.forced then 0 else if s.keeper.fuses.debug = 3 then 0 else s.keeper.fuses.debug

/-- DEBUG_TOKEN (R472): on a token-enabled part an accepted token opens debug at the next device reset. -/
def execDebugToken (accepted : Bool) (token : List Byte) (s : State) : Host.Outcome State Fault Refusal :=
  .next (s.mbxDo 0x14 fun s _ req => s.mbxReach (fld req 0 8) token.length fun s =>
    if accepted && s.debugFuse == 1 then
      { s with keeper := { s.keeper with token := some (leBytes 32 (digest256 token).toNat) } }.mbxFinish 0 []
    else s.mbxFinish 0x908 [])

/-! ### Failures (R461, R471, R476) -/

/-- ENTROPY_FAIL (R471). -/
def State.entropyFail (s : State) : State := (s.wr F.secStatusEntropyFail 1).event 0x090A .device []

def execEntropyFail (s : State) : Host.Outcome State Fault Refusal := .next s.entropyFail

/-- TRIAL_EXPIRY (R461): the booted TRIAL slot is marked BAD, 0903h, and the device resets. -/
def State.trialExpiry (s : State) : State :=
  if s.keeper.trial then ((s.markSlot s.bootedSlot slotBad).event 0x0903 .device [s.bootedSlot]).resetSequence 5 else s

def execTrialExpiry (s : State) : Host.Outcome State Fault Refusal := .next s.trialExpiry

/-- KEEPER_WATCHDOG_EXPIRY (R476): while the keeper performs a command. -/
def State.watchdogExpiry (s : State) : State :=
  if s.keeper.chans.isEmpty then s else (s.event 0x0908 .firmware []).resetSequence 5

def execKeeperWatchdogExpiry (s : State) : Host.Outcome State Fault Refusal := .next s.watchdogExpiry

/-! ### Boot (R461) -/

/-- Boot stops. -/
def State.bootHalt (s : State) (err : Nat) : State := (s.wr F.secBootStatusError err).wr F.secBootStatusHalted 1

/-- A stage is reached. -/
def State.stageTo (s : State) (n : Nat) : State := s.wr F.secBootStatusStage n

/-- The larger of two values of a keeper key (R462): by STATE for a slot state, else by the payload's value. -/
def largerValue (kind : Nat) (a b : List Byte) : List Byte :=
  if kind = 0x103 then (if fld a 0 1 ≤ fld b 0 1 then b else a) else if leNat a ≤ leNat b then b else a

/-- Takes one keeper key at start-up (R462, R463): the larger of the two stores, and the lagging store rewritten. -/
def State.loadKey (s : State) (x : Nat × Nat) : State :=
  match s.livePayload x.1 x.2, s.keeperValue x.1 x.2 with
  | some a, some b => if a = b then s else s.keeperSet x.1 x.2 (largerValue x.1 a b)
  | some a, none => s.mirrorPut x.1 x.2 a
  | none, some b => s.journalOffer (keeperRecord x.1 x.2 b)
  | none, none => s

/-- Stage 05h: the keeper's records (R462, R463, R465): the next index is LIMIT, and a lost reservation locks the key. -/
def State.loadRecords (s : State) : State :=
  let s := [(0x101, 0), (0x102, 0), (0x103, 0), (0x103, 1), (0x103, 2), (0x103, 3), (0x104, 0)].foldl State.loadKey s
  match s.keeperValue 0x101 0 with
  | some p => { s.wr F.secLimitLimit (fld p 0 8) with keeper := { s.keeper with next := fld p 0 8 } }
  | none => if s.keeper.fuses.used then s.wr F.secStatusIdentLocked 1 else s

/-- TRIAL slots that a reset has caught before CONFIRM become BAD (R459, R461). -/
def State.failTrials (s : State) : State :=
  s.keeper.tried.foldl
    (fun s i =>
      let s := if (s.slotState i).1 = slotTrial then (s.markSlot i slotBad).event 0x0903 .device [i] else s
      { s with keeper := { s.keeper with tried := s.keeper.tried.filter fun j => j != i } }) s

/-- The GOOD slot of highest VERSION among some. -/
def State.bestGood (s : State) : List Nat → Option Nat
  | [] => none
  | i :: is =>
    match s.bestGood is with
    | none => if (s.slotState i).1 = slotGood then some i else none
    | some j =>
      if (s.slotState i).1 = slotGood ∧ (s.slotState j).2.1 ≤ (s.slotState i).2.1 then some i else some j

/-- The slot that stage 06h tries: a TRIAL slot first, else the GOOD slot of highest VERSION. -/
def State.bootCandidate (s : State) : Option Nat :=
  match (upto 0 4).find? (fun i => (s.slotState i).1 == slotTrial) with
  | some i => some i
  | none => s.bestGood (upto 0 4)

/-- A check of the chosen slot has failed: it is marked BAD, and stage 06h tries the next; with none left boot halts. -/
def State.slotFails (s : State) (i code : Nat) : State :=
  let trial := (s.slotState i).1 == slotTrial
  let s := (s.markSlot i slotBad).event code .device [i]
  let s := if trial then s.event 0x0903 .device [i] else s
  let s := (s.wr F.secBootStatusTrial 0).stageTo 6
  if s.bootCandidate.isNone then s.bootHalt 3 else s

/-- Stage 06h: the slot's manifest and component 01h. -/
def State.chooseSlot (s : State) (ok : Bool) : State :=
  let s := s.failTrials
  match s.bootCandidate with
  | none => s.bootHalt 3
  | some i =>
    let x := s.slotState i
    if x.2.2 < s.floor then s.slotFails i 0x902
    else if !ok then s.slotFails i 0x901
    else
      let s := (s.wr F.secBootStatusSlot i).wr F.secBootStatusTrial (b2n (x.1 == slotTrial))
      let s :=
        if x.1 = slotTrial then { s with keeper := { s.keeper with tried := s.keeper.tried ++ [i] } }
        else if s.floor < x.2.2 then s.keeperSet 0x102 0 (leBytes 2 x.2.2) else s
      s.stageTo 7

/-- The DIGEST of a component of the booted bundle. -/
def State.componentDigest (s : State) (n : Nat) : List Byte :=
  ((KMap.get s.flash.images s.bootedSlot []).drop (0x20 + 64 * n + 32)).take 32

/-- Stage 07h: the keeper starts; the measurement registers, and the debug policy (R467, R472). A token lasts for one boot. -/
def State.startKeeper (s : State) : State :=
  let s := { s with keeper := { s.keeper with meas := List.replicate 16 0, boots := s.keeper.boots + 1 } }
  let opened := s.debugFuse == 2 || (s.debugFuse == 1 && s.keeper.token.isSome)
  let s := s.extendM 0 (leBytes 32 Config.maskRomDigest.toNat)
  let s := s.extendM 1 (shake256 32 ((KMap.get s.flash.images s.bootedSlot []).take 0xD48))
  let s := s.extendM 2 (s.componentDigest 0)
  let s := s.extendM 5 (leBytes 1 s.debugFuse ++ leBytes 4 s.floor ++ leBytes 1 (s.slotState s.bootedSlot).1 ++ zeros 26)
  let s := match s.keeper.token with
    | some d => if s.debugFuse = 1 then s.extendM 5 d else s
    | none => s
  let s := match s.keeperValue 0x104 0 with
    | some d => if leNat d = 0 then s else s.extendM 6 d
    | none => s
  let s := s.extendM 7 (shake256 32 s.keeper.cert)
  let s := { s with keeper := { s.keeper with token := none } }
  let s :=
    if opened then ((s.wr F.secStatusDebug 1).event 0x0909 .firmware []).event 0x0909 .host [] else s
  State.mbxSettle 2 (s.stageTo 8)

/-- The event of the reset that this start-up follows (R449, R505), raised by service firmware to the host. -/
def State.reportReset (s : State) : State :=
  let s :=
    match s.pwr.report with
    | 2 => s.event 0x0802 .host []
    | 3 => s.event 0x0804 .host []
    | 4 => s.event 0x0811 .host []
    | _ => s
  let s := { s with pwr := { s.pwr with report := 0 } }
  match s.pwr.trip with
  | some x => { s.event 0x0812 .host [x] with pwr := { s.pwr with trip := none } }
  | none => s

/-- Stage 0Ch: HIF.STATUS.READY sets (R383); the timer of a TRIAL slot starts. -/
def State.bootDone (s : State) : State :=
  let s := (s.wr F.hifStatusReady 1).wr F.secBootStatusDone 1
  let s := { s with keeper := { s.keeper with trial := s.has F.secBootStatusTrial } }
  s.reportReset

/-- Stage 0Bh: stage 2 of service firmware runs on all eight cores. The health monitor and the securing logic are served from
here on (R428). -/
def State.startFirmware (s : State) : State := s.resReady.stageTo 0x0C

/-- Stage 09h: the groups of the keeper's regions and of the page tables become corrected, which writes them as zero (R229, R276). -/
def State.reserveRegions (s : State) : State := (upto 0 4).foldl (fun (s : State) g => s.setClass g true) s

/-- BOOT_STAGE (R461): the stage in progress ends. A stage that waits on another unit goes on only when that has happened. -/
def State.bootStage (s : State) (e : StageEnd) : State :=
  let ok := e == .ok
  if s.has F.secBootStatusHalted || s.has F.secBootStatusDone || !s.clk.rails then s
  else
    match s.rd F.secBootStatusStage with
    | 1 => if ok then s.stageTo 2 else s.bootHalt 5
    | 2 => if ok then s.stageTo 3 else s.bootHalt 2
    | 3 => if ok then (if s.has F.clkStatusPllLock then s.stageTo 4 else s) else s.bootHalt 1
    | 4 =>
      if s.clk.released < 5 then s
      else if ok then s.stageTo 5
      else
        ({ s with keeper := { s.keeper with forced := true } }.wr F.secBootStatusError 5).entropyFail.stageTo 5
    | 5 => if ok then (if s.has F.durStatusReady then s.loadRecords.stageTo 6 else s) else s.bootHalt 4
    | 6 => s.chooseSlot ok
    | 7 => if ok then s.startKeeper else s
    | 8 => if ok then (s.extendM 3 (s.componentDigest 1)).stageTo 9 else s.slotFails s.bootedSlot 0x901
    | 9 => if ok then (if s.has F.hbmStatusReady then s.reserveRegions.stageTo 0x0A else s) else s.bootHalt 6
    | 0x0A => if ok then (s.extendM 4 (s.componentDigest 2)).stageTo 0x0B else s.slotFails s.bootedSlot 0x901
    | 0x0B => s.startFirmware
    | 0x0C => s.bootDone
    | _ => s

def execBootStage (e : StageEnd) (s : State) : Host.Outcome State Fault Refusal := .next (s.bootStage e)

end Sys2Proof.Machine
end

