-- ==== Sys2Proof/Machine/FabMgmt.lean ====
section
/-! DEFINITION. The fabric manager's messages (The Xagagen fabric port; Failure survival and restore): node assignment, membership and the peer
table, the choice of a partner, teardown, feed alerts, partner reservations and service firmware's wards. -/

namespace Sys2Proof.Machine

/-! ### Management packets (R311, R312) -/

/-- The management header. -/
def mType (m : List Byte) : Nat := fld m 0 1
def mBodyLen (m : List Byte) : Nat := fld m 2 2
def mEpoch (m : List Byte) : Nat := fld m 4 4
def mSeq (m : List Byte) : Nat := fld m 8 8
def mBody (m : List Byte) : List Byte := m.drop 16

/-- Whether a packet is a management packet of R311 for this device, of a known type. -/
def State.mgmtHeadOk (s : State) (k : Pkt) : Bool :=
  k.ty == tyMgmt && k.domain == 0 && k.flow == 0 && k.off == 0 && k.status == 0 && decide (16 ≤ k.len ∧ k.len ≤ 256) &&
    k.dst == (if s.has F.fabStatusNodeValid then s.node else 0xFFFF) && fld k.data 1 1 == 1 && 16 + mBodyLen k.data == k.len &&
    decide (1 ≤ mType k.data ∧ mType k.data ≤ 6)

/-- Whether a body keeps R312. -/
def bodyOk (mtype : Nat) (b : List Byte) : Bool :=
  match mtype with
  | 1 => b.length == 8 && fld b 0 2 != 0xFFFF && fld b 2 2 != 0 && decide (fld b 6 1 < 2) && fld b 7 1 == 0
  | 2 =>
    let n := fld b 0 2
    decide (1 ≤ n ∧ n ≤ 29) && b.length == 8 + 8 * n && fld b 2 6 == 0 &&
      (chunks 8 n (b.drop 8)).all fun e => fld e 0 2 != 0xFFFF && decide (1 ≤ fld e 6 1 ∧ fld e 6 1 ≤ 3 ∧ fld e 7 1 < 2)
  | 3 => b.length == 8 && fld b 0 2 != 0 && fld b 2 6 == 0
  | 4 => b.length == 8 && decide (1 ≤ fld b 2 1 ∧ fld b 2 1 ≤ 2) && fld b 3 5 == 0
  | 5 =>
    b.length == 24 && decide (1 ≤ fld b 0 1 ∧ fld b 0 1 ≤ 2 ∧ 1 ≤ fld b 1 1 ∧ fld b 1 1 ≤ 2) && fld b 6 2 == 0 &&
      fld b 8 8 % 2 ^ 21 == 0 && decide (fld b 8 8 < dirBase) && fld b 0x10 8 % 2 ^ 21 == 0
  | 6 => b.length == 40 && decide (fld b 0 1 < 64 ∧ fld b 1 1 ≤ 3) && fld b 2 6 == 0 &&
      (fld b 1 1 == 0 || (fld b 12 2 == 0 && wardEntryOk ((b.drop 8).take 32)))
  | _ => false

def State.mgmtInvalid (s : State) (p : Nat) : State := s.event 0x40B .firmware [p]

/-- Whether a message has been acted on: its epoch is the last taken, and its number not above the last (R311 step 2). -/
def State.mgmtSeen (s : State) (m : List Byte) : Bool :=
  match s.fab.last with
  | some (e, n) => e == mEpoch m && decide (mSeq m ≤ n)
  | none => false

/-- The management packet in front of a port: one that is malformed is discarded with 040Bh; one of type `mtype` that has not been acted on is
taken. -/
def State.mgmt (s : State) (p mtype : Nat) (act : State → List Byte → State) : State :=
  match (s.port p).mgmt with
  | [] => s
  | bs :: rest =>
    let k := Pkt.of bs
    let drop := fun (s : State) => (s.modPort p fun x => { x with mgmt := rest }).owe p 2 bs
    if !pktSound bs then (drop s).e2eFail p
    else if !s.mgmtHeadOk k || !bodyOk (mType k.data) (mBody k.data) then (drop s).mgmtInvalid p
    else if mType k.data ≠ mtype then s
    else if s.mgmtSeen k.data then drop s
    else if mtype = 1 ∧ s.has F.fabStatusNodeValid then (drop s).mgmtInvalid p
    else
      let s := drop s
      act { s with fab := { s.fab with last := some (mEpoch k.data, mSeq k.data) } } (mBody k.data)

/-! ### NODE_ASSIGN (R305, R406) -/

/-- Whether the strap's and the fabric manager's feeds are both present and differ. -/
def State.feedsDiffer (s : State) : Bool :=
  s.rd F.resFeedFmFeed != 0xFFFF && s.rd F.resFeedStrapFeed != 0xFFFF && s.rd F.resFeedFmFeed != s.rd F.resFeedStrapFeed

def State.nodeAssign (s : State) (b : List Byte) : State :=
  let s := ((s.wr F.fabNodeNode (fld b 0 2)).wr F.fabNodeInc (fld b 2 2)).wr F.fabStatusNodeValid 1
  let s := (s.wr F.resFeedFmFeed (fld b 4 2)).wr F.resStatusFeedFm (b2n (fld b 4 2 != 0xFFFF))
  let s := { s with fab := { s.fab with capable := bit (fld b 6 1) 0 } }
  if s.feedsDiffer then (s.setEvent F.resEventsFeedMismatch).event 0x70E .firmware [s.rd F.resFeedStrapFeed, s.rd F.resFeedFmFeed] else s

def execNodeAssign (p : PortId) (s : State) : Host.Outcome State Fault Refusal := .next (s.mgmt p 1 State.nodeAssign)

/-! ### The partner (R296, R407) -/

/-- Whether a peer counts as sharing the device's feed: equal, unknown, or while the device's own feeds differ (R406). -/
def State.sharesFeed (s : State) (x : Peer) : Bool :=
  s.feedsDiffer || x.feed == s.feedInUse || x.feed == 0xFFFF || s.feedInUse == 0xFFFF

/-- Whether a peer holds a reservation for this device. -/
def State.holds (s : State) (node inc : Nat) : Bool := s.fab.origins.any fun r => r.peer == node && r.inc == inc

/-- The place of a candidate in the order of preference. -/
def State.preference (s : State) (node : Nat) (x : Peer) : Nat :=
  if s.sharesFeed x then 2 else if s.holds node x.inc then 0 else 1

/-- The eligible peer that R296 takes: the lowest node of the best preference. -/
def State.bestPartner (s : State) : Option (Nat × Peer) :=
  let xs : List (Nat × Peer) := s.fab.peers.filter fun x => x.2.state == 0 && x.2.capable
  ([0, 1, 2].filterMap fun k => xs.find? fun (x : Nat × Peer) => s.preference x.1 x.2 == k).head?

/-- The pair's correlation, as RES.STATUS shows it, with 0709h (R407). -/
def State.correlate (s : State) (x : Peer) (node : Nat) : State :=
  if !s.sharesFeed x then s.wr F.resStatusCorrelated 0
  else
    let s := (s.wr F.resStatusCorrelated 1).setEvent F.resEventsCorrelated
    let s := (s.event 0x709 .firmware [node]).event 0x709 .host [node]
    (upto 0 16).foldl (fun (s : State) t => if s.active t then s.tell t 0x709 (coreUnit 0) node x.feed else s) s

/-- A new partner, or none: layer 1 becomes due for every ACTIVE tenant (R410). -/
def State.setPartner (s : State) (c : Option (Nat × Peer)) : State :=
  let s := { s with fab := { s.fab with partner := c.map fun (x : Nat × Peer) => (x.1, x.2.inc) }, sec := { s.sec with regions := [] } }
  let s := s.setEvent F.resEventsPartner
  match c with
  | none =>
    (((s.setReg .resPartner Reg.resPartner.reset).wr F.resStatusPartnerValid 0).wr F.resStatusCorrelated 0)
  | some (node, x) =>
    let s := ((s.wr F.resPartnerNode node).wr F.resPartnerFeed x.feed).wr F.resPartnerInc x.inc
    ((s.wr F.resStatusPartnerValid 1).correlate x node).dueAll [1] false

/-- The choice of a partner (R296): nothing changes where the same one is taken. -/
def State.choosePartner (s : State) : State :=
  let c := s.bestPartner
  if c.map (fun (x : Nat × Peer) => (x.1, x.2.inc)) = s.fab.partner then s else s.setPartner c

/-- Whether the partner is no longer LIVE under its incarnation. -/
def State.partnerGone (s : State) : Bool :=
  match s.fab.partner with
  | none => false
  | some (node, inc) =>
    match KMap.find s.fab.peers node with
    | some x => x.state != 0 || x.inc != inc
    | none => true

/-- The partner is lost: 070Dh, the layer-1 drains end with cause 02h, and no tenant has a layer-1 generation (R416). -/
def State.partnerLost (s : State) : State :=
  let s := (s.setEvent F.resEventsPartner).event 0x70D .device [(s.fab.partner.map (·.1)).getD 0xFFFF]
  (upto 0 16).foldl (fun (s : State) t => (s.abandon t 1 2).setReg (.resGen t 1) (BitVec.allOnes 64)) s

/-! ### ANNOUNCE (R308) -/

/-- One entry: JOIN, LEAVE or DEAD; the device's own node is ignored. -/
def State.announceEntry (s : State) (e : List Byte) : State :=
  let node := fld e 0 2
  if node = s.node ∧ s.has F.fabStatusNodeValid then s
  else
    let st := fld e 6 1 - 1
    let x : Peer := { inc := fld e 2 2, state := if st = 0 then 0 else if st = 1 then 2 else 1, feed := fld e 4 2, capable := bit (fld e 7 1) 0 }
    { s with fab := { s.fab with peers := KMap.put s.fab.peers node x } }

/-- Whether an entry marks a DEAD peer on the device's feed, or the partner DEAD or LEFT (R408). -/
def State.announceRisk (s : State) (e : List Byte) : Bool :=
  (fld e 6 1 == 3 && fld e 4 2 == s.feedInUse && s.feedInUse != 0xFFFF && fld e 0 2 != s.node) ||
    (decide (2 ≤ fld e 6 1) && s.fab.partner.map (·.1) == some (fld e 0 2))

def State.announce (s : State) (b : List Byte) : State :=
  let es := chunks 8 (fld b 0 2) (b.drop 8)
  let risk := es.any s.announceRisk
  let s := es.foldl State.announceEntry s
  let s := s.wr F.fabPeersLive (s.fab.peers.filter fun x => x.2.state == 0).length
  let s := s.setEvent F.fabEventsMembership
  let s := (upto 0 16).foldl (fun (s : State) e => s.send (engineUnit e) (.peers (es.map fun x => fld x 0 2))) s
  let s := if risk then s.healthInput .peers else s
  let s := if s.partnerGone then s.partnerLost else s
  s.choosePartner

def execAnnounce (p : PortId) (s : State) : Host.Outcome State Fault Refusal := .next (s.mgmt p 2 State.announce)

/-! ### TEARDOWN (R331, R349) -/

/-- A ward table without entries and groups. -/
def clearWard (w : List Byte) : List Byte := patch (patch w 0 (zeros 32)) 0x20 [0]

/-- The fabric side of a tenant's teardown: wards, domain, and every outstanding request. -/
def State.tearDomain (s : State) (t : Nat) : State :=
  let s := { s with keeper := { s.keeper with
    wards := if (KMap.find s.keeper.wards t).isSome then KMap.modify s.keeper.wards t [] clearWard else s.keeper.wards
    domains := KMap.del s.keeper.domains t } }
  let s := (s.markAll (.isolation 0 0)).wr (F.tenStateDomain t) 0
  (s.fab.reqs.filter fun r => r.tenant == t).foldl (fun (s : State) r => s.endReq r 0x405 Pkt.none') s

def State.teardown (s : State) (b : List Byte) : State :=
  let d := fld b 0 2
  match s.keeper.domains.find? fun x => x.2 == d with
  | none => s
  | some (t, _) =>
    let s := (s.tearDomain t).loseSlots t false
    (s.setEvent F.fabEventsTeardown).tell t 0x405 (coreUnit 0) d 0

def execTeardown (p : PortId) (s : State) : Host.Outcome State Fault Refusal := .next (s.mgmt p 3 State.teardown)

/-! ### FEED_ALERT (R409) -/

def State.feedAlert (s : State) (b : List Byte) : State :=
  if fld b 0 2 = s.feedInUse ∧ s.feedInUse ≠ 0xFFFF then s.healthInput .feedWide else s

def execFeedAlert (p : PortId) (s : State) : Host.Outcome State Fault Refusal := .next (s.mgmt p 4 State.feedAlert)

/-! ### PARTNER (R312, R418) -/

/-- A reservation that this device holds is freed. -/
def State.releaseHeld (s : State) (peer off : Nat) : State :=
  let mine := fun (r : Reservation) => r.peer == peer && r.off == off
  let fs := ((s.fab.held.filter mine).map (·.frames)).flatten
  let s := { s with fab := { s.fab with held := s.fab.held.filter fun r => !mine r } }
  (s.retire fs).settleRetired

/-- A reservation to hold: corrected frames, after the spills of R292; unmapped when they lack. -/
def State.reserveHeld (s : State) (peer inc off bytes : Nat) : State :=
  let s := s.releaseHeld peer off
  let n := bytes / 2 ^ 21
  let s := if s.fab.capable then s.spillFor true n s.frameCount else s
  let fs := if s.fab.capable then s.freeFrames true n s.frameCount else []
  let fs := if fs.length < n then [] else fs
  let s := (s.convertGroups true fs).homeFrames fs 0 0
  { s with fab := { s.fab with held := s.fab.held ++ [{ peer := peer, inc := inc, off := off, bytes := bytes, frames := fs }] } }

def State.partner (s : State) (b : List Byte) : State :=
  let peer := fld b 2 2
  let inc := fld b 4 2
  let off := fld b 8 8
  if fld b 0 1 = 1 then
    if fld b 1 1 = 1 then s.reserveHeld peer inc off (fld b 0x10 8) else s.releaseHeld peer off
  else
    let others := s.fab.origins.filter fun r => r.peer != peer
    if fld b 1 1 = 1 then
      { s with fab := { s.fab with origins := others ++ [{ peer := peer, inc := inc, off := off, bytes := fld b 0x10 8, frames := [] }] } }
    else
      let s := { s with fab := { s.fab with origins := others } }
      if s.fab.partner.map (fun (x : Nat × Nat) => x.1) == some peer then { s with sec := { s.sec with regions := [] } }.choosePartner else s

def execPartner (p : PortId) (s : State) : Host.Outcome State Fault Refusal := .next (s.mgmt p 5 State.partner)

/-! ### SF_WARD (R312, R419) -/

/-- The keeper installs an entry of service firmware's ward table, or clears it. -/
def State.sfWard (s : State) (b : List Byte) : State :=
  let i := fld b 0 1
  let e := (b.drop 8).take 32
  let ws := if fld b 1 1 = 0 then KMap.del s.keeper.sfWards i else KMap.set s.keeper.sfWards i e (zeros 32)
  { s with keeper := { s.keeper with sfWards := ws } }.markAll (.isolation 0 0)

def execSfWard (p : PortId) (s : State) : Host.Outcome State Fault Refusal := .next (s.mgmt p 6 State.sfWard)

end Sys2Proof.Machine
end

