-- ==== Sys2Proof/Machine/Restore.lean ====
section
/-! DEFINITION. Restore (Failure survival and restore): the nine steps of R422, and the warnings of R440. -/

namespace Sys2Proof.Machine

/-! ### The restore descriptor (R420) -/

def rdSource (d : List Byte) : Nat := fld d 1 1
def rdRealign (d : List Byte) : Bool := bit (fld d 2 1) 0
def rdNewest (d : List Byte) : Bool := bit (fld d 2 1) 1
def rdTenant (d : List Byte) : Nat := fld d 3 1
def rdOrig (d : List Byte) : Nat := fld d 6 2
def rdStep (d : List Byte) : Nat := fld d 8 8
def rdReplica (d : List Byte) : Nat := fld d 0x18 2
def rdReplicaTenant (d : List Byte) : Nat := fld d 0x1A 1
def rdBindAddr (d : List Byte) : Nat := fld d 0x20 8
def rdBinds (d : List Byte) : Nat := if rdBindAddr d = 0 then 0 else fld d 0x28 4

/-- Whether a descriptor is well formed. -/
def restoreDescOk (d : List Byte) : Bool :=
  fld d 0 1 == 1 && decide (1 ≤ rdSource d ∧ rdSource d ≤ 3 ∧ fld d 2 1 < 4 ∧ rdTenant d < 16 ∧ rdReplicaTenant d < 16) && fld d 0x1B 5 == 0 &&
    decide (fld d 0x28 4 ≤ 4096) && fld d 0x2C 84 == 0

/-- The layer of a source. -/
def sourceLayer (d : List Byte) : Nat := rdSource d

/-! ### RES.RESTORE_STATUS (R427) -/

/-- A restore that fails leaves the buffer and slots not in force undefined (R424). -/
def State.spoilPending (s : State) (t : Nat) : State :=
  ((s.tenant t).place.tensors.map fun x => x.secured (1 - (s.tenant t).step.buf)).flatten.foldl
    (fun (s : State) q => { s.writePart q 0 (s.freeBytes q.bytes) with free := s.free + q.bytes }) s

/-- A restore ends: CODE, then the event bit, then BUSY. -/
def State.restoreEnd (s : State) (code : Nat) : State :=
  let s := match s.sec.restore with
    | some r => if code = 0 then s else s.spoilPending r.tenant
    | none => s
  let s := (s.wr F.resRestoreStatusCode code).setEvent F.resEventsRestore
  { s with sec := { s.sec with restore := none } }.wr F.resRestoreStatusBusy 0

/-- RESTORE_GO (R420, R427): ignored while BUSY. A descriptor or table outside the aperture, or a malformed descriptor, ends it at once. -/
def State.restoreGo (s : State) (v : Nat) (desc binds : List Byte) : State :=
  if !bit v 31 || !s.has F.resStatusReady || s.has F.resRestoreStatusBusy then s
  else
    let t := v % 16
    let a := (s.reg .resRestoreDesc).toNat
    let s := ((s.wr F.resRestoreCtrlTenant t).wr F.resRestoreStatusCode 0).wr F.resRestoreStatusBusy 1
    let s := s.wr F.resRestoreStatusStep 1
    if !s.reaches a 128 || (rdBinds desc != 0 && !s.reaches (rdBindAddr desc) (32 * rdBinds desc)) then
      (s.setEvent F.hifEventsHostAccess).restoreEnd 0x605
    else
      let s := (s.emit (.hostRead a 128)).count hostLinkUnit 2 1
      let s := if rdBinds desc = 0 then s else (s.emit (.hostRead (rdBindAddr desc) (32 * rdBinds desc))).count hostLinkUnit 2 1
      if !restoreDescOk desc then s.restoreEnd 0x602
      else
        { s with sec := { s.sec with
          restore := some
            { tenant := t, desc := desc.take 128, binds := binds.take (32 * rdBinds desc), step := 1, manifest := [], slot := [], blocks := [], counters := [] } } }

def execRestoreGo (v : Word) (desc binds : List Byte) (s : State) : Host.Outcome State Fault Refusal := .next (s.restoreGo v.toNat desc binds)

/-- The next step begins. -/
def State.restoreNext (s : State) (r : Restore) : State :=
  { s with sec := { s.sec with restore := some { r with step := r.step + 1 } } }.wr F.resRestoreStatusStep (r.step + 1)

/-! ### Steps 1 to 4: what is restored, and whether it may be -/

def State.restore1 (s : State) (r : Restore) : State :=
  let t := r.tenant
  if s.active t && (s.tenant t).step.phase == .idle && !(s.sec.drains.any fun d => d.tenant == t) then s.restoreNext r else s.restoreEnd 0x706

/-- The flash generation that a descriptor names. -/
def State.flashNamed (s : State) (d : List Byte) : Option FlashGen :=
  if rdOrig d ≠ s.node then none
  else (s.flashGens (rdTenant d)).reverse.find? fun g => rdNewest d || g.step == rdStep d

/-- A failure of the fabric as the restore shows it: a ward fault by its own code (R419). -/
def fabricCode (code other : Nat) : Nat := if code = 0x404 then 0x404 else other

/-- How a GET of a remote range ends: 0404h when service firmware's ward table does not cover it (R419), else as the fabric ends it. -/
def State.getCode (s : State) (addr n code : Nat) : Nat :=
  if (s.wardDomain sfTenant (nodeOf addr) (offsetOf addr) n tyRead).isNone then 0x404 else code

/-- How step 2's reading of a manifest ends; that of the shared store stands at SRC_ADDR. -/
def State.sourceCode (s : State) (d data : List Byte) (code : Nat) : Nat :=
  if rdSource d = 3 then s.getCode (fld d 0x10 8) (max 256 data.length) code else code

/-- Whether a manifest is of the generation that a descriptor names. -/
def manifestNamed (d m : List Byte) : Bool :=
  fld m 0x10 2 == rdOrig d && fld m 0x16 1 == rdTenant d && (rdNewest d || fld m 0 8 == rdStep d)

def State.restore2 (s : State) (r : Restore) (data : List Byte) (code : Nat) : State :=
  let d := r.desc
  if rdSource d = 2 then
    match s.flashNamed d with
    | none => s.restoreEnd 0x701
    | some g => if code ≠ 0 ∨ !genManifestOk g.manifest 2 then s.restoreEnd 0x702 else s.restoreNext { r with manifest := g.manifest }
  else if s.sourceCode d data code ≠ 0 ∨ data.isEmpty then s.restoreEnd (fabricCode (s.sourceCode d data code) 0x701)
  else if !genManifestOk data (sourceLayer d) then s.restoreEnd 0x702
  else if !manifestNamed d data then s.restoreEnd 0x701
  else s.restoreNext { r with manifest := data.take (256 + 64 * fld data 0x18 4) }

/-- The bytes of a part that entries hold. -/
def entriesBytes (es : List (List Byte)) (h part : Nat) : Nat :=
  sumNat ((es.filter fun e => fld e 0 4 == h && fld e 4 1 == part).map fun e => fld e 0x10 4)

/-- Whether the small state of a generation fits a tenant. -/
def smallOk (es : List (List Byte)) : Bool :=
  entriesBytes es 0 0xF0 == 131328 && entriesBytes es 0 0xF1 == 64 && entriesBytes es 0 0xF2 % 256 == 0 &&
    decide (entriesBytes es 0 0xF2 ≤ 256 * maxRecs)

/-- Whether an entry with a handle matches a live part. -/
def State.entryMatches (s : State) (t : Nat) (es : List (List Byte)) (e : List Byte) : Bool :=
  fld e 0 4 == 0 ||
    match s.tensor? t (fld e 0 4) with
    | some x => x.cls == 1 && (x.parts.any fun q => q.code == fld e 4 1 && q.bytes == entriesBytes es (fld e 0 4) (fld e 4 1))
    | none => false

def State.restore3 (s : State) (r : Restore) : State :=
  let es := manifestEntries r.manifest
  if smallOk es && es.all fun e => s.entryMatches r.tenant es e then s.restoreNext r else s.restoreEnd 0x703

/-- Whether a directory header's CHECK holds. -/
def dirHeaderOk (h : List Byte) (u : Nat) : Bool :=
  fld h 0x20 8 == crcFold 1 (crcFold 1 (crcInit 1) (leBytes 8 (dirBase + u * 2 ^ 21))) (h.take 0x20)

/-- What the replica's directory gives of a step: its manifest. `data` is the header, and the manifest read after it. -/
def replicaManifest (data : List Byte) (u step : Nat) : Option (List Byte) :=
  let m := data.drop 4096
  if dirHeaderOk data u && (fld data 8 8 == step || fld data 0x10 8 == step) && genManifestOk m (fld m 0x17 1) && fld m 0 8 == step then some m else none

/-- This device's own directory, as a replica reads it: its header and the manifest of a step. -/
def State.ownReplica (s : State) (u step : Nat) : List Byte :=
  let d := s.dir u
  d.header u ++ zeros 4056 ++ (if d.step0 = step then d.manifest0 else if d.step1 = step then d.manifest1 else [])

/-- Whether every replicated entry agrees with the replica's. -/
def replicaAgrees (es rs : List (List Byte)) : Bool :=
  es.all fun e =>
    !bit (fld e 5 1) 0 ||
      rs.any fun f => fld f 0 4 == fld e 0 4 && fld f 4 1 == fld e 4 1 && fld f 8 8 == fld e 8 8 && (f.drop 0x20).take 32 == (e.drop 0x20).take 32

def State.restore4 (s : State) (r : Restore) (data : List Byte) (code : Nat) : State :=
  let u := rdReplicaTenant r.desc
  let step := fld r.manifest 0 8
  let own := rdReplica r.desc == s.node && s.has F.fabStatusNodeValid
  let code := if own then 0 else s.getCode (rdReplica r.desc * 2 ^ 48 + dirBase + u * 2 ^ 21) 0x28 code
  if code != 0 then s.restoreEnd (fabricCode code 0x705)
  else
    match replicaManifest (if own then s.ownReplica u step else data) u step with
    | none => s.restoreEnd 0x705
    | some m => if replicaAgrees (manifestEntries r.manifest) (manifestEntries m) then s.restoreNext r else s.restoreEnd 0x704

/-! ### Step 5: the streams (R421) -/

/-- The blocks of the flash generation that a restore reads. -/
def State.restoreFlash (s : State) (r : Restore) : List GenBlock :=
  match (s.flashGens (rdTenant r.desc)).find? fun g => g.manifest == r.manifest with
  | some g => g.blocks
  | none => []

/-- A stream's counter in a record slot. -/
def slotCounter (b : List Byte) (i : Nat) : Nat := fld b (256 + 32 * i) 16

/-- A bound stream's implied counter. -/
def implied (binds slot : List Byte) (i : Nat) : Option Nat :=
  let e := (binds.drop (32 * i)).take 32
  if bit (fld e 0x19 1) 0 then
    some ((fld e 0 16 + fld e 0x10 8 * fld slot (if fld e 0x18 1 = 0 then 0x18 else 0x20) 8) % 2 ^ 128)
  else none

/-- The bound streams whose counter differs, with their implied counters. -/
def skewed (n : Nat) (binds slot : List Byte) : List (Nat × Nat) :=
  (upto 0 n).filterMap fun i =>
    match implied binds slot i with
    | some c => if c = slotCounter slot i then none else some (i, c)
    | none => none

def State.restore5 (s : State) (r : Restore) (data : List Byte) (code : Nat) : State :=
  let remote := rdSource r.desc != 2
  let slot := if remote then data
    else (((s.restoreFlash r).filter fun b => b.handle == 0 && b.part == 0xF0).map (·.data)).flatten
  if (remote && code != 0) || slot.length != 131328 then s.restoreEnd (fabricCode code 0x702)
  else
    let bad := skewed (rdBinds r.desc) r.binds slot
    let cs := (upto 0 4096).foldl (fun (m : KMap Nat) i => KMap.set m i (slotCounter slot i) 0) []
    match bad with
    | [] => s.restoreNext { r with slot := slot, counters := cs }
    | (i, _) :: _ =>
      if !rdRealign r.desc then (s.tell r.tenant 0x707 (coreUnit 0) i 0).restoreEnd 0x707
      else
        let s := s.tell r.tenant 0x708 (coreUnit 0) bad.length 0
        s.restoreNext { r with slot := slot, counters := bad.foldl (fun (m : KMap Nat) x => KMap.set m x.1 x.2 0) cs }

/-! ### Step 6: the blocks -/

/-- Cuts data into the blocks of entries. -/
def cutEntries : List (List Byte) → List Byte → List (List Byte)
  | [], _ => []
  | e :: es, d => d.take (fld e 0x10 4) :: cutEntries es (d.drop (fld e 0x10 4))

/-- Whether a block has its entry's length and digest. -/
def blockGood (step : Nat) (x : List Byte × List Byte) : Bool :=
  let e := x.1
  x.2.length == fld e 0x10 4 && (blockDigest step (fld e 0 4) (fld e 4 1) (fld e 8 8) x.2).toNat == fld e 0x20 32

/-- Writes a block of a part into the buffer or slot not in force. -/
def State.restoreBlock (s : State) (t : Nat) (x : List Byte × List Byte) : State :=
  let e := x.1
  match s.tensor? t (fld e 0 4) with
  | some y =>
    match y.parts.find? fun q => q.code == fld e 4 1 && q.side == 1 - (s.tenant t).step.buf with
    | some q => s.writePart q (fld e 8 8) x.2
    | none => s
  | none => s

def State.restore6 (s : State) (r : Restore) (data : List Byte) (code : Nat) : State :=
  let es := manifestEntries r.manifest
  let bs := if rdSource r.desc = 2 then (s.restoreFlash r).map (·.data) else cutEntries es data
  let pairs := es.zip bs
  let s := (pairs.filter fun x => fld x.1 0 4 != 0).foldl (fun (s : State) x => s.restoreBlock r.tenant x) s
  if code ≠ 0 ∨ bs.length ≠ es.length ∨ !pairs.all (blockGood (fld r.manifest 0 8)) then s.restoreEnd (fabricCode code 0x702)
  else s.restoreNext { r with blocks := bs }

/-! ### Step 7: numeric state and records (R102, R120) -/

/-- The bytes of a part of small state among the blocks read. -/
def smallBytes (r : Restore) (part : Nat) : List Byte :=
  ((((manifestEntries r.manifest).zip r.blocks).filter fun x => fld x.1 0 4 == 0 && fld x.1 4 1 == part).map (·.2)).flatten

/-- A numeric state read back: LOSS_SCALE from the commit record, and nothing of the current step. -/
def numOf (b : List Byte) (lossScale : Word) : NumState :=
  { lossScale := lossScale, cleanSteps := 0, growthInterval := fld b 8 4, backoffStep := fld b 0xC 1, backoffLimit := fld b 0xD 1
    scaleMargin := fld b 0xE 1, policy := fld b 0xF 1, step := fld b 0x10 8, poison := false, poisonCause := fld b 0x19 1
    poisonUnit := fld b 0x1A 2, poisonHandle := fld b 0x1C 4, poisonHits := 0, poisonedSteps := fld b 0x24 4
    lsMinExp := signed 8 (fld b 0x28 1), lsMaxExp := signed 8 (fld b 0x29 1), fallbackTensors := fld b 0x2C 4 }

/-- A numeric record read back into one that is live: its place and handle stay, and nothing of the current step. -/
def NumRec.readBack (r : NumRec) (b : List Byte) : NumRec :=
  let w := fun (o : Nat) => BitVec.ofNat 32 (fld b o 4)
  let mode := fld b 7 1
  { r with
    cls := fld b 4 1, fmt := fld b 5 1, baseFmt := fld b 6 1, jit := bit mode 0, escalated := bit mode 1, pinFmt := bit mode 2
    frozen := bit mode 3, floor := false, tileScale := w 8, histLen := fld b 0xC 1, histValid := fld b 0xD 1, histHead := fld b 0xE 1
    jitLeft := fld b 0xF 1, hist := (upto 0 16).map fun i => w (0x10 + 4 * i), histStep := fld b 0x50 8
    floorExp := signed 8 (fld b 0x64 1), ovfSteps := 0, alarmScore := fld b 0x66 1, link := fld b 0x68 4, runSamples := fld b 0x78 8
    runDMax := w 0x80, warnCount := fld b 0x84 4, alarmCount := fld b 0x88 4, escDenied := fld b 0x8C 4, zeroFlush := fld b 0x90 4
    escalations := fld b 0x94 4 }.clearStep

/-- One live record: a loaded frozen weight's stays; one without history of the restored step is put into fallback. -/
def restoreRec (bs : List (List Byte)) (step margin : Nat) (r : NumRec) : NumRec × Nat :=
  if r.frozen then (r.clearStep, 0)
  else
    match bs.find? fun b => fld b 0 4 == r.handle with
    | none => ((r.fallback.clearStep).rescale margin, 1)
    | some b =>
      let x := r.readBack b
      if x.histStep = step then (x.rescale margin, 0) else (x.fallback.rescale margin, 1)

def State.restoreRecs (s : State) (t : Nat) (bs : List (List Byte)) (step margin : Nat) : State :=
  let x := (s.recHandles t).foldl
    (fun (x : State × Nat) h =>
      match x.1.rec? t h with
      | some r => let y := restoreRec bs step margin r; (x.1.setRec t y.1, x.2 + y.2)
      | none => x) (s, 0)
  x.1.fellBack t x.2

def State.restore7 (s : State) (r : Restore) : State :=
  let t := r.tenant
  let f2 := smallBytes r 0xF2
  let n := numOf (smallBytes r 0xF1) (BitVec.ofNat 32 (fld r.slot 0x14 4))
  ((s.setNum t n).restoreRecs t (chunks 256 (f2.length / 256) f2) (fld r.manifest 0 8) n.scaleMargin).restoreNext r

/-! ### Steps 8 and 9: the commit point (R168, R439, R440) -/

/-- The warnings of a restore of this device's own generation, against the COMMIT records journalled at start-up. -/
def State.commitsLost (s : State) (r : Restore) : State :=
  let u := rdTenant r.desc
  let step := fld r.manifest 0 8
  if rdOrig r.desc ≠ s.node ∨ (s.reg (.durLastcommitSeq u)).toNat = 0 then s
  else
    let last := (s.reg (.durLastcommitStep u)).toNat
    let x := (s.tenant r.tenant).step
    if step < last then
      (s.setEvent F.durEventsCommitsLost).tell r.tenant 0x805 (coreUnit 0) last (s.reg (.durLastcommitCursorLo u)).toNat
    else if last = step ∧ KMap.get s.journal.lastSnap u [] ≠ shake256 32 (x.snapshot x.record.counters) then
      (s.setEvent F.durEventsCommitsLost).tell r.tenant 0x80B (coreUnit 0) step 0
    else s

def State.restore8 (s : State) (r : Restore) : State :=
  let t := r.tenant
  let x := (s.tenant t).step
  let new : CommitRec :=
    { seq := x.seq + 1, step := fld r.slot 8 8, kind := 3, phase := fld r.slot 0x11 1, buf := 1 - x.buf
      lossScale := BitVec.ofNat 32 (fld r.slot 0x14 4), cursor := (r.slot.drop 0x18).take 16, skipped := fld r.slot 0x28 8
      updates := fld r.slot 0x30 8, counters := r.counters }
  let s := (s.writeRecord t (1 - x.slot) new).writeStepWord t (x.seq + 1) (1 - x.slot) (1 - x.buf)
  let s := s.modStep t fun y => { y with counters := r.counters, lost := false }
  (s.commitsLost r).restoreNext r

def State.restore9 (s : State) (r : Restore) : State :=
  let t := r.tenant
  let s := (s.remapCopies t).commitRecord t
  let s := s.hostWrite ((s.tenant t).fault.statusAddr + 0x10) (leBytes 8 (s.stepNow t))
  (s.restoreEnd 0).tell t 0x710 (coreUnit 0) (s.stepNow t) 0

/-- RESTORE_STEP_END: the step that runs finishes. `data` is what the fabric returned where the step reads another device: in step 2 the
manifest, in step 4 the replica's directory header and manifest, in step 5 the record slot, in step 6 every block in order; `code` says how that
reading, or the flash's, ended. -/
def State.restoreStepEnd (s : State) (data : List Byte) (code : Nat) : State :=
  match s.sec.restore with
  | none => s
  | some r =>
    match r.step with
    | 1 => s.restore1 r
    | 2 => s.restore2 r data code
    | 3 => s.restore3 r
    | 4 => s.restore4 r data code
    | 5 => s.restore5 r data code
    | 6 => s.restore6 r data code
    | 7 => s.restore7 r
    | 8 => s.restore8 r
    | _ => s.restore9 r

def execRestoreStepEnd (data : List Byte) (code : Half) (s : State) : Host.Outcome State Fault Refusal := .next (s.restoreStepEnd data code.toNat)

end Sys2Proof.Machine
end

