-- ==== Sys2Proof/Machine/HostOps.lean ====
section
/-! DEFINITION. The tenants' commands LAUNCH, HOST_COPY, WAIT, DEAD_MARK and ABORT, and TENANT_ABORT (Host interface, queues and tenants). -/

namespace Sys2Proof.Machine

/-! ### LAUNCH (R173 to R175, R365) -/

/-- Starts a launch: its blocks are placed as tumblers have room. -/
def State.startLaunch (s : State) (t r cid blocks : Nat) (d : List Byte) : State :=
  { s.endBoundary t with
    nextLaunch := s.nextLaunch + 1
    launches := s.launches ++
      [{ id := s.nextLaunch, tenant := t, ring := r, cid := cid, desc := d, blocks := blocks, placed := 0, ended := 0, code := 0, stopped := false }] }

def State.launch (s : State) (t r : Nat) (e : Entry) : State :=
  let n := e.arg 8 4
  if n = 0 ∨ 2 ^ 24 < n then s.finish t r e.cid 0x602 0 0
  else if e.arg 0 8 % 64 ≠ 0 then s.finish t r e.cid 0x122 0x122 0
  else
    s.withRecord t r e (e.arg 0 8) 64 fun s d =>
      if !kernelOk d then s.finish t r e.cid 0x122 0x122 0
      else if bit (fld d 1 1) 1 ∧ !bit (s.tenant t).place.rights 0 then s.finish t r e.cid 0x123 0x123 0
      else s.startLaunch t r e.cid n d

def execLaunch (t : TenantId) (r : RingId) (s : State) : Host.Outcome State Fault Refusal :=
  .next (s.runCommand t r 1 fun s e => s.launch t r e)

/-! ### HOST_COPY (R357, R365) -/

/-- A HOST_COPY starts. `data` is what the host memory holds at the address named, `ok` whether the host answered. -/
def State.hostCopy (s : State) (t r : Nat) (e : Entry) (data : List Byte) (ok : Bool) : State :=
  let a := e.arg 0 8
  let n := e.arg 0x10 4
  let dir := e.arg 0x14 1
  if n % 64 ≠ 0 ∨ 2 ^ 20 < n ∨ 1 < dir then s.finish t r e.cid 0x602 0 0
  else if !s.reaches a n then (s.setEvent F.hifEventsHostAccess).finish t r e.cid 0x605 0 0
  else
    let s := if dir = 0 then (s.emit (.hostRead a n)).count hostLinkUnit 2 1 else s
    if dir = 0 ∧ !ok then (s.setEvent F.hifEventsHostAccess).finish t r e.cid 0x605 0 0
    else
      { s with hif := { s.hif with copies := s.hif.copies ++
        [{ tenant := t, ring := r, cid := e.cid, addr := a, va := e.arg 8 8, bytes := n, toHost := dir == 1, data := data.take n ++ zeros (n - data.length) }] } }

def execHostCopy (t : TenantId) (r : RingId) (data : List Byte) (ok : Bool) (s : State) : Host.Outcome State Fault Refusal :=
  .next (s.runCommand t r 2 fun s e => s.hostCopy t r e data ok)

/-- Moves the first `n` bytes of a copy: a fault code with its addresses, or none. -/
def State.moveCopy (s : State) (j : HostJob) (n : Nat) (ok : Bool) : State × Fetched :=
  if j.toHost then
    match s.fwRead j.tenant j.va n with
    | (s, .ok bs) => if ok then (s.hostWrite j.addr bs, .ok []) else (s.setEvent F.hifEventsHostAccess, .fault 0x605 0 0)
    | (s, .fault c va pa) => (s, .fault c va pa)
  else s.fwWrite j.tenant j.va (j.data.take n)

/-- HOST_COPY_END: the last byte is performed at its slice, or the last write posted. -/
def State.hostCopyEnd (s : State) (t r idx : Nat) (ok : Bool) : State :=
  match s.startedAt t r idx with
  | none => s
  | some e =>
    match s.hif.copies.find? fun j => j.tenant == t && j.cid == e.cid with
    | none => s
    | some j =>
      let s := { s with hif := { s.hif with copies := s.hif.copies.filter fun k => k.cid != e.cid } }
      match s.moveCopy j j.bytes ok with
      | (s, .ok _) => s.finish t r e.cid 0 0 0
      | (s, .fault c va pa) =>
        if c = 0x605 then s.finish t r e.cid c 0 0
        else s.finishMem t r e.cid c (if j.toHost then kindEngineRead else kindEngineWrite) (coreUnit 0) va pa 0

def execHostCopyEnd (t : TenantId) (r : RingId) (idx : Half) (ok : Bool) (s : State) : Host.Outcome State Fault Refusal :=
  .next (s.hostCopyEnd t r idx.toNat ok)

/-! ### WAIT (R339, R365) -/

/-- A WAIT starts: a condition that holds ends it at once. -/
def State.waitCommand (s : State) (t r : Nat) (e : Entry) : State :=
  let va := e.arg 0 8
  if 3 < e.arg 0x10 1 then s.finish t r e.cid 0x602 0 0
  else if va % 8 ≠ 0 then s.finishMem t r e.cid 0x305 kindEngineRead (coreUnit 0) va 0 0
  else
    match s.translate (coreUnit 0) 0 t va false false with
    | (s, .fault c pa) => s.finishMem t r e.cid c kindEngineRead (coreUnit 0) va pa 0
    | (s, .pa pa) =>
      if s.poisoned pa 8 then s.finishMem t r e.cid 0x304 kindEngineRead (coreUnit 0) va pa 0
      else
        let w : WaitCmd := { tenant := t, ring := r, cid := e.cid, pa := pa, target := e.arg 8 8, cond := e.arg 0x10 1, met := none }
        { s with waits := s.waits ++ [s.tryWait w] }.settleWaits

def execWait (t : TenantId) (r : RingId) (s : State) : Host.Outcome State Fault Refusal :=
  .next (s.runCommand t r 3 fun s e => s.waitCommand t r e)

/-- Drops the wait of a command. -/
def State.dropWait (s : State) (t cid : Nat) : State := { s with waits := s.waits.filter fun w => !(w.tenant == t && w.cid == cid) }

/-- WAIT_TIMEOUT: TIMEOUT µs have passed; a TIMEOUT of 0 sets no limit. RESULT0 is the word's value then. -/
def State.waitTimeout (s : State) (t r idx : Nat) : State :=
  let s := s.settleWaits
  match s.startedAt t r idx with
  | none => s
  | some e =>
    match s.waits.find? fun w => w.tenant == t && w.cid == e.cid with
    | none => s
    | some w => if e.arg 0x14 4 = 0 then s else (s.dropWait t e.cid).finish t r e.cid 0x60C (leNat (s.read w.pa 8)) 0

def execWaitTimeout (t : TenantId) (r : RingId) (idx : Half) (s : State) : Host.Outcome State Fault Refusal := .next (s.waitTimeout t r idx.toNat)

/-! ### DEAD_MARK (R247) -/

/-- The lines of some physical pieces. -/
def pieceLines (ps : List (Nat × Nat)) : List Nat := (ps.map fun p => lineSpan p.1 p.2).flatten

/-- Whether a mark acts on a line: one in a cache region, not pinned. -/
def State.markable (s : State) (line : Nat) : Bool :=
  !inWindow (line * 256) && match KMap.find s.mem.lines line with | some l => !l.pinned | none => false

/-- A DEAD_MARK: service firmware's range operation on each piece of the range. -/
def State.deadMark (s : State) (t r : Nat) (e : Entry) : State :=
  let va := e.arg 0 8
  let n := e.arg 8 8
  if va % 256 ≠ 0 ∨ n % 256 ≠ 0 then s.finish t r e.cid 0x30B 0 0
  else
    match s.translateSpan (coreUnit 0) 0 t va n true with
    | (s, .fault c a pa) => s.finishMem t r e.cid c kindEngineWrite (coreUnit 0) a pa 0
    | (s, .ok ps) =>
      let n := ((pieceLines ps).filter s.markable).length
      ((ps.filter fun p => !inWindow p.1).foldl (fun (s : State) p => s.rangeRun 2 (p.1 / 256) (p.2 / 256)) s).finish t r e.cid 0 n 0

/-- The lines of a command's range that are locked. -/
def State.lockedIn (s : State) (t : Nat) (e : Entry) : List Nat :=
  if e.arg 0 8 % 256 ≠ 0 ∨ e.arg 8 8 % 256 ≠ 0 then []
  else
    match s.translateSpan (coreUnit 0) 0 t (e.arg 0 8) (e.arg 8 8) true with
    | (_, .ok ps) => (pieceLines ps).filter fun l => !inWindow (l * 256) && s.isLocked l
    | (_, .fault ..) => []

/-- DEAD_MARK starts once no range operation runs. Lines locked are marked after their lock is released: until then the operation that
waits for them runs, and the command waits behind it (R245, R247). -/
def State.startDeadMark (s : State) (t r : Nat) : State :=
  match s.startable t r with
  | none => s
  | some e =>
    if e.opc ≠ 0x1D then s
    else if s.has F.cstStatusOpBusy then s
    else
      match s.lockedIn t e with
      | [] => s.runCommand t r 0x1D fun s e => s.deadMark t r e
      | ls => s.rangeWait 2 ls

def execDeadMark (t : TenantId) (r : RingId) (s : State) : Host.Outcome State Fault Refusal := .next (s.startDeadMark t r)

/-! ### ABORT (R368, R369) -/

/-- How an abort finds one target. -/
inductive AbortOutcome where
  /-- its record has been written -/
  | complete
  /-- it is not interruptible once started: it is found complete, when its record stands -/
  | running
  /-- it ends ABORTED -/
  | aborted
  deriving DecidableEq, Repr

/-- The commands that are not interruptible once started (R369). -/
def lockedOpcode (opc : Nat) : Bool :=
  opc == 0x10 || opc == 0x12 || opc == 0x13 || decide (0x18 ≤ opc ∧ opc ≤ 0x1D) || decide (0x20 ≤ opc ∧ opc ≤ 0x22)

/-- How an abort finds a command; of a STEP_COMMIT, one whose step word has been written is complete (R161). -/
def State.abortOutcome (s : State) (t : Nat) (e : Entry) : AbortOutcome :=
  match e.phase with
  | .recorded => .complete
  | .staged => .aborted
  | .finished => if lockedOpcode e.opc || (e.opc == 0x11 && e.status == 0) then .running else .aborted
  | .started => if lockedOpcode e.opc || (e.opc == 0x11 && (s.tenant t).step.phase == .post) then .running else .aborted

/-- Part of an interrupted copy has been moved: how much is left open. -/
def State.abortCopy (s : State) (j : HostJob) : State :=
  let k := s.draw % (j.bytes / 64 + 1)
  let s := { s with hif := { s.hif with copies := s.hif.copies.filter fun i => i.cid != j.cid } }.drawn
  (s.moveCopy j (64 * k) true).1

/-- A launch is stopped as for a fault; its array and row operations end ABORTED. -/
def State.abortLaunch (s : State) (l : Launch) : State :=
  let s := s.modLaunch l.id fun x => { x with code := 0x604, stopped := true }
  ((s.arrAbortLaunch l.id).rowAbortLaunch l.id).launchStop l.id

/-- A started command stops: those of launches and transfers end when they have stopped, the others at once. -/
def State.abortStarted (s : State) (t r : Nat) (e : Entry) : State :=
  match e.opc with
  | 1 =>
    match s.launches.find? fun l => l.tenant == t && l.cid == e.cid with
    | some l => s.abortLaunch l
    | none => s.finish t r e.cid 0x604 0 0
  | 2 =>
    match s.hif.copies.find? fun j => j.tenant == t && j.cid == e.cid with
    | some j => (s.abortCopy j).finish t r e.cid 0x604 0 0
    | none => s.finish t r e.cid 0x604 0 0
  | 3 => (s.dropWait t e.cid).finish t r e.cid 0x604 0 0
  | 5 =>
    let mine := fun (x : Xfer) => x.tenant == t && x.owner == .command r e.cid
    let stop := fun (x : Xfer) => if mine x then { x with status := 0x604 } else x
    { s with fab := { s.fab with xfers := s.fab.xfers.mapVals fun _ x => stop x, queue := s.fab.queue.map stop } }
  | 0x11 => s.abortStep t
  | 0x30 => { s with hif := { s.hif with aborts := s.hif.aborts.filter fun j => !(j.tenant == t && j.cid == e.cid) } }.finish t r e.cid 0x604 0 0
  | _ => s.finish t r e.cid 0x604 0 0

/-- One target ends ABORTED: not yet started, started, or finished with its record unwritten. -/
def State.abortOne (s : State) (t r : Nat) (e : Entry) : State :=
  match e.phase with
  | .started => s.abortStarted t r e
  | .finished => s.modEntry t r e.cid fun x => { x with status := 0x604, result0 := 0, result1 := 0 }
  | _ => s.finish t r e.cid 0x604 0 0

/-- The entries of an SQ that an abort targets, but not the aborting command itself; and the indices it marks. -/
def abortTargets (q : Sq) (all : Bool) (idx cmd self : Nat) : List Entry × List Nat :=
  let fresh := (upto q.head ((q.tail + q.size - q.head) % q.size)).map fun i => i % q.size
  let es := q.entries.filter fun (e : Entry) => e.cid != self && (if all then e.phase != .recorded else e.idx == idx && e.cmdId == cmd)
  (es, fresh.filter fun i => all || i == idx)

/-- An abort of commands of tenant `t`, for the command `cid` of ring `r` of owner `o`. -/
def State.abortCommands (s : State) (o r : Nat) (e : Entry) (t sq : Nat) (all : Bool) (idx cmd : Nat) : State :=
  match s.sq? t sq with
  | none => s.finish o r e.cid 0x606 0 0
  | some q =>
    let self := if o = t ∧ r = sq then e.cid else s.hif.nextCid
    let (es, marks) := abortTargets q all idx cmd self
    if !all && es.isEmpty && marks.isEmpty then s.finish o r e.cid 0x606 0 0
    else
      let find := fun (k : AbortOutcome) => es.filter fun x => s.abortOutcome t x == k
      let dead := find .aborted
      let runs := find .running
      let n := dead.length + marks.length
      let m := runs.length + (find .complete).length
      let job : AbortJob :=
        { tenant := o, ring := r, cid := e.cid, targetTenant := t, marks := marks.map fun i => (sq, i)
          left := (dead.map (·.cid)) ++ (runs.filter fun x => !x.silent).map (·.cid), status := if m = 0 then 0 else 0x603, result0 := n, result1 := m }
      let s := s.setSq t sq { q with marked := q.marked ++ marks.filter fun i => !q.marked.contains i }
      let s := { s with hif := { s.hif with aborts := s.hif.aborts ++ [job] } }
      (dead.foldl (fun (s : State) x => s.abortOne t sq x) s).closeAborts

/-- ABORT: the ARGS of R365 from offset `b` on. -/
def State.abortArgs (s : State) (o r : Nat) (e : Entry) (t b : Nat) : State :=
  if 64 ≤ e.arg b 1 ∨ 1 < e.arg (b + 1) 1 then s.finish o r e.cid 0x602 0 0
  else s.abortCommands o r e t (e.arg b 1) (e.arg (b + 1) 1 == 1) (e.arg (b + 2) 2) (e.arg (b + 4) 2)

def execAbort (t : TenantId) (r : RingId) (s : State) : Host.Outcome State Fault Refusal :=
  .next (s.runCommand t r 0x30 fun s e => s.abortArgs t r e t 0)

/-- TENANT_ABORT (R366). -/
def execTenantAbort (s : State) : Host.Outcome State Fault Refusal :=
  .next (s.runAdmin 0x86 fun s e =>
    if 16 ≤ e.arg 0 1 then s.finish adminOwner 0 e.cid 0x602 0 0
    else if !s.active (e.arg 0 1) then s.finish adminOwner 0 e.cid 0x609 0 0
    else s.abortArgs adminOwner 0 e (e.arg 0 1) 8)

end Sys2Proof.Machine
end

