-- ==== Sys2Proof/Machine/Interrupts.lean ====
section
/-! DEFINITION. The interrupt controller (Interrupt controller and check units): raises, the mask and pending windows,
deliveries to host vectors, service cores and the keeper. -/

namespace Sys2Proof.Machine

/-- RAISE (R384, R385): a raise message or an ICU.RAISE write sets the source's pending bit; one of a reserved source is
discarded and sets DENIED; none counts before READY (R400). -/
def execRaise (_a : Agent) (src : BitVec 12) (s : State) : Host.Outcome State Fault Refusal :=
  .next (s.raise src.toNat)

/-- The bits of a word of sources that an agent owns (R385), from bit `b`, `n` of them. -/
def State.ownedBits (s : State) (a : Agent) (w : Nat) : Nat → Nat → DWord
  | 0, _ => 0
  | n + 1, b =>
    (if s.sourceOwner (32 * w + b) = agentOwner a ∧ agentOwner a < 3 then BitVec.ofNat 64 (2 ^ b) else 0) |||
      s.ownedBits a w n (b + 1)

/-- A write of 1 bits to a window: those of sources the agent owns act, and any other sets DENIED (R385, R387). -/
def State.window (s : State) (a : Agent) (i : Nat) (v : Word) (act : State → DWord → State) : State :=
  let own := s.ownedBits a i 32 0
  let bits : DWord := v.setWidth 64
  let s' := act s (bits &&& own)
  if bits &&& ~~~ own = 0 then s' else s'.denied

/-- MASK_CLR (R387): a 1 unmasks the source. -/
def execMaskClr (a : Agent) (i : Fin 128) (v : Word) (s : State) : Host.Outcome State Fault Refusal :=
  .next (s.window a i v fun s b => s.setReg (.icuMaskSet i) (s.reg (.icuMaskSet i) &&& ~~~ b))

/-- Raises every source of a word whose bit is set, from bit `b`, `n` of them (R387: exactly as a raise does). -/
def State.pendBits (s : State) (w : Nat) (bits : DWord) : Nat → Nat → State
  | 0, _ => s
  | n + 1, b => (if bits.getLsbD b then s.pend (32 * w + b) else s).pendBits w bits n (b + 1)

/-- PEND_SET (R387): a 1 sets the pending bit, as a raise does. -/
def execPendSet (a : Agent) (i : Fin 128) (v : Word) (s : State) : Host.Outcome State Fault Refusal :=
  .next (s.window a i v fun s b => s.pendBits i b 32 0)

/-- Clears the pending bit of a source. -/
def State.unpend (s : State) (n : Nat) : State :=
  s.setReg (.icuPendSet (n / 32)) (s.reg (.icuPendSet (n / 32)) &&& ~~~ BitVec.ofNat 64 (2 ^ (n % 32)))

/-- Whether a source is pending. -/
def State.isPending (s : State) (n : Nat) : Bool := (s.reg (.icuPendSet (n / 32))).getLsbD (n % 32)

/-- Whether a source is masked. -/
def State.isMasked (s : State) (n : Nat) : Bool := (s.reg (.icuMaskSet (n / 32))).getLsbD (n % 32)

/-- The MSI-X vector of a host source (R388): that of the admin CQ is HIF.ADMIN_CFG.MSIX. -/
def State.vectorOf (s : State) (n : Nat) : Nat :=
  if n = 0x410 then s.rd F.hifAdminCfgMsix % 2048 else s.rd (F.icuRouteVector n)

/-- Whether a vector's message is held back (R389): its mask bit set, the function masked, MSI-X off, or the link
down; and with the load cut, when the host link sends nothing (R449). -/
def State.vectorHeld (s : State) (ctl : MsixCtl) (v : Nat) : Bool :=
  (s.reg (.icuMsix v 3)).getLsbD 0 || ctl.functionMask || !ctl.enable || !s.has F.hifStatusLinkUp || s.pwr.cut

/-- Sets or clears a vector's PBA bit (R389). -/
def State.setPba (s : State) (v : Nat) (b : Bool) : State :=
  let w := s.reg (.icuPba (v / 64))
  s.setReg (.icuPba (v / 64))
    (if b then w ||| BitVec.ofNat 64 (2 ^ (v % 64)) else w &&& ~~~ BitVec.ofNat 64 (2 ^ (v % 64)))

/-- Sends the MSI-X message of a vector's table entry (R389). -/
def State.sendMsix (s : State) (v : Nat) : State :=
  s.emit (.msix ((s.reg (.icuMsix v 0)).toNat + 2 ^ 32 * (s.reg (.icuMsix v 1)).toNat) (s.reg (.icuMsix v 2)).toNat)
    |>.count hostLinkUnit 4 1 |>.count hostLinkUnit 1 1

/-- HOST_HELD shows whether a source is held for a host vector. -/
def State.showHeld (s : State) : State := s.wr F.icuStatusHostHeld (b2n (!s.icu.held.isEmpty))

/-- Sources whose notice is discarded are held no longer; a vector with none left clears its PBA bit. -/
def State.dropHeld (s : State) (p : Nat → Bool) : State :=
  let gone := s.icu.held.filter fun x => p x.1
  let stay := s.icu.held.filter fun x => !p x.1
  let s := { s with icu := { s.icu with held := stay } }
  (gone.foldl (fun s x => if stay.any (fun y => y.2 == x.2) then s else s.setPba x.2 false) s).showHeld

/-- MASK_SET (R387): a 1 masks the source. One that was held for a vector stays pending and is held no longer, since only an
unmasked source is delivered (DEDUCED, log 229). -/
def execMaskSet (a : Agent) (i : Fin 128) (v : Word) (s : State) : Host.Outcome State Fault Refusal :=
  .next (s.window a i v fun s b =>
    (s.setReg (.icuMaskSet i) (s.reg (.icuMaskSet i) ||| b)).dropHeld fun n => n / 32 == i.val && b.getLsbD (n % 32))

/-- PEND_CLR (R387): a 1 clears the pending bit; the notice is discarded. -/
def execPendClr (a : Agent) (i : Fin 128) (v : Word) (s : State) : Host.Outcome State Fault Refusal :=
  .next (s.window a i v fun s b =>
    (s.setReg (.icuPendSet i) (s.reg (.icuPendSet i) &&& ~~~ b)).dropHeld fun n => n / 32 == i.val && b.getLsbD (n % 32))

/-- A service core's interrupt queue. -/
def State.coreQ (s : State) (c : Nat) : List Nat := KMap.get s.icu.coreQ c []

/-- Sets a core's queue, and its DEPTH. -/
def State.setCoreQ (s : State) (c : Nat) (q : List Nat) : State :=
  { s with icu := { s.icu with coreQ := KMap.set s.icu.coreQ c q [] } }.wr (F.icuCorePrioDepth c) q.length

/-- Whether a core's tasks leave room for a source (R391): its bit in CORES, and a CORE_PRIO below the source's. -/
def State.willing (s : State) (n c : Nat) : Bool :=
  (s.rd (F.icuRouteCores n)).testBit c && decide (s.rd (F.icuCorePrioPrio c) < s.rd (F.icuRoutePrio n))

/-- The cores that may take a source (R391), in the order of the search: from the core after the last one served. -/
def State.eligible (s : State) (n : Nat) : List Nat :=
  (upto 0 8).map (fun i => (s.icu.lastCore + 1 + i) % 8) |>.filter fun c =>
    s.willing n c && decide ((s.coreQ c).length < 16)

/-- The first of the cores with the lowest CORE_PRIO (R391). -/
def State.lowestCore (s : State) : List Nat → Option Nat
  | [] => none
  | c :: cs =>
    match s.lowestCore cs with
    | none => some c
    | some d => if s.rd (F.icuCorePrioPrio c) ≤ s.rd (F.icuCorePrioPrio d) then some c else some d

/-- What a delivery cycle has used so far: the vectors messaged, a core delivery, a keeper delivery (R392). -/
structure Budget where
  vectors : List Nat
  core : Bool
  keeper : Bool
  deriving DecidableEq, Repr

/-- One source's turn in a delivery cycle (R389, R391, R392): the state after it and the budget left. -/
def State.deliverOne (s : State) (ctl : MsixCtl) (b : Budget) (n : Nat) : State × Budget :=
  match s.routeKind n with
  | 0 =>
    let v := s.vectorOf n
    if s.vectorHeld ctl v then
      if s.icu.held.any (fun x => x.1 == n) then (s, b)
      else ({ s with icu := { s.icu with held := s.icu.held ++ [(n, v)] } }.setPba v true |>.showHeld, b)
    else if s.icu.held.any (fun x => x.1 == n) then (s, b)
    else if b.vectors.contains v then ((s.unpend n).count icuUnit 2 1, b)
    else if b.vectors.length < 4 then
      (((s.unpend n).sendMsix v).count icuUnit 2 1, { b with vectors := v :: b.vectors })
    else (s, b)
  | 1 =>
    if b.core then (s, b)
    else
      match s.lowestCore (s.eligible n) with
      | some c =>
        let s := (s.unpend n).setCoreQ c (s.coreQ c ++ [n])
        ({ s with icu := { s.icu with lastCore := c } }.count icuUnit 2 1, { b with core := true })
      | none =>
        -- a core that would take it but for its full queue
        if (upto 0 8).any (s.willing n) then (s.setEvent F.icuEventsQueueFull, b) else (s, b)
  | 2 =>
    if b.keeper then (s, b)
    else if s.icu.keeperQ.length < 32 then
      ({ s.unpend n with icu := { s.icu with keeperQ := s.icu.keeperQ ++ [n] } }.count icuUnit 2 1,
        { b with keeper := true })
    else (s.setEvent F.icuEventsQueueFull, b)
  | _ => (s, b)

/-- The turns of the sources of one word, in ascending order from bit `b` (R392). The word is the sources pending and
unmasked at the decision. -/
def deliverWord (ctl : MsixCtl) (w : Nat) (word : DWord) : Nat → Nat → State × Budget → State × Budget
  | 0, _, x => x
  | n + 1, b, x =>
    deliverWord ctl w word n (b + 1) (if word.getLsbD b then x.1.deliverOne ctl x.2 (32 * w + b) else x)

/-- The turns of all sources in ascending order (R392), from word `w`. -/
def deliverFrom (ctl : MsixCtl) (s0 : State) : Nat → Nat → State × Budget → State × Budget
  | 0, _, x => x
  | n + 1, w, x =>
    let word := s0.reg (.icuPendSet w) &&& ~~~ s0.reg (.icuMaskSet w)
    deliverFrom ctl s0 n (w + 1) (if word = 0 then x else deliverWord ctl w word 32 0 x)

/-- INTERRUPT_DELIVERY (R389, R391, R392): one cycle's decisions, in ascending order of source: at most one service-core
and one keeper delivery, and messages to at most four vectors. -/
def execInterruptDelivery (ctl : MsixCtl) (s : State) : Host.Outcome State Fault Refusal :=
  .next (deliverFrom ctl s 128 0 (s, { vectors := [], core := false, keeper := false })).1

/-- HELD_VECTOR_RELEASE (R389): when nothing holds a vector back any longer, one message is sent for it and the pending bit
of every source held for it cleared. -/
def execHeldVectorRelease (ctl : MsixCtl) (vec : Fin 2048) (s : State) : Host.Outcome State Fault Refusal :=
  let mine := s.icu.held.filter fun x => x.2 == vec.val
  if mine.isEmpty || s.vectorHeld ctl vec then .next s
  else
    let s := { s with icu := { s.icu with held := s.icu.held.filter fun x => !(x.2 == vec.val) } }
    let s := mine.foldl (fun s x => (s.unpend x.1).count icuUnit 2 1) s
    .next ((s.sendMsix vec).setPba vec false).showHeld

/-- INTERRUPT_TAKEN (R391): a service core, or the keeper, takes the oldest entry of its queue. -/
def execInterruptTaken (core : Option (Fin 8)) (s : State) : Host.Outcome State Fault Refusal :=
  match core with
  | some c => .next (if (s.coreQ c).isEmpty then s else (s.setCoreQ c (s.coreQ c).tail).count (coreUnit c) 2 1)
  | none => .next { s with icu := { s.icu with keeperQ := s.icu.keeperQ.tail } }

/-- ICU_READY (R400): 64 housekeeping cycles after the housekeeping domain leaves reset, READY sets. -/
def execIcuReady (s : State) : Host.Outcome State Fault Refusal :=
  .next (if s.clk.rails then s.wr F.icuStatusReady 1 else s)

end Sys2Proof.Machine
end

