-- ==== Sys2Proof/Machine/Admin.lean ====
section
/-! DEFINITION. The admin commands (Host interface, queues and tenants): tenants created and reset, their rings, and their wards. -/

namespace Sys2Proof.Machine

/-- Ends an admin command. -/
def State.adminEnd (s : State) (cid status res0 : Nat) : State := s.finish adminOwner 0 cid status res0 0

/-- Reads host memory for a command: `bytes` is what stands there, `ok` whether the host answers. Past the aperture, and without an
answer, nothing is read. -/
def State.hostFetch (s : State) (addr n : Nat) (bytes : List Byte) (ok : Bool) : State × Option (List Byte) :=
  if !s.reaches addr n || !ok then (s.setEvent F.hifEventsHostAccess, none)
  else ((s.emit (.hostRead addr n)).count hostLinkUnit 2 1, some (bytes.take n ++ zeros (n - bytes.length)))

/-! ### Ward images (R315, R379, R474) -/

/-- Whether the keeper takes a ward image: reserved fields 0, no entry of domain 0, and no multicast under domain 0 (R310). -/
def wardImageOk (w : List Byte) : Bool :=
  let es := chunks 32 64 (w.drop 64)
  fld w 0x24 28 == 0 && decide (fld w 0x20 1 ≤ 64) && es.all wardEntryOk && ((es.take (fld w 0x20 1)).all fun e => fld e 4 2 != 0) &&
    (fld w 0 32 == 0 || fld w 0x22 2 != 0)

/-- The keeper writes a tenant's ward table, with an isolation marker behind it (R316). -/
def State.putWard (s : State) (t : Nat) (w : List Byte) : State :=
  { s with keeper := { s.keeper with wards := KMap.put s.keeper.wards t w } }.markAll (.isolation 0 0)

/-- The keeper writes a tenant's entry of the domain table, or takes it out (R313). -/
def State.putDomain (s : State) (t d : Nat) : State :=
  { s with keeper := { s.keeper with domains := if d = 0 then KMap.del s.keeper.domains t else KMap.put s.keeper.domains t d } }.wr
    (F.tenStateDomain t) d

/-- Whether a domain is in the table under another tenant. -/
def State.domainTaken (s : State) (t d : Nat) : Bool := s.keeper.domains.any fun x => x.2 == d && x.1 != t

/-- The bytes of a ward image: header and 64 entries. -/
def wardImageBytes : Nat := 2112

/-- WARD_UPDATE (R366). -/
def State.wardUpdate (s : State) (e : Entry) (image : List Byte) (ok : Bool) : State :=
  let t := e.arg 0 1
  if 16 ≤ t then s.adminEnd e.cid 0x602 0
  else if !s.active t then s.adminEnd e.cid 0x609 0
  else
    match s.hostFetch (e.arg 8 8) wardImageBytes image ok with
    | (s, none) => s.adminEnd e.cid 0x605 0
    | (s, some w) => if wardImageOk w then (s.putWard t w).adminEnd e.cid 0 0 else s.adminEnd e.cid 0x60F 0

def execWardUpdate (image : List Byte) (ok : Bool) (s : State) : Host.Outcome State Fault Refusal :=
  .next (s.runAdmin 0x85 fun s e => s.wardUpdate e image ok)

/-! ### Rings (R358, R366) -/

/-- Checks a ring command's tenant, index and state, and runs it. -/
def State.ringCommand (s : State) (e : Entry) (f : State → Nat → Nat → State) : State :=
  if 16 ≤ e.arg 0 1 ∨ 64 ≤ e.arg 1 1 then s.adminEnd e.cid 0x602 0
  else if !s.active (e.arg 0 1) then s.adminEnd e.cid 0x609 0
  else f s (e.arg 0 1) (e.arg 1 1)

/-- Checks a new ring's size and address, of entries of `w` bytes, and runs the rest. -/
def State.newRing (s : State) (e : Entry) (w : Nat) (f : State → State) : State :=
  let n := e.arg 2 1
  if n < 4 ∨ 16 < n ∨ e.arg 8 8 % 4096 ≠ 0 then s.adminEnd e.cid 0x602 0
  else if !s.reaches (e.arg 8 8) (w * 2 ^ n) then (s.setEvent F.hifEventsHostAccess).adminEnd e.cid 0x605 0
  else f s

/-- CQ_CREATE: the CQ's interrupt source is 40h × t + c (R385). -/
def State.cqCreate (s : State) (e : Entry) : State :=
  s.ringCommand e fun s t c =>
    s.newRing e 32 fun s =>
      if (s.cq? t c).isSome then s.adminEnd e.cid 0x60A 0
      else (s.setCq t c { Cq.reset with base := e.arg 8 8, log2 := e.arg 2 1 }).adminEnd e.cid 0 (0x40 * t + c)

def execCqCreate (s : State) : Host.Outcome State Fault Refusal := .next (s.runAdmin 0x82 fun s e => s.cqCreate e)

/-- SQ_CREATE. -/
def State.sqCreate (s : State) (e : Entry) : State :=
  s.ringCommand e fun s t r =>
    if 64 ≤ e.arg 3 1 ∨ e.arg 4 1 = 0 ∨ 15 < e.arg 4 1 then s.adminEnd e.cid 0x602 0
    else
      s.newRing e 64 fun s =>
        if (s.sq? t r).isSome || (s.cq? t (e.arg 3 1)).isNone then s.adminEnd e.cid 0x60A 0
        else
          (s.setSq t r { Sq.reset with base := e.arg 8 8, log2 := e.arg 2 1, cq := e.arg 3 1, weight := e.arg 4 1 }).adminEnd e.cid 0 0

def execSqCreate (s : State) : Host.Outcome State Fault Refusal := .next (s.runAdmin 0x83 fun s e => s.sqCreate e)

/-- Whether an SQ has a command that has not completed: submitted or fetched, its record not written. -/
def Sq.busy (q : Sq) : Bool := q.head != q.tail || q.entries.any fun e => e.phase != .recorded

/-- Takes an SQ out. -/
def State.dropSq (s : State) (t r : Nat) : State :=
  ({ s with hif := { s.hif with
      turns := KMap.keep s.hif.turns fun t' x => !(t' == t && x.1 == r) } }.modTenant t fun x => { x with sqs := KMap.del x.sqs r }).showHalted t

/-- RING_DELETE: of an SQ in use, or a CQ that an SQ names, refused. -/
def State.ringDelete (s : State) (e : Entry) : State :=
  s.ringCommand e fun s t r =>
    match e.arg 2 1 with
    | 0 =>
      match s.sq? t r with
      | none => s.adminEnd e.cid 0x60A 0
      | some q => if q.busy then s.adminEnd e.cid 0x60A 0 else (s.dropSq t r).adminEnd e.cid 0 0
    | 1 =>
      if (s.cq? t r).isNone || (s.tenant t).sqs.any fun x => x.2.cq == r then s.adminEnd e.cid 0x60A 0
      else (s.modTenant t fun x => { x with cqs := KMap.del x.cqs r }).adminEnd e.cid 0 0
    | _ => s.adminEnd e.cid 0x602 0

def execRingDelete (s : State) : Host.Outcome State Fault Refusal := .next (s.runAdmin 0x84 fun s e => s.ringDelete e)

/-! ### Array ordering (R294) -/

/-- The tenants that exist: CREATING or ACTIVE. -/
def State.liveTenants (s : State) : List Nat := (upto 0 16).filter fun t => s.rd (F.tenStateState t) == 1 || s.active t

/-- The place of the first of the largest values. -/
def largestAt : List Nat → Nat
  | [] => 0
  | x :: xs => if xs.all fun y => decide (y ≤ x) then 0 else largestAt xs + 1

/-- Lowers the largest quota by one while the quotas sum to more than 512. -/
def fitQuotas : Nat → List Nat → List Nat
  | 0, qs => qs
  | fuel + 1, qs => if sumNat qs ≤ 512 then qs else fitQuotas fuel (modAt qs (largestAt qs) (· - 1))

/-- The quotas of some shares. -/
def arrQuotas (shares : List Nat) : List Nat :=
  let total := sumNat shares
  fitQuotas 640 (shares.map fun w => if total = 0 then 8 else max 8 (512 * w / total))

/-- The engine writes ARR.ORDER, TENQUOTA and TENLIMIT for the live tenants. -/
def State.orderTenants (s : State) : State :=
  let ts := s.liveTenants
  let share := fun (t : Nat) => (s.tenant t).place.share
  let s := s.setReg .arrOrder (BitVec.ofNat 64 (sumNat (ts.map fun t => share t * 2 ^ (4 * t))))
  (ts.zip (arrQuotas (ts.map share))).foldl
    (fun (s : State) (x : Nat × Nat) =>
      (s.wr (F.arrTenquotaQuota x.1) x.2).wr (F.arrTenlimitMaxAcc x.1) (s.tenant x.1).place.slice) s

/-! ### TENANT_CREATE (R378, R379) -/

/-- Whether a creation block's fields are in range, its tenant apart. -/
def blockOk (b : List Byte) : Bool :=
  let n := fld b 0x28 4
  decide (fld b 1 1 < 2) && fld b 2 2 != 0 && decide (fld b 0x10 1 ≤ 15) && decide (fld b 0x11 1 ≤ 64) && decide (fld b 0x12 2 ≤ 256) &&
    decide (1 ≤ fld b 0x14 4 ∧ fld b 0x14 4 ≤ 0xFFFFFF) && fld b 0x18 8 % 64 == 0 && fld b 0x20 8 % 4096 == 0 &&
    (upto 6 7).any (fun i => n == 2 ^ i) && fld b 0x2C 4 == 0 && fld b 0x50 176 == 0

/-- Whether the host memory that a block names can be reached. -/
def State.blockReaches (s : State) (b : List Byte) : Bool :=
  s.reaches (fld b 0x18 8) 64 && s.reaches (fld b 0x20 8) (32 * fld b 0x28 4)

/-- The counters and keys of a stream table; without one, counters 0 and keys of the entropy source. -/
def tableCounters (b : List Byte) : KMap Nat :=
  (upto 0 4096).filterMap fun i => if fld b (32 * i) 16 = 0 then none else some (i, fld b (32 * i) 16)

def tableKeys (b : List Byte) : KMap Nat := (upto 0 4096).map fun i => (i, fld b (32 * i + 16) 8)

/-- The creation record (R168). -/
def createRecord (b : List Byte) (cs : KMap Nat) : CommitRec :=
  { CommitRec.reset with
    seq := 1, kind := 4, lossScale := NumState.reset.lossScale, cursor := (b.drop 0x30).take 16, counters := cs }

/-- Step 3: root, areas, quotas and registers, on frames found. -/
def State.createPlace (s : State) (t : Nat) (b : List Byte) (fs : List Nat) : State :=
  let s := s.modPlace t fun p =>
    { p with
      hbmQuota := fld b 4 4, pinQuota := fld b 8 4, scratchQuota := fld b 0xC 4, share := fld b 0x10 1, slice := fld b 0x14 4
      rights := fld b 1 1, numVa := numericVa, stepVa := numericVa + numFrames * 2 ^ 21
      saveVa := numericVa + (numFrames + stepFrames) * 2 ^ 21, areas := fs }
  let ro := fs.take (numFrames + stepFrames)
  let rw := fs.drop (numFrames + stepFrames)
  let s := (((s.convertGroups true fs).homeFrames fs 0 0).grantFrames t false ro).grantFrames t true rw
  let s := s.freeTables t
  let s := s.mapPages (fs.length + 1) t numericVa ro false false false
  let s := s.mapPages (fs.length + 1) t (numericVa + ro.length * 2 ^ 21) rw false true false
  let s := (s.wr (F.synTenslotsMax t) (fld b 0x11 1)).wr (F.arrSpnTenantPagesMax t) (fld b 0x12 2)
  s.orderTenants

/-- Steps 4 and 5: numeric state, streams, creation record; status block, ACTIVE. -/
def State.createState (s : State) (t : Nat) (b : List Byte) (table : Option (List Byte)) : State :=
  let s := s.setNum t NumState.reset
  let s := match table with
    | some x => s.modStep t fun y => { y with counters := tableCounters x, keys := tableKeys x }
    | none => { s with free := s.free + 4096 }.modStep t fun y => { y with counters := [], keys := [], keySeed := s.free }
  let s := s.writeRecord t 0 (createRecord b (s.tenant t).step.counters)
  let s := (s.writeStepWord t 1 0 0).commitRecord t
  let s := s.modFault t fun _ => { FaultRing.reset with statusAddr := fld b 0x18 8, addr := fld b 0x20 8, entries := fld b 0x28 4 }
  ((s.wr (F.tenStateState t) 2).writeStatusBlock t).setEvent (F.tenEventsCreated.at t)

/-- The barrier slots that live tenants may hold. -/
def State.slotsGiven (s : State) : Nat := sumNat (s.liveTenants.map fun t => s.rd (F.synTenslotsMax t))

/-- Whether some unit still holds a translation of a tenant's. -/
def State.translates (s : State) (t : Nat) : Bool := s.mem.tlb.any fun x => x.2.any fun e => e.tenant == t

/-- Steps 2 to 5, with the block, the ward image and the stream table read. A failure leaves the slot FREE; without a stream table a
failed entropy source is one (R471). -/
def State.createWith (s : State) (e : Entry) (t : Nat) (b w : List Byte) (table : Option (List Byte)) : State :=
  let s := s.passAll
  -- no tenant takes a slot whose last tenant's translations are not all gone (R230)
  if s.translates t then s
  else if 64 < s.slotsGiven + fld b 0x11 1 then s.adminEnd e.cid 0x60B 0
  else if s.domainTaken t (fld b 2 2) then s.adminEnd e.cid 0x60E 0
  else if !wardImageOk w || (table.isNone && s.has F.secStatusEntropyFail) then s.adminEnd e.cid 0x60F 0
  else if fld b 4 4 < chargeOf 0 (numFrames + stepFrames) then s.adminEnd e.cid 0x312 0
  else
    let s := s.spillFor true areaFrames s.frameCount
    let fs := s.freeFrames true areaFrames s.frameCount
    if fs.length < areaFrames then s.adminEnd e.cid 0x313 0
    else
      let s := ((s.wr (F.tenStateState t) 1).putDomain t (fld b 2 2)).putWard t w
      ((s.createPlace t b fs).createState t b table).adminEnd e.cid 0 (0x400 + t)

/-- Step 1: the ward image and the stream table are read. -/
def State.createReads (s : State) (e : Entry) (t : Nat) (b ward streams : List Byte) : State :=
  match s.hostFetch (fld b 0x48 8) wardImageBytes ward true with
  | (s, none) => s.adminEnd e.cid 0x605 0
  | (s, some w) =>
    if fld b 0x40 8 = 0 then s.createWith e t b w none
    else
      match s.hostFetch (fld b 0x40 8) 0x20000 streams true with
      | (s, none) => s.adminEnd e.cid 0x605 0
      | (s, some x) => s.createWith e t b w (some x)

/-- TENANT_CREATE: `block`, `ward` and `streams` are what host memory holds at the addresses named, `ok` whether it answers. -/
def State.tenantCreate (s : State) (e : Entry) (block ward streams : List Byte) (ok : Bool) : State :=
  if e.arg 0 8 % 64 ≠ 0 then s.adminEnd e.cid 0x602 0
  else
    match s.hostFetch (e.arg 0 8) 256 block ok with
    | (s, none) => s.adminEnd e.cid 0x605 0
    | (s, some b) =>
      let t := fld b 0 1
      if 16 ≤ t then s.adminEnd e.cid 0x602 0
      else if s.rd (F.tenStateState t) ≠ 0 then s.adminEnd e.cid 0x609 0
      else if !blockOk b then s.adminEnd e.cid 0x602 0
      else if !s.blockReaches b then (s.setEvent F.hifEventsHostAccess).adminEnd e.cid 0x605 0
      else s.createReads e t b ward streams

def execTenantCreate (block ward streams : List Byte) (ok : Bool) (s : State) : Host.Outcome State Fault Refusal :=
  .next (s.runAdmin 0x80 fun s e => s.tenantCreate e block ward streams ok)

/-! ### TENANT_RESET (R380) -/

/-- The frames of a tenant's own memory: its areas, its pack frames and its parts, but not those of frozen weights. -/
def State.ownFrames (s : State) (t : Nat) : List Nat :=
  let p := (s.tenant t).place
  p.areas ++ p.packs.map (·.frame) ++ ((p.tensors.filter fun x => (s.frozenOf t x).isNone).map fun x => partFrames x.parts).flatten

/-- Waits whose word lies in the tenant's memory end with OWNER_LOST, whoever waits (R349). -/
def State.loseWaits (s : State) (t : Nat) : State :=
  let fs := s.ownFrames t
  let gone := s.waits.filter fun w => (frameOf w.pa).any fs.contains
  let s := { s with waits := s.waits.filter fun w => !gone.contains w && w.tenant != t }
  gone.foldl (fun (s : State) w => s.finish w.tenant w.ring w.cid 0x504 0 0) s

/-- The tenant's transfers end: those that run write their completion records (R331), those that wait for an engine go. -/
def State.dropXfers (s : State) (t : Nat) : State :=
  let s := { s with fab := { s.fab with queue := s.fab.queue.filter fun x => x.tenant != t } }
  (upto 0 16).foldl
    (fun (s : State) e =>
      match s.xfer? e with
      | some x => if x.tenant = t then (s.putXfer e (x.fail 0x405)).xferEnd e (x.fail 0x405) else s
      | none => s) s

/-- Reductions and atomics of the tenant that wait and have not started are discarded (R254). -/
def State.dropReductions (s : State) (t : Nat) : State :=
  let keep := fun (r : RedReq) => r.tenant != t
  let gone := (s.mem.slices.map fun x => (x.2.arrivals ++ x.2.queue ++ x.2.hold).filter fun r => !keep r).flatten
  let slice := fun (x : Slice) =>
    let queue := x.queue.filter keep
    { x with arrivals := x.arrivals.filter keep, queue := queue, hold := x.hold.filter keep
             locked := x.locked.filter fun l => queue.any fun r => r.line == l }
  let s := (upto 0 4).foldl (fun (s : State) q => s.setSlice q (slice (s.slice q))) s
  gone.foldl (fun (s : State) r => match r.src with
    | .port p key => s.modPort p fun x => { x with landing := x.landing.filter fun l => l.key != key }
    | _ => s) s

/-- The engines stop the tenant's work (R68, R119, R146, R163, R207, R424, R429). -/
def State.stopWork (s : State) (t : Nat) : State :=
  let s := ((s.arrReset t).rowReset t).enginesOff t
  let s := ((s.tumReset t).dropSamples t).dropReductions t
  let s := { s with amax := s.amax.filter fun x => x.tenant != t, poison := s.poison.filter fun x => x.tenant != t }
  let s := s.wr (F.arrUpdTenantState t) 0
  let s := match s.sec.restore with
    | some r => if r.tenant = t then s.restoreEnd 0x604 else s
    | none => s
  (s.abandonAll t 1).modStep t fun x => { x with phase := .idle, work := none, commit := none, drainWait := false, openHeld := none, cancels := [] }

/-- An SQ's commands without a record end ABORTED; those not yet fetched are read for their identifiers. -/
def State.abortSq (s : State) (t r : Nat) (rest : List (List Byte)) : State :=
  match s.sq? t r with
  | none => s
  | some q =>
    let n := (q.tail + q.size - q.head) % q.size
    let s := ((rest ++ List.replicate (n - rest.length) (zeros 64)).take n).foldl (fun (s : State) b => s.stageEntry t r b) s
    ((((s.sq? t r).map (·.entries)).getD []).filter fun x => x.phase != .recorded).foldl
      (fun (s : State) x =>
        if x.phase = .finished then s.modEntry t r x.cid fun y => { y with status := 0x604, result0 := 0, result1 := 0 }
        else s.finish t r x.cid 0x604 0 0) s

/-- Steps 5 and 6: records, then the rings go with the commands of other rings that named them. -/
def State.endRings (s : State) (t : Nat) (rest : List (Nat × List Byte)) : State :=
  let s := ((s.tenant t).sqs.map (·.1)).foldl
    (fun (s : State) r => s.abortSq t r ((rest.filter fun x => x.1 == r).map (·.2))) s
  let s := (s.tenant t).cqs.foldl (fun (s : State) c => times (fun s => s.recordWrite t c.1 true) (s.cq? t c.1 |>.map (·.waiting.length) |>.getD 0) s) s
  let cids := ((s.tenant t).sqs.map fun x => x.2.entries.map (·.cid)).flatten
  let s := { s with hif := { s.hif with
      turns := KMap.del s.hif.turns t
      copies := s.hif.copies.filter fun j => j.tenant != t
      aborts := (s.hif.aborts.filter fun (j : AbortJob) => j.tenant != t).map fun (j : AbortJob) =>
        if j.targetTenant = t then { j with marks := [], left := j.left.filter fun c => !cids.contains c } else j } }
  ((s.modTenant t fun x => { x with sqs := [], cqs := [] }).showHalted t).closeAborts

/-- The controller at step 6 (R401): the tenant's sources are masked, their notices go, their routes return to reset. -/
def State.dropSources (s : State) (t : Nat) : State :=
  let mine := fun (n : Nat) => n / 64 == t || n == 0x400 + t
  let s := (upto (0x40 * t) 64 ++ [0x400 + t]).foldl
    (fun (s : State) n =>
      let m := s.reg (.icuMaskSet (n / 32))
      (((s.setReg (.icuMaskSet (n / 32)) (m ||| BitVec.ofNat 64 (2 ^ (n % 32)))).unpend n).setReg (.icuRoute n) (Reg.icuRoute n).reset)) s
  s.dropHeld mine

/-- Step 7: placement, memory and store let the tenant go (R230, R254, R300), and the keeper's tables and the securing state with it
(R429). -/
def State.releaseTenant (s : State) (t : Nat) : State :=
  let areas := (s.tenant t).place.areas
  let s := { s with frozen := s.frozen.map fun (z : Frozen) =>
    match z.loading with
    | some (c, _, _) => if c = t then { z with loading := none } else z
    | none => z }
  let s := (s.tenant t).place.tensors.foldl (fun (s : State) x => s.removeTensor t x) s
  let s := s.mapIso fun _ v => isoWithout t v
  let s := { s with keeper := { s.keeper with wards := KMap.del s.keeper.wards t, domains := KMap.del s.keeper.domains t } }
  -- the frames are zeroed, and given back, once the markers have passed (R230)
  let s := ((s.markAll (.isolation 0 frameEnd)).freeTables t).retire areas |>.passAll
  let s := (s.setReg (.cstDeadctl t) (Reg.cstDeadctl t).reset).setReg (.cstDeadReads t) (Reg.cstDeadReads t).reset
  let s := (s.setReg (.resPolicy t) (Reg.resPolicy t).reset).setReg (.resL3Addr t) (Reg.resL3Addr t).reset
  let s := s.setReg (.resL3Size t) (Reg.resL3Size t).reset
  let s := [1, 2, 3].foldl (fun (s : State) l => s.setReg (.resGen t l) (Reg.resGen t l).reset) s
  let s := { s with sec := { s.sec with
      due := s.sec.due.filter fun x => x.1 != t, budgetWait := s.sec.budgetWait.filter fun u => u != t, regions := KMap.del s.sec.regions t
      digests := KMap.del s.sec.digests t } }
  s.wr (F.synTenslotsMax t) 0

/-- TENANT_RESET. `rest` are the entries of the tenant's SQs that have not been fetched, as host memory holds them. -/
def State.tenantReset (s : State) (e : Entry) (rest : List (Nat × List Byte)) : State :=
  let t := e.arg 0 1
  if 16 ≤ t then s.adminEnd e.cid 0x602 0
  else if !s.active t then s.adminEnd e.cid 0x609 0
  else
    let s := (s.wr (F.tenStateState t) 3).writeStatusBlock t
    let s := (((s.loseSlots t true).loseWaits t).tearDomain t).dropXfers t
    let s := ((s.stopWork t).endRings t rest).dropSources t
    let s := (s.releaseTenant t).wr (F.tenStateState t) 0
    let s := (s.writeStatusBlock t).setEvent (F.tenEventsResetDone.at t)
    let s := (s.setTenant t Tenant.reset).setReg (.tenState t) 0
    s.orderTenants.planPins.adminEnd e.cid 0 0

/-- TENANT_RESET starts with the link up, for the records of step 5. -/
def execTenantReset (rest : List (RingId × List Byte)) (s : State) : Host.Outcome State Fault Refusal :=
  .next (if s.has F.hifStatusLinkUp then s.runAdmin 0x81 fun s e => s.tenantReset e (rest.map fun x => (x.1.val, x.2)) else s)

end Sys2Proof.Machine
end

