-- ==== Sys2Proof/Machine/Checks.lean ====
section
/-! DEFINITION. The 32 check units (Interrupt controller and check units, R394 to R397). -/

namespace Sys2Proof.Machine

def State.chkUnit (s : State) (u : Nat) : Chk := KMap.get s.chk u Chk.reset

/-- Sets a unit's state, and the QUEUE field that shows its queue. -/
def State.setChk (s : State) (u : Nat) (c : Chk) : State :=
  { s with chk := KMap.set s.chk u c Chk.reset }.wr (F.chkStatusQueue u) c.queue.length

/-- Who a unit's events go to: its owner (R396). -/
def State.chkDest (s : State) (u : Nat) : Dest :=
  match s.rd (F.chkCtrlOwner u) with
  | 0 => .firmware
  | 1 => .host
  | _ => .keeper

/-- CHECK_OWNER_ASSIGN (R395): service firmware writes OWNER of units 0 to 27; 10b and 11b are ignored, and nothing else
changes. -/
def State.assignOwner (s : State) (u : CheckId) (o : BitVec 2) : State :=
  if u.val < 28 ∧ o.toNat < 2 then s.wr (F.chkCtrlOwner u) o.toNat else s

def execCheckOwnerAssign (u : CheckId) (owner : BitVec 2) (s : State) : Host.Outcome State Fault Refusal :=
  .next (s.assignOwner u owner)

/-- The OWNER field of a write of CTRL by service firmware acts whoever owns the unit (R395). -/
def State.ctrlOwner (s : State) (a : Agent) (u : CheckId) (v : Word) : State :=
  match a with
  | .core _ => s.assignOwner u (v.extractLsb' 8 2)
  | _ => s

/-- Feed writes that waited for room in the queue reach a unit that no longer runs: they are stray (R397). -/
def State.strayWaiting (s : State) (u : Nat) : State :=
  if (s.chkUnit u).waiting.isEmpty then s else s.wr (F.chkStatusStray u) 1

/-- A unit returns to IDLE and discards its queued feeds (R397). -/
def State.abortUnit (s : State) (u : Nat) : State :=
  ((s.strayWaiting u).setChk u Chk.reset).wr (F.chkStatusState u) 0

/-- CHECK_START (R396): a write of CTRL with START by the owner, accepted in IDLE, DONE and ERROR: the unit takes POLY,
TAG_OFF, CMP_EN and DONE_IRQ from the write, clears FED and RESULT, folds the tag and sets RUNNING. While RUNNING it is
ignored and sets STRAY; with ABORT in the same write it is ignored (R397). -/
def State.checkStart (s : State) (a : Agent) (u : CheckId) (v : Word) : State :=
  if agentOwner a ≠ s.chkOwner u then s.ctrlOwner a u v
  else if !v.getLsbD 5 then s
  else
    let s := s.ctrlOwner a u v
    let s := s.setReg (.chkCtrl u) ((s.reg (.chkCtrl u) &&& ~~~ 0x1F) ||| ((v.setWidth 64) &&& 0x1F))
    if v.getLsbD 7 then s.abortUnit u
    else if s.rd (F.chkStatusState u) = 1 then s.wr (F.chkStatusStray u) 1
    else
      let poly := (v.extractLsb' 0 2).toNat
      let tag := leBytes 8 (s.reg (.chkTag u)).toNat
      let st := if v.getLsbD 2 then crcInit poly else crcFold poly (crcInit poly) tag
      let s := s.setChk u { queue := [], waiting := [], crc := st, poly := poly, cmp := v.getLsbD 3, irq := v.getLsbD 4,
                            finishing := false }
      let s := (s.setReg (.chkFed u) 0).setReg (.chkResult u) 0
      ((s.wr (F.chkStatusState u) 1).wr (F.chkStatusStray u) 0).count (checkUnit u) 2 1

def execCheckStart (a : Agent) (u : CheckId) (v : Word) (s : State) : Host.Outcome State Fault Refusal :=
  .next (s.checkStart a u v)

/-- CHECK_FINISH (R396, R397): a write of CTRL with FINISH by the owner finishes a unit running with LEN 0; feeds that
arrived before it are still taken. -/
def State.checkFinish (s : State) (a : Agent) (u : CheckId) : State :=
  if agentOwner a = s.chkOwner u ∧ s.rd (F.chkStatusState u) = 1 ∧ s.reg (.chkLen u) = 0 then
    s.setChk u { s.chkUnit u with finishing := true }
  else s

def execCheckFinish (a : Agent) (u : CheckId) (s : State) : Host.Outcome State Fault Refusal :=
  .next (s.checkFinish a u)

/-- CHECK_ABORT (R397): a write of CTRL with ABORT by the owner returns the unit to IDLE and discards its queued feeds. -/
def State.checkAbort (s : State) (a : Agent) (u : CheckId) : State :=
  if agentOwner a = s.chkOwner u then s.abortUnit u else s

def execCheckAbort (a : Agent) (u : CheckId) (s : State) : Host.Outcome State Fault Refusal :=
  .next (s.checkAbort a u)

/-- FEED_B (R394): one byte, from bits 7:0. -/
def execFeedB (a : Agent) (u : CheckId) (v : Byte) (s : State) : Host.Outcome State Fault Refusal :=
  .next (s.feed a u [v])

/-- FEED_H (R394): four bytes, least significant first. -/
def execFeedH (a : Agent) (u : CheckId) (v : Word) (s : State) : Host.Outcome State Fault Refusal :=
  .next (s.feed a u (leBytes 4 v.toNat))

/-- FEED_W (R394): eight bytes, least significant first; a low half that the requester holds is discarded (R11). -/
def execFeedW (a : Agent) (u : CheckId) (v : DWord) (s : State) : Host.Outcome State Fault Refusal :=
  .next ((s.touch a (Reg.chkFeedW u).offset).feed a u (leBytes 8 v.toNat))

/-- The queue after its first feed is taken: a feed write that waits moves in. -/
def Chk.shift (c : Chk) : Chk :=
  match c.waiting with
  | [] => { c with queue := c.queue.tail }
  | w :: ws => { c with queue := c.queue.tail ++ [w], waiting := ws }

/-- The source of a unit's report. -/
def checkSource (u : Nat) : Nat := 0x420 + u

/-- CHECK_FEED_PROCESS (R397): the unit takes the next queued feed. One that would carry FED past a non-zero LEN is
discarded whole with every feed behind it, and the unit enters ERROR; one met outside RUNNING is stray. -/
def State.checkFeedProcess (s : State) (u : CheckId) : State :=
  let c := s.chkUnit u
  match c.queue with
  | [] => s
  | bs :: _ =>
    if s.rd (F.chkStatusState u) ≠ 1 then (s.setChk u c.shift).wr (F.chkStatusStray u) 1
    else
      let fed := (s.reg (.chkFed u)).toNat + bs.length
      let len := (s.reg (.chkLen u)).toNat
      if len ≠ 0 ∧ len < fed then
        let s := ((s.strayWaiting u).setChk u Chk.reset).wr (F.chkStatusState u) 4
        (s.raise (checkSource u)).event 0x031A (s.chkDest u) [u]
      else
        ((s.setChk u { c.shift with crc := crcFold c.poly c.crc bs }).setReg (.chkFed u) (BitVec.ofNat 64 fed)).count
          (checkUnit u) 1 bs.length

def execCheckFeedProcess (u : CheckId) (s : State) : Host.Outcome State Fault Refusal :=
  .next (s.checkFeedProcess u)

/-- The width of a code in bits (R394). -/
def crcWidth (poly : Nat) : Nat := if poly = 1 then 64 else if poly = 2 then 16 else 32

/-- Whether a running unit is due to finish (R396): FED has reached LEN, or FINISH stands with LEN 0 and every feed that
arrived before it is taken. -/
def State.checkDue (s : State) (u : CheckId) : Bool :=
  let c := s.chkUnit u
  s.rd (F.chkStatusState u) == 1 &&
    ((s.reg (.chkLen u) != 0 && s.reg (.chkFed u) == s.reg (.chkLen u)) ||
      (c.finishing && c.queue.isEmpty && c.waiting.isEmpty))

/-- CHECK_COMPLETE (R396): the final exclusive-or gives RESULT; with CMP_EN set it is compared with EXPECT. A mismatch sets
CHK.MISMATCH, raises the unit's source and 0319h; a match raises the source only with DONE_IRQ. -/
def State.checkComplete (s : State) (u : CheckId) : State :=
  if !s.checkDue u then s
  else
    let c := s.chkUnit u
    let r := crcFinal c.poly c.crc
    let s := (s.setReg (.chkResult u) (BitVec.ofNat 64 r)).setChk u { c with finishing := false }
    if c.cmp ∧ r % 2 ^ crcWidth c.poly ≠ (s.reg (.chkExpect u)).toNat % 2 ^ crcWidth c.poly then
      let s := (s.wr (F.chkStatusState u) 3).setEvent (F.chkMismatchUnit.at u)
      ((s.raise (checkSource u)).event 0x0319 (s.chkDest u) [u]).count (checkUnit u) 3 1
    else
      let s := s.wr (F.chkStatusState u) 2
      if c.irq then s.raise (checkSource u) else s

def execCheckComplete (u : CheckId) (s : State) : Host.Outcome State Fault Refusal :=
  .next (s.checkComplete u)

end Sys2Proof.Machine
end

