-- ==== Sys2Proof/Machine/FabLink.lean ====
section
/-! DEFINITION. The links (The Xagagen fabric port; Firmware, boot and attestation): flits, replay, training, and link authentication. -/

namespace Sys2Proof.Machine

/-! ### Link authentication (R469, R470) -/

/-- An exchange fails: the keeper sends ABORT where it is the keeper that refuses, and the port goes DOWN with 090Bh. -/
def State.authFail (s : State) (p cause : Nat) : State :=
  let s := if 1 ≤ cause ∧ cause ≤ 4 then s.emit (.authFrame p ([0x0F] ++ leBytes 2 cause ++ zeros 6)) else s
  let s := (s.setEvent F.fabEventsAuthFail).setEvent F.secEventsLinkAuthFail
  (s.event 0x90B .firmware [cause + p * 2 ^ 16]).portTo p portDown

/-- The exchange begins (R469 step 1): without an anchor it fails, and so it does when the entropy source gives no nonce (R471); else
DEV_NONCE goes out. -/
def State.authStart (s : State) (p : Nat) : State :=
  let s := s.portTo p portAuth
  let anchor := match s.keeperValue 0x104 0 with | some d => leNat d | none => 0
  if anchor = 0 then s.authFail p 1
  else if s.has F.secStatusEntropyFail then s.authFail p 4
  else
    let nonce := Config.entropy s.free % 2 ^ 256
    let s := s.modPort p fun x =>
      { x with auth := some { nonce := nonce, ftype := 0, fragments := 0, frame := [], whole := false, proved := false } }
    (s.emit (.authFrame p ([0x01] ++ leBytes 32 nonce ++ leBytes 1 p ++ zeros 31))).drawn

/-- Whether a fragment is well framed, after those of its frame (R470). -/
def fragmentOk (x : AuthX) (b : List Byte) : Bool :=
  let n := fld b 4 2
  b.length == 280 && (x.fragments == 0 || fld b 0 1 == x.ftype) && fld b 1 1 == x.fragments % 256 && decide (fld b 2 1 < 2) &&
    fld b 3 1 == 0 && decide (1 ≤ n ∧ n ≤ 272) && fld b 6 2 == 0 && (b.drop (8 + n)).all (· == 0) && decide (x.frame.length + n ≤ 16384)

/-- The exchange of a port in AUTH. -/
def State.auth? (s : State) (p : Nat) : Option AuthX := if s.portState p = portAuth then (s.port p).auth else none

def State.putAuth (s : State) (p : Nat) (x : AuthX) : State := s.modPort p fun y => { y with auth := some x }

/-- AUTH_FRAGMENT: the fragment is appended to the frame in progress; one that comes while a whole frame stands waits. -/
def State.authFragment (s : State) (p : Nat) (b : List Byte) : State :=
  match s.auth? p with
  | none => s
  | some x =>
    if x.whole then s
    else if !fragmentOk x b then s.authFail p 6
    else
      s.putAuth p
        { x with
          ftype := fld b 0 1, fragments := x.fragments + 1, frame := x.frame ++ (b.drop 8).take (fld b 4 2)
          whole := fld b 2 1 == 1 }

def execAuthFragment (p : PortId) (frag : List Byte) (s : State) : Host.Outcome State Fault Refusal := .next (s.authFragment p frag)

/-- Takes a whole frame of a type, its bytes left to `f`. -/
def State.authFrame (s : State) (p ftype : Nat) (f : State → AuthX → State) : State :=
  match s.auth? p with
  | none => s
  | some x =>
    if x.whole && x.ftype == ftype then f (s.putAuth p { x with ftype := 0, fragments := 0, frame := [], whole := false }) x else s

/-- Whether a SW_HELLO frame has the layout of R470. -/
def helloOk (b : List Byte) : Bool :=
  decide (44 ≤ b.length) && (b.drop 33).take 3 == zeros 3 && fld b 36 4 + fld b 40 4 + 44 == b.length

/-- An identity signature, 9,893 bytes long (R464): the model computes none, and its bytes are free. -/
def State.identitySignature (s : State) : List Byte := leBytes 9893 s.draw

/-- SW_HELLO: the chain and the signature, as the keeper's verification finds them; then DEV_PROOF under the next identity index. -/
def State.swHello (s : State) (p : Nat) (chainOk sigOk : Bool) : State :=
  s.authFrame p 2 fun s x =>
    if x.proved || !helloOk x.frame then s.authFail p 6
    else if !chainOk then s.authFail p 2
    else if !sigOk then s.authFail p 3
    else if s.signRefusal ≠ 0 then s.authFail p 4
    else
      let sig := s.identitySignature
      let s := (s.drawn).putAuth p { x with ftype := 0, fragments := 0, frame := [], whole := false, proved := true }
      s.takeIndex (.proof p
        ([0x03] ++ leBytes 4 s.keeper.cert.length ++ leBytes 4 sig.length ++ s.keeper.cert ++ sig))

/-- While the one index that a reservation covers is awaited, the frame waits. -/
def execSwHello (p : PortId) (chainOk sigOk : Bool) (s : State) : Host.Outcome State Fault Refusal :=
  .next (if s.canTake then s.swHello p chainOk sigOk else s)

/-- Whether a port's proof has been sent. -/
def State.proofSent (s : State) (p : Nat) : Bool :=
  !s.keeper.sigs.any fun r => match r.use with | .proof q _ => q == p | .report .. => false

/-- SW_DONE: accepted brings the port UP or DEGRADED by its lanes; any other verdict fails it. -/
def State.swDone (s : State) (p : Nat) : State :=
  s.authFrame p 4 fun s x =>
    if !x.proved || !s.proofSent p || x.frame.length != 8 then s.authFail p 6
    else if fld x.frame 0 2 ≠ 0 then s.authFail p 7
    else s.portTo p (if s.rd (F.fabPortLanes p) = 0xFF then portUp else portDegraded)

def execSwDone (p : PortId) (s : State) : Host.Outcome State Fault Refusal := .next (s.swDone p)

/-- AUTH_ABORT: the switch's ABORT frame. -/
def execAuthAbort (p : PortId) (s : State) : Host.Outcome State Fault Refusal :=
  .next (s.authFrame p 0x0F fun s _ => s.authFail p 7)

/-- AUTH_TIMEOUT: 50 ms have passed. -/
def execAuthTimeout (p : PortId) (s : State) : Host.Outcome State Fault Refusal :=
  .next (if (s.auth? p).isSome then s.authFail p 5 else s)

/-! ### Training (R303, R304, R333) -/

/-- PORT_TRAINING_END: all eight lanes, one healthy half, or none. Service firmware trains a port that is DOWN anew, and
only one that is fitted (R494). -/
def State.portTrained (s : State) (p : Nat) (res : TrainResult) : State :=
  let st := s.portState p
  if !s.has F.fabStatusReady || !s.pwr.fitted.getLsbD p || !(st == portDown || st == portTraining || st == portRetrain) then s
  else
    let s := if st = portDown then s.portTo p portTraining else s
    match res with
    | .x8 => (s.wr (F.fabPortLanes p) 0xFF).authStart p
    | .x4 hi => (s.wr (F.fabPortLanes p) (if hi then 0xF0 else 0x0F)).authStart p
    | .failed => s.portTo p portDown

def execPortTrainingEnd (p : PortId) (res : TrainResult) (s : State) : Host.Outcome State Fault Refusal := .next (s.portTrained p res)

/-- The fabric link-layer domain leaves reset (R333): every port is DOWN, the engines' and receipt caches and the inbound queues are empty,
and the FAB registers stand at their reset values. -/
def State.fabRestart (s : State) : State := { s with fab := Fab.reset }.resetBlock 0x500000 0x600000

/-- FABRIC_READY (R333): 1,024 cycles after the domain leaves reset; service firmware then trains the ports that are fitted
(R494). -/
def State.fabricReady (s : State) : State :=
  if s.clk.released < 3 || s.has F.fabStatusReady then s
  else ((upto 0 9).filter fun p => s.pwr.fitted.getLsbD p).foldl (fun (s : State) p => s.portTo p portTraining) (s.wr F.fabStatusReady 1)

def execFabricReady (s : State) : Host.Outcome State Fault Refusal := .next s.fabricReady

/-! ### Flits (R302, R303) -/

/-- The peer has received every flit up to `ack` in order: multicast requests whose last flit is among them end (R321). -/
def State.linkAck (s : State) (p ack : Nat) : State :=
  let x := s.port p
  let n := (ack + 1 + 4096 - x.txAck) % 4096
  if n = 0 ∨ (x.txSeq + 4096 - x.txAck) % 4096 < n then s
  else
    let done := fun (u : Nat × Option Nat) => decide ((u.1 + 4096 - x.txAck) % 4096 ≤ n)
    let ended := (x.unacked.filter done).filterMap (·.2)
    let s := s.modPort p fun x => { x with txAck := (ack + 1) % 4096, unacked := x.unacked.filter fun u => !done u, sentFlits := x.sentFlits.drop n }
    let s := s.drainTx p
    ended.foldl (fun (s : State) id => match s.req? id with | some r => s.endReq r 0 Pkt.none' | none => s) s

/-- A NAK (R303): the sender replays from the flit after the one named, which LINK has acknowledged. More than 16 within the window make the port retrain; where the window
begins is the port's own matter, and free. -/
def State.replay (s : State) (p : Nat) : State :=
  let s := (s.addSat (F.fabPortErrReplays p) 1).count (portUnit p) 4 1
  let fresh := s.draw % 2 == 1
  let s := s.drawn.modPort p fun x => { x with replays := if fresh then 1 else x.replays + 1 }
  if 16 < (s.port p).replays then s.retrain p else (s.port p).sentFlits.foldl (State.sendFlit p) s

/-- Puts a packet into its queue by type; before NODE_ASSIGN only management packets are received (R333), and one of no type of R309 is
discarded. A response and a discarded packet take no place in a queue. -/
def State.enqueue (p : Nat) (s : State) (bs : List Byte) : State :=
  let ty := fld bs 0 1
  if ty = tyMgmt then s.modPort p fun x => { x with mgmt := x.mgmt ++ [bs] }
  else if !s.has F.fabStatusNodeValid then s.owe p (if ty < 0x10 then 0 else 1) bs
  else if tyRead ≤ ty ∧ ty ≤ tyMcast then s.modPort p fun x => { x with requests := x.requests ++ [bs] }
  else if tyReadRsp ≤ ty ∧ ty ≤ tyNack then (s.modPort p fun x => { x with responses := x.responses ++ [bs] }).owe p 1 bs
  else s.owe p 0 bs

/-- A flit's packet space is cut into packets. -/
def State.takePackets (s : State) (p : Nat) (bytes : List Byte) : State :=
  let bs := (s.port p).rx ++ bytes
  let r := cutPackets (bs.length / 8 + 1) bs
  r.1.foldl (State.enqueue p) (s.modPort p fun x => { x with rx := r.2 })

/-- Asks the peer to replay: NAK names the last good flit. -/
def State.sendNak (s : State) (p : Nat) : State := s.emit (.nak p ((s.port p).rxSeq.getD 4095))

/-- What LINK carries: the acknowledgement, a NAK, and credits (R302, R303, R325). -/
def State.linkField (s : State) (p : Nat) (f : Flit) : State :=
  let s := s.linkAck p f.ack.toNat
  if f.vc.toNat = 3 then (if f.credits.toNat = 0x3F then s.replay p else s)
  else s.modPort p fun x => { x with credits := KMap.put x.credits f.vc.toNat (KMap.get x.credits f.vc.toNat 0 + f.credits.toNat) }

/-- FLIT_RECEIVE (R303): a flit that cannot be corrected, or fails its CRC, or leaves a gap, is discarded and answered NAK; one received before
is discarded. -/
def State.flitReceive (s : State) (p : Nat) (f : Flit) : State :=
  let st := s.portState p
  if !(st == portAuth || s.passes p) then s
  else
    let s := s.count (portUnit p) 2 1
    let link := leBytes 4 (f.seq.toNat + f.ack.toNat * 2 ^ 12 + f.vc.toNat * 2 ^ 24 + f.credits.toNat * 2 ^ 26)
    if f.uncorrectable || crc32c (f.bytes ++ link) != f.crc.toNat then s.sendNak p
    else
      let s := if f.correctedSymbols = 0 then s
        else (s.addSat (F.fabPortErrCorrected p) f.correctedSymbols).count (portUnit p) 3 f.correctedSymbols
      let ahead := match (s.port p).rxSeq with
        | some q => (f.seq.toNat + 4096 - q) % 4096
        | none => 1
      if ahead = 1 then
        let s := (s.modPort p fun x => { x with rxSeq := some f.seq.toNat }).linkField p f
        if s.passes p then s.takePackets p f.bytes else s
      else if ahead = 0 ∨ 2048 ≤ ahead then s
      else s.sendNak p

def execFlitReceive (p : PortId) (f : Flit) (s : State) : Host.Outcome State Fault Refusal := .next (s.flitReceive p f)

end Sys2Proof.Machine
end

