-- ==== Sys2Proof/Machine/HostLink.lean ====
section
/-! DEFINITION. The host link (Host interface, queues and tenants): BAR4, training, loss and return, and PCIe resets. -/

namespace Sys2Proof.Machine

/-! ### BAR4 (R354, R356) -/

/-- Whether BAR4 exists (R356): the debug policy allows it. -/
def State.bar4 (s : State) : Bool := s.has F.secStatusDebug

/-- Whether every byte of a stretch of the window lies in the current scratchpad part. -/
def State.inScratch (s : State) (o n : Nat) : Bool :=
  decide (o + n ≤ 2 ^ 30) && (granSpan o n).all fun g => s.paFault (windowBase + 64 * g) == 0

/-- BAR4_ACCESS: a read is of as many bytes as `data` has. Poisoned bytes read as free values. -/
def State.bar4Access (s : State) (o : Nat) (write : Bool) (data : List Byte) : State :=
  let n := data.length
  if !s.bar4 then { s with resp := .none }
  else if !s.has F.hifStatusReady then { s with resp := if write then .none else .bytes (zeros n) }
  else if !s.has F.hifCtrlBar4En || !s.inScratch o n then
    { s.setEvent F.hifEventsBar4Miss with resp := if write then .none else .bytes (zeros n) }
  else if write then { s.write (windowBase + o) data with resp := .none }
  else if s.poisoned (windowBase + o) n then { s.drawn with resp := .bytes (leBytes n s.draw) }
  else { s.readAs (windowBase + o) n 16 hostLinkUnit false with resp := .bytes (s.read (windowBase + o) n) }

def execBar4Access (off : Nat) (write : Bool) (data : List Byte) (s : State) : Host.Outcome State Fault Refusal :=
  .next (s.bar4Access off write data)

/-! ### Training, loss and return (R354, R381) -/

/-- CONFIG_RETRY_END: 10 ms after the link first reaches L0. -/
def execConfigRetryEnd (s : State) : Host.Outcome State Fault Refusal :=
  .next (if s.hif.trained && !s.hif.configReady then { s with hif := { s.hif with configReady := true } }.emit .configReady else s)

/-- HOST_LINK_UP: the link reaches L0, for the first time once its domain has left reset, or again within LINK_HOLD. -/
def State.hostLinkUp (s : State) (rate width : Nat) (flit : Bool) : State :=
  if s.clk.released < 3 || s.has F.hifStatusLinkUp then s
  else
    let s := { s with hif := { s.hif with trained := true, linkHold := false } }
    (((s.wr F.hifStatusLinkUp 1).wr F.hifStatusRate rate).wr F.hifStatusWidth width).wr F.hifStatusFlit (b2n flit)

def execHostLinkUp (rate : BitVec 2) (width : BitVec 3) (flit : Bool) (s : State) : Host.Outcome State Fault Refusal :=
  .next (s.hostLinkUp rate.toNat width.toNat flit)

/-- HOST_LINK_DOWN: started commands go on, and finished ones wait for their records. -/
def State.hostLinkDown (s : State) : State :=
  if !s.has F.hifStatusLinkUp then s
  else
    let s := { s with hif := { s.hif with linkHold := true } }
    let s := (((s.wr F.hifStatusLinkUp 0).wr F.hifStatusRate 0).wr F.hifStatusWidth 0).wr F.hifStatusFlit 0
    s.setEvent F.hifEventsLinkDown

def execHostLinkDown (s : State) : Host.Outcome State Fault Refusal := .next s.hostLinkDown

/-- LINK_HOLD_EXPIRY (R381): the host is lost. Every ACTIVE tenant is secured, and the device resets when that is done. -/
def State.linkHoldExpiry (s : State) : State :=
  if !s.hif.linkHold || s.hif.hostLost then s
  else
    let s := { s with hif := { s.hif with hostLost := true } }
    ((s.event 0x610 .health []).healthInput .host |>.dueAll [1, 2] false).lostEnd

def execLinkHoldExpiry (s : State) : Host.Outcome State Fault Refusal := .next s.linkHoldExpiry

/-- PCIE_RESET (R381): a device reset at once, without securing; the straps are sampled again and the clocks start (R31, R496). -/
def State.pcieReset (s : State) (pins : Straps) : State :=
  if s.pwr.phase = .up ∧ s.pwr.resetting.isNone then s.finishRecords.deviceReset.startClocks pins else s

def execPcieReset (_k : PcieReset) (pins : Straps) (s : State) : Host.Outcome State Fault Refusal := .next (s.pcieReset pins)

end Sys2Proof.Machine
end

