-- ==== Sys2Proof/Machine/KeeperMem.lean ====
section
/-! DEFINITION. The keeper's mailbox commands over memory and the fabric (Firmware, boot and attestation): the certificate, isolation
entries, wards, domains and digests of frozen frames. -/

namespace Sys2Proof.Machine

/-- CERT_GET: the chain goes to a host bus address, or to an address of service firmware's; the response is its length. The request is the
address and the size. -/
def State.certGet (s : State) (host : Bool) (req : List Byte) : State :=
  let a := fld req 0 8
  let bs := s.keeper.cert.take (fld req 8 4)
  if host && !s.reaches a bs.length then (s.setEvent F.hifEventsHostAccess).mbxFinish 0x605 []
  else
    let s := if host then s.hostWrite a bs else s.write a bs
    s.mbxFinish 0 (leBytes 4 s.keeper.cert.length)

def execCertGet (s : State) : Host.Outcome State Fault Refusal := .next (s.mbxDo 3 fun s host req => s.certGet host req)

/-- GRANT (R229): tenant, first frame, count, and 1 for WRITE. A check that fails grants nothing. -/
def State.grant (s : State) (req : List Byte) : State :=
  let t := fld req 0 1
  let f := fld req 1 4
  let n := fld req 5 4
  let w := fld req 9 1 == 1
  if 16 ≤ t ∨ 1 < fld req 9 1 ∨ frameEnd < f + n ∨ s.rd F.secBootStatusStage < 0xA then s.mbxFinish 0x60F []
  -- a frame at or above CAPACITY does not exist (R258)
  else if (upto f n).any fun g => decide (s.frameCount ≤ g ∧ g < 196608) then s.mbxFinish 0x60F []
  else if (upto f n).all fun g => s.grantOk g t w then (s.grantFrames t w (upto f n)).mbxFinish 0 []
  else s.mbxFinish 0x60F []

def execGrant (s : State) : Host.Outcome State Fault Refusal := .next (s.mbxDo 0x20 fun s _ req => s.grant req)

/-- REVOKE (R215): tenant, first frame and count, a count of 0 for all; the isolation marker follows. -/
def State.revoke (s : State) (req : List Byte) : State :=
  let t := fld req 0 1
  let f := if fld req 5 4 = 0 then 0 else fld req 1 4
  let n := if fld req 5 4 = 0 then frameEnd else fld req 5 4
  if 16 ≤ t then s.mbxFinish 0x908 []
  else
    ((s.mapIso fun g v => if inRun f n g then isoWithout t v else v).markAll (.isolation f n)).mbxFinish 0 []

def execRevoke (s : State) : Host.Outcome State Fault Refusal := .next (s.mbxDo 0x21 fun s _ req => s.revoke req)

/-- WARD_WRITE (R315): tenant, and the address of the image in service firmware's memory. -/
def State.wardWrite (s : State) (req : List Byte) : State :=
  let t := fld req 0 1
  let w := s.read (fld req 1 8) wardImageBytes
  if 16 ≤ t then s.mbxFinish 0x908 []
  else if wardImageOk w then (s.putWard t w).mbxFinish 0 []
  else s.mbxFinish 0x60F []

def execWardWrite (s : State) : Host.Outcome State Fault Refusal := .next (s.mbxDo 0x22 fun s _ req => s.wardWrite req)

/-- DOMAIN_SET (R313): tenant, and its domain, 0 for none; the isolation marker follows (R316). -/
def State.domainSet (s : State) (req : List Byte) : State :=
  let t := fld req 0 1
  let d := fld req 1 2
  if 16 ≤ t then s.mbxFinish 0x908 []
  else if d != 0 && s.domainTaken t d then s.mbxFinish 0x60E []
  else ((s.putDomain t d).markAll (.isolation 0 0)).mbxFinish 0 []

def execDomainSet (s : State) : Host.Outcome State Fault Refusal := .next (s.mbxDo 0x23 fun s _ req => s.domainSet req)

/-- FROZEN_DIGEST (R284): frame and handle; the keeper hashes the frame as it stands. -/
def State.frozenDigest (s : State) (req : List Byte) : State :=
  let f := fld req 0 4
  if frameEnd ≤ f then s.mbxFinish 0x908 []
  else
    let d := digest256 (s.read (frameAddr f) (2 ^ 21))
    { s with keeper := { s.keeper with digests := KMap.put s.keeper.digests f (fld req 4 4, d) } }.mbxFinish 0 []

def execFrozenDigest (s : State) : Host.Outcome State Fault Refusal := .next (s.mbxDo 0x24 fun s _ req => s.frozenDigest req)

/-- Whether a frame holds what the keeper recorded for another. -/
def State.digestHolds (s : State) (staging target : Nat) : Bool :=
  match KMap.find s.keeper.digests target with
  | some x => x.2 == digest256 (s.read (frameAddr staging) (2 ^ 21))
  | none => false

/-- FROZEN_RESTORE (R268 steps 3 and 4): staging frame and target frame. On a match the restore copy starts; on a mismatch the keeper
refuses, and service firmware returns to step 2 with the next source. -/
def State.frozenRestore (s : State) (req : List Byte) : State :=
  let a := fld req 0 4
  let f := fld req 4 4
  let mine := fun (r : Recovery) => r.frame == f && r.staging == a && r.stage == 1
  let put := fun (g : Recovery → Recovery) =>
    { s with mem := { s.mem with recoveries := s.mem.recoveries.map fun r => if mine r then g r else r } }
  if s.digestHolds a f then
    (if s.mem.recoveries.any mine then put fun r => { r with stage := 2 }
     else { s with mem := { s.mem with recoveries := s.mem.recoveries ++
       [{ frame := f, name := 0, tenants := [], staging := a, stage := 2, tried := 0 }] } }).mbxFinish 0 []
  else (put fun r => { r with stage := 0, tried := r.tried + 1 }).mbxFinish 0x60F []

def execFrozenRestore (s : State) : Host.Outcome State Fault Refusal := .next (s.mbxDo 0x25 fun s _ req => s.frozenRestore req)

end Sys2Proof.Machine
end

