-- ==== Sys2Proof/Machine/Relayout.lean ====
section
/-! DEFINITION. Channel map-out (HBM3E memory, R271 to R273): MAPOUT_GO, and the relayout's end. -/

namespace Sys2Proof.Machine

/-- Migrates the frames that partners hold and that have to leave (R271 step 2). -/
def State.moveAllHeld (s : State) (cap : Nat) : State :=
  s.fab.held.foldl
    (fun (s : State) r =>
      let n := countIf (mustLeave cap) r.frames
      if n = 0 then s
      else (s.spillFor true n (cap / 2 ^ 21)).tryMove fun s => s.moveHeld r (mustLeave cap) (cap / 2 ^ 21)) s

/-- Lines 0 to S − 1 stand in the scratchpad buffer, with their poison (R272 Stage). -/
def State.stageBuffer (s : State) : State :=
  let o := s.rd F.hbmRelayoutBufOffset * 2 ^ 20
  let n := 2 ^ 25
  let data := s.mem.hbm.filter fun (x : Nat × Byte) => decide (x.1 < n)
  let bad := s.mem.hbmPoison.filter fun (x : Nat × Bool) => decide (x.1 < n / 64)
  { s with mem := { s.mem with
      scratch := data.foldl (fun (m : KMap Byte) x => KMap.set m (o + x.1) x.2 0) (dropRange s.mem.scratch o n)
      scratchPoison := bad.foldl (fun (m : KMap Bool) x => KMap.set m (o / 64 + x.1) x.2 false)
        (dropRange s.mem.scratchPoison (o / 64) (n / 64)) } }

/-- Steps 3 and 4: frames at or above `cap` leave the isolation table and the map, and the relayout starts. -/
def State.startRelayout (s : State) (c cap : Nat) : State :=
  let top := cap / 2 ^ 21
  let s := s.mapIso fun f v => if f < top ∨ 196608 ≤ f then v else 0
  let s := s.markAll (.isolation top (196608 - top))
  let s := s.setReg .hbmCapacity (BitVec.ofNat 64 cap)
  let s := s.buildMap (s.liveChannels.filter fun d => d != c)
  { s with mem := { s.mem with relayout := some c } }.stageBuffer.wr F.hbmStatusRelayoutBusy 1

/-- MAPOUT_GO (R271, R272, R275): before READY the channel's state is MAPPED_OUT and no data moves. After it, a buffer under 32 regions
refuses. Service firmware writes GO for a FAILING channel whose record is durable, at a step boundary of every tenant, and once no used
frame is left at or above the new capacity. -/
def State.mapoutGo (s : State) (c : Nat) : State :=
  let s := s.wr F.hbmMapoutChannel c
  if !s.has F.hbmStatusReady then s.channelState c 2
  else if s.rd F.hbmRelayoutBufRegions < 32 then s.setEvent F.hbmEventsMapoutRefused
  else if s.has F.hbmStatusRelayoutBusy || s.rd (F.hbmChstateState c) ≠ 1 || (KMap.find s.journal.live (liveKey 3 c)).isNone ||
      (upto 0 16).any fun t => s.active t && !s.atBoundary t then s
  else
    let cap := (s.reg .hbmCapacity).toNat - 2 ^ 31
    let s := s.moveAllHeld cap
    if s.usedFrames.any (mustLeave cap) then s else s.startRelayout c cap

def execMapoutGo (ch : Fin 192) (s : State) : Host.Outcome State Fault Refusal := .next (s.mapoutGo ch)

/-- Whether a line's old place, under the map that still had channel `c`, is on that channel. -/
def State.wasOn (s : State) (c line : Nat) : Bool :=
  let pcs := (s.liveChannels.map fun d => [2 * d, 2 * d + 1]).flatten
  pcs.getD (pcSlot (max 1 pcs.length) line) 0x1FF / 2 == c

/-- RELAYOUT_END (R271 step 5, R273): `lost` are the granules that could not be read from the failing channel; the finding is that
channel's. What lay at or above the capacity is not moved. -/
def State.relayoutEnd (s : State) (lost : List Nat) : State :=
  match s.mem.relayout with
  | none => s
  | some c =>
    let s := { s with mem := { s.mem with relayout := none } }.stageBuffer
    let s := s.zeroRange (s.reg .hbmCapacity).toNat (2 ^ 31)
    let gone := lost.filter fun g => decide (64 * g < (s.reg .hbmCapacity).toNat) && s.wasOn c (g / 4)
    let s := gone.foldl (fun (s : State) g => s.hbmLostAt c g) s
    let s := s.wr F.hbmRelayoutFrontierLine (2 ^ 17 - 1)
    ((s.wr F.hbmStatusRelayoutBusy 0).setEvent F.hbmEventsRelayoutDone).channelState c 2

end Sys2Proof.Machine
end

