-- ==== Sys2Proof/Machine/Recover.lean ====
section
/-! DEFINITION. What follows an uncorrectable finding (HBM3E memory; Failure survival and restore): steps aborted, frozen frames
recovered, and blocks of the state in force repaired; and the commands that meet findings. -/

namespace Sys2Proof.Machine

/-! ### Frozen frames (R268, R269) -/

/-- The frozen weights that lie in a frame: each part there, and the frame's place in it. A pack frame may hold several. -/
def State.frozenIn (s : State) (f : Nat) : List (Frozen × Part × Nat) :=
  (s.frozen.map fun z => z.parts.filterMap fun q => (findAt (fun g => g == f) q.frames).map fun i => (z, q, i)).flatten

/-- The tenants that a frame's isolation entry lets read, or write. -/
def State.readers (s : State) (f : Nat) : List Nat := (upto 0 16).filter fun t => bit (s.isoEntry f) t
def State.writers (s : State) (f : Nat) : List Nat := (upto 0 16).filter fun t => bit (s.isoEntry f) (16 + t)

/-- Step 1: the named tenants' steps end, and the recovery of the frame begins. -/
def State.startRecovery (s : State) (f : Nat) (z : Frozen) : State :=
  if s.mem.recoveries.any fun r => r.frame == f then s
  else
    let ts := s.readers f
    let s := ts.foldl (fun (s : State) t => s.abortStep t) s
    { s with mem := { s.mem with recoveries := s.mem.recoveries ++
      [{ frame := f, name := z.name, tenants := ts, staging := 0, stage := 0, tried := 0 }] } }

/-- Tells the tenants named in a recovery, each with its own handle. -/
def State.tellRecovery (s : State) (r : Recovery) (code : Nat) : State :=
  let hs := ((s.frozen.filter fun z => z.name == r.name || (partFrames z.parts).contains r.frame).map (·.sharers)).flatten
  r.tenants.foldl (fun (s : State) t => s.tell t code (coreUnit 0) (((hs.find? fun y => y.1 == t).map (·.2)).getD 0) 0) s

/-- Steps 5 and 6: the staging frame is freed, the tenants are told, and their STEP_OPENs go on. -/
def State.endRecovery (s : State) (r : Recovery) (code : Nat) : State :=
  let s := { s with mem := { s.mem with recoveries := s.mem.recoveries.filter fun x => x.frame != r.frame } }
  let s := if r.staging = 0 then s else s.retire [r.staging] |>.settleRetired
  let s := s.tellRecovery r code
  r.tenants.foldl (fun (s : State) t => s.tryOpen t) s

/-- No source yields the frame (R269). -/
def State.recoveryFails (s : State) (r : Recovery) : State :=
  { s with frozen := s.frozen.map fun (z : Frozen) =>
    if z.name = r.name ∨ (partFrames z.parts).contains r.frame = true then { z with unrecovered := true } else z }.endRecovery r 0x310

def State.putRecovery (s : State) (r : Recovery) : State :=
  { s with mem := { s.mem with recoveries := s.mem.recoveries.map fun x => if x.frame = r.frame then r else x } }

/-- A staging frame, outside every tenant's reach. -/
def State.stagingFrame (s : State) (r : Recovery) : State × Option Nat :=
  if r.staging ≠ 0 then (s, some r.staging)
  else
    let s := s.spillFor true 1 s.frameCount
    match s.freeFrames true 1 s.frameCount with
    | f :: _ => (s.convertGroups true [f], some f)
    | [] => (s, none)

/-- Service firmware asks the keeper for the restore, on its own channel. -/
def State.askRestore (s : State) (staging target : Nat) : State :=
  (s.mbxStore false 0 [leBytes 4 staging, leBytes 4 target]).mbxGo false (BitVec.ofNat 32 (2 ^ 31 + 8 * 2 ^ 16 + 0x25))

/-- The bytes that the source in turn gives: the image in flash, then peers. `data` is what a read returned where it is not what flash
holds, or what a peer holds. -/
def State.sourceData (s : State) (r : Recovery) (data : Option (List Byte)) : Option (List Byte) :=
  match data with
  | some bs => some bs
  | none =>
    if r.tried ≠ 0 then none
    else
      let xs := s.frozenIn r.frame
      let put := fun (d : List Byte) (x : Frozen × Part × Nat) =>
        (KMap.find s.flash.frozen (imageKey x.1.name x.2.1.code x.2.2)).map fun b => patch d (x.2.1.packOff.getD 0) b
      -- what a pack frame holds beside its frozen parts is zero
      if xs.isEmpty then none else xs.foldl (fun (a : Option (List Byte)) x => a.bind fun d => put d x) (some (zeros (2 ^ 21)))

/-- FROZEN_STAGE_END: the source's frame has been read in full and stands in the staging frame; the keeper is asked. Without a free
frame, or while the firmware channel is busy, it waits. -/
def State.frozenStageEnd (s : State) (data : Option (List Byte)) : State :=
  match s.mem.recoveries.find? fun r => r.stage == 0 with
  | none => s
  | some r =>
    match s.sourceData r data with
    | none => if r.tried = 0 then s.putRecovery { r with tried := 1 } else s.recoveryFails r
    | some bs =>
      if s.mbxRd false F.secStatusBusy = 1 then s
      else
        match s.stagingFrame r with
        | (s, none) => s
        | (s, some a) =>
          let s := s.write (frameAddr a) (bs.take (2 ^ 21) ++ zeros (2 ^ 21 - bs.length))
          (s.putRecovery { r with staging := a, stage := 1 }).askRestore a r.frame

def execFrozenStageEnd (data : Option (List Byte)) (s : State) : Host.Outcome State Fault Refusal := .next (s.frozenStageEnd data)

/-- A check unit's CRC-64 over a frame, tagged by a frame's address (R268, R394). -/
def State.taggedCheck (s : State) (f tag : Nat) : Nat :=
  crcFinal 1 (crcFold 1 (crcInit 1) (leBytes 8 (frameAddr tag) ++ s.read (frameAddr f) (2 ^ 21)))

/-- FROZEN_RESTORE_COPY_END: the keeper's copy stands over the frame, whole granules, and has passed its check. -/
def State.frozenCopyEnd (s : State) : State :=
  match s.mem.recoveries.find? fun r => r.stage == 2 with
  | none => s
  | some r =>
    let s' := s.write (frameAddr r.frame) (s.read (frameAddr r.staging) (2 ^ 21))
    if s'.taggedCheck r.frame r.frame = s.taggedCheck r.staging r.frame then s'.endRecovery r 0x30F else s

def execFrozenRestoreCopyEnd (s : State) : Host.Outcome State Fault Refusal := .next s.frozenCopyEnd

/-! ### State in force (R425) -/

/-- The tensor and part of a tenant's state in force that an offset of a frame lies in. -/
def State.inForce (s : State) (t f o : Nat) : Option (Tensor × Part × Nat) :=
  (s.tenant t).place.tensors.findSome? fun x => (x.secured (s.tenant t).step.buf).findSome? fun q => (q.offsetOf f o).map fun i => (x, q, i)

/-- The manifests of the complete generations of a tenant with a step: of layer 1 and of layer 2. -/
def State.gensOf (s : State) (t step : Nat) : List (List Byte) :=
  let d := s.dir t
  let l1 := if s.genStep t 1 ≠ step then [] else if d.step0 = step then [d.manifest0] else if d.step1 = step then [d.manifest1] else []
  l1 ++ ((s.flashGens t).filter fun g => g.step == step).map (·.manifest)

/-- The manifest entry of the block that holds an offset of a part. -/
def blockEntry (m : List Byte) (h code off : Nat) : Option (List Byte) :=
  (manifestEntries m).find? fun e => fld e 0 4 == h && fld e 4 1 == code && fld e 8 8 == off / blockMax * blockMax

/-- The data of a block that some source yields with the digest of its manifest: the flash generation, or what reads of the partner's
generation return. -/
def State.blockSource (s : State) (t step h code off : Nat) (gens : List (List Byte)) : Option (List Byte) :=
  let flash := (((s.flashGens t).filter fun g => g.step == step).map fun g => g.blocks.map (·.data)).flatten
  (s.gensOf t step).findSome? fun m =>
    match blockEntry m h code off with
    | some e => (gens ++ flash).find? fun d => blockGood step (e, d)
    | none => none

/-- A poisoned granule of a tenant's state in force: the open step ends; the block is repaired, or the state is lost. -/
def State.repair (s : State) (t : Nat) (x : Tensor) (q : Part) (off : Nat) (gens : List (List Byte)) : State :=
  let s := s.abortStep t
  match s.blockSource t (s.stepNow t) x.handle q.code off gens with
  | some d => (s.writePart q (off / blockMax * blockMax) d).tell t 0x711 (coreUnit 0) x.handle off
  | none => (s.modStep t fun y => { y with lost := true }).tell t 0x712 (coreUnit 0) x.handle off

/-- The offset in the record slot in force that an offset of a frame is, for a tenant's step area (R156, R425). -/
def State.slotInForce (s : State) (t f o : Nat) : Option Nat :=
  let base := slotOffset (s.tenant t).step.slot
  if (s.tenant t).place.areas[3]? = some f ∧ base ≤ o ∧ o < base + slotBytes then some (o - base) else none

/-- A poisoned granule of the record slot in force: its block is that of part F0h of handle 0 (R403). -/
def State.repairSlot (s : State) (t off : Nat) (gens : List (List Byte)) : State :=
  let s := s.abortStep t
  match s.blockSource t (s.stepNow t) 0 0xF0 off gens with
  | some d => (s.putArea t 3 (slotOffset (s.tenant t).step.slot) d).tell t 0x711 (coreUnit 0) 0 off
  | none => (s.modStep t fun y => { y with lost := true }).tell t 0x712 (coreUnit 0) 0 off

/-! ### Findings (R266) -/

/-- What service firmware does about a granule lost. -/
def State.granLost (s : State) (g : Nat) (gens : List (List Byte)) : State :=
  let f := 64 * g / 2 ^ 21
  let o := 64 * g % 2 ^ 21
  let s := if s.corrected (64 * g) then s else (s.writers f).foldl (fun (s : State) t => s.abortStep t) s
  let s := match s.frozenIn f with
    | (z, _, _) :: _ => s.startRecovery f z
    | [] => s
  (upto 0 16).foldl
    (fun (s : State) t => match s.inForce t f o, s.slotInForce t f o with
      | some (x, q, i), _ => s.repair t x q i gens
      | none, some i => s.repairSlot t i gens
      | none, none => s) s

/-- Finds errors at some granules, and acts on those that are newly lost. -/
def State.findAll (s : State) (xs : List (Nat × Finding)) : State × List Nat :=
  xs.foldl
    (fun (x : State × List Nat) y =>
      let s' := x.1.find y.1 y.2
      (s', if KMap.get s'.mem.hbmPoison y.1 false && !KMap.get x.1.mem.hbmPoison y.1 false then x.2 ++ [y.1] else x.2)) (s, [])

/-- Acts on granules lost. -/
def State.lostAll (s : State) (gs : List Nat) (gens : List (List Byte)) : State := gs.foldl (fun (s : State) g => s.granLost g gens) s

/-- LINE_FILL_END: the `k`-th fill of a slice brings its line, with what the controllers find on its granules. Before READY, and
with the load cut, it waits (R276, R449). -/
def State.lineFillEnd (s : State) (q k : Nat) (f : List Finding) (gens : List (List Byte)) : State :=
  match (s.slice q).fills[k]? with
  | none => s
  | some line =>
    if !s.has F.hbmStatusReady || s.pwr.cut then s else
    let (s, lost) := s.findAll ((upto 0 4).map fun i => (4 * line + i, f.getD i .sound))
    (s.fillEnd q k).lostAll lost gens

def execLineFillEnd (q : QuadId) (k : Nat) (f : List Finding) (gens : List (List Byte)) (s : State) : Host.Outcome State Fault Refusal :=
  .next (s.lineFillEnd q k f gens)

/-- WRITEBACK_ACCEPTED (R242): HBM accepts the `k`-th write-back of a slice; a partial granule is merged with what HBM holds, and that
read may find an error. Before READY, and with the load cut, it waits (R276, R449). -/
def State.writebackAccepted (s : State) (q k : Nat) (f : List Finding) (gens : List (List Byte)) : State :=
  match (s.mem.wb.filter fun w => w.slice == q)[k]? with
  | none => s
  | some w =>
    if !s.has F.hbmStatusReady || s.pwr.cut then s else
    let partial' := fun (i : Nat) => let x := w.g.getD i Gran.reset; x.dirty && x.wrote != allHeld
    let (s, lost) := s.findAll (((upto 0 4).filter partial').map fun i => (4 * w.line + i, f.getD i .sound))
    let s := { s with mem := { s.mem with wb := s.mem.wb.erase w } }
    ((s.acceptLine w).refillHeld w.line).lostAll lost gens

def execWritebackAccepted (q : QuadId) (k : Nat) (f : List Finding) (gens : List (List Byte)) (s : State) : Host.Outcome State Fault Refusal :=
  .next (s.writebackAccepted q k f gens)

/-- HBM_SCRUB_READ (R267): the patrol scrubber reads a granule; a poisoned one stays as it is. With SCRUB_MIN 0 it stands (R274). -/
def State.hbmScrub (s : State) (g : Nat) (f : Finding) (gens : List (List Byte)) : State :=
  if s.pwr.cut || !s.has F.hbmStatusReady || s.rd F.hbmCtrlScrubMin == 0 || decide ((s.reg .hbmCapacity).toNat ≤ 64 * g) then s
  else
    let (s, lost) := s.findAll [(g, f)]
    s.lostAll lost gens

def execHbmScrubRead (granule : Nat) (f : Finding) (gens : List (List Byte)) (s : State) : Host.Outcome State Fault Refusal :=
  .next (s.hbmScrub granule f gens)

/-- RELAYOUT_END (R272, R273), and what follows the granules lost. -/
def execRelayoutEnd (lost : List Nat) (gens : List (List Byte)) (s : State) : Host.Outcome State Fault Refusal :=
  let s' := s.relayoutEnd lost
  .next (s'.lostAll (lost.filter fun g => KMap.get s'.mem.hbmPoison g false && !KMap.get s.mem.hbmPoison g false) gens)

end Sys2Proof.Machine
end

