-- ==== Sys2Proof/Machine/Late.lean ====
section
/-! DEFINITION. Commands that several units answer: markers at a unit, the reduction unit's requests, the journal's acknowledgements, and
the release of the clock domains. -/

namespace Sys2Proof.Machine

/-! ### Markers (R19, R215) -/

/-- Whether a message is a translation marker, and whether an isolation marker. -/
def TreeMsg.isTranslation : TreeMsg → Bool
  | .translation _ _ _ => true
  | _ => false

def TreeMsg.isIsolation : TreeMsg → Bool
  | .isolation _ _ => true
  | _ => false

/-- A unit forwards the first marker that satisfies a test, and before it the markers of other kinds that stand there (R19). -/
def State.forwardFirst (s : State) (u : Nat) (p : TreeMsg → Bool) : State :=
  let s' := State.passMarkersIf (fun m => !p m) u (s.inbox u).length s
  match s'.inbox u with
  | m :: _ => if p m then (if s'.mayForward u m then s'.forward u m else s') else s
  | [] => s

/-- TRANSLATION_MARKER: a unit completes accesses of the range first, then drops its entries and forwards the marker. -/
def State.translationMarker (s : State) (u : Nat) : State := s.forwardFirst u TreeMsg.isTranslation

def execTranslationMarker (unit : Nat) (s : State) : Host.Outcome State Fault Refusal := .next (s.translationMarker unit)

/-- ISOLATION_MARKER: a unit completes accesses onto the frames first (R19), then drops its entries onto them and forwards the marker. -/
def State.isolationMarker (s : State) (u : Nat) : State := s.forwardFirst u TreeMsg.isIsolation

def execIsolationMarker (unit : Nat) (s : State) : Host.Outcome State Fault Refusal := .next (s.isolationMarker unit)

/-! ### Reductions and atomics at a slice (R243, R244) -/

/-- The answer goes to who asked. -/
def State.redAnswer (x : State × Option RedAnswer) : State :=
  match x with
  | (s, none) => s
  | (s, some a) =>
    match a.req.src with
    | .spindle t seq va => s.sumAnswer t seq va a.code a.req.line
    | .tumbler u k => s.atomAnswer u k a.code a.values
    | .port p key => s.landed p key a.code a.values

def execReductionRequest (q : QuadId) (s : State) : Host.Outcome State Fault Refusal := .next (State.redAnswer (s.redArrive q))

def execReductionExecute (q : QuadId) (s : State) : Host.Outcome State Fault Refusal := .next (State.redAnswer (s.redExecute q))

/-! ### The journal (R434, R438, R462) -/

/-- What follows the acknowledgement of a record: at the keeper, or at a flash generation. -/
def State.acknowledged (s : State) (r : JRecord) : State :=
  if r.byKeeper then s.keeperAck r.kind.toNat r.key.toNat r.payload
  else if r.kind = 2 then s.genCommitted r.key.toNat r.payload
  else s

/-- JOURNAL_RECORD_COMMITTED: copy B of a record stands, its copy A being verified; its writer hears, and the next record starts. -/
def State.recordCommitted (s : State) (jseq : Nat) : State :=
  match s.journal.run.find? fun x => x.jseq == jseq && x.copyA with
  | none => s
  | some x => State.journalStart 4 ((s.journalCommit x).acknowledged x.item)

def execJournalRecordCommitted (jseq : Nat) (s : State) : Host.Outcome State Fault Refusal := .next (s.recordCommitted jseq)

/-! ### The wear budget (R442, R443) -/

/-- WEAR_BUDGET_UPDATE, once an hour: with the TLC areas read-only, layer-2 drains are abandoned with cause 03h. -/
def State.wearUpdate (s : State) : State :=
  if !s.has F.durStatusReady then s
  else
    let s := s.wearBudget
    if s.has F.durStatusReadOnly then
      (s.sec.drains.filter fun d => d.layer == 2).foldl (fun (s : State) d => s.abandon d.tenant 2 3) s
    else s

def execWearBudgetUpdate (s : State) : Host.Outcome State Fault Refusal := .next s.wearUpdate

/-! ### Clock domains (R30) -/

/-- The array starts at /24, or at the power floor when that stands higher. -/
def State.startArray (s : State) : State :=
  let d := divider (s.rd F.clkArrdivPwrFloor)
  ({ s with clk := { s.clk with step := .idle, deferred := false } }.wr F.clkArrdivEffective d |>.wr F.clkStatusArrDiv d).wr
    F.clkStatusArrStepping 0

/-- DOMAIN_RELEASE: in order, after lock. Once every domain is released the counters are READY (R488). -/
def State.domainRelease (s : State) (d : Domain) : State :=
  if !s.clk.rails || s.clk.bypass || domainOrder d != s.clk.released then s
  else
    let s := { s with clk := { s.clk with released := s.clk.released + 1 } }
    match d with
    | .store => s.storeRestart.synRestart
    | .fabric => s.fabRestart
    | .array => (s.arrRestart.startArray.divide).wr F.cntStatusReady 1
    | _ => s

def execDomainRelease (d : Domain) (s : State) : Host.Outcome State Fault Refusal := .next (s.domainRelease d)

end Sys2Proof.Machine
end

