-- ==== Sys2Proof/Machine/Side.lean ====
section
/-! DEFINITION. The sideband (Module, connectors and environment, R499 to R502). An answer is given here as its message
type, command code, completion code and data; the spec names the commands and leaves their formats to the DMTF
standards (PRESUMED). -/

namespace Sys2Proof.Machine

/-- Answers a request on the binding it came from. -/
def State.answer (s : State) (b : Binding) (mtype cmd code : Nat) (data : List Byte) : State :=
  s.emit (.sideband b (leBytes 1 mtype ++ leBytes 1 cmd ++ leBytes 1 code ++ data))

/-- The endpoint ID of a binding. -/
def State.eid (s : State) : Binding → Nat
  | .smbus => s.side.eidSmbus
  | .i3c => s.side.eidI3c

def State.setEid (s : State) (b : Binding) (v : Nat) : State :=
  match b with
  | .smbus => { s with side := { s.side with eidSmbus := v } }
  | .i3c => { s with side := { s.side with eidI3c := v } }

/-! ### MCTP control -/

/-- SET_ENDPOINT_ID (R499): the bus owner gives the endpoint ID on the binding; 00h and FFh are invalid. -/
def execSetEndpointId (b : Binding) (eid : Byte) (s : State) : Host.Outcome State Fault Refusal :=
  .next (if eid = 0 ∨ eid = 0xFF then s.answer b 0 1 2 []
         else (s.setEid b eid.toNat).answer b 0 1 0 ([0, eid, 0]))

/-- GET_ENDPOINT_ID (R500). -/
def execGetEndpointId (b : Binding) (s : State) : Host.Outcome State Fault Refusal :=
  .next (s.answer b 0 2 0 (leBytes 1 (s.eid b) ++ [0, 0]))

/-- GET_ENDPOINT_UUID (R500). -/
def execGetEndpointUuid (b : Binding) (s : State) : Host.Outcome State Fault Refusal :=
  .next (s.answer b 0 3 0 (leBytes 16 Config.endpointUuid.toNat))

/-- GET_MCTP_VERSION_SUPPORT (R500): the version of a message type; 80h for a type that is not supported. -/
def execGetMctpVersionSupport (b : Binding) (mtype : Byte) (s : State) : Host.Outcome State Fault Refusal :=
  .next (if mtype = 0 ∨ mtype = 1 ∨ mtype = 0x7E ∨ mtype = 0xFF then
           s.answer b 0 4 0 (1 :: leBytes 4 (Config.protocolVersion mtype.toNat).toNat)
         else s.answer b 0 4 0x80 [])

/-- GET_MESSAGE_TYPE_SUPPORT (R500): PLDM and vendor-defined PCI beside MCTP control. -/
def execGetMessageTypeSupport (b : Binding) (s : State) : Host.Outcome State Fault Refusal :=
  .next (s.answer b 0 5 0 [2, 0x01, 0x7E])

/-- GET_VENDOR_MESSAGE_SUPPORT (R500): the function's PCI vendor identifier, and no further set. -/
def execGetVendorMessageSupport (b : Binding) (s : State) : Host.Outcome State Fault Refusal :=
  .next (s.answer b 0 6 0 ([0xFF, 0] ++ leBytes 2 Config.pciVendor.toNat ++ [0, 0]))

/-! ### PLDM base -/

/-- SETTID (R500). -/
def execSettid (b : Binding) (tid : Byte) (s : State) : Host.Outcome State Fault Refusal :=
  .next (if tid = 0 ∨ tid = 0xFF then s.answer b 1 1 2 []
         else { s with side := { s.side with tid := tid.toNat } }.answer b 1 1 0 [])

/-- GETTID (R500). -/
def execGettid (b : Binding) (s : State) : Host.Outcome State Fault Refusal :=
  .next (s.answer b 1 2 0 (leBytes 1 s.side.tid))

/-- GETPLDMVERSION (R500): of types 0 and 2. -/
def execGetpldmversion (b : Binding) (ptype : Byte) (s : State) : Host.Outcome State Fault Refusal :=
  .next (if ptype = 0 ∨ ptype = 2 then s.answer b 1 3 0 (leBytes 4 (Config.protocolVersion (256 + ptype.toNat)).toNat)
         else s.answer b 1 3 0x83 [])

/-- GETPLDMTYPES (R500): types 0 and 2, a bit for each. -/
def execGetpldmtypes (b : Binding) (s : State) : Host.Outcome State Fault Refusal :=
  .next (s.answer b 1 4 0 (leBytes 8 5))

/-- The commands of a PLDM type that R500 lists, a bit for each command code. -/
def pldmCommands (ptype : Nat) : Nat :=
  if ptype = 0 then 2 ^ 1 + 2 ^ 2 + 2 ^ 3 + 2 ^ 4 + 2 ^ 5 else 2 ^ 0x0B + 2 ^ 0x11 + 2 ^ 0x21 + 2 ^ 0x50 + 2 ^ 0x51

/-- GETPLDMCOMMANDS (R500). -/
def execGetpldmcommands (b : Binding) (ptype : Byte) (s : State) : Host.Outcome State Fault Refusal :=
  .next (if ptype = 0 ∨ ptype = 2 then s.answer b 1 5 0 (leBytes 32 (pldmCommands ptype.toNat))
         else s.answer b 1 5 0x83 [])

/-! ### PLDM platform monitoring (R501) -/

/-- The sensor IDs of R501: numeric ones, then state ones. -/
def numericSensors : List Nat := upto 1 20
def stateSensors : List Nat := [32, 33, 34, 35]

/-- GETPDRREPOSITORYINFO (R500): one record for each sensor. -/
def execGetpdrrepositoryinfo (b : Binding) (s : State) : Host.Outcome State Fault Refusal :=
  .next (s.answer b 1 0x50 0 (leBytes 1 0 ++ leBytes 4 24))

/-- GETPDR (R500): the record of a handle from 1: its type, 02h numeric or 04h state, and its sensor ID; 82h for an unknown
handle. -/
def execGetpdr (b : Binding) (handle : Word) (s : State) : Host.Outcome State Fault Refusal :=
  .next (match (numericSensors ++ stateSensors)[handle.toNat - 1]? with
    | some id =>
      if handle = 0 then s.answer b 1 0x51 0x82 []
      else
        s.answer b 1 0x51 0 (leBytes 4 (if handle.toNat < 24 then handle.toNat + 1 else 0) ++ leBytes 4 handle.toNat ++
          [1, if id < 32 then 2 else 4] ++ leBytes 2 id)
    | none => s.answer b 1 0x51 0x82 [])

/-- A numeric sensor's value, when its source is powered and initialised (R501). -/
def State.numeric (s : State) (id : Nat) : Option Nat :=
  let rails := s.pwr.phase == .up
  let t := s.pwr.temps
  if id = 1 then (if 20000 ≤ s.rd F.pwrVinVin then some (s.rd F.pwrVinVin) else none)
  else if id = 2 then (if 20000 ≤ s.rd F.pwrVinVin then some (s.rd F.pwrPinMean) else none)
  else if id = 3 then (if s.pwr.tested then some (s.rd F.pwrHoldupUs) else none)
  else if id < 8 then (if rails then t.map fun t => unsigned 16 (t.die.getD (id - 4) 0) else none)
  else if id < 20 then (if s.has F.hbmStatusTrained then t.map fun t => unsigned 16 (t.hbm.getD (id - 8) 0) else none)
  else if rails then t.map fun t => unsigned 16 t.flash
  else none

/-- A state sensor's value (R501). -/
def State.stateOf (s : State) (id : Nat) : Option Nat :=
  let input := decide (20000 ≤ s.rd F.pwrVinVin)
  if id = 32 then (if input then some (s.rd F.pwrStatusState) else none)
  else if id = 33 then (if s.has F.resStatusReady then some (s.rd F.resRiskLevel) else none)
  else if id = 34 then (if input then some (b2n s.pwr.trip.isSome) else none)
  else if input then some s.pwr.failedRail
  else none

/-- GETSENSORREADING (R501): the reading, or the operational state "unavailable"; 80h for an unknown sensor. -/
def execGetsensorreading (b : Binding) (id : Half) (s : State) : Host.Outcome State Fault Refusal :=
  .next (if numericSensors.contains id.toNat then
      match s.numeric id.toNat with
      | some v => s.answer b 1 0x11 0 (leBytes 1 0 ++ leBytes 2 v)
      | none => s.answer b 1 0x11 0 (leBytes 1 2 ++ leBytes 2 0)
    else s.answer b 1 0x11 0x80 [])

/-- GETSTATESENSORREADINGS (R501), likewise. -/
def execGetstatesensorreadings (b : Binding) (id : Half) (s : State) : Host.Outcome State Fault Refusal :=
  .next (if stateSensors.contains id.toNat then
      match s.stateOf id.toNat with
      | some v => s.answer b 1 0x21 0 (leBytes 1 0 ++ leBytes 1 v)
      | none => s.answer b 1 0x21 0 (leBytes 1 2 ++ leBytes 1 0)
    else s.answer b 1 0x21 0x80 [])

/-- POLLFORPLATFORMEVENTMESSAGE (R500): no event message waits, since the spec gives the endpoint none to send. -/
def execPollforplatformeventmessage (b : Binding) (s : State) : Host.Outcome State Fault Refusal :=
  .next (s.answer b 1 0x0B 0 (leBytes 1 s.side.tid ++ leBytes 2 0))

/-! ### Vendor commands (R502) -/

/-- TELEMETRY_GET: the newest record; 01h when none has been built since reset. -/
def execTelemetryGet (b : Binding) (s : State) : Host.Outcome State Fault Refusal :=
  .next (if s.cnt.newest.isEmpty then s.answer b 0x7E 1 1 [] else s.answer b 0x7E 1 0 s.cnt.newest)

/-- POWER_STATUS: PWR.STATUS, PWR.VIN, PWR.PIN, sensor 35, and the trip latch with its sensor ID. -/
def execPowerStatus (b : Binding) (s : State) : Host.Outcome State Fault Refusal :=
  .next (s.answer b 0x7E 2 0 (leBytes 4 (s.reg .pwrStatus).toNat ++ leBytes 4 (s.reg .pwrVin).toNat ++
    leBytes 4 (s.reg .pwrPin).toNat ++ leBytes 1 s.pwr.failedRail ++ leBytes 1 (b2n s.pwr.trip.isSome) ++
    leBytes 1 (s.pwr.trip.getD 0)))

/-- STRAPS_GET: feed and position in use, the present pins, and whether they differ. -/
def execStrapsGet (b : Binding) (pins : Straps) (s : State) : Host.Outcome State Fault Refusal :=
  .next (s.answer b 0x7E 3 0 (leBytes 2 (s.rd F.resFeedStrapFeed) ++ leBytes 1 (s.rd F.pwrStrapsPos) ++
    leBytes 2 pins.feed.toNat ++ leBytes 1 (b2n pins.par) ++ leBytes 1 pins.pos.toNat ++
    leBytes 1 (b2n (pins != s.pwr.straps))))

/-- UNSUPPORTED_SIDEBAND_MESSAGE (R500): a message of another type is discarded; an unlisted command of a control or PLDM type
is answered with the completion code for an unsupported command. -/
def execUnsupportedSidebandMessage (b : Binding) (mtype : Byte) (cmd : Byte) (s : State) :
    Host.Outcome State Fault Refusal :=
  .next (if mtype = 0 ∨ mtype = 1 ∨ mtype = 0x7E then s.answer b mtype.toNat cmd.toNat 5 [] else s)

/-- DYNAMIC_ADDRESS_ASSIGNMENT (R499): SETDASA or ENTDAA on the I3C bus. -/
def execDynamicAddressAssignment (addr : BitVec 7) (s : State) : Host.Outcome State Fault Refusal :=
  .next { s with side := { s.side with dyn := some addr.toNat } }

end Sys2Proof.Machine
end

