-- ==== Sys2Proof/Machine/Dispatch.lean ====
section
/-! DEFINITION. The dispatch of a command to its meaning: one arm for each row of spec/opcode_table.json. -/

namespace Sys2Proof.Machine

def exec (i : Instr) (s : State) : Host.Outcome State Fault Refusal :=
  match i with
  | .registerWrite a off wide v => Sys2Proof.Machine.execRegisterWrite a off wide v s
  | .bar0UnsupportedRequest a off size write => Sys2Proof.Machine.execBar0UnsupportedRequest a off size write s
  | .lowHalfRead a off => Sys2Proof.Machine.execLowHalfRead a off s
  | .highHalfRead a off => Sys2Proof.Machine.execHighHalfRead a off s
  | .lowHalfWrite a off v => Sys2Proof.Machine.execLowHalfWrite a off v s
  | .highHalfWrite a off v => Sys2Proof.Machine.execHighHalfWrite a off v s
  | .markerForward unit => Sys2Proof.Machine.execMarkerForward unit s
  | .clkHostRequest d => Sys2Proof.Machine.execClkHostRequest d s
  | .clkFwRequest d => Sys2Proof.Machine.execClkFwRequest d s
  | .arrayClockHold => Sys2Proof.Machine.execArrayClockHold s
  | .arrayClockResume => Sys2Proof.Machine.execArrayClockResume s
  | .deferredDividerChange => Sys2Proof.Machine.execDeferredDividerChange s
  | .refLost => Sys2Proof.Machine.execRefLost s
  | .refReturn => Sys2Proof.Machine.execRefReturn s
  | .pllRelock => Sys2Proof.Machine.execPllRelock s
  | .pllUnlock => Sys2Proof.Machine.execPllUnlock s
  | .holdoverDeadline => Sys2Proof.Machine.execHoldoverDeadline s
  | .refHostPresent => Sys2Proof.Machine.execRefHostPresent s
  | .refAutoTimeout => Sys2Proof.Machine.execRefAutoTimeout s
  | .moduleRailRelease pins => Sys2Proof.Machine.execModuleRailRelease pins s
  | .pllLock => Sys2Proof.Machine.execPllLock s
  | .pllLockTimeout => Sys2Proof.Machine.execPllLockTimeout s
  | .domainRelease d => Sys2Proof.Machine.execDomainRelease d s
  | .aissue u g w => Sys2Proof.Machine.execAissue u g w s
  | .arrayDescriptorAccept => Sys2Proof.Machine.execArrayDescriptorAccept s
  | .operationStart => Sys2Proof.Machine.execOperationStart s
  | .arrayOperandArrival => Sys2Proof.Machine.execArrayOperandArrival s
  | .cellTailEnd => Sys2Proof.Machine.execCellTailEnd s
  | .drainStart => Sys2Proof.Machine.execDrainStart s
  | .drainEnd => Sys2Proof.Machine.execDrainEnd s
  | .completionWordAccepted => Sys2Proof.Machine.execCompletionWordAccepted s
  | .chainWaitExpiry => Sys2Proof.Machine.execChainWaitExpiry s
  | .chainSpillEnd => Sys2Proof.Machine.execChainSpillEnd s
  | .chainFillEnd => Sys2Proof.Machine.execChainFillEnd s
  | .arraySequencerReady => Sys2Proof.Machine.execArraySequencerReady s
  | .samplePoint => Sys2Proof.Machine.execSamplePoint s
  | .sampleFinish => Sys2Proof.Machine.execSampleFinish s
  | .amaxReport => Sys2Proof.Machine.execAmaxReport s
  | .poisonSource => Sys2Proof.Machine.execPoisonSource s
  | .rissue u g w => Sys2Proof.Machine.execRissue u g w s
  | .rowDescriptorAccept => Sys2Proof.Machine.execRowDescriptorAccept s
  | .rowOperationStart t => Sys2Proof.Machine.execRowOperationStart t s
  | .rowChunkStart q => Sys2Proof.Machine.execRowChunkStart q s
  | .rowChunkEnd q => Sys2Proof.Machine.execRowChunkEnd q s
  | .rowOperationEnd t => Sys2Proof.Machine.execRowOperationEnd t s
  | .spindleReady => Sys2Proof.Machine.execSpindleReady s
  | .stepOpen t r => Sys2Proof.Machine.execStepOpen t r s
  | .stepCommit t r => Sys2Proof.Machine.execStepCommit t r s
  | .updateStart t => Sys2Proof.Machine.execUpdateStart t s
  | .updateResume t => Sys2Proof.Machine.execUpdateResume t s
  | .optimiserPassEnd t => Sys2Proof.Machine.execOptimiserPassEnd t s
  | .quantiserPassEnd t => Sys2Proof.Machine.execQuantiserPassEnd t s
  | .commitPoint t => Sys2Proof.Machine.execCommitPoint t s
  | .stepCancel t r => Sys2Proof.Machine.execStepCancel t r s
  | .updateEngineReady => Sys2Proof.Machine.execUpdateEngineReady s
  | .iadd u g w => Sys2Proof.Machine.execIadd u g w s
  | .isub u g w => Sys2Proof.Machine.execIsub u g w s
  | .imul u g w => Sys2Proof.Machine.execImul u g w s
  | .imad u g w => Sys2Proof.Machine.execImad u g w s
  | .imin u g w => Sys2Proof.Machine.execImin u g w s
  | .imax u g w => Sys2Proof.Machine.execImax u g w s
  | .ishl u g w => Sys2Proof.Machine.execIshl u g w s
  | .ishr u g w => Sys2Proof.Machine.execIshr u g w s
  | .and u g w => Sys2Proof.Machine.execAnd u g w s
  | .or u g w => Sys2Proof.Machine.execOr u g w s
  | .xor u g w => Sys2Proof.Machine.execXor u g w s
  | .not u g w => Sys2Proof.Machine.execNot u g w s
  | .mov u g w => Sys2Proof.Machine.execMov u g w s
  | .sel u g w => Sys2Proof.Machine.execSel u g w s
  | .icmp u g w => Sys2Proof.Machine.execIcmp u g w s
  | .popc u g w => Sys2Proof.Machine.execPopc u g w s
  | .shfl u g w => Sys2Proof.Machine.execShfl u g w s
  | .vote u g w => Sys2Proof.Machine.execVote u g w s
  | .sreg u g w => Sys2Proof.Machine.execSreg u g w s
  | .movi u g w => Sys2Proof.Machine.execMovi u g w s
  | .fadd u g w => Sys2Proof.Machine.execFadd u g w s
  | .fmul u g w => Sys2Proof.Machine.execFmul u g w s
  | .ffma u g w => Sys2Proof.Machine.execFfma u g w s
  | .fmin u g w => Sys2Proof.Machine.execFmin u g w s
  | .fmax u g w => Sys2Proof.Machine.execFmax u g w s
  | .fcmp u g w => Sys2Proof.Machine.execFcmp u g w s
  | .fdiv u g w => Sys2Proof.Machine.execFdiv u g w s
  | .fsqrt u g w => Sys2Proof.Machine.execFsqrt u g w s
  | .frsq u g w => Sys2Proof.Machine.execFrsq u g w s
  | .fexp2 u g w => Sys2Proof.Machine.execFexp2 u g w s
  | .flog2 u g w => Sys2Proof.Machine.execFlog2 u g w s
  | .fabs u g w => Sys2Proof.Machine.execFabs u g w s
  | .bra u g w => Sys2Proof.Machine.execBra u g w s
  | .call u g w => Sys2Proof.Machine.execCall u g w s
  | .ret u g w => Sys2Proof.Machine.execRet u g w s
  | .exit u g w => Sys2Proof.Machine.execExit u g w s
  | .nop u g w => Sys2Proof.Machine.execNop u g w s
  | .fenceGroup u g w => Sys2Proof.Machine.execFenceGroup u g w s
  | .fenceBlock u g w => Sys2Proof.Machine.execFenceBlock u g w s
  | .fenceDevice u g w => Sys2Proof.Machine.execFenceDevice u g w s
  | .fenceSystem u g w => Sys2Proof.Machine.execFenceSystem u g w s
  | .ldl u g w => Sys2Proof.Machine.execLdl u g w s
  | .stl u g w => Sys2Proof.Machine.execStl u g w s
  | .ld u g w => Sys2Proof.Machine.execLd u g w s
  | .st u g w => Sys2Proof.Machine.execSt u g w s
  | .loadReturn u k => Sys2Proof.Machine.execLoadReturn u k s
  | .tableWalkEnd k f => Sys2Proof.Machine.execTableWalkEnd k f s
  | .ldr u g w => Sys2Proof.Machine.execLdr u g w s
  | .str u g w => Sys2Proof.Machine.execStr u g w s
  | .twait u g w => Sys2Proof.Machine.execTwait u g w s
  | .tokenCompletion u => Sys2Proof.Machine.execTokenCompletion u s
  | .cvt u g w => Sys2Proof.Machine.execCvt u g w s
  | .qblk u g w => Sys2Proof.Machine.execQblk u g w s
  | .rand u g w => Sys2Proof.Machine.execRand u g w s
  | .atom u g w => Sys2Proof.Machine.execAtom u g w s
  | .barg u g w => Sys2Proof.Machine.execBarg u g w s
  | .barm u g w => Sys2Proof.Machine.execBarm u g w s
  | .barb u g w => Sys2Proof.Machine.execBarb u g w s
  | .spoison u g w => Sys2Proof.Machine.execSpoison u g w s
  | .barrierWatchdogExpiry u k => Sys2Proof.Machine.execBarrierWatchdogExpiry u k s
  | .repackWaitExpiry u g => Sys2Proof.Machine.execRepackWaitExpiry u g s
  | .blockPlace l u => Sys2Proof.Machine.execBlockPlace l u s
  | .launchComplete l => Sys2Proof.Machine.execLaunchComplete l s
  | .launchStop l => Sys2Proof.Machine.execLaunchStop l s
  | .blockPreempt u l b => Sys2Proof.Machine.execBlockPreempt u l b s
  | .blockResume u l b => Sys2Proof.Machine.execBlockResume u l b s
  | .tumblerReady u => Sys2Proof.Machine.execTumblerReady u s
  | .translationMarker unit => Sys2Proof.Machine.execTranslationMarker unit s
  | .isolationMarker unit => Sys2Proof.Machine.execIsolationMarker unit s
  | .slicemapWrite ix v => Sys2Proof.Machine.execSlicemapWrite ix v s
  | .slicemapChangeEnd => Sys2Proof.Machine.execSlicemapChangeEnd s
  | .partitionApply => Sys2Proof.Machine.execPartitionApply s
  | .partitionApplyEnd => Sys2Proof.Machine.execPartitionApplyEnd s
  | .lineFillEnd q k f gens => Sys2Proof.Machine.execLineFillEnd q k f gens s
  | .writebackAccepted q k f gens => Sys2Proof.Machine.execWritebackAccepted q k f gens s
  | .reductionRequest q => Sys2Proof.Machine.execReductionRequest q s
  | .reductionExecute q => Sys2Proof.Machine.execReductionExecute q s
  | .evictionLockRelease q => Sys2Proof.Machine.execEvictionLockRelease q s
  | .cstWriteBack => Sys2Proof.Machine.execCstWriteBack s
  | .cstFlush => Sys2Proof.Machine.execCstFlush s
  | .cstDeadMark => Sys2Proof.Machine.execCstDeadMark s
  | .cstPin => Sys2Proof.Machine.execCstPin s
  | .cstUnpin => Sys2Proof.Machine.execCstUnpin s
  | .rangeOpEnd => Sys2Proof.Machine.execRangeOpEnd s
  | .storeScrub q granule f => Sys2Proof.Machine.execStoreScrub q granule f s
  | .deadReadsClear t => Sys2Proof.Machine.execDeadReadsClear t s
  | .storeReady q => Sys2Proof.Machine.execStoreReady q s
  | .hbmTrainingEnd failed => Sys2Proof.Machine.execHbmTrainingEnd failed s
  | .hbmInitGo => Sys2Proof.Machine.execHbmInitGo s
  | .hbmInitEnd => Sys2Proof.Machine.execHbmInitEnd s
  | .protectionClassChange g corrected => Sys2Proof.Machine.execProtectionClassChange g corrected s
  | .hbmScrubRead granule f gens => Sys2Proof.Machine.execHbmScrubRead granule f gens s
  | .scrubPassEnd => Sys2Proof.Machine.execScrubPassEnd s
  | .hbmTempRead stack t => Sys2Proof.Machine.execHbmTempRead stack t s
  | .mapoutGo ch => Sys2Proof.Machine.execMapoutGo ch s
  | .relayoutEnd lost gens => Sys2Proof.Machine.execRelayoutEnd lost gens s
  | .frozenStageEnd data => Sys2Proof.Machine.execFrozenStageEnd data s
  | .frozenRestoreCopyEnd => Sys2Proof.Machine.execFrozenRestoreCopyEnd s
  | .alloc t r => Sys2Proof.Machine.execAlloc t r s
  | .free t r => Sys2Proof.Machine.execFree t r s
  | .query t r => Sys2Proof.Machine.execQuery t r s
  | .constrain t r => Sys2Proof.Machine.execConstrain t r s
  | .frozenLoad t r => Sys2Proof.Machine.execFrozenLoad t r s
  | .boundaryWork t badFrames => Sys2Proof.Machine.execBoundaryWork t badFrames s
  | .flitReceive p f => Sys2Proof.Machine.execFlitReceive p f s
  | .portTrainingEnd p res => Sys2Proof.Machine.execPortTrainingEnd p res s
  | .authFragment p frag => Sys2Proof.Machine.execAuthFragment p frag s
  | .swHello p chainOk sigOk => Sys2Proof.Machine.execSwHello p chainOk sigOk s
  | .swDone p => Sys2Proof.Machine.execSwDone p s
  | .authAbort p => Sys2Proof.Machine.execAuthAbort p s
  | .authTimeout p => Sys2Proof.Machine.execAuthTimeout p s
  | .inboundRead p => Sys2Proof.Machine.execInboundRead p s
  | .inboundWrite p => Sys2Proof.Machine.execInboundWrite p s
  | .inboundReduce p => Sys2Proof.Machine.execInboundReduce p s
  | .inboundAtomic p => Sys2Proof.Machine.execInboundAtomic p s
  | .inboundSignal p => Sys2Proof.Machine.execInboundSignal p s
  | .inboundMcastWrite p => Sys2Proof.Machine.execInboundMcastWrite p s
  | .readRsp p => Sys2Proof.Machine.execReadRsp p s
  | .ack p => Sys2Proof.Machine.execAck p s
  | .atomicRsp p => Sys2Proof.Machine.execAtomicRsp p s
  | .nack p => Sys2Proof.Machine.execNack p s
  | .nodeAssign p => Sys2Proof.Machine.execNodeAssign p s
  | .announce p => Sys2Proof.Machine.execAnnounce p s
  | .peerMarker e => Sys2Proof.Machine.execPeerMarker e s
  | .teardown p => Sys2Proof.Machine.execTeardown p s
  | .feedAlert p => Sys2Proof.Machine.execFeedAlert p s
  | .partner p => Sys2Proof.Machine.execPartner p s
  | .sfWard p => Sys2Proof.Machine.execSfWard p s
  | .remoteTimeout reqId => Sys2Proof.Machine.execRemoteTimeout reqId s
  | .atomicRetry reqId => Sys2Proof.Machine.execAtomicRetry reqId s
  | .outcomeUnknown reqId => Sys2Proof.Machine.execOutcomeUnknown reqId s
  | .receiptExpiry p => Sys2Proof.Machine.execReceiptExpiry p s
  | .transfer t r => Sys2Proof.Machine.execTransfer t r s
  | .transferEnd e => Sys2Proof.Machine.execTransferEnd e s
  | .fabricReady => Sys2Proof.Machine.execFabricReady s
  | .barActivate t r => Sys2Proof.Machine.execBarActivate t r s
  | .barMembers t r => Sys2Proof.Machine.execBarMembers t r s
  | .barClose t r => Sys2Proof.Machine.execBarClose t r s
  | .barrierTimeout slot => Sys2Proof.Machine.execBarrierTimeout slot s
  | .synReady => Sys2Proof.Machine.execSynReady s
  | .sqTailWrite t r v => Sys2Proof.Machine.execSqTailWrite t r v s
  | .sqFetchEnd q entries ok => Sys2Proof.Machine.execSqFetchEnd q entries ok s
  | .cqHeadWrite t r v => Sys2Proof.Machine.execCqHeadWrite t r v s
  | .completionRecordWrite q ok => Sys2Proof.Machine.execCompletionRecordWrite q ok s
  | .ringResume t r => Sys2Proof.Machine.execRingResume t r s
  | .ringFlush t r => Sys2Proof.Machine.execRingFlush t r s
  | .faultHeadWrite t v => Sys2Proof.Machine.execFaultHeadWrite t v s
  | .nopCommand t r => Sys2Proof.Machine.execNopCommand t r s
  | .launch t r => Sys2Proof.Machine.execLaunch t r s
  | .hostCopy t r data ok => Sys2Proof.Machine.execHostCopy t r data ok s
  | .wait t r => Sys2Proof.Machine.execWait t r s
  | .waitTimeout t r idx => Sys2Proof.Machine.execWaitTimeout t r idx s
  | .signal t r => Sys2Proof.Machine.execSignal t r s
  | .numericPolicy t r => Sys2Proof.Machine.execNumericPolicy t r s
  | .deadMark t r => Sys2Proof.Machine.execDeadMark t r s
  | .abort t r => Sys2Proof.Machine.execAbort t r s
  | .tenantCreate block ward streams ok => Sys2Proof.Machine.execTenantCreate block ward streams ok s
  | .tenantReset rest => Sys2Proof.Machine.execTenantReset rest s
  | .cqCreate => Sys2Proof.Machine.execCqCreate s
  | .sqCreate => Sys2Proof.Machine.execSqCreate s
  | .ringDelete => Sys2Proof.Machine.execRingDelete s
  | .wardUpdate image ok => Sys2Proof.Machine.execWardUpdate image ok s
  | .tenantAbort => Sys2Proof.Machine.execTenantAbort s
  | .adminDoorbell v => Sys2Proof.Machine.execAdminDoorbell v s
  | .adminRingEnable v => Sys2Proof.Machine.execAdminRingEnable v s
  | .adminResume => Sys2Proof.Machine.execAdminResume s
  | .adminFlush => Sys2Proof.Machine.execAdminFlush s
  | .bar4Access off write data => Sys2Proof.Machine.execBar4Access off write data s
  | .configRetryEnd => Sys2Proof.Machine.execConfigRetryEnd s
  | .hostLinkDown => Sys2Proof.Machine.execHostLinkDown s
  | .hostLinkUp rate width flit => Sys2Proof.Machine.execHostLinkUp rate width flit s
  | .linkHoldExpiry => Sys2Proof.Machine.execLinkHoldExpiry s
  | .pcieReset k pins => Sys2Proof.Machine.execPcieReset k pins s
  | .raise a src => Sys2Proof.Machine.execRaise a src s
  | .maskSet a ix v => Sys2Proof.Machine.execMaskSet a ix v s
  | .maskClr a ix v => Sys2Proof.Machine.execMaskClr a ix v s
  | .pendSet a ix v => Sys2Proof.Machine.execPendSet a ix v s
  | .pendClr a ix v => Sys2Proof.Machine.execPendClr a ix v s
  | .interruptDelivery ctl => Sys2Proof.Machine.execInterruptDelivery ctl s
  | .heldVectorRelease ctl vec => Sys2Proof.Machine.execHeldVectorRelease ctl vec s
  | .icuReady => Sys2Proof.Machine.execIcuReady s
  | .checkStart a u v => Sys2Proof.Machine.execCheckStart a u v s
  | .checkFinish a u => Sys2Proof.Machine.execCheckFinish a u s
  | .checkAbort a u => Sys2Proof.Machine.execCheckAbort a u s
  | .checkOwnerAssign u owner => Sys2Proof.Machine.execCheckOwnerAssign u owner s
  | .feedB a u v => Sys2Proof.Machine.execFeedB a u v s
  | .feedH a u v => Sys2Proof.Machine.execFeedH a u v s
  | .feedW a u v => Sys2Proof.Machine.execFeedW a u v s
  | .checkFeedProcess u => Sys2Proof.Machine.execCheckFeedProcess u s
  | .checkComplete u => Sys2Proof.Machine.execCheckComplete u s
  | .healthInput h => Sys2Proof.Machine.execHealthInput h s
  | .riskHoldExpiry ix => Sys2Proof.Machine.execRiskHoldExpiry ix s
  | .secureRequest v => Sys2Proof.Machine.execSecureRequest v s
  | .securingStart t => Sys2Proof.Machine.execSecuringStart t s
  | .drainBlockEnd t layer other ok => Sys2Proof.Machine.execDrainBlockEnd t layer other ok s
  | .drainWaitExpiry t => Sys2Proof.Machine.execDrainWaitExpiry t s
  | .restoreGo v desc binds => Sys2Proof.Machine.execRestoreGo v desc binds s
  | .restoreStepEnd data code => Sys2Proof.Machine.execRestoreStepEnd data code s
  | .journalRecordRequest rec => Sys2Proof.Machine.execJournalRecordRequest rec s
  | .coalesceExpiry t => Sys2Proof.Machine.execCoalesceExpiry t s
  | .journalCopyAVerified jseq => Sys2Proof.Machine.execJournalCopyAVerified jseq s
  | .journalRecordCommitted jseq => Sys2Proof.Machine.execJournalRecordCommitted jseq s
  | .journalScrub weak => Sys2Proof.Machine.execJournalScrub weak s
  | .durableStoreStart => Sys2Proof.Machine.execDurableStoreStart s
  | .wearBudgetUpdate => Sys2Proof.Machine.execWearBudgetUpdate s
  | .powerSample p => Sys2Proof.Machine.execPowerSample p s
  | .inputLow => Sys2Proof.Machine.execInputLow s
  | .inputHigh => Sys2Proof.Machine.execInputHigh s
  | .droopWarning => Sys2Proof.Machine.execDroopWarning s
  | .droopRecovery => Sys2Proof.Machine.execDroopRecovery s
  | .resetLevel => Sys2Proof.Machine.execResetLevel s
  | .resetRecordsComplete => Sys2Proof.Machine.execResetRecordsComplete s
  | .inputStable => Sys2Proof.Machine.execInputStable s
  | .holdupCharged => Sys2Proof.Machine.execHoldupCharged s
  | .holdupTestEnd us => Sys2Proof.Machine.execHoldupTestEnd us s
  | .holdupRetest us => Sys2Proof.Machine.execHoldupRetest us s
  | .railPowerGood => Sys2Proof.Machine.execRailPowerGood s
  | .railTimeout => Sys2Proof.Machine.execRailTimeout s
  | .railRetry => Sys2Proof.Machine.execRailRetry s
  | .railsDown => Sys2Proof.Machine.execRailsDown s
  | .pwrEnOpen => Sys2Proof.Machine.execPwrEnOpen s
  | .bootStage e => Sys2Proof.Machine.execBootStage e s
  | .trialExpiry => Sys2Proof.Machine.execTrialExpiry s
  | .keeperWatchdogExpiry => Sys2Proof.Machine.execKeeperWatchdogExpiry s
  | .entropyFail => Sys2Proof.Machine.execEntropyFail s
  | .mbxGo fromHost v => Sys2Proof.Machine.execMbxGo fromHost v s
  | .status => Sys2Proof.Machine.execStatus s
  | .measure => Sys2Proof.Machine.execMeasure s
  | .certGet => Sys2Proof.Machine.execCertGet s
  | .attest sig => Sys2Proof.Machine.execAttest sig s
  | .extend => Sys2Proof.Machine.execExtend s
  | .stage manifest verified cutOff => Sys2Proof.Machine.execStage manifest verified cutOff s
  | .activate => Sys2Proof.Machine.execActivate s
  | .confirm => Sys2Proof.Machine.execConfirm s
  | .anchorSet => Sys2Proof.Machine.execAnchorSet s
  | .debugToken accepted token => Sys2Proof.Machine.execDebugToken accepted token s
  | .grant => Sys2Proof.Machine.execGrant s
  | .revoke => Sys2Proof.Machine.execRevoke s
  | .wardWrite => Sys2Proof.Machine.execWardWrite s
  | .domainSet => Sys2Proof.Machine.execDomainSet s
  | .frozenDigest => Sys2Proof.Machine.execFrozenDigest s
  | .frozenRestore => Sys2Proof.Machine.execFrozenRestore s
  | .snapGo a => Sys2Proof.Machine.execSnapGo a s
  | .snapshotMarker unit => Sys2Proof.Machine.execSnapshotMarker unit s
  | .snapshotComplete => Sys2Proof.Machine.execSnapshotComplete s
  | .telemetryPeriod hostOk temps => Sys2Proof.Machine.execTelemetryPeriod hostOk temps s
  | .strapCompare pins => Sys2Proof.Machine.execStrapCompare pins s
  | .thermalRead temps => Sys2Proof.Machine.execThermalRead temps s
  | .thermalReliefExpiry => Sys2Proof.Machine.execThermalReliefExpiry s
  | .coolDownExpiry => Sys2Proof.Machine.execCoolDownExpiry s
  | .setEndpointId b eid => Sys2Proof.Machine.execSetEndpointId b eid s
  | .getEndpointId b => Sys2Proof.Machine.execGetEndpointId b s
  | .getEndpointUuid b => Sys2Proof.Machine.execGetEndpointUuid b s
  | .getMctpVersionSupport b mtype => Sys2Proof.Machine.execGetMctpVersionSupport b mtype s
  | .getMessageTypeSupport b => Sys2Proof.Machine.execGetMessageTypeSupport b s
  | .getVendorMessageSupport b => Sys2Proof.Machine.execGetVendorMessageSupport b s
  | .settid b tid => Sys2Proof.Machine.execSettid b tid s
  | .gettid b => Sys2Proof.Machine.execGettid b s
  | .getpldmversion b ptype => Sys2Proof.Machine.execGetpldmversion b ptype s
  | .getpldmtypes b => Sys2Proof.Machine.execGetpldmtypes b s
  | .getpldmcommands b ptype => Sys2Proof.Machine.execGetpldmcommands b ptype s
  | .getpdrrepositoryinfo b => Sys2Proof.Machine.execGetpdrrepositoryinfo b s
  | .getpdr b handle => Sys2Proof.Machine.execGetpdr b handle s
  | .getsensorreading b id => Sys2Proof.Machine.execGetsensorreading b id s
  | .getstatesensorreadings b id => Sys2Proof.Machine.execGetstatesensorreadings b id s
  | .pollforplatformeventmessage b => Sys2Proof.Machine.execPollforplatformeventmessage b s
  | .telemetryGet b => Sys2Proof.Machine.execTelemetryGet b s
  | .powerStatus b => Sys2Proof.Machine.execPowerStatus b s
  | .strapsGet b pins => Sys2Proof.Machine.execStrapsGet b pins s
  | .unsupportedSidebandMessage b mtype cmd => Sys2Proof.Machine.execUnsupportedSidebandMessage b mtype cmd s
  | .minClear => Sys2Proof.Machine.execMinClear s
  | .pwrEnClose => Sys2Proof.Machine.execPwrEnClose s
  | .inputNormal => Sys2Proof.Machine.execInputNormal s
  | .hbmRefresh ch bank => Sys2Proof.Machine.execHbmRefresh ch bank s
  | .interruptTaken core => Sys2Proof.Machine.execInterruptTaken core s
  | .bucketRefill => Sys2Proof.Machine.execBucketRefill s
  | .hostCopyEnd t r idx ok => Sys2Proof.Machine.execHostCopyEnd t r idx ok s
  | .frozenLoadEnd t r idx data code => Sys2Proof.Machine.execFrozenLoadEnd t r idx data code s
  | .classChangeEnd => Sys2Proof.Machine.execClassChangeEnd s
  | .dynamicAddressAssignment addr => Sys2Proof.Machine.execDynamicAddressAssignment addr s

end Sys2Proof.Machine
end

