-- ==== Sys2Proof/Safety.lean ====
section
/-! DEFINITION. What claims about the module are made of: a command that runs, what a command leaves alone, and the invariant
that every step keeps. -/

namespace Sys2Proof.Machine

/-- The command runs on the state and leaves a next state of which `P` holds. -/
def Runs (c : Instr) (s : State) (P : State → Prop) : Prop := ∃ t, exec c s = .next t ∧ P t

/-- The memories keep their canonical form: addresses strictly rising, and no entry equal to what an unlisted one reads as. -/
def Memory.wf (m : Mem) : Bool :=
  (KMap.rising m.hbm && KMap.noDefault m.hbm 0) && (KMap.rising m.scratch && KMap.noDefault m.scratch 0) &&
    ((KMap.rising m.hbmPoison && KMap.noDefault m.hbmPoison false) &&
      (KMap.rising m.scratchPoison && KMap.noDefault m.scratchPoison false))

/-- The fuses only burn (R457): what is burned at manufacture stands, and the security version and the mark of use never go back. -/
def Fuses.kept (a b : Fuses) : Prop :=
  b.rootDigest = a.rootDigest ∧ b.secret = a.secret ∧ b.debug = a.debug ∧ a.svn ≤ b.svn ∧ (a.used = true → b.used = true)

/-- The invariant of the module's stores: the registers and the two memories are in canonical form. -/
def State.Canonical (s : State) : Prop := KMap.rising s.regs = true ∧ Memory.wf s.mem = true

/-- A register whose writes have rules of their own: a route, whose owner decides, and a check unit's feed. -/
def Reg.own : Reg → Bool
  | .icuRoute _ => true
  | .chkFeedW _ => true
  | _ => false

/-- A command of opcode `op` that runs when its ring's turn comes: the entry is the next of ring `r` of tenant `t`, its ring is the
scheduler's next, its reserved fields are 0, no other entry bears its number, and no wait stands met or bears it. -/
abbrev State.mayRun (s : State) (t r op : Nat) (e : Entry) : Prop :=
  s.has F.hifStatusReady = true ∧ s.turn = some (t, r) ∧ s.startable t r = some e ∧ e.opc = op ∧ e.reservedOk = true ∧
    s.entry? t r e.cid = some e ∧
    (∀ w ∈ s.waits, w.met = none ∧ ¬(w.tenant = t ∧ w.ring = r ∧ w.cid = e.cid))

/-- The same of the admin ring. -/
abbrev State.mayAdmin (s : State) (op : Nat) (e : Entry) : Prop :=
  s.has F.hifStatusReady = true ∧ s.startable adminOwner 0 = some e ∧ e.opc = op ∧ e.reservedOk = true ∧
    s.entry? adminOwner 0 e.cid = some e ∧
    (∀ w ∈ s.waits, w.met = none ∧ ¬(w.tenant = adminOwner ∧ w.ring = 0 ∧ w.cid = e.cid))

/-- The state in which a command's own effect begins: the scheduler's turn is passed on and the entry is started. -/
def State.begun (s : State) (t r : Nat) (e : Entry) : State :=
  (s.passTurn t r).modEntry t r e.cid fun x => { x with phase := .started }

/-- The same of a command of the admin ring. -/
def State.begunAdmin (s : State) (e : Entry) : State := s.modEntry adminOwner 0 e.cid fun x => { x with phase := .started }

/-- How the command `cid` of a ring has ended: its status and its two results; none while it has not. -/
def State.outcome (s : State) (o r cid : Nat) : Option (Nat × Nat × Nat) :=
  (s.entry? o r cid).bind fun e => if e.ended then some (e.status, e.result0, e.result1) else none

/-! ### What a tumbler instruction issues with, and what it reads and writes (R170, R178, R181) -/

/-- The launch of a group and the constituents that issue with it, gathering settled; and the state then. -/
def State.issueOf (s : State) (u g : Nat) (w : IWord) : Option (State × Ctx) :=
  ((s.group? u g).bind fun x => s.launch? x.launch).map fun l =>
    ((s.members u g l w).1, { u := u, l := l, w := w, ms := (s.members u g l w).2 })

def State.gathered (s : State) (u g : Nat) (w : IWord) : State := ((s.issueOf u g w).map (·.1)).getD s

/-- Whether the fetch of constituents' instruction meets no fault. -/
def State.fetchOk (s : State) (c : Ctx) : Bool :=
  match s.translate (tumblerUnit c.u) tlbTumbler c.l.tenant (s.pcOf' c.u c.ms) false true with
  | (s', .pa pa) => !s'.poisoned pa 8 && !s'.unlisted c pa
  | _ => false

/-- An instruction of form `f` of group `g` of tumbler `u` issues as `c`: the load is not cut, the group has it next with at least one constituent, no
source of the form is awaited, `ok` holds, and its fetch meets no fault. -/
abbrev State.issues (s : State) (u g : Nat) (w : IWord) (f : Form) (ok : State → Ctx → Bool) (c : Ctx) : Prop :=
  s.pwr.cut = false ∧ (s.issueOf u g w).map (·.2) = some c ∧ c.ms ≠ [] ∧ (c.ms.map (·.slot)).Nodup ∧ (s.gathered u g w).awaits c f = false ∧
    ok (s.gathered u g w) c = true ∧ (s.gathered u g w).fetchOk c = true

/-- The state in which the instruction's own effect begins: fetched and counted, its constituents past it. -/
def State.fetched (s : State) (u g : Nat) (w : IWord) (f : Form) (c : Ctx) : State :=
  let s := s.gathered u g w
  match s.translate (tumblerUnit u) tlbTumbler c.l.tenant (s.pcOf' u c.ms) false true with
  | (s, .fault _ _) => s
  | (s, .pa pa) =>
    let waits := ((c.ms.head?.bind fun m => s.group? u m.slot).map fun x => bankWaits x.cache f).getD 0
    let s := (s.readAs pa 8 c.l.tenant (tumblerUnit u) false).count (tumblerUnit u) 1 1
    let s := s.count (tumblerUnit u) 2 (sumNat (c.ms.map fun m => popcount 32 m.act))
    (s.count (tumblerUnit u) 4 waits).advance c f

/-- Lane `l` of register `n` of the group in slot `g`, of registers below `lim`. -/
def State.laneOf (s : State) (u g lim n l : Nat) : Nat := ((s.group? u g).map fun x => x.lane lim n l).getD 0

/-- The value in `k` registers from `n` of that lane, the first lowest. -/
def State.wideOf (s : State) (u g lim n k l : Nat) : Nat := ((s.group? u g).map fun x => x.wide lim n k l).getD 0

/-- Predicate `n` of that lane. -/
def State.predOf (s : State) (u g n l : Nat) : Bool := bit (((s.group? u g).map fun x => KMap.get x.preds n 0).getD 0) l

/-- The width of an integer instruction (MOD bit 1), and its operand: one register, or a pair. -/
def intBits (w : IWord) : Nat := if w.mod.toNat.testBit 1 then 64 else 32
def State.intOf (s : State) (u g lim : Nat) (w : IWord) (n l : Nat) : Nat := s.wideOf u g lim n (intSpan w) l

/-- The issuing lane of a constituent, and a source of it. -/
def State.issueAt (s : State) (c : Ctx) (m : Member) (k n : Nat) : Option (Nat × Nat) :=
  m.issuing.bind fun l => (s.group? c.u m.slot).map fun x =>
    (l, x.wide c.l.regs (if k = 0 then c.w.sa.toNat else if k = 1 then c.w.sb.toNat else c.w.sc.toNat) n l)

/-- The tumbler instructions that only compute (R179): tumbler, slot, instruction word, registers read and written, and whether MOD
holds no reserved value. -/
def computes : Instr → Option (TumblerId × SlotId × IWord × Form × Bool)
  | .iadd u g w => some (u, g, w, formOf w 2 (intSpan w), decide (w.mod.toNat ≤ 3))
  | .isub u g w => some (u, g, w, formOf w 2 (intSpan w), decide (w.mod.toNat ≤ 3))
  | .imul u g w => some (u, g, w, formOf w 2 (intSpan w), decide (w.mod.toNat ≤ 3))
  | .imad u g w => some (u, g, w, formOf w 3 (intSpan w), decide (w.mod.toNat ≤ 3))
  | .imin u g w => some (u, g, w, formOf w 2 (intSpan w), decide (w.mod.toNat ≤ 3))
  | .imax u g w => some (u, g, w, formOf w 2 (intSpan w), decide (w.mod.toNat ≤ 3))
  | .ishl u g w => some (u, g, w, formOf w 2 (intSpan w), decide (w.mod.toNat ≤ 3))
  | .ishr u g w => some (u, g, w, formOf w 2 (intSpan w), decide (w.mod.toNat ≤ 3))
  | .and u g w => some (u, g, w, formOf w 2 1, w.mod == 0)
  | .or u g w => some (u, g, w, formOf w 2 1, w.mod == 0)
  | .xor u g w => some (u, g, w, formOf w 2 1, w.mod == 0)
  | .not u g w => some (u, g, w, formOf w 1 1, w.mod == 0)
  | .mov u g w => some (u, g, w, formOf w 1 1, w.mod == 0)
  | .popc u g w => some (u, g, w, formOf w 1 1, w.mod == 0)
  | .sel u g w => some (u, g, w, formOf w 2 1, w.mod == 0)
  | .movi u g w => some (u, g, w, { srcs := [], dst := [(w.dst.toNat, 1)] }, true)
  | .shfl u g w => some (u, g, w, formOf w 2 1, decide (w.mod.toNat ≤ 3))
  | .vote u g w => some (u, g, w, formOf w 1 1, decide (w.mod.toNat ≤ 2))
  | .sreg u g w => some (u, g, w, { srcs := [], dst := [(w.dst.toNat, 1)] }, decide (w.mod.toNat ≤ 8))
  | .icmp u g w => some (u, g, w, predForm w, decide (w.mod.toNat ≤ 5))
  | .fcmp u g w => some (u, g, w, predForm w, decide (w.mod.toNat ≤ 5))
  | .fadd u g w => some (u, g, w, formOf w 2 1, decide (w.mod.toNat ≤ 1))
  | .fmul u g w => some (u, g, w, formOf w 2 1, decide (w.mod.toNat ≤ 1))
  | .ffma u g w => some (u, g, w, formOf w 3 1, decide (w.mod.toNat ≤ 1))
  | .fmin u g w => some (u, g, w, formOf w 2 1, decide (w.mod.toNat ≤ 1))
  | .fmax u g w => some (u, g, w, formOf w 2 1, decide (w.mod.toNat ≤ 1))
  | .fdiv u g w => some (u, g, w, formOf w 2 1, w.mod == 0)
  | .fsqrt u g w => some (u, g, w, formOf w 1 1, w.mod == 0)
  | .fabs u g w => some (u, g, w, formOf w 1 1, w.mod == 0)
  | .frsq u g w => some (u, g, w, formOf w 1 1, w.mod == 0)
  | .fexp2 u g w => some (u, g, w, formOf w 1 1, w.mod == 0)
  | .flog2 u g w => some (u, g, w, formOf w 1 1, w.mod == 0)
  | _ => none

/-- Whether an instruction of form `f` writes register `n` of lane `l` of a group: the group is a constituent's, the lane executes, and
the form names the register as a result. -/
def Ctx.writes (c : Ctx) (f : Form) (slot n l : Nat) : Bool :=
  (f.dst.any fun d => decide (d.1 ≤ n ∧ n < d.1 + d.2)) && c.ms.any fun m => m.slot == slot && (lanesOf m.on).contains l

/-- The same of a predicate: a form without a register result writes the predicate that DST names. -/
def Ctx.writesPred (c : Ctx) (f : Form) (slot n l : Nat) : Bool :=
  f.dst.isEmpty && n == c.w.dst.toNat && c.ms.any fun m => m.slot == slot && (lanesOf m.on).contains l

end Sys2Proof.Machine
end

