-- ==== Sys2Proof/Certificates/Slice0/Obligations.lean ====
section
/-! DEFINITION. The statements for the provers: what each command does, what it leaves alone, and what every step keeps. -/

open Sys2Proof Sys2Proof.Machine

/-- A write sets the bits its agent may set and clears W1C bits written as 1, and leaves every other register. An unsupported access applies nothing. A low-half read latches the high half for the requester, a high-half read returns the latched value and releases it, a low-half write is held with no effect, and a high-half write gives the register both halves. A marker first at a unit is forwarded once no operation that the unit has accepted is under way. -/
def Obligations.RegisterAccessesFollowTheirTypes : Prop :=
  (∀ (a : Agent) (off : Nat) (v : DWord) (r : Reg) (s : State), Reg.find off = some r → r.wide = false → channelReg r = false → r.own = false → s.unsupported a off 4 = false → Runs (.registerWrite a off false v) s fun t => t.reg r = ((s.reg r &&& ~~~ (s.setMask a r &&& 0xFFFFFFFF)) ||| (((v.setWidth 32).setWidth 64) &&& (s.setMask a r &&& 0xFFFFFFFF))) &&& ~~~ (((v.setWidth 32).setWidth 64) &&& clearMask a r &&& 0xFFFFFFFF) ∧ (∀ q : Reg, q.offset ≠ r.offset → t.reg q = s.reg q) ∧ t.mem = s.mem ∧ t.ten = s.ten) ∧
  (∀ (a : Agent) (off size : Nat) (w : Bool) (s : State), s.unsupported a off size = true → Runs (.bar0UnsupportedRequest a off size w) s fun t => t = { s with resp := .unsupported }) ∧
  (∀ (a : Agent) (off : Nat) (r : Reg) (s : State), Reg.find off = some r → r.wide = true → s.unsupported a off 4 = false → Runs (.lowHalfRead a off) s fun t => t.resp = .data ((lowHalf (s.readReg a r)).setWidth 64) ∧ findHalf t.latches a off = some (highHalf (s.readReg a r)) ∧ t.regs = s.regs) ∧
  (∀ (a : Agent) (off : Nat) (r : Reg) (v : Word) (s : State), regBase off = some r → s.unsupported a off 4 = false → findHalf s.latches a (off - 4) = some v → Runs (.highHalfRead a off) s fun t => t.resp = .data (v.setWidth 64) ∧ findHalf t.latches a (off - 4) = none ∧ t.regs = s.regs) ∧
  (∀ (a : Agent) (off : Nat) (v : Word) (r : Reg) (s : State), Reg.find off = some r → r.wide = true → s.unsupported a off 4 = false → Runs (.lowHalfWrite a off v) s fun t => findHalf t.lowHeld a off = some v ∧ t.regs = s.regs) ∧
  (∀ (a : Agent) (off : Nat) (v lo : Word) (r : Reg) (s : State), regBase off = some r → r.wide = true → r.offset + 4 = off → channelReg r = false → r.own = false → s.unsupported a off 4 = false → findHalf s.lowHeld a (off - 4) = some lo → Runs (.highHalfWrite a off v) s fun t => t.reg r = ((s.reg r &&& ~~~ (s.setMask a r)) ||| (joinHalves v lo &&& s.setMask a r)) &&& ~~~ (joinHalves v lo &&& clearMask a r)) ∧
  (∀ (u : Nat) (k x : Nat) (rest : List TreeMsg) (s : State), s.inbox u = .marker k x :: rest → s.busyAt u = false → Runs (.markerForward u) s fun t => t.inbox u = rest ∧ t.out = .marker u k x :: s.out ∧ t.regs = s.regs ∧ t.mem = s.mem) ∧
  (∀ (u : Nat) (k x : Nat) (rest : List TreeMsg) (s : State), s.inbox u = .marker k x :: rest → s.busyAt u = true → Runs (.markerForward u) s fun t => t = s)

/-- A change of the slowest divider request starts a step, which holds the array clock, starts it at the new divider and takes a deferred change. Loss of the reference or of lock enters holdover, relocking with the reference present ends it, a deadline starts the clock-loss reset. The reference is chosen by mode, host presence or the Auto time-out. Rails, lock and domains start in order. Where a health input follows, the state is told apart before it. -/
def Obligations.ClocksStepAndHold : Prop :=
  (∀ (d : BitVec 2) (s : State), s.clk.step = .idle → max (divider d.toNat) (max (divider (s.rd F.clkArrdivFwReq)) (divider (s.rd F.clkArrdivPwrFloor))) ≠ s.rd F.clkArrdivEffective → Runs (.clkHostRequest d) s fun t => t.clk.step = .waiting ∧ t.rd F.clkArrdivEffective = max (divider d.toNat) (max (divider (s.rd F.clkArrdivFwReq)) (divider (s.rd F.clkArrdivPwrFloor))) ∧ t.has F.clkStatusArrStepping = true ∧ t.mem = s.mem ∧ t.ten = s.ten) ∧
  (∀ (d : BitVec 2) (s : State), s.clk.step = .idle → max (divider (s.rd F.clkArrdivHostReq)) (max (divider d.toNat) (divider (s.rd F.clkArrdivPwrFloor))) ≠ s.rd F.clkArrdivEffective → Runs (.clkFwRequest d) s fun t => t.clk.step = .waiting ∧ t.rd F.clkArrdivEffective = max (divider (s.rd F.clkArrdivHostReq)) (max (divider d.toNat) (divider (s.rd F.clkArrdivPwrFloor))) ∧ t.has F.clkStatusArrStepping = true ∧ t.mem = s.mem ∧ t.ten = s.ten) ∧
  (∀ (s : State), s.clk.step = .waiting → Runs (.arrayClockHold) s fun t => t = { s with clk := { s.clk with step := .held } }) ∧
  (∀ (s : State), s.clk.step = .held → Runs (.arrayClockResume) s fun t => t.clk.step = .idle ∧ t.rd F.clkStatusArrDiv = s.rd F.clkArrdivEffective ∧ t.has F.clkStatusArrStepping = false ∧ t.has F.clkEventsArrStepped = true ∧ t.mem = s.mem) ∧
  (∀ (s : State), s.clk.step = .idle → s.clk.deferred = true → s.slowest ≠ s.rd F.clkArrdivEffective → Runs (.deferredDividerChange) s fun t => t.clk.step = .waiting ∧ t.clk.deferred = false ∧ t.rd F.clkArrdivEffective = s.slowest) ∧
  (∀ (s : State), s.has F.clkStatusPllLock = true → s.clk.refMissing = false → Runs (.refLost) s fun t => t.clk.refMissing = true ∧ t.has F.clkStatusHoldover = true ∧ t.has F.clkEventsRefLost = true ∧ .event 0x810 .device [] ∈ t.out ∧ t.mem = s.mem) ∧
  (∀ (s : State), s.clk.refMissing = true → s.rd F.clkStatusRefSrc ≠ 1 → Runs (.refReturn) s fun t => t = { s with clk := { s.clk with refMissing := false } }) ∧
  (∀ (s : State), s.clk.refMissing = true → s.rd F.clkStatusRefSrc = 1 → Runs (.refReturn) s fun t => t.clk = { s.clk with refMissing := false } ∧ t.has F.clkStatusRefLocalOk = true ∧ (∀ q : Reg, q.offset ≠ Reg.clkStatus.offset → t.reg q = s.reg q) ∧ t.mem = s.mem ∧ t.ten = s.ten ∧ t.out = s.out) ∧
  (∀ (s : State), s.has F.clkStatusHoldover = true → s.clk.refMissing = false → Runs (.pllRelock) s fun t => t.has F.clkStatusHoldover = false ∧ t.clk.unlocked = false ∧ t.mem = s.mem ∧ t.ten = s.ten) ∧
  (∀ (s : State), s.has F.clkStatusPllLock = true → s.clk.unlocked = false → Runs (.pllUnlock) s fun t => t.clk.unlocked = true ∧ t.has F.clkStatusHoldover = true ∧ t.has F.clkEventsPllUnlock = true ∧ .event 0x815 .device [] ∈ t.out ∧ t.mem = s.mem) ∧
  (∀ (s : State), s.has F.clkStatusHoldover = true → (s.clk.refMissing || s.clk.unlocked) = true → s.pwr.resetting = none → Runs (.holdoverDeadline) s fun t => t.has F.clkEventsClockLoss = true ∧ .event 0x811 .device [] ∈ t.out ∧ t.pwr.resetting = some 4 ∧ t.pwr.cut = true ∧ t.journal.queue = [] ∧ t.journal.run = s.journal.run) ∧
  (∀ (s : State), s.clk.rails = true → s.clk.selected = false → (s.refMode = 0 ∨ s.clk.autoWait = true) → Runs (.refHostPresent) s fun t => t.has F.clkStatusRefHostOk = true ∧ t.clk.selected = true ∧ t.clk.autoWait = false ∧ t.rd F.clkStatusRefSrc = 0 ∧ t.mem = s.mem) ∧
  (∀ (s : State), s.clk.autoWait = true → Runs (.refAutoTimeout) s fun t => t.clk.selected = true ∧ t.clk.autoWait = false ∧ t.rd F.clkStatusRefSrc = 1 ∧ t.mem = s.mem) ∧
  (∀ (p : Straps) (s : State), s.pwr.phase = .up → s.clk.rails = false → Runs (.moduleRailRelease p) s fun t => t.clk.rails = true ∧ t.clk.bypass = true ∧ t.clk.selected = (s.refMode == 1 || s.has F.clkStatusRefHostOk) ∧ t.clk.autoWait = (!t.clk.selected && s.refMode == 2) ∧ t.rd F.secBootStatusStage = 1 ∧ t.rd F.pwrStrapsPos = p.pos.toNat ∧ t.mem = s.mem) ∧
  (∀ (s : State), s.clk.rails = true → s.clk.bypass = true → s.clk.selected = true → s.has F.secBootStatusHalted = false → Runs (.pllLock) s fun t => t.clk.bypass = false ∧ t.has F.clkStatusPllLock = true ∧ t.mem = s.mem ∧ t.ten = s.ten) ∧
  (∀ (s : State), s.clk.rails = true → s.clk.bypass = true → s.clk.selected = true → s.clk.tries < 3 → Runs (.pllLockTimeout) s fun t => t.clk.tries = s.clk.tries + 1 ∧ (t.clk.tries = 3 → t.has F.secBootStatusHalted = true ∧ t.rd F.secBootStatusError = 1) ∧ t.mem = s.mem) ∧
  (∀ (d : Domain) (s : State), s.clk.rails = true → s.clk.bypass = false → domainOrder d = s.clk.released → Runs (.domainRelease d) s fun t => t.clk.released = s.clk.released + 1 ∧ (d = .array → t.has F.cntStatusReady = true) ∧ t.mem = s.mem ∧ t.ten = s.ten)

/-- With the controller ready, a raise of a source that is not reserved makes it pending and leaves every other source as it was; a raise of a reserved source sets DENIED and makes nothing pending. A window write whose bits are all of sources the agent owns sets or clears exactly those mask or pending bits, and a source that is masked or whose pending bit is cleared is held for no vector; a bit of a source the agent does not own sets DENIED and changes no mask bit. READY sets once the rails are released. A core or the keeper takes the oldest entry of its queue. -/
def Obligations.InterruptSourcesAndWindows : Prop :=
  (∀ (a : Agent) (src : BitVec 12) (s : State), s.has F.icuStatusReady = true → s.sourceOwner src.toNat ≠ 3 → Runs (.raise a src) s fun t => t.isPending src.toNat = true ∧ (∀ n, n < 4096 → n ≠ src.toNat → t.isPending n = s.isPending n) ∧ t.mem = s.mem ∧ t.ten = s.ten ∧ t.out = s.out) ∧
  (∀ (a : Agent) (src : BitVec 12) (s : State), s.has F.icuStatusReady = true → s.sourceOwner src.toNat = 3 → Runs (.raise a src) s fun t => t.isPending src.toNat = s.isPending src.toNat ∧ t.has F.icuEventsDenied = true ∧ t.mem = s.mem ∧ t.ten = s.ten ∧ t.out = s.out) ∧
  (∀ (a : Agent) (i : Fin 128) (v : Word) (s : State), (v.setWidth 64 : DWord) &&& ~~~ s.ownedBits a i 32 0 = 0 → (∀ x ∈ s.icu.held, x.2 < 2048) → Runs (.maskSet a i v) s fun t => t.reg (.icuMaskSet i) = s.reg (.icuMaskSet i) ||| v.setWidth 64 ∧ (∀ x ∈ t.icu.held, x.1 / 32 = i.val → v.getLsbD (x.1 % 32) = false) ∧ (∀ x ∈ t.icu.held, x ∈ s.icu.held) ∧ (∀ q : Reg, q.offset ≠ (Reg.icuMaskSet i).offset → q.offset ≠ Reg.icuStatus.offset → (∀ j ∈ upto 0 32, q.offset ≠ (Reg.icuPba j).offset) → t.reg q = s.reg q) ∧ t.mem = s.mem ∧ t.ten = s.ten ∧ t.out = s.out) ∧
  (∀ (a : Agent) (i : Fin 128) (v : Word) (s : State), (v.setWidth 64 : DWord) &&& ~~~ s.ownedBits a i 32 0 = 0 → Runs (.maskClr a i v) s fun t => t.reg (.icuMaskSet i) = s.reg (.icuMaskSet i) &&& ~~~ (v.setWidth 64 : DWord) ∧ (∀ q : Reg, q.offset ≠ (Reg.icuMaskSet i).offset → t.reg q = s.reg q) ∧ t.mem = s.mem ∧ t.ten = s.ten ∧ t.out = s.out) ∧
  (∀ (a : Agent) (i : Fin 128) (v : Word) (s : State), s.ownedBits a i 32 0 = 0 → v ≠ 0 → Runs (.maskClr a i v) s fun t => t.reg (.icuMaskSet i) = s.reg (.icuMaskSet i) ∧ t.has F.icuEventsDenied = true) ∧
  (∀ (a : Agent) (i : Fin 128) (v : Word) (s : State), s.has F.icuStatusReady = true → (v.setWidth 64 : DWord) &&& ~~~ s.ownedBits a i 32 0 = 0 → Runs (.pendSet a i v) s fun t => t.reg (.icuPendSet i) = s.reg (.icuPendSet i) ||| v.setWidth 64 ∧ (∀ q : Reg, q.offset ≠ (Reg.icuPendSet i).offset → t.reg q = s.reg q) ∧ t.mem = s.mem ∧ t.ten = s.ten ∧ t.out = s.out) ∧
  (∀ (a : Agent) (i : Fin 128) (v : Word) (s : State), (v.setWidth 64 : DWord) &&& ~~~ s.ownedBits a i 32 0 = 0 → (∀ x ∈ s.icu.held, x.2 < 2048) → Runs (.pendClr a i v) s fun t => t.reg (.icuPendSet i) = s.reg (.icuPendSet i) &&& ~~~ (v.setWidth 64 : DWord) ∧ (∀ x ∈ t.icu.held, x.1 / 32 = i.val → v.getLsbD (x.1 % 32) = false) ∧ (∀ x ∈ t.icu.held, x ∈ s.icu.held) ∧ t.mem = s.mem ∧ t.ten = s.ten ∧ t.out = s.out) ∧
  (∀ (s : State), s.clk.rails = true → Runs (.icuReady) s fun t => t.has F.icuStatusReady = true ∧ (∀ q : Reg, q.offset ≠ Reg.icuStatus.offset → t.reg q = s.reg q) ∧ t.mem = s.mem ∧ t.ten = s.ten ∧ t.out = s.out) ∧
  (∀ (k : Fin 8) (n : Nat) (rest : List Nat) (s : State), s.coreQ k = n :: rest → rest.length < 16 → Runs (.interruptTaken (some k)) s fun t => t.coreQ k = rest ∧ t.rd (F.icuCorePrioDepth k) = rest.length ∧ (∀ j : Fin 8, j ≠ k → t.coreQ j = s.coreQ j) ∧ t.icu.keeperQ = s.icu.keeperQ) ∧
  (∀ (s : State), Runs (.interruptTaken none) s fun t => t = { s with icu := { s.icu with keeperQ := s.icu.keeperQ.tail } })

/-- With one source pending and unmasked: routed to the keeper with room in its queue, it joins that queue behind the others and is pending no more; routed to the service cores, it joins the queue of the lowest-priority eligible core; routed to a host vector that is held back, it stays pending, is held for that vector and the vector shows in the pending bit array; routed to one that is not held back, a message of the vector goes out and it is pending no more. When a vector is released, one message goes out for it, its pending-array bit clears, and every source held for it is neither held nor pending. -/
def Obligations.InterruptDeliveries : Prop :=
  (∀ (ctl : MsixCtl) (n : Nat) (s : State), n < 4096 → (∀ w, w < 128 → s.reg (.icuPendSet w) &&& ~~~ s.reg (.icuMaskSet w) = if w = n / 32 then BitVec.ofNat 64 (2 ^ (n % 32)) else 0) → s.rd (F.icuRouteKind n) = 2 → s.icu.keeperQ.length < 32 → Runs (.interruptDelivery ctl) s fun t => t.icu.keeperQ = s.icu.keeperQ ++ [n] ∧ t.isPending n = false ∧ t.icu.coreQ = s.icu.coreQ ∧ t.icu.held = s.icu.held ∧ t.out = s.out ∧ t.mem = s.mem ∧ t.ten = s.ten) ∧
  (∀ (ctl : MsixCtl) (n k : Nat) (s : State), n < 4096 → (∀ w, w < 128 → s.reg (.icuPendSet w) &&& ~~~ s.reg (.icuMaskSet w) = if w = n / 32 then BitVec.ofNat 64 (2 ^ (n % 32)) else 0) → s.rd (F.icuRouteKind n) = 1 → s.lowestCore (s.eligible n) = some k → Runs (.interruptDelivery ctl) s fun t => t.coreQ k = s.coreQ k ++ [n] ∧ t.isPending n = false ∧ t.icu.lastCore = k ∧ t.icu.keeperQ = s.icu.keeperQ ∧ t.icu.held = s.icu.held ∧ t.out = s.out ∧ t.mem = s.mem ∧ t.ten = s.ten) ∧
  (∀ (ctl : MsixCtl) (n : Nat) (s : State), n < 4096 → (∀ w, w < 128 → s.reg (.icuPendSet w) &&& ~~~ s.reg (.icuMaskSet w) = if w = n / 32 then BitVec.ofNat 64 (2 ^ (n % 32)) else 0) → s.rd (F.icuRouteKind n) = 0 → s.vectorHeld ctl (s.vectorOf n) = true → s.icu.held.any (fun x => x.1 == n) = false → Runs (.interruptDelivery ctl) s fun t => t.icu.held = s.icu.held ++ [(n, s.vectorOf n)] ∧ t.isPending n = true ∧ (t.reg (.icuPba (s.vectorOf n / 64))).getLsbD (s.vectorOf n % 64) = true ∧ t.has F.icuStatusHostHeld = true ∧ t.out = s.out ∧ t.mem = s.mem ∧ t.ten = s.ten) ∧
  (∀ (ctl : MsixCtl) (n : Nat) (s : State), n < 4096 → (∀ w, w < 128 → s.reg (.icuPendSet w) &&& ~~~ s.reg (.icuMaskSet w) = if w = n / 32 then BitVec.ofNat 64 (2 ^ (n % 32)) else 0) → s.rd (F.icuRouteKind n) = 0 → s.vectorHeld ctl (s.vectorOf n) = false → s.icu.held.any (fun x => x.1 == n) = false → Runs (.interruptDelivery ctl) s fun t => t.out = .msix ((s.reg (.icuMsix (s.vectorOf n) 0)).toNat + 2 ^ 32 * (s.reg (.icuMsix (s.vectorOf n) 1)).toNat) (s.reg (.icuMsix (s.vectorOf n) 2)).toNat :: s.out ∧ t.isPending n = false ∧ t.icu = s.icu ∧ t.mem = s.mem ∧ t.ten = s.ten) ∧
  (∀ (ctl : MsixCtl) (vec : Fin 2048) (s : State), s.vectorHeld ctl vec = false → s.icu.held.any (fun x => x.2 == vec.val) = true → Runs (.heldVectorRelease ctl vec) s fun t => (∀ x ∈ t.icu.held, x.2 ≠ vec.val) ∧ (∀ x ∈ s.icu.held, x.2 = vec.val → x.1 < 4096 → t.isPending x.1 = false) ∧ (t.reg (.icuPba (vec.val / 64))).getLsbD (vec.val % 64) = false ∧ t.out = .msix ((s.reg (.icuMsix vec 0)).toNat + 2 ^ 32 * (s.reg (.icuMsix vec 1)).toNat) (s.reg (.icuMsix vec 2)).toNat :: s.out ∧ t.mem = s.mem ∧ t.ten = s.ten)

/-- START by the owner of an idle unit takes POLY, CMP_EN and DONE_IRQ, clears FED and RESULT and runs. A feed joins a running unit with room behind the queued ones; one to an idle unit sets STRAY. Processing folds the oldest feed and adds its length to FED, or past LEN enters ERROR. Completion gives RESULT, and a compared difference a mismatch. FINISH and ABORT act as written, and firmware assigns owners 0 and 1 of units 0 to 27. -/
def Obligations.CheckUnitsFeedAndComplete : Prop :=
  (∀ (a : Agent) (u : CheckId) (v : Word) (s : State), agentOwner a = s.chkOwner u → v.getLsbD 5 = true → v.getLsbD 7 = false → s.rd (F.chkStatusState u) ≠ 1 → s.chkOwner u = 2 → Runs (.checkStart a u v) s fun t => t.rd (F.chkStatusState u) = 1 ∧ t.has (F.chkStatusStray u) = false ∧ t.reg (.chkFed u) = 0 ∧ t.reg (.chkResult u) = 0 ∧ t.chkUnit u = ⟨[], [], (if v.getLsbD 2 then crcInit (v.extractLsb' 0 2).toNat else crcFold (v.extractLsb' 0 2).toNat (crcInit (v.extractLsb' 0 2).toNat) (leBytes 8 (s.reg (.chkTag u)).toNat)), (v.extractLsb' 0 2).toNat, v.getLsbD 3, v.getLsbD 4, false⟩ ∧ t.mem = s.mem ∧ t.ten = s.ten ∧ t.out = s.out) ∧
  (∀ (a : Agent) (u : CheckId) (s : State), agentOwner a = s.chkOwner u → s.rd (F.chkStatusState u) = 1 → s.reg (.chkLen u) = 0 → Runs (.checkFinish a u) s fun t => t.chkUnit u = { s.chkUnit u with finishing := true } ∧ t.rd (F.chkStatusState u) = 1 ∧ t.mem = s.mem ∧ t.ten = s.ten ∧ t.out = s.out) ∧
  (∀ (a : Agent) (u : CheckId) (s : State), agentOwner a = s.chkOwner u → Runs (.checkAbort a u) s fun t => t.rd (F.chkStatusState u) = 0 ∧ (t.chkUnit u).queue = [] ∧ (t.chkUnit u).waiting = [] ∧ t.rd (F.chkStatusQueue u) = 0 ∧ t.mem = s.mem ∧ t.ten = s.ten ∧ t.out = s.out) ∧
  (∀ (u : CheckId) (o : BitVec 2) (s : State), u.val < 28 → o.toNat < 2 → Runs (.checkOwnerAssign u o) s fun t => t.rd (F.chkCtrlOwner u) = o.toNat ∧ (∀ q : Reg, q.offset ≠ (Reg.chkCtrl u).offset → t.reg q = s.reg q) ∧ t.chk = s.chk ∧ t.mem = s.mem ∧ t.ten = s.ten) ∧
  (∀ (u : CheckId) (o : BitVec 2) (s : State), 28 ≤ u.val ∨ 2 ≤ o.toNat → Runs (.checkOwnerAssign u o) s fun t => t = s) ∧
  (∀ (a : Agent) (u : CheckId) (v : Byte) (s : State), agentOwner a = s.chkOwner u → s.rd (F.chkStatusState u) = 1 → (s.chkUnit u).finishing = false → (s.chkUnit u).waiting = [] → (s.chkUnit u).queue.length < 16 → Runs (.feedB a u v) s fun t => (t.chkUnit u).queue = (s.chkUnit u).queue ++ [[v]] ∧ t.rd (F.chkStatusQueue u) = (s.chkUnit u).queue.length + 1 ∧ t.reg (.chkFed u) = s.reg (.chkFed u) ∧ t.mem = s.mem) ∧
  (∀ (a : Agent) (u : CheckId) (v : Word) (s : State), agentOwner a = s.chkOwner u → s.rd (F.chkStatusState u) = 1 → (s.chkUnit u).finishing = false → (s.chkUnit u).queue.length = 16 → Runs (.feedH a u v) s fun t => (t.chkUnit u).waiting = (s.chkUnit u).waiting ++ [leBytes 4 v.toNat] ∧ (t.chkUnit u).queue = (s.chkUnit u).queue ∧ t.mem = s.mem) ∧
  (∀ (a : Agent) (u : CheckId) (v : DWord) (s : State), agentOwner a = s.chkOwner u → s.rd (F.chkStatusState u) = 1 → (s.chkUnit u).finishing = false → (s.chkUnit u).waiting = [] → (s.chkUnit u).queue.length < 16 → Runs (.feedW a u v) s fun t => (t.chkUnit u).queue = (s.chkUnit u).queue ++ [leBytes 8 v.toNat] ∧ t.mem = s.mem) ∧
  (∀ (a : Agent) (u : CheckId) (v : DWord) (s : State), agentOwner a = s.chkOwner u → s.rd (F.chkStatusState u) ≠ 1 → Runs (.feedW a u v) s fun t => t.has (F.chkStatusStray u) = true ∧ t.chk = s.chk ∧ t.mem = s.mem) ∧
  (∀ (u : CheckId) (bs : List Byte) (rest : List (List Byte)) (s : State), (s.chkUnit u).queue = bs :: rest → (s.chkUnit u).waiting = [] → s.rd (F.chkStatusState u) = 1 → s.reg (.chkLen u) = 0 → Runs (.checkFeedProcess u) s fun t => (t.chkUnit u).queue = rest ∧ (t.chkUnit u).crc = crcFold (s.chkUnit u).poly (s.chkUnit u).crc bs ∧ t.reg (.chkFed u) = s.reg (.chkFed u) + BitVec.ofNat 64 bs.length ∧ t.rd (F.chkStatusState u) = 1 ∧ t.mem = s.mem) ∧
  (∀ (u : CheckId) (bs : List Byte) (rest : List (List Byte)) (s : State), (s.chkUnit u).queue = bs :: rest → s.rd (F.chkStatusState u) = 1 → s.reg (.chkLen u) ≠ 0 → (s.reg (.chkLen u)).toNat < (s.reg (.chkFed u)).toNat + bs.length → Runs (.checkFeedProcess u) s fun t => t.chkUnit u = Chk.reset ∧ t.rd (F.chkStatusState u) = 4 ∧ t.reg (.chkFed u) = s.reg (.chkFed u) ∧ .event 0x31A (s.chkDest u) [u] ∈ t.out ∧ t.mem = s.mem) ∧
  (∀ (u : CheckId) (s : State), s.checkDue u = true → (s.chkUnit u).cmp = true → crcFinal (s.chkUnit u).poly (s.chkUnit u).crc % 2 ^ crcWidth (s.chkUnit u).poly ≠ (s.reg (.chkExpect u)).toNat % 2 ^ crcWidth (s.chkUnit u).poly → Runs (.checkComplete u) s fun t => t.rd (F.chkStatusState u) = 3 ∧ t.reg (.chkResult u) = BitVec.ofNat 64 (crcFinal (s.chkUnit u).poly (s.chkUnit u).crc) ∧ t.has (F.chkMismatchUnit.at u) = true ∧ .event 0x319 (s.chkDest u) [u] ∈ t.out ∧ t.mem = s.mem) ∧
  (∀ (u : CheckId) (s : State), s.checkDue u = true → (s.chkUnit u).cmp = false → Runs (.checkComplete u) s fun t => t.rd (F.chkStatusState u) = 2 ∧ t.reg (.chkResult u) = BitVec.ofNat 64 (crcFinal (s.chkUnit u).poly (s.chkUnit u).crc) ∧ t.out = s.out ∧ t.mem = s.mem)

/-- With room, quota and a free token slot, the first issue standing at the sequencer becomes its last queued operation with the next sequence number of its tenant, and its token table entry is taken. With nothing accumulating, the operation in turn that passes its checks starts and reads (stated of one that continues no chain, claims no draw and drains to no HN4). Operands that arrive without a fault are accumulated and the tail begins. A continuing link takes its bank from its spill area. The sequencer is ready once the array domain is out of reset. -/
def Obligations.ArraySequencerAcceptsAndStarts : Prop :=
  (∀ (u g lane dst n l slot : Nat) (desc : List Byte) (rest : List TreeMsg) (s : State), s.inbox arrayUnit = .arrIssue u g lane dst n l desc :: rest → s.has F.arrStatusReady = true → s.arr.ops.length < 512 → (s.arr.ops.filter fun o => o.tenant == n).length < s.rd (F.arrTenquotaQuota n) → (s.tumbler u).freeToken = some slot → s.arrayStops = false → Runs (.arrayDescriptorAccept) s fun t => t.inbox arrayUnit = rest ∧ t.arr.ops = s.arr.ops ++ [⟨n, KMap.get s.arr.seqs n 0 + 1, u, slot, l, desc, .queued, 0, 0, 0, [], [], [], none, [], false, [], [], [], false⟩] ∧ KMap.find (t.tumbler u).tokens slot = some ⟨n, KMap.get s.arr.seqs n 0 + 1, l, none⟩ ∧ t.rd F.arrQdepthDepth = s.arr.ops.length + 1 ∧ t.mem = s.mem ∧ t.ten = s.ten ∧ t.out = s.out) ∧
  (∀ (n : Nat) (o : ArrOp) (s : State), s.mayStart = true → s.arrTurn = some n → n < 16 → s.nextOp n = some o → ((s.chooseOp o).arrChecks o).2 = none → dAccCont o.desc = false → arrClaims o.desc = false → dOfmt o.desc ≠ 6 → s.arrayStops = false → Runs (.operationStart) s fun t => (∃ x ∈ t.arr.ops, x.tenant = n ∧ x.seq = o.seq ∧ x.phase = .reading) ∧ t.arr.ops.length = s.arr.ops.length ∧ t.rd F.arrStatusTenant = n ∧ t.has F.arrStatusRunning = true ∧ t.ten = ((s.chooseOp o).arrChecks o).1.ten) ∧
  (∀ (o : ArrOp) (r : ArrRead) (s : State), s.arr.ops.find? (fun o => o.phase == .reading) = some o → s.bankClear o = true → (s.readProblems arrayUnit tlbArray o.tenant o.desc (upto 0 (arrProblems o.desc))).2.toOption = some r → s.arrayStops = false → Runs (.arrayOperandArrival) s fun t => t.arr.ops = (s.arr.ops.map fun x => if x.tenant = o.tenant ∧ x.seq = o.seq then { x.accumulate r with phase := .tail } else x) ∧ t.mem = (s.readProblems arrayUnit tlbArray o.tenant o.desc (upto 0 (arrProblems o.desc))).1.mem ∧ t.arr.chains = s.arr.chains ∧ t.arr.path = s.arr.path) ∧
  (∀ (o : ArrOp) (k : Chain) (bs : List (List Byte)) (s : State), s.arr.ops.find? (fun o => o.phase == .filling && s.bankClear o) = some o → o.chain = some k → (s.fetchVecs arrayUnit tlbArray o.tenant [(k.spill, spillBytes k.groups k.m k.n)]).2.toOption = some bs → s.arrayStops = false → Runs (.chainFillEnd) s fun t => t.arr.ops = (s.arr.ops.map fun x => if x.tenant = o.tenant ∧ x.seq = o.seq then { x with phase := .reading, data := (upto 0 (k.groups * k.m * k.n)).map fun i => fld (bs.headD []) (5 * i) 5 } else x) ∧ t.arr.chains = s.arr.chains ∧ t.arr.path = s.arr.path) ∧
  (∀ (s : State), 5 ≤ s.clk.released → Runs (.arraySequencerReady) s fun t => t.has F.arrStatusReady = true ∧ t.arr = s.arr ∧ t.mem = s.mem ∧ t.ten = s.ten ∧ t.out = s.out)

/-- When the last accumulate is done a HOLD link leaves its bank held as the one chain of its name, and another falls due on the drain path behind what waits there. The first drain on the path drains and, when its problems drain without a fault, ends with its success status and leaves the path, having written exactly what its drain writes. An ended operation first of its tenant leaves, writes its completion word if it names one, and its token message is sent with its status. A held bank that another tenant waits for is spilled, or without a spill area discarded; a spill that is written leaves the chain without a bank. -/
def Obligations.ArrayOperationsEndAndDrain : Prop :=
  (∀ (o : ArrOp) (s : State), s.arr.ops.find? (fun o => o.phase == .tail) = some o → dHold o.desc = false → s.arrayStops = false → Runs (.cellTailEnd) s fun t => t.arr.ops = (s.arr.ops.map fun x => if x.tenant = o.tenant ∧ x.seq = o.seq then { x with phase := .due } else x) ∧ t.arr.path = s.arr.path ++ [(false, o.tenant, o.seq)] ∧ t.arr.chains = s.arr.chains ∧ t.mem = s.mem ∧ t.ten = s.ten ∧ t.out = s.out) ∧
  (∀ (o : ArrOp) (s : State), s.arr.ops.find? (fun o => o.phase == .tail) = some o → dHold o.desc = true → s.arrayStops = false → Runs (.cellTailEnd) s fun t => o.held ∈ t.arr.chains ∧ (∀ k ∈ t.arr.chains, k.tenant = o.tenant → k.chain = dChain o.desc → k = o.held) ∧ t.arr.ops = (s.arr.ops.map fun x => if x.tenant = o.tenant ∧ x.seq = o.seq then { x with phase := .ending, status := o.success, chain := none, data := [], opA := [], opB := [], outs := [] } else x) ∧ t.mem = s.mem ∧ t.ten = s.ten ∧ t.out = s.out) ∧
  (∀ (o : ArrOp) (s : State), s.pathOp = some o → o.phase = .due → s.metaClash o.tenant (arrMetas o.desc) = false → (∀ x ∈ s.arr.ops, x.meets o.tenant (arrMetas o.desc) = false) → (∀ x ∈ s.spn.ops, x.meets o.tenant (arrMetas o.desc) = false) → s.arrayStops = false → Runs (.drainStart) s fun t => t.arr.ops = (s.arr.ops.map fun x => if x.tenant = o.tenant ∧ x.seq = o.seq then { x with phase := .draining, clash := false } else x) ∧ t.arr.path = s.arr.path ∧ t.has F.arrStatusDraining = true ∧ t.mem = s.mem ∧ t.ten = s.ten ∧ t.out = s.out) ∧
  (∀ (o : ArrOp) (outs : List (DrainOut × List Nat)) (s : State), s.pathOp = some o → o.phase = .draining → (s.drainProblems o (upto 0 (arrProblems o.desc))).2.toOption = some outs → dCMeta o.desc = 0 → o.clash = false → s.arrayStops = false → Runs (.drainEnd) s fun t => t.arr.ops = (s.arr.ops.map fun x => if x.tenant = o.tenant ∧ x.seq = o.seq then { x with phase := .ending, status := o.success, chain := none, data := [], opA := o.opA, opB := o.opB, outs := outs.map fun y => (y.1.outs, y.2) } else x) ∧ (false, o.tenant, o.seq) ∉ t.arr.path ∧ t.mem = (s.drainProblems o (upto 0 (arrProblems o.desc))).1.mem ∧ t.ten = (s.drainProblems o (upto 0 (arrProblems o.desc))).1.ten) ∧
  (∀ (o : ArrOp) (s : State), s.arr.ops.find? (fun o => o.phase == .ending && !((s.arr.ops.takeWhile fun x => x != o).any fun x => x.tenant == o.tenant)) = some o → dDone o.desc = 0 → Runs (.completionWordAccepted) s fun t => t.inbox (tumblerUnit o.u) = s.inbox (tumblerUnit o.u) ++ [.tokenDone o.slot o.seq o.status] ∧ (∀ x ∈ t.arr.ops, x ∈ s.arr.ops ∧ ¬(x.tenant = o.tenant ∧ x.seq = o.seq)) ∧ t.mem = s.mem ∧ t.ten = s.ten ∧ t.out = s.out) ∧
  (∀ (o : ArrOp) (s : State), s.arr.ops.find? (fun o => o.phase == .ending && !((s.arr.ops.takeWhile fun x => x != o).any fun x => x.tenant == o.tenant)) = some o → dDone o.desc ≠ 0 → (s.drawn.storeSpan arrayUnit tlbArray o.tenant (dDone o.desc) (leBytes 2 o.status ++ zeros 2 ++ leBytes 4 (dTag o.desc) ++ leBytes 8 s.tag)).2 = .ok [] → Runs (.completionWordAccepted) s fun t => t.inbox (tumblerUnit o.u) = s.inbox (tumblerUnit o.u) ++ [.tokenDone o.slot o.seq o.status] ∧ t.mem = (s.drawn.storeSpan arrayUnit tlbArray o.tenant (dDone o.desc) (leBytes 2 o.status ++ zeros 2 ++ leBytes 4 (dTag o.desc) ++ leBytes 8 s.tag)).1.mem) ∧
  (∀ (k : Chain) (s : State), s.waitingChain = some k → k.spill = 0 → s.arrayStops = false → Runs (.chainWaitExpiry) s fun t => (∀ x ∈ t.arr.chains, x ∈ s.arr.chains ∧ ¬(x.tenant = k.tenant ∧ x.chain = k.chain)) ∧ t.has F.arrEventsChainDiscard = true ∧ t.arr.ops = s.arr.ops ∧ t.mem = s.mem ∧ t.ten = s.ten) ∧
  (∀ (k : Chain) (s : State), s.waitingChain = some k → k.spill ≠ 0 → s.arrayStops = false → Runs (.chainWaitExpiry) s fun t => t.arr.chains = (s.arr.chains.map fun x => if x.tenant = k.tenant ∧ x.chain = k.chain then { x with spilling := true } else x) ∧ t.arr.path = s.arr.path ++ [(true, k.tenant, k.chain)] ∧ t.arr.ops = s.arr.ops ∧ t.mem = s.mem ∧ t.ten = s.ten ∧ t.out = s.out) ∧
  (∀ (n m : Nat) (rest : List (Bool × Nat × Nat)) (k : Chain) (s : State), s.arr.path = (true, n, m) :: rest → s.chain? n m = some k → ((s.setArr { s.arr with path := rest }).storeSpan arrayUnit tlbArray n k.spill (k.data.map fun x => leBytes 5 x).flatten).2 = .ok [] → s.arrayStops = false → Runs (.chainSpillEnd) s fun t => t.arr.path = rest ∧ t.arr.chains = (s.arr.chains.map fun x => if x.tenant = n ∧ x.chain = m then { x with bank := none, spilling := false, data := [] } else x) ∧ t.has F.arrEventsChainSpill = true ∧ t.mem = ((s.setArr { s.arr with path := rest }).storeSpan arrayUnit tlbArray n k.spill (k.data.map fun x => leBytes 5 x).flatten).1.mem)

/-- With room, quota and a free token slot, the first row issue standing becomes the last queued row operation and its token entry is taken. A tenant's oldest operation that passes its checks starts (stated without stochastic rounding). A free section takes the next chunk of the operation in turn, and a chunk that runs without a fault frees its section and counts as ended, memory being as the chunk leaves it. An ended operation, or one whose chunks have all ended (stated without a header or a completion word), leaves and its token message is sent with its status. The spindle is ready once the store domain is released. -/
def Obligations.RowOperationsRun : Prop :=
  (∀ (u g lane dst n l slot : Nat) (desc : List Byte) (rest : List TreeMsg) (s : State), s.inbox (spindleUnit 0) = .rowIssue u g lane dst n l desc :: rest → s.has F.arrSpnStatusReady = true → s.spn.ops.length < 256 → (s.spn.ops.filter fun o => o.tenant == n).length < s.rd (F.arrSpnTenantQuota n) → (s.tumbler u).freeToken = some slot → Runs (.rowDescriptorAccept) s fun t => t.inbox (spindleUnit 0) = rest ∧ t.spn.ops = s.spn.ops ++ [⟨n, KMap.get s.spn.seqs n 0 + 1, u, slot, l, desc, 0, 0, 0, 0, [], 0, false, false, 0, 0, [], 0, 0, 0, 0, false, false⟩] ∧ KMap.find (t.tumbler u).tokens slot = some ⟨n, KMap.get s.spn.seqs n 0 + 1, l, none⟩ ∧ t.mem = s.mem ∧ t.ten = s.ten ∧ t.out = s.out) ∧
  (∀ (n : TenantId) (o : RowOp) (s : State), s.spn.ops.find? (fun o => o.tenant == n.val) = some o → o.phase = 0 → (s.rowChecks o).2 = none → rOp o.desc ≠ rowFree → rRound o.desc ≠ 1 → Runs (.rowOperationStart n) s fun t => (∃ x ∈ t.spn.ops, x.tenant = n.val ∧ x.seq = o.seq ∧ x.phase = 1) ∧ t.spn.ops.length = s.spn.ops.length ∧ t.spn.running = s.spn.running ∧ t.spn.pages = s.spn.pages ∧ t.has F.arrSpnStatusBusy = true) ∧
  (∀ (n : TenantId) (o : RowOp) (s : State), s.spn.ops.find? (fun o => o.tenant == n.val) = some o → o.phase = 0 → (s.rowChecks o).2 = none → rOp o.desc = rowFree → Runs (.rowOperationStart n) s fun t => (∀ p ∈ t.spn.pages, p ∈ s.spn.pages ∧ ¬(p.tenant = n.val ∧ p.set = rSet o.desc)) ∧ t.spn.ops = (s.spn.ops.map fun x => if x.tenant = o.tenant ∧ x.seq = o.seq then { x with phase := 2 } else x) ∧ t.mem = s.mem ∧ t.ten = s.ten) ∧
  (∀ (q : QuadId) (o : RowOp) (k : Nat) (s : State), KMap.find s.spn.running q = none → s.chunkTurn q = some o → o.nextChunk q = some k → rowReads o.desc = false → (∀ x ∈ s.arr.ops, x.meets o.tenant (if o.starts.isEmpty then rowMetas o.desc else []) = false) → (∀ x ∈ s.spn.ops, x.meets o.tenant (if o.starts.isEmpty then rowMetas o.desc else []) = false) → (((s.markClash o.tenant (if o.starts.isEmpty then rowMetas o.desc else [])).modRow o.tenant o.seq fun x => { x with starts := KMap.put x.starts q (KMap.get x.starts q 0 + 1), clash := x.clash || s.metaClash o.tenant (if o.starts.isEmpty then rowMetas o.desc else []) }).chunkTranslate o q k).2 = none → Runs (.rowChunkStart q) s fun t => KMap.find t.spn.running q = some (o.tenant, o.seq, k) ∧ t.spn.ops = (s.spn.ops.map fun x => if x.tenant = o.tenant ∧ x.seq = o.seq then { x with starts := KMap.put x.starts q (KMap.get x.starts q 0 + 1) } else x) ∧ t.mem = (((s.markClash o.tenant (if o.starts.isEmpty then rowMetas o.desc else [])).modRow o.tenant o.seq fun x => { x with starts := KMap.put x.starts q (KMap.get x.starts q 0 + 1), clash := x.clash || s.metaClash o.tenant (if o.starts.isEmpty then rowMetas o.desc else []) }).chunkTranslate o q k).1.mem ∧ t.ten = s.ten ∧ t.out = s.out) ∧
  (∀ (q : QuadId) (n m k : Nat) (o : RowOp) (s : State), KMap.find s.spn.running q = some (n, m, k) → s.spn.ops.find? (fun o => o.tenant == n && o.seq == m && o.phase == 1) = some o → ((((s.setSpn { s.spn with running := KMap.del s.spn.running q }).count (spindleUnit q) 1 (rowPasses o.desc * rLen o.desc + 16)).count (spindleUnit q) 2 1).chunkRun o q k).2 = none → Runs (.rowChunkEnd q) s fun t => KMap.find t.spn.running q = none ∧ (∃ x ∈ t.spn.ops, x.tenant = n ∧ x.seq = m ∧ x.ended = o.ended + 1) ∧ t.mem = ((((s.setSpn { s.spn with running := KMap.del s.spn.running q }).count (spindleUnit q) 1 (rowPasses o.desc * rLen o.desc + 16)).count (spindleUnit q) 2 1).chunkRun o q k).1.mem ∧ t.ten = ((((s.setSpn { s.spn with running := KMap.del s.spn.running q }).count (spindleUnit q) 1 (rowPasses o.desc * rLen o.desc + 16)).count (spindleUnit q) 2 1).chunkRun o q k).1.ten) ∧
  (∀ (n : TenantId) (o : RowOp) (s : State), s.spn.ops.find? (fun o => o.tenant == n.val) = some o → o.phase = 2 → rDone o.desc = 0 → Runs (.rowOperationEnd n) s fun t => t.inbox (tumblerUnit o.u) = s.inbox (tumblerUnit o.u) ++ [.tokenDone o.slot o.seq o.status] ∧ (∀ x ∈ t.spn.ops, x ∈ s.spn.ops ∧ ¬(x.tenant = o.tenant ∧ x.seq = o.seq)) ∧ t.mem = s.mem ∧ t.ten = s.ten ∧ t.out = s.out) ∧
  (∀ (n : TenantId) (o : RowOp) (s : State), s.spn.ops.find? (fun o => o.tenant == n.val) = some o → o.phase = 1 → o.ended = rowChunks o.desc → o.sums = 0 → o.clash = false → f32bad o.loss.toNat = false → rMeta o.desc = 0 → rDone o.desc = 0 → Runs (.rowOperationEnd n) s fun t => t.inbox (tumblerUnit o.u) = s.inbox (tumblerUnit o.u) ++ [.tokenDone o.slot o.seq (if o.dropped then 0x114 else if o.spilled then 0x113 else 0)] ∧ (∀ x ∈ t.spn.ops, x ∈ s.spn.ops ∧ ¬(x.tenant = o.tenant ∧ x.seq = o.seq)) ∧ t.mem = s.mem ∧ t.ten = s.ten ∧ t.out = s.out) ∧
  (∀ (s : State), 2 ≤ s.clk.released → Runs (.spindleReady) s fun t => t.has F.arrSpnStatusReady = true ∧ t.spn = s.spn ∧ t.mem = s.mem ∧ t.ten = s.ten ∧ t.out = s.out)

/-- The oldest AMAX report leaves its queue and raises its record's step maximum and non-finite count (for a record that exists); a sample due is held when fewer than four are, else skipped and counted; the first sample held is compared and counted, and a disagreement past the warning threshold warns its tenant and sets the warning event. The first poison report that reaches a tenant with an open step sets POISON with its cause, unit and handle, or counts as one more hit, and changes no other tenant. The update engines are ready once the store domain is released. -/
def Obligations.NumericReportsReachTheirRecords : Prop :=
  (∀ (x : AmaxReport) (rest : List AmaxReport) (r : NumRec) (s : State), s.amax = x :: rest → s.rec? x.tenant x.handle = some r → r.handle = x.handle → Runs (.amaxReport) s fun t => t.amax = rest ∧ t.rec? x.tenant x.handle = some { r with stepAmax := maxWord r.stepAmax (r.realAmax x), stepNonfinite := min (2 ^ 32 - 1) (r.stepNonfinite + x.nonfinite), stepSat := r.stepSat + b2n (fp8Limit x.fmt == some x.amax), satRaised := r.satRaised || (fp8Limit x.fmt == some x.amax), produced := true } ∧ (∀ h, h ≠ x.handle → t.rec? x.tenant h = s.rec? x.tenant h) ∧ t.poison = s.poison) ∧
  (∀ (x : Sample) (rest : List Sample) (s : State), s.agm.offered = x :: rest → s.agm.held.length < 4 → s.arrayStops = false → Runs (.samplePoint) s fun t => t.agm = { s.agm with offered := rest, held := s.agm.held ++ [x] } ∧ t.rd F.arrAgmStatusHeld = s.agm.held.length + 1 ∧ t.mem = s.mem ∧ t.ten = s.ten ∧ t.out = s.out) ∧
  (∀ (x : Sample) (rest : List Sample) (s : State), s.agm.offered = x :: rest → 4 ≤ s.agm.held.length → s.arrayStops = false → Runs (.samplePoint) s fun t => t.agm = { s.agm with offered := rest } ∧ t.rd F.arrAgmSkipSkipped = min (s.rd F.arrAgmSkipSkipped + 1) (2 ^ F.arrAgmSkipSkipped.w - 1) ∧ t.has F.arrAgmEventsSkip = true ∧ t.mem = s.mem ∧ t.ten = s.ten) ∧
  (∀ (x : Sample) (rest : List Sample) (d : Nat) (s : State), s.agm.held = x :: rest → disagreement (x.elems.map fun e => e.reference x.alpha) (x.elems.map fun e => e.y.toNat) = some d → exceedsPow d (s.rd (F.arrAgmThreshWarnExp x.ofmt)) = false → exceedsPow d (s.rd (F.arrAgmThreshAlarmExp x.ofmt)) = false → s.arrayStops = false → Runs (.sampleFinish) s fun t => t.agm = { s.agm with held := rest } ∧ t.rd F.arrAgmCountSamples = (s.rd F.arrAgmCountSamples + 1) % 2 ^ F.arrAgmCountSamples.w ∧ t.out = s.out ∧ t.poison = s.poison) ∧
  (∀ (x : Sample) (rest : List Sample) (d : Nat) (s : State), s.agm.held = x :: rest → disagreement (x.elems.map fun e => e.reference x.alpha) (x.elems.map fun e => e.y.toNat) = some d → exceedsPow d (s.rd (F.arrAgmThreshWarnExp x.ofmt)) = true → exceedsPow d (s.rd (F.arrAgmThreshAlarmExp x.ofmt)) = false → s.arrayStops = false → Runs (.sampleFinish) s fun t => t.agm = { s.agm with held := rest } ∧ t.has F.arrAgmEventsWarn = true ∧ (∃ h, .event 0x204 (.tenant x.tenant) [monitorUnit, h, 0] ∈ t.out) ∧ t.poison = s.poison) ∧
  (∀ (x : PoisonReport) (rest : List PoisonReport) (s : State), s.poison = x :: rest → (s.tenant x.tenant).step.phase = .opened → (s.tenant x.tenant).num.poison = false → Runs (.poisonSource) s fun t => t.poison = rest ∧ (t.tenant x.tenant).num = { (s.tenant x.tenant).num with poison := true, poisonCause := x.cause, poisonUnit := x.unit, poisonHandle := x.handle } ∧ (∀ n, n ≠ x.tenant → t.tenant n = s.tenant n)) ∧
  (∀ (x : PoisonReport) (rest : List PoisonReport) (s : State), s.poison = x :: rest → (s.tenant x.tenant).step.phase = .sealing → (s.tenant x.tenant).num.poison = true → Runs (.poisonSource) s fun t => t.poison = rest ∧ (t.tenant x.tenant).num = { (s.tenant x.tenant).num with poisonHits := (s.tenant x.tenant).num.poisonHits + 1 } ∧ (∀ n, n ≠ x.tenant → t.tenant n = s.tenant n)) ∧
  (∀ (s : State), 2 ≤ s.clk.released → Runs (.updateEngineReady) s fun t => t.has F.arrUpdStatusReady = true ∧ t.mem = s.mem ∧ t.ten = s.ten ∧ t.out = s.out)

/-- A STEP_OPEN in sequence takes its control block and is held, opens the step, or with a frozen weight unrecovered ends with 0310h. A STEP_COMMIT of the open step is accepted with its control block, and no record is written yet. A STEP_CANCEL of the open step returns it to idle with the counters of the record in force and ends with status 0. A NUMERIC_POLICY within its limits between steps becomes the tenant's numeric state. Boundary work with operations still running holds the tenant's rings while work is due, and with nothing due opens the step that is held. -/
def Obligations.StepCommandsAct : Prop :=
  (∀ (n : TenantId) (r : RingId) (e : Entry) (b : List Byte) (s : State), s.mayRun n r 0x10 e → e.arg 0 8 % 64 = 0 → ((s.begun n r e).fwRead n (e.arg 0 8) 128).2 = .ok b → scbOk b = true → s.ringOf n e.cid = r → (s.tenant n).step.lost = false → (s.tenant n).step.phase = .idle → (s.tenant n).step.openHeld = none → fld b 0 8 = (s.tenant n).step.record.step + 1 → Runs (.stepOpen n r) s fun t => (t.tenant n).step.scbStep = fld b 0 8 ∧ (t.tenant n).step.scbPhase = fld b 8 1 ∧ (t.tenant n).step.onPoison = fld b 9 1 ∧ (t.tenant n).place.phase = fld b 8 1 ∧ (((t.tenant n).step.openHeld = some e.cid ∧ (t.tenant n).step.phase = .idle ∧ t.outcome n r e.cid = none) ∨ ((t.tenant n).step.openHeld = none ∧ (t.tenant n).step.phase = .opened ∧ t.outcome n r e.cid = some (0, fld b 0 8, 0)) ∨ ((t.tenant n).step.openHeld = none ∧ (t.tenant n).step.phase = .idle ∧ t.outcome n r e.cid = some (0x310, 0, 0)))) ∧
  (∀ (n : TenantId) (r : RingId) (e : Entry) (b : List Byte) (s : State), s.mayRun n r 0x11 e → e.arg 0 8 % 64 = 0 → ((s.begun n r e).fwRead n (e.arg 0 8) 128).2 = .ok b → scbOk b = true → (s.tenant n).step.phase = .opened → (s.tenant n).step.commit = none → fld b 0 8 = (s.tenant n).step.scbStep → Runs (.stepCommit n r) s fun t => (t.tenant n).step = { (s.tenant n).step with commit := some e.cid, onPoison := fld b 9 1, cursorNext := (b.drop 0x10).take 16, listAddr := fld b 0x20 8, listCount := if fld b 0x20 8 = 0 then 0 else fld b 0x28 4 } ∧ t.outcome n r e.cid = none ∧ t.mem = ((s.begun n r e).fwRead n (e.arg 0 8) 128).1.mem ∧ (∀ m : Fin 16, m ≠ n → t.tenant m = ((s.begun n r e).fwRead n (e.arg 0 8) 128).1.tenant m)) ∧
  (∀ (n : TenantId) (r : RingId) (e : Entry) (b : List Byte) (s : State), s.mayRun n r 0x12 e → e.arg 0 8 % 64 = 0 → ((s.begun n r e).fwRead n (e.arg 0 8) 128).2 = .ok b → scbOk b = true → (s.tenant n).step.phase = .opened → (s.tenant n).step.commit = none → fld b 0 8 = (s.tenant n).step.scbStep → e.cid ∉ (s.tenant n).step.cancels → Runs (.stepCancel n r) s fun t => (t.tenant n).step.phase = .idle ∧ (t.tenant n).step.counters = (s.tenant n).step.record.counters ∧ (t.tenant n).step.cancels = [] ∧ t.outcome n r e.cid = some (0, (s.tenant n).step.record.step, 0)) ∧
  (∀ (n : TenantId) (r : RingId) (e : Entry) (x : NumState) (s : State), s.mayRun n r 0x13 e → (s.tenant n).step.phase = .idle → (s.tenant n).num.policyOf e = some x → Runs (.numericPolicy n r) s fun t => (t.tenant n).num = x ∧ t.outcome n r e.cid = some (0, 0, 0) ∧ (∀ m : Fin 16, m ≠ n → t.tenant m = s.tenant m)) ∧
  (∀ (n : TenantId) (bad : List (Nat × Nat × Nat)) (s : State), s.active n = true → (s.tenant n).step.phase = .idle → s.running n = true → Runs (.boundaryWork n bad) s fun t => (t.tenant n).place = { (s.tenant n).place with moved := 0, worked := false, hold := (s.tenant n).place.hold || (s.endBoundary n).boundaryDue n } ∧ (t.tenant n).step = (s.tenant n).step ∧ t.mem = s.mem ∧ t.out = s.out) ∧
  (∀ (n : TenantId) (bad : List (Nat × Nat × Nat)) (k : Nat) (s : State), s.active n = true → (s.tenant n).step.phase = .idle → s.running n = false → s.boundaryDue n = false → (s.tenant n).place.worked = false → s.mapoutCap = none → s.recovering n = false → s.unrecovered n = false → s.has F.cstStatusPartBusy = false → (s.tenant n).step.openHeld = some k → Runs (.boundaryWork n bad) s fun t => (t.tenant n).step.phase = .opened ∧ (t.tenant n).step.openHeld = none ∧ (t.tenant n).place.hold = false ∧ t.rd (F.arrUpdTenantState n) = 1 ∧ t.mem = s.mem ∧ t.out = s.out)

/-- With the engines ready and nothing of the tenant running or sampled, an accepted commit without an update list seals its pending record: the next sequence number, the step of its control block, the cursor, and no update counted. One with a valid list takes the engines and starts at its first tensor. After a drain the list is read again. The optimiser pass over a tensor that neither faults nor poisons writes the pending buffer and moves on; the quantiser pass moves on, and after the last tensor the record is sealed. At the commit point with POISON clear the step word takes the next sequence number, the other slot and its buffer, the step is idle, and the STEP_COMMIT ends with status 0 and the step of its record. -/
def Obligations.UpdateAndCommit : Prop :=
  (∀ (n : TenantId) (s : State), (s.tenant n).step.phase = .opened → (s.tenant n).step.commit.isSome = true → s.running n = false → s.sampleHeld n = false → s.enginesTaken n = false → s.has F.arrUpdStatusReady = true → (s.tenant n).num.poison = false → (s.tenant n).step.listCount = 0 → Runs (.updateStart n) s fun t => (t.tenant n).step.phase = .sealing ∧ (if (s.tenant n).step.slot = 0 then (t.tenant n).step.rec1 else (t.tenant n).step.rec0) = ⟨(s.tenant n).step.seq + 1, (s.tenant n).step.scbStep, 1, (s.tenant n).step.scbPhase, (s.tenant n).step.buf, ((s.tenant n).num.grow).lossScale, (s.tenant n).step.cursorNext, (s.tenant n).step.record.skipped, (s.tenant n).step.record.updates, (s.tenant n).step.counters⟩ ∧ (t.tenant n).step.seq = (s.tenant n).step.seq ∧ (t.tenant n).step.slot = (s.tenant n).step.slot ∧ t.rd (F.arrUpdTenantState n) = 3) ∧
  (∀ (n : TenantId) (bs : List Byte) (s : State), (s.tenant n).step.phase = .opened → (s.tenant n).step.commit.isSome = true → s.running n = false → s.sampleHeld n = false → s.enginesTaken n = false → s.has F.arrUpdStatusReady = true → (s.tenant n).num.poison = false → (s.tenant n).step.listCount ≠ 0 → (s.tenant n).step.listAddr % 64 = 0 → (s.tenant n).step.listCount ≤ 65536 → ((s.setPhase n .updating).fetchSpan (updateUnit 0) tlbUpdate n (s.tenant n).step.listAddr (64 * (s.tenant n).step.listCount) false).2 = .ok bs → (chunks 64 bs.length bs).all (fun d => s.updOk n d) = true → namesDistinct ((chunks 64 bs.length bs).map fun d => fld d 0 4) = true → bs ≠ [] → s.bufferDrained n (1 - (s.tenant n).step.buf) = false → Runs (.updateStart n) s fun t => (t.tenant n).step.phase = .updating ∧ (t.tenant n).step.work = some ⟨chunks 64 bs.length bs, 0, 0, []⟩ ∧ t.rd F.arrUpdStatusEngBusy = 15 ∧ t.rd F.arrUpdStatusTenant = n.val) ∧
  (∀ (n : TenantId) (s : State), (s.tenant n).step.phase = .updating → (s.tenant n).step.drainWait = true → s.bufferDrained n (1 - (s.tenant n).step.buf) = false → (s.tenant n).num.poison = false → Runs (.updateResume n) s fun t => t = ((s.add F.arrUpdDrainWaitCycles s.draw).drawn).readList n) ∧
  (∀ (n : TenantId) (k : UpdWork) (d : List Byte) (w g : Tensor) (a : Word) (s : State), (s.tenant n).step.work = some k → (s.tenant n).num.poison = false → k.idx < k.quant + 2 → k.descs[k.idx]? = some d → s.updPair n d = some (w, g) → g.parts.find? (fun q => q.code == 0 && s.partPoisoned q) = none → (s.optimise n d w g).2.toOption = some a → Runs (.optimiserPassEnd n) s fun t => (t.tenant n).step.work = some { k with idx := k.idx + 1, astep := k.astep ++ [a] } ∧ (t.tenant n).step.phase = (s.tenant n).step.phase ∧ t.mem = (s.optimise n d w g).1.mem ∧ (∀ m : Fin 16, m ≠ n → t.tenant m = (s.optimise n d w g).1.tenant m)) ∧
  (∀ (n : TenantId) (k : UpdWork) (d : List Byte) (w : Tensor) (s : State), (s.tenant n).step.work = some k → (s.tenant n).num.poison = false → k.quant < k.idx → k.descs[k.quant]? = some d → s.heldTensor n (fld d 0 4) = some w → k.quant + 1 ≠ k.descs.length → Runs (.quantiserPassEnd n) s fun t => (t.tenant n).step.work = some { k with quant := k.quant + 1 } ∧ t.mem = (s.quantise n d w (k.astep.getD k.quant 0)).mem) ∧
  (∀ (n : TenantId) (k : UpdWork) (d : List Byte) (w : Tensor) (s : State), (s.tenant n).step.work = some k → (s.tenant n).num.poison = false → k.quant < k.idx → k.descs[k.quant]? = some d → s.heldTensor n (fld d 0 4) = some w → k.quant + 1 = k.descs.length → Runs (.quantiserPassEnd n) s fun t => (t.tenant n).step.phase = .sealing ∧ (t.tenant n).step.work = none ∧ t.rd F.arrUpdStatusEngBusy = 0) ∧
  (∀ (n : TenantId) (k : Nat) (e : Entry) (s : State), (s.tenant n).step.phase = .sealing → (s.tenant n).num.poison = false → (s.tenant n).step.commit = some k → k ∉ (s.tenant n).step.cancels → s.entry? n (s.ringOf n k) k = some e → e.ended = false → (∀ w ∈ s.waits, w.met = none ∧ ¬(w.tenant = n.val ∧ w.ring = s.ringOf n k ∧ w.cid = k)) → Runs (.commitPoint n) s fun t => (t.tenant n).step.seq = (s.tenant n).step.seq + 1 ∧ (t.tenant n).step.slot = 1 - (s.tenant n).step.slot ∧ (t.tenant n).step.buf = (if (s.tenant n).step.slot = 0 then (s.tenant n).step.rec1 else (s.tenant n).step.rec0).buf ∧ (t.tenant n).step.phase = .idle ∧ (t.tenant n).step.commit = none ∧ (t.tenant n).step.rec0 = (s.tenant n).step.rec0 ∧ (t.tenant n).step.rec1 = (s.tenant n).step.rec1 ∧ t.outcome n (s.ringOf n k) k = some (0, (t.tenant n).step.record.step, 0))

/-- When IADD, ISUB, IMUL, IMAD, IMIN, IMAX, ISHL or ISHR issues with a legal MOD, every executing lane of every constituent, gathered or not, has in DST (a register, or with MOD bit 1 a pair) the result of its own sources as they stood before: sums, differences and products modulo the width, the lesser or greater as signed or with MOD bit 0 unsigned, and a shift by less than the width, which to the right is arithmetic or with MOD bit 0 logical. (A shift by the width or more has no stated result: log 109.) -/
def Obligations.IntegerInstructions : Prop :=
  (∀ (u : TumblerId) (g : SlotId) (w : IWord) (c : Ctx) (s : State), s.issues u g w (formOf w 2 (intSpan w)) always c → w.mod.toNat ≤ 3 → w.dst.toNat + intSpan w ≤ c.l.regs → Runs (.iadd u g w) s fun t => ∀ m ∈ c.ms, ∀ k ∈ lanesOf m.on, t.intOf u m.slot c.l.regs w w.dst.toNat k = ((s.intOf u m.slot c.l.regs w w.sa.toNat k) + (s.intOf u m.slot c.l.regs w w.sb.toNat k)) % 2 ^ intBits w) ∧
  (∀ (u : TumblerId) (g : SlotId) (w : IWord) (c : Ctx) (s : State), s.issues u g w (formOf w 2 (intSpan w)) always c → w.mod.toNat ≤ 3 → w.dst.toNat + intSpan w ≤ c.l.regs → Runs (.isub u g w) s fun t => ∀ m ∈ c.ms, ∀ k ∈ lanesOf m.on, t.intOf u m.slot c.l.regs w w.dst.toNat k = ((s.intOf u m.slot c.l.regs w w.sa.toNat k) + 2 ^ intBits w - (s.intOf u m.slot c.l.regs w w.sb.toNat k)) % 2 ^ intBits w) ∧
  (∀ (u : TumblerId) (g : SlotId) (w : IWord) (c : Ctx) (s : State), s.issues u g w (formOf w 2 (intSpan w)) always c → w.mod.toNat ≤ 3 → w.dst.toNat + intSpan w ≤ c.l.regs → Runs (.imul u g w) s fun t => ∀ m ∈ c.ms, ∀ k ∈ lanesOf m.on, t.intOf u m.slot c.l.regs w w.dst.toNat k = (s.intOf u m.slot c.l.regs w w.sa.toNat k) * (s.intOf u m.slot c.l.regs w w.sb.toNat k) % 2 ^ intBits w) ∧
  (∀ (u : TumblerId) (g : SlotId) (w : IWord) (c : Ctx) (s : State), s.issues u g w (formOf w 3 (intSpan w)) always c → w.mod.toNat ≤ 3 → w.dst.toNat + intSpan w ≤ c.l.regs → Runs (.imad u g w) s fun t => ∀ m ∈ c.ms, ∀ k ∈ lanesOf m.on, t.intOf u m.slot c.l.regs w w.dst.toNat k = ((s.intOf u m.slot c.l.regs w w.sa.toNat k) * (s.intOf u m.slot c.l.regs w w.sb.toNat k) + (s.intOf u m.slot c.l.regs w w.sc.toNat k)) % 2 ^ intBits w) ∧
  (∀ (u : TumblerId) (g : SlotId) (w : IWord) (c : Ctx) (s : State), s.issues u g w (formOf w 2 (intSpan w)) always c → w.mod.toNat ≤ 3 → w.dst.toNat + intSpan w ≤ c.l.regs → Runs (.imin u g w) s fun t => ∀ m ∈ c.ms, ∀ k ∈ lanesOf m.on, t.intOf u m.slot c.l.regs w w.dst.toNat k = (if (if w.mod.toNat.testBit 0 then decide ((s.intOf u m.slot c.l.regs w w.sb.toNat k) < (s.intOf u m.slot c.l.regs w w.sa.toNat k)) else decide (signed (intBits w) (s.intOf u m.slot c.l.regs w w.sb.toNat k) < signed (intBits w) (s.intOf u m.slot c.l.regs w w.sa.toNat k))) then (s.intOf u m.slot c.l.regs w w.sb.toNat k) else (s.intOf u m.slot c.l.regs w w.sa.toNat k))) ∧
  (∀ (u : TumblerId) (g : SlotId) (w : IWord) (c : Ctx) (s : State), s.issues u g w (formOf w 2 (intSpan w)) always c → w.mod.toNat ≤ 3 → w.dst.toNat + intSpan w ≤ c.l.regs → Runs (.imax u g w) s fun t => ∀ m ∈ c.ms, ∀ k ∈ lanesOf m.on, t.intOf u m.slot c.l.regs w w.dst.toNat k = (if (if w.mod.toNat.testBit 0 then decide ((s.intOf u m.slot c.l.regs w w.sa.toNat k) < (s.intOf u m.slot c.l.regs w w.sb.toNat k)) else decide (signed (intBits w) (s.intOf u m.slot c.l.regs w w.sa.toNat k) < signed (intBits w) (s.intOf u m.slot c.l.regs w w.sb.toNat k))) then (s.intOf u m.slot c.l.regs w w.sb.toNat k) else (s.intOf u m.slot c.l.regs w w.sa.toNat k))) ∧
  (∀ (u : TumblerId) (g : SlotId) (w : IWord) (c : Ctx) (s : State), s.issues u g w (formOf w 2 (intSpan w)) always c → w.mod.toNat ≤ 3 → w.dst.toNat + intSpan w ≤ c.l.regs → Runs (.ishl u g w) s fun t => ∀ m ∈ c.ms, ∀ k ∈ lanesOf m.on, s.intOf u m.slot c.l.regs w w.sb.toNat k < intBits w → t.intOf u m.slot c.l.regs w w.dst.toNat k = s.intOf u m.slot c.l.regs w w.sa.toNat k * 2 ^ s.intOf u m.slot c.l.regs w w.sb.toNat k % 2 ^ intBits w) ∧
  (∀ (u : TumblerId) (g : SlotId) (w : IWord) (c : Ctx) (s : State), s.issues u g w (formOf w 2 (intSpan w)) always c → w.mod.toNat ≤ 3 → w.dst.toNat + intSpan w ≤ c.l.regs → Runs (.ishr u g w) s fun t => ∀ m ∈ c.ms, ∀ k ∈ lanesOf m.on, s.intOf u m.slot c.l.regs w w.sb.toNat k < intBits w → t.intOf u m.slot c.l.regs w w.dst.toNat k = (if w.mod.toNat.testBit 0 then s.intOf u m.slot c.l.regs w w.sa.toNat k / 2 ^ s.intOf u m.slot c.l.regs w w.sb.toNat k else unsigned (intBits w) (signed (intBits w) (s.intOf u m.slot c.l.regs w w.sa.toNat k) / (2 ^ s.intOf u m.slot c.l.regs w w.sb.toNat k : Nat))))

/-- AND, OR, XOR, NOT, MOV and POPC give every executing lane the bitwise result, its complement, its copy or its count of ones; SEL takes SA where the predicate of SC (15 always) holds and SB elsewhere; MOVI the sign-extended immediate; SHFL the source of the lane that MOD and SB name, when that lane executes (log 109 otherwise); VOTE whether all or any executing lanes of the constituent have SA not 0, or their mask; SREG the lane, group, block and tumbler numbers, the executing lanes, and the remote-error word, which its read clears. -/
def Obligations.LogicAndLaneInstructions : Prop :=
  (∀ (u : TumblerId) (g : SlotId) (w : IWord) (c : Ctx) (s : State), s.issues u g w (formOf w 2 1) always c → w.mod = 0 → w.dst.toNat < c.l.regs → Runs (.and u g w) s fun t => ∀ m ∈ c.ms, ∀ k ∈ lanesOf m.on, t.laneOf u m.slot c.l.regs w.dst.toNat k = Nat.land (s.laneOf u m.slot c.l.regs w.sa.toNat k) (s.laneOf u m.slot c.l.regs w.sb.toNat k)) ∧
  (∀ (u : TumblerId) (g : SlotId) (w : IWord) (c : Ctx) (s : State), s.issues u g w (formOf w 2 1) always c → w.mod = 0 → w.dst.toNat < c.l.regs → Runs (.or u g w) s fun t => ∀ m ∈ c.ms, ∀ k ∈ lanesOf m.on, t.laneOf u m.slot c.l.regs w.dst.toNat k = Nat.lor (s.laneOf u m.slot c.l.regs w.sa.toNat k) (s.laneOf u m.slot c.l.regs w.sb.toNat k)) ∧
  (∀ (u : TumblerId) (g : SlotId) (w : IWord) (c : Ctx) (s : State), s.issues u g w (formOf w 2 1) always c → w.mod = 0 → w.dst.toNat < c.l.regs → Runs (.xor u g w) s fun t => ∀ m ∈ c.ms, ∀ k ∈ lanesOf m.on, t.laneOf u m.slot c.l.regs w.dst.toNat k = Nat.xor (s.laneOf u m.slot c.l.regs w.sa.toNat k) (s.laneOf u m.slot c.l.regs w.sb.toNat k)) ∧
  (∀ (u : TumblerId) (g : SlotId) (w : IWord) (c : Ctx) (s : State), s.issues u g w (formOf w 1 1) always c → w.mod = 0 → w.dst.toNat < c.l.regs → Runs (.not u g w) s fun t => ∀ m ∈ c.ms, ∀ k ∈ lanesOf m.on, t.laneOf u m.slot c.l.regs w.dst.toNat k = 2 ^ 32 - 1 - (s.laneOf u m.slot c.l.regs w.sa.toNat k)) ∧
  (∀ (u : TumblerId) (g : SlotId) (w : IWord) (c : Ctx) (s : State), s.issues u g w (formOf w 1 1) always c → w.mod = 0 → w.dst.toNat < c.l.regs → Runs (.mov u g w) s fun t => ∀ m ∈ c.ms, ∀ k ∈ lanesOf m.on, t.laneOf u m.slot c.l.regs w.dst.toNat k = (s.laneOf u m.slot c.l.regs w.sa.toNat k)) ∧
  (∀ (u : TumblerId) (g : SlotId) (w : IWord) (c : Ctx) (s : State), s.issues u g w (formOf w 1 1) always c → w.mod = 0 → w.dst.toNat < c.l.regs → Runs (.popc u g w) s fun t => ∀ m ∈ c.ms, ∀ k ∈ lanesOf m.on, t.laneOf u m.slot c.l.regs w.dst.toNat k = popcount 32 (s.laneOf u m.slot c.l.regs w.sa.toNat k)) ∧
  (∀ (u : TumblerId) (g : SlotId) (w : IWord) (c : Ctx) (s : State), s.issues u g w (formOf w 2 1) always c → w.mod = 0 → w.dst.toNat < c.l.regs → Runs (.sel u g w) s fun t => ∀ m ∈ c.ms, ∀ k ∈ lanesOf m.on, t.laneOf u m.slot c.l.regs w.dst.toNat k = if w.sc.toNat % 16 = 15 ∨ s.predOf u m.slot (w.sc.toNat % 16) k = true then s.laneOf u m.slot c.l.regs w.sa.toNat k else s.laneOf u m.slot c.l.regs w.sb.toNat k) ∧
  (∀ (u : TumblerId) (g : SlotId) (w : IWord) (c : Ctx) (s : State), s.issues u g w ({ srcs := [], dst := [(w.dst.toNat, 1)] }) always c → w.dst.toNat < c.l.regs → Runs (.movi u g w) s fun t => ∀ m ∈ c.ms, ∀ k ∈ lanesOf m.on, t.laneOf u m.slot c.l.regs w.dst.toNat k = unsigned 32 (signed 16 w.mod.toNat)) ∧
  (∀ (u : TumblerId) (g : SlotId) (w : IWord) (c : Ctx) (s : State), s.issues u g w (formOf w 2 1) always c → w.mod.toNat ≤ 3 → w.dst.toNat < c.l.regs → Runs (.shfl u g w) s fun t => ∀ m ∈ c.ms, ∀ k ∈ lanesOf m.on, ∀ j ∈ lanesOf m.on, shflLane w.mod.toNat k (s.laneOf u m.slot c.l.regs w.sb.toNat k) = some j → t.laneOf u m.slot c.l.regs w.dst.toNat k = s.laneOf u m.slot c.l.regs w.sa.toNat j) ∧
  (∀ (u : TumblerId) (g : SlotId) (w : IWord) (c : Ctx) (s : State), s.issues u g w (formOf w 1 1) always c → w.mod.toNat ≤ 2 → w.dst.toNat < c.l.regs → Runs (.vote u g w) s fun t => ∀ m ∈ c.ms, ∀ k ∈ lanesOf m.on, t.laneOf u m.slot c.l.regs w.dst.toNat k = (let yes := maskOf ((lanesOf m.on).filter fun l => s.laneOf u m.slot c.l.regs w.sa.toNat l != 0); if w.mod.toNat = 0 then b2n (yes == m.on) else if w.mod.toNat = 1 then b2n (yes != 0) else yes)) ∧
  (∀ (u : TumblerId) (g : SlotId) (w : IWord) (c : Ctx) (s : State), s.issues u g w ({ srcs := [], dst := [(w.dst.toNat, 1)] }) always c → w.mod.toNat ≤ 8 → w.dst.toNat < c.l.regs → Runs (.sreg u g w) s fun t => ∀ m ∈ c.ms, ∀ k ∈ lanesOf m.on, (w.mod.toNat = 0 → t.laneOf u m.slot c.l.regs w.dst.toNat k = k) ∧ (w.mod.toNat = 1 → some (t.laneOf u m.slot c.l.regs w.dst.toNat k) = (s.group? u m.slot).map fun x => x.idx % 2 ^ 32) ∧ (w.mod.toNat = 2 → some (t.laneOf u m.slot c.l.regs w.dst.toNat k) = (s.group? u m.slot).map fun x => x.block % 2 ^ 32) ∧ (w.mod.toNat = 3 → some (t.laneOf u m.slot c.l.regs w.dst.toNat k) = (s.group? u m.slot).map fun x => x.block / 2 ^ 32 % 2 ^ 32) ∧ (w.mod.toNat = 4 → t.laneOf u m.slot c.l.regs w.dst.toNat k = u.val) ∧ (w.mod.toNat = 5 → t.laneOf u m.slot c.l.regs w.dst.toNat k = (c.ms.foldl (fun a m => Nat.lor a m.on) 0) % 2 ^ 32) ∧ (w.mod.toNat = 8 → some (t.laneOf u m.slot c.l.regs w.dst.toNat k) = ((s.group? u m.slot).map fun x => KMap.get x.rerr k 0 % 2 ^ 32) ∧ ((t.group? u m.slot).map fun x => KMap.get x.rerr k 0) = some 0))

/-- FADD, FMUL, FFMA, FMIN and FMAX give every executing lane the exact result rounded once to nearest, in FP32 or with MOD 1 in each BF16 half; FDIV, FSQRT, FABS the FP32 result; FRSQ, FEXP2 and FLOG2 the FP32 word that the model takes within two units in the last place (its choice there is free: log 113). ICMP and FCMP set predicate DST in the executing lanes to what MOD asks of the sources, a NaN answering only not-equal, and leave it in the other lanes. -/
def Obligations.FloatingPointInstructions : Prop :=
  (∀ (u : TumblerId) (g : SlotId) (w : IWord) (c : Ctx) (s : State), s.issues u g w (formOf w 2 1) always c → w.mod.toNat ≤ 1 → w.dst.toNat < c.l.regs → Runs (.fadd u g w) s fun t => ∀ m ∈ c.ms, ∀ k ∈ lanesOf m.on, t.laneOf u m.slot c.l.regs w.dst.toNat k = (if w.mod.toNat = 0 then Fmt.fp32.near ((Fmt.fp32.decode (s.laneOf u m.slot c.l.regs w.sa.toNat k)).add (Fmt.fp32.decode (s.laneOf u m.slot c.l.regs w.sb.toNat k))) else Fmt.bf16.near ((Fmt.bf16.decode ((s.laneOf u m.slot c.l.regs w.sa.toNat k) % 2 ^ 16)).add (Fmt.bf16.decode ((s.laneOf u m.slot c.l.regs w.sb.toNat k) % 2 ^ 16))) + 2 ^ 16 * Fmt.bf16.near ((Fmt.bf16.decode ((s.laneOf u m.slot c.l.regs w.sa.toNat k) / 2 ^ 16)).add (Fmt.bf16.decode ((s.laneOf u m.slot c.l.regs w.sb.toNat k) / 2 ^ 16)))) % 2 ^ 32) ∧
  (∀ (u : TumblerId) (g : SlotId) (w : IWord) (c : Ctx) (s : State), s.issues u g w (formOf w 2 1) always c → w.mod.toNat ≤ 1 → w.dst.toNat < c.l.regs → Runs (.fmul u g w) s fun t => ∀ m ∈ c.ms, ∀ k ∈ lanesOf m.on, t.laneOf u m.slot c.l.regs w.dst.toNat k = (if w.mod.toNat = 0 then Fmt.fp32.near ((Fmt.fp32.decode (s.laneOf u m.slot c.l.regs w.sa.toNat k)).mul (Fmt.fp32.decode (s.laneOf u m.slot c.l.regs w.sb.toNat k))) else Fmt.bf16.near ((Fmt.bf16.decode ((s.laneOf u m.slot c.l.regs w.sa.toNat k) % 2 ^ 16)).mul (Fmt.bf16.decode ((s.laneOf u m.slot c.l.regs w.sb.toNat k) % 2 ^ 16))) + 2 ^ 16 * Fmt.bf16.near ((Fmt.bf16.decode ((s.laneOf u m.slot c.l.regs w.sa.toNat k) / 2 ^ 16)).mul (Fmt.bf16.decode ((s.laneOf u m.slot c.l.regs w.sb.toNat k) / 2 ^ 16)))) % 2 ^ 32) ∧
  (∀ (u : TumblerId) (g : SlotId) (w : IWord) (c : Ctx) (s : State), s.issues u g w (formOf w 3 1) always c → w.mod.toNat ≤ 1 → w.dst.toNat < c.l.regs → Runs (.ffma u g w) s fun t => ∀ m ∈ c.ms, ∀ k ∈ lanesOf m.on, t.laneOf u m.slot c.l.regs w.dst.toNat k = (if w.mod.toNat = 0 then Fmt.fp32.near (((Fmt.fp32.decode (s.laneOf u m.slot c.l.regs w.sa.toNat k)).mul (Fmt.fp32.decode (s.laneOf u m.slot c.l.regs w.sb.toNat k))).add (Fmt.fp32.decode (s.laneOf u m.slot c.l.regs w.sc.toNat k))) else Fmt.bf16.near (((Fmt.bf16.decode ((s.laneOf u m.slot c.l.regs w.sa.toNat k) % 2 ^ 16)).mul (Fmt.bf16.decode ((s.laneOf u m.slot c.l.regs w.sb.toNat k) % 2 ^ 16))).add (Fmt.bf16.decode ((s.laneOf u m.slot c.l.regs w.sc.toNat k) % 2 ^ 16))) + 2 ^ 16 * Fmt.bf16.near (((Fmt.bf16.decode ((s.laneOf u m.slot c.l.regs w.sa.toNat k) / 2 ^ 16)).mul (Fmt.bf16.decode ((s.laneOf u m.slot c.l.regs w.sb.toNat k) / 2 ^ 16))).add (Fmt.bf16.decode ((s.laneOf u m.slot c.l.regs w.sc.toNat k) / 2 ^ 16)))) % 2 ^ 32) ∧
  (∀ (u : TumblerId) (g : SlotId) (w : IWord) (c : Ctx) (s : State), s.issues u g w (formOf w 2 1) always c → w.mod.toNat ≤ 1 → w.dst.toNat < c.l.regs → Runs (.fmin u g w) s fun t => ∀ m ∈ c.ms, ∀ k ∈ lanesOf m.on, t.laneOf u m.slot c.l.regs w.dst.toNat k = (if w.mod.toNat = 0 then Fmt.fp32.minOf (s.laneOf u m.slot c.l.regs w.sa.toNat k) (s.laneOf u m.slot c.l.regs w.sb.toNat k) else Fmt.bf16.minOf ((s.laneOf u m.slot c.l.regs w.sa.toNat k) % 2 ^ 16) ((s.laneOf u m.slot c.l.regs w.sb.toNat k) % 2 ^ 16) + 2 ^ 16 * Fmt.bf16.minOf ((s.laneOf u m.slot c.l.regs w.sa.toNat k) / 2 ^ 16) ((s.laneOf u m.slot c.l.regs w.sb.toNat k) / 2 ^ 16)) % 2 ^ 32) ∧
  (∀ (u : TumblerId) (g : SlotId) (w : IWord) (c : Ctx) (s : State), s.issues u g w (formOf w 2 1) always c → w.mod.toNat ≤ 1 → w.dst.toNat < c.l.regs → Runs (.fmax u g w) s fun t => ∀ m ∈ c.ms, ∀ k ∈ lanesOf m.on, t.laneOf u m.slot c.l.regs w.dst.toNat k = (if w.mod.toNat = 0 then Fmt.fp32.maxOf (s.laneOf u m.slot c.l.regs w.sa.toNat k) (s.laneOf u m.slot c.l.regs w.sb.toNat k) else Fmt.bf16.maxOf ((s.laneOf u m.slot c.l.regs w.sa.toNat k) % 2 ^ 16) ((s.laneOf u m.slot c.l.regs w.sb.toNat k) % 2 ^ 16) + 2 ^ 16 * Fmt.bf16.maxOf ((s.laneOf u m.slot c.l.regs w.sa.toNat k) / 2 ^ 16) ((s.laneOf u m.slot c.l.regs w.sb.toNat k) / 2 ^ 16)) % 2 ^ 32) ∧
  (∀ (u : TumblerId) (g : SlotId) (w : IWord) (c : Ctx) (s : State), s.issues u g w (formOf w 2 1) always c → w.mod = 0 → w.dst.toNat < c.l.regs → Runs (.fdiv u g w) s fun t => ∀ m ∈ c.ms, ∀ k ∈ lanesOf m.on, t.laneOf u m.slot c.l.regs w.dst.toNat k = f32div (s.laneOf u m.slot c.l.regs w.sa.toNat k) (s.laneOf u m.slot c.l.regs w.sb.toNat k) % 2 ^ 32) ∧
  (∀ (u : TumblerId) (g : SlotId) (w : IWord) (c : Ctx) (s : State), s.issues u g w (formOf w 1 1) always c → w.mod = 0 → w.dst.toNat < c.l.regs → Runs (.fsqrt u g w) s fun t => ∀ m ∈ c.ms, ∀ k ∈ lanesOf m.on, t.laneOf u m.slot c.l.regs w.dst.toNat k = f32sqrt (s.laneOf u m.slot c.l.regs w.sa.toNat k) % 2 ^ 32) ∧
  (∀ (u : TumblerId) (g : SlotId) (w : IWord) (c : Ctx) (s : State), s.issues u g w (formOf w 1 1) always c → w.mod = 0 → w.dst.toNat < c.l.regs → Runs (.fabs u g w) s fun t => ∀ m ∈ c.ms, ∀ k ∈ lanesOf m.on, t.laneOf u m.slot c.l.regs w.dst.toNat k = f32abs (s.laneOf u m.slot c.l.regs w.sa.toNat k) % 2 ^ 32) ∧
  (∀ (u : TumblerId) (g : SlotId) (w : IWord) (c : Ctx) (s : State), s.issues u g w (formOf w 1 1) always c → w.mod = 0 → w.dst.toNat < c.l.regs → Runs (.frsq u g w) s fun t => ∀ m ∈ c.ms, ∀ k ∈ lanesOf m.on, t.laneOf u m.slot c.l.regs w.dst.toNat k = f32rsq (s.laneOf u m.slot c.l.regs w.sa.toNat k) % 2 ^ 32) ∧
  (∀ (u : TumblerId) (g : SlotId) (w : IWord) (c : Ctx) (s : State), s.issues u g w (formOf w 1 1) always c → w.mod = 0 → w.dst.toNat < c.l.regs → Runs (.fexp2 u g w) s fun t => ∀ m ∈ c.ms, ∀ k ∈ lanesOf m.on, t.laneOf u m.slot c.l.regs w.dst.toNat k = f32exp2 (s.laneOf u m.slot c.l.regs w.sa.toNat k) % 2 ^ 32) ∧
  (∀ (u : TumblerId) (g : SlotId) (w : IWord) (c : Ctx) (s : State), s.issues u g w (formOf w 1 1) always c → w.mod = 0 → w.dst.toNat < c.l.regs → Runs (.flog2 u g w) s fun t => ∀ m ∈ c.ms, ∀ k ∈ lanesOf m.on, t.laneOf u m.slot c.l.regs w.dst.toNat k = f32log2 (s.laneOf u m.slot c.l.regs w.sa.toNat k) % 2 ^ 32) ∧
  (∀ (u : TumblerId) (g : SlotId) (w : IWord) (c : Ctx) (s : State), s.issues u g w (predForm w) always c → w.mod.toNat ≤ 5 → w.dst.toNat < 15 → Runs (.icmp u g w) s fun t => ∀ m ∈ c.ms, ∀ k ∈ lanesOf allLanes, t.predOf u m.slot w.dst.toNat k = if bit m.on k then compares w.mod.toNat (decide (signed 32 (s.laneOf u m.slot c.l.regs w.sa.toNat k) < signed 32 (s.laneOf u m.slot c.l.regs w.sb.toNat k))) (decide (signed 32 (s.laneOf u m.slot c.l.regs w.sa.toNat k) = signed 32 (s.laneOf u m.slot c.l.regs w.sb.toNat k))) else s.predOf u m.slot w.dst.toNat k) ∧
  (∀ (u : TumblerId) (g : SlotId) (w : IWord) (c : Ctx) (s : State), s.issues u g w (predForm w) always c → w.mod.toNat ≤ 5 → w.dst.toNat < 15 → Runs (.fcmp u g w) s fun t => ∀ m ∈ c.ms, ∀ k ∈ lanesOf allLanes, t.predOf u m.slot w.dst.toNat k = if bit m.on k then (match (f32 (s.laneOf u m.slot c.l.regs w.sa.toNat k)).cmp (f32 (s.laneOf u m.slot c.l.regs w.sb.toNat k)) with | none => w.mod.toNat == 1 | some o => compares w.mod.toNat (decide (o < 0)) (decide (o = 0))) else s.predOf u m.slot w.dst.toNat k)

/-- A BRA that every active lane of a lone constituent takes moves it to the target; one that only some take splits it at a pushed reconvergence point; a CALL or RET goes on at an address that the spec leaves open (log 108). An EXIT ends the executing lanes. BARG, BARM with well-formed masks and BARB make their constituents wait and release what is complete. NOP and the group and block fences only advance, the latter once their accesses are performed; the device and system fences also write back and drop the launch's near-cache lines. -/
def Obligations.ControlFlowInstructions : Prop :=
  (∀ (u : TumblerId) (g : SlotId) (w : IWord) (c : Ctx) (m : Member) (s : State), s.issues u g w ({ srcs := [], dst := [] }) always c → c.ms = [m] → m.on = m.act → m.on ≠ 0 → Runs (.bra u g w) s fun t => t = ((s.fetched u g w ({ srcs := [], dst := [] }) c).modGroup u m.slot fun x => x.jump m.i (unsigned 64 ((unsigned 64 (((s.fetched u g w ({ srcs := [], dst := [] }) c).pcOf' u c.ms : Int) - 8) : Int) + 8 * signed 16 w.mod.toNat))).afterIssue u c.ms) ∧
  (∀ (u : TumblerId) (g : SlotId) (w : IWord) (c : Ctx) (m : Member) (x : Group) (s : State), s.issues u g w ({ srcs := [], dst := [] }) always c → c.ms = [m] → m.on ≠ m.act → m.on ≠ 0 → ((s.fetched u g w ({ srcs := [], dst := [] }) c).split u c.ms).group? u m.slot = some x → x.stack.length < 32 → Runs (.bra u g w) s fun t => t = (((s.fetched u g w ({ srcs := [], dst := [] }) c).split u c.ms).setGroup u m.slot (x.diverge m (unsigned 64 ((unsigned 64 (((s.fetched u g w ({ srcs := [], dst := [] }) c).pcOf' u c.ms : Int) - 8) : Int) + 8 * signed 16 w.mod.toNat)) (unsigned 64 (((s.fetched u g w ({ srcs := [], dst := [] }) c).pcOf' u c.ms : Int) - 8) + 8 * (w.sb.toNat + 256 * w.sc.toNat)))).afterIssue u c.ms) ∧
  (∀ (u : TumblerId) (g : SlotId) (w : IWord) (c : Ctx) (m : Member) (s : State), s.issues u g w ({ srcs := [], dst := [] }) always c → c.ms = [m] → m.on = m.act → m.on ≠ 0 → Runs (.call u g w) s fun t => t = ((s.fetched u g w ({ srcs := [], dst := [] }) c).drawn.modGroup u m.slot fun x => x.jump m.i (8 * (s.fetched u g w ({ srcs := [], dst := [] }) c).draw % 2 ^ 64)).afterIssue u c.ms) ∧
  (∀ (u : TumblerId) (g : SlotId) (w : IWord) (c : Ctx) (m : Member) (s : State), s.issues u g w ({ srcs := [], dst := [] }) always c → c.ms = [m] → m.on = m.act → m.on ≠ 0 → Runs (.ret u g w) s fun t => t = ((s.fetched u g w ({ srcs := [], dst := [] }) c).drawn.modGroup u m.slot fun x => x.jump m.i (8 * (s.fetched u g w ({ srcs := [], dst := [] }) c).draw % 2 ^ 64)).afterIssue u c.ms) ∧
  (∀ (u : TumblerId) (g : SlotId) (w : IWord) (c : Ctx) (s : State), s.issues u g w ({ srcs := [], dst := [] }) always c → w.mod = 0 → Runs (.exit u g w) s fun t => ∀ m ∈ c.ms, ((t.group? u m.slot).map fun x => Nat.land x.live m.on).getD 0 = 0) ∧
  (∀ (u : TumblerId) (g : SlotId) (w : IWord) (c : Ctx) (s : State), s.issues u g w ({ srcs := [], dst := [] }) always c → w.mod = 0 → c.any = true → Runs (.barg u g w) s fun t => t = ((s.fetched u g w ({ srcs := [], dst := [] }) c).barWait c fun m _ => .barg m.on).afterIssue u c.ms) ∧
  (∀ (u : TumblerId) (g : SlotId) (w : IWord) (c : Ctx) (s : State), s.issues u g w ({ srcs := [(0, w.sa.toNat, 1)], dst := [] }) always c → w.mod = 0 → c.any = true → (c.ms.any fun m => (((s.fetched u g w ({ srcs := [(0, w.sa.toNat, 1)], dst := [] }) c).group? u m.slot).map fun x => barBad x (c.barInsts m x)).getD false) = false → Runs (.barm u g w) s fun t => t = ((s.fetched u g w ({ srcs := [(0, w.sa.toNat, 1)], dst := [] }) c).barWait c fun m x => .barm (c.barInsts m x)).afterIssue u c.ms) ∧
  (∀ (u : TumblerId) (g : SlotId) (w : IWord) (c : Ctx) (s : State), s.issues u g w ({ srcs := [], dst := [] }) always c → w.mod.toNat < 16 → c.any = true → Runs (.barb u g w) s fun t => t = ((s.fetched u g w ({ srcs := [], dst := [] }) c).barWait c fun m _ => .barb w.mod.toNat m.on).afterIssue u c.ms) ∧
  (∀ (u : TumblerId) (g : SlotId) (w : IWord) (c : Ctx) (s : State), s.issues u g w ({ srcs := [], dst := [] }) always c → w.mod.toNat = 0 → Runs (.nop u g w) s fun t => t = (s.fetched u g w ({ srcs := [], dst := [] }) c).afterIssue u c.ms) ∧
  (∀ (u : TumblerId) (g : SlotId) (w : IWord) (c : Ctx) (s : State), s.issues u g w ({ srcs := [], dst := [] }) (fun s c => s.quiet c false) c → w.mod.toNat < 8 → Runs (.fenceGroup u g w) s fun t => t = (s.fetched u g w ({ srcs := [], dst := [] }) c).afterIssue u c.ms) ∧
  (∀ (u : TumblerId) (g : SlotId) (w : IWord) (c : Ctx) (s : State), s.issues u g w ({ srcs := [], dst := [] }) (fun s c => s.quiet c false) c → w.mod.toNat < 8 → Runs (.fenceBlock u g w) s fun t => t = (s.fetched u g w ({ srcs := [], dst := [] }) c).afterIssue u c.ms) ∧
  (∀ (u : TumblerId) (g : SlotId) (w : IWord) (c : Ctx) (s : State), s.issues u g w ({ srcs := [], dst := [] }) (fun s c => s.quiet c false) c → w.mod.toNat < 8 → c.any = true → c.l.system = true → Runs (.fenceDevice u g w) s fun t => t = ((s.fetched u g w ({ srcs := [], dst := [] }) c).nearFlush u fun n => n.launch == c.l.id).afterIssue u c.ms ∧ (∀ n ∈ (t.tumbler u).cache, n.launch ≠ c.l.id)) ∧
  (∀ (u : TumblerId) (g : SlotId) (w : IWord) (c : Ctx) (s : State), s.issues u g w ({ srcs := [], dst := [] }) (fun s c => s.quiet c true) c → w.mod.toNat < 8 → c.any = true → c.l.system = true → Runs (.fenceSystem u g w) s fun t => t = ((s.fetched u g w ({ srcs := [], dst := [] }) c).nearFlush u fun n => n.launch == c.l.id).afterIssue u c.ms ∧ (∀ n ∈ (t.tumbler u).cache, n.launch ≠ c.l.id))

/-- When AISSUE or RISSUE issues and its descriptor address in each constituent's issuing lane is 128-byte aligned within local memory, the 128 bytes stand at the engine with their tumbler, slot, lane, register, tenant and launch, behind what stood there, and the result pair is awaited. A TWAIT on a stale token gives 010Ch in its lanes; on one whose operation has ended, its status, and the slot is freed; on one that has not, the fragment waits (stated of a lone constituent). A completion message that stands first records its status in the token that it names; with a waiter, or with the launch gone, the slot is freed. -/
def Obligations.EngineIssuesAndTokens : Prop :=
  (∀ (u : TumblerId) (g : SlotId) (w : IWord) (c : Ctx) (s : State), s.issues u g w ({ srcs := [(0, w.sa.toNat, 1)], dst := [(w.dst.toNat, 2)] }) State.settled c → w.mod = 0 → (c.ms.all fun m => (s.issueAt c m 0 1).all fun a => a.2 % 128 == 0 && decide (a.2 + 128 ≤ c.l.lmem)) = true → Runs (.aissue u g w) s fun t => (∀ m ∈ c.ms, ((s.issueAt c m 0 1).all fun a => (t.inbox arrayUnit).contains (.arrIssue u m.slot a.1 w.dst.toNat c.l.tenant c.l.id (s.localBytes u m.slot a.2 128)) && ((t.group? u m.slot).map fun x => x.busy.contains w.dst.toNat && x.busy.contains (w.dst.toNat + 1)) == some true) = true) ∧ (∀ x ∈ s.inbox arrayUnit, x ∈ t.inbox arrayUnit)) ∧
  (∀ (u : TumblerId) (g : SlotId) (w : IWord) (c : Ctx) (s : State), s.issues u g w ({ srcs := [(0, w.sa.toNat, 1)], dst := [(w.dst.toNat, 2)] }) State.settled c → w.mod = 0 → (c.ms.all fun m => (s.issueAt c m 0 1).all fun a => a.2 % 128 == 0 && decide (a.2 + 128 ≤ c.l.lmem)) = true → Runs (.rissue u g w) s fun t => (∀ m ∈ c.ms, ((s.issueAt c m 0 1).all fun a => (t.inbox (spindleUnit 0)).contains (.rowIssue u m.slot a.1 w.dst.toNat c.l.tenant c.l.id (s.localBytes u m.slot a.2 128)) && ((t.group? u m.slot).map fun x => x.busy.contains w.dst.toNat && x.busy.contains (w.dst.toNat + 1)) == some true) = true) ∧ (∀ x ∈ s.inbox (spindleUnit 0), x ∈ t.inbox (spindleUnit 0))) ∧
  (∀ (u : TumblerId) (g : SlotId) (w : IWord) (c : Ctx) (s : State), s.issues u g w ({ srcs := [(0, w.sa.toNat, 2)], dst := [(w.dst.toNat, 1)] }) always c → w.mod.toNat ≤ 1 → w.dst.toNat < c.l.regs → (c.ms.all fun m => (s.issueAt c m 0 2).all fun a => s.tokenAt u a.2 == none) = true → Runs (.twait u g w) s fun t => ∀ m ∈ c.ms, ∀ k ∈ lanesOf m.on, t.laneOf u m.slot c.l.regs w.dst.toNat k = 0x10C) ∧
  (∀ (u : TumblerId) (g : SlotId) (w : IWord) (c : Ctx) (m : Member) (a q st : Nat) (k : Token) (s : State), s.issues u g w ({ srcs := [(0, w.sa.toNat, 2)], dst := [(w.dst.toNat, 1)] }) always c → w.mod.toNat ≤ 1 → w.dst.toNat < c.l.regs → c.ms = [m] → (s.issueAt c m 0 2).map (·.2) = some a → s.tokenAt u a = some (q, k) → k.status = some st → Runs (.twait u g w) s fun t => (∀ j ∈ lanesOf m.on, t.laneOf u m.slot c.l.regs w.dst.toNat j = st % 2 ^ 16) ∧ KMap.find (t.tumbler u).tokens q = none) ∧
  (∀ (u : TumblerId) (g : SlotId) (w : IWord) (c : Ctx) (m : Member) (a q : Nat) (k : Token) (s : State), s.issues u g w ({ srcs := [(0, w.sa.toNat, 2)], dst := [(w.dst.toNat, 1)] }) always c → w.mod.toNat = 0 → c.ms = [m] → (s.issueAt c m 0 2).map (·.2) = some a → s.tokenAt u a = some (q, k) → k.status = none → m.on = m.act → Runs (.twait u g w) s fun t => ((t.group? u m.slot).map fun x => x.frags.any fun f => f.st == .twait w.dst.toNat q m.on) = some true ∧ KMap.find (t.tumbler u).tokens q = some k) ∧
  (∀ (u : TumblerId) (q n st : Nat) (k : Token) (rest : List TreeMsg) (s : State), s.inbox (tumblerUnit u) = .tokenDone q n st :: rest → KMap.find (s.tumbler u).tokens q = some k → k.seq = n → (s.releaseToken u q st).2 = false → s.onTumbler u k.launch = true → Runs (.tokenCompletion u) s fun t => t.inbox (tumblerUnit u) = rest ∧ KMap.find (t.tumbler u).tokens q = some { k with status := some st } ∧ t.mem = s.mem ∧ t.ten = s.ten ∧ t.out = s.out) ∧
  (∀ (u : TumblerId) (q n st : Nat) (k : Token) (rest : List TreeMsg) (s : State), s.inbox (tumblerUnit u) = .tokenDone q n st :: rest → KMap.find (s.tumbler u).tokens q = some k → k.seq = n → (s.releaseToken u q st).2 = true → Runs (.tokenCompletion u) s fun t => t.inbox (tumblerUnit u) = rest ∧ KMap.find (t.tumbler u).tokens q = none ∧ (∀ j x, t.group? u j = some x → ∀ f ∈ x.frags, ∀ d ls, f.st ≠ .twait d q ls) ∧ t.mem = s.mem ∧ t.ten = s.ten ∧ t.out = s.out)

/-- An LDL with every lane's address aligned within local memory gives each executing lane its bytes there (the bits above a 1-byte or 2-byte load are open: log 109); an STL to addresses that differ leaves each lane's bytes at its address. LD, ST and an ATOM of tenant memory whose lanes are aligned, and LDR, STR and a remote ATOM with pool slots, start an access of exactly their executing lanes' addresses and operands; a local ATOM performs its lanes. Data that has come back finishes its load, and a walk that ends is taken up by its access. -/
def Obligations.TumblerMemoryInstructions : Prop :=
  (∀ (u : TumblerId) (g : SlotId) (w : IWord) (c : Ctx) (s : State), s.issues u g w ({ srcs := [(0, w.sa.toNat, 1)], dst := [(w.dst.toNat, memRegs (memSize w))] }) always c → memLegal w false = true → ((s.localLanes c (memOffset w)).all fun x => localOk c.l (memSize w) x.2.2) = true → w.dst.toNat + memRegs (memSize w) ≤ c.l.regs → Runs (.ldl u g w) s fun t => ∀ m ∈ c.ms, ∀ k ∈ lanesOf m.on, t.wideOf u m.slot c.l.regs w.dst.toNat (memRegs (memSize w)) k % 2 ^ (8 * memSize w) = leNat (s.localBytes u m.slot (unsigned 32 ((s.laneOf u m.slot c.l.regs w.sa.toNat k : Int) + memOffset w)) (memSize w))) ∧
  (∀ (u : TumblerId) (g : SlotId) (w : IWord) (c : Ctx) (s : State), s.issues u g w ({ srcs := [(0, w.sa.toNat, 1), (1, w.sb.toNat, memRegs (memSize w))], dst := [] }) always c → memLegal w false = true → ((s.localLanes c (memOffset w)).all fun x => localOk c.l (memSize w) x.2.2) = true → ((s.localLanes c (memOffset w)).map fun x => x.2.2).Nodup → (c.ms.all fun m => ((s.group? u m.slot).bind fun x => s.blockOf u x).isSome) = true → Runs (.stl u g w) s fun t => ∀ m ∈ c.ms, ∀ k ∈ lanesOf m.on, t.localBytes u m.slot (unsigned 32 ((s.laneOf u m.slot c.l.regs w.sa.toNat k : Int) + memOffset w)) (memSize w) = leBytes (memSize w) (s.wideOf u m.slot c.l.regs w.sb.toNat (memRegs (memSize w)) k)) ∧
  (∀ (u : TumblerId) (g : SlotId) (w : IWord) (c : Ctx) (s : State), s.issues u g w ({ srcs := [(0, w.sa.toNat, 2)], dst := [(w.dst.toNat, memRegs (memSize w))] }) (fun s c => s.clear c (s.accLanes c (memOffset w) (memRegs (memSize w)))) c → memLegal w true = true → c.any = true → (((s.fetched u g w ({ srcs := [(0, w.sa.toNat, 2)], dst := [(w.dst.toNat, memRegs (memSize w))] }) c).accLanes c (memOffset w) (memRegs (memSize w))).find? fun x => x.va % memSize w != 0) = none → Runs (.ld u g w) s fun t => t = ((s.fetched u g w ({ srcs := [(0, w.sa.toNat, 2)], dst := [(w.dst.toNat, memRegs (memSize w))] }) c).access c .load (w.mod.toNat.testBit 3) (memSize w) ((s.fetched u g w ({ srcs := [(0, w.sa.toNat, 2)], dst := [(w.dst.toNat, memRegs (memSize w))] }) c).accLanes c (memOffset w) (memRegs (memSize w)))).afterIssue u c.ms) ∧
  (∀ (u : TumblerId) (g : SlotId) (w : IWord) (c : Ctx) (s : State), s.issues u g w ({ srcs := [(0, w.sa.toNat, 2), (1, w.sb.toNat, memRegs (memSize w))], dst := [] }) (fun s c => s.clear c (s.accLanes c (memOffset w) (memRegs (memSize w)))) c → memLegal w true = true → c.any = true → (((s.fetched u g w ({ srcs := [(0, w.sa.toNat, 2), (1, w.sb.toNat, memRegs (memSize w))], dst := [] }) c).accLanes c (memOffset w) (memRegs (memSize w))).find? fun x => x.va % memSize w != 0) = none → Runs (.st u g w) s fun t => t = ((s.fetched u g w ({ srcs := [(0, w.sa.toNat, 2), (1, w.sb.toNat, memRegs (memSize w))], dst := [] }) c).access c .store (w.mod.toNat.testBit 3) (memSize w) ((s.fetched u g w ({ srcs := [(0, w.sa.toNat, 2), (1, w.sb.toNat, memRegs (memSize w))], dst := [] }) c).accLanes c (memOffset w) (memRegs (memSize w)))).afterIssue u c.ms) ∧
  (∀ (u : TumblerId) (g : SlotId) (w : IWord) (c : Ctx) (s : State), s.issues u g w (atomForm w) always c → atomLegal w = true → atomSpace w = 1 → c.any = true → Runs (.atom u g w) s fun t => t = ((s.fetched u g w (atomForm w) c).localAtom c).afterIssue u c.ms) ∧
  (∀ (u : TumblerId) (g : SlotId) (w : IWord) (c : Ctx) (s : State), s.issues u g w (atomForm w) (fun s c => s.clear c (s.accLanes c 0 (atomRegs w))) c → atomLegal w = true → atomSpace w = 0 → c.any = true → Runs (.atom u g w) s fun t => t = ((s.fetched u g w (atomForm w) c).tenantAtom c).afterIssue u c.ms) ∧
  (∀ (u : TumblerId) (g : SlotId) (w : IWord) (c : Ctx) (s : State), s.issues u g w ({ srcs := [(0, w.sa.toNat, 2)], dst := [(w.dst.toNat, memRegs (memSize w))] }) (fun s c => s.poolFree u (remoteDrafts (s.remoteAccess c .remote (memSize w) (s.accLanes c 0 (memRegs (memSize w)))) tyRead 0).length) c → remoteLegal w false = true → c.any = true → ((s.fetched u g w ({ srcs := [(0, w.sa.toNat, 2)], dst := [(w.dst.toNat, memRegs (memSize w))] }) c).accLanes c 0 (memRegs (memSize w))).find? (fun x => x.va % memSize w != 0) = none → Runs (.ldr u g w) s fun t => t = ((s.fetched u g w ({ srcs := [(0, w.sa.toNat, 2)], dst := [(w.dst.toNat, memRegs (memSize w))] }) c).remoteGo c ((s.fetched u g w ({ srcs := [(0, w.sa.toNat, 2)], dst := [(w.dst.toNat, memRegs (memSize w))] }) c).remoteAccess c .remote (memSize w) ((s.fetched u g w ({ srcs := [(0, w.sa.toNat, 2)], dst := [(w.dst.toNat, memRegs (memSize w))] }) c).accLanes c 0 (memRegs (memSize w)))) tyRead 0 (remoteFlow w)).afterIssue u c.ms) ∧
  (∀ (u : TumblerId) (g : SlotId) (w : IWord) (c : Ctx) (s : State), s.issues u g w ({ srcs := [(0, w.sa.toNat, 2), (1, w.sb.toNat, memRegs (memSize w))], dst := [] }) (fun s c => s.poolFree u (remoteDrafts (s.remoteAccess c .remoteStore (memSize w) (s.accLanes c 0 (memRegs (memSize w)))) tyWrite 0).length) c → remoteLegal w true = true → remoteKind w = 0 → c.any = true → ((s.fetched u g w ({ srcs := [(0, w.sa.toNat, 2), (1, w.sb.toNat, memRegs (memSize w))], dst := [] }) c).accLanes c 0 (memRegs (memSize w))).find? (fun x => x.va % memSize w != 0) = none → Runs (.str u g w) s fun t => t = ((s.fetched u g w ({ srcs := [(0, w.sa.toNat, 2), (1, w.sb.toNat, memRegs (memSize w))], dst := [] }) c).remoteGo c ((s.fetched u g w ({ srcs := [(0, w.sa.toNat, 2), (1, w.sb.toNat, memRegs (memSize w))], dst := [] }) c).remoteAccess c .remoteStore (memSize w) ((s.fetched u g w ({ srcs := [(0, w.sa.toNat, 2), (1, w.sb.toNat, memRegs (memSize w))], dst := [] }) c).accLanes c 0 (memRegs (memSize w)))) tyWrite 0 (remoteFlow w)).afterIssue u c.ms) ∧
  (∀ (u : TumblerId) (k : Nat) (a : Access) (s : State), (s.tumbler u).acc[k]? = some a → a.kind = .load → a.walks = [] → (s.needs u a).all (s.loadsNow u a) = true → Runs (.loadReturn u k) s fun t => t = s.finishLoad u a) ∧
  (∀ (k : Nat) (f : Finding) (x : Nat × Access × Nat) (s : State), s.allWalks[k]? = some x → Runs (.tableWalkEnd k f) s fun t => t = s.walkDone x.1 x.2.1 x.2.2 (x.2.2 * 2 ^ 21) f)

/-- A CVT that does not round stochastically gives each executing lane the code of the converted value in its low bits (those above are open: log 109). A RAND of a lone constituent with a stream of 4,095 or less claims 32 draws, or 64 with MOD 1, and gives lane k the k-th, or its pair; the stream's counter advances by as many. A QBLK acts on each constituent. An SPOISON while the tenant's step is open or updating reports each constituent's value with cause 5. -/
def Obligations.TumblerDataInstructions : Prop :=
  (∀ (u : TumblerId) (g : SlotId) (w : IWord) (c : Ctx) (s : State), s.issues u g w ((if cvtRound w = 1 then formOf w 2 1 else formOf w 1 1)) always c → cvtLegal w = true → cvtRound w ≠ 1 → w.dst.toNat < c.l.regs → Runs (.cvt u g w) s fun t => ∀ m ∈ c.ms, ∀ k ∈ lanesOf m.on, t.laneOf u m.slot c.l.regs w.dst.toNat k % 2 ^ fmtBits (cvtDst w) = cvtCode w (if cvtRound w = 2 then .zero else .nearest) (s.laneOf u m.slot c.l.regs w.sa.toNat k) % 2 ^ min 32 (fmtBits (cvtDst w))) ∧
  (∀ (u : TumblerId) (g : SlotId) (w : IWord) (c : Ctx) (m : Member) (a : Nat × Nat) (s : State), s.issues u g w ({ srcs := [(0, w.sa.toNat, 1)], dst := [(w.dst.toNat, if w.mod.toNat = 1 then 2 else 1)] }) always c → w.mod.toNat = 0 → c.ms = [m] → s.issueAt c m 0 1 = some a → a.2 ≤ 4095 → w.dst.toNat < c.l.regs → Runs (.rand u g w) s fun t => (∀ k ∈ lanesOf m.on, t.laneOf u m.slot c.l.regs w.dst.toNat k = drawAt ((s.tenant c.l.tenant).step.key a.2) (KMap.get (s.tenant c.l.tenant).step.counters a.2 0 + k) % 2 ^ 32) ∧ KMap.get (t.tenant c.l.tenant).step.counters a.2 0 = (KMap.get (s.tenant c.l.tenant).step.counters a.2 0 + 32) % 2 ^ 128) ∧
  (∀ (u : TumblerId) (g : SlotId) (w : IWord) (c : Ctx) (m : Member) (a : Nat × Nat) (s : State), s.issues u g w ({ srcs := [(0, w.sa.toNat, 1)], dst := [(w.dst.toNat, if w.mod.toNat = 1 then 2 else 1)] }) always c → w.mod.toNat = 1 → c.ms = [m] → s.issueAt c m 0 1 = some a → a.2 ≤ 4095 → w.dst.toNat + 1 < c.l.regs → Runs (.rand u g w) s fun t => (∀ k ∈ lanesOf m.on, t.laneOf u m.slot c.l.regs w.dst.toNat k = drawAt ((s.tenant c.l.tenant).step.key a.2) (KMap.get (s.tenant c.l.tenant).step.counters a.2 0 + 2 * k) % 2 ^ 32) ∧ KMap.get (t.tenant c.l.tenant).step.counters a.2 0 = (KMap.get (s.tenant c.l.tenant).step.counters a.2 0 + 64) % 2 ^ 128) ∧
  (∀ (u : TumblerId) (g : SlotId) (w : IWord) (c : Ctx) (s : State), s.issues u g w (formOf w 2 1) (fun s c => s.quiet c false) c → qLegal w = true → c.any = true → Runs (.qblk u g w) s fun t => t = (c.ms.foldl (fun (s : State) m => s.qblkOne c m) (s.fetched u g w (formOf w 2 1) c)).afterIssue u c.ms) ∧
  (∀ (u : TumblerId) (g : SlotId) (w : IWord) (c : Ctx) (s : State), s.issues u g w ({ srcs := [(0, w.sa.toNat, 1)], dst := [] }) State.settled c → w.mod = 0 → ((s.tenant c.l.tenant).step.phase = .opened ∨ (s.tenant c.l.tenant).step.phase = .updating) → Runs (.spoison u g w) s fun t => (c.ms.all fun m => (s.issueAt c m 0 1).all fun a => t.poison.contains ⟨c.l.tenant, 5, tumblerUnit u, a.2⟩) = true ∧ (∀ x ∈ s.poison, x ∈ t.poison))

/-- On a ready tumbler with registers, local memory and slots, the next block of a launch is placed: its groups stand fresh in slots of their schedulers, its local memory begins with the arguments, and the launch counts it. A pre-empted block without answers to come leaves its slots, saved, and a resumed one takes slots again. A launch whose placed blocks have all ended, nothing of it on its way, leaves and its command ends with the first fault's code. A stopped launch has no block on any tumbler. A barrier instance that waits too long stops its launch with a code. A wait for re-packing partners ends. A tumbler is ready, empty, once the store domain is released. -/
def Obligations.LaunchesPlaceAndEnd : Prop :=
  (∀ (n : Nat) (u : TumblerId) (l : Launch) (slots : List Nat) (bs : List Byte) (s : State), s.launch? n = some l → (s.tumbler u).ready = true → l.stopped = false → l.placed < l.blocks → s.blockFits u l = true → s.slotsFor u (upto 0 l.groups) [] = some slots → (s.fetchSpan (tumblerUnit u) tlbTumbler l.tenant l.args l.argSize false).2 = .ok bs → Runs (.blockPlace n u) s fun t => (∃ b ∈ (t.tumbler u).blocks, b.launch = n ∧ b.num = l.placed ∧ b.slots = slots ∧ b.lmem = putCells [] 0 bs ∧ b.saved = none) ∧ (∀ i ∈ upto 0 l.groups, t.group? u (slots.getD i 0) = some (l.group l.placed i)) ∧ (∀ x ∈ t.launches, x.id = n → x.placed = l.placed + 1)) ∧
  (∀ (n : Nat) (l : Launch) (e : Entry) (s : State), s.launch? n = some l → (l.stopped || l.placed == l.blocks) = true → l.ended = l.placed → s.launchBusy n = false → s.entry? l.tenant l.ring l.cid = some e → e.ended = false → (∀ w ∈ s.waits, w.met = none) → Runs (.launchComplete n) s fun t => (∀ x ∈ t.launches, x ∈ s.launches ∧ x.id ≠ n) ∧ t.outcome l.tenant l.ring l.cid = some (l.code, if l.code = 0x604 then 0 else l.code, 0) ∧ t.mem = s.mem) ∧
  (∀ (n : Nat) (l : Launch) (s : State), s.launch? n = some l → l.stopped = true → Runs (.launchStop n) s fun t => (∀ u ∈ upto 0 192, t.onTumbler u n = false) ∧ t.ten = s.ten) ∧
  (∀ (u : TumblerId) (n k : Nat) (s : State), (((s.blockSlots u n k).filterMap fun g => s.group? u g).isEmpty || (((s.blockSlots u n k).filterMap fun g => s.group? u g).any fun x => !x.busy.isEmpty) || (s.tumbler u).acc.any (fun a => a.lanes.any fun x => (s.blockSlots u n k).contains x.slot)) = false → Runs (.blockPreempt u n k) s fun t => t.blockSlots u n k = [] ∧ (∀ b ∈ (t.tumbler u).blocks, b.launch = n → b.num = k → b.slots = [] ∧ b.saved.isSome = true) ∧ t.mem = s.mem ∧ t.ten = s.ten ∧ t.launches = s.launches) ∧
  (∀ (u : TumblerId) (n k : Nat) (b : Block) (l : Launch) (gs : List Group) (slots : List Nat) (s : State), (s.tumbler u).blocks.find? (fun x => x.launch == n && x.num == k) = some b → s.launch? n = some l → b.saved = some gs → s.blockFits u l = true → s.slotsFor u (gs.map (·.idx)) [] = some slots → Runs (.blockResume u n k) s fun t => (∀ b ∈ (t.tumbler u).blocks, b.launch = n → b.num = k → b.slots = slots ∧ b.saved = none) ∧ (∀ g ∈ slots, (t.group? u g).isSome = true) ∧ t.ten = s.ten ∧ t.launches = s.launches) ∧
  (∀ (u : TumblerId) (s : State), 2 ≤ s.clk.released → (s.tumbler u).ready = false → Runs (.tumblerReady u) s fun t => t.tumbler u = { Tumbler.reset with ready := true } ∧ (∀ v, v ≠ u.val → t.tumbler v = s.tumbler v) ∧ t.mem = s.mem ∧ t.ten = s.ten) ∧
  (∀ (u : TumblerId) (k n : Nat) (s : State), ((s.tumbler u).groups.map fun g => List.replicate g.2.instances g.2.launch).flatten[k]? = some n → Runs (.barrierWatchdogExpiry u k) s fun t => t.onTumbler u n = false ∧ (∀ x ∈ t.launches, x.id = n → x.stopped = true ∧ x.code ≠ 0) ∧ t.ten = s.ten) ∧
  (∀ (u : TumblerId) (g : SlotId) (x : Group) (s : State), s.group? u g = some x → Runs (.repackWaitExpiry u g) s fun t => t.group? u g = some { x with frags := x.frags.map fun f => if f.st = .repack then { f with st := .ready, waited := true } else f } ∧ t.mem = s.mem ∧ t.ten = s.ten)

/-- With no range operation running and no line of the range locked, each range operation runs. WRITE_BACK leaves every live line of the range resident and clean. FLUSH leaves none resident, and a dirty one stands in the write-back buffer. DEAD_MARK takes the data of each unpinned line and leaves its tag, and a pinned line is as before. PIN leaves each line pinned or counts it in OP_RESULT. UNPIN leaves no pinned line; those it removes go to the write-back buffer when dirty. HBM and lines outside the range are as before where the operation writes none back. The end of an operation that waited on locked lines performs it on them and clears OP_BUSY; while one is locked it stays. -/
def Obligations.StoreRangeOperations : Prop :=
  (∀ (s : State), s.has F.cstStatusOpBusy = false → s.rd F.cstOpLenLines ≠ 0 → (∀ x ∈ s.rangeLines 0, s.rangeWaits x = false) → Runs (.cstWriteBack) s fun t => (∀ (x : Nat) (l : Line), s.rd F.cstOpBaseLine ≤ x → x < s.rd F.cstOpBaseLine + s.rd F.cstOpLenLines → KMap.find s.mem.lines x = some l → ∃ m, KMap.find t.mem.lines x = some m ∧ m.pinned = l.pinned ∧ m.dead = l.dead ∧ (l.dead = false → ∀ y ∈ m.g, y.wrote = 0)) ∧ (∀ x : Nat, ¬(s.rd F.cstOpBaseLine ≤ x ∧ x < s.rd F.cstOpBaseLine + s.rd F.cstOpLenLines) → KMap.find t.mem.lines x = KMap.find s.mem.lines x) ∧ t.has F.cstStatusOpBusy = true ∧ t.rd F.cstOpCtrlOp = 0 ∧ t.ten = s.ten) ∧
  (∀ (s : State), s.has F.cstStatusOpBusy = false → s.rd F.cstOpLenLines ≠ 0 → (∀ x ∈ s.rangeLines 1, s.rangeWaits x = false) → Runs (.cstFlush) s fun t => (∀ x : Nat, s.rd F.cstOpBaseLine ≤ x → x < s.rd F.cstOpBaseLine + s.rd F.cstOpLenLines → KMap.find t.mem.lines x = none ∧ (∀ l, KMap.find s.mem.lines x = some l → l.dead = false → l.g.any Gran.dirty = true → ⟨s.home (x * 256), x, l.g⟩ ∈ t.mem.wb)) ∧ (∀ x : Nat, ¬(s.rd F.cstOpBaseLine ≤ x ∧ x < s.rd F.cstOpBaseLine + s.rd F.cstOpLenLines) → KMap.find t.mem.lines x = KMap.find s.mem.lines x) ∧ t.mem.hbm = s.mem.hbm ∧ t.has F.cstStatusOpBusy = true ∧ t.rd F.cstOpCtrlOp = 1 ∧ t.ten = s.ten) ∧
  (∀ (s : State), s.has F.cstStatusOpBusy = false → s.rd F.cstOpLenLines ≠ 0 → (∀ x ∈ s.rangeLines 2, s.rangeWaits x = false) → Runs (.cstDeadMark) s fun t => (∀ (x : Nat) (l : Line), s.rd F.cstOpBaseLine ≤ x → x < s.rd F.cstOpBaseLine + s.rd F.cstOpLenLines → KMap.find s.mem.lines x = some l → KMap.find t.mem.lines x = (if l.pinned then some l else if l.region = none then none else some { l with dead := true, form := 0, g := List.replicate 4 Gran.reset })) ∧ (∀ x : Nat, ¬(s.rd F.cstOpBaseLine ≤ x ∧ x < s.rd F.cstOpBaseLine + s.rd F.cstOpLenLines) ∨ KMap.find s.mem.lines x = none → KMap.find t.mem.lines x = KMap.find s.mem.lines x) ∧ t.mem.hbm = s.mem.hbm ∧ t.mem.wb = s.mem.wb ∧ t.has F.cstStatusOpBusy = true ∧ t.ten = s.ten) ∧
  (∀ (s : State), s.has F.cstStatusOpBusy = false → s.rd F.cstOpLenLines ≠ 0 → (∀ x ∈ s.rangeLines 3, s.rangeWaits x = false) → (∀ w ∈ s.mem.wb, ¬(s.rd F.cstOpBaseLine ≤ w.line ∧ w.line < s.rd F.cstOpBaseLine + s.rd F.cstOpLenLines)) → Runs (.cstPin) s fun t => ((upto (s.rd F.cstOpBaseLine) (s.rd F.cstOpLenLines)).filter fun x => !((KMap.find t.mem.lines x).map (·.pinned) == some true)).length % 2 ^ 32 = t.rd F.cstOpResultNotPinned ∧ (∀ (x : Nat) (l : Line), KMap.find s.mem.lines x = some l → ∃ m, KMap.find t.mem.lines x = some m ∧ (l.pinned = true → m = l)) ∧ t.mem.hbm = s.mem.hbm ∧ t.mem.wb = s.mem.wb ∧ t.has F.cstStatusOpBusy = true ∧ t.ten = s.ten) ∧
  (∀ (s : State), s.has F.cstStatusOpBusy = false → s.rd F.cstOpLenLines ≠ 0 → (∀ x ∈ s.rangeLines 4, s.rangeWaits x = false) → Runs (.cstUnpin) s fun t => (∀ (x : Nat) (l : Line), s.rd F.cstOpBaseLine ≤ x → x < s.rd F.cstOpBaseLine + s.rd F.cstOpLenLines → KMap.find s.mem.lines x = some l → if l.pinned then KMap.find t.mem.lines x = none ∧ (l.dead = false → l.g.any Gran.dirty = true → ⟨s.home (x * 256), x, l.g⟩ ∈ t.mem.wb) else KMap.find t.mem.lines x = some l) ∧ (∀ x : Nat, ¬(s.rd F.cstOpBaseLine ≤ x ∧ x < s.rd F.cstOpBaseLine + s.rd F.cstOpLenLines) → KMap.find t.mem.lines x = KMap.find s.mem.lines x) ∧ t.mem.hbm = s.mem.hbm ∧ t.has F.cstStatusOpBusy = true ∧ t.ten = s.ten) ∧
  (∀ (o : RangeOp) (s : State), s.mem.op = some o → o.lines.any s.rangeWaits = false → Runs (.rangeOpEnd) s fun t => t.mem.op = none ∧ t.has F.cstStatusOpBusy = false ∧ (o.op = 1 → ∀ x ∈ o.lines, KMap.find t.mem.lines x = none) ∧ (o.op = 2 → ∀ x ∈ o.lines, ∀ l, KMap.find s.mem.lines x = some l → KMap.find t.mem.lines x = (if l.pinned then some l else if l.region = none then none else some { l with dead := true, form := 0, g := List.replicate 4 Gran.reset })) ∧ t.ten = s.ten) ∧
  (∀ (o : RangeOp) (s : State), s.mem.op = some o → o.lines.any s.rangeWaits = true → Runs (.rangeOpEnd) s fun t => t = s)

/-- After its domain is released a slice becomes ready, and READY sets with the fourth. A slice-map write that changes no SLICE stands at once; another waits with MAP_BUSY set, the entry unchanged, until its end, which leaves no line of the changed frames resident and the new entries in force, unless a line is locked. An apply that asks for more than 256 regions in a slice sets PART_INVALID; one within it sets PART_BUSY and takes the contents of the regions that leave the scratchpad, and no other byte of it. Its end puts SCRATCH, PIN and CACHE in force, clears PART_BUSY and sets PART_DONE; a line that stays is as it was. -/
def Obligations.StoreSetUp : Prop :=
  (∀ (q : QuadId) (s : State), 2 ≤ s.clk.released → (s.slice q).ready = false → Runs (.storeReady q) s fun t => t.slice q = { Slice.reset with ready := true, arrivals := (s.slice q).arrivals } ∧ (∀ x ∈ t.mem.lines, s.home (x.1 * 256) ≠ q.val) ∧ (∀ o : Nat, KMap.get t.mem.scratch o 0 = if q.val * 2 ^ 28 ≤ o ∧ o < (q.val + 1) * 2 ^ 28 then 0 else KMap.get s.mem.scratch o 0) ∧ t.mem.hbm = s.mem.hbm ∧ (∀ p : Nat, p ≠ q.val → t.slice p = s.slice p) ∧ t.rd F.cstStatusReady = (if (upto 0 4).all (fun i => i == q.val || (s.slice i).ready) then 1 else s.rd F.cstStatusReady) ∧ t.ten = s.ten ∧ t.out = s.out) ∧
  (∀ (i : Nat) (v : Word) (s : State), i < 24576 → mapChanged i (s.reg (.cstSlicemap i)).toNat v.toNat = [] → Runs (.slicemapWrite i v) s fun t => t.reg (.cstSlicemap i) = v.setWidth 64 ∧ (∀ j : Nat, j < 24576 → j ≠ i → t.reg (.cstSlicemap j) = s.reg (.cstSlicemap j)) ∧ t.mem = s.mem ∧ t.ten = s.ten) ∧
  (∀ (i : Nat) (v : Word) (s : State), i < 24576 → mapChanged i (s.reg (.cstSlicemap i)).toNat v.toNat ≠ [] → Runs (.slicemapWrite i v) s fun t => t.mem = { s.mem with mapNew := s.mem.mapNew ++ [(i, v)] } ∧ t.has F.cstStatusMapBusy = true ∧ (∀ j : Nat, j < 24576 → t.reg (.cstSlicemap j) = s.reg (.cstSlicemap j)) ∧ t.ten = s.ten) ∧
  (∀ (i : Nat) (v : Word) (s : State), i < 24576 → s.has F.cstStatusReady = true → (s.mem.mapNew.filter fun x => x.1 == i).getLast? = some (i, v) → (∀ x ∈ s.mem.lines, s.isLocked x.1 = false) → Runs (.slicemapChangeEnd) s fun t => t.mem.mapNew = [] ∧ t.has F.cstStatusMapBusy = false ∧ t.reg (.cstSlicemap i) = v.setWidth 64 ∧ (∀ f ∈ mapChanged i (s.reg (.cstSlicemap i)).toNat v.toNat, ∀ x : Nat, x / 8192 = f → KMap.find t.mem.lines x = none) ∧ t.ten = s.ten) ∧
  (∀ (s : State), s.has F.cstStatusPartBusy = false → (∃ q ∈ upto 0 4, 256 < s.rd (F.cstPartitionNextScratch q) + s.rd (F.cstPartitionNextPin q)) → Runs (.partitionApply) s fun t => t.has F.cstEventsPartInvalid = true ∧ t.has F.cstStatusPartBusy = false ∧ t.mem = s.mem ∧ (∀ q ∈ upto 0 4, t.reg (.cstPartition q) = s.reg (.cstPartition q)) ∧ t.ten = s.ten) ∧
  (∀ (s : State), s.has F.cstStatusPartBusy = false → (∀ q ∈ upto 0 4, s.rd (F.cstPartitionNextScratch q) + s.rd (F.cstPartitionNextPin q) ≤ 256 ∧ s.rd (F.cstPartitionScratch q) ≤ 256) → Runs (.partitionApply) s fun t => t.has F.cstStatusPartBusy = true ∧ (∀ o : Nat, ((∃ q ∈ upto 0 4, q * 2 ^ 28 + s.rd (F.cstPartitionNextScratch q) * 2 ^ 20 ≤ o ∧ o < q * 2 ^ 28 + s.rd (F.cstPartitionScratch q) * 2 ^ 20) → KMap.get t.mem.scratch o 0 = 0) ∧ (¬(∃ q ∈ upto 0 4, q * 2 ^ 28 + s.rd (F.cstPartitionNextScratch q) * 2 ^ 20 ≤ o ∧ o < q * 2 ^ 28 + s.rd (F.cstPartitionScratch q) * 2 ^ 20) → KMap.get t.mem.scratch o 0 = KMap.get s.mem.scratch o 0)) ∧ t.mem.applying = some ((upto 0 4).map fun q => (s.rd (F.cstPartitionNextScratch q), s.rd (F.cstPartitionNextPin q))) ∧ t.mem.hbm = s.mem.hbm ∧ t.mem.lines = s.mem.lines ∧ (∀ q ∈ upto 0 4, t.reg (.cstPartition q) = s.reg (.cstPartition q)) ∧ t.ten = s.ten) ∧
  (∀ (ps : List (Nat × Nat)) (s : State), s.mem.applying = some ps → (∀ p ∈ ps, p.1 + p.2 ≤ 256) → (∀ x ∈ s.leavingLines, s.isLocked x = false) → Runs (.partitionApplyEnd) s fun t => t.has F.cstStatusPartBusy = false ∧ t.has F.cstEventsPartDone = true ∧ t.mem.applying = none ∧ (∀ q ∈ upto 0 4, t.rd (F.cstPartitionScratch q) = (ps.getD q (0, 0)).1 ∧ t.rd (F.cstPartitionPin q) = (ps.getD q (0, 0)).2 ∧ t.rd (F.cstPartitionCache q) = 256 - (ps.getD q (0, 0)).1 - (ps.getD q (0, 0)).2) ∧ (∀ x : Nat, KMap.find t.mem.lines x = if x ∈ s.leavingLines then none else KMap.find s.mem.lines x) ∧ (∀ x ∈ t.mem.lines, x ∈ s.mem.lines) ∧ t.mem.hbm = s.mem.hbm ∧ t.mem.scratch = s.mem.scratch ∧ t.ten = s.ten) ∧
  (∀ (n : Fin 17) (s : State), Runs (.deadReadsClear n) s fun t => t.rd (F.cstDeadReadsCount n) = 0 ∧ (∀ m : Fin 17, m ≠ n → t.rd (F.cstDeadReadsCount m) = s.rd (F.cstDeadReadsCount m)) ∧ t.mem = s.mem ∧ t.ten = s.ten ∧ t.out = s.out)

/-- A marker that no access awaits takes the entries of its range from the unit's cache and is forwarded. A fill that finds room brings the line with every granule held, written bytes kept. An accepted write-back writes each dirty byte to HBM and nothing outside the line. A valid request to a resident line enters the queue; an invalid one is answered 030Ch; one whose line is away waits in the hold buffer. A reduction or an ATOM on a scratchpad line combines in place and the ATOM's values go to its source. A line waited on and unlocked leaves with its combined result. The scrubber counts a corrected error, drops a clean granule and poisons a dirty one with 0309h. -/
def Obligations.StoreTraffic : Prop :=
  (∀ (u n p k : Nat) (ms : List TreeMsg) (s : State), s.inbox u = .translation n p k :: ms → s.usesRange u n p k = false → Runs (.translationMarker u) s fun t => t.tlbOf u = (s.tlbOf u).filter (fun e => !(e.tenant == n && decide (p ≤ e.page ∧ e.page < p + k))) ∧ t.inbox u = ms ∧ t.out = .marker u 2 (n * 2 ^ 32 + p) :: s.out ∧ (∀ v : Nat, v ≠ u → t.tlbOf v = s.tlbOf v ∧ t.inbox v = s.inbox v) ∧ t.ten = s.ten) ∧
  (∀ (u f k : Nat) (ms : List TreeMsg) (s : State), s.inbox u = .isolation f k :: ms → Runs (.isolationMarker u) s fun t => t.tlbOf u = (s.tlbOf u).filter (fun e => !decide (f ≤ e.frame ∧ e.frame < f + k)) ∧ t.inbox u = ms ∧ t.out = .marker u 3 f :: s.out ∧ (∀ v : Nat, v ≠ u → t.tlbOf v = s.tlbOf v ∧ t.inbox v = s.inbox v) ∧ t.ten = s.ten) ∧
  (∀ (q : QuadId) (k x : Nat) (f : List Finding) (gens : List (List Byte)) (s : State), s.has F.hbmStatusReady = true → (s.slice q).fills[k]? = some x → (∀ y ∈ f, y = Finding.sound) → (∀ w ∈ s.mem.wb, w.line ≠ x) → s.cacheList q ≠ [] → (s.fill x false).2 = true → s.pwr.cut = false → Runs (.lineFillEnd q k f gens) s fun t => (KMap.find t.mem.lines x).map (·.g) = some (s.filled x (KMap.find s.mem.lines x) 0).g ∧ (t.slice q).fills = dropAt (s.slice q).fills k ∧ t.mem.hbm = s.mem.hbm ∧ t.ten = s.ten ∧ t.out = s.out) ∧
  (∀ (q : QuadId) (k : Nat) (w : WriteBack) (f : List Finding) (gens : List (List Byte)) (s : State), s.has F.hbmStatusReady = true → (s.mem.wb.filter fun w => w.slice == q.val)[k]? = some w → (∀ y ∈ f, y = Finding.sound) → (∀ y ∈ w.g, y.data.length = 64) → s.pwr.cut = false → Runs (.writebackAccepted q k f gens) s fun t => t.mem.wb = s.mem.wb.erase w ∧ t.mem.lines = s.mem.lines ∧ (∀ i ∈ upto 0 4, cells t.mem.hbm (64 * (4 * w.line + i)) 64 = (if (w.g.getD i Gran.reset).dirty then blend (w.g.getD i Gran.reset).wrote (w.g.getD i Gran.reset).data (cells s.mem.hbm (64 * (4 * w.line + i)) 64) else cells s.mem.hbm (64 * (4 * w.line + i)) 64)) ∧ (∀ a : Nat, a / 256 ≠ w.line → KMap.get t.mem.hbm a 0 = KMap.get s.mem.hbm a 0) ∧ t.ten = s.ten ∧ t.out = s.out) ∧
  (∀ (q : QuadId) (r : RedReq) (rs : List RedReq) (s : State), (s.slice q).ready = true → (s.slice q).hold.length < 64 → (s.slice q).arrivals = r :: rs → (if r.code = 0 then r.atoms ≠ [] else redValid r.code r.mask = true) → s.resident r.line = true → s.barred r.line = false → (inWindow (r.line * 256) = true ∨ ∀ x ∈ s.mem.classNew, x.1 ≠ r.line / 2 ^ 17) → (∀ y ∈ (s.slice q).hold, y.line ≠ r.line) → (s.slice q).queue.length < 60 → Runs (.reductionRequest q) s fun t => t.slice q = { s.slice q with arrivals := rs, queue := (s.slice q).queue ++ [r] } ∧ (∀ p : Nat, p ≠ q.val → t.slice p = s.slice p) ∧ t.mem.lines = s.mem.lines ∧ t.mem.hbm = s.mem.hbm ∧ t.mem.scratch = s.mem.scratch ∧ t.ten = s.ten ∧ t.out = s.out) ∧
  (∀ (q : QuadId) (r : RedReq) (rs : List RedReq) (s : State), (s.slice q).ready = true → (s.slice q).hold.length < 64 → (s.slice q).arrivals = r :: rs → (if r.code = 0 then r.atoms = [] else redValid r.code r.mask = false) → Runs (.reductionRequest q) s fun t => t = State.redAnswer (s.setSlice q { s.slice q with arrivals := rs }, some { req := r, code := 0x30C, values := [] })) ∧
  (∀ (q : QuadId) (r : RedReq) (rs : List RedReq) (s : State), (s.slice q).arrivals = r :: rs → (if r.code = 0 then r.atoms ≠ [] else redValid r.code r.mask = true) → inWindow (r.line * 256) = false → KMap.find s.mem.lines r.line = none → s.home (r.line * 256) = q.val → (s.slice q).ready = true → (s.slice q).hold.length < 64 → s.barred r.line = false → (∀ x ∈ s.mem.classNew, x.1 ≠ r.line / 2 ^ 17) → (∀ w ∈ s.mem.wb, w.line ≠ r.line) → Runs (.reductionRequest q) s fun t => (t.slice q).hold = (s.slice q).hold ++ [r] ∧ (t.slice q).arrivals = rs ∧ (t.slice q).queue = (s.slice q).queue ∧ r.line ∈ (t.slice q).fills ∧ t.mem.lines = s.mem.lines ∧ t.mem.hbm = s.mem.hbm ∧ t.ten = s.ten ∧ t.out = s.out) ∧
  (∀ (q : QuadId) (r : RedReq) (rs : List RedReq) (n m va : Nat) (s : State), (s.slice q).queue = r :: rs → r.src = .spindle n m va → redValid r.code r.mask = true → r.mask < 2 ^ 256 → inWindow (r.line * 256) = true → s.poisoned (r.line * 256) 256 = false → Runs (.reductionExecute q) s fun t => t.read (r.line * 256) 256 = redCombine r.code r.mask (fun _ => false) (s.read (r.line * 256) 256) r.data ∧ (∀ a : Nat, inWindow a = true → a / 256 ≠ r.line → t.read a 1 = s.read a 1) ∧ (t.slice q).queue.take rs.length = rs ∧ (r.line ∈ (t.slice q).locked ↔ ∃ y ∈ rs, y.line = r.line) ∧ t.mem.hbm = s.mem.hbm ∧ t.ten = s.ten ∧ t.out = s.out) ∧
  (∀ (q : QuadId) (r : RedReq) (rs : List RedReq) (u k : Nat) (s : State), (s.slice q).queue = r :: rs → r.src = .tumbler u k → r.code = 0 → (∀ x ∈ r.atoms, x.off + atomBytes x.ty ≤ 256) → inWindow (r.line * 256) = true → s.poisoned (r.line * 256) 256 = false → Runs (.reductionExecute q) s fun t => ∃ x : State, t = x.atomAnswer u k 0 (atomLanes (s.read (r.line * 256) 256) r.atoms).2 ∧ x.read (r.line * 256) 256 = (atomLanes (s.read (r.line * 256) 256) r.atoms).1 ∧ (x.slice q).queue.take rs.length = rs ∧ x.mem.hbm = s.mem.hbm ∧ x.ten = s.ten ∧ x.tum = s.tum ∧ x.out = s.out) ∧
  (∀ (q : QuadId) (x : Nat) (xs : List Nat) (l : Line) (s : State), (s.slice q).waits.filter (fun x => !(s.slice q).locked.contains x && !(s.slice q).queue.any (fun r => r.line == x)) = x :: xs → s.home (x * 256) = q.val → inWindow (x * 256) = false → KMap.find s.mem.lines x = some l → l.dead = false → l.g.any Gran.dirty = true → (∀ y ∈ s.setMates x, y.2.region ≠ none) → Runs (.evictionLockRelease q) s fun t => KMap.find t.mem.lines x = none ∧ t.mem.wb = s.mem.wb ++ [⟨q, x, l.g⟩] ∧ x ∉ (t.slice q).waits ∧ (t.slice q).hold = (s.slice q).hold ∧ (t.slice q).fills = (s.slice q).fills ∧ (∀ y : Nat, y ≠ x → KMap.find t.mem.lines y = KMap.find s.mem.lines y) ∧ t.mem.hbm = s.mem.hbm ∧ t.ten = s.ten ∧ t.out = s.out) ∧
  (∀ (q : QuadId) (g : Nat) (s : State), s.has F.cstCtrlScrub = true → (s.slice q).ready = true → Runs (.storeScrub q g .corrected) s fun t => t.rd F.cstSramCeCount = min (s.rd F.cstSramCeCount + 1) (2 ^ 32 - 1) ∧ t.has F.cstEventsSramCe = true ∧ t.mem = s.mem ∧ t.ten = s.ten ∧ t.out = s.out) ∧
  (∀ (q : QuadId) (g : Nat) (l : Line) (s : State), s.has F.cstCtrlScrub = true → (s.slice q).ready = true → inWindow (64 * g) = false → KMap.find s.mem.lines (g / 4) = some l → (l.g.getD (g % 4) Gran.reset).wrote = 0 → Runs (.storeScrub q g .uncorrectable) s fun t => (∃ m, KMap.find t.mem.lines (g / 4) = some m ∧ m.pinned = l.pinned ∧ m.dead = false ∧ m.region = l.region ∧ m.g = (upto 0 4).map fun i => { t.below (g / 4 * 4 + i) with wrote := 0 }) ∧ t.has F.cstEventsSramUe = true ∧ (∀ y : Nat, y ≠ g / 4 → KMap.find t.mem.lines y = KMap.find s.mem.lines y) ∧ (∀ w ∈ t.mem.wb, w.line ≠ g / 4) ∧ t.ten = s.ten ∧ t.out = s.out) ∧
  (∀ (q : QuadId) (g : Nat) (l : Line) (s : State), s.has F.cstCtrlScrub = true → (s.slice q).ready = true → inWindow (64 * g) = false → KMap.find s.mem.lines (g / 4) = some l → (l.g.getD (g % 4) Gran.reset).wrote ≠ 0 → Runs (.storeScrub q g .uncorrectable) s fun t => KMap.find t.mem.lines (g / 4) = some { l with g := setAt l.g (g % 4) { l.g.getD (g % 4) Gran.reset with poison := true } } ∧ t.has F.cstEventsSramUe = true ∧ .event 0x309 .firmware [64 * g] ∈ t.out ∧ (s.has F.resStatusReady = true → RiskInput.storeSram ∈ t.health.inputs) ∧ t.mem.hbm = s.mem.hbm ∧ t.ten = s.ten)

/-- Training sets the state of each failed channel to FAILED_TRAINING with 030Eh and sets TRAINED. INIT.GO lists the live pseudo-channels in ascending order, sets LIVE_PC and every class to detect-only; its end zeroes HBM, sets CAPACITY to P GiB and READY. A class change of a group without a used frame is held until its end, which zeroes the group, sets its class, and leaves every other group as it was. Before READY a map-out sets the channel's state and moves nothing; after it a buffer under 32 regions refuses it; of a failing channel without used frames above the new capacity it lowers CAPACITY and LIVE_PC and starts the relayout. Its end poisons the granules lost, clears RELAYOUT_BUSY, sets RELAYOUT_DONE and the state MAPPED_OUT with 030Eh. -/
def Obligations.HbmSetUp : Prop :=
  (∀ (f : List (Fin 192)) (s : State), 4 ≤ s.clk.released → s.has F.hbmStatusTrained = false → s.has F.durStatusReady = false → Runs (.hbmTrainingEnd f) s fun t => (∀ c : Fin 192, t.rd (F.hbmChstateState c) = (if c ∈ f then 3 else s.rd (F.hbmChstateState c))) ∧ t.has F.hbmStatusTrained = true ∧ (∀ c ∈ f, .event 0x30E .device [c.val, 3] ∈ t.out) ∧ t.mem = { s.mem with dieRead := s.mem.dieNew, dieNew := [] } ∧ t.ten = s.ten) ∧
  (∀ (s : State), s.has F.hbmStatusTrained = true → s.has F.hbmStatusReady = false → s.has F.hbmStatusInitBusy = false → s.has F.durStatusReady = true → s.recordedChannels = [] → Runs (.hbmInitGo) s fun t => t.has F.hbmStatusInitBusy = true ∧ t.rd F.hbmStatusLivePc = 2 * ((upto 0 192).filter fun c => decide (s.rd (F.hbmChstateState c) < 2)).length ∧ (∀ k ∈ upto 0 384, t.rd (F.hbmPcmapPc k) = ((((upto 0 192).filter fun c => decide (s.rd (F.hbmChstateState c) < 2))[k / 2]?).map fun c => 2 * c + k % 2).getD 0x1FF) ∧ (∀ w ∈ upto 0 384, t.reg (.hbmClassmap w) = 0) ∧ (∀ c : Fin 192, t.rd (F.hbmChstateState c) = s.rd (F.hbmChstateState c)) ∧ t.mem = s.mem ∧ t.ten = s.ten ∧ t.out = s.out) ∧
  (∀ (s : State), s.has F.hbmStatusInitBusy = true → Runs (.hbmInitEnd) s fun t => t.has F.hbmStatusInitBusy = false ∧ t.has F.hbmStatusReady = true ∧ t.reg .hbmCapacity = BitVec.ofNat 64 (s.rd F.hbmStatusLivePc * 2 ^ 30) ∧ t.mem = { s.mem with hbm := [], hbmPoison := [] } ∧ t.ten = s.ten ∧ t.out = s.out) ∧
  (∀ (g : Nat) (b : Bool) (s : State), g < 12288 → s.groupUsed g = false → Runs (.protectionClassChange g b) s fun t => t.mem = { s.mem with classNew := s.mem.classNew ++ [(g, b)] } ∧ t.regs = s.regs ∧ t.ten = s.ten ∧ t.out = s.out) ∧
  (∀ (g : Nat) (b : Bool) (xs : List (Nat × Bool)) (s : State), s.mem.classNew = (g, b) :: xs → g < 12288 → Runs (.classChangeEnd) s fun t => t.mem.classNew = xs ∧ (∀ h : Nat, h < 12288 → t.corrected (h * 2 ^ 25) = if h = g then b else s.corrected (h * 2 ^ 25)) ∧ (∀ a : Nat, a / 2 ^ 25 = g → t.read a 1 = [0] ∧ t.poisoned a 1 = false) ∧ (∀ a : Nat, a / 2 ^ 25 ≠ g → t.read a 1 = s.read a 1) ∧ t.ten = s.ten ∧ t.out = s.out) ∧
  (∀ (ch : Fin 192) (s : State), s.has F.hbmStatusReady = false → Runs (.mapoutGo ch) s fun t => t.rd (F.hbmChstateState ch) = 2 ∧ (∀ c : Fin 192, c ≠ ch → t.rd (F.hbmChstateState c) = s.rd (F.hbmChstateState c)) ∧ t.reg .hbmCapacity = s.reg .hbmCapacity ∧ t.mem = s.mem ∧ t.ten = s.ten ∧ .event 0x30E .device [ch.val, 2] ∈ t.out) ∧
  (∀ (ch : Fin 192) (s : State), s.has F.hbmStatusReady = true → s.rd F.hbmRelayoutBufRegions < 32 → Runs (.mapoutGo ch) s fun t => t.has F.hbmEventsMapoutRefused = true ∧ (∀ c : Fin 192, t.rd (F.hbmChstateState c) = s.rd (F.hbmChstateState c)) ∧ t.reg .hbmCapacity = s.reg .hbmCapacity ∧ t.mem = s.mem ∧ t.ten = s.ten ∧ t.out = s.out) ∧
  (∀ (ch : Fin 192) (s : State), s.has F.hbmStatusReady = true → 32 ≤ s.rd F.hbmRelayoutBufRegions → s.has F.hbmStatusRelayoutBusy = false → s.rd (F.hbmChstateState ch) = 1 → (KMap.find s.journal.live (liveKey 3 ch)).isSome = true → (∀ n ∈ upto 0 16, s.active n = true → s.atBoundary n = true) → (∀ f ∈ s.usedFrames, f < 196608 → f * 2 ^ 21 < (s.reg .hbmCapacity).toNat - 2 ^ 31) → Runs (.mapoutGo ch) s fun t => t.has F.hbmStatusRelayoutBusy = true ∧ t.mem.relayout = some ch.val ∧ t.reg .hbmCapacity = BitVec.ofNat 64 ((s.reg .hbmCapacity).toNat - 2 ^ 31) ∧ t.rd F.hbmStatusLivePc = 2 * (((upto 0 192).filter fun c => decide (s.rd (F.hbmChstateState c) < 2)).length - 1) ∧ (∀ f : Nat, f < 196608 → ((s.reg .hbmCapacity).toNat - 2 ^ 31) / 2 ^ 21 ≤ f → t.isoEntry f = 0) ∧ (∀ c : Fin 192, t.rd (F.hbmChstateState c) = s.rd (F.hbmChstateState c)) ∧ t.ten = s.ten ∧ t.out = s.out) ∧
  (∀ (gs : List Nat) (bs : List (List Byte)) (c : Nat) (s : State), s.mem.relayout = some c → c < 192 → (∀ g ∈ gs, 64 * g < (s.reg .hbmCapacity).toNat ∧ s.wasOn c (g / 4) = true ∧ s.corrected (64 * g) = true ∧ s.frozenIn (64 * g / 2 ^ 21) = [] ∧ ∀ n ∈ upto 0 16, s.inForce n (64 * g / 2 ^ 21) (64 * g % 2 ^ 21) = none ∧ s.slotInForce n (64 * g / 2 ^ 21) (64 * g % 2 ^ 21) = none) → Runs (.relayoutEnd gs bs) s fun t => t.mem.relayout = none ∧ t.has F.hbmStatusRelayoutBusy = false ∧ t.has F.hbmEventsRelayoutDone = true ∧ t.rd (F.hbmChstateState c) = 2 ∧ .event 0x30E .device [c, 2] ∈ t.out ∧ (∀ g ∈ gs, KMap.get t.mem.hbmPoison g false = true) ∧ (∀ a : Nat, a < (s.reg .hbmCapacity).toNat → a / 64 ∉ gs → KMap.get t.mem.hbm a 0 = KMap.get s.mem.hbm a 0) ∧ t.ten = s.ten)

/-- A sound finding changes nothing, nor does one on a granule already poisoned. A corrected finding counts at the channel. An uncorrectable one writes the granule as zero and poisoned, counts, shows its address and raises 030Dh; in a detect-only frame the open step of the tenant that may write it ends. A pass's end clears the UE counts. A reading above 85 C sets THERMAL, one above the warning limit reaches the monitor. A refresh is counted by an open amount. For a frozen frame the source's bytes go to a staging frame and the keeper is asked; with no source left the weight stays unrecovered; a restored frame is copied and its tenants are told. -/
def Obligations.HbmFindings : Prop :=
  (∀ (g : Nat) (bs : List (List Byte)) (s : State), Runs (.hbmScrubRead g .sound bs) s fun t => t = s) ∧
  (∀ (g : Nat) (bs : List (List Byte)) (s : State), KMap.get s.mem.hbmPoison g false = true → Runs (.hbmScrubRead g .uncorrectable bs) s fun t => t = s) ∧
  (∀ (g : Nat) (bs : List (List Byte)) (s : State), s.has F.hbmStatusReady = true → s.rd F.hbmCtrlScrubMin ≠ 0 → 64 * g < (s.reg .hbmCapacity).toNat → s.corrected (64 * g) = true → s.channelOf (64 * g) < 192 → s.pwr.cut = false → Runs (.hbmScrubRead g .corrected bs) s fun t => t.rd (F.hbmChstateCe (s.channelOf (64 * g))) = min (s.rd (F.hbmChstateCe (s.channelOf (64 * g))) + 1) 65535 ∧ t.mem = s.mem ∧ t.ten = s.ten ∧ t.out = s.out) ∧
  (∀ (g : Nat) (bs : List (List Byte)) (s : State), s.has F.hbmStatusReady = true → s.rd F.hbmCtrlScrubMin ≠ 0 → 64 * g < (s.reg .hbmCapacity).toNat → KMap.get s.mem.hbmPoison g false = false → s.corrected (64 * g) = true → s.channelOf (64 * g) < 192 → s.frozenIn (64 * g / 2 ^ 21) = [] → (∀ n ∈ upto 0 16, s.inForce n (64 * g / 2 ^ 21) (64 * g % 2 ^ 21) = none ∧ s.slotInForce n (64 * g / 2 ^ 21) (64 * g % 2 ^ 21) = none) → s.pwr.cut = false → Runs (.hbmScrubRead g .uncorrectable bs) s fun t => KMap.get t.mem.hbmPoison g false = true ∧ cells t.mem.hbm (64 * g) 64 = zeros 64 ∧ (∀ a : Nat, a / 64 ≠ g → KMap.get t.mem.hbm a 0 = KMap.get s.mem.hbm a 0) ∧ t.rd (F.hbmChstateUe (s.channelOf (64 * g))) = min (s.rd (F.hbmChstateUe (s.channelOf (64 * g))) + 1) 255 ∧ t.reg .hbmUeAddr = BitVec.ofNat 64 (64 * g) ∧ t.has F.hbmEventsUe = true ∧ .event 0x30D .firmware [64 * g] ∈ t.out ∧ .event 0x30D .health [64 * g] ∈ t.out ∧ t.ten = s.ten) ∧
  (∀ (g : Nat) (bs : List (List Byte)) (n : TenantId) (s : State), s.has F.hbmStatusReady = true → s.rd F.hbmCtrlScrubMin ≠ 0 → 64 * g < (s.reg .hbmCapacity).toNat → KMap.get s.mem.hbmPoison g false = false → s.corrected (64 * g) = false → s.writers (64 * g / 2 ^ 21) = [n.val] → (s.tenant n).step.phase = .opened → s.frozenIn (64 * g / 2 ^ 21) = [] → (∀ m ∈ upto 0 16, s.inForce m (64 * g / 2 ^ 21) (64 * g % 2 ^ 21) = none ∧ s.slotInForce m (64 * g / 2 ^ 21) (64 * g % 2 ^ 21) = none) → s.pwr.cut = false → Runs (.hbmScrubRead g .uncorrectable bs) s fun t => t = ((s.hbmLost g).abortStep n) ∧ (t.tenant n).step.phase = .idle) ∧
  (∀ (s : State), s.rd F.hbmCtrlScrubMin ≠ 0 → Runs (.scrubPassEnd) s fun t => (∀ c : Fin 192, t.rd (F.hbmChstateUe c) = 0 ∧ t.rd (F.hbmChstateCe c) = s.rd (F.hbmChstateCe c) ∧ t.rd (F.hbmChstateState c) = s.rd (F.hbmChstateState c)) ∧ t.has F.hbmEventsScrubPass = true ∧ t.mem = { s.mem with dieRead := s.mem.dieNew, dieNew := [] } ∧ t.ten = s.ten ∧ t.out = s.out) ∧
  (∀ (k : Fin 12) (x : Int) (s : State), Runs (.hbmTempRead k x) s fun t => (k.val ∈ t.mem.warm ↔ 850 < x) ∧ (∀ j : Nat, j ≠ k.val → (j ∈ t.mem.warm ↔ j ∈ s.mem.warm)) ∧ (850 < x → k.val ∉ s.mem.warm → t.has F.hbmEventsThermal = true) ∧ (900 < x → s.has F.resStatusReady = true → RiskInput.thermalWarn ∈ t.health.inputs) ∧ t.mem.hbm = s.mem.hbm ∧ t.ten = s.ten) ∧
  (∀ (ch : Fin 192) (b : Nat) (s : State), Runs (.hbmRefresh ch b) s fun t => ∃ k : Nat, t = (s.count (channelUnit ch) 6 k).drawn) ∧
  (∀ (data : Option (List Byte)) (r : Recovery) (bs : List Byte) (x : State) (a : Nat) (s : State), s.mem.recoveries.find? (fun r => r.stage == 0) = some r → s.sourceData r data = some bs → s.mbxRd false F.secStatusBusy ≠ 1 → s.stagingFrame r = (x, some a) → Runs (.frozenStageEnd data) s fun t => t = ((x.write (frameAddr a) (bs.take (2 ^ 21) ++ zeros (2 ^ 21 - bs.length))).putRecovery { r with staging := a, stage := 1 }).askRestore a r.frame) ∧
  (∀ (r : Recovery) (s : State), s.mem.recoveries.find? (fun r => r.stage == 0) = some r → s.sourceData r none = none → r.tried = 0 → Runs (.frozenStageEnd none) s fun t => t = s.putRecovery { r with tried := 1 }) ∧
  (∀ (r : Recovery) (s : State), s.mem.recoveries.find? (fun r => r.stage == 0) = some r → s.sourceData r none = none → r.tried ≠ 0 → Runs (.frozenStageEnd none) s fun t => (∀ z ∈ t.frozen, z.name = r.name → z.unrecovered = true) ∧ (∀ x ∈ t.mem.recoveries, x.frame ≠ r.frame) ∧ (∀ n ∈ r.tenants, ∃ as : List Nat, .event 0x310 (.tenant n) as ∈ t.out)) ∧
  (∀ (r : Recovery) (s : State), s.mem.recoveries.find? (fun r => r.stage == 2) = some r → Runs (.frozenRestoreCopyEnd) s fun t => ((s.write (frameAddr r.frame) (s.read (frameAddr r.staging) (2 ^ 21))).taggedCheck r.frame r.frame = s.taggedCheck r.staging r.frame → t = (s.write (frameAddr r.frame) (s.read (frameAddr r.staging) (2 ^ 21))).endRecovery r 0x30F ∧ (∀ x ∈ t.mem.recoveries, x.frame ≠ r.frame) ∧ (∀ n ∈ r.tenants, ∃ as : List Nat, .event 0x30F (.tenant n) as ∈ t.out)) ∧ ((s.write (frameAddr r.frame) (s.read (frameAddr r.staging) (2 ^ 21))).taggedCheck r.frame r.frame ≠ s.taggedCheck r.staging r.frame → t = s))

/-- An ALLOC whose descriptor is allowed ends with status 0 and the handle of a tensor that the tenant then holds as declared; one that is refused ends with its status and changes no tenant's part. A FREE makes the handle stale and ends with 0; of an unknown handle it ends with 0315h, of one that holds a synchronisation record with 0317h. A QUERY writes the header and the records that fit and returns their full number. A CONSTRAIN is refused with 0317h and nothing changed, or pends for the next boundary. A FROZEN_LOAD of the creator's own weight runs until its end, which waits while its flash image may not be written (log 170) and then loads the weight or, when the fabric failed, leaves it not loaded. -/
def Obligations.PlacementCommandsAct : Prop :=
  (∀ (n : TenantId) (r : RingId) (e : Entry) (d : List Byte) (x : State) (h : Nat) (s : State), s.mayRun n r 0x18 e → e.arg 0 8 % 64 = 0 → ((s.begun n r e).fwRead n (e.arg 0 8) 64).2 = .ok d → (((s.begun n r e).fwRead n (e.arg 0 8) 64).1.allocate n d).toOption = some (x, h) → Runs (.alloc n r) s fun t => t.outcome n r e.cid = some (0, h, 0) ∧ (∃ y ∈ (t.tenant n).place.tensors, y.handle = h ∧ y.cls = fld d 0 1 ∧ y.vectors = fld d 8 4 ∧ y.length = fld d 0xC 4 ∧ y.freed = false) ∧ t.mem.hbm = x.mem.hbm ∧ t.frozen = x.frozen) ∧
  (∀ (n : TenantId) (r : RingId) (e : Entry) (d : List Byte) (k : Nat) (s : State), s.mayRun n r 0x18 e → e.arg 0 8 % 64 = 0 → ((s.begun n r e).fwRead n (e.arg 0 8) 64).2 = .ok d → (match ((s.begun n r e).fwRead n (e.arg 0 8) 64).1.allocate n d with | .error j => some j | .ok _ => none) = some k → Runs (.alloc n r) s fun t => t.outcome n r e.cid = some (k, 0, 0) ∧ (t.tenant n).place = (s.tenant n).place ∧ t.frozen = s.frozen ∧ (∀ m : Fin 16, m ≠ n → t.tenant m = s.tenant m)) ∧
  (∀ (n : TenantId) (r : RingId) (e : Entry) (x : Tensor) (s : State), s.mayRun n r 0x19 e → s.tensor? n (e.arg 0 4) = some x → s.holdsRecord x.parts = false → Runs (.free n r) s fun t => t.outcome n r e.cid = some (0, 0, 0) ∧ t.tensor? n (e.arg 0 4) = none ∧ (∀ h, h ≠ e.arg 0 4 → t.tensor? n h = s.tensor? n h) ∧ t.mem = s.mem ∧ (∀ m : Fin 16, m ≠ n → t.tenant m = s.tenant m)) ∧
  (∀ (n : TenantId) (r : RingId) (e : Entry) (s : State), s.mayRun n r 0x19 e → s.tensor? n (e.arg 0 4) = none → Runs (.free n r) s fun t => t.outcome n r e.cid = some (0x315, 0, 0) ∧ (t.tenant n).place = (s.tenant n).place ∧ t.mem = s.mem ∧ (∀ m : Fin 16, m ≠ n → t.tenant m = s.tenant m)) ∧
  (∀ (n : TenantId) (r : RingId) (e : Entry) (x : Tensor) (s : State), s.mayRun n r 0x19 e → s.tensor? n (e.arg 0 4) = some x → s.holdsRecord x.parts = true → Runs (.free n r) s fun t => t.outcome n r e.cid = some (0x317, 0, 0) ∧ (t.tenant n).place = (s.tenant n).place ∧ t.mem = s.mem ∧ (∀ m : Fin 16, m ≠ n → t.tenant m = s.tenant m)) ∧
  (∀ (n : TenantId) (r : RingId) (e : Entry) (q : List (List Byte)) (x : State) (bs : List Byte) (s : State), s.mayRun n r 0x1A e → e.arg 8 8 % 64 = 0 → (e.arg 0 4 = 0 ∨ (s.tensor? n (e.arg 0 4)).isSome = true) → ((byHandle ((s.tenant n).place.tensors.filter fun x => !x.freed && (e.arg 0 4 == 0 || x.handle == e.arg 0 4))).map fun x => (s.begun n r e).tensorRecords n x).flatten = q → (s.begun n r e).fwWrite n (e.arg 8 8) (if e.arg 0x10 4 < 64 then [] else (s.begun n r e).queryHeader n q.length (q.take ((e.arg 0x10 4 - 64) / 64)).length ++ (q.take ((e.arg 0x10 4 - 64) / 64)).flatten) = (x, .ok bs) → Runs (.query n r) s fun t => t.outcome n r e.cid = some (0, q.length, 0) ∧ t.mem = x.mem ∧ (t.tenant n).place = (s.tenant n).place ∧ (∀ m : Fin 16, m ≠ n → t.tenant m = s.tenant m)) ∧
  (∀ (n : TenantId) (r : RingId) (e : Entry) (x : Tensor) (s : State), s.mayRun n r 0x1B e → s.tensor? n (e.arg 0 4) = some x → e.arg 8 4 < 128 → e.arg 0xC 4 < 128 → e.arg 0x10 1 < 16 → e.arg 0x11 1 < 4 → e.arg 0x12 6 = 0 → (s.begun n r e).constraintRefused n x (e.arg 8 4) (e.arg 0xC 4) (e.arg 0x10 1) = false → Runs (.constrain n r) s fun t => t.outcome n r e.cid = some (0, 0, 0) ∧ t.tensor? n (e.arg 0 4) = some { x with pending := some (joinConstraint x.pending (e.arg 8 4) (e.arg 0xC 4) (e.arg 0x10 1) (e.arg 0x11 1)) } ∧ t.mem = s.mem ∧ (∀ m : Fin 16, m ≠ n → t.tenant m = s.tenant m)) ∧
  (∀ (n : TenantId) (r : RingId) (e : Entry) (x : Tensor) (s : State), s.mayRun n r 0x1B e → s.tensor? n (e.arg 0 4) = some x → e.arg 8 4 < 128 → e.arg 0xC 4 < 128 → e.arg 0x10 1 < 16 → e.arg 0x11 1 < 4 → e.arg 0x12 6 = 0 → (s.begun n r e).constraintRefused n x (e.arg 8 4) (e.arg 0xC 4) (e.arg 0x10 1) = true → Runs (.constrain n r) s fun t => t.outcome n r e.cid = some (0x317, 0, 0) ∧ (t.tenant n).place = (s.tenant n).place ∧ t.mem = s.mem ∧ (∀ m : Fin 16, m ≠ n → t.tenant m = s.tenant m)) ∧
  (∀ (n : TenantId) (r : RingId) (e : Entry) (x : Tensor) (z : Frozen) (s : State), s.mayRun n r 0x1C e → s.tensor? n (e.arg 0 4) = some x → x.cls = 2 → e.arg 4 1 ≤ 1 → e.arg 5 1 ≤ 1 → s.frozenOf n x = some z → z.creator = n → z.loading = none → Runs (.frozenLoad n r) s fun t => t.outcome n r e.cid = none ∧ (∀ y ∈ t.frozen, y.name = z.name → y.loading = some (n.val, x.handle, e.cid) ∧ y.loaded = false) ∧ (t.tenant n).place = (s.tenant n).place ∧ t.mem = s.mem ∧ (∀ m : Fin 16, m ≠ n → t.tenant m = s.tenant m)) ∧
  (∀ (n : TenantId) (r : RingId) (e : Entry) (x : Tensor) (z : Frozen) (s : State), s.mayRun n r 0x1C e → s.tensor? n (e.arg 0 4) = some x → x.cls = 2 → e.arg 4 1 ≤ 1 → e.arg 5 1 ≤ 1 → s.frozenOf n x = some z → (z.creator ≠ n ∨ z.loading ≠ none) → Runs (.frozenLoad n r) s fun t => t.outcome n r e.cid = some (0x316, 0, 0) ∧ t.frozen = s.frozen ∧ (t.tenant n).place = (s.tenant n).place ∧ t.mem = s.mem ∧ (∀ m : Fin 16, m ≠ n → t.tenant m = s.tenant m)) ∧
  (∀ (n : TenantId) (r : RingId) (e : Entry) (i k : Half) (d : List Byte) (x : Tensor) (z : Frozen) (s : State), s.startedAt n r i.toNat = some e → s.entry? n r e.cid = some e → s.waits = [] → e.arg 4 1 = 1 → k = 0 → s.areaWritable 2 = true → s.tensor? n (e.arg 0 4) = some x → (∀ q ∈ x.parts, q.spilled = false) → s.frozen.find? (fun z => match z.loading with | some (t', _, c) => t' == n.val && c == e.cid | none => false) = some z → s.frozen.find? (fun y => y.name == z.name) = some z → Runs (.frozenLoadEnd n r i d k) s fun t => (t.frozen.find? (fun y => y.name == z.name)).map (fun y => (y.loaded, y.loading, y.unrecovered, y.amax)) = some (true, none, false, amaxOf (sourceWords (e.arg 5 1) (d.take (z.vectors * z.length * (if e.arg 5 1 = 0 then 4 else 2)) ++ zeros (z.vectors * z.length * (if e.arg 5 1 = 0 then 4 else 2) - d.length)))) ∧ t.outcome n r e.cid = some (0, z.vectors * z.length * (if e.arg 5 1 = 0 then 4 else 2), 0)) ∧
  (∀ (n : TenantId) (r : RingId) (e : Entry) (i : Half) (d : List Byte) (s : State), s.startedAt n r i.toNat = some e → s.areaWritable 2 = false → Runs (.frozenLoadEnd n r i d 0) s fun t => t = s) ∧
  (∀ (n : TenantId) (r : RingId) (e : Entry) (i k : Half) (d : List Byte) (x : Tensor) (z : Frozen) (s : State), s.startedAt n r i.toNat = some e → s.entry? n r e.cid = some e → s.waits = [] → e.arg 4 1 = 1 → k ≠ 0 → s.tensor? n (e.arg 0 4) = some x → (∀ q ∈ x.parts, q.spilled = false) → s.frozen.find? (fun z => match z.loading with | some (t', _, c) => t' == n.val && c == e.cid | none => false) = some z → s.frozen.find? (fun y => y.name == z.name) = some z → Runs (.frozenLoadEnd n r i d k) s fun t => (∀ y ∈ t.frozen, y.name = z.name → y.loading = none) ∧ (t.frozen.find? (fun y => y.name == z.name)).map (·.loaded) = some z.loaded ∧ t.mem = s.mem ∧ t.outcome n r e.cid = some (k.toNat, 0, 0))

/-- When its domain has settled the fabric is READY and every port is trained. A training that fails leaves the port DOWN; one on eight lanes with an anchor starts the exchange in AUTH with DEV_NONCE, and without an anchor fails with cause 1, with a failed entropy source with cause 4. A flit that fails its check is answered NAK with the last good number; one received before is dropped; the next one in order is taken, its credits returned, and its packets go to their queues by type. A fragment joins its frame, or fails the exchange with cause 6. A sound SW_HELLO starts the proof; a bad chain or signature fails it. An accepting SW_DONE brings the port UP or DEGRADED; another verdict, an ABORT and the time limit end it DOWN with 090Bh. A peer marker drops an engine's copies and is forwarded. -/
def Obligations.PortsAndLinks : Prop :=
  (∀ (s : State), 3 ≤ s.clk.released → s.has F.fabStatusReady = false → Runs (.fabricReady) s fun t => t.has F.fabStatusReady = true ∧ (∀ p ∈ upto 0 9, t.portState p = portTraining) ∧ t.mem = s.mem) ∧
  (∀ (p : PortId) (s : State), s.has F.fabStatusReady = true → (s.portState p = portTraining ∨ s.portState p = portRetrain) → Runs (.portTrainingEnd p .failed) s fun t => t.portState p = portDown ∧ .event 0x40A .firmware [p, portDown] ∈ t.out ∧ .event 0x40A .health [p, portDown] ∈ t.out ∧ t.has F.fabEventsLinkState = true ∧ t.mem = s.mem) ∧
  (∀ (p : PortId) (d : List Byte) (s : State), s.has F.fabStatusReady = true → (s.portState p = portDown ∨ s.portState p = portTraining ∨ s.portState p = portRetrain) → s.keeperValue 0x104 0 = some d → leNat d ≠ 0 → s.has F.secStatusEntropyFail = false → Runs (.portTrainingEnd p .x8) s fun t => t.portState p = portAuth ∧ t.rd (F.fabPortLanes p) = 0xFF ∧ (∃ k : Nat, (t.port p).auth = some { nonce := k, ftype := 0, fragments := 0, frame := [], whole := false, proved := false } ∧ .authFrame p ([0x01] ++ leBytes 32 k ++ leBytes 1 p ++ zeros 31) ∈ t.out) ∧ t.mem = s.mem) ∧
  (∀ (p : PortId) (d : List Byte) (s : State), s.has F.fabStatusReady = true → (s.portState p = portDown ∨ s.portState p = portTraining ∨ s.portState p = portRetrain) → s.keeperValue 0x104 0 = some d → leNat d ≠ 0 → s.has F.secStatusEntropyFail = true → Runs (.portTrainingEnd p .x8) s fun t => t.portState p = portDown ∧ .event 0x90B .firmware [4 + p * 2 ^ 16] ∈ t.out ∧ t.has F.fabEventsAuthFail = true ∧ t.has F.secEventsLinkAuthFail = true ∧ t.mem = s.mem) ∧
  (∀ (p : PortId) (s : State), s.has F.fabStatusReady = true → (s.portState p = portDown ∨ s.portState p = portTraining ∨ s.portState p = portRetrain) → s.keeperValue 0x104 0 = none → Runs (.portTrainingEnd p .x8) s fun t => t.portState p = portDown ∧ .event 0x90B .firmware [1 + p * 2 ^ 16] ∈ t.out ∧ t.has F.fabEventsAuthFail = true ∧ t.has F.secEventsLinkAuthFail = true ∧ t.mem = s.mem) ∧
  (∀ (p : PortId) (f : Flit) (s : State), (s.portState p = portAuth ∨ s.passes p = true) → (f.uncorrectable = true ∨ crc32c (f.bytes ++ (leBytes 4 (f.seq.toNat + f.ack.toNat * 2 ^ 12 + f.vc.toNat * 2 ^ 24 + f.credits.toNat * 2 ^ 26))) ≠ f.crc.toNat) → Runs (.flitReceive p f) s fun t => t.out = .nak p ((s.port p).rxSeq.getD 4095) :: s.out ∧ t.fab = s.fab ∧ t.regs = s.regs ∧ t.mem = s.mem) ∧
  (∀ (p : PortId) (f : Flit) (q : Nat) (s : State), (s.portState p = portAuth ∨ s.passes p = true) → f.uncorrectable = false → crc32c (f.bytes ++ (leBytes 4 (f.seq.toNat + f.ack.toNat * 2 ^ 12 + f.vc.toNat * 2 ^ 24 + f.credits.toNat * 2 ^ 26))) = f.crc.toNat → (s.port p).rxSeq = some q → f.seq.toNat = q → f.correctedSymbols = 0 → Runs (.flitReceive p f) s fun t => t.out = s.out ∧ t.fab = s.fab ∧ t.regs = s.regs ∧ t.mem = s.mem) ∧
  (∀ (p : PortId) (f : Flit) (ps : List (List Byte)) (b : List Byte) (s : State), s.passes p = true → s.has F.fabStatusNodeValid = true → f.uncorrectable = false → crc32c (f.bytes ++ (leBytes 4 (f.seq.toNat + f.ack.toNat * 2 ^ 12 + f.vc.toNat * 2 ^ 24 + f.credits.toNat * 2 ^ 26))) = f.crc.toNat → f.correctedSymbols = 0 → ((s.port p).rxSeq = none ∨ (s.port p).rxSeq = some ((f.seq.toNat + 4095) % 4096)) → (s.port p).txAck < 4096 → f.ack.toNat = ((s.port p).txAck + 4095) % 4096 → f.vc ≠ 3 → cutPackets (((s.port p).rx ++ f.bytes).length / 8 + 1) ((s.port p).rx ++ f.bytes) = (ps, b) → Runs (.flitReceive p f) s fun t => (t.port p).rxSeq = some f.seq.toNat ∧ (t.port p).rx = b ∧ KMap.get (t.port p).credits f.vc.toNat 0 = KMap.get (s.port p).credits f.vc.toNat 0 + f.credits.toNat ∧ (t.port p).requests = (s.port p).requests ++ ps.filter (fun x => decide (1 ≤ fld x 0 1 ∧ fld x 0 1 ≤ 6)) ∧ (t.port p).responses = (s.port p).responses ++ ps.filter (fun x => decide (0x10 ≤ fld x 0 1 ∧ fld x 0 1 ≤ 0x13)) ∧ (t.port p).mgmt = (s.port p).mgmt ++ ps.filter (fun x => decide (fld x 0 1 = 0x20)) ∧ t.out = s.out ∧ t.mem = s.mem) ∧
  (∀ (p : PortId) (b : List Byte) (x : AuthX) (s : State), s.auth? p = some x → x.whole = false → fragmentOk x b = true → Runs (.authFragment p b) s fun t => (t.port p).auth = some { x with ftype := fld b 0 1, fragments := x.fragments + 1, frame := x.frame ++ (b.drop 8).take (fld b 4 2), whole := fld b 2 1 == 1 } ∧ (∀ q : Nat, q ≠ p.val → t.port q = s.port q) ∧ t.out = s.out ∧ t.regs = s.regs) ∧
  (∀ (p : PortId) (b : List Byte) (x : AuthX) (s : State), s.auth? p = some x → x.whole = false → fragmentOk x b = false → Runs (.authFragment p b) s fun t => t.portState p = portDown ∧ .event 0x90B .firmware [6 + p * 2 ^ 16] ∈ t.out ∧ t.has F.fabEventsAuthFail = true ∧ t.has F.secEventsLinkAuthFail = true ∧ t.mem = s.mem) ∧
  (∀ (p : PortId) (x : AuthX) (s : State), s.canTake = true → s.auth? p = some x → x.whole = true → x.ftype = 2 → x.proved = false → helloOk x.frame = true → s.signRefusal = 0 → Runs (.swHello p true true) s fun t => ∃ g : List Byte, t = ((s.putAuth p { x with ftype := 0, fragments := 0, frame := [], whole := false, proved := true }).drawn).takeIndex (.proof p ([0x03] ++ leBytes 4 s.keeper.cert.length ++ leBytes 4 g.length ++ s.keeper.cert ++ g))) ∧
  (∀ (p : PortId) (ch sg : Bool) (x : AuthX) (s : State), s.canTake = true → s.auth? p = some x → x.whole = true → x.ftype = 2 → x.proved = false → helloOk x.frame = true → (ch && sg) = false → Runs (.swHello p ch sg) s fun t => t.portState p = portDown ∧ .event 0x90B .firmware [(if ch then 3 else 2) + p * 2 ^ 16] ∈ t.out ∧ t.has F.fabEventsAuthFail = true ∧ t.has F.secEventsLinkAuthFail = true ∧ t.mem = s.mem) ∧
  (∀ (p : PortId) (x : AuthX) (s : State), s.auth? p = some x → x.whole = true → x.ftype = 4 → x.proved = true → s.proofSent p = true → x.frame.length = 8 → fld x.frame 0 2 = 0 → Runs (.swDone p) s fun t => t.portState p = (if s.rd (F.fabPortLanes p) = 0xFF then portUp else portDegraded) ∧ t.has F.fabEventsLinkState = true ∧ t.mem = s.mem) ∧
  (∀ (p : PortId) (x : AuthX) (s : State), s.auth? p = some x → x.whole = true → x.ftype = 4 → x.proved = true → s.proofSent p = true → x.frame.length = 8 → fld x.frame 0 2 ≠ 0 → Runs (.swDone p) s fun t => t.portState p = portDown ∧ .event 0x90B .firmware [7 + p * 2 ^ 16] ∈ t.out ∧ t.has F.fabEventsAuthFail = true ∧ t.has F.secEventsLinkAuthFail = true ∧ t.mem = s.mem) ∧
  (∀ (p : PortId) (x : AuthX) (s : State), s.auth? p = some x → x.whole = true → x.ftype = 0x0F → Runs (.authAbort p) s fun t => t.portState p = portDown ∧ .event 0x90B .firmware [7 + p * 2 ^ 16] ∈ t.out ∧ t.has F.fabEventsAuthFail = true ∧ t.has F.secEventsLinkAuthFail = true ∧ t.mem = s.mem) ∧
  (∀ (p : PortId) (s : State), (s.auth? p).isSome = true → Runs (.authTimeout p) s fun t => t.portState p = portDown ∧ .event 0x90B .firmware [5 + p * 2 ^ 16] ∈ t.out ∧ t.has F.fabEventsAuthFail = true ∧ t.has F.secEventsLinkAuthFail = true ∧ t.mem = s.mem) ∧
  (∀ (e : Fin 16) (ns : List Nat) (ms : List TreeMsg) (s : State), s.inbox (engineUnit e) = .peers ns :: ms → Runs (.peerMarker e) s fun t => (∀ k ∈ ns, KMap.find (KMap.get t.fab.cached e []) k = none) ∧ t.inbox (engineUnit e) = ms ∧ t.out = .marker (engineUnit e) 4 (ns.headD 0) :: s.out ∧ t.fab.peers = s.fab.peers ∧ t.mem = s.mem ∧ t.ten = s.ten)

/-- The request in front of a port leaves it. One that fails its trailer is dropped, counted and reported with 0408h; one of another incarnation is answered NACK 0402h, of an unknown domain NACK 0406h, across a line NACK 0305h, of a fault of its translation NACK with the code. Otherwise a READ is answered with the bytes at its home slice; a WRITE writes its bytes there once and is acknowledged; a MCAST_WRITE writes and is not answered; a REDUCE goes to the reduction unit of its home slice; a first ATOMIC goes there with a receipt entry, a repeat is answered by its stored response or dropped, and a full cache answers NACK 0407h; a SIGNAL is performed and acknowledged. An expired receipt leaves its cache. -/
def Obligations.InboundRequests : Prop :=
  (∀ (p : PortId) (bs : List Byte) (rest : List (List Byte)) (k : Pkt) (s : State), (s.port p).requests = bs :: rest → Pkt.of bs = k → k.ty = tyRead → pktSound bs = false → Runs (.inboundRead p) s fun t => t.fab = (s.takeRequest p k bs rest).fab ∧ t.rd F.fabE2eErrCount = min (s.rd F.fabE2eErrCount + 1) (2 ^ F.fabE2eErrCount.w - 1) ∧ t.has F.fabEventsE2eCheck = true ∧ .event 0x408 .firmware [p] ∈ t.out ∧ .event 0x408 .health [p] ∈ t.out ∧ t.mem = s.mem ∧ t.ten = s.ten) ∧
  (∀ (p : PortId) (bs : List Byte) (rest : List (List Byte)) (k : Pkt) (s : State), (s.port p).requests = bs :: rest → Pkt.of bs = k → k.ty = tyWrite → pktSound bs = true → k.dstInc ≠ s.inc → Runs (.inboundWrite p) s fun t => t = (s.takeRequest p k bs rest).respond p k tyNack 0x402 []) ∧
  (∀ (p : PortId) (bs : List Byte) (rest : List (List Byte)) (k : Pkt) (s : State), (s.port p).requests = bs :: rest → Pkt.of bs = k → k.ty = tyRead → pktSound bs = true → k.dstInc = s.inc → s.mustWait p k = false → s.domainTenant k.domain = none → Runs (.inboundRead p) s fun t => t = (s.takeRequest p k bs rest).respond p k tyNack 0x406 []) ∧
  (∀ (p : PortId) (bs : List Byte) (rest : List (List Byte)) (k : Pkt) (n : Nat) (x : State) (i a : Nat) (s : State), (s.port p).requests = bs :: rest → Pkt.of bs = k → k.ty = tyRead → pktSound bs = true → k.dstInc = s.inc → s.mustWait p k = false → s.domainTenant k.domain = some n → (n ≠ sfTenant ∨ inDirs k.off = false) → k.inLine k.len = true → (s.takeRequest p k bs rest).resolveIn p n k.off false = (x, .fault i a) → Runs (.inboundRead p) s fun t => t = x.respond p k tyNack i []) ∧
  (∀ (p : PortId) (bs : List Byte) (rest : List (List Byte)) (k : Pkt) (n : Nat) (x : State) (a : Nat) (s : State), (s.port p).requests = bs :: rest → Pkt.of bs = k → k.ty = tyRead → pktSound bs = true → k.dstInc = s.inc → s.mustWait p k = false → s.domainTenant k.domain = some n → (n ≠ sfTenant ∨ inDirs k.off = false) → k.inLine k.len = true → (s.takeRequest p k bs rest).resolveIn p n k.off false = (x, .pa a) → x.touchesRecord a k.len = false → (x.readAs a k.len n (engineUnit (portEngine p)) false).poisoned a k.len = false → Runs (.inboundRead p) s fun t => t = (x.readAs a k.len n (engineUnit (portEngine p)) false).respond p k tyReadRsp 0 ((x.readAs a k.len n (engineUnit (portEngine p)) false).read a k.len)) ∧
  (∀ (p : PortId) (bs : List Byte) (rest : List (List Byte)) (k : Pkt) (n : Nat) (x : State) (a : Nat) (s : State), (s.port p).requests = bs :: rest → Pkt.of bs = k → k.ty = tyWrite → pktSound bs = true → k.dstInc = s.inc → s.mustWait p k = false → s.domainTenant k.domain = some n → (n ≠ sfTenant ∨ inDirs k.off = false) → k.inLine k.data.length = true → (s.takeRequest p k bs rest).resolveIn p n k.off true = (x, .pa a) → x.touchesRecord a k.data.length = false → Runs (.inboundWrite p) s fun t => t = (x.writeLine (a / 256) k.line.1 k.line.2).respond p k tyAck 0 []) ∧
  (∀ (p : PortId) (bs : List Byte) (rest : List (List Byte)) (k : Pkt) (n : Nat) (x : State) (a : Nat) (s : State), (s.port p).requests = bs :: rest → Pkt.of bs = k → k.ty = tyMcast → pktSound bs = true → s.mustWait p k = false → s.domainTenant k.domain = some n → (n ≠ sfTenant ∨ inDirs k.off = false) → k.inLine k.data.length = true → (s.takeRequest p k bs rest).resolveIn p n k.off true = (x, .pa a) → x.touchesRecord a k.data.length = false → Runs (.inboundMcastWrite p) s fun t => t = x.writeLine (a / 256) k.line.1 k.line.2) ∧
  (∀ (p : PortId) (bs : List Byte) (rest : List (List Byte)) (k : Pkt) (n : Nat) (x : State) (a : Nat) (s : State), (s.port p).requests = bs :: rest → Pkt.of bs = k → k.ty = tyReduce → pktSound bs = true → k.dstInc = s.inc → s.mustWait p k = false → s.domainTenant k.domain = some n → (n ≠ sfTenant ∨ inDirs k.off = false) → k.inLine k.data.length = true → (s.takeRequest p k bs rest).resolveIn p n k.off true = (x, .pa a) → x.touchesRecord a k.data.length = false → redSize k.op ≠ 0 → Runs (.inboundReduce p) s fun t => (t.port p).landing = (x.port p).landing ++ [{ key := x.fab.nextKey, packet := k.bytes, pa := a, lanes := [] }] ∧ (t.slice (x.home (a / 256 * 256))).arrivals = (x.slice (x.home (a / 256 * 256))).arrivals ++ [{ line := a / 256, tenant := n, code := k.op, mask := k.line.1, data := k.line.2, atoms := [], src := .port p x.fab.nextKey, unit := engineUnit (portEngine p) }] ∧ t.mem.scratch = s.mem.scratch ∧ t.mem.hbm = x.mem.hbm ∧ t.out = x.out ∧ t.ten = x.ten) ∧
  (∀ (p : PortId) (bs : List Byte) (rest : List (List Byte)) (k : Pkt) (n : Nat) (x : State) (a : Nat) (s : State), (s.port p).requests = bs :: rest → Pkt.of bs = k → k.ty = tyAtomic → pktSound bs = true → k.dstInc = s.inc → s.mustWait p k = false → s.receipt? k = none → (s.port k.home).receipts.length < 4096 → s.domainTenant k.domain = some n → (n ≠ sfTenant ∨ inDirs k.off = false) → k.off % 8 = 0 → k.op < 64 → k.op % 16 < 8 → (k.op / 16 % 4 = 3 → k.op % 16 ∈ [0, 1, 2, 6, 7]) → k.atoms ≠ [] → (∀ y ∈ k.atoms, y.off % (if k.op / 16 % 4 = 2 then 8 else 4) = 0 ∧ x.touchesRecord (a / 256 * 256 + y.off) (if k.op / 16 % 4 = 2 then 8 else 4) = false) → ((s.takeRequest p k bs rest).modPort k.home fun x => { x with receipts := x.receipts ++ [{ src := k.src, inc := k.srcInc, id := k.id, done := none }] }).resolveIn p n k.off true = (x, .pa a) → Runs (.inboundAtomic p) s fun t => (t.port p).landing = (x.port p).landing ++ [{ key := x.fab.nextKey, packet := k.bytes, pa := a, lanes := k.atoms.map (·.lane) }] ∧ (t.slice (x.home (a / 256 * 256))).arrivals = (x.slice (x.home (a / 256 * 256))).arrivals ++ [{ line := a / 256, tenant := n, code := 0, mask := 0, data := [], atoms := k.atoms, src := .port p x.fab.nextKey, unit := engineUnit (portEngine p) }] ∧ (t.receipt? k).isSome = true ∧ t.mem.scratch = s.mem.scratch ∧ t.out = x.out ∧ t.ten = x.ten) ∧
  (∀ (p : PortId) (bs : List Byte) (rest : List (List Byte)) (k : Pkt) (y : Receipt) (s : State), (s.port p).requests = bs :: rest → Pkt.of bs = k → k.ty = tyAtomic → pktSound bs = true → k.dstInc = s.inc → s.mustWait p k = false → s.receipt? k = some y → Runs (.inboundAtomic p) s fun t => t = (match y.done with | some b => ((s.takeRequest p k bs rest).count (portUnit k.home) 7 1).sendRsp p k.src k.flow b | none => (s.takeRequest p k bs rest))) ∧
  (∀ (p : PortId) (bs : List Byte) (rest : List (List Byte)) (k : Pkt) (s : State), (s.port p).requests = bs :: rest → Pkt.of bs = k → k.ty = tyAtomic → pktSound bs = true → k.dstInc = s.inc → s.mustWait p k = false → s.receipt? k = none → 4096 ≤ (s.port k.home).receipts.length → Runs (.inboundAtomic p) s fun t => t = (((s.takeRequest p k bs rest).setEvent F.fabEventsReceiptBusy).count (portUnit k.home) 8 1).respond p k tyNack 0x407 [] ∧ t.has F.fabEventsReceiptBusy = true ∧ t.mem = s.mem) ∧
  (∀ (p : PortId) (bs : List Byte) (rest : List (List Byte)) (k : Pkt) (n : Nat) (x y : State) (a i : Nat) (s : State), s.has F.synStatusReady = true → (s.port p).requests = bs :: rest → Pkt.of bs = k → k.ty = tySignal → pktSound bs = true → k.dstInc = s.inc → s.mustWait p k = false → s.domainTenant k.domain = some n → (n ≠ sfTenant ∨ inDirs k.off = false) → k.off % 8 = 0 → (s.takeRequest p k bs rest).resolveIn p n k.off true = (x, .pa a) → x.signalAt a k.data = (y, i) → Runs (.inboundSignal p) s fun t => t = y.ackOr p k i) ∧
  (∀ (p : PortId) (s : State), Runs (.receiptExpiry p) s fun t => (t.port p).receipts = (s.port p).receipts.tail ∧ (∀ q : Nat, q ≠ p.val → t.port q = s.port q) ∧ t.mem = s.mem ∧ t.out = s.out ∧ t.regs = s.regs)

/-- The response in front of a port ends the request it matches: a READ_RSP of a GET writes the bytes that came to the local span and counts them as received; an ACK counts a transfer's packet as done and ends a SIGNAL command with status 0; an ATOMIC_RSP ends its atomic with the values; a NACK ends a request with its code, but RECEIPT_BUSY leaves an atomic outstanding. A response that matches nothing sets LATE_RSP, and one whose trailer is wrong is dropped and counted. REMOTE_TIMEOUT ends a request that is no atomic with 0401h and leaves an atomic alone; a retry sends the atomic again with RETRY and the same data; the window's end ends it with 0403h. -/
def Obligations.OutboundRequestsEnd : Prop :=
  (∀ (p : PortId) (bs : List Byte) (rest : List (List Byte)) (k : Pkt) (q : FabReq) (e i n : Nat) (f : Xfer) (x : State) (b : List Byte) (s : State), (s.port p).responses = bs :: rest → Pkt.of bs = k → k.ty = tyReadRsp → pktSound bs = true → s.fab.reqs.find? (fun q => (Pkt.of q.packet).id == k.id && q.port.isSome && (Pkt.of q.packet).dst == k.src && ((Pkt.of q.packet).ty == tyRead)) = some q → q.src = .engine e i n → s.xfer? e = some f → xKind f.desc = 2 → xCheck f.desc = false → (((s.modPort p fun x => { x with responses := rest }).setReqs (s.fab.reqs.filter fun y => y.id != q.id)).storeSpan (engineUnit e) tlbEngine f.tenant (xLocal f.desc + i) (k.data.take n ++ zeros (n - k.data.length))) = (x, .ok b) → Runs (.readRsp p) s fun t => (t.xfer? e).map (fun y => (y.done, y.got)) = some (f.done + n, i :: f.got) ∧ t.mem.scratch = x.mem.scratch) ∧
  (∀ (p : PortId) (bs : List Byte) (rest : List (List Byte)) (k : Pkt) (s : State), (s.port p).responses = bs :: rest → Pkt.of bs = k → k.ty = tyReadRsp → pktSound bs = true → (∀ q ∈ s.fab.reqs, (Pkt.of q.packet).id ≠ k.id) → Runs (.readRsp p) s fun t => t.fab = (s.modPort p fun x => { x with responses := rest }).fab ∧ t.has F.fabEventsLateRsp = true ∧ t.mem = s.mem ∧ t.ten = s.ten ∧ t.out = s.out) ∧
  (∀ (p : PortId) (bs : List Byte) (rest : List (List Byte)) (k : Pkt) (s : State), (s.port p).responses = bs :: rest → Pkt.of bs = k → k.ty = tyReadRsp → pktSound bs = false → Runs (.readRsp p) s fun t => t.fab = (s.modPort p fun x => { x with responses := rest }).fab ∧ t.has F.fabEventsE2eCheck = true ∧ .event 0x408 .firmware [p] ∈ t.out ∧ .event 0x408 .health [p] ∈ t.out ∧ t.mem = s.mem ∧ t.ten = s.ten) ∧
  (∀ (p : PortId) (bs : List Byte) (rest : List (List Byte)) (k : Pkt) (q : FabReq) (e i n : Nat) (f : Xfer) (s : State), (s.port p).responses = bs :: rest → Pkt.of bs = k → k.ty = tyAck → pktSound bs = true → s.fab.reqs.find? (fun q => (Pkt.of q.packet).id == k.id && q.port.isSome && (Pkt.of q.packet).dst == k.src && ((Pkt.of q.packet).ty == tyWrite || (Pkt.of q.packet).ty == tyReduce || (Pkt.of q.packet).ty == tySignal)) = some q → q.src = .engine e i n → s.xfer? e = some f → xKind f.desc ≠ 2 → Runs (.ack p) s fun t => (t.xfer? e).map (fun y => (y.done, y.got, y.owner)) = some (f.done + n, f.got, f.owner) ∧ t.mem.scratch = s.mem.scratch) ∧
  (∀ (p : PortId) (bs : List Byte) (rest : List (List Byte)) (k : Pkt) (q : FabReq) (n : TenantId) (r : RingId) (e : Entry) (s : State), (s.port p).responses = bs :: rest → Pkt.of bs = k → k.ty = tyAck → pktSound bs = true → s.fab.reqs.find? (fun q => (Pkt.of q.packet).id == k.id && q.port.isSome && (Pkt.of q.packet).dst == k.src && ((Pkt.of q.packet).ty == tyWrite || (Pkt.of q.packet).ty == tyReduce || (Pkt.of q.packet).ty == tySignal)) = some q → q.src = .command n r e.cid → s.entry? n r e.cid = some e → e.ended = false → s.waits = [] → Runs (.ack p) s fun t => t.outcome n r e.cid = some (0, 0, 0)) ∧
  (∀ (p : PortId) (bs : List Byte) (rest : List (List Byte)) (k : Pkt) (q : FabReq) (s : State), (s.port p).responses = bs :: rest → Pkt.of bs = k → k.ty = tyAtomicRsp → pktSound bs = true → s.fab.reqs.find? (fun q => (Pkt.of q.packet).id == k.id && q.port.isSome && (Pkt.of q.packet).dst == k.src && ((Pkt.of q.packet).ty == tyAtomic)) = some q → Runs (.atomicRsp p) s fun t => t = (s.modPort p fun x => { x with responses := rest }).endReq q 0 k) ∧
  (∀ (p : PortId) (bs : List Byte) (rest : List (List Byte)) (k : Pkt) (q : FabReq) (e i n : Nat) (f : Xfer) (s : State), (s.port p).responses = bs :: rest → Pkt.of bs = k → k.ty = tyNack → pktSound bs = true → s.fab.reqs.find? (fun q => (Pkt.of q.packet).id == k.id && q.port.isSome && (Pkt.of q.packet).dst == k.src && ((Pkt.of q.packet).ty != tyMcast)) = some q → q.src = .engine e i n → s.xfer? e = some f → k.status ≠ 0 → (Pkt.of q.packet).ty ≠ tyAtomic → Runs (.nack p) s fun t => (t.xfer? e).map (fun y => (y.done, y.status)) = some (f.done, if f.status = 0 then k.status else f.status) ∧ t.mem.scratch = s.mem.scratch) ∧
  (∀ (p : PortId) (bs : List Byte) (rest : List (List Byte)) (k : Pkt) (q : FabReq) (s : State), (s.port p).responses = bs :: rest → Pkt.of bs = k → k.ty = tyNack → pktSound bs = true → s.fab.reqs.find? (fun q => (Pkt.of q.packet).id == k.id && q.port.isSome && (Pkt.of q.packet).dst == k.src && ((Pkt.of q.packet).ty != tyMcast)) = some q → k.status = 0x407 → q.atomic = true → Runs (.nack p) s fun t => t = (s.modPort p fun x => { x with responses := rest })) ∧
  (∀ (k : Word) (q : FabReq) (e i n : Nat) (f : Xfer) (s : State), s.reqOf false k.toNat = some q → q.port.isSome = true → q.src = .engine e i n → s.xfer? e = some f → Runs (.remoteTimeout k) s fun t => (t.xfer? e).map (fun y => (y.done, y.status)) = some (f.done, if f.status = 0 then 0x401 else f.status) ∧ t.mem.scratch = s.mem.scratch) ∧
  (∀ (k : Word) (s : State), s.reqOf false k.toNat = none → Runs (.remoteTimeout k) s fun t => t = s) ∧
  (∀ (k : Word) (q : FabReq) (j : Nat) (s : State), s.reqOf true k.toNat = some q → s.req? q.id = some q → q.port.isSome = true → (Pkt.of q.packet).dst ≠ s.node → s.mapped (Pkt.of q.packet).dst (Pkt.of q.packet).flow = some j → Runs (.atomicRetry k) s fun t => (t.req? q.id).map (fun y => (y.src, y.retried, y.packet)) = some (q.src, true, ({ Pkt.of q.packet with flags := Nat.lor (Pkt.of q.packet).flags 1 } : Pkt).bytes) ∧ t.fab.reqs.length = s.fab.reqs.length ∧ t.mem = s.mem ∧ t.ten = s.ten ∧ t.tum = s.tum) ∧
  (∀ (k : Word) (q : FabReq) (s : State), s.reqOf true k.toNat = some q → q.port.isSome = true → Runs (.outcomeUnknown k) s fun t => t = s.endReq q 0x403 Pkt.none') ∧
  (∀ (k : Word) (s : State), s.reqOf true k.toNat = none → Runs (.outcomeUnknown k) s fun t => t = s)

/-- A TRANSFER whose descriptor is valid and whose whole range a ward entry covers is given to an engine and its command stays open; an invalid descriptor ends with 0409h, a range no entry covers with 0404h, and nothing is sent. A transfer of a command that has nothing left to send or to wait for, without a completion address, leaves its engine and ends its command with its status and the bytes done. A SIGNAL that the ward lets go leaves as a request and its command stays open; one that it does not ends with 0404h; one to a lost peer ends with 0402h, and nothing is sent. -/
def Obligations.TransfersAndSignals : Prop :=
  (∀ (n : TenantId) (r : RingId) (e : Entry) (d : List Byte) (s : State), s.mayRun n r 5 e → e.arg 0 8 % 64 = 0 → ((s.begun n r e).fetchSpan (coreUnit 0) 0 n (e.arg 0 8) 64 false).2 = .ok d → ((s.begun n r e).fetchSpan (coreUnit 0) 0 n (e.arg 0 8) 64 false).1.xferRefusal n d = 0 → Runs (.transfer n r) s fun t => t.outcome n r e.cid = none ∧ t = ((s.begun n r e).fetchSpan (coreUnit 0) 0 n (e.arg 0 8) 64 false).1.startXfer (newXfer (.command r e.cid) n d none)) ∧
  (∀ (n : TenantId) (r : RingId) (e : Entry) (d : List Byte) (k : Nat) (s : State), s.mayRun n r 5 e → e.arg 0 8 % 64 = 0 → ((s.begun n r e).fetchSpan (coreUnit 0) 0 n (e.arg 0 8) 64 false).2 = .ok d → ((s.begun n r e).fetchSpan (coreUnit 0) 0 n (e.arg 0 8) 64 false).1.xferRefusal n d = k → k ≠ 0 → Runs (.transfer n r) s fun t => t.outcome n r e.cid = some (k, 0, 0) ∧ (k = 0x409 ∨ k = 0x404) ∧ t.fab = s.fab ∧ (∀ m : Fin 16, m ≠ n → t.tenant m = s.tenant m)) ∧
  (∀ (j : Fin 16) (f : Xfer) (n : TenantId) (r : RingId) (e : Entry) (s : State), s.xfer? j = some f → f.tenant = n → f.owner = .command r e.cid → xKind f.desc ≠ 2 → xDone f.desc = 0 → f.signal ≠ 1 → s.xferOver j f = true → s.fab.queue = [] → s.entry? n r e.cid = some e → e.ended = false → s.waits = [] → Runs (.transferEnd j) s fun t => t.xfer? j = none ∧ t.outcome n r e.cid = some (f.status, f.done, 0) ∧ t.mem = s.mem ∧ (∀ m : Fin 16, m ≠ n → t.tenant m = s.tenant m)) ∧
  (∀ (n : TenantId) (r : RingId) (e : Entry) (d : Nat) (x : State) (s : State), s.mayRun n r 4 e → s.wardDomain n (nodeOf (e.arg 0 8)) (offsetOf (e.arg 0 8)) 8 tySignal = some d → (s.begun n r e).ask { src := .command n r e.cid, tenant := n, engine := 0, ty := tySignal, flags := 0, dst := nodeOf (e.arg 0 8), domain := d, flow := 0, op := 0, off := offsetOf (e.arg 0 8), len := 16, mask := 0, data := (e.bytes.drop 16).take 16 } = (x, 0) → Runs (.signal n r) s fun t => t = x ∧ t.outcome n r e.cid = none) ∧
  (∀ (n : TenantId) (r : RingId) (e : Entry) (s : State), s.mayRun n r 4 e → s.wardDomain n (nodeOf (e.arg 0 8)) (offsetOf (e.arg 0 8)) 8 tySignal = none → Runs (.signal n r) s fun t => t.outcome n r e.cid = some (0x404, 0, 0) ∧ t.fab = s.fab ∧ t.mem = s.mem ∧ (∀ m : Fin 16, m ≠ n → t.tenant m = s.tenant m)) ∧
  (∀ (n : TenantId) (r : RingId) (e : Entry) (d : Nat) (x : Peer) (s : State), s.mayRun n r 4 e → s.wardDomain n (nodeOf (e.arg 0 8)) (offsetOf (e.arg 0 8)) 8 tySignal = some d → s.has F.fabStatusNodeValid = true → nodeOf (e.arg 0 8) ≠ s.node → KMap.find (KMap.get s.fab.cached 0 []) (nodeOf (e.arg 0 8)) = some x → x.state ≠ 0 → Runs (.signal n r) s fun t => t.outcome n r e.cid = some (0x402, 0, 0) ∧ t.fab = s.fab ∧ t.mem = s.mem ∧ (∀ m : Fin 16, m ≠ n → t.tenant m = s.tenant m))

/-- A message that breaks its layout is discarded with 040Bh; one already taken is discarded silently; a second NODE_ASSIGN is discarded with 040Bh. Otherwise its epoch and number are recorded. NODE_ASSIGN sets node, incarnation, feed and capability, and feeds that differ raise 070Eh. ANNOUNCE sets each named peer's entry as its last entry says and sends a peer marker to every engine. TEARDOWN takes the domain and its wards and tells the tenant 0405h. A FEED_ALERT of the device's own feed reaches the health monitor. PARTNER reserves frames or leaves the reservation unmapped, releases and zeroes them, or records what others hold. SF_WARD installs or clears an entry and sends isolation markers. -/
def Obligations.ManagementMessages : Prop :=
  (∀ (p : PortId) (bs : List Byte) (rest : List (List Byte)) (s : State), (s.port p).mgmt = bs :: rest → pktSound bs = true → (s.mgmtHeadOk (Pkt.of bs) = false ∨ bodyOk (mType (Pkt.of bs).data) (mBody (Pkt.of bs).data) = false) → Runs (.nodeAssign p) s fun t => t.fab = ((s.modPort p fun x => { x with mgmt := rest }).owe p 2 bs).fab ∧ t.out = .event 0x40B .firmware [p] :: s.out ∧ t.regs = s.regs ∧ t.mem = s.mem ∧ t.ten = s.ten) ∧
  (∀ (p : PortId) (bs : List Byte) (rest : List (List Byte)) (s : State), (s.port p).mgmt = bs :: rest → pktSound bs = true → s.mgmtHeadOk (Pkt.of bs) = true → bodyOk 2 (mBody (Pkt.of bs).data) = true → mType (Pkt.of bs).data = 2 → s.mgmtSeen (Pkt.of bs).data = true → Runs (.announce p) s fun t => t = ((s.modPort p fun x => { x with mgmt := rest }).owe p 2 bs)) ∧
  (∀ (p : PortId) (bs : List Byte) (rest : List (List Byte)) (b : List Byte) (s : State), (s.port p).mgmt = bs :: rest → pktSound bs = true → s.mgmtHeadOk (Pkt.of bs) = true → mType (Pkt.of bs).data = 1 → mBody (Pkt.of bs).data = b → bodyOk 1 b = true → s.mgmtSeen (Pkt.of bs).data = false → s.has F.fabStatusNodeValid = false → Runs (.nodeAssign p) s fun t => t.node = fld b 0 2 ∧ t.inc = fld b 2 2 ∧ t.has F.fabStatusNodeValid = true ∧ t.rd F.resFeedFmFeed = fld b 4 2 ∧ t.fab.capable = bit (fld b 6 1) 0 ∧ t.fab.last = some (mEpoch (Pkt.of bs).data, mSeq (Pkt.of bs).data) ∧ (t.port p).mgmt = rest ∧ (t.feedsDiffer = true → t.has F.resEventsFeedMismatch = true ∧ .event 0x70E .firmware [t.rd F.resFeedStrapFeed, fld b 4 2] ∈ t.out) ∧ t.mem = s.mem ∧ t.ten = s.ten) ∧
  (∀ (p : PortId) (bs : List Byte) (rest : List (List Byte)) (b : List Byte) (s : State), (s.port p).mgmt = bs :: rest → pktSound bs = true → s.mgmtHeadOk (Pkt.of bs) = true → mType (Pkt.of bs).data = 1 → mBody (Pkt.of bs).data = b → bodyOk 1 b = true → s.mgmtSeen (Pkt.of bs).data = false → s.has F.fabStatusNodeValid = true → Runs (.nodeAssign p) s fun t => t.fab = ((s.modPort p fun x => { x with mgmt := rest }).owe p 2 bs).fab ∧ t.out = .event 0x40B .firmware [p] :: s.out ∧ t.regs = s.regs) ∧
  (∀ (p : PortId) (bs : List Byte) (rest : List (List Byte)) (b : List Byte) (e : List Byte) (s : State), (s.port p).mgmt = bs :: rest → pktSound bs = true → s.mgmtHeadOk (Pkt.of bs) = true → mType (Pkt.of bs).data = 2 → mBody (Pkt.of bs).data = b → bodyOk 2 b = true → s.mgmtSeen (Pkt.of bs).data = false → ((chunks 8 (fld b 0 2) (b.drop 8)).filter fun y => fld y 0 2 == fld e 0 2).getLast? = some e → (s.has F.fabStatusNodeValid = true → fld e 0 2 ≠ s.node) → Runs (.announce p) s fun t => KMap.find t.fab.peers (fld e 0 2) = some { inc := fld e 2 2, state := (if fld e 6 1 = 1 then 0 else if fld e 6 1 = 2 then 2 else 1), feed := fld e 4 2, capable := bit (fld e 7 1) 0 } ∧ t.fab.last = some (mEpoch (Pkt.of bs).data, mSeq (Pkt.of bs).data) ∧ (t.port p).mgmt = rest ∧ t.has F.fabEventsMembership = true ∧ (∀ j ∈ upto 0 16, .peers ((chunks 8 (fld b 0 2) (b.drop 8)).map fun y => fld y 0 2) ∈ t.inbox (engineUnit j)) ∧ t.rd F.fabPeersLive = (t.fab.peers.filter fun y => y.2.state == 0).length % 2 ^ F.fabPeersLive.w) ∧
  (∀ (p : PortId) (bs : List Byte) (rest : List (List Byte)) (b : List Byte) (n : TenantId) (s : State), (s.port p).mgmt = bs :: rest → pktSound bs = true → s.mgmtHeadOk (Pkt.of bs) = true → mType (Pkt.of bs).data = 3 → mBody (Pkt.of bs).data = b → bodyOk 3 b = true → s.mgmtSeen (Pkt.of bs).data = false → s.keeper.domains.find? (fun x => x.2 == fld b 0 2) = some (n.val, fld b 0 2) → Runs (.teardown p) s fun t => KMap.find t.keeper.domains n = none ∧ t.wardEntries n = [] ∧ t.rd (F.tenStateDomain n) = 0 ∧ t.has F.fabEventsTeardown = true ∧ (∃ as : List Nat, .event 0x405 (.tenant n) as ∈ t.out) ∧ t.fab.last = some (mEpoch (Pkt.of bs).data, mSeq (Pkt.of bs).data) ∧ (t.port p).mgmt = rest) ∧
  (∀ (p : PortId) (bs : List Byte) (rest : List (List Byte)) (b : List Byte) (s : State), (s.port p).mgmt = bs :: rest → pktSound bs = true → s.mgmtHeadOk (Pkt.of bs) = true → mType (Pkt.of bs).data = 4 → mBody (Pkt.of bs).data = b → bodyOk 4 b = true → s.mgmtSeen (Pkt.of bs).data = false → Runs (.feedAlert p) s fun t => (fld b 0 2 = s.feedInUse → s.feedInUse ≠ 0xFFFF → s.has F.resStatusReady = true → RiskInput.feedWide ∈ t.health.inputs) ∧ (fld b 0 2 ≠ s.feedInUse → t.health = s.health ∧ t.regs = s.regs) ∧ t.fab.last = some (mEpoch (Pkt.of bs).data, mSeq (Pkt.of bs).data) ∧ (t.port p).mgmt = rest ∧ t.mem = s.mem ∧ t.ten = s.ten) ∧
  (∀ (p : PortId) (bs : List Byte) (rest : List (List Byte)) (b : List Byte) (s : State), (s.port p).mgmt = bs :: rest → pktSound bs = true → s.mgmtHeadOk (Pkt.of bs) = true → mType (Pkt.of bs).data = 5 → mBody (Pkt.of bs).data = b → bodyOk 5 b = true → s.mgmtSeen (Pkt.of bs).data = false → fld b 0 1 = 1 → fld b 1 1 = 1 → Runs (.partner p) s fun t => (∃ fs : List Nat, t.fab.held.getLast? = some { peer := fld b 2 2, inc := fld b 4 2, off := fld b 8 8, bytes := fld b 0x10 8, frames := fs } ∧ (fs = [] ∨ fs.length = fld b 0x10 8 / 2 ^ 21)) ∧ t.fab.last = some (mEpoch (Pkt.of bs).data, mSeq (Pkt.of bs).data) ∧ (t.port p).mgmt = rest) ∧
  (∀ (p : PortId) (bs : List Byte) (rest : List (List Byte)) (b : List Byte) (s : State), (s.port p).mgmt = bs :: rest → pktSound bs = true → s.mgmtHeadOk (Pkt.of bs) = true → mType (Pkt.of bs).data = 5 → mBody (Pkt.of bs).data = b → bodyOk 5 b = true → s.mgmtSeen (Pkt.of bs).data = false → fld b 0 1 = 1 → fld b 1 1 = 2 → Runs (.partner p) s fun t => t.fab.held = s.fab.held.filter (fun x => !(x.peer == fld b 2 2 && x.off == fld b 8 8)) ∧ (∀ x ∈ s.fab.held, x.peer = fld b 2 2 → x.off = fld b 8 8 → ∀ f ∈ x.frames, f < 196608 → ∀ a : Nat, a / 2 ^ 21 = f → t.read a 1 = [0]) ∧ t.fab.last = some (mEpoch (Pkt.of bs).data, mSeq (Pkt.of bs).data) ∧ (t.port p).mgmt = rest ∧ t.ten = s.ten ∧ t.out = s.out) ∧
  (∀ (p : PortId) (bs : List Byte) (rest : List (List Byte)) (b : List Byte) (s : State), (s.port p).mgmt = bs :: rest → pktSound bs = true → s.mgmtHeadOk (Pkt.of bs) = true → mType (Pkt.of bs).data = 5 → mBody (Pkt.of bs).data = b → bodyOk 5 b = true → s.mgmtSeen (Pkt.of bs).data = false → fld b 0 1 = 2 → fld b 1 1 = 1 → Runs (.partner p) s fun t => t.fab.origins = (s.fab.origins.filter fun x => x.peer != fld b 2 2) ++ [{ peer := fld b 2 2, inc := fld b 4 2, off := fld b 8 8, bytes := fld b 0x10 8, frames := [] }] ∧ t.fab.last = some (mEpoch (Pkt.of bs).data, mSeq (Pkt.of bs).data) ∧ (t.port p).mgmt = rest ∧ t.mem = s.mem ∧ t.ten = s.ten ∧ t.out = s.out) ∧
  (∀ (p : PortId) (bs : List Byte) (rest : List (List Byte)) (b : List Byte) (s : State), (s.port p).mgmt = bs :: rest → pktSound bs = true → s.mgmtHeadOk (Pkt.of bs) = true → mType (Pkt.of bs).data = 5 → mBody (Pkt.of bs).data = b → bodyOk 5 b = true → s.mgmtSeen (Pkt.of bs).data = false → fld b 0 1 = 2 → fld b 1 1 = 2 → Runs (.partner p) s fun t => t.fab.origins = (s.fab.origins.filter fun x => x.peer != fld b 2 2) ∧ t.fab.last = some (mEpoch (Pkt.of bs).data, mSeq (Pkt.of bs).data) ∧ (t.port p).mgmt = rest ∧ (s.fab.partner.map (·.1) ≠ some (fld b 2 2) → t.sec = s.sec ∧ t.regs = s.regs ∧ t.ten = s.ten)) ∧
  (∀ (p : PortId) (bs : List Byte) (rest : List (List Byte)) (b : List Byte) (s : State), (s.port p).mgmt = bs :: rest → pktSound bs = true → s.mgmtHeadOk (Pkt.of bs) = true → mType (Pkt.of bs).data = 6 → mBody (Pkt.of bs).data = b → bodyOk 6 b = true → s.mgmtSeen (Pkt.of bs).data = false → Runs (.sfWard p) s fun t => KMap.get t.keeper.sfWards (fld b 0 1) (zeros 32) = (if fld b 1 1 = 0 then zeros 32 else (b.drop 8).take 32) ∧ (∀ i : Nat, i ≠ fld b 0 1 → KMap.find t.keeper.sfWards i = KMap.find s.keeper.sfWards i) ∧ (∀ u ∈ State.translators, .isolation 0 0 ∈ t.inbox u) ∧ t.fab.last = some (mEpoch (Pkt.of bs).data, mSeq (Pkt.of bs).data) ∧ (t.port p).mgmt = rest ∧ t.mem = s.mem ∧ t.ten = s.ten ∧ t.out = s.out)

/-- The unit becomes READY after its domain. A BAR_ACTIVATE that passes the checks binds a slot of the tenant to the record and returns its number; a misaligned record ends with 050Ch and changes nothing. A BAR_MEMBERS on a slot that the tenant does not hold, or on a frozen one, ends with 050Ch and changes no record; otherwise it ends as its step on the record gives. A BAR_CLOSE frees the slot with its register and ends with 0, the record of a frozen slot unchanged; one of a slot not held ends with 050Ch. A timeout of an open generation with an arrival freezes the slot with 050Bh and tells the owner; of any other slot it does nothing. -/
def Obligations.BarriersAct : Prop :=
  (∀ (s : State), 2 ≤ s.clk.released → Runs (.synReady) s fun t => t = s.wr F.synStatusReady 1 ∧ t.has F.synStatusReady = true) ∧
  (∀ (n : TenantId) (r : RingId) (e : Entry) (x y : State) (a k : Nat) (s : State), s.has F.synStatusReady = true → s.mayRun n r 0x20 e → e.arg 0 8 % 2048 = 0 → ((s.begun n r e).translate (engineUnit 4) tlbEngine n (e.arg 0 8) true false) = (x, .pa a) → x.poisoned a 2048 = false → x.activateAt n (e.arg 0 8) a = (y, 0, k) → Runs (.barActivate n r) s fun t => t.outcome n r e.cid = some (0, k, 0) ∧ t.slot? k = some { tenant := n, va := e.arg 0 8, pa := a, status := 0, image := y.read a 2048 } ∧ t.rd (F.synSlotTenant k) = n.val ∧ t.rd (F.synSlotState k) = slotActive ∧ t.mem = y.mem ∧ (∀ j : Nat, j ≠ k → t.slot? j = s.slot? j)) ∧
  (∀ (n : TenantId) (r : RingId) (e : Entry) (s : State), s.has F.synStatusReady = true → s.mayRun n r 0x20 e → e.arg 0 8 % 2048 ≠ 0 → Runs (.barActivate n r) s fun t => t.outcome n r e.cid = some (0x50C, 0, 0) ∧ t.syn = s.syn ∧ t.mem = s.mem ∧ (∀ m : Fin 16, m ≠ n → t.tenant m = s.tenant m)) ∧
  (∀ (n : TenantId) (r : RingId) (e : Entry) (x : State) (i g : Nat) (s : State), s.has F.synStatusReady = true → s.mayRun n r 0x21 e → (s.begun n r e).members' n (e.arg 0 1) (e.arg 1 1) (e.arg 2 2) = (x, i, g) → Runs (.barMembers n r) s fun t => t.outcome n r e.cid = some (i, g, 0) ∧ t.mem = x.mem ∧ t.syn = x.syn) ∧
  (∀ (n : TenantId) (r : RingId) (e : Entry) (s : State), s.has F.synStatusReady = true → s.mayRun n r 0x21 e → (match s.ownSlot n (e.arg 0 1) with | none => true | some x => x.frozen) = true → Runs (.barMembers n r) s fun t => t.outcome n r e.cid = some (0x50C, 0, 0) ∧ t.syn = s.syn ∧ t.mem = s.mem ∧ (∀ m : Fin 16, m ≠ n → t.tenant m = s.tenant m)) ∧
  (∀ (n : TenantId) (r : RingId) (e : Entry) (x : SynSlot) (s : State), s.has F.synStatusReady = true → s.mayRun n r 0x22 e → s.ownSlot n (e.arg 0 1) = some x → Runs (.barClose n r) s fun t => t.outcome n r e.cid = some (0, 0, 0) ∧ t.slot? (e.arg 0 1) = none ∧ (e.arg 0 1 < 64 → t.reg (.synSlot (e.arg 0 1)) = 0) ∧ (x.frozen = true → t.mem = s.mem) ∧ (∀ j : Nat, j ≠ e.arg 0 1 → t.slot? j = s.slot? j)) ∧
  (∀ (n : TenantId) (r : RingId) (e : Entry) (s : State), s.has F.synStatusReady = true → s.mayRun n r 0x22 e → s.ownSlot n (e.arg 0 1) = none → Runs (.barClose n r) s fun t => t.outcome n r e.cid = some (0x50C, 0, 0) ∧ t.syn = s.syn ∧ t.mem = s.mem ∧ (∀ m : Fin 16, m ≠ n → t.tenant m = s.tenant m)) ∧
  (∀ (k : Fin 64) (x : SynSlot) (s : State), s.slot? k = some x → x.frozen = false → s.recField x 0x16 2 ≠ 0 → s.recField x offArrivedN 2 ≠ 0 → s.ownerPreempted x.tenant = false → s.intact x = true → Runs (.barrierTimeout k) s fun t => t.slot? k = some { x with status := 0x50B, image := t.read x.pa 2048 } ∧ t.rd (F.synSlotState k) = slotFrozen ∧ t.has F.synEventsTimeout = true ∧ (∃ as : List Nat, .event 0x50B (.tenant x.tenant) as ∈ t.out) ∧ (∀ j : Nat, j ≠ k.val → t.slot? j = s.slot? j)) ∧
  (∀ (k : Fin 64) (x : SynSlot) (s : State), s.slot? k = some x → (x.frozen = true ∨ s.recField x 0x16 2 = 0 ∨ s.recField x offArrivedN 2 = 0 ∨ s.ownerPreempted x.tenant = true) → Runs (.barrierTimeout k) s fun t => t = s)

/-- A doorbell write of an ACTIVE tenant takes a tail within the ring; one at or above its size halts the ring with 0607h and leaves the tail. A fetch stages the new entries in order and advances the head; one that fails halts the ring with 0605h. A new head releases at most the records written. The first command that waits at a CQ with a free slot gets its record at the tail with the pass's phase, and a status of kind fault halts its SQ; with the CQ full or the link down nothing is written. RESUME runs a halted ring; FLUSH first ends with 0604h every fetched command that has not started. A fault head is taken. A NOP ends with 0. -/
def Obligations.RingsAct : Prop :=
  (∀ (n : TenantId) (r : RingId) (v : Half) (q : Sq) (s : State), s.doorbell n = true → s.sq? n r = some q → v.toNat < q.size → Runs (.sqTailWrite n r v) s fun t => t.sq? n r = some { q with tail := v.toNat } ∧ (∀ j : Nat, j ≠ r.val → t.sq? n j = s.sq? n j) ∧ t.hif = s.hif ∧ t.mem = s.mem ∧ t.out = s.out ∧ (∀ m : Fin 16, m ≠ n → t.tenant m = s.tenant m)) ∧
  (∀ (n : TenantId) (r : RingId) (v : Half) (q : Sq) (s : State), s.doorbell n = true → s.sq? n r = some q → q.size ≤ v.toNat → Runs (.sqTailWrite n r v) s fun t => t.sq? n r = some { q with halted := some 0x607 } ∧ (∀ j : Nat, j ≠ r.val → t.sq? n j = s.sq? n j) ∧ t.hif = s.hif ∧ t.mem = s.mem ∧ t.out = s.out ∧ (∀ m : Fin 16, m ≠ n → t.tenant m = s.tenant m)) ∧
  (∀ (n : TenantId) (r : RingId) (v : Half) (s : State), s.doorbell n = false → Runs (.sqTailWrite n r v) s fun t => t = s) ∧
  (∀ (q : RingSel) (es : List (List Byte)) (x : Sq) (s : State), s.sq? (ringPair q).1 (ringPair q).2 = some x → 0 < x.fetchCount → es.length = x.fetchCount → s.reaches (x.base + 64 * x.head) (64 * x.fetchCount) = true → x.marked = [] → s.pwr.cut = false → Runs (.sqFetchEnd q es true) s fun t => (t.sq? (ringPair q).1 (ringPair q).2).map (fun y => (y.head, y.tail, (y.entries.drop (y.entries.length - x.fetchCount)).map fun e => (e.bytes, e.phase))) = some ((x.head + x.fetchCount) % x.size, x.tail, es.map fun b => (b, EntryPhase.staged)) ∧ t.hif.nextCid = s.hif.nextCid + x.fetchCount ∧ t.out = .hostRead (x.base + 64 * x.head) (64 * x.fetchCount) :: s.out ∧ t.mem = s.mem) ∧
  (∀ (q : RingSel) (es : List (List Byte)) (ok : Bool) (x : Sq) (s : State), s.sq? (ringPair q).1 (ringPair q).2 = some x → 0 < x.fetchCount → (s.reaches (x.base + 64 * x.head) (64 * x.fetchCount) && ok) = false → s.pwr.cut = false → Runs (.sqFetchEnd q es ok) s fun t => t.sq? (ringPair q).1 (ringPair q).2 = some { x with halted := some 0x605 } ∧ t.has F.hifEventsHostAccess = true ∧ t.mem = s.mem ∧ t.out = s.out) ∧
  (∀ (n : TenantId) (r : RingId) (v : Half) (q : Cq) (s : State), s.doorbell n = true → s.cq? n r = some q → v.toNat < q.size → Runs (.cqHeadWrite n r v) s fun t => (∃ k : Nat, k = min ((v.toNat + q.size - q.head) % q.size) q.used ∧ t.cq? n r = some { q with head := (q.head + k) % q.size, used := q.used - k }) ∧ (∀ j : Nat, j ≠ r.val → t.cq? n j = s.cq? n j) ∧ (∀ j : Nat, t.sq? n j = s.sq? n j) ∧ t.mem = s.mem ∧ t.out = s.out) ∧
  (∀ (n : TenantId) (r : RingId) (c : Cq) (m d : Nat) (rest : List (Nat × Nat)) (e : Entry) (q : Sq) (s : State), s.waits = [] → s.cq? n r = some c → c.waiting = (m, d) :: rest → c.used ≠ c.size → s.has F.hifStatusLinkUp = true → s.sq? n m = some q → s.entry? n m d = some e → s.reaches (c.base + 32 * c.tail) 32 = true → s.pwr.cut = false → Runs (.completionRecordWrite (.tenant n r) true) s fun t => .hostWrite (c.base + 32 * c.tail) (s.record n m q.head e c.phase) ∈ t.out ∧ (t.entry? n m d).map (fun y => (y.phase, y.status, y.result0, y.result1)) = some (EntryPhase.recorded, e.status, e.result0, e.result1) ∧ (t.cq? n r).map (fun y => (y.tail, y.used, y.phase, y.head)) = some (if c.tail + 1 = c.size then 0 else c.tail + 1, c.used + 1, c.phase != (c.tail + 1 == c.size), c.head) ∧ (t.sq? n m).map (·.halted) = some (if statusKind e.opc e.status = .fault then some e.status else q.halted) ∧ t.mem = s.mem) ∧
  (∀ (n : TenantId) (r : RingId) (ok : Bool) (c : Cq) (s : State), s.waits = [] → s.cq? n r = some c → (c.used = c.size ∨ s.has F.hifStatusLinkUp = false) → Runs (.completionRecordWrite (.tenant n r) ok) s fun t => t = s) ∧
  (∀ (n : TenantId) (r : RingId) (q : Sq) (k : Nat) (s : State), s.doorbell n = true → s.sq? n r = some q → q.halted = some k → Runs (.ringResume n r) s fun t => t.sq? n r = some { q with halted := none } ∧ (∀ j : Nat, j ≠ r.val → t.sq? n j = s.sq? n j) ∧ t.hif = s.hif ∧ t.mem = s.mem ∧ t.out = s.out ∧ (∀ m : Fin 16, m ≠ n → t.tenant m = s.tenant m)) ∧
  (∀ (n : TenantId) (r : RingId) (q : Sq) (k : Nat) (s : State), s.doorbell n = true → s.waits = [] → s.sq? n r = some q → q.halted = some k → (q.entries.map (·.cid)).Nodup → Runs (.ringFlush n r) s fun t => (t.sq? n r).map (fun y => (y.halted, y.head, y.tail, y.entries.map (·.cid))) = some (none, q.head, q.tail, q.entries.map (·.cid)) ∧ (∀ e ∈ q.entries, e.phase = .staged → t.outcome n r e.cid = some (0x604, 0, 0)) ∧ (∀ e ∈ q.entries, e.phase ≠ .staged → t.entry? n r e.cid = some e) ∧ (∀ j : Nat, j ≠ r.val → t.sq? n j = s.sq? n j) ∧ t.hif = s.hif ∧ t.mem = s.mem ∧ t.out = s.out ∧ (∀ m : Fin 16, m ≠ n → t.tenant m = s.tenant m)) ∧
  (∀ (n : TenantId) (v : Word) (s : State), s.doorbell n = true → Runs (.faultHeadWrite n v) s fun t => (t.tenant n).fault = { (s.tenant n).fault with head := v.toNat, overflowed := (s.tenant n).fault.overflowed && (s.tenant n).fault.head == v.toNat } ∧ (t.tenant n).sqs = (s.tenant n).sqs ∧ t.regs = s.regs ∧ t.mem = s.mem ∧ t.out = s.out ∧ (∀ m : Fin 16, m ≠ n → t.tenant m = s.tenant m)) ∧
  (∀ (n : TenantId) (r : RingId) (e : Entry) (s : State), s.mayRun n r 0 e → Runs (.nopCommand n r) s fun t => t.outcome n r e.cid = some (0, 0, 0) ∧ t.mem = s.mem ∧ t.out = s.out ∧ (t.tenant n).place = (s.tenant n).place ∧ (t.tenant n).step = (s.tenant n).step ∧ (∀ m : Fin 16, m ≠ n → t.tenant m = s.tenant m))

/-- ENABLE starts the admin ring, empty, at the bases and sizes written, and ADMIN_RUN shows it; clearing ENABLE of an idle ring stops it. A doorbell write before READY is discarded; after it the tail and the released head are taken as of any ring, and a tail at or above the size halts the ring with 0607h and sets ADMIN_HALT. RESUME runs a halted admin ring, and FLUSH first ends with 0604h every fetched command that has not started. -/
def Obligations.AdminRingActs : Prop :=
  (∀ (v : Word) (s : State), v.getLsbD 31 = true → s.hif.adminOn = false → Runs (.adminRingEnable v) s fun t => t.sq? adminOwner 0 = some { Sq.reset with base := (s.reg .hifAdminSqBase).toNat, log2 := adminLog2 (v.toNat % 16) } ∧ t.cq? adminOwner 0 = some { Cq.reset with base := (s.reg .hifAdminCqBase).toNat, log2 := adminLog2 (v.toNat / 256 % 16) } ∧ t.has F.hifStatusAdminRun = true ∧ t.ten = s.ten ∧ t.mem = s.mem ∧ t.out = s.out) ∧
  (∀ (v : Word) (s : State), v.getLsbD 31 = false → s.hif.adminOn = true → s.hif.adminSq.head = s.hif.adminSq.tail → (∀ e ∈ s.hif.adminSq.entries, e.phase = .recorded) → Runs (.adminRingEnable v) s fun t => t.sq? adminOwner 0 = none ∧ t.has F.hifStatusAdminRun = false ∧ t.ten = s.ten ∧ t.mem = s.mem ∧ t.out = s.out) ∧
  (∀ (v : Word) (s : State), s.has F.hifStatusReady = false → Runs (.adminDoorbell v) s fun t => t = s) ∧
  (∀ (v : Word) (q : Sq) (k : Cq) (s : State), s.has F.hifStatusReady = true → s.sq? adminOwner 0 = some q → s.cq? adminOwner 0 = some k → v.toNat % 2 ^ 16 < q.size → v.toNat / 2 ^ 16 < k.size → Runs (.adminDoorbell v) s fun t => t.sq? adminOwner 0 = some { q with tail := v.toNat % 2 ^ 16 } ∧ (∃ j : Nat, j = min ((v.toNat / 2 ^ 16 + k.size - k.head) % k.size) k.used ∧ t.cq? adminOwner 0 = some { k with head := (k.head + j) % k.size, used := k.used - j }) ∧ t.ten = s.ten ∧ t.mem = s.mem ∧ t.out = s.out) ∧
  (∀ (v : Word) (q : Sq) (s : State), s.has F.hifStatusReady = true → s.sq? adminOwner 0 = some q → q.size ≤ v.toNat % 2 ^ 16 → Runs (.adminDoorbell v) s fun t => t.sq? adminOwner 0 = some { q with halted := some 0x607 } ∧ t.has F.hifEventsAdminHalt = true ∧ t.ten = s.ten ∧ t.mem = s.mem ∧ t.out = s.out) ∧
  (∀ (q : Sq) (k : Nat) (s : State), s.sq? adminOwner 0 = some q → q.halted = some k → Runs (.adminResume) s fun t => t.sq? adminOwner 0 = some { q with halted := none } ∧ t.has F.hifStatusAdminRun = true ∧ t.ten = s.ten ∧ t.mem = s.mem ∧ t.out = s.out) ∧
  (∀ (q : Sq) (k : Nat) (s : State), s.waits = [] → s.sq? adminOwner 0 = some q → q.halted = some k → (q.entries.map (·.cid)).Nodup → Runs (.adminFlush) s fun t => (t.sq? adminOwner 0).map (fun y => (y.halted, y.head, y.tail, y.entries.map (·.cid))) = some (none, q.head, q.tail, q.entries.map (·.cid)) ∧ (∀ e ∈ q.entries, e.phase = .staged → t.outcome adminOwner 0 e.cid = some (0x604, 0, 0)) ∧ (∀ e ∈ q.entries, e.phase ≠ .staged → t.entry? adminOwner 0 e.cid = some e) ∧ t.ten = s.ten ∧ t.mem = s.mem ∧ t.out = s.out)

/-- A LAUNCH with 1 to 2^24 blocks and a sound descriptor becomes a launch with no block placed yet; a bad count ends with 0602h and a bad descriptor with 0122h. A HOST_COPY of a permitted length becomes a copy with the host's bytes; of another length or direction it ends with 0602h, and of memory that cannot be reached with 0605h. At its end the bytes are in tenant memory or written to the host. A WAIT whose condition holds ends with the word's value; else it stands, and its TIMEOUT ends it with 060Ch. A DEAD_MARK marks each line in a cache region and ends with their number; while one is locked it waits. -/
def Obligations.TenantHostCommands : Prop :=
  (∀ (n : TenantId) (r : RingId) (e : Entry) (d : List Byte) (s : State), s.mayRun n r 1 e → 1 ≤ e.arg 8 4 ∧ e.arg 8 4 ≤ 2 ^ 24 → e.arg 0 8 % 64 = 0 → ((s.begun n r e).fwRead n (e.arg 0 8) 64).2 = .ok d → kernelOk d = true → (bit (fld d 1 1) 1 = false ∨ bit (s.tenant n).place.rights 0 = true) → Runs (.launch n r) s fun t => t.launches = s.launches ++ [{ id := s.nextLaunch, tenant := n, ring := r, cid := e.cid, desc := d, blocks := e.arg 8 4, placed := 0, ended := 0, code := 0, stopped := false }] ∧ t.nextLaunch = s.nextLaunch + 1 ∧ t.outcome n r e.cid = none ∧ t.mem.scratch = s.mem.scratch ∧ (∀ m : Fin 16, m ≠ n → t.tenant m = s.tenant m)) ∧
  (∀ (n : TenantId) (r : RingId) (e : Entry) (d : List Byte) (s : State), s.mayRun n r 1 e → 1 ≤ e.arg 8 4 ∧ e.arg 8 4 ≤ 2 ^ 24 → e.arg 0 8 % 64 = 0 → ((s.begun n r e).fwRead n (e.arg 0 8) 64).2 = .ok d → kernelOk d = false → Runs (.launch n r) s fun t => t.outcome n r e.cid = some (0x122, 0x122, 0) ∧ t.launches = s.launches ∧ (∀ m : Fin 16, m ≠ n → t.tenant m = s.tenant m)) ∧
  (∀ (n : TenantId) (r : RingId) (e : Entry) (d : List Byte) (s : State), s.mayRun n r 1 e → 1 ≤ e.arg 8 4 ∧ e.arg 8 4 ≤ 2 ^ 24 → e.arg 0 8 % 64 = 0 → ((s.begun n r e).fwRead n (e.arg 0 8) 64).2 = .ok d → kernelOk d = true → bit (fld d 1 1) 1 = true → bit (s.tenant n).place.rights 0 = false → Runs (.launch n r) s fun t => t.outcome n r e.cid = some (0x123, 0x123, 0) ∧ t.launches = s.launches ∧ (∀ m : Fin 16, m ≠ n → t.tenant m = s.tenant m)) ∧
  (∀ (n : TenantId) (r : RingId) (e : Entry) (s : State), s.mayRun n r 1 e → (e.arg 8 4 = 0 ∨ 2 ^ 24 < e.arg 8 4) → Runs (.launch n r) s fun t => t.outcome n r e.cid = some (0x602, 0, 0) ∧ t.launches = s.launches ∧ t.mem = s.mem ∧ (∀ m : Fin 16, m ≠ n → t.tenant m = s.tenant m)) ∧
  (∀ (n : TenantId) (r : RingId) (e : Entry) (b : List Byte) (ok : Bool) (s : State), s.mayRun n r 2 e → e.arg 0x10 4 % 64 = 0 ∧ e.arg 0x10 4 ≤ 2 ^ 20 ∧ e.arg 0x14 1 ≤ 1 → s.reaches (e.arg 0 8) (e.arg 0x10 4) = true → (e.arg 0x14 1 = 0 → ok = true) → Runs (.hostCopy n r b ok) s fun t => t.hif.copies = s.hif.copies ++ [{ tenant := n, ring := r, cid := e.cid, addr := e.arg 0 8, va := e.arg 8 8, bytes := e.arg 0x10 4, toHost := e.arg 0x14 1 == 1, data := b.take (e.arg 0x10 4) ++ zeros (e.arg 0x10 4 - b.length) }] ∧ (e.arg 0x14 1 = 0 → t.out = .hostRead (e.arg 0 8) (e.arg 0x10 4) :: s.out) ∧ t.outcome n r e.cid = none ∧ t.mem = s.mem ∧ (∀ m : Fin 16, m ≠ n → t.tenant m = s.tenant m)) ∧
  (∀ (n : TenantId) (r : RingId) (e : Entry) (b : List Byte) (ok : Bool) (s : State), s.mayRun n r 2 e → ¬(e.arg 0x10 4 % 64 = 0 ∧ e.arg 0x10 4 ≤ 2 ^ 20 ∧ e.arg 0x14 1 ≤ 1) → Runs (.hostCopy n r b ok) s fun t => t.outcome n r e.cid = some (0x602, 0, 0) ∧ t.hif.copies = s.hif.copies ∧ t.mem = s.mem ∧ t.out = s.out ∧ (∀ m : Fin 16, m ≠ n → t.tenant m = s.tenant m)) ∧
  (∀ (n : TenantId) (r : RingId) (e : Entry) (b : List Byte) (ok : Bool) (s : State), s.mayRun n r 2 e → e.arg 0x10 4 % 64 = 0 ∧ e.arg 0x10 4 ≤ 2 ^ 20 ∧ e.arg 0x14 1 ≤ 1 → (s.reaches (e.arg 0 8) (e.arg 0x10 4) = false ∨ e.arg 0x14 1 = 0 ∧ ok = false) → Runs (.hostCopy n r b ok) s fun t => t.outcome n r e.cid = some (0x605, 0, 0) ∧ t.has F.hifEventsHostAccess = true ∧ t.hif.copies = s.hif.copies ∧ t.mem = s.mem ∧ (∀ m : Fin 16, m ≠ n → t.tenant m = s.tenant m)) ∧
  (∀ (n : TenantId) (r : RingId) (idx : Half) (ok : Bool) (e : Entry) (j : HostJob) (x : State) (b : List Byte) (s : State), s.startedAt n r idx.toNat = some e → s.entry? n r e.cid = some e → s.waits = [] → (s.hif.copies.find? fun j => j.tenant == n.val && j.cid == e.cid) = some j → j.toHost = false → { s with hif := { s.hif with copies := s.hif.copies.filter fun k => k.cid != e.cid } }.fwWrite n j.va (j.data.take j.bytes) = (x, .ok b) → j.tenant = n → Runs (.hostCopyEnd n r idx ok) s fun t => t.outcome n r e.cid = some (0, 0, 0) ∧ t.mem = x.mem ∧ t.hif.copies = s.hif.copies.filter (fun k => k.cid != e.cid) ∧ (∀ m : Fin 16, m ≠ n → t.tenant m = s.tenant m)) ∧
  (∀ (n : TenantId) (r : RingId) (idx : Half) (ok : Bool) (e : Entry) (j : HostJob) (x : State) (b : List Byte) (s : State), s.startedAt n r idx.toNat = some e → s.entry? n r e.cid = some e → s.waits = [] → (s.hif.copies.find? fun j => j.tenant == n.val && j.cid == e.cid) = some j → j.toHost = true → ok = true → { s with hif := { s.hif with copies := s.hif.copies.filter fun k => k.cid != e.cid } }.fwRead n j.va j.bytes = (x, .ok b) → j.tenant = n → s.reaches j.addr b.length = true → Runs (.hostCopyEnd n r idx ok) s fun t => t.outcome n r e.cid = some (0, 0, 0) ∧ t.mem = x.mem ∧ t.out = .hostWrite j.addr b :: x.out ∧ t.hif.copies = s.hif.copies.filter (fun k => k.cid != e.cid) ∧ (∀ m : Fin 16, m ≠ n → t.tenant m = s.tenant m)) ∧
  (∀ (n : TenantId) (r : RingId) (idx : Half) (ok : Bool) (e : Entry) (j : HostJob) (x : State) (b : List Byte) (s : State), s.startedAt n r idx.toNat = some e → s.entry? n r e.cid = some e → s.waits = [] → (s.hif.copies.find? fun j => j.tenant == n.val && j.cid == e.cid) = some j → j.toHost = true → ok = false → { s with hif := { s.hif with copies := s.hif.copies.filter fun k => k.cid != e.cid } }.fwRead n j.va j.bytes = (x, .ok b) → j.tenant = n → Runs (.hostCopyEnd n r idx ok) s fun t => t.outcome n r e.cid = some (0x605, 0, 0) ∧ t.has F.hifEventsHostAccess = true ∧ t.out = x.out) ∧
  (∀ (n : TenantId) (r : RingId) (e : Entry) (x : State) (a k : Nat) (s : State), s.mayRun n r 3 e → s.waits = [] → e.arg 0x10 1 ≤ 3 → e.arg 0 8 % 8 = 0 → (s.begun n r e).translate (coreUnit 0) 0 n (e.arg 0 8) false false = (x, .pa a) → x.poisoned a 8 = false → waitStatus (e.arg 0x10 1) (leNat (x.read a 8)) (e.arg 8 8) = some k → Runs (.wait n r) s fun t => t.outcome n r e.cid = some (k, leNat (x.read a 8), 0) ∧ t.waits = [] ∧ t.mem = x.mem ∧ (∀ m : Fin 16, m ≠ n → t.tenant m = s.tenant m)) ∧
  (∀ (n : TenantId) (r : RingId) (e : Entry) (x : State) (a : Nat) (s : State), s.mayRun n r 3 e → s.waits = [] → e.arg 0x10 1 ≤ 3 → e.arg 0 8 % 8 = 0 → (s.begun n r e).translate (coreUnit 0) 0 n (e.arg 0 8) false false = (x, .pa a) → x.poisoned a 8 = false → waitStatus (e.arg 0x10 1) (leNat (x.read a 8)) (e.arg 8 8) = none → Runs (.wait n r) s fun t => t.outcome n r e.cid = none ∧ t.waits = [{ tenant := n, ring := r, cid := e.cid, pa := a, target := e.arg 8 8, cond := e.arg 0x10 1, met := none }] ∧ t.mem = x.mem ∧ (∀ m : Fin 16, m ≠ n → t.tenant m = s.tenant m)) ∧
  (∀ (n : TenantId) (r : RingId) (e : Entry) (s : State), s.mayRun n r 3 e → 3 < e.arg 0x10 1 → Runs (.wait n r) s fun t => t.outcome n r e.cid = some (0x602, 0, 0) ∧ t.waits = s.waits ∧ t.mem = s.mem ∧ t.out = s.out ∧ (∀ m : Fin 16, m ≠ n → t.tenant m = s.tenant m)) ∧
  (∀ (n : TenantId) (r : RingId) (idx : Half) (e : Entry) (w : WaitCmd) (s : State), s.startedAt n r idx.toNat = some e → s.entry? n r e.cid = some e → s.waits = [w] → w.met = none → w.tenant = n → w.cid = e.cid → e.arg 0x14 4 ≠ 0 → Runs (.waitTimeout n r idx) s fun t => t.outcome n r e.cid = some (0x60C, leNat (s.read w.pa 8), 0) ∧ t.waits = [] ∧ t.mem = s.mem ∧ t.out = s.out ∧ (∀ m : Fin 16, m ≠ n → t.tenant m = s.tenant m)) ∧
  (∀ (n : TenantId) (r : RingId) (idx : Half) (e : Entry) (w : WaitCmd) (s : State), s.startedAt n r idx.toNat = some e → s.waits = [w] → w.met = none → e.arg 0x14 4 = 0 → Runs (.waitTimeout n r idx) s fun t => t = s) ∧
  (∀ (n : TenantId) (r : RingId) (e : Entry) (x : State) (ps : List (Nat × Nat)) (s : State), s.mayRun n r 0x1D e → e.arg 0 8 % 256 = 0 → e.arg 8 8 % 256 = 0 → s.has F.cstStatusOpBusy = false → s.has F.cstStatusReady = true → s.lockedIn n e = [] → ((s.begun n r e).translateSpan (coreUnit 0) 0 n (e.arg 0 8) (e.arg 8 8) true) = (x, .ok ps) → (∀ a ∈ pieceLines ps, x.isLocked a = false) → Runs (.deadMark n r) s fun t => t.outcome n r e.cid = some (0, ((pieceLines ps).filter x.markable).length, 0) ∧ (∀ a ∈ pieceLines ps, x.markable a = true → (KMap.find t.mem.lines a).map (·.dead) = ((KMap.find x.mem.lines a).bind (·.region)).map fun _ => true) ∧ (∀ a, a ∉ (pieceLines ps).filter x.markable → KMap.find t.mem.lines a = KMap.find x.mem.lines a) ∧ t.mem.scratch = x.mem.scratch ∧ (∀ m : Fin 16, m ≠ n → t.tenant m = s.tenant m)) ∧
  (∀ (n : TenantId) (r : RingId) (e : Entry) (s : State), s.mayRun n r 0x1D e → s.has F.cstStatusOpBusy = false → (e.arg 0 8 % 256 ≠ 0 ∨ e.arg 8 8 % 256 ≠ 0) → Runs (.deadMark n r) s fun t => t.outcome n r e.cid = some (0x30B, 0, 0) ∧ t.mem = s.mem ∧ (∀ m : Fin 16, m ≠ n → t.tenant m = s.tenant m)) ∧
  (∀ (n : TenantId) (r : RingId) (e : Entry) (ls : List Nat) (s : State), s.mayRun n r 0x1D e → s.has F.cstStatusOpBusy = false → s.lockedIn n e = ls → ls ≠ [] → Runs (.deadMark n r) s fun t => t = s.rangeWait 2 ls ∧ t.has F.cstStatusOpBusy = true ∧ t.has F.cstEventsLockWait = true) ∧
  (∀ (n : TenantId) (r : RingId) (e : Entry) (s : State), s.mayRun n r 0x1D e → s.has F.cstStatusOpBusy = true → Runs (.deadMark n r) s fun t => t = s)

/-- A target that is staged ends ABORTED with 0604h, and the abort waits for its record with one command aborted. A target whose record stands keeps it, and the abort ends with 0603h, none aborted and one complete. An index that is not submitted ends the abort with 0606h and changes no ring otherwise, and an SQ or ALL out of range ends it with 0602h. A TENANT_ABORT does the same for the tenant that it names, with 0602h for a tenant number out of range and 0609h for a tenant that is not ACTIVE. -/
def Obligations.AbortsAct : Prop :=
  (∀ (n : TenantId) (r : RingId) (e : Entry) (q : Sq) (x : Entry) (s : State), s.mayRun n r 0x30 e → e.arg 0 1 < 64 → e.arg (0 + 1) 1 = 0 → e.arg 0 1 ≠ r → s.sq? n (e.arg 0 1) = some q → q.head = q.tail → q.entries = [x] → x.idx = e.arg (0 + 2) 2 → x.cmdId = e.arg (0 + 4) 2 → x.cid ≠ e.cid → x.phase = .staged → s.waits = [] → s.hif.aborts = [] → Runs (.abort n r) s fun t => t.outcome n (e.arg 0 1) x.cid = some (0x604, 0, 0) ∧ t.outcome n r e.cid = none ∧ (t.hif.aborts.map fun y => (y.cid, y.left, y.status, y.result0, y.result1)) = [(e.cid, [x.cid], 0, 1, 0)] ∧ t.mem = s.mem ∧ t.out = s.out ∧ (∀ m : Fin 16, m ≠ n → t.tenant m = s.tenant m)) ∧
  (∀ (n : TenantId) (r : RingId) (e : Entry) (q : Sq) (x : Entry) (s : State), s.mayRun n r 0x30 e → e.arg 0 1 < 64 → e.arg (0 + 1) 1 = 0 → e.arg 0 1 ≠ r → s.sq? n (e.arg 0 1) = some q → q.head = q.tail → q.entries = [x] → x.idx = e.arg (0 + 2) 2 → x.cmdId = e.arg (0 + 4) 2 → x.cid ≠ e.cid → x.phase = .recorded → s.waits = [] → s.hif.aborts = [] → Runs (.abort n r) s fun t => t.outcome n r e.cid = some (0x603, 0, 1) ∧ t.entry? n (e.arg 0 1) x.cid = some x ∧ t.hif.aborts = [] ∧ t.mem = s.mem ∧ t.out = s.out ∧ (∀ m : Fin 16, m ≠ n → t.tenant m = s.tenant m)) ∧
  (∀ (n : TenantId) (r : RingId) (e : Entry) (q : Sq) (s : State), s.mayRun n r 0x30 e → e.arg 0 1 < 64 → e.arg (0 + 1) 1 = 0 → s.sq? n (e.arg 0 1) = some q → q.head = q.tail → (∀ y ∈ q.entries, y.cid = e.cid ∨ y.idx ≠ e.arg 2 2 ∨ y.cmdId ≠ e.arg 4 2) → e.arg 0 1 ≠ r → Runs (.abort n r) s fun t => t.outcome n r e.cid = some (0x606, 0, 0) ∧ t.sq? n (e.arg 0 1) = some q ∧ t.hif.aborts = s.hif.aborts ∧ t.mem = s.mem ∧ t.out = s.out ∧ (∀ m : Fin 16, m ≠ n → t.tenant m = s.tenant m)) ∧
  (∀ (n : TenantId) (r : RingId) (e : Entry) (s : State), s.mayRun n r 0x30 e → (64 ≤ e.arg 0 1 ∨ 1 < e.arg 1 1) → Runs (.abort n r) s fun t => t.outcome n r e.cid = some (0x602, 0, 0) ∧ t.hif.aborts = s.hif.aborts ∧ t.mem = s.mem ∧ t.out = s.out ∧ (∀ m : Fin 16, m ≠ n → t.tenant m = s.tenant m)) ∧
  (∀ (e : Entry) (q : Sq) (x : Entry) (s : State), s.mayAdmin 0x86 e → e.arg 0 1 < 16 → s.active (e.arg 0 1) = true → e.arg 8 1 < 64 → e.arg (8 + 1) 1 = 0 → s.sq? (e.arg 0 1) (e.arg 8 1) = some q → q.head = q.tail → q.entries = [x] → x.idx = e.arg (8 + 2) 2 → x.cmdId = e.arg (8 + 4) 2 → x.cid ≠ e.cid → x.phase = .staged → s.waits = [] → s.hif.aborts = [] → Runs (.tenantAbort) s fun t => t.outcome (e.arg 0 1) (e.arg 8 1) x.cid = some (0x604, 0, 0) ∧ t.outcome adminOwner 0 e.cid = none ∧ (t.hif.aborts.map fun y => (y.cid, y.left, y.status, y.result0, y.result1)) = [(e.cid, [x.cid], 0, 1, 0)] ∧ t.mem = s.mem ∧ t.out = s.out) ∧
  (∀ (e : Entry) (q : Sq) (x : Entry) (s : State), s.mayAdmin 0x86 e → e.arg 0 1 < 16 → s.active (e.arg 0 1) = true → e.arg 8 1 < 64 → e.arg (8 + 1) 1 = 0 → s.sq? (e.arg 0 1) (e.arg 8 1) = some q → q.head = q.tail → q.entries = [x] → x.idx = e.arg (8 + 2) 2 → x.cmdId = e.arg (8 + 4) 2 → x.cid ≠ e.cid → x.phase = .recorded → s.waits = [] → s.hif.aborts = [] → Runs (.tenantAbort) s fun t => t.outcome adminOwner 0 e.cid = some (0x603, 0, 1) ∧ t.entry? (e.arg 0 1) (e.arg 8 1) x.cid = some x ∧ t.hif.aborts = [] ∧ t.ten = s.ten ∧ t.mem = s.mem ∧ t.out = s.out) ∧
  (∀ (e : Entry) (s : State), s.mayAdmin 0x86 e → e.arg 0 1 < 16 → s.active (e.arg 0 1) = false → Runs (.tenantAbort) s fun t => t.outcome adminOwner 0 e.cid = some (0x609, 0, 0) ∧ t.ten = s.ten ∧ t.hif.aborts = s.hif.aborts ∧ t.mem = s.mem ∧ t.out = s.out) ∧
  (∀ (e : Entry) (s : State), s.mayAdmin 0x86 e → 16 ≤ e.arg 0 1 → Runs (.tenantAbort) s fun t => t.outcome adminOwner 0 e.cid = some (0x602, 0, 0) ∧ t.ten = s.ten ∧ t.hif.aborts = s.hif.aborts ∧ t.mem = s.mem ∧ t.out = s.out)

/-- A TENANT_CREATE whose block, ward image and frames pass ends with 0 and the source of the fault ring; the tenant is ACTIVE with the block's domain, quotas, limits and addresses, its ward table, its areas on free frames and a fresh numeric state. It ends with 0602h, 0605h, 0609h, 060Bh, 060Eh, 060Fh, 0312h or 0313h as R379 gives, and changes no tenant, no keeper table and no memory. A TENANT_RESET leaves the slot FREE with nothing of the tenant, zeroes its areas, and ends with 0; of a tenant that is not ACTIVE with 0609h. A WARD_UPDATE installs a sound image behind an isolation marker, and refuses others with 060Fh. -/
def Obligations.TenantsCreatedAndReset : Prop :=
  (∀ (e : Entry) (b w str : List Byte) (s : State), s.mayAdmin 0x80 e → e.arg 0 8 % 64 = 0 → s.reaches (e.arg 0 8) 256 = true → b.length = 256 → fld b 0 1 < 16 → s.rd (F.tenStateState (fld b 0 1)) = 0 → blockOk b = true → s.blockReaches b = true → s.reaches (fld b 0x48 8) 2112 = true → w.length = 2112 → (fld b 0x40 8 = 0 ∨ s.reaches (fld b 0x40 8) 0x20000 = true ∧ str.length = 0x20000) → s.slotsGiven + fld b 0x11 1 ≤ 64 → s.domainTaken (fld b 0 1) (fld b 2 2) = false → wardImageOk w = true → (fld b 0x40 8 ≠ 0 ∨ s.has F.secStatusEntropyFail = false) → chargeOf 0 4 ≤ fld b 4 4 → areaFrames ≤ (s.freeFrames true areaFrames s.frameCount).length → Runs (.tenantCreate b w str true) s fun t => t.outcome adminOwner 0 e.cid = some (0, 0x400 + (fld b 0 1), 0) ∧ t.active (fld b 0 1) = true ∧ KMap.find t.keeper.domains (fld b 0 1) = some (fld b 2 2) ∧ KMap.find t.keeper.wards (fld b 0 1) = some w ∧ ([Place.hbmQuota, Place.pinQuota, Place.scratchQuota, Place.share, Place.slice, Place.rights].map fun f => f (t.tenant (fld b 0 1)).place) = [fld b 4 4, fld b 8 4, fld b 0xC 4, fld b 0x10 1, fld b 0x14 4, fld b 1 1] ∧ (t.tenant (fld b 0 1)).place.areas = (s.freeFrames true areaFrames s.frameCount) ∧ (t.tenant (fld b 0 1)).num = NumState.reset ∧ (t.tenant (fld b 0 1)).fault = { FaultRing.reset with statusAddr := fld b 0x18 8, addr := fld b 0x20 8, entries := fld b 0x28 4 } ∧ t.rd (F.synTenslotsMax (fld b 0 1)) = fld b 0x11 1 ∧ (t.tenant (fld b 0 1)).step.record.cursor = (b.drop 0x30).take 16 ∧ (fld b 0x40 8 ≠ 0 → (t.tenant (fld b 0 1)).step.counters = tableCounters str ∧ (t.tenant (fld b 0 1)).step.keys = tableKeys str) ∧ t.has (F.tenEventsCreated.at (fld b 0 1)) = true ∧ (∀ m : Nat, m ≠ (fld b 0 1) → t.tenant m = s.tenant m)) ∧
  (∀ (e : Entry) (b w str : List Byte) (ok : Bool) (s : State), s.mayAdmin 0x80 e → e.arg 0 8 % 64 = 0 → (s.reaches (e.arg 0 8) 256 = false ∨ ok = false) → Runs (.tenantCreate b w str ok) s fun t => t.outcome adminOwner 0 e.cid = some (0x605, 0, 0) ∧ t.has F.hifEventsHostAccess = true ∧ t.ten = s.ten ∧ t.keeper = s.keeper ∧ t.mem = s.mem) ∧
  (∀ (e : Entry) (b w str : List Byte) (s : State), s.mayAdmin 0x80 e → e.arg 0 8 % 64 = 0 → s.reaches (e.arg 0 8) 256 = true → b.length = 256 → fld b 0 1 < 16 → s.rd (F.tenStateState (fld b 0 1)) ≠ 0 → Runs (.tenantCreate b w str true) s fun t => t.outcome adminOwner 0 e.cid = some (0x609, 0, 0) ∧ t.ten = s.ten ∧ t.keeper = s.keeper ∧ t.mem = s.mem) ∧
  (∀ (e : Entry) (b w str : List Byte) (s : State), s.mayAdmin 0x80 e → e.arg 0 8 % 64 = 0 → s.reaches (e.arg 0 8) 256 = true → b.length = 256 → fld b 0 1 < 16 → s.rd (F.tenStateState (fld b 0 1)) = 0 → blockOk b = false → Runs (.tenantCreate b w str true) s fun t => t.outcome adminOwner 0 e.cid = some (0x602, 0, 0) ∧ t.ten = s.ten ∧ t.keeper = s.keeper ∧ t.mem = s.mem) ∧
  (∀ (e : Entry) (b w str : List Byte) (s : State), s.mayAdmin 0x80 e → e.arg 0 8 % 64 = 0 → s.reaches (e.arg 0 8) 256 = true → b.length = 256 → fld b 0 1 < 16 → s.rd (F.tenStateState (fld b 0 1)) = 0 → blockOk b = true → s.blockReaches b = true → s.reaches (fld b 0x48 8) 2112 = true → w.length = 2112 → (fld b 0x40 8 = 0 ∨ s.reaches (fld b 0x40 8) 0x20000 = true ∧ str.length = 0x20000) → 64 < s.slotsGiven + fld b 0x11 1 → Runs (.tenantCreate b w str true) s fun t => t.outcome adminOwner 0 e.cid = some (0x60B, 0, 0) ∧ t.ten = s.ten ∧ t.keeper = s.keeper ∧ t.mem = s.mem) ∧
  (∀ (e : Entry) (b w str : List Byte) (s : State), s.mayAdmin 0x80 e → e.arg 0 8 % 64 = 0 → s.reaches (e.arg 0 8) 256 = true → b.length = 256 → fld b 0 1 < 16 → s.rd (F.tenStateState (fld b 0 1)) = 0 → blockOk b = true → s.blockReaches b = true → s.reaches (fld b 0x48 8) 2112 = true → w.length = 2112 → (fld b 0x40 8 = 0 ∨ s.reaches (fld b 0x40 8) 0x20000 = true ∧ str.length = 0x20000) → s.slotsGiven + fld b 0x11 1 ≤ 64 → s.domainTaken (fld b 0 1) (fld b 2 2) = true → Runs (.tenantCreate b w str true) s fun t => t.outcome adminOwner 0 e.cid = some (0x60E, 0, 0) ∧ t.ten = s.ten ∧ t.keeper = s.keeper ∧ t.mem = s.mem) ∧
  (∀ (e : Entry) (b w str : List Byte) (s : State), s.mayAdmin 0x80 e → e.arg 0 8 % 64 = 0 → s.reaches (e.arg 0 8) 256 = true → b.length = 256 → fld b 0 1 < 16 → s.rd (F.tenStateState (fld b 0 1)) = 0 → blockOk b = true → s.blockReaches b = true → s.reaches (fld b 0x48 8) 2112 = true → w.length = 2112 → (fld b 0x40 8 = 0 ∨ s.reaches (fld b 0x40 8) 0x20000 = true ∧ str.length = 0x20000) → s.slotsGiven + fld b 0x11 1 ≤ 64 → s.domainTaken (fld b 0 1) (fld b 2 2) = false → (wardImageOk w = false ∨ fld b 0x40 8 = 0 ∧ s.has F.secStatusEntropyFail = true) → Runs (.tenantCreate b w str true) s fun t => t.outcome adminOwner 0 e.cid = some (0x60F, 0, 0) ∧ t.ten = s.ten ∧ t.keeper = s.keeper ∧ t.mem = s.mem) ∧
  (∀ (e : Entry) (b w str : List Byte) (s : State), s.mayAdmin 0x80 e → e.arg 0 8 % 64 = 0 → s.reaches (e.arg 0 8) 256 = true → b.length = 256 → fld b 0 1 < 16 → s.rd (F.tenStateState (fld b 0 1)) = 0 → blockOk b = true → s.blockReaches b = true → s.reaches (fld b 0x48 8) 2112 = true → w.length = 2112 → (fld b 0x40 8 = 0 ∨ s.reaches (fld b 0x40 8) 0x20000 = true ∧ str.length = 0x20000) → s.slotsGiven + fld b 0x11 1 ≤ 64 → s.domainTaken (fld b 0 1) (fld b 2 2) = false → wardImageOk w = true → (fld b 0x40 8 ≠ 0 ∨ s.has F.secStatusEntropyFail = false) → fld b 4 4 < chargeOf 0 4 → Runs (.tenantCreate b w str true) s fun t => t.outcome adminOwner 0 e.cid = some (0x312, 0, 0) ∧ t.ten = s.ten ∧ t.keeper = s.keeper ∧ t.mem = s.mem) ∧
  (∀ (e : Entry) (b w str : List Byte) (s : State), s.mayAdmin 0x80 e → e.arg 0 8 % 64 = 0 → s.reaches (e.arg 0 8) 256 = true → b.length = 256 → fld b 0 1 < 16 → s.rd (F.tenStateState (fld b 0 1)) = 0 → blockOk b = true → s.blockReaches b = true → s.reaches (fld b 0x48 8) 2112 = true → w.length = 2112 → (fld b 0x40 8 = 0 ∨ s.reaches (fld b 0x40 8) 0x20000 = true ∧ str.length = 0x20000) → s.slotsGiven + fld b 0x11 1 ≤ 64 → s.domainTaken (fld b 0 1) (fld b 2 2) = false → wardImageOk w = true → (fld b 0x40 8 ≠ 0 ∨ s.has F.secStatusEntropyFail = false) → chargeOf 0 4 ≤ fld b 4 4 → (s.freeFrames true areaFrames s.frameCount).length < areaFrames → Runs (.tenantCreate b w str true) s fun t => t.outcome adminOwner 0 e.cid = some (0x313, 0, 0) ∧ t.ten = s.ten ∧ t.keeper = s.keeper ∧ t.mem = s.mem) ∧
  (∀ (e : Entry) (rest : List (RingId × List Byte)) (s : State), s.has F.hifStatusLinkUp = true → s.waits = [] → s.sec.restore = none → s.mayAdmin 0x81 e → e.arg 0 1 < 16 → s.active (e.arg 0 1) = true → Runs (.tenantReset rest) s fun t => t.outcome adminOwner 0 e.cid = some (0, 0, 0) ∧ t.tenant (e.arg 0 1) = Tenant.reset ∧ t.reg (.tenState (e.arg 0 1)) = 0 ∧ KMap.find t.keeper.domains (e.arg 0 1) = none ∧ KMap.find t.keeper.wards (e.arg 0 1) = none ∧ t.rd (F.synTenslotsMax (e.arg 0 1)) = 0 ∧ (∀ l ∈ t.launches, l.tenant ≠ e.arg 0 1) ∧ (∀ o ∈ t.arr.ops, o.tenant ≠ e.arg 0 1) ∧ (∀ m : Nat, m ≠ e.arg 0 1 → t.active m = s.active m) ∧ (∀ f ∈ (s.tenant (e.arg 0 1)).place.areas, f < 196608 → ∀ a : Nat, a / 2 ^ 21 = f → t.read a 1 = [0])) ∧
  (∀ (e : Entry) (rest : List (RingId × List Byte)) (s : State), s.has F.hifStatusLinkUp = true → s.mayAdmin 0x81 e → e.arg 0 1 < 16 → s.active (e.arg 0 1) = false → Runs (.tenantReset rest) s fun t => t.outcome adminOwner 0 e.cid = some (0x609, 0, 0) ∧ t.ten = s.ten ∧ t.keeper = s.keeper ∧ t.mem = s.mem) ∧
  (∀ (rest : List (RingId × List Byte)) (s : State), s.has F.hifStatusLinkUp = false → Runs (.tenantReset rest) s fun t => t = s) ∧
  (∀ (e : Entry) (w : List Byte) (s : State), s.mayAdmin 0x85 e → e.arg 0 1 < 16 → s.active (e.arg 0 1) = true → s.reaches (e.arg 8 8) 2112 = true → w.length = 2112 → wardImageOk w = true → Runs (.wardUpdate w true) s fun t => t.outcome adminOwner 0 e.cid = some (0, 0, 0) ∧ KMap.find t.keeper.wards (e.arg 0 1) = some w ∧ (∀ i : Nat, i ≠ e.arg 0 1 → KMap.find t.keeper.wards i = KMap.find s.keeper.wards i) ∧ (∀ u ∈ State.translators, .isolation 0 0 ∈ t.inbox u) ∧ t.ten = s.ten ∧ t.mem = s.mem) ∧
  (∀ (e : Entry) (w : List Byte) (s : State), s.mayAdmin 0x85 e → e.arg 0 1 < 16 → s.active (e.arg 0 1) = true → s.reaches (e.arg 8 8) 2112 = true → w.length = 2112 → wardImageOk w = false → Runs (.wardUpdate w true) s fun t => t.outcome adminOwner 0 e.cid = some (0x60F, 0, 0) ∧ t.ten = s.ten ∧ t.keeper = s.keeper ∧ t.mem = s.mem) ∧
  (∀ (e : Entry) (w : List Byte) (ok : Bool) (s : State), s.mayAdmin 0x85 e → e.arg 0 1 < 16 → s.active (e.arg 0 1) = true → (s.reaches (e.arg 8 8) 2112 = false ∨ ok = false) → Runs (.wardUpdate w ok) s fun t => t.outcome adminOwner 0 e.cid = some (0x605, 0, 0) ∧ t.has F.hifEventsHostAccess = true ∧ t.ten = s.ten ∧ t.keeper = s.keeper ∧ t.mem = s.mem)

/-- A CQ_CREATE or SQ_CREATE with a size of 2^4 to 2^16, an aligned and reachable base and a free index makes an empty ring there, the SQ naming a CQ of its tenant with its weight; it ends with 0, the CQ's with its interrupt source. A size or base out of range ends with 0602h, one out of reach with 0605h, a tenant not ACTIVE with 0609h, an index in use or a missing CQ with 060Ah. RING_DELETE takes an idle ring out, and ends with 060Ah for an SQ in use or a CQ that an SQ names, which stay. -/
def Obligations.RingsCreatedAndDeleted : Prop :=
  (∀ (e : Entry) (s : State), s.mayAdmin 0x82 e → e.arg 0 1 < 16 → e.arg 1 1 < 64 → s.active (e.arg 0 1) = true → 4 ≤ e.arg 2 1 ∧ e.arg 2 1 ≤ 16 ∧ e.arg 8 8 % 4096 = 0 → s.reaches (e.arg 8 8) (32 * 2 ^ e.arg 2 1) = true → s.cq? (e.arg 0 1) (e.arg 1 1) = none → Runs (.cqCreate) s fun t => t.outcome adminOwner 0 e.cid = some (0, 0x40 * e.arg 0 1 + e.arg 1 1, 0) ∧ t.cq? (e.arg 0 1) (e.arg 1 1) = some { Cq.reset with base := e.arg 8 8, log2 := e.arg 2 1 } ∧ (∀ j : Nat, j ≠ e.arg 1 1 → t.cq? (e.arg 0 1) j = s.cq? (e.arg 0 1) j) ∧ (t.tenant (e.arg 0 1)).sqs = (s.tenant (e.arg 0 1)).sqs ∧ t.mem = s.mem) ∧
  (∀ (e : Entry) (q : Cq) (s : State), s.mayAdmin 0x82 e → e.arg 0 1 < 16 → e.arg 1 1 < 64 → s.active (e.arg 0 1) = true → 4 ≤ e.arg 2 1 ∧ e.arg 2 1 ≤ 16 ∧ e.arg 8 8 % 4096 = 0 → s.reaches (e.arg 8 8) (32 * 2 ^ e.arg 2 1) = true → s.cq? (e.arg 0 1) (e.arg 1 1) = some q → Runs (.cqCreate) s fun t => t.outcome adminOwner 0 e.cid = some (0x60A, 0, 0) ∧ t.ten = s.ten ∧ t.mem = s.mem ∧ t.out = s.out) ∧
  (∀ (e : Entry) (s : State), s.mayAdmin 0x82 e → e.arg 0 1 < 16 → e.arg 1 1 < 64 → s.active (e.arg 0 1) = true → ¬(4 ≤ e.arg 2 1 ∧ e.arg 2 1 ≤ 16 ∧ e.arg 8 8 % 4096 = 0) → Runs (.cqCreate) s fun t => t.outcome adminOwner 0 e.cid = some (0x602, 0, 0) ∧ t.ten = s.ten ∧ t.mem = s.mem ∧ t.out = s.out) ∧
  (∀ (e : Entry) (s : State), s.mayAdmin 0x82 e → e.arg 0 1 < 16 → e.arg 1 1 < 64 → s.active (e.arg 0 1) = false → Runs (.cqCreate) s fun t => t.outcome adminOwner 0 e.cid = some (0x609, 0, 0) ∧ t.ten = s.ten ∧ t.mem = s.mem ∧ t.out = s.out) ∧
  (∀ (e : Entry) (k : Cq) (s : State), s.mayAdmin 0x83 e → e.arg 0 1 < 16 → e.arg 1 1 < 64 → s.active (e.arg 0 1) = true → 4 ≤ e.arg 2 1 ∧ e.arg 2 1 ≤ 16 ∧ e.arg 8 8 % 4096 = 0 → s.reaches (e.arg 8 8) (64 * 2 ^ e.arg 2 1) = true → e.arg 3 1 < 64 → 1 ≤ e.arg 4 1 ∧ e.arg 4 1 ≤ 15 → s.sq? (e.arg 0 1) (e.arg 1 1) = none → s.cq? (e.arg 0 1) (e.arg 3 1) = some k → Runs (.sqCreate) s fun t => t.outcome adminOwner 0 e.cid = some (0, 0, 0) ∧ t.sq? (e.arg 0 1) (e.arg 1 1) = some { Sq.reset with base := e.arg 8 8, log2 := e.arg 2 1, cq := e.arg 3 1, weight := e.arg 4 1 } ∧ (∀ j : Nat, j ≠ e.arg 1 1 → t.sq? (e.arg 0 1) j = s.sq? (e.arg 0 1) j) ∧ (t.tenant (e.arg 0 1)).cqs = (s.tenant (e.arg 0 1)).cqs ∧ t.mem = s.mem) ∧
  (∀ (e : Entry) (s : State), s.mayAdmin 0x83 e → e.arg 0 1 < 16 → e.arg 1 1 < 64 → s.active (e.arg 0 1) = true → 4 ≤ e.arg 2 1 ∧ e.arg 2 1 ≤ 16 ∧ e.arg 8 8 % 4096 = 0 → s.reaches (e.arg 8 8) (64 * 2 ^ e.arg 2 1) = true → e.arg 3 1 < 64 → 1 ≤ e.arg 4 1 ∧ e.arg 4 1 ≤ 15 → (s.sq? (e.arg 0 1) (e.arg 1 1) ≠ none ∨ s.cq? (e.arg 0 1) (e.arg 3 1) = none) → Runs (.sqCreate) s fun t => t.outcome adminOwner 0 e.cid = some (0x60A, 0, 0) ∧ t.ten = s.ten ∧ t.mem = s.mem ∧ t.out = s.out) ∧
  (∀ (e : Entry) (s : State), s.mayAdmin 0x83 e → e.arg 0 1 < 16 → e.arg 1 1 < 64 → s.active (e.arg 0 1) = true → e.arg 3 1 < 64 → 1 ≤ e.arg 4 1 ∧ e.arg 4 1 ≤ 15 → 4 ≤ e.arg 2 1 ∧ e.arg 2 1 ≤ 16 ∧ e.arg 8 8 % 4096 = 0 → s.reaches (e.arg 8 8) (64 * 2 ^ e.arg 2 1) = false → Runs (.sqCreate) s fun t => t.outcome adminOwner 0 e.cid = some (0x605, 0, 0) ∧ t.has F.hifEventsHostAccess = true ∧ t.ten = s.ten ∧ t.mem = s.mem ∧ t.out = s.out) ∧
  (∀ (e : Entry) (q : Sq) (s : State), s.mayAdmin 0x84 e → e.arg 0 1 < 16 → e.arg 1 1 < 64 → s.active (e.arg 0 1) = true → e.arg 2 1 = 0 → s.sq? (e.arg 0 1) (e.arg 1 1) = some q → q.busy = false → Runs (.ringDelete) s fun t => t.outcome adminOwner 0 e.cid = some (0, 0, 0) ∧ t.sq? (e.arg 0 1) (e.arg 1 1) = none ∧ (∀ j : Nat, j ≠ e.arg 1 1 → t.sq? (e.arg 0 1) j = s.sq? (e.arg 0 1) j) ∧ (t.tenant (e.arg 0 1)).cqs = (s.tenant (e.arg 0 1)).cqs ∧ t.mem = s.mem) ∧
  (∀ (e : Entry) (q : Sq) (s : State), s.mayAdmin 0x84 e → e.arg 0 1 < 16 → e.arg 1 1 < 64 → s.active (e.arg 0 1) = true → e.arg 2 1 = 0 → s.sq? (e.arg 0 1) (e.arg 1 1) = some q → q.busy = true → Runs (.ringDelete) s fun t => t.outcome adminOwner 0 e.cid = some (0x60A, 0, 0) ∧ t.ten = s.ten ∧ t.mem = s.mem ∧ t.out = s.out) ∧
  (∀ (e : Entry) (q : Cq) (s : State), s.mayAdmin 0x84 e → e.arg 0 1 < 16 → e.arg 1 1 < 64 → s.active (e.arg 0 1) = true → e.arg 2 1 = 1 → s.cq? (e.arg 0 1) (e.arg 1 1) = some q → (∀ x ∈ (s.tenant (e.arg 0 1)).sqs, x.2.cq ≠ e.arg 1 1) → Runs (.ringDelete) s fun t => t.outcome adminOwner 0 e.cid = some (0, 0, 0) ∧ t.cq? (e.arg 0 1) (e.arg 1 1) = none ∧ (∀ j : Nat, j ≠ e.arg 1 1 → t.cq? (e.arg 0 1) j = s.cq? (e.arg 0 1) j) ∧ (t.tenant (e.arg 0 1)).sqs = (s.tenant (e.arg 0 1)).sqs ∧ t.mem = s.mem) ∧
  (∀ (e : Entry) (x : Nat × Sq) (s : State), s.mayAdmin 0x84 e → e.arg 0 1 < 16 → e.arg 1 1 < 64 → s.active (e.arg 0 1) = true → e.arg 2 1 = 1 → x ∈ (s.tenant (e.arg 0 1)).sqs → x.2.cq = e.arg 1 1 → Runs (.ringDelete) s fun t => t.outcome adminOwner 0 e.cid = some (0x60A, 0, 0) ∧ t.ten = s.ten ∧ t.mem = s.mem ∧ t.out = s.out)

/-- Where the debug policy gives no BAR4, an access has no effect. Before READY and outside the open window reads give 0 and writes are discarded, and after READY BAR4_MISS is set; inside it the scratchpad is written or read. The link comes up once its domain has left reset, with rate, width and FLIT mode, and ends a hold; it goes down with LINK_DOWN and holds. Configuration is ready once after training. A hold that expires raises 0610h, makes every ACTIVE tenant due in layers 1 and 2, and resets the device at once where nothing is to be secured. A PCIe reset is a device reset that keeps flash and fuses. -/
def Obligations.HostLinkActs : Prop :=
  (∀ (o : Nat) (wr : Bool) (d : List Byte) (s : State), s.bar4 = false → Runs (.bar4Access o wr d) s fun t => t = { s with resp := .none }) ∧
  (∀ (o : Nat) (wr : Bool) (d : List Byte) (s : State), s.bar4 = true → s.has F.hifStatusReady = false → Runs (.bar4Access o wr d) s fun t => t = { s with resp := if wr then .none else .bytes (zeros d.length) }) ∧
  (∀ (o : Nat) (wr : Bool) (d : List Byte) (s : State), s.bar4 = true → s.has F.hifStatusReady = true → ¬(s.has F.hifCtrlBar4En = true ∧ s.inScratch o d.length = true) → Runs (.bar4Access o wr d) s fun t => t = { s.setEvent F.hifEventsBar4Miss with resp := if wr then .none else .bytes (zeros d.length) } ∧ t.has F.hifEventsBar4Miss = true) ∧
  (∀ (o : Nat) (d : List Byte) (s : State), s.bar4 = true → s.has F.hifStatusReady = true → s.has F.hifCtrlBar4En = true ∧ s.inScratch o d.length = true → Runs (.bar4Access o true d) s fun t => (∀ i : Nat, i < d.length → t.read (windowBase + o + i) 1 = [d.getD i 0]) ∧ (∀ a : Nat, ¬(windowBase + o ≤ a ∧ a < windowBase + o + d.length) → t.read a 1 = s.read a 1) ∧ t.resp = .none ∧ t.ten = s.ten ∧ t.out = s.out) ∧
  (∀ (o : Nat) (d : List Byte) (s : State), s.bar4 = true → s.has F.hifStatusReady = true → s.has F.hifCtrlBar4En = true ∧ s.inScratch o d.length = true → s.poisoned (windowBase + o) d.length = false → Runs (.bar4Access o false d) s fun t => t.resp = .bytes (s.read (windowBase + o) d.length) ∧ t.mem.scratch = s.mem.scratch ∧ t.mem.hbm = s.mem.hbm ∧ t.ten = s.ten ∧ t.out = s.out) ∧
  (∀ (rate : BitVec 2) (w : BitVec 3) (fl : Bool) (s : State), 3 ≤ s.clk.released → s.has F.hifStatusLinkUp = false → Runs (.hostLinkUp rate w fl) s fun t => t.has F.hifStatusLinkUp = true ∧ t.rd F.hifStatusRate = rate.toNat ∧ t.rd F.hifStatusWidth = w.toNat ∧ t.rd F.hifStatusFlit = b2n fl ∧ t.hif = { s.hif with trained := true, linkHold := false } ∧ t.mem = s.mem ∧ t.ten = s.ten ∧ t.out = s.out) ∧
  (∀ (rate : BitVec 2) (w : BitVec 3) (fl : Bool) (s : State), (s.clk.released < 3 ∨ s.has F.hifStatusLinkUp = true) → Runs (.hostLinkUp rate w fl) s fun t => t = s) ∧
  (∀ (s : State), s.has F.hifStatusLinkUp = true → Runs (.hostLinkDown) s fun t => t.has F.hifStatusLinkUp = false ∧ t.rd F.hifStatusRate = 0 ∧ t.rd F.hifStatusWidth = 0 ∧ t.has F.hifStatusFlit = false ∧ t.has F.hifEventsLinkDown = true ∧ t.hif = { s.hif with linkHold := true } ∧ t.mem = s.mem ∧ t.ten = s.ten) ∧
  (∀ (s : State), s.has F.hifStatusLinkUp = false → Runs (.hostLinkDown) s fun t => t = s) ∧
  (∀ (s : State), s.hif.trained = true → s.hif.configReady = false → Runs (.configRetryEnd) s fun t => t = { s with hif := { s.hif with configReady := true }, out := .configReady :: s.out }) ∧
  (∀ (s : State), (s.hif.trained = false ∨ s.hif.configReady = true) → Runs (.configRetryEnd) s fun t => t = s) ∧
  (∀ (n : TenantId) (s : State), s.hif.linkHold = true → s.hif.hostLost = false → s.active n = true → Runs (.linkHoldExpiry) s fun t => t.hif.hostLost = true ∧ (n.val, 1) ∈ t.sec.due ∧ (n.val, 2) ∈ t.sec.due ∧ .event 0x610 .health [] ∈ t.out ∧ t.pwr = s.pwr ∧ t.mem = s.mem ∧ t.ten = s.ten) ∧
  (∀ (s : State), s.hif.linkHold = true → s.hif.hostLost = false → (∀ n : TenantId, s.active n = false) → s.sec.due = [] → s.sec.drains = [] → s.pwr.resetting = none → Runs (.linkHoldExpiry) s fun t => .event 0x610 .health [] ∈ t.out ∧ t.pwr.resetting = some 5 ∧ t.pwr.cut = true ∧ t.mem = s.mem ∧ t.ten = s.ten) ∧
  (∀ (s : State), (s.hif.linkHold = false ∨ s.hif.hostLost = true) → Runs (.linkHoldExpiry) s fun t => t = s) ∧
  (∀ (k : PcieReset) (pins : Straps) (s : State), s.pwr.phase = .up → s.pwr.resetting = none → Runs (.pcieReset k pins) s fun t => t.mem = State.reset.mem ∧ t.ten = State.reset.ten ∧ t.hif = State.reset.hif ∧ t.fab = State.reset.fab ∧ t.keeper.fuses = s.keeper.fuses ∧ t.flash = s.finishRecords.flash ∧ t.out = s.finishRecords.out ∧ t.reg .clkRefsel = s.reg .clkRefsel ∧ t.has F.hifStatusReady = false ∧ t.rd F.secBootStatusStage = 1 ∧ (∀ n : TenantId, t.rd (F.tenStateState n) = 0) ∧ t.pending = s.pending) ∧
  (∀ (k : PcieReset) (pins : Straps) (s : State), ¬(s.pwr.phase = .up ∧ s.pwr.resetting = none) → Runs (.pcieReset k pins) s fun t => t = s)

/-- An input is held (one with a channel to map out makes a live channel FAILING too) and the risk level becomes the highest level of those held; its expiry lets it go. A change raises 070Ch, and a rise to 2 or 3 makes the older generations of ACTIVE tenants due. RES.SECURE makes the layers it names due. A due layer-1 securing takes a stretch of the reservation, a layer-2 one a slot and its bytes of the budget, and waits without it. A block that has been read is written with its digest; a digest that differs is read again, and the third difference abandons both drains with 070Fh. A flash failure abandons the drain, and so does a wait that reaches DRAIN_WAIT_MS. -/
def Obligations.HealthAndSecuring : Prop :=
  (∀ (i : RiskInput) (s : State), s.has F.resStatusReady = true → Runs (.healthInput ⟨i, none⟩) s fun t => t.health.inputs = (s.health.inputs.filter (fun j => j != i)) ++ [i] ∧ (∀ j ∈ t.health.inputs, riskLevel j ≤ t.rd F.resRiskLevel) ∧ (t.health.inputs = [] → t.rd F.resRiskLevel = 0) ∧ (t.health.inputs ≠ [] → ∃ j ∈ t.health.inputs, riskLevel j = t.rd F.resRiskLevel) ∧ (t.rd F.resRiskLevel ≠ s.rd F.resRiskLevel → t.has F.resEventsRisk = true ∧ .event 0x70C .device [t.rd F.resRiskLevel, t.rd F.resRiskCause] ∈ t.out) ∧ (s.rd F.resRiskLevel < 2 → 2 ≤ t.rd F.resRiskLevel → ∀ n : TenantId, s.active n = true → s.genOlder n 1 = true → (n.val, 1) ∈ t.sec.due) ∧ (s.rd F.resRiskLevel < 3 → 3 ≤ t.rd F.resRiskLevel → ∀ n : TenantId, s.active n = true → s.genOlder n 1 = true → (n.val, 2) ∈ t.sec.due) ∧ t.mem = s.mem ∧ t.ten = s.ten) ∧
  (∀ (i : RiskInput) (s : State), s.has F.resStatusReady = false → Runs (.healthInput ⟨i, none⟩) s fun t => t = s) ∧
  (∀ (i : RiskInput) (f : Fin 192) (s : State), s.rd (F.hbmChstateState f) = 0 → Runs (.healthInput ⟨i, some f⟩) s fun t => t.rd (F.hbmChstateState f) = 1 ∧ (s.has F.resStatusReady = true → RiskInput.hbmUe ∈ t.health.inputs)) ∧
  (∀ (i : RiskInput) (f : Fin 192) (s : State), s.rd (F.hbmChstateState f) ≠ 0 → s.has F.resStatusReady = false → Runs (.healthInput ⟨i, some f⟩) s fun t => t = s) ∧
  (∀ (i : RiskInput) (s : State), Runs (.riskHoldExpiry i) s fun t => t.health.inputs = (s.health.inputs.filter (fun j => j != i)) ∧ i ∉ t.health.inputs ∧ (∀ j ∈ t.health.inputs, riskLevel j ≤ t.rd F.resRiskLevel) ∧ (t.health.inputs = [] → t.rd F.resRiskLevel = 0) ∧ (t.health.inputs ≠ [] → ∃ j ∈ t.health.inputs, riskLevel j = t.rd F.resRiskLevel) ∧ (t.rd F.resRiskLevel ≤ s.rd F.resRiskLevel → t.sec = s.sec) ∧ t.mem = s.mem ∧ t.ten = s.ten) ∧
  (∀ (v : Word) (n : TenantId) (s : State), (v.extractLsb' 0 4).toNat = n → v.getLsbD 31 = true → s.active n = true → Runs (.secureRequest v) s fun t => (∀ l ∈ [1, 2, 3], v.getLsbD (7 + l) = true → (n.val, l) ∈ t.sec.due) ∧ (∀ x ∈ s.sec.due, x ∈ t.sec.due) ∧ t.sec.drains = s.sec.drains ∧ t.regs = s.regs ∧ t.mem = s.mem ∧ t.out = s.out ∧ t.ten = s.ten) ∧
  (∀ (v : Word) (s : State), (v.getLsbD 31 = false ∨ s.active (v.extractLsb' 0 4).toNat = false) → Runs (.secureRequest v) s fun t => t = s) ∧
  (∀ (n : TenantId) (s : State), s.mayStartDrain n 1 = false → s.mayStartDrain n 2 = false → s.mayStartDrain n 3 = false → Runs (.securingStart n) s fun t => t = s) ∧
  (∀ (n : TenantId) (r : Reservation) (x : Nat × Nat) (s : State), s.mayStartDrain n 1 = true → s.dueFirst n 1 = true → s.mayStartDrain n 2 = false → s.mayStartDrain n 3 = false → s.reservation = some r → s.regionFor n (genRoom (s.sourceBlocks n)) r = some x → Runs (.securingStart n) s fun t => t.sec.drains = s.sec.drains ++ [s.newDrain n 1 (s.sourceBlocks n) 0 (r.peer * 2 ^ 48 + r.off + x.1)] ∧ t.sec.due = s.sec.due.filter (fun y => y != (n.val, 1)) ∧ t.has F.resStatusDraining = true ∧ KMap.find t.sec.regions n = some x ∧ t.mem = s.mem ∧ t.ten = s.ten ∧ t.flash = s.flash) ∧
  (∀ (n : TenantId) (r : Reservation) (s : State), s.mayStartDrain n 1 = true → s.dueFirst n 1 = true → s.mayStartDrain n 2 = false → s.mayStartDrain n 3 = false → s.reservation = some r → s.regionFor n (genRoom (s.sourceBlocks n)) r = none → Runs (.securingStart n) s fun t => t.sec.drains = s.sec.drains ∧ t.sec.due = s.sec.due.filter (fun y => y != (n.val, 1)) ∧ t.has F.resEventsAbandoned = true ∧ .event 0x70A (.tenant n) [coreUnit 0, 1, 7] ∈ t.out ∧ t.mem = s.mem) ∧
  (∀ (n : TenantId) (s : State), s.mayStartDrain n 1 = false → s.mayStartDrain n 2 = true → s.dueFirst n 2 = true → s.mayStartDrain n 3 = false → s.has F.durStatusReadOnly = false → s.extentsUsed (s.genSlotFor n) + genExtents (sourceBytes (s.sourceBlocks n)) ≤ 16384 → s.bucketAllows (mibOf (sourceBytes (s.sourceBlocks n))) = true → Runs (.securingStart n) s fun t => t.sec.drains = s.sec.drains ++ [s.newDrain n 2 (s.sourceBlocks n) (s.genSlotFor n) 0] ∧ (n.val, 2) ∉ t.sec.due ∧ t.has F.resStatusDraining = true ∧ t.mem = s.mem ∧ t.ten = s.ten) ∧
  (∀ (n : TenantId) (s : State), s.mayStartDrain n 1 = false → s.mayStartDrain n 2 = true → s.dueFirst n 2 = true → s.mayStartDrain n 3 = false → s.has F.durStatusReadOnly = false → s.extentsUsed (s.genSlotFor n) + genExtents (sourceBytes (s.sourceBlocks n)) ≤ 16384 → s.bucketAllows (mibOf (sourceBytes (s.sourceBlocks n))) = false → n.val ∉ s.sec.budgetWait → Runs (.securingStart n) s fun t => t.sec.drains = s.sec.drains ∧ t.sec.due = s.sec.due ∧ n.val ∈ t.sec.budgetWait ∧ t.has F.durEventsWearBudget = true ∧ .event 0x807 .device [n.val] ∈ t.out ∧ t.mem = s.mem ∧ t.ten = s.ten) ∧
  (∀ (s : State), s.sec.budgetWait = [] → Runs (.bucketRefill) s fun t => t = s) ∧
  (∀ (n : TenantId) (ns : List Nat) (s : State), s.sec.budgetWait = n.val :: ns → s.mayStartDrain n 2 = true → s.has F.durStatusReadOnly = false → s.extentsUsed (s.genSlotFor n) + genExtents (sourceBytes (s.sourceBlocks n)) ≤ 16384 → mibOf (sourceBytes (s.sourceBlocks n)) ≤ 2 * s.rd (F.durBudgetDaily 0) → s.rd (F.durBudgetDaily 0) < 2 ^ 30 → Runs (.bucketRefill) s fun t => t.sec.drains = s.sec.drains ++ [s.newDrain n 2 (s.sourceBlocks n) (s.genSlotFor n) 0] ∧ (n.val, 2) ∉ t.sec.due ∧ n.val ∉ t.sec.budgetWait ∧ t.mem = s.mem ∧ t.ten = s.ten) ∧
  (∀ (n : TenantId) (d : Drain) (b : SrcBlock) (rest : List SrcBlock) (x : List Byte) (g : FlashGen) (s : State), s.drain? n 2 = some d → d.blocks = b :: rest → d.paused = false → s.slotOpen d = true → s.canCheck = true → s.has F.durStatusReadOnly = false → b.staged = some x → rest ≠ [] → s.digestDiffers d ({ handle := b.handle, part := b.part, off := b.off, len := b.len, digest := blockDigest d.step b.handle b.part b.off x, data := x }) = false → KMap.find s.flash.gens d.genSlot = some g → s.pwr.cut = false → Runs (.drainBlockEnd n 1 none true) s fun t => t.drain? n 2 = some { d with blocks := rest, done := d.done ++ [{ handle := b.handle, part := b.part, off := b.off, len := b.len, digest := blockDigest d.step b.handle b.part b.off x, data := x }], rereads := 0, next := d.next + blockRoom b.len } ∧ KMap.find t.flash.gens d.genSlot = some { g with blocks := g.blocks ++ [{ handle := b.handle, part := b.part, off := b.off, len := b.len, digest := blockDigest d.step b.handle b.part b.off x, data := x }] } ∧ t.mem = s.mem ∧ t.ten = s.ten) ∧
  (∀ (n : TenantId) (d : Drain) (b : SrcBlock) (rest : List SrcBlock) (x : List Byte) (s : State), s.drain? n 1 = some d → d.blocks = b :: rest → d.paused = false → s.slotOpen d = true → b.staged = some x → s.digestDiffers d ({ handle := b.handle, part := b.part, off := b.off, len := b.len, digest := blockDigest d.step b.handle b.part b.off x, data := x }) = false → s.pwr.cut = false → Runs (.drainBlockEnd n 0 none true) s fun t => t.reg (.resGen n 1) = BitVec.allOnes 64 ∧ t.mem = s.mem) ∧
  (∀ (n : TenantId) (d : Drain) (b : SrcBlock) (rest : List SrcBlock) (x : List Byte) (s : State), s.drain? n 2 = some d → d.blocks = b :: rest → d.paused = false → s.slotOpen d = true → s.canCheck = true → s.has F.durStatusReadOnly = false → b.staged = some x → s.digestDiffers d ({ handle := b.handle, part := b.part, off := b.off, len := b.len, digest := blockDigest d.step b.handle b.part b.off x, data := x }) = true → d.rereads < 2 → s.pwr.cut = false → Runs (.drainBlockEnd n 1 none true) s fun t => t.drain? n 2 = some { d with rereads := d.rereads + 1 } ∧ t.flash = s.flash ∧ t.mem = s.mem ∧ t.ten = s.ten) ∧
  (∀ (n : TenantId) (d : Drain) (b : SrcBlock) (rest : List SrcBlock) (x : List Byte) (s : State), s.drain? n 2 = some d → d.blocks = b :: rest → d.paused = false → s.slotOpen d = true → s.canCheck = true → s.has F.durStatusReadOnly = false → b.staged = some x → s.digestDiffers d ({ handle := b.handle, part := b.part, off := b.off, len := b.len, digest := blockDigest d.step b.handle b.part b.off x, data := x }) = true → 2 ≤ d.rereads → s.pwr.cut = false → Runs (.drainBlockEnd n 1 none true) s fun t => t.drain? n 2 = none ∧ t.drain? n 1 = none ∧ t.has F.resEventsUnstable = true ∧ .event 0x70F .device [n] ∈ t.out ∧ (s.has F.resStatusReady = true → RiskInput.unstable ∈ t.health.inputs) ∧ t.mem = s.mem) ∧
  (∀ (n : TenantId) (z : Option (List Byte)) (d : Drain) (b : SrcBlock) (rest : List SrcBlock) (s : State), s.drain? n 2 = some d → d.blocks = b :: rest → d.paused = false → s.slotOpen d = true → s.canCheck = true → b.staged.isSome = true → s.pwr.cut = false → Runs (.drainBlockEnd n 1 z false) s fun t => t.drain? n 2 = none ∧ t.has F.resEventsAbandoned = true ∧ .event 0x70A (.tenant n) [coreUnit 0, 2, 3] ∈ t.out ∧ t.mem = s.mem) ∧
  (∀ (n : TenantId) (l : Fin 3) (z : Option (List Byte)) (ok : Bool) (s : State), (match s.drain? n (l + 1) with | none => true | some d => d.paused || d.blocks.isEmpty) = true → Runs (.drainBlockEnd n l z ok) s fun t => t = s) ∧
  (∀ (n : TenantId) (s : State), (s.rd F.resCtrlDrainWaitMs = 0 ∨ (s.tenant n).step.drainWait = false) → Runs (.drainWaitExpiry n) s fun t => t = s) ∧
  (∀ (n : TenantId) (s : State), s.rd F.resCtrlDrainWaitMs ≠ 0 → (s.tenant n).step.drainWait = true → Runs (.drainWaitExpiry n) s fun t => (∀ d ∈ s.sec.drains, d.tenant = n → (d.layer = 1 ∨ d.layer = 2) → d.buf ≠ (s.tenant n).step.buf → t.drain? n d.layer = none) ∧ (∀ d ∈ t.sec.drains, d ∈ s.sec.drains) ∧ (∀ d ∈ s.sec.drains, (d.tenant ≠ n ∨ d.layer = 3) → d ∈ t.sec.drains) ∧ t.mem = s.mem)

/-- A GO that names a reachable, well-formed descriptor starts a restore, BUSY at step 1; one while BUSY is ignored, one out of reach ends with 0605h and a malformed one with 0602h. Each step that succeeds goes on to the next with what it found. A failure of step 1 ends the restore with 0706h, of step 2 with 0701h or 0702h, of step 3 with 0703h, of step 4 with 0704h or 0705h, of step 5 with 0707h, of step 6 with 0702h; the tenant's committed state and step word stand, and what is not in force of its tensors is undefined (R424). A replica or a store that the ward does not cover ends it with 0404h. Step 7 takes LOSS_SCALE from the record, step 8 writes the record of kind 3 with the step word toggled, and step 9 ends the restore with 0710h. -/
def Obligations.RestoreProceeds : Prop :=
  (∀ (v : Word) (d bs : List Byte) (s : State), (s.rd F.resRestoreStatusBusy = 1 ∨ v.getLsbD 31 = false ∨ s.has F.resStatusReady = false) → Runs (.restoreGo v d bs) s fun t => t = s) ∧
  (∀ (v : Word) (d bs : List Byte) (s : State), v.getLsbD 31 = true → s.has F.resStatusReady = true → s.has F.resRestoreStatusBusy = false → s.reaches (s.reg .resRestoreDesc).toNat 128 = true → (rdBinds d = 0 ∨ s.reaches (rdBindAddr d) (32 * rdBinds d) = true) → restoreDescOk d = true → Runs (.restoreGo v d bs) s fun t => t.sec.restore = some { tenant := v.toNat % 16, desc := d.take 128, binds := bs.take (32 * rdBinds d), step := 1, manifest := [], slot := [], blocks := [], counters := [] } ∧ t.has F.resRestoreStatusBusy = true ∧ t.rd F.resRestoreStatusStep = 1 ∧ t.rd F.resRestoreStatusCode = 0 ∧ .hostRead (s.reg .resRestoreDesc).toNat 128 ∈ t.out ∧ t.mem = s.mem ∧ t.ten = s.ten) ∧
  (∀ (v : Word) (d bs : List Byte) (s : State), v.getLsbD 31 = true → s.has F.resStatusReady = true → s.has F.resRestoreStatusBusy = false → s.sec.restore = none → (s.reaches (s.reg .resRestoreDesc).toNat 128 = false ∨ rdBinds d ≠ 0 ∧ s.reaches (rdBindAddr d) (32 * rdBinds d) = false) → Runs (.restoreGo v d bs) s fun t => t.sec.restore = none ∧ t.rd F.resRestoreStatusCode = 0x605 ∧ t.has F.resRestoreStatusBusy = false ∧ t.has F.resEventsRestore = true ∧ t.ten = s.ten ∧ t.mem = s.mem ∧ t.has F.hifEventsHostAccess = true) ∧
  (∀ (v : Word) (d bs : List Byte) (s : State), v.getLsbD 31 = true → s.has F.resStatusReady = true → s.has F.resRestoreStatusBusy = false → s.sec.restore = none → s.reaches (s.reg .resRestoreDesc).toNat 128 = true → (rdBinds d = 0 ∨ s.reaches (rdBindAddr d) (32 * rdBinds d) = true) → restoreDescOk d = false → Runs (.restoreGo v d bs) s fun t => t.sec.restore = none ∧ t.rd F.resRestoreStatusCode = 0x602 ∧ t.has F.resRestoreStatusBusy = false ∧ t.has F.resEventsRestore = true ∧ t.ten = s.ten ∧ t.mem = s.mem) ∧
  (∀ (data : List Byte) (code : Half) (s : State), s.sec.restore = none → Runs (.restoreStepEnd data code) s fun t => t = s) ∧
  (∀ (data : List Byte) (code : Half) (r : Restore) (s : State), s.sec.restore = some r → r.step = 1 → s.active r.tenant = true ∧ (s.tenant r.tenant).step.phase = .idle ∧ (∀ d ∈ s.sec.drains, d.tenant ≠ r.tenant) → Runs (.restoreStepEnd data code) s fun t => t.sec.restore = some { r with step := 2 } ∧ t.rd F.resRestoreStatusStep = 2 ∧ t.mem = s.mem ∧ t.ten = s.ten) ∧
  (∀ (data : List Byte) (code : Half) (r : Restore) (s : State), s.sec.restore = some r → r.step = 1 → ¬(s.active r.tenant = true ∧ (s.tenant r.tenant).step.phase = .idle ∧ (∀ d ∈ s.sec.drains, d.tenant ≠ r.tenant)) → Runs (.restoreStepEnd data code) s fun t => t.sec.restore = none ∧ t.rd F.resRestoreStatusCode = 0x706 ∧ t.has F.resRestoreStatusBusy = false ∧ t.has F.resEventsRestore = true ∧ t.ten = s.ten ∧ t.mem = (s.spoilPending r.tenant).mem ∧ ((∀ x ∈ (s.tenant r.tenant).place.tensors, x.secured (1 - (s.tenant r.tenant).step.buf) = []) → t.mem = s.mem)) ∧
  (∀ (data : List Byte) (r : Restore) (g : FlashGen) (s : State), s.sec.restore = some r → r.step = 2 → rdSource r.desc = 2 → s.flashNamed r.desc = some g → genManifestOk g.manifest 2 = true → Runs (.restoreStepEnd data 0) s fun t => t.sec.restore = some { r with manifest := g.manifest, step := 3 } ∧ t.rd F.resRestoreStatusStep = 3 ∧ t.mem = s.mem ∧ t.ten = s.ten) ∧
  (∀ (data : List Byte) (code : Half) (r : Restore) (s : State), s.sec.restore = some r → r.step = 2 → rdSource r.desc = 2 → s.flashNamed r.desc = none → Runs (.restoreStepEnd data code) s fun t => t.sec.restore = none ∧ t.rd F.resRestoreStatusCode = 0x701 ∧ t.has F.resRestoreStatusBusy = false ∧ t.has F.resEventsRestore = true ∧ t.ten = s.ten ∧ t.mem = (s.spoilPending r.tenant).mem ∧ ((∀ x ∈ (s.tenant r.tenant).place.tensors, x.secured (1 - (s.tenant r.tenant).step.buf) = []) → t.mem = s.mem)) ∧
  (∀ (data : List Byte) (code : Half) (r : Restore) (g : FlashGen) (s : State), s.sec.restore = some r → r.step = 2 → rdSource r.desc = 2 → s.flashNamed r.desc = some g → (genManifestOk g.manifest 2 = false ∨ code.toNat ≠ 0) → Runs (.restoreStepEnd data code) s fun t => t.sec.restore = none ∧ t.rd F.resRestoreStatusCode = 0x702 ∧ t.has F.resRestoreStatusBusy = false ∧ t.has F.resEventsRestore = true ∧ t.ten = s.ten ∧ t.mem = (s.spoilPending r.tenant).mem ∧ ((∀ x ∈ (s.tenant r.tenant).place.tensors, x.secured (1 - (s.tenant r.tenant).step.buf) = []) → t.mem = s.mem)) ∧
  (∀ (data : List Byte) (r : Restore) (s : State), s.sec.restore = some r → r.step = 2 → rdSource r.desc ≠ 2 → s.sourceCode r.desc data 0 = 0 → data ≠ [] → genManifestOk data (rdSource r.desc) = true → manifestNamed r.desc data = true → Runs (.restoreStepEnd data 0) s fun t => t.sec.restore = some { r with manifest := data.take (256 + 64 * fld data 0x18 4), step := 3 } ∧ t.rd F.resRestoreStatusStep = 3 ∧ t.mem = s.mem ∧ t.ten = s.ten) ∧
  (∀ (data : List Byte) (code : Half) (r : Restore) (s : State), s.sec.restore = some r → r.step = 2 → rdSource r.desc ≠ 2 → (s.sourceCode r.desc data code.toNat ≠ 0 ∨ data = []) → Runs (.restoreStepEnd data code) s fun t => t.sec.restore = none ∧ t.rd F.resRestoreStatusCode = (fabricCode (s.sourceCode r.desc data code.toNat) 0x701) ∧ t.has F.resRestoreStatusBusy = false ∧ t.has F.resEventsRestore = true ∧ t.ten = s.ten ∧ t.mem = (s.spoilPending r.tenant).mem ∧ ((∀ x ∈ (s.tenant r.tenant).place.tensors, x.secured (1 - (s.tenant r.tenant).step.buf) = []) → t.mem = s.mem)) ∧
  (∀ (data : List Byte) (code : Half) (r : Restore) (s : State), s.sec.restore = some r → r.step = 3 → smallOk (manifestEntries r.manifest) = true → (∀ e ∈ (manifestEntries r.manifest), s.entryMatches r.tenant (manifestEntries r.manifest) e = true) → Runs (.restoreStepEnd data code) s fun t => t.sec.restore = some { r with step := 4 } ∧ t.rd F.resRestoreStatusStep = 4 ∧ t.mem = s.mem ∧ t.ten = s.ten) ∧
  (∀ (data : List Byte) (code : Half) (r : Restore) (s : State), s.sec.restore = some r → r.step = 3 → (smallOk (manifestEntries r.manifest) = false ∨ ∃ e ∈ (manifestEntries r.manifest), s.entryMatches r.tenant (manifestEntries r.manifest) e = false) → Runs (.restoreStepEnd data code) s fun t => t.sec.restore = none ∧ t.rd F.resRestoreStatusCode = 0x703 ∧ t.has F.resRestoreStatusBusy = false ∧ t.has F.resEventsRestore = true ∧ t.ten = s.ten ∧ t.mem = (s.spoilPending r.tenant).mem ∧ ((∀ x ∈ (s.tenant r.tenant).place.tensors, x.secured (1 - (s.tenant r.tenant).step.buf) = []) → t.mem = s.mem)) ∧
  (∀ (data : List Byte) (r : Restore) (m : List Byte) (s : State), s.sec.restore = some r → r.step = 4 → ¬(rdReplica r.desc = s.node ∧ s.has F.fabStatusNodeValid = true) → s.getCode (rdReplica r.desc * 2 ^ 48 + dirBase + rdReplicaTenant r.desc * 2 ^ 21) 0x28 0 = 0 → replicaManifest data (rdReplicaTenant r.desc) (fld r.manifest 0 8) = some m → replicaAgrees (manifestEntries r.manifest) (manifestEntries m) = true → Runs (.restoreStepEnd data 0) s fun t => t.sec.restore = some { r with step := 5 } ∧ t.rd F.resRestoreStatusStep = 5 ∧ t.mem = s.mem ∧ t.ten = s.ten) ∧
  (∀ (data : List Byte) (r : Restore) (m : List Byte) (s : State), s.sec.restore = some r → r.step = 4 → ¬(rdReplica r.desc = s.node ∧ s.has F.fabStatusNodeValid = true) → s.getCode (rdReplica r.desc * 2 ^ 48 + dirBase + rdReplicaTenant r.desc * 2 ^ 21) 0x28 0 = 0 → replicaManifest data (rdReplicaTenant r.desc) (fld r.manifest 0 8) = some m → replicaAgrees (manifestEntries r.manifest) (manifestEntries m) = false → Runs (.restoreStepEnd data 0) s fun t => t.sec.restore = none ∧ t.rd F.resRestoreStatusCode = 0x704 ∧ t.has F.resRestoreStatusBusy = false ∧ t.has F.resEventsRestore = true ∧ t.ten = s.ten ∧ t.mem = (s.spoilPending r.tenant).mem ∧ ((∀ x ∈ (s.tenant r.tenant).place.tensors, x.secured (1 - (s.tenant r.tenant).step.buf) = []) → t.mem = s.mem)) ∧
  (∀ (data : List Byte) (r : Restore) (s : State), s.sec.restore = some r → r.step = 4 → ¬(rdReplica r.desc = s.node ∧ s.has F.fabStatusNodeValid = true) → s.getCode (rdReplica r.desc * 2 ^ 48 + dirBase + rdReplicaTenant r.desc * 2 ^ 21) 0x28 0 = 0 → replicaManifest data (rdReplicaTenant r.desc) (fld r.manifest 0 8) = none → Runs (.restoreStepEnd data 0) s fun t => t.sec.restore = none ∧ t.rd F.resRestoreStatusCode = 0x705 ∧ t.has F.resRestoreStatusBusy = false ∧ t.has F.resEventsRestore = true ∧ t.ten = s.ten ∧ t.mem = (s.spoilPending r.tenant).mem ∧ ((∀ x ∈ (s.tenant r.tenant).place.tensors, x.secured (1 - (s.tenant r.tenant).step.buf) = []) → t.mem = s.mem)) ∧
  (∀ (data : List Byte) (code : Half) (r : Restore) (s : State), s.sec.restore = some r → r.step = 4 → ¬(rdReplica r.desc = s.node ∧ s.has F.fabStatusNodeValid = true) → s.getCode (rdReplica r.desc * 2 ^ 48 + dirBase + rdReplicaTenant r.desc * 2 ^ 21) 0x28 code.toNat = 0x404 → Runs (.restoreStepEnd data code) s fun t => t.sec.restore = none ∧ t.rd F.resRestoreStatusCode = 0x404 ∧ t.has F.resRestoreStatusBusy = false ∧ t.has F.resEventsRestore = true ∧ t.ten = s.ten ∧ t.mem = (s.spoilPending r.tenant).mem ∧ ((∀ x ∈ (s.tenant r.tenant).place.tensors, x.secured (1 - (s.tenant r.tenant).step.buf) = []) → t.mem = s.mem)) ∧
  (∀ (data : List Byte) (r : Restore) (s : State), s.sec.restore = some r → r.step = 5 → rdSource r.desc ≠ 2 → data.length = 131328 → skewed (rdBinds r.desc) r.binds data = [] → Runs (.restoreStepEnd data 0) s fun t => (t.sec.restore.map fun y => (y.step, y.slot, y.manifest)) = some (6, data, r.manifest) ∧ (∀ i : Nat, i < 4096 → (t.sec.restore.map fun y => KMap.get y.counters i 0) = some (slotCounter data i)) ∧ t.mem = s.mem ∧ t.ten = s.ten) ∧
  (∀ (data : List Byte) (r : Restore) (i k : Nat) (ks : List (Nat × Nat)) (s : State), s.sec.restore = some r → r.step = 5 → rdSource r.desc ≠ 2 → data.length = 131328 → skewed (rdBinds r.desc) r.binds data = (i, k) :: ks → rdRealign r.desc = false → Runs (.restoreStepEnd data 0) s fun t => t.sec.restore = none ∧ t.rd F.resRestoreStatusCode = 0x707 ∧ t.has F.resRestoreStatusBusy = false ∧ t.has F.resEventsRestore = true ∧ t.mem = ((s.tell r.tenant 0x707 (coreUnit 0) i 0).spoilPending r.tenant).mem ∧ (t.tenant r.tenant).step = (s.tenant r.tenant).step ∧ .event 0x707 (.tenant r.tenant) [coreUnit 0, i, 0] ∈ t.out) ∧
  (∀ (data : List Byte) (r : Restore) (i k : Nat) (ks : List (Nat × Nat)) (s : State), s.sec.restore = some r → r.step = 5 → rdSource r.desc ≠ 2 → data.length = 131328 → skewed (rdBinds r.desc) r.binds data = (i, k) :: ks → rdRealign r.desc = true → Runs (.restoreStepEnd data 0) s fun t => (t.sec.restore.map fun y => (y.step, y.slot, y.manifest)) = some (6, data, r.manifest) ∧ (∀ x ∈ (i, k) :: ks, (t.sec.restore.map fun y => KMap.get y.counters x.1 0) = some x.2) ∧ .event 0x708 (.tenant r.tenant) [coreUnit 0, ks.length + 1, 0] ∈ t.out ∧ t.mem = s.mem) ∧
  (∀ (data : List Byte) (r : Restore) (s : State), s.sec.restore = some r → r.step = 6 → rdSource r.desc ≠ 2 → ((manifestEntries r.manifest).zip (cutEntries (manifestEntries r.manifest) data)).all (blockGood (fld r.manifest 0 8)) = true → Runs (.restoreStepEnd data 0) s fun t => t.sec.restore = some { r with blocks := cutEntries (manifestEntries r.manifest) data, step := 7 } ∧ t.rd F.resRestoreStatusStep = 7 ∧ (∀ j : Nat, (t.tenant j).step = (s.tenant j).step)) ∧
  (∀ (data : List Byte) (r : Restore) (s : State), s.sec.restore = some r → r.step = 6 → rdSource r.desc ≠ 2 → ((manifestEntries r.manifest).zip (cutEntries (manifestEntries r.manifest) data)).all (blockGood (fld r.manifest 0 8)) = false → Runs (.restoreStepEnd data 0) s fun t => t.sec.restore = none ∧ t.rd F.resRestoreStatusCode = 0x702 ∧ t.has F.resRestoreStatusBusy = false ∧ t.has F.resEventsRestore = true ∧ (∀ j : Nat, (t.tenant j).step = (s.tenant j).step)) ∧
  (∀ (data : List Byte) (code : Half) (r : Restore) (s : State), s.sec.restore = some r → r.step = 7 → Runs (.restoreStepEnd data code) s fun t => t.sec.restore = some { r with step := 8 } ∧ t.rd F.resRestoreStatusStep = 8 ∧ (t.tenant r.tenant).num.lossScale = BitVec.ofNat 32 (fld r.slot 0x14 4) ∧ (t.tenant r.tenant).num.cleanSteps = 0 ∧ (t.tenant r.tenant).num.poison = false ∧ (∀ j : Nat, (t.tenant j).step = (s.tenant j).step)) ∧
  (∀ (data : List Byte) (code : Half) (r : Restore) (s : State), s.sec.restore = some r → r.step = 8 → Runs (.restoreStepEnd data code) s fun t => t.sec.restore = some { r with step := 9 } ∧ t.rd F.resRestoreStatusStep = 9 ∧ (t.tenant r.tenant).step.seq = (s.tenant r.tenant).step.seq + 1 ∧ (t.tenant r.tenant).step.slot = 1 - (s.tenant r.tenant).step.slot ∧ (t.tenant r.tenant).step.buf = 1 - (s.tenant r.tenant).step.buf ∧ (t.tenant r.tenant).step.record.kind = 3 ∧ (t.tenant r.tenant).step.record.step = fld r.slot 8 8 ∧ (t.tenant r.tenant).step.record.cursor = (r.slot.drop 0x18).take 16 ∧ (t.tenant r.tenant).step.record.counters = r.counters ∧ (t.tenant r.tenant).step.counters = r.counters ∧ (t.tenant r.tenant).step.lost = false ∧ (∀ j : Nat, j ≠ r.tenant → (t.tenant j).step = (s.tenant j).step)) ∧
  (∀ (data : List Byte) (code : Half) (r : Restore) (s : State), s.sec.restore = some r → r.step = 9 → Runs (.restoreStepEnd data code) s fun t => t.sec.restore = none ∧ t.rd F.resRestoreStatusCode = 0 ∧ t.has F.resRestoreStatusBusy = false ∧ t.has F.resEventsRestore = true ∧ .event 0x710 (.tenant r.tenant) [coreUnit 0, (s.tenant r.tenant).step.record.step, 0] ∈ t.out)

/-- A record of a kind that its writer may not offer is discarded with 0907h. Another starts at once under the next JSEQ when the journal is READY and idle, and queues otherwise; a COMMIT waits its coalescing time and replaces an older one of its key. The end of the wait lets it start. A verified copy A stands in ring A; the commit puts both copies in their slots, makes the record live and shows JSEQ. A scrub rewrites a copy that is weak or bad from the other. The scan commits what has a valid copy, makes both copies equal, continues after the highest JSEQ and sets READY. -/
def Obligations.JournalActs : Prop :=
  (∀ (i : JRecord) (s : State), journalTakes i = false → Runs (.journalRecordRequest i) s fun t => t = { s with out := .event 0x907 .keeper [i.kind.toNat] :: s.out }) ∧
  (∀ (i : JRecord) (s : State), journalTakes i = true → s.has F.durStatusReady = false → Runs (.journalRecordRequest i) s fun t => t.journal = { s.journal with queue := (s.journal.queue.filter fun q => !(q.coalescing && i.kind.toNat == 1 && q.item.kind == i.kind && q.item.key == i.key)) ++ [{ item := i, coalescing := i.kind.toNat == 1 && s.rd F.durCtrlCoalesceUs != 0 && !s.inWarning }] } ∧ t.flash = s.flash ∧ t.mem = s.mem ∧ t.ten = s.ten) ∧
  (∀ (i : JRecord) (s : State), journalTakes i = true → s.has F.durStatusReady = true → i.kind.toNat ≠ 1 → s.journal.run = [] → s.journal.queue = [] → s.journal.live = [] → s.pwr.resetting = none → Runs (.journalRecordRequest i) s fun t => t.journal = { s.journal with next := s.journal.next + 1, run := [{ jseq := s.journal.next, item := i, bytes := journalBytes i s.journal.next s.tag, copyA := false }] } ∧ t.flash = s.flash ∧ t.mem = s.mem ∧ t.ten = s.ten) ∧
  (∀ (i : JRecord) (s : State), journalTakes i = true → s.has F.durStatusReady = true → i.kind.toNat = 1 → s.rd F.durCtrlCoalesceUs ≠ 0 → s.inWarning = false → s.journal.run = [] → (∀ q ∈ s.journal.queue, q.coalescing = true) → Runs (.journalRecordRequest i) s fun t => t.journal = { s.journal with queue := (s.journal.queue.filter fun q => !(q.coalescing && i.kind.toNat == 1 && q.item.kind == i.kind && q.item.key == i.key)) ++ [{ item := i, coalescing := true }] } ∧ t.flash = s.flash ∧ t.mem = s.mem ∧ t.ten = s.ten) ∧
  (∀ (n : TenantId) (q : JReq) (s : State), s.has F.durStatusReady = true → s.journal.run = [] → s.journal.live = [] → s.pwr.resetting = none → s.journal.queue = [q] → q.item.kind.toNat = 1 → q.item.key.toNat = n → Runs (.coalesceExpiry n) s fun t => t.journal = { s.journal with next := s.journal.next + 1, queue := [], run := [{ jseq := s.journal.next, item := q.item, bytes := journalBytes q.item s.journal.next s.tag, copyA := false }] } ∧ t.flash = s.flash ∧ t.mem = s.mem ∧ t.ten = s.ten) ∧
  (∀ (j : Nat) (x : JRun) (s : State), s.journal.run.find? (fun y => y.jseq == j) = some x → Runs (.journalCopyAVerified j) s fun t => KMap.get t.flash.ringA (j % journalSlots) [] = x.bytes ∧ (∀ i : Nat, i ≠ j % journalSlots → KMap.find t.flash.ringA i = KMap.find s.flash.ringA i) ∧ t.flash.ringB = s.flash.ringB ∧ t.journal.run = s.journal.run.map (fun y => if y.jseq = j then { y with copyA := true } else y) ∧ t.mem = s.mem ∧ t.regs = s.regs ∧ t.out = s.out) ∧
  (∀ (j : Nat) (s : State), (∀ y ∈ s.journal.run, y.jseq ≠ j) → Runs (.journalCopyAVerified j) s fun t => t = s) ∧
  (∀ (j : Nat) (x : JRun) (s : State), s.journal.run = [x] → x.jseq = j → x.copyA = true → x.item.byKeeper = false → x.item.kind ≠ 2 → s.journal.queue = [] → j < 2 ^ 64 → Runs (.journalRecordCommitted j) s fun t => t.journal.run = [] ∧ t.journal.live = liveAfter s.journal.live x.item.kind.toNat (journalKey x.item j) j ∧ KMap.get t.flash.ringA (j % journalSlots) [] = x.bytes ∧ KMap.get t.flash.ringB (j % journalSlots) [] = x.bytes ∧ (t.reg .durJseq).toNat = max (s.reg .durJseq).toNat j ∧ t.mem = s.mem ∧ t.ten = s.ten) ∧
  (∀ (j : Nat) (s : State), (∀ y ∈ s.journal.run, y.jseq = j → y.copyA = false) → Runs (.journalRecordCommitted j) s fun t => t = s) ∧
  (∀ (w : List (Nat × Bool)) (k j : Nat) (a b : List Byte) (s : State), s.journal.live = [(k, j)] → KMap.get s.flash.ringA (j % journalSlots) [] = a → KMap.get s.flash.ringB (j % journalSlots) [] = b → journalValid b = true → (journalValid a = false ∨ (j, false) ∈ w) → Runs (.journalScrub w) s fun t => KMap.get t.flash.ringA (j % journalSlots) [] = b ∧ KMap.get t.flash.ringB (j % journalSlots) [] = b ∧ t.has F.durEventsJournalRepaired = true ∧ .event 0x809 .device [] ∈ t.out ∧ t.mem = s.mem ∧ t.ten = s.ten) ∧
  (∀ (w : List (Nat × Bool)) (s : State), (∀ x ∈ s.journal.live, journalValid (KMap.get s.flash.ringA (x.2 % journalSlots) []) = true ∧ journalValid (KMap.get s.flash.ringB (x.2 % journalSlots) []) = true ∧ (x.2, false) ∉ w ∧ (x.2, true) ∉ w) → Runs (.journalScrub w) s fun t => t = s) ∧
  (∀ (s : State), (s.has F.durStatusReady = true ∨ s.clk.released = 0) → Runs (.durableStoreStart) s fun t => t = s) ∧
  (∀ (s : State), s.has F.durStatusReady = false → s.clk.released ≠ 0 → s.flash = Flash.reset → s.journal = Journal.reset → Runs (.durableStoreStart) s fun t => t.has F.durStatusReady = true ∧ t.has F.durStatusScanBusy = false ∧ t.journal = s.journal ∧ (t.reg .durJseq).toNat = 0 ∧ t.rd F.durSpareTlc = 1000 ∧ t.rd F.durSpareSlc = 1000 ∧ t.flash = s.flash ∧ t.mem = s.mem ∧ t.ten = s.ten ∧ t.out = s.out) ∧
  (∀ (k j : Nat) (a : List Byte) (s : State), s.has F.durStatusReady = false → s.clk.released ≠ 0 → s.flash = { Flash.reset with ringA := [(k, a)] } → journalValid a = true → fld a 4 2 = 4 → fld a 8 8 = j → Runs (.durableStoreStart) s fun t => t.has F.durStatusReady = true ∧ KMap.get t.flash.ringA k [] = a ∧ KMap.get t.flash.ringB k [] = a ∧ t.has F.durStatusRepaired = true ∧ .event 0x809 .device [] ∈ t.out ∧ t.journal.next = j + 1 ∧ (t.reg .durJseq).toNat = j ∧ t.mem = s.mem ∧ t.ten = s.ten) ∧
  (∀ (s : State), s.has F.durStatusReady = true → s.rd F.durTlcWrittenMib < tlcAllowance → 20 ≤ s.rd F.durSpareTlc → s.has F.durStatusReadOnly = false → s.journal.tlcRest < 2 ^ 20 → s.rd F.durHoursHours < 2 ^ 31 → Runs (.wearBudgetUpdate) s fun t => t.rd F.durHoursHours = s.rd F.durHoursHours + 1 ∧ (∀ a ∈ [0, 1, 2], t.rd (F.durBudgetDaily a) = (s.add F.durHoursHours 1).dailyAllowance * areaShare a / 100 ∧ t.bucket a ≤ 2 * (t.rd (F.durBudgetDaily a) : Int)) ∧ t.sec = s.sec ∧ t.flash = s.flash ∧ t.mem = s.mem ∧ t.ten = s.ten) ∧
  (∀ (s : State), s.has F.durStatusReady = true → s.rd F.durSpareTlc < 20 → Runs (.wearBudgetUpdate) s fun t => t.has F.durStatusReadOnly = true ∧ (∀ d ∈ t.sec.drains, d.layer ≠ 2) ∧ (∀ d ∈ s.sec.drains, d.layer ≠ 2 → d ∈ t.sec.drains) ∧ t.mem = s.mem) ∧
  (∀ (s : State), s.has F.durStatusReady = false → Runs (.wearBudgetUpdate) s fun t => t = s)

/-- A sample shows the input, its least value and the power, and sets the floor to /48 in WARNING or on a peak, one step up above the limit, one down after a low mean; a change sets FLOOR. The input enters LOW once with 0803h and leaves it. A droop enters WARNING with 0801h at floor /48, ends coalescing, pauses drains of layers 2 and 3, counts and informs the health monitor; recovery returns the floor and resumes the drains. A high input, an open PWR_EN and the reset level cut the load, discard records not started, and keep those in progress; at the end the device resets and the rails fall. -/
def Obligations.InputAndPowerLevels : Prop :=
  (∀ (p : PowerReading) (s : State), Runs (.powerSample p) s fun t => t.rd F.pwrVinVin = p.vin.toNat ∧ t.rd F.pwrVinVinMin = min (s.rd F.pwrVinVinMin) p.vin.toNat ∧ t.rd F.pwrPinPeak = p.peak.toNat ∧ t.rd F.pwrPinMean = p.mean10ms.toNat ∧ t.rd F.clkArrdivPwrFloor = (if s.rd F.pwrStatusState = 3 ∨ p.over50us = true then 2 else if max 600 (min 2400 (s.rd F.pwrLimitWatts)) < p.mean10ms.toNat then min 2 (s.rd F.clkArrdivPwrFloor + 1) else if p.low100ms = true then s.rd F.clkArrdivPwrFloor - 1 else s.rd F.clkArrdivPwrFloor) ∧ (t.rd F.clkArrdivPwrFloor ≠ s.rd F.clkArrdivPwrFloor → t.has F.pwrEventsFloor = true) ∧ t.mem = s.mem ∧ t.ten = s.ten ∧ t.pwr = s.pwr) ∧
  (∀ (s : State), Runs (.minClear) s fun t => t.rd F.pwrVinVinMin = s.rd F.pwrVinVin ∧ t.rd F.pwrVinVin = s.rd F.pwrVinVin ∧ (∀ x : Reg, x ≠ .pwrVin → t.reg x = s.reg x) ∧ t.mem = s.mem ∧ t.ten = s.ten ∧ t.pwr = s.pwr ∧ t.out = s.out) ∧
  (∀ (s : State), s.rd F.pwrStatusState = 1 → Runs (.inputLow) s fun t => t.rd F.pwrStatusState = 2 ∧ t.has F.pwrEventsInputLow = true ∧ .event 0x803 .device [] ∈ t.out ∧ t.mem = s.mem ∧ t.ten = s.ten ∧ t.pwr = s.pwr) ∧
  (∀ (s : State), s.rd F.pwrStatusState ≠ 1 → Runs (.inputLow) s fun t => t = s) ∧
  (∀ (s : State), s.rd F.pwrStatusState = 2 → Runs (.inputNormal) s fun t => t.rd F.pwrStatusState = 1 ∧ t.mem = s.mem ∧ t.ten = s.ten ∧ t.pwr = s.pwr ∧ t.out = s.out) ∧
  (∀ (s : State), s.rd F.pwrStatusState ≠ 2 → Runs (.inputNormal) s fun t => t = s) ∧
  (∀ (s : State), s.pwr.phase = .up → s.pwr.resetting = none → Runs (.inputHigh) s fun t => t.rd F.pwrStatusState = 4 ∧ t.has F.pwrEventsInputHigh = true ∧ .event 0x804 .device [] ∈ t.out ∧ t.pwr.resetting = some 3 ∧ t.pwr.cut = true ∧ t.pwr.discarded = s.journal.queue.length ∧ t.journal.queue = [] ∧ t.journal.run = s.journal.run ∧ t.mem = s.mem ∧ t.ten = s.ten) ∧
  (∀ (s : State), s.pwr.phase = .charging → Runs (.inputHigh) s fun t => t.rd F.pwrStatusState = 4 ∧ .event 0x804 .device [] ∈ t.out ∧ t.pwr = { s.pwr with phase := .waitInput }) ∧
  (∀ (s : State), s.pwr.phase = .up → (s.rd F.pwrStatusState = 1 ∨ s.rd F.pwrStatusState = 2) → Runs (.droopWarning) s fun t => t.rd F.pwrStatusState = 3 ∧ t.has F.pwrEventsDroopWarning = true ∧ .event 0x801 .device [] ∈ t.out ∧ t.rd F.clkArrdivPwrFloor = 2 ∧ t.pwr.floorBefore = s.rd F.clkArrdivPwrFloor ∧ (∀ q ∈ t.journal.queue, q.coalescing = false) ∧ (∀ d ∈ t.sec.drains, 2 ≤ d.layer → d.paused = true) ∧ (s.has F.resStatusReady = true → (if s.has F.resStatusCorrelated then RiskInput.droopCorrelated else .droop) ∈ t.health.inputs) ∧ t.mem = s.mem ∧ t.ten = s.ten) ∧
  (∀ (s : State), (s.pwr.phase ≠ .up ∨ ¬(s.rd F.pwrStatusState = 1 ∨ s.rd F.pwrStatusState = 2)) → Runs (.droopWarning) s fun t => t = s) ∧
  (∀ (s : State), s.rd F.pwrStatusState = 3 → s.pwr.resetting = none → 40000 ≤ s.rd F.pwrVinVin → Runs (.droopRecovery) s fun t => t.rd F.pwrStatusState = 1 ∧ t.has F.pwrEventsRecovered = true ∧ t.rd F.clkArrdivPwrFloor = s.pwr.floorBefore % 4 ∧ (∀ d ∈ t.sec.drains, 2 ≤ d.layer → d.paused = false) ∧ t.mem = s.mem ∧ t.ten = s.ten ∧ t.pwr = s.pwr) ∧
  (∀ (s : State), s.rd F.pwrStatusState = 3 → s.pwr.resetting = none → s.rd F.pwrVinVin < 40000 → Runs (.droopRecovery) s fun t => t.rd F.pwrStatusState = 2 ∧ t.has F.pwrEventsRecovered = true ∧ t.has F.pwrEventsInputLow = true ∧ .event 0x803 .device [] ∈ t.out ∧ (∀ d ∈ t.sec.drains, 2 ≤ d.layer → d.paused = false) ∧ t.mem = s.mem ∧ t.ten = s.ten) ∧
  (∀ (s : State), (s.rd F.pwrStatusState ≠ 3 ∨ s.pwr.resetting ≠ none) → Runs (.droopRecovery) s fun t => t = s) ∧
  (∀ (s : State), s.pwr.phase = .up → s.pwr.resetting = none → Runs (.resetLevel) s fun t => t.pwr.resetting = some 2 ∧ t.pwr.cut = true ∧ t.pwr.discarded = s.journal.queue.length ∧ t.journal.queue = [] ∧ t.journal.run = s.journal.run ∧ t.regs = s.regs ∧ t.mem = s.mem ∧ t.ten = s.ten ∧ t.out = s.out) ∧
  (∀ (n : Nat) (s : State), s.pwr.phase = .rails n → Runs (.resetLevel) s fun t => t = { s with pwr := { s.pwr with phase := .falling } }) ∧
  (∀ (s : State), s.pwr.phase = .up → s.pwr.resetting ≠ none → Runs (.resetLevel) s fun t => t = s) ∧
  (∀ (s : State), s.pwr.phase = .up → s.pwr.resetting = none → Runs (.pwrEnOpen) s fun t => t.pwr.enOpen = true ∧ t.pwr.resetting = some 2 ∧ t.pwr.cut = true ∧ t.pwr.discarded = s.journal.queue.length ∧ t.journal.queue = [] ∧ t.journal.run = s.journal.run ∧ t.mem = s.mem ∧ t.ten = s.ten) ∧
  (∀ (s : State), Runs (.pwrEnClose) s fun t => t = { s with pwr := { s.pwr with enOpen := false } }) ∧
  (∀ (s : State), s.pwr.resetting = none → Runs (.resetRecordsComplete) s fun t => t = s) ∧
  (∀ (s : State), s.pwr.resetting = some 6 → s.journal.run = [] → Runs (.resetRecordsComplete) s fun t => t.pwr.resetting = none ∧ t.pwr.cut = false ∧ t.mem = Mem.reset ∧ t.ten = [] ∧ t.flash = s.flash ∧ t.keeper.fuses = s.keeper.fuses ∧ t.pwr.phase = .falling ∧ t.clk = Clk.reset ∧ t.out = s.out) ∧
  (∀ (s : State), s.pwr.resetting = some 5 → s.pwr.phase = .up → s.journal.run = [] → Runs (.resetRecordsComplete) s fun t => t.pwr.resetting = none ∧ t.pwr.cut = false ∧ t.mem = Mem.reset ∧ t.ten = [] ∧ t.flash = s.flash ∧ t.keeper.fuses = s.keeper.fuses ∧ t.pwr.phase = .up ∧ t.rd F.resFeedStrapFeed = strapFeed t.pwr.straps ∧ t.clk.rails = true ∧ t.clk.bypass = true ∧ t.rd F.secBootStatusStage = 1 ∧ t.has F.clkStatusPllLock = false ∧ t.reg .clkRefsel = s.reg .clkRefsel) ∧
  (∀ (k : Nat) (s : State), s.pwr.resetting = some k → s.journal.run = [] → 2 ≤ k ∧ k ≤ 4 → Runs (.resetRecordsComplete) s fun t => t.pwr.resetting = none ∧ t.pwr.phase = .falling ∧ t.mem = Mem.reset ∧ t.ten = [] ∧ t.keeper.fuses = s.keeper.fuses ∧ KMap.get t.flash.ringA (s.journal.next % journalSlots) [] = journalBytes (firmwareRecord 5 0xFF 0 (s.powerPayload k)) s.journal.next s.tag ∧ KMap.get t.flash.ringB (s.journal.next % journalSlots) [] = KMap.get t.flash.ringA (s.journal.next % journalSlots) [] ∧ t.flash.gens = s.flash.gens)

/-- With a stable input, PWR_EN closed and the module cool, the bank charges, is tested, and the rails start one by one; after the ninth the module is up. A missed power-good drops the rails for a retry, and the third stays off. A test shows its time, and below 4,000 us raises 0806h with HOLDUP_OK clear. Fallen rails wait for the input again and lose CLK.REFSEL. A warning limit passed twice informs the health monitor and slows the array; a shutdown limit passed twice latches the sensor and starts the reset sequence. FW_REQ returns once all is 5 degrees below. -/
def Obligations.PowerUpAndTemperatures : Prop :=
  (∀ (s : State), s.pwr.phase = .waitInput → s.pwr.enOpen = false → s.pwr.cooled = true → Runs (.inputStable) s fun t => t = { s with pwr := { s.pwr with phase := .charging } }) ∧
  (∀ (s : State), (s.pwr.phase ≠ .waitInput ∨ s.pwr.enOpen = true ∨ s.pwr.cooled = false) → Runs (.inputStable) s fun t => t = s) ∧
  (∀ (s : State), s.pwr.phase = .charging → Runs (.holdupCharged) s fun t => t = { s with pwr := { s.pwr with phase := .testing } }) ∧
  (∀ (s : State), s.pwr.phase ≠ .charging → Runs (.holdupCharged) s fun t => t = s) ∧
  (∀ (us : Half) (s : State), s.pwr.phase = .testing → 4000 ≤ us.toNat → Runs (.holdupTestEnd us) s fun t => t.rd F.pwrHoldupUs = us.toNat ∧ t.pwr.tested = true ∧ t.has F.pwrStatusHoldupOk = true ∧ t.pwr.phase = .rails 0 ∧ t.out = s.out ∧ t.mem = s.mem ∧ t.ten = s.ten) ∧
  (∀ (us : Half) (s : State), s.pwr.phase = .testing → us.toNat < 4000 → Runs (.holdupTestEnd us) s fun t => t.rd F.pwrHoldupUs = us.toNat ∧ t.pwr.tested = true ∧ t.has F.pwrStatusHoldupOk = false ∧ t.has F.pwrEventsHoldupFault = true ∧ .event 0x806 .device [] ∈ t.out ∧ t.pwr.phase = .rails 0 ∧ t.mem = s.mem ∧ t.ten = s.ten) ∧
  (∀ (us : Half) (s : State), s.pwr.phase ≠ .testing → Runs (.holdupTestEnd us) s fun t => t = s) ∧
  (∀ (us : Half) (s : State), s.pwr.phase = .up → us.toNat < 4000 → Runs (.holdupRetest us) s fun t => t.rd F.pwrHoldupUs = us.toNat ∧ t.pwr.tested = true ∧ t.has F.pwrStatusHoldupOk = false ∧ t.has F.pwrEventsHoldupFault = true ∧ .event 0x806 .device [] ∈ t.out ∧ t.pwr.phase = .up ∧ t.mem = s.mem ∧ t.ten = s.ten) ∧
  (∀ (us : Half) (s : State), s.pwr.phase = .up → 4000 ≤ us.toNat → Runs (.holdupRetest us) s fun t => t.rd F.pwrHoldupUs = us.toNat ∧ t.pwr.tested = true ∧ t.has F.pwrStatusHoldupOk = true ∧ t.pwr.phase = .up ∧ t.out = s.out ∧ t.mem = s.mem ∧ t.ten = s.ten) ∧
  (∀ (us : Half) (s : State), s.pwr.phase ≠ .up → Runs (.holdupRetest us) s fun t => t = s) ∧
  (∀ (n : Nat) (s : State), s.pwr.phase = .rails n → n ≠ 8 → Runs (.railPowerGood) s fun t => t = { s with pwr := { s.pwr with phase := .rails (n + 1) } }) ∧
  (∀ (s : State), s.pwr.phase = .rails 8 → Runs (.railPowerGood) s fun t => t = { s with pwr := { s.pwr with phase := .up, failures := 0, failedRail := 0 } }) ∧
  (∀ (s : State), (∀ n : Nat, s.pwr.phase ≠ .rails n) → Runs (.railPowerGood) s fun t => t = s) ∧
  (∀ (n : Nat) (s : State), s.pwr.phase = .rails n → Runs (.railTimeout) s fun t => t = { s with pwr := { s.pwr with phase := if s.pwr.failures = 2 then .failedOff else .retryWait, failures := s.pwr.failures + 1, failedRail := n + 1 } }) ∧
  (∀ (s : State), (∀ n : Nat, s.pwr.phase ≠ .rails n) → Runs (.railTimeout) s fun t => t = s) ∧
  (∀ (s : State), s.pwr.phase = .retryWait → Runs (.railRetry) s fun t => t = { s with pwr := { s.pwr with phase := .rails 0 } }) ∧
  (∀ (s : State), s.pwr.phase ≠ .retryWait → Runs (.railRetry) s fun t => t = s) ∧
  (∀ (s : State), s.pwr.phase = .falling → Runs (.railsDown) s fun t => t.pwr = { s.pwr with phase := .waitInput } ∧ t.reg .clkRefsel = (Reg.clkRefsel).reset ∧ (∀ x : Reg, x ≠ .clkRefsel → t.reg x = s.reg x) ∧ t.mem = s.mem ∧ t.ten = s.ten ∧ t.flash = s.flash ∧ t.out = s.out) ∧
  (∀ (s : State), s.pwr.phase ≠ .falling → Runs (.railsDown) s fun t => t = s) ∧
  (∀ (x : Temps) (s : State), s.pwr.phase = .up → s.pwr.resetting = none → twice (above x fun l => l.2) s.pwr.trips = [] → Runs (.thermalRead x) s fun t => t.pwr = { s.pwr with temps := some x, hot := above x fun l => l.1, hotter := above x fun l => l.1 + 50, trips := above x fun l => l.2 } ∧ t.rd F.pwrThermDieMax = unsigned 8 (hottest x.die / 10) ∧ t.rd F.pwrThermHbmMax = unsigned 8 (hottest x.hbm / 10) ∧ (twice (above x fun l => l.1) s.pwr.hot ≠ [] → 1 ≤ t.rd F.clkArrdivFwReq ∧ (s.has F.resStatusReady = true → RiskInput.thermalWarn ∈ t.health.inputs)) ∧ (twice (above x fun l => l.1 + 50) s.pwr.hotter ≠ [] → t.rd F.clkArrdivFwReq = 2) ∧ t.mem = s.mem ∧ t.ten = s.ten) ∧
  (∀ (x : Temps) (k : Nat) (ks : List Nat) (s : State), s.pwr.phase = .up → s.pwr.resetting = none → twice (above x fun l => l.2) s.pwr.trips = k :: ks → Runs (.thermalRead x) s fun t => t.pwr.trip = some k ∧ t.rd F.pwrThermTripSensor = k % 256 ∧ t.pwr.cooled = false ∧ t.pwr.resetting = some 6 ∧ t.pwr.cut = true ∧ t.pwr.discarded = s.journal.queue.length ∧ t.journal.queue = [] ∧ t.journal.run = s.journal.run ∧ t.mem = s.mem ∧ t.ten = s.ten) ∧
  (∀ (x : Temps) (s : State), s.pwr.phase ≠ .up → Runs (.thermalRead x) s fun t => t = { s with pwr := { s.pwr with temps := some x } }) ∧
  (∀ (s : State), s.allWithin (fun l => l.1 - 50) = true → Runs (.thermalReliefExpiry) s fun t => t.rd F.clkArrdivFwReq = 0 ∧ t.pwr = s.pwr ∧ t.mem = s.mem ∧ t.ten = s.ten ∧ t.out = s.out) ∧
  (∀ (s : State), s.allWithin (fun l => l.1 - 50) = false → Runs (.thermalReliefExpiry) s fun t => t = s) ∧
  (∀ (s : State), s.allWithin (fun l => l.1 - 1) = true → Runs (.coolDownExpiry) s fun t => t = { s with pwr := { s.pwr with cooled := true } }) ∧
  (∀ (s : State), s.allWithin (fun l => l.1 - 1) = false → Runs (.coolDownExpiry) s fun t => t = s)

/-- A GO while BUSY sets MBX_STRAY; a command of an unknown opcode or on the wrong channel ends with 0908h. STATUS and MEASURE answer; EXTEND extends one of M8 to M15. STAGE, ACTIVATE, CONFIRM and ANCHOR_SET wait for their record and end once it is committed; STAGE refuses the booted slot, a bundle that fails and one below the floor. ATTEST takes an index, or is refused. GRANT sets isolation bits, REVOKE clears them, WARD_WRITE and DOMAIN_SET write their tables, each behind a marker where the spec names one. FROZEN_DIGEST records; FROZEN_RESTORE starts the copy or refuses with 060Fh. An accepted DEBUG_TOKEN is kept on a token-enabled part. A host address out of reach ends with 0605h. -/
def Obligations.KeeperMailboxActs : Prop :=
  (∀ (h : Bool) (v : Word) (s : State), s.mbxRd h F.secStatusBusy = 1 → Runs (.mbxGo h v) s fun t => t = s.setEvent F.secEventsMbxStray ∧ t.has F.secEventsMbxStray = true) ∧
  (∀ (h : Bool) (v : Word) (s : State), s.mbxRd h F.secStatusBusy = 0 → v.getLsbD 31 = true → s.keeperRuns = true → s.keeper.chans = [] → mbxKnows h (bits v.toNat 7 0) = true → Runs (.mbxGo h v) s fun t => t.keeper = { s.keeper with chans := [h], fw := t.keeper.fw } ∧ t.mbxRd h F.secStatusBusy = 1 ∧ t.mbxRd h F.secMbxCtrlOpcode = bits v.toNat 7 0 ∧ t.mbxRd h F.secMbxCtrlLength = bits v.toNat 28 16 ∧ t.mem = s.mem ∧ t.ten = s.ten ∧ t.flash = s.flash ∧ t.out = s.out) ∧
  (∀ (h : Bool) (v : Word) (s : State), s.mbxRd h F.secStatusBusy = 0 → v.getLsbD 31 = true → s.keeperRuns = true → s.keeper.chans = [] → mbxKnows h (bits v.toNat 7 0) = false → Runs (.mbxGo h v) s fun t => t.mbxRd h F.secMbxStatusCode = 0x908 ∧ t.mbxRd h F.secMbxStatusLength = ([] : List Byte).length ∧ t.mbxRd h F.secStatusBusy = 0 ∧ t.keeper.chans = [] ∧ t.keeper.busy = false ∧ t.keeper.meas = s.keeper.meas ∧ t.keeper.mirror = s.keeper.mirror ∧ t.keeper.iso = s.keeper.iso ∧ t.keeper.wards = s.keeper.wards ∧ t.keeper.domains = s.keeper.domains ∧ t.mem = s.mem ∧ t.ten = s.ten ∧ t.flash = s.flash) ∧
  (∀ (h : Bool) (s : State), s.keeper.chans = [h] → s.keeperRuns = true → s.keeper.busy = false → s.mbxRd h F.secMbxCtrlOpcode = 1 → Runs (.status) s fun t => t.mbxRd h F.secMbxStatusCode = 0 ∧ t.mbxRd h F.secMbxStatusLength = ((leBytes 2 (s.slotState s.bootedSlot).2.2 ++ leBytes 8 (s.slotState s.bootedSlot).2.1 ++ ((upto 0 4).map fun i => leBytes 1 (s.slotState i).1).flatten ++ leBytes 8 s.limit ++ leBytes 4 s.fuseFloor) : List Byte).length ∧ t.mbxRd h F.secStatusBusy = 0 ∧ t.keeper.chans = [] ∧ t.keeper.busy = false ∧ (∀ i : Nat, i < ((leBytes 2 (s.slotState s.bootedSlot).2.2 ++ leBytes 8 (s.slotState s.bootedSlot).2.1 ++ ((upto 0 4).map fun i => leBytes 1 (s.slotState i).1).flatten ++ leBytes 8 s.limit ++ leBytes 4 s.fuseFloor)).length / 4 → t.mbxGet h (.secMbxBuf i) = BitVec.ofNat 64 (fld ((leBytes 2 (s.slotState s.bootedSlot).2.2 ++ leBytes 8 (s.slotState s.bootedSlot).2.1 ++ ((upto 0 4).map fun i => leBytes 1 (s.slotState i).1).flatten ++ leBytes 8 s.limit ++ leBytes 4 s.fuseFloor)) (4 * i) 4)) ∧ t.keeper.meas = s.keeper.meas ∧ t.keeper.mirror = s.keeper.mirror ∧ t.keeper.iso = s.keeper.iso ∧ t.keeper.wards = s.keeper.wards ∧ t.keeper.domains = s.keeper.domains ∧ t.mem = s.mem ∧ t.ten = s.ten ∧ t.flash = s.flash) ∧
  (∀ (h : Bool) (s : State), s.keeper.chans = [h] → s.keeperRuns = true → s.keeper.busy = false → s.mbxRd h F.secMbxCtrlOpcode = 2 → Runs (.measure) s fun t => t.mbxRd h F.secMbxStatusCode = 0 ∧ t.mbxRd h F.secMbxStatusLength = (s.measBytes : List Byte).length ∧ t.mbxRd h F.secStatusBusy = 0 ∧ t.keeper.chans = [] ∧ t.keeper.busy = false ∧ (∀ i : Nat, i < (s.measBytes).length / 4 → t.mbxGet h (.secMbxBuf i) = BitVec.ofNat 64 (fld (s.measBytes) (4 * i) 4)) ∧ t.keeper.meas = s.keeper.meas ∧ t.keeper.mirror = s.keeper.mirror ∧ t.keeper.iso = s.keeper.iso ∧ t.keeper.wards = s.keeper.wards ∧ t.keeper.domains = s.keeper.domains ∧ t.mem = s.mem ∧ t.ten = s.ten ∧ t.flash = s.flash) ∧
  (∀ (h : Bool) (req : List Byte) (s : State), s.keeper.chans = [h] → s.keeperRuns = true → s.keeper.busy = false → s.mbxRd h F.secMbxCtrlOpcode = 3 → s.mbxRequest h = req → h = true → s.reaches (fld req 0 8) (s.keeper.cert.take (fld req 8 4)).length = true → Runs (.certGet) s fun t => t.mbxRd h F.secMbxStatusCode = 0 ∧ t.mbxRd h F.secMbxStatusLength = (leBytes 4 s.keeper.cert.length : List Byte).length ∧ t.mbxRd h F.secStatusBusy = 0 ∧ t.keeper.chans = [] ∧ t.keeper.busy = false ∧ .hostWrite (fld req 0 8) (s.keeper.cert.take (fld req 8 4)) ∈ t.out ∧ t.keeper.meas = s.keeper.meas ∧ t.keeper.mirror = s.keeper.mirror ∧ t.keeper.iso = s.keeper.iso ∧ t.keeper.wards = s.keeper.wards ∧ t.keeper.domains = s.keeper.domains ∧ t.mem = s.mem ∧ t.ten = s.ten ∧ t.flash = s.flash) ∧
  (∀ (h : Bool) (req : List Byte) (s : State), s.keeper.chans = [h] → s.keeperRuns = true → s.keeper.busy = false → s.mbxRd h F.secMbxCtrlOpcode = 3 → s.mbxRequest h = req → h = true → s.reaches (fld req 0 8) (s.keeper.cert.take (fld req 8 4)).length = false → Runs (.certGet) s fun t => t.mbxRd h F.secMbxStatusCode = 0x605 ∧ t.mbxRd h F.secMbxStatusLength = ([] : List Byte).length ∧ t.mbxRd h F.secStatusBusy = 0 ∧ t.keeper.chans = [] ∧ t.keeper.busy = false ∧ t.has F.hifEventsHostAccess = true ∧ t.keeper.meas = s.keeper.meas ∧ t.keeper.mirror = s.keeper.mirror ∧ t.keeper.iso = s.keeper.iso ∧ t.keeper.wards = s.keeper.wards ∧ t.keeper.domains = s.keeper.domains ∧ t.mem = s.mem ∧ t.ten = s.ten ∧ t.flash = s.flash) ∧
  (∀ (sig : List Byte) (h : Bool) (req : List Byte) (s : State), s.keeper.chans = [h] → s.keeperRuns = true → s.keeper.busy = false → s.mbxRd h F.secMbxCtrlOpcode = 4 → s.mbxRequest h = req → fld req 0 1 < 16 ∨ fld req 0 1 = 255 → s.signRefusal = 0 → s.keeper.next < s.limit → s.keeper.sigs = [] → s.keeper.reserving = none → h = true → s.reaches (fld req 33 8) ((s.report (fld req 0 1) ((req.drop 1).take 32)).length + sig.length) = true → Runs (.attest sig) s fun t => t.mbxRd h F.secMbxStatusCode = 0 ∧ t.mbxRd h F.secMbxStatusLength = ([] : List Byte).length ∧ t.mbxRd h F.secStatusBusy = 0 ∧ t.keeper.chans = [] ∧ t.keeper.busy = false ∧ t.keeper.next = s.keeper.next + 1 ∧ .hostWrite (fld req 33 8) (s.report (fld req 0 1) ((req.drop 1).take 32) ++ sig) ∈ t.out ∧ t.keeper.meas = s.keeper.meas ∧ t.keeper.mirror = s.keeper.mirror ∧ t.keeper.iso = s.keeper.iso ∧ t.keeper.wards = s.keeper.wards ∧ t.keeper.domains = s.keeper.domains ∧ t.mem = s.mem ∧ t.ten = s.ten ∧ t.flash = s.flash) ∧
  (∀ (sig : List Byte) (h : Bool) (req : List Byte) (s : State), s.keeper.chans = [h] → s.keeperRuns = true → s.keeper.busy = false → s.mbxRd h F.secMbxCtrlOpcode = 4 → s.mbxRequest h = req → fld req 0 1 < 16 ∨ fld req 0 1 = 255 → s.signRefusal = 0 → s.keeper.next = s.limit → s.keeper.sigs = [] → s.keeper.reserving = none → s.has F.durStatusReady = false → s.reaches (fld req 33 8) ((s.report (fld req 0 1) ((req.drop 1).take 32)).length + sig.length) = true → Runs (.attest sig) s fun t => t.keeper.next = s.keeper.next + 1 ∧ t.keeper.reserving = some (s.limit + 256) ∧ t.keeper.sigs.length = 1 ∧ t.out = s.out ∧ t.keeper.chans = [h] ∧ t.limit = s.limit ∧ t.mem = s.mem ∧ t.ten = s.ten ∧ t.flash = s.flash) ∧
  (∀ (sig : List Byte) (h : Bool) (req : List Byte) (s : State), s.keeper.chans = [h] → s.keeperRuns = true → s.keeper.busy = false → s.mbxRd h F.secMbxCtrlOpcode = 4 → s.mbxRequest h = req → fld req 0 1 < 16 ∨ fld req 0 1 = 255 → s.signRefusal ≠ 0 → Runs (.attest sig) s fun t => t.mbxRd h F.secMbxStatusCode = s.signRefusal ∧ t.mbxRd h F.secMbxStatusLength = ([] : List Byte).length ∧ t.mbxRd h F.secStatusBusy = 0 ∧ t.keeper.chans = [] ∧ t.keeper.busy = false ∧ t.keeper.next = s.keeper.next ∧ t.keeper.meas = s.keeper.meas ∧ t.keeper.mirror = s.keeper.mirror ∧ t.keeper.iso = s.keeper.iso ∧ t.keeper.wards = s.keeper.wards ∧ t.keeper.domains = s.keeper.domains ∧ t.mem = s.mem ∧ t.ten = s.ten ∧ t.flash = s.flash) ∧
  (∀ (sig : List Byte) (h : Bool) (req : List Byte) (s : State), s.keeper.chans = [h] → s.keeperRuns = true → s.keeper.busy = false → s.mbxRd h F.secMbxCtrlOpcode = 4 → s.mbxRequest h = req → fld req 0 1 < 16 ∨ fld req 0 1 = 255 → s.signRefusal = 0 → s.canTake = true → s.reaches (fld req 33 8) ((s.report (fld req 0 1) ((req.drop 1).take 32)).length + sig.length) = false → Runs (.attest sig) s fun t => t.mbxRd h F.secMbxStatusCode = 0x605 ∧ t.mbxRd h F.secMbxStatusLength = ([] : List Byte).length ∧ t.mbxRd h F.secStatusBusy = 0 ∧ t.keeper.chans = [] ∧ t.keeper.busy = false ∧ t.keeper.next = s.keeper.next ∧ t.has F.hifEventsHostAccess = true ∧ t.keeper.meas = s.keeper.meas ∧ t.keeper.mirror = s.keeper.mirror ∧ t.keeper.iso = s.keeper.iso ∧ t.keeper.wards = s.keeper.wards ∧ t.keeper.domains = s.keeper.domains ∧ t.mem = s.mem ∧ t.ten = s.ten ∧ t.flash = s.flash) ∧
  (∀ (h : Bool) (req : List Byte) (s : State), s.keeper.chans = [h] → s.keeperRuns = true → s.keeper.busy = false → s.mbxRd h F.secMbxCtrlOpcode = 5 → s.mbxRequest h = req → 8 ≤ fld req 0 1 ∧ fld req 0 1 < 16 → Runs (.extend) s fun t => t.mbxRd h F.secMbxStatusCode = 0 ∧ t.mbxRd h F.secMbxStatusLength = ([] : List Byte).length ∧ t.mbxRd h F.secStatusBusy = 0 ∧ t.keeper.chans = [] ∧ t.keeper.busy = false ∧ t.keeper.meas = modAt s.keeper.meas (fld req 0 1) (fun m => digest256 (leBytes 32 m.toNat ++ (req.drop 1).take 32)) ∧ t.mem = s.mem ∧ t.ten = s.ten ∧ t.flash = s.flash) ∧
  (∀ (h : Bool) (req : List Byte) (s : State), s.keeper.chans = [h] → s.keeperRuns = true → s.keeper.busy = false → s.mbxRd h F.secMbxCtrlOpcode = 5 → s.mbxRequest h = req → ¬(8 ≤ fld req 0 1 ∧ fld req 0 1 < 16) → Runs (.extend) s fun t => t.mbxRd h F.secMbxStatusCode = 0x908 ∧ t.mbxRd h F.secMbxStatusLength = ([] : List Byte).length ∧ t.mbxRd h F.secStatusBusy = 0 ∧ t.keeper.chans = [] ∧ t.keeper.busy = false ∧ t.keeper.meas = s.keeper.meas ∧ t.keeper.mirror = s.keeper.mirror ∧ t.keeper.iso = s.keeper.iso ∧ t.keeper.wards = s.keeper.wards ∧ t.keeper.domains = s.keeper.domains ∧ t.mem = s.mem ∧ t.ten = s.ten ∧ t.flash = s.flash) ∧
  (∀ (m : List Byte) (h : Bool) (req : List Byte) (s : State), s.keeper.chans = [h] → s.keeperRuns = true → s.keeper.busy = false → s.mbxRd h F.secMbxCtrlOpcode = 0x10 → s.mbxRequest h = req → fld req 0 1 < 4 ∧ fld req 9 4 ≤ 2 ^ 28 ∧ fld req 0 1 ≠ s.bootedSlot ∧ s.otherGood ≠ [fld req 0 1] → s.reaches (fld req 1 8) (fld req 9 4) = true → s.manifestOk m = true → s.floor ≤ fld m 6 2 → Runs (.stage m true false) s fun t => t.keeper.busy = true ∧ t.keeper.chans = [h] ∧ t.keeper.waits = s.keeper.waits ++ [⟨0x103, (fld req 0 1), .finish 0 []⟩] ∧ ((∃ q ∈ t.journal.queue, q.item = keeperRecord 0x103 (fld req 0 1) (slotPayload slotStaged (fld m 8 8) (fld m 6 2))) ∨ ∃ x ∈ t.journal.run, x.item = keeperRecord 0x103 (fld req 0 1) (slotPayload slotStaged (fld m 8 8) (fld m 6 2))) ∧ KMap.find t.flash.images (fld req 0 1) = some m ∧ t.mem = s.mem ∧ t.ten = s.ten) ∧
  (∀ (m : List Byte) (vf cut : Bool) (h : Bool) (req : List Byte) (s : State), s.keeper.chans = [h] → s.keeperRuns = true → s.keeper.busy = false → s.mbxRd h F.secMbxCtrlOpcode = 0x10 → s.mbxRequest h = req → (4 ≤ fld req 0 1 ∨ 2 ^ 28 < fld req 9 4 ∨ fld req 0 1 = s.bootedSlot ∨ s.otherGood = [fld req 0 1]) → Runs (.stage m vf cut) s fun t => t.mbxRd h F.secMbxStatusCode = 0x908 ∧ t.mbxRd h F.secMbxStatusLength = ([] : List Byte).length ∧ t.mbxRd h F.secStatusBusy = 0 ∧ t.keeper.chans = [] ∧ t.keeper.busy = false ∧ t.keeper.meas = s.keeper.meas ∧ t.keeper.mirror = s.keeper.mirror ∧ t.keeper.iso = s.keeper.iso ∧ t.keeper.wards = s.keeper.wards ∧ t.keeper.domains = s.keeper.domains ∧ t.mem = s.mem ∧ t.ten = s.ten ∧ t.flash = s.flash) ∧
  (∀ (m : List Byte) (vf cut : Bool) (h : Bool) (req : List Byte) (s : State), s.keeper.chans = [h] → s.keeperRuns = true → s.keeper.busy = false → s.mbxRd h F.secMbxCtrlOpcode = 0x10 → s.mbxRequest h = req → fld req 0 1 < 4 ∧ fld req 9 4 ≤ 2 ^ 28 ∧ fld req 0 1 ≠ s.bootedSlot ∧ s.otherGood ≠ [fld req 0 1] → s.reaches (fld req 1 8) (fld req 9 4) = true → (cut = true ∨ vf = false ∨ s.manifestOk m = false) → Runs (.stage m vf cut) s fun t => t.keeper.busy = true ∧ t.keeper.chans = [h] ∧ t.keeper.waits = s.keeper.waits ++ [⟨0x103, (fld req 0 1), .finish 0x901 []⟩] ∧ ((∃ q ∈ t.journal.queue, q.item = keeperRecord 0x103 (fld req 0 1) (slotPayload slotEmpty 0 0)) ∨ ∃ x ∈ t.journal.run, x.item = keeperRecord 0x103 (fld req 0 1) (slotPayload slotEmpty 0 0)) ∧ t.flash.images = s.flash.images) ∧
  (∀ (m : List Byte) (h : Bool) (req : List Byte) (s : State), s.keeper.chans = [h] → s.keeperRuns = true → s.keeper.busy = false → s.mbxRd h F.secMbxCtrlOpcode = 0x10 → s.mbxRequest h = req → fld req 0 1 < 4 ∧ fld req 9 4 ≤ 2 ^ 28 ∧ fld req 0 1 ≠ s.bootedSlot ∧ s.otherGood ≠ [fld req 0 1] → s.reaches (fld req 1 8) (fld req 9 4) = true → s.manifestOk m = true → fld m 6 2 < s.floor → Runs (.stage m true false) s fun t => t.keeper.busy = true ∧ t.keeper.chans = [h] ∧ t.keeper.waits = s.keeper.waits ++ [⟨0x103, (fld req 0 1), .finish 0x902 []⟩] ∧ ((∃ q ∈ t.journal.queue, q.item = keeperRecord 0x103 (fld req 0 1) (slotPayload slotEmpty 0 0)) ∨ ∃ x ∈ t.journal.run, x.item = keeperRecord 0x103 (fld req 0 1) (slotPayload slotEmpty 0 0)) ∧ t.flash.images = s.flash.images) ∧
  (∀ (m : List Byte) (vf cut : Bool) (h : Bool) (req : List Byte) (s : State), s.keeper.chans = [h] → s.keeperRuns = true → s.keeper.busy = false → s.mbxRd h F.secMbxCtrlOpcode = 0x10 → s.mbxRequest h = req → fld req 0 1 < 4 ∧ fld req 9 4 ≤ 2 ^ 28 ∧ fld req 0 1 ≠ s.bootedSlot ∧ s.otherGood ≠ [fld req 0 1] → s.reaches (fld req 1 8) (fld req 9 4) = false → Runs (.stage m vf cut) s fun t => t.mbxRd h F.secMbxStatusCode = 0x605 ∧ t.mbxRd h F.secMbxStatusLength = ([] : List Byte).length ∧ t.mbxRd h F.secStatusBusy = 0 ∧ t.keeper.chans = [] ∧ t.keeper.busy = false ∧ t.has F.hifEventsHostAccess = true ∧ t.keeper.meas = s.keeper.meas ∧ t.keeper.mirror = s.keeper.mirror ∧ t.keeper.iso = s.keeper.iso ∧ t.keeper.wards = s.keeper.wards ∧ t.keeper.domains = s.keeper.domains ∧ t.mem = s.mem ∧ t.ten = s.ten ∧ t.flash = s.flash) ∧
  (∀ (j : Nat) (x : JRun) (h : Bool) (code : Nat) (resp : List Byte) (s : State), s.journal.run = [x] → x.jseq = j → x.copyA = true → x.item.byKeeper = true → s.journal.queue = [] → s.keeper.waits = [⟨x.item.kind.toNat, x.item.key.toNat, .finish code resp⟩] → s.keeper.chans = [h] → s.keeperRuns = true → code < 2 ^ 16 → resp.length < 2 ^ 13 → Runs (.journalRecordCommitted j) s fun t => t.mbxRd h F.secMbxStatusCode = code ∧ t.mbxRd h F.secMbxStatusLength = (resp : List Byte).length ∧ t.mbxRd h F.secStatusBusy = 0 ∧ t.keeper.chans = [] ∧ t.keeper.busy = false ∧ t.keeperValue x.item.kind.toNat x.item.key.toNat = some x.item.payload ∧ t.keeper.waits = [] ∧ t.mem = s.mem ∧ t.ten = s.ten) ∧
  (∀ (h : Bool) (req : List Byte) (s : State), s.keeper.chans = [h] → s.keeperRuns = true → s.keeper.busy = false → s.mbxRd h F.secMbxCtrlOpcode = 0x11 → s.mbxRequest h = req → fld req 0 1 < 4 → (s.slotState (fld req 0 1)).1 = slotStaged → Runs (.activate) s fun t => t.keeper.busy = true ∧ t.keeper.chans = [h] ∧ t.keeper.waits = s.keeper.waits ++ [⟨0x103, (fld req 0 1), .finish 0 []⟩] ∧ ((∃ q ∈ t.journal.queue, q.item = keeperRecord 0x103 (fld req 0 1) (slotPayload slotTrial (s.slotState (fld req 0 1)).2.1 (s.slotState (fld req 0 1)).2.2)) ∨ ∃ x ∈ t.journal.run, x.item = keeperRecord 0x103 (fld req 0 1) (slotPayload slotTrial (s.slotState (fld req 0 1)).2.1 (s.slotState (fld req 0 1)).2.2)) ∧ t.flash.images = s.flash.images) ∧
  (∀ (h : Bool) (req : List Byte) (s : State), s.keeper.chans = [h] → s.keeperRuns = true → s.keeper.busy = false → s.mbxRd h F.secMbxCtrlOpcode = 0x11 → s.mbxRequest h = req → (4 ≤ fld req 0 1 ∨ (s.slotState (fld req 0 1)).1 ≠ slotStaged) → Runs (.activate) s fun t => t.mbxRd h F.secMbxStatusCode = 0x908 ∧ t.mbxRd h F.secMbxStatusLength = ([] : List Byte).length ∧ t.mbxRd h F.secStatusBusy = 0 ∧ t.keeper.chans = [] ∧ t.keeper.busy = false ∧ t.keeper.meas = s.keeper.meas ∧ t.keeper.mirror = s.keeper.mirror ∧ t.keeper.iso = s.keeper.iso ∧ t.keeper.wards = s.keeper.wards ∧ t.keeper.domains = s.keeper.domains ∧ t.mem = s.mem ∧ t.ten = s.ten ∧ t.flash = s.flash) ∧
  (∀ (h : Bool) (s : State), s.keeper.chans = [h] → s.keeperRuns = true → s.keeper.busy = false → s.mbxRd h F.secMbxCtrlOpcode = 0x12 → s.has F.secBootStatusTrial = true → Runs (.confirm) s fun t => t.keeper.busy = true ∧ t.keeper.chans = [h] ∧ t.keeper.waits = s.keeper.waits ++ [⟨0x103, s.bootedSlot, .confirmFloor (s.slotState s.bootedSlot).2.2 (bit (fld (KMap.get s.flash.images s.bootedSlot []) 0x10 1) 0)⟩] ∧ ((∃ q ∈ t.journal.queue, q.item = keeperRecord 0x103 s.bootedSlot (slotPayload slotGood (s.slotState s.bootedSlot).2.1 (s.slotState s.bootedSlot).2.2)) ∨ ∃ x ∈ t.journal.run, x.item = keeperRecord 0x103 s.bootedSlot (slotPayload slotGood (s.slotState s.bootedSlot).2.1 (s.slotState s.bootedSlot).2.2)) ∧ t.keeper.fuses = s.keeper.fuses) ∧
  (∀ (h : Bool) (s : State), s.keeper.chans = [h] → s.keeperRuns = true → s.keeper.busy = false → s.mbxRd h F.secMbxCtrlOpcode = 0x12 → s.has F.secBootStatusTrial = false → Runs (.confirm) s fun t => t.mbxRd h F.secMbxStatusCode = 0 ∧ t.mbxRd h F.secMbxStatusLength = ([] : List Byte).length ∧ t.mbxRd h F.secStatusBusy = 0 ∧ t.keeper.chans = [] ∧ t.keeper.busy = false ∧ t.keeper.fuses = s.keeper.fuses ∧ t.keeper.meas = s.keeper.meas ∧ t.keeper.mirror = s.keeper.mirror ∧ t.keeper.iso = s.keeper.iso ∧ t.keeper.wards = s.keeper.wards ∧ t.keeper.domains = s.keeper.domains ∧ t.mem = s.mem ∧ t.ten = s.ten ∧ t.flash = s.flash) ∧
  (∀ (h : Bool) (req : List Byte) (s : State), s.keeper.chans = [h] → s.keeperRuns = true → s.keeper.busy = false → s.mbxRd h F.secMbxCtrlOpcode = 0x13 → s.mbxRequest h = req → Runs (.anchorSet) s fun t => t.keeper.busy = true ∧ t.keeper.chans = [h] ∧ t.keeper.waits = s.keeper.waits ++ [⟨0x104, 0, .anchor (req.take 32 ++ zeros (32 - req.length))⟩] ∧ ((∃ q ∈ t.journal.queue, q.item = keeperRecord 0x104 0 (req.take 32 ++ zeros (32 - req.length))) ∨ ∃ x ∈ t.journal.run, x.item = keeperRecord 0x104 0 (req.take 32 ++ zeros (32 - req.length)))) ∧
  (∀ (k : List Byte) (h : Bool) (req : List Byte) (s : State), s.keeper.chans = [h] → s.keeperRuns = true → s.keeper.busy = false → s.mbxRd h F.secMbxCtrlOpcode = 0x14 → s.mbxRequest h = req → s.reaches (fld req 0 8) k.length = true → s.keeper.fuses.debug = 1 → s.keeper.forced = false → Runs (.debugToken true k) s fun t => t.mbxRd h F.secMbxStatusCode = 0 ∧ t.mbxRd h F.secMbxStatusLength = ([] : List Byte).length ∧ t.mbxRd h F.secStatusBusy = 0 ∧ t.keeper.chans = [] ∧ t.keeper.busy = false ∧ t.keeper.token = some (leBytes 32 (digest256 k).toNat) ∧ t.has F.secStatusDebug = s.has F.secStatusDebug ∧ t.keeper.meas = s.keeper.meas ∧ t.keeper.mirror = s.keeper.mirror ∧ t.keeper.iso = s.keeper.iso ∧ t.keeper.wards = s.keeper.wards ∧ t.keeper.domains = s.keeper.domains ∧ t.mem = s.mem ∧ t.ten = s.ten ∧ t.flash = s.flash) ∧
  (∀ (acc : Bool) (k : List Byte) (h : Bool) (req : List Byte) (s : State), s.keeper.chans = [h] → s.keeperRuns = true → s.keeper.busy = false → s.mbxRd h F.secMbxCtrlOpcode = 0x14 → s.mbxRequest h = req → s.reaches (fld req 0 8) k.length = true → (acc = false ∨ s.debugFuse ≠ 1) → Runs (.debugToken acc k) s fun t => t.mbxRd h F.secMbxStatusCode = 0x908 ∧ t.mbxRd h F.secMbxStatusLength = ([] : List Byte).length ∧ t.mbxRd h F.secStatusBusy = 0 ∧ t.keeper.chans = [] ∧ t.keeper.busy = false ∧ t.keeper.token = s.keeper.token ∧ t.keeper.meas = s.keeper.meas ∧ t.keeper.mirror = s.keeper.mirror ∧ t.keeper.iso = s.keeper.iso ∧ t.keeper.wards = s.keeper.wards ∧ t.keeper.domains = s.keeper.domains ∧ t.mem = s.mem ∧ t.ten = s.ten ∧ t.flash = s.flash) ∧
  (∀ (acc : Bool) (k : List Byte) (h : Bool) (req : List Byte) (s : State), s.keeper.chans = [h] → s.keeperRuns = true → s.keeper.busy = false → s.mbxRd h F.secMbxCtrlOpcode = 0x14 → s.mbxRequest h = req → s.reaches (fld req 0 8) k.length = false → Runs (.debugToken acc k) s fun t => t.mbxRd h F.secMbxStatusCode = 0x605 ∧ t.mbxRd h F.secMbxStatusLength = ([] : List Byte).length ∧ t.mbxRd h F.secStatusBusy = 0 ∧ t.keeper.chans = [] ∧ t.keeper.busy = false ∧ t.keeper.token = s.keeper.token ∧ t.has F.hifEventsHostAccess = true ∧ t.keeper.meas = s.keeper.meas ∧ t.keeper.mirror = s.keeper.mirror ∧ t.keeper.iso = s.keeper.iso ∧ t.keeper.wards = s.keeper.wards ∧ t.keeper.domains = s.keeper.domains ∧ t.mem = s.mem ∧ t.ten = s.ten ∧ t.flash = s.flash) ∧
  (∀ (h : Bool) (req : List Byte) (s : State), s.keeper.chans = [h] → s.keeperRuns = true → s.keeper.busy = false → s.mbxRd h F.secMbxCtrlOpcode = 0x20 → s.mbxRequest h = req → fld req 0 1 < 16 → fld req 9 1 ≤ 1 → fld req 1 4 + fld req 5 4 ≤ frameEnd → 0xA ≤ s.rd F.secBootStatusStage → (∀ g ∈ upto (fld req 1 4) (fld req 5 4), s.grantOk g (fld req 0 1) (fld req 9 1 == 1) = true ∧ (g < s.frameCount ∨ 196608 ≤ g)) → Runs (.grant) s fun t => t.mbxRd h F.secMbxStatusCode = 0 ∧ t.mbxRd h F.secMbxStatusLength = ([] : List Byte).length ∧ t.mbxRd h F.secStatusBusy = 0 ∧ t.keeper.chans = [] ∧ t.keeper.busy = false ∧ (∀ g ∈ upto (fld req 1 4) (fld req 5 4), bit (t.isoEntry g) (fld req 0 1) = true ∧ (fld req 9 1 = 1 → bit (t.isoEntry g) (16 + fld req 0 1) = true)) ∧ (∀ g : Nat, g ∉ upto (fld req 1 4) (fld req 5 4) → t.isoEntry g = s.isoEntry g) ∧ t.ten = s.ten ∧ t.mem.scratch = s.mem.scratch ∧ (∀ a : Nat, a / 4 ∉ upto (fld req 1 4) (fld req 5 4) → KMap.get t.mem.hbm a 0 = KMap.get s.mem.hbm a 0)) ∧
  (∀ (h : Bool) (req : List Byte) (s : State), s.keeper.chans = [h] → s.keeperRuns = true → s.keeper.busy = false → s.mbxRd h F.secMbxCtrlOpcode = 0x20 → s.mbxRequest h = req → (16 ≤ fld req 0 1 ∨ 1 < fld req 9 1 ∨ frameEnd < fld req 1 4 + fld req 5 4 ∨ s.rd F.secBootStatusStage < 0xA ∨ ∃ g ∈ upto (fld req 1 4) (fld req 5 4), s.grantOk g (fld req 0 1) (fld req 9 1 == 1) = false ∨ (s.frameCount ≤ g ∧ g < 196608)) → Runs (.grant) s fun t => t.mbxRd h F.secMbxStatusCode = 0x60F ∧ t.mbxRd h F.secMbxStatusLength = ([] : List Byte).length ∧ t.mbxRd h F.secStatusBusy = 0 ∧ t.keeper.chans = [] ∧ t.keeper.busy = false ∧ t.keeper.meas = s.keeper.meas ∧ t.keeper.mirror = s.keeper.mirror ∧ t.keeper.iso = s.keeper.iso ∧ t.keeper.wards = s.keeper.wards ∧ t.keeper.domains = s.keeper.domains ∧ t.mem = s.mem ∧ t.ten = s.ten ∧ t.flash = s.flash) ∧
  (∀ (h : Bool) (req : List Byte) (s : State), s.keeper.chans = [h] → s.keeperRuns = true → s.keeper.busy = false → s.mbxRd h F.secMbxCtrlOpcode = 0x21 → s.mbxRequest h = req → fld req 0 1 < 16 → fld req 5 4 ≠ 0 → Runs (.revoke) s fun t => t.mbxRd h F.secMbxStatusCode = 0 ∧ t.mbxRd h F.secMbxStatusLength = ([] : List Byte).length ∧ t.mbxRd h F.secStatusBusy = 0 ∧ t.keeper.chans = [] ∧ t.keeper.busy = false ∧ (∀ g ∈ upto (fld req 1 4) (fld req 5 4), bit (t.isoEntry g) (fld req 0 1) = false ∧ bit (t.isoEntry g) (16 + fld req 0 1) = false) ∧ (∀ g : Nat, g ∉ upto (fld req 1 4) (fld req 5 4) → t.isoEntry g = s.isoEntry g) ∧ (∀ u ∈ State.translators, .isolation (fld req 1 4) (fld req 5 4) ∈ t.inbox u) ∧ t.ten = s.ten ∧ t.mem.scratch = s.mem.scratch ∧ (∀ a : Nat, KMap.find s.keeper.iso (a / 4) = none → KMap.get t.mem.hbm a 0 = KMap.get s.mem.hbm a 0)) ∧
  (∀ (h : Bool) (req : List Byte) (s : State), s.keeper.chans = [h] → s.keeperRuns = true → s.keeper.busy = false → s.mbxRd h F.secMbxCtrlOpcode = 0x22 → s.mbxRequest h = req → fld req 0 1 < 16 → wardImageOk (s.read (fld req 1 8) 2112) = true → Runs (.wardWrite) s fun t => t.mbxRd h F.secMbxStatusCode = 0 ∧ t.mbxRd h F.secMbxStatusLength = ([] : List Byte).length ∧ t.mbxRd h F.secStatusBusy = 0 ∧ t.keeper.chans = [] ∧ t.keeper.busy = false ∧ KMap.find t.keeper.wards (fld req 0 1) = some (s.read (fld req 1 8) 2112) ∧ (∀ u ∈ State.translators, .isolation 0 0 ∈ t.inbox u) ∧ t.ten = s.ten ∧ t.mem.hbm = s.mem.hbm ∧ t.mem.scratch = s.mem.scratch) ∧
  (∀ (h : Bool) (req : List Byte) (s : State), s.keeper.chans = [h] → s.keeperRuns = true → s.keeper.busy = false → s.mbxRd h F.secMbxCtrlOpcode = 0x22 → s.mbxRequest h = req → fld req 0 1 < 16 → wardImageOk (s.read (fld req 1 8) 2112) = false → Runs (.wardWrite) s fun t => t.mbxRd h F.secMbxStatusCode = 0x60F ∧ t.mbxRd h F.secMbxStatusLength = ([] : List Byte).length ∧ t.mbxRd h F.secStatusBusy = 0 ∧ t.keeper.chans = [] ∧ t.keeper.busy = false ∧ t.keeper.meas = s.keeper.meas ∧ t.keeper.mirror = s.keeper.mirror ∧ t.keeper.iso = s.keeper.iso ∧ t.keeper.wards = s.keeper.wards ∧ t.keeper.domains = s.keeper.domains ∧ t.mem = s.mem ∧ t.ten = s.ten ∧ t.flash = s.flash) ∧
  (∀ (h : Bool) (req : List Byte) (s : State), s.keeper.chans = [h] → s.keeperRuns = true → s.keeper.busy = false → s.mbxRd h F.secMbxCtrlOpcode = 0x23 → s.mbxRequest h = req → fld req 0 1 < 16 → fld req 1 2 ≠ 0 → s.domainTaken (fld req 0 1) (fld req 1 2) = false → Runs (.domainSet) s fun t => t.mbxRd h F.secMbxStatusCode = 0 ∧ t.mbxRd h F.secMbxStatusLength = ([] : List Byte).length ∧ t.mbxRd h F.secStatusBusy = 0 ∧ t.keeper.chans = [] ∧ t.keeper.busy = false ∧ KMap.find t.keeper.domains (fld req 0 1) = some (fld req 1 2) ∧ t.rd (F.tenStateDomain (fld req 0 1)) = fld req 1 2 ∧ (∀ u ∈ State.translators, .isolation 0 0 ∈ t.inbox u) ∧ t.ten = s.ten ∧ t.mem.hbm = s.mem.hbm ∧ t.mem.scratch = s.mem.scratch) ∧
  (∀ (h : Bool) (req : List Byte) (s : State), s.keeper.chans = [h] → s.keeperRuns = true → s.keeper.busy = false → s.mbxRd h F.secMbxCtrlOpcode = 0x23 → s.mbxRequest h = req → fld req 0 1 < 16 → fld req 1 2 ≠ 0 → s.domainTaken (fld req 0 1) (fld req 1 2) = true → Runs (.domainSet) s fun t => t.mbxRd h F.secMbxStatusCode = 0x60E ∧ t.mbxRd h F.secMbxStatusLength = ([] : List Byte).length ∧ t.mbxRd h F.secStatusBusy = 0 ∧ t.keeper.chans = [] ∧ t.keeper.busy = false ∧ t.keeper.meas = s.keeper.meas ∧ t.keeper.mirror = s.keeper.mirror ∧ t.keeper.iso = s.keeper.iso ∧ t.keeper.wards = s.keeper.wards ∧ t.keeper.domains = s.keeper.domains ∧ t.mem = s.mem ∧ t.ten = s.ten ∧ t.flash = s.flash) ∧
  (∀ (h : Bool) (req : List Byte) (s : State), s.keeper.chans = [h] → s.keeperRuns = true → s.keeper.busy = false → s.mbxRd h F.secMbxCtrlOpcode = 0x24 → s.mbxRequest h = req → fld req 0 4 < frameEnd → Runs (.frozenDigest) s fun t => t.mbxRd h F.secMbxStatusCode = 0 ∧ t.mbxRd h F.secMbxStatusLength = ([] : List Byte).length ∧ t.mbxRd h F.secStatusBusy = 0 ∧ t.keeper.chans = [] ∧ t.keeper.busy = false ∧ KMap.find t.keeper.digests (fld req 0 4) = some (fld req 4 4, digest256 (s.read (frameAddr (fld req 0 4)) (2 ^ 21))) ∧ (∀ g : Nat, g ≠ fld req 0 4 → KMap.find t.keeper.digests g = KMap.find s.keeper.digests g) ∧ t.keeper.meas = s.keeper.meas ∧ t.keeper.mirror = s.keeper.mirror ∧ t.keeper.iso = s.keeper.iso ∧ t.keeper.wards = s.keeper.wards ∧ t.keeper.domains = s.keeper.domains ∧ t.mem = s.mem ∧ t.ten = s.ten ∧ t.flash = s.flash) ∧
  (∀ (h : Bool) (req : List Byte) (s : State), s.keeper.chans = [h] → s.keeperRuns = true → s.keeper.busy = false → s.mbxRd h F.secMbxCtrlOpcode = 0x24 → s.mbxRequest h = req → frameEnd ≤ fld req 0 4 → Runs (.frozenDigest) s fun t => t.mbxRd h F.secMbxStatusCode = 0x908 ∧ t.mbxRd h F.secMbxStatusLength = ([] : List Byte).length ∧ t.mbxRd h F.secStatusBusy = 0 ∧ t.keeper.chans = [] ∧ t.keeper.busy = false ∧ t.keeper.digests = s.keeper.digests ∧ t.keeper.meas = s.keeper.meas ∧ t.keeper.mirror = s.keeper.mirror ∧ t.keeper.iso = s.keeper.iso ∧ t.keeper.wards = s.keeper.wards ∧ t.keeper.domains = s.keeper.domains ∧ t.mem = s.mem ∧ t.ten = s.ten ∧ t.flash = s.flash) ∧
  (∀ (h : Bool) (req : List Byte) (g : Recovery) (s : State), s.keeper.chans = [h] → s.keeperRuns = true → s.keeper.busy = false → s.mbxRd h F.secMbxCtrlOpcode = 0x25 → s.mbxRequest h = req → s.mem.recoveries = [g] → g.frame = fld req 4 4 → g.staging = fld req 0 4 → g.stage = 1 → s.digestHolds (fld req 0 4) (fld req 4 4) = true → Runs (.frozenRestore) s fun t => t.mbxRd h F.secMbxStatusCode = 0 ∧ t.mbxRd h F.secMbxStatusLength = ([] : List Byte).length ∧ t.mbxRd h F.secStatusBusy = 0 ∧ t.keeper.chans = [] ∧ t.keeper.busy = false ∧ t.mem.recoveries = [{ g with stage := 2 }] ∧ t.keeper.meas = s.keeper.meas ∧ t.keeper.mirror = s.keeper.mirror ∧ t.keeper.iso = s.keeper.iso ∧ t.keeper.wards = s.keeper.wards ∧ t.keeper.domains = s.keeper.domains) ∧
  (∀ (h : Bool) (req : List Byte) (g : Recovery) (s : State), s.keeper.chans = [h] → s.keeperRuns = true → s.keeper.busy = false → s.mbxRd h F.secMbxCtrlOpcode = 0x25 → s.mbxRequest h = req → s.mem.recoveries = [g] → g.frame = fld req 4 4 → g.staging = fld req 0 4 → g.stage = 1 → s.digestHolds (fld req 0 4) (fld req 4 4) = false → Runs (.frozenRestore) s fun t => t.mbxRd h F.secMbxStatusCode = 0x60F ∧ t.mbxRd h F.secMbxStatusLength = ([] : List Byte).length ∧ t.mbxRd h F.secStatusBusy = 0 ∧ t.keeper.chans = [] ∧ t.keeper.busy = false ∧ t.mem.recoveries = [{ g with stage := 0, tried := g.tried + 1 }] ∧ t.keeper.meas = s.keeper.meas ∧ t.keeper.mirror = s.keeper.mirror ∧ t.keeper.iso = s.keeper.iso ∧ t.keeper.wards = s.keeper.wards ∧ t.keeper.domains = s.keeper.domains)

/-- Each stage that ends well leads to the next, once what it waits for has happened; a failure of stages 1, 2, 3, 5 and 9 halts with its ERROR. A failure of stage 4 goes on with debug forced shut and the entropy source failed. Stage 6 takes a TRIAL slot, else the GOOD one of highest VERSION; a slot that fails becomes BAD, and with none left boot halts with ERROR 3. Stages 7, 8 and 10 extend the measurements. The last stage sets READY and DONE. A failed entropy test sets ENTROPY_FAIL with 090Ah; an expired trial marks the slot BAD with 0903h and resets the device; the watchdog resets it. -/
def Obligations.BootAndKeeperFailures : Prop :=
  (∀ (s : State), s.clk.rails = true → s.has F.secBootStatusHalted = false → s.has F.secBootStatusDone = false → s.rd F.secBootStatusStage = 1 → Runs (.bootStage .ok) s fun t => t.rd F.secBootStatusStage = 2 ∧ (∀ x : Reg, x ≠ .secBootStatus → t.reg x = s.reg x) ∧ t.keeper = s.keeper ∧ t.mem = s.mem ∧ t.ten = s.ten ∧ t.out = s.out) ∧
  (∀ (s : State), s.clk.rails = true → s.has F.secBootStatusHalted = false → s.has F.secBootStatusDone = false → s.rd F.secBootStatusStage = 2 → Runs (.bootStage .ok) s fun t => t.rd F.secBootStatusStage = 3 ∧ (∀ x : Reg, x ≠ .secBootStatus → t.reg x = s.reg x) ∧ t.keeper = s.keeper ∧ t.mem = s.mem ∧ t.ten = s.ten ∧ t.out = s.out) ∧
  (∀ (s : State), s.clk.rails = true → s.has F.secBootStatusHalted = false → s.has F.secBootStatusDone = false → s.rd F.secBootStatusStage = 3 → s.has F.clkStatusPllLock = true → Runs (.bootStage .ok) s fun t => t.rd F.secBootStatusStage = 4 ∧ (∀ x : Reg, x ≠ .secBootStatus → t.reg x = s.reg x) ∧ t.keeper = s.keeper ∧ t.mem = s.mem ∧ t.ten = s.ten ∧ t.out = s.out) ∧
  (∀ (s : State), s.clk.rails = true → s.has F.secBootStatusHalted = false → s.has F.secBootStatusDone = false → s.rd F.secBootStatusStage = 4 → s.clk.released = 5 → Runs (.bootStage .ok) s fun t => t.rd F.secBootStatusStage = 5 ∧ (∀ x : Reg, x ≠ .secBootStatus → t.reg x = s.reg x) ∧ t.keeper = s.keeper ∧ t.mem = s.mem ∧ t.ten = s.ten ∧ t.out = s.out) ∧
  (∀ (s : State), s.clk.rails = true → s.has F.secBootStatusHalted = false → s.has F.secBootStatusDone = false → s.rd F.secBootStatusStage = 1 → Runs (.bootStage .failed) s fun t => t.has F.secBootStatusHalted = true ∧ t.rd F.secBootStatusError = 5 ∧ t.rd F.secBootStatusStage = s.rd F.secBootStatusStage ∧ (∀ x : Reg, x ≠ .secBootStatus → t.reg x = s.reg x) ∧ t.keeper = s.keeper ∧ t.mem = s.mem ∧ t.ten = s.ten ∧ t.out = s.out) ∧
  (∀ (s : State), s.clk.rails = true → s.has F.secBootStatusHalted = false → s.has F.secBootStatusDone = false → s.rd F.secBootStatusStage = 2 → Runs (.bootStage .failed) s fun t => t.has F.secBootStatusHalted = true ∧ t.rd F.secBootStatusError = 2 ∧ t.rd F.secBootStatusStage = s.rd F.secBootStatusStage ∧ (∀ x : Reg, x ≠ .secBootStatus → t.reg x = s.reg x) ∧ t.keeper = s.keeper ∧ t.mem = s.mem ∧ t.ten = s.ten ∧ t.out = s.out) ∧
  (∀ (s : State), s.clk.rails = true → s.has F.secBootStatusHalted = false → s.has F.secBootStatusDone = false → s.rd F.secBootStatusStage = 3 → Runs (.bootStage .failed) s fun t => t.has F.secBootStatusHalted = true ∧ t.rd F.secBootStatusError = 1 ∧ t.rd F.secBootStatusStage = s.rd F.secBootStatusStage ∧ (∀ x : Reg, x ≠ .secBootStatus → t.reg x = s.reg x) ∧ t.keeper = s.keeper ∧ t.mem = s.mem ∧ t.ten = s.ten ∧ t.out = s.out) ∧
  (∀ (s : State), s.clk.rails = true → s.has F.secBootStatusHalted = false → s.has F.secBootStatusDone = false → s.rd F.secBootStatusStage = 5 → Runs (.bootStage .failed) s fun t => t.has F.secBootStatusHalted = true ∧ t.rd F.secBootStatusError = 4 ∧ t.rd F.secBootStatusStage = s.rd F.secBootStatusStage ∧ (∀ x : Reg, x ≠ .secBootStatus → t.reg x = s.reg x) ∧ t.keeper = s.keeper ∧ t.mem = s.mem ∧ t.ten = s.ten ∧ t.out = s.out) ∧
  (∀ (s : State), s.clk.rails = true → s.has F.secBootStatusHalted = false → s.has F.secBootStatusDone = false → s.rd F.secBootStatusStage = 9 → Runs (.bootStage .failed) s fun t => t.has F.secBootStatusHalted = true ∧ t.rd F.secBootStatusError = 6 ∧ t.rd F.secBootStatusStage = s.rd F.secBootStatusStage ∧ (∀ x : Reg, x ≠ .secBootStatus → t.reg x = s.reg x) ∧ t.keeper = s.keeper ∧ t.mem = s.mem ∧ t.ten = s.ten ∧ t.out = s.out) ∧
  (∀ (s : State), s.clk.rails = true → s.has F.secBootStatusHalted = false → s.has F.secBootStatusDone = false → s.rd F.secBootStatusStage = 4 → s.clk.released = 5 → Runs (.bootStage .failed) s fun t => t.rd F.secBootStatusStage = 5 ∧ t.keeper.forced = true ∧ t.has F.secStatusEntropyFail = true ∧ t.rd F.secBootStatusError = 5 ∧ .event 0x90A .device [] ∈ t.out ∧ t.has F.secBootStatusHalted = false ∧ t.mem = s.mem ∧ t.ten = s.ten) ∧
  (∀ (p : List Byte) (s : State), s.clk.rails = true → s.has F.secBootStatusHalted = false → s.has F.secBootStatusDone = false → s.rd F.secBootStatusStage = 5 → s.has F.durStatusReady = true → s.journal.live = [] → s.keeperValue 0x101 0 = some p → s.keeperValue 0x102 0 = none → s.keeperValue 0x104 0 = none → (∀ i : Nat, s.keeperValue 0x103 i = none) → Runs (.bootStage .ok) s fun t => t.rd F.secBootStatusStage = 6 ∧ t.rd F.secLimitLimit = fld p 0 8 % 2 ^ 41 ∧ t.keeper.next = fld p 0 8 ∧ t.keeper.mirror = s.keeper.mirror ∧ t.has F.secStatusIdentLocked = s.has F.secStatusIdentLocked ∧ t.mem = s.mem ∧ t.ten = s.ten) ∧
  (∀ (s : State), s.clk.rails = true → s.has F.secBootStatusHalted = false → s.has F.secBootStatusDone = false → s.rd F.secBootStatusStage = 5 → s.has F.durStatusReady = true → s.journal.live = [] → s.keeper.mirror = [] → s.keeper.fuses.used = true → Runs (.bootStage .ok) s fun t => t.rd F.secBootStatusStage = 6 ∧ t.has F.secStatusIdentLocked = true ∧ t.keeper = s.keeper ∧ t.mem = s.mem ∧ t.ten = s.ten) ∧
  (∀ (i : Fin 4) (s : State), s.clk.rails = true → s.has F.secBootStatusHalted = false → s.has F.secBootStatusDone = false → s.rd F.secBootStatusStage = 6 → s.keeper.tried = [] → s.bootCandidate = some i → s.floor ≤ (s.slotState i).2.2 → Runs (.bootStage .ok) s fun t => t.rd F.secBootStatusStage = 7 ∧ t.bootedSlot = i ∧ (t.has F.secBootStatusTrial = true ↔ (s.slotState i).1 = slotTrial) ∧ ((s.slotState i).1 = slotTrial → i.val ∈ t.keeper.tried) ∧ t.mem = s.mem ∧ t.ten = s.ten) ∧
  (∀ (i j : Fin 4) (s : State), s.clk.rails = true → s.has F.secBootStatusHalted = false → s.has F.secBootStatusDone = false → s.rd F.secBootStatusStage = 6 → s.keeper.tried = [] → s.bootCandidate = some i → s.floor ≤ (s.slotState i).2.2 → j ≠ i → (s.slotState j).1 = slotGood → Runs (.bootStage .failed) s fun t => t.rd F.secBootStatusStage = 6 ∧ t.slotState i = (slotBad, (s.slotState i).2.1, (s.slotState i).2.2) ∧ .event 0x901 .device [i] ∈ t.out ∧ t.has F.secBootStatusHalted = false ∧ t.mem = s.mem ∧ t.ten = s.ten) ∧
  (∀ (i : Fin 4) (s : State), s.clk.rails = true → s.has F.secBootStatusHalted = false → s.has F.secBootStatusDone = false → s.rd F.secBootStatusStage = 6 → s.keeper.tried = [] → s.bootCandidate = some i → s.floor ≤ (s.slotState i).2.2 → (∀ j : Fin 4, j ≠ i → (s.slotState j).1 ≠ slotGood ∧ (s.slotState j).1 ≠ slotTrial) → Runs (.bootStage .failed) s fun t => t.slotState i = (slotBad, (s.slotState i).2.1, (s.slotState i).2.2) ∧ .event 0x901 .device [i] ∈ t.out ∧ t.has F.secBootStatusHalted = true ∧ t.rd F.secBootStatusError = 3 ∧ t.mem = s.mem ∧ t.ten = s.ten) ∧
  (∀ (i : Fin 4) (s : State), s.clk.rails = true → s.has F.secBootStatusHalted = false → s.has F.secBootStatusDone = false → s.rd F.secBootStatusStage = 6 → s.keeper.tried = [] → s.bootCandidate = some i → (s.slotState i).2.2 < s.floor → Runs (.bootStage .ok) s fun t => t.slotState i = (slotBad, (s.slotState i).2.1, (s.slotState i).2.2) ∧ .event 0x902 .device [i] ∈ t.out ∧ t.mem = s.mem ∧ t.ten = s.ten) ∧
  (∀ (e : StageEnd) (s : State), s.clk.rails = true → s.has F.secBootStatusHalted = false → s.has F.secBootStatusDone = false → s.rd F.secBootStatusStage = 6 → s.keeper.tried = [] → s.bootCandidate = none → Runs (.bootStage e) s fun t => t.has F.secBootStatusHalted = true ∧ t.rd F.secBootStatusError = 3 ∧ t.rd F.secBootStatusStage = s.rd F.secBootStatusStage ∧ (∀ x : Reg, x ≠ .secBootStatus → t.reg x = s.reg x) ∧ t.keeper = s.keeper ∧ t.mem = s.mem ∧ t.ten = s.ten ∧ t.out = s.out) ∧
  (∀ (s : State), s.clk.rails = true → s.has F.secBootStatusHalted = false → s.has F.secBootStatusDone = false → s.rd F.secBootStatusStage = 7 → s.keeper.chans = [] → s.debugFuse = 0 → Runs (.bootStage .ok) s fun t => t.rd F.secBootStatusStage = 8 ∧ t.keeper.boots = s.keeper.boots + 1 ∧ t.keeper.token = none ∧ t.keeper.meas.length = 16 ∧ t.keeper.meas[7]? = some (digest256 (zeros 32 ++ shake256 32 s.keeper.cert)) ∧ t.keeper.meas[2]? = some (digest256 (zeros 32 ++ s.componentDigest 0)) ∧ t.has F.secStatusDebug = s.has F.secStatusDebug ∧ t.mem = s.mem ∧ t.ten = s.ten) ∧
  (∀ (s : State), s.clk.rails = true → s.has F.secBootStatusHalted = false → s.has F.secBootStatusDone = false → s.rd F.secBootStatusStage = 7 → s.keeper.chans = [] → (s.debugFuse = 2 ∨ s.debugFuse = 1 ∧ s.keeper.token ≠ none) → Runs (.bootStage .ok) s fun t => t.rd F.secBootStatusStage = 8 ∧ t.keeper.boots = s.keeper.boots + 1 ∧ t.keeper.token = none ∧ t.has F.secStatusDebug = true ∧ .event 0x909 .firmware [] ∈ t.out ∧ .event 0x909 .host [] ∈ t.out ∧ t.mem = s.mem ∧ t.ten = s.ten) ∧
  (∀ (s : State), s.clk.rails = true → s.has F.secBootStatusHalted = false → s.has F.secBootStatusDone = false → s.rd F.secBootStatusStage = 8 → Runs (.bootStage .ok) s fun t => t.rd F.secBootStatusStage = 9 ∧ t.keeper.meas = modAt s.keeper.meas 3 (fun m => digest256 (leBytes 32 m.toNat ++ s.componentDigest 1)) ∧ t.mem = s.mem ∧ t.ten = s.ten) ∧
  (∀ (s : State), s.clk.rails = true → s.has F.secBootStatusHalted = false → s.has F.secBootStatusDone = false → s.rd F.secBootStatusStage = 9 → s.has F.hbmStatusReady = true → Runs (.bootStage .ok) s fun t => t.rd F.secBootStatusStage = 10 ∧ (∀ g : Fin 4, (t.reg (.hbmClassmap 0)).getLsbD g = true) ∧ t.ten = s.ten ∧ t.keeper = s.keeper) ∧
  (∀ (s : State), s.clk.rails = true → s.has F.secBootStatusHalted = false → s.has F.secBootStatusDone = false → s.rd F.secBootStatusStage = 10 → Runs (.bootStage .ok) s fun t => t.rd F.secBootStatusStage = 11 ∧ t.keeper.meas = modAt s.keeper.meas 4 (fun m => digest256 (leBytes 32 m.toNat ++ s.componentDigest 2)) ∧ t.mem = s.mem ∧ t.ten = s.ten) ∧
  (∀ (e : StageEnd) (s : State), s.clk.rails = true → s.has F.secBootStatusHalted = false → s.has F.secBootStatusDone = false → s.rd F.secBootStatusStage = 11 → Runs (.bootStage e) s fun t => t.rd F.secBootStatusStage = 12 ∧ t.has F.resStatusReady = true ∧ t.keeper = s.keeper ∧ t.mem = s.mem ∧ t.ten = s.ten) ∧
  (∀ (e : StageEnd) (s : State), s.clk.rails = true → s.has F.secBootStatusHalted = false → s.has F.secBootStatusDone = false → s.rd F.secBootStatusStage = 12 → Runs (.bootStage e) s fun t => t.has F.secBootStatusDone = true ∧ t.has F.hifStatusReady = true ∧ t.keeper.trial = s.has F.secBootStatusTrial ∧ (s.pwr.report = 2 → .event 0x802 .host [] ∈ t.out) ∧ (s.pwr.report = 3 → .event 0x804 .host [] ∈ t.out) ∧ (s.pwr.report = 4 → .event 0x811 .host [] ∈ t.out) ∧ (∀ k : Nat, s.pwr.trip = some k → .event 0x812 .host [k] ∈ t.out) ∧ t.pwr = { s.pwr with report := 0, trip := none } ∧ t.mem = s.mem ∧ t.ten = s.ten) ∧
  (∀ (e : StageEnd) (s : State), (s.has F.secBootStatusHalted = true ∨ s.has F.secBootStatusDone = true ∨ s.clk.rails = false) → Runs (.bootStage e) s fun t => t = s) ∧
  (∀ (s : State), Runs (.entropyFail) s fun t => t.has F.secStatusEntropyFail = true ∧ t.out = .event 0x90A .device [] :: s.out ∧ (∀ x : Reg, x ≠ .secStatus → t.reg x = s.reg x) ∧ t.keeper = s.keeper ∧ t.mem = s.mem ∧ t.ten = s.ten) ∧
  (∀ (s : State), s.keeper.trial = true → s.pwr.resetting = none → Runs (.trialExpiry) s fun t => t.slotState s.bootedSlot = (slotBad, (s.slotState s.bootedSlot).2.1, (s.slotState s.bootedSlot).2.2) ∧ .event 0x903 .device [s.bootedSlot] ∈ t.out ∧ t.pwr.resetting = some 5 ∧ t.pwr.cut = true ∧ t.journal.queue = [] ∧ t.mem = s.mem ∧ t.ten = s.ten) ∧
  (∀ (s : State), s.keeper.trial = false → Runs (.trialExpiry) s fun t => t = s) ∧
  (∀ (s : State), s.keeper.chans ≠ [] → s.pwr.resetting = none → Runs (.keeperWatchdogExpiry) s fun t => t.out = .event 0x908 .firmware [] :: s.out ∧ t.pwr.resetting = some 5 ∧ t.pwr.cut = true ∧ t.journal.queue = [] ∧ t.journal.run = s.journal.run ∧ t.keeper = s.keeper ∧ t.regs = s.regs ∧ t.mem = s.mem ∧ t.ten = s.ten) ∧
  (∀ (s : State), s.keeper.chans = [] → Runs (.keeperWatchdogExpiry) s fun t => t = s)

/-- Writing GO with READY set and SNAP_BUSY clear sets SNAP_BUSY and sends a marker that carries SNAP_SEQ + 1, and changes no other register, no counter and no memory. With SNAP_BUSY set the write is ignored and sets SNAP_STRAY, and so it does before READY. -/
def Obligations.SnapshotRequest : Prop :=
  (∀ (a : Agent) (s : State), s.has F.cntStatusReady = true → s.has F.cntStatusSnapBusy = false → Runs (.snapGo a) s fun t => t.has F.cntStatusSnapBusy = true ∧ t.cnt.seq = (s.rd F.cntSnapSeqSeq + 1) % 2 ^ 32 ∧ t.cnt.taken = [] ∧ (∀ i ∈ upto 0 603, .snapshot t.cnt.seq ∈ t.inbox (unitAt i)) ∧ (∀ x : Reg, x ≠ .cntStatus → t.reg x = s.reg x) ∧ t.out = s.out ∧ t.mem = s.mem ∧ t.ten = s.ten ∧ t.counts = s.counts) ∧
  (∀ (a : Agent) (s : State), s.has F.cntStatusSnapBusy = true → Runs (.snapGo a) s fun t => t.has F.cntEventsSnapStray = true ∧ t.cnt = s.cnt ∧ t.reg .cntStatus = s.reg .cntStatus ∧ t.reg .cntSnapSeq = s.reg .cntSnapSeq ∧ t.out = s.out ∧ t.mem = s.mem ∧ t.ten = s.ten) ∧
  (∀ (a : Agent) (s : State), s.has F.cntStatusReady = false → Runs (.snapGo a) s fun t => t.has F.cntEventsSnapStray = true ∧ t.cnt = s.cnt ∧ t.reg .cntStatus = s.reg .cntStatus ∧ t.reg .cntSnapSeq = s.reg .cntSnapSeq ∧ t.out = s.out ∧ t.mem = s.mem ∧ t.ten = s.ten)

/-- At a marker a unit copies slots 0 to 14 into its shadow set and writes SEQ into slot 15, and no other register or counter changes. The marker leaves the unit's messages. Once all 603 units have it, SNAP_SEQ takes SEQ, SNAP_BUSY clears and SNAP_DONE sets. A telemetry period takes a snapshot, builds a record of 256 bytes with the next SEQ at both ends and the deltas since the record before, and writes it to its slot of the host ring, or sets TELE_HOST_FAIL; the sideband keeps it either way. A snapshot in progress delays it. Slot 0 is a free value. -/
def Obligations.SnapshotsAndTelemetry : Prop :=
  (∀ (u i q : Nat) (s : State), unitIndex u = some i → (s.inbox u).findSome? TreeMsg.snapSeq = some q → Runs (.snapshotMarker u) s fun t => (∀ k : Nat, k < 15 → t.reg (.cntShadow i k) = BitVec.ofNat 64 (s.slot u k)) ∧ t.reg (.cntShadow i 15) = BitVec.ofNat 64 q ∧ t.cnt.taken = u :: s.cnt.taken ∧ t.inbox u = (s.inbox u).eraseP (fun m => m.snapSeq.isSome) ∧ (∀ x : Reg, (∀ k : Nat, x ≠ .cntShadow i k) → t.reg x = s.reg x) ∧ t.out = s.out ∧ t.mem = s.mem ∧ t.ten = s.ten ∧ t.counts = s.counts) ∧
  (∀ (u : Nat) (s : State), (s.inbox u).findSome? TreeMsg.snapSeq = none → Runs (.snapshotMarker u) s fun t => t = s) ∧
  (∀ (s : State), s.has F.cntStatusSnapBusy = true → s.cnt.taken.length = 603 → Runs (.snapshotComplete) s fun t => t.rd F.cntSnapSeqSeq = s.cnt.seq % 2 ^ 32 ∧ t.has F.cntStatusSnapBusy = false ∧ t.has F.cntEventsSnapDone = true ∧ (∀ i k : Nat, t.reg (.cntShadow i k) = s.reg (.cntShadow i k)) ∧ t.cnt = s.cnt ∧ t.out = s.out ∧ t.mem = s.mem ∧ t.ten = s.ten) ∧
  (∀ (s : State), (s.has F.cntStatusSnapBusy = false ∨ s.cnt.taken.length ≠ 603) → Runs (.snapshotComplete) s fun t => t = s) ∧
  (∀ (ok : Bool) (t0 : Temps) (s : State), s.has F.cntTeleCfgEnable = false → Runs (.telemetryPeriod ok t0) s fun t => t.has F.cntStatusTeleRun = false ∧ (∀ x : Reg, x ≠ .cntStatus → t.reg x = s.reg x) ∧ t.cnt = s.cnt ∧ t.out = s.out ∧ t.mem = s.mem ∧ t.ten = s.ten ∧ t.counts = s.counts) ∧
  (∀ (ok : Bool) (t0 : Temps) (s : State), s.has F.cntTeleCfgEnable = true → (s.has F.cntStatusSnapBusy = true ∨ s.has F.cntStatusReady = false) → Runs (.telemetryPeriod ok t0) s fun t => t = s) ∧
  (∀ (t0 : Temps) (s : State), s.has F.cntTeleCfgEnable = true → s.has F.cntStatusSnapBusy = false → s.has F.cntStatusReady = true → s.reaches (s.rd F.cntTeleBaseBase * 256 + 256 * ((s.rd F.cntTeleSeqSeq + 1) % 2 ^ 32 % 2 ^ s.teleLog2)) 256 = true → s.has F.hifStatusLinkUp = true → Runs (.telemetryPeriod true t0) s fun t => t.rd F.cntTeleSeqSeq = (s.rd F.cntTeleSeqSeq + 1) % 2 ^ 32 ∧ t.rd F.cntSnapSeqSeq = (s.rd F.cntSnapSeqSeq + 1) % 2 ^ 32 ∧ t.has F.cntStatusTeleRun = true ∧ t.has F.cntStatusSnapBusy = false ∧ t.has F.cntEventsSnapDone = true ∧ t.cnt.newest.length = 256 ∧ t.cnt.base = t.teleSums ∧ fld t.cnt.newest 0x0 4 = t.rd F.cntTeleSeqSeq ∧ fld t.cnt.newest 0x4 4 = t.rd F.cntSnapSeqSeq ∧ fld t.cnt.newest 0x8 2 = s.rd F.fabNodeNode ∧ fld t.cnt.newest 0xA 2 = s.rd F.fabNodeInc ∧ fld t.cnt.newest 0xC 1 = s.rd F.resRiskLevel ∧ fld t.cnt.newest 0xD 1 = s.rd F.pwrStatusState ∧ fld t.cnt.newest 0xE 1 = s.rd F.clkStatusArrDiv ∧ fld t.cnt.newest 0xF 1 = s.activeCount ∧ fld t.cnt.newest 0x18 2 = s.rd F.pwrVinVin ∧ fld t.cnt.newest 0x1A 2 = s.rd F.pwrPinMean ∧ fld t.cnt.newest 0x1C 2 = s.rd F.pwrPinPeak ∧ fld t.cnt.newest 0x1E 2 = s.rd F.pwrHoldupUs ∧ fld t.cnt.newest 0x20 2 = unsigned 16 (hottest t0.die) ∧ fld t.cnt.newest 0x22 2 = unsigned 16 (hottest t0.hbm) ∧ fld t.cnt.newest 0x26 2 = s.rd F.fabStatusPortsUp ∧ fld t.cnt.newest 0x28 2 = s.rd F.durLifeTlcUsed ∧ fld t.cnt.newest 0x2A 2 = s.rd F.durLifeSlcUsed ∧ fld t.cnt.newest 0x40 8 = growth 64 t.teleSums s.cnt.base 2 ∧ fld t.cnt.newest 0x48 8 = growth 64 t.teleSums s.cnt.base 3 ∧ fld t.cnt.newest 0x50 8 = growth 64 t.teleSums s.cnt.base 4 ∧ fld t.cnt.newest 0xFC 4 = t.rd F.cntTeleSeqSeq ∧ t.out = .hostWrite (s.rd F.cntTeleBaseBase * 256 + 256 * ((s.rd F.cntTeleSeqSeq + 1) % 2 ^ 32 % 2 ^ s.teleLog2)) t.cnt.newest :: s.out ∧ t.mem = s.mem ∧ t.ten = s.ten) ∧
  (∀ (ok : Bool) (t0 : Temps) (s : State), s.has F.cntTeleCfgEnable = true → s.has F.cntStatusSnapBusy = false → s.has F.cntStatusReady = true → (ok = false ∨ s.has F.hifStatusLinkUp = false ∨ s.reaches (s.rd F.cntTeleBaseBase * 256 + 256 * ((s.rd F.cntTeleSeqSeq + 1) % 2 ^ 32 % 2 ^ s.teleLog2)) 256 = false) → Runs (.telemetryPeriod ok t0) s fun t => t.rd F.cntTeleSeqSeq = (s.rd F.cntTeleSeqSeq + 1) % 2 ^ 32 ∧ t.rd F.cntSnapSeqSeq = (s.rd F.cntSnapSeqSeq + 1) % 2 ^ 32 ∧ t.has F.cntStatusTeleRun = true ∧ t.has F.cntStatusSnapBusy = false ∧ t.has F.cntEventsSnapDone = true ∧ t.cnt.newest.length = 256 ∧ t.cnt.base = t.teleSums ∧ fld t.cnt.newest 0x0 4 = t.rd F.cntTeleSeqSeq ∧ fld t.cnt.newest 0x4 4 = t.rd F.cntSnapSeqSeq ∧ fld t.cnt.newest 0x8 2 = s.rd F.fabNodeNode ∧ fld t.cnt.newest 0xA 2 = s.rd F.fabNodeInc ∧ fld t.cnt.newest 0xC 1 = s.rd F.resRiskLevel ∧ fld t.cnt.newest 0xD 1 = s.rd F.pwrStatusState ∧ fld t.cnt.newest 0xE 1 = s.rd F.clkStatusArrDiv ∧ fld t.cnt.newest 0xF 1 = s.activeCount ∧ fld t.cnt.newest 0x18 2 = s.rd F.pwrVinVin ∧ fld t.cnt.newest 0x1A 2 = s.rd F.pwrPinMean ∧ fld t.cnt.newest 0x1C 2 = s.rd F.pwrPinPeak ∧ fld t.cnt.newest 0x1E 2 = s.rd F.pwrHoldupUs ∧ fld t.cnt.newest 0x20 2 = unsigned 16 (hottest t0.die) ∧ fld t.cnt.newest 0x22 2 = unsigned 16 (hottest t0.hbm) ∧ fld t.cnt.newest 0x26 2 = s.rd F.fabStatusPortsUp ∧ fld t.cnt.newest 0x28 2 = s.rd F.durLifeTlcUsed ∧ fld t.cnt.newest 0x2A 2 = s.rd F.durLifeSlcUsed ∧ fld t.cnt.newest 0x40 8 = growth 64 t.teleSums s.cnt.base 2 ∧ fld t.cnt.newest 0x48 8 = growth 64 t.teleSums s.cnt.base 3 ∧ fld t.cnt.newest 0x50 8 = growth 64 t.teleSums s.cnt.base 4 ∧ fld t.cnt.newest 0xFC 4 = t.rd F.cntTeleSeqSeq ∧ t.has F.cntEventsTeleHostFail = true ∧ t.out = s.out ∧ t.mem = s.mem ∧ t.ten = s.ten)

/-- Each listed MCTP control, PLDM and vendor command is answered with its message type, command code, completion code and data, and changes nothing but the endpoint ID, the terminus ID or the dynamic address it sets. A sensor whose source is not available reads as unavailable. A message of another type is discarded; an unlisted command is answered as unsupported. The DMTF formats (codes, field orders, records) and the answer for a vendor command are the model's: log 11. -/
def Obligations.SidebandMessages : Prop :=
  (∀ (e : Byte) (s : State), e ≠ 0 → e ≠ 0xFF → Runs (.setEndpointId .smbus e) s fun t => t = { s with side := { s.side with eidSmbus := e.toNat }, out := .sideband .smbus (leBytes 1 0 ++ leBytes 1 1 ++ leBytes 1 0 ++ [0, e, 0]) :: s.out }) ∧
  (∀ (e : Byte) (s : State), e ≠ 0 → e ≠ 0xFF → Runs (.setEndpointId .i3c e) s fun t => t = { s with side := { s.side with eidI3c := e.toNat }, out := .sideband .i3c (leBytes 1 0 ++ leBytes 1 1 ++ leBytes 1 0 ++ [0, e, 0]) :: s.out }) ∧
  (∀ (b : Binding) (e : Byte) (s : State), (e = 0 ∨ e = 0xFF) → Runs (.setEndpointId b e) s fun t => t = { s with out := .sideband b (leBytes 1 0 ++ leBytes 1 1 ++ leBytes 1 2 ++ []) :: s.out }) ∧
  (∀ (s : State), Runs (.getEndpointId .smbus) s fun t => t = { s with out := .sideband .smbus (leBytes 1 0 ++ leBytes 1 2 ++ leBytes 1 0 ++ (leBytes 1 s.side.eidSmbus ++ [0, 0])) :: s.out }) ∧
  (∀ (s : State), Runs (.getEndpointId .i3c) s fun t => t = { s with out := .sideband .i3c (leBytes 1 0 ++ leBytes 1 2 ++ leBytes 1 0 ++ (leBytes 1 s.side.eidI3c ++ [0, 0])) :: s.out }) ∧
  (∀ (b : Binding) (s : State), Runs (.getEndpointUuid b) s fun t => t = { s with out := .sideband b (leBytes 1 0 ++ leBytes 1 3 ++ leBytes 1 0 ++ leBytes 16 Config.endpointUuid.toNat) :: s.out }) ∧
  (∀ (b : Binding) (m : Byte) (s : State), (m = 0 ∨ m = 1 ∨ m = 0x7E ∨ m = 0xFF) → Runs (.getMctpVersionSupport b m) s fun t => t = { s with out := .sideband b (leBytes 1 0 ++ leBytes 1 4 ++ leBytes 1 0 ++ (1 :: leBytes 4 (Config.protocolVersion m.toNat).toNat)) :: s.out }) ∧
  (∀ (b : Binding) (m : Byte) (s : State), m ≠ 0 → m ≠ 1 → m ≠ 0x7E → m ≠ 0xFF → Runs (.getMctpVersionSupport b m) s fun t => t = { s with out := .sideband b (leBytes 1 0 ++ leBytes 1 4 ++ leBytes 1 0x80 ++ []) :: s.out }) ∧
  (∀ (b : Binding) (s : State), Runs (.getMessageTypeSupport b) s fun t => t = { s with out := .sideband b (leBytes 1 0 ++ leBytes 1 5 ++ leBytes 1 0 ++ [2, 1, 0x7E]) :: s.out }) ∧
  (∀ (b : Binding) (s : State), Runs (.getVendorMessageSupport b) s fun t => t = { s with out := .sideband b (leBytes 1 0 ++ leBytes 1 6 ++ leBytes 1 0 ++ ([0xFF, 0] ++ leBytes 2 Config.pciVendor.toNat ++ [0, 0])) :: s.out }) ∧
  (∀ (b : Binding) (n : Byte) (s : State), n ≠ 0 → n ≠ 0xFF → Runs (.settid b n) s fun t => t = { s with side := { s.side with tid := n.toNat }, out := .sideband b (leBytes 1 1 ++ leBytes 1 1 ++ leBytes 1 0 ++ []) :: s.out }) ∧
  (∀ (b : Binding) (n : Byte) (s : State), (n = 0 ∨ n = 0xFF) → Runs (.settid b n) s fun t => t = { s with out := .sideband b (leBytes 1 1 ++ leBytes 1 1 ++ leBytes 1 2 ++ []) :: s.out }) ∧
  (∀ (b : Binding) (s : State), Runs (.gettid b) s fun t => t = { s with out := .sideband b (leBytes 1 1 ++ leBytes 1 2 ++ leBytes 1 0 ++ leBytes 1 s.side.tid) :: s.out }) ∧
  (∀ (b : Binding) (p : Byte) (s : State), (p = 0 ∨ p = 2) → Runs (.getpldmversion b p) s fun t => t = { s with out := .sideband b (leBytes 1 1 ++ leBytes 1 3 ++ leBytes 1 0 ++ leBytes 4 (Config.protocolVersion (256 + p.toNat)).toNat) :: s.out }) ∧
  (∀ (b : Binding) (p : Byte) (s : State), p ≠ 0 → p ≠ 2 → Runs (.getpldmversion b p) s fun t => t = { s with out := .sideband b (leBytes 1 1 ++ leBytes 1 3 ++ leBytes 1 0x83 ++ []) :: s.out }) ∧
  (∀ (b : Binding) (s : State), Runs (.getpldmtypes b) s fun t => t = { s with out := .sideband b (leBytes 1 1 ++ leBytes 1 4 ++ leBytes 1 0 ++ [5, 0, 0, 0, 0, 0, 0, 0]) :: s.out }) ∧
  (∀ (b : Binding) (s : State), Runs (.getpldmcommands b 0) s fun t => t = { s with out := .sideband b (leBytes 1 1 ++ leBytes 1 5 ++ leBytes 1 0 ++ leBytes 32 0x3E) :: s.out }) ∧
  (∀ (b : Binding) (s : State), Runs (.getpldmcommands b 2) s fun t => t = { s with out := .sideband b (leBytes 1 1 ++ leBytes 1 5 ++ leBytes 1 0 ++ leBytes 32 (2 ^ 0x0B + 2 ^ 0x11 + 2 ^ 0x21 + 2 ^ 0x50 + 2 ^ 0x51)) :: s.out }) ∧
  (∀ (b : Binding) (p : Byte) (s : State), p ≠ 0 → p ≠ 2 → Runs (.getpldmcommands b p) s fun t => t = { s with out := .sideband b (leBytes 1 1 ++ leBytes 1 5 ++ leBytes 1 0x83 ++ []) :: s.out }) ∧
  (∀ (b : Binding) (s : State), Runs (.getpdrrepositoryinfo b) s fun t => t = { s with out := .sideband b (leBytes 1 1 ++ leBytes 1 0x50 ++ leBytes 1 0 ++ [0, 24, 0, 0, 0]) :: s.out }) ∧
  (∀ (b : Binding) (h : Word) (s : State), 1 ≤ h.toNat → h.toNat ≤ 20 → Runs (.getpdr b h) s fun t => t = { s with out := .sideband b (leBytes 1 1 ++ leBytes 1 0x51 ++ leBytes 1 0 ++ (leBytes 4 (h.toNat + 1) ++ leBytes 4 h.toNat ++ [1, 2] ++ leBytes 2 h.toNat)) :: s.out }) ∧
  (∀ (b : Binding) (h : Word) (s : State), 21 ≤ h.toNat → h.toNat ≤ 24 → Runs (.getpdr b h) s fun t => t = { s with out := .sideband b (leBytes 1 1 ++ leBytes 1 0x51 ++ leBytes 1 0 ++ (leBytes 4 (if h.toNat = 24 then 0 else h.toNat + 1) ++ leBytes 4 h.toNat ++ [1, 4] ++ leBytes 2 (h.toNat + 11))) :: s.out }) ∧
  (∀ (b : Binding) (h : Word) (s : State), (h.toNat = 0 ∨ 24 < h.toNat) → Runs (.getpdr b h) s fun t => t = { s with out := .sideband b (leBytes 1 1 ++ leBytes 1 0x51 ++ leBytes 1 0x82 ++ []) :: s.out }) ∧
  (∀ (b : Binding) (i : Half) (v : Nat) (s : State), 1 ≤ i.toNat → i.toNat ≤ 20 → s.numeric i.toNat = some v → Runs (.getsensorreading b i) s fun t => t = { s with out := .sideband b (leBytes 1 1 ++ leBytes 1 0x11 ++ leBytes 1 0 ++ (0 :: leBytes 2 v)) :: s.out }) ∧
  (∀ (b : Binding) (i : Half) (s : State), 1 ≤ i.toNat → i.toNat ≤ 20 → s.numeric i.toNat = none → Runs (.getsensorreading b i) s fun t => t = { s with out := .sideband b (leBytes 1 1 ++ leBytes 1 0x11 ++ leBytes 1 0 ++ [2, 0, 0]) :: s.out }) ∧
  (∀ (b : Binding) (i : Half) (s : State), (i.toNat = 0 ∨ 20 < i.toNat) → Runs (.getsensorreading b i) s fun t => t = { s with out := .sideband b (leBytes 1 1 ++ leBytes 1 0x11 ++ leBytes 1 0x80 ++ []) :: s.out }) ∧
  (∀ (b : Binding) (i : Half) (v : Nat) (s : State), 32 ≤ i.toNat → i.toNat ≤ 35 → s.stateOf i.toNat = some v → Runs (.getstatesensorreadings b i) s fun t => t = { s with out := .sideband b (leBytes 1 1 ++ leBytes 1 0x21 ++ leBytes 1 0 ++ (0 :: leBytes 1 v)) :: s.out }) ∧
  (∀ (b : Binding) (i : Half) (s : State), 32 ≤ i.toNat → i.toNat ≤ 35 → s.stateOf i.toNat = none → Runs (.getstatesensorreadings b i) s fun t => t = { s with out := .sideband b (leBytes 1 1 ++ leBytes 1 0x21 ++ leBytes 1 0 ++ [2, 0]) :: s.out }) ∧
  (∀ (b : Binding) (i : Half) (s : State), (i.toNat < 32 ∨ 35 < i.toNat) → Runs (.getstatesensorreadings b i) s fun t => t = { s with out := .sideband b (leBytes 1 1 ++ leBytes 1 0x21 ++ leBytes 1 0x80 ++ []) :: s.out }) ∧
  (∀ (b : Binding) (s : State), Runs (.pollforplatformeventmessage b) s fun t => t = { s with out := .sideband b (leBytes 1 1 ++ leBytes 1 0x0B ++ leBytes 1 0 ++ (leBytes 1 s.side.tid ++ [0, 0])) :: s.out }) ∧
  (∀ (b : Binding) (s : State), s.cnt.newest = [] → Runs (.telemetryGet b) s fun t => t = { s with out := .sideband b (leBytes 1 0x7E ++ leBytes 1 1 ++ leBytes 1 1 ++ []) :: s.out }) ∧
  (∀ (b : Binding) (s : State), s.cnt.newest ≠ [] → Runs (.telemetryGet b) s fun t => t = { s with out := .sideband b (leBytes 1 0x7E ++ leBytes 1 1 ++ leBytes 1 0 ++ s.cnt.newest) :: s.out }) ∧
  (∀ (b : Binding) (s : State), Runs (.powerStatus b) s fun t => t = { s with out := .sideband b (leBytes 1 0x7E ++ leBytes 1 2 ++ leBytes 1 0 ++ (leBytes 4 (s.reg .pwrStatus).toNat ++ leBytes 4 (s.reg .pwrVin).toNat ++ leBytes 4 (s.reg .pwrPin).toNat ++ leBytes 1 s.pwr.failedRail ++ leBytes 1 (if s.pwr.trip = none then 0 else 1) ++ leBytes 1 (s.pwr.trip.getD 0))) :: s.out }) ∧
  (∀ (b : Binding) (p : Straps) (s : State), Runs (.strapsGet b p) s fun t => t = { s with out := .sideband b (leBytes 1 0x7E ++ leBytes 1 3 ++ leBytes 1 0 ++ (leBytes 2 (s.rd F.resFeedStrapFeed) ++ leBytes 1 (s.rd F.pwrStrapsPos) ++ leBytes 2 p.feed.toNat ++ leBytes 1 (if p.par then 1 else 0) ++ leBytes 1 p.pos.toNat ++ leBytes 1 (if p = s.pwr.straps then 0 else 1))) :: s.out }) ∧
  (∀ (b : Binding) (m k : Byte) (s : State), (m = 0 ∨ m = 1 ∨ m = 0x7E) → Runs (.unsupportedSidebandMessage b m k) s fun t => t = { s with out := .sideband b (leBytes 1 m.toNat ++ leBytes 1 k.toNat ++ leBytes 1 5 ++ []) :: s.out }) ∧
  (∀ (b : Binding) (m k : Byte) (s : State), m ≠ 0 → m ≠ 1 → m ≠ 0x7E → Runs (.unsupportedSidebandMessage b m k) s fun t => t = s) ∧
  (∀ (a : BitVec 7) (s : State), Runs (.dynamicAddressAssignment a) s fun t => t = { s with side := { s.side with dyn := some a.toNat } })

/-- When the strap pins differ from the values in use, 0814h STRAP_CHANGED goes to service firmware. The values in use stay as they are, and no rail, record or memory changes. When they agree, nothing is raised. The command is the comparison that the controller makes once per second. -/
def Obligations.StrapComparison : Prop :=
  (∀ (p : Straps) (s : State), p ≠ s.pwr.straps → Runs (.strapCompare p) s fun t => t.has F.pwrStrapsChanged = true ∧ t.out = .event 0x814 .firmware [] :: s.out ∧ t.pwr = s.pwr ∧ t.rd F.pwrStrapsPos = s.rd F.pwrStrapsPos ∧ t.rd F.resFeedStrapFeed = s.rd F.resFeedStrapFeed ∧ t.journal = s.journal ∧ t.mem = s.mem ∧ t.ten = s.ten) ∧
  (∀ (p : Straps) (s : State), p = s.pwr.straps → Runs (.strapCompare p) s fun t => t.has F.pwrStrapsChanged = false ∧ t.out = s.out ∧ t.pwr = s.pwr ∧ t.rd F.pwrStrapsPos = s.rd F.pwrStrapsPos ∧ t.rd F.resFeedStrapFeed = s.rd F.resFeedStrapFeed ∧ t.journal = s.journal ∧ t.mem = s.mem ∧ t.ten = s.ten)

/-- For every command c, state s and queue rest: a step with c in front answers what exec answers for c on s with the rest waiting. With no command waiting a step changes nothing (log 2). The queue is the model's own (log 4). -/
def Obligations.StepRunsTheCommandInFront : Prop :=
  (∀ (c : Instr) (rest : List Instr) (s : State), step { s with pending := c :: rest } = exec c { s with pending := rest }) ∧
  (∀ s : State, s.pending = [] → step s = .next s)

/-- For every state whose register file, memories and poison marks are listed with addresses strictly rising and, in the memories, no entry equal to what an unlisted address reads as: a step answers a next state, and that state is so too. Equal memories are therefore equal data, whatever commands made them. -/
def Obligations.EveryStepKeepsTheCanonicalForm : Prop :=
  ∀ s : State, s.Canonical → ∃ t : State, step s = .next t ∧ t.Canonical

/-- The register file, the memories and the poison marks of the state after reset are in canonical form. -/
def Obligations.ResetIsCanonical : Prop :=
  State.reset.Canonical

/-- Whatever command a step runs, in whatever state: the root digest, the device secret and the debug policy burned at manufacture stand, the security version that the fuses count never falls, and a fuse burned at first use stays burned. -/
def Obligations.FusesOnlyBurn : Prop :=
  ∀ s t : State, step s = .next t → Fuses.kept s.keeper.fuses t.keeper.fuses

/-- Every command, in every state, answers a next state whose queue is as before and whose record of what the device has sent is the old one with what this command sends in front. -/
def Obligations.CommandsLeaveTheQueueAndWhatWasSent : Prop :=
  ∀ (c : Instr) (s : State), Runs c s fun t => t.pending = s.pending ∧ ∃ new : List Output, t.out = new ++ s.out

/-- When an integer, logic, compare, lane or floating-point instruction issues with a legal MOD, then beside its fetch it changes only the register, pair or predicate that DST names, in the executing lanes of its constituents (SREG also clears the error words it reads). No register of the device, no byte of memory, no other tumbler, block, token, near cache, launch or tenant changes, nothing is sent, and every other register and predicate of every lane stays. -/
def Obligations.ComputingInstructionsTouchOnlyTheirResult : Prop :=
  ∀ (i : Instr) (u : TumblerId) (g : SlotId) (w : IWord) (f : Form) (c : Ctx) (s : State), computes i = some (u, g, w, f, true) →
    s.issues u g w f always c → Runs i s fun t =>
      t.mem.hbm = s.mem.hbm ∧ t.mem.scratch = s.mem.scratch ∧
      t.mem = (s.fetched u g w f c).mem ∧ t.regs = (s.fetched u g w f c).regs ∧ t.ten = (s.fetched u g w f c).ten ∧
      t.out = (s.fetched u g w f c).out ∧ t.counts = (s.fetched u g w f c).counts ∧ t.launches = (s.fetched u g w f c).launches ∧
      t.tree = (s.fetched u g w f c).tree ∧ t.fab = (s.fetched u g w f c).fab ∧ t.arr = (s.fetched u g w f c).arr ∧ t.spn = (s.fetched u g w f c).spn ∧ t.keeper = (s.fetched u g w f c).keeper ∧ t.flash = (s.fetched u g w f c).flash ∧
      t.journal = (s.fetched u g w f c).journal ∧ t.hif = (s.fetched u g w f c).hif ∧
      (∀ v : Nat, v ≠ u.val → KMap.get t.tum v Tumbler.reset = KMap.get (s.fetched u g w f c).tum v Tumbler.reset) ∧
      (t.tumbler u).blocks = ((s.fetched u g w f c).tumbler u).blocks ∧ (t.tumbler u).tokens = ((s.fetched u g w f c).tumbler u).tokens ∧
      (t.tumbler u).cache = ((s.fetched u g w f c).tumbler u).cache ∧
      (∀ slot n l : Nat, l < 32 → c.writes f slot n l = false →
        t.laneOf u slot c.l.regs n l = (s.fetched u g w f c).laneOf u slot c.l.regs n l) ∧
      (∀ slot n l : Nat, c.writesPred f slot n l = false → t.predOf u slot n l = (s.fetched u g w f c).predOf u slot n l)

/-- After reset the registers read as their Reset columns: the node is FFFFh, the least input FFFFh, LINK_HOLD 10, CHAINWAIT 4,096, REFSEL auto, the telemetry ring 2^4 records of 1,000 ms, 603 units, no generation complete in any layer, no unit READY, no event set, risk 0. Every counter and shadow reads 0; memory lists nothing; no tenant is ACTIVE; no command waits and nothing has been sent. -/
def Obligations.StateAfterReset : Prop :=
  State.reset.rd F.fabNodeNode = 0xFFFF ∧ State.reset.rd F.fabNodeInc = 0 ∧ State.reset.rd F.pwrVinVinMin = 0xFFFF ∧
  State.reset.rd F.hifCtrlLinkHold = 10 ∧ State.reset.rd F.arrChainwaitCycles = 4096 ∧ State.reset.rd F.clkRefselMode = 2 ∧
  State.reset.reg .clkArrdiv = 0 ∧ State.reset.rd F.cntTeleCfgLog2 = 4 ∧ State.reset.reg .cntTeleCfg = 0x403E8 ∧
  State.reset.reg .cntUnits = 603 ∧ State.reset.reg .resRisk = 0 ∧
  (∀ f ∈ [F.clkEventsRefLost, F.icuStatusReady, F.arrStatusReady, F.hbmStatusReady, F.synStatusReady, F.hifStatusReady, F.resStatusReady,
    F.durStatusReady, F.cntStatusReady, F.cntEventsSnapDone, F.pwrEventsDroopWarning, F.secBootStatusDone], State.reset.has f = false) ∧
  (∀ (t : Fin 16) (n : Fin 3), State.reset.reg (.resGen t n) = BitVec.allOnes 64) ∧
  (∀ i k : Nat, State.reset.reg (.cntShadow i k) = 0) ∧ (∀ unit k : Nat, KMap.get State.reset.counts (16 * unit + k) 0 = 0) ∧
  (∀ t : Fin 16, State.reset.active t = false) ∧ State.reset.mem = Mem.reset ∧ State.reset.mem.hbm = [] ∧ State.reset.mem.scratch = [] ∧
  State.reset.pending = [] ∧ State.reset.out = []

/-- A STEP_OPEN in sequence, of the phase in force, with nothing to fetch, release, move or apply, opens the step and ends with 0 and its number; while a frozen weight is being recovered, or a partition applies, it is held and does not end; with one lost it ends with 0310h. A STEP_COMMIT with no step open ends with 020Dh, one of another step with 020Ah. A STEP_CANCEL of the open step ends its STEP_COMMIT with 0604h and itself with 0, and the counters return to the record in force; one that meets a sealed step waits; one without a step ends with 020Dh, of another step with 020Ah. A NUMERIC_POLICY outside its limits changes nothing. Boundary work with nothing due opens the step held, whose command ends with 0. -/
def Obligations.StepCommandsComplete : Prop :=
  (∀ (n : TenantId) (r : RingId) (e : Entry) (b : List Byte) (s : State), s.mayRun n r 0x10 e → e.arg 0 8 % 64 = 0 → ((s.begun n r e).fwRead n (e.arg 0 8) 128).2 = .ok b → scbOk b = true → s.ringOf n e.cid = r → (s.tenant n).step.lost = false → (s.tenant n).step.phase = .idle → (s.tenant n).step.openHeld = none → fld b 0 8 = (s.tenant n).step.record.step + 1 → (s.tenant n).place.phase = fld b 8 1 → (∀ x ∈ (s.tenant n).place.tensors, x.freed = false → inPhases x.phases (fld b 8 1) = true → ∀ q ∈ x.parts, q.spilled = false) → ((s.begun n r e).fwRead n (e.arg 0 8) 128).1.mem.replan = false → ((s.begun n r e).fwRead n (e.arg 0 8) 128).1.releaseDue n = [] → ((s.tenant n).place.worked = true ∨ (((s.begun n r e).fwRead n (e.arg 0 8) 128).1.mapoutCap = none ∧ ∀ x ∈ (s.tenant n).place.tensors, x.pending = none)) → ((s.begun n r e).fwRead n (e.arg 0 8) 128).1.recovering n = false → ((s.begun n r e).fwRead n (e.arg 0 8) 128).1.unrecovered n = false → ((s.begun n r e).fwRead n (e.arg 0 8) 128).1.has F.cstStatusPartBusy = false → Runs (.stepOpen n r) s fun t => (t.tenant n).step.phase = .opened ∧ (t.tenant n).step.openHeld = none ∧ (t.tenant n).step.scbStep = fld b 0 8 ∧ (t.tenant n).step.scbPhase = fld b 8 1 ∧ (t.tenant n).step.onPoison = fld b 9 1 ∧ (t.tenant n).step.cursorNext = (b.drop 0x10).take 16 ∧ (t.tenant n).step.record = (s.tenant n).step.record ∧ t.outcome n r e.cid = some (0, fld b 0 8, 0) ∧ t.rd (F.arrUpdTenantState n) = 1 ∧ t.mem = ((s.begun n r e).fwRead n (e.arg 0 8) 128).1.mem) ∧
  (∀ (n : TenantId) (r : RingId) (e : Entry) (b : List Byte) (s : State), s.mayRun n r 0x10 e → e.arg 0 8 % 64 = 0 → ((s.begun n r e).fwRead n (e.arg 0 8) 128).2 = .ok b → scbOk b = true → s.ringOf n e.cid = r → (s.tenant n).step.lost = false → (s.tenant n).step.phase = .idle → (s.tenant n).step.openHeld = none → fld b 0 8 = (s.tenant n).step.record.step + 1 → (((s.begun n r e).fwRead n (e.arg 0 8) 128).1.recovering n = true ∨ (((s.begun n r e).fwRead n (e.arg 0 8) 128).1.unrecovered n = false ∧ ((s.begun n r e).fwRead n (e.arg 0 8) 128).1.has F.cstStatusPartBusy = true)) → Runs (.stepOpen n r) s fun t => (t.tenant n).step.phase = .idle ∧ (t.tenant n).step.openHeld = some e.cid ∧ (t.tenant n).step.scbStep = fld b 0 8 ∧ (t.tenant n).place.phase = fld b 8 1 ∧ t.outcome n r e.cid = none) ∧
  (∀ (n : TenantId) (r : RingId) (e : Entry) (b : List Byte) (s : State), s.mayRun n r 0x10 e → e.arg 0 8 % 64 = 0 → ((s.begun n r e).fwRead n (e.arg 0 8) 128).2 = .ok b → scbOk b = true → s.ringOf n e.cid = r → (s.tenant n).step.lost = false → (s.tenant n).step.phase = .idle → (s.tenant n).step.openHeld = none → fld b 0 8 = (s.tenant n).step.record.step + 1 → ((s.begun n r e).fwRead n (e.arg 0 8) 128).1.recovering n = false → ((s.begun n r e).fwRead n (e.arg 0 8) 128).1.unrecovered n = true → Runs (.stepOpen n r) s fun t => (t.tenant n).step.phase = .idle ∧ (t.tenant n).step.openHeld = none ∧ t.outcome n r e.cid = some (0x310, 0, 0)) ∧
  (∀ (n : TenantId) (r : RingId) (e : Entry) (b : List Byte) (s : State), s.mayRun n r 0x11 e → e.arg 0 8 % 64 = 0 → ((s.begun n r e).fwRead n (e.arg 0 8) 128).2 = .ok b → scbOk b = true → (s.tenant n).step.phase = .idle → Runs (.stepCommit n r) s fun t => (t.tenant n).step = (s.tenant n).step ∧ t.outcome n r e.cid = some (0x20D, (s.tenant n).step.record.step, 0)) ∧
  (∀ (n : TenantId) (r : RingId) (e : Entry) (b : List Byte) (s : State), s.mayRun n r 0x11 e → e.arg 0 8 % 64 = 0 → ((s.begun n r e).fwRead n (e.arg 0 8) 128).2 = .ok b → scbOk b = true → (s.tenant n).step.phase ≠ .idle → ((s.tenant n).step.phase ≠ .opened ∨ (s.tenant n).step.commit.isSome = true ∨ fld b 0 8 ≠ (s.tenant n).step.scbStep) → Runs (.stepCommit n r) s fun t => (t.tenant n).step = (s.tenant n).step ∧ t.outcome n r e.cid = some (0x20A, (s.tenant n).step.record.step, 0)) ∧
  (∀ (n : TenantId) (r : RingId) (e : Entry) (b : List Byte) (s : State), s.mayRun n r 0x11 e → e.arg 0 8 % 64 = 0 → ((s.begun n r e).fwRead n (e.arg 0 8) 128).2 = .ok b → scbOk b = true → (s.tenant n).step.phase = .opened → (s.tenant n).step.commit = none → fld b 0 8 = (s.tenant n).step.scbStep → Runs (.stepCommit n r) s fun t => (t.tenant n).step.phase = .opened ∧ (t.tenant n).step.commit = some e.cid ∧ (t.tenant n).step.onPoison = fld b 9 1 ∧ (t.tenant n).step.cursorNext = (b.drop 0x10).take 16 ∧ (t.tenant n).step.record = (s.tenant n).step.record ∧ (t.tenant n).step.seq = (s.tenant n).step.seq ∧ t.outcome n r e.cid = none) ∧
  (∀ (n : TenantId) (r : RingId) (e : Entry) (b : List Byte) (k : Nat) (f : Entry) (s : State), s.mayRun n r 0x12 e → e.arg 0 8 % 64 = 0 → ((s.begun n r e).fwRead n (e.arg 0 8) 128).2 = .ok b → scbOk b = true → ((s.tenant n).step.phase = .opened ∨ (s.tenant n).step.phase = .updating) → fld b 0 8 = (s.tenant n).step.scbStep → (s.tenant n).step.cancels = [] → (s.tenant n).step.commit = some k → k ≠ e.cid → s.entry? n (s.ringOf n k) k = some f → f.ended = false → (∀ w ∈ s.waits, ¬(w.tenant = n.val ∧ w.ring = s.ringOf n k ∧ w.cid = k)) → Runs (.stepCancel n r) s fun t => (t.tenant n).step.phase = .idle ∧ (t.tenant n).step.commit = none ∧ (t.tenant n).step.work = none ∧ (t.tenant n).step.counters = (s.tenant n).step.record.counters ∧ (t.tenant n).step.seq = (s.tenant n).step.seq ∧ t.outcome n (s.ringOf n k) k = some (0x604, (s.tenant n).step.record.step, 0) ∧ t.outcome n r e.cid = some (0, (s.tenant n).step.record.step, 0)) ∧
  (∀ (n : TenantId) (r : RingId) (e : Entry) (b : List Byte) (s : State), s.mayRun n r 0x12 e → e.arg 0 8 % 64 = 0 → ((s.begun n r e).fwRead n (e.arg 0 8) 128).2 = .ok b → scbOk b = true → ((s.tenant n).step.phase = .opened ∨ (s.tenant n).step.phase = .updating) → fld b 0 8 = (s.tenant n).step.scbStep → (s.tenant n).step.cancels = [] → (s.tenant n).step.commit = none → Runs (.stepCancel n r) s fun t => (t.tenant n).step.phase = .idle ∧ (t.tenant n).step.work = none ∧ (t.tenant n).step.counters = (s.tenant n).step.record.counters ∧ (t.tenant n).step.seq = (s.tenant n).step.seq ∧ t.outcome n r e.cid = some (0, (s.tenant n).step.record.step, 0)) ∧
  (∀ (n : TenantId) (r : RingId) (e : Entry) (b : List Byte) (s : State), s.mayRun n r 0x12 e → e.arg 0 8 % 64 = 0 → ((s.begun n r e).fwRead n (e.arg 0 8) 128).2 = .ok b → scbOk b = true → ((s.tenant n).step.phase = .sealing ∨ (s.tenant n).step.phase = .post) → fld b 0 8 = (s.tenant n).step.scbStep → Runs (.stepCancel n r) s fun t => (t.tenant n).step = { (s.tenant n).step with cancels := (s.tenant n).step.cancels ++ [e.cid] } ∧ t.outcome n r e.cid = none) ∧
  (∀ (n : TenantId) (r : RingId) (e : Entry) (b : List Byte) (s : State), s.mayRun n r 0x12 e → e.arg 0 8 % 64 = 0 → ((s.begun n r e).fwRead n (e.arg 0 8) 128).2 = .ok b → scbOk b = true → (s.tenant n).step.phase = .idle → Runs (.stepCancel n r) s fun t => (t.tenant n).step = (s.tenant n).step ∧ t.outcome n r e.cid = some (0x20D, (s.tenant n).step.record.step, 0)) ∧
  (∀ (n : TenantId) (r : RingId) (e : Entry) (b : List Byte) (s : State), s.mayRun n r 0x12 e → e.arg 0 8 % 64 = 0 → ((s.begun n r e).fwRead n (e.arg 0 8) 128).2 = .ok b → scbOk b = true → (s.tenant n).step.phase ≠ .idle → fld b 0 8 ≠ (s.tenant n).step.scbStep → Runs (.stepCancel n r) s fun t => (t.tenant n).step = (s.tenant n).step ∧ t.outcome n r e.cid = some (0x20A, (s.tenant n).step.record.step, 0)) ∧
  (∀ (n : TenantId) (r : RingId) (e : Entry) (x : NumState) (s : State), s.mayRun n r 0x13 e → (s.tenant n).step.phase = .idle → (s.tenant n).num.policyOf e = some x → Runs (.numericPolicy n r) s fun t => (t.tenant n).num = x ∧ (t.tenant n).step = (s.tenant n).step ∧ t.outcome n r e.cid = some (0, 0, 0)) ∧
  (∀ (n : TenantId) (r : RingId) (e : Entry) (s : State), s.mayRun n r 0x13 e → (s.tenant n).step.phase = .idle → (s.tenant n).num.policyOf e = none → Runs (.numericPolicy n r) s fun t => (t.tenant n).num = (s.tenant n).num ∧ (t.tenant n).step = (s.tenant n).step ∧ (t.outcome n r e.cid).isSome = true ∧ t.outcome n r e.cid ≠ some (0, 0, 0)) ∧
  (∀ (n : TenantId) (bad : List (Nat × Nat × Nat)) (k : Nat) (e : Entry) (s : State), s.active n = true → (s.tenant n).step.phase = .idle → s.running n = false → s.boundaryDue n = false → (s.tenant n).place.worked = false → s.mapoutCap = none → s.recovering n = false → s.unrecovered n = false → s.has F.cstStatusPartBusy = false → (s.tenant n).step.openHeld = some k → s.entry? n (s.ringOf n k) k = some e → e.ended = false → (∀ w ∈ s.waits, w.met = none ∧ ¬(w.tenant = n.val ∧ w.ring = s.ringOf n k ∧ w.cid = k)) → Runs (.boundaryWork n bad) s fun t => (t.tenant n).step.phase = .opened ∧ (t.tenant n).step.openHeld = none ∧ (t.tenant n).step.scbStep = (s.tenant n).step.scbStep ∧ t.outcome n (s.ringOf n k) k = some (0, (s.tenant n).step.scbStep, 0) ∧ t.rd (F.arrUpdTenantState n) = 1 ∧ t.mem = s.mem) ∧
  (∀ (n : TenantId) (bad : List (Nat × Nat × Nat)) (s : State), (s.active n = false ∨ (s.tenant n).step.phase ≠ .idle) → Runs (.boundaryWork n bad) s fun t => t = s)

/-- An LDL of 4 bytes or more leaves in DST exactly the bytes of local memory; an STL of one lane writes its bytes and no other of local memory; a local ATOM of one lane stores the operation's value and gives the lane what stood there. An LD, ST or ATOM of tenant memory whose page is not cached starts an access of its lane that waits for the walk of that page; an ST past the near cache to a cached, writable page of the scratchpad window writes its bytes there and no other byte of the window. An LDR or STR of one lane to this device or a LIVE peer that the ward covers starts an access with one request outstanding. A LOAD_RETURN past the near cache puts the bytes in the registers and the access leaves; a TABLE_WALK_END caches the translation, and the access waits for that page no longer. -/
def Obligations.TumblerMemoryComplete : Prop :=
  (∀ (u : TumblerId) (g : SlotId) (w : IWord) (c : Ctx) (s : State), s.issues u g w ({ srcs := [(0, w.sa.toNat, 1)], dst := [(w.dst.toNat, memRegs (memSize w))] }) always c → memLegal w false = true → 4 ≤ memSize w → ((s.localLanes c (memOffset w)).all fun x => localOk c.l (memSize w) x.2.2) = true → w.dst.toNat + memRegs (memSize w) ≤ c.l.regs → Runs (.ldl u g w) s fun t => (∀ m ∈ c.ms, ∀ k ∈ lanesOf m.on, t.wideOf u m.slot c.l.regs w.dst.toNat (memRegs (memSize w)) k = leNat (s.localBytes u m.slot (unsigned 32 ((s.laneOf u m.slot c.l.regs w.sa.toNat k : Int) + memOffset w)) (memSize w))) ∧ (∀ m ∈ c.ms, ∀ i : Nat, t.localBytes u m.slot i 1 = s.localBytes u m.slot i 1)) ∧
  (∀ (u : TumblerId) (g : SlotId) (w : IWord) (c : Ctx) (m : Member) (k : Nat) (s : State), s.issues u g w ({ srcs := [(0, w.sa.toNat, 1), (1, w.sb.toNat, memRegs (memSize w))], dst := [] }) always c → memLegal w false = true → c.ms = [m] → lanesOf m.on = [k] → ((s.localLanes c (memOffset w)).all fun x => localOk c.l (memSize w) x.2.2) = true → (c.ms.all fun m => ((s.group? u m.slot).bind fun x => s.blockOf u x).isSome) = true → Runs (.stl u g w) s fun t => t.localBytes u m.slot (unsigned 32 ((s.laneOf u m.slot c.l.regs w.sa.toNat k : Int) + memOffset w)) (memSize w) = leBytes (memSize w) (s.wideOf u m.slot c.l.regs w.sb.toNat (memRegs (memSize w)) k) ∧ (∀ i : Nat, i < (unsigned 32 ((s.laneOf u m.slot c.l.regs w.sa.toNat k : Int) + memOffset w)) ∨ (unsigned 32 ((s.laneOf u m.slot c.l.regs w.sa.toNat k : Int) + memOffset w)) + memSize w ≤ i → t.localBytes u m.slot i 1 = s.localBytes u m.slot i 1)) ∧
  (∀ (u : TumblerId) (g : SlotId) (w : IWord) (c : Ctx) (m : Member) (k : Nat) (old a b : Nat) (s : State), s.issues u g w (atomForm w) always c → atomLegal w = true → atomSpace w = 1 → c.ms = [m] → lanesOf m.on = [k] → localOk c.l (4 * atomRegs w) (s.wideOf u m.slot c.l.regs w.sa.toNat 2 k) = true → (c.ms.all fun m => ((s.group? u m.slot).bind fun x => s.blockOf u x).isSome) = true → w.dst.toNat + atomRegs w ≤ c.l.regs → leNat (s.localBytes u m.slot (s.wideOf u m.slot c.l.regs w.sa.toNat 2 k) (4 * atomRegs w)) = old → s.wideOf u m.slot c.l.regs w.sb.toNat (atomRegs w) k = a → s.wideOf u m.slot c.l.regs w.sc.toNat (atomRegs w) k = b → Runs (.atom u g w) s fun t => t.wideOf u m.slot c.l.regs w.dst.toNat (atomRegs w) k = old ∧ t.localBytes u m.slot (s.wideOf u m.slot c.l.regs w.sa.toNat 2 k) (4 * atomRegs w) = leBytes (4 * atomRegs w) (atomValue (atomOp w) (atomType w) old a b) ∧ (∀ i : Nat, i < s.wideOf u m.slot c.l.regs w.sa.toNat 2 k ∨ s.wideOf u m.slot c.l.regs w.sa.toNat 2 k + 4 * atomRegs w ≤ i → t.localBytes u m.slot i 1 = s.localBytes u m.slot i 1)) ∧
  (∀ (u : TumblerId) (g : SlotId) (w : IWord) (c : Ctx) (m : Member) (k : Nat) (s : State), s.issues u g w (atomForm w) (fun s c => s.clear c (s.accLanes c 0 (atomRegs w))) c → atomLegal w = true → atomSpace w = 0 → c.ms = [m] → lanesOf m.on = [k] → (unsigned 64 ((s.wideOf u m.slot c.l.regs w.sa.toNat 2 k : Int) + 0)) % (4 * atomRegs w) = 0 → ((s.fetched u g w (atomForm w) c).tlbFind (tumblerUnit u) c.l.tenant (unsigned 64 ((s.wideOf u m.slot c.l.regs w.sa.toNat 2 k : Int) + 0))).isNone = true → Runs (.atom u g w) s fun t => ∃ a ∈ (t.tumbler u).acc, a.id = (s.tumbler u).nextAcc ∧ a.kind = .atomic ∧ a.launch = c.l.id ∧ a.tenant = c.l.tenant ∧ a.size = 4 * atomRegs w ∧ a.dst = w.dst.toNat ∧ a.lanes.map (fun x => (x.slot, x.lane, x.va)) = [(m.slot, k, (unsigned 64 ((s.wideOf u m.slot c.l.regs w.sa.toNat 2 k : Int) + 0)))] ∧ a.walks = [(unsigned 64 ((s.wideOf u m.slot c.l.regs w.sa.toNat 2 k : Int) + 0)) / 2 ^ 21]) ∧
  (∀ (u : TumblerId) (g : SlotId) (w : IWord) (c : Ctx) (m : Member) (k : Nat) (s : State), s.issues u g w ({ srcs := [(0, w.sa.toNat, 2)], dst := [(w.dst.toNat, memRegs (memSize w))] }) (fun s c => s.clear c (s.accLanes c (memOffset w) (memRegs (memSize w)))) c → memLegal w true = true → c.ms = [m] → lanesOf m.on = [k] → (unsigned 64 ((s.wideOf u m.slot c.l.regs w.sa.toNat 2 k : Int) + memOffset w)) % memSize w = 0 → ((s.fetched u g w ({ srcs := [(0, w.sa.toNat, 2)], dst := [(w.dst.toNat, memRegs (memSize w))] }) c).tlbFind (tumblerUnit u) c.l.tenant (unsigned 64 ((s.wideOf u m.slot c.l.regs w.sa.toNat 2 k : Int) + memOffset w))).isNone = true → Runs (.ld u g w) s fun t => ∃ a ∈ (t.tumbler u).acc, a.id = (s.tumbler u).nextAcc ∧ a.kind = .load ∧ a.launch = c.l.id ∧ a.tenant = c.l.tenant ∧ a.size = memSize w ∧ a.dst = w.dst.toNat ∧ a.lanes.map (fun x => (x.slot, x.lane, x.va)) = [(m.slot, k, (unsigned 64 ((s.wideOf u m.slot c.l.regs w.sa.toNat 2 k : Int) + memOffset w)))] ∧ a.walks = [(unsigned 64 ((s.wideOf u m.slot c.l.regs w.sa.toNat 2 k : Int) + memOffset w)) / 2 ^ 21] ∧ a.nc = w.mod.toNat.testBit 3) ∧
  (∀ (u : TumblerId) (g : SlotId) (w : IWord) (c : Ctx) (m : Member) (k : Nat) (s : State), s.issues u g w ({ srcs := [(0, w.sa.toNat, 2), (1, w.sb.toNat, memRegs (memSize w))], dst := [] }) (fun s c => s.clear c (s.accLanes c (memOffset w) (memRegs (memSize w)))) c → memLegal w true = true → c.ms = [m] → lanesOf m.on = [k] → (unsigned 64 ((s.wideOf u m.slot c.l.regs w.sa.toNat 2 k : Int) + memOffset w)) % memSize w = 0 → ((s.fetched u g w ({ srcs := [(0, w.sa.toNat, 2), (1, w.sb.toNat, memRegs (memSize w))], dst := [] }) c).tlbFind (tumblerUnit u) c.l.tenant (unsigned 64 ((s.wideOf u m.slot c.l.regs w.sa.toNat 2 k : Int) + memOffset w))).isNone = true → Runs (.st u g w) s fun t => ∃ a ∈ (t.tumbler u).acc, a.id = (s.tumbler u).nextAcc ∧ a.kind = .store ∧ a.launch = c.l.id ∧ a.tenant = c.l.tenant ∧ a.size = memSize w ∧ a.dst = w.dst.toNat ∧ a.lanes.map (fun x => (x.slot, x.lane, x.va)) = [(m.slot, k, (unsigned 64 ((s.wideOf u m.slot c.l.regs w.sa.toNat 2 k : Int) + memOffset w)))] ∧ a.walks = [(unsigned 64 ((s.wideOf u m.slot c.l.regs w.sa.toNat 2 k : Int) + memOffset w)) / 2 ^ 21] ∧ a.lanes.map (fun x => x.data) = [(s.wideOf u m.slot c.l.regs w.sb.toNat (memRegs (memSize w)) k)]) ∧
  (∀ (u : TumblerId) (g : SlotId) (w : IWord) (c : Ctx) (m : Member) (k : Nat) (e : Tlb) (pa : Nat) (s : State), s.issues u g w ({ srcs := [(0, w.sa.toNat, 2), (1, w.sb.toNat, memRegs (memSize w))], dst := [] }) (fun s c => s.clear c (s.accLanes c (memOffset w) (memRegs (memSize w)))) c → memLegal w true = true → w.mod.toNat.testBit 3 = true → c.ms = [m] → lanesOf m.on = [k] → (unsigned 64 ((s.wideOf u m.slot c.l.regs w.sa.toNat 2 k : Int) + memOffset w)) % memSize w = 0 → (s.fetched u g w ({ srcs := [(0, w.sa.toNat, 2), (1, w.sb.toNat, memRegs (memSize w))], dst := [] }) c).tlbFind (tumblerUnit u) c.l.tenant (unsigned 64 ((s.wideOf u m.slot c.l.regs w.sa.toNat 2 k : Int) + memOffset w)) = some e → (s.fetched u g w ({ srcs := [(0, w.sa.toNat, 2), (1, w.sb.toNat, memRegs (memSize w))], dst := [] }) c).accessFault e (unsigned 64 ((s.wideOf u m.slot c.l.regs w.sa.toNat 2 k : Int) + memOffset w)) true false = .pa pa → inWindow pa = true → s.nearLine u c.l.id (pa / 256) = none → Runs (.st u g w) s fun t => t.read pa (memSize w) = leBytes (memSize w) (s.wideOf u m.slot c.l.regs w.sb.toNat (memRegs (memSize w)) k) ∧ (∀ a : Nat, inWindow a = true → a < pa ∨ pa + memSize w ≤ a → t.read a 1 = s.read a 1)) ∧
  (∀ (u : TumblerId) (g : SlotId) (w : IWord) (c : Ctx) (m : Member) (k : Nat) (d : Nat) (s : State), s.issues u g w ({ srcs := [(0, w.sa.toNat, 2)], dst := [(w.dst.toNat, memRegs (memSize w))] }) (fun s c => s.poolFree u (remoteDrafts (s.remoteAccess c .remote (memSize w) (s.accLanes c 0 (memRegs (memSize w)))) tyRead 0).length) c → remoteLegal w false = true → c.ms = [m] → lanesOf m.on = [k] → (unsigned 64 ((s.wideOf u m.slot c.l.regs w.sa.toNat 2 k : Int) + 0)) % memSize w = 0 → s.has F.fabStatusNodeValid = true → s.wardDomain c.l.tenant (nodeOf (unsigned 64 ((s.wideOf u m.slot c.l.regs w.sa.toNat 2 k : Int) + 0))) (offsetOf (unsigned 64 ((s.wideOf u m.slot c.l.regs w.sa.toNat 2 k : Int) + 0))) (memSize w) tyRead = some d → (nodeOf (unsigned 64 ((s.wideOf u m.slot c.l.regs w.sa.toNat 2 k : Int) + 0)) = s.node ∨ (KMap.find (KMap.get s.fab.cached (engineOf u) []) (nodeOf (unsigned 64 ((s.wideOf u m.slot c.l.regs w.sa.toNat 2 k : Int) + 0)))).map (·.state) = some 0) → Runs (.ldr u g w) s fun t => (∃ a ∈ (t.tumbler u).acc, a.id = (s.tumbler u).nextAcc ∧ a.kind = .remote ∧ a.launch = c.l.id ∧ a.tenant = c.l.tenant ∧ a.size = memSize w ∧ a.dst = w.dst.toNat ∧ a.lanes.map (fun x => (x.slot, x.lane, x.va)) = [(m.slot, k, (unsigned 64 ((s.wideOf u m.slot c.l.regs w.sa.toNat 2 k : Int) + 0)))] ∧ a.left = 1) ∧ (∃ q ∈ t.fab.reqs, q.src = .tumbler u (s.tumbler u).nextAcc [(m.slot, k)] ∧ q.tenant = c.l.tenant ∧ q.engine = engineOf u) ∧ t.fab.reqs.length = s.fab.reqs.length + 1) ∧
  (∀ (u : TumblerId) (g : SlotId) (w : IWord) (c : Ctx) (m : Member) (k : Nat) (d : Nat) (s : State), s.issues u g w ({ srcs := [(0, w.sa.toNat, 2), (1, w.sb.toNat, memRegs (memSize w))], dst := [] }) (fun s c => s.poolFree u (remoteDrafts (s.remoteAccess c .remoteStore (memSize w) (s.accLanes c 0 (memRegs (memSize w)))) tyWrite 0).length) c → remoteLegal w true = true → remoteKind w = 0 → c.ms = [m] → lanesOf m.on = [k] → (unsigned 64 ((s.wideOf u m.slot c.l.regs w.sa.toNat 2 k : Int) + 0)) % memSize w = 0 → s.has F.fabStatusNodeValid = true → s.wardDomain c.l.tenant (nodeOf (unsigned 64 ((s.wideOf u m.slot c.l.regs w.sa.toNat 2 k : Int) + 0))) (offsetOf (unsigned 64 ((s.wideOf u m.slot c.l.regs w.sa.toNat 2 k : Int) + 0))) (memSize w) tyWrite = some d → (nodeOf (unsigned 64 ((s.wideOf u m.slot c.l.regs w.sa.toNat 2 k : Int) + 0)) = s.node ∨ (KMap.find (KMap.get s.fab.cached (engineOf u) []) (nodeOf (unsigned 64 ((s.wideOf u m.slot c.l.regs w.sa.toNat 2 k : Int) + 0)))).map (·.state) = some 0) → Runs (.str u g w) s fun t => (∃ a ∈ (t.tumbler u).acc, a.id = (s.tumbler u).nextAcc ∧ a.kind = .remoteStore ∧ a.launch = c.l.id ∧ a.tenant = c.l.tenant ∧ a.size = memSize w ∧ a.dst = w.dst.toNat ∧ a.lanes.map (fun x => (x.slot, x.lane, x.va)) = [(m.slot, k, (unsigned 64 ((s.wideOf u m.slot c.l.regs w.sa.toNat 2 k : Int) + 0)))] ∧ a.left = 1) ∧ (∃ q ∈ t.fab.reqs, q.src = .tumbler u (s.tumbler u).nextAcc [(m.slot, k)] ∧ q.tenant = c.l.tenant ∧ q.engine = engineOf u) ∧ t.fab.reqs.length = s.fab.reqs.length + 1) ∧
  (∀ (u : TumblerId) (k : Nat) (a : Access) (s : State), (s.tumbler u).acc[k]? = some a → a.kind = .load → a.walks = [] → a.nc = true → a.size ∈ [1, 2, 4, 8, 16] → a.dst + memRegs a.size ≤ s.regLimit a.launch → (a.lanes.map fun x => (x.slot, x.lane)).Nodup → (∀ x ∈ a.lanes, x.lane < 32 ∧ inWindow x.pa = true ∧ x.pa % a.size = 0 ∧ s.poisoned x.pa a.size = false ∧ (s.group? u x.slot).map (·.launch) = some a.launch) → Runs (.loadReturn u k) s fun t => (∀ x ∈ a.lanes, t.wideOf u x.slot (s.regLimit a.launch) a.dst (memRegs a.size) x.lane % 2 ^ (8 * a.size) = leNat (s.read x.pa a.size)) ∧ (∀ y ∈ (t.tumbler u).acc, y.id ≠ a.id) ∧ t.mem.scratch = s.mem.scratch ∧ t.mem.hbm = s.mem.hbm) ∧
  (∀ (k u p : Nat) (a : Access) (e : Tlb) (s : State), s.allWalks[k]? = some (u, a, p) → s.walk a.tenant (p * 2 ^ 21) = .entry e → e.tenant = a.tenant → inRun e.page e.span p = true → a ∈ (s.tumbler u).acc → Runs (.tableWalkEnd k .sound) s fun t => (t.tlbFind (tumblerUnit u) a.tenant (p * 2 ^ 21)).isSome = true ∧ (∀ y ∈ (t.tumbler u).acc, y.id = a.id → p ∉ y.walks) ∧ ((a.walks.filter fun q => q != p) ≠ [] → { a with walks := a.walks.filter fun q => q != p } ∈ (t.tumbler u).acc))

/-- Once the power controller has cut the load, an instruction of every family leaves the state as it is (it issues after the cut, should there be one), and so do the array's commands, which a held array clock also stops, a fetch of submissions, the write of a completion record, a line fill, a write-back, a scrub read and a block of a drain. -/
def Obligations.LoadCut : Prop :=
  (∀ (u : TumblerId) (g : SlotId) (w : IWord) (s : State), s.pwr.cut = true → Runs (.aissue u g w) s fun t => t = s) ∧
  (∀ (u : TumblerId) (g : SlotId) (w : IWord) (s : State), s.pwr.cut = true → Runs (.rissue u g w) s fun t => t = s) ∧
  (∀ (u : TumblerId) (g : SlotId) (w : IWord) (s : State), s.pwr.cut = true → Runs (.iadd u g w) s fun t => t = s) ∧
  (∀ (u : TumblerId) (g : SlotId) (w : IWord) (s : State), s.pwr.cut = true → Runs (.and u g w) s fun t => t = s) ∧
  (∀ (u : TumblerId) (g : SlotId) (w : IWord) (s : State), s.pwr.cut = true → Runs (.icmp u g w) s fun t => t = s) ∧
  (∀ (u : TumblerId) (g : SlotId) (w : IWord) (s : State), s.pwr.cut = true → Runs (.shfl u g w) s fun t => t = s) ∧
  (∀ (u : TumblerId) (g : SlotId) (w : IWord) (s : State), s.pwr.cut = true → Runs (.sreg u g w) s fun t => t = s) ∧
  (∀ (u : TumblerId) (g : SlotId) (w : IWord) (s : State), s.pwr.cut = true → Runs (.movi u g w) s fun t => t = s) ∧
  (∀ (u : TumblerId) (g : SlotId) (w : IWord) (s : State), s.pwr.cut = true → Runs (.fadd u g w) s fun t => t = s) ∧
  (∀ (u : TumblerId) (g : SlotId) (w : IWord) (s : State), s.pwr.cut = true → Runs (.fcmp u g w) s fun t => t = s) ∧
  (∀ (u : TumblerId) (g : SlotId) (w : IWord) (s : State), s.pwr.cut = true → Runs (.fdiv u g w) s fun t => t = s) ∧
  (∀ (u : TumblerId) (g : SlotId) (w : IWord) (s : State), s.pwr.cut = true → Runs (.bra u g w) s fun t => t = s) ∧
  (∀ (u : TumblerId) (g : SlotId) (w : IWord) (s : State), s.pwr.cut = true → Runs (.call u g w) s fun t => t = s) ∧
  (∀ (u : TumblerId) (g : SlotId) (w : IWord) (s : State), s.pwr.cut = true → Runs (.exit u g w) s fun t => t = s) ∧
  (∀ (u : TumblerId) (g : SlotId) (w : IWord) (s : State), s.pwr.cut = true → Runs (.nop u g w) s fun t => t = s) ∧
  (∀ (u : TumblerId) (g : SlotId) (w : IWord) (s : State), s.pwr.cut = true → Runs (.fenceSystem u g w) s fun t => t = s) ∧
  (∀ (u : TumblerId) (g : SlotId) (w : IWord) (s : State), s.pwr.cut = true → Runs (.ldl u g w) s fun t => t = s) ∧
  (∀ (u : TumblerId) (g : SlotId) (w : IWord) (s : State), s.pwr.cut = true → Runs (.stl u g w) s fun t => t = s) ∧
  (∀ (u : TumblerId) (g : SlotId) (w : IWord) (s : State), s.pwr.cut = true → Runs (.ld u g w) s fun t => t = s) ∧
  (∀ (u : TumblerId) (g : SlotId) (w : IWord) (s : State), s.pwr.cut = true → Runs (.st u g w) s fun t => t = s) ∧
  (∀ (u : TumblerId) (g : SlotId) (w : IWord) (s : State), s.pwr.cut = true → Runs (.ldr u g w) s fun t => t = s) ∧
  (∀ (u : TumblerId) (g : SlotId) (w : IWord) (s : State), s.pwr.cut = true → Runs (.str u g w) s fun t => t = s) ∧
  (∀ (u : TumblerId) (g : SlotId) (w : IWord) (s : State), s.pwr.cut = true → Runs (.twait u g w) s fun t => t = s) ∧
  (∀ (u : TumblerId) (g : SlotId) (w : IWord) (s : State), s.pwr.cut = true → Runs (.cvt u g w) s fun t => t = s) ∧
  (∀ (u : TumblerId) (g : SlotId) (w : IWord) (s : State), s.pwr.cut = true → Runs (.qblk u g w) s fun t => t = s) ∧
  (∀ (u : TumblerId) (g : SlotId) (w : IWord) (s : State), s.pwr.cut = true → Runs (.rand u g w) s fun t => t = s) ∧
  (∀ (u : TumblerId) (g : SlotId) (w : IWord) (s : State), s.pwr.cut = true → Runs (.atom u g w) s fun t => t = s) ∧
  (∀ (u : TumblerId) (g : SlotId) (w : IWord) (s : State), s.pwr.cut = true → Runs (.barg u g w) s fun t => t = s) ∧
  (∀ (u : TumblerId) (g : SlotId) (w : IWord) (s : State), s.pwr.cut = true → Runs (.barm u g w) s fun t => t = s) ∧
  (∀ (u : TumblerId) (g : SlotId) (w : IWord) (s : State), s.pwr.cut = true → Runs (.barb u g w) s fun t => t = s) ∧
  (∀ (u : TumblerId) (g : SlotId) (w : IWord) (s : State), s.pwr.cut = true → Runs (.spoison u g w) s fun t => t = s) ∧
  (∀ (s : State), s.arrayStops = true → Runs (.arrayDescriptorAccept) s fun t => t = s) ∧
  (∀ (s : State), s.arrayStops = true → Runs (.operationStart) s fun t => t = s) ∧
  (∀ (s : State), s.arrayStops = true → Runs (.chainFillEnd) s fun t => t = s) ∧
  (∀ (s : State), s.arrayStops = true → Runs (.arrayOperandArrival) s fun t => t = s) ∧
  (∀ (s : State), s.arrayStops = true → Runs (.cellTailEnd) s fun t => t = s) ∧
  (∀ (s : State), s.arrayStops = true → Runs (.drainStart) s fun t => t = s) ∧
  (∀ (s : State), s.arrayStops = true → Runs (.drainEnd) s fun t => t = s) ∧
  (∀ (s : State), s.arrayStops = true → Runs (.chainWaitExpiry) s fun t => t = s) ∧
  (∀ (s : State), s.arrayStops = true → Runs (.chainSpillEnd) s fun t => t = s) ∧
  (∀ (s : State), s.arrayStops = true → Runs (.samplePoint) s fun t => t = s) ∧
  (∀ (s : State), s.arrayStops = true → Runs (.sampleFinish) s fun t => t = s) ∧
  (∀ (q : RingSel) (es : List (List Byte)) (ok : Bool) (s : State), s.pwr.cut = true → Runs (.sqFetchEnd q es ok) s fun t => t = s) ∧
  (∀ (q : RingSel) (ok : Bool) (s : State), s.pwr.cut = true → Runs (.completionRecordWrite q ok) s fun t => t = s) ∧
  (∀ (q : QuadId) (k : Nat) (f : List Finding) (gs : List (List Byte)) (s : State), s.pwr.cut = true → Runs (.lineFillEnd q k f gs) s fun t => t = s) ∧
  (∀ (q : QuadId) (k : Nat) (f : List Finding) (gs : List (List Byte)) (s : State), s.pwr.cut = true → Runs (.writebackAccepted q k f gs) s fun t => t = s) ∧
  (∀ (g : Nat) (f : Finding) (gs : List (List Byte)) (s : State), s.pwr.cut = true → Runs (.hbmScrubRead g f gs) s fun t => t = s) ∧
  (∀ (n : TenantId) (l : Fin 3) (z : Option (List Byte)) (ok : Bool) (s : State), s.pwr.cut = true → Runs (.drainBlockEnd n l z ok) s fun t => t = s)
end

