-- ==== Sys2Proof/Laws/KMap.lean ====
section
/-! SUPPORT. Sparse data by key: what the operations read back, and that they keep the canonical form. -/

namespace Sys2Proof.Machine

variable {α : Type}

theorem KMap.find_put_same (m : KMap α) (i : Nat) (v : α) : KMap.find (KMap.put m i v) i = some v := by
  induction m with
  | nil => simp [KMap.put, KMap.find]
  | cons x m ih =>
    obtain ⟨k, w⟩ := x
    simp only [KMap.put]
    split
    · simp [KMap.find]
    · split
      · simp [KMap.find]
      · rename_i h
        simp [KMap.find, Ne.symm h, ih]

theorem KMap.find_put_ne (m : KMap α) {i j : Nat} (v : α) (h : j ≠ i) :
    KMap.find (KMap.put m i v) j = KMap.find m j := by
  induction m with
  | nil => simp [KMap.put, KMap.find, Ne.symm h]
  | cons x m ih =>
    obtain ⟨k, w⟩ := x
    simp only [KMap.put]
    split
    · simp [KMap.find, Ne.symm h]
    · split
      · rename_i e
        subst e
        simp [KMap.find, Ne.symm h]
      · simp [KMap.find, ih]

theorem KMap.risingFrom_mono {j k : Nat} (h : j ≤ k) : ∀ {m : KMap α}, KMap.risingFrom k m = true → KMap.risingFrom j m = true
  | [], _ => rfl
  | (_, _) :: _, hm => by
    simp only [KMap.risingFrom, Bool.and_eq_true, decide_eq_true_eq] at hm ⊢
    exact ⟨by omega, hm.2⟩

theorem KMap.find_risingFrom {k : Nat} : ∀ {m : KMap α} {i : Nat}, KMap.risingFrom k m = true → i ≤ k → KMap.find m i = none
  | [], _, _, _ => rfl
  | (j, _) :: m, i, hm, hi => by
    simp only [KMap.risingFrom, Bool.and_eq_true, decide_eq_true_eq] at hm
    have hj : j ≠ i := by omega
    simp only [KMap.find, hj, if_false]
    exact KMap.find_risingFrom hm.2 (by omega)

theorem KMap.risingFrom_put {k : Nat} : ∀ {m : KMap α} {i : Nat} {v : α}, KMap.risingFrom k m = true → k < i →
    KMap.risingFrom k (KMap.put m i v) = true
  | [], _, _, _, hi => by simp [KMap.put, KMap.risingFrom, hi]
  | (j, w) :: m, i, v, hm, hi => by
    simp only [KMap.risingFrom, Bool.and_eq_true, decide_eq_true_eq] at hm
    simp only [KMap.put]
    split
    · rename_i h
      simp [KMap.risingFrom, hi, h, hm.2]
    · split
      · rename_i h
        subst h
        simp [KMap.risingFrom, hm.1, hm.2]
      · simp only [KMap.risingFrom, Bool.and_eq_true, decide_eq_true_eq]
        exact ⟨hm.1, KMap.risingFrom_put hm.2 (by omega)⟩

theorem KMap.risingFrom_filter (q : Nat × α → Bool) {k : Nat} : ∀ {m : KMap α}, KMap.risingFrom k m = true →
    KMap.risingFrom k (m.filter q) = true
  | [], _ => rfl
  | (j, w) :: m, hm => by
    simp only [KMap.risingFrom, Bool.and_eq_true, decide_eq_true_eq] at hm
    simp only [List.filter_cons]
    split
    · simp only [KMap.risingFrom, Bool.and_eq_true, decide_eq_true_eq]
      exact ⟨hm.1, KMap.risingFrom_filter q hm.2⟩
    · exact KMap.risingFrom_mono (by omega) (KMap.risingFrom_filter q hm.2)

theorem KMap.rising_of_from {k : Nat} : ∀ {m : KMap α}, KMap.risingFrom k m = true → KMap.rising m = true
  | [], _ => rfl
  | (_, _) :: _, hm => by
    simp only [KMap.risingFrom, Bool.and_eq_true] at hm
    exact hm.2

theorem KMap.rising_put {m : KMap α} (i : Nat) (v : α) (hm : KMap.rising m = true) : KMap.rising (KMap.put m i v) = true := by
  match m, hm with
  | [], _ => rfl
  | (j, w) :: m, hm =>
    simp only [KMap.rising] at hm
    simp only [KMap.put]
    split
    · rename_i h
      simp [KMap.rising, KMap.risingFrom, h, hm]
    · split
      · rename_i h
        subst h
        exact hm
      · exact KMap.risingFrom_put hm (by omega)

theorem KMap.rising_filter {m : KMap α} (q : Nat × α → Bool) (hm : KMap.rising m = true) : KMap.rising (m.filter q) = true := by
  match m, hm with
  | [], _ => rfl
  | (j, w) :: m, hm =>
    simp only [KMap.rising] at hm
    simp only [List.filter_cons]
    split
    · exact KMap.risingFrom_filter q hm
    · exact KMap.rising_of_from (KMap.risingFrom_filter q hm)

theorem KMap.rising_del {m : KMap α} (i : Nat) (hm : KMap.rising m = true) : KMap.rising (KMap.del m i) = true :=
  KMap.rising_filter _ hm

theorem KMap.find_del_ne (m : KMap α) {i j : Nat} (h : j ≠ i) : KMap.find (KMap.del m i) j = KMap.find m j := by
  induction m with
  | nil => rfl
  | cons x m ih =>
    obtain ⟨k, w⟩ := x
    unfold KMap.del at ih ⊢
    simp only [List.filter_cons]
    by_cases e : k = i
    · subst e
      simp [KMap.find, Ne.symm h, ih]
    · simp [KMap.find, e, ih]

theorem KMap.find_del_same (m : KMap α) (i : Nat) : KMap.find (KMap.del m i) i = none := by
  induction m with
  | nil => rfl
  | cons x m ih =>
    obtain ⟨k, w⟩ := x
    unfold KMap.del at ih ⊢
    simp only [List.filter_cons]
    by_cases e : k = i
    · simp [e, ih]
    · simp [KMap.find, e, ih]

section canonical
variable [DecidableEq α]

theorem KMap.noDefault_put {m : KMap α} {d v : α} (i : Nat) (hv : v ≠ d) (hm : KMap.noDefault m d = true) :
    KMap.noDefault (KMap.put m i v) d = true := by
  induction m with
  | nil => simp [KMap.put, KMap.noDefault, hv]
  | cons x m ih =>
    obtain ⟨k, w⟩ := x
    simp only [KMap.noDefault, List.all_cons, Bool.and_eq_true] at hm
    simp only [KMap.put]
    split
    · simpa [KMap.noDefault, hv] using hm
    · split
      · simpa [KMap.noDefault, hv] using hm.2
      · have := ih hm.2
        simp only [KMap.noDefault, List.all_cons, Bool.and_eq_true]
        exact ⟨hm.1, this⟩

theorem KMap.noDefault_filter {m : KMap α} {d : α} (q : Nat × α → Bool) (hm : KMap.noDefault m d = true) :
    KMap.noDefault (m.filter q) d = true := by
  simp only [KMap.noDefault, List.all_eq_true] at hm ⊢
  exact fun x hx => hm x (List.mem_filter.1 hx).1

theorem KMap.noDefault_del {m : KMap α} {d : α} (i : Nat) (hm : KMap.noDefault m d = true) :
    KMap.noDefault (KMap.del m i) d = true := KMap.noDefault_filter _ hm

theorem KMap.rising_set {m : KMap α} (i : Nat) (v d : α) (hm : KMap.rising m = true) : KMap.rising (KMap.set m i v d) = true := by
  unfold KMap.set
  split
  · exact KMap.rising_del i hm
  · exact KMap.rising_put i v hm

theorem KMap.noDefault_set {m : KMap α} {d : α} (i : Nat) (v : α) (hm : KMap.noDefault m d = true) :
    KMap.noDefault (KMap.set m i v d) d = true := by
  unfold KMap.set
  split
  · exact KMap.noDefault_del i hm
  · exact KMap.noDefault_put i ‹_› hm

/-- What a written key reads as. -/
theorem KMap.get_set_same (m : KMap α) (i : Nat) (v d : α) : KMap.get (KMap.set m i v d) i d = v := by
  unfold KMap.set KMap.get
  split
  · rename_i e
    subst e
    simp [KMap.find_del_same]
  · simp [KMap.find_put_same]

/-- Every other key reads as before. -/
theorem KMap.get_set_ne (m : KMap α) {i j : Nat} (v d e : α) (h : j ≠ i) : KMap.get (KMap.set m i v d) j e = KMap.get m j e := by
  unfold KMap.set KMap.get
  split
  · rw [KMap.find_del_ne m h]
  · rw [KMap.find_put_ne m v h]

end canonical

theorem KMap.get_put_same (m : KMap α) (i : Nat) (v d : α) : KMap.get (KMap.put m i v) i d = v := by
  simp [KMap.get, KMap.find_put_same]

theorem KMap.get_put_ne (m : KMap α) {i j : Nat} (v d : α) (h : j ≠ i) : KMap.get (KMap.put m i v) j d = KMap.get m j d := by
  simp [KMap.get, KMap.find_put_ne m v h]

end Sys2Proof.Machine
end

