-- ==== Sys2Proof/Laws/State.lean ====
section
/-! SUPPORT. The state's fields after each update: what the update does not name stands. -/

namespace Sys2Proof.Machine

variable (s : State)

@[simp] theorem State.setReg_pending (r : Reg) (v : DWord) : (s.setReg r v).pending = s.pending := rfl
@[simp] theorem State.setReg_out (r : Reg) (v : DWord) : (s.setReg r v).out = s.out := rfl
@[simp] theorem State.setReg_free (r : Reg) (v : DWord) : (s.setReg r v).free = s.free := rfl
@[simp] theorem State.setReg_resp (r : Reg) (v : DWord) : (s.setReg r v).resp = s.resp := rfl
@[simp] theorem State.setReg_latches (r : Reg) (v : DWord) : (s.setReg r v).latches = s.latches := rfl
@[simp] theorem State.setReg_lowHeld (r : Reg) (v : DWord) : (s.setReg r v).lowHeld = s.lowHeld := rfl
@[simp] theorem State.setReg_tree (r : Reg) (v : DWord) : (s.setReg r v).tree = s.tree := rfl
@[simp] theorem State.setReg_counts (r : Reg) (v : DWord) : (s.setReg r v).counts = s.counts := rfl
@[simp] theorem State.setReg_clk (r : Reg) (v : DWord) : (s.setReg r v).clk = s.clk := rfl
@[simp] theorem State.setReg_icu (r : Reg) (v : DWord) : (s.setReg r v).icu = s.icu := rfl
@[simp] theorem State.setReg_chk (r : Reg) (v : DWord) : (s.setReg r v).chk = s.chk := rfl
@[simp] theorem State.setReg_hif (r : Reg) (v : DWord) : (s.setReg r v).hif = s.hif := rfl
@[simp] theorem State.setReg_pwr (r : Reg) (v : DWord) : (s.setReg r v).pwr = s.pwr := rfl
@[simp] theorem State.setReg_mem (r : Reg) (v : DWord) : (s.setReg r v).mem = s.mem := rfl
@[simp] theorem State.setReg_flash (r : Reg) (v : DWord) : (s.setReg r v).flash = s.flash := rfl
@[simp] theorem State.setReg_journal (r : Reg) (v : DWord) : (s.setReg r v).journal = s.journal := rfl
@[simp] theorem State.setReg_health (r : Reg) (v : DWord) : (s.setReg r v).health = s.health := rfl
@[simp] theorem State.setReg_sec (r : Reg) (v : DWord) : (s.setReg r v).sec = s.sec := rfl
@[simp] theorem State.setReg_keeper (r : Reg) (v : DWord) : (s.setReg r v).keeper = s.keeper := rfl
@[simp] theorem State.setReg_cnt (r : Reg) (v : DWord) : (s.setReg r v).cnt = s.cnt := rfl
@[simp] theorem State.setReg_side (r : Reg) (v : DWord) : (s.setReg r v).side = s.side := rfl
@[simp] theorem State.setReg_agm (r : Reg) (v : DWord) : (s.setReg r v).agm = s.agm := rfl
@[simp] theorem State.setReg_arr (r : Reg) (v : DWord) : (s.setReg r v).arr = s.arr := rfl
@[simp] theorem State.setReg_spn (r : Reg) (v : DWord) : (s.setReg r v).spn = s.spn := rfl
@[simp] theorem State.setReg_tum (r : Reg) (v : DWord) : (s.setReg r v).tum = s.tum := rfl
@[simp] theorem State.setReg_launches (r : Reg) (v : DWord) : (s.setReg r v).launches = s.launches := rfl
@[simp] theorem State.setReg_nextLaunch (r : Reg) (v : DWord) : (s.setReg r v).nextLaunch = s.nextLaunch := rfl
@[simp] theorem State.setReg_fab (r : Reg) (v : DWord) : (s.setReg r v).fab = s.fab := rfl
@[simp] theorem State.setReg_syn (r : Reg) (v : DWord) : (s.setReg r v).syn = s.syn := rfl
@[simp] theorem State.setReg_waits (r : Reg) (v : DWord) : (s.setReg r v).waits = s.waits := rfl
@[simp] theorem State.setReg_amax (r : Reg) (v : DWord) : (s.setReg r v).amax = s.amax := rfl
@[simp] theorem State.setReg_poison (r : Reg) (v : DWord) : (s.setReg r v).poison = s.poison := rfl
@[simp] theorem State.setReg_frozen (r : Reg) (v : DWord) : (s.setReg r v).frozen = s.frozen := rfl
@[simp] theorem State.setReg_ten (r : Reg) (v : DWord) : (s.setReg r v).ten = s.ten := rfl

@[simp] theorem State.wr_pending (f : Field) (v : Nat) : (s.wr f v).pending = s.pending := rfl
@[simp] theorem State.wr_out (f : Field) (v : Nat) : (s.wr f v).out = s.out := rfl
@[simp] theorem State.wr_free (f : Field) (v : Nat) : (s.wr f v).free = s.free := rfl
@[simp] theorem State.wr_resp (f : Field) (v : Nat) : (s.wr f v).resp = s.resp := rfl
@[simp] theorem State.wr_latches (f : Field) (v : Nat) : (s.wr f v).latches = s.latches := rfl
@[simp] theorem State.wr_lowHeld (f : Field) (v : Nat) : (s.wr f v).lowHeld = s.lowHeld := rfl
@[simp] theorem State.wr_tree (f : Field) (v : Nat) : (s.wr f v).tree = s.tree := rfl
@[simp] theorem State.wr_counts (f : Field) (v : Nat) : (s.wr f v).counts = s.counts := rfl
@[simp] theorem State.wr_clk (f : Field) (v : Nat) : (s.wr f v).clk = s.clk := rfl
@[simp] theorem State.wr_icu (f : Field) (v : Nat) : (s.wr f v).icu = s.icu := rfl
@[simp] theorem State.wr_chk (f : Field) (v : Nat) : (s.wr f v).chk = s.chk := rfl
@[simp] theorem State.wr_hif (f : Field) (v : Nat) : (s.wr f v).hif = s.hif := rfl
@[simp] theorem State.wr_pwr (f : Field) (v : Nat) : (s.wr f v).pwr = s.pwr := rfl
@[simp] theorem State.wr_mem (f : Field) (v : Nat) : (s.wr f v).mem = s.mem := rfl
@[simp] theorem State.wr_flash (f : Field) (v : Nat) : (s.wr f v).flash = s.flash := rfl
@[simp] theorem State.wr_journal (f : Field) (v : Nat) : (s.wr f v).journal = s.journal := rfl
@[simp] theorem State.wr_health (f : Field) (v : Nat) : (s.wr f v).health = s.health := rfl
@[simp] theorem State.wr_sec (f : Field) (v : Nat) : (s.wr f v).sec = s.sec := rfl
@[simp] theorem State.wr_keeper (f : Field) (v : Nat) : (s.wr f v).keeper = s.keeper := rfl
@[simp] theorem State.wr_cnt (f : Field) (v : Nat) : (s.wr f v).cnt = s.cnt := rfl
@[simp] theorem State.wr_side (f : Field) (v : Nat) : (s.wr f v).side = s.side := rfl
@[simp] theorem State.wr_agm (f : Field) (v : Nat) : (s.wr f v).agm = s.agm := rfl
@[simp] theorem State.wr_arr (f : Field) (v : Nat) : (s.wr f v).arr = s.arr := rfl
@[simp] theorem State.wr_spn (f : Field) (v : Nat) : (s.wr f v).spn = s.spn := rfl
@[simp] theorem State.wr_tum (f : Field) (v : Nat) : (s.wr f v).tum = s.tum := rfl
@[simp] theorem State.wr_launches (f : Field) (v : Nat) : (s.wr f v).launches = s.launches := rfl
@[simp] theorem State.wr_nextLaunch (f : Field) (v : Nat) : (s.wr f v).nextLaunch = s.nextLaunch := rfl
@[simp] theorem State.wr_fab (f : Field) (v : Nat) : (s.wr f v).fab = s.fab := rfl
@[simp] theorem State.wr_syn (f : Field) (v : Nat) : (s.wr f v).syn = s.syn := rfl
@[simp] theorem State.wr_waits (f : Field) (v : Nat) : (s.wr f v).waits = s.waits := rfl
@[simp] theorem State.wr_amax (f : Field) (v : Nat) : (s.wr f v).amax = s.amax := rfl
@[simp] theorem State.wr_poison (f : Field) (v : Nat) : (s.wr f v).poison = s.poison := rfl
@[simp] theorem State.wr_frozen (f : Field) (v : Nat) : (s.wr f v).frozen = s.frozen := rfl
@[simp] theorem State.wr_ten (f : Field) (v : Nat) : (s.wr f v).ten = s.ten := rfl

@[simp] theorem State.emit_pending (x : Output) : (s.emit x).pending = s.pending := rfl
@[simp] theorem State.emit_free (x : Output) : (s.emit x).free = s.free := rfl
@[simp] theorem State.emit_resp (x : Output) : (s.emit x).resp = s.resp := rfl
@[simp] theorem State.emit_regs (x : Output) : (s.emit x).regs = s.regs := rfl
@[simp] theorem State.emit_latches (x : Output) : (s.emit x).latches = s.latches := rfl
@[simp] theorem State.emit_lowHeld (x : Output) : (s.emit x).lowHeld = s.lowHeld := rfl
@[simp] theorem State.emit_tree (x : Output) : (s.emit x).tree = s.tree := rfl
@[simp] theorem State.emit_counts (x : Output) : (s.emit x).counts = s.counts := rfl
@[simp] theorem State.emit_clk (x : Output) : (s.emit x).clk = s.clk := rfl
@[simp] theorem State.emit_icu (x : Output) : (s.emit x).icu = s.icu := rfl
@[simp] theorem State.emit_chk (x : Output) : (s.emit x).chk = s.chk := rfl
@[simp] theorem State.emit_hif (x : Output) : (s.emit x).hif = s.hif := rfl
@[simp] theorem State.emit_pwr (x : Output) : (s.emit x).pwr = s.pwr := rfl
@[simp] theorem State.emit_mem (x : Output) : (s.emit x).mem = s.mem := rfl
@[simp] theorem State.emit_flash (x : Output) : (s.emit x).flash = s.flash := rfl
@[simp] theorem State.emit_journal (x : Output) : (s.emit x).journal = s.journal := rfl
@[simp] theorem State.emit_health (x : Output) : (s.emit x).health = s.health := rfl
@[simp] theorem State.emit_sec (x : Output) : (s.emit x).sec = s.sec := rfl
@[simp] theorem State.emit_keeper (x : Output) : (s.emit x).keeper = s.keeper := rfl
@[simp] theorem State.emit_cnt (x : Output) : (s.emit x).cnt = s.cnt := rfl
@[simp] theorem State.emit_side (x : Output) : (s.emit x).side = s.side := rfl
@[simp] theorem State.emit_agm (x : Output) : (s.emit x).agm = s.agm := rfl
@[simp] theorem State.emit_arr (x : Output) : (s.emit x).arr = s.arr := rfl
@[simp] theorem State.emit_spn (x : Output) : (s.emit x).spn = s.spn := rfl
@[simp] theorem State.emit_tum (x : Output) : (s.emit x).tum = s.tum := rfl
@[simp] theorem State.emit_launches (x : Output) : (s.emit x).launches = s.launches := rfl
@[simp] theorem State.emit_nextLaunch (x : Output) : (s.emit x).nextLaunch = s.nextLaunch := rfl
@[simp] theorem State.emit_fab (x : Output) : (s.emit x).fab = s.fab := rfl
@[simp] theorem State.emit_syn (x : Output) : (s.emit x).syn = s.syn := rfl
@[simp] theorem State.emit_waits (x : Output) : (s.emit x).waits = s.waits := rfl
@[simp] theorem State.emit_amax (x : Output) : (s.emit x).amax = s.amax := rfl
@[simp] theorem State.emit_poison (x : Output) : (s.emit x).poison = s.poison := rfl
@[simp] theorem State.emit_frozen (x : Output) : (s.emit x).frozen = s.frozen := rfl
@[simp] theorem State.emit_ten (x : Output) : (s.emit x).ten = s.ten := rfl

@[simp] theorem State.emits_pending (xs : List Output) : (s.emits xs).pending = s.pending := rfl
@[simp] theorem State.emits_free (xs : List Output) : (s.emits xs).free = s.free := rfl
@[simp] theorem State.emits_resp (xs : List Output) : (s.emits xs).resp = s.resp := rfl
@[simp] theorem State.emits_regs (xs : List Output) : (s.emits xs).regs = s.regs := rfl
@[simp] theorem State.emits_latches (xs : List Output) : (s.emits xs).latches = s.latches := rfl
@[simp] theorem State.emits_lowHeld (xs : List Output) : (s.emits xs).lowHeld = s.lowHeld := rfl
@[simp] theorem State.emits_tree (xs : List Output) : (s.emits xs).tree = s.tree := rfl
@[simp] theorem State.emits_counts (xs : List Output) : (s.emits xs).counts = s.counts := rfl
@[simp] theorem State.emits_clk (xs : List Output) : (s.emits xs).clk = s.clk := rfl
@[simp] theorem State.emits_icu (xs : List Output) : (s.emits xs).icu = s.icu := rfl
@[simp] theorem State.emits_chk (xs : List Output) : (s.emits xs).chk = s.chk := rfl
@[simp] theorem State.emits_hif (xs : List Output) : (s.emits xs).hif = s.hif := rfl
@[simp] theorem State.emits_pwr (xs : List Output) : (s.emits xs).pwr = s.pwr := rfl
@[simp] theorem State.emits_mem (xs : List Output) : (s.emits xs).mem = s.mem := rfl
@[simp] theorem State.emits_flash (xs : List Output) : (s.emits xs).flash = s.flash := rfl
@[simp] theorem State.emits_journal (xs : List Output) : (s.emits xs).journal = s.journal := rfl
@[simp] theorem State.emits_health (xs : List Output) : (s.emits xs).health = s.health := rfl
@[simp] theorem State.emits_sec (xs : List Output) : (s.emits xs).sec = s.sec := rfl
@[simp] theorem State.emits_keeper (xs : List Output) : (s.emits xs).keeper = s.keeper := rfl
@[simp] theorem State.emits_cnt (xs : List Output) : (s.emits xs).cnt = s.cnt := rfl
@[simp] theorem State.emits_side (xs : List Output) : (s.emits xs).side = s.side := rfl
@[simp] theorem State.emits_agm (xs : List Output) : (s.emits xs).agm = s.agm := rfl
@[simp] theorem State.emits_arr (xs : List Output) : (s.emits xs).arr = s.arr := rfl
@[simp] theorem State.emits_spn (xs : List Output) : (s.emits xs).spn = s.spn := rfl
@[simp] theorem State.emits_tum (xs : List Output) : (s.emits xs).tum = s.tum := rfl
@[simp] theorem State.emits_launches (xs : List Output) : (s.emits xs).launches = s.launches := rfl
@[simp] theorem State.emits_nextLaunch (xs : List Output) : (s.emits xs).nextLaunch = s.nextLaunch := rfl
@[simp] theorem State.emits_fab (xs : List Output) : (s.emits xs).fab = s.fab := rfl
@[simp] theorem State.emits_syn (xs : List Output) : (s.emits xs).syn = s.syn := rfl
@[simp] theorem State.emits_waits (xs : List Output) : (s.emits xs).waits = s.waits := rfl
@[simp] theorem State.emits_amax (xs : List Output) : (s.emits xs).amax = s.amax := rfl
@[simp] theorem State.emits_poison (xs : List Output) : (s.emits xs).poison = s.poison := rfl
@[simp] theorem State.emits_frozen (xs : List Output) : (s.emits xs).frozen = s.frozen := rfl
@[simp] theorem State.emits_ten (xs : List Output) : (s.emits xs).ten = s.ten := rfl

@[simp] theorem State.event_pending (c : Nat) (d : Dest) (as : List Nat) : (s.event c d as).pending = s.pending := rfl
@[simp] theorem State.event_free (c : Nat) (d : Dest) (as : List Nat) : (s.event c d as).free = s.free := rfl
@[simp] theorem State.event_resp (c : Nat) (d : Dest) (as : List Nat) : (s.event c d as).resp = s.resp := rfl
@[simp] theorem State.event_regs (c : Nat) (d : Dest) (as : List Nat) : (s.event c d as).regs = s.regs := rfl
@[simp] theorem State.event_latches (c : Nat) (d : Dest) (as : List Nat) : (s.event c d as).latches = s.latches := rfl
@[simp] theorem State.event_lowHeld (c : Nat) (d : Dest) (as : List Nat) : (s.event c d as).lowHeld = s.lowHeld := rfl
@[simp] theorem State.event_tree (c : Nat) (d : Dest) (as : List Nat) : (s.event c d as).tree = s.tree := rfl
@[simp] theorem State.event_counts (c : Nat) (d : Dest) (as : List Nat) : (s.event c d as).counts = s.counts := rfl
@[simp] theorem State.event_clk (c : Nat) (d : Dest) (as : List Nat) : (s.event c d as).clk = s.clk := rfl
@[simp] theorem State.event_icu (c : Nat) (d : Dest) (as : List Nat) : (s.event c d as).icu = s.icu := rfl
@[simp] theorem State.event_chk (c : Nat) (d : Dest) (as : List Nat) : (s.event c d as).chk = s.chk := rfl
@[simp] theorem State.event_hif (c : Nat) (d : Dest) (as : List Nat) : (s.event c d as).hif = s.hif := rfl
@[simp] theorem State.event_pwr (c : Nat) (d : Dest) (as : List Nat) : (s.event c d as).pwr = s.pwr := rfl
@[simp] theorem State.event_mem (c : Nat) (d : Dest) (as : List Nat) : (s.event c d as).mem = s.mem := rfl
@[simp] theorem State.event_flash (c : Nat) (d : Dest) (as : List Nat) : (s.event c d as).flash = s.flash := rfl
@[simp] theorem State.event_journal (c : Nat) (d : Dest) (as : List Nat) : (s.event c d as).journal = s.journal := rfl
@[simp] theorem State.event_health (c : Nat) (d : Dest) (as : List Nat) : (s.event c d as).health = s.health := rfl
@[simp] theorem State.event_sec (c : Nat) (d : Dest) (as : List Nat) : (s.event c d as).sec = s.sec := rfl
@[simp] theorem State.event_keeper (c : Nat) (d : Dest) (as : List Nat) : (s.event c d as).keeper = s.keeper := rfl
@[simp] theorem State.event_cnt (c : Nat) (d : Dest) (as : List Nat) : (s.event c d as).cnt = s.cnt := rfl
@[simp] theorem State.event_side (c : Nat) (d : Dest) (as : List Nat) : (s.event c d as).side = s.side := rfl
@[simp] theorem State.event_agm (c : Nat) (d : Dest) (as : List Nat) : (s.event c d as).agm = s.agm := rfl
@[simp] theorem State.event_arr (c : Nat) (d : Dest) (as : List Nat) : (s.event c d as).arr = s.arr := rfl
@[simp] theorem State.event_spn (c : Nat) (d : Dest) (as : List Nat) : (s.event c d as).spn = s.spn := rfl
@[simp] theorem State.event_tum (c : Nat) (d : Dest) (as : List Nat) : (s.event c d as).tum = s.tum := rfl
@[simp] theorem State.event_launches (c : Nat) (d : Dest) (as : List Nat) : (s.event c d as).launches = s.launches := rfl
@[simp] theorem State.event_nextLaunch (c : Nat) (d : Dest) (as : List Nat) : (s.event c d as).nextLaunch = s.nextLaunch := rfl
@[simp] theorem State.event_fab (c : Nat) (d : Dest) (as : List Nat) : (s.event c d as).fab = s.fab := rfl
@[simp] theorem State.event_syn (c : Nat) (d : Dest) (as : List Nat) : (s.event c d as).syn = s.syn := rfl
@[simp] theorem State.event_waits (c : Nat) (d : Dest) (as : List Nat) : (s.event c d as).waits = s.waits := rfl
@[simp] theorem State.event_amax (c : Nat) (d : Dest) (as : List Nat) : (s.event c d as).amax = s.amax := rfl
@[simp] theorem State.event_poison (c : Nat) (d : Dest) (as : List Nat) : (s.event c d as).poison = s.poison := rfl
@[simp] theorem State.event_frozen (c : Nat) (d : Dest) (as : List Nat) : (s.event c d as).frozen = s.frozen := rfl
@[simp] theorem State.event_ten (c : Nat) (d : Dest) (as : List Nat) : (s.event c d as).ten = s.ten := rfl

@[simp] theorem State.drawn_pending : (s.drawn).pending = s.pending := rfl
@[simp] theorem State.drawn_out : (s.drawn).out = s.out := rfl
@[simp] theorem State.drawn_resp : (s.drawn).resp = s.resp := rfl
@[simp] theorem State.drawn_regs : (s.drawn).regs = s.regs := rfl
@[simp] theorem State.drawn_latches : (s.drawn).latches = s.latches := rfl
@[simp] theorem State.drawn_lowHeld : (s.drawn).lowHeld = s.lowHeld := rfl
@[simp] theorem State.drawn_tree : (s.drawn).tree = s.tree := rfl
@[simp] theorem State.drawn_counts : (s.drawn).counts = s.counts := rfl
@[simp] theorem State.drawn_clk : (s.drawn).clk = s.clk := rfl
@[simp] theorem State.drawn_icu : (s.drawn).icu = s.icu := rfl
@[simp] theorem State.drawn_chk : (s.drawn).chk = s.chk := rfl
@[simp] theorem State.drawn_hif : (s.drawn).hif = s.hif := rfl
@[simp] theorem State.drawn_pwr : (s.drawn).pwr = s.pwr := rfl
@[simp] theorem State.drawn_mem : (s.drawn).mem = s.mem := rfl
@[simp] theorem State.drawn_flash : (s.drawn).flash = s.flash := rfl
@[simp] theorem State.drawn_journal : (s.drawn).journal = s.journal := rfl
@[simp] theorem State.drawn_health : (s.drawn).health = s.health := rfl
@[simp] theorem State.drawn_sec : (s.drawn).sec = s.sec := rfl
@[simp] theorem State.drawn_keeper : (s.drawn).keeper = s.keeper := rfl
@[simp] theorem State.drawn_cnt : (s.drawn).cnt = s.cnt := rfl
@[simp] theorem State.drawn_side : (s.drawn).side = s.side := rfl
@[simp] theorem State.drawn_agm : (s.drawn).agm = s.agm := rfl
@[simp] theorem State.drawn_arr : (s.drawn).arr = s.arr := rfl
@[simp] theorem State.drawn_spn : (s.drawn).spn = s.spn := rfl
@[simp] theorem State.drawn_tum : (s.drawn).tum = s.tum := rfl
@[simp] theorem State.drawn_launches : (s.drawn).launches = s.launches := rfl
@[simp] theorem State.drawn_nextLaunch : (s.drawn).nextLaunch = s.nextLaunch := rfl
@[simp] theorem State.drawn_fab : (s.drawn).fab = s.fab := rfl
@[simp] theorem State.drawn_syn : (s.drawn).syn = s.syn := rfl
@[simp] theorem State.drawn_waits : (s.drawn).waits = s.waits := rfl
@[simp] theorem State.drawn_amax : (s.drawn).amax = s.amax := rfl
@[simp] theorem State.drawn_poison : (s.drawn).poison = s.poison := rfl
@[simp] theorem State.drawn_frozen : (s.drawn).frozen = s.frozen := rfl
@[simp] theorem State.drawn_ten : (s.drawn).ten = s.ten := rfl

@[simp] theorem State.count_pending (u k n : Nat) : (s.count u k n).pending = s.pending := rfl
@[simp] theorem State.count_out (u k n : Nat) : (s.count u k n).out = s.out := rfl
@[simp] theorem State.count_free (u k n : Nat) : (s.count u k n).free = s.free := rfl
@[simp] theorem State.count_resp (u k n : Nat) : (s.count u k n).resp = s.resp := rfl
@[simp] theorem State.count_regs (u k n : Nat) : (s.count u k n).regs = s.regs := rfl
@[simp] theorem State.count_latches (u k n : Nat) : (s.count u k n).latches = s.latches := rfl
@[simp] theorem State.count_lowHeld (u k n : Nat) : (s.count u k n).lowHeld = s.lowHeld := rfl
@[simp] theorem State.count_tree (u k n : Nat) : (s.count u k n).tree = s.tree := rfl
@[simp] theorem State.count_clk (u k n : Nat) : (s.count u k n).clk = s.clk := rfl
@[simp] theorem State.count_icu (u k n : Nat) : (s.count u k n).icu = s.icu := rfl
@[simp] theorem State.count_chk (u k n : Nat) : (s.count u k n).chk = s.chk := rfl
@[simp] theorem State.count_hif (u k n : Nat) : (s.count u k n).hif = s.hif := rfl
@[simp] theorem State.count_pwr (u k n : Nat) : (s.count u k n).pwr = s.pwr := rfl
@[simp] theorem State.count_mem (u k n : Nat) : (s.count u k n).mem = s.mem := rfl
@[simp] theorem State.count_flash (u k n : Nat) : (s.count u k n).flash = s.flash := rfl
@[simp] theorem State.count_journal (u k n : Nat) : (s.count u k n).journal = s.journal := rfl
@[simp] theorem State.count_health (u k n : Nat) : (s.count u k n).health = s.health := rfl
@[simp] theorem State.count_sec (u k n : Nat) : (s.count u k n).sec = s.sec := rfl
@[simp] theorem State.count_keeper (u k n : Nat) : (s.count u k n).keeper = s.keeper := rfl
@[simp] theorem State.count_cnt (u k n : Nat) : (s.count u k n).cnt = s.cnt := rfl
@[simp] theorem State.count_side (u k n : Nat) : (s.count u k n).side = s.side := rfl
@[simp] theorem State.count_agm (u k n : Nat) : (s.count u k n).agm = s.agm := rfl
@[simp] theorem State.count_arr (u k n : Nat) : (s.count u k n).arr = s.arr := rfl
@[simp] theorem State.count_spn (u k n : Nat) : (s.count u k n).spn = s.spn := rfl
@[simp] theorem State.count_tum (u k n : Nat) : (s.count u k n).tum = s.tum := rfl
@[simp] theorem State.count_launches (u k n : Nat) : (s.count u k n).launches = s.launches := rfl
@[simp] theorem State.count_nextLaunch (u k n : Nat) : (s.count u k n).nextLaunch = s.nextLaunch := rfl
@[simp] theorem State.count_fab (u k n : Nat) : (s.count u k n).fab = s.fab := rfl
@[simp] theorem State.count_syn (u k n : Nat) : (s.count u k n).syn = s.syn := rfl
@[simp] theorem State.count_waits (u k n : Nat) : (s.count u k n).waits = s.waits := rfl
@[simp] theorem State.count_amax (u k n : Nat) : (s.count u k n).amax = s.amax := rfl
@[simp] theorem State.count_poison (u k n : Nat) : (s.count u k n).poison = s.poison := rfl
@[simp] theorem State.count_frozen (u k n : Nat) : (s.count u k n).frozen = s.frozen := rfl
@[simp] theorem State.count_ten (u k n : Nat) : (s.count u k n).ten = s.ten := rfl

@[simp] theorem State.send_pending (u : Nat) (m : TreeMsg) : (s.send u m).pending = s.pending := rfl
@[simp] theorem State.send_out (u : Nat) (m : TreeMsg) : (s.send u m).out = s.out := rfl
@[simp] theorem State.send_free (u : Nat) (m : TreeMsg) : (s.send u m).free = s.free := rfl
@[simp] theorem State.send_resp (u : Nat) (m : TreeMsg) : (s.send u m).resp = s.resp := rfl
@[simp] theorem State.send_regs (u : Nat) (m : TreeMsg) : (s.send u m).regs = s.regs := rfl
@[simp] theorem State.send_latches (u : Nat) (m : TreeMsg) : (s.send u m).latches = s.latches := rfl
@[simp] theorem State.send_lowHeld (u : Nat) (m : TreeMsg) : (s.send u m).lowHeld = s.lowHeld := rfl
@[simp] theorem State.send_counts (u : Nat) (m : TreeMsg) : (s.send u m).counts = s.counts := rfl
@[simp] theorem State.send_clk (u : Nat) (m : TreeMsg) : (s.send u m).clk = s.clk := rfl
@[simp] theorem State.send_icu (u : Nat) (m : TreeMsg) : (s.send u m).icu = s.icu := rfl
@[simp] theorem State.send_chk (u : Nat) (m : TreeMsg) : (s.send u m).chk = s.chk := rfl
@[simp] theorem State.send_hif (u : Nat) (m : TreeMsg) : (s.send u m).hif = s.hif := rfl
@[simp] theorem State.send_pwr (u : Nat) (m : TreeMsg) : (s.send u m).pwr = s.pwr := rfl
@[simp] theorem State.send_mem (u : Nat) (m : TreeMsg) : (s.send u m).mem = s.mem := rfl
@[simp] theorem State.send_flash (u : Nat) (m : TreeMsg) : (s.send u m).flash = s.flash := rfl
@[simp] theorem State.send_journal (u : Nat) (m : TreeMsg) : (s.send u m).journal = s.journal := rfl
@[simp] theorem State.send_health (u : Nat) (m : TreeMsg) : (s.send u m).health = s.health := rfl
@[simp] theorem State.send_sec (u : Nat) (m : TreeMsg) : (s.send u m).sec = s.sec := rfl
@[simp] theorem State.send_keeper (u : Nat) (m : TreeMsg) : (s.send u m).keeper = s.keeper := rfl
@[simp] theorem State.send_cnt (u : Nat) (m : TreeMsg) : (s.send u m).cnt = s.cnt := rfl
@[simp] theorem State.send_side (u : Nat) (m : TreeMsg) : (s.send u m).side = s.side := rfl
@[simp] theorem State.send_agm (u : Nat) (m : TreeMsg) : (s.send u m).agm = s.agm := rfl
@[simp] theorem State.send_arr (u : Nat) (m : TreeMsg) : (s.send u m).arr = s.arr := rfl
@[simp] theorem State.send_spn (u : Nat) (m : TreeMsg) : (s.send u m).spn = s.spn := rfl
@[simp] theorem State.send_tum (u : Nat) (m : TreeMsg) : (s.send u m).tum = s.tum := rfl
@[simp] theorem State.send_launches (u : Nat) (m : TreeMsg) : (s.send u m).launches = s.launches := rfl
@[simp] theorem State.send_nextLaunch (u : Nat) (m : TreeMsg) : (s.send u m).nextLaunch = s.nextLaunch := rfl
@[simp] theorem State.send_fab (u : Nat) (m : TreeMsg) : (s.send u m).fab = s.fab := rfl
@[simp] theorem State.send_syn (u : Nat) (m : TreeMsg) : (s.send u m).syn = s.syn := rfl
@[simp] theorem State.send_waits (u : Nat) (m : TreeMsg) : (s.send u m).waits = s.waits := rfl
@[simp] theorem State.send_amax (u : Nat) (m : TreeMsg) : (s.send u m).amax = s.amax := rfl
@[simp] theorem State.send_poison (u : Nat) (m : TreeMsg) : (s.send u m).poison = s.poison := rfl
@[simp] theorem State.send_frozen (u : Nat) (m : TreeMsg) : (s.send u m).frozen = s.frozen := rfl
@[simp] theorem State.send_ten (u : Nat) (m : TreeMsg) : (s.send u m).ten = s.ten := rfl

@[simp] theorem State.popMsg_pending (u : Nat) : (s.popMsg u).pending = s.pending := rfl
@[simp] theorem State.popMsg_out (u : Nat) : (s.popMsg u).out = s.out := rfl
@[simp] theorem State.popMsg_free (u : Nat) : (s.popMsg u).free = s.free := rfl
@[simp] theorem State.popMsg_resp (u : Nat) : (s.popMsg u).resp = s.resp := rfl
@[simp] theorem State.popMsg_regs (u : Nat) : (s.popMsg u).regs = s.regs := rfl
@[simp] theorem State.popMsg_latches (u : Nat) : (s.popMsg u).latches = s.latches := rfl
@[simp] theorem State.popMsg_lowHeld (u : Nat) : (s.popMsg u).lowHeld = s.lowHeld := rfl
@[simp] theorem State.popMsg_counts (u : Nat) : (s.popMsg u).counts = s.counts := rfl
@[simp] theorem State.popMsg_clk (u : Nat) : (s.popMsg u).clk = s.clk := rfl
@[simp] theorem State.popMsg_icu (u : Nat) : (s.popMsg u).icu = s.icu := rfl
@[simp] theorem State.popMsg_chk (u : Nat) : (s.popMsg u).chk = s.chk := rfl
@[simp] theorem State.popMsg_hif (u : Nat) : (s.popMsg u).hif = s.hif := rfl
@[simp] theorem State.popMsg_pwr (u : Nat) : (s.popMsg u).pwr = s.pwr := rfl
@[simp] theorem State.popMsg_mem (u : Nat) : (s.popMsg u).mem = s.mem := rfl
@[simp] theorem State.popMsg_flash (u : Nat) : (s.popMsg u).flash = s.flash := rfl
@[simp] theorem State.popMsg_journal (u : Nat) : (s.popMsg u).journal = s.journal := rfl
@[simp] theorem State.popMsg_health (u : Nat) : (s.popMsg u).health = s.health := rfl
@[simp] theorem State.popMsg_sec (u : Nat) : (s.popMsg u).sec = s.sec := rfl
@[simp] theorem State.popMsg_keeper (u : Nat) : (s.popMsg u).keeper = s.keeper := rfl
@[simp] theorem State.popMsg_cnt (u : Nat) : (s.popMsg u).cnt = s.cnt := rfl
@[simp] theorem State.popMsg_side (u : Nat) : (s.popMsg u).side = s.side := rfl
@[simp] theorem State.popMsg_agm (u : Nat) : (s.popMsg u).agm = s.agm := rfl
@[simp] theorem State.popMsg_arr (u : Nat) : (s.popMsg u).arr = s.arr := rfl
@[simp] theorem State.popMsg_spn (u : Nat) : (s.popMsg u).spn = s.spn := rfl
@[simp] theorem State.popMsg_tum (u : Nat) : (s.popMsg u).tum = s.tum := rfl
@[simp] theorem State.popMsg_launches (u : Nat) : (s.popMsg u).launches = s.launches := rfl
@[simp] theorem State.popMsg_nextLaunch (u : Nat) : (s.popMsg u).nextLaunch = s.nextLaunch := rfl
@[simp] theorem State.popMsg_fab (u : Nat) : (s.popMsg u).fab = s.fab := rfl
@[simp] theorem State.popMsg_syn (u : Nat) : (s.popMsg u).syn = s.syn := rfl
@[simp] theorem State.popMsg_waits (u : Nat) : (s.popMsg u).waits = s.waits := rfl
@[simp] theorem State.popMsg_amax (u : Nat) : (s.popMsg u).amax = s.amax := rfl
@[simp] theorem State.popMsg_poison (u : Nat) : (s.popMsg u).poison = s.poison := rfl
@[simp] theorem State.popMsg_frozen (u : Nat) : (s.popMsg u).frozen = s.frozen := rfl
@[simp] theorem State.popMsg_ten (u : Nat) : (s.popMsg u).ten = s.ten := rfl

@[simp] theorem State.setTenant_pending (t : Nat) (x : Tenant) : (s.setTenant t x).pending = s.pending := rfl
@[simp] theorem State.setTenant_out (t : Nat) (x : Tenant) : (s.setTenant t x).out = s.out := rfl
@[simp] theorem State.setTenant_free (t : Nat) (x : Tenant) : (s.setTenant t x).free = s.free := rfl
@[simp] theorem State.setTenant_resp (t : Nat) (x : Tenant) : (s.setTenant t x).resp = s.resp := rfl
@[simp] theorem State.setTenant_regs (t : Nat) (x : Tenant) : (s.setTenant t x).regs = s.regs := rfl
@[simp] theorem State.setTenant_latches (t : Nat) (x : Tenant) : (s.setTenant t x).latches = s.latches := rfl
@[simp] theorem State.setTenant_lowHeld (t : Nat) (x : Tenant) : (s.setTenant t x).lowHeld = s.lowHeld := rfl
@[simp] theorem State.setTenant_tree (t : Nat) (x : Tenant) : (s.setTenant t x).tree = s.tree := rfl
@[simp] theorem State.setTenant_counts (t : Nat) (x : Tenant) : (s.setTenant t x).counts = s.counts := rfl
@[simp] theorem State.setTenant_clk (t : Nat) (x : Tenant) : (s.setTenant t x).clk = s.clk := rfl
@[simp] theorem State.setTenant_icu (t : Nat) (x : Tenant) : (s.setTenant t x).icu = s.icu := rfl
@[simp] theorem State.setTenant_chk (t : Nat) (x : Tenant) : (s.setTenant t x).chk = s.chk := rfl
@[simp] theorem State.setTenant_hif (t : Nat) (x : Tenant) : (s.setTenant t x).hif = s.hif := rfl
@[simp] theorem State.setTenant_pwr (t : Nat) (x : Tenant) : (s.setTenant t x).pwr = s.pwr := rfl
@[simp] theorem State.setTenant_mem (t : Nat) (x : Tenant) : (s.setTenant t x).mem = s.mem := rfl
@[simp] theorem State.setTenant_flash (t : Nat) (x : Tenant) : (s.setTenant t x).flash = s.flash := rfl
@[simp] theorem State.setTenant_journal (t : Nat) (x : Tenant) : (s.setTenant t x).journal = s.journal := rfl
@[simp] theorem State.setTenant_health (t : Nat) (x : Tenant) : (s.setTenant t x).health = s.health := rfl
@[simp] theorem State.setTenant_sec (t : Nat) (x : Tenant) : (s.setTenant t x).sec = s.sec := rfl
@[simp] theorem State.setTenant_keeper (t : Nat) (x : Tenant) : (s.setTenant t x).keeper = s.keeper := rfl
@[simp] theorem State.setTenant_cnt (t : Nat) (x : Tenant) : (s.setTenant t x).cnt = s.cnt := rfl
@[simp] theorem State.setTenant_side (t : Nat) (x : Tenant) : (s.setTenant t x).side = s.side := rfl
@[simp] theorem State.setTenant_agm (t : Nat) (x : Tenant) : (s.setTenant t x).agm = s.agm := rfl
@[simp] theorem State.setTenant_arr (t : Nat) (x : Tenant) : (s.setTenant t x).arr = s.arr := rfl
@[simp] theorem State.setTenant_spn (t : Nat) (x : Tenant) : (s.setTenant t x).spn = s.spn := rfl
@[simp] theorem State.setTenant_tum (t : Nat) (x : Tenant) : (s.setTenant t x).tum = s.tum := rfl
@[simp] theorem State.setTenant_launches (t : Nat) (x : Tenant) : (s.setTenant t x).launches = s.launches := rfl
@[simp] theorem State.setTenant_nextLaunch (t : Nat) (x : Tenant) : (s.setTenant t x).nextLaunch = s.nextLaunch := rfl
@[simp] theorem State.setTenant_fab (t : Nat) (x : Tenant) : (s.setTenant t x).fab = s.fab := rfl
@[simp] theorem State.setTenant_syn (t : Nat) (x : Tenant) : (s.setTenant t x).syn = s.syn := rfl
@[simp] theorem State.setTenant_waits (t : Nat) (x : Tenant) : (s.setTenant t x).waits = s.waits := rfl
@[simp] theorem State.setTenant_amax (t : Nat) (x : Tenant) : (s.setTenant t x).amax = s.amax := rfl
@[simp] theorem State.setTenant_poison (t : Nat) (x : Tenant) : (s.setTenant t x).poison = s.poison := rfl
@[simp] theorem State.setTenant_frozen (t : Nat) (x : Tenant) : (s.setTenant t x).frozen = s.frozen := rfl

@[simp] theorem State.modTenant_pending (t : Nat) (f : Tenant → Tenant) : (s.modTenant t f).pending = s.pending := rfl
@[simp] theorem State.modTenant_out (t : Nat) (f : Tenant → Tenant) : (s.modTenant t f).out = s.out := rfl
@[simp] theorem State.modTenant_free (t : Nat) (f : Tenant → Tenant) : (s.modTenant t f).free = s.free := rfl
@[simp] theorem State.modTenant_resp (t : Nat) (f : Tenant → Tenant) : (s.modTenant t f).resp = s.resp := rfl
@[simp] theorem State.modTenant_regs (t : Nat) (f : Tenant → Tenant) : (s.modTenant t f).regs = s.regs := rfl
@[simp] theorem State.modTenant_latches (t : Nat) (f : Tenant → Tenant) : (s.modTenant t f).latches = s.latches := rfl
@[simp] theorem State.modTenant_lowHeld (t : Nat) (f : Tenant → Tenant) : (s.modTenant t f).lowHeld = s.lowHeld := rfl
@[simp] theorem State.modTenant_tree (t : Nat) (f : Tenant → Tenant) : (s.modTenant t f).tree = s.tree := rfl
@[simp] theorem State.modTenant_counts (t : Nat) (f : Tenant → Tenant) : (s.modTenant t f).counts = s.counts := rfl
@[simp] theorem State.modTenant_clk (t : Nat) (f : Tenant → Tenant) : (s.modTenant t f).clk = s.clk := rfl
@[simp] theorem State.modTenant_icu (t : Nat) (f : Tenant → Tenant) : (s.modTenant t f).icu = s.icu := rfl
@[simp] theorem State.modTenant_chk (t : Nat) (f : Tenant → Tenant) : (s.modTenant t f).chk = s.chk := rfl
@[simp] theorem State.modTenant_hif (t : Nat) (f : Tenant → Tenant) : (s.modTenant t f).hif = s.hif := rfl
@[simp] theorem State.modTenant_pwr (t : Nat) (f : Tenant → Tenant) : (s.modTenant t f).pwr = s.pwr := rfl
@[simp] theorem State.modTenant_mem (t : Nat) (f : Tenant → Tenant) : (s.modTenant t f).mem = s.mem := rfl
@[simp] theorem State.modTenant_flash (t : Nat) (f : Tenant → Tenant) : (s.modTenant t f).flash = s.flash := rfl
@[simp] theorem State.modTenant_journal (t : Nat) (f : Tenant → Tenant) : (s.modTenant t f).journal = s.journal := rfl
@[simp] theorem State.modTenant_health (t : Nat) (f : Tenant → Tenant) : (s.modTenant t f).health = s.health := rfl
@[simp] theorem State.modTenant_sec (t : Nat) (f : Tenant → Tenant) : (s.modTenant t f).sec = s.sec := rfl
@[simp] theorem State.modTenant_keeper (t : Nat) (f : Tenant → Tenant) : (s.modTenant t f).keeper = s.keeper := rfl
@[simp] theorem State.modTenant_cnt (t : Nat) (f : Tenant → Tenant) : (s.modTenant t f).cnt = s.cnt := rfl
@[simp] theorem State.modTenant_side (t : Nat) (f : Tenant → Tenant) : (s.modTenant t f).side = s.side := rfl
@[simp] theorem State.modTenant_agm (t : Nat) (f : Tenant → Tenant) : (s.modTenant t f).agm = s.agm := rfl
@[simp] theorem State.modTenant_arr (t : Nat) (f : Tenant → Tenant) : (s.modTenant t f).arr = s.arr := rfl
@[simp] theorem State.modTenant_spn (t : Nat) (f : Tenant → Tenant) : (s.modTenant t f).spn = s.spn := rfl
@[simp] theorem State.modTenant_tum (t : Nat) (f : Tenant → Tenant) : (s.modTenant t f).tum = s.tum := rfl
@[simp] theorem State.modTenant_launches (t : Nat) (f : Tenant → Tenant) : (s.modTenant t f).launches = s.launches := rfl
@[simp] theorem State.modTenant_nextLaunch (t : Nat) (f : Tenant → Tenant) : (s.modTenant t f).nextLaunch = s.nextLaunch := rfl
@[simp] theorem State.modTenant_fab (t : Nat) (f : Tenant → Tenant) : (s.modTenant t f).fab = s.fab := rfl
@[simp] theorem State.modTenant_syn (t : Nat) (f : Tenant → Tenant) : (s.modTenant t f).syn = s.syn := rfl
@[simp] theorem State.modTenant_waits (t : Nat) (f : Tenant → Tenant) : (s.modTenant t f).waits = s.waits := rfl
@[simp] theorem State.modTenant_amax (t : Nat) (f : Tenant → Tenant) : (s.modTenant t f).amax = s.amax := rfl
@[simp] theorem State.modTenant_poison (t : Nat) (f : Tenant → Tenant) : (s.modTenant t f).poison = s.poison := rfl
@[simp] theorem State.modTenant_frozen (t : Nat) (f : Tenant → Tenant) : (s.modTenant t f).frozen = s.frozen := rfl

end Sys2Proof.Machine
end

