-- ==== Sys2Proof/Laws/Registers.lean ====
section
/-! SUPPORT. Registers and their fields: what a write reads back, and that it leaves every other register and field alone. -/

namespace Sys2Proof.Machine

variable (s : State)

@[simp] theorem State.reg_setReg_same (r : Reg) (v : DWord) : (s.setReg r v).reg r = v :=
  KMap.get_set_same _ _ _ _

theorem State.reg_setReg_ne {r q : Reg} (v : DWord) (h : q.offset ≠ r.offset) : (s.setReg r v).reg q = s.reg q :=
  KMap.get_set_ne _ _ _ _ h

/-- What an update that leaves the registers alone leaves of a register and a field. -/
theorem State.reg_congr {s t : State} (h : t.regs = s.regs) (r : Reg) : t.reg r = s.reg r := by
  unfold State.reg
  rw [h]

theorem State.rd_congr {s t : State} (h : t.regs = s.regs) (f : Field) : t.rd f = s.rd f := by
  unfold State.rd
  rw [State.reg_congr h]

@[simp] theorem State.emit_reg (x : Output) (r : Reg) : (s.emit x).reg r = s.reg r := rfl
@[simp] theorem State.emit_rd (x : Output) (f : Field) : (s.emit x).rd f = s.rd f := rfl
@[simp] theorem State.event_reg (c : Nat) (d : Dest) (as : List Nat) (r : Reg) : (s.event c d as).reg r = s.reg r := rfl
@[simp] theorem State.event_rd (c : Nat) (d : Dest) (as : List Nat) (f : Field) : (s.event c d as).rd f = s.rd f := rfl
@[simp] theorem State.drawn_rd (f : Field) : s.drawn.rd f = s.rd f := rfl
@[simp] theorem State.drawn_reg (r : Reg) : s.drawn.reg r = s.reg r := rfl
@[simp] theorem State.count_rd (u k n : Nat) (f : Field) : (s.count u k n).rd f = s.rd f := rfl
@[simp] theorem State.count_reg (u k n : Nat) (r : Reg) : (s.count u k n).reg r = s.reg r := rfl
@[simp] theorem State.send_rd (u : Nat) (m : TreeMsg) (f : Field) : (s.send u m).rd f = s.rd f := rfl
@[simp] theorem State.setTenant_rd (t : Nat) (x : Tenant) (f : Field) : (s.setTenant t x).rd f = s.rd f := rfl
@[simp] theorem State.setTenant_reg (t : Nat) (x : Tenant) (r : Reg) : (s.setTenant t x).reg r = s.reg r := rfl

/-- A field lies within its 64-bit register. -/
abbrev Field.Fits (f : Field) : Prop := f.lo + f.w ≤ 64

theorem Field.mask_getLsbD (f : Field) (i : Nat) (h : f.Fits) :
    f.mask.getLsbD i = decide (f.lo ≤ i ∧ i < f.lo + f.w) := by
  unfold Field.Fits at h
  unfold Field.mask
  rw [BitVec.getLsbD_shiftLeft, BitVec.getLsbD_setWidth, BitVec.getLsbD_allOnes]
  rw [Bool.eq_iff_iff]
  simp only [Bool.and_eq_true, Bool.not_eq_true', decide_eq_true_eq, decide_eq_false_iff_not]
  omega

theorem Field.put_getLsbD (f : Field) (w : DWord) (v i : Nat) (h : f.Fits) :
    (f.put w v).getLsbD i = if f.lo ≤ i ∧ i < f.lo + f.w then v.testBit (i - f.lo) else w.getLsbD i := by
  have hm := Field.mask_getLsbD f i h
  unfold Field.Fits at h
  unfold Field.put
  rw [BitVec.getLsbD_or, BitVec.getLsbD_and, BitVec.getLsbD_not, hm, BitVec.getLsbD_shiftLeft, BitVec.getLsbD_setWidth,
    BitVec.getLsbD_ofNat]
  by_cases h1 : i < 64
  · by_cases h2 : f.lo ≤ i ∧ i < f.lo + f.w
    · have h3 : i - f.lo < f.w := by omega
      have h4 : ¬ i < f.lo := by omega
      have h5 : i - f.lo < 64 := by omega
      simp [h1, h2, h3, h4, h5]
    · have h3 : i < f.lo ∨ ¬ i - f.lo < f.w := by omega
      rcases h3 with h3 | h3
      · simp [h1, h2, h3]
      · simp [h1, h2, h3]
  · have h2 : ¬ (f.lo ≤ i ∧ i < f.lo + f.w) := by omega
    have h3 : w.getLsbD i = false := BitVec.getLsbD_of_ge w i (by omega)
    simp [h1, h2, h3]

/-- A field written reads back, modulo its width. -/
theorem State.rd_wr_same (f : Field) (v : Nat) (h : f.Fits) : (s.wr f v).rd f = v % 2 ^ f.w := by
  unfold State.rd State.wr
  rw [State.reg_setReg_same]
  have : (f.put (s.reg f.reg) v).extractLsb' f.lo f.w = BitVec.ofNat f.w v := by
    apply BitVec.eq_of_getLsbD_eq
    intro i hi
    rw [BitVec.getLsbD_extractLsb', Field.put_getLsbD f _ _ _ h, BitVec.getLsbD_ofNat]
    have h1 : f.lo ≤ f.lo + i ∧ f.lo + i < f.lo + f.w := by omega
    simp [h1, hi]
  rw [this, BitVec.toNat_ofNat]

/-- A field of another register stands. -/
theorem State.rd_wr_reg {f g : Field} (v : Nat) (h : g.reg.offset ≠ f.reg.offset) : (s.wr f v).rd g = s.rd g := by
  unfold State.rd State.wr
  rw [State.reg_setReg_ne s _ h]

/-- Another field of the same register stands. -/
theorem State.rd_wr_field {f g : Field} (v : Nat) (hf : f.Fits) (hr : g.reg = f.reg) (h : g.lo + g.w ≤ f.lo ∨ f.lo + f.w ≤ g.lo) :
    (s.wr f v).rd g = s.rd g := by
  unfold State.rd State.wr
  rw [hr, State.reg_setReg_same]
  congr 1
  apply BitVec.eq_of_getLsbD_eq
  intro i hi
  rw [BitVec.getLsbD_extractLsb', BitVec.getLsbD_extractLsb', Field.put_getLsbD f _ _ _ hf]
  have h1 : ¬ (f.lo ≤ g.lo + i ∧ g.lo + i < f.lo + f.w) := by omega
  simp [h1]

theorem State.rd_setReg_ne {f : Field} {r : Reg} (v : DWord) (h : f.reg.offset ≠ r.offset) : (s.setReg r v).rd f = s.rd f := by
  unfold State.rd
  rw [State.reg_setReg_ne s v h]

end Sys2Proof.Machine
end

