-- ==== Sys2Proof/Laws/Events.lean ====
section
/-! SUPPORT. Interrupt sources and event bits: what raising one and setting one leave alone, and what they set. -/

namespace Sys2Proof.Machine

variable (s : State)

/-- A register that is no pending-bit register. -/
abbrev Reg.NoPend (r : Reg) : Prop := ∀ i, r.offset ≠ (Reg.icuPendSet i).offset

@[simp] theorem State.pend_pending (n : Nat) : (s.pend n).pending = s.pending := by unfold State.pend; split <;> rfl
@[simp] theorem State.pend_out (n : Nat) : (s.pend n).out = s.out := by unfold State.pend; split <;> rfl
@[simp] theorem State.pend_free (n : Nat) : (s.pend n).free = s.free := by unfold State.pend; split <;> rfl
@[simp] theorem State.pend_resp (n : Nat) : (s.pend n).resp = s.resp := by unfold State.pend; split <;> rfl
@[simp] theorem State.pend_latches (n : Nat) : (s.pend n).latches = s.latches := by unfold State.pend; split <;> rfl
@[simp] theorem State.pend_lowHeld (n : Nat) : (s.pend n).lowHeld = s.lowHeld := by unfold State.pend; split <;> rfl
@[simp] theorem State.pend_tree (n : Nat) : (s.pend n).tree = s.tree := by unfold State.pend; split <;> rfl
@[simp] theorem State.pend_clk (n : Nat) : (s.pend n).clk = s.clk := by unfold State.pend; split <;> rfl
@[simp] theorem State.pend_icu (n : Nat) : (s.pend n).icu = s.icu := by unfold State.pend; split <;> rfl
@[simp] theorem State.pend_chk (n : Nat) : (s.pend n).chk = s.chk := by unfold State.pend; split <;> rfl
@[simp] theorem State.pend_hif (n : Nat) : (s.pend n).hif = s.hif := by unfold State.pend; split <;> rfl
@[simp] theorem State.pend_pwr (n : Nat) : (s.pend n).pwr = s.pwr := by unfold State.pend; split <;> rfl
@[simp] theorem State.pend_mem (n : Nat) : (s.pend n).mem = s.mem := by unfold State.pend; split <;> rfl
@[simp] theorem State.pend_flash (n : Nat) : (s.pend n).flash = s.flash := by unfold State.pend; split <;> rfl
@[simp] theorem State.pend_journal (n : Nat) : (s.pend n).journal = s.journal := by unfold State.pend; split <;> rfl
@[simp] theorem State.pend_health (n : Nat) : (s.pend n).health = s.health := by unfold State.pend; split <;> rfl
@[simp] theorem State.pend_sec (n : Nat) : (s.pend n).sec = s.sec := by unfold State.pend; split <;> rfl
@[simp] theorem State.pend_keeper (n : Nat) : (s.pend n).keeper = s.keeper := by unfold State.pend; split <;> rfl
@[simp] theorem State.pend_cnt (n : Nat) : (s.pend n).cnt = s.cnt := by unfold State.pend; split <;> rfl
@[simp] theorem State.pend_side (n : Nat) : (s.pend n).side = s.side := by unfold State.pend; split <;> rfl
@[simp] theorem State.pend_agm (n : Nat) : (s.pend n).agm = s.agm := by unfold State.pend; split <;> rfl
@[simp] theorem State.pend_arr (n : Nat) : (s.pend n).arr = s.arr := by unfold State.pend; split <;> rfl
@[simp] theorem State.pend_spn (n : Nat) : (s.pend n).spn = s.spn := by unfold State.pend; split <;> rfl
@[simp] theorem State.pend_tum (n : Nat) : (s.pend n).tum = s.tum := by unfold State.pend; split <;> rfl
@[simp] theorem State.pend_launches (n : Nat) : (s.pend n).launches = s.launches := by unfold State.pend; split <;> rfl
@[simp] theorem State.pend_nextLaunch (n : Nat) : (s.pend n).nextLaunch = s.nextLaunch := by unfold State.pend; split <;> rfl
@[simp] theorem State.pend_fab (n : Nat) : (s.pend n).fab = s.fab := by unfold State.pend; split <;> rfl
@[simp] theorem State.pend_syn (n : Nat) : (s.pend n).syn = s.syn := by unfold State.pend; split <;> rfl
@[simp] theorem State.pend_waits (n : Nat) : (s.pend n).waits = s.waits := by unfold State.pend; split <;> rfl
@[simp] theorem State.pend_amax (n : Nat) : (s.pend n).amax = s.amax := by unfold State.pend; split <;> rfl
@[simp] theorem State.pend_poison (n : Nat) : (s.pend n).poison = s.poison := by unfold State.pend; split <;> rfl
@[simp] theorem State.pend_frozen (n : Nat) : (s.pend n).frozen = s.frozen := by unfold State.pend; split <;> rfl
@[simp] theorem State.pend_ten (n : Nat) : (s.pend n).ten = s.ten := by unfold State.pend; split <;> rfl

theorem State.pend_reg (n : Nat) {r : Reg} (h : r.NoPend) : (s.pend n).reg r = s.reg r := by
  unfold State.pend
  split
  · rw [State.count_reg, State.reg_setReg_ne _ _ (h _)]
  · rfl

theorem State.pend_rd (n : Nat) {f : Field} (h : f.reg.NoPend) : (s.pend n).rd f = s.rd f := by
  unfold State.rd
  rw [State.pend_reg s n h]

@[simp] theorem State.setEvent_pending (e : Field) : (s.setEvent e).pending = s.pending := by
  unfold State.setEvent; split <;> (try split) <;> (try split) <;> simp
@[simp] theorem State.setEvent_out (e : Field) : (s.setEvent e).out = s.out := by
  unfold State.setEvent; split <;> (try split) <;> (try split) <;> simp
@[simp] theorem State.setEvent_free (e : Field) : (s.setEvent e).free = s.free := by
  unfold State.setEvent; split <;> (try split) <;> (try split) <;> simp
@[simp] theorem State.setEvent_resp (e : Field) : (s.setEvent e).resp = s.resp := by
  unfold State.setEvent; split <;> (try split) <;> (try split) <;> simp
@[simp] theorem State.setEvent_latches (e : Field) : (s.setEvent e).latches = s.latches := by
  unfold State.setEvent; split <;> (try split) <;> (try split) <;> simp
@[simp] theorem State.setEvent_lowHeld (e : Field) : (s.setEvent e).lowHeld = s.lowHeld := by
  unfold State.setEvent; split <;> (try split) <;> (try split) <;> simp
@[simp] theorem State.setEvent_tree (e : Field) : (s.setEvent e).tree = s.tree := by
  unfold State.setEvent; split <;> (try split) <;> (try split) <;> simp
@[simp] theorem State.setEvent_clk (e : Field) : (s.setEvent e).clk = s.clk := by
  unfold State.setEvent; split <;> (try split) <;> (try split) <;> simp
@[simp] theorem State.setEvent_icu (e : Field) : (s.setEvent e).icu = s.icu := by
  unfold State.setEvent; split <;> (try split) <;> (try split) <;> simp
@[simp] theorem State.setEvent_chk (e : Field) : (s.setEvent e).chk = s.chk := by
  unfold State.setEvent; split <;> (try split) <;> (try split) <;> simp
@[simp] theorem State.setEvent_hif (e : Field) : (s.setEvent e).hif = s.hif := by
  unfold State.setEvent; split <;> (try split) <;> (try split) <;> simp
@[simp] theorem State.setEvent_pwr (e : Field) : (s.setEvent e).pwr = s.pwr := by
  unfold State.setEvent; split <;> (try split) <;> (try split) <;> simp
@[simp] theorem State.setEvent_mem (e : Field) : (s.setEvent e).mem = s.mem := by
  unfold State.setEvent; split <;> (try split) <;> (try split) <;> simp
@[simp] theorem State.setEvent_flash (e : Field) : (s.setEvent e).flash = s.flash := by
  unfold State.setEvent; split <;> (try split) <;> (try split) <;> simp
@[simp] theorem State.setEvent_journal (e : Field) : (s.setEvent e).journal = s.journal := by
  unfold State.setEvent; split <;> (try split) <;> (try split) <;> simp
@[simp] theorem State.setEvent_health (e : Field) : (s.setEvent e).health = s.health := by
  unfold State.setEvent; split <;> (try split) <;> (try split) <;> simp
@[simp] theorem State.setEvent_sec (e : Field) : (s.setEvent e).sec = s.sec := by
  unfold State.setEvent; split <;> (try split) <;> (try split) <;> simp
@[simp] theorem State.setEvent_keeper (e : Field) : (s.setEvent e).keeper = s.keeper := by
  unfold State.setEvent; split <;> (try split) <;> (try split) <;> simp
@[simp] theorem State.setEvent_cnt (e : Field) : (s.setEvent e).cnt = s.cnt := by
  unfold State.setEvent; split <;> (try split) <;> (try split) <;> simp
@[simp] theorem State.setEvent_side (e : Field) : (s.setEvent e).side = s.side := by
  unfold State.setEvent; split <;> (try split) <;> (try split) <;> simp
@[simp] theorem State.setEvent_agm (e : Field) : (s.setEvent e).agm = s.agm := by
  unfold State.setEvent; split <;> (try split) <;> (try split) <;> simp
@[simp] theorem State.setEvent_arr (e : Field) : (s.setEvent e).arr = s.arr := by
  unfold State.setEvent; split <;> (try split) <;> (try split) <;> simp
@[simp] theorem State.setEvent_spn (e : Field) : (s.setEvent e).spn = s.spn := by
  unfold State.setEvent; split <;> (try split) <;> (try split) <;> simp
@[simp] theorem State.setEvent_tum (e : Field) : (s.setEvent e).tum = s.tum := by
  unfold State.setEvent; split <;> (try split) <;> (try split) <;> simp
@[simp] theorem State.setEvent_launches (e : Field) : (s.setEvent e).launches = s.launches := by
  unfold State.setEvent; split <;> (try split) <;> (try split) <;> simp
@[simp] theorem State.setEvent_nextLaunch (e : Field) : (s.setEvent e).nextLaunch = s.nextLaunch := by
  unfold State.setEvent; split <;> (try split) <;> (try split) <;> simp
@[simp] theorem State.setEvent_fab (e : Field) : (s.setEvent e).fab = s.fab := by
  unfold State.setEvent; split <;> (try split) <;> (try split) <;> simp
@[simp] theorem State.setEvent_syn (e : Field) : (s.setEvent e).syn = s.syn := by
  unfold State.setEvent; split <;> (try split) <;> (try split) <;> simp
@[simp] theorem State.setEvent_waits (e : Field) : (s.setEvent e).waits = s.waits := by
  unfold State.setEvent; split <;> (try split) <;> (try split) <;> simp
@[simp] theorem State.setEvent_amax (e : Field) : (s.setEvent e).amax = s.amax := by
  unfold State.setEvent; split <;> (try split) <;> (try split) <;> simp
@[simp] theorem State.setEvent_poison (e : Field) : (s.setEvent e).poison = s.poison := by
  unfold State.setEvent; split <;> (try split) <;> (try split) <;> simp
@[simp] theorem State.setEvent_frozen (e : Field) : (s.setEvent e).frozen = s.frozen := by
  unfold State.setEvent; split <;> (try split) <;> (try split) <;> simp
@[simp] theorem State.setEvent_ten (e : Field) : (s.setEvent e).ten = s.ten := by
  unfold State.setEvent; split <;> (try split) <;> (try split) <;> simp

/-- Setting an event bit leaves every register alone but its own and the pending bits. -/
theorem State.setEvent_reg (e : Field) {r : Reg} (h : r.NoPend) (hr : r.offset ≠ e.reg.offset) : (s.setEvent e).reg r = s.reg r := by
  have hw : (s.wr e 1).reg r = s.reg r := State.reg_setReg_ne s _ hr
  unfold State.setEvent
  split
  · rfl
  · split
    · dsimp only
      split
      · rw [State.pend_reg _ _ h, State.pend_reg _ _ h, hw]
      · rw [State.pend_reg _ _ h, hw]
    · split
      · rw [State.pend_reg _ _ h, hw]
      · exact hw

theorem State.setEvent_rd (e : Field) {f : Field} (h : f.reg.NoPend) (hr : f.reg.offset ≠ e.reg.offset) :
    (s.setEvent e).rd f = s.rd f := by
  unfold State.rd
  rw [State.setEvent_reg s e h hr]

/-- The bit stands set afterwards. -/
theorem State.setEvent_has {e : Field} (hf : e.Fits) (hw : e.w = 1) (h : e.reg.NoPend) : (s.setEvent e).has e = true := by
  have h1 : (s.wr e 1).rd e = 1 := by
    have h2 := State.rd_wr_same s e 1 hf
    rw [hw] at h2
    exact h2
  unfold State.setEvent
  split
  · assumption
  · split
    · dsimp only
      split
      · simp [State.has, State.pend_rd _ _ h, h1]
      · simp [State.has, State.pend_rd _ _ h, h1]
    · split
      · simp [State.has, State.pend_rd _ _ h, h1]
      · simp [State.has, h1]

end Sys2Proof.Machine
end

