-- ==== Sys2Proof/Laws/Memory.lean ====
section
/-! SUPPORT. The memories: every operation on cells keeps the canonical form, and what it reads back. -/

namespace Sys2Proof.Machine

/-- One sparse store in canonical form. -/
def KMap.Canon {α : Type} [DecidableEq α] (m : KMap α) (d : α) : Prop := KMap.rising m = true ∧ KMap.noDefault m d = true

theorem KMap.canon_set {α : Type} [DecidableEq α] {m : KMap α} {d : α} (i : Nat) (v : α) (h : KMap.Canon m d) :
    KMap.Canon (KMap.set m i v d) d :=
  ⟨KMap.rising_set i v d h.1, KMap.noDefault_set i v h.2⟩

theorem putCells_canon : ∀ {bs : List Byte} {m : KMap Byte} {a : Nat}, KMap.Canon m 0 → KMap.Canon (putCells m a bs) 0
  | [], _, _, h => h
  | b :: bs, m, a, h => by
    simp only [putCells]
    exact putCells_canon (KMap.canon_set a b h)

/-- Any number of entries written one after another. -/
theorem KMap.canon_foldl {α β : Type} [DecidableEq α] {d : α} (k : β → Nat) (v : β → α) :
    ∀ {l : List β} {m : KMap α}, KMap.Canon m d → KMap.Canon (l.foldl (fun (m : KMap α) x => KMap.set m (k x) (v x) d) m) d
  | [], _, h => h
  | x :: l, _, h => KMap.canon_foldl k v (l := l) (KMap.canon_set (k x) (v x) h)

theorem dropRange_canon {α : Type} [DecidableEq α] {m : KMap α} {d : α} {a n : Nat} (h : KMap.Canon m d) :
    KMap.Canon (dropRange m a n) d :=
  ⟨KMap.rising_filter _ h.1, KMap.noDefault_filter _ h.2⟩

/-- A byte outside the bytes written reads as before. -/
theorem putCells_get_out : ∀ {bs : List Byte} {m : KMap Byte} {a i : Nat}, (i < a ∨ a + bs.length ≤ i) →
    KMap.get (putCells m a bs) i 0 = KMap.get m i 0
  | [], _, _, _, _ => rfl
  | b :: bs, m, a, i, h => by
    simp only [List.length_cons] at h
    have h1 : i < a + 1 ∨ a + 1 + bs.length ≤ i := by omega
    have h2 : i ≠ a := by omega
    simp only [putCells]
    rw [putCells_get_out h1, KMap.get_set_ne _ _ _ _ h2]

/-- A byte written reads as it was written. -/
theorem putCells_get_in : ∀ {bs : List Byte} {m : KMap Byte} {a i : Nat}, i < bs.length →
    KMap.get (putCells m a bs) (a + i) 0 = bs.getD i 0
  | [], _, _, i, h => by simp at h
  | b :: bs, m, a, 0, _ => by
    simp only [putCells, Nat.add_zero]
    rw [putCells_get_out (by omega), KMap.get_set_same]
    rfl
  | b :: bs, m, a, i + 1, h => by
    simp only [putCells]
    have := putCells_get_in (bs := bs) (a := a + 1) (i := i) (m := KMap.set m a b 0) (by simpa using h)
    rw [show a + (i + 1) = a + 1 + i by omega, this]
    rfl

theorem Memory.wf_iff (m : Mem) : Memory.wf m = true ↔
    (KMap.Canon m.hbm 0 ∧ KMap.Canon m.scratch 0) ∧ KMap.Canon m.hbmPoison false ∧ KMap.Canon m.scratchPoison false := by
  simp only [Memory.wf, KMap.Canon, Bool.and_eq_true]

end Sys2Proof.Machine
end

