-- ==== Sys2Proof/Laws/Keep/Base.lean ====
section
/-! SUPPORT. What every operation keeps: the queue of waiting commands, what has been sent, the canonical form of the registers
and the memories, and the fuses. `Good` gathers it, so that one lemma per operation serves every such claim. -/

namespace Sys2Proof.Machine

theorem Fuses.kept_refl (a : Fuses) : Fuses.kept a a := ⟨rfl, rfl, rfl, Nat.le_refl _, id⟩

theorem Fuses.kept_trans {a b c : Fuses} (h : Fuses.kept a b) (k : Fuses.kept b c) : Fuses.kept a c :=
  ⟨k.1.trans h.1, k.2.1.trans h.2.1, k.2.2.1.trans h.2.2.1, Nat.le_trans h.2.2.2.1 k.2.2.2.1, fun u => k.2.2.2.2 (h.2.2.2.2 u)⟩

/-- Where a command starts from: its queue, what has been sent, and the fuses. -/
structure Origin where
  pending : List Instr
  out : List Output
  fuses : Fuses

/-- What stands through every operation that starts from `o`. -/
structure Good (o : Origin) (s : State) : Prop where
  pending : s.pending = o.pending
  out : ∃ l, s.out = l ++ o.out
  regs : KMap.rising s.regs = true
  mem : Memory.wf s.mem = true
  fuses : Fuses.kept o.fuses s.keeper.fuses

variable {o : Origin} {s t : State}

theorem good_of (h : Good o s) (hp : t.pending = s.pending) (ho : t.out = s.out) (hr : t.regs = s.regs)
    (h1 : t.mem.hbm = s.mem.hbm) (h2 : t.mem.scratch = s.mem.scratch) (h3 : t.mem.hbmPoison = s.mem.hbmPoison)
    (h4 : t.mem.scratchPoison = s.mem.scratchPoison) (hf : t.keeper.fuses = s.keeper.fuses) : Good o t :=
  { pending := hp.trans h.pending
    out := by rw [ho]; exact h.out
    regs := by rw [hr]; exact h.regs
    mem := by
      have := h.mem
      unfold Memory.wf at this ⊢
      rw [h1, h2, h3, h4]
      exact this
    fuses := by rw [hf]; exact h.fuses }

/-- A record update of a state, told apart by its fields. -/
theorem good_mk {o : Origin} {s : State} {x_out} {x_free} {x_resp} {x_regs} {x_latches} {x_lowHeld} {x_tree} {x_counts} {x_clk} {x_icu} {x_chk} {x_hif} {x_pwr} {x_mem} {x_flash} {x_journal} {x_health} {x_sec} {x_keeper} {x_cnt} {x_side} {x_agm} {x_arr} {x_spn} {x_tum} {x_launches} {x_nextLaunch} {x_fab} {x_syn} {x_waits} {x_amax} {x_poison} {x_frozen} {x_ten}
    (h : Good o s) (ho : x_out = s.out) (hr : x_regs = s.regs) (h1 : x_mem.hbm = s.mem.hbm)
    (h2 : x_mem.scratch = s.mem.scratch) (h3 : x_mem.hbmPoison = s.mem.hbmPoison)
    (h4 : x_mem.scratchPoison = s.mem.scratchPoison) (hf : x_keeper.fuses = s.keeper.fuses) :
    Good o { s with
      out := x_out
      free := x_free
      resp := x_resp
      regs := x_regs
      latches := x_latches
      lowHeld := x_lowHeld
      tree := x_tree
      counts := x_counts
      clk := x_clk
      icu := x_icu
      chk := x_chk
      hif := x_hif
      pwr := x_pwr
      mem := x_mem
      flash := x_flash
      journal := x_journal
      health := x_health
      sec := x_sec
      keeper := x_keeper
      cnt := x_cnt
      side := x_side
      agm := x_agm
      arr := x_arr
      spn := x_spn
      tum := x_tum
      launches := x_launches
      nextLaunch := x_nextLaunch
      fab := x_fab
      syn := x_syn
      waits := x_waits
      amax := x_amax
      poison := x_poison
      frozen := x_frozen
      ten := x_ten } :=
  good_of h rfl ho hr h1 h2 h3 h4 hf

theorem good_ite {c : Prop} [Decidable c] {a b : State} (ha : Good o a) (hb : Good o b) : Good o (if c then a else b) := by
  split <;> assumption

theorem good_ite_fst {c : Prop} [Decidable c] {β : Type} {a b : State × β} (ha : Good o a.1) (hb : Good o b.1) :
    Good o (if c then a else b).1 := by
  split <;> assumption

theorem good_foldl {α : Type} {g : State → α → State} (hs : Good o s) {xs : List α}
    (hg : ∀ s x, Good o s → Good o (g s x)) : Good o (xs.foldl g s) := by
  induction xs generalizing s with
  | nil => exact hs
  | cons x xs ih => exact ih (hg s x hs)

theorem good_foldl_fst {α β : Type} {g : State × β → α → State × β} {a : State × β} (hs : Good o a.1) {xs : List α}
    (hg : ∀ a x, Good o a.1 → Good o (g a x).1) : Good o (xs.foldl g a).1 := by
  induction xs generalizing a with
  | nil => exact hs
  | cons x xs ih => exact ih (hg a x hs)

theorem good_pair {β : Type} {b : β} (h : Good o s) : Good o (s, b).1 := h

theorem good_fst {β : Type} {d : State × β} {x : β} (e : d = (t, x)) (h : Good o d.1) : Good o t := by
  rw [e] at h
  exact h

/-- A result that may be absent keeps what stands, where it is there. -/
def GoodOpt {β : Type} (o : Origin) (r : Option (State × β)) : Prop := ∀ x, r = some x → Good o x.1

theorem good_opt {β : Type} {d : Option (State × β)} {x : β} (e : d = some (t, x)) (h : GoodOpt o d) : Good o t := h _ e

theorem good_opt' {β : Type} {d : Option (State × β)} {x : State × β} (e : d = some x) (h : GoodOpt o d) : Good o x.1 := h _ e

theorem goodOpt_none {β : Type} : GoodOpt o (none : Option (State × β)) := fun _ h => nomatch h

theorem goodOpt_some {β : Type} {b : β} (h : Good o s) : GoodOpt o (some (s, b)) := fun x e => by
  cases e
  exact h

/-- The same of a state that may be absent. -/
def GoodOptS (o : Origin) (r : Option State) : Prop := ∀ t, r = some t → Good o t

theorem good_optS {d : Option State} (e : d = some t) (h : GoodOptS o d) : Good o t := h _ e

theorem goodOptS_none : GoodOptS o none := fun _ h => nomatch h

theorem goodOptS_some (h : Good o s) : GoodOptS o (some s) := fun x e => by
  cases e
  exact h

theorem goodOptS_bind {d : Option State} {f : State → Option State} (hd : GoodOptS o d)
    (hf : ∀ s, Good o s → GoodOptS o (f s)) : GoodOptS o (d.bind f) := by
  cases d with
  | none => exact goodOptS_none
  | some t => exact hf t (hd t rfl)

theorem goodOptS_bind_val {β : Type} {d : Option β} {f : β → Option State} (hf : ∀ y, GoodOptS o (f y)) :
    GoodOptS o (d.bind f) := by
  cases d with
  | none => exact goodOptS_none
  | some y => exact hf y

theorem goodOptS_map {d : Option State} {f : State → State} (hd : GoodOptS o d) (hf : ∀ s, Good o s → Good o (f s)) :
    GoodOptS o (d.map f) := by
  cases d with
  | none => exact goodOptS_none
  | some t => exact goodOptS_some (hf t (hd t rfl))

theorem goodOptS_elim {β : Type} {d : Option β} {z : Option State} {f : β → Option State} (hz : GoodOptS o z)
    (hf : ∀ y, GoodOptS o (f y)) : GoodOptS o (d.elim z f) := by
  cases d with
  | none => exact hz
  | some y => exact hf y

theorem goodOptS_foldl {α : Type} {g : Option State → α → Option State} {d : Option State} (hd : GoodOptS o d) {xs : List α}
    (hg : ∀ d x, GoodOptS o d → GoodOptS o (g d x)) : GoodOptS o (xs.foldl g d) := by
  induction xs generalizing d with
  | nil => exact hd
  | cons x xs ih => exact ih (hg d x hd)

theorem good_getD {d : Option State} (hd : GoodOptS o d) (h : Good o s) : Good o (d.getD s) := by
  cases d with
  | none => exact h
  | some t => exact hd t rfl

theorem good_times {g : State → State} {n : Nat} (hs : Good o s) (hg : ∀ s, Good o s → Good o (g s)) : Good o (times g n s) := by
  induction n generalizing s with
  | zero => exact hs
  | succ n ih => exact ih (hg s hs)

/-- The same of a result that may be refused. -/
def GoodExc {ε β : Type} (o : Origin) (r : Except ε (State × β)) : Prop := ∀ x, r = .ok x → Good o x.1

theorem good_exc {ε β : Type} {d : Except ε (State × β)} {x : β} (e : d = .ok (t, x)) (h : GoodExc o d) : Good o t := h _ e

theorem goodExc_error {ε β : Type} {e : ε} : GoodExc o (.error e : Except ε (State × β)) := fun _ h => nomatch h

theorem goodExc_ok {ε β : Type} {b : β} (h : Good o s) : GoodExc o (.ok (s, b) : Except ε (State × β)) := fun x e => by
  cases e
  exact h

theorem goodExc_inv {ε β : Type} {b : β} (h : GoodExc o (.ok (s, b) : Except ε (State × β))) : Good o s := h _ rfl

theorem goodOpt_inv {β : Type} {b : β} (h : GoodOpt o (some (s, b))) : Good o s := h _ rfl

/-- The same of a command's outcome. -/
def GoodOut (o : Origin) (r : Host.Outcome State Fault Refusal) : Prop := ∀ t, r = .next t → Good o t

theorem goodOut_next (h : Good o s) : GoodOut o (.next s) := fun t e => by
  cases e
  exact h

/-! ### Operations that change what `Good` speaks of -/

theorem State.setReg_good {r : Reg} {v : DWord} (h : Good o s) : Good o (s.setReg r v) :=
  { h with regs := KMap.rising_set _ _ _ h.regs }

theorem State.emit_good {x : Output} (h : Good o s) : Good o (s.emit x) := by
  obtain ⟨l, e⟩ := h.out
  exact { h with out := ⟨x :: l, by simp [State.emit, e]⟩ }

theorem State.emits_good {xs : List Output} (h : Good o s) : Good o (s.emits xs) := by
  obtain ⟨l, e⟩ := h.out
  exact { h with out := ⟨xs.reverse ++ l, by simp [State.emits, e]⟩ }

theorem Good.canon (h : Good o s) :
    (KMap.Canon s.mem.hbm 0 ∧ KMap.Canon s.mem.scratch 0) ∧ KMap.Canon s.mem.hbmPoison false ∧
      KMap.Canon s.mem.scratchPoison false := (Memory.wf_iff _).1 h.mem

/-- A record update that changes the memories and keeps each in canonical form. -/
theorem good_mk_mem {o : Origin} {s : State} {x_out} {x_free} {x_resp} {x_regs} {x_latches} {x_lowHeld} {x_tree} {x_counts} {x_clk} {x_icu} {x_chk} {x_hif} {x_pwr} {x_mem} {x_flash} {x_journal} {x_health} {x_sec} {x_keeper} {x_cnt} {x_side} {x_agm} {x_arr} {x_spn} {x_tum} {x_launches} {x_nextLaunch} {x_fab} {x_syn} {x_waits} {x_amax} {x_poison} {x_frozen} {x_ten}
    (h : Good o s) (ho : x_out = s.out) (hr : x_regs = s.regs)
    (h1 : KMap.Canon s.mem.hbm 0 → KMap.Canon x_mem.hbm 0)
    (h2 : KMap.Canon s.mem.scratch 0 → KMap.Canon x_mem.scratch 0)
    (h3 : KMap.Canon s.mem.hbmPoison false → KMap.Canon x_mem.hbmPoison false)
    (h4 : KMap.Canon s.mem.scratchPoison false → KMap.Canon x_mem.scratchPoison false)
    (hf : x_keeper.fuses = s.keeper.fuses) :
    Good o { s with
      out := x_out
      free := x_free
      resp := x_resp
      regs := x_regs
      latches := x_latches
      lowHeld := x_lowHeld
      tree := x_tree
      counts := x_counts
      clk := x_clk
      icu := x_icu
      chk := x_chk
      hif := x_hif
      pwr := x_pwr
      mem := x_mem
      flash := x_flash
      journal := x_journal
      health := x_health
      sec := x_sec
      keeper := x_keeper
      cnt := x_cnt
      side := x_side
      agm := x_agm
      arr := x_arr
      spn := x_spn
      tum := x_tum
      launches := x_launches
      nextLaunch := x_nextLaunch
      fab := x_fab
      syn := x_syn
      waits := x_waits
      amax := x_amax
      poison := x_poison
      frozen := x_frozen
      ten := x_ten } :=
  have c := h.canon
  { pending := h.pending
    out := by rw [ho]; exact h.out
    regs := by rw [hr]; exact h.regs
    mem := (Memory.wf_iff _).2 ⟨⟨h1 c.1.1, h2 c.1.2⟩, h3 c.2.1, h4 c.2.2⟩
    fuses := by rw [hf]; exact h.fuses }

/-- A record update that burns fuses. -/
theorem good_mk_fuses {o : Origin} {s : State} {x_out} {x_free} {x_resp} {x_regs} {x_latches} {x_lowHeld} {x_tree} {x_counts} {x_clk} {x_icu} {x_chk} {x_hif} {x_pwr} {x_mem} {x_flash} {x_journal} {x_health} {x_sec} {x_keeper} {x_cnt} {x_side} {x_agm} {x_arr} {x_spn} {x_tum} {x_launches} {x_nextLaunch} {x_fab} {x_syn} {x_waits} {x_amax} {x_poison} {x_frozen} {x_ten}
    (h : Good o s) (ho : x_out = s.out) (hr : x_regs = s.regs) (h1 : x_mem.hbm = s.mem.hbm)
    (h2 : x_mem.scratch = s.mem.scratch) (h3 : x_mem.hbmPoison = s.mem.hbmPoison)
    (h4 : x_mem.scratchPoison = s.mem.scratchPoison) (hf : Fuses.kept s.keeper.fuses x_keeper.fuses) :
    Good o { s with
      out := x_out
      free := x_free
      resp := x_resp
      regs := x_regs
      latches := x_latches
      lowHeld := x_lowHeld
      tree := x_tree
      counts := x_counts
      clk := x_clk
      icu := x_icu
      chk := x_chk
      hif := x_hif
      pwr := x_pwr
      mem := x_mem
      flash := x_flash
      journal := x_journal
      health := x_health
      sec := x_sec
      keeper := x_keeper
      cnt := x_cnt
      side := x_side
      agm := x_agm
      arr := x_arr
      spn := x_spn
      tum := x_tum
      launches := x_launches
      nextLaunch := x_nextLaunch
      fab := x_fab
      syn := x_syn
      waits := x_waits
      amax := x_amax
      poison := x_poison
      frozen := x_frozen
      ten := x_ten } :=
  { pending := h.pending
    out := by rw [ho]; exact h.out
    regs := by rw [hr]; exact h.regs
    mem := by
      have := h.mem
      unfold Memory.wf at this ⊢
      rw [h1, h2, h3, h4]
      exact this
    fuses := Fuses.kept_trans h.fuses hf }

end Sys2Proof.Machine
end

