-- ==== Sys2Proof/Laws/Keep/Ops.lean ====
section
/-! SUPPORT. What the operations of Machine/Ops.lean keep. -/

namespace Sys2Proof.Machine

theorem State.resetBlock_good {og : Origin} {a1 : State} {a2 : Nat} {a3 : Nat} (h1 : Good og (a1)) :
    Good og (@State.resetBlock a1 a2 a3) := by
  exact { h1 with regs := KMap.rising_filter _ h1.regs }


theorem State.wr_good {og : Origin} {a1 : State} {a2 : Field} {a3 : Nat} (h1 : Good og (a1)) :
    Good og (@State.wr a1 a2 a3) := by
  unfold State.wr
  exact State.setReg_good ‹_›

theorem State.add_good {og : Origin} {a1 : State} {a2 : Field} {a3 : Nat} (h1 : Good og (a1)) :
    Good og (@State.add a1 a2 a3) := by
  unfold State.add
  exact State.wr_good ‹_›

theorem State.addSat_good {og : Origin} {a1 : State} {a2 : Field} {a3 : Nat} (h1 : Good og (a1)) :
    Good og (@State.addSat a1 a2 a3) := by
  unfold State.addSat
  exact State.wr_good ‹_›

theorem State.event_good {og : Origin} {a1 : State} {a2 : Nat} {a3 : Dest} {a4 : List Nat} (h1 : Good og (a1)) :
    Good og (@State.event a1 a2 a3 a4) := by
  unfold State.event
  exact State.emit_good ‹_›

theorem State.drawn_good {og : Origin} {a1 : State} (h1 : Good og (a1)) :
    Good og (@State.drawn a1) := by
  unfold State.drawn
  exact good_mk ‹_› rfl rfl rfl rfl rfl rfl rfl

theorem State.count_good {og : Origin} {a1 : State} {a2 : Nat} {a3 : Nat} {a4 : Nat} (h1 : Good og (a1)) :
    Good og (@State.count a1 a2 a3 a4) := by
  unfold State.count
  exact good_mk ‹_› rfl rfl rfl rfl rfl rfl rfl

theorem State.pend_good {og : Origin} {a1 : State} {a2 : Nat} (h1 : Good og (a1)) :
    Good og (@State.pend a1 a2) := by
  unfold State.pend
  refine good_ite ?_ ?_
  · exact State.count_good (State.setReg_good ‹_›)
  · assumption

theorem State.setEvent_good {og : Origin} {a1 : State} {a2 : Field} (h1 : Good og (a1)) :
    Good og (@State.setEvent a1 a2) := by
  unfold State.setEvent
  refine good_ite ?_ ?_
  · assumption
  · split
    · rename_i w1 w2 w3 w4
      extract_lets +onlyGivenNames x5
      have h6 : Good og (x5) := by subst x5; exact State.pend_good (State.wr_good ‹_›)
      try clear_value x5
      refine good_ite ?_ ?_
      · exact State.pend_good ‹_›
      · assumption
    · rename_i w7 w8
      split
      · rename_i w9 w10
        exact State.pend_good (State.wr_good ‹_›)
      · rename_i w11 w12
        exact State.wr_good ‹_›

theorem State.raise_good {og : Origin} {a1 : State} {a2 : Nat} (h1 : Good og (a1)) :
    Good og (@State.raise a1 a2) := by
  unfold State.raise
  refine good_ite ?_ ?_
  · assumption
  · refine good_ite ?_ ?_
    · exact State.count_good (State.setEvent_good ‹_›)
    · exact State.pend_good ‹_›

theorem State.denied_good {og : Origin} {a1 : State} (h1 : Good og (a1)) :
    Good og (@State.denied a1) := by
  unfold State.denied
  exact State.count_good (State.setEvent_good ‹_›)

theorem State.send_good {og : Origin} {a1 : State} {a2 : Nat} {a3 : TreeMsg} (h1 : Good og (a1)) :
    Good og (@State.send a1 a2 a3) := by
  unfold State.send
  exact good_mk ‹_› rfl rfl rfl rfl rfl rfl rfl

theorem State.popMsg_good {og : Origin} {a1 : State} {a2 : Nat} (h1 : Good og (a1)) :
    Good og (@State.popMsg a1 a2) := by
  unfold State.popMsg
  exact good_mk ‹_› rfl rfl rfl rfl rfl rfl rfl

theorem State.setTenant_good {og : Origin} {a1 : State} {a2 : Nat} {a3 : Tenant} (h1 : Good og (a1)) :
    Good og (@State.setTenant a1 a2 a3) := by
  unfold State.setTenant
  exact good_mk ‹_› rfl rfl rfl rfl rfl rfl rfl

theorem State.modTenant_good {og : Origin} {a1 : State} {a2 : Nat} {a3 : Tenant → Tenant} (h1 : Good og (a1)) :
    Good og (@State.modTenant a1 a2 a3) := by
  unfold State.modTenant
  exact State.setTenant_good ‹_›

theorem State.hostWrite_good {og : Origin} {a1 : State} {a2 : Nat} {a3 : List Byte} (h1 : Good og (a1)) :
    Good og (@State.hostWrite a1 a2 a3) := by
  unfold State.hostWrite
  refine good_ite ?_ ?_
  · exact State.count_good (State.emit_good ‹_›)
  · exact State.setEvent_good ‹_›

end Sys2Proof.Machine
end

