-- ==== Sys2Proof/Laws/Keep/JournalOps.lean ====
section
/-! SUPPORT. What the operations of Machine/JournalOps.lean keep. -/

namespace Sys2Proof.Machine

theorem State.journalBegin_good {og : Origin} {a1 : State} {a2 : JRecord} (h1 : Good og (a1)) :
    Good og (@State.journalBegin a1 a2) := by
  unfold State.journalBegin
  extract_lets +onlyGivenNames x1; try clear_value x1
  extract_lets +onlyGivenNames x2; try clear_value x2
  exact good_mk ‹_› rfl rfl rfl rfl rfl rfl rfl

theorem State.journalGuard_good {og : Origin} {a1 : State} (h1 : Good og (a1)) :
    Good og (@State.journalGuard a1) := by
  unfold State.journalGuard
  split
  · rename_i w1 w2 w3
    refine good_ite ?_ ?_
    · extract_lets +onlyGivenNames x4
      try clear_value x4
      extract_lets +onlyGivenNames x5; try clear_value x5
      refine good_ite ?_ ?_
      · assumption
      · exact State.journalBegin_good ‹_›
    · assumption
  · rename_i w6 w7
    assumption

theorem State.journalStart_good {og : Origin} {a1 : Nat} {a2 : State} (h2 : Good og (a2)) :
    Good og (@State.journalStart a1 a2) := by
  induction a1 generalizing a2 with
  | zero =>
    rw [State.journalStart]
    assumption
  | succ n ih =>
    rw [State.journalStart]
    refine good_ite ?_ ?_
    · split
      · rename_i w1 w2
        assumption
      · rename_i w3 w4 w5
        split
        · rename_i w6 w7
          assumption
        · rename_i w8 w9 w10
          extract_lets +onlyGivenNames x11
          have h12 : Good og (x11) := by subst x11; exact State.journalGuard_good ‹_›
          try clear_value x11
          exact ih (State.journalBegin_good (good_mk ‹_› rfl rfl rfl rfl rfl rfl rfl))
    · assumption

theorem State.journalOffer_good {og : Origin} {a1 : State} {a2 : JRecord} (h1 : Good og (a1)) :
    Good og (@State.journalOffer a1 a2) := by
  unfold State.journalOffer
  refine good_ite ?_ ?_
  · exact State.event_good ‹_›
  · extract_lets +onlyGivenNames x1
    try clear_value x1
    extract_lets +onlyGivenNames x2; try clear_value x2
    extract_lets +onlyGivenNames x3; try clear_value x3
    exact State.journalStart_good (good_mk ‹_› rfl rfl rfl rfl rfl rfl rfl)

theorem State.journalProgram_good {og : Origin} {a1 : State} {a2 : JRun} (h1 : Good og (a1)) :
    Good og (@State.journalProgram a1 a2) := by
  unfold State.journalProgram
  extract_lets +onlyGivenNames x1; try clear_value x1
  exact good_mk ‹_› rfl rfl rfl rfl rfl rfl rfl

theorem State.slcWrite_good {og : Origin} {a1 : State} {a2 : Nat} (h1 : Good og (a1)) :
    Good og (@State.slcWrite a1 a2) := by
  unfold State.slcWrite
  extract_lets +onlyGivenNames x1; try clear_value x1
  extract_lets +onlyGivenNames x2; try clear_value x2
  extract_lets +onlyGivenNames x3
  have h4 : Good og (x3) := by subst x3; exact State.add_good (good_mk ‹_› rfl rfl rfl rfl rfl rfl rfl)
  try clear_value x3
  exact State.wr_good ‹_›

theorem State.tlcWrite_good {og : Origin} {a1 : State} {a2 : Nat} (h1 : Good og (a1)) :
    Good og (@State.tlcWrite a1 a2) := by
  unfold State.tlcWrite
  extract_lets +onlyGivenNames x1; try clear_value x1
  extract_lets +onlyGivenNames x2; try clear_value x2
  extract_lets +onlyGivenNames x3
  have h4 : Good og (x3) := by subst x3; exact State.add_good (good_mk ‹_› rfl rfl rfl rfl rfl rfl rfl)
  try clear_value x3
  extract_lets +onlyGivenNames x5
  have h6 : Good og (x5) := by subst x5; exact State.count_good ‹_›
  try clear_value x5
  extract_lets +onlyGivenNames x7
  have h8 : Good og (x7) := by subst x7; exact State.wr_good ‹_›
  try clear_value x7
  refine good_ite ?_ ?_
  · exact State.event_good (State.setEvent_good (State.wr_good ‹_›))
  · assumption

theorem State.journalCommit_good {og : Origin} {a1 : State} {a2 : JRun} (h1 : Good og (a1)) :
    Good og (@State.journalCommit a1 a2) := by
  unfold State.journalCommit
  extract_lets +onlyGivenNames x1
  have h2 : Good og (x1) := by subst x1; exact State.journalProgram_good ‹_›
  try clear_value x1
  extract_lets +onlyGivenNames x3; try clear_value x3
  extract_lets +onlyGivenNames x4
  have h5 : Good og (x4) := by subst x4; exact good_mk ‹_› rfl rfl rfl rfl rfl rfl rfl
  try clear_value x4
  extract_lets +onlyGivenNames x6
  have h7 : Good og (x6) := by
    subst x6
    refine good_ite ?_ ?_
    · exact State.setReg_good ‹_›
    · assumption
  try clear_value x6
  exact State.slcWrite_good (State.count_good (State.count_good ‹_›))

end Sys2Proof.Machine
end

