-- ==== Sys2Proof/Laws/Keep/Reset.lean ====
section
/-! SUPPORT. What the operations of Machine/Reset.lean keep. -/

namespace Sys2Proof.Machine

theorem State.deviceReset_good {og : Origin} {a1 : State} (h1 : Good og (a1)) :
    Good og (@State.deviceReset a1) := by
  exact
    { pending := h1.pending
      out := h1.out
      regs := KMap.rising_set _ _ _ (KMap.rising_set _ _ _ rfl)
      mem := rfl
      fuses := h1.fuses }


theorem State.resetSequence_good {og : Origin} {a1 : State} {a2 : Nat} (h1 : Good og (a1)) :
    Good og (@State.resetSequence a1 a2) := by
  unfold State.resetSequence
  split
  · rename_i w1 w2 w3
    assumption
  · rename_i w4 w5
    exact good_mk ‹_› rfl rfl rfl rfl rfl rfl rfl

theorem State.finishRecords_good {og : Origin} {a1 : State} (h1 : Good og (a1)) :
    Good og (@State.finishRecords a1) := by
  unfold State.finishRecords
  refine good_foldl ?_ (fun s1 y2 h3 => ?_)
  · assumption
  · exact State.journalCommit_good ‹_›

theorem State.powerEvent_good {og : Origin} {a1 : State} {a2 : Nat} (h1 : Good og (a1)) :
    Good og (@State.powerEvent a1 a2) := by
  unfold State.powerEvent
  extract_lets +onlyGivenNames x1
  have h2 : Good og (x1) := by subst x1; exact State.journalBegin_good ‹_›
  try clear_value x1
  exact State.finishRecords_good ‹_›

theorem State.resetEnd_good {og : Origin} {a1 : State} {a2 : Nat} (h1 : Good og (a1)) :
    Good og (@State.resetEnd a1 a2) := by
  unfold State.resetEnd
  extract_lets +onlyGivenNames x1
  have h2 : Good og (x1) := by subst x1; exact State.finishRecords_good ‹_›
  try clear_value x1
  extract_lets +onlyGivenNames x3
  have h4 : Good og (x3) := by
    subst x3
    refine good_ite ?_ ?_
    · exact State.powerEvent_good ‹_›
    · assumption
  try clear_value x3
  extract_lets +onlyGivenNames x5
  have h6 : Good og (x5) := by subst x5; exact State.deviceReset_good ‹_›
  try clear_value x5
  refine good_ite ?_ ?_
  · exact good_mk ‹_› rfl rfl rfl rfl rfl rfl rfl
  · assumption

end Sys2Proof.Machine
end

