-- ==== Sys2Proof/Laws/Keep/Health.lean ====
section
/-! SUPPORT. What the operations of Machine/Health.lean keep. -/

namespace Sys2Proof.Machine

theorem State.dueLayer_good {og : Origin} {a1 : State} {a2 : Nat} {a3 : Nat} (h1 : Good og (a1)) :
    Good og (@State.dueLayer a1 a2 a3) := by
  unfold State.dueLayer
  extract_lets +onlyGivenNames x1; try clear_value x1
  extract_lets +onlyGivenNames x2; try clear_value x2
  extract_lets +onlyGivenNames x3; try clear_value x3
  exact good_mk ‹_› rfl rfl rfl rfl rfl rfl rfl

theorem State.dueAll_good {og : Origin} {a1 : State} {a2 : List Nat} {a3 : Bool} (h1 : Good og (a1)) :
    Good og (@State.dueAll a1 a2 a3) := by
  unfold State.dueAll
  refine good_foldl ?_ (fun s1 y2 h3 => ?_)
  · assumption
  · refine good_ite ?_ ?_
    · refine good_foldl ?_ (fun s4 y5 h6 => ?_)
      · assumption
      · exact State.dueLayer_good ‹_›
    · assumption

theorem State.recomputeRisk_good {og : Origin} {a1 : State} (h1 : Good og (a1)) :
    Good og (@State.recomputeRisk a1) := by
  unfold State.recomputeRisk
  extract_lets +onlyGivenNames x1; try clear_value x1
  split
  · rename_i w2 w3 w4 w5
    extract_lets +onlyGivenNames x6
    have h7 : Good og (x6) := by subst x6; exact State.wr_good (State.wr_good ‹_›)
    try clear_value x6
    refine good_ite ?_ ?_
    · assumption
    · extract_lets +onlyGivenNames x8
      have h9 : Good og (x8) := by subst x8; exact State.event_good (State.setEvent_good ‹_›)
      try clear_value x8
      extract_lets +onlyGivenNames x10
      have h11 : Good og (x10) := by
        subst x10
        refine good_ite ?_ ?_
        · exact State.dueAll_good ‹_›
        · assumption
      try clear_value x10
      refine good_ite ?_ ?_
      · exact State.dueAll_good ‹_›
      · assumption

theorem State.healthInput_good {og : Origin} {a1 : State} {a2 : RiskInput} (h1 : Good og (a1)) :
    Good og (@State.healthInput a1 a2) := by
  unfold State.healthInput
  refine good_ite ?_ ?_
  · exact State.recomputeRisk_good (good_mk ‹_› rfl rfl rfl rfl rfl rfl rfl)
  · assumption

theorem State.riskExpiry_good {og : Origin} {a1 : State} {a2 : RiskInput} (h1 : Good og (a1)) :
    Good og (@State.riskExpiry a1 a2) := by
  unfold State.riskExpiry
  exact State.recomputeRisk_good (good_mk ‹_› rfl rfl rfl rfl rfl rfl rfl)

theorem execRiskHoldExpiry_good {og : Origin} {a1 : RiskInput} {a2 : State} (h2 : Good og (a2)) :
    GoodOut og (@execRiskHoldExpiry a1 a2) := by
  unfold execRiskHoldExpiry
  exact goodOut_next (State.riskExpiry_good ‹_›)

theorem State.secureRequest_good {og : Origin} {a1 : State} {a2 : Word} (h1 : Good og (a1)) :
    Good og (@State.secureRequest a1 a2) := by
  unfold State.secureRequest
  extract_lets +onlyGivenNames x1; try clear_value x1
  refine good_ite ?_ ?_
  · refine good_foldl ?_ (fun s2 y3 h4 => ?_)
    · assumption
    · refine good_ite ?_ ?_
      · exact State.dueLayer_good ‹_›
      · assumption
  · assumption

theorem execSecureRequest_good {og : Origin} {a1 : Word} {a2 : State} (h2 : Good og (a2)) :
    GoodOut og (@execSecureRequest a1 a2) := by
  unfold execSecureRequest
  exact goodOut_next (State.secureRequest_good ‹_›)

end Sys2Proof.Machine
end

