-- ==== Sys2Proof/Laws/Keep/Clock.lean ====
section
/-! SUPPORT. What the operations of Machine/Clock.lean keep. -/

namespace Sys2Proof.Machine

theorem State.divide_good {og : Origin} {a1 : State} (h1 : Good og (a1)) :
    Good og (@State.divide a1) := by
  unfold State.divide
  split
  · rename_i w1 w2
    refine good_ite ?_ ?_
    · assumption
    · exact State.count_good (State.wr_good (State.wr_good (good_mk ‹_› rfl rfl rfl rfl rfl rfl rfl)))
  · rename_i w3 w4
    exact good_mk ‹_› rfl rfl rfl rfl rfl rfl rfl

theorem execClkHostRequest_good {og : Origin} {a1 : BitVec 2} {a2 : State} (h2 : Good og (a2)) :
    GoodOut og (@execClkHostRequest a1 a2) := by
  unfold execClkHostRequest
  exact goodOut_next (State.divide_good (State.wr_good ‹_›))

theorem State.fwRequest_good {og : Origin} {a1 : State} {a2 : Nat} (h1 : Good og (a1)) :
    Good og (@State.fwRequest a1 a2) := by
  unfold State.fwRequest
  exact State.divide_good (State.wr_good ‹_›)

theorem execClkFwRequest_good {og : Origin} {a1 : BitVec 2} {a2 : State} (h2 : Good og (a2)) :
    GoodOut og (@execClkFwRequest a1 a2) := by
  unfold execClkFwRequest
  exact goodOut_next (State.fwRequest_good ‹_›)

theorem execArrayClockHold_good {og : Origin} {a1 : State} (h1 : Good og (a1)) :
    GoodOut og (@execArrayClockHold a1) := by
  unfold execArrayClockHold
  split
  · rename_i w1 w2
    exact goodOut_next (good_mk ‹_› rfl rfl rfl rfl rfl rfl rfl)
  · rename_i w3 w4
    exact goodOut_next ‹_›

theorem State.clockResume_good {og : Origin} {a1 : State} (h1 : Good og (a1)) :
    Good og (@State.clockResume a1) := by
  unfold State.clockResume
  split
  · rename_i w1 w2
    exact State.setEvent_good (State.wr_good (State.wr_good (good_mk ‹_› rfl rfl rfl rfl rfl rfl rfl)))
  · rename_i w3 w4
    assumption

theorem execArrayClockResume_good {og : Origin} {a1 : State} (h1 : Good og (a1)) :
    GoodOut og (@execArrayClockResume a1) := by
  unfold execArrayClockResume
  exact goodOut_next (State.clockResume_good ‹_›)

theorem execDeferredDividerChange_good {og : Origin} {a1 : State} (h1 : Good og (a1)) :
    GoodOut og (@execDeferredDividerChange a1) := by
  unfold execDeferredDividerChange
  split
  · rename_i w1 w2
    split
    · rename_i w3
      exact goodOut_next (State.divide_good (good_mk ‹_› rfl rfl rfl rfl rfl rfl rfl))
    · rename_i w4
      exact goodOut_next ‹_›
  · rename_i w5 w6
    exact goodOut_next ‹_›

theorem State.enterHoldover_good {og : Origin} {a1 : State} (h1 : Good og (a1)) :
    Good og (@State.enterHoldover a1) := by
  unfold State.enterHoldover
  refine good_ite ?_ ?_
  · assumption
  · exact State.count_good (State.wr_good ‹_›)

theorem State.refLost_good {og : Origin} {a1 : State} (h1 : Good og (a1)) :
    Good og (@State.refLost a1) := by
  unfold State.refLost
  refine good_ite ?_ ?_
  · assumption
  · extract_lets +onlyGivenNames x1
    try clear_value x1
    extract_lets +onlyGivenNames x2
    have h3 : Good og (x2) := by subst x2; exact good_mk ‹_› rfl rfl rfl rfl rfl rfl rfl
    try clear_value x2
    extract_lets +onlyGivenNames x4
    have h5 : Good og (x4) := by
      subst x4
      refine good_ite ?_ ?_
      · exact State.wr_good ‹_›
      · exact State.wr_good ‹_›
    try clear_value x4
    exact State.healthInput_good (State.event_good (State.setEvent_good (State.enterHoldover_good ‹_›)))

theorem execRefLost_good {og : Origin} {a1 : State} (h1 : Good og (a1)) :
    GoodOut og (@execRefLost a1) := by
  unfold execRefLost
  exact goodOut_next (State.refLost_good ‹_›)

theorem State.refReturn_good {og : Origin} {a1 : State} (h1 : Good og (a1)) :
    Good og (@State.refReturn a1) := by
  unfold State.refReturn
  refine good_ite ?_ ?_
  · extract_lets +onlyGivenNames x1
    try clear_value x1
    extract_lets +onlyGivenNames x2
    have h3 : Good og (x2) := by subst x2; exact good_mk ‹_› rfl rfl rfl rfl rfl rfl rfl
    try clear_value x2
    refine good_ite ?_ ?_
    · exact State.wr_good ‹_›
    · assumption
  · assumption

theorem execRefReturn_good {og : Origin} {a1 : State} (h1 : Good og (a1)) :
    GoodOut og (@execRefReturn a1) := by
  unfold execRefReturn
  exact goodOut_next (State.refReturn_good ‹_›)

theorem State.pllRelock_good {og : Origin} {a1 : State} (h1 : Good og (a1)) :
    Good og (@State.pllRelock a1) := by
  unfold State.pllRelock
  refine good_ite ?_ ?_
  · extract_lets +onlyGivenNames x1
    try clear_value x1
    extract_lets +onlyGivenNames x2
    have h3 : Good og (x2) := by subst x2; exact good_mk ‹_› rfl rfl rfl rfl rfl rfl rfl
    try clear_value x2
    refine good_ite ?_ ?_
    · assumption
    · exact State.wr_good ‹_›
  · assumption

theorem execPllRelock_good {og : Origin} {a1 : State} (h1 : Good og (a1)) :
    GoodOut og (@execPllRelock a1) := by
  unfold execPllRelock
  exact goodOut_next (State.pllRelock_good ‹_›)

theorem State.pllUnlock_good {og : Origin} {a1 : State} (h1 : Good og (a1)) :
    Good og (@State.pllUnlock a1) := by
  unfold State.pllUnlock
  refine good_ite ?_ ?_
  · assumption
  · extract_lets +onlyGivenNames x1
    try clear_value x1
    extract_lets +onlyGivenNames x2
    have h3 : Good og (x2) := by subst x2; exact good_mk ‹_› rfl rfl rfl rfl rfl rfl rfl
    try clear_value x2
    exact State.healthInput_good (State.event_good (State.setEvent_good (State.enterHoldover_good ‹_›)))

theorem execPllUnlock_good {og : Origin} {a1 : State} (h1 : Good og (a1)) :
    GoodOut og (@execPllUnlock a1) := by
  unfold execPllUnlock
  exact goodOut_next (State.pllUnlock_good ‹_›)

theorem State.holdoverDeadline_good {og : Origin} {a1 : State} (h1 : Good og (a1)) :
    Good og (@State.holdoverDeadline a1) := by
  unfold State.holdoverDeadline
  refine good_ite ?_ ?_
  · exact State.resetSequence_good (State.event_good (State.setEvent_good ‹_›))
  · assumption

theorem execHoldoverDeadline_good {og : Origin} {a1 : State} (h1 : Good og (a1)) :
    GoodOut og (@execHoldoverDeadline a1) := by
  unfold execHoldoverDeadline
  exact goodOut_next (State.holdoverDeadline_good ‹_›)

theorem State.refHostPresent_good {og : Origin} {a1 : State} (h1 : Good og (a1)) :
    Good og (@State.refHostPresent a1) := by
  unfold State.refHostPresent
  extract_lets +onlyGivenNames x1
  have h2 : Good og (x1) := by subst x1; exact State.wr_good ‹_›
  try clear_value x1
  refine good_ite ?_ ?_
  · exact State.wr_good (good_mk ‹_› rfl rfl rfl rfl rfl rfl rfl)
  · assumption

theorem execRefHostPresent_good {og : Origin} {a1 : State} (h1 : Good og (a1)) :
    GoodOut og (@execRefHostPresent a1) := by
  unfold execRefHostPresent
  exact goodOut_next (State.refHostPresent_good ‹_›)

theorem execRefAutoTimeout_good {og : Origin} {a1 : State} (h1 : Good og (a1)) :
    GoodOut og (@execRefAutoTimeout a1) := by
  unfold execRefAutoTimeout
  split
  · rename_i w1
    exact goodOut_next (State.wr_good (good_mk ‹_› rfl rfl rfl rfl rfl rfl rfl))
  · rename_i w2
    exact goodOut_next ‹_›

theorem State.sampleStraps_good {og : Origin} {a1 : State} {a2 : Straps} (h1 : Good og (a1)) :
    Good og (@State.sampleStraps a1 a2) := by
  unfold State.sampleStraps
  extract_lets +onlyGivenNames x1; try clear_value x1
  extract_lets +onlyGivenNames x2
  have h3 : Good og (x2) := by subst x2; exact good_mk ‹_› rfl rfl rfl rfl rfl rfl rfl
  try clear_value x2
  extract_lets +onlyGivenNames x4
  have h5 : Good og (x4) := by subst x4; exact State.wr_good (State.wr_good (State.wr_good ‹_›))
  try clear_value x4
  extract_lets +onlyGivenNames x6
  have h7 : Good og (x6) := by subst x6; exact State.wr_good ‹_›
  try clear_value x6
  refine good_ite ?_ ?_
  · exact State.event_good ‹_›
  · assumption

theorem State.startClocks_good {og : Origin} {a1 : State} {a2 : Straps} (h1 : Good og (a1)) :
    Good og (@State.startClocks a1 a2) := by
  unfold State.startClocks
  extract_lets +onlyGivenNames x1
  have h2 : Good og (x1) := by subst x1; exact State.sampleStraps_good ‹_›
  try clear_value x1
  extract_lets +onlyGivenNames x3
  have h4 : Good og (x3) := by subst x3; exact State.wr_good ‹_›
  try clear_value x3
  extract_lets +onlyGivenNames x5; try clear_value x5
  extract_lets +onlyGivenNames x6; try clear_value x6
  extract_lets +onlyGivenNames x7
  have h8 : Good og (x7) := by subst x7; exact good_mk ‹_› rfl rfl rfl rfl rfl rfl rfl
  try clear_value x7
  exact State.wr_good (State.wr_good ‹_›)

theorem State.railRelease_good {og : Origin} {a1 : State} {a2 : Straps} (h1 : Good og (a1)) :
    Good og (@State.railRelease a1 a2) := by
  unfold State.railRelease
  refine good_ite ?_ ?_
  · exact State.startClocks_good ‹_›
  · assumption

theorem execModuleRailRelease_good {og : Origin} {a1 : Straps} {a2 : State} (h2 : Good og (a2)) :
    GoodOut og (@execModuleRailRelease a1 a2) := by
  unfold execModuleRailRelease
  exact goodOut_next (State.railRelease_good ‹_›)

theorem State.pllLock_good {og : Origin} {a1 : State} (h1 : Good og (a1)) :
    Good og (@State.pllLock a1) := by
  unfold State.pllLock
  refine good_ite ?_ ?_
  · exact State.wr_good (good_mk ‹_› rfl rfl rfl rfl rfl rfl rfl)
  · assumption

theorem execPllLock_good {og : Origin} {a1 : State} (h1 : Good og (a1)) :
    GoodOut og (@execPllLock a1) := by
  unfold execPllLock
  exact goodOut_next (State.pllLock_good ‹_›)

theorem State.pllLockTimeout_good {og : Origin} {a1 : State} (h1 : Good og (a1)) :
    Good og (@State.pllLockTimeout a1) := by
  unfold State.pllLockTimeout
  refine good_ite ?_ ?_
  · extract_lets +onlyGivenNames x1
    try clear_value x1
    extract_lets +onlyGivenNames x2
    have h3 : Good og (x2) := by subst x2; exact good_mk ‹_› rfl rfl rfl rfl rfl rfl rfl
    try clear_value x2
    refine good_ite ?_ ?_
    · exact State.wr_good (State.wr_good ‹_›)
    · assumption
  · assumption

theorem execPllLockTimeout_good {og : Origin} {a1 : State} (h1 : Good og (a1)) :
    GoodOut og (@execPllLockTimeout a1) := by
  unfold execPllLockTimeout
  exact goodOut_next (State.pllLockTimeout_good ‹_›)

end Sys2Proof.Machine
end

