-- ==== Sys2Proof/Laws/Keep/Power.lean ====
section
/-! SUPPORT. What the operations of Machine/Power.lean keep. -/

namespace Sys2Proof.Machine

theorem State.setFloor_good {og : Origin} {a1 : State} {a2 : Nat} (h1 : Good og (a1)) :
    Good og (@State.setFloor a1 a2) := by
  unfold State.setFloor
  refine good_ite ?_ ?_
  · assumption
  · exact State.divide_good (State.count_good (State.setEvent_good (State.wr_good ‹_›)))

theorem State.supplyLost_good {og : Origin} {a1 : State} (h1 : Good og (a1)) :
    Good og (@State.supplyLost a1) := by
  unfold State.supplyLost
  exact State.wr_good (good_mk ‹_› rfl rfl rfl rfl rfl rfl rfl)

theorem State.powerSample_good {og : Origin} {a1 : State} {a2 : PowerReading} (h1 : Good og (a1)) :
    Good og (@State.powerSample a1 a2) := by
  unfold State.powerSample
  extract_lets +onlyGivenNames x1
  have h2 : Good og (x1) := by
    subst x1
    refine good_ite ?_ ?_
    · exact State.supplyLost_good ‹_›
    · assumption
  try clear_value x1
  extract_lets +onlyGivenNames x3
  have h4 : Good og (x3) := by subst x3; exact State.wr_good ‹_›
  try clear_value x3
  extract_lets +onlyGivenNames x5
  have h6 : Good og (x5) := by subst x5; exact State.wr_good ‹_›
  try clear_value x5
  extract_lets +onlyGivenNames x7
  have h8 : Good og (x7) := by subst x7; exact State.wr_good (State.wr_good ‹_›)
  try clear_value x7
  exact State.setFloor_good (State.drawn_good (State.count_good ‹_›))

theorem execPowerSample_good {og : Origin} {a1 : PowerReading} {a2 : State} (h2 : Good og (a2)) :
    GoodOut og (@execPowerSample a1 a2) := by
  unfold execPowerSample
  exact goodOut_next (State.powerSample_good ‹_›)

theorem State.minClear_good {og : Origin} {a1 : State} (h1 : Good og (a1)) :
    Good og (@State.minClear a1) := by
  unfold State.minClear
  exact State.wr_good ‹_›

theorem execMinClear_good {og : Origin} {a1 : State} (h1 : Good og (a1)) :
    GoodOut og (@execMinClear a1) := by
  unfold execMinClear
  exact goodOut_next (State.minClear_good ‹_›)

theorem State.enterLow_good {og : Origin} {a1 : State} (h1 : Good og (a1)) :
    Good og (@State.enterLow a1) := by
  unfold State.enterLow
  exact State.event_good (State.setEvent_good (State.wr_good ‹_›))

theorem State.inputLow_good {og : Origin} {a1 : State} (h1 : Good og (a1)) :
    Good og (@State.inputLow a1) := by
  unfold State.inputLow
  refine good_ite ?_ ?_
  · exact State.enterLow_good ‹_›
  · assumption

theorem execInputLow_good {og : Origin} {a1 : State} (h1 : Good og (a1)) :
    GoodOut og (@execInputLow a1) := by
  unfold execInputLow
  exact goodOut_next (State.inputLow_good ‹_›)

theorem State.inputNormal_good {og : Origin} {a1 : State} (h1 : Good og (a1)) :
    Good og (@State.inputNormal a1) := by
  unfold State.inputNormal
  refine good_ite ?_ ?_
  · exact State.wr_good ‹_›
  · assumption

theorem execInputNormal_good {og : Origin} {a1 : State} (h1 : Good og (a1)) :
    GoodOut og (@execInputNormal a1) := by
  unfold execInputNormal
  exact goodOut_next (State.inputNormal_good ‹_›)

theorem State.inputReset_good {og : Origin} {a1 : State} {a2 : Nat} (h1 : Good og (a1)) :
    Good og (@State.inputReset a1 a2) := by
  unfold State.inputReset
  split
  · rename_i w1 w2
    exact State.resetSequence_good ‹_›
  · rename_i w3 w4 w5
    exact good_mk ‹_› rfl rfl rfl rfl rfl rfl rfl
  · rename_i w6 w7
    exact good_mk ‹_› rfl rfl rfl rfl rfl rfl rfl
  · rename_i w8 w9
    exact good_mk ‹_› rfl rfl rfl rfl rfl rfl rfl
  · rename_i w10 w11 w12 w13 w14
    assumption

theorem State.inputHigh_good {og : Origin} {a1 : State} (h1 : Good og (a1)) :
    Good og (@State.inputHigh a1) := by
  unfold State.inputHigh
  exact State.inputReset_good (State.event_good (State.setEvent_good (State.wr_good ‹_›)))

theorem execInputHigh_good {og : Origin} {a1 : State} (h1 : Good og (a1)) :
    GoodOut og (@execInputHigh a1) := by
  unfold execInputHigh
  exact goodOut_next (State.inputHigh_good ‹_›)

theorem State.pauseDrains_good {og : Origin} {a1 : State} {a2 : Bool} (h1 : Good og (a1)) :
    Good og (@State.pauseDrains a1 a2) := by
  unfold State.pauseDrains
  exact good_mk ‹_› rfl rfl rfl rfl rfl rfl rfl

theorem State.endCoalescing_good {og : Origin} {a1 : State} (h1 : Good og (a1)) :
    Good og (@State.endCoalescing a1) := by
  unfold State.endCoalescing
  exact State.journalStart_good (good_mk ‹_› rfl rfl rfl rfl rfl rfl rfl)

theorem State.droopWarning_good {og : Origin} {a1 : State} (h1 : Good og (a1)) :
    Good og (@State.droopWarning a1) := by
  unfold State.droopWarning
  refine good_ite ?_ ?_
  · extract_lets +onlyGivenNames x1
    try clear_value x1
    extract_lets +onlyGivenNames x2
    have h3 : Good og (x2) := by subst x2; exact good_mk ‹_› rfl rfl rfl rfl rfl rfl rfl
    try clear_value x2
    extract_lets +onlyGivenNames x4
    have h5 : Good og (x4) := by subst x4; exact State.event_good (State.setEvent_good (State.wr_good ‹_›))
    try clear_value x4
    extract_lets +onlyGivenNames x6
    have h7 : Good og (x6) := by subst x6; exact State.endCoalescing_good (State.setFloor_good ‹_›)
    try clear_value x6
    extract_lets +onlyGivenNames x8
    have h9 : Good og (x8) := by subst x8; exact State.pauseDrains_good (State.journalOffer_good ‹_›)
    try clear_value x8
    extract_lets +onlyGivenNames x10
    have h11 : Good og (x10) := by subst x10; exact State.count_good (State.addSat_good ‹_›)
    try clear_value x10
    exact State.healthInput_good ‹_›
  · assumption

theorem execDroopWarning_good {og : Origin} {a1 : State} (h1 : Good og (a1)) :
    GoodOut og (@execDroopWarning a1) := by
  unfold execDroopWarning
  exact goodOut_next (State.droopWarning_good ‹_›)

theorem State.droopRecovery_good {og : Origin} {a1 : State} (h1 : Good og (a1)) :
    Good og (@State.droopRecovery a1) := by
  unfold State.droopRecovery
  refine good_ite ?_ ?_
  · extract_lets +onlyGivenNames x1
    have h2 : Good og (x1) := by
      subst x1
      refine good_ite ?_ ?_
      · exact State.enterLow_good ‹_›
      · exact State.wr_good ‹_›
    try clear_value x1
    extract_lets +onlyGivenNames x3
    have h4 : Good og (x3) := by subst x3; exact State.setFloor_good (State.setEvent_good ‹_›)
    try clear_value x3
    extract_lets +onlyGivenNames x5; try clear_value x5
    exact State.pauseDrains_good (State.journalOffer_good (State.drawn_good ‹_›))
  · assumption

theorem execDroopRecovery_good {og : Origin} {a1 : State} (h1 : Good og (a1)) :
    GoodOut og (@execDroopRecovery a1) := by
  unfold execDroopRecovery
  exact goodOut_next (State.droopRecovery_good ‹_›)

theorem State.resetLevel_good {og : Origin} {a1 : State} (h1 : Good og (a1)) :
    Good og (@State.resetLevel a1) := by
  unfold State.resetLevel
  exact State.inputReset_good ‹_›

theorem execResetLevel_good {og : Origin} {a1 : State} (h1 : Good og (a1)) :
    GoodOut og (@execResetLevel a1) := by
  unfold execResetLevel
  exact goodOut_next (State.resetLevel_good ‹_›)

theorem State.resetRecordsComplete_good {og : Origin} {a1 : State} (h1 : Good og (a1)) :
    Good og (@State.resetRecordsComplete a1) := by
  unfold State.resetRecordsComplete
  split
  · rename_i w1 w2 w3
    extract_lets +onlyGivenNames x4
    have h5 : Good og (x4) := by subst x4; exact State.resetEnd_good ‹_›
    try clear_value x4
    refine good_ite ?_ ?_
    · exact State.startClocks_good (State.drawn_good ‹_›)
    · assumption
  · rename_i w6 w7
    assumption

theorem execResetRecordsComplete_good {og : Origin} {a1 : State} (h1 : Good og (a1)) :
    GoodOut og (@execResetRecordsComplete a1) := by
  unfold execResetRecordsComplete
  exact goodOut_next (State.resetRecordsComplete_good ‹_›)

theorem State.pwrEnOpen_good {og : Origin} {a1 : State} (h1 : Good og (a1)) :
    Good og (@State.pwrEnOpen a1) := by
  unfold State.pwrEnOpen
  exact State.resetLevel_good (good_mk ‹_› rfl rfl rfl rfl rfl rfl rfl)

theorem execPwrEnOpen_good {og : Origin} {a1 : State} (h1 : Good og (a1)) :
    GoodOut og (@execPwrEnOpen a1) := by
  unfold execPwrEnOpen
  exact goodOut_next (State.pwrEnOpen_good ‹_›)

theorem execPwrEnClose_good {og : Origin} {a1 : State} (h1 : Good og (a1)) :
    GoodOut og (@execPwrEnClose a1) := by
  unfold execPwrEnClose
  exact goodOut_next (good_mk ‹_› rfl rfl rfl rfl rfl rfl rfl)

theorem State.inputStable_good {og : Origin} {a1 : State} (h1 : Good og (a1)) :
    Good og (@State.inputStable a1) := by
  unfold State.inputStable
  refine good_ite ?_ ?_
  · exact good_mk ‹_› rfl rfl rfl rfl rfl rfl rfl
  · assumption

theorem execInputStable_good {og : Origin} {a1 : State} (h1 : Good og (a1)) :
    GoodOut og (@execInputStable a1) := by
  unfold execInputStable
  exact goodOut_next (State.inputStable_good ‹_›)

theorem execHoldupCharged_good {og : Origin} {a1 : State} (h1 : Good og (a1)) :
    GoodOut og (@execHoldupCharged a1) := by
  unfold execHoldupCharged
  refine goodOut_next ?_
  refine good_ite ?_ ?_
  · exact good_mk ‹_› rfl rfl rfl rfl rfl rfl rfl
  · assumption

theorem State.holdup_good {og : Origin} {a1 : State} {a2 : Half} (h1 : Good og (a1)) :
    Good og (@State.holdup a1 a2) := by
  unfold State.holdup
  extract_lets +onlyGivenNames x1; try clear_value x1
  extract_lets +onlyGivenNames x2
  have h3 : Good og (x2) := by subst x2; exact State.wr_good (good_mk ‹_› rfl rfl rfl rfl rfl rfl rfl)
  try clear_value x2
  refine good_ite ?_ ?_
  · exact State.event_good (State.setEvent_good (State.wr_good ‹_›))
  · exact State.wr_good ‹_›

theorem State.holdupTestEnd_good {og : Origin} {a1 : State} {a2 : Half} (h1 : Good og (a1)) :
    Good og (@State.holdupTestEnd a1 a2) := by
  unfold State.holdupTestEnd
  refine good_ite ?_ ?_
  · extract_lets +onlyGivenNames x1
    subst x1
    exact good_mk (State.holdup_good ‹_›) rfl rfl rfl rfl rfl rfl rfl
  · assumption

theorem execHoldupTestEnd_good {og : Origin} {a1 : Half} {a2 : State} (h2 : Good og (a2)) :
    GoodOut og (@execHoldupTestEnd a1 a2) := by
  unfold execHoldupTestEnd
  exact goodOut_next (State.holdupTestEnd_good ‹_›)

theorem execHoldupRetest_good {og : Origin} {a1 : Half} {a2 : State} (h2 : Good og (a2)) :
    GoodOut og (@execHoldupRetest a1 a2) := by
  unfold execHoldupRetest
  refine goodOut_next ?_
  refine good_ite ?_ ?_
  · exact State.holdup_good ‹_›
  · assumption

theorem State.railPowerGood_good {og : Origin} {a1 : State} (h1 : Good og (a1)) :
    Good og (@State.railPowerGood a1) := by
  unfold State.railPowerGood
  split
  · rename_i w1 w2 w3
    refine good_ite ?_ ?_
    · exact good_mk ‹_› rfl rfl rfl rfl rfl rfl rfl
    · exact good_mk ‹_› rfl rfl rfl rfl rfl rfl rfl
  · rename_i w4 w5
    assumption

theorem execRailPowerGood_good {og : Origin} {a1 : State} (h1 : Good og (a1)) :
    GoodOut og (@execRailPowerGood a1) := by
  unfold execRailPowerGood
  exact goodOut_next (State.railPowerGood_good ‹_›)

theorem State.railTimeout_good {og : Origin} {a1 : State} (h1 : Good og (a1)) :
    Good og (@State.railTimeout a1) := by
  unfold State.railTimeout
  split
  · rename_i w1 w2 w3
    exact good_mk ‹_› rfl rfl rfl rfl rfl rfl rfl
  · rename_i w4 w5
    assumption

theorem execRailTimeout_good {og : Origin} {a1 : State} (h1 : Good og (a1)) :
    GoodOut og (@execRailTimeout a1) := by
  unfold execRailTimeout
  exact goodOut_next (State.railTimeout_good ‹_›)

theorem execRailRetry_good {og : Origin} {a1 : State} (h1 : Good og (a1)) :
    GoodOut og (@execRailRetry a1) := by
  unfold execRailRetry
  refine goodOut_next ?_
  refine good_ite ?_ ?_
  · exact good_mk ‹_› rfl rfl rfl rfl rfl rfl rfl
  · assumption

theorem State.railsDown_good {og : Origin} {a1 : State} (h1 : Good og (a1)) :
    Good og (@State.railsDown a1) := by
  unfold State.railsDown
  refine good_ite ?_ ?_
  · exact State.setReg_good (good_mk ‹_› rfl rfl rfl rfl rfl rfl rfl)
  · assumption

theorem execRailsDown_good {og : Origin} {a1 : State} (h1 : Good og (a1)) :
    GoodOut og (@execRailsDown a1) := by
  unfold execRailsDown
  exact goodOut_next (State.railsDown_good ‹_›)

theorem State.strapCompare_good {og : Origin} {a1 : State} {a2 : Straps} (h1 : Good og (a1)) :
    Good og (@State.strapCompare a1 a2) := by
  unfold State.strapCompare
  refine good_ite ?_ ?_
  · exact State.wr_good ‹_›
  · exact State.event_good (State.wr_good ‹_›)

theorem execStrapCompare_good {og : Origin} {a1 : Straps} {a2 : State} (h2 : Good og (a2)) :
    GoodOut og (@execStrapCompare a1 a2) := by
  unfold execStrapCompare
  exact goodOut_next (State.strapCompare_good ‹_›)

theorem State.thermalRead_good {og : Origin} {a1 : State} {a2 : Temps} (h1 : Good og (a1)) :
    Good og (@State.thermalRead a1 a2) := by
  unfold State.thermalRead
  refine good_ite ?_ ?_
  · exact good_mk ‹_› rfl rfl rfl rfl rfl rfl rfl
  · extract_lets +onlyGivenNames x1
    try clear_value x1
    extract_lets +onlyGivenNames x2; try clear_value x2
    extract_lets +onlyGivenNames x3; try clear_value x3
    extract_lets +onlyGivenNames x4; try clear_value x4
    extract_lets +onlyGivenNames x5; try clear_value x5
    extract_lets +onlyGivenNames x6; try clear_value x6
    extract_lets +onlyGivenNames x7; try clear_value x7
    extract_lets +onlyGivenNames x8; try clear_value x8
    extract_lets +onlyGivenNames x9
    have h10 : Good og (x9) := by subst x9; exact good_mk ‹_› rfl rfl rfl rfl rfl rfl rfl
    try clear_value x9
    extract_lets +onlyGivenNames x11
    have h12 : Good og (x11) := by subst x11; exact State.wr_good ‹_›
    try clear_value x11
    extract_lets +onlyGivenNames x13
    have h14 : Good og (x13) := by subst x13; exact State.wr_good ‹_›
    try clear_value x13
    extract_lets +onlyGivenNames x15
    have h16 : Good og (x15) := by
      subst x15
      refine good_ite ?_ ?_
      · assumption
      · exact State.healthInput_good ‹_›
    try clear_value x15
    extract_lets +onlyGivenNames x17
    have h18 : Good og (x17) := by
      subst x17
      refine good_ite ?_ ?_
      · assumption
      · exact State.healthInput_good ‹_›
    try clear_value x17
    extract_lets +onlyGivenNames x19
    have h20 : Good og (x19) := by
      subst x19
      refine good_ite ?_ ?_
      · assumption
      · exact State.fwRequest_good ‹_›
    try clear_value x19
    extract_lets +onlyGivenNames x21
    have h22 : Good og (x21) := by
      subst x21
      refine good_ite ?_ ?_
      · assumption
      · exact State.fwRequest_good ‹_›
    try clear_value x21
    split
    · rename_i w23 w24 w25 w26 w27
      refine State.resetSequence_good ?_
      extract_lets +onlyGivenNames x28
      subst x28
      exact good_mk (State.wr_good ‹_›) rfl rfl rfl rfl rfl rfl rfl
    · rename_i w29 w30 w31 w32
      assumption

theorem execThermalRead_good {og : Origin} {a1 : Temps} {a2 : State} (h2 : Good og (a2)) :
    GoodOut og (@execThermalRead a1 a2) := by
  unfold execThermalRead
  exact goodOut_next (State.thermalRead_good ‹_›)

theorem execThermalReliefExpiry_good {og : Origin} {a1 : State} (h1 : Good og (a1)) :
    GoodOut og (@execThermalReliefExpiry a1) := by
  unfold execThermalReliefExpiry
  refine goodOut_next ?_
  refine good_ite ?_ ?_
  · exact State.fwRequest_good ‹_›
  · assumption

theorem execCoolDownExpiry_good {og : Origin} {a1 : State} (h1 : Good og (a1)) :
    GoodOut og (@execCoolDownExpiry a1) := by
  unfold execCoolDownExpiry
  refine goodOut_next ?_
  refine good_ite ?_ ?_
  · exact good_mk ‹_› rfl rfl rfl rfl rfl rfl rfl
  · assumption

end Sys2Proof.Machine
end

