-- ==== Sys2Proof/Laws/Keep/Counters.lean ====
section
/-! SUPPORT. What the operations of Machine/Counters.lean keep. -/

namespace Sys2Proof.Machine

theorem State.shadow_good {og : Origin} {a1 : State} {a2 : Nat} {a3 : Nat} {a4 : Nat} {a5 : Nat} (h1 : Good og (a1)) :
    Good og (@State.shadow a1 a2 a3 a4 a5) := by
  induction a4 generalizing a1 a5 with
  | zero =>
    rw [State.shadow]
    assumption
  | succ n ih =>
    rw [State.shadow]
    exact ih (State.setReg_good ‹_›)

theorem State.takeShadow_good {og : Origin} {a1 : State} {a2 : Nat} {a3 : Nat} (h1 : Good og (a1)) :
    Good og (@State.takeShadow a1 a2 a3) := by
  unfold State.takeShadow
  extract_lets +onlyGivenNames x1
  have h2 : Good og (x1) := by subst x1; exact State.shadow_good ‹_›
  try clear_value x1
  extract_lets +onlyGivenNames x3
  have h4 : Good og (x3) := by subst x3; exact good_mk ‹_› rfl rfl rfl rfl rfl rfl rfl
  try clear_value x3
  exact State.setReg_good ‹_›

theorem State.snapGo_good {og : Origin} {a1 : State} (h1 : Good og (a1)) :
    Good og (@State.snapGo a1) := by
  unfold State.snapGo
  refine good_ite ?_ ?_
  · extract_lets +onlyGivenNames x1
    try clear_value x1
    extract_lets +onlyGivenNames x2; try clear_value x2
    extract_lets +onlyGivenNames x3
    have h4 : Good og (x3) := by subst x3; exact State.wr_good (good_mk ‹_› rfl rfl rfl rfl rfl rfl rfl)
    try clear_value x3
    exact good_mk ‹_› rfl rfl rfl rfl rfl rfl rfl
  · exact State.setEvent_good ‹_›

theorem execSnapGo_good {og : Origin} {a1 : Agent} {a2 : State} (h2 : Good og (a2)) :
    GoodOut og (@execSnapGo a1 a2) := by
  unfold execSnapGo
  exact goodOut_next (State.snapGo_good ‹_›)

theorem State.snapshotMarker_good {og : Origin} {a1 : State} {a2 : Nat} (h1 : Good og (a1)) :
    Good og (@State.snapshotMarker a1 a2) := by
  unfold State.snapshotMarker
  split
  · rename_i w1 w2 w3 w4 w5 w6
    extract_lets +onlyGivenNames x7
    have h8 : Good og (x7) := by subst x7; exact good_mk ‹_› rfl rfl rfl rfl rfl rfl rfl
    try clear_value x7
    extract_lets +onlyGivenNames x9
    subst x9
    exact good_mk (State.takeShadow_good ‹_›) rfl rfl rfl rfl rfl rfl rfl
  · rename_i w10 w11 w12
    assumption

theorem execSnapshotMarker_good {og : Origin} {a1 : Nat} {a2 : State} (h2 : Good og (a2)) :
    GoodOut og (@execSnapshotMarker a1 a2) := by
  unfold execSnapshotMarker
  exact goodOut_next (State.snapshotMarker_good ‹_›)

theorem State.snapshotEnd_good {og : Origin} {a1 : State} (h1 : Good og (a1)) :
    Good og (@State.snapshotEnd a1) := by
  unfold State.snapshotEnd
  exact State.setEvent_good (State.wr_good (State.wr_good ‹_›))

theorem State.snapshotComplete_good {og : Origin} {a1 : State} (h1 : Good og (a1)) :
    Good og (@State.snapshotComplete a1) := by
  unfold State.snapshotComplete
  refine good_ite ?_ ?_
  · exact State.snapshotEnd_good ‹_›
  · assumption

theorem execSnapshotComplete_good {og : Origin} {a1 : State} (h1 : Good og (a1)) :
    GoodOut og (@execSnapshotComplete a1) := by
  unfold execSnapshotComplete
  exact goodOut_next (State.snapshotComplete_good ‹_›)

theorem State.telemetry_good {og : Origin} {a1 : State} {a2 : Bool} {a3 : Temps} (h1 : Good og (a1)) :
    Good og (@State.telemetry a1 a2 a3) := by
  unfold State.telemetry
  refine good_ite ?_ ?_
  · exact State.wr_good ‹_›
  · refine good_ite ?_ ?_
    · assumption
    · extract_lets +onlyGivenNames x1
      have h2 : Good og (x1) := by subst x1; exact State.wr_good ‹_›
      try clear_value x1
      extract_lets +onlyGivenNames x3; try clear_value x3
      extract_lets +onlyGivenNames x4
      have h5 : Good og (x4) := by subst x4; exact good_mk ‹_› rfl rfl rfl rfl rfl rfl rfl
      try clear_value x4
      extract_lets +onlyGivenNames x6
      have h7 : Good og (x6) := by
        subst x6
        refine State.snapshotEnd_good ?_
        refine good_foldl ?_ (fun s8 y9 h10 => ?_)
        · assumption
        · exact State.takeShadow_good ‹_›
      try clear_value x6
      extract_lets +onlyGivenNames x11; try clear_value x11
      extract_lets +onlyGivenNames x12; try clear_value x12
      extract_lets +onlyGivenNames x13; try clear_value x13
      extract_lets +onlyGivenNames x14; try clear_value x14
      extract_lets +onlyGivenNames x15
      have h16 : Good og (x15) := by
        subst x15
        refine good_ite ?_ ?_
        · exact State.hostWrite_good ‹_›
        · exact State.setEvent_good ‹_›
      try clear_value x15
      extract_lets +onlyGivenNames x17
      subst x17
      exact good_mk (State.wr_good ‹_›) rfl rfl rfl rfl rfl rfl rfl

theorem execTelemetryPeriod_good {og : Origin} {a1 : Bool} {a2 : Temps} {a3 : State} (h3 : Good og (a3)) :
    GoodOut og (@execTelemetryPeriod a1 a2 a3) := by
  unfold execTelemetryPeriod
  exact goodOut_next (State.telemetry_good ‹_›)

end Sys2Proof.Machine
end

