-- ==== Sys2Proof/Laws/Keep/Durable.lean ====
section
/-! SUPPORT. What the operations of Machine/Durable.lean keep. -/

namespace Sys2Proof.Machine

theorem execJournalRecordRequest_good {og : Origin} {a1 : JRecord} {a2 : State} (h2 : Good og (a2)) :
    GoodOut og (@execJournalRecordRequest a1 a2) := by
  unfold execJournalRecordRequest
  exact goodOut_next (State.journalOffer_good ‹_›)

theorem State.coalesceExpiry_good {og : Origin} {a1 : State} {a2 : Nat} (h1 : Good og (a1)) :
    Good og (@State.coalesceExpiry a1 a2) := by
  unfold State.coalesceExpiry
  exact State.journalStart_good (good_mk ‹_› rfl rfl rfl rfl rfl rfl rfl)

theorem execCoalesceExpiry_good {og : Origin} {a1 : TenantId} {a2 : State} (h2 : Good og (a2)) :
    GoodOut og (@execCoalesceExpiry a1 a2) := by
  unfold execCoalesceExpiry
  exact goodOut_next (State.coalesceExpiry_good ‹_›)

theorem State.copyAVerified_good {og : Origin} {a1 : State} {a2 : Nat} (h1 : Good og (a1)) :
    Good og (@State.copyAVerified a1 a2) := by
  unfold State.copyAVerified
  split
  · rename_i w1 w2
    assumption
  · rename_i w3 w4 w5
    exact good_mk ‹_› rfl rfl rfl rfl rfl rfl rfl

theorem execJournalCopyAVerified_good {og : Origin} {a1 : Nat} {a2 : State} (h2 : Good og (a2)) :
    GoodOut og (@execJournalCopyAVerified a1 a2) := by
  unfold execJournalCopyAVerified
  exact goodOut_next (State.copyAVerified_good ‹_›)

theorem State.repaired_good {og : Origin} {a1 : State} (h1 : Good og (a1)) :
    Good og (@State.repaired a1) := by
  unfold State.repaired
  exact State.event_good (State.setEvent_good ‹_›)

theorem State.corrupt_good {og : Origin} {a1 : State} (h1 : Good og (a1)) :
    Good og (@State.corrupt a1) := by
  unfold State.corrupt
  exact State.event_good (State.setEvent_good ‹_›)

theorem State.scrubRecord_good {og : Origin} {a1 : State} {a2 : List (Nat × Bool)} {a3 : Nat} (h1 : Good og (a1)) :
    Good og (@State.scrubRecord a1 a2 a3) := by
  unfold State.scrubRecord
  extract_lets +onlyGivenNames x1; try clear_value x1
  extract_lets +onlyGivenNames x2; try clear_value x2
  extract_lets +onlyGivenNames x3; try clear_value x3
  extract_lets +onlyGivenNames x4; try clear_value x4
  extract_lets +onlyGivenNames x5; try clear_value x5
  extract_lets +onlyGivenNames x6; try clear_value x6
  extract_lets +onlyGivenNames x7
  have h8 : Good og (x7) := by
    subst x7
    refine good_ite ?_ ?_
    · exact State.slcWrite_good (State.repaired_good (good_mk ‹_› rfl rfl rfl rfl rfl rfl rfl))
    · assumption
  try clear_value x7
  refine good_ite ?_ ?_
  · exact State.slcWrite_good (State.repaired_good (good_mk ‹_› rfl rfl rfl rfl rfl rfl rfl))
  · assumption

theorem execJournalScrub_good {og : Origin} {a1 : List (Nat × Bool)} {a2 : State} (h2 : Good og (a2)) :
    GoodOut og (@execJournalScrub a1 a2) := by
  unfold execJournalScrub
  refine goodOut_next ?_
  refine good_foldl ?_ (fun s1 y2 h3 => ?_)
  · assumption
  · exact State.scrubRecord_good ‹_›

theorem State.scanOne_good {og : Origin} {a1 : Nat} {a2 : State × KMap (List Byte)} {a3 : Nat} (h2 : Good og (a2).1) :
    Good og (@State.scanOne a1 a2 a3).1 := by
  unfold State.scanOne
  split
  · rename_i w1 w2 w3
    extract_lets +onlyGivenNames x4; try clear_value x4
    extract_lets +onlyGivenNames x5
    have h6 : Good og (x5) := by
      subst x5
      refine good_ite ?_ ?_
      · exact State.corrupt_good ‹_›
      · assumption
    try clear_value x5
    split
    · rename_i w7 w8
      exact good_pair ‹_›
    · rename_i w9 w10 w11
      extract_lets +onlyGivenNames x12
      have h13 : Good og (x12) := by
        subst x12
        refine good_ite ?_ ?_
        · exact State.slcWrite_good (State.wr_good (State.repaired_good ‹_›))
        · assumption
      try clear_value x12
      exact good_pair (good_mk ‹_› rfl rfl rfl rfl rfl rfl rfl)

theorem State.fillCommit_good {og : Origin} {a1 : State} {a2 : Nat} (h1 : Good og (a1)) :
    Good og (@State.fillCommit a1 a2) := by
  unfold State.fillCommit
  split
  · rename_i w1 w2
    assumption
  · rename_i w3 w4 w5
    extract_lets +onlyGivenNames x6
    have h7 : Good og (x6) := by subst x6; exact State.setReg_good (State.setReg_good ‹_›)
    try clear_value x6
    extract_lets +onlyGivenNames x8
    have h9 : Good og (x8) := by subst x8; exact State.setReg_good (State.setReg_good ‹_›)
    try clear_value x8
    exact good_mk ‹_› rfl rfl rfl rfl rfl rfl rfl

theorem State.fillLifetime_good {og : Origin} {a1 : State} (h1 : Good og (a1)) :
    Good og (@State.fillLifetime a1) := by
  unfold State.fillLifetime
  split
  · rename_i w1 w2
    exact State.wr_good (State.wr_good ‹_›)
  · rename_i w3 w4 w5
    extract_lets +onlyGivenNames x6
    subst x6
    extract_lets +onlyGivenNames x7
    have h8 : Good og (x7) := by subst x7; exact State.setReg_good (State.setReg_good (State.setReg_good ‹_›))
    try clear_value x7
    extract_lets +onlyGivenNames x9
    have h10 : Good og (x9) := by subst x9; exact State.setReg_good (State.setReg_good (State.setReg_good ‹_›))
    try clear_value x9
    exact State.setReg_good (State.setReg_good (State.setReg_good ‹_›))

theorem State.countEvents_good {og : Origin} {a1 : State} (h1 : Good og (a1)) :
    Good og (@State.countEvents a1) := by
  unfold State.countEvents
  extract_lets +onlyGivenNames x1; try clear_value x1
  refine good_foldl ?_ (fun s2 y3 h4 => ?_)
  · assumption
  · extract_lets +onlyGivenNames x5
    try clear_value x5
    extract_lets +onlyGivenNames x6
    have h7 : Good og (x6) := by
      subst x6
      refine good_ite ?_ ?_
      · exact State.addSat_good ‹_›
      · assumption
    try clear_value x6
    refine good_ite ?_ ?_
    · exact State.addSat_good ‹_›
    · assumption

theorem State.freeGeneration_good {og : Origin} {a1 : State} {a2 : Nat} (h1 : Good og (a1)) :
    Good og (@State.freeGeneration a1 a2) := by
  unfold State.freeGeneration
  split
  · rename_i w1 w2
    exact good_mk ‹_› rfl rfl rfl rfl rfl rfl rfl
  · rename_i w3 w4 w5
    refine good_ite ?_ ?_
    · extract_lets +onlyGivenNames x6
      try clear_value x6
      extract_lets +onlyGivenNames x7
      have h8 : Good og (x7) := by subst x7; exact good_mk ‹_› rfl rfl rfl rfl rfl rfl rfl
      try clear_value x7
      exact State.journalOffer_good ‹_›
    · refine good_ite ?_ ?_
      · exact good_mk ‹_› rfl rfl rfl rfl rfl rfl rfl
      · assumption

theorem State.checkReserve_good {og : Origin} {a1 : State} (h1 : Good og (a1)) :
    Good og (@State.checkReserve a1) := by
  unfold State.checkReserve
  refine good_ite ?_ ?_
  · exact State.wr_good ‹_›
  · assumption

theorem State.durableStart_good {og : Origin} {a1 : State} (h1 : Good og (a1)) :
    Good og (@State.durableStart a1) := by
  unfold State.durableStart
  refine good_ite ?_ ?_
  · assumption
  · split
    · rename_i w1 w2 w3 w4
      have h5 : Good og w2 := by
        refine good_fst w4 ?_
        refine good_foldl_fst ?_ (fun s6 y7 h8 => ?_)
        · exact good_pair ‹_›
        · exact State.scanOne_good ‹_›
      extract_lets +onlyGivenNames x9; try clear_value x9
      extract_lets +onlyGivenNames x10; try clear_value x10
      extract_lets +onlyGivenNames x11; try clear_value x11
      extract_lets +onlyGivenNames x12
      have h13 : Good og (x12) := by subst x12; exact good_mk ‹_› rfl rfl rfl rfl rfl rfl rfl
      try clear_value x12
      extract_lets +onlyGivenNames x14
      have h15 : Good og (x14) := by subst x14; exact State.setReg_good ‹_›
      try clear_value x14
      extract_lets +onlyGivenNames x16
      have h17 : Good og (x16) := by
        subst x16
        refine good_foldl ?_ (fun s18 y19 h20 => ?_)
        · exact State.checkReserve_good (State.countEvents_good (State.fillLifetime_good ‹_›))
        · exact State.fillCommit_good ‹_›
      try clear_value x16
      extract_lets +onlyGivenNames x21; try clear_value x21
      extract_lets +onlyGivenNames x22; try clear_value x22
      extract_lets +onlyGivenNames x23; try clear_value x23
      extract_lets +onlyGivenNames x24
      have h25 : Good og (x24) := by subst x24; exact State.wr_good ‹_›
      try clear_value x24
      extract_lets +onlyGivenNames x26; try clear_value x26
      extract_lets +onlyGivenNames x27
      have h28 : Good og (x27) := by subst x27; exact good_mk ‹_› rfl rfl rfl rfl rfl rfl rfl
      try clear_value x27
      extract_lets +onlyGivenNames x29; try clear_value x29
      extract_lets +onlyGivenNames x30
      have h31 : Good og (x30) := by subst x30; exact good_mk ‹_› rfl rfl rfl rfl rfl rfl rfl
      try clear_value x30
      extract_lets +onlyGivenNames x32
      have h33 : Good og (x32) := by
        subst x32
        refine good_foldl ?_ (fun s34 y35 h36 => ?_)
        · assumption
        · exact State.freeGeneration_good ‹_›
      try clear_value x32
      exact State.journalStart_good (State.wr_good (State.wr_good ‹_›))

theorem execDurableStoreStart_good {og : Origin} {a1 : State} (h1 : Good og (a1)) :
    GoodOut og (@execDurableStoreStart a1) := by
  unfold execDurableStoreStart
  exact goodOut_next (State.durableStart_good ‹_›)

theorem State.setBucket_good {og : Origin} {a1 : State} {a2 : Nat} {a3 : Int} (h1 : Good og (a1)) :
    Good og (@State.setBucket a1 a2 a3) := by
  unfold State.setBucket
  exact State.wr_good ‹_›

theorem State.refill_good {og : Origin} {a1 : State} {a2 : Nat} (h1 : Good og (a1)) :
    Good og (@State.refill a1 a2) := by
  unfold State.refill
  extract_lets +onlyGivenNames x1; try clear_value x1
  exact State.setBucket_good (State.wr_good ‹_›)

theorem State.wearBudget_good {og : Origin} {a1 : State} (h1 : Good og (a1)) :
    Good og (@State.wearBudget a1) := by
  unfold State.wearBudget
  extract_lets +onlyGivenNames x1
  have h2 : Good og (x1) := by subst x1; exact State.refill_good (State.add_good ‹_›)
  try clear_value x1
  exact State.checkReserve_good (State.tlcWrite_good (State.refill_good (State.refill_good ‹_›)))

end Sys2Proof.Machine
end

