-- ==== Sys2Proof/Laws/Keep/Faults.lean ====
section
/-! SUPPORT. What the operations of Machine/Faults.lean keep. -/

namespace Sys2Proof.Machine

theorem State.modFault_good {og : Origin} {a1 : State} {a2 : Nat} {a3 : FaultRing → FaultRing} (h1 : Good og (a1)) :
    Good og (@State.modFault a1 a2 a3) := by
  unfold State.modFault
  exact State.modTenant_good ‹_›

theorem State.writeFaultStatus_good {og : Origin} {a1 : State} {a2 : Nat} (h1 : Good og (a1)) :
    Good og (@State.writeFaultStatus a1 a2) := by
  unfold State.writeFaultStatus
  extract_lets +onlyGivenNames x1; try clear_value x1
  exact State.hostWrite_good ‹_›

theorem State.writeStatusBlock_good {og : Origin} {a1 : State} {a2 : Nat} (h1 : Good og (a1)) :
    Good og (@State.writeStatusBlock a1 a2) := by
  unfold State.writeStatusBlock
  extract_lets +onlyGivenNames x1; try clear_value x1
  exact State.hostWrite_good ‹_›

theorem State.pushFault_good {og : Origin} {a1 : State} {a2 : Nat} {a3 : List Byte} (h1 : Good og (a1)) :
    Good og (@State.pushFault a1 a2 a3) := by
  unfold State.pushFault
  extract_lets +onlyGivenNames x1; try clear_value x1
  extract_lets +onlyGivenNames x2
  have h3 : Good og (x2) := by subst x2; exact State.hostWrite_good ‹_›
  try clear_value x2
  extract_lets +onlyGivenNames x4
  have h5 : Good og (x4) := by subst x4; exact State.modFault_good ‹_›
  try clear_value x4
  exact State.raise_good (State.writeFaultStatus_good ‹_›)

theorem State.faultEntry_good {og : Origin} {a1 : State} {a2 : Nat} {a3 : List Byte} (h1 : Good og (a1)) :
    Good og (@State.faultEntry a1 a2 a3) := by
  unfold State.faultEntry
  extract_lets +onlyGivenNames x1; try clear_value x1
  refine good_ite ?_ ?_
  · assumption
  · extract_lets +onlyGivenNames x2
    have h3 : Good og (x2) := by subst x2; exact State.modFault_good ‹_›
    try clear_value x2
    refine good_ite ?_ ?_
    · exact State.pushFault_good ‹_›
    · extract_lets +onlyGivenNames x4
      have h5 : Good og (x4) := by subst x4; exact State.modFault_good ‹_›
      try clear_value x4
      refine good_ite ?_ ?_
      · exact State.writeFaultStatus_good ‹_›
      · extract_lets +onlyGivenNames x6
        have h7 : Good og (x6) := by subst x6; exact State.modFault_good ‹_›
        try clear_value x6
        exact State.drawn_good (State.pushFault_good ‹_›)

theorem State.tell_good {og : Origin} {a1 : State} {a2 : Nat} {a3 : Nat} {a4 : Nat} {a5 : Nat} {a6 : Nat} (h1 : Good og (a1)) :
    Good og (@State.tell a1 a2 a3 a4 a5 a6) := by
  unfold State.tell
  extract_lets +onlyGivenNames x1; try clear_value x1
  exact State.drawn_good (State.faultEntry_good (State.event_good ‹_›))

theorem State.memFault_good {og : Origin} {a1 : State} {a2 : Nat} {a3 : Nat} {a4 : Nat} {a5 : Nat} {a6 : Nat} {a7 : Nat} (h1 : Good og (a1)) :
    Good og (@State.memFault a1 a2 a3 a4 a5 a6 a7) := by
  unfold State.memFault
  extract_lets +onlyGivenNames x1; try clear_value x1
  extract_lets +onlyGivenNames x2; try clear_value x2
  exact State.drawn_good (State.faultEntry_good (State.event_good ‹_›))

end Sys2Proof.Machine
end

