-- ==== Sys2Proof/Laws/Keep/Memory.lean ====
section
/-! SUPPORT. What the operations of Machine/Memory.lean keep. -/

namespace Sys2Proof.Machine

theorem State.setSlice_good {og : Origin} {a1 : State} {a2 : Nat} {a3 : Slice} (h1 : Good og (a1)) :
    Good og (@State.setSlice a1 a2 a3) := by
  unfold State.setSlice
  exact good_mk ‹_› rfl rfl rfl rfl rfl rfl rfl

theorem State.bankCount_good {og : Origin} {a1 : State} {a2 : Nat} {a3 : Nat} (h1 : Good og (a1)) :
    Good og (@State.bankCount a1 a2 a3) := by
  unfold State.bankCount
  exact State.count_good ‹_›

theorem State.evict_good {og : Origin} {a1 : State} {a2 : Nat} (h1 : Good og (a1)) :
    Good og (@State.evict a1 a2) := by
  unfold State.evict
  split
  · rename_i w1 w2
    assumption
  · rename_i w3 w4 w5
    extract_lets +onlyGivenNames x6
    subst x6
    extract_lets +onlyGivenNames x7
    have h8 : Good og (x7) := by subst x7; exact good_mk ‹_› rfl rfl rfl rfl rfl rfl rfl
    try clear_value x7
    refine good_ite ?_ ?_
    · exact State.bankCount_good (good_mk ‹_› rfl rfl rfl rfl rfl rfl rfl)
    · assumption

theorem State.makeRoom_good {og : Origin} {a1 : Nat} {a2 : State} {a3 : Nat} {a4 : Nat} {a5 : Option Nat} (h2 : Good og (a2)) :
    Good og (@State.makeRoom a1 a2 a3 a4 a5).1 := by
  induction a1 generalizing a2 with
  | zero =>
    rw [State.makeRoom]
    exact good_pair ‹_›
  | succ n ih =>
    rw [State.makeRoom]
    split
    · rename_i w1 w2 w3
      exact good_pair ‹_›
    · rename_i w4 w5
      split
      · rename_i w6 w7
        exact good_pair ‹_›
      · rename_i w8 w9 w10
        exact ih (State.evict_good ‹_›)

theorem State.keepRoom_good {og : Origin} {a1 : State} {a2 : Nat} (h1 : Good og (a1)) :
    Good og (@State.keepRoom a1 a2) := by
  unfold State.keepRoom
  refine good_ite ?_ ?_
  · split
    · rename_i w1 w2 w3
      exact State.evict_good ‹_›
    · rename_i w4 w5
      assumption
  · assumption

theorem State.putLine_good {og : Origin} {a1 : State} {a2 : Nat} {a3 : Line} (h1 : Good og (a1)) :
    Good og (@State.putLine a1 a2 a3) := by
  unfold State.putLine
  exact good_mk ‹_› rfl rfl rfl rfl rfl rfl rfl

theorem State.useLine_good {og : Origin} {a1 : State} {a2 : Nat} (h1 : Good og (a1)) :
    Good og (@State.useLine a1 a2) := by
  unfold State.useLine
  split
  · rename_i w1 w2
    assumption
  · rename_i w3 w4 w5
    extract_lets +onlyGivenNames x6
    subst x6
    exact good_mk (State.putLine_good ‹_›) rfl rfl rfl rfl rfl rfl rfl

theorem State.install_good {og : Origin} {a1 : State} {a2 : Nat} {a3 : Line} (h1 : Good og (a1)) :
    Good og (@State.install a1 a2 a3).1 := by
  unfold State.install
  extract_lets +onlyGivenNames x1; try clear_value x1
  refine good_ite_fst ?_ ?_
  · exact good_pair (State.putLine_good ‹_›)
  · extract_lets +onlyGivenNames x2
    have h3 : Good og (x2) := by
      subst x2
      refine good_ite ?_ ?_
      · exact State.keepRoom_good ‹_›
      · assumption
    try clear_value x2
    split
    · rename_i w4 w5 w6 w7
      have h8 : Good og w5 := good_fst w7 (State.makeRoom_good ‹_›)
      exact good_pair (State.putLine_good ‹_›)
    · rename_i w9 w10 w11
      have h12 : Good og w10 := good_fst w11 (State.makeRoom_good ‹_›)
      exact good_pair ‹_›

theorem State.lockWait_good {og : Origin} {a1 : State} {a2 : Nat} (h1 : Good og (a1)) :
    Good og (@State.lockWait a1 a2) := by
  unfold State.lockWait
  extract_lets +onlyGivenNames x1; try clear_value x1
  split
  · rename_i w2 w3 w4
    extract_lets +onlyGivenNames x5; try clear_value x5
    extract_lets +onlyGivenNames x6
    have h7 : Good og (x6) := by subst x6; exact State.setSlice_good ‹_›
    try clear_value x6
    exact State.bankCount_good (State.setEvent_good ‹_›)
  · rename_i w8 w9
    assumption

theorem State.requestFill_good {og : Origin} {a1 : State} {a2 : Nat} (h1 : Good og (a1)) :
    Good og (@State.requestFill a1 a2) := by
  unfold State.requestFill
  extract_lets +onlyGivenNames x1; try clear_value x1
  extract_lets +onlyGivenNames x2; try clear_value x2
  refine good_ite ?_ ?_
  · assumption
  · exact State.bankCount_good (State.setSlice_good ‹_›)

theorem State.tickUse_good {og : Origin} {a1 : State} (h1 : Good og (a1)) :
    Good og (@State.tickUse a1) := by
  unfold State.tickUse
  exact good_mk ‹_› rfl rfl rfl rfl rfl rfl rfl

theorem State.fill_good {og : Origin} {a1 : State} {a2 : Nat} {a3 : Bool} (h1 : Good og (a1)) :
    Good og (@State.fill a1 a2 a3).1 := by
  unfold State.fill
  extract_lets +onlyGivenNames x1; try clear_value x1
  extract_lets +onlyGivenNames x2; try clear_value x2
  extract_lets +onlyGivenNames x3; try clear_value x3
  extract_lets +onlyGivenNames x4; try clear_value x4
  exact State.install_good (State.tickUse_good (State.count_good ‹_›))

theorem State.miss_good {og : Origin} {a1 : State} {a2 : Nat} {a3 : Bool} (h1 : Good og (a1)) :
    Good og (@State.miss a1 a2 a3) := by
  unfold State.miss
  extract_lets +onlyGivenNames x1
  have h2 : Good og (x1) := by subst x1; exact State.bankCount_good ‹_›
  try clear_value x1
  refine good_ite ?_ ?_
  · assumption
  · split
    · rename_i w3 w4 w5
      have h6 : Good og w4 := good_fst w5 (State.fill_good ‹_›)
      assumption
    · rename_i w7 w8 w9
      have h10 : Good og w8 := good_fst w9 (State.fill_good ‹_›)
      refine good_ite ?_ ?_
      · assumption
      · exact State.requestFill_good (State.lockWait_good ‹_›)

theorem State.deadTouch_good {og : Origin} {a1 : State} {a2 : Nat} {a3 : Nat} {a4 : Nat} (h1 : Good og (a1)) :
    Good og (@State.deadTouch a1 a2 a3 a4) := by
  unfold State.deadTouch
  extract_lets +onlyGivenNames x1; try clear_value x1
  extract_lets +onlyGivenNames x2
  have h3 : Good og (x2) := by subst x2; exact State.bankCount_good (State.addSat_good ‹_›)
  try clear_value x2
  extract_lets +onlyGivenNames x4
  have h5 : Good og (x4) := by
    subst x4
    refine good_ite ?_ ?_
    · refine good_ite ?_ ?_
      · exact State.tell_good ‹_›
      · exact State.event_good ‹_›
    · assumption
  try clear_value x4
  exact good_mk ‹_› rfl rfl rfl rfl rfl rfl rfl

theorem State.deadRead_good {og : Origin} {a1 : State} {a2 : Nat} {a3 : Nat} {a4 : Nat} {a5 : Bool} (h1 : Good og (a1)) :
    Good og (@State.deadRead a1 a2 a3 a4 a5) := by
  unfold State.deadRead
  exact State.miss_good (State.deadTouch_good ‹_›)

theorem State.hbmWrite_good {og : Origin} {a1 : State} {a2 : Nat} {a3 : Nat} {a4 : List Byte} {a5 : Bool} (h1 : Good og (a1)) :
    Good og (@State.hbmWrite a1 a2 a3 a4 a5) := by
  unfold State.hbmWrite
  extract_lets +onlyGivenNames x1; try clear_value x1
  refine State.count_good ?_
  refine good_mk_mem ?_ rfl rfl ?_ ?_ ?_ ?_ rfl
  · assumption
  all_goals first | exact fun c => c | exact fun c => putCells_canon c | exact fun c => dropRange_canon c | exact fun c => KMap.canon_set _ _ c | exact fun c => (by dsimp only; exact KMap.canon_set _ _ c) | exact fun c => (by dsimp only; exact KMap.canon_foldl _ _ c) | exact fun c => (by dsimp only; exact KMap.canon_foldl _ _ (dropRange_canon c)) | exact fun _ => ⟨rfl, rfl⟩

theorem State.acceptLine_good {og : Origin} {a1 : State} {a2 : WriteBack} (h1 : Good og (a1)) :
    Good og (@State.acceptLine a1 a2) := by
  unfold State.acceptLine
  refine good_foldl ?_ (fun s1 y2 h3 => ?_)
  · assumption
  · extract_lets +onlyGivenNames x4
    try clear_value x4
    refine good_ite ?_ ?_
    · exact State.hbmWrite_good ‹_›
    · assumption

theorem State.settle_good {og : Origin} {a1 : State} {a2 : Nat} (h1 : Good og (a1)) :
    Good og (@State.settle a1 a2) := by
  unfold State.settle
  extract_lets +onlyGivenNames x1; try clear_value x1
  refine good_foldl ?_ (fun s2 y3 h4 => ?_)
  · exact good_mk ‹_› rfl rfl rfl rfl rfl rfl rfl
  · exact State.acceptLine_good ‹_›

theorem State.checkWaits_good {og : Origin} {a1 : State} {a2 : Nat} (h1 : Good og (a1)) :
    Good og (@State.checkWaits a1 a2) := by
  unfold State.checkWaits
  refine good_ite ?_ ?_
  · extract_lets +onlyGivenNames x1
    try clear_value x1
    extract_lets +onlyGivenNames x2; try clear_value x2
    exact good_mk ‹_› rfl rfl rfl rfl rfl rfl rfl
  · assumption

theorem State.setIso_good {og : Origin} {a1 : State} {a2 : Nat} {a3 : Nat} (h1 : Good og (a1)) :
    Good og (@State.setIso a1 a2 a3) := by
  unfold State.setIso
  refine good_mk_mem ?_ rfl rfl ?_ ?_ ?_ ?_ rfl
  · assumption
  all_goals first | exact fun c => c | exact fun c => putCells_canon c | exact fun c => dropRange_canon c | exact fun c => KMap.canon_set _ _ c | exact fun c => (by dsimp only; exact KMap.canon_set _ _ c) | exact fun c => (by dsimp only; exact KMap.canon_foldl _ _ c) | exact fun c => (by dsimp only; exact KMap.canon_foldl _ _ (dropRange_canon c)) | exact fun _ => ⟨rfl, rfl⟩

theorem State.mapIso_good {og : Origin} {a1 : State} {a2 : Nat → Nat → Nat} (h1 : Good og (a1)) :
    Good og (@State.mapIso a1 a2) := by
  unfold State.mapIso
  refine good_foldl ?_ (fun s1 y2 h3 => ?_)
  · assumption
  · exact State.setIso_good ‹_›

theorem State.zeroRange_good {og : Origin} {a1 : State} {a2 : Nat} {a3 : Nat} (h1 : Good og (a1)) :
    Good og (@State.zeroRange a1 a2 a3) := by
  unfold State.zeroRange
  refine good_ite ?_ ?_
  · refine good_mk_mem ?_ rfl rfl ?_ ?_ ?_ ?_ rfl
    · assumption
    all_goals first | exact fun c => c | exact fun c => putCells_canon c | exact fun c => dropRange_canon c | exact fun c => KMap.canon_set _ _ c | exact fun c => (by dsimp only; exact KMap.canon_set _ _ c) | exact fun c => (by dsimp only; exact KMap.canon_foldl _ _ c) | exact fun c => (by dsimp only; exact KMap.canon_foldl _ _ (dropRange_canon c)) | exact fun _ => ⟨rfl, rfl⟩
  · refine good_mk_mem ?_ rfl rfl ?_ ?_ ?_ ?_ rfl
    · assumption
    all_goals first | exact fun c => c | exact fun c => putCells_canon c | exact fun c => dropRange_canon c | exact fun c => KMap.canon_set _ _ c | exact fun c => (by dsimp only; exact KMap.canon_set _ _ c) | exact fun c => (by dsimp only; exact KMap.canon_foldl _ _ c) | exact fun c => (by dsimp only; exact KMap.canon_foldl _ _ (dropRange_canon c)) | exact fun _ => ⟨rfl, rfl⟩

theorem State.flushRange_good {og : Origin} {a1 : State} {a2 : Nat} {a3 : Nat} (h1 : Good og (a1)) :
    Good og (@State.flushRange a1 a2 a3) := by
  unfold State.flushRange
  extract_lets +onlyGivenNames x1; try clear_value x1
  refine good_foldl ?_ (fun s2 y3 h4 => ?_)
  · assumption
  · exact State.settle_good (State.evict_good ‹_›)

theorem State.slicemapChangeEnd_good {og : Origin} {a1 : State} (h1 : Good og (a1)) :
    Good og (@State.slicemapChangeEnd a1) := by
  unfold State.slicemapChangeEnd
  extract_lets +onlyGivenNames x1; try clear_value x1
  refine good_ite ?_ ?_
  · exact State.setEvent_good ‹_›
  · extract_lets +onlyGivenNames x2
    have h3 : Good og (x2) := by
      subst x2
      refine good_foldl ?_ (fun s4 y5 h6 => ?_)
      · assumption
      · exact State.flushRange_good ‹_›
    try clear_value x2
    extract_lets +onlyGivenNames x7
    have h8 : Good og (x7) := by
      subst x7
      refine good_foldl ?_ (fun s9 y10 h11 => ?_)
      · assumption
      · exact State.setReg_good ‹_›
    try clear_value x7
    exact State.wr_good (good_mk ‹_› rfl rfl rfl rfl rfl rfl rfl)

theorem State.setClass_good {og : Origin} {a1 : State} {a2 : Nat} {a3 : Bool} (h1 : Good og (a1)) :
    Good og (@State.setClass a1 a2 a3) := by
  unfold State.setClass
  extract_lets +onlyGivenNames x1
  have h2 : Good og (x1) := by subst x1; exact State.zeroRange_good ‹_›
  try clear_value x1
  extract_lets +onlyGivenNames x3; try clear_value x3
  extract_lets +onlyGivenNames x4; try clear_value x4
  exact State.setReg_good ‹_›

theorem State.endClass_good {og : Origin} {a1 : State} {a2 : Nat × Bool} (h1 : Good og (a1)) :
    Good og (@State.endClass a1 a2) := by
  unfold State.endClass
  exact State.setClass_good (good_mk ‹_› rfl rfl rfl rfl rfl rfl rfl)

theorem State.awaitHeld_good {og : Origin} {a1 : State} {a2 : Nat} (h1 : Good og (a1)) :
    Good og (@State.awaitHeld a1 a2) := by
  unfold State.awaitHeld
  refine good_ite ?_ ?_
  · assumption
  · extract_lets +onlyGivenNames x1
    have h2 : Good og (x1) := by
      subst x1
      refine good_ite ?_ ?_
      · exact State.slicemapChangeEnd_good ‹_›
      · assumption
    try clear_value x1
    extract_lets +onlyGivenNames x3
    have h4 : Good og (x3) := by
      subst x3
      refine good_foldl ?_ (fun s5 y6 h7 => ?_)
      · assumption
      · exact State.endClass_good ‹_›
    try clear_value x3
    split
    · rename_i w8 w9 w10
      refine good_ite ?_ ?_
      · exact State.settle_good (State.evict_good ‹_›)
      · assumption
    · rename_i w11 w12
      assumption

theorem State.readBytes_good {og : Origin} {a1 : State} {a2 : Nat} {a3 : Nat} {a4 : Nat} {a5 : Nat} {a6 : Bool} (h1 : Good og (a1)) :
    Good og (@State.readBytes a1 a2 a3 a4 a5 a6) := by
  unfold State.readBytes
  extract_lets +onlyGivenNames x1
  have h2 : Good og (x1) := by subst x1; exact State.bankCount_good (State.awaitHeld_good ‹_›)
  try clear_value x1
  refine good_ite ?_ ?_
  · assumption
  · split
    · rename_i w3 w4 w5
      refine good_ite ?_ ?_
      · exact State.deadRead_good ‹_›
      · refine good_ite ?_ ?_
        · exact State.useLine_good ‹_›
        · exact State.miss_good ‹_›
    · rename_i w6 w7
      exact State.miss_good ‹_›

theorem State.readLine_good {og : Origin} {a1 : State} {a2 : Nat} {a3 : Nat} {a4 : Nat} {a5 : Bool} (h1 : Good og (a1)) :
    Good og (@State.readLine a1 a2 a3 a4 a5) := by
  unfold State.readLine
  exact State.readBytes_good ‹_›

theorem State.readAs_good {og : Origin} {a1 : State} {a2 : Nat} {a3 : Nat} {a4 : Nat} {a5 : Nat} {a6 : Bool} (h1 : Good og (a1)) :
    Good og (@State.readAs a1 a2 a3 a4 a5 a6) := by
  unfold State.readAs
  refine good_foldl ?_ (fun s1 y2 h3 => ?_)
  · assumption
  · extract_lets +onlyGivenNames x4
    try clear_value x4
    extract_lets +onlyGivenNames x5; try clear_value x5
    exact State.readBytes_good ‹_›

theorem State.writeThrough_good {og : Origin} {a1 : State} {a2 : Nat} {a3 : Line} (h1 : Good og (a1)) :
    Good og (@State.writeThrough a1 a2 a3) := by
  unfold State.writeThrough
  extract_lets +onlyGivenNames x1; try clear_value x1
  refine good_ite ?_ ?_
  · exact State.acceptLine_good (good_mk ‹_› rfl rfl rfl rfl rfl rfl rfl)
  · exact State.lockWait_good (State.putLine_good ‹_›)

theorem State.lineBytes_good {og : Origin} {a1 : State} {a2 : Nat} {a3 : Nat} {a4 : List Byte} (h1 : Good og (a1)) :
    Good og (@State.lineBytes a1 a2 a3 a4) := by
  unfold State.lineBytes
  extract_lets +onlyGivenNames x1
  have h2 : Good og (x1) := by subst x1; exact State.bankCount_good (State.awaitHeld_good ‹_›)
  try clear_value x1
  extract_lets +onlyGivenNames x3; try clear_value x3
  extract_lets +onlyGivenNames x4; try clear_value x4
  refine good_ite ?_ ?_
  · refine good_foldl ?_ (fun s5 y6 h7 => ?_)
    · assumption
    · extract_lets +onlyGivenNames x8
      try clear_value x8
      extract_lets +onlyGivenNames x9; try clear_value x9
      refine good_mk_mem ?_ rfl rfl ?_ ?_ ?_ ?_ rfl
      · assumption
      all_goals first | exact fun c => c | exact fun c => putCells_canon c | exact fun c => dropRange_canon c | exact fun c => KMap.canon_set _ _ c | exact fun c => (by dsimp only; exact KMap.canon_set _ _ c) | exact fun c => (by dsimp only; exact KMap.canon_foldl _ _ c) | exact fun c => (by dsimp only; exact KMap.canon_foldl _ _ (dropRange_canon c)) | exact fun _ => ⟨rfl, rfl⟩
  · extract_lets +onlyGivenNames x10
    have h11 : Good og (x10) := by subst x10; exact State.settle_good ‹_›
    try clear_value x10
    extract_lets +onlyGivenNames x12; try clear_value x12
    extract_lets +onlyGivenNames x13; try clear_value x13
    split
    · rename_i w14 w15 w16
      have h17 : Good og w15 := good_fst w16 (State.install_good (State.tickUse_good ‹_›))
      assumption
    · rename_i w18 w19 w20
      have h21 : Good og w19 := good_fst w20 (State.install_good (State.tickUse_good ‹_›))
      exact State.writeThrough_good ‹_›

theorem State.writeLine_good {og : Origin} {a1 : State} {a2 : Nat} {a3 : Nat} {a4 : List Byte} (h1 : Good og (a1)) :
    Good og (@State.writeLine a1 a2 a3 a4) := by
  unfold State.writeLine
  refine good_ite ?_ ?_
  · exact State.event_good ‹_›
  · exact State.checkWaits_good (State.lineBytes_good ‹_›)

theorem State.write_good {og : Origin} {a1 : State} {a2 : Nat} {a3 : List Byte} (h1 : Good og (a1)) :
    Good og (@State.write a1 a2 a3) := by
  unfold State.write
  refine good_foldl ?_ (fun s1 y2 h3 => ?_)
  · assumption
  · extract_lets +onlyGivenNames x4
    try clear_value x4
    extract_lets +onlyGivenNames x5; try clear_value x5
    extract_lets +onlyGivenNames x6; try clear_value x6
    extract_lets +onlyGivenNames x7; try clear_value x7
    exact State.writeLine_good ‹_›

theorem State.perform_good {og : Origin} {a1 : State} {a2 : RedReq} (h1 : Good og (a1)) :
    Good og (@State.perform a1 a2).1 := by
  unfold State.perform
  extract_lets +onlyGivenNames x1; try clear_value x1
  extract_lets +onlyGivenNames x2; try clear_value x2
  extract_lets +onlyGivenNames x3; try clear_value x3
  extract_lets +onlyGivenNames x4; try clear_value x4
  extract_lets +onlyGivenNames x5
  have h6 : Good og (x5) := by subst x5; exact State.bankCount_good ‹_›
  try clear_value x5
  refine good_ite_fst ?_ ?_
  · extract_lets +onlyGivenNames x7
    try clear_value x7
    split
    · rename_i w8 w9 w10 w11
      extract_lets +onlyGivenNames x12; try clear_value x12
      extract_lets +onlyGivenNames x13
      have h14 : Good og (x13) := by
        subst x13
        refine good_ite ?_ ?_
        · assumption
        · exact State.writeLine_good ‹_›
      try clear_value x13
      exact good_pair ‹_›
  · extract_lets +onlyGivenNames x15
    try clear_value x15
    extract_lets +onlyGivenNames x16; try clear_value x16
    extract_lets +onlyGivenNames x17
    have h18 : Good og (x17) := by
      subst x17
      refine good_ite ?_ ?_
      · assumption
      · exact State.writeLine_good ‹_›
    try clear_value x17
    exact good_pair ‹_›

end Sys2Proof.Machine
end

