-- ==== Sys2Proof/Laws/Keep/Store.lean ====
section
/-! SUPPORT. What the operations of Machine/Store.lean keep. -/

namespace Sys2Proof.Machine

theorem State.admitWaiting_good {og : Origin} {a1 : State} {a2 : Nat} (h1 : Good og (a1)) :
    Good og (@State.admitWaiting a1 a2) := by
  unfold State.admitWaiting
  extract_lets +onlyGivenNames x1; try clear_value x1
  extract_lets +onlyGivenNames x2; try clear_value x2
  extract_lets +onlyGivenNames x3; try clear_value x3
  exact State.setSlice_good ‹_›

theorem State.refillHeld_good {og : Origin} {a1 : State} {a2 : Nat} (h1 : Good og (a1)) :
    Good og (@State.refillHeld a1 a2) := by
  unfold State.refillHeld
  refine good_ite ?_ ?_
  · exact State.requestFill_good ‹_›
  · assumption

theorem State.proceed_good {og : Origin} {a1 : State} (h1 : Good og (a1)) :
    Good og (@State.proceed a1) := by
  unfold State.proceed
  refine good_foldl ?_ (fun s1 y2 h3 => ?_)
  · assumption
  · extract_lets +onlyGivenNames x4
    have h5 : Good og (x4) := by subst x4; exact State.admitWaiting_good ‹_›
    try clear_value x4
    refine good_foldl ?_ (fun s6 y7 h8 => ?_)
    · assumption
    · exact State.refillHeld_good ‹_›

theorem State.storeRestart_good {og : Origin} {a1 : State} (h1 : Good og (a1)) :
    Good og (@State.storeRestart a1) := by
  unfold State.storeRestart
  exact State.resetBlock_good (State.resetBlock_good ‹_›)

theorem State.storeReady_good {og : Origin} {a1 : State} {a2 : Nat} (h1 : Good og (a1)) :
    Good og (@State.storeReady a1 a2) := by
  unfold State.storeReady
  refine good_ite ?_ ?_
  · assumption
  · extract_lets +onlyGivenNames x1
    subst x1
    extract_lets +onlyGivenNames x2
    have h3 : Good og (x2) := by subst x2; exact good_mk ‹_› rfl rfl rfl rfl rfl rfl rfl
    try clear_value x2
    extract_lets +onlyGivenNames x4
    have h5 : Good og (x4) := by subst x4; exact State.zeroRange_good ‹_›
    try clear_value x4
    extract_lets +onlyGivenNames x6; try clear_value x6
    extract_lets +onlyGivenNames x7
    have h8 : Good og (x7) := by subst x7; exact State.setSlice_good ‹_›
    try clear_value x7
    refine good_ite ?_ ?_
    · exact State.wr_good ‹_›
    · assumption

theorem execStoreReady_good {og : Origin} {a1 : QuadId} {a2 : State} (h2 : Good og (a2)) :
    GoodOut og (@execStoreReady a1 a2) := by
  unfold execStoreReady
  exact goodOut_next (State.storeReady_good ‹_›)

theorem State.slicemapWrite_good {og : Origin} {a1 : State} {a2 : Nat} {a3 : Word} (h1 : Good og (a1)) :
    Good og (@State.slicemapWrite a1 a2 a3) := by
  unfold State.slicemapWrite
  refine good_ite ?_ ?_
  · assumption
  · refine good_ite ?_ ?_
    · exact State.setReg_good ‹_›
    · exact State.wr_good (good_mk ‹_› rfl rfl rfl rfl rfl rfl rfl)

theorem execSlicemapWrite_good {og : Origin} {a1 : Nat} {a2 : Word} {a3 : State} (h3 : Good og (a3)) :
    GoodOut og (@execSlicemapWrite a1 a2 a3) := by
  unfold execSlicemapWrite
  exact goodOut_next (State.slicemapWrite_good ‹_›)

theorem execSlicemapChangeEnd_good {og : Origin} {a1 : State} (h1 : Good og (a1)) :
    GoodOut og (@execSlicemapChangeEnd a1) := by
  unfold execSlicemapChangeEnd
  refine goodOut_next ?_
  refine good_ite ?_ ?_
  · exact State.proceed_good (State.slicemapChangeEnd_good ‹_›)
  · assumption

theorem partitionTaken_good {og : Origin} {a1 : State} (h1 : Good og a1) :
    Good og ({ a1 with mem := { a1.mem with
        applying := some ((upto 0 4).map fun q => (a1.rd (F.cstPartitionNextScratch q), a1.rd (F.cstPartitionNextPin q))) } }.wr
      F.cstStatusPartBusy 1) :=
  State.wr_good (good_mk h1 rfl rfl rfl rfl rfl rfl rfl)

theorem State.partitionApply_good {og : Origin} {a1 : State} (h1 : Good og (a1)) :
    Good og (@State.partitionApply a1) := by
  unfold State.partitionApply
  refine good_ite h1 (good_ite (State.setEvent_good h1) ?_)
  extract_lets x
  have h2 : Good og x := good_foldl h1 (fun s q h => State.zeroRange_good h)
  clear_value x
  exact partitionTaken_good h2


theorem execPartitionApply_good {og : Origin} {a1 : State} (h1 : Good og (a1)) :
    GoodOut og (@execPartitionApply a1) := by
  unfold execPartitionApply
  exact goodOut_next (State.partitionApply_good ‹_›)

theorem State.unpinLine_good {og : Origin} {a1 : State} {a2 : Nat} (h1 : Good og (a1)) :
    Good og (@State.unpinLine a1 a2) := by
  unfold State.unpinLine
  split
  · rename_i w1 w2 w3
    refine good_ite ?_ ?_
    · exact State.evict_good ‹_›
    · assumption
  · rename_i w4 w5
    assumption

theorem State.partitionLine_good {og : Origin} {a1 : State} {a2 : Nat} (h1 : Good og (a1)) :
    Good og (@State.partitionLine a1 a2) := by
  unfold State.partitionLine
  split
  · rename_i w1 w2
    assumption
  · rename_i w3 w4 w5
    refine good_ite ?_ ?_
    · exact State.setEvent_good (State.evict_good ‹_›)
    · exact State.evict_good ‹_›

theorem State.partitionApplyEnd_good {og : Origin} {a1 : State} (h1 : Good og (a1)) :
    Good og (@State.partitionApplyEnd a1) := by
  unfold State.partitionApplyEnd
  split
  · rename_i w1 w2
    assumption
  · rename_i w3 w4 w5
    extract_lets +onlyGivenNames x6
    have h7 : Good og (x6) := by
      subst x6
      refine good_foldl ?_ (fun s8 y9 h10 => ?_)
      · assumption
      · exact State.partitionLine_good ‹_›
    try clear_value x6
    refine good_ite ?_ ?_
    · exact State.setEvent_good ‹_›
    · extract_lets +onlyGivenNames x11
      have h12 : Good og (x11) := by
        subst x11
        refine good_foldl ?_ (fun s13 y14 h15 => ?_)
        · assumption
        · extract_lets +onlyGivenNames x16
          try clear_value x16
          exact State.wr_good (State.wr_good (State.wr_good ‹_›))
      try clear_value x11
      extract_lets +onlyGivenNames x17
      subst x17
      extract_lets +onlyGivenNames x18
      have h19 : Good og (x18) := by subst x18; exact good_mk ‹_› rfl rfl rfl rfl rfl rfl rfl
      try clear_value x18
      exact State.proceed_good (State.setEvent_good (State.wr_good ‹_›))

theorem execPartitionApplyEnd_good {og : Origin} {a1 : State} (h1 : Good og (a1)) :
    GoodOut og (@execPartitionApplyEnd a1) := by
  unfold execPartitionApplyEnd
  exact goodOut_next (State.partitionApplyEnd_good ‹_›)

theorem State.deadMarkLine_good {og : Origin} {a1 : State} {a2 : Nat} (h1 : Good og (a1)) :
    Good og (@State.deadMarkLine a1 a2) := by
  unfold State.deadMarkLine
  split
  · rename_i w1 w2 w3
    refine good_ite ?_ ?_
    · assumption
    · refine good_ite ?_ ?_
      · exact good_mk ‹_› rfl rfl rfl rfl rfl rfl rfl
      · exact State.putLine_good ‹_›
  · rename_i w4 w5
    assumption

theorem State.pinLine_good {og : Origin} {a1 : State} {a2 : Nat} (h1 : Good og (a1)) :
    Good og (@State.pinLine a1 a2) := by
  unfold State.pinLine
  extract_lets +onlyGivenNames x1
  have h2 : Good og (x1) := by subst x1; exact State.settle_good ‹_›
  try clear_value x1
  extract_lets +onlyGivenNames x3; try clear_value x3
  refine good_ite ?_ ?_
  · assumption
  · split
    · rename_i w4 w5 w6
      exact State.putLine_good ‹_›
    · rename_i w7 w8
      exact State.setEvent_good (State.add_good ‹_›)

theorem State.cleanLine_good {og : Origin} {a1 : State} {a2 : Nat} (h1 : Good og (a1)) :
    Good og (@State.cleanLine a1 a2) := by
  unfold State.cleanLine
  split
  · rename_i w1 w2 w3
    refine good_ite ?_ ?_
    · assumption
    · extract_lets +onlyGivenNames x4
      have h5 : Good og (x4) := by subst x4; exact State.acceptLine_good (State.settle_good ‹_›)
      try clear_value x4
      exact State.putLine_good (State.bankCount_good ‹_›)
  · rename_i w6 w7
    assumption

theorem State.rangeLine_good {og : Origin} {a1 : State} {a2 : Nat} {a3 : Nat} (h1 : Good og (a1)) :
    Good og (@State.rangeLine a1 a2 a3) := by
  unfold State.rangeLine
  split
  · rename_i w1
    exact State.cleanLine_good ‹_›
  · rename_i w2
    exact State.evict_good ‹_›
  · rename_i w3
    exact State.deadMarkLine_good ‹_›
  · rename_i w4
    exact State.pinLine_good ‹_›
  · rename_i w5 w6 w7 w8 w9
    exact State.unpinLine_good ‹_›

theorem State.rangeOp_good {og : Origin} {a1 : State} {a2 : Nat} (h1 : Good og (a1)) :
    Good og (@State.rangeOp a1 a2) := by
  unfold State.rangeOp
  refine good_ite ?_ ?_
  · assumption
  · refine good_ite ?_ ?_
    · exact State.wr_good ‹_›
    · extract_lets +onlyGivenNames x1
      try clear_value x1
      extract_lets +onlyGivenNames x2
      have h3 : Good og (x2) := by subst x2; exact State.wr_good (State.wr_good ‹_›)
      try clear_value x2
      extract_lets +onlyGivenNames x4
      have h5 : Good og (x4) := by
        subst x4
        refine good_ite ?_ ?_
        · exact State.setReg_good ‹_›
        · assumption
      try clear_value x4
      extract_lets +onlyGivenNames x6; try clear_value x6
      extract_lets +onlyGivenNames x7
      have h8 : Good og (x7) := by
        subst x7
        refine good_foldl ?_ (fun s9 y10 h11 => ?_)
        · assumption
        · exact State.rangeLine_good ‹_›
      try clear_value x7
      extract_lets +onlyGivenNames x12
      have h13 : Good og (x12) := by
        subst x12
        refine good_ite ?_ ?_
        · exact State.setEvent_good ‹_›
        · assumption
      try clear_value x12
      exact good_mk ‹_› rfl rfl rfl rfl rfl rfl rfl

theorem execCstWriteBack_good {og : Origin} {a1 : State} (h1 : Good og (a1)) :
    GoodOut og (@execCstWriteBack a1) := by
  unfold execCstWriteBack
  exact goodOut_next (State.rangeOp_good ‹_›)

theorem execCstFlush_good {og : Origin} {a1 : State} (h1 : Good og (a1)) :
    GoodOut og (@execCstFlush a1) := by
  unfold execCstFlush
  exact goodOut_next (State.rangeOp_good ‹_›)

theorem execCstDeadMark_good {og : Origin} {a1 : State} (h1 : Good og (a1)) :
    GoodOut og (@execCstDeadMark a1) := by
  unfold execCstDeadMark
  exact goodOut_next (State.rangeOp_good ‹_›)

theorem execCstPin_good {og : Origin} {a1 : State} (h1 : Good og (a1)) :
    GoodOut og (@execCstPin a1) := by
  unfold execCstPin
  exact goodOut_next (State.rangeOp_good ‹_›)

theorem execCstUnpin_good {og : Origin} {a1 : State} (h1 : Good og (a1)) :
    GoodOut og (@execCstUnpin a1) := by
  unfold execCstUnpin
  exact goodOut_next (State.rangeOp_good ‹_›)

theorem State.rangeOpEnd_good {og : Origin} {a1 : State} (h1 : Good og (a1)) :
    Good og (@State.rangeOpEnd a1) := by
  unfold State.rangeOpEnd
  split
  · rename_i w1 w2
    assumption
  · rename_i w3 w4 w5
    refine good_ite ?_ ?_
    · assumption
    · extract_lets +onlyGivenNames x6
      have h7 : Good og (x6) := by
        subst x6
        refine good_foldl ?_ (fun s8 y9 h10 => ?_)
        · assumption
        · exact State.rangeLine_good ‹_›
      try clear_value x6
      exact State.proceed_good (State.wr_good (good_mk ‹_› rfl rfl rfl rfl rfl rfl rfl))

theorem execRangeOpEnd_good {og : Origin} {a1 : State} (h1 : Good og (a1)) :
    GoodOut og (@execRangeOpEnd a1) := by
  unfold execRangeOpEnd
  exact goodOut_next (State.rangeOpEnd_good ‹_›)

theorem State.rangeRun_good {og : Origin} {a1 : State} {a2 : Nat} {a3 : Nat} {a4 : Nat} (h1 : Good og (a1)) :
    Good og (@State.rangeRun a1 a2 a3 a4) := by
  unfold State.rangeRun
  exact State.rangeOpEnd_good (State.rangeOp_good (State.wr_good (State.wr_good ‹_›)))

theorem State.rangeWait_good {og : Origin} {a1 : State} {a2 : Nat} {a3 : List Nat} (h1 : Good og (a1)) :
    Good og (@State.rangeWait a1 a2 a3) := by
  unfold State.rangeWait
  exact State.setEvent_good (State.wr_good (good_mk ‹_› rfl rfl rfl rfl rfl rfl rfl))

theorem execDeadReadsClear_good {og : Origin} {a1 : Fin 17} {a2 : State} (h2 : Good og (a2)) :
    GoodOut og (@execDeadReadsClear a1 a2) := by
  unfold execDeadReadsClear
  exact goodOut_next (State.wr_good ‹_›)

theorem State.sramCorrected_good {og : Origin} {a1 : State} {a2 : Nat} (h1 : Good og (a1)) :
    Good og (@State.sramCorrected a1 a2) := by
  unfold State.sramCorrected
  exact State.bankCount_good (State.setEvent_good (State.addSat_good ‹_›))

theorem State.sramLost_good {og : Origin} {a1 : State} {a2 : Nat} (h1 : Good og (a1)) :
    Good og (@State.sramLost a1 a2) := by
  unfold State.sramLost
  have h2 := State.setEvent_good (a2 := F.cstEventsSramUe) h1
  refine good_ite ?_ ?_
  · exact State.healthInput_good (State.event_good (good_mk_mem h2 rfl rfl (fun c => c) (fun c => c) (fun c => c)
      (fun c => by dsimp only; exact KMap.canon_set _ _ c) rfl))
  · split
    · assumption
    · refine good_ite ?_ ?_
      · exact State.putLine_good (State.settle_good (State.evict_good h2))
      · exact State.healthInput_good (State.event_good (State.putLine_good h2))


theorem State.storeScrub_good {og : Origin} {a1 : State} {a2 : Nat} {a3 : Nat} {a4 : Finding} (h1 : Good og (a1)) :
    Good og (@State.storeScrub a1 a2 a3 a4) := by
  unfold State.storeScrub
  refine good_ite ?_ ?_
  · assumption
  · split
    · rename_i w1
      exact State.sramCorrected_good ‹_›
    · rename_i w2
      exact State.sramLost_good ‹_›
    · rename_i w3
      assumption
    · rename_i w4
      assumption
    · rename_i w5 w6
      assumption

theorem execStoreScrub_good {og : Origin} {a1 : QuadId} {a2 : Nat} {a3 : Finding} {a4 : State} (h4 : Good og (a4)) :
    GoodOut og (@execStoreScrub a1 a2 a3 a4) := by
  unfold execStoreScrub
  exact goodOut_next (State.storeScrub_good ‹_›)

theorem State.sendRed_good {og : Origin} {a1 : State} {a2 : RedReq} (h1 : Good og (a1)) :
    Good og (@State.sendRed a1 a2) := by
  unfold State.sendRed
  extract_lets +onlyGivenNames x1; try clear_value x1
  exact State.setSlice_good ‹_›

theorem State.holdRed_good {og : Origin} {a1 : State} {a2 : Nat} {a3 : RedReq} (h1 : Good og (a1)) :
    Good og (@State.holdRed a1 a2 a3) := by
  unfold State.holdRed
  extract_lets +onlyGivenNames x1
  have h2 : Good og (x1) := by
    subst x1
    split
    · rename_i w3 w4 w5
      refine good_ite ?_ ?_
      · exact State.deadTouch_good ‹_›
      · assumption
    · rename_i w6 w7
      assumption
  try clear_value x1
  extract_lets +onlyGivenNames x8; try clear_value x8
  extract_lets +onlyGivenNames x9
  have h10 : Good og (x9) := by subst x9; exact State.setSlice_good ‹_›
  try clear_value x9
  refine good_ite ?_ ?_
  · assumption
  · exact State.refillHeld_good ‹_›

theorem State.redArrive_good {og : Origin} {a1 : State} {a2 : Nat} (h1 : Good og (a1)) :
    Good og (@State.redArrive a1 a2).1 := by
  unfold State.redArrive
  extract_lets +onlyGivenNames x1; try clear_value x1
  split
  · rename_i w2 w3
    exact good_pair ‹_›
  · rename_i w4 w5 w6 w7
    refine good_ite_fst ?_ ?_
    · exact good_pair ‹_›
    · refine good_ite_fst ?_ ?_
      · exact good_pair (State.setSlice_good ‹_›)
      · extract_lets +onlyGivenNames x8
        have h9 : Good og (x8) := by subst x8; exact State.awaitHeld_good (State.setSlice_good ‹_›)
        try clear_value x8
        extract_lets +onlyGivenNames x10; try clear_value x10
        refine good_ite_fst ?_ ?_
        · exact good_pair (State.setSlice_good ‹_›)
        · exact good_pair (State.holdRed_good ‹_›)

theorem State.dropTransient_good {og : Origin} {a1 : State} {a2 : Nat} {a3 : Nat} (h1 : Good og (a1)) :
    Good og (@State.dropTransient a1 a2 a3) := by
  unfold State.dropTransient
  split
  · rename_i w1 w2 w3
    refine good_ite ?_ ?_
    · exact State.evict_good ‹_›
    · assumption
  · rename_i w4 w5
    assumption

theorem State.redExecute_good {og : Origin} {a1 : State} {a2 : Nat} (h1 : Good og (a1)) :
    Good og (@State.redExecute a1 a2).1 := by
  unfold State.redExecute
  extract_lets +onlyGivenNames x1; try clear_value x1
  split
  · rename_i w2 w3
    exact good_pair ‹_›
  · rename_i w4 w5 w6 w7
    split
    · rename_i w8 w9 w10 w11
      have h12 : Good og w9 := good_fst w11 (State.perform_good ‹_›)
      extract_lets +onlyGivenNames x13; try clear_value x13
      extract_lets +onlyGivenNames x14; try clear_value x14
      extract_lets +onlyGivenNames x15; try clear_value x15
      extract_lets +onlyGivenNames x16
      have h17 : Good og (x16) := by subst x16; exact State.admitWaiting_good (State.setSlice_good ‹_›)
      try clear_value x16
      refine good_pair ?_
      refine good_ite ?_ ?_
      · assumption
      · exact State.dropTransient_good ‹_›

theorem State.placeWaiting_good {og : Origin} {a1 : State} {a2 : Nat} (h1 : Good og (a1)) :
    Good og (@State.placeWaiting a1 a2) := by
  unfold State.placeWaiting
  refine good_foldl ?_ (fun s1 y2 h3 => ?_)
  · assumption
  · exact State.install_good ‹_›

theorem State.lockRelease_good {og : Origin} {a1 : State} {a2 : Nat} (h1 : Good og (a1)) :
    Good og (@State.lockRelease a1 a2) := by
  unfold State.lockRelease
  extract_lets +onlyGivenNames x1; try clear_value x1
  split
  · rename_i w2 w3
    assumption
  · rename_i w4 w5 w6 w7
    extract_lets +onlyGivenNames x8
    have h9 : Good og (x8) := by subst x8; exact State.evict_good ‹_›
    try clear_value x8
    extract_lets +onlyGivenNames x10; try clear_value x10
    extract_lets +onlyGivenNames x11
    have h12 : Good og (x11) := by subst x11; exact State.setSlice_good ‹_›
    try clear_value x11
    exact State.refillHeld_good (State.placeWaiting_good ‹_›)

theorem execEvictionLockRelease_good {og : Origin} {a1 : QuadId} {a2 : State} (h2 : Good og (a2)) :
    GoodOut og (@execEvictionLockRelease a1 a2) := by
  unfold execEvictionLockRelease
  exact goodOut_next (State.lockRelease_good ‹_›)

theorem State.fillEnd_good {og : Origin} {a1 : State} {a2 : Nat} {a3 : Nat} (h1 : Good og (a1)) :
    Good og (@State.fillEnd a1 a2 a3) := by
  unfold State.fillEnd
  split
  · rename_i w1 w2
    assumption
  · rename_i w3 w4 w5
    extract_lets +onlyGivenNames x6
    subst x6
    refine good_ite ?_ ?_
    · assumption
    · refine good_ite ?_ ?_
      · refine good_ite ?_ ?_
        · assumption
        · exact State.admitWaiting_good (State.setSlice_good (State.putLine_good (State.count_good ‹_›)))
      · split
        · rename_i w7 w8 w9
          have h10 : Good og w8 := good_fst w9 (State.fill_good ‹_›)
          exact State.admitWaiting_good (State.setSlice_good ‹_›)
        · rename_i w11 w12 w13
          have h14 : Good og w12 := good_fst w13 (State.fill_good ‹_›)
          exact State.lockWait_good ‹_›

end Sys2Proof.Machine
end

