-- ==== Sys2Proof/Laws/Keep/Hbm.lean ====
section
/-! SUPPORT. What the operations of Machine/Hbm.lean keep. -/

namespace Sys2Proof.Machine

theorem State.channelState_good {og : Origin} {a1 : State} {a2 : Nat} {a3 : Nat} (h1 : Good og (a1)) :
    Good og (@State.channelState a1 a2 a3) := by
  unfold State.channelState
  exact State.event_good (State.setEvent_good (State.wr_good ‹_›))

theorem State.readDies_good {og : Origin} {a1 : State} (h1 : Good og (a1)) :
    Good og (@State.readDies a1) := by
  unfold State.readDies
  exact good_mk ‹_› rfl rfl rfl rfl rfl rfl rfl

theorem State.recordsRead_good {og : Origin} {a1 : State} (h1 : Good og (a1)) :
    Good og (@State.recordsRead a1) := by
  unfold State.recordsRead
  refine good_ite ?_ ?_
  · assumption
  · refine good_foldl ?_ (fun s1 y2 h3 => ?_)
    · assumption
    · refine good_ite ?_ ?_
      · exact State.channelState_good ‹_›
      · assumption

theorem State.trainingEnd_good {og : Origin} {a1 : State} {a2 : List (Fin 192)} (h1 : Good og (a1)) :
    Good og (@State.trainingEnd a1 a2) := by
  unfold State.trainingEnd
  refine good_ite ?_ ?_
  · assumption
  · refine State.recordsRead_good ?_
    refine State.readDies_good ?_
    refine State.wr_good ?_
    refine good_foldl ?_ (fun s1 y2 h3 => ?_)
    · assumption
    · exact State.channelState_good ‹_›

theorem execHbmTrainingEnd_good {og : Origin} {a1 : List (Fin 192)} {a2 : State} (h2 : Good og (a2)) :
    GoodOut og (@execHbmTrainingEnd a1 a2) := by
  unfold execHbmTrainingEnd
  exact goodOut_next (State.trainingEnd_good ‹_›)

theorem State.buildMap_good {og : Origin} {a1 : State} {a2 : List Nat} (h1 : Good og (a1)) :
    Good og (@State.buildMap a1 a2) := by
  unfold State.buildMap
  extract_lets +onlyGivenNames x1; try clear_value x1
  extract_lets +onlyGivenNames x2
  have h3 : Good og (x2) := by
    subst x2
    refine good_foldl ?_ (fun s4 y5 h6 => ?_)
    · assumption
    · exact State.wr_good ‹_›
  try clear_value x2
  exact State.wr_good ‹_›

theorem State.initGo_good {og : Origin} {a1 : State} (h1 : Good og (a1)) :
    Good og (@State.initGo a1) := by
  unfold State.initGo
  refine good_ite ?_ ?_
  · assumption
  · extract_lets +onlyGivenNames x1
    have h2 : Good og (x1) := by subst x1; exact State.recordsRead_good ‹_›
    try clear_value x1
    extract_lets +onlyGivenNames x3
    have h4 : Good og (x3) := by
      subst x3
      refine good_foldl ?_ (fun s5 y6 h7 => ?_)
      · assumption
      · exact State.channelState_good (State.wr_good ‹_›)
    try clear_value x3
    extract_lets +onlyGivenNames x8
    have h9 : Good og (x8) := by subst x8; exact State.buildMap_good ‹_›
    try clear_value x8
    refine State.wr_good ?_
    refine good_foldl ?_ (fun s10 y11 h12 => ?_)
    · assumption
    · exact State.setReg_good ‹_›

theorem execHbmInitGo_good {og : Origin} {a1 : State} (h1 : Good og (a1)) :
    GoodOut og (@execHbmInitGo a1) := by
  unfold execHbmInitGo
  exact goodOut_next (State.initGo_good ‹_›)

theorem State.initEnd_good {og : Origin} {a1 : State} (h1 : Good og (a1)) :
    Good og (@State.initEnd a1) := by
  unfold State.initEnd
  refine good_ite ?_ ?_
  · assumption
  · extract_lets +onlyGivenNames x1
    subst x1
    extract_lets +onlyGivenNames x2
    have h3 : Good og (x2) := by
      subst x2
      refine good_mk_mem ?_ rfl rfl ?_ ?_ ?_ ?_ rfl
      · assumption
      all_goals first | exact fun c => c | exact fun c => putCells_canon c | exact fun c => dropRange_canon c | exact fun c => KMap.canon_set _ _ c | exact fun c => (by dsimp only; exact KMap.canon_set _ _ c) | exact fun c => (by dsimp only; exact KMap.canon_foldl _ _ c) | exact fun c => (by dsimp only; exact KMap.canon_foldl _ _ (dropRange_canon c)) | exact fun _ => ⟨rfl, rfl⟩
    try clear_value x2
    extract_lets +onlyGivenNames x4
    have h5 : Good og (x4) := by subst x4; exact State.setReg_good ‹_›
    try clear_value x4
    exact State.wr_good (State.wr_good ‹_›)

theorem execHbmInitEnd_good {og : Origin} {a1 : State} (h1 : Good og (a1)) :
    GoodOut og (@execHbmInitEnd a1) := by
  unfold execHbmInitEnd
  exact goodOut_next (State.initEnd_good ‹_›)

theorem State.classChange_good {og : Origin} {a1 : State} {a2 : Nat} {a3 : Bool} (h1 : Good og (a1)) :
    Good og (@State.classChange a1 a2 a3) := by
  unfold State.classChange
  refine good_ite ?_ ?_
  · assumption
  · exact good_mk ‹_› rfl rfl rfl rfl rfl rfl rfl

theorem execProtectionClassChange_good {og : Origin} {a1 : Nat} {a2 : Bool} {a3 : State} (h3 : Good og (a3)) :
    GoodOut og (@execProtectionClassChange a1 a2 a3) := by
  unfold execProtectionClassChange
  exact goodOut_next (State.classChange_good ‹_›)

theorem State.classChangeEnd_good {og : Origin} {a1 : State} (h1 : Good og (a1)) :
    Good og (@State.classChangeEnd a1) := by
  unfold State.classChangeEnd
  split
  · rename_i w1 w2
    assumption
  · rename_i w3 w4 w5 w6
    exact State.endClass_good ‹_›

theorem execClassChangeEnd_good {og : Origin} {a1 : State} (h1 : Good og (a1)) :
    GoodOut og (@execClassChangeEnd a1) := by
  unfold execClassChangeEnd
  exact goodOut_next (State.classChangeEnd_good ‹_›)

theorem State.mapoutRecord_good {og : Origin} {a1 : State} {a2 : Nat} (h1 : Good og (a1)) :
    Good og (@State.mapoutRecord a1 a2) := by
  unfold State.mapoutRecord
  exact State.journalOffer_good ‹_›

theorem State.failing_good {og : Origin} {a1 : State} {a2 : Nat} (h1 : Good og (a1)) :
    Good og (@State.failing a1 a2) := by
  unfold State.failing
  refine good_ite ?_ ?_
  · exact State.healthInput_good (State.mapoutRecord_good (State.channelState_good ‹_›))
  · assumption

theorem State.hbmLostAt_good {og : Origin} {a1 : State} {a2 : Nat} {a3 : Nat} (h1 : Good og (a1)) :
    Good og (@State.hbmLostAt a1 a2 a3) := by
  unfold State.hbmLostAt
  refine good_ite ?_ ?_
  · assumption
  · extract_lets +onlyGivenNames x1
    try clear_value x1
    extract_lets +onlyGivenNames x2
    have h3 : Good og (x2) := by subst x2; exact State.hbmWrite_good ‹_›
    try clear_value x2
    extract_lets +onlyGivenNames x4
    have h5 : Good og (x4) := by subst x4; exact State.count_good (State.addSat_good ‹_›)
    try clear_value x4
    extract_lets +onlyGivenNames x6
    have h7 : Good og (x6) := by subst x6; exact State.setEvent_good (State.setReg_good ‹_›)
    try clear_value x6
    extract_lets +onlyGivenNames x8
    have h9 : Good og (x8) := by subst x8; exact State.event_good (State.event_good ‹_›)
    try clear_value x8
    extract_lets +onlyGivenNames x10
    have h11 : Good og (x10) := by
      subst x10
      refine good_ite ?_ ?_
      · exact State.healthInput_good ‹_›
      · assumption
    try clear_value x10
    extract_lets +onlyGivenNames x12; try clear_value x12
    refine good_ite ?_ ?_
    · exact State.failing_good ‹_›
    · assumption

theorem State.hbmLost_good {og : Origin} {a1 : State} {a2 : Nat} (h1 : Good og (a1)) :
    Good og (@State.hbmLost a1 a2) := by
  unfold State.hbmLost
  exact State.hbmLostAt_good ‹_›

theorem State.hbmCorrected_good {og : Origin} {a1 : State} {a2 : Nat} (h1 : Good og (a1)) :
    Good og (@State.hbmCorrected a1 a2) := by
  unfold State.hbmCorrected
  refine good_ite ?_ ?_
  · extract_lets +onlyGivenNames x1
    try clear_value x1
    exact State.count_good (State.addSat_good ‹_›)
  · exact State.hbmLost_good ‹_›

theorem State.findWord_good {og : Origin} {a1 : State} {a2 : Nat} {a3 : Word} (h1 : Good og (a1)) :
    Good og (@State.findWord a1 a2 a3) := by
  unfold State.findWord
  extract_lets +onlyGivenNames x1; try clear_value x1
  refine good_ite ?_ ?_
  · exact State.hbmLost_good ‹_›
  · refine good_ite ?_ ?_
    · refine good_mk_mem ?_ rfl rfl ?_ ?_ ?_ ?_ rfl
      · assumption
      all_goals first | exact fun c => c | exact fun c => putCells_canon c | exact fun c => dropRange_canon c | exact fun c => KMap.canon_set _ _ c | exact fun c => (by dsimp only; exact KMap.canon_set _ _ c) | exact fun c => (by dsimp only; exact KMap.canon_foldl _ _ c) | exact fun c => (by dsimp only; exact KMap.canon_foldl _ _ (dropRange_canon c)) | exact fun _ => ⟨rfl, rfl⟩
    · assumption

theorem State.find_good {og : Origin} {a1 : State} {a2 : Nat} {a3 : Finding} (h1 : Good og (a1)) :
    Good og (@State.find a1 a2 a3) := by
  unfold State.find
  split
  · rename_i w1
    assumption
  · rename_i w2
    extract_lets +onlyGivenNames x3; try clear_value x3
    exact good_mk ‹_› rfl rfl rfl rfl rfl rfl rfl
  · rename_i w4
    exact State.hbmCorrected_good ‹_›
  · rename_i w5
    exact State.hbmLost_good ‹_›
  · rename_i w6 w7
    exact State.findWord_good ‹_›

theorem State.findLine_good {og : Origin} {a1 : State} {a2 : Nat} {a3 : List Finding} (h1 : Good og (a1)) :
    Good og (@State.findLine a1 a2 a3) := by
  unfold State.findLine
  refine good_foldl ?_ (fun s1 y2 h3 => ?_)
  · assumption
  · exact State.find_good ‹_›

theorem State.scrubPassEnd_good {og : Origin} {a1 : State} (h1 : Good og (a1)) :
    Good og (@State.scrubPassEnd a1) := by
  unfold State.scrubPassEnd
  refine good_ite ?_ ?_
  · assumption
  · refine State.readDies_good ?_
    refine State.setEvent_good ?_
    refine good_foldl ?_ (fun s1 y2 h3 => ?_)
    · assumption
    · exact State.wr_good ‹_›

theorem execScrubPassEnd_good {og : Origin} {a1 : State} (h1 : Good og (a1)) :
    GoodOut og (@execScrubPassEnd a1) := by
  unfold execScrubPassEnd
  exact goodOut_next (State.scrubPassEnd_good ‹_›)

theorem State.hbmTemp_good {og : Origin} {a1 : State} {a2 : Nat} {a3 : Int} (h1 : Good og (a1)) :
    Good og (@State.hbmTemp a1 a2 a3) := by
  unfold State.hbmTemp
  refine good_ite ?_ ?_
  · extract_lets +onlyGivenNames x1
    subst x1
    extract_lets +onlyGivenNames x2
    have h3 : Good og (x2) := by
      subst x2
      refine good_ite ?_ ?_
      · assumption
      · exact State.setEvent_good (good_mk ‹_› rfl rfl rfl rfl rfl rfl rfl)
    try clear_value x2
    refine good_ite ?_ ?_
    · exact State.healthInput_good ‹_›
    · assumption
  · exact good_mk ‹_› rfl rfl rfl rfl rfl rfl rfl

theorem execHbmTempRead_good {og : Origin} {a1 : Fin 12} {a2 : Int} {a3 : State} (h3 : Good og (a3)) :
    GoodOut og (@execHbmTempRead a1 a2 a3) := by
  unfold execHbmTempRead
  exact goodOut_next (State.hbmTemp_good ‹_›)

theorem State.refresh_good {og : Origin} {a1 : State} {a2 : Nat} (h1 : Good og (a1)) :
    Good og (@State.refresh a1 a2) := by
  unfold State.refresh
  exact State.drawn_good (State.count_good ‹_›)

theorem execHbmRefresh_good {og : Origin} {a1 : Fin 192} {a2 : Nat} {a3 : State} (h3 : Good og (a3)) :
    GoodOut og (@execHbmRefresh a1 a2 a3) := by
  unfold execHbmRefresh
  exact goodOut_next (State.refresh_good ‹_›)

theorem State.healthDecides_good {og : Origin} {a1 : State} {a2 : HealthEvent} (h1 : Good og (a1)) :
    Good og (@State.healthDecides a1 a2) := by
  unfold State.healthDecides
  extract_lets +onlyGivenNames x1
  have h2 : Good og (x1) := by subst x1; exact State.healthInput_good ‹_›
  try clear_value x1
  split
  · rename_i w3 w4 w5
    exact State.failing_good ‹_›
  · rename_i w6 w7
    assumption

theorem execHealthInput_good {og : Origin} {a1 : HealthEvent} {a2 : State} (h2 : Good og (a2)) :
    GoodOut og (@execHealthInput a1 a2) := by
  unfold execHealthInput
  exact goodOut_next (State.healthDecides_good ‹_›)

theorem State.markAll_good {og : Origin} {a1 : State} {a2 : TreeMsg} (h1 : Good og (a1)) :
    Good og (@State.markAll a1 a2) := by
  unfold State.markAll
  refine good_foldl ?_ (fun s1 y2 h3 => ?_)
  · assumption
  · exact State.send_good ‹_›

end Sys2Proof.Machine
end

