-- ==== Sys2Proof/Laws/Keep/Translate.lean ====
section
/-! SUPPORT. What the operations of Machine/Translate.lean keep. -/

namespace Sys2Proof.Machine

theorem State.setTlb_good {og : Origin} {a1 : State} {a2 : Nat} {a3 : List Tlb} (h1 : Good og (a1)) :
    Good og (@State.setTlb a1 a2 a3) := by
  unfold State.setTlb
  exact good_mk ‹_› rfl rfl rfl rfl rfl rfl rfl

theorem State.tlbPut_good {og : Origin} {a1 : State} {a2 : Nat} {a3 : Nat} {a4 : Tlb} (h1 : Good og (a1)) :
    Good og (@State.tlbPut a1 a2 a3 a4) := by
  unfold State.tlbPut
  exact State.setTlb_good ‹_›

theorem State.translate_good {og : Origin} {a1 : State} {a2 : Nat} {a3 : Nat} {a4 : Nat} {a5 : Nat} {a6 : Bool} {a7 : Bool} (h1 : Good og (a1)) :
    Good og (@State.translate a1 a2 a3 a4 a5 a6 a7).1 := by
  unfold State.translate
  split
  · rename_i w1 w2 w3
    exact good_pair ‹_›
  · rename_i w4 w5
    split
    · rename_i w6 w7 w8 w9
      exact good_pair ‹_›
    · rename_i w10 w11 w12
      exact good_pair (State.tlbPut_good ‹_›)

theorem State.translatePieces_good {og : Origin} {a1 : State} {a2 : Nat} {a3 : Nat} {a4 : Nat} {a5 : Bool} {a6 : List (Nat × Nat)} (h1 : Good og (a1)) :
    Good og (@State.translatePieces a1 a2 a3 a4 a5 a6).1 := by
  induction a6 generalizing a1 with
  | nil =>
    rw [State.translatePieces]
    exact good_pair ‹_›
  | cons x xs ih =>
    obtain ⟨x1, x2⟩ := x
    rw [State.translatePieces]
    split
    · rename_i w1 w2 w3 w4 w5
      have h6 : Good og w2 := good_fst w5 (State.translate_good ‹_›)
      exact good_pair ‹_›
    · rename_i w7 w8 w9 w10
      have h11 : Good og w8 := good_fst w10 (State.translate_good ‹_›)
      split
      · rename_i w12 w13
        split
        · rename_i w14 w15 w16 w17
          have h18 : Good og w15 := good_fst w17 (ih ‹_›)
          exact good_pair ‹_›
        · rename_i w19 w20
          exact ih ‹_›
      · rename_i w21 w22
        extract_lets +onlyGivenNames x23; try clear_value x23
        exact good_pair ‹_›

theorem State.translateSpan_good {og : Origin} {a1 : State} {a2 : Nat} {a3 : Nat} {a4 : Nat} {a5 : Nat} {a6 : Nat} {a7 : Bool} (h1 : Good og (a1)) :
    Good og (@State.translateSpan a1 a2 a3 a4 a5 a6 a7).1 := by
  unfold State.translateSpan
  refine good_ite_fst ?_ ?_
  · exact good_pair ‹_›
  · exact State.translatePieces_good ‹_›

theorem State.checkSpans_good {og : Origin} {a1 : State} {a2 : Nat} {a3 : Nat} {a4 : Nat} {a5 : Bool} {a6 : List (Nat × Nat)} (h1 : Good og (a1)) :
    Good og (@State.checkSpans a1 a2 a3 a4 a5 a6).1 := by
  induction a6 generalizing a1 with
  | nil =>
    rw [State.checkSpans]
    exact good_pair ‹_›
  | cons x xs ih =>
    obtain ⟨x1, x2⟩ := x
    rw [State.checkSpans]
    split
    · rename_i w1 w2 w3 w4 w5 w6
      have h7 : Good og w2 := good_fst w6 (State.translateSpan_good ‹_›)
      exact good_pair ‹_›
    · rename_i w8 w9 w10 w11
      have h12 : Good og w9 := good_fst w11 (State.translateSpan_good ‹_›)
      exact ih ‹_›

theorem State.touchSpans_good {og : Origin} {a1 : State} {a2 : List (Nat × Nat)} {a3 : Nat} {a4 : Nat} {a5 : Bool} (h1 : Good og (a1)) :
    Good og (@State.touchSpans a1 a2 a3 a4 a5) := by
  unfold State.touchSpans
  refine good_foldl ?_ (fun s1 y2 h3 => ?_)
  · assumption
  · exact State.readAs_good ‹_›

theorem State.writeSpans_good {og : Origin} {a1 : State} {a2 : List (Nat × Nat)} {a3 : List Byte} (h1 : Good og (a1)) :
    Good og (@State.writeSpans a1 a2 a3) := by
  induction a2 generalizing a1 a3 with
  | nil =>
    rw [State.writeSpans]
    assumption
  | cons x xs ih =>
    obtain ⟨x1, x2⟩ := x
    rw [State.writeSpans]
    exact ih (State.write_good ‹_›)

theorem State.fetchSpan_good {og : Origin} {a1 : State} {a2 : Nat} {a3 : Nat} {a4 : Nat} {a5 : Nat} {a6 : Nat} {a7 : Bool} (h1 : Good og (a1)) :
    Good og (@State.fetchSpan a1 a2 a3 a4 a5 a6 a7).1 := by
  unfold State.fetchSpan
  split
  · rename_i w1 w2 w3 w4 w5 w6
    have h7 : Good og w2 := good_fst w6 (State.translateSpan_good ‹_›)
    exact good_pair ‹_›
  · rename_i w8 w9 w10 w11
    have h12 : Good og w9 := good_fst w11 (State.translateSpan_good ‹_›)
    extract_lets +onlyGivenNames x13
    have h14 : Good og (x13) := by subst x13; exact State.touchSpans_good ‹_›
    try clear_value x13
    refine good_ite_fst ?_ ?_
    · exact good_pair ‹_›
    · exact good_pair ‹_›

theorem State.storeSpan_good {og : Origin} {a1 : State} {a2 : Nat} {a3 : Nat} {a4 : Nat} {a5 : Nat} {a6 : List Byte} (h1 : Good og (a1)) :
    Good og (@State.storeSpan a1 a2 a3 a4 a5 a6).1 := by
  unfold State.storeSpan
  split
  · rename_i w1 w2 w3 w4 w5 w6
    have h7 : Good og w2 := good_fst w6 (State.translateSpan_good ‹_›)
    exact good_pair ‹_›
  · rename_i w8 w9 w10 w11
    have h12 : Good og w9 := good_fst w11 (State.translateSpan_good ‹_›)
    exact good_pair (State.writeSpans_good ‹_›)

theorem State.mapPage_good {og : Origin} {a1 : State} {a2 : Nat} {a3 : Nat} {a4 : Nat} {a5 : Bool} {a6 : Bool} (h1 : Good og (a1)) :
    Good og (@State.mapPage a1 a2 a3 a4 a5 a6) := by
  unfold State.mapPage
  refine good_ite ?_ ?_
  · assumption
  · extract_lets +onlyGivenNames x1
    try clear_value x1
    extract_lets +onlyGivenNames x2
    have h3 : Good og (x2) := by subst x2; exact State.write_good ‹_›
    try clear_value x2
    exact State.write_good ‹_›

theorem State.unmapPage_good {og : Origin} {a1 : State} {a2 : Nat} {a3 : Nat} (h1 : Good og (a1)) :
    Good og (@State.unmapPage a1 a2 a3) := by
  unfold State.unmapPage
  refine good_ite ?_ ?_
  · assumption
  · exact State.write_good ‹_›

theorem State.mapPages_good {og : Origin} {a1 : State} {a2 : Nat} {a3 : Nat} {a4 : Nat} {a5 : List Nat} {a6 : Bool} {a7 : Bool} {a8 : Bool} (h1 : Good og (a1)) :
    Good og (@State.mapPages a1 a2 a3 a4 a5 a6 a7 a8) := by
  induction a2 generalizing a1 a4 a5 with
  | zero =>
    rw [State.mapPages]
    assumption
  | succ n ih =>
    unfold State.mapPages
    split
    · rename_i w1
      assumption
    · rename_i w2 w3 w4
      refine good_ite ?_ ?_
      · exact ih (State.write_good ‹_›)
      · exact ih (State.mapPage_good ‹_›)

theorem State.unmapPages_good {og : Origin} {a1 : State} {a2 : Nat} {a3 : Nat} {a4 : Nat} (h1 : Good og (a1)) :
    Good og (@State.unmapPages a1 a2 a3 a4) := by
  unfold State.unmapPages
  extract_lets +onlyGivenNames x1
  have h2 : Good og (x1) := by
    subst x1
    refine good_foldl ?_ (fun s3 y4 h5 => ?_)
    · assumption
    · exact State.unmapPage_good ‹_›
  try clear_value x1
  extract_lets +onlyGivenNames x6
  have h7 : Good og (x6) := by
    subst x6
    refine good_foldl ?_ (fun s8 y9 h10 => ?_)
    · assumption
    · refine good_ite ?_ ?_
      · exact State.write_good ‹_›
      · assumption
  try clear_value x6
  exact State.markAll_good ‹_›

theorem State.freeTables_good {og : Origin} {a1 : State} {a2 : Nat} (h1 : Good og (a1)) :
    Good og (@State.freeTables a1 a2) := by
  unfold State.freeTables
  exact State.zeroRange_good (State.zeroRange_good ‹_›)

theorem State.grantFrame_good {og : Origin} {a1 : State} {a2 : Nat} {a3 : Bool} {a4 : Nat} (h1 : Good og (a1)) :
    Good og (@State.grantFrame a1 a2 a3 a4) := by
  unfold State.grantFrame
  extract_lets +onlyGivenNames x1; try clear_value x1
  exact State.setIso_good ‹_›

theorem State.revokeFrame_good {og : Origin} {a1 : State} {a2 : Nat} {a3 : Nat} (h1 : Good og (a1)) :
    Good og (@State.revokeFrame a1 a2 a3) := by
  unfold State.revokeFrame
  exact State.setIso_good ‹_›

theorem State.markFrames_good {og : Origin} {a1 : State} {a2 : List Nat} (h1 : Good og (a1)) :
    Good og (@State.markFrames a1 a2) := by
  unfold State.markFrames
  refine good_foldl ?_ (fun s1 y2 h3 => ?_)
  · assumption
  · exact State.markAll_good ‹_›

theorem State.grantFrames_good {og : Origin} {a1 : State} {a2 : Nat} {a3 : Bool} {a4 : List Nat} (h1 : Good og (a1)) :
    Good og (@State.grantFrames a1 a2 a3 a4) := by
  unfold State.grantFrames
  refine State.markFrames_good ?_
  refine good_foldl ?_ (fun s1 y2 h3 => ?_)
  · assumption
  · exact State.grantFrame_good ‹_›

theorem State.revokeFrames_good {og : Origin} {a1 : State} {a2 : Nat} {a3 : List Nat} (h1 : Good og (a1)) :
    Good og (@State.revokeFrames a1 a2 a3) := by
  unfold State.revokeFrames
  refine State.markFrames_good ?_
  refine good_foldl ?_ (fun s1 y2 h3 => ?_)
  · assumption
  · exact State.revokeFrame_good ‹_›

theorem State.retire_good {og : Origin} {a1 : State} {a2 : List Nat} (h1 : Good og (a1)) :
    Good og (@State.retire a1 a2) := by
  unfold State.retire
  exact good_mk ‹_› rfl rfl rfl rfl rfl rfl rfl

theorem State.settleRetired_good {og : Origin} {a1 : State} (h1 : Good og (a1)) :
    Good og (@State.settleRetired a1) := by
  unfold State.settleRetired
  extract_lets +onlyGivenNames x1; try clear_value x1
  refine good_ite ?_ ?_
  · assumption
  · extract_lets +onlyGivenNames x2
    have h3 : Good og (x2) := by
      subst x2
      refine good_foldl ?_ (fun s4 y5 h6 => ?_)
      · assumption
      · exact State.zeroRange_good ‹_›
    try clear_value x2
    exact good_mk ‹_› rfl rfl rfl rfl rfl rfl rfl

theorem State.forwardMarker_good {og : Origin} {a1 : State} {a2 : Nat} {a3 : TreeMsg} (h1 : Good og (a1)) :
    Good og (@State.forwardMarker a1 a2 a3) := by
  unfold State.forwardMarker
  extract_lets +onlyGivenNames x1
  have h2 : Good og (x1) := by subst x1; exact State.setTlb_good (State.popMsg_good ‹_›)
  try clear_value x1
  refine State.settleRetired_good ?_
  split
  · rename_i w3 w4 w5 w6
    exact State.emit_good ‹_›
  · rename_i w7 w8 w9
    exact State.emit_good ‹_›
  · rename_i w10 w11 w12
    assumption

theorem State.forward_good {og : Origin} {a1 : State} {a2 : Nat} {a3 : TreeMsg} (h1 : Good og (a1)) :
    Good og (@State.forward a1 a2 a3) := by
  unfold State.forward
  split
  · rename_i w1 w2 w3
    exact State.emit_good (State.popMsg_good ‹_›)
  · rename_i w4 w5
    exact State.snapshotMarker_good ‹_›
  · rename_i w6 w7 w8
    exact State.forwardMarker_good ‹_›

theorem State.passMarkersIf_good {og : Origin} {a1 : TreeMsg → Bool} {a2 : Nat} {a3 : Nat} {a4 : State} (h4 : Good og (a4)) :
    Good og (@State.passMarkersIf a1 a2 a3 a4) := by
  induction a3 generalizing a4 with
  | zero =>
    rw [State.passMarkersIf]
    assumption
  | succ n ih =>
    rw [State.passMarkersIf]
    split
    · rename_i w1 w2 w3 w4
      refine good_ite ?_ ?_
      · exact ih (State.forward_good ‹_›)
      · assumption
    · rename_i w5 w6
      assumption

theorem State.passMarkers_good {og : Origin} {a1 : State} {a2 : Nat} (h1 : Good og (a1)) :
    Good og (@State.passMarkers a1 a2) := by
  unfold State.passMarkers
  exact State.passMarkersIf_good ‹_›

theorem State.passAll_good {og : Origin} {a1 : State} (h1 : Good og (a1)) :
    Good og (@State.passAll a1) := by
  unfold State.passAll
  refine good_foldl ?_ (fun s1 y2 h3 => ?_)
  · assumption
  · exact State.passMarkers_good ‹_›

end Sys2Proof.Machine
end

