-- ==== Sys2Proof/Laws/Keep/Rings.lean ====
section
/-! SUPPORT. What the operations of Machine/Rings.lean keep. -/

namespace Sys2Proof.Machine

theorem State.showHalted_good {og : Origin} {a1 : State} {a2 : Nat} (h1 : Good og (a1)) :
    Good og (@State.showHalted a1 a2) := by
  unfold State.showHalted
  refine good_ite ?_ ?_
  · exact State.wr_good ‹_›
  · exact State.wr_good ‹_›

theorem State.setSq_good {og : Origin} {a1 : State} {a2 : Nat} {a3 : Nat} {a4 : Sq} (h1 : Good og (a1)) :
    Good og (@State.setSq a1 a2 a3 a4) := by
  unfold State.setSq
  refine good_ite ?_ ?_
  · exact State.showHalted_good (State.wr_good (good_mk ‹_› rfl rfl rfl rfl rfl rfl rfl))
  · exact State.showHalted_good (State.modTenant_good ‹_›)

theorem State.setCq_good {og : Origin} {a1 : State} {a2 : Nat} {a3 : Nat} {a4 : Cq} (h1 : Good og (a1)) :
    Good og (@State.setCq a1 a2 a3 a4) := by
  unfold State.setCq
  refine good_ite ?_ ?_
  · exact State.wr_good (good_mk ‹_› rfl rfl rfl rfl rfl rfl rfl)
  · exact State.modTenant_good ‹_›

theorem State.modEntry_good {og : Origin} {a1 : State} {a2 : Nat} {a3 : Nat} {a4 : Nat} {a5 : Entry → Entry} (h1 : Good og (a1)) :
    Good og (@State.modEntry a1 a2 a3 a4 a5) := by
  unfold State.modEntry
  split
  · rename_i w1 w2 w3
    exact State.setSq_good ‹_›
  · rename_i w4 w5
    assumption

theorem State.finishOne_good {og : Origin} {a1 : State} {a2 : Nat} {a3 : Nat} {a4 : Nat} {a5 : Nat} {a6 : Nat} {a7 : Nat} (h1 : Good og (a1)) :
    Good og (@State.finishOne a1 a2 a3 a4 a5 a6 a7) := by
  unfold State.finishOne
  split
  · rename_i w1 w2
    assumption
  · rename_i w3 w4 w5
    split
    · rename_i w6 w7
      assumption
    · rename_i w8 w9 w10
      refine good_ite ?_ ?_
      · assumption
      · extract_lets +onlyGivenNames x11
        try clear_value x11
        extract_lets +onlyGivenNames x12
        have h13 : Good og (x12) := by subst x12; exact State.setSq_good ‹_›
        try clear_value x12
        refine good_ite ?_ ?_
        · assumption
        · split
          · rename_i w14 w15 w16
            exact State.setCq_good ‹_›
          · rename_i w17 w18
            assumption

theorem State.settleWaits_good {og : Origin} {a1 : State} (h1 : Good og (a1)) :
    Good og (@State.settleWaits a1) := by
  unfold State.settleWaits
  extract_lets +onlyGivenNames x1; try clear_value x1
  refine good_ite ?_ ?_
  · assumption
  · refine good_foldl ?_ (fun s2 y3 h4 => ?_)
    · exact good_mk ‹_› rfl rfl rfl rfl rfl rfl rfl
    · split
      · rename_i w5 w6 w7
        exact State.finishOne_good ‹_›
      · rename_i w8 w9
        assumption

theorem State.finish_good {og : Origin} {a1 : State} {a2 : Nat} {a3 : Nat} {a4 : Nat} {a5 : Nat} {a6 : Nat} {a7 : Nat} (h1 : Good og (a1)) :
    Good og (@State.finish a1 a2 a3 a4 a5 a6 a7) := by
  unfold State.finish
  exact State.finishOne_good (State.settleWaits_good ‹_›)

theorem State.markFaults_good {og : Origin} {a1 : State} {a2 : Nat} {a3 : Nat} {a4 : Nat} (h1 : Good og (a1)) :
    Good og (@State.markFaults a1 a2 a3 a4) := by
  unfold State.markFaults
  exact State.modEntry_good ‹_›

theorem State.halt_good {og : Origin} {a1 : State} {a2 : Nat} {a3 : Nat} {a4 : Nat} (h1 : Good og (a1)) :
    Good og (@State.halt a1 a2 a3 a4) := by
  unfold State.halt
  split
  · rename_i w1 w2
    assumption
  · rename_i w3 w4 w5
    extract_lets +onlyGivenNames x6
    have h7 : Good og (x6) := by subst x6; exact State.setSq_good ‹_›
    try clear_value x6
    refine good_ite ?_ ?_
    · exact State.setEvent_good ‹_›
    · assumption

theorem State.closeAborts_good {og : Origin} {a1 : State} (h1 : Good og (a1)) :
    Good og (@State.closeAborts a1) := by
  unfold State.closeAborts
  extract_lets +onlyGivenNames x1; try clear_value x1
  extract_lets +onlyGivenNames x2; try clear_value x2
  extract_lets +onlyGivenNames x3
  have h4 : Good og (x3) := by subst x3; exact good_mk ‹_› rfl rfl rfl rfl rfl rfl rfl
  try clear_value x3
  refine good_foldl ?_ (fun s5 y6 h7 => ?_)
  · assumption
  · exact State.finish_good ‹_›

theorem State.recorded_good {og : Origin} {a1 : State} {a2 : Nat} (h1 : Good og (a1)) :
    Good og (@State.recorded a1 a2) := by
  unfold State.recorded
  exact State.closeAborts_good (good_mk ‹_› rfl rfl rfl rfl rfl rfl rfl)

theorem State.adminIdle_good {og : Origin} {a1 : State} (h1 : Good og (a1)) :
    Good og (@State.adminIdle a1) := by
  unfold State.adminIdle
  refine good_ite ?_ ?_
  · exact State.showHalted_good (good_mk ‹_› rfl rfl rfl rfl rfl rfl rfl)
  · assumption

theorem State.recordWrite_good {og : Origin} {a1 : State} {a2 : Nat} {a3 : Nat} {a4 : Bool} (h1 : Good og (a1)) :
    Good og (@State.recordWrite a1 a2 a3 a4) := by
  unfold State.recordWrite
  extract_lets +onlyGivenNames x1
  have h2 : Good og (x1) := by subst x1; exact State.settleWaits_good ‹_›
  try clear_value x1
  split
  · rename_i w3 w4
    assumption
  · rename_i w5 w6 w7
    split
    · rename_i w8 w9
      assumption
    · rename_i w10 w11 w12 w13 w14
      refine good_ite ?_ ?_
      · assumption
      · split
        · rename_i w15 w16
          exact State.setCq_good ‹_›
        · rename_i w17 w18 w19
          extract_lets +onlyGivenNames x20; try clear_value x20
          extract_lets +onlyGivenNames x21
          have h22 : Good og (x21) := by
            subst x21
            refine good_ite ?_ ?_
            · exact State.hostWrite_good ‹_›
            · exact State.setEvent_good ‹_›
          try clear_value x21
          extract_lets +onlyGivenNames x23; try clear_value x23
          extract_lets +onlyGivenNames x24
          have h25 : Good og (x24) := by subst x24; exact State.setCq_good ‹_›
          try clear_value x24
          extract_lets +onlyGivenNames x26
          have h27 : Good og (x26) := by subst x26; exact State.drawn_good (State.modEntry_good ‹_›)
          try clear_value x26
          extract_lets +onlyGivenNames x28
          have h29 : Good og (x28) := by
            subst x28
            refine good_ite ?_ ?_
            · exact State.raise_good ‹_›
            · assumption
          try clear_value x28
          extract_lets +onlyGivenNames x30
          have h31 : Good og (x30) := by
            subst x30
            refine good_ite ?_ ?_
            · exact State.halt_good ‹_›
            · assumption
          try clear_value x30
          exact State.adminIdle_good (State.recorded_good ‹_›)

theorem State.stageEntry_good {og : Origin} {a1 : State} {a2 : Nat} {a3 : Nat} {a4 : List Byte} (h1 : Good og (a1)) :
    Good og (@State.stageEntry a1 a2 a3 a4) := by
  unfold State.stageEntry
  split
  · rename_i w1 w2
    assumption
  · rename_i w3 w4 w5
    extract_lets +onlyGivenNames x6; try clear_value x6
    extract_lets +onlyGivenNames x7; try clear_value x7
    extract_lets +onlyGivenNames x8; try clear_value x8
    extract_lets +onlyGivenNames x9; try clear_value x9
    extract_lets +onlyGivenNames x10; try clear_value x10
    extract_lets +onlyGivenNames x11
    have h12 : Good og (x11) := by subst x11; exact good_mk ‹_› rfl rfl rfl rfl rfl rfl rfl
    try clear_value x11
    extract_lets +onlyGivenNames x13
    have h14 : Good og (x13) := by subst x13; exact State.setSq_good ‹_›
    try clear_value x13
    refine good_ite ?_ ?_
    · exact State.finish_good ‹_›
    · assumption

theorem State.fetchEnd_good {og : Origin} {a1 : State} {a2 : Nat} {a3 : Nat} {a4 : List (List Byte)} {a5 : Bool} (h1 : Good og (a1)) :
    Good og (@State.fetchEnd a1 a2 a3 a4 a5) := by
  unfold State.fetchEnd
  split
  · rename_i w1 w2
    assumption
  · rename_i w3 w4 w5
    extract_lets +onlyGivenNames x6; try clear_value x6
    refine good_ite ?_ ?_
    · assumption
    · extract_lets +onlyGivenNames x7
      try clear_value x7
      refine good_ite ?_ ?_
      · exact State.halt_good (State.setEvent_good ‹_›)
      · extract_lets +onlyGivenNames x8
        have h9 : Good og (x8) := by subst x8; exact State.count_good (State.emit_good ‹_›)
        try clear_value x8
        refine good_foldl ?_ (fun s10 y11 h12 => ?_)
        · assumption
        · exact State.stageEntry_good ‹_›

theorem execSqFetchEnd_good {og : Origin} {a1 : RingSel} {a2 : List (List Byte)} {a3 : Bool} {a4 : State} (h4 : Good og (a4)) :
    GoodOut og (@execSqFetchEnd a1 a2 a3 a4) := by
  unfold execSqFetchEnd
  refine goodOut_next ?_
  refine good_ite ?_ ?_
  · assumption
  · exact State.fetchEnd_good ‹_›

theorem execCompletionRecordWrite_good {og : Origin} {a1 : RingSel} {a2 : Bool} {a3 : State} (h3 : Good og (a3)) :
    GoodOut og (@execCompletionRecordWrite a1 a2 a3) := by
  unfold execCompletionRecordWrite
  refine goodOut_next ?_
  refine good_ite ?_ ?_
  · assumption
  · exact State.recordWrite_good ‹_›

theorem State.passTurn_good {og : Origin} {a1 : State} {a2 : Nat} {a3 : Nat} (h1 : Good og (a1)) :
    Good og (@State.passTurn a1 a2 a3) := by
  unfold State.passTurn
  split
  · rename_i w1 w2 w3 w4
    extract_lets +onlyGivenNames x5; try clear_value x5
    extract_lets +onlyGivenNames x6; try clear_value x6
    exact good_mk ‹_› rfl rfl rfl rfl rfl rfl rfl

theorem State.startEntry_good {og : Origin} {a1 : State} {a2 : Nat} {a3 : Nat} {a4 : Entry} {a5 : State → Entry → State} (h1 : Good og (a1)) (h5 : ∀ b1 b2, Good og (b1) → Good og (a5 b1 b2)) :
    Good og (@State.startEntry a1 a2 a3 a4 a5) := by
  unfold State.startEntry
  extract_lets +onlyGivenNames x1
  have h2 : Good og (x1) := by subst x1; exact State.modEntry_good ‹_›
  try clear_value x1
  refine good_ite ?_ ?_
  · exact State.finish_good ‹_›
  · refine good_ite ?_ ?_
    · exact State.finish_good ‹_›
    · exact h5 _ _ ‹_›

theorem State.runCommand_good {og : Origin} {a1 : State} {a2 : Nat} {a3 : Nat} {a4 : Nat} {a5 : State → Entry → State} (h1 : Good og (a1)) (h5 : ∀ b1 b2, Good og (b1) → Good og (a5 b1 b2)) :
    Good og (@State.runCommand a1 a2 a3 a4 a5) := by
  unfold State.runCommand
  extract_lets +onlyGivenNames x1
  have h2 : Good og (x1) := by subst x1; exact State.settleWaits_good ‹_›
  try clear_value x1
  refine good_ite ?_ ?_
  · assumption
  · split
    · rename_i w3 w4
      assumption
    · rename_i w5 w6 w7
      refine good_ite ?_ ?_
      · assumption
      · refine State.startEntry_good ?_ ?_
        · exact State.passTurn_good ‹_›
        · intro v8 v9 v10
          exact h5 _ _ ‹_›

theorem State.runAdmin_good {og : Origin} {a1 : State} {a2 : Nat} {a3 : State → Entry → State} (h1 : Good og (a1)) (h3 : ∀ b1 b2, Good og (b1) → Good og (a3 b1 b2)) :
    Good og (@State.runAdmin a1 a2 a3) := by
  unfold State.runAdmin
  extract_lets +onlyGivenNames x1
  have h2 : Good og (x1) := by subst x1; exact State.settleWaits_good ‹_›
  try clear_value x1
  refine good_ite ?_ ?_
  · assumption
  · split
    · rename_i w3 w4
      assumption
    · rename_i w5 w6 w7
      refine good_ite ?_ ?_
      · assumption
      · refine State.startEntry_good ?_ ?_
        · assumption
        · intro v8 v9 v10
          exact h3 _ _ ‹_›

theorem State.newTail_good {og : Origin} {a1 : State} {a2 : Nat} {a3 : Nat} {a4 : Nat} (h1 : Good og (a1)) :
    Good og (@State.newTail a1 a2 a3 a4) := by
  unfold State.newTail
  split
  · rename_i w1 w2
    assumption
  · rename_i w3 w4 w5
    refine good_ite ?_ ?_
    · exact State.halt_good ‹_›
    · exact State.setSq_good ‹_›

theorem State.newHead_good {og : Origin} {a1 : State} {a2 : Nat} {a3 : Nat} {a4 : Nat} (h1 : Good og (a1)) :
    Good og (@State.newHead a1 a2 a3 a4) := by
  unfold State.newHead
  split
  · rename_i w1 w2
    assumption
  · rename_i w3 w4 w5
    refine good_ite ?_ ?_
    · assumption
    · extract_lets +onlyGivenNames x6
      try clear_value x6
      exact State.setCq_good ‹_›

theorem execSqTailWrite_good {og : Origin} {a1 : TenantId} {a2 : RingId} {a3 : Half} {a4 : State} (h4 : Good og (a4)) :
    GoodOut og (@execSqTailWrite a1 a2 a3 a4) := by
  unfold execSqTailWrite
  refine goodOut_next ?_
  refine good_ite ?_ ?_
  · exact State.newTail_good ‹_›
  · assumption

theorem execCqHeadWrite_good {og : Origin} {a1 : TenantId} {a2 : RingId} {a3 : Half} {a4 : State} (h4 : Good og (a4)) :
    GoodOut og (@execCqHeadWrite a1 a2 a3 a4) := by
  unfold execCqHeadWrite
  refine goodOut_next ?_
  refine good_ite ?_ ?_
  · exact State.newHead_good ‹_›
  · assumption

theorem State.ringResume_good {og : Origin} {a1 : State} {a2 : Nat} {a3 : Nat} (h1 : Good og (a1)) :
    Good og (@State.ringResume a1 a2 a3) := by
  unfold State.ringResume
  split
  · rename_i w1 w2 w3
    refine good_ite ?_ ?_
    · exact State.setSq_good ‹_›
    · assumption
  · rename_i w4 w5
    assumption

theorem State.ringFlush_good {og : Origin} {a1 : State} {a2 : Nat} {a3 : Nat} (h1 : Good og (a1)) :
    Good og (@State.ringFlush a1 a2 a3) := by
  unfold State.ringFlush
  split
  · rename_i w1 w2 w3
    refine good_ite ?_ ?_
    · refine State.ringResume_good ?_
      refine good_foldl ?_ (fun s4 y5 h6 => ?_)
      · assumption
      · exact State.finish_good ‹_›
    · assumption
  · rename_i w7 w8
    assumption

theorem execRingResume_good {og : Origin} {a1 : TenantId} {a2 : RingId} {a3 : State} (h3 : Good og (a3)) :
    GoodOut og (@execRingResume a1 a2 a3) := by
  unfold execRingResume
  refine goodOut_next ?_
  refine good_ite ?_ ?_
  · exact State.ringResume_good ‹_›
  · assumption

theorem execRingFlush_good {og : Origin} {a1 : TenantId} {a2 : RingId} {a3 : State} (h3 : Good og (a3)) :
    GoodOut og (@execRingFlush a1 a2 a3) := by
  unfold execRingFlush
  refine goodOut_next ?_
  refine good_ite ?_ ?_
  · exact State.ringFlush_good ‹_›
  · assumption

theorem execFaultHeadWrite_good {og : Origin} {a1 : TenantId} {a2 : Word} {a3 : State} (h3 : Good og (a3)) :
    GoodOut og (@execFaultHeadWrite a1 a2 a3) := by
  unfold execFaultHeadWrite
  refine goodOut_next ?_
  refine good_ite ?_ ?_
  · exact State.modFault_good ‹_›
  · assumption

theorem execAdminResume_good {og : Origin} {a1 : State} (h1 : Good og (a1)) :
    GoodOut og (@execAdminResume a1) := by
  unfold execAdminResume
  exact goodOut_next (State.ringResume_good ‹_›)

theorem execAdminFlush_good {og : Origin} {a1 : State} (h1 : Good og (a1)) :
    GoodOut og (@execAdminFlush a1) := by
  unfold execAdminFlush
  exact goodOut_next (State.ringFlush_good ‹_›)

theorem State.adminDoorbell_good {og : Origin} {a1 : State} {a2 : Nat} (h1 : Good og (a1)) :
    Good og (@State.adminDoorbell a1 a2) := by
  unfold State.adminDoorbell
  refine good_ite ?_ ?_
  · assumption
  · extract_lets +onlyGivenNames x1
    have h2 : Good og (x1) := by subst x1; exact State.setReg_good ‹_›
    try clear_value x1
    exact State.newHead_good (State.newTail_good ‹_›)

theorem execAdminDoorbell_good {og : Origin} {a1 : Word} {a2 : State} (h2 : Good og (a2)) :
    GoodOut og (@execAdminDoorbell a1 a2) := by
  unfold execAdminDoorbell
  exact goodOut_next (State.adminDoorbell_good ‹_›)

theorem State.adminEnable_good {og : Origin} {a1 : State} {a2 : Nat} (h1 : Good og (a1)) :
    Good og (@State.adminEnable a1 a2) := by
  unfold State.adminEnable
  extract_lets +onlyGivenNames x1
  have h2 : Good og (x1) := by subst x1; exact State.setReg_good ‹_›
  try clear_value x1
  refine good_ite ?_ ?_
  · exact State.adminIdle_good ‹_›
  · refine good_ite ?_ ?_
    · assumption
    · extract_lets +onlyGivenNames x3
      try clear_value x3
      extract_lets +onlyGivenNames x4; try clear_value x4
      extract_lets +onlyGivenNames x5; try clear_value x5
      extract_lets +onlyGivenNames x6; try clear_value x6
      extract_lets +onlyGivenNames x7; try clear_value x7
      extract_lets +onlyGivenNames x8
      have h9 : Good og (x8) := by subst x8; exact good_mk ‹_› rfl rfl rfl rfl rfl rfl rfl
      try clear_value x8
      exact State.setCq_good (State.setSq_good ‹_›)

theorem execAdminRingEnable_good {og : Origin} {a1 : Word} {a2 : State} (h2 : Good og (a2)) :
    GoodOut og (@execAdminRingEnable a1 a2) := by
  unfold execAdminRingEnable
  exact goodOut_next (State.adminEnable_good ‹_›)

theorem execNopCommand_good {og : Origin} {a1 : TenantId} {a2 : RingId} {a3 : State} (h3 : Good og (a3)) :
    GoodOut og (@execNopCommand a1 a2 a3) := by
  unfold execNopCommand
  refine goodOut_next ?_
  refine State.runCommand_good ?_ ?_
  · assumption
  · intro v1 v2 v3
    exact State.finish_good ‹_›

end Sys2Proof.Machine
end

