-- ==== Sys2Proof/Laws/Keep/Scale.lean ====
section
/-! SUPPORT. What the operations of Machine/Scale.lean keep. -/

namespace Sys2Proof.Machine

theorem State.putArea_good {og : Origin} {a1 : State} {a2 : Nat} {a3 : Nat} {a4 : Nat} {a5 : List Byte} (h1 : Good og (a1)) :
    Good og (@State.putArea a1 a2 a3 a4 a5) := by
  unfold State.putArea
  split
  · rename_i w1 w2 w3
    exact State.write_good ‹_›
  · rename_i w4 w5
    assumption

theorem State.setNum_good {og : Origin} {a1 : State} {a2 : Nat} {a3 : NumState} (h1 : Good og (a1)) :
    Good og (@State.setNum a1 a2 a3) := by
  unfold State.setNum
  exact State.putArea_good (State.modTenant_good ‹_›)

theorem State.setRec_good {og : Origin} {a1 : State} {a2 : Nat} {a3 : NumRec} (h1 : Good og (a1)) :
    Good og (@State.setRec a1 a2 a3) := by
  unfold State.setRec
  exact State.putArea_good (State.modTenant_good ‹_›)

theorem State.modRec_good {og : Origin} {a1 : State} {a2 : Nat} {a3 : Nat} {a4 : NumRec → NumRec} (h1 : Good og (a1)) :
    Good og (@State.modRec a1 a2 a3 a4) := by
  unfold State.modRec
  split
  · rename_i w1 w2 w3
    exact State.setRec_good ‹_›
  · rename_i w4 w5
    assumption

theorem State.mapRecs_good {og : Origin} {a1 : State} {a2 : Nat} {a3 : NumRec → NumRec} (h1 : Good og (a1)) :
    Good og (@State.mapRecs a1 a2 a3) := by
  unfold State.mapRecs
  refine good_foldl ?_ (fun s1 y2 h3 => ?_)
  · assumption
  · exact State.modRec_good ‹_›

theorem State.scaleEvent_good {og : Origin} {a1 : State} {a2 : Nat} {a3 : Nat} {a4 : Nat} {a5 : Nat} (h1 : Good og (a1)) :
    Good og (@State.scaleEvent a1 a2 a3 a4 a5) := by
  unfold State.scaleEvent
  exact State.tell_good ‹_›

theorem State.takeAmax_good {og : Origin} {a1 : State} {a2 : AmaxReport} (h1 : Good og (a1)) :
    Good og (@State.takeAmax a1 a2) := by
  unfold State.takeAmax
  split
  · rename_i w1 w2
    assumption
  · rename_i w3 w4 w5
    extract_lets +onlyGivenNames x6; try clear_value x6
    extract_lets +onlyGivenNames x7
    have h8 : Good og (x7) := by
      subst x7
      refine good_ite ?_ ?_
      · exact State.scaleEvent_good ‹_›
      · assumption
    try clear_value x7
    exact State.setRec_good ‹_›

theorem State.amaxReport_good {og : Origin} {a1 : State} (h1 : Good og (a1)) :
    Good og (@State.amaxReport a1) := by
  unfold State.amaxReport
  split
  · rename_i w1 w2
    assumption
  · rename_i w3 w4 w5 w6
    exact State.takeAmax_good (good_mk ‹_› rfl rfl rfl rfl rfl rfl rfl)

theorem execAmaxReport_good {og : Origin} {a1 : State} (h1 : Good og (a1)) :
    GoodOut og (@execAmaxReport a1) := by
  unfold execAmaxReport
  exact goodOut_next (State.amaxReport_good ‹_›)

theorem State.reportAmax_good {og : Origin} {a1 : State} {a2 : Nat} {a3 : Nat} {a4 : Word} {a5 : Nat} {a6 : Nat} {a7 : Option Word} (h1 : Good og (a1)) :
    Good og (@State.reportAmax a1 a2 a3 a4 a5 a6 a7) := by
  unfold State.reportAmax
  exact good_mk ‹_› rfl rfl rfl rfl rfl rfl rfl

theorem State.fellBack_good {og : Origin} {a1 : State} {a2 : Nat} {a3 : Nat} (h1 : Good og (a1)) :
    Good og (@State.fellBack a1 a2 a3) := by
  unfold State.fellBack
  refine good_ite ?_ ?_
  · assumption
  · extract_lets +onlyGivenNames x1
    try clear_value x1
    exact State.scaleEvent_good (State.setNum_good ‹_›)

theorem State.rebuilt_good {og : Origin} {a1 : State} {a2 : Nat} {a3 : Bool} (h1 : Good og (a1)) :
    Good og (@State.rebuilt a1 a2 a3) := by
  unfold State.rebuilt
  refine good_ite ?_ ?_
  · exact State.scaleEvent_good ‹_›
  · assumption

theorem State.escalateOne_good {og : Origin} {a1 : State} {a2 : Nat} {a3 : Nat} {a4 : Nat} (h1 : Good og (a1)) :
    Good og (@State.escalateOne a1 a2 a3 a4) := by
  unfold State.escalateOne
  exact State.scaleEvent_good (State.setEvent_good (State.modRec_good ‹_›))

theorem State.escalate_good {og : Origin} {a1 : State} {a2 : Nat} {a3 : Nat} (h1 : Good og (a1)) :
    Good og (@State.escalate a1 a2 a3).1 := by
  unfold State.escalate
  split
  · rename_i w1 w2
    exact good_pair ‹_›
  · rename_i w3 w4 w5
    split
    · rename_i w6 w7
      exact good_pair ‹_›
    · rename_i w8 w9 w10
      extract_lets +onlyGivenNames x11
      have h12 : Good og (x11) := by subst x11; exact State.escalateOne_good ‹_›
      try clear_value x11
      split
      · rename_i w13 w14 w15
        refine good_ite_fst ?_ ?_
        · exact good_pair (State.escalateOne_good ‹_›)
        · exact good_pair ‹_›
      · rename_i w16 w17
        exact good_pair ‹_›

theorem State.commitScore_good {og : Origin} {a1 : State × Nat} {a2 : Nat} {a3 : Nat} (h1 : Good og (a1).1) :
    Good og (@State.commitScore a1 a2 a3).1 := by
  unfold State.commitScore
  split
  · rename_i w1 w2
    assumption
  · rename_i w3 w4 w5
    refine good_ite_fst ?_ ?_
    · assumption
    · extract_lets +onlyGivenNames x6
      try clear_value x6
      extract_lets +onlyGivenNames x7
      have h8 : Good og (x7) := by subst x7; exact State.setRec_good ‹_›
      try clear_value x7
      refine good_ite_fst ?_ ?_
      · extract_lets +onlyGivenNames x9
        have h10 : Good og (x9).1 := by subst x9; exact State.escalate_good ‹_›
        try clear_value x9
        exact good_pair ‹_›
      · exact good_pair ‹_›

theorem State.commitScales_good {og : Origin} {a1 : State} {a2 : Nat} {a3 : Nat} (h1 : Good og (a1)) :
    Good og (@State.commitScales a1 a2 a3) := by
  unfold State.commitScales
  extract_lets +onlyGivenNames x1; try clear_value x1
  extract_lets +onlyGivenNames x2
  have h3 : Good og (x2) := by subst x2; exact State.mapRecs_good ‹_›
  try clear_value x2
  extract_lets +onlyGivenNames x4
  have h5 : Good og (x4) := by subst x4; exact State.rebuilt_good ‹_›
  try clear_value x4
  split
  · rename_i w6 w7 w8 w9
    have h10 : Good og w7 := by
      refine good_fst w9 ?_
      refine good_foldl_fst ?_ (fun s11 y12 h13 => ?_)
      · exact good_pair ‹_›
      · exact State.commitScore_good ‹_›
    exact State.mapRecs_good (State.fellBack_good ‹_›)

theorem State.backOffRec_good {og : Origin} {a1 : State × Nat} {a2 : Nat} {a3 : Nat} (h1 : Good og (a1).1) :
    Good og (@State.backOffRec a1 a2 a3).1 := by
  unfold State.backOffRec
  split
  · rename_i w1 w2
    assumption
  · rename_i w3 w4 w5
    refine good_ite_fst ?_ ?_
    · assumption
    · extract_lets +onlyGivenNames x6
      try clear_value x6
      extract_lets +onlyGivenNames x7; try clear_value x7
      extract_lets +onlyGivenNames x8; try clear_value x8
      refine good_ite_fst ?_ ?_
      · extract_lets +onlyGivenNames x9
        have h10 : Good og (x9) := by subst x9; exact State.setRec_good ‹_›
        try clear_value x9
        refine good_ite_fst ?_ ?_
        · extract_lets +onlyGivenNames x11
          have h12 : Good og (x11).1 := by subst x11; exact State.escalate_good ‹_›
          try clear_value x11
          exact good_pair ‹_›
        · exact good_pair ‹_›
      · exact good_pair (State.setRec_good ‹_›)

theorem State.backOff_good {og : Origin} {a1 : State} {a2 : Nat} (h1 : Good og (a1)) :
    Good og (@State.backOff a1 a2) := by
  unfold State.backOff
  extract_lets +onlyGivenNames x1
  have h2 : Good og (x1) := by subst x1; exact State.mapRecs_good (State.setNum_good ‹_›)
  try clear_value x1
  split
  · rename_i w3 w4 w5 w6
    have h7 : Good og w4 := by
      refine good_fst w6 ?_
      refine good_foldl_fst ?_ (fun s8 y9 h10 => ?_)
      · exact good_pair ‹_›
      · exact State.backOffRec_good ‹_›
    exact State.fellBack_good ‹_›

theorem State.clearStepNums_good {og : Origin} {a1 : State} {a2 : Nat} (h1 : Good og (a1)) :
    Good og (@State.clearStepNums a1 a2) := by
  unfold State.clearStepNums
  extract_lets +onlyGivenNames x1; try clear_value x1
  exact State.mapRecs_good (State.setNum_good ‹_›)

theorem State.poisonNow_good {og : Origin} {a1 : State} {a2 : Nat} {a3 : Nat} {a4 : Nat} {a5 : Nat} (h1 : Good og (a1)) :
    Good og (@State.poisonNow a1 a2 a3 a4 a5) := by
  unfold State.poisonNow
  refine good_ite ?_ ?_
  · assumption
  · extract_lets +onlyGivenNames x1
    try clear_value x1
    exact State.setNum_good ‹_›

theorem State.poisonSource_good {og : Origin} {a1 : State} (h1 : Good og (a1)) :
    Good og (@State.poisonSource a1) := by
  unfold State.poisonSource
  split
  · rename_i w1 w2
    assumption
  · rename_i w3 w4 w5 w6
    exact State.poisonNow_good (good_mk ‹_› rfl rfl rfl rfl rfl rfl rfl)

theorem State.sendPoison_good {og : Origin} {a1 : State} {a2 : Nat} {a3 : Nat} {a4 : Nat} {a5 : Nat} (h1 : Good og (a1)) :
    Good og (@State.sendPoison a1 a2 a3 a4 a5) := by
  unfold State.sendPoison
  exact good_mk ‹_› rfl rfl rfl rfl rfl rfl rfl

theorem State.numericPolicy_good {og : Origin} {a1 : State} {a2 : Nat} {a3 : Nat} {a4 : Entry} (h1 : Good og (a1)) :
    Good og (@State.numericPolicy a1 a2 a3 a4) := by
  unfold State.numericPolicy
  refine good_ite ?_ ?_
  · exact State.finish_good ‹_›
  · split
    · rename_i w1 w2
      exact State.finish_good ‹_›
    · rename_i w3 w4 w5
      exact State.finish_good (State.setNum_good ‹_›)

theorem execNumericPolicy_good {og : Origin} {a1 : TenantId} {a2 : RingId} {a3 : State} (h3 : Good og (a3)) :
    GoodOut og (@execNumericPolicy a1 a2 a3) := by
  unfold execNumericPolicy
  refine goodOut_next ?_
  refine State.runCommand_good ?_ ?_
  · assumption
  · intro v1 v2 v3
    exact State.numericPolicy_good ‹_›

end Sys2Proof.Machine
end

