-- ==== Sys2Proof/Laws/Keep/StepBase.lean ====
section
/-! SUPPORT. What the operations of Machine/StepBase.lean keep. -/

namespace Sys2Proof.Machine

theorem State.modStep_good {og : Origin} {a1 : State} {a2 : Nat} {a3 : Step → Step} (h1 : Good og (a1)) :
    Good og (@State.modStep a1 a2 a3) := by
  unfold State.modStep
  refine State.modTenant_good ?_
  assumption

theorem State.setPhase_good {og : Origin} {a1 : State} {a2 : Nat} {a3 : StepPhase} (h1 : Good og (a1)) :
    Good og (@State.setPhase a1 a2 a3) := by
  unfold State.setPhase
  refine State.wr_good ?_
  refine State.modStep_good ?_
  assumption

theorem State.endCmd_good {og : Origin} {a1 : State} {a2 : Nat} {a3 : Nat} {a4 : Nat} {a5 : Nat} {a6 : Nat} (h1 : Good og (a1)) :
    Good og (@State.endCmd a1 a2 a3 a4 a5 a6) := by
  unfold State.endCmd
  refine State.finish_good ?_
  assumption

theorem State.engines_good {og : Origin} {a1 : State} {a2 : Nat} {a3 : Bool} (h1 : Good og (a1)) :
    Good og (@State.engines a1 a2 a3) := by
  unfold State.engines
  refine State.wr_good ?_
  refine State.wr_good ?_
  assumption

theorem State.enginesOff_good {og : Origin} {a1 : State} {a2 : Nat} (h1 : Good og (a1)) :
    Good og (@State.enginesOff a1 a2) := by
  unfold State.enginesOff
  refine good_ite ?_ ?_
  · refine State.engines_good ?_
    assumption
  · assumption

theorem State.endStep_good {og : Origin} {a1 : State} {a2 : Nat} (h1 : Good og (a1)) :
    Good og (@State.endStep a1 a2) := by
  unfold State.endStep
  extract_lets +onlyGivenNames x1
  have h2 : Good og (x1) := by
    subst x1
    refine State.clearStepNums_good ?_
    refine State.enginesOff_good ?_
    assumption
  try clear_value x1
  extract_lets +onlyGivenNames x3
  try clear_value x3
  extract_lets +onlyGivenNames x4
  have h5 : Good og (x4) := by
    subst x4
    refine State.modStep_good ?_
    assumption
  try clear_value x4
  extract_lets +onlyGivenNames x6
  have h7 : Good og (x6) := by
    subst x6
    refine State.setPhase_good ?_
    assumption
  try clear_value x6
  refine good_foldl ?_ (fun s8 y9 h10 => ?_)
  · assumption
  · refine State.endCmd_good ?_
    assumption

theorem State.rewind_good {og : Origin} {a1 : State} {a2 : Nat} (h1 : Good og (a1)) :
    Good og (@State.rewind a1 a2) := by
  unfold State.rewind
  refine State.modStep_good ?_
  assumption

theorem State.settleReports_good {og : Origin} {a1 : State} {a2 : Nat} (h1 : Good og (a1)) :
    Good og (@State.settleReports a1 a2) := by
  unfold State.settleReports
  extract_lets +onlyGivenNames x1
  try clear_value x1
  extract_lets +onlyGivenNames x2
  try clear_value x2
  extract_lets +onlyGivenNames x3
  have h4 : Good og (x3) := by
    subst x3
    refine good_mk ?_ rfl rfl rfl rfl rfl rfl rfl
    assumption
  try clear_value x3
  refine good_foldl ?_ (fun s5 y6 h7 => ?_)
  · refine good_foldl ?_ (fun s8 y9 h10 => ?_)
    · assumption
    · refine State.takeAmax_good ?_
      assumption
  · refine State.poisonNow_good ?_
    assumption

theorem State.poisonEnd_good {og : Origin} {a1 : State} {a2 : Nat} (h1 : Good og (a1)) :
    Good og (@State.poisonEnd a1 a2) := by
  unfold State.poisonEnd
  extract_lets +onlyGivenNames x1
  try clear_value x1
  refine good_ite ?_ ?_
  · refine State.backOff_good ?_
    refine State.setNum_good ?_
    assumption
  · assumption

theorem State.abortStep_good {og : Origin} {a1 : State} {a2 : Nat} (h1 : Good og (a1)) :
    Good og (@State.abortStep a1 a2) := by
  unfold State.abortStep
  extract_lets +onlyGivenNames x1
  try clear_value x1
  refine good_ite ?_ ?_
  · assumption
  · extract_lets +onlyGivenNames x2
    have h3 : Good og (x2) := by
      subst x2
      refine State.setEvent_good ?_
      refine State.poisonEnd_good ?_
      refine State.rewind_good ?_
      refine State.settleReports_good ?_
      assumption
    try clear_value x2
    extract_lets +onlyGivenNames x4
    have h5 : Good og (x4) := by
      subst x4
      refine State.endStep_good ?_
      assumption
    try clear_value x4
    split
    · rename_i w6 w7 w8
      refine State.endCmd_good ?_
      assumption
    · rename_i w9 w10
      refine State.tell_good ?_
      assumption

theorem State.afterCode_good {og : Origin} {a1 : State} {a2 : Nat} {a3 : Nat} (h1 : Good og (a1)) :
    Good og (@State.afterCode a1 a2 a3) := by
  unfold State.afterCode
  refine good_ite ?_ ?_
  · refine State.abortStep_good ?_
    assumption
  · assumption

theorem State.finishMem_good {og : Origin} {a1 : State} {a2 : Nat} {a3 : Nat} {a4 : Nat} {a5 : Nat} {a6 : Nat} {a7 : Nat} {a8 : Nat} {a9 : Nat} {a10 : Nat} (h1 : Good og (a1)) :
    Good og (@State.finishMem a1 a2 a3 a4 a5 a6 a7 a8 a9 a10) := by
  unfold State.finishMem
  refine State.afterCode_good ?_
  refine State.finish_good ?_
  refine State.markFaults_good ?_
  refine State.memFault_good ?_
  assumption

end Sys2Proof.Machine
end

