-- ==== Sys2Proof/Laws/Keep/Agm.lean ====
section
/-! SUPPORT. What the operations of Machine/Agm.lean keep. -/

namespace Sys2Proof.Machine

theorem State.agmRestart_good {og : Origin} {a1 : State} (h1 : Good og (a1)) :
    Good og (@State.agmRestart a1) := by
  unfold State.agmRestart
  exact State.drawn_good (good_mk ‹_› rfl rfl rfl rfl rfl rfl rfl)

theorem State.countBlocks_good {og : Origin} {a1 : State} {a2 : Nat} {a3 : Nat → Sample} (h1 : Good og (a1)) :
    Good og (@State.countBlocks a1 a2 a3) := by
  unfold State.countBlocks
  refine good_ite ?_ ?_
  · assumption
  · extract_lets +onlyGivenNames x1
    try clear_value x1
    extract_lets +onlyGivenNames x2; try clear_value x2
    extract_lets +onlyGivenNames x3; try clear_value x3
    extract_lets +onlyGivenNames x4
    have h5 : Good og (x4) := by subst x4; exact good_mk ‹_› rfl rfl rfl rfl rfl rfl rfl
    try clear_value x4
    refine good_times ?_ (fun s6 h7 => ?_)
    · assumption
    · extract_lets +onlyGivenNames x8
      try clear_value x8
      refine good_ite ?_ ?_
      · exact good_mk ‹_› rfl rfl rfl rfl rfl rfl rfl
      · assumption

theorem State.samplePoint_good {og : Origin} {a1 : State} (h1 : Good og (a1)) :
    Good og (@State.samplePoint a1) := by
  unfold State.samplePoint
  split
  · rename_i w1 w2
    assumption
  · rename_i w3 w4 w5 w6
    extract_lets +onlyGivenNames x7; try clear_value x7
    extract_lets +onlyGivenNames x8
    have h9 : Good og (x8) := by subst x8; exact good_mk ‹_› rfl rfl rfl rfl rfl rfl rfl
    try clear_value x8
    refine good_ite ?_ ?_
    · exact State.wr_good (good_mk ‹_› rfl rfl rfl rfl rfl rfl rfl)
    · exact State.count_good (State.setEvent_good (State.addSat_good ‹_›))

theorem execSamplePoint_good {og : Origin} {a1 : State} (h1 : Good og (a1)) :
    GoodOut og (@execSamplePoint a1) := by
  unfold execSamplePoint
  refine goodOut_next ?_
  refine good_ite ?_ ?_
  · assumption
  · exact State.samplePoint_good ‹_›

theorem State.sampleFinish_good {og : Origin} {a1 : State} (h1 : Good og (a1)) :
    Good og (@State.sampleFinish a1) := by
  unfold State.sampleFinish
  split
  · rename_i w1 w2
    assumption
  · rename_i w3 w4 w5 w6
    extract_lets +onlyGivenNames x7; try clear_value x7
    extract_lets +onlyGivenNames x8
    have h9 : Good og (x8) := by subst x8; exact State.wr_good (good_mk ‹_› rfl rfl rfl rfl rfl rfl rfl)
    try clear_value x8
    extract_lets +onlyGivenNames x10; try clear_value x10
    extract_lets +onlyGivenNames x11; try clear_value x11
    extract_lets +onlyGivenNames x12; try clear_value x12
    extract_lets +onlyGivenNames x13; try clear_value x13
    extract_lets +onlyGivenNames x14
    have h15 : Good og (x14) := by subst x14; exact State.count_good (State.add_good ‹_›)
    try clear_value x14
    extract_lets +onlyGivenNames x16
    have h17 : Good og (x16) := by
      subst x16
      refine good_ite ?_ ?_
      · assumption
      · exact State.modRec_good ‹_›
    try clear_value x16
    extract_lets +onlyGivenNames x18
    have h19 : Good og (x18) := by
      subst x18
      refine good_ite ?_ ?_
      · exact State.tell_good (State.count_good (State.setEvent_good ‹_›))
      · assumption
    try clear_value x18
    refine good_ite ?_ ?_
    · extract_lets +onlyGivenNames x20
      have h21 : Good og (x20) := by subst x20; exact State.healthInput_good (State.tell_good (State.count_good (State.setEvent_good ‹_›)))
      try clear_value x20
      refine good_ite ?_ ?_
      · exact State.sendPoison_good ‹_›
      · assumption
    · assumption

theorem execSampleFinish_good {og : Origin} {a1 : State} (h1 : Good og (a1)) :
    GoodOut og (@execSampleFinish a1) := by
  unfold execSampleFinish
  refine goodOut_next ?_
  refine good_ite ?_ ?_
  · assumption
  · exact State.sampleFinish_good ‹_›

theorem State.dropSamples_good {og : Origin} {a1 : State} {a2 : Nat} (h1 : Good og (a1)) :
    Good og (@State.dropSamples a1 a2) := by
  unfold State.dropSamples
  extract_lets +onlyGivenNames x1; try clear_value x1
  exact State.wr_good (good_mk ‹_› rfl rfl rfl rfl rfl rfl rfl)

end Sys2Proof.Machine
end

