-- ==== Sys2Proof/Laws/Keep/PlaceOps.lean ====
section
/-! SUPPORT. What the operations of Machine/PlaceOps.lean keep. -/

namespace Sys2Proof.Machine

theorem State.modPlace_good {og : Origin} {a1 : State} {a2 : Nat} {a3 : Place → Place} (h1 : Good og (a1)) :
    Good og (@State.modPlace a1 a2 a3) := by
  unfold State.modPlace
  exact State.modTenant_good ‹_›

theorem State.endBoundary_good {og : Origin} {a1 : State} {a2 : Nat} (h1 : Good og (a1)) :
    Good og (@State.endBoundary a1 a2) := by
  unfold State.endBoundary
  exact State.modPlace_good ‹_›

theorem State.modTensor_good {og : Origin} {a1 : State} {a2 : Nat} {a3 : Nat} {a4 : Tensor → Tensor} (h1 : Good og (a1)) :
    Good og (@State.modTensor a1 a2 a3 a4) := by
  unfold State.modTensor
  exact State.modPlace_good ‹_›

theorem State.convertGroups_good {og : Origin} {a1 : State} {a2 : Bool} {a3 : List Nat} (h1 : Good og (a1)) :
    Good og (@State.convertGroups a1 a2 a3) := by
  unfold State.convertGroups
  refine good_foldl ?_ (fun s1 y2 h3 => ?_)
  · assumption
  · refine good_ite ?_ ?_
    · assumption
    · exact State.setClass_good ‹_›

theorem State.setMapEntry_good {og : Origin} {a1 : State} {a2 : Nat} {a3 : Nat} {a4 : Nat} (h1 : Good og (a1)) :
    Good og (@State.setMapEntry a1 a2 a3 a4) := by
  unfold State.setMapEntry
  refine good_ite ?_ ?_
  · extract_lets +onlyGivenNames x1
    try clear_value x1
    extract_lets +onlyGivenNames x2; try clear_value x2
    exact State.setReg_good ‹_›
  · assumption

theorem State.homeFrames_good {og : Origin} {a1 : State} {a2 : List Nat} {a3 : Nat} {a4 : Nat} (h1 : Good og (a1)) :
    Good og (@State.homeFrames a1 a2 a3 a4) := by
  unfold State.homeFrames
  extract_lets +onlyGivenNames x1; try clear_value x1
  refine good_foldl ?_ (fun s2 y3 h4 => ?_)
  · assumption
  · exact State.setMapEntry_good (State.flushRange_good ‹_›)

theorem State.packPart_good {og : Origin} {a1 : State} {a2 : Nat} {a3 : Nat} {a4 : Bool} {a5 : PartSpec} {a6 : List (Nat × Nat)} {a7 : Nat} {a8 : Nat} (h1 : Good og (a1)) :
    GoodOpt og (@State.packPart a1 a2 a3 a4 a5 a6 a7 a8) := by
  unfold State.packPart
  extract_lets +onlyGivenNames x1; try clear_value x1
  extract_lets +onlyGivenNames x2; try clear_value x2
  extract_lets +onlyGivenNames x3; try clear_value x3
  extract_lets +onlyGivenNames x4; try clear_value x4
  split
  · rename_i w5 w6 w7
    exact goodOpt_some (State.modPlace_good ‹_›)
  · rename_i w8 w9
    split
    · rename_i w10 w11 w12 w13
      extract_lets +onlyGivenNames x14; try clear_value x14
      split
      · rename_i w15
        exact goodOpt_none
      · rename_i w16
        extract_lets +onlyGivenNames x17
        have h18 : Good og (x17) := by subst x17; exact State.homeFrames_good (State.convertGroups_good ‹_›)
        try clear_value x17
        extract_lets +onlyGivenNames x19
        have h20 : Good og (x19) := by subst x19; exact State.mapPage_good (State.grantFrames_good ‹_›)
        try clear_value x19
        exact goodOpt_some (State.modPlace_good ‹_›)
    · rename_i w21 w22
      exact goodOpt_none

theorem State.mapPart_good {og : Origin} {a1 : State} {a2 : Nat} {a3 : Nat} {a4 : Part} (h1 : Good og (a1)) :
    Good og (@State.mapPart a1 a2 a3 a4) := by
  unfold State.mapPart
  exact State.mapPages_good ‹_›

theorem State.wholePart_good {og : Origin} {a1 : State} {a2 : Nat} {a3 : Nat} {a4 : Bool} {a5 : PartSpec} {a6 : List Part} {a7 : Nat} {a8 : Nat} {a9 : Nat} (h1 : Good og (a1)) :
    GoodOpt og (@State.wholePart a1 a2 a3 a4 a5 a6 a7 a8 a9) := by
  unfold State.wholePart
  extract_lets +onlyGivenNames x1; try clear_value x1
  extract_lets +onlyGivenNames x2; try clear_value x2
  extract_lets +onlyGivenNames x3; try clear_value x3
  split
  · rename_i w4
    exact goodOpt_none
  · rename_i w5
    extract_lets +onlyGivenNames x6; try clear_value x6
    extract_lets +onlyGivenNames x7
    have h8 : Good og (x7) := by subst x7; exact State.grantFrames_good (State.homeFrames_good (State.convertGroups_good ‹_›))
    try clear_value x7
    refine goodOpt_some ?_
    refine good_ite ?_ ?_
    · exact State.mapPart_good ‹_›
    · assumption

theorem State.writePart_good {og : Origin} {a1 : State} {a2 : Part} {a3 : Nat} {a4 : List Byte} (h1 : Good og (a1)) :
    Good og (@State.writePart a1 a2 a3 a4) := by
  unfold State.writePart
  exact State.writeSpans_good ‹_›

theorem State.openMeta_good {og : Origin} {a1 : State} {a2 : Nat} {a3 : Nat} {a4 : Nat} {a5 : Nat} {a6 : Nat} {a7 : Part} (h1 : Good og (a1)) :
    Good og (@State.openMeta a1 a2 a3 a4 a5 a6 a7) := by
  unfold State.openMeta
  extract_lets +onlyGivenNames x1
  have h2 : Good og (x1) := by
    subst x1
    refine good_ite ?_ ?_
    · exact State.writePart_good ‹_›
    · assumption
  try clear_value x1
  refine good_ite ?_ ?_
  · assumption
  · exact good_mk ‹_› rfl rfl rfl rfl rfl rfl rfl

theorem State.buildParts_good {og : Origin} {a1 : State} {a2 : Nat} {a3 : Nat} {a4 : Nat} {a5 : Nat} {a6 : Nat} {a7 : Nat} {a8 : Bool} {a9 : Nat} {a10 : Nat} {a11 : Nat} {a12 : List PartSpec} {a13 : List Part} (h1 : Good og (a1)) :
    GoodOpt og (@State.buildParts a1 a2 a3 a4 a5 a6 a7 a8 a9 a10 a11 a12 a13) := by
  induction a12 generalizing a1 a13 with
  | nil =>
    rw [State.buildParts]
    exact goodOpt_some ‹_›
  | cons x xs ih =>
    rw [State.buildParts]
    split
    · rename_i w1 w2
      exact goodOpt_none
    · rename_i w3 w4 w5 w6
      have h7 : Good og w4 := by
        refine good_opt w6 ?_
        split
        · rename_i w8
          exact State.packPart_good ‹_›
        · rename_i w9
          exact State.wholePart_good ‹_›
      extract_lets +onlyGivenNames x10
      have h11 : Good og (x10) := by
        subst x10
        refine good_ite ?_ ?_
        · exact State.openMeta_good ‹_›
        · assumption
      try clear_value x10
      exact ih ‹_›

theorem State.unpack_good {og : Origin} {a1 : State} {a2 : Nat} {a3 : Nat} (h1 : Good og (a1)) :
    Good og (@State.unpack a1 a2 a3) := by
  unfold State.unpack
  extract_lets +onlyGivenNames x1; try clear_value x1
  split
  · rename_i w2 w3
    assumption
  · rename_i w4 w5 w6
    refine good_ite ?_ ?_
    · exact State.modPlace_good ‹_›
    · exact State.modPlace_good (State.retire_good (State.revokeFrames_good (State.unmapPages_good ‹_›)))

theorem State.releasePart_good {og : Origin} {a1 : State} {a2 : Nat} {a3 : Part} (h1 : Good og (a1)) :
    Good og (@State.releasePart a1 a2 a3) := by
  unfold State.releasePart
  split
  · rename_i w1 w2 w3
    exact State.unpack_good ‹_›
  · rename_i w4 w5
    exact State.retire_good (State.revokeFrames_good (State.unmapPages_good ‹_›))

theorem State.detachPart_good {og : Origin} {a1 : State} {a2 : Nat} {a3 : Part} (h1 : Good og (a1)) :
    Good og (@State.detachPart a1 a2 a3) := by
  unfold State.detachPart
  exact State.revokeFrames_good (State.unmapPages_good ‹_›)

theorem State.modFrozen_good {og : Origin} {a1 : State} {a2 : Nat} {a3 : Frozen → Frozen} (h1 : Good og (a1)) :
    Good og (@State.modFrozen a1 a2 a3) := by
  unfold State.modFrozen
  exact good_mk ‹_› rfl rfl rfl rfl rfl rfl rfl

theorem State.dropImages_good {og : Origin} {a1 : State} {a2 : Frozen} (h1 : Good og (a1)) :
    Good og (@State.dropImages a1 a2) := by
  unfold State.dropImages
  exact good_mk ‹_› rfl rfl rfl rfl rfl rfl rfl

theorem State.dropSpill_good {og : Origin} {a1 : State} {a2 : Nat} {a3 : Nat} (h1 : Good og (a1)) :
    Good og (@State.dropSpill a1 a2 a3) := by
  unfold State.dropSpill
  exact good_mk ‹_› rfl rfl rfl rfl rfl rfl rfl

theorem State.releaseParts_good {og : Origin} {a1 : State} {a2 : Nat} {a3 : Tensor} (h1 : Good og (a1)) :
    Good og (@State.releaseParts a1 a2 a3) := by
  unfold State.releaseParts
  split
  · rename_i w1 w2
    refine State.dropSpill_good ?_
    refine good_foldl ?_ (fun s3 y4 h5 => ?_)
    · assumption
    · exact State.releasePart_good ‹_›
  · rename_i w6 w7 w8
    extract_lets +onlyGivenNames x9; try clear_value x9
    refine good_ite ?_ ?_
    · refine State.modFrozen_good ?_
      refine good_foldl ?_ (fun s10 y11 h12 => ?_)
      · assumption
      · exact State.detachPart_good ‹_›
    · extract_lets +onlyGivenNames x13
      have h14 : Good og (x13) := by
        subst x13
        refine good_foldl ?_ (fun s15 y16 h17 => ?_)
        · assumption
        · exact State.releasePart_good ‹_›
      try clear_value x13
      extract_lets +onlyGivenNames x18
      subst x18
      exact good_mk (State.dropImages_good ‹_›) rfl rfl rfl rfl rfl rfl rfl

theorem State.removeTensor_good {og : Origin} {a1 : State} {a2 : Nat} {a3 : Tensor} (h1 : Good og (a1)) :
    Good og (@State.removeTensor a1 a2 a3) := by
  unfold State.removeTensor
  extract_lets +onlyGivenNames x1; try clear_value x1
  extract_lets +onlyGivenNames x2
  have h3 : Good og (x2) := by subst x2; exact State.releaseParts_good ‹_›
  try clear_value x2
  extract_lets +onlyGivenNames x4; try clear_value x4
  extract_lets +onlyGivenNames x5
  have h6 : Good og (x5) := by subst x5; exact good_mk ‹_› rfl rfl rfl rfl rfl rfl rfl
  try clear_value x5
  exact State.modTenant_good ‹_›

end Sys2Proof.Machine
end

