-- ==== Sys2Proof/Laws/Keep/Copies.lean ====
section
/-! SUPPORT. What the operations of Machine/Copies.lean keep. -/

namespace Sys2Proof.Machine

theorem State.writeCopy_good {og : Origin} {a1 : State} {a2 : Nat} {a3 : Nat} {a4 : Word} {a5 : Word} {a6 : Nat → RMode} {a7 : Part} {a8 : Part} {a9 : List (List Nat)} (h1 : Good og (a1)) :
    Good og (@State.writeCopy a1 a2 a3 a4 a5 a6 a7 a8 a9) := by
  unfold State.writeCopy
  extract_lets +onlyGivenNames x1; try clear_value x1
  extract_lets +onlyGivenNames x2; try clear_value x2
  extract_lets +onlyGivenNames x3; try clear_value x3
  extract_lets +onlyGivenNames x4; try clear_value x4
  extract_lets +onlyGivenNames x5; try clear_value x5
  extract_lets +onlyGivenNames x6; try clear_value x6
  extract_lets +onlyGivenNames x7
  have h8 : Good og (x7) := by subst x7; exact good_mk ‹_› rfl rfl rfl rfl rfl rfl rfl
  try clear_value x7
  extract_lets +onlyGivenNames x9
  have h10 : Good og (x9) := by subst x9; exact State.writePart_good ‹_›
  try clear_value x9
  extract_lets +onlyGivenNames x11
  have h12 : Good og (x11) := by subst x11; exact State.writePart_good ‹_›
  try clear_value x11
  extract_lets +onlyGivenNames x13
  have h14 : Good og (x13) := by
    subst x13
    refine good_ite ?_ ?_
    · assumption
    · exact State.writePart_good ‹_›
  try clear_value x13
  extract_lets +onlyGivenNames x15; try clear_value x15
  extract_lets +onlyGivenNames x16
  have h17 : Good og (x16) := by subst x16; exact State.writePart_good ‹_›
  try clear_value x16
  extract_lets +onlyGivenNames x18; try clear_value x18
  exact State.countBlocks_good ‹_›

theorem State.writeCopies_good {og : Origin} {a1 : State} {a2 : Nat} {a3 : Nat} {a4 : Word} {a5 : Word} {a6 : Option Nat} {a7 : Nat} {a8 : List Part} {a9 : Nat} {a10 : List (List Nat)} (h1 : Good og (a1)) :
    Good og (@State.writeCopies a1 a2 a3 a4 a5 a6 a7 a8 a9 a10) := by
  unfold State.writeCopies
  extract_lets +onlyGivenNames x1; try clear_value x1
  extract_lets +onlyGivenNames x2
  have h3 : Good og (x2) := by
    subst x2
    split
    · rename_i w4 w5 w6 w7 w8 w9
      exact State.writeCopy_good ‹_›
    · rename_i w10 w11 w12
      assumption
  try clear_value x2
  split
  · rename_i w13 w14 w15 w16 w17 w18
    exact State.writeCopy_good ‹_›
  · rename_i w19 w20 w21
    assumption

end Sys2Proof.Machine
end

