-- ==== Sys2Proof/Laws/Keep/Place.lean ====
section
/-! SUPPORT. What the operations of Machine/Place.lean keep. -/

namespace Sys2Proof.Machine

theorem State.fwRead_good {og : Origin} {a1 : State} {a2 : Nat} {a3 : Nat} {a4 : Nat} (h1 : Good og (a1)) :
    Good og (@State.fwRead a1 a2 a3 a4).1 := by
  unfold State.fwRead
  exact State.fetchSpan_good ‹_›

theorem State.fwWrite_good {og : Origin} {a1 : State} {a2 : Nat} {a3 : Nat} {a4 : List Byte} (h1 : Good og (a1)) :
    Good og (@State.fwWrite a1 a2 a3 a4).1 := by
  unfold State.fwWrite
  exact State.storeSpan_good ‹_›

theorem State.withRecord_good {og : Origin} {a1 : State} {a2 : Nat} {a3 : Nat} {a4 : Entry} {a5 : Nat} {a6 : Nat} {a7 : State → List Byte → State} (h1 : Good og (a1)) (h7 : ∀ b1 b2, Good og (b1) → Good og (a7 b1 b2)) :
    Good og (@State.withRecord a1 a2 a3 a4 a5 a6 a7) := by
  unfold State.withRecord
  refine good_ite ?_ ?_
  · exact State.finish_good ‹_›
  · split
    · rename_i w1 w2 w3 w4 w5 w6
      have h7 : Good og w2 := good_fst w6 (State.fwRead_good ‹_›)
      exact State.finishMem_good ‹_›
    · rename_i w8 w9 w10 w11
      have h12 : Good og w9 := good_fst w11 (State.fwRead_good ‹_›)
      exact h7 _ _ ‹_›

theorem State.modParts_good {og : Origin} {a1 : State} {a2 : Nat} {a3 : Tensor} {a4 : Part → Part} (h1 : Good og (a1)) :
    Good og (@State.modParts a1 a2 a3 a4) := by
  unfold State.modParts
  extract_lets +onlyGivenNames x1
  have h2 : Good og (x1) := by
    subst x1
    refine good_foldl ?_ (fun s3 y4 h5 => ?_)
    · assumption
    · exact State.modTensor_good ‹_›
  try clear_value x1
  split
  · rename_i w6 w7 w8
    exact State.modFrozen_good ‹_›
  · rename_i w9 w10
    assumption

theorem State.modPart_good {og : Origin} {a1 : State} {a2 : Nat} {a3 : Tensor} {a4 : Part} {a5 : Part → Part} (h1 : Good og (a1)) :
    Good og (@State.modPart a1 a2 a3 a4 a5) := by
  unfold State.modPart
  exact State.modParts_good ‹_›

theorem State.unmapPart_good {og : Origin} {a1 : State} {a2 : Nat} {a3 : Tensor} {a4 : Part} (h1 : Good og (a1)) :
    Good og (@State.unmapPart a1 a2 a3 a4) := by
  unfold State.unmapPart
  refine good_foldl ?_ (fun s1 y2 h3 => ?_)
  · assumption
  · split
    · rename_i w4 w5 w6
      exact State.detachPart_good ‹_›
    · rename_i w7 w8
      assumption

theorem State.remapPart_good {og : Origin} {a1 : State} {a2 : Nat} {a3 : Tensor} {a4 : Part} (h1 : Good og (a1)) :
    Good og (@State.remapPart a1 a2 a3 a4) := by
  unfold State.remapPart
  refine good_foldl ?_ (fun s1 y2 h3 => ?_)
  · assumption
  · split
    · rename_i w4 w5 w6
      exact State.mapPart_good (State.grantFrames_good ‹_›)
    · rename_i w7 w8
      assumption

theorem State.moveDigest_good {og : Origin} {a1 : State} {a2 : Nat} {a3 : Nat} (h1 : Good og (a1)) :
    Good og (@State.moveDigest a1 a2 a3) := by
  unfold State.moveDigest
  split
  · rename_i w1 w2 w3
    exact good_mk ‹_› rfl rfl rfl rfl rfl rfl rfl
  · rename_i w4 w5
    assumption

theorem State.spillPart_good {og : Origin} {a1 : State} {a2 : Nat} {a3 : Tensor} {a4 : Part} (h1 : Good og (a1)) :
    Good og (@State.spillPart a1 a2 a3 a4) := by
  unfold State.spillPart
  extract_lets +onlyGivenNames x1
  have h2 : Good og (x1) := by
    subst x1
    refine good_foldl ?_ (fun s3 y4 h5 => ?_)
    · assumption
    · extract_lets +onlyGivenNames x6
      try clear_value x6
      exact good_mk ‹_› rfl rfl rfl rfl rfl rfl rfl
  try clear_value x1
  extract_lets +onlyGivenNames x7
  have h8 : Good og (x7) := by
    subst x7
    refine good_ite ?_ ?_
    · assumption
    · exact State.setBucket_good (State.tlcWrite_good ‹_›)
  try clear_value x7
  extract_lets +onlyGivenNames x9
  have h10 : Good og (x9) := by
    subst x9
    refine good_foldl ?_ (fun s11 y12 h13 => ?_)
    · assumption
    · exact State.flushRange_good ‹_›
  try clear_value x9
  extract_lets +onlyGivenNames x14
  have h15 : Good og (x14) := by subst x14; exact State.retire_good (State.unmapPart_good ‹_›)
  try clear_value x14
  extract_lets +onlyGivenNames x16
  have h17 : Good og (x16) := by
    subst x16
    split
    · rename_i w18 w19 w20
      refine good_foldl ?_ (fun s21 y22 h23 => ?_)
      · assumption
      · exact State.moveDigest_good ‹_›
    · rename_i w24 w25
      assumption
  try clear_value x16
  exact State.modPart_good ‹_›

theorem State.spillTurns_good {og : Origin} {a1 : State} {a2 : Bool} {a3 : Nat} {a4 : Nat} {a5 : Nat} (h1 : Good og (a1)) :
    Good og (@State.spillTurns a1 a2 a3 a4 a5) := by
  induction a5 generalizing a1 with
  | zero =>
    rw [State.spillTurns]
    assumption
  | succ n ih =>
    rw [State.spillTurns]
    refine good_ite ?_ ?_
    · assumption
    · split
      · rename_i w1 w2 w3 w4 w5 w6
        exact ih (State.passAll_good (State.spillPart_good ‹_›))
      · rename_i w7 w8
        assumption

theorem State.spillFor_good {og : Origin} {a1 : State} {a2 : Bool} {a3 : Nat} {a4 : Nat} (h1 : Good og (a1)) :
    Good og (@State.spillFor a1 a2 a3 a4) := by
  induction a4 generalizing a1 with
  | zero =>
    rw [State.spillFor]
    refine good_ite ?_ ?_
    · assumption
    · extract_lets +onlyGivenNames x1
      have h2 : Good og (x1) := by subst x1; exact State.passAll_good ‹_›
      try clear_value x1
      exact State.spillTurns_good ‹_›
  | succ n ih =>
    rw [State.spillFor]
    refine good_ite ?_ ?_
    · assumption
    · extract_lets +onlyGivenNames x3
      have h4 : Good og (x3) := by subst x3; exact State.passAll_good ‹_›
      try clear_value x3
      exact State.spillTurns_good ‹_›

theorem State.poisonFrame_good {og : Origin} {a1 : State} {a2 : Nat} {a3 : List Byte} (h1 : Good og (a1)) :
    Good og (@State.poisonFrame a1 a2 a3) := by
  unfold State.poisonFrame
  refine good_foldl ?_ (fun s1 y2 h3 => ?_)
  · assumption
  · exact State.hbmWrite_good ‹_›

theorem State.fetchFrame_good {og : Origin} {a1 : State} {a2 : Nat} {a3 : Tensor} {a4 : Part} {a5 : Nat} {a6 : Nat} {a7 : Bool} (h1 : Good og (a1)) :
    Good og (@State.fetchFrame a1 a2 a3 a4 a5 a6 a7) := by
  unfold State.fetchFrame
  split
  · rename_i w1 w2 w3 w4
    extract_lets +onlyGivenNames x5
    have h6 : Good og (x5) := by
      subst x5
      split
      · rename_i w7 w8 w9
        exact State.moveDigest_good ‹_›
      · rename_i w10 w11
        assumption
    try clear_value x5
    refine good_ite ?_ ?_
    · exact State.write_good ‹_›
    · exact State.tell_good (State.poisonFrame_good ‹_›)

theorem State.fetchPart_good {og : Origin} {a1 : State} {a2 : Nat} {a3 : Tensor} {a4 : Part} {a5 : List (Nat × Nat × Nat)} (h1 : Good og (a1)) :
    GoodOptS og (@State.fetchPart a1 a2 a3 a4 a5) := by
  unfold State.fetchPart
  extract_lets +onlyGivenNames x1; try clear_value x1
  extract_lets +onlyGivenNames x2
  have h3 : Good og (x2) := by subst x2; exact State.spillFor_good ‹_›
  try clear_value x2
  extract_lets +onlyGivenNames x4; try clear_value x4
  split
  · rename_i w5
    exact goodOptS_none
  · rename_i w6
    extract_lets +onlyGivenNames x7
    have h8 : Good og (x7) := by subst x7; exact State.homeFrames_good (State.convertGroups_good ‹_›)
    try clear_value x7
    extract_lets +onlyGivenNames x9
    have h10 : Good og (x9) := by
      subst x9
      refine good_foldl ?_ (fun s11 y12 h13 => ?_)
      · assumption
      · exact State.fetchFrame_good ‹_›
    try clear_value x9
    extract_lets +onlyGivenNames x14
    have h15 : Good og (x14) := by subst x14; exact State.remapPart_good (State.modPart_good ‹_›)
    try clear_value x14
    exact goodOptS_some (good_mk ‹_› rfl rfl rfl rfl rfl rfl rfl)

theorem State.fetchTensor_good {og : Origin} {a1 : State} {a2 : Nat} {a3 : Tensor} {a4 : List (Nat × Nat × Nat)} (h1 : Good og (a1)) :
    Good og (@State.fetchTensor a1 a2 a3 a4) := by
  unfold State.fetchTensor
  refine good_foldl ?_ (fun s1 y2 h3 => ?_)
  · assumption
  · refine good_getD ?_ ?_
    · exact State.fetchPart_good ‹_›
    · assumption

theorem State.loadRec_good {og : Origin} {a1 : State} {a2 : Nat} {a3 : Nat} {a4 : Word} {a5 : Word} (h1 : Good og (a1)) :
    Good og (@State.loadRec a1 a2 a3 a4 a5) := by
  unfold State.loadRec
  extract_lets +onlyGivenNames x1; try clear_value x1
  exact State.rebuilt_good (State.modRec_good ‹_›)

theorem State.enterTensor_good {og : Origin} {a1 : State} {a2 : Nat} {a3 : Tensor} {a4 : Nat} (h1 : Good og (a1)) :
    Good og (@State.enterTensor a1 a2 a3 a4) := by
  unfold State.enterTensor
  extract_lets +onlyGivenNames x1
  have h2 : Good og (x1) := by subst x1; exact State.modPlace_good ‹_›
  try clear_value x1
  extract_lets +onlyGivenNames x3
  have h4 : Good og (x3) := by
    subst x3
    refine good_ite ?_ ?_
    · exact State.fellBack_good (State.setRec_good ‹_›)
    · assumption
  try clear_value x3
  refine good_ite ?_ ?_
  · exact State.modRec_good ‹_›
  · assumption

theorem State.buildTensor_good {og : Origin} {a1 : State} {a2 : Nat} {a3 : Tensor} (h1 : Good og (a1)) :
    GoodExc og (@State.buildTensor a1 a2 a3) := by
  unfold State.buildTensor
  extract_lets +onlyGivenNames x1; try clear_value x1
  extract_lets +onlyGivenNames x2; try clear_value x2
  extract_lets +onlyGivenNames x3; try clear_value x3
  extract_lets +onlyGivenNames x4; try clear_value x4
  extract_lets +onlyGivenNames x5; try clear_value x5
  extract_lets +onlyGivenNames x6; try clear_value x6
  split
  · rename_i w7
    exact goodExc_error
  · rename_i w8
    extract_lets +onlyGivenNames x9
    have h10 : Good og (x9) := by subst x9; exact State.spillFor_good ‹_›
    try clear_value x9
    split
    · rename_i w11 w12
      exact goodExc_error
    · rename_i w13 w14 w15 w16
      have h17 : Good og w14 := good_opt w16 (State.buildParts_good ‹_›)
      exact goodExc_ok ‹_›

theorem State.attachTensor_good {og : Origin} {a1 : State} {a2 : Nat} {a3 : Tensor} {a4 : Frozen} (h1 : Good og (a1)) :
    GoodExc og (@State.attachTensor a1 a2 a3 a4) := by
  unfold State.attachTensor
  split
  · rename_i w1
    exact goodExc_error
  · rename_i w2
    extract_lets +onlyGivenNames x3; try clear_value x3
    split
    · rename_i w4
      exact goodExc_error
    · rename_i w5
      extract_lets +onlyGivenNames x6; try clear_value x6
      split
      · rename_i w7
        exact goodExc_error
      · rename_i w8
        extract_lets +onlyGivenNames x9
        have h10 : Good og (x9) := by
          subst x9
          refine good_foldl ?_ (fun s11 y12 h13 => ?_)
          · assumption
          · exact State.mapPart_good (State.grantFrames_good ‹_›)
        try clear_value x9
        extract_lets +onlyGivenNames x14; try clear_value x14
        extract_lets +onlyGivenNames x15
        have h16 : Good og (x15) := by subst x15; exact good_mk ‹_› rfl rfl rfl rfl rfl rfl rfl
        try clear_value x15
        extract_lets +onlyGivenNames x17
        have h18 : Good og (x17) := by subst x17; exact State.modFrozen_good ‹_›
        try clear_value x17
        exact goodExc_ok ‹_›

theorem State.allocate_good {og : Origin} {a1 : State} {a2 : Nat} {a3 : List Byte} (h1 : Good og (a1)) :
    GoodExc og (@State.allocate a1 a2 a3) := by
  unfold State.allocate
  extract_lets +onlyGivenNames x1; try clear_value x1
  split
  · rename_i w2
    exact goodExc_error
  · rename_i w3
    split
    · rename_i w4 w5 w6 w7
      exact goodExc_error
    · rename_i w8 w9 w10 w11
      exact goodExc_error
    · rename_i w12 w13 w14 w15 w16 w17 w18
      extract_lets +onlyGivenNames x19; try clear_value x19
      extract_lets +onlyGivenNames x20; try clear_value x20
      split
      · rename_i w21
        exact goodExc_error
      · rename_i w22
        extract_lets +onlyGivenNames x23; try clear_value x23
        split
        · rename_i w24
          exact goodExc_error
        · rename_i w25
          extract_lets +onlyGivenNames x26
          have h27 : GoodExc og (x26) := by
            subst x26
            split
            · rename_i w28 w29 w30 w31
              exact State.attachTensor_good ‹_›
            · rename_i w32 w33 w34 w35
              exact State.buildTensor_good ‹_›
          try clear_value x26
          split
          · rename_i w36 w37
            exact goodExc_error
          · rename_i w38 w39 w40
            extract_lets +onlyGivenNames x41
            have h42 : Good og (x41) := by subst x41; exact State.enterTensor_good (goodExc_inv (by assumption))
            try clear_value x41
            split
            · rename_i w43
              split
              · rename_i w44 w45
                exact goodExc_ok (State.loadRec_good ‹_›)
              · rename_i w46
                exact goodExc_ok ‹_›
            · rename_i w47
              split
              · rename_i w48
                extract_lets +onlyGivenNames x49; try clear_value x49
                exact goodExc_ok (good_mk ‹_› rfl rfl rfl rfl rfl rfl rfl)
              · rename_i w50
                exact goodExc_ok ‹_›

theorem State.alloc_good {og : Origin} {a1 : State} {a2 : Nat} {a3 : Nat} {a4 : Entry} (h1 : Good og (a1)) :
    Good og (@State.alloc a1 a2 a3 a4) := by
  unfold State.alloc
  refine State.withRecord_good ?_ ?_
  · assumption
  · intro v1 v2 v3
    split
    · rename_i w4 w5 w6
      exact State.finish_good ‹_›
    · rename_i w7 w8 w9 w10
      have h11 : Good og w8 := good_exc w10 (State.allocate_good ‹_›)
      exact State.finish_good ‹_›

theorem execAlloc_good {og : Origin} {a1 : TenantId} {a2 : RingId} {a3 : State} (h3 : Good og (a3)) :
    GoodOut og (@execAlloc a1 a2 a3) := by
  unfold execAlloc
  refine goodOut_next ?_
  refine State.runCommand_good ?_ ?_
  · assumption
  · intro v1 v2 v3
    exact State.alloc_good ‹_›

theorem State.freeTensor_good {og : Origin} {a1 : State} {a2 : Nat} {a3 : Nat} {a4 : Entry} (h1 : Good og (a1)) :
    Good og (@State.freeTensor a1 a2 a3 a4) := by
  unfold State.freeTensor
  extract_lets +onlyGivenNames x1; try clear_value x1
  split
  · rename_i w2 w3
    exact State.finish_good ‹_›
  · rename_i w4 w5 w6
    refine good_ite ?_ ?_
    · exact State.finish_good ‹_›
    · exact State.finish_good (State.modTensor_good ‹_›)

theorem execFree_good {og : Origin} {a1 : TenantId} {a2 : RingId} {a3 : State} (h3 : Good og (a3)) :
    GoodOut og (@execFree a1 a2 a3) := by
  unfold execFree
  refine goodOut_next ?_
  refine State.runCommand_good ?_ ?_
  · assumption
  · intro v1 v2 v3
    exact State.freeTensor_good ‹_›

theorem State.query_good {og : Origin} {a1 : State} {a2 : Nat} {a3 : Nat} {a4 : Entry} (h1 : Good og (a1)) :
    Good og (@State.query a1 a2 a3 a4) := by
  unfold State.query
  extract_lets +onlyGivenNames x1; try clear_value x1
  extract_lets +onlyGivenNames x2; try clear_value x2
  extract_lets +onlyGivenNames x3; try clear_value x3
  refine good_ite ?_ ?_
  · exact State.finish_good ‹_›
  · refine good_ite ?_ ?_
    · exact State.finish_good ‹_›
    · extract_lets +onlyGivenNames x4
      try clear_value x4
      extract_lets +onlyGivenNames x5; try clear_value x5
      extract_lets +onlyGivenNames x6; try clear_value x6
      extract_lets +onlyGivenNames x7; try clear_value x7
      split
      · rename_i w8 w9 w10 w11 w12 w13
        have h14 : Good og w9 := good_fst w13 (State.fwWrite_good ‹_›)
        exact State.finishMem_good ‹_›
      · rename_i w15 w16 w17 w18
        have h19 : Good og w16 := good_fst w18 (State.fwWrite_good ‹_›)
        exact State.finish_good ‹_›

theorem execQuery_good {og : Origin} {a1 : TenantId} {a2 : RingId} {a3 : State} (h3 : Good og (a3)) :
    GoodOut og (@execQuery a1 a2 a3) := by
  unfold execQuery
  refine goodOut_next ?_
  refine State.runCommand_good ?_ ?_
  · assumption
  · intro v1 v2 v3
    exact State.query_good ‹_›

theorem State.constrain_good {og : Origin} {a1 : State} {a2 : Nat} {a3 : Nat} {a4 : Entry} (h1 : Good og (a1)) :
    Good og (@State.constrain a1 a2 a3 a4) := by
  unfold State.constrain
  extract_lets +onlyGivenNames x1; try clear_value x1
  extract_lets +onlyGivenNames x2; try clear_value x2
  extract_lets +onlyGivenNames x3; try clear_value x3
  extract_lets +onlyGivenNames x4; try clear_value x4
  extract_lets +onlyGivenNames x5; try clear_value x5
  split
  · rename_i w6 w7
    exact State.finish_good ‹_›
  · rename_i w8 w9 w10
    refine good_ite ?_ ?_
    · exact State.finish_good ‹_›
    · refine good_ite ?_ ?_
      · exact State.finish_good ‹_›
      · exact State.finish_good (State.modPlace_good (State.modTensor_good ‹_›))

theorem execConstrain_good {og : Origin} {a1 : TenantId} {a2 : RingId} {a3 : State} (h3 : Good og (a3)) :
    GoodOut og (@execConstrain a1 a2 a3) := by
  unfold execConstrain
  refine goodOut_next ?_
  refine State.runCommand_good ?_ ?_
  · assumption
  · intro v1 v2 v3
    exact State.constrain_good ‹_›

theorem State.frozenLoad_good {og : Origin} {a1 : State} {a2 : Nat} {a3 : Nat} {a4 : Entry} (h1 : Good og (a1)) :
    Good og (@State.frozenLoad a1 a2 a3 a4) := by
  unfold State.frozenLoad
  split
  · rename_i w1 w2
    exact State.finish_good ‹_›
  · rename_i w3 w4 w5
    refine good_ite ?_ ?_
    · exact State.finish_good ‹_›
    · split
      · rename_i w6 w7
        exact State.finish_good ‹_›
      · rename_i w8 w9 w10
        refine good_ite ?_ ?_
        · exact State.finish_good ‹_›
        · exact State.modFrozen_good ‹_›

theorem execFrozenLoad_good {og : Origin} {a1 : TenantId} {a2 : RingId} {a3 : State} (h3 : Good og (a3)) :
    GoodOut og (@execFrozenLoad a1 a2 a3) := by
  unfold execFrozenLoad
  refine goodOut_next ?_
  refine State.runCommand_good ?_ ?_
  · assumption
  · intro v1 v2 v3
    exact State.frozenLoad_good ‹_›

theorem State.recordImages_good {og : Origin} {a1 : State} {a2 : Frozen} {a3 : Nat} (h1 : Good og (a1)) :
    Good og (@State.recordImages a1 a2 a3) := by
  unfold State.recordImages
  extract_lets +onlyGivenNames x1
  have h2 : Good og (x1) := by
    subst x1
    refine good_foldl ?_ (fun s3 y4 h5 => ?_)
    · assumption
    · refine good_foldl ?_ (fun s6 y7 h8 => ?_)
      · assumption
      · extract_lets +onlyGivenNames x9
        try clear_value x9
        exact good_mk ‹_› rfl rfl rfl rfl rfl rfl rfl
  try clear_value x1
  extract_lets +onlyGivenNames x10; try clear_value x10
  exact State.setBucket_good (State.tlcWrite_good ‹_›)

theorem State.loadFrozen_good {og : Origin} {a1 : State} {a2 : Nat} {a3 : Nat} {a4 : Frozen} {a5 : List Nat} (h1 : Good og (a1)) :
    Good og (@State.loadFrozen a1 a2 a3 a4 a5) := by
  unfold State.loadFrozen
  extract_lets +onlyGivenNames x1; try clear_value x1
  extract_lets +onlyGivenNames x2; try clear_value x2
  extract_lets +onlyGivenNames x3
  have h4 : Good og (x3) := by subst x3; exact State.writeCopies_good ‹_›
  try clear_value x3
  extract_lets +onlyGivenNames x5
  have h6 : Good og (x5) := by subst x5; exact State.recordImages_good ‹_›
  try clear_value x5
  extract_lets +onlyGivenNames x7
  have h8 : Good og (x7) := by subst x7; exact State.modFrozen_good ‹_›
  try clear_value x7
  refine good_foldl ?_ (fun s9 y10 h11 => ?_)
  · assumption
  · exact State.loadRec_good ‹_›

theorem State.loadFrames_good {og : Origin} {a1 : State} {a2 : Nat} {a3 : Tensor} (h1 : Good og (a1)) :
    GoodOptS og (@State.loadFrames a1 a2 a3) := by
  unfold State.loadFrames
  refine goodOptS_foldl ?_ ?_
  · exact goodOptS_some ‹_›
  · intro v1 v2 v3
    refine goodOptS_bind ?_ ?_
    · assumption
    · intro v4 v5
      extract_lets +onlyGivenNames x6; try clear_value x6
      extract_lets +onlyGivenNames x7
      have h8 : Good og (x7) := by subst x7; exact State.spillFor_good ‹_›
      try clear_value x7
      extract_lets +onlyGivenNames x9; try clear_value x9
      split
      · rename_i w10
        exact goodOptS_none
      · rename_i w11
        extract_lets +onlyGivenNames x12
        have h13 : Good og (x12) := by subst x12; exact State.homeFrames_good (State.convertGroups_good ‹_›)
        try clear_value x12
        exact goodOptS_some (State.remapPart_good (State.modPart_good ‹_›))

theorem State.loadFailed_good {og : Origin} {a1 : State} {a2 : Frozen} (h1 : Good og (a1)) :
    Good og (@State.loadFailed a1 a2) := by
  unfold State.loadFailed
  exact State.modFrozen_good ‹_›

theorem State.frozenLoadEnd_good {og : Origin} {a1 : State} {a2 : Nat} {a3 : Nat} {a4 : Nat} {a5 : List Byte} {a6 : Nat} (h1 : Good og (a1)) :
    Good og (@State.frozenLoadEnd a1 a2 a3 a4 a5 a6) := by
  unfold State.frozenLoadEnd
  split
  · rename_i w1 w2
    assumption
  · rename_i w3 w4 w5
    split
    · rename_i w6 w7
      assumption
    · rename_i w8 w9 w10
      refine good_ite ?_ ?_
      · assumption
      · split
        · rename_i w11 w12
          exact State.finish_good (State.loadFailed_good ‹_›)
        · rename_i w13 w14 w15
          have h16 : Good og w14 := by
            refine good_optS w15 ?_
            refine goodOptS_elim ?_ ?_
            · exact goodOptS_some ‹_›
            · intro v17
              exact State.loadFrames_good ‹_›
          extract_lets +onlyGivenNames x18; try clear_value x18
          extract_lets +onlyGivenNames x19; try clear_value x19
          extract_lets +onlyGivenNames x20; try clear_value x20
          extract_lets +onlyGivenNames x21; try clear_value x21
          refine good_ite ?_ ?_
          · refine good_ite ?_ ?_
            · exact State.afterCode_good (State.finish_good (State.loadFailed_good ‹_›))
            · exact State.finish_good (State.loadFrozen_good ‹_›)
          · split
            · rename_i w22 w23 w24 w25 w26 w27
              have h28 : Good og w23 := good_fst w27 (State.fetchSpan_good ‹_›)
              exact State.finishMem_good (State.loadFailed_good ‹_›)
            · rename_i w29 w30 w31 w32
              have h33 : Good og w30 := good_fst w32 (State.fetchSpan_good ‹_›)
              exact State.finish_good (State.loadFrozen_good ‹_›)

theorem execFrozenLoadEnd_good {og : Origin} {a1 : TenantId} {a2 : RingId} {a3 : Half} {a4 : List Byte} {a5 : Half} {a6 : State} (h6 : Good og (a6)) :
    GoodOut og (@execFrozenLoadEnd a1 a2 a3 a4 a5 a6) := by
  unfold execFrozenLoadEnd
  exact goodOut_next (State.frozenLoadEnd_good ‹_›)

end Sys2Proof.Machine
end

