-- ==== Sys2Proof/Laws/Keep/Steps.lean ====
section
/-! SUPPORT. What the operations of Machine/Steps.lean keep. -/

namespace Sys2Proof.Machine

theorem State.claim_good {og : Origin} {a1 : State} {a2 : Nat} {a3 : Nat} {a4 : Nat} (h1 : Good og (a1)) :
    Good og (@State.claim a1 a2 a3 a4).1 := by
  unfold State.claim
  extract_lets +onlyGivenNames x1; try clear_value x1
  exact good_pair (State.modStep_good ‹_›)

theorem State.writeRecord_good {og : Origin} {a1 : State} {a2 : Nat} {a3 : Nat} {a4 : CommitRec} (h1 : Good og (a1)) :
    Good og (@State.writeRecord a1 a2 a3 a4) := by
  unfold State.writeRecord
  extract_lets +onlyGivenNames x1
  have h2 : Good og (x1) := by subst x1; exact State.modStep_good ‹_›
  try clear_value x1
  exact State.putArea_good ‹_›

theorem State.writeStepWord_good {og : Origin} {a1 : State} {a2 : Nat} {a3 : Nat} {a4 : Nat} {a5 : Nat} (h1 : Good og (a1)) :
    Good og (@State.writeStepWord a1 a2 a3 a4 a5) := by
  unfold State.writeStepWord
  exact State.putArea_good (State.modStep_good ‹_›)

theorem State.commitRecord_good {og : Origin} {a1 : State} {a2 : Nat} (h1 : Good og (a1)) :
    Good og (@State.commitRecord a1 a2) := by
  unfold State.commitRecord
  extract_lets +onlyGivenNames x1; try clear_value x1
  extract_lets +onlyGivenNames x2; try clear_value x2
  exact State.journalOffer_good ‹_›

theorem State.skipRecord_good {og : Origin} {a1 : State} {a2 : Nat} (h1 : Good og (a1)) :
    Good og (@State.skipRecord a1 a2) := by
  unfold State.skipRecord
  extract_lets +onlyGivenNames x1; try clear_value x1
  extract_lets +onlyGivenNames x2; try clear_value x2
  extract_lets +onlyGivenNames x3; try clear_value x3
  extract_lets +onlyGivenNames x4
  have h5 : Good og (x4) := by subst x4; exact State.writeRecord_good ‹_›
  try clear_value x4
  extract_lets +onlyGivenNames x6
  have h7 : Good og (x6) := by subst x6; exact State.writeStepWord_good ‹_›
  try clear_value x6
  exact State.tell_good (State.commitRecord_good ‹_›)

theorem State.refuse_good {og : Origin} {a1 : State} {a2 : Nat} (h1 : Good og (a1)) :
    Good og (@State.refuse a1 a2) := by
  unfold State.refuse
  extract_lets +onlyGivenNames x1; try clear_value x1
  extract_lets +onlyGivenNames x2
  have h3 : Good og (x2) := by subst x2; exact State.settleReports_good ‹_›
  try clear_value x2
  extract_lets +onlyGivenNames x4; try clear_value x4
  extract_lets +onlyGivenNames x5
  have h6 : Good og (x5) := by subst x5; exact State.setEvent_good (State.poisonEnd_good (State.rewind_good ‹_›))
  try clear_value x5
  extract_lets +onlyGivenNames x7
  have h8 : Good og (x7) := by
    subst x7
    refine good_ite ?_ ?_
    · exact State.skipRecord_good ‹_›
    · assumption
  try clear_value x7
  extract_lets +onlyGivenNames x9
  have h10 : Good og (x9) := by subst x9; exact State.endStep_good ‹_›
  try clear_value x9
  split
  · rename_i w11 w12 w13
    exact State.endCmd_good (State.event_good ‹_›)
  · rename_i w14 w15
    assumption

theorem State.cancelStep_good {og : Origin} {a1 : State} {a2 : Nat} {a3 : Nat} {a4 : Entry} {a5 : List Byte} (h1 : Good og (a1)) :
    Good og (@State.cancelStep a1 a2 a3 a4 a5) := by
  unfold State.cancelStep
  extract_lets +onlyGivenNames x1; try clear_value x1
  split
  · rename_i w2 w3
    exact State.finish_good ‹_›
  · rename_i w4 w5
    refine good_ite ?_ ?_
    · exact State.finish_good ‹_›
    · refine good_ite ?_ ?_
      · exact State.modStep_good ‹_›
      · extract_lets +onlyGivenNames x6
        have h7 : Good og (x6) := by subst x6; exact State.settleReports_good ‹_›
        try clear_value x6
        extract_lets +onlyGivenNames x8
        have h9 : Good og (x8) := by
          subst x8
          refine good_ite ?_ ?_
          · exact State.mapRecs_good ‹_›
          · assumption
        try clear_value x8
        extract_lets +onlyGivenNames x10
        have h11 : Good og (x10) := by subst x10; exact State.endStep_good (State.rewind_good ‹_›)
        try clear_value x10
        extract_lets +onlyGivenNames x12
        have h13 : Good og (x12) := by
          subst x12
          split
          · rename_i w14 w15 w16
            exact State.endCmd_good ‹_›
          · rename_i w17 w18
            assumption
        try clear_value x12
        exact State.finish_good ‹_›

theorem State.withScb_good {og : Origin} {a1 : State} {a2 : Nat} {a3 : Nat} {a4 : Entry} {a5 : State → List Byte → State} (h1 : Good og (a1)) (h5 : ∀ b1 b2, Good og (b1) → Good og (a5 b1 b2)) :
    Good og (@State.withScb a1 a2 a3 a4 a5) := by
  unfold State.withScb
  refine State.withRecord_good ?_ ?_
  · assumption
  · intro v1 v2 v3
    refine good_ite ?_ ?_
    · exact h5 _ _ ‹_›
    · exact State.finish_good ‹_›

theorem execStepCancel_good {og : Origin} {a1 : TenantId} {a2 : RingId} {a3 : State} (h3 : Good og (a3)) :
    GoodOut og (@execStepCancel a1 a2 a3) := by
  unfold execStepCancel
  refine goodOut_next ?_
  refine State.runCommand_good ?_ ?_
  · assumption
  · intro v1 v2 v3
    refine State.withScb_good ?_ ?_
    · assumption
    · intro v4 v5 v6
      exact State.cancelStep_good ‹_›

theorem State.acceptCommit_good {og : Origin} {a1 : State} {a2 : Nat} {a3 : Nat} {a4 : Entry} {a5 : List Byte} (h1 : Good og (a1)) :
    Good og (@State.acceptCommit a1 a2 a3 a4 a5) := by
  unfold State.acceptCommit
  extract_lets +onlyGivenNames x1; try clear_value x1
  refine good_ite ?_ ?_
  · exact State.finish_good ‹_›
  · refine good_ite ?_ ?_
    · exact State.finish_good ‹_›
    · exact State.modStep_good ‹_›

theorem execStepCommit_good {og : Origin} {a1 : TenantId} {a2 : RingId} {a3 : State} (h3 : Good og (a3)) :
    GoodOut og (@execStepCommit a1 a2 a3) := by
  unfold execStepCommit
  refine goodOut_next ?_
  refine State.runCommand_good ?_ ?_
  · assumption
  · intro v1 v2 v3
    refine State.withScb_good ?_ ?_
    · assumption
    · intro v4 v5 v6
      exact State.acceptCommit_good ‹_›

theorem State.listInvalid_good {og : Origin} {a1 : State} {a2 : Nat} (h1 : Good og (a1)) :
    Good og (@State.listInvalid a1 a2) := by
  unfold State.listInvalid
  split
  · rename_i w1 w2
    assumption
  · rename_i w3 w4 w5
    extract_lets +onlyGivenNames x6
    have h7 : Good og (x6) := by subst x6; exact State.setPhase_good (State.modStep_good ‹_›)
    try clear_value x6
    exact State.endCmd_good (State.setEvent_good ‹_›)

theorem State.updateFault_good {og : Origin} {a1 : State} {a2 : Nat} {a3 : Nat} {a4 : Nat} {a5 : Nat} {a6 : Nat} {a7 : Nat} (h1 : Good og (a1)) :
    Good og (@State.updateFault a1 a2 a3 a4 a5 a6 a7) := by
  unfold State.updateFault
  extract_lets +onlyGivenNames x1
  have h2 : Good og (x1) := by subst x1; exact State.memFault_good ‹_›
  try clear_value x1
  refine good_ite ?_ ?_
  · exact State.abortStep_good ‹_›
  · split
    · rename_i w3 w4
      assumption
    · rename_i w5 w6 w7
      extract_lets +onlyGivenNames x8
      have h9 : Good og (x8) := by subst x8; exact State.endStep_good (State.setEvent_good (State.poisonEnd_good (State.rewind_good (State.settleReports_good ‹_›))))
      try clear_value x8
      exact State.endCmd_good (State.markFaults_good ‹_›)

theorem State.seal_good {og : Origin} {a1 : State} {a2 : Nat} {a3 : Bool} (h1 : Good og (a1)) :
    Good og (@State.seal a1 a2 a3) := by
  unfold State.seal
  extract_lets +onlyGivenNames x1; try clear_value x1
  extract_lets +onlyGivenNames x2; try clear_value x2
  extract_lets +onlyGivenNames x3
  have h4 : Good og (x3) := by subst x3; exact State.modStep_good (State.enginesOff_good ‹_›)
  try clear_value x3
  extract_lets +onlyGivenNames x5; try clear_value x5
  exact State.setPhase_good (State.writeRecord_good ‹_›)

theorem State.remapCopies_good {og : Origin} {a1 : State} {a2 : Nat} (h1 : Good og (a1)) :
    Good og (@State.remapCopies a1 a2) := by
  unfold State.remapCopies
  extract_lets +onlyGivenNames x1; try clear_value x1
  extract_lets +onlyGivenNames x2; try clear_value x2
  refine good_foldl ?_ (fun s3 y4 h5 => ?_)
  · assumption
  · refine good_ite ?_ ?_
    · exact State.mapPart_good (State.unmapPages_good ‹_›)
    · assumption

theorem State.addSums_good {og : Origin} {a1 : State} {a2 : Nat} (h1 : Good og (a1)) :
    Good og (@State.addSums a1 a2) := by
  unfold State.addSums
  refine good_foldl ?_ (fun s1 y2 h3 => ?_)
  · assumption
  · split
    · rename_i w4 w5 w6 w7
      exact State.modRec_good ‹_›

theorem State.floorsDue_good {og : Origin} {a1 : State} {a2 : Nat} (h1 : Good og (a1)) :
    Good og (@State.floorsDue a1 a2) := by
  unfold State.floorsDue
  extract_lets +onlyGivenNames x1; try clear_value x1
  extract_lets +onlyGivenNames x2
  have h3 : Good og (x2) := by
    subst x2
    refine good_ite ?_ ?_
    · exact State.dueLayer_good ‹_›
    · assumption
  try clear_value x2
  extract_lets +onlyGivenNames x4
  have h5 : Good og (x4) := by
    subst x4
    refine good_ite ?_ ?_
    · exact State.dueLayer_good ‹_›
    · assumption
  try clear_value x4
  refine good_ite ?_ ?_
  · exact State.dueLayer_good ‹_›
  · assumption

theorem State.postCommit_good {og : Origin} {a1 : State} {a2 : Nat} {a3 : Bool} (h1 : Good og (a1)) :
    Good og (@State.postCommit a1 a2 a3) := by
  unfold State.postCommit
  extract_lets +onlyGivenNames x1; try clear_value x1
  extract_lets +onlyGivenNames x2; try clear_value x2
  extract_lets +onlyGivenNames x3
  have h4 : Good og (x3) := by
    subst x3
    refine good_ite ?_ ?_
    · exact State.remapCopies_good ‹_›
    · assumption
  try clear_value x3
  extract_lets +onlyGivenNames x5
  have h6 : Good og (x5) := by subst x5; exact State.commitScales_good ‹_›
  try clear_value x5
  extract_lets +onlyGivenNames x7; try clear_value x7
  extract_lets +onlyGivenNames x8
  have h9 : Good og (x8) := by subst x8; exact State.setNum_good ‹_›
  try clear_value x8
  extract_lets +onlyGivenNames x10
  have h11 : Good og (x10) := by subst x10; exact State.floorsDue_good (State.commitRecord_good (State.addSums_good ‹_›))
  try clear_value x10
  extract_lets +onlyGivenNames x12
  have h13 : Good og (x12) := by subst x12; exact State.hostWrite_good ‹_›
  try clear_value x12
  extract_lets +onlyGivenNames x14
  have h15 : Good og (x14) := by subst x14; exact State.endStep_good ‹_›
  try clear_value x14
  split
  · rename_i w16 w17 w18
    exact State.endCmd_good ‹_›
  · rename_i w19 w20
    assumption

theorem State.commitPoint_good {og : Origin} {a1 : State} {a2 : Nat} (h1 : Good og (a1)) :
    Good og (@State.commitPoint a1 a2) := by
  unfold State.commitPoint
  extract_lets +onlyGivenNames x1; try clear_value x1
  refine good_ite ?_ ?_
  · assumption
  · refine good_ite ?_ ?_
    · assumption
    · refine good_ite ?_ ?_
      · exact State.refuse_good ‹_›
      · extract_lets +onlyGivenNames x2
        try clear_value x2
        extract_lets +onlyGivenNames x3
        have h4 : Good og (x3) := by subst x3; exact State.setPhase_good (State.writeStepWord_good ‹_›)
        try clear_value x3
        exact State.postCommit_good ‹_›

theorem execCommitPoint_good {og : Origin} {a1 : TenantId} {a2 : State} (h2 : Good og (a2)) :
    GoodOut og (@execCommitPoint a1 a2) := by
  unfold execCommitPoint
  exact goodOut_next (State.commitPoint_good ‹_›)

theorem State.startWork_good {og : Origin} {a1 : State} {a2 : Nat} {a3 : List (List Byte)} (h1 : Good og (a1)) :
    Good og (@State.startWork a1 a2 a3) := by
  unfold State.startWork
  refine good_ite ?_ ?_
  · exact State.seal_good ‹_›
  · exact State.engines_good (State.modStep_good ‹_›)

theorem State.listGood_good {og : Origin} {a1 : State} {a2 : Nat} {a3 : List (List Byte)} (h1 : Good og (a1)) :
    Good og (@State.listGood a1 a2 a3) := by
  unfold State.listGood
  refine good_ite ?_ ?_
  · refine good_ite ?_ ?_
    · assumption
    · exact State.tell_good (State.setEvent_good (State.modStep_good ‹_›))
  · exact State.startWork_good ‹_›

theorem State.readList_good {og : Origin} {a1 : State} {a2 : Nat} (h1 : Good og (a1)) :
    Good og (@State.readList a1 a2) := by
  unfold State.readList
  extract_lets +onlyGivenNames x1; try clear_value x1
  refine good_ite ?_ ?_
  · exact State.listGood_good ‹_›
  · refine good_ite ?_ ?_
    · exact State.listInvalid_good ‹_›
    · split
      · rename_i w2 w3 w4 w5 w6 w7
        have h8 : Good og w3 := good_fst w7 (State.fetchSpan_good ‹_›)
        exact State.updateFault_good ‹_›
      · rename_i w9 w10 w11 w12
        have h13 : Good og w10 := good_fst w12 (State.fetchSpan_good ‹_›)
        extract_lets +onlyGivenNames x14; try clear_value x14
        refine good_ite ?_ ?_
        · exact State.listGood_good ‹_›
        · exact State.listInvalid_good ‹_›

theorem State.updateStart_good {og : Origin} {a1 : State} {a2 : Nat} (h1 : Good og (a1)) :
    Good og (@State.updateStart a1 a2) := by
  unfold State.updateStart
  extract_lets +onlyGivenNames x1; try clear_value x1
  refine good_ite ?_ ?_
  · assumption
  · extract_lets +onlyGivenNames x2
    have h3 : Good og (x2) := by
      subst x2
      refine good_foldl ?_ (fun s4 y5 h6 => ?_)
      · exact State.setPhase_good ‹_›
      · exact State.passMarkers_good ‹_›
    try clear_value x2
    refine good_ite ?_ ?_
    · exact State.refuse_good ‹_›
    · exact State.readList_good ‹_›

theorem execUpdateStart_good {og : Origin} {a1 : TenantId} {a2 : State} (h2 : Good og (a2)) :
    GoodOut og (@execUpdateStart a1 a2) := by
  unfold execUpdateStart
  exact goodOut_next (State.updateStart_good ‹_›)

theorem State.updateResume_good {og : Origin} {a1 : State} {a2 : Nat} (h1 : Good og (a1)) :
    Good og (@State.updateResume a1 a2) := by
  unfold State.updateResume
  extract_lets +onlyGivenNames x1; try clear_value x1
  refine good_ite ?_ ?_
  · assumption
  · extract_lets +onlyGivenNames x2
    have h3 : Good og (x2) := by subst x2; exact State.drawn_good (State.add_good ‹_›)
    try clear_value x2
    refine good_ite ?_ ?_
    · exact State.refuse_good ‹_›
    · exact State.readList_good ‹_›

theorem execUpdateResume_good {og : Origin} {a1 : TenantId} {a2 : State} (h2 : Good og (a2)) :
    GoodOut og (@execUpdateResume a1 a2) := by
  unfold execUpdateResume
  exact goodOut_next (State.updateResume_good ‹_›)

theorem State.putPart_good {og : Origin} {a1 : State} {a2 : List Part} {a3 : Nat} {a4 : Nat} {a5 : Nat} {a6 : List Nat} (h1 : Good og (a1)) :
    Good og (@State.putPart a1 a2 a3 a4 a5 a6) := by
  unfold State.putPart
  split
  · rename_i w1 w2 w3
    exact State.writePart_good ‹_›
  · rename_i w4 w5
    assumption

theorem State.optimise_good {og : Origin} {a1 : State} {a2 : Nat} {a3 : List Byte} {a4 : Tensor} {a5 : Tensor} (h1 : Good og (a1)) :
    Good og (@State.optimise a1 a2 a3 a4 a5).1 := by
  unfold State.optimise
  extract_lets +onlyGivenNames x1; try clear_value x1
  extract_lets +onlyGivenNames x2; try clear_value x2
  extract_lets +onlyGivenNames x3; try clear_value x3
  extract_lets +onlyGivenNames x4; try clear_value x4
  extract_lets +onlyGivenNames x5; try clear_value x5
  extract_lets +onlyGivenNames x6; try clear_value x6
  extract_lets +onlyGivenNames x7; try clear_value x7
  extract_lets +onlyGivenNames x8; try clear_value x8
  extract_lets +onlyGivenNames x9; try clear_value x9
  split
  · rename_i w10 w11 w12
    exact good_pair ‹_›
  · rename_i w13 w14 w15
    extract_lets +onlyGivenNames x16
    have h17 : Good og (x16) := by subst x16; exact State.putPart_good ‹_›
    try clear_value x16
    extract_lets +onlyGivenNames x18
    have h19 : Good og (x18) := by subst x18; exact State.putPart_good ‹_›
    try clear_value x18
    extract_lets +onlyGivenNames x20
    have h21 : Good og (x20) := by subst x20; exact State.putPart_good ‹_›
    try clear_value x20
    extract_lets +onlyGivenNames x22
    have h23 : Good og (x22) := by subst x22; exact State.putPart_good ‹_›
    try clear_value x22
    extract_lets +onlyGivenNames x24
    have h25 : Good og (x24) := by
      subst x24
      refine good_foldl ?_ (fun s26 y27 h28 => ?_)
      · assumption
      · exact State.count_good ‹_›
    try clear_value x24
    exact good_pair ‹_›

theorem State.panelCheck_good {og : Origin} {a1 : State} {a2 : Nat} {a3 : List (Nat × Nat)} {a4 : List (Nat × Nat)} {a5 : List Nat} (h1 : Good og (a1)) :
    Good og (@State.panelCheck a1 a2 a3 a4 a5).1 := by
  induction a5 generalizing a1 with
  | nil =>
    rw [State.panelCheck]
    exact good_pair ‹_›
  | cons x xs ih =>
    rw [State.panelCheck]
    split
    · rename_i w1 w2 w3 w4 w5 w6
      have h7 : Good og w2 := good_fst w6 (State.checkSpans_good ‹_›)
      exact good_pair ‹_›
    · rename_i w8 w9 w10
      have h11 : Good og w9 := good_fst w10 (State.checkSpans_good ‹_›)
      split
      · rename_i w12 w13 w14 w15 w16 w17
        have h18 : Good og w13 := good_fst w17 (State.checkSpans_good ‹_›)
        exact good_pair ‹_›
      · rename_i w19 w20 w21
        have h22 : Good og w20 := good_fst w21 (State.checkSpans_good ‹_›)
        exact ih ‹_›

theorem State.optimiserPassEnd_good {og : Origin} {a1 : State} {a2 : Nat} (h1 : Good og (a1)) :
    Good og (@State.optimiserPassEnd a1 a2) := by
  unfold State.optimiserPassEnd
  split
  · rename_i w1 w2
    assumption
  · rename_i w3 w4 w5
    refine good_ite ?_ ?_
    · exact State.refuse_good ‹_›
    · refine good_ite ?_ ?_
      · assumption
      · split
        · rename_i w6 w7
          assumption
        · rename_i w8 w9 w10
          split
          · rename_i w11 w12
            assumption
          · rename_i w13 w14 w15 w16
            extract_lets +onlyGivenNames x17; try clear_value x17
            split
            · rename_i w18 w19 w20 w21 w22 w23 w24 w25
              have h26 : Good og w19 := good_fst w25 (State.panelCheck_good ‹_›)
              exact State.updateFault_good ‹_›
            · rename_i w27 w28 w29
              have h30 : Good og w28 := good_fst w29 (State.panelCheck_good ‹_›)
              extract_lets +onlyGivenNames x31; try clear_value x31
              split
              · rename_i w32 w33 w34
                exact State.updateFault_good ‹_›
              · rename_i w35 w36
                split
                · rename_i w37 w38 w39 w40 w41
                  have h42 : Good og w38 := good_fst w41 (State.optimise_good ‹_›)
                  exact State.refuse_good (State.poisonNow_good ‹_›)
                · rename_i w43 w44 w45 w46
                  have h47 : Good og w44 := good_fst w46 (State.optimise_good ‹_›)
                  exact State.modStep_good ‹_›

theorem execOptimiserPassEnd_good {og : Origin} {a1 : TenantId} {a2 : State} (h2 : Good og (a2)) :
    GoodOut og (@execOptimiserPassEnd a1 a2) := by
  unfold execOptimiserPassEnd
  exact goodOut_next (State.optimiserPassEnd_good ‹_›)

theorem State.growCopy_good {og : Origin} {a1 : State} {a2 : Nat} {a3 : Tensor} {a4 : Nat} {a5 : Nat} {a6 : Nat} (h1 : Good og (a1)) :
    Good og (@State.growCopy a1 a2 a3 a4 a5 a6) := by
  unfold State.growCopy
  split
  · rename_i w1 w2
    assumption
  · rename_i w3 w4 w5
    extract_lets +onlyGivenNames x6; try clear_value x6
    refine good_ite ?_ ?_
    · assumption
    · extract_lets +onlyGivenNames x7
      try clear_value x7
      extract_lets +onlyGivenNames x8
      have h9 : Good og (x8) := by subst x8; exact State.grantFrames_good (State.homeFrames_good (State.convertGroups_good ‹_›))
      try clear_value x8
      exact State.modTensor_good ‹_›

theorem State.openCopyMeta_good {og : Origin} {a1 : State} {a2 : Nat} {a3 : Nat} {a4 : Tensor} {a5 : List Part} {a6 : Nat} {a7 : Nat} (h1 : Good og (a1)) :
    Good og (@State.openCopyMeta a1 a2 a3 a4 a5 a6 a7) := by
  unfold State.openCopyMeta
  split
  · rename_i w1 w2 w3
    refine good_ite ?_ ?_
    · exact State.writePart_good ‹_›
    · assumption
  · rename_i w4 w5
    assumption

theorem State.quantise_good {og : Origin} {a1 : State} {a2 : Nat} {a3 : List Byte} {a4 : Tensor} {a5 : Word} (h1 : Good og (a1)) :
    Good og (@State.quantise a1 a2 a3 a4 a5) := by
  unfold State.quantise
  extract_lets +onlyGivenNames x1; try clear_value x1
  split
  · rename_i w2 w3 w4 w5
    extract_lets +onlyGivenNames x6; try clear_value x6
    extract_lets +onlyGivenNames x7; try clear_value x7
    extract_lets +onlyGivenNames x8
    have h9 : Good og (x8) := by
      subst x8
      refine good_foldl ?_ (fun s10 y11 h12 => ?_)
      · assumption
      · exact State.growCopy_good ‹_›
    try clear_value x8
    extract_lets +onlyGivenNames x13; try clear_value x13
    extract_lets +onlyGivenNames x14
    have h15 : Good og (x14) := by
      subst x14
      refine good_foldl ?_ (fun s16 y17 h18 => ?_)
      · assumption
      · exact State.openCopyMeta_good ‹_›
    try clear_value x14
    extract_lets +onlyGivenNames x19; try clear_value x19
    extract_lets +onlyGivenNames x20; try clear_value x20
    extract_lets +onlyGivenNames x21; try clear_value x21
    split
    · rename_i w22 w23 w24 w25
      have h26 : Good og w23 := by
        refine good_fst w25 ?_
        refine good_ite_fst ?_ ?_
        · exact State.claim_good ‹_›
        · exact good_pair ‹_›
      extract_lets +onlyGivenNames x27; try clear_value x27
      extract_lets +onlyGivenNames x28; try clear_value x28
      extract_lets +onlyGivenNames x29
      have h30 : Good og (x29) := by subst x29; exact State.writeCopies_good ‹_›
      try clear_value x29
      extract_lets +onlyGivenNames x31; try clear_value x31
      extract_lets +onlyGivenNames x32
      have h33 : Good og (x32) := by
        subst x32
        refine good_foldl ?_ (fun s34 y35 h36 => ?_)
        · assumption
        · exact State.count_good ‹_›
      try clear_value x32
      exact State.reportAmax_good ‹_›

theorem State.quantiserPassEnd_good {og : Origin} {a1 : State} {a2 : Nat} (h1 : Good og (a1)) :
    Good og (@State.quantiserPassEnd a1 a2) := by
  unfold State.quantiserPassEnd
  split
  · rename_i w1 w2
    assumption
  · rename_i w3 w4 w5
    refine good_ite ?_ ?_
    · exact State.refuse_good ‹_›
    · refine good_ite ?_ ?_
      · assumption
      · split
        · rename_i w6 w7
          assumption
        · rename_i w8 w9 w10
          split
          · rename_i w11 w12
            assumption
          · rename_i w13 w14 w15
            split
            · rename_i w16 w17 w18 w19 w20 w21 w22 w23
              have h24 : Good og w17 := good_fst w23 (State.panelCheck_good ‹_›)
              exact State.updateFault_good ‹_›
            · rename_i w25 w26 w27
              have h28 : Good og w26 := good_fst w27 (State.panelCheck_good ‹_›)
              extract_lets +onlyGivenNames x29
              have h30 : Good og (x29) := by subst x29; exact State.quantise_good ‹_›
              try clear_value x29
              refine good_ite ?_ ?_
              · exact State.seal_good ‹_›
              · exact State.modStep_good ‹_›

theorem execQuantiserPassEnd_good {og : Origin} {a1 : TenantId} {a2 : State} (h2 : Good og (a2)) :
    GoodOut og (@execQuantiserPassEnd a1 a2) := by
  unfold execQuantiserPassEnd
  exact goodOut_next (State.quantiserPassEnd_good ‹_›)

theorem State.poisonArrives_good {og : Origin} {a1 : State} (h1 : Good og (a1)) :
    Good og (@State.poisonArrives a1) := by
  unfold State.poisonArrives
  split
  · rename_i w1 w2
    assumption
  · rename_i w3 w4 w5 w6
    extract_lets +onlyGivenNames x7
    have h8 : Good og (x7) := by subst x7; exact State.poisonSource_good ‹_›
    try clear_value x7
    refine good_ite ?_ ?_
    · exact State.refuse_good ‹_›
    · assumption

theorem execPoisonSource_good {og : Origin} {a1 : State} (h1 : Good og (a1)) :
    GoodOut og (@execPoisonSource a1) := by
  unfold execPoisonSource
  exact goodOut_next (State.poisonArrives_good ‹_›)

theorem execUpdateEngineReady_good {og : Origin} {a1 : State} (h1 : Good og (a1)) :
    GoodOut og (@execUpdateEngineReady a1) := by
  unfold execUpdateEngineReady
  refine goodOut_next ?_
  refine good_ite ?_ ?_
  · assumption
  · exact State.wr_good ‹_›

end Sys2Proof.Machine
end

