-- ==== Sys2Proof/Laws/Keep/Boundary.lean ====
section
/-! SUPPORT. What the operations of Machine/Boundary.lean keep. -/

namespace Sys2Proof.Machine

theorem State.copyFrame_good {og : Origin} {a1 : State} {a2 : Nat} {a3 : Nat} (h1 : Good og (a1)) :
    Good og (@State.copyFrame a1 a2 a3) := by
  unfold State.copyFrame
  extract_lets +onlyGivenNames x1
  have h2 : Good og (x1) := by subst x1; exact State.flushRange_good ‹_›
  try clear_value x1
  extract_lets +onlyGivenNames x3
  have h4 : Good og (x3) := by subst x3; exact State.write_good ‹_›
  try clear_value x3
  extract_lets +onlyGivenNames x5
  subst x5
  extract_lets +onlyGivenNames x6
  have h7 : Good og (x6) := by
    subst x6
    refine good_mk_mem ?_ rfl rfl ?_ ?_ ?_ ?_ rfl
    · assumption
    all_goals first | exact fun c => c | exact fun c => putCells_canon c | exact fun c => dropRange_canon c | exact fun c => KMap.canon_set _ _ c | exact fun c => (by dsimp only; exact KMap.canon_set _ _ c) | exact fun c => (by dsimp only; exact KMap.canon_foldl _ _ c) | exact fun c => (by dsimp only; exact KMap.canon_foldl _ _ (dropRange_canon c)) | exact fun _ => ⟨rfl, rfl⟩
  try clear_value x6
  exact State.moveDigest_good ‹_›

theorem State.copyFrames_good {og : Origin} {a1 : State} {a2 : List Nat} {a3 : List Nat} (h1 : Good og (a1)) :
    GoodOptS og (@State.copyFrames a1 a2 a3) := by
  unfold State.copyFrames
  extract_lets +onlyGivenNames x1
  have h2 : Good og (x1) := by
    subst x1
    refine good_foldl ?_ (fun s3 y4 h5 => ?_)
    · assumption
    · exact State.copyFrame_good ‹_›
  try clear_value x1
  split
  · rename_i w6
    exact goodOptS_some ‹_›
  · rename_i w7
    exact goodOptS_none

theorem State.movePart_good {og : Origin} {a1 : State} {a2 : Nat} {a3 : Tensor} {a4 : Part} {a5 : Nat → Bool} {a6 : Bool} {a7 : Nat} (h1 : Good og (a1)) :
    GoodOptS og (@State.movePart a1 a2 a3 a4 a5 a6 a7) := by
  unfold State.movePart
  extract_lets +onlyGivenNames x1; try clear_value x1
  refine goodOptS_bind_val ?_
  intro v2
  refine goodOptS_map ?_ ?_
  · exact State.copyFrames_good (State.homeFrames_good (State.convertGroups_good ‹_›))
  · intro v3 v4
    extract_lets +onlyGivenNames x5; try clear_value x5
    extract_lets +onlyGivenNames x6
    have h7 : Good og (x6) := by
      subst x6
      refine good_ite ?_ ?_
      · exact State.unmapPart_good ‹_›
      · exact State.revokeFrames_good ‹_›
    try clear_value x6
    extract_lets +onlyGivenNames x8; try clear_value x8
    extract_lets +onlyGivenNames x9
    have h10 : Good og (x9) := by subst x9; exact State.modPart_good ‹_›
    try clear_value x9
    extract_lets +onlyGivenNames x11
    have h12 : Good og (x11) := by
      subst x11
      refine good_ite ?_ ?_
      · exact State.remapPart_good ‹_›
      · exact State.grantFrames_good ‹_›
    try clear_value x11
    exact State.retire_good ‹_›

theorem State.movePack_good {og : Origin} {a1 : State} {a2 : Nat} {a3 : Pack} {a4 : Bool} {a5 : Nat} (h1 : Good og (a1)) :
    GoodOptS og (@State.movePack a1 a2 a3 a4 a5) := by
  unfold State.movePack
  refine goodOptS_bind_val ?_
  intro v1
  extract_lets +onlyGivenNames x2; try clear_value x2
  refine goodOptS_map ?_ ?_
  · exact State.copyFrames_good (State.setMapEntry_good (State.convertGroups_good ‹_›))
  · intro v3 v4
    extract_lets +onlyGivenNames x5
    have h6 : Good og (x5) := by subst x5; exact State.revokeFrames_good (State.unmapPages_good ‹_›)
    try clear_value x5
    extract_lets +onlyGivenNames x7
    have h8 : Good og (x7) := by subst x7; exact State.mapPage_good (State.grantFrames_good ‹_›)
    try clear_value x7
    extract_lets +onlyGivenNames x9; try clear_value x9
    extract_lets +onlyGivenNames x10; try clear_value x10
    extract_lets +onlyGivenNames x11
    have h12 : Good og (x11) := by subst x11; exact State.modPlace_good ‹_›
    try clear_value x11
    exact State.retire_good (good_mk ‹_› rfl rfl rfl rfl rfl rfl rfl)

theorem State.moveArea_good {og : Origin} {a1 : State} {a2 : Nat} {a3 : Nat} {a4 : Nat} (h1 : Good og (a1)) :
    GoodOptS og (@State.moveArea a1 a2 a3 a4) := by
  unfold State.moveArea
  extract_lets +onlyGivenNames x1; try clear_value x1
  extract_lets +onlyGivenNames x2; try clear_value x2
  extract_lets +onlyGivenNames x3; try clear_value x3
  refine goodOptS_bind_val ?_
  intro v4
  extract_lets +onlyGivenNames x5; try clear_value x5
  refine goodOptS_map ?_ ?_
  · exact State.copyFrames_good (State.convertGroups_good ‹_›)
  · intro v6 v7
    extract_lets +onlyGivenNames x8; try clear_value x8
    extract_lets +onlyGivenNames x9
    have h10 : Good og (x9) := by subst x9; exact State.revokeFrames_good (State.unmapPages_good ‹_›)
    try clear_value x9
    extract_lets +onlyGivenNames x11
    have h12 : Good og (x11) := by subst x11; exact State.mapPage_good (State.grantFrames_good ‹_›)
    try clear_value x11
    exact State.retire_good (State.modPlace_good ‹_›)

theorem State.moveHeld_good {og : Origin} {a1 : State} {a2 : Reservation} {a3 : Nat → Bool} {a4 : Nat} (h1 : Good og (a1)) :
    GoodOptS og (@State.moveHeld a1 a2 a3 a4) := by
  unfold State.moveHeld
  extract_lets +onlyGivenNames x1; try clear_value x1
  extract_lets +onlyGivenNames x2; try clear_value x2
  split
  · rename_i w3
    exact goodOptS_none
  · rename_i w4
    refine goodOptS_map ?_ ?_
    · exact State.copyFrames_good (State.homeFrames_good (State.convertGroups_good ‹_›))
    · intro v5 v6
      exact State.retire_good (good_mk ‹_› rfl rfl rfl rfl rfl rfl rfl)

theorem State.tryMove_good {og : Origin} {a1 : State} {a2 : State → Option State} (h1 : Good og (a1)) (h2 : ∀ b1, Good og (b1) → GoodOptS og (a2 b1)) :
    Good og (@State.tryMove a1 a2) := by
  unfold State.tryMove
  refine good_getD ?_ ?_
  · exact h2 _ ‹_›
  · assumption

theorem State.mapoutMoves_good {og : Origin} {a1 : State} {a2 : Nat} (h1 : Good og (a1)) :
    Good og (@State.mapoutMoves a1 a2) := by
  unfold State.mapoutMoves
  split
  · rename_i w1 w2
    assumption
  · rename_i w3 w4 w5
    extract_lets +onlyGivenNames x6; try clear_value x6
    extract_lets +onlyGivenNames x7; try clear_value x7
    extract_lets +onlyGivenNames x8
    have h9 : Good og (x8) := by
      subst x8
      refine good_foldl ?_ (fun s10 y11 h12 => ?_)
      · assumption
      · refine good_ite ?_ ?_
        · refine State.tryMove_good ?_ ?_
          · exact State.spillFor_good ‹_›
          · intro v13 v14
            exact State.moveArea_good ‹_›
        · assumption
    try clear_value x8
    extract_lets +onlyGivenNames x15
    have h16 : Good og (x15) := by
      subst x15
      refine good_foldl ?_ (fun s17 y18 h19 => ?_)
      · assumption
      · refine State.tryMove_good ?_ ?_
        · exact State.spillFor_good ‹_›
        · intro v20 v21
          exact State.movePack_good ‹_›
    try clear_value x15
    refine good_foldl ?_ (fun s22 y23 h24 => ?_)
    · assumption
    · refine good_foldl ?_ (fun s25 y26 h27 => ?_)
      · assumption
      · refine State.tryMove_good ?_ ?_
        · exact State.spillFor_good ‹_›
        · intro v28 v29
          exact State.movePart_good ‹_›

theorem State.planPins_good {og : Origin} {a1 : State} (h1 : Good og (a1)) :
    Good og (@State.planPins a1) := by
  unfold State.planPins
  exact good_mk ‹_› rfl rfl rfl rfl rfl rfl rfl

theorem State.pinTensor_good {og : Origin} {a1 : State} {a2 : Nat} {a3 : Tensor} {a4 : Bool} (h1 : Good og (a1)) :
    Good og (@State.pinTensor a1 a2 a3 a4) := by
  unfold State.pinTensor
  refine State.modParts_good ?_
  refine good_foldl ?_ (fun s1 y2 h3 => ?_)
  · assumption
  · exact State.rangeRun_good ‹_›

theorem State.declinePin_good {og : Origin} {a1 : State} {a2 : Nat} {a3 : Tensor} (h1 : Good og (a1)) :
    Good og (@State.declinePin a1 a2 a3) := by
  unfold State.declinePin
  refine good_ite ?_ ?_
  · exact State.tell_good (State.modTensor_good ‹_›)
  · assumption

theorem State.changePins_good {og : Origin} {a1 : State} {a2 : List (Nat × Tensor)} {a3 : List (Nat × Tensor)} (h1 : Good og (a1)) :
    Good og (@State.changePins a1 a2 a3) := by
  unfold State.changePins
  extract_lets +onlyGivenNames x1; try clear_value x1
  extract_lets +onlyGivenNames x2; try clear_value x2
  extract_lets +onlyGivenNames x3; try clear_value x3
  refine good_ite ?_ ?_
  · assumption
  · extract_lets +onlyGivenNames x4
    have h5 : Good og (x4) := by
      subst x4
      refine good_foldl ?_ (fun s6 y7 h8 => ?_)
      · assumption
      · exact State.pinTensor_good ‹_›
    try clear_value x4
    extract_lets +onlyGivenNames x9
    have h10 : Good og (x9) := by
      subst x9
      refine good_foldl ?_ (fun s11 y12 h13 => ?_)
      · assumption
      · exact State.pinTensor_good ‹_›
    try clear_value x9
    extract_lets +onlyGivenNames x14
    have h15 : Good og (x14) := by
      subst x14
      refine good_foldl ?_ (fun s16 y17 h18 => ?_)
      · assumption
      · exact State.declinePin_good ‹_›
    try clear_value x14
    exact good_mk ‹_› rfl rfl rfl rfl rfl rfl rfl

theorem State.pinWork_good {og : Origin} {a1 : State} (h1 : Good og (a1)) :
    Good og (@State.pinWork a1) := by
  unfold State.pinWork
  refine good_ite ?_ ?_
  · assumption
  · split
    · rename_i w1 w2 w3 w4
      refine good_ite ?_ ?_
      · refine State.partitionApply_good ?_
        refine good_foldl ?_ (fun s5 y6 h7 => ?_)
        · assumption
        · exact State.wr_good (State.wr_good ‹_›)
      · exact State.changePins_good ‹_›

theorem State.clearEscalation_good {og : Origin} {a1 : State} {a2 : Nat} {a3 : Nat} (h1 : Good og (a1)) :
    Good og (@State.clearEscalation a1 a2 a3) := by
  unfold State.clearEscalation
  extract_lets +onlyGivenNames x1; try clear_value x1
  extract_lets +onlyGivenNames x2; try clear_value x2
  split
  · rename_i w3 w4
    assumption
  · rename_i w5 w6 w7
    extract_lets +onlyGivenNames x8
    have h9 : Good og (x8) := by subst x8; exact State.modRec_good ‹_›
    try clear_value x8
    refine good_ite ?_ ?_
    · exact State.fellBack_good (State.modRec_good ‹_›)
    · exact State.fellBack_good ‹_›

theorem State.countMoved_good {og : Origin} {a1 : State} {a2 : Nat} {a3 : Nat} (h1 : Good og (a1)) :
    Good og (@State.countMoved a1 a2 a3) := by
  unfold State.countMoved
  exact State.modPlace_good ‹_›

theorem State.moveClass_good {og : Origin} {a1 : State} {a2 : Nat} {a3 : Tensor} {a4 : Bool} (h1 : Good og (a1)) :
    Good og (@State.moveClass a1 a2 a3 a4) := by
  unfold State.moveClass
  extract_lets +onlyGivenNames x1
  have h2 : Good og (x1) := by
    subst x1
    refine good_foldl ?_ (fun s3 y4 h5 => ?_)
    · assumption
    · extract_lets +onlyGivenNames x6
      try clear_value x6
      refine good_ite ?_ ?_
      · assumption
      · refine State.tryMove_good ?_ ?_
        · assumption
        · intro v7 v8
          refine goodOptS_map ?_ ?_
          · exact State.movePart_good ‹_›
          · intro v9 v10
            exact State.countMoved_good ‹_›
  try clear_value x1
  refine good_foldl ?_ (fun s11 y12 h13 => ?_)
  · assumption
  · refine good_ite ?_ ?_
    · refine State.tryMove_good ?_ ?_
      · assumption
      · intro v14 v15
        refine goodOptS_map ?_ ?_
        · exact State.movePack_good ‹_›
        · intro v16 v17
          exact State.countMoved_good ‹_›
    · assumption

theorem State.settleConstraint_good {og : Origin} {a1 : State} {a2 : Nat} {a3 : Tensor} {a4 : Nat} {a5 : Constraint} (h1 : Good og (a1)) :
    Good og (@State.settleConstraint a1 a2 a3 a4 a5) := by
  unfold State.settleConstraint
  extract_lets +onlyGivenNames x1; try clear_value x1
  extract_lets +onlyGivenNames x2; try clear_value x2
  extract_lets +onlyGivenNames x3; try clear_value x3
  extract_lets +onlyGivenNames x4; try clear_value x4
  extract_lets +onlyGivenNames x5
  have h6 : Good og (x5) := by subst x5; exact State.modTensor_good ‹_›
  try clear_value x5
  extract_lets +onlyGivenNames x7
  have h8 : Good og (x7) := by
    subst x7
    refine good_ite ?_ ?_
    · exact State.modRec_good ‹_›
    · assumption
  try clear_value x7
  extract_lets +onlyGivenNames x9
  have h10 : Good og (x9) := by
    subst x9
    refine good_ite ?_ ?_
    · exact State.clearEscalation_good ‹_›
    · assumption
  try clear_value x9
  extract_lets +onlyGivenNames x11; try clear_value x11
  extract_lets +onlyGivenNames x12
  have h13 : Good og (x12) := by
    subst x12
    refine good_ite ?_ ?_
    · refine good_foldl ?_ (fun s14 y15 h16 => ?_)
      · assumption
      · exact State.homeFrames_good ‹_›
    · assumption
  try clear_value x12
  refine good_ite ?_ ?_
  · exact State.planPins_good ‹_›
  · assumption

theorem State.applyConstraint_good {og : Origin} {a1 : State} {a2 : Nat} {a3 : Nat} {a4 : Nat} {a5 : Constraint} (h1 : Good og (a1)) :
    Good og (@State.applyConstraint a1 a2 a3 a4 a5) := by
  unfold State.applyConstraint
  split
  · rename_i w1 w2
    assumption
  · rename_i w3 w4 w5
    extract_lets +onlyGivenNames x6; try clear_value x6
    extract_lets +onlyGivenNames x7
    have h8 : Good og (x7) := by
      subst x7
      refine good_ite ?_ ?_
      · exact State.moveClass_good ‹_›
      · assumption
    try clear_value x7
    split
    · rename_i w9 w10
      assumption
    · rename_i w11 w12 w13
      refine good_ite ?_ ?_
      · assumption
      · exact State.settleConstraint_good ‹_›

theorem State.constraintWork_good {og : Origin} {a1 : State} {a2 : Nat} (h1 : Good og (a1)) :
    Good og (@State.constraintWork a1 a2) := by
  unfold State.constraintWork
  refine good_foldl ?_ (fun s1 y2 h3 => ?_)
  · assumption
  · split
    · rename_i w4 w5 w6 w7
      exact State.applyConstraint_good ‹_›
    · rename_i w8 w9
      assumption

theorem State.tryOpen_good {og : Origin} {a1 : State} {a2 : Nat} (h1 : Good og (a1)) :
    Good og (@State.tryOpen a1 a2) := by
  unfold State.tryOpen
  split
  · rename_i w1 w2
    assumption
  · rename_i w3 w4 w5
    refine good_ite ?_ ?_
    · assumption
    · refine good_ite ?_ ?_
      · exact State.endCmd_good (State.modStep_good ‹_›)
      · refine good_ite ?_ ?_
        · assumption
        · extract_lets +onlyGivenNames x6
          have h7 : Good og (x6) := by subst x6; exact State.modStep_good ‹_›
          try clear_value x6
          extract_lets +onlyGivenNames x8
          have h9 : Good og (x8) := by subst x8; exact State.endBoundary_good (State.modPlace_good ‹_›)
          try clear_value x8
          exact State.endCmd_good (State.setPhase_good (State.mapRecs_good ‹_›))

theorem State.boundaryWork_good {og : Origin} {a1 : State} {a2 : Nat} {a3 : List (Nat × Nat × Nat)} (h1 : Good og (a1)) :
    Good og (@State.boundaryWork a1 a2 a3) := by
  unfold State.boundaryWork
  refine good_ite ?_ ?_
  · assumption
  · refine good_ite ?_ ?_
    · extract_lets +onlyGivenNames x1
      have h2 : Good og (x1) := by subst x1; exact State.endBoundary_good ‹_›
      try clear_value x1
      exact State.modPlace_good ‹_›
    · extract_lets +onlyGivenNames x3
      have h4 : Good og (x3) := by subst x3; exact State.mapoutMoves_good (State.mapRecs_good ‹_›)
      try clear_value x3
      extract_lets +onlyGivenNames x5
      have h6 : Good og (x5) := by
        subst x5
        refine good_foldl ?_ (fun s7 y8 h9 => ?_)
        · assumption
        · exact State.fetchTensor_good ‹_›
      try clear_value x5
      extract_lets +onlyGivenNames x10
      have h11 : Good og (x10) := by subst x10; exact State.pinWork_good ‹_›
      try clear_value x10
      refine good_ite ?_ ?_
      · exact State.modPlace_good ‹_›
      · extract_lets +onlyGivenNames x12
        have h13 : Good og (x12) := by subst x12; exact State.constraintWork_good ‹_›
        try clear_value x12
        extract_lets +onlyGivenNames x14
        have h15 : Good og (x14) := by
          subst x14
          refine good_foldl ?_ (fun s16 y17 h18 => ?_)
          · assumption
          · exact State.removeTensor_good ‹_›
        try clear_value x14
        extract_lets +onlyGivenNames x19
        have h20 : Good og (x19) := by subst x19; exact State.modPlace_good ‹_›
        try clear_value x19
        exact State.tryOpen_good ‹_›

theorem execBoundaryWork_good {og : Origin} {a1 : TenantId} {a2 : List (Nat × Nat × Nat)} {a3 : State} (h3 : Good og (a3)) :
    GoodOut og (@execBoundaryWork a1 a2 a3) := by
  unfold execBoundaryWork
  exact goodOut_next (State.boundaryWork_good ‹_›)

theorem State.openStep_good {og : Origin} {a1 : State} {a2 : Nat} {a3 : Nat} {a4 : Entry} {a5 : List Byte} (h1 : Good og (a1)) :
    Good og (@State.openStep a1 a2 a3 a4 a5) := by
  unfold State.openStep
  extract_lets +onlyGivenNames x1; try clear_value x1
  refine good_ite ?_ ?_
  · exact State.finish_good ‹_›
  · refine good_ite ?_ ?_
    · exact State.finish_good ‹_›
    · extract_lets +onlyGivenNames x2
      have h3 : Good og (x2) := by subst x2; exact State.modStep_good ‹_›
      try clear_value x2
      extract_lets +onlyGivenNames x4; try clear_value x4
      extract_lets +onlyGivenNames x5
      have h6 : Good og (x5) := by subst x5; exact State.modPlace_good ‹_›
      try clear_value x5
      refine State.tryOpen_good ?_
      refine good_ite ?_ ?_
      · assumption
      · exact State.planPins_good ‹_›

theorem execStepOpen_good {og : Origin} {a1 : TenantId} {a2 : RingId} {a3 : State} (h3 : Good og (a3)) :
    GoodOut og (@execStepOpen a1 a2 a3) := by
  unfold execStepOpen
  refine goodOut_next ?_
  refine State.runCommand_good ?_ ?_
  · assumption
  · intro v1 v2 v3
    refine State.withScb_good ?_ ?_
    · assumption
    · intro v4 v5 v6
      exact State.openStep_good ‹_›

end Sys2Proof.Machine
end

