-- ==== Sys2Proof/Laws/Keep/TumBase.lean ====
section
/-! SUPPORT. What the operations of Machine/TumBase.lean keep. -/

namespace Sys2Proof.Machine

theorem State.modLaunch_good {og : Origin} {a1 : State} {a2 : Nat} {a3 : Launch → Launch} (h1 : Good og (a1)) :
    Good og (@State.modLaunch a1 a2 a3) := by
  unfold State.modLaunch
  refine good_mk ?_ rfl rfl rfl rfl rfl rfl rfl
  assumption

theorem State.setTumbler_good {og : Origin} {a1 : State} {a2 : Nat} {a3 : Tumbler} (h1 : Good og (a1)) :
    Good og (@State.setTumbler a1 a2 a3) := by
  unfold State.setTumbler
  refine good_mk ?_ rfl rfl rfl rfl rfl rfl rfl
  assumption

theorem State.modTumbler_good {og : Origin} {a1 : State} {a2 : Nat} {a3 : Tumbler → Tumbler} (h1 : Good og (a1)) :
    Good og (@State.modTumbler a1 a2 a3) := by
  unfold State.modTumbler
  refine State.setTumbler_good ?_
  assumption

theorem State.setGroup_good {og : Origin} {a1 : State} {a2 : Nat} {a3 : Nat} {a4 : Group} (h1 : Good og (a1)) :
    Good og (@State.setGroup a1 a2 a3 a4) := by
  unfold State.setGroup
  refine State.modTumbler_good ?_
  assumption

theorem State.modGroup_good {og : Origin} {a1 : State} {a2 : Nat} {a3 : Nat} {a4 : Group → Group} (h1 : Good og (a1)) :
    Good og (@State.modGroup a1 a2 a3 a4) := by
  unfold State.modGroup
  split
  · rename_i w1 w2 w3
    refine State.setGroup_good ?_
    assumption
  · rename_i w4 w5
    assumption

theorem State.answerIssue_good {og : Origin} {a1 : State} {a2 : Nat} {a3 : Nat} {a4 : Nat} {a5 : Nat} {a6 : Nat} {a7 : Nat} (h1 : Good og (a1)) :
    Good og (@State.answerIssue a1 a2 a3 a4 a5 a6 a7) := by
  unfold State.answerIssue
  split
  · rename_i w1 w2
    assumption
  · rename_i w3 w4 w5
    refine good_ite ?_ ?_
    · refine State.setGroup_good ?_
      assumption
    · assumption

theorem State.takeToken_good {og : Origin} {a1 : State} {a2 : Nat} {a3 : Nat} {a4 : Nat} {a5 : Nat} {a6 : Nat} (h1 : Good og (a1)) :
    Good og (@State.takeToken a1 a2 a3 a4 a5 a6) := by
  unfold State.takeToken
  refine State.modTumbler_good ?_
  assumption

end Sys2Proof.Machine
end

