-- ==== Sys2Proof/Laws/Keep/ArrDesc.lean ====
section
/-! SUPPORT. What the operations of Machine/ArrDesc.lean keep. -/

namespace Sys2Proof.Machine

theorem State.fetchVecs_good {og : Origin} {a1 : State} {a2 : Nat} {a3 : Nat} {a4 : Nat} {a5 : List (Nat × Nat)} (h1 : Good og (a1)) :
    Good og (@State.fetchVecs a1 a2 a3 a4 a5).1 := by
  induction a5 generalizing a1 with
  | nil =>
    rw [State.fetchVecs]
    exact good_pair ‹_›
  | cons x xs ih =>
    obtain ⟨x1, x2⟩ := x
    rw [State.fetchVecs]
    split
    · rename_i w1 w2 w3 w4 w5 w6
      have h7 : Good og w2 := good_fst w6 (State.fetchSpan_good ‹_›)
      exact good_pair ‹_›
    · rename_i w8 w9 w10 w11
      have h12 : Good og w9 := good_fst w11 (State.fetchSpan_good ‹_›)
      split
      · rename_i w13 w14 w15 w16
        have h17 : Good og w14 := good_fst w16 (ih ‹_›)
        exact good_pair ‹_›
      · rename_i w18 w19
        exact ih ‹_›

theorem State.storeVecs_good {og : Origin} {a1 : State} {a2 : Nat} {a3 : Nat} {a4 : Nat} {a5 : List (Nat × List Byte)} (h1 : Good og (a1)) :
    Good og (@State.storeVecs a1 a2 a3 a4 a5).1 := by
  induction a5 generalizing a1 with
  | nil =>
    rw [State.storeVecs]
    exact good_pair ‹_›
  | cons x xs ih =>
    obtain ⟨x1, x2⟩ := x
    rw [State.storeVecs]
    split
    · rename_i w1 w2 w3 w4 w5 w6
      have h7 : Good og w2 := good_fst w6 (State.storeSpan_good ‹_›)
      exact good_pair ‹_›
    · rename_i w8 w9 w10 w11
      have h12 : Good og w9 := good_fst w11 (State.storeSpan_good ‹_›)
      exact ih ‹_›

theorem State.scribble_good {og : Origin} {a1 : State} {a2 : Nat} {a3 : Nat} {a4 : Nat} {a5 : List (Nat × Nat)} (h1 : Good og (a1)) :
    Good og (@State.scribble a1 a2 a3 a4 a5) := by
  unfold State.scribble
  refine good_foldl ?_ (fun s1 y2 h3 => ?_)
  · assumption
  · extract_lets +onlyGivenNames x4
    have h5 : Good og (x4) := by subst x4; exact State.storeSpan_good ‹_›
    try clear_value x4
    exact good_mk ‹_› rfl rfl rfl rfl rfl rfl rfl

end Sys2Proof.Machine
end

