-- ==== Sys2Proof/Laws/Keep/ArrData.lean ====
section
/-! SUPPORT. What the operations of Machine/ArrData.lean keep. -/

namespace Sys2Proof.Machine

theorem State.readEntries_good {og : Origin} {a1 : State} {a2 : Nat} {a3 : Nat} {a4 : Nat} {a5 : Nat} {a6 : Nat} {a7 : Nat} {a8 : Nat} {a9 : List Nat} {a10 : Nat} (h1 : Good og (a1)) :
    Good og (@State.readEntries a1 a2 a3 a4 a5 a6 a7 a8 a9 a10).1 := by
  induction a9 generalizing a1 a10 with
  | nil =>
    rw [State.readEntries]
    exact good_pair ‹_›
  | cons x xs ih =>
    rw [State.readEntries]
    refine good_ite_fst ?_ ?_
    · exact good_pair ‹_›
    · split
      · rename_i w1 w2 w3 w4 w5 w6
        have h7 : Good og w2 := good_fst w6 (State.fetchSpan_good ‹_›)
        exact good_pair ‹_›
      · rename_i w8 w9 w10 w11
        have h12 : Good og w9 := good_fst w11 (State.fetchSpan_good ‹_›)
        refine good_ite_fst ?_ ?_
        · exact good_pair ‹_›
        · split
          · rename_i w13 w14 w15 w16
            have h17 : Good og w14 := good_fst w16 (ih ‹_›)
            exact good_pair ‹_›
          · rename_i w18 w19
            exact ih ‹_›

theorem State.readOpnd_good {og : Origin} {a1 : State} {a2 : Nat} {a3 : Nat} {a4 : Nat} {a5 : Opnd} {a6 : Nat} (h1 : Good og (a1)) :
    Good og (@State.readOpnd a1 a2 a3 a4 a5 a6).1 := by
  unfold State.readOpnd
  split
  · rename_i w1 w2 w3 w4
    have h5 : Good og w2 := good_fst w4 (State.fetchVecs_good ‹_›)
    exact good_pair ‹_›
  · rename_i w6 w7 w8 w9
    have h10 : Good og w7 := good_fst w9 (State.fetchVecs_good ‹_›)
    extract_lets +onlyGivenNames x11; try clear_value x11
    extract_lets +onlyGivenNames x12; try clear_value x12
    refine good_ite_fst ?_ ?_
    · exact good_pair ‹_›
    · extract_lets +onlyGivenNames x13
      try clear_value x13
      split
      · rename_i w14 w15 w16 w17
        have h18 : Good og w15 := good_fst w17 (State.readEntries_good ‹_›)
        exact good_pair ‹_›
      · rename_i w19 w20 w21 w22
        have h23 : Good og w20 := good_fst w22 (State.readEntries_good ‹_›)
        split
        · rename_i w24 w25 w26 w27
          have h28 : Good og w25 := good_fst w27 (State.fetchVecs_good ‹_›)
          exact good_pair ‹_›
        · rename_i w29 w30 w31 w32
          have h33 : Good og w30 := good_fst w32 (State.fetchVecs_good ‹_›)
          exact good_pair ‹_›

theorem State.readProblems_good {og : Origin} {a1 : State} {a2 : Nat} {a3 : Nat} {a4 : Nat} {a5 : List Byte} {a6 : List Nat} (h1 : Good og (a1)) :
    Good og (@State.readProblems a1 a2 a3 a4 a5 a6).1 := by
  induction a6 generalizing a1 with
  | nil =>
    rw [State.readProblems]
    exact good_pair ‹_›
  | cons x xs ih =>
    rw [State.readProblems]
    split
    · rename_i w1 w2 w3 w4
      have h5 : Good og w2 := good_fst w4 (State.readOpnd_good ‹_›)
      exact good_pair ‹_›
    · rename_i w6 w7 w8 w9
      have h10 : Good og w7 := good_fst w9 (State.readOpnd_good ‹_›)
      split
      · rename_i w11 w12 w13 w14
        have h15 : Good og w12 := good_fst w14 (State.readOpnd_good ‹_›)
        exact good_pair ‹_›
      · rename_i w16 w17 w18 w19
        have h20 : Good og w17 := good_fst w19 (State.readOpnd_good ‹_›)
        split
        · rename_i w21 w22 w23 w24
          have h25 : Good og w22 := good_fst w24 (ih ‹_›)
          exact good_pair ‹_›
        · rename_i w26 w27
          exact ih ‹_›

theorem State.drainProblem_good {og : Origin} {a1 : State} {a2 : ArrOp} {a3 : Nat} (h1 : Good og (a1)) :
    Good og (@State.drainProblem a1 a2 a3).1 := by
  unfold State.drainProblem
  extract_lets +onlyGivenNames x1; try clear_value x1
  extract_lets +onlyGivenNames x2; try clear_value x2
  extract_lets +onlyGivenNames x3; try clear_value x3
  extract_lets +onlyGivenNames x4; try clear_value x4
  extract_lets +onlyGivenNames x5; try clear_value x5
  extract_lets +onlyGivenNames x6; try clear_value x6
  extract_lets +onlyGivenNames x7; try clear_value x7
  split
  · rename_i w8 w9 w10 w11
    have h12 : Good og w9 := good_fst w11 (State.fetchVecs_good ‹_›)
    exact good_pair ‹_›
  · rename_i w13 w14 w15 w16
    have h17 : Good og w14 := good_fst w16 (State.fetchVecs_good ‹_›)
    extract_lets +onlyGivenNames x18; try clear_value x18
    extract_lets +onlyGivenNames x19
    have h20 : Good og (x19) := by
      subst x19
      refine good_ite ?_ ?_
      · exact good_mk ‹_› rfl rfl rfl rfl rfl rfl rfl
      · assumption
    try clear_value x19
    split
    · rename_i w21 w22 w23 w24
      have h25 : Good og w22 := good_fst w24 (State.storeVecs_good ‹_›)
      exact good_pair ‹_›
    · rename_i w26 w27 w28
      have h29 : Good og w27 := good_fst w28 (State.storeVecs_good ‹_›)
      extract_lets +onlyGivenNames x30; try clear_value x30
      exact good_pair ‹_›

theorem State.drainProblems_good {og : Origin} {a1 : State} {a2 : ArrOp} {a3 : List Nat} (h1 : Good og (a1)) :
    Good og (@State.drainProblems a1 a2 a3).1 := by
  induction a3 generalizing a1 with
  | nil =>
    rw [State.drainProblems]
    exact good_pair ‹_›
  | cons x xs ih =>
    rw [State.drainProblems]
    split
    · rename_i w1 w2 w3 w4
      have h5 : Good og w2 := good_fst w4 (State.drainProblem_good ‹_›)
      exact good_pair ‹_›
    · rename_i w6 w7 w8 w9
      have h10 : Good og w7 := good_fst w9 (State.drainProblem_good ‹_›)
      split
      · rename_i w11 w12 w13 w14
        have h15 : Good og w12 := good_fst w14 (ih ‹_›)
        exact good_pair ‹_›
      · rename_i w16 w17
        exact ih ‹_›

end Sys2Proof.Machine
end

