-- ==== Sys2Proof/Laws/Keep/Array.lean ====
section
/-! SUPPORT. What the operations of Machine/Array.lean keep. -/

namespace Sys2Proof.Machine

theorem State.showArr_good {og : Origin} {a1 : State} (h1 : Good og (a1)) :
    Good og (@State.showArr a1) := by
  unfold State.showArr
  extract_lets +onlyGivenNames x1; try clear_value x1
  extract_lets +onlyGivenNames x2
  have h3 : Good og (x2) := by subst x2; exact State.wr_good ‹_›
  try clear_value x2
  extract_lets +onlyGivenNames x4
  have h5 : Good og (x4) := by subst x4; exact State.wr_good ‹_›
  try clear_value x4
  extract_lets +onlyGivenNames x6
  have h7 : Good og (x6) := by subst x6; exact State.wr_good ‹_›
  try clear_value x6
  exact State.wr_good ‹_›

theorem State.setArr_good {og : Origin} {a1 : State} {a2 : ArrSeq} (h1 : Good og (a1)) :
    Good og (@State.setArr a1 a2) := by
  unfold State.setArr
  exact State.showArr_good (good_mk ‹_› rfl rfl rfl rfl rfl rfl rfl)

theorem State.modOp_good {og : Origin} {a1 : State} {a2 : Nat} {a3 : Nat} {a4 : ArrOp → ArrOp} (h1 : Good og (a1)) :
    Good og (@State.modOp a1 a2 a3 a4) := by
  unfold State.modOp
  exact State.setArr_good ‹_›

theorem State.arrRestart_good {og : Origin} {a1 : State} (h1 : Good og (a1)) :
    Good og (@State.arrRestart a1) := by
  unfold State.arrRestart
  extract_lets +onlyGivenNames x1
  have h2 : Good og (x1) := by subst x1; exact State.resetBlock_good (good_mk ‹_› rfl rfl rfl rfl rfl rfl rfl)
  try clear_value x1
  refine State.agmRestart_good ?_
  refine good_foldl ?_ (fun s3 y4 h5 => ?_)
  · assumption
  · exact State.modTumbler_good ‹_›

theorem State.arrReady_good {og : Origin} {a1 : State} (h1 : Good og (a1)) :
    Good og (@State.arrReady a1) := by
  unfold State.arrReady
  refine good_ite ?_ ?_
  · assumption
  · exact State.wr_good ‹_›

theorem execArraySequencerReady_good {og : Origin} {a1 : State} (h1 : Good og (a1)) :
    GoodOut og (@execArraySequencerReady a1) := by
  unfold execArraySequencerReady
  exact goodOut_next (State.arrReady_good ‹_›)

theorem State.arrAccept_good {og : Origin} {a1 : State} (h1 : Good og (a1)) :
    Good og (@State.arrAccept a1) := by
  unfold State.arrAccept
  extract_lets +onlyGivenNames x1
  have h2 : Good og (x1) := by subst x1; exact State.passMarkers_good ‹_›
  try clear_value x1
  split
  · rename_i w3 w4 w5 w6 w7 w8 w9 w10 w11 w12
    extract_lets +onlyGivenNames x13
    have h14 : Good og (x13) := by subst x13; exact State.popMsg_good ‹_›
    try clear_value x13
    extract_lets +onlyGivenNames x15; try clear_value x15
    refine good_ite ?_ ?_
    · exact State.answerIssue_good (State.setEvent_good ‹_›)
    · split
      · rename_i w16 w17
        exact State.answerIssue_good ‹_›
      · rename_i w18 w19 w20
        extract_lets +onlyGivenNames x21; try clear_value x21
        extract_lets +onlyGivenNames x22; try clear_value x22
        extract_lets +onlyGivenNames x23; try clear_value x23
        extract_lets +onlyGivenNames x24
        have h25 : Good og (x24) := by subst x24; exact State.setArr_good ‹_›
        try clear_value x24
        exact State.answerIssue_good (State.takeToken_good ‹_›)
  · rename_i w26 w27
    assumption

theorem execArrayDescriptorAccept_good {og : Origin} {a1 : State} (h1 : Good og (a1)) :
    GoodOut og (@execArrayDescriptorAccept a1) := by
  unfold execArrayDescriptorAccept
  refine goodOut_next ?_
  refine good_ite ?_ ?_
  · assumption
  · exact State.arrAccept_good ‹_›

theorem State.dropChain_good {og : Origin} {a1 : State} {a2 : Nat} {a3 : Nat} (h1 : Good og (a1)) :
    Good og (@State.dropChain a1 a2 a3) := by
  unfold State.dropChain
  exact State.setArr_good ‹_›

theorem State.passArr_good {og : Origin} {a1 : State} {a2 : Nat} (h1 : Good og (a1)) :
    Good og (@State.passArr a1 a2) := by
  unfold State.passArr
  extract_lets +onlyGivenNames x1; try clear_value x1
  extract_lets +onlyGivenNames x2; try clear_value x2
  extract_lets +onlyGivenNames x3; try clear_value x3
  extract_lets +onlyGivenNames x4; try clear_value x4
  exact State.setArr_good ‹_›

theorem State.arrEnd_good {og : Origin} {a1 : State} {a2 : ArrOp} {a3 : Nat} (h1 : Good og (a1)) :
    Good og (@State.arrEnd a1 a2 a3) := by
  unfold State.arrEnd
  extract_lets +onlyGivenNames x1; try clear_value x1
  extract_lets +onlyGivenNames x2
  have h3 : Good og (x2) := by subst x2; exact State.setArr_good ‹_›
  try clear_value x2
  exact State.modOp_good ‹_›

theorem State.arrFaulted_good {og : Origin} {a1 : State} {a2 : ArrOp} {a3 : Stop} (h1 : Good og (a1)) :
    Good og (@State.arrFaulted a1 a2 a3) := by
  unfold State.arrFaulted
  extract_lets +onlyGivenNames x1
  have h2 : Good og (x1) := by
    subst x1
    split
    · rename_i w3 w4 w5 w6 w7
      exact State.memFault_good ‹_›
    · rename_i w8 w9
      assumption
  try clear_value x1
  extract_lets +onlyGivenNames x10
  have h11 : Good og (x10) := by
    subst x10
    refine good_ite ?_ ?_
    · exact State.dropChain_good ‹_›
    · assumption
  try clear_value x10
  extract_lets +onlyGivenNames x12
  have h13 : Good og (x12) := by subst x12; exact State.count_good (State.setEvent_good ‹_›)
  try clear_value x12
  refine good_ite ?_ ?_
  · exact State.abortStep_good ‹_›
  · assumption

theorem State.arrFault_good {og : Origin} {a1 : State} {a2 : ArrOp} {a3 : Stop} (h1 : Good og (a1)) :
    Good og (@State.arrFault a1 a2 a3) := by
  unfold State.arrFault
  exact State.arrFaulted_good (State.arrEnd_good (State.count_good ‹_›))

theorem State.arrSample_good {og : Origin} {a1 : State} {a2 : ArrOp} (h1 : Good og (a1)) :
    Good og (@State.arrSample a1 a2) := by
  unfold State.arrSample
  extract_lets +onlyGivenNames x1; try clear_value x1
  refine good_ite ?_ ?_
  · assumption
  · exact State.countBlocks_good ‹_›

theorem State.arrWord_good {og : Origin} {a1 : State} (h1 : Good og (a1)) :
    Good og (@State.arrWord a1) := by
  unfold State.arrWord
  split
  · rename_i w1 w2
    assumption
  · rename_i w3 w4 w5
    extract_lets +onlyGivenNames x6; try clear_value x6
    split
    · rename_i w7 w8 w9 w10
      have h11 : Good og w8 := by
        refine good_fst w10 ?_
        refine good_ite_fst ?_ ?_
        · exact good_pair ‹_›
        · split
          · rename_i w12 w13 w14 w15
            have h16 : Good og w13 := good_fst w15 (State.storeSpan_good (State.drawn_good ‹_›))
            exact good_pair ‹_›
          · rename_i w17 w18 w19 w20 w21 w22
            have h23 : Good og w18 := good_fst w22 (State.storeSpan_good (State.drawn_good ‹_›))
            refine good_ite_fst ?_ ?_
            · exact good_pair (State.arrFaulted_good ‹_›)
            · exact good_pair ‹_›
      extract_lets +onlyGivenNames x24
      have h25 : Good og (x24) := by
        subst x24
        refine good_ite ?_ ?_
        · exact State.arrSample_good ‹_›
        · assumption
      try clear_value x24
      extract_lets +onlyGivenNames x26; try clear_value x26
      extract_lets +onlyGivenNames x27
      have h28 : Good og (x27) := by subst x27; exact State.setArr_good ‹_›
      try clear_value x27
      exact State.send_good ‹_›

theorem execCompletionWordAccepted_good {og : Origin} {a1 : State} (h1 : Good og (a1)) :
    GoodOut og (@execCompletionWordAccepted a1) := by
  unfold execCompletionWordAccepted
  exact goodOut_next (State.arrWord_good ‹_›)

theorem State.arrChecks_good {og : Origin} {a1 : State} {a2 : ArrOp} (h1 : Good og (a1)) :
    Good og (@State.arrChecks a1 a2).1 := by
  unfold State.arrChecks
  extract_lets +onlyGivenNames x1; try clear_value x1
  extract_lets +onlyGivenNames x2; try clear_value x2
  refine good_ite_fst ?_ ?_
  · exact good_pair ‹_›
  · refine good_ite_fst ?_ ?_
    · exact good_pair ‹_›
    · refine good_ite_fst ?_ ?_
      · exact good_pair ‹_›
      · extract_lets +onlyGivenNames x3
        try clear_value x3
        refine good_ite_fst ?_ ?_
        · exact good_pair ‹_›
        · refine good_ite_fst ?_ ?_
          · exact good_pair ‹_›
          · extract_lets +onlyGivenNames x4
            try clear_value x4
            extract_lets +onlyGivenNames x5; try clear_value x5
            split
            · rename_i w6 w7 w8 w9 w10 w11
              have h12 : Good og w7 := good_fst w11 (State.checkSpans_good ‹_›)
              exact good_pair ‹_›
            · rename_i w13 w14 w15
              have h16 : Good og w14 := good_fst w15 (State.checkSpans_good ‹_›)
              split
              · rename_i w17 w18 w19 w20 w21 w22
                have h23 : Good og w18 := good_fst w22 (State.checkSpans_good ‹_›)
                exact good_pair ‹_›
              · rename_i w24 w25 w26
                have h27 : Good og w25 := good_fst w26 (State.checkSpans_good ‹_›)
                refine good_ite_fst ?_ ?_
                · exact good_pair ‹_›
                · split
                  · rename_i w28 w29 w30 w31 w32
                    have h33 : Good og w29 := good_fst w32 (State.checkSpans_good ‹_›)
                    exact good_pair ‹_›
                  · rename_i w34 w35 w36 w37 w38
                    have h39 : Good og w35 := good_fst w38 (State.checkSpans_good ‹_›)
                    exact good_pair ‹_›

theorem State.readTiles_good {og : Origin} {a1 : State} {a2 : ArrOp} (h1 : Good og (a1)) :
    Good og (@State.readTiles a1 a2).1 := by
  unfold State.readTiles
  extract_lets +onlyGivenNames x1; try clear_value x1
  refine good_ite_fst ?_ ?_
  · split
    · rename_i w2 w3 w4 w5
      have h6 : Good og w3 := good_fst w5 (State.fetchVecs_good ‹_›)
      exact good_pair ‹_›
    · rename_i w7 w8 w9 w10
      have h11 : Good og w8 := good_fst w10 (State.fetchVecs_good ‹_›)
      refine good_ite_fst ?_ ?_
      · exact good_pair ‹_›
      · exact good_pair ‹_›
  · exact good_pair ‹_›

theorem State.chooseOp_good {og : Origin} {a1 : State} {a2 : ArrOp} (h1 : Good og (a1)) :
    Good og (@State.chooseOp a1 a2) := by
  unfold State.chooseOp
  exact State.setArr_good ‹_›

theorem State.arrBegin_good {og : Origin} {a1 : State} {a2 : ArrOp} (h1 : Good og (a1)) :
    Good og (@State.arrBegin a1 a2) := by
  unfold State.arrBegin
  extract_lets +onlyGivenNames x1; try clear_value x1
  extract_lets +onlyGivenNames x2; try clear_value x2
  extract_lets +onlyGivenNames x3
  have h4 : Good og (x3) := by subst x3; exact State.passArr_good ‹_›
  try clear_value x3
  extract_lets +onlyGivenNames x5; try clear_value x5
  split
  · rename_i w6 w7 w8 w9
    have h10 : Good og w7 := by
      refine good_fst w9 ?_
      refine good_ite_fst ?_ ?_
      · exact State.claim_good ‹_›
      · exact good_pair ‹_›
    split
    · rename_i w11 w12 w13 w14
      have h15 : Good og w12 := good_fst w14 (State.readTiles_good ‹_›)
      split
      · rename_i w16 w17
        exact State.arrFault_good ‹_›
      · rename_i w18 w19
        extract_lets +onlyGivenNames x20; try clear_value x20
        extract_lets +onlyGivenNames x21; try clear_value x21
        extract_lets +onlyGivenNames x22
        have h23 : Good og (x22) := by
          subst x22
          refine good_ite ?_ ?_
          · exact State.dropChain_good ‹_›
          · assumption
        try clear_value x22
        extract_lets +onlyGivenNames x24
        have h25 : Good og (x24) := by subst x24; exact State.drawn_good (State.count_good ‹_›)
        try clear_value x24
        extract_lets +onlyGivenNames x26
        have h27 : Good og (x26) := by subst x26; exact State.wr_good ‹_›
        try clear_value x26
        exact State.modOp_good ‹_›

theorem State.opStart_good {og : Origin} {a1 : State} (h1 : Good og (a1)) :
    Good og (@State.opStart a1) := by
  unfold State.opStart
  refine good_ite ?_ ?_
  · assumption
  · split
    · rename_i w1 w2
      assumption
    · rename_i w3 w4 w5
      split
      · rename_i w6 w7
        assumption
      · rename_i w8 w9 w10
        split
        · rename_i w11 w12 w13 w14
          have h15 : Good og w12 := good_fst w14 (State.arrChecks_good (State.chooseOp_good ‹_›))
          exact State.arrFault_good ‹_›
        · rename_i w16 w17 w18
          have h19 : Good og w17 := good_fst w18 (State.arrChecks_good (State.chooseOp_good ‹_›))
          exact State.arrBegin_good ‹_›

theorem execOperationStart_good {og : Origin} {a1 : State} (h1 : Good og (a1)) :
    GoodOut og (@execOperationStart a1) := by
  unfold execOperationStart
  refine goodOut_next ?_
  refine good_ite ?_ ?_
  · assumption
  · exact State.opStart_good ‹_›

theorem State.fillBank_good {og : Origin} {a1 : State} (h1 : Good og (a1)) :
    Good og (@State.fillBank a1) := by
  unfold State.fillBank
  split
  · rename_i w1 w2
    assumption
  · rename_i w3 w4 w5
    split
    · rename_i w6 w7
      assumption
    · rename_i w8 w9 w10
      split
      · rename_i w11 w12 w13 w14
        have h15 : Good og w12 := good_fst w14 (State.fetchVecs_good ‹_›)
        exact State.arrFault_good ‹_›
      · rename_i w16 w17 w18 w19
        have h20 : Good og w17 := good_fst w19 (State.fetchVecs_good ‹_›)
        extract_lets +onlyGivenNames x21; try clear_value x21
        exact State.modOp_good ‹_›

theorem execChainFillEnd_good {og : Origin} {a1 : State} (h1 : Good og (a1)) :
    GoodOut og (@execChainFillEnd a1) := by
  unfold execChainFillEnd
  refine goodOut_next ?_
  refine good_ite ?_ ?_
  · assumption
  · exact State.fillBank_good ‹_›

theorem State.countRun_good {og : Origin} {a1 : State} {a2 : List Byte} {a3 : Nat} (h1 : Good og (a1)) :
    Good og (@State.countRun a1 a2 a3) := by
  unfold State.countRun
  extract_lets +onlyGivenNames x1; try clear_value x1
  extract_lets +onlyGivenNames x2; try clear_value x2
  extract_lets +onlyGivenNames x3; try clear_value x3
  extract_lets +onlyGivenNames x4; try clear_value x4
  extract_lets +onlyGivenNames x5
  have h6 : Good og (x5) := by
    subst x5
    refine good_ite ?_ ?_
    · assumption
    · exact State.drawn_good ‹_›
  try clear_value x5
  extract_lets +onlyGivenNames x7
  have h8 : Good og (x7) := by subst x7; exact State.count_good (State.count_good ‹_›)
  try clear_value x7
  extract_lets +onlyGivenNames x9
  have h10 : Good og (x9) := by subst x9; exact State.setReg_good ‹_›
  try clear_value x9
  extract_lets +onlyGivenNames x11
  have h12 : Good og (x11).1 := by
    subst x11
    refine good_foldl_fst ?_ (fun s13 y14 h15 => ?_)
    · exact good_pair ‹_›
    · extract_lets +onlyGivenNames x16
      try clear_value x16
      exact good_pair (State.drawn_good (State.count_good ‹_›))
  try clear_value x11
  extract_lets +onlyGivenNames x17
  have h18 : Good og (x17) := by
    subst x17
    refine good_ite ?_ ?_
    · assumption
    · exact State.count_good ‹_›
  try clear_value x17
  refine good_ite ?_ ?_
  · assumption
  · refine good_foldl ?_ (fun s19 y20 h21 => ?_)
    · assumption
    · exact State.count_good ‹_›

theorem State.operands_good {og : Origin} {a1 : State} (h1 : Good og (a1)) :
    Good og (@State.operands a1) := by
  unfold State.operands
  split
  · rename_i w1 w2
    assumption
  · rename_i w3 w4 w5
    refine good_ite ?_ ?_
    · assumption
    · split
      · rename_i w6 w7 w8 w9
        have h10 : Good og w7 := good_fst w9 (State.readProblems_good ‹_›)
        exact State.arrFault_good ‹_›
      · rename_i w11 w12 w13 w14
        have h15 : Good og w12 := good_fst w14 (State.readProblems_good ‹_›)
        exact State.modOp_good (State.countRun_good ‹_›)

theorem execArrayOperandArrival_good {og : Origin} {a1 : State} (h1 : Good og (a1)) :
    GoodOut og (@execArrayOperandArrival a1) := by
  unfold execArrayOperandArrival
  refine goodOut_next ?_
  refine good_ite ?_ ?_
  · assumption
  · exact State.operands_good ‹_›

theorem State.tailEnd_good {og : Origin} {a1 : State} (h1 : Good og (a1)) :
    Good og (@State.tailEnd a1) := by
  unfold State.tailEnd
  split
  · rename_i w1 w2
    assumption
  · rename_i w3 w4 w5
    refine good_ite ?_ ?_
    · extract_lets +onlyGivenNames x6
      have h7 : Good og (x6) := by subst x6; exact State.count_good (State.dropChain_good ‹_›)
      try clear_value x6
      extract_lets +onlyGivenNames x8; try clear_value x8
      extract_lets +onlyGivenNames x9
      have h10 : Good og (x9) := by subst x9; exact State.setArr_good ‹_›
      try clear_value x9
      exact State.arrEnd_good ‹_›
    · extract_lets +onlyGivenNames x11
      try clear_value x11
      extract_lets +onlyGivenNames x12
      have h13 : Good og (x12) := by subst x12; exact State.setArr_good ‹_›
      try clear_value x12
      exact State.modOp_good ‹_›

theorem execCellTailEnd_good {og : Origin} {a1 : State} (h1 : Good og (a1)) :
    GoodOut og (@execCellTailEnd a1) := by
  unfold execCellTailEnd
  refine goodOut_next ?_
  refine good_ite ?_ ?_
  · assumption
  · exact State.tailEnd_good ‹_›

theorem State.markClash_good {og : Origin} {a1 : State} {a2 : Nat} {a3 : List (Nat × Nat)} (h1 : Good og (a1)) :
    Good og (@State.markClash a1 a2 a3) := by
  unfold State.markClash
  exact good_mk ‹_› rfl rfl rfl rfl rfl rfl rfl

theorem State.drainStart_good {og : Origin} {a1 : State} (h1 : Good og (a1)) :
    Good og (@State.drainStart a1) := by
  unfold State.drainStart
  split
  · rename_i w1 w2 w3
    refine good_ite ?_ ?_
    · extract_lets +onlyGivenNames x4
      try clear_value x4
      extract_lets +onlyGivenNames x5; try clear_value x5
      exact State.modOp_good (State.markClash_good ‹_›)
    · assumption
  · rename_i w6 w7
    assumption

theorem execDrainStart_good {og : Origin} {a1 : State} (h1 : Good og (a1)) :
    GoodOut og (@execDrainStart a1) := by
  unfold execDrainStart
  refine goodOut_next ?_
  refine good_ite ?_ ?_
  · assumption
  · exact State.drainStart_good ‹_›

theorem State.spoil_good {og : Origin} {a1 : State} {a2 : ArrOp} (h1 : Good og (a1)) :
    Good og (@State.spoil a1 a2) := by
  unfold State.spoil
  extract_lets +onlyGivenNames x1; try clear_value x1
  exact State.scribble_good ‹_›

theorem State.reportDrain_good {og : Origin} {a1 : State} {a2 : ArrOp} {a3 : List (DrainOut × List Nat)} (h1 : Good og (a1)) :
    Good og (@State.reportDrain a1 a2 a3) := by
  unfold State.reportDrain
  extract_lets +onlyGivenNames x1; try clear_value x1
  refine good_ite ?_ ?_
  · assumption
  · refine good_foldl ?_ (fun s2 y3 h4 => ?_)
    · assumption
    · split
      · rename_i w5 w6 w7 w8 w9 w10
        exact State.reportAmax_good ‹_›
      · rename_i w11 w12 w13
        assumption

theorem State.drainEnd_good {og : Origin} {a1 : State} (h1 : Good og (a1)) :
    Good og (@State.drainEnd a1) := by
  unfold State.drainEnd
  split
  · rename_i w1 w2
    assumption
  · rename_i w3 w4 w5
    refine good_ite ?_ ?_
    · assumption
    · split
      · rename_i w6 w7 w8 w9
        have h10 : Good og w7 := good_fst w9 (State.drainProblems_good ‹_›)
        exact State.arrFault_good (State.spoil_good ‹_›)
      · rename_i w11 w12 w13 w14
        have h15 : Good og w12 := good_fst w14 (State.drainProblems_good ‹_›)
        extract_lets +onlyGivenNames x16
        have h17 : Good og (x16) := by
          subst x16
          refine good_ite ?_ ?_
          · exact State.scribble_good ‹_›
          · assumption
        try clear_value x16
        extract_lets +onlyGivenNames x18
        have h19 : Good og (x18) := by subst x18; exact State.count_good (State.count_good ‹_›)
        try clear_value x18
        extract_lets +onlyGivenNames x20
        have h21 : Good og (x20) := by subst x20; exact State.arrEnd_good (State.reportDrain_good ‹_›)
        try clear_value x20
        exact State.modOp_good ‹_›

theorem execDrainEnd_good {og : Origin} {a1 : State} (h1 : Good og (a1)) :
    GoodOut og (@execDrainEnd a1) := by
  unfold execDrainEnd
  refine goodOut_next ?_
  refine good_ite ?_ ?_
  · assumption
  · exact State.drainEnd_good ‹_›

theorem State.chainWait_good {og : Origin} {a1 : State} (h1 : Good og (a1)) :
    Good og (@State.chainWait a1) := by
  unfold State.chainWait
  split
  · rename_i w1 w2
    assumption
  · rename_i w3 w4 w5
    refine good_ite ?_ ?_
    · exact State.count_good (State.setEvent_good (State.dropChain_good ‹_›))
    · exact State.setArr_good ‹_›

theorem execChainWaitExpiry_good {og : Origin} {a1 : State} (h1 : Good og (a1)) :
    GoodOut og (@execChainWaitExpiry a1) := by
  unfold execChainWaitExpiry
  refine goodOut_next ?_
  refine good_ite ?_ ?_
  · assumption
  · exact State.chainWait_good ‹_›

theorem State.spillEnd_good {og : Origin} {a1 : State} (h1 : Good og (a1)) :
    Good og (@State.spillEnd a1) := by
  unfold State.spillEnd
  split
  · rename_i w1 w2 w3 w4 w5
    extract_lets +onlyGivenNames x6; try clear_value x6
    extract_lets +onlyGivenNames x7
    have h8 : Good og (x7) := by subst x7; exact State.setArr_good ‹_›
    try clear_value x7
    split
    · rename_i w9 w10
      assumption
    · rename_i w11 w12 w13
      split
      · rename_i w14 w15 w16 w17 w18 w19
        have h20 : Good og w15 := good_fst w19 (State.storeSpan_good ‹_›)
        exact State.count_good (State.setEvent_good (State.dropChain_good (State.memFault_good ‹_›)))
      · rename_i w21 w22 w23 w24
        have h25 : Good og w22 := good_fst w24 (State.storeSpan_good ‹_›)
        extract_lets +onlyGivenNames x26; try clear_value x26
        extract_lets +onlyGivenNames x27
        have h28 : Good og (x27) := by subst x27; exact State.setArr_good ‹_›
        try clear_value x27
        exact State.count_good (State.setEvent_good ‹_›)
  · rename_i w29 w30
    assumption

theorem execChainSpillEnd_good {og : Origin} {a1 : State} (h1 : Good og (a1)) :
    GoodOut og (@execChainSpillEnd a1) := by
  unfold execChainSpillEnd
  refine goodOut_next ?_
  refine good_ite ?_ ?_
  · assumption
  · exact State.spillEnd_good ‹_›

theorem State.arrAbort_good {og : Origin} {a1 : State} {a2 : ArrOp} (h1 : Good og (a1)) :
    Good og (@State.arrAbort a1 a2) := by
  unfold State.arrAbort
  refine good_ite ?_ ?_
  · extract_lets +onlyGivenNames x1
    have h2 : Good og (x1) := by
      subst x1
      refine good_ite ?_ ?_
      · exact State.spoil_good ‹_›
      · assumption
    try clear_value x1
    extract_lets +onlyGivenNames x3
    have h4 : Good og (x3) := by
      subst x3
      refine good_ite ?_ ?_
      · exact State.dropChain_good ‹_›
      · assumption
    try clear_value x3
    exact State.modOp_good ‹_›
  · extract_lets +onlyGivenNames x5
    have h6 : Good og (x5) := by
      subst x5
      refine good_ite ?_ ?_
      · exact State.spoil_good ‹_›
      · assumption
    try clear_value x5
    extract_lets +onlyGivenNames x7
    have h8 : Good og (x7) := by
      subst x7
      refine good_ite ?_ ?_
      · exact State.dropChain_good ‹_›
      · assumption
    try clear_value x7
    exact State.arrEnd_good (State.count_good ‹_›)

theorem State.arrAbortLaunch_good {og : Origin} {a1 : State} {a2 : Nat} (h1 : Good og (a1)) :
    Good og (@State.arrAbortLaunch a1 a2) := by
  unfold State.arrAbortLaunch
  refine good_foldl ?_ (fun s1 y2 h3 => ?_)
  · assumption
  · exact State.arrAbort_good ‹_›

theorem State.arrReset_good {og : Origin} {a1 : State} {a2 : Nat} (h1 : Good og (a1)) :
    Good og (@State.arrReset a1 a2) := by
  unfold State.arrReset
  extract_lets +onlyGivenNames x1
  have h2 : Good og (x1) := by
    subst x1
    refine good_foldl ?_ (fun s3 y4 h5 => ?_)
    · assumption
    · exact State.arrAbort_good ‹_›
  try clear_value x1
  extract_lets +onlyGivenNames x6; try clear_value x6
  extract_lets +onlyGivenNames x7
  have h8 : Good og (x7) := by subst x7; exact State.setArr_good ‹_›
  try clear_value x7
  extract_lets +onlyGivenNames x9; try clear_value x9
  extract_lets +onlyGivenNames x10
  have h11 : Good og (x10) := by subst x10; exact good_mk ‹_› rfl rfl rfl rfl rfl rfl rfl
  try clear_value x10
  exact State.setReg_good (State.setReg_good ‹_›)

end Sys2Proof.Machine
end

