-- ==== Sys2Proof/Laws/Keep/Spindle.lean ====
section
/-! SUPPORT. What the operations of Machine/Spindle.lean keep. -/

namespace Sys2Proof.Machine

theorem State.showSpn_good {og : Origin} {a1 : State} (h1 : Good og (a1)) :
    Good og (@State.showSpn a1) := by
  unfold State.showSpn
  extract_lets +onlyGivenNames x1
  have h2 : Good og (x1) := by subst x1; exact State.wr_good ‹_›
  try clear_value x1
  extract_lets +onlyGivenNames x3
  have h4 : Good og (x3) := by subst x3; exact State.wr_good ‹_›
  try clear_value x3
  extract_lets +onlyGivenNames x5
  have h6 : Good og (x5) := by subst x5; exact State.wr_good ‹_›
  try clear_value x5
  refine good_foldl ?_ (fun s7 y8 h9 => ?_)
  · assumption
  · exact State.wr_good ‹_›

theorem State.setSpn_good {og : Origin} {a1 : State} {a2 : Spindle} (h1 : Good og (a1)) :
    Good og (@State.setSpn a1 a2) := by
  unfold State.setSpn
  exact State.showSpn_good (good_mk ‹_› rfl rfl rfl rfl rfl rfl rfl)

theorem State.modRow_good {og : Origin} {a1 : State} {a2 : Nat} {a3 : Nat} {a4 : RowOp → RowOp} (h1 : Good og (a1)) :
    Good og (@State.modRow a1 a2 a3 a4) := by
  unfold State.modRow
  exact State.setSpn_good ‹_›

theorem State.spnReady_good {og : Origin} {a1 : State} (h1 : Good og (a1)) :
    Good og (@State.spnReady a1) := by
  unfold State.spnReady
  refine good_ite ?_ ?_
  · assumption
  · exact State.wr_good ‹_›

theorem execSpindleReady_good {og : Origin} {a1 : State} (h1 : Good og (a1)) :
    GoodOut og (@execSpindleReady a1) := by
  unfold execSpindleReady
  exact goodOut_next (State.spnReady_good ‹_›)

theorem State.rowAccept_good {og : Origin} {a1 : State} (h1 : Good og (a1)) :
    Good og (@State.rowAccept a1) := by
  unfold State.rowAccept
  extract_lets +onlyGivenNames x1
  have h2 : Good og (x1) := by subst x1; exact State.passMarkers_good ‹_›
  try clear_value x1
  split
  · rename_i w3 w4 w5 w6 w7 w8 w9 w10 w11 w12
    extract_lets +onlyGivenNames x13
    have h14 : Good og (x13) := by subst x13; exact State.popMsg_good ‹_›
    try clear_value x13
    extract_lets +onlyGivenNames x15; try clear_value x15
    refine good_ite ?_ ?_
    · exact State.answerIssue_good ‹_›
    · split
      · rename_i w16 w17
        exact State.answerIssue_good ‹_›
      · rename_i w18 w19 w20
        extract_lets +onlyGivenNames x21; try clear_value x21
        extract_lets +onlyGivenNames x22; try clear_value x22
        extract_lets +onlyGivenNames x23; try clear_value x23
        extract_lets +onlyGivenNames x24
        have h25 : Good og (x24) := by subst x24; exact State.setSpn_good ‹_›
        try clear_value x24
        exact State.answerIssue_good (State.takeToken_good ‹_›)
  · rename_i w26 w27
    assumption

theorem execRowDescriptorAccept_good {og : Origin} {a1 : State} (h1 : Good og (a1)) :
    GoodOut og (@execRowDescriptorAccept a1) := by
  unfold execRowDescriptorAccept
  exact goodOut_next (State.rowAccept_good ‹_›)

theorem State.takePage_good {og : Origin} {a1 : State} {a2 : Nat} {a3 : Nat} {a4 : Nat} (h1 : Good og (a1)) :
    Good og (@State.takePage a1 a2 a3 a4).1 := by
  unfold State.takePage
  refine good_ite_fst ?_ ?_
  · exact good_pair ‹_›
  · refine good_ite_fst ?_ ?_
    · exact good_pair (State.setSpn_good ‹_›)
    · exact good_pair ‹_›

theorem State.putStat_good {og : Origin} {a1 : State} {a2 : Nat} {a3 : StatEntry} (h1 : Good og (a1)) :
    Good og (@State.putStat a1 a2 a3) := by
  unfold State.putStat
  exact State.setSpn_good ‹_›

theorem State.freePages_good {og : Origin} {a1 : State} {a2 : Nat} {a3 : Option Nat} (h1 : Good og (a1)) :
    Good og (@State.freePages a1 a2 a3) := by
  unfold State.freePages
  exact State.setSpn_good ‹_›

theorem State.rowFault_good {og : Origin} {a1 : State} {a2 : RowOp} {a3 : Nat} {a4 : Stop} (h1 : Good og (a1)) :
    Good og (@State.rowFault a1 a2 a3 a4) := by
  unfold State.rowFault
  extract_lets +onlyGivenNames x1
  have h2 : Good og (x1) := by
    subst x1
    split
    · rename_i w3 w4 w5 w6 w7
      exact State.memFault_good ‹_›
    · rename_i w8 w9
      assumption
  try clear_value x1
  extract_lets +onlyGivenNames x10
  have h11 : Good og (x10) := by
    subst x10
    refine good_ite ?_ ?_
    · assumption
    · exact State.scribble_good ‹_›
  try clear_value x10
  extract_lets +onlyGivenNames x12
  have h13 : Good og (x12) := by subst x12; exact State.modRow_good (State.setEvent_good ‹_›)
  try clear_value x12
  refine good_ite ?_ ?_
  · exact State.abortStep_good ‹_›
  · assumption

theorem State.rowWord_good {og : Origin} {a1 : State} {a2 : RowOp} {a3 : Nat} (h1 : Good og (a1)) :
    Good og (@State.rowWord a1 a2 a3) := by
  unfold State.rowWord
  extract_lets +onlyGivenNames x1; try clear_value x1
  split
  · rename_i w2 w3 w4 w5
    have h6 : Good og w3 := by
      refine good_fst w5 ?_
      refine good_ite_fst ?_ ?_
      · exact good_pair ‹_›
      · split
        · rename_i w7 w8 w9 w10
          have h11 : Good og w8 := good_fst w10 (State.storeSpan_good (State.drawn_good ‹_›))
          exact good_pair ‹_›
        · rename_i w12 w13 w14 w15 w16 w17
          have h18 : Good og w13 := good_fst w17 (State.storeSpan_good (State.drawn_good ‹_›))
          refine good_ite_fst ?_ ?_
          · exact good_pair (State.setEvent_good (State.memFault_good ‹_›))
          · exact good_pair ‹_›
    extract_lets +onlyGivenNames x19; try clear_value x19
    extract_lets +onlyGivenNames x20
    have h21 : Good og (x20) := by subst x20; exact State.setSpn_good ‹_›
    try clear_value x20
    exact State.send_good ‹_›

theorem State.rowChecks_good {og : Origin} {a1 : State} {a2 : RowOp} (h1 : Good og (a1)) :
    Good og (@State.rowChecks a1 a2).1 := by
  unfold State.rowChecks
  extract_lets +onlyGivenNames x1; try clear_value x1
  refine good_ite_fst ?_ ?_
  · exact good_pair ‹_›
  · refine good_ite_fst ?_ ?_
    · exact good_pair ‹_›
    · refine good_ite_fst ?_ ?_
      · exact good_pair ‹_›
      · split
        · rename_i w2 w3 w4 w5 w6 w7
          have h8 : Good og w3 := good_fst w7 (State.checkSpans_good ‹_›)
          exact good_pair ‹_›
        · rename_i w9 w10 w11
          have h12 : Good og w10 := good_fst w11 (State.checkSpans_good ‹_›)
          extract_lets +onlyGivenNames x13; try clear_value x13
          split
          · rename_i w14 w15 w16 w17 w18 w19
            have h20 : Good og w15 := good_fst w19 (State.checkSpans_good ‹_›)
            exact good_pair ‹_›
          · rename_i w21 w22 w23
            have h24 : Good og w22 := good_fst w23 (State.checkSpans_good ‹_›)
            exact good_pair ‹_›

theorem State.rowStart_good {og : Origin} {a1 : State} {a2 : Nat} (h1 : Good og (a1)) :
    Good og (@State.rowStart a1 a2) := by
  unfold State.rowStart
  split
  · rename_i w1 w2
    assumption
  · rename_i w3 w4 w5
    refine good_ite ?_ ?_
    · assumption
    · split
      · rename_i w6 w7 w8 w9
        have h10 : Good og w7 := good_fst w9 (State.rowChecks_good ‹_›)
        exact State.rowFault_good ‹_›
      · rename_i w11 w12 w13
        have h14 : Good og w12 := good_fst w13 (State.rowChecks_good ‹_›)
        extract_lets +onlyGivenNames x15; try clear_value x15
        refine good_ite ?_ ?_
        · exact State.modRow_good (State.freePages_good ‹_›)
        · split
          · rename_i w16 w17 w18 w19
            have h20 : Good og w17 := by
              refine good_fst w19 ?_
              refine good_ite_fst ?_ ?_
              · exact State.claim_good ‹_›
              · exact good_pair ‹_›
            extract_lets +onlyGivenNames x21; try clear_value x21
            exact State.modRow_good ‹_›

theorem execRowOperationStart_good {og : Origin} {a1 : TenantId} {a2 : State} (h2 : Good og (a2)) :
    GoodOut og (@execRowOperationStart a1 a2) := by
  unfold execRowOperationStart
  exact goodOut_next (State.rowStart_good ‹_›)

theorem State.chunkTranslate_good {og : Origin} {a1 : State} {a2 : RowOp} {a3 : Nat} {a4 : Nat} (h1 : Good og (a1)) :
    Good og (@State.chunkTranslate a1 a2 a3 a4).1 := by
  unfold State.chunkTranslate
  extract_lets +onlyGivenNames x1; try clear_value x1
  extract_lets +onlyGivenNames x2; try clear_value x2
  extract_lets +onlyGivenNames x3
  have h4 : Good og (x3) := by subst x3; exact State.passMarkers_good ‹_›
  try clear_value x3
  split
  · rename_i w5 w6 w7 w8 w9 w10
    have h11 : Good og w6 := good_fst w10 (State.checkSpans_good ‹_›)
    exact good_pair ‹_›
  · rename_i w12 w13 w14
    have h15 : Good og w13 := good_fst w14 (State.checkSpans_good ‹_›)
    split
    · rename_i w16 w17 w18 w19 w20 w21
      have h22 : Good og w17 := good_fst w21 (State.checkSpans_good ‹_›)
      exact good_pair ‹_›
    · rename_i w23 w24 w25
      have h26 : Good og w24 := good_fst w25 (State.checkSpans_good ‹_›)
      exact good_pair ‹_›

theorem State.chunkStart_good {og : Origin} {a1 : State} {a2 : Nat} (h1 : Good og (a1)) :
    Good og (@State.chunkStart a1 a2) := by
  unfold State.chunkStart
  refine good_ite ?_ ?_
  · assumption
  · split
    · rename_i w1 w2
      assumption
    · rename_i w3 w4 w5
      extract_lets +onlyGivenNames x6; try clear_value x6
      refine good_ite ?_ ?_
      · exact State.rowFault_good (State.count_good (State.setEvent_good ‹_›))
      · split
        · rename_i w7 w8
          assumption
        · rename_i w9 w10 w11
          extract_lets +onlyGivenNames x12; try clear_value x12
          extract_lets +onlyGivenNames x13; try clear_value x13
          extract_lets +onlyGivenNames x14
          have h15 : Good og (x14) := by subst x14; exact State.modRow_good (State.markClash_good ‹_›)
          try clear_value x14
          split
          · rename_i w16 w17 w18 w19
            have h20 : Good og w17 := good_fst w19 (State.chunkTranslate_good ‹_›)
            exact State.rowFault_good ‹_›
          · rename_i w21 w22 w23
            have h24 : Good og w22 := good_fst w23 (State.chunkTranslate_good ‹_›)
            exact State.setSpn_good ‹_›

theorem execRowChunkStart_good {og : Origin} {a1 : QuadId} {a2 : State} (h2 : Good og (a2)) :
    GoodOut og (@execRowChunkStart a1 a2) := by
  unfold execRowChunkStart
  exact goodOut_next (State.chunkStart_good ‹_›)

theorem State.fetchGroups_good {og : Origin} {a1 : State} {a2 : Nat} {a3 : Nat} {a4 : Nat} {a5 : List (List (Nat × Nat))} (h1 : Good og (a1)) :
    Good og (@State.fetchGroups a1 a2 a3 a4 a5).1 := by
  induction a5 generalizing a1 with
  | nil =>
    rw [State.fetchGroups]
    exact good_pair ‹_›
  | cons x xs ih =>
    rw [State.fetchGroups]
    split
    · rename_i w1 w2 w3 w4
      have h5 : Good og w2 := good_fst w4 (State.fetchVecs_good ‹_›)
      exact good_pair ‹_›
    · rename_i w6 w7 w8 w9
      have h10 : Good og w7 := good_fst w9 (State.fetchVecs_good ‹_›)
      split
      · rename_i w11 w12 w13 w14
        have h15 : Good og w12 := good_fst w14 (ih ‹_›)
        exact good_pair ‹_›
      · rename_i w16 w17
        exact ih ‹_›

theorem State.storeSums_good {og : Origin} {a1 : State} {a2 : Nat} {a3 : RowOp} {a4 : Nat} {a5 : List Nat} (h1 : Good og (a1)) :
    Good og (@State.storeSums a1 a2 a3 a4 a5).1 := by
  unfold State.storeSums
  extract_lets +onlyGivenNames x1; try clear_value x1
  split
  · rename_i w2 w3 w4 w5 w6 w7
    have h8 : Good og w3 := good_fst w7 (State.translateSpan_good ‹_›)
    exact good_pair ‹_›
  · rename_i w9 w10 w11 w12
    have h13 : Good og w10 := good_fst w12 (State.translateSpan_good ‹_›)
    extract_lets +onlyGivenNames x14; try clear_value x14
    refine good_pair ?_
    refine State.modRow_good ?_
    refine good_foldl ?_ (fun s15 y16 h17 => ?_)
    · assumption
    · exact State.sendRed_good ‹_›

theorem State.keepStat_good {og : Origin} {a1 : State} {a2 : RowOp} {a3 : Nat} {a4 : Nat} {a5 : Nat × Nat} (h1 : Good og (a1)) :
    Good og (@State.keepStat a1 a2 a3 a4 a5).1 := by
  unfold State.keepStat
  extract_lets +onlyGivenNames x1; try clear_value x1
  extract_lets +onlyGivenNames x2; try clear_value x2
  split
  · rename_i w3 w4 w5 w6
    have h7 : Good og w4 := good_fst w6 (State.takePage_good ‹_›)
    extract_lets +onlyGivenNames x8
    have h9 : Good og (x8) := by
      subst x8
      refine good_ite ?_ ?_
      · exact State.putStat_good ‹_›
      · assumption
    try clear_value x8
    refine good_ite_fst ?_ ?_
    · split
      · rename_i w10 w11 w12 w13 w14 w15
        have h16 : Good og w11 := good_fst w15 (State.storeSpan_good ‹_›)
        exact good_pair ‹_›
      · rename_i w17 w18 w19 w20
        have h21 : Good og w18 := good_fst w20 (State.storeSpan_good ‹_›)
        refine good_ite_fst ?_ ?_
        · exact good_pair ‹_›
        · exact good_pair (State.modRow_good (State.count_good (State.setEvent_good ‹_›)))
    · refine good_ite_fst ?_ ?_
      · exact good_pair ‹_›
      · exact good_pair (State.modRow_good (State.setEvent_good ‹_›))

theorem State.keepStats_good {og : Origin} {a1 : State} {a2 : RowOp} {a3 : Nat} {a4 : List (Nat × Nat × Nat)} (h1 : Good og (a1)) :
    Good og (@State.keepStats a1 a2 a3 a4).1 := by
  induction a4 generalizing a1 with
  | nil =>
    rw [State.keepStats]
    exact good_pair ‹_›
  | cons x xs ih =>
    obtain ⟨x1, x2⟩ := x
    rw [State.keepStats]
    split
    · rename_i w1 w2 w3
      have h4 : Good og w2 := good_fst w3 (State.keepStat_good ‹_›)
      exact ih ‹_›
    · rename_i w5 w6
      exact State.keepStat_good ‹_›

theorem State.chunkSums_good {og : Origin} {a1 : State} {a2 : RowOp} {a3 : Nat} {a4 : Nat} {a5 : List RowRes} (h1 : Good og (a1)) :
    Good og (@State.chunkSums a1 a2 a3 a4 a5).1 := by
  unfold State.chunkSums
  extract_lets +onlyGivenNames x1; try clear_value x1
  extract_lets +onlyGivenNames x2; try clear_value x2
  refine good_ite_fst ?_ ?_
  · extract_lets +onlyGivenNames x3
    try clear_value x3
    split
    · rename_i w4 w5 w6 w7
      have h8 : Good og w5 := good_fst w7 (State.storeSums_good ‹_›)
      exact good_pair ‹_›
    · rename_i w9 w10 w11
      have h12 : Good og w10 := good_fst w11 (State.storeSums_good ‹_›)
      exact State.storeSums_good ‹_›
  · refine good_ite_fst ?_ ?_
    · extract_lets +onlyGivenNames x13
      try clear_value x13
      extract_lets +onlyGivenNames x14; try clear_value x14
      extract_lets +onlyGivenNames x15
      have h16 : Good og (x15) := by subst x15; exact State.modRow_good ‹_›
      try clear_value x15
      extract_lets +onlyGivenNames x17
      have h18 : Good og (x17) := by
        subst x17
        refine good_ite ?_ ?_
        · exact State.sendPoison_good ‹_›
        · assumption
      try clear_value x17
      split
      · rename_i w19 w20 w21 w22
        have h23 : Good og w20 := good_fst w22 (State.storeVecs_good ‹_›)
        exact good_pair ‹_›
      · rename_i w24 w25 w26
        have h27 : Good og w25 := good_fst w26 (State.storeVecs_good ‹_›)
        exact State.storeSums_good ‹_›
    · refine good_ite_fst ?_ ?_
      · exact State.keepStats_good ‹_›
      · exact good_pair ‹_›

theorem State.chunkRun_good {og : Origin} {a1 : State} {a2 : RowOp} {a3 : Nat} {a4 : Nat} (h1 : Good og (a1)) :
    Good og (@State.chunkRun a1 a2 a3 a4).1 := by
  unfold State.chunkRun
  extract_lets +onlyGivenNames x1; try clear_value x1
  extract_lets +onlyGivenNames x2; try clear_value x2
  extract_lets +onlyGivenNames x3; try clear_value x3
  extract_lets +onlyGivenNames x4; try clear_value x4
  split
  · rename_i w5 w6 w7 w8
    have h9 : Good og w6 := good_fst w8 (State.fetchGroups_good ‹_›)
    exact good_pair ‹_›
  · rename_i w10 w11 w12 w13
    have h14 : Good og w11 := good_fst w13 (State.fetchGroups_good ‹_›)
    extract_lets +onlyGivenNames x15; try clear_value x15
    extract_lets +onlyGivenNames x16; try clear_value x16
    extract_lets +onlyGivenNames x17
    have h18 : Good og (x17) := by subst x17; exact good_mk ‹_› rfl rfl rfl rfl rfl rfl rfl
    try clear_value x17
    extract_lets +onlyGivenNames x19; try clear_value x19
    extract_lets +onlyGivenNames x20; try clear_value x20
    extract_lets +onlyGivenNames x21; try clear_value x21
    extract_lets +onlyGivenNames x22; try clear_value x22
    extract_lets +onlyGivenNames x23
    have h24 : Good og (x23) := by subst x23; exact good_mk ‹_› rfl rfl rfl rfl rfl rfl rfl
    try clear_value x23
    split
    · rename_i w25 w26 w27 w28
      have h29 : Good og w26 := good_fst w28 (State.storeVecs_good ‹_›)
      exact good_pair ‹_›
    · rename_i w30 w31 w32
      have h33 : Good og w31 := good_fst w32 (State.storeVecs_good ‹_›)
      extract_lets +onlyGivenNames x34
      have h35 : Good og (x34) := by subst x34; exact State.modRow_good ‹_›
      try clear_value x34
      exact State.chunkSums_good ‹_›

theorem State.chunkEnd_good {og : Origin} {a1 : State} {a2 : Nat} (h1 : Good og (a1)) :
    Good og (@State.chunkEnd a1 a2) := by
  unfold State.chunkEnd
  split
  · rename_i w1 w2
    assumption
  · rename_i w3 w4 w5 w6 w7
    extract_lets +onlyGivenNames x8; try clear_value x8
    extract_lets +onlyGivenNames x9
    have h10 : Good og (x9) := by subst x9; exact State.setSpn_good ‹_›
    try clear_value x9
    split
    · rename_i w11 w12
      assumption
    · rename_i w13 w14 w15
      extract_lets +onlyGivenNames x16
      have h17 : Good og (x16) := by subst x16; exact State.count_good (State.count_good ‹_›)
      try clear_value x16
      split
      · rename_i w18 w19 w20 w21
        have h22 : Good og w19 := good_fst w21 (State.chunkRun_good ‹_›)
        exact State.rowFault_good ‹_›
      · rename_i w23 w24 w25
        have h26 : Good og w24 := good_fst w25 (State.chunkRun_good ‹_›)
        exact State.modRow_good ‹_›

theorem execRowChunkEnd_good {og : Origin} {a1 : QuadId} {a2 : State} (h2 : Good og (a2)) :
    GoodOut og (@execRowChunkEnd a1 a2) := by
  unfold execRowChunkEnd
  exact goodOut_next (State.chunkEnd_good ‹_›)

theorem State.sumAnswer_good {og : Origin} {a1 : State} {a2 : Nat} {a3 : Nat} {a4 : Nat} {a5 : Nat} {a6 : Nat} (h1 : Good og (a1)) :
    Good og (@State.sumAnswer a1 a2 a3 a4 a5 a6) := by
  unfold State.sumAnswer
  split
  · rename_i w1 w2
    assumption
  · rename_i w3 w4 w5
    extract_lets +onlyGivenNames x6
    have h7 : Good og (x6) := by subst x6; exact State.modRow_good ‹_›
    try clear_value x6
    refine good_ite ?_ ?_
    · exact State.rowFault_good ‹_›
    · assumption

theorem State.rowEnd_good {og : Origin} {a1 : State} {a2 : Nat} (h1 : Good og (a1)) :
    Good og (@State.rowEnd a1 a2) := by
  unfold State.rowEnd
  split
  · rename_i w1 w2
    assumption
  · rename_i w3 w4 w5
    refine good_ite ?_ ?_
    · exact State.rowWord_good ‹_›
    · refine good_ite ?_ ?_
      · extract_lets +onlyGivenNames x6
        have h7 : Good og (x6) := by
          subst x6
          refine good_ite ?_ ?_
          · exact State.sendPoison_good ‹_›
          · assumption
        try clear_value x6
        extract_lets +onlyGivenNames x8; try clear_value x8
        split
        · rename_i w9 w10 w11 w12
          have h13 : Good og w10 := good_fst w12 (State.fetchVecs_good ‹_›)
          exact State.rowFault_good ‹_›
        · rename_i w14 w15 w16 w17
          have h18 : Good og w15 := good_fst w17 (State.fetchVecs_good ‹_›)
          split
          · rename_i w19 w20 w21 w22
            have h23 : Good og w20 := good_fst w22 (State.storeVecs_good ‹_›)
            exact State.rowFault_good ‹_›
          · rename_i w24 w25 w26
            have h27 : Good og w25 := good_fst w26 (State.storeVecs_good ‹_›)
            extract_lets +onlyGivenNames x28
            have h29 : Good og (x28) := by
              subst x28
              refine good_ite ?_ ?_
              · exact State.scribble_good ‹_›
              · assumption
            try clear_value x28
            exact State.rowWord_good ‹_›
      · assumption

theorem execRowOperationEnd_good {og : Origin} {a1 : TenantId} {a2 : State} (h2 : Good og (a2)) :
    GoodOut og (@execRowOperationEnd a1 a2) := by
  unfold execRowOperationEnd
  exact goodOut_next (State.rowEnd_good ‹_›)

theorem State.rowAbort_good {og : Origin} {a1 : State} {a2 : RowOp} (h1 : Good og (a1)) :
    Good og (@State.rowAbort a1 a2) := by
  unfold State.rowAbort
  extract_lets +onlyGivenNames x1
  have h2 : Good og (x1) := by
    subst x1
    refine good_ite ?_ ?_
    · exact State.scribble_good ‹_›
    · assumption
  try clear_value x1
  exact State.modRow_good ‹_›

theorem State.rowAbortLaunch_good {og : Origin} {a1 : State} {a2 : Nat} (h1 : Good og (a1)) :
    Good og (@State.rowAbortLaunch a1 a2) := by
  unfold State.rowAbortLaunch
  refine good_foldl ?_ (fun s1 y2 h3 => ?_)
  · assumption
  · exact State.rowAbort_good ‹_›

theorem State.rowReset_good {og : Origin} {a1 : State} {a2 : Nat} (h1 : Good og (a1)) :
    Good og (@State.rowReset a1 a2) := by
  unfold State.rowReset
  extract_lets +onlyGivenNames x1
  have h2 : Good og (x1) := by
    subst x1
    refine good_foldl ?_ (fun s3 y4 h5 => ?_)
    · assumption
    · exact State.rowAbort_good ‹_›
  try clear_value x1
  extract_lets +onlyGivenNames x6; try clear_value x6
  extract_lets +onlyGivenNames x7
  have h8 : Good og (x7) := by subst x7; exact State.setSpn_good ‹_›
  try clear_value x7
  extract_lets +onlyGivenNames x9; try clear_value x9
  extract_lets +onlyGivenNames x10
  have h11 : Good og (x10) := by subst x10; exact good_mk ‹_› rfl rfl rfl rfl rfl rfl rfl
  try clear_value x10
  exact State.showSpn_good (State.setReg_good (State.freePages_good ‹_›))

end Sys2Proof.Machine
end

