-- ==== Sys2Proof/Laws/Keep/TumExec.lean ====
section
/-! SUPPORT. What the operations of Machine/TumExec.lean keep. -/

namespace Sys2Proof.Machine

theorem State.nearBack_good {og : Origin} {a1 : State} {a2 : NearLine} (h1 : Good og (a1)) :
    Good og (@State.nearBack a1 a2) := by
  unfold State.nearBack
  extract_lets +onlyGivenNames x1; try clear_value x1
  refine good_ite ?_ ?_
  · assumption
  · exact State.writeLine_good ‹_›

theorem State.nearFlush_good {og : Origin} {a1 : State} {a2 : Nat} {a3 : NearLine → Bool} (h1 : Good og (a1)) :
    Good og (@State.nearFlush a1 a2 a3) := by
  unfold State.nearFlush
  extract_lets +onlyGivenNames x1
  have h2 : Good og (x1) := by
    subst x1
    refine good_foldl ?_ (fun s3 y4 h5 => ?_)
    · assumption
    · exact State.nearBack_good ‹_›
  try clear_value x1
  exact State.modTumbler_good ‹_›

theorem State.nearPut_good {og : Origin} {a1 : State} {a2 : Nat} {a3 : NearLine} (h1 : Good og (a1)) :
    Good og (@State.nearPut a1 a2 a3) := by
  unfold State.nearPut
  extract_lets +onlyGivenNames x1; try clear_value x1
  extract_lets +onlyGivenNames x2
  have h3 : Good og (x2) := by
    subst x2
    refine good_ite ?_ ?_
    · assumption
    · split
      · rename_i w4 w5 w6
        exact State.nearFlush_good ‹_›
      · rename_i w7 w8
        assumption
  try clear_value x2
  exact State.modTumbler_good ‹_›

theorem State.leaveTumbler_good {og : Origin} {a1 : State} {a2 : Nat} {a3 : Nat} (h1 : Good og (a1)) :
    Good og (@State.leaveTumbler a1 a2 a3) := by
  unfold State.leaveTumbler
  refine good_ite ?_ ?_
  · assumption
  · exact State.modTumbler_good (State.nearFlush_good ‹_›)

theorem State.stopHere_good {og : Origin} {a1 : State} {a2 : Nat} {a3 : Nat} (h1 : Good og (a1)) :
    Good og (@State.stopHere a1 a2 a3) := by
  unfold State.stopHere
  refine good_ite ?_ ?_
  · assumption
  · extract_lets +onlyGivenNames x1
    try clear_value x1
    extract_lets +onlyGivenNames x2
    have h3 : Good og (x2) := by subst x2; exact State.modTumbler_good ‹_›
    try clear_value x2
    exact State.leaveTumbler_good (State.modLaunch_good ‹_›)

theorem State.tumFault_good {og : Origin} {a1 : State} {a2 : Nat} {a3 : Nat} {a4 : Nat} (h1 : Good og (a1)) :
    Good og (@State.tumFault a1 a2 a3 a4) := by
  unfold State.tumFault
  extract_lets +onlyGivenNames x1
  have h2 : Good og (x1) := by subst x1; exact State.count_good ‹_›
  try clear_value x1
  exact State.stopHere_good (State.modLaunch_good ‹_›)

theorem State.tumMemFault_good {og : Origin} {a1 : State} {a2 : Nat} {a3 : Nat} {a4 : Nat} {a5 : Nat} {a6 : Nat} {a7 : Nat} {a8 : Nat} (h1 : Good og (a1)) :
    Good og (@State.tumMemFault a1 a2 a3 a4 a5 a6 a7 a8) := by
  unfold State.tumMemFault
  extract_lets +onlyGivenNames x1
  have h2 : Good og (x1) := by subst x1; exact State.tumFault_good (State.memFault_good ‹_›)
  try clear_value x1
  refine good_ite ?_ ?_
  · exact State.abortStep_good ‹_›
  · assumption

theorem State.blockBars_good {og : Origin} {a1 : State} {a2 : Nat} {a3 : Nat} {a4 : Nat} (h1 : Good og (a1)) :
    Good og (@State.blockBars a1 a2 a3 a4) := by
  unfold State.blockBars
  extract_lets +onlyGivenNames x1; try clear_value x1
  refine good_ite ?_ ?_
  · assumption
  · refine good_foldl ?_ (fun s2 y3 h4 => ?_)
    · assumption
    · extract_lets +onlyGivenNames x5
      try clear_value x5
      refine good_ite ?_ ?_
      · refine good_foldl ?_ (fun s6 y7 h8 => ?_)
        · assumption
        · exact State.modGroup_good ‹_›
      · assumption

theorem State.releaseBars_good {og : Origin} {a1 : State} {a2 : Nat} {a3 : Nat} (h1 : Good og (a1)) :
    Good og (@State.releaseBars a1 a2 a3) := by
  unfold State.releaseBars
  extract_lets +onlyGivenNames x1; try clear_value x1
  extract_lets +onlyGivenNames x2
  have h3 : Good og (x2) := by
    subst x2
    refine good_foldl ?_ (fun s4 y5 h6 => ?_)
    · assumption
    · refine good_ite ?_ ?_
      · assumption
      · exact State.modGroup_good ‹_›
  try clear_value x2
  refine good_foldl ?_ (fun s7 y8 h9 => ?_)
  · assumption
  · exact State.blockBars_good ‹_›

theorem State.gather_good {og : Origin} {a1 : State} {a2 : Nat} {a3 : List (Nat × Nat × Nat)} (h1 : Good og (a1)) :
    Good og (@State.gather a1 a2 a3) := by
  unfold State.gather
  refine good_foldl ?_ (fun s1 y2 h3 => ?_)
  · assumption
  · extract_lets +onlyGivenNames x4
    try clear_value x4
    extract_lets +onlyGivenNames x5
    have h6 : Good og (x5) := by
      subst x5
      refine good_ite ?_ ?_
      · exact State.count_good ‹_›
      · assumption
    try clear_value x5
    refine good_foldl ?_ (fun s7 y8 h9 => ?_)
    · assumption
    · exact State.modGroup_good ‹_›

theorem State.members_good {og : Origin} {a1 : State} {a2 : Nat} {a3 : Nat} {a4 : Launch} {a5 : IWord} (h1 : Good og (a1)) :
    Good og (@State.members a1 a2 a3 a4 a5).1 := by
  unfold State.members
  split
  · rename_i w1 w2
    exact good_pair ‹_›
  · rename_i w3 w4 w5
    split
    · rename_i w6 w7
      exact good_pair ‹_›
    · rename_i w8 w9 w10
      split
      · rename_i w11 w12
        exact good_pair ‹_›
      · rename_i w13 w14 w15
        refine good_ite_fst ?_ ?_
        · exact good_pair ‹_›
        · extract_lets +onlyGivenNames x16
          try clear_value x16
          extract_lets +onlyGivenNames x17
          have h18 : Good og (x17) := by
            subst x17
            refine good_ite ?_ ?_
            · refine good_ite ?_ ?_
              · exact State.modGroup_good ‹_›
              · exact State.gather_good ‹_›
            · assumption
          try clear_value x17
          split
          · rename_i w19 w20
            exact good_pair ‹_›
          · rename_i w21 w22 w23
            refine good_ite_fst ?_ ?_
            · exact good_pair ‹_›
            · split
              · rename_i w24 w25
                exact good_pair ‹_›
              · rename_i w26 w27 w28
                refine good_ite_fst ?_ ?_
                · exact good_pair ‹_›
                · exact good_pair ‹_›

theorem State.split_good {og : Origin} {a1 : State} {a2 : Nat} {a3 : List Member} (h1 : Good og (a1)) :
    Good og (@State.split a1 a2 a3) := by
  unfold State.split
  refine good_foldl ?_ (fun s1 y2 h3 => ?_)
  · assumption
  · exact State.modGroup_good ‹_›

theorem State.afterIssue_good {og : Origin} {a1 : State} {a2 : Nat} {a3 : List Member} (h1 : Good og (a1)) :
    Good og (@State.afterIssue a1 a2 a3) := by
  unfold State.afterIssue
  extract_lets +onlyGivenNames x1
  have h2 : Good og (x1) := by
    subst x1
    refine good_foldl ?_ (fun s3 y4 h5 => ?_)
    · assumption
    · exact State.modGroup_good ‹_›
  try clear_value x1
  extract_lets +onlyGivenNames x6; try clear_value x6
  refine good_ite ?_ ?_
  · assumption
  · exact State.split_good ‹_›

theorem State.advance_good {og : Origin} {a1 : State} {a2 : Ctx} {a3 : Form} (h1 : Good og (a1)) :
    Good og (@State.advance a1 a2 a3) := by
  unfold State.advance
  refine good_foldl ?_ (fun s1 y2 h3 => ?_)
  · assumption
  · exact State.modGroup_good ‹_›

theorem State.issue_good {og : Origin} {a1 : State} {a2 : Nat} {a3 : Nat} {a4 : IWord} {a5 : Form} {a6 : State → Ctx → Bool} {a7 : State → Ctx → State} (h1 : Good og (a1)) (h7 : ∀ b1 b2, Good og (b1) → Good og (a7 b1 b2)) :
    Good og (@State.issue a1 a2 a3 a4 a5 a6 a7) := by
  unfold State.issue
  refine good_ite ?_ ?_
  · assumption
  · split
    · rename_i w1 w2
      assumption
    · rename_i w3 w4 w5
      split
      · rename_i w6 w7 w8 w9
        have h10 : Good og w7 := good_fst w9 (State.members_good ‹_›)
        extract_lets +onlyGivenNames x11; try clear_value x11
        refine good_ite ?_ ?_
        · assumption
        · extract_lets +onlyGivenNames x12
          try clear_value x12
          split
          · rename_i w13 w14 w15 w16 w17
            have h18 : Good og w14 := good_fst w17 (State.translate_good ‹_›)
            exact State.tumMemFault_good ‹_›
          · rename_i w19 w20 w21 w22
            have h23 : Good og w20 := good_fst w22 (State.translate_good ‹_›)
            extract_lets +onlyGivenNames x24
            have h25 : Good og (x24) := by subst x24; exact State.readAs_good ‹_›
            try clear_value x24
            refine good_ite ?_ ?_
            · exact State.tumMemFault_good ‹_›
            · extract_lets +onlyGivenNames x26
              try clear_value x26
              extract_lets +onlyGivenNames x27
              have h28 : Good og (x27) := by subst x27; exact State.count_good ‹_›
              try clear_value x27
              extract_lets +onlyGivenNames x29
              have h30 : Good og (x29) := by subst x29; exact State.count_good ‹_›
              try clear_value x29
              extract_lets +onlyGivenNames x31
              have h32 : Good og (x31) := by subst x31; exact State.count_good ‹_›
              try clear_value x31
              refine good_ite ?_ ?_
              · exact State.tumFault_good ‹_›
              · exact State.afterIssue_good (h7 _ _ (State.advance_good ‹_›))

theorem State.legal_good {og : Origin} {a1 : State} {a2 : Ctx} {a3 : Bool} {a4 : State → State} (h1 : Good og (a1)) (h4 : ∀ b1, Good og (b1) → Good og (a4 b1)) :
    Good og (@State.legal a1 a2 a3 a4) := by
  unfold State.legal
  refine good_ite ?_ ?_
  · assumption
  · refine good_ite ?_ ?_
    · exact h4 _ ‹_›
    · exact State.tumFault_good ‹_›

end Sys2Proof.Machine
end

