-- ==== Sys2Proof/Laws/Keep/TumAlu.lean ====
section
/-! SUPPORT. What the operations of Machine/TumAlu.lean keep. -/

namespace Sys2Proof.Machine

theorem State.eachMember_good {og : Origin} {a1 : State} {a2 : Ctx} {a3 : Member → Group → Group} (h1 : Good og (a1)) :
    Good og (@State.eachMember a1 a2 a3) := by
  unfold State.eachMember
  refine good_foldl ?_ (fun s1 y2 h3 => ?_)
  · assumption
  · exact State.modGroup_good ‹_›

theorem State.eachLane_good {og : Origin} {a1 : State} {a2 : Ctx} {a3 : Member → Group → Nat → Nat} (h1 : Good og (a1)) :
    Good og (@State.eachLane a1 a2 a3) := by
  unfold State.eachLane
  exact State.eachMember_good ‹_›

theorem State.eachPair_good {og : Origin} {a1 : State} {a2 : Ctx} {a3 : Member → Group → Nat → Nat} (h1 : Good og (a1)) :
    Good og (@State.eachPair a1 a2 a3) := by
  unfold State.eachPair
  exact State.eachMember_good ‹_›

theorem State.eachPred_good {og : Origin} {a1 : State} {a2 : Ctx} {a3 : Group → Nat → Bool} (h1 : Good og (a1)) :
    Good og (@State.eachPred a1 a2 a3) := by
  unfold State.eachPred
  exact State.eachMember_good ‹_›

theorem State.intOp_good {og : Origin} {a1 : State} {a2 : Nat} {a3 : Nat} {a4 : IWord} {a5 : Nat} {a6 : Nat → Bool → Nat → Nat → Nat → Nat} (h1 : Good og (a1)) :
    Good og (@State.intOp a1 a2 a3 a4 a5 a6) := by
  unfold State.intOp
  refine State.issue_good ?_ ?_
  · assumption
  · intro v1 v2 v3
    refine State.legal_good ?_ ?_
    · assumption
    · intro v4 v5
      extract_lets +onlyGivenNames x6; try clear_value x6
      refine good_ite ?_ ?_
      · exact State.eachPair_good ‹_›
      · exact State.eachLane_good ‹_›

theorem execIadd_good {og : Origin} {a1 : TumblerId} {a2 : SlotId} {a3 : IWord} {a4 : State} (h4 : Good og (a4)) :
    GoodOut og (@execIadd a1 a2 a3 a4) := by
  unfold execIadd
  exact goodOut_next (State.intOp_good ‹_›)

theorem execIsub_good {og : Origin} {a1 : TumblerId} {a2 : SlotId} {a3 : IWord} {a4 : State} (h4 : Good og (a4)) :
    GoodOut og (@execIsub a1 a2 a3 a4) := by
  unfold execIsub
  exact goodOut_next (State.intOp_good ‹_›)

theorem execImul_good {og : Origin} {a1 : TumblerId} {a2 : SlotId} {a3 : IWord} {a4 : State} (h4 : Good og (a4)) :
    GoodOut og (@execImul a1 a2 a3 a4) := by
  unfold execImul
  exact goodOut_next (State.intOp_good ‹_›)

theorem execImad_good {og : Origin} {a1 : TumblerId} {a2 : SlotId} {a3 : IWord} {a4 : State} (h4 : Good og (a4)) :
    GoodOut og (@execImad a1 a2 a3 a4) := by
  unfold execImad
  exact goodOut_next (State.intOp_good ‹_›)

theorem execImin_good {og : Origin} {a1 : TumblerId} {a2 : SlotId} {a3 : IWord} {a4 : State} (h4 : Good og (a4)) :
    GoodOut og (@execImin a1 a2 a3 a4) := by
  unfold execImin
  exact goodOut_next (State.intOp_good ‹_›)

theorem execImax_good {og : Origin} {a1 : TumblerId} {a2 : SlotId} {a3 : IWord} {a4 : State} (h4 : Good og (a4)) :
    GoodOut og (@execImax a1 a2 a3 a4) := by
  unfold execImax
  exact goodOut_next (State.intOp_good ‹_›)

theorem State.shiftOp_good {og : Origin} {a1 : State} {a2 : Nat} {a3 : Nat} {a4 : IWord} {a5 : Nat → Bool → Nat → Nat → Nat} (h1 : Good og (a1)) :
    Good og (@State.shiftOp a1 a2 a3 a4 a5) := by
  unfold State.shiftOp
  refine State.issue_good ?_ ?_
  · assumption
  · intro v1 v2 v3
    refine State.legal_good ?_ ?_
    · assumption
    · intro v4 v5
      extract_lets +onlyGivenNames x6; try clear_value x6
      extract_lets +onlyGivenNames x7; try clear_value x7
      extract_lets +onlyGivenNames x8; try clear_value x8
      refine State.drawn_good ?_
      refine good_ite ?_ ?_
      · exact State.eachPair_good ‹_›
      · exact State.eachLane_good ‹_›

theorem execIshl_good {og : Origin} {a1 : TumblerId} {a2 : SlotId} {a3 : IWord} {a4 : State} (h4 : Good og (a4)) :
    GoodOut og (@execIshl a1 a2 a3 a4) := by
  unfold execIshl
  exact goodOut_next (State.shiftOp_good ‹_›)

theorem execIshr_good {og : Origin} {a1 : TumblerId} {a2 : SlotId} {a3 : IWord} {a4 : State} (h4 : Good og (a4)) :
    GoodOut og (@execIshr a1 a2 a3 a4) := by
  unfold execIshr
  exact goodOut_next (State.shiftOp_good ‹_›)

theorem State.logicOp_good {og : Origin} {a1 : State} {a2 : Nat} {a3 : Nat} {a4 : IWord} {a5 : Nat} {a6 : Nat → Nat → Nat} (h1 : Good og (a1)) :
    Good og (@State.logicOp a1 a2 a3 a4 a5 a6) := by
  unfold State.logicOp
  refine State.issue_good ?_ ?_
  · assumption
  · intro v1 v2 v3
    refine State.legal_good ?_ ?_
    · assumption
    · intro v4 v5
      exact State.eachLane_good ‹_›

theorem execAnd_good {og : Origin} {a1 : TumblerId} {a2 : SlotId} {a3 : IWord} {a4 : State} (h4 : Good og (a4)) :
    GoodOut og (@execAnd a1 a2 a3 a4) := by
  unfold execAnd
  exact goodOut_next (State.logicOp_good ‹_›)

theorem execOr_good {og : Origin} {a1 : TumblerId} {a2 : SlotId} {a3 : IWord} {a4 : State} (h4 : Good og (a4)) :
    GoodOut og (@execOr a1 a2 a3 a4) := by
  unfold execOr
  exact goodOut_next (State.logicOp_good ‹_›)

theorem execXor_good {og : Origin} {a1 : TumblerId} {a2 : SlotId} {a3 : IWord} {a4 : State} (h4 : Good og (a4)) :
    GoodOut og (@execXor a1 a2 a3 a4) := by
  unfold execXor
  exact goodOut_next (State.logicOp_good ‹_›)

theorem execNot_good {og : Origin} {a1 : TumblerId} {a2 : SlotId} {a3 : IWord} {a4 : State} (h4 : Good og (a4)) :
    GoodOut og (@execNot a1 a2 a3 a4) := by
  unfold execNot
  exact goodOut_next (State.logicOp_good ‹_›)

theorem execMov_good {og : Origin} {a1 : TumblerId} {a2 : SlotId} {a3 : IWord} {a4 : State} (h4 : Good og (a4)) :
    GoodOut og (@execMov a1 a2 a3 a4) := by
  unfold execMov
  exact goodOut_next (State.logicOp_good ‹_›)

theorem execPopc_good {og : Origin} {a1 : TumblerId} {a2 : SlotId} {a3 : IWord} {a4 : State} (h4 : Good og (a4)) :
    GoodOut og (@execPopc a1 a2 a3 a4) := by
  unfold execPopc
  exact goodOut_next (State.logicOp_good ‹_›)

theorem State.selOp_good {og : Origin} {a1 : State} {a2 : Nat} {a3 : Nat} {a4 : IWord} (h1 : Good og (a1)) :
    Good og (@State.selOp a1 a2 a3 a4) := by
  unfold State.selOp
  refine State.issue_good ?_ ?_
  · assumption
  · intro v1 v2 v3
    refine State.legal_good ?_ ?_
    · assumption
    · intro v4 v5
      exact State.eachLane_good ‹_›

theorem execSel_good {og : Origin} {a1 : TumblerId} {a2 : SlotId} {a3 : IWord} {a4 : State} (h4 : Good og (a4)) :
    GoodOut og (@execSel a1 a2 a3 a4) := by
  unfold execSel
  exact goodOut_next (State.selOp_good ‹_›)

theorem State.icmpOp_good {og : Origin} {a1 : State} {a2 : Nat} {a3 : Nat} {a4 : IWord} (h1 : Good og (a1)) :
    Good og (@State.icmpOp a1 a2 a3 a4) := by
  unfold State.icmpOp
  refine State.issue_good ?_ ?_
  · assumption
  · intro v1 v2 v3
    refine State.legal_good ?_ ?_
    · assumption
    · intro v4 v5
      exact State.eachPred_good ‹_›

theorem execIcmp_good {og : Origin} {a1 : TumblerId} {a2 : SlotId} {a3 : IWord} {a4 : State} (h4 : Good og (a4)) :
    GoodOut og (@execIcmp a1 a2 a3 a4) := by
  unfold execIcmp
  exact goodOut_next (State.icmpOp_good ‹_›)

theorem State.shflOp_good {og : Origin} {a1 : State} {a2 : Nat} {a3 : Nat} {a4 : IWord} (h1 : Good og (a1)) :
    Good og (@State.shflOp a1 a2 a3 a4) := by
  unfold State.shflOp
  refine State.issue_good ?_ ?_
  · assumption
  · intro v1 v2 v3
    refine State.legal_good ?_ ?_
    · assumption
    · intro v4 v5
      extract_lets +onlyGivenNames x6; try clear_value x6
      exact State.drawn_good (State.eachLane_good ‹_›)

theorem execShfl_good {og : Origin} {a1 : TumblerId} {a2 : SlotId} {a3 : IWord} {a4 : State} (h4 : Good og (a4)) :
    GoodOut og (@execShfl a1 a2 a3 a4) := by
  unfold execShfl
  exact goodOut_next (State.shflOp_good ‹_›)

theorem State.voteOp_good {og : Origin} {a1 : State} {a2 : Nat} {a3 : Nat} {a4 : IWord} (h1 : Good og (a1)) :
    Good og (@State.voteOp a1 a2 a3 a4) := by
  unfold State.voteOp
  refine State.issue_good ?_ ?_
  · assumption
  · intro v1 v2 v3
    refine State.legal_good ?_ ?_
    · assumption
    · intro v4 v5
      exact State.eachLane_good ‹_›

theorem execVote_good {og : Origin} {a1 : TumblerId} {a2 : SlotId} {a3 : IWord} {a4 : State} (h4 : Good og (a4)) :
    GoodOut og (@execVote a1 a2 a3 a4) := by
  unfold execVote
  exact goodOut_next (State.voteOp_good ‹_›)

theorem State.sregOp_good {og : Origin} {a1 : State} {a2 : Nat} {a3 : Nat} {a4 : IWord} (h1 : Good og (a1)) :
    Good og (@State.sregOp a1 a2 a3 a4) := by
  unfold State.sregOp
  refine State.issue_good ?_ ?_
  · assumption
  · intro v1 v2 v3
    refine State.legal_good ?_ ?_
    · assumption
    · intro v4 v5
      extract_lets +onlyGivenNames x6
      have h7 : Good og (x6) := by subst x6; exact State.eachLane_good ‹_›
      try clear_value x6
      refine State.drawn_good ?_
      refine good_ite ?_ ?_
      · exact State.eachMember_good ‹_›
      · assumption

theorem execSreg_good {og : Origin} {a1 : TumblerId} {a2 : SlotId} {a3 : IWord} {a4 : State} (h4 : Good og (a4)) :
    GoodOut og (@execSreg a1 a2 a3 a4) := by
  unfold execSreg
  exact goodOut_next (State.sregOp_good ‹_›)

theorem State.moviOp_good {og : Origin} {a1 : State} {a2 : Nat} {a3 : Nat} {a4 : IWord} (h1 : Good og (a1)) :
    Good og (@State.moviOp a1 a2 a3 a4) := by
  unfold State.moviOp
  refine State.issue_good ?_ ?_
  · assumption
  · intro v1 v2 v3
    exact State.eachLane_good ‹_›

theorem execMovi_good {og : Origin} {a1 : TumblerId} {a2 : SlotId} {a3 : IWord} {a4 : State} (h4 : Good og (a4)) :
    GoodOut og (@execMovi a1 a2 a3 a4) := by
  unfold execMovi
  exact goodOut_next (State.moviOp_good ‹_›)

theorem State.fpOp_good {og : Origin} {a1 : State} {a2 : Nat} {a3 : Nat} {a4 : IWord} {a5 : Nat} {a6 : Fmt → Nat → Nat → Nat → Nat} (h1 : Good og (a1)) :
    Good og (@State.fpOp a1 a2 a3 a4 a5 a6) := by
  unfold State.fpOp
  refine State.issue_good ?_ ?_
  · assumption
  · intro v1 v2 v3
    refine State.legal_good ?_ ?_
    · assumption
    · intro v4 v5
      exact State.eachLane_good ‹_›

theorem execFadd_good {og : Origin} {a1 : TumblerId} {a2 : SlotId} {a3 : IWord} {a4 : State} (h4 : Good og (a4)) :
    GoodOut og (@execFadd a1 a2 a3 a4) := by
  unfold execFadd
  exact goodOut_next (State.fpOp_good ‹_›)

theorem execFmul_good {og : Origin} {a1 : TumblerId} {a2 : SlotId} {a3 : IWord} {a4 : State} (h4 : Good og (a4)) :
    GoodOut og (@execFmul a1 a2 a3 a4) := by
  unfold execFmul
  exact goodOut_next (State.fpOp_good ‹_›)

theorem execFfma_good {og : Origin} {a1 : TumblerId} {a2 : SlotId} {a3 : IWord} {a4 : State} (h4 : Good og (a4)) :
    GoodOut og (@execFfma a1 a2 a3 a4) := by
  unfold execFfma
  exact goodOut_next (State.fpOp_good ‹_›)

theorem execFmin_good {og : Origin} {a1 : TumblerId} {a2 : SlotId} {a3 : IWord} {a4 : State} (h4 : Good og (a4)) :
    GoodOut og (@execFmin a1 a2 a3 a4) := by
  unfold execFmin
  exact goodOut_next (State.fpOp_good ‹_›)

theorem execFmax_good {og : Origin} {a1 : TumblerId} {a2 : SlotId} {a3 : IWord} {a4 : State} (h4 : Good og (a4)) :
    GoodOut og (@execFmax a1 a2 a3 a4) := by
  unfold execFmax
  exact goodOut_next (State.fpOp_good ‹_›)

theorem State.fcmpOp_good {og : Origin} {a1 : State} {a2 : Nat} {a3 : Nat} {a4 : IWord} (h1 : Good og (a1)) :
    Good og (@State.fcmpOp a1 a2 a3 a4) := by
  unfold State.fcmpOp
  refine State.issue_good ?_ ?_
  · assumption
  · intro v1 v2 v3
    refine State.legal_good ?_ ?_
    · assumption
    · intro v4 v5
      exact State.eachPred_good ‹_›

theorem execFcmp_good {og : Origin} {a1 : TumblerId} {a2 : SlotId} {a3 : IWord} {a4 : State} (h4 : Good og (a4)) :
    GoodOut og (@execFcmp a1 a2 a3 a4) := by
  unfold execFcmp
  exact goodOut_next (State.fcmpOp_good ‹_›)

theorem State.fpPlain_good {og : Origin} {a1 : State} {a2 : Nat} {a3 : Nat} {a4 : IWord} {a5 : Nat} {a6 : Nat → Nat → Nat} (h1 : Good og (a1)) :
    Good og (@State.fpPlain a1 a2 a3 a4 a5 a6) := by
  unfold State.fpPlain
  exact State.logicOp_good ‹_›

theorem execFdiv_good {og : Origin} {a1 : TumblerId} {a2 : SlotId} {a3 : IWord} {a4 : State} (h4 : Good og (a4)) :
    GoodOut og (@execFdiv a1 a2 a3 a4) := by
  unfold execFdiv
  exact goodOut_next (State.fpPlain_good ‹_›)

theorem execFsqrt_good {og : Origin} {a1 : TumblerId} {a2 : SlotId} {a3 : IWord} {a4 : State} (h4 : Good og (a4)) :
    GoodOut og (@execFsqrt a1 a2 a3 a4) := by
  unfold execFsqrt
  exact goodOut_next (State.fpPlain_good ‹_›)

theorem execFabs_good {og : Origin} {a1 : TumblerId} {a2 : SlotId} {a3 : IWord} {a4 : State} (h4 : Good og (a4)) :
    GoodOut og (@execFabs a1 a2 a3 a4) := by
  unfold execFabs
  exact goodOut_next (State.fpPlain_good ‹_›)

theorem execFrsq_good {og : Origin} {a1 : TumblerId} {a2 : SlotId} {a3 : IWord} {a4 : State} (h4 : Good og (a4)) :
    GoodOut og (@execFrsq a1 a2 a3 a4) := by
  unfold execFrsq
  exact goodOut_next (State.fpPlain_good ‹_›)

theorem execFexp2_good {og : Origin} {a1 : TumblerId} {a2 : SlotId} {a3 : IWord} {a4 : State} (h4 : Good og (a4)) :
    GoodOut og (@execFexp2 a1 a2 a3 a4) := by
  unfold execFexp2
  exact goodOut_next (State.fpPlain_good ‹_›)

theorem execFlog2_good {og : Origin} {a1 : TumblerId} {a2 : SlotId} {a3 : IWord} {a4 : State} (h4 : Good og (a4)) :
    GoodOut og (@execFlog2 a1 a2 a3 a4) := by
  unfold execFlog2
  exact goodOut_next (State.fpPlain_good ‹_›)

end Sys2Proof.Machine
end

