-- ==== Sys2Proof/Laws/Keep/TumMem.lean ====
section
/-! SUPPORT. What the operations of Machine/TumMem.lean keep. -/

namespace Sys2Proof.Machine

theorem State.modBlock_good {og : Origin} {a1 : State} {a2 : Nat} {a3 : Nat} {a4 : Nat} {a5 : Block → Block} (h1 : Good og (a1)) :
    Good og (@State.modBlock a1 a2 a3 a4 a5) := by
  unfold State.modBlock
  exact State.modTumbler_good ‹_›

theorem State.putLocal_good {og : Origin} {a1 : State} {a2 : Nat} {a3 : Nat} {a4 : Nat} {a5 : List Byte} (h1 : Good og (a1)) :
    Good og (@State.putLocal a1 a2 a3 a4 a5) := by
  unfold State.putLocal
  split
  · rename_i w1 w2
    assumption
  · rename_i w3 w4 w5
    exact State.modBlock_good ‹_›

theorem State.localOp_good {og : Origin} {a1 : State} {a2 : Nat} {a3 : Nat} {a4 : IWord} {a5 : Bool} (h1 : Good og (a1)) :
    Good og (@State.localOp a1 a2 a3 a4 a5) := by
  unfold State.localOp
  extract_lets +onlyGivenNames x1; try clear_value x1
  extract_lets +onlyGivenNames x2; try clear_value x2
  refine State.issue_good ?_ ?_
  · assumption
  · intro v3 v4 v5
    refine State.legal_good ?_ ?_
    · assumption
    · intro v6 v7
      extract_lets +onlyGivenNames x8; try clear_value x8
      extract_lets +onlyGivenNames x9; try clear_value x9
      refine good_ite ?_ ?_
      · exact State.tumFault_good ‹_›
      · extract_lets +onlyGivenNames x10
        have h11 : Good og (x10) := by subst x10; exact State.count_good ‹_›
        try clear_value x10
        extract_lets +onlyGivenNames x12; try clear_value x12
        refine good_foldl ?_ (fun s13 y14 h15 => ?_)
        · exact State.drawn_good ‹_›
        · refine good_ite ?_ ?_
          · split
            · rename_i w16 w17 w18
              exact State.putLocal_good ‹_›
            · rename_i w19 w20
              assumption
          · extract_lets +onlyGivenNames x21
            try clear_value x21
            exact State.modGroup_good ‹_›

theorem execLdl_good {og : Origin} {a1 : TumblerId} {a2 : SlotId} {a3 : IWord} {a4 : State} (h4 : Good og (a4)) :
    GoodOut og (@execLdl a1 a2 a3 a4) := by
  unfold execLdl
  exact goodOut_next (State.localOp_good ‹_›)

theorem execStl_good {og : Origin} {a1 : TumblerId} {a2 : SlotId} {a3 : IWord} {a4 : State} (h4 : Good og (a4)) :
    GoodOut og (@execStl a1 a2 a3 a4) := by
  unfold execStl
  exact goodOut_next (State.localOp_good ‹_›)

theorem State.localAtom_good {og : Origin} {a1 : State} {a2 : Ctx} (h1 : Good og (a1)) :
    Good og (@State.localAtom a1 a2) := by
  unfold State.localAtom
  extract_lets +onlyGivenNames x1; try clear_value x1
  extract_lets +onlyGivenNames x2; try clear_value x2
  extract_lets +onlyGivenNames x3; try clear_value x3
  extract_lets +onlyGivenNames x4; try clear_value x4
  refine good_ite ?_ ?_
  · exact State.tumFault_good ‹_›
  · extract_lets +onlyGivenNames x5
    have h6 : Good og (x5) := by
      subst x5
      assumption
    try clear_value x5
    refine good_foldl ?_ (fun s7 y8 h9 => ?_)
    · assumption
    · split
      · rename_i w10 w11
        assumption
      · rename_i w12 w13 w14
        extract_lets +onlyGivenNames x15; try clear_value x15
        extract_lets +onlyGivenNames x16; try clear_value x16
        exact State.modGroup_good (State.putLocal_good ‹_›)

theorem State.putAccess_good {og : Origin} {a1 : State} {a2 : Nat} {a3 : Access} (h1 : Good og (a1)) :
    Good og (@State.putAccess a1 a2 a3) := by
  unfold State.putAccess
  exact State.modTumbler_good ‹_›

theorem State.dropAccess_good {og : Origin} {a1 : State} {a2 : Nat} {a3 : Nat} (h1 : Good og (a1)) :
    Good og (@State.dropAccess a1 a2 a3) := by
  unfold State.dropAccess
  exact State.modTumbler_good ‹_›

theorem State.await_good {og : Origin} {a1 : State} {a2 : Nat} {a3 : Access} {a4 : Bool} (h1 : Good og (a1)) :
    Good og (@State.await a1 a2 a3 a4) := by
  unfold State.await
  refine good_ite ?_ ?_
  · assumption
  · refine good_foldl ?_ (fun s1 y2 h3 => ?_)
    · assumption
    · exact State.modGroup_good ‹_›

theorem State.finishAccess_good {og : Origin} {a1 : State} {a2 : Nat} {a3 : Access} (h1 : Good og (a1)) :
    Good og (@State.finishAccess a1 a2 a3) := by
  unfold State.finishAccess
  extract_lets +onlyGivenNames x1; try clear_value x1
  extract_lets +onlyGivenNames x2
  have h3 : Good og (x2) := by
    subst x2
    refine good_foldl ?_ (fun s4 y5 h6 => ?_)
    · exact State.drawn_good ‹_›
    · exact State.modGroup_good ‹_›
  try clear_value x2
  exact State.releaseBars_good (State.dropAccess_good (State.await_good ‹_›))

theorem State.failAccess_good {og : Origin} {a1 : State} {a2 : Nat} {a3 : Access} {a4 : Nat} {a5 : Nat} {a6 : Nat} {a7 : Nat} (h1 : Good og (a1)) :
    Good og (@State.failAccess a1 a2 a3 a4 a5 a6 a7) := by
  unfold State.failAccess
  exact State.tumMemFault_good (State.dropAccess_good (State.await_good ‹_›))

theorem State.askLines_good {og : Origin} {a1 : State} {a2 : Nat} {a3 : Access} {a4 : List Nat} (h1 : Good og (a1)) :
    Good og (@State.askLines a1 a2 a3 a4) := by
  unfold State.askLines
  refine good_foldl ?_ (fun s1 y2 h3 => ?_)
  · assumption
  · refine good_ite ?_ ?_
    · assumption
    · exact State.requestFill_good ‹_›

theorem State.nearFill_good {og : Origin} {a1 : State} {a2 : Nat} {a3 : Access} {a4 : Nat} (h1 : Good og (a1)) :
    Good og (@State.nearFill a1 a2 a3 a4).1 := by
  unfold State.nearFill
  extract_lets +onlyGivenNames x1; try clear_value x1
  extract_lets +onlyGivenNames x2; try clear_value x2
  refine good_ite_fst ?_ ?_
  · exact good_pair (State.count_good ‹_›)
  · extract_lets +onlyGivenNames x3
    have h4 : Good og (x3) := by subst x3; exact State.readBytes_good (State.count_good ‹_›)
    try clear_value x3
    extract_lets +onlyGivenNames x5; try clear_value x5
    exact good_pair ‹_›

theorem State.finishLoad_good {og : Origin} {a1 : State} {a2 : Nat} {a3 : Access} (h1 : Good og (a1)) :
    Good og (@State.finishLoad a1 a2 a3) := by
  unfold State.finishLoad
  extract_lets +onlyGivenNames x1
  have h2 : Good og (x1).1 := by
    subst x1
    refine good_foldl_fst ?_ (fun s3 y4 h5 => ?_)
    · exact good_pair ‹_›
    · refine good_ite_fst ?_ ?_
      · extract_lets +onlyGivenNames x6
        have h7 : Good og (x6) := by subst x6; exact State.readBytes_good ‹_›
        try clear_value x6
        extract_lets +onlyGivenNames x8; try clear_value x8
        exact good_pair ‹_›
      · extract_lets +onlyGivenNames x9
        have h10 : Good og (x9).1 := by subst x9; exact State.nearFill_good ‹_›
        try clear_value x9
        exact good_pair (State.nearPut_good ‹_›)
  try clear_value x1
  split
  · rename_i w11 w12 w13
    exact State.failAccess_good ‹_›
  · rename_i w14 w15
    exact State.finishAccess_good ‹_›

theorem State.startLoad_good {og : Origin} {a1 : State} {a2 : Nat} {a3 : Access} (h1 : Good og (a1)) :
    Good og (@State.startLoad a1 a2 a3) := by
  unfold State.startLoad
  extract_lets +onlyGivenNames x1
  have h2 : Good og (x1) := by
    subst x1
    refine good_ite ?_ ?_
    · refine good_foldl ?_ (fun s3 y4 h5 => ?_)
      · assumption
      · exact State.nearFlush_good ‹_›
    · assumption
  try clear_value x1
  split
  · rename_i w6 w7
    exact State.finishLoad_good ‹_›
  · rename_i w8 w9
    exact State.askLines_good (State.putAccess_good ‹_›)

theorem State.loadReturn_good {og : Origin} {a1 : State} {a2 : Nat} {a3 : Nat} (h1 : Good og (a1)) :
    Good og (@State.loadReturn a1 a2 a3) := by
  unfold State.loadReturn
  split
  · rename_i w1 w2
    assumption
  · rename_i w3 w4 w5
    refine good_ite ?_ ?_
    · assumption
    · refine good_ite ?_ ?_
      · exact State.finishLoad_good ‹_›
      · exact State.askLines_good ‹_›

theorem execLoadReturn_good {og : Origin} {a1 : TumblerId} {a2 : Nat} {a3 : State} (h3 : Good og (a3)) :
    GoodOut og (@execLoadReturn a1 a2 a3) := by
  unfold execLoadReturn
  exact goodOut_next (State.loadReturn_good ‹_›)

theorem State.doStore_good {og : Origin} {a1 : State} {a2 : Nat} {a3 : Access} (h1 : Good og (a1)) :
    Good og (@State.doStore a1 a2 a3) := by
  unfold State.doStore
  refine good_foldl ?_ (fun s1 y2 h3 => ?_)
  · assumption
  · extract_lets +onlyGivenNames x4
    try clear_value x4
    refine good_ite ?_ ?_
    · exact State.writeLine_good (State.nearFlush_good ‹_›)
    · extract_lets +onlyGivenNames x5
      try clear_value x5
      extract_lets +onlyGivenNames x6
      have h7 : Good og (x6) := by subst x6; exact State.count_good ‹_›
      try clear_value x6
      exact State.nearPut_good ‹_›

theorem State.sendAtoms_good {og : Origin} {a1 : State} {a2 : Nat} {a3 : Access} (h1 : Good og (a1)) :
    Good og (@State.sendAtoms a1 a2 a3) := by
  unfold State.sendAtoms
  refine good_foldl ?_ (fun s1 y2 h3 => ?_)
  · assumption
  · extract_lets +onlyGivenNames x4
    have h5 : Good og (x4) := by subst x4; exact State.nearFlush_good ‹_›
    try clear_value x4
    exact State.sendRed_good ‹_›

theorem State.atomAnswer_good {og : Origin} {a1 : State} {a2 : Nat} {a3 : Nat} {a4 : Nat} {a5 : List (Nat × Nat)} (h1 : Good og (a1)) :
    Good og (@State.atomAnswer a1 a2 a3 a4 a5) := by
  unfold State.atomAnswer
  split
  · rename_i w1 w2
    assumption
  · rename_i w3 w4 w5
    refine good_ite ?_ ?_
    · extract_lets +onlyGivenNames x6
      try clear_value x6
      exact State.failAccess_good ‹_›
    · extract_lets +onlyGivenNames x7
      try clear_value x7
      refine good_ite ?_ ?_
      · exact State.finishAccess_good ‹_›
      · exact State.putAccess_good ‹_›

theorem State.runAccess_good {og : Origin} {a1 : State} {a2 : Nat} {a3 : Access} (h1 : Good og (a1)) :
    Good og (@State.runAccess a1 a2 a3) := by
  unfold State.runAccess
  split
  · rename_i w1 w2 w3
    exact State.putAccess_good ‹_›
  · rename_i w4 w5 w6 w7 w8
    exact State.failAccess_good ‹_›
  · rename_i w9 w10 w11
    extract_lets +onlyGivenNames x12; try clear_value x12
    split
    · rename_i w13 w14
      exact State.startLoad_good ‹_›
    · rename_i w15 w16
      exact State.releaseBars_good (State.dropAccess_good (State.doStore_good (State.putAccess_good ‹_›)))
    · rename_i w17 w18
      extract_lets +onlyGivenNames x19; try clear_value x19
      exact State.sendAtoms_good (State.putAccess_good ‹_›)
    · rename_i w20 w21
      assumption
    · rename_i w22 w23
      assumption

theorem State.walkDone_good {og : Origin} {a1 : State} {a2 : Nat} {a3 : Access} {a4 : Nat} {a5 : Nat} {a6 : Finding} (h1 : Good og (a1)) :
    Good og (@State.walkDone a1 a2 a3 a4 a5 a6) := by
  unfold State.walkDone
  extract_lets +onlyGivenNames x1; try clear_value x1
  extract_lets +onlyGivenNames x2
  have h3 : Good og (x2) := by
    subst x2
    refine good_ite ?_ ?_
    · exact State.find_good ‹_›
    · assumption
  try clear_value x2
  split
  · rename_i w4 w5 w6 w7
    exact State.failAccess_good ‹_›
  · rename_i w8 w9 w10
    extract_lets +onlyGivenNames x11
    have h12 : Good og (x11) := by subst x11; exact State.tlbPut_good ‹_›
    try clear_value x11
    extract_lets +onlyGivenNames x13; try clear_value x13
    refine good_ite ?_ ?_
    · exact State.runAccess_good ‹_›
    · exact State.putAccess_good ‹_›

theorem State.tableWalkEnd_good {og : Origin} {a1 : State} {a2 : Nat} {a3 : Finding} (h1 : Good og (a1)) :
    Good og (@State.tableWalkEnd a1 a2 a3) := by
  unfold State.tableWalkEnd
  split
  · rename_i w1 w2
    assumption
  · rename_i w3 w4 w5
    exact State.walkDone_good ‹_›

theorem execTableWalkEnd_good {og : Origin} {a1 : Nat} {a2 : Finding} {a3 : State} (h3 : Good og (a3)) :
    GoodOut og (@execTableWalkEnd a1 a2 a3) := by
  unfold execTableWalkEnd
  exact goodOut_next (State.tableWalkEnd_good ‹_›)

theorem State.access_good {og : Origin} {a1 : State} {a2 : Ctx} {a3 : AccessKind} {a4 : Bool} {a5 : Nat} {a6 : List AccLane} (h1 : Good og (a1)) :
    Good og (@State.access a1 a2 a3 a4 a5 a6) := by
  unfold State.access
  split
  · rename_i w1 w2 w3
    exact State.tumMemFault_good ‹_›
  · rename_i w4 w5
    extract_lets +onlyGivenNames x6; try clear_value x6
    extract_lets +onlyGivenNames x7
    have h8 : Good og (x7) := by subst x7; exact State.modTumbler_good ‹_›
    try clear_value x7
    exact State.runAccess_good (State.await_good ‹_›)

theorem State.tenantOp_good {og : Origin} {a1 : State} {a2 : Nat} {a3 : Nat} {a4 : IWord} {a5 : Bool} (h1 : Good og (a1)) :
    Good og (@State.tenantOp a1 a2 a3 a4 a5) := by
  unfold State.tenantOp
  extract_lets +onlyGivenNames x1; try clear_value x1
  extract_lets +onlyGivenNames x2; try clear_value x2
  refine State.issue_good ?_ ?_
  · assumption
  · intro v3 v4 v5
    refine State.legal_good ?_ ?_
    · assumption
    · intro v6 v7
      exact State.access_good ‹_›

theorem execLd_good {og : Origin} {a1 : TumblerId} {a2 : SlotId} {a3 : IWord} {a4 : State} (h4 : Good og (a4)) :
    GoodOut og (@execLd a1 a2 a3 a4) := by
  unfold execLd
  exact goodOut_next (State.tenantOp_good ‹_›)

theorem execSt_good {og : Origin} {a1 : TumblerId} {a2 : SlotId} {a3 : IWord} {a4 : State} (h4 : Good og (a4)) :
    GoodOut og (@execSt a1 a2 a3 a4) := by
  unfold execSt
  exact goodOut_next (State.tenantOp_good ‹_›)

theorem State.tenantAtom_good {og : Origin} {a1 : State} {a2 : Ctx} (h1 : Good og (a1)) :
    Good og (@State.tenantAtom a1 a2) := by
  unfold State.tenantAtom
  exact State.access_good ‹_›

theorem State.nopOp_good {og : Origin} {a1 : State} {a2 : Nat} {a3 : Nat} {a4 : IWord} {a5 : Nat} (h1 : Good og (a1)) :
    Good og (@State.nopOp a1 a2 a3 a4 a5) := by
  unfold State.nopOp
  extract_lets +onlyGivenNames x1; try clear_value x1
  refine State.issue_good ?_ ?_
  · assumption
  · intro v2 v3 v4
    refine State.legal_good ?_ ?_
    · assumption
    · intro v5 v6
      refine good_ite ?_ ?_
      · exact State.nearFlush_good ‹_›
      · assumption

theorem execNop_good {og : Origin} {a1 : TumblerId} {a2 : SlotId} {a3 : IWord} {a4 : State} (h4 : Good og (a4)) :
    GoodOut og (@execNop a1 a2 a3 a4) := by
  unfold execNop
  exact goodOut_next (State.nopOp_good ‹_›)

theorem execFenceGroup_good {og : Origin} {a1 : TumblerId} {a2 : SlotId} {a3 : IWord} {a4 : State} (h4 : Good og (a4)) :
    GoodOut og (@execFenceGroup a1 a2 a3 a4) := by
  unfold execFenceGroup
  exact goodOut_next (State.nopOp_good ‹_›)

theorem execFenceBlock_good {og : Origin} {a1 : TumblerId} {a2 : SlotId} {a3 : IWord} {a4 : State} (h4 : Good og (a4)) :
    GoodOut og (@execFenceBlock a1 a2 a3 a4) := by
  unfold execFenceBlock
  exact goodOut_next (State.nopOp_good ‹_›)

theorem execFenceDevice_good {og : Origin} {a1 : TumblerId} {a2 : SlotId} {a3 : IWord} {a4 : State} (h4 : Good og (a4)) :
    GoodOut og (@execFenceDevice a1 a2 a3 a4) := by
  unfold execFenceDevice
  exact goodOut_next (State.nopOp_good ‹_›)

theorem execFenceSystem_good {og : Origin} {a1 : TumblerId} {a2 : SlotId} {a3 : IWord} {a4 : State} (h4 : Good og (a4)) :
    GoodOut og (@execFenceSystem a1 a2 a3 a4) := by
  unfold execFenceSystem
  exact goodOut_next (State.nopOp_good ‹_›)

end Sys2Proof.Machine
end

