-- ==== Sys2Proof/Laws/Keep/TumCtl.lean ====
section
/-! SUPPORT. What the operations of Machine/TumCtl.lean keep. -/

namespace Sys2Proof.Machine

theorem State.branch_good {og : Origin} {a1 : State} {a2 : Ctx} {a3 : Nat} {a4 : Member} (h1 : Good og (a1)) :
    Good og (@State.branch a1 a2 a3 a4) := by
  unfold State.branch
  extract_lets +onlyGivenNames x1; try clear_value x1
  extract_lets +onlyGivenNames x2; try clear_value x2
  split
  · rename_i w3 w4
    assumption
  · rename_i w5 w6 w7
    refine good_ite ?_ ?_
    · assumption
    · refine good_ite ?_ ?_
      · exact State.setGroup_good ‹_›
      · refine good_ite ?_ ?_
        · exact State.tumFault_good ‹_›
        · exact State.setGroup_good ‹_›

theorem State.braOp_good {og : Origin} {a1 : State} {a2 : Nat} {a3 : Nat} {a4 : IWord} (h1 : Good og (a1)) :
    Good og (@State.braOp a1 a2 a3 a4) := by
  unfold State.braOp
  refine State.issue_good ?_ ?_
  · assumption
  · intro v1 v2 v3
    extract_lets +onlyGivenNames x4; try clear_value x4
    extract_lets +onlyGivenNames x5; try clear_value x5
    extract_lets +onlyGivenNames x6
    have h7 : Good og (x6) := by
      subst x6
      refine good_ite ?_ ?_
      · assumption
      · exact State.split_good ‹_›
    try clear_value x6
    refine good_foldl ?_ (fun s8 y9 h10 => ?_)
    · assumption
    · exact State.branch_good ‹_›

theorem execBra_good {og : Origin} {a1 : TumblerId} {a2 : SlotId} {a3 : IWord} {a4 : State} (h4 : Good og (a4)) :
    GoodOut og (@execBra a1 a2 a3 a4) := by
  unfold execBra
  exact goodOut_next (State.braOp_good ‹_›)

theorem State.callOp_good {og : Origin} {a1 : State} {a2 : Nat} {a3 : Nat} {a4 : IWord} (h1 : Good og (a1)) :
    Good og (@State.callOp a1 a2 a3 a4) := by
  unfold State.callOp
  refine State.issue_good ?_ ?_
  · assumption
  · intro v1 v2 v3
    extract_lets +onlyGivenNames x4; try clear_value x4
    extract_lets +onlyGivenNames x5
    have h6 : Good og (x5) := by
      subst x5
      refine State.drawn_good ?_
      refine good_ite ?_ ?_
      · assumption
      · exact State.split_good ‹_›
    try clear_value x5
    exact State.eachMember_good ‹_›

theorem execCall_good {og : Origin} {a1 : TumblerId} {a2 : SlotId} {a3 : IWord} {a4 : State} (h4 : Good og (a4)) :
    GoodOut og (@execCall a1 a2 a3 a4) := by
  unfold execCall
  exact goodOut_next (State.callOp_good ‹_›)

theorem execRet_good {og : Origin} {a1 : TumblerId} {a2 : SlotId} {a3 : IWord} {a4 : State} (h4 : Good og (a4)) :
    GoodOut og (@execRet a1 a2 a3 a4) := by
  unfold execRet
  exact goodOut_next (State.callOp_good ‹_›)

theorem State.endGroup_good {og : Origin} {a1 : State} {a2 : Nat} {a3 : Nat} (h1 : Good og (a1)) :
    Good og (@State.endGroup a1 a2 a3) := by
  unfold State.endGroup
  split
  · rename_i w1 w2
    assumption
  · rename_i w3 w4 w5
    refine good_ite ?_ ?_
    · assumption
    · extract_lets +onlyGivenNames x6
      have h7 : Good og (x6) := by subst x6; exact State.modTumbler_good ‹_›
      try clear_value x6
      refine good_ite ?_ ?_
      · extract_lets +onlyGivenNames x8
        have h9 : Good og (x8) := by subst x8; exact State.modTumbler_good ‹_›
        try clear_value x8
        exact State.leaveTumbler_good (State.modLaunch_good ‹_›)
      · assumption

theorem State.exitOp_good {og : Origin} {a1 : State} {a2 : Nat} {a3 : Nat} {a4 : IWord} (h1 : Good og (a1)) :
    Good og (@State.exitOp a1 a2 a3 a4) := by
  unfold State.exitOp
  refine State.issue_good ?_ ?_
  · assumption
  · intro v1 v2 v3
    refine State.legal_good ?_ ?_
    · assumption
    · intro v4 v5
      extract_lets +onlyGivenNames x6
      have h7 : Good og (x6) := by subst x6; exact State.split_good ‹_›
      try clear_value x6
      extract_lets +onlyGivenNames x8
      have h9 : Good og (x8) := by subst x8; exact State.eachMember_good ‹_›
      try clear_value x8
      extract_lets +onlyGivenNames x10
      have h11 : Good og (x10) := by
        subst x10
        refine good_foldl ?_ (fun s12 y13 h14 => ?_)
        · assumption
        · exact State.endGroup_good (State.modGroup_good ‹_›)
      try clear_value x10
      exact State.releaseBars_good ‹_›

theorem execExit_good {og : Origin} {a1 : TumblerId} {a2 : SlotId} {a3 : IWord} {a4 : State} (h4 : Good og (a4)) :
    GoodOut og (@execExit a1 a2 a3 a4) := by
  unfold execExit
  exact goodOut_next (State.exitOp_good ‹_›)

theorem State.barWait_good {og : Origin} {a1 : State} {a2 : Ctx} {a3 : Member → Group → FragSt} (h1 : Good og (a1)) :
    Good og (@State.barWait a1 a2 a3) := by
  unfold State.barWait
  extract_lets +onlyGivenNames x1
  have h2 : Good og (x1) := by subst x1; exact State.split_good ‹_›
  try clear_value x1
  extract_lets +onlyGivenNames x3
  have h4 : Good og (x3) := by subst x3; exact State.eachMember_good ‹_›
  try clear_value x3
  exact State.releaseBars_good ‹_›

theorem State.bargOp_good {og : Origin} {a1 : State} {a2 : Nat} {a3 : Nat} {a4 : IWord} (h1 : Good og (a1)) :
    Good og (@State.bargOp a1 a2 a3 a4) := by
  unfold State.bargOp
  refine State.issue_good ?_ ?_
  · assumption
  · intro v1 v2 v3
    refine State.legal_good ?_ ?_
    · assumption
    · intro v4 v5
      exact State.barWait_good ‹_›

theorem execBarg_good {og : Origin} {a1 : TumblerId} {a2 : SlotId} {a3 : IWord} {a4 : State} (h4 : Good og (a4)) :
    GoodOut og (@execBarg a1 a2 a3 a4) := by
  unfold execBarg
  exact goodOut_next (State.bargOp_good ‹_›)

theorem State.barmOp_good {og : Origin} {a1 : State} {a2 : Nat} {a3 : Nat} {a4 : IWord} (h1 : Good og (a1)) :
    Good og (@State.barmOp a1 a2 a3 a4) := by
  unfold State.barmOp
  refine State.issue_good ?_ ?_
  · assumption
  · intro v1 v2 v3
    refine State.legal_good ?_ ?_
    · assumption
    · intro v4 v5
      refine good_ite ?_ ?_
      · exact State.tumFault_good ‹_›
      · exact State.barWait_good ‹_›

theorem execBarm_good {og : Origin} {a1 : TumblerId} {a2 : SlotId} {a3 : IWord} {a4 : State} (h4 : Good og (a4)) :
    GoodOut og (@execBarm a1 a2 a3 a4) := by
  unfold execBarm
  exact goodOut_next (State.barmOp_good ‹_›)

theorem State.barbOp_good {og : Origin} {a1 : State} {a2 : Nat} {a3 : Nat} {a4 : IWord} (h1 : Good og (a1)) :
    Good og (@State.barbOp a1 a2 a3 a4) := by
  unfold State.barbOp
  refine State.issue_good ?_ ?_
  · assumption
  · intro v1 v2 v3
    refine State.legal_good ?_ ?_
    · assumption
    · intro v4 v5
      exact State.barWait_good ‹_›

theorem execBarb_good {og : Origin} {a1 : TumblerId} {a2 : SlotId} {a3 : IWord} {a4 : State} (h4 : Good og (a4)) :
    GoodOut og (@execBarb a1 a2 a3 a4) := by
  unfold execBarb
  exact goodOut_next (State.barbOp_good ‹_›)

theorem State.barExpiry_good {og : Origin} {a1 : State} {a2 : Nat} {a3 : Nat} (h1 : Good og (a1)) :
    Good og (@State.barExpiry a1 a2 a3) := by
  unfold State.barExpiry
  extract_lets +onlyGivenNames x1; try clear_value x1
  split
  · rename_i w2 w3 w4
    exact State.tumFault_good ‹_›
  · rename_i w5 w6
    assumption

theorem execBarrierWatchdogExpiry_good {og : Origin} {a1 : TumblerId} {a2 : Nat} {a3 : State} (h3 : Good og (a3)) :
    GoodOut og (@execBarrierWatchdogExpiry a1 a2 a3) := by
  unfold execBarrierWatchdogExpiry
  exact goodOut_next (State.barExpiry_good ‹_›)

theorem State.repackExpiry_good {og : Origin} {a1 : State} {a2 : Nat} {a3 : Nat} (h1 : Good og (a1)) :
    Good og (@State.repackExpiry a1 a2 a3) := by
  unfold State.repackExpiry
  exact State.modGroup_good ‹_›

theorem execRepackWaitExpiry_good {og : Origin} {a1 : TumblerId} {a2 : SlotId} {a3 : State} (h3 : Good og (a3)) :
    GoodOut og (@execRepackWaitExpiry a1 a2 a3) := by
  unfold execRepackWaitExpiry
  exact goodOut_next (State.repackExpiry_good ‹_›)

theorem State.issueOne_good {og : Origin} {a1 : State} {a2 : Ctx} {a3 : Bool} {a4 : Member} (h1 : Good og (a1)) :
    Good og (@State.issueOne a1 a2 a3 a4) := by
  unfold State.issueOne
  split
  · rename_i w1 w2 w3 w4 w5 w6
    extract_lets +onlyGivenNames x7; try clear_value x7
    refine good_ite ?_ ?_
    · exact State.tumFault_good ‹_›
    · extract_lets +onlyGivenNames x8
      try clear_value x8
      extract_lets +onlyGivenNames x9; try clear_value x9
      extract_lets +onlyGivenNames x10
      have h11 : Good og (x10) := by subst x10; exact State.setGroup_good ‹_›
      try clear_value x10
      refine good_ite ?_ ?_
      · exact State.send_good ‹_›
      · exact State.send_good ‹_›
  · rename_i w12 w13 w14
    assumption

theorem State.engineOp_good {og : Origin} {a1 : State} {a2 : Nat} {a3 : Nat} {a4 : IWord} {a5 : Bool} (h1 : Good og (a1)) :
    Good og (@State.engineOp a1 a2 a3 a4 a5) := by
  unfold State.engineOp
  refine State.issue_good ?_ ?_
  · assumption
  · intro v1 v2 v3
    refine State.legal_good ?_ ?_
    · assumption
    · intro v4 v5
      refine good_foldl ?_ (fun s6 y7 h8 => ?_)
      · assumption
      · exact State.issueOne_good ‹_›

theorem execAissue_good {og : Origin} {a1 : TumblerId} {a2 : SlotId} {a3 : IWord} {a4 : State} (h4 : Good og (a4)) :
    GoodOut og (@execAissue a1 a2 a3 a4) := by
  unfold execAissue
  exact goodOut_next (State.engineOp_good ‹_›)

theorem execRissue_good {og : Origin} {a1 : TumblerId} {a2 : SlotId} {a3 : IWord} {a4 : State} (h4 : Good og (a4)) :
    GoodOut og (@execRissue a1 a2 a3 a4) := by
  unfold execRissue
  exact goodOut_next (State.engineOp_good ‹_›)

theorem State.freeSlot_good {og : Origin} {a1 : State} {a2 : Nat} {a3 : Nat} (h1 : Good og (a1)) :
    Good og (@State.freeSlot a1 a2 a3) := by
  unfold State.freeSlot
  exact State.modTumbler_good ‹_›

theorem State.writeLanes_good {og : Origin} {a1 : State} {a2 : Nat} {a3 : Nat} {a4 : Nat} {a5 : Nat} {a6 : Nat} {a7 : Nat → Nat} (h1 : Good og (a1)) :
    Good og (@State.writeLanes a1 a2 a3 a4 a5 a6 a7) := by
  unfold State.writeLanes
  exact State.modGroup_good ‹_›

theorem State.releaseToken_good {og : Origin} {a1 : State} {a2 : Nat} {a3 : Nat} {a4 : Nat} (h1 : Good og (a1)) :
    Good og (@State.releaseToken a1 a2 a3 a4).1 := by
  unfold State.releaseToken
  extract_lets +onlyGivenNames x1; try clear_value x1
  exact good_pair (State.modTumbler_good ‹_›)

theorem State.twaitOne_good {og : Origin} {a1 : State} {a2 : Ctx} {a3 : Member} (h1 : Good og (a1)) :
    Good og (@State.twaitOne a1 a2 a3) := by
  unfold State.twaitOne
  split
  · rename_i w1 w2 w3 w4 w5 w6
    extract_lets +onlyGivenNames x7; try clear_value x7
    extract_lets +onlyGivenNames x8
    subst x8
    split
    · rename_i w9 w10
      exact State.writeLanes_good ‹_›
    · rename_i w11 w12 w13 w14
      split
      · rename_i w15 w16 w17
        exact State.freeSlot_good (State.writeLanes_good ‹_›)
      · rename_i w18 w19
        refine good_ite ?_ ?_
        · extract_lets +onlyGivenNames x20
          try clear_value x20
          exact State.drawn_good (State.writeLanes_good ‹_›)
        · exact State.setGroup_good ‹_›
  · rename_i w21 w22 w23
    assumption

theorem State.twaitOp_good {og : Origin} {a1 : State} {a2 : Nat} {a3 : Nat} {a4 : IWord} (h1 : Good og (a1)) :
    Good og (@State.twaitOp a1 a2 a3 a4) := by
  unfold State.twaitOp
  refine State.issue_good ?_ ?_
  · assumption
  · intro v1 v2 v3
    refine State.legal_good ?_ ?_
    · assumption
    · intro v4 v5
      refine good_foldl ?_ (fun s6 y7 h8 => ?_)
      · assumption
      · exact State.twaitOne_good ‹_›

theorem execTwait_good {og : Origin} {a1 : TumblerId} {a2 : SlotId} {a3 : IWord} {a4 : State} (h4 : Good og (a4)) :
    GoodOut og (@execTwait a1 a2 a3 a4) := by
  unfold execTwait
  exact goodOut_next (State.twaitOp_good ‹_›)

theorem State.tokenCompletion_good {og : Origin} {a1 : State} {a2 : Nat} (h1 : Good og (a1)) :
    Good og (@State.tokenCompletion a1 a2) := by
  unfold State.tokenCompletion
  extract_lets +onlyGivenNames x1
  have h2 : Good og (x1) := by subst x1; exact State.passMarkers_good ‹_›
  try clear_value x1
  split
  · rename_i w3 w4 w5 w6 w7 w8
    extract_lets +onlyGivenNames x9
    have h10 : Good og (x9) := by subst x9; exact State.popMsg_good ‹_›
    try clear_value x9
    split
    · rename_i w11 w12
      assumption
    · rename_i w13 w14 w15
      refine good_ite ?_ ?_
      · assumption
      · extract_lets +onlyGivenNames x16
        have h17 : Good og (x16) := by subst x16; exact State.modTumbler_good ‹_›
        try clear_value x16
        split
        · rename_i w18 w19 w20 w21
          have h22 : Good og w19 := good_fst w21 (State.releaseToken_good ‹_›)
          refine good_ite ?_ ?_
          · exact State.freeSlot_good ‹_›
          · assumption
  · rename_i w23 w24
    assumption

theorem execTokenCompletion_good {og : Origin} {a1 : TumblerId} {a2 : State} (h2 : Good og (a2)) :
    GoodOut og (@execTokenCompletion a1 a2) := by
  unfold execTokenCompletion
  exact goodOut_next (State.tokenCompletion_good ‹_›)

end Sys2Proof.Machine
end

