-- ==== Sys2Proof/Laws/Keep/TumData.lean ====
section
/-! SUPPORT. What the operations of Machine/TumData.lean keep. -/

namespace Sys2Proof.Machine

theorem State.randOne_good {og : Origin} {a1 : State} {a2 : Ctx} {a3 : Member} (h1 : Good og (a1)) :
    Good og (@State.randOne a1 a2 a3) := by
  unfold State.randOne
  split
  · rename_i w1 w2 w3 w4 w5 w6
    extract_lets +onlyGivenNames x7; try clear_value x7
    refine good_ite ?_ ?_
    · exact State.tumFault_good ‹_›
    · extract_lets +onlyGivenNames x8
      try clear_value x8
      extract_lets +onlyGivenNames x9; try clear_value x9
      split
      · rename_i w10 w11 w12 w13
        have h14 : Good og w11 := good_fst w13 (State.claim_good ‹_›)
        exact State.modGroup_good ‹_›
  · rename_i w15 w16 w17
    assumption

theorem State.randOp_good {og : Origin} {a1 : State} {a2 : Nat} {a3 : Nat} {a4 : IWord} (h1 : Good og (a1)) :
    Good og (@State.randOp a1 a2 a3 a4) := by
  unfold State.randOp
  refine State.issue_good ?_ ?_
  · assumption
  · intro v1 v2 v3
    refine State.legal_good ?_ ?_
    · assumption
    · intro v4 v5
      refine good_foldl ?_ (fun s6 y7 h8 => ?_)
      · assumption
      · exact State.randOne_good ‹_›

theorem execRand_good {og : Origin} {a1 : TumblerId} {a2 : SlotId} {a3 : IWord} {a4 : State} (h4 : Good og (a4)) :
    GoodOut og (@execRand a1 a2 a3 a4) := by
  unfold execRand
  exact goodOut_next (State.randOp_good ‹_›)

theorem State.cvtOne_good {og : Origin} {a1 : State} {a2 : Ctx} {a3 : Member} (h1 : Good og (a1)) :
    Good og (@State.cvtOne a1 a2 a3) := by
  unfold State.cvtOne
  split
  · rename_i w1 w2 w3 w4 w5 w6
    extract_lets +onlyGivenNames x7; try clear_value x7
    extract_lets +onlyGivenNames x8; try clear_value x8
    refine good_ite ?_ ?_
    · exact State.tumFault_good ‹_›
    · extract_lets +onlyGivenNames x9
      try clear_value x9
      split
      · rename_i w10 w11 w12 w13
        have h14 : Good og w11 := by
          refine good_fst w13 ?_
          refine good_ite_fst ?_ ?_
          · exact State.claim_good ‹_›
          · exact good_pair ‹_›
        extract_lets +onlyGivenNames x15; try clear_value x15
        exact State.drawn_good (State.modGroup_good ‹_›)
  · rename_i w16 w17 w18
    assumption

theorem State.cvtOp_good {og : Origin} {a1 : State} {a2 : Nat} {a3 : Nat} {a4 : IWord} (h1 : Good og (a1)) :
    Good og (@State.cvtOp a1 a2 a3 a4) := by
  unfold State.cvtOp
  extract_lets +onlyGivenNames x1; try clear_value x1
  refine State.issue_good ?_ ?_
  · assumption
  · intro v2 v3 v4
    refine State.legal_good ?_ ?_
    · assumption
    · intro v5 v6
      refine good_foldl ?_ (fun s7 y8 h9 => ?_)
      · assumption
      · exact State.cvtOne_good ‹_›

theorem execCvt_good {og : Origin} {a1 : TumblerId} {a2 : SlotId} {a3 : IWord} {a4 : State} (h4 : Good og (a4)) :
    GoodOut og (@execCvt a1 a2 a3 a4) := by
  unfold execCvt
  exact goodOut_next (State.cvtOp_good ‹_›)

theorem State.nearGran_good {og : Origin} {a1 : State} {a2 : Nat} {a3 : Nat} {a4 : Nat} {a5 : Nat} (h1 : Good og (a1)) :
    Good og (@State.nearGran a1 a2 a3 a4 a5).1 := by
  unfold State.nearGran
  extract_lets +onlyGivenNames x1; try clear_value x1
  extract_lets +onlyGivenNames x2; try clear_value x2
  refine good_ite_fst ?_ ?_
  · exact good_pair (State.count_good ‹_›)
  · extract_lets +onlyGivenNames x3
    have h4 : Good og (x3) := by subst x3; exact State.readBytes_good (State.count_good ‹_›)
    try clear_value x3
    extract_lets +onlyGivenNames x5; try clear_value x5
    extract_lets +onlyGivenNames x6; try clear_value x6
    exact good_pair (State.nearPut_good ‹_›)

theorem State.nearBytes_good {og : Origin} {a1 : State} {a2 : Nat} {a3 : Nat} {a4 : Nat} {a5 : Nat} {a6 : Nat} (h1 : Good og (a1)) :
    Good og (@State.nearBytes a1 a2 a3 a4 a5 a6).1 := by
  unfold State.nearBytes
  extract_lets +onlyGivenNames x1
  have h2 : Good og (x1).1 := by
    subst x1
    refine good_foldl_fst ?_ (fun s3 y4 h5 => ?_)
    · exact good_pair ‹_›
    · split
      · rename_i w6 w7 w8 w9
        have h10 : Good og w7 := good_fst w9 (State.nearGran_good ‹_›)
        exact good_pair ‹_›
  try clear_value x1
  exact good_pair ‹_›

theorem State.nearWrite_good {og : Origin} {a1 : State} {a2 : Nat} {a3 : Nat} {a4 : Nat} {a5 : Nat} {a6 : List Byte} (h1 : Good og (a1)) :
    Good og (@State.nearWrite a1 a2 a3 a4 a5 a6) := by
  unfold State.nearWrite
  refine good_foldl ?_ (fun s1 y2 h3 => ?_)
  · assumption
  · extract_lets +onlyGivenNames x4
    try clear_value x4
    extract_lets +onlyGivenNames x5; try clear_value x5
    extract_lets +onlyGivenNames x6; try clear_value x6
    extract_lets +onlyGivenNames x7; try clear_value x7
    extract_lets +onlyGivenNames x8; try clear_value x8
    exact State.nearPut_good ‹_›

theorem State.spanLoad_good {og : Origin} {a1 : State} {a2 : Nat} {a3 : Launch} {a4 : Nat} {a5 : Nat} (h1 : Good og (a1)) :
    Good og (@State.spanLoad a1 a2 a3 a4 a5).1 := by
  unfold State.spanLoad
  split
  · rename_i w1 w2 w3 w4 w5 w6
    have h7 : Good og w2 := good_fst w6 (State.translateSpan_good ‹_›)
    exact good_pair ‹_›
  · rename_i w8 w9 w10 w11
    have h12 : Good og w9 := good_fst w11 (State.translateSpan_good ‹_›)
    extract_lets +onlyGivenNames x13
    have h14 : Good og (x13).1 := by
      subst x13
      refine good_foldl_fst ?_ (fun s15 y16 h17 => ?_)
      · exact good_pair ‹_›
      · split
        · rename_i w18 w19 w20 w21 w22
          have h23 : Good og w19 := good_fst w22 (State.nearBytes_good ‹_›)
          exact good_pair ‹_›
    try clear_value x13
    refine good_ite_fst ?_ ?_
    · exact good_pair ‹_›
    · exact good_pair ‹_›

theorem State.spanStore_good {og : Origin} {a1 : State} {a2 : Nat} {a3 : Launch} {a4 : Nat} {a5 : List Byte} (h1 : Good og (a1)) :
    Good og (@State.spanStore a1 a2 a3 a4 a5).1 := by
  unfold State.spanStore
  split
  · rename_i w1 w2 w3 w4 w5 w6
    have h7 : Good og w2 := good_fst w6 (State.translateSpan_good ‹_›)
    exact good_pair ‹_›
  · rename_i w8 w9 w10 w11
    have h12 : Good og w9 := good_fst w11 (State.translateSpan_good ‹_›)
    refine good_pair ?_
    refine good_foldl_fst ?_ (fun s13 y14 h15 => ?_)
    · exact good_pair ‹_›
    · exact good_pair (State.nearWrite_good ‹_›)

theorem State.fieldAtomic_good {og : Origin} {a1 : State} {a2 : Nat} {a3 : Launch} {a4 : Nat} {a5 : Nat} {a6 : Nat → Nat} (h1 : Good og (a1)) :
    Good og (@State.fieldAtomic a1 a2 a3 a4 a5 a6).1 := by
  unfold State.fieldAtomic
  split
  · rename_i w1 w2 w3 w4 w5 w6
    have h7 : Good og w2 := good_fst w6 (State.translateSpan_good ‹_›)
    exact good_pair ‹_›
  · rename_i w8 w9 w10 w11
    have h12 : Good og w9 := good_fst w11 (State.translateSpan_good ‹_›)
    extract_lets +onlyGivenNames x13
    have h14 : Good og (x13) := by
      subst x13
      refine good_foldl ?_ (fun s15 y16 h17 => ?_)
      · assumption
      · exact State.nearFlush_good ‹_›
    try clear_value x13
    refine good_ite_fst ?_ ?_
    · exact good_pair ‹_›
    · extract_lets +onlyGivenNames x18
      try clear_value x18
      exact good_pair (State.writeSpans_good (State.touchSpans_good ‹_›))

theorem Part2.andThen_good {og : Origin} {a1 : Type} {a2 : Type} {a3 : Part2 a1} {a4 : State → a1 → Part2 a2} (h3 : Good og (a3).1) (h4 : ∀ b1 b2, Good og (b1) → Good og (a4 b1 b2).1) :
    Good og (@Part2.andThen a1 a2 a3 a4).1 := by
  unfold Part2.andThen
  split
  · rename_i w1 w2 w3
    exact good_pair ‹_›
  · rename_i w4 w5 w6
    exact h4 _ _ ‹_›

theorem State.qEscape_good {og : Origin} {a1 : State} {a2 : Nat} {a3 : Launch} {a4 : List Byte} {a5 : List Byte} {a6 : Nat} {a7 : Nat × List Nat} (h1 : Good og (a1)) :
    Good og (@State.qEscape a1 a2 a3 a4 a5 a6 a7).1 := by
  unfold State.qEscape
  refine Part2.andThen_good ?_ ?_
  · exact State.fieldAtomic_good ‹_›
  · intro v1 v2 v3
    exact State.spanStore_good ‹_›

theorem State.qHeader_good {og : Origin} {a1 : State} {a2 : Nat} {a3 : Launch} {a4 : List Byte} {a5 : Nat} {a6 : QBlock} (h1 : Good og (a1)) :
    Good og (@State.qHeader a1 a2 a3 a4 a5 a6).1 := by
  unfold State.qHeader
  refine Part2.andThen_good ?_ ?_
  · exact State.fieldAtomic_good ‹_›
  · intro v1 v2 v3
    refine Part2.andThen_good ?_ ?_
    · exact State.fieldAtomic_good ‹_›
    · intro v4 v5 v6
      refine Part2.andThen_good ?_ ?_
      · exact State.fieldAtomic_good ‹_›
      · intro v7 v8 v9
        refine Part2.andThen_good ?_ ?_
        · exact State.fieldAtomic_good ‹_›
        · intro v10 v11 v12
          exact good_pair ‹_›

theorem State.qEncode_good {og : Origin} {a1 : State} {a2 : Ctx} {a3 : Member} {a4 : Group} {a5 : List Byte} {a6 : Nat} {a7 : Nat → Nat} (h1 : Good og (a1)) :
    Good og (@State.qEncode a1 a2 a3 a4 a5 a6 a7).1 := by
  unfold State.qEncode
  refine Part2.andThen_good ?_ ?_
  · exact State.fieldAtomic_good ‹_›
  · intro v1 v2 v3
    extract_lets +onlyGivenNames x4; try clear_value x4
    extract_lets +onlyGivenNames x5; try clear_value x5
    extract_lets +onlyGivenNames x6
    have h7 : Good og (x6) := by subst x6; exact State.drawn_good ‹_›
    try clear_value x6
    refine Part2.andThen_good ?_ ?_
    · split
      · rename_i w8 w9 w10
        exact State.qEscape_good ‹_›
      · rename_i w11 w12
        refine good_ite_fst ?_ ?_
        · exact good_pair ‹_›
        · refine Part2.andThen_good ?_ ?_
          · exact State.fieldAtomic_good ‹_›
          · intro v13 v14 v15
            exact good_pair ‹_›
    · intro v16 v17 v18
      refine Part2.andThen_good ?_ ?_
      · exact State.spanStore_good ‹_›
      · intro v19 v20 v21
        refine Part2.andThen_good ?_ ?_
        · exact State.qHeader_good ‹_›
        · intro v22 v23 v24
          extract_lets +onlyGivenNames x25
          have h26 : Good og (x25) := by
            subst x25
            split
            · rename_i w27 w28 w29
              exact State.reportAmax_good ‹_›
            · rename_i w30 w31
              assumption
          try clear_value x25
          exact good_pair ‹_›

theorem State.qDecodeOne_good {og : Origin} {a1 : State} {a2 : Ctx} {a3 : Group} {a4 : List Byte} {a5 : Nat} (h1 : Good og (a1)) :
    Good og (@State.qDecodeOne a1 a2 a3 a4 a5).1 := by
  unfold State.qDecodeOne
  refine Part2.andThen_good ?_ ?_
  · exact State.spanLoad_good ‹_›
  · intro v1 v2 v3
    extract_lets +onlyGivenNames x4; try clear_value x4
    refine Part2.andThen_good ?_ ?_
    · refine good_ite_fst ?_ ?_
      · refine Part2.andThen_good ?_ ?_
        · exact State.spanLoad_good ‹_›
        · intro v5 v6 v7
          exact good_pair ‹_›
      · exact good_pair ‹_›
    · intro v8 v9 v10
      refine good_ite_fst ?_ ?_
      · exact good_pair (good_mk ‹_› rfl rfl rfl rfl rfl rfl rfl)
      · exact good_pair ‹_›

theorem State.qblkOne_good {og : Origin} {a1 : State} {a2 : Ctx} {a3 : Member} (h1 : Good og (a1)) :
    Good og (@State.qblkOne a1 a2 a3) := by
  unfold State.qblkOne
  split
  · rename_i w1 w2 w3 w4 w5 w6
    extract_lets +onlyGivenNames x7; try clear_value x7
    refine good_ite ?_ ?_
    · exact State.tumFault_good ‹_›
    · extract_lets +onlyGivenNames x8
      try clear_value x8
      extract_lets +onlyGivenNames x9; try clear_value x9
      extract_lets +onlyGivenNames x10; try clear_value x10
      refine good_ite ?_ ?_
      · exact State.tumFault_good ‹_›
      · extract_lets +onlyGivenNames x11
        try clear_value x11
        split
        · rename_i w12 w13 w14 w15
          have h16 : Good og w13 := by
            refine good_fst w15 ?_
            refine good_ite_fst ?_ ?_
            · exact State.claim_good ‹_›
            · exact good_pair ‹_›
          split
          · rename_i w17 w18 w19 w20 w21 w22 w23
            have h24 : Good og w18 := by
              refine good_fst w23 ?_
              refine good_ite_fst ?_ ?_
              · exact State.qDecodeOne_good ‹_›
              · exact State.qEncode_good ‹_›
            exact State.tumMemFault_good ‹_›
          · rename_i w25 w26 w27 w28
            have h29 : Good og w26 := by
              refine good_fst w28 ?_
              refine good_ite_fst ?_ ?_
              · exact State.qDecodeOne_good ‹_›
              · exact State.qEncode_good ‹_›
            exact State.modGroup_good ‹_›
  · rename_i w30 w31 w32
    assumption

theorem State.qblkOp_good {og : Origin} {a1 : State} {a2 : Nat} {a3 : Nat} {a4 : IWord} (h1 : Good og (a1)) :
    Good og (@State.qblkOp a1 a2 a3 a4) := by
  unfold State.qblkOp
  refine State.issue_good ?_ ?_
  · assumption
  · intro v1 v2 v3
    refine State.legal_good ?_ ?_
    · assumption
    · intro v4 v5
      refine good_foldl ?_ (fun s6 y7 h8 => ?_)
      · assumption
      · exact State.qblkOne_good ‹_›

theorem execQblk_good {og : Origin} {a1 : TumblerId} {a2 : SlotId} {a3 : IWord} {a4 : State} (h4 : Good og (a4)) :
    GoodOut og (@execQblk a1 a2 a3 a4) := by
  unfold execQblk
  exact goodOut_next (State.qblkOp_good ‹_›)

theorem State.spoisonOne_good {og : Origin} {a1 : State} {a2 : Ctx} {a3 : Member} (h1 : Good og (a1)) :
    Good og (@State.spoisonOne a1 a2 a3) := by
  unfold State.spoisonOne
  split
  · rename_i w1 w2 w3 w4 w5 w6
    extract_lets +onlyGivenNames x7; try clear_value x7
    refine good_ite ?_ ?_
    · exact State.sendPoison_good ‹_›
    · assumption
  · rename_i w8 w9 w10
    assumption

theorem State.spoisonOp_good {og : Origin} {a1 : State} {a2 : Nat} {a3 : Nat} {a4 : IWord} (h1 : Good og (a1)) :
    Good og (@State.spoisonOp a1 a2 a3 a4) := by
  unfold State.spoisonOp
  refine State.issue_good ?_ ?_
  · assumption
  · intro v1 v2 v3
    refine State.legal_good ?_ ?_
    · assumption
    · intro v4 v5
      refine good_foldl ?_ (fun s6 y7 h8 => ?_)
      · assumption
      · exact State.spoisonOne_good ‹_›

theorem execSpoison_good {og : Origin} {a1 : TumblerId} {a2 : SlotId} {a3 : IWord} {a4 : State} (h4 : Good og (a4)) :
    GoodOut og (@execSpoison a1 a2 a3 a4) := by
  unfold execSpoison
  exact goodOut_next (State.spoisonOp_good ‹_›)

end Sys2Proof.Machine
end

