-- ==== Sys2Proof/Laws/Keep/TumLaunch.lean ====
section
/-! SUPPORT. What the operations of Machine/TumLaunch.lean keep. -/

namespace Sys2Proof.Machine

theorem State.blockPlace_good {og : Origin} {a1 : State} {a2 : Nat} {a3 : Nat} (h1 : Good og (a1)) :
    Good og (@State.blockPlace a1 a2 a3) := by
  unfold State.blockPlace
  extract_lets +onlyGivenNames x1
  have h2 : Good og (x1) := by subst x1; exact State.passMarkers_good ‹_›
  try clear_value x1
  split
  · rename_i w3 w4
    assumption
  · rename_i w5 w6 w7
    refine good_ite ?_ ?_
    · assumption
    · split
      · rename_i w8 w9
        assumption
      · rename_i w10 w11 w12
        extract_lets +onlyGivenNames x13; try clear_value x13
        extract_lets +onlyGivenNames x14
        have h15 : Good og (x14) := by subst x14; exact State.modLaunch_good ‹_›
        try clear_value x14
        extract_lets +onlyGivenNames x16
        have h17 : Good og (x16) := by subst x16; exact State.modTumbler_good ‹_›
        try clear_value x16
        extract_lets +onlyGivenNames x18
        have h19 : Good og (x18) := by
          subst x18
          refine good_foldl ?_ (fun s20 y21 h22 => ?_)
          · assumption
          · exact State.setGroup_good ‹_›
        try clear_value x18
        split
        · rename_i w23 w24 w25 w26 w27 w28
          have h29 : Good og w24 := good_fst w28 (State.fetchSpan_good ‹_›)
          exact State.tumMemFault_good ‹_›
        · rename_i w30 w31 w32 w33
          have h34 : Good og w31 := good_fst w33 (State.fetchSpan_good ‹_›)
          exact State.modBlock_good ‹_›

theorem execBlockPlace_good {og : Origin} {a1 : Nat} {a2 : TumblerId} {a3 : State} (h3 : Good og (a3)) :
    GoodOut og (@execBlockPlace a1 a2 a3) := by
  unfold execBlockPlace
  exact goodOut_next (State.blockPlace_good ‹_›)

theorem State.launchStop_good {og : Origin} {a1 : State} {a2 : Nat} (h1 : Good og (a1)) :
    Good og (@State.launchStop a1 a2) := by
  unfold State.launchStop
  split
  · rename_i w1 w2
    assumption
  · rename_i w3 w4 w5
    refine good_ite ?_ ?_
    · refine good_foldl ?_ (fun s6 y7 h8 => ?_)
      · assumption
      · exact State.stopHere_good ‹_›
    · assumption

theorem execLaunchStop_good {og : Origin} {a1 : Nat} {a2 : State} (h2 : Good og (a2)) :
    GoodOut og (@execLaunchStop a1 a2) := by
  unfold execLaunchStop
  exact goodOut_next (State.launchStop_good ‹_›)

theorem State.launchComplete_good {og : Origin} {a1 : State} {a2 : Nat} (h1 : Good og (a1)) :
    Good og (@State.launchComplete a1 a2) := by
  unfold State.launchComplete
  split
  · rename_i w1 w2
    assumption
  · rename_i w3 w4 w5
    refine good_ite ?_ ?_
    · extract_lets +onlyGivenNames x6
      have h7 : Good og (x6) := by subst x6; exact good_mk ‹_› rfl rfl rfl rfl rfl rfl rfl
      try clear_value x6
      extract_lets +onlyGivenNames x8
      have h9 : Good og (x8) := by
        subst x8
        refine good_ite ?_ ?_
        · exact State.markFaults_good ‹_›
        · assumption
      try clear_value x8
      exact State.finish_good ‹_›
    · assumption

theorem execLaunchComplete_good {og : Origin} {a1 : Nat} {a2 : State} (h2 : Good og (a2)) :
    GoodOut og (@execLaunchComplete a1 a2) := by
  unfold execLaunchComplete
  exact goodOut_next (State.launchComplete_good ‹_›)

theorem State.saveBlock_good {og : Origin} {a1 : State} {a2 : Nat} {a3 : Nat} (h1 : Good og (a1)) :
    Good og (@State.saveBlock a1 a2 a3) := by
  unfold State.saveBlock
  split
  · rename_i w1 w2
    assumption
  · rename_i w3 w4 w5
    refine good_ite ?_ ?_
    · assumption
    · exact State.scribble_good ‹_›

theorem State.blockPreempt_good {og : Origin} {a1 : State} {a2 : Nat} {a3 : Nat} {a4 : Nat} (h1 : Good og (a1)) :
    Good og (@State.blockPreempt a1 a2 a3 a4) := by
  unfold State.blockPreempt
  extract_lets +onlyGivenNames x1; try clear_value x1
  extract_lets +onlyGivenNames x2; try clear_value x2
  refine good_ite ?_ ?_
  · assumption
  · extract_lets +onlyGivenNames x3
    have h4 : Good og (x3) := by subst x3; exact State.split_good ‹_›
    try clear_value x3
    extract_lets +onlyGivenNames x5; try clear_value x5
    exact State.saveBlock_good (State.modTumbler_good ‹_›)

theorem execBlockPreempt_good {og : Origin} {a1 : TumblerId} {a2 : Nat} {a3 : Nat} {a4 : State} (h4 : Good og (a4)) :
    GoodOut og (@execBlockPreempt a1 a2 a3 a4) := by
  unfold execBlockPreempt
  exact goodOut_next (State.blockPreempt_good ‹_›)

theorem State.loadBlock_good {og : Origin} {a1 : State} {a2 : Nat} {a3 : Launch} (h1 : Good og (a1)) :
    Good og (@State.loadBlock a1 a2 a3).1 := by
  unfold State.loadBlock
  refine good_ite_fst ?_ ?_
  · exact good_pair ‹_›
  · exact State.fetchSpan_good ‹_›

theorem State.blockResume_good {og : Origin} {a1 : State} {a2 : Nat} {a3 : Nat} {a4 : Nat} (h1 : Good og (a1)) :
    Good og (@State.blockResume a1 a2 a3 a4) := by
  unfold State.blockResume
  split
  · rename_i w1 w2 w3 w4 w5 w6
    split
    · rename_i w7 w8
      assumption
    · rename_i w9 w10 w11
      refine good_ite ?_ ?_
      · assumption
      · split
        · rename_i w12 w13
          assumption
        · rename_i w14 w15 w16
          extract_lets +onlyGivenNames x17
          have h18 : Good og (x17) := by subst x17; exact State.modTumbler_good ‹_›
          try clear_value x17
          extract_lets +onlyGivenNames x19
          have h20 : Good og (x19) := by
            subst x19
            refine good_foldl ?_ (fun s21 y22 h23 => ?_)
            · assumption
            · exact State.setGroup_good ‹_›
          try clear_value x19
          split
          · rename_i w24 w25 w26 w27 w28 w29
            have h30 : Good og w25 := good_fst w29 (State.loadBlock_good ‹_›)
            exact State.tumMemFault_good ‹_›
          · rename_i w31 w32 w33 w34
            have h35 : Good og w32 := good_fst w34 (State.loadBlock_good ‹_›)
            exact State.releaseBars_good ‹_›
  · rename_i w36 w37 w38
    assumption

theorem execBlockResume_good {og : Origin} {a1 : TumblerId} {a2 : Nat} {a3 : Nat} {a4 : State} (h4 : Good og (a4)) :
    GoodOut og (@execBlockResume a1 a2 a3 a4) := by
  unfold execBlockResume
  exact goodOut_next (State.blockResume_good ‹_›)

theorem execTumblerReady_good {og : Origin} {a1 : TumblerId} {a2 : State} (h2 : Good og (a2)) :
    GoodOut og (@execTumblerReady a1 a2) := by
  unfold execTumblerReady
  refine goodOut_next ?_
  refine good_ite ?_ ?_
  · assumption
  · exact State.setTumbler_good ‹_›

theorem State.tumReset_good {og : Origin} {a1 : State} {a2 : Nat} (h1 : Good og (a1)) :
    Good og (@State.tumReset a1 a2) := by
  unfold State.tumReset
  extract_lets +onlyGivenNames x1; try clear_value x1
  extract_lets +onlyGivenNames x2; try clear_value x2
  extract_lets +onlyGivenNames x3; try clear_value x3
  exact good_mk ‹_› rfl rfl rfl rfl rfl rfl rfl

end Sys2Proof.Machine
end

