-- ==== Sys2Proof/Laws/Keep/FabBase.lean ====
section
/-! SUPPORT. What the operations of Machine/FabBase.lean keep. -/

namespace Sys2Proof.Machine

theorem State.modPort_good {og : Origin} {a1 : State} {a2 : Nat} {a3 : Port → Port} (h1 : Good og (a1)) :
    Good og (@State.modPort a1 a2 a3) := by
  unfold State.modPort
  refine good_mk ?_ rfl rfl rfl rfl rfl rfl rfl
  assumption

theorem State.sendFlit_good {og : Origin} {a1 : Nat} {a2 : State} {a3 : Nat × List Byte} (h2 : Good og (a2)) :
    Good og (@State.sendFlit a1 a2 a3) := by
  unfold State.sendFlit
  extract_lets +onlyGivenNames x1
  try clear_value x1
  extract_lets +onlyGivenNames x2
  try clear_value x2
  refine State.emit_good ?_
  refine State.modPort_good ?_
  assumption

theorem State.owe_good {og : Origin} {a1 : State} {a2 : Nat} {a3 : Nat} {a4 : List Byte} (h1 : Good og (a1)) :
    Good og (@State.owe a1 a2 a3 a4) := by
  unfold State.owe
  refine State.modPort_good ?_
  assumption

theorem State.txStep_good {og : Origin} {a1 : Nat} {a2 : State} (h2 : Good og (a2)) :
    Good og (@State.txStep a1 a2) := by
  unfold State.txStep
  split
  · rename_i w1 w2
    assumption
  · rename_i w3 w4 w5 w6 w7
    extract_lets +onlyGivenNames x8
    try clear_value x8
    extract_lets +onlyGivenNames x9
    try clear_value x9
    refine good_ite ?_ ?_
    · assumption
    · extract_lets +onlyGivenNames x10
      try clear_value x10
      extract_lets +onlyGivenNames x11
      try clear_value x11
      extract_lets +onlyGivenNames x12
      have h13 : Good og (x12) := by
        subst x12
        refine State.modPort_good ?_
        assumption
      try clear_value x12
      refine State.count_good ?_
      refine good_foldl ?_ (fun s14 y15 h16 => ?_)
      · refine State.emit_good ?_
        assumption
      · refine State.sendFlit_good ?_
        assumption

theorem State.drainTx_good {og : Origin} {a1 : State} {a2 : Nat} (h1 : Good og (a1)) :
    Good og (@State.drainTx a1 a2) := by
  unfold State.drainTx
  refine good_times ?_ (fun s1 h2 => ?_)
  · assumption
  · refine State.txStep_good ?_
    assumption

theorem State.sendPacket_good {og : Origin} {a1 : State} {a2 : Nat} {a3 : List Byte} {a4 : Option Nat} (h1 : Good og (a1)) :
    Good og (@State.sendPacket a1 a2 a3 a4) := by
  unfold State.sendPacket
  refine State.drainTx_good ?_
  refine State.modPort_good ?_
  assumption

theorem State.setReqs_good {og : Origin} {a1 : State} {a2 : List FabReq} (h1 : Good og (a1)) :
    Good og (@State.setReqs a1 a2) := by
  unfold State.setReqs
  extract_lets +onlyGivenNames x1
  try clear_value x1
  refine State.wr_good ?_
  refine State.wr_good ?_
  refine good_mk ?_ rfl rfl rfl rfl rfl rfl rfl
  assumption

theorem State.pumpReq_good {og : Origin} {a1 : State × List (Nat × Nat × Nat)} {a2 : FabReq} (h1 : Good og (a1).1) :
    Good og (@State.pumpReq a1 a2).1 := by
  unfold State.pumpReq
  split
  · rename_i w1 w2 w3
    extract_lets +onlyGivenNames x4
    try clear_value x4
    split
    · rename_i w5 w6
      refine good_pair ?_
      assumption
    · rename_i w7 w8 w9
      refine good_ite_fst ?_ ?_
      · refine good_pair ?_
        assumption
      · extract_lets +onlyGivenNames x10
        have h11 : Good og (x10) := by
          subst x10
          refine State.setReqs_good ?_
          assumption
        try clear_value x10
        refine good_pair ?_
        refine State.count_good ?_
        refine State.sendPacket_good ?_
        assumption

theorem State.pump_good {og : Origin} {a1 : State} (h1 : Good og (a1)) :
    Good og (@State.pump a1) := by
  unfold State.pump
  refine good_foldl_fst ?_ (fun s1 y2 h3 => ?_)
  · refine good_pair ?_
    assumption
  · refine State.pumpReq_good ?_
    assumption

theorem State.fillMap_good {og : Origin} {a1 : State} (h1 : Good og (a1)) :
    Good og (@State.fillMap a1) := by
  unfold State.fillMap
  extract_lets +onlyGivenNames x1
  try clear_value x1
  extract_lets +onlyGivenNames x2
  try clear_value x2
  refine good_foldl ?_ (fun s3 y4 h5 => ?_)
  · assumption
  · refine State.wr_good ?_
    assumption

theorem State.portTo_good {og : Origin} {a1 : State} {a2 : Nat} {a3 : Nat} (h1 : Good og (a1)) :
    Good og (@State.portTo a1 a2 a3) := by
  unfold State.portTo
  extract_lets +onlyGivenNames x1
  try clear_value x1
  refine good_ite ?_ ?_
  · assumption
  · extract_lets +onlyGivenNames x2
    have h3 : Good og (x2) := by
      subst x2
      refine State.wr_good ?_
      assumption
    try clear_value x2
    extract_lets +onlyGivenNames x4
    have h5 : Good og (x4) := by
      subst x4
      refine good_ite ?_ ?_
      · refine State.modPort_good ?_
        refine State.wr_good ?_
        assumption
      · assumption
    try clear_value x4
    extract_lets +onlyGivenNames x6
    have h7 : Good og (x6) := by
      subst x6
      refine State.modPort_good ?_
      assumption
    try clear_value x6
    extract_lets +onlyGivenNames x8
    have h9 : Good og (x8) := by
      subst x8
      refine State.wr_good ?_
      assumption
    try clear_value x8
    extract_lets +onlyGivenNames x10
    have h11 : Good og (x10) := by
      subst x10
      refine State.event_good ?_
      refine State.event_good ?_
      refine State.setEvent_good ?_
      assumption
    try clear_value x10
    extract_lets +onlyGivenNames x12
    have h13 : Good og (x12) := by
      subst x12
      refine good_ite ?_ ?_
      · refine State.healthInput_good ?_
        assumption
      · assumption
    try clear_value x12
    extract_lets +onlyGivenNames x14
    have h15 : Good og (x14) := by
      subst x14
      refine good_ite ?_ ?_
      · refine State.healthInput_good ?_
        assumption
      · assumption
    try clear_value x14
    extract_lets +onlyGivenNames x16
    have h17 : Good og (x16) := by
      subst x16
      refine State.fillMap_good ?_
      assumption
    try clear_value x16
    refine State.pump_good ?_
    refine good_foldl ?_ (fun s18 y19 h20 => ?_)
    · assumption
    · refine State.drainTx_good ?_
      assumption

theorem State.retrain_good {og : Origin} {a1 : State} {a2 : Nat} (h1 : Good og (a1)) :
    Good og (@State.retrain a1 a2) := by
  unfold State.retrain
  extract_lets +onlyGivenNames x1
  have h2 : Good og (x1) := by
    subst x1
    refine State.healthInput_good ?_
    refine State.count_good ?_
    refine State.addSat_good ?_
    assumption
  try clear_value x1
  refine State.portTo_good ?_
  refine State.modPort_good ?_
  assumption

theorem State.peer_good {og : Origin} {a1 : State} {a2 : Nat} {a3 : Nat} (h1 : Good og (a1)) :
    Good og (@State.peer a1 a2 a3).1 := by
  unfold State.peer
  extract_lets +onlyGivenNames x1
  try clear_value x1
  split
  · rename_i w2 w3 w4
    refine good_pair ?_
    assumption
  · rename_i w5 w6
    split
    · rename_i w7 w8
      refine good_pair ?_
      assumption
    · rename_i w9 w10 w11
      extract_lets +onlyGivenNames x12
      try clear_value x12
      refine good_pair ?_
      refine good_mk ?_ rfl rfl rfl rfl rfl rfl rfl
      assumption

theorem State.peerMarker_good {og : Origin} {a1 : State} {a2 : Nat} (h1 : Good og (a1)) :
    Good og (@State.peerMarker a1 a2) := by
  unfold State.peerMarker
  extract_lets +onlyGivenNames x1
  have h2 : Good og (x1) := by
    subst x1
    refine State.passMarkers_good ?_
    assumption
  try clear_value x1
  split
  · rename_i w3 w4 w5 w6
    extract_lets +onlyGivenNames x7
    have h8 : Good og (x7) := by
      subst x7
      refine State.popMsg_good ?_
      assumption
    try clear_value x7
    extract_lets +onlyGivenNames x9
    try clear_value x9
    refine State.emit_good ?_
    refine good_mk ?_ rfl rfl rfl rfl rfl rfl rfl
    assumption
  · rename_i w10 w11
    assumption

theorem execPeerMarker_good {og : Origin} {a1 : Fin 16} {a2 : State} (h2 : Good og (a2)) :
    GoodOut og (@execPeerMarker a1 a2) := by
  unfold execPeerMarker
  refine goodOut_next ?_
  refine State.peerMarker_good ?_
  assumption

theorem State.target_good {og : Origin} {a1 : State} {a2 : Ask} (h1 : Good og (a1)) :
    Good og (@State.target a1 a2).1 := by
  unfold State.target
  refine good_ite_fst ?_ ?_
  · refine good_pair ?_
    assumption
  · refine good_ite_fst ?_ ?_
    · refine good_pair ?_
      assumption
    · split
      · rename_i w1 w2 w3 w4
        have h5 : Good og w2 := by
          refine good_fst w4 ?_
          refine State.peer_good ?_
          assumption
        refine good_pair ?_
        assumption
      · rename_i w6 w7 w8
        have h9 : Good og w7 := by
          refine good_fst w8 ?_
          refine State.peer_good ?_
          assumption
        refine good_pair ?_
        assumption

theorem State.ask_good {og : Origin} {a1 : State} {a2 : Ask} (h1 : Good og (a1)) :
    Good og (@State.ask a1 a2).1 := by
  unfold State.ask
  refine good_ite_fst ?_ ?_
  · refine good_pair ?_
    assumption
  · split
    · rename_i w1 w2 w3
      have h4 : Good og w2 := by
        refine good_fst w3 ?_
        refine State.target_good ?_
        assumption
      refine good_pair ?_
      assumption
    · rename_i w5 w6 w7 w8
      have h9 : Good og w6 := by
        refine good_fst w8 ?_
        refine State.target_good ?_
        assumption
      extract_lets +onlyGivenNames x10
      try clear_value x10
      extract_lets +onlyGivenNames x11
      try clear_value x11
      extract_lets +onlyGivenNames x12
      try clear_value x12
      extract_lets +onlyGivenNames x13
      try clear_value x13
      extract_lets +onlyGivenNames x14
      try clear_value x14
      extract_lets +onlyGivenNames x15
      try clear_value x15
      extract_lets +onlyGivenNames x16
      try clear_value x16
      extract_lets +onlyGivenNames x17
      have h18 : Good og (x17) := by
        subst x17
        refine State.setReqs_good ?_
        refine good_mk ?_ rfl rfl rfl rfl rfl rfl rfl
        assumption
      try clear_value x17
      refine good_ite_fst ?_ ?_
      · refine good_pair ?_
        refine State.count_good ?_
        refine State.modPort_good ?_
        assumption
      · refine good_pair ?_
        refine State.pump_good ?_
        assumption

end Sys2Proof.Machine
end

