-- ==== Sys2Proof/Laws/Keep/Sync.lean ====
section
/-! SUPPORT. What the operations of Machine/Sync.lean keep. -/

namespace Sys2Proof.Machine

theorem State.putField_good {og : Origin} {a1 : State} {a2 : SynSlot} {a3 : Nat} {a4 : Nat} {a5 : Nat} (h1 : Good og (a1)) :
    Good og (@State.putField a1 a2 a3 a4 a5) := by
  unfold State.putField
  exact State.write_good ‹_›

theorem State.putMember_good {og : Origin} {a1 : State} {a2 : SynSlot} {a3 : Nat} {a4 : Nat} {a5 : Bool} (h1 : Good og (a1)) :
    Good og (@State.putMember a1 a2 a3 a4 a5) := by
  unfold State.putMember
  exact State.putField_good ‹_›

theorem State.showSlots_good {og : Origin} {a1 : State} (h1 : Good og (a1)) :
    Good og (@State.showSlots a1) := by
  unfold State.showSlots
  refine good_foldl ?_ (fun s1 y2 h3 => ?_)
  · exact State.wr_good ‹_›
  · exact State.wr_good ‹_›

theorem State.putSlot_good {og : Origin} {a1 : State} {a2 : Nat} {a3 : SynSlot} (h1 : Good og (a1)) :
    Good og (@State.putSlot a1 a2 a3) := by
  unfold State.putSlot
  extract_lets +onlyGivenNames x1
  have h2 : Good og (x1) := by subst x1; exact good_mk ‹_› rfl rfl rfl rfl rfl rfl rfl
  try clear_value x1
  extract_lets +onlyGivenNames x3
  have h4 : Good og (x3) := by subst x3; exact State.wr_good (State.wr_good ‹_›)
  try clear_value x3
  exact State.showSlots_good (State.wr_good ‹_›)

theorem State.dropSlot_good {og : Origin} {a1 : State} {a2 : Nat} (h1 : Good og (a1)) :
    Good og (@State.dropSlot a1 a2) := by
  unfold State.dropSlot
  exact State.showSlots_good (State.setReg_good (good_mk ‹_› rfl rfl rfl rfl rfl rfl rfl))

theorem State.synRestart_good {og : Origin} {a1 : State} (h1 : Good og (a1)) :
    Good og (@State.synRestart a1) := by
  unfold State.synRestart
  exact State.resetBlock_good (good_mk ‹_› rfl rfl rfl rfl rfl rfl rfl)

theorem State.upset_good {og : Origin} {a1 : State} {a2 : Nat} {a3 : SynSlot} (h1 : Good og (a1)) :
    Good og (@State.upset a1 a2 a3).1 := by
  unfold State.upset
  extract_lets +onlyGivenNames x1
  have h2 : Good og (x1) := by subst x1; exact State.drawn_good (State.drawn_good ‹_›)
  try clear_value x1
  exact good_pair (State.putSlot_good (State.write_good (State.drawn_good ‹_›)))

theorem State.sendRelease_good {og : Origin} {a1 : State} {a2 : SynSlot} (h1 : Good og (a1)) :
    Good og (@State.sendRelease a1 a2).1 := by
  unfold State.sendRelease
  refine good_ite_fst ?_ ?_
  · exact good_pair ‹_›
  · extract_lets +onlyGivenNames x1
    try clear_value x1
    extract_lets +onlyGivenNames x2; try clear_value x2
    split
    · rename_i w3 w4
      exact good_pair (State.setEvent_good ‹_›)
    · rename_i w5 w6 w7
      exact good_pair (State.ask_good ‹_›)

theorem State.writeRelease_good {og : Origin} {a1 : State} {a2 : SynSlot} {a3 : Nat} {a4 : Nat} (h1 : Good og (a1)) :
    Good og (@State.writeRelease a1 a2 a3 a4) := by
  unfold State.writeRelease
  exact State.putField_good ‹_›

theorem State.freeze_good {og : Origin} {a1 : State} {a2 : Nat} {a3 : SynSlot} {a4 : Nat} (h1 : Good og (a1)) :
    Good og (@State.freeze a1 a2 a3 a4) := by
  unfold State.freeze
  extract_lets +onlyGivenNames x1
  have h2 : Good og (x1) := by subst x1; exact State.writeRelease_good ‹_›
  try clear_value x1
  extract_lets +onlyGivenNames x3
  have h4 : Good og (x3) := by
    subst x3
    refine good_ite ?_ ?_
    · assumption
    · exact State.sendRelease_good ‹_›
  try clear_value x3
  extract_lets +onlyGivenNames x5
  have h6 : Good og (x5) := by subst x5; exact State.tell_good ‹_›
  try clear_value x5
  exact State.putSlot_good (State.setEvent_good ‹_›)

theorem State.complete_good {og : Origin} {a1 : Nat} {a2 : SynSlot} {a3 : Nat} {a4 : State} (h4 : Good og (a4)) :
    Good og (@State.complete a1 a2 a3 a4) := by
  induction a3 generalizing a4 with
  | zero =>
    rw [State.complete]
    assumption
  | succ n ih =>
    rw [State.complete]
    refine good_ite ?_ ?_
    · assumption
    · extract_lets +onlyGivenNames x1
      try clear_value x1
      extract_lets +onlyGivenNames x2
      have h3 : Good og (x2) := by subst x2; exact State.putField_good (State.writeRelease_good ‹_›)
      try clear_value x2
      extract_lets +onlyGivenNames x4
      have h5 : Good og (x4) := by subst x4; exact State.write_good ‹_›
      try clear_value x4
      extract_lets +onlyGivenNames x6
      have h7 : Good og (x6) := by subst x6; exact State.putField_good ‹_›
      try clear_value x6
      extract_lets +onlyGivenNames x8
      have h9 : Good og (x8) := by subst x8; exact State.putField_good (State.write_good ‹_›)
      try clear_value x8
      extract_lets +onlyGivenNames x10
      have h11 : Good og (x10) := by subst x10; exact State.putSlot_good (State.count_good ‹_›)
      try clear_value x10
      split
      · rename_i w12 w13 w14
        have h15 : Good og w13 := good_fst w14 (State.sendRelease_good ‹_›)
        exact ih ‹_›
      · rename_i w16 w17 w18
        have h19 : Good og w17 := good_fst w18 (State.sendRelease_good ‹_›)
        exact State.freeze_good ‹_›

theorem State.arrive_good {og : Origin} {a1 : State} {a2 : Nat} {a3 : SynSlot} {a4 : Nat} (h1 : Good og (a1)) :
    Good og (@State.arrive a1 a2 a3 a4).1 := by
  unfold State.arrive
  extract_lets +onlyGivenNames x1; try clear_value x1
  extract_lets +onlyGivenNames x2; try clear_value x2
  extract_lets +onlyGivenNames x3; try clear_value x3
  extract_lets +onlyGivenNames x4
  have h5 : Good og (x4) := by subst x4; exact State.count_good ‹_›
  try clear_value x4
  refine good_ite_fst ?_ ?_
  · exact good_pair ‹_›
  · refine good_ite_fst ?_ ?_
    · exact State.upset_good ‹_›
    · refine good_ite_fst ?_ ?_
      · exact good_pair ‹_›
      · refine good_ite_fst ?_ ?_
        · exact good_pair ‹_›
        · refine good_ite_fst ?_ ?_
          · exact good_pair ‹_›
          · refine good_ite_fst ?_ ?_
            · refine good_ite_fst ?_ ?_
              · exact good_pair ‹_›
              · extract_lets +onlyGivenNames x6
                have h7 : Good og (x6) := by subst x6; exact State.putField_good (State.putMember_good ‹_›)
                try clear_value x6
                exact good_pair (State.complete_good (State.putSlot_good ‹_›))
            · refine good_ite_fst ?_ ?_
              · refine good_ite_fst ?_ ?_
                · exact good_pair ‹_›
                · refine good_ite_fst ?_ ?_
                  · exact good_pair ‹_›
                  · exact good_pair (State.putSlot_good (State.putField_good (State.putMember_good ‹_›)))
              · refine good_ite_fst ?_ ?_
                · exact good_pair (State.freeze_good ‹_›)
                · exact good_pair ‹_›

theorem State.refused_good {og : Origin} {a1 : State × Nat} (h1 : Good og (a1).1) :
    Good og (@State.refused a1).1 := by
  unfold State.refused
  refine good_ite_fst ?_ ?_
  · assumption
  · exact good_pair (State.count_good (State.addSat_good (State.setEvent_good ‹_›)))

theorem State.signalAt_good {og : Origin} {a1 : State} {a2 : Nat} {a3 : List Byte} (h1 : Good og (a1)) :
    Good og (@State.signalAt a1 a2 a3).1 := by
  unfold State.signalAt
  refine good_ite_fst ?_ ?_
  · exact State.refused_good (good_pair ‹_›)
  · split
    · rename_i w1 w2 w3 w4
      refine State.refused_good ?_
      refine good_ite_fst ?_ ?_
      · exact State.arrive_good ‹_›
      · exact good_pair ‹_›
    · rename_i w5 w6
      refine good_ite_fst ?_ ?_
      · exact State.refused_good (good_pair ‹_›)
      · extract_lets +onlyGivenNames x7
        have h8 : Good og (x7) := by subst x7; exact State.readAs_good ‹_›
        try clear_value x7
        refine good_ite_fst ?_ ?_
        · exact good_pair ‹_›
        · extract_lets +onlyGivenNames x9
          have h10 : Good og (x9) := by subst x9; exact State.bankCount_good ‹_›
          try clear_value x9
          exact good_pair (State.write_good ‹_›)

theorem State.activateAt_good {og : Origin} {a1 : State} {a2 : Nat} {a3 : Nat} {a4 : Nat} (h1 : Good og (a1)) :
    Good og (@State.activateAt a1 a2 a3 a4).1 := by
  unfold State.activateAt
  extract_lets +onlyGivenNames x1; try clear_value x1
  extract_lets +onlyGivenNames x2; try clear_value x2
  refine good_ite_fst ?_ ?_
  · exact good_pair ‹_›
  · refine good_ite_fst ?_ ?_
    · exact good_pair ‹_›
    · split
      · rename_i w3 w4
        exact good_pair ‹_›
      · rename_i w5 w6 w7
        refine good_ite_fst ?_ ?_
        · exact good_pair ‹_›
        · extract_lets +onlyGivenNames x8
          try clear_value x8
          extract_lets +onlyGivenNames x9; try clear_value x9
          extract_lets +onlyGivenNames x10
          have h11 : Good og (x10) := by subst x10; exact State.putField_good ‹_›
          try clear_value x10
          extract_lets +onlyGivenNames x12
          have h13 : Good og (x12) := by subst x12; exact State.putField_good (State.putField_good ‹_›)
          try clear_value x12
          extract_lets +onlyGivenNames x14
          have h15 : Good og (x14) := by subst x14; exact State.putField_good (State.putField_good ‹_›)
          try clear_value x14
          extract_lets +onlyGivenNames x16
          have h17 : Good og (x16) := by subst x16; exact State.write_good (State.write_good ‹_›)
          try clear_value x16
          exact good_pair (State.putSlot_good (State.writeRelease_good ‹_›))

theorem State.barActivate_good {og : Origin} {a1 : State} {a2 : Nat} {a3 : Nat} {a4 : Entry} (h1 : Good og (a1)) :
    Good og (@State.barActivate a1 a2 a3 a4) := by
  unfold State.barActivate
  extract_lets +onlyGivenNames x1; try clear_value x1
  refine good_ite ?_ ?_
  · exact State.finish_good ‹_›
  · split
    · rename_i w2 w3 w4 w5 w6
      have h7 : Good og w3 := good_fst w6 (State.translate_good ‹_›)
      exact State.finish_good ‹_›
    · rename_i w8 w9 w10 w11
      have h12 : Good og w9 := good_fst w11 (State.translate_good ‹_›)
      refine good_ite ?_ ?_
      · exact State.finish_good ‹_›
      · split
        · rename_i w13 w14 w15 w16
          have h17 : Good og w14 := good_fst w16 (State.activateAt_good ‹_›)
          exact State.finish_good ‹_›
        · rename_i w18 w19 w20 w21 w22 w23
          have h24 : Good og w19 := good_fst w23 (State.activateAt_good ‹_›)
          exact State.finish_good ‹_›

theorem execBarActivate_good {og : Origin} {a1 : TenantId} {a2 : RingId} {a3 : State} (h3 : Good og (a3)) :
    GoodOut og (@execBarActivate a1 a2 a3) := by
  unfold execBarActivate
  refine goodOut_next ?_
  refine good_ite ?_ ?_
  · refine State.runCommand_good ?_ ?_
    · assumption
    · intro v1 v2 v3
      exact State.barActivate_good ‹_›
  · assumption

theorem State.members'_good {og : Origin} {a1 : State} {a2 : Nat} {a3 : Nat} {a4 : Nat} {a5 : Nat} (h1 : Good og (a1)) :
    Good og (@State.members' a1 a2 a3 a4 a5).1 := by
  unfold State.members'
  split
  · rename_i w1 w2
    exact good_pair ‹_›
  · rename_i w3 w4 w5
    refine good_ite_fst ?_ ?_
    · exact good_pair ‹_›
    · refine good_ite_fst ?_ ?_
      · extract_lets +onlyGivenNames x6
        have h7 : Good og (x6).1 := by subst x6; exact State.upset_good ‹_›
        try clear_value x6
        exact good_pair ‹_›
      · extract_lets +onlyGivenNames x8
        try clear_value x8
        extract_lets +onlyGivenNames x9; try clear_value x9
        refine good_ite_fst ?_ ?_
        · refine good_ite_fst ?_ ?_
          · exact good_pair ‹_›
          · extract_lets +onlyGivenNames x10
            have h11 : Good og (x10) := by subst x10; exact State.putSlot_good (State.putField_good (State.putMember_good ‹_›))
            try clear_value x10
            exact good_pair ‹_›
        · refine good_ite_fst ?_ ?_
          · exact good_pair ‹_›
          · extract_lets +onlyGivenNames x12
            try clear_value x12
            extract_lets +onlyGivenNames x13; try clear_value x13
            extract_lets +onlyGivenNames x14
            have h15 : Good og (x14) := by subst x14; exact State.putMember_good (State.putMember_good (State.putMember_good ‹_›))
            try clear_value x14
            extract_lets +onlyGivenNames x16
            have h17 : Good og (x16) := by subst x16; exact State.putField_good ‹_›
            try clear_value x16
            extract_lets +onlyGivenNames x18
            have h19 : Good og (x18) := by subst x18; exact State.putField_good ‹_›
            try clear_value x18
            extract_lets +onlyGivenNames x20
            have h21 : Good og (x20) := by subst x20; exact State.putField_good ‹_›
            try clear_value x20
            extract_lets +onlyGivenNames x22
            have h23 : Good og (x22) := by subst x22; exact State.complete_good (State.putSlot_good ‹_›)
            try clear_value x22
            exact good_pair ‹_›

theorem execBarMembers_good {og : Origin} {a1 : TenantId} {a2 : RingId} {a3 : State} (h3 : Good og (a3)) :
    GoodOut og (@execBarMembers a1 a2 a3) := by
  unfold execBarMembers
  refine goodOut_next ?_
  refine good_ite ?_ ?_
  · refine State.runCommand_good ?_ ?_
    · assumption
    · intro v1 v2 v3
      split
      · rename_i w4 w5 w6 w7 w8
        have h9 : Good og w5 := good_fst w8 (State.members'_good ‹_›)
        exact State.finish_good ‹_›
  · assumption

theorem State.closeSlot_good {og : Origin} {a1 : State} {a2 : Nat} {a3 : SynSlot} (h1 : Good og (a1)) :
    Good og (@State.closeSlot a1 a2 a3) := by
  unfold State.closeSlot
  refine good_ite ?_ ?_
  · exact State.dropSlot_good ‹_›
  · exact State.dropSlot_good (State.sendRelease_good (State.writeRelease_good ‹_›))

theorem execBarClose_good {og : Origin} {a1 : TenantId} {a2 : RingId} {a3 : State} (h3 : Good og (a3)) :
    GoodOut og (@execBarClose a1 a2 a3) := by
  unfold execBarClose
  refine goodOut_next ?_
  refine good_ite ?_ ?_
  · refine State.runCommand_good ?_ ?_
    · assumption
    · intro v1 v2 v3
      split
      · rename_i w4 w5
        exact State.finish_good ‹_›
      · rename_i w6 w7 w8
        exact State.finish_good (State.closeSlot_good ‹_›)
  · assumption

theorem State.barrierTimeout_good {og : Origin} {a1 : State} {a2 : Nat} (h1 : Good og (a1)) :
    Good og (@State.barrierTimeout a1 a2) := by
  unfold State.barrierTimeout
  split
  · rename_i w1 w2
    assumption
  · rename_i w3 w4 w5
    refine good_ite ?_ ?_
    · assumption
    · refine good_ite ?_ ?_
      · exact State.freeze_good ‹_›
      · exact State.upset_good ‹_›

theorem execBarrierTimeout_good {og : Origin} {a1 : Fin 64} {a2 : State} (h2 : Good og (a2)) :
    GoodOut og (@execBarrierTimeout a1 a2) := by
  unfold execBarrierTimeout
  exact goodOut_next (State.barrierTimeout_good ‹_›)

theorem State.loseSlot_good {og : Origin} {a1 : State} {a2 : Nat} {a3 : SynSlot} {a4 : Bool} (h1 : Good og (a1)) :
    Good og (@State.loseSlot a1 a2 a3 a4) := by
  unfold State.loseSlot
  extract_lets +onlyGivenNames x1
  have h2 : Good og (x1) := by subst x1; exact State.writeRelease_good ‹_›
  try clear_value x1
  extract_lets +onlyGivenNames x3
  have h4 : Good og (x3) := by
    subst x3
    refine good_ite ?_ ?_
    · exact State.event_good (State.sendRelease_good ‹_›)
    · assumption
  try clear_value x3
  exact State.dropSlot_good (State.setEvent_good ‹_›)

theorem State.loseSlots_good {og : Origin} {a1 : State} {a2 : Nat} {a3 : Bool} (h1 : Good og (a1)) :
    Good og (@State.loseSlots a1 a2 a3) := by
  unfold State.loseSlots
  refine good_foldl ?_ (fun s1 y2 h3 => ?_)
  · assumption
  · exact State.loseSlot_good ‹_›

theorem State.synReady_good {og : Origin} {a1 : State} (h1 : Good og (a1)) :
    Good og (@State.synReady a1) := by
  unfold State.synReady
  refine good_ite ?_ ?_
  · assumption
  · exact State.wr_good ‹_›

theorem execSynReady_good {og : Origin} {a1 : State} (h1 : Good og (a1)) :
    GoodOut og (@execSynReady a1) := by
  unfold execSynReady
  exact goodOut_next (State.synReady_good ‹_›)

end Sys2Proof.Machine
end

