-- ==== Sys2Proof/Laws/Keep/FabTum.lean ====
section
/-! SUPPORT. What the operations of Machine/FabTum.lean keep. -/

namespace Sys2Proof.Machine

theorem State.fabFault_good {og : Origin} {a1 : State} {a2 : Nat} {a3 : Nat} {a4 : Nat} {a5 : Nat} {a6 : Nat} {a7 : Nat} {a8 : Nat} {a9 : Nat} {a10 : Bool} (h1 : Good og (a1)) :
    Good og (@State.fabFault a1 a2 a3 a4 a5 a6 a7 a8 a9 a10) := by
  unfold State.fabFault
  extract_lets +onlyGivenNames x1; try clear_value x1
  exact State.drawn_good (State.faultEntry_good (State.event_good ‹_›))

theorem State.remoteError_good {og : Origin} {a1 : State} {a2 : Nat} {a3 : Nat} {a4 : List (Nat × Nat)} {a5 : Nat} (h1 : Good og (a1)) :
    Good og (@State.remoteError a1 a2 a3 a4 a5) := by
  unfold State.remoteError
  refine good_foldl ?_ (fun s1 y2 h3 => ?_)
  · assumption
  · exact State.modGroup_good ‹_›

theorem State.wake_good {og : Origin} {a1 : State} {a2 : Nat} {a3 : Access} (h1 : Good og (a1)) :
    Good og (@State.wake a1 a2 a3) := by
  unfold State.wake
  refine good_foldl ?_ (fun s1 y2 h3 => ?_)
  · assumption
  · exact State.modGroup_good ‹_›

theorem State.remotePart_good {og : Origin} {a1 : State} {a2 : Nat} {a3 : Access} {a4 : List ((Nat × Nat) × Nat)} (h1 : Good og (a1)) :
    Good og (@State.remotePart a1 a2 a3 a4) := by
  unfold State.remotePart
  extract_lets +onlyGivenNames x1; try clear_value x1
  refine good_ite ?_ ?_
  · exact State.putAccess_good ‹_›
  · refine good_ite ?_ ?_
    · exact State.finishAccess_good (State.wake_good ‹_›)
    · exact State.dropAccess_good ‹_›

theorem State.remoteFail_good {og : Origin} {a1 : State} {a2 : Nat} {a3 : Nat} {a4 : List (Nat × Nat)} {a5 : Pkt} {a6 : Nat} {a7 : Bool} (h1 : Good og (a1)) :
    Good og (@State.remoteFail a1 a2 a3 a4 a5 a6 a7) := by
  unfold State.remoteFail
  split
  · rename_i w1 w2
    assumption
  · rename_i w3 w4 w5
    extract_lets +onlyGivenNames x6
    have h7 : Good og (x6) := by subst x6; exact State.remoteError_good ‹_›
    try clear_value x6
    extract_lets +onlyGivenNames x8
    have h9 : Good og (x8) := by subst x8; exact State.fabFault_good ‹_›
    try clear_value x8
    exact State.remotePart_good ‹_›

theorem State.remoteAnswer_good {og : Origin} {a1 : State} {a2 : Nat} {a3 : Nat} {a4 : List (Nat × Nat)} {a5 : Pkt} {a6 : Pkt} (h1 : Good og (a1)) :
    Good og (@State.remoteAnswer a1 a2 a3 a4 a5 a6) := by
  unfold State.remoteAnswer
  split
  · rename_i w1 w2
    assumption
  · rename_i w3 w4 w5
    extract_lets +onlyGivenNames x6; try clear_value x6
    extract_lets +onlyGivenNames x7; try clear_value x7
    exact State.remotePart_good ‹_›

theorem State.sendDraft_good {og : Origin} {a1 : State} {a2 : Nat} {a3 : Access} {a4 : Nat} {a5 : Draft} (h1 : Good og (a1)) :
    Good og (@State.sendDraft a1 a2 a3 a4 a5) := by
  unfold State.sendDraft
  extract_lets +onlyGivenNames x1; try clear_value x1
  extract_lets +onlyGivenNames x2; try clear_value x2
  extract_lets +onlyGivenNames x3
  subst x3
  split
  · rename_i w4 w5
    exact State.remoteFail_good ‹_›
  · rename_i w6 w7 w8
    split
    · rename_i w9 w10 w11
      have h12 : Good og w10 := good_fst w11 (State.ask_good ‹_›)
      assumption
    · rename_i w13 w14 w15 w16 w17
      have h18 : Good og w14 := good_fst w17 (State.ask_good ‹_›)
      exact State.remoteFail_good ‹_›

theorem State.remoteGo_good {og : Origin} {a1 : State} {a2 : Ctx} {a3 : Access} {a4 : Nat} {a5 : Nat} {a6 : Nat} (h1 : Good og (a1)) :
    Good og (@State.remoteGo a1 a2 a3 a4 a5 a6) := by
  unfold State.remoteGo
  extract_lets +onlyGivenNames x1; try clear_value x1
  extract_lets +onlyGivenNames x2; try clear_value x2
  extract_lets +onlyGivenNames x3
  have h4 : Good og (x3) := by subst x3; exact State.count_good ‹_›
  try clear_value x3
  extract_lets +onlyGivenNames x5
  have h6 : Good og (x5) := by subst x5; exact State.modTumbler_good ‹_›
  try clear_value x5
  extract_lets +onlyGivenNames x7
  have h8 : Good og (x7) := by
    subst x7
    refine good_ite ?_ ?_
    · refine good_foldl ?_ (fun s9 y10 h11 => ?_)
      · assumption
      · refine good_ite ?_ ?_
        · assumption
        · exact State.modGroup_good ‹_›
    · assumption
  try clear_value x7
  refine good_foldl ?_ (fun s12 y13 h14 => ?_)
  · assumption
  · exact State.sendDraft_good ‹_›

theorem State.remoteStart_good {og : Origin} {a1 : State} {a2 : Ctx} {a3 : Access} {a4 : Nat} {a5 : Nat} {a6 : Nat} {a7 : Nat} (h1 : Good og (a1)) :
    Good og (@State.remoteStart a1 a2 a3 a4 a5 a6 a7) := by
  unfold State.remoteStart
  split
  · rename_i w1 w2 w3
    exact State.tumMemFault_good ‹_›
  · rename_i w4 w5
    exact State.remoteGo_good ‹_›

theorem State.remoteOp_good {og : Origin} {a1 : State} {a2 : Nat} {a3 : Nat} {a4 : IWord} {a5 : Bool} (h1 : Good og (a1)) :
    Good og (@State.remoteOp a1 a2 a3 a4 a5) := by
  unfold State.remoteOp
  extract_lets +onlyGivenNames x1; try clear_value x1
  extract_lets +onlyGivenNames x2; try clear_value x2
  extract_lets +onlyGivenNames x3; try clear_value x3
  extract_lets +onlyGivenNames x4; try clear_value x4
  extract_lets +onlyGivenNames x5; try clear_value x5
  refine State.issue_good ?_ ?_
  · assumption
  · intro v6 v7 v8
    refine State.legal_good ?_ ?_
    · assumption
    · intro v9 v10
      exact State.remoteStart_good ‹_›

theorem execLdr_good {og : Origin} {a1 : TumblerId} {a2 : SlotId} {a3 : IWord} {a4 : State} (h4 : Good og (a4)) :
    GoodOut og (@execLdr a1 a2 a3 a4) := by
  unfold execLdr
  exact goodOut_next (State.remoteOp_good ‹_›)

theorem execStr_good {og : Origin} {a1 : TumblerId} {a2 : SlotId} {a3 : IWord} {a4 : State} (h4 : Good og (a4)) :
    GoodOut og (@execStr a1 a2 a3 a4) := by
  unfold execStr
  exact goodOut_next (State.remoteOp_good ‹_›)

theorem State.atomOp'_good {og : Origin} {a1 : State} {a2 : Nat} {a3 : Nat} {a4 : IWord} (h1 : Good og (a1)) :
    Good og (@State.atomOp' a1 a2 a3 a4) := by
  unfold State.atomOp'
  extract_lets +onlyGivenNames x1; try clear_value x1
  extract_lets +onlyGivenNames x2; try clear_value x2
  extract_lets +onlyGivenNames x3; try clear_value x3
  refine State.issue_good ?_ ?_
  · assumption
  · intro v4 v5 v6
    refine State.legal_good ?_ ?_
    · assumption
    · intro v7 v8
      refine good_ite ?_ ?_
      · exact State.tenantAtom_good ‹_›
      · refine good_ite ?_ ?_
        · exact State.localAtom_good ‹_›
        · exact State.remoteStart_good ‹_›

theorem execAtom_good {og : Origin} {a1 : TumblerId} {a2 : SlotId} {a3 : IWord} {a4 : State} (h4 : Good og (a4)) :
    GoodOut og (@execAtom a1 a2 a3 a4) := by
  unfold execAtom
  exact goodOut_next (State.atomOp'_good ‹_›)

end Sys2Proof.Machine
end

