-- ==== Sys2Proof/Laws/Keep/FabXfer.lean ====
section
/-! SUPPORT. What the operations of Machine/FabXfer.lean keep. -/

namespace Sys2Proof.Machine

theorem State.putXfer_good {og : Origin} {a1 : State} {a2 : Nat} {a3 : Xfer} (h1 : Good og (a1)) :
    Good og (@State.putXfer a1 a2 a3) := by
  unfold State.putXfer
  exact good_mk ‹_› rfl rfl rfl rfl rfl rfl rfl

theorem State.xferFault_good {og : Origin} {a1 : State} {a2 : Nat} {a3 : Xfer} {a4 : Nat} {a5 : Nat} {a6 : Nat} {a7 : Nat} (h1 : Good og (a1)) :
    Good og (@State.xferFault a1 a2 a3 a4 a5 a6 a7) := by
  unfold State.xferFault
  extract_lets +onlyGivenNames x1
  have h2 : Good og (x1) := by subst x1; exact State.putXfer_good ‹_›
  try clear_value x1
  refine good_ite ?_ ?_
  · extract_lets +onlyGivenNames x3
    have h4 : Good og (x3) := by subst x3; exact State.memFault_good ‹_›
    try clear_value x3
    split
    · rename_i w5 w6 w7 w8
      exact State.markFaults_good ‹_›
    · rename_i w9 w10 w11 w12 w13
      assumption
  · assumption

theorem State.xferData_good {og : Origin} {a1 : State} {a2 : Nat} {a3 : Xfer} {a4 : Nat} {a5 : Nat} (h1 : Good og (a1)) :
    Good og (@State.xferData a1 a2 a3 a4 a5).1 := by
  unfold State.xferData
  split
  · rename_i w1 w2 w3
    exact good_pair ‹_›
  · rename_i w4 w5
    exact State.fetchSpan_good ‹_›

theorem State.askData_good {og : Origin} {a1 : State} {a2 : Nat} {a3 : Xfer} {a4 : Nat} {a5 : Nat} {a6 : Nat} {a7 : Nat} {a8 : List Byte} (h1 : Good og (a1)) :
    Good og (@State.askData a1 a2 a3 a4 a5 a6 a7 a8).1 := by
  unfold State.askData
  extract_lets +onlyGivenNames x1; try clear_value x1
  exact State.ask_good ‹_›

theorem State.feedData_good {og : Origin} {a1 : State} {a2 : Nat} {a3 : Xfer} (h1 : Good og (a1)) :
    Good og (@State.feedData a1 a2 a3) := by
  unfold State.feedData
  extract_lets +onlyGivenNames x1; try clear_value x1
  extract_lets +onlyGivenNames x2; try clear_value x2
  extract_lets +onlyGivenNames x3; try clear_value x3
  extract_lets +onlyGivenNames x4; try clear_value x4
  split
  · rename_i w5 w6
    exact State.putXfer_good ‹_›
  · rename_i w7 w8 w9
    split
    · rename_i w10 w11 w12 w13 w14 w15
      have h16 : Good og w11 := by
        refine good_fst w15 ?_
        refine good_ite_fst ?_ ?_
        · exact good_pair ‹_›
        · exact State.xferData_good ‹_›
      exact State.xferFault_good ‹_›
    · rename_i w17 w18 w19 w20
      have h21 : Good og w18 := by
        refine good_fst w20 ?_
        refine good_ite_fst ?_ ?_
        · exact good_pair ‹_›
        · exact State.xferData_good ‹_›
      extract_lets +onlyGivenNames x22; try clear_value x22
      split
      · rename_i w23 w24 w25
        have h26 : Good og w24 := good_fst w25 (State.askData_good ‹_›)
        exact State.putXfer_good ‹_›
      · rename_i w27 w28 w29 w30 w31
        have h32 : Good og w28 := good_fst w31 (State.askData_good ‹_›)
        exact State.putXfer_good ‹_›

theorem State.feedSignal_good {og : Origin} {a1 : State} {a2 : Nat} {a3 : Xfer} (h1 : Good og (a1)) :
    Good og (@State.feedSignal a1 a2 a3) := by
  unfold State.feedSignal
  extract_lets +onlyGivenNames x1; try clear_value x1
  extract_lets +onlyGivenNames x2; try clear_value x2
  extract_lets +onlyGivenNames x3; try clear_value x3
  split
  · rename_i w4
    exact State.putXfer_good ‹_›
  · rename_i w5 w6
    extract_lets +onlyGivenNames x7; try clear_value x7
    split
    · rename_i w8 w9 w10
      have h11 : Good og w9 := good_fst w10 (State.ask_good ‹_›)
      exact State.putXfer_good ‹_›
    · rename_i w12 w13 w14 w15 w16
      have h17 : Good og w13 := good_fst w16 (State.ask_good ‹_›)
      exact State.putXfer_good ‹_›

theorem State.feedStep_good {og : Origin} {a1 : Nat} {a2 : State} (h2 : Good og (a2)) :
    Good og (@State.feedStep a1 a2) := by
  unfold State.feedStep
  split
  · rename_i w1 w2
    assumption
  · rename_i w3 w4 w5
    refine good_ite ?_ ?_
    · assumption
    · refine good_ite ?_ ?_
      · exact State.feedData_good ‹_›
      · refine good_ite ?_ ?_
        · exact State.feedSignal_good ‹_›
        · assumption

theorem State.feedEngine_good {og : Origin} {a1 : State} {a2 : Nat} (h1 : Good og (a1)) :
    Good og (@State.feedEngine a1 a2) := by
  unfold State.feedEngine
  refine good_times ?_ (fun s1 h2 => ?_)
  · assumption
  · exact State.feedStep_good ‹_›

theorem State.takeXfer_good {og : Origin} {a1 : State} {a2 : Nat} (h1 : Good og (a1)) :
    Good og (@State.takeXfer a1 a2) := by
  unfold State.takeXfer
  split
  · rename_i w1 w2 w3 w4 w5 w6
    exact State.feedEngine_good (State.putXfer_good (State.passMarkers_good (good_mk ‹_› rfl rfl rfl rfl rfl rfl rfl)))
  · rename_i w7 w8 w9
    assumption

theorem State.startXfer_good {og : Origin} {a1 : State} {a2 : Xfer} (h1 : Good og (a1)) :
    Good og (@State.startXfer a1 a2) := by
  unfold State.startXfer
  extract_lets +onlyGivenNames x1; try clear_value x1
  extract_lets +onlyGivenNames x2
  have h3 : Good og (x2) := by subst x2; exact good_mk ‹_› rfl rfl rfl rfl rfl rfl rfl
  try clear_value x2
  split
  · rename_i w4 w5 w6
    exact State.takeXfer_good ‹_›
  · rename_i w7 w8
    assumption

theorem State.transfer_good {og : Origin} {a1 : State} {a2 : Nat} {a3 : Nat} {a4 : Entry} (h1 : Good og (a1)) :
    Good og (@State.transfer a1 a2 a3 a4) := by
  unfold State.transfer
  extract_lets +onlyGivenNames x1; try clear_value x1
  refine good_ite ?_ ?_
  · exact State.finish_good ‹_›
  · split
    · rename_i w2 w3 w4 w5 w6 w7
      have h8 : Good og w3 := good_fst w7 (State.fetchSpan_good ‹_›)
      exact State.finishMem_good ‹_›
    · rename_i w9 w10 w11 w12
      have h13 : Good og w10 := good_fst w12 (State.fetchSpan_good ‹_›)
      split
      · rename_i w14 w15
        exact State.startXfer_good ‹_›
      · rename_i w16 w17
        exact State.finish_good ‹_›

theorem execTransfer_good {og : Origin} {a1 : TenantId} {a2 : RingId} {a3 : State} (h3 : Good og (a3)) :
    GoodOut og (@execTransfer a1 a2 a3) := by
  unfold execTransfer
  refine goodOut_next ?_
  refine State.runCommand_good ?_ ?_
  · assumption
  · intro v1 v2 v3
    exact State.transfer_good ‹_›

theorem State.signalCommand_good {og : Origin} {a1 : State} {a2 : Nat} {a3 : Nat} {a4 : Entry} (h1 : Good og (a1)) :
    Good og (@State.signalCommand a1 a2 a3 a4) := by
  unfold State.signalCommand
  extract_lets +onlyGivenNames x1; try clear_value x1
  split
  · rename_i w2 w3
    exact State.finish_good ‹_›
  · rename_i w4 w5 w6
    split
    · rename_i w7 w8 w9
      have h10 : Good og w8 := good_fst w9 (State.ask_good ‹_›)
      assumption
    · rename_i w11 w12 w13 w14 w15
      have h16 : Good og w12 := good_fst w15 (State.ask_good ‹_›)
      exact State.finish_good ‹_›

theorem execSignal_good {og : Origin} {a1 : TenantId} {a2 : RingId} {a3 : State} (h3 : Good og (a3)) :
    GoodOut og (@execSignal a1 a2 a3) := by
  unfold execSignal
  refine goodOut_next ?_
  refine State.runCommand_good ?_ ?_
  · assumption
  · intro v1 v2 v3
    exact State.signalCommand_good ‹_›

theorem State.xferAnswer_good {og : Origin} {a1 : State} {a2 : Nat} {a3 : Nat} {a4 : Nat} {a5 : Nat} {a6 : List Byte} (h1 : Good og (a1)) :
    Good og (@State.xferAnswer a1 a2 a3 a4 a5 a6) := by
  unfold State.xferAnswer
  split
  · rename_i w1 w2
    assumption
  · rename_i w3 w4 w5
    refine good_ite ?_ ?_
    · exact State.putXfer_good ‹_›
    · refine good_ite ?_ ?_
      · extract_lets +onlyGivenNames x6
        try clear_value x6
        extract_lets +onlyGivenNames x7; try clear_value x7
        split
        · rename_i w8 w9 w10 w11 w12 w13
          have h14 : Good og w9 := good_fst w13 (State.storeSpan_good ‹_›)
          exact State.xferFault_good ‹_›
        · rename_i w15 w16 w17 w18
          have h19 : Good og w16 := good_fst w18 (State.storeSpan_good ‹_›)
          exact State.count_good (State.putXfer_good ‹_›)
      · exact State.count_good (State.putXfer_good ‹_›)

theorem State.signalAnswer_good {og : Origin} {a1 : State} {a2 : Nat} {a3 : Nat} (h1 : Good og (a1)) :
    Good og (@State.signalAnswer a1 a2 a3) := by
  unfold State.signalAnswer
  split
  · rename_i w1 w2
    assumption
  · rename_i w3 w4 w5
    exact State.putXfer_good ‹_›

theorem State.fabGo_good {og : Origin} {a1 : State} (h1 : Good og (a1)) :
    Good og (@State.fabGo a1) := by
  unfold State.fabGo
  refine good_foldl ?_ (fun s1 y2 h3 => ?_)
  · exact State.pump_good ‹_›
  · exact State.feedEngine_good ‹_›

theorem State.endReq_good {og : Origin} {a1 : State} {a2 : FabReq} {a3 : Nat} {a4 : Pkt} (h1 : Good og (a1)) :
    Good og (@State.endReq a1 a2 a3 a4) := by
  unfold State.endReq
  extract_lets +onlyGivenNames x1
  have h2 : Good og (x1) := by subst x1; exact State.setReqs_good ‹_›
  try clear_value x1
  extract_lets +onlyGivenNames x3; try clear_value x3
  extract_lets +onlyGivenNames x4
  have h5 : Good og (x4) := by
    subst x4
    refine good_ite ?_ ?_
    · exact State.count_good ‹_›
    · refine good_ite ?_ ?_
      · exact State.count_good ‹_›
      · assumption
  try clear_value x4
  extract_lets +onlyGivenNames x6
  have h7 : Good og (x6) := by
    subst x6
    split
    · rename_i w8 w9 w10 w11 w12
      refine good_ite ?_ ?_
      · exact State.remoteAnswer_good ‹_›
      · exact State.remoteFail_good ‹_›
    · rename_i w13 w14 w15 w16 w17
      exact State.xferAnswer_good ‹_›
    · rename_i w18 w19 w20
      exact State.signalAnswer_good ‹_›
    · rename_i w21 w22 w23 w24 w25
      exact State.afterCode_good (State.finish_good ‹_›)
    · rename_i w26 w27
      assumption
  try clear_value x6
  exact State.fabGo_good ‹_›

theorem State.remoteTimeout_good {og : Origin} {a1 : State} {a2 : Nat} (h1 : Good og (a1)) :
    Good og (@State.remoteTimeout a1 a2) := by
  unfold State.remoteTimeout
  split
  · rename_i w1 w2 w3
    refine good_ite ?_ ?_
    · exact State.endReq_good ‹_›
    · assumption
  · rename_i w4 w5
    assumption

theorem execRemoteTimeout_good {og : Origin} {a1 : Word} {a2 : State} (h2 : Good og (a2)) :
    GoodOut og (@execRemoteTimeout a1 a2) := by
  unfold execRemoteTimeout
  exact goodOut_next (State.remoteTimeout_good ‹_›)

theorem State.atomicRetry_good {og : Origin} {a1 : State} {a2 : Nat} (h1 : Good og (a1)) :
    Good og (@State.atomicRetry a1 a2) := by
  unfold State.atomicRetry
  split
  · rename_i w1 w2 w3
    refine good_ite ?_ ?_
    · extract_lets +onlyGivenNames x4
      try clear_value x4
      extract_lets +onlyGivenNames x5; try clear_value x5
      extract_lets +onlyGivenNames x6
      have h7 : Good og (x6) := by subst x6; exact State.setReqs_good ‹_›
      try clear_value x6
      refine good_ite ?_ ?_
      · exact State.modPort_good ‹_›
      · split
        · rename_i w8 w9 w10
          exact State.sendPacket_good ‹_›
        · rename_i w11 w12
          assumption
    · assumption
  · rename_i w13 w14
    assumption

theorem execAtomicRetry_good {og : Origin} {a1 : Word} {a2 : State} (h2 : Good og (a2)) :
    GoodOut og (@execAtomicRetry a1 a2) := by
  unfold execAtomicRetry
  exact goodOut_next (State.atomicRetry_good ‹_›)

theorem State.outcomeUnknown_good {og : Origin} {a1 : State} {a2 : Nat} (h1 : Good og (a1)) :
    Good og (@State.outcomeUnknown a1 a2) := by
  unfold State.outcomeUnknown
  split
  · rename_i w1 w2 w3
    refine good_ite ?_ ?_
    · exact State.endReq_good ‹_›
    · assumption
  · rename_i w4 w5
    assumption

theorem execOutcomeUnknown_good {og : Origin} {a1 : Word} {a2 : State} (h2 : Good og (a2)) :
    GoodOut og (@execOutcomeUnknown a1 a2) := by
  unfold execOutcomeUnknown
  exact goodOut_next (State.outcomeUnknown_good ‹_›)

theorem State.e2eFail_good {og : Origin} {a1 : State} {a2 : Nat} (h1 : Good og (a1)) :
    Good og (@State.e2eFail a1 a2) := by
  unfold State.e2eFail
  exact State.count_good (State.event_good (State.event_good (State.setEvent_good (State.addSat_good ‹_›))))

theorem State.response_good {og : Origin} {a1 : State} {a2 : Nat} {a3 : Nat} {a4 : Nat → Bool} {a5 : State → FabReq → Pkt → State} (h1 : Good og (a1)) (h5 : ∀ b1 b2 b3, Good og (b1) → Good og (a5 b1 b2 b3)) :
    Good og (@State.response a1 a2 a3 a4 a5) := by
  unfold State.response
  split
  · rename_i w1 w2
    assumption
  · rename_i w3 w4 w5 w6
    refine good_ite ?_ ?_
    · assumption
    · extract_lets +onlyGivenNames x7
      have h8 : Good og (x7) := by subst x7; exact State.modPort_good ‹_›
      try clear_value x7
      refine good_ite ?_ ?_
      · exact State.e2eFail_good ‹_›
      · extract_lets +onlyGivenNames x9
        try clear_value x9
        split
        · rename_i w10 w11
          exact State.setEvent_good ‹_›
        · rename_i w12 w13 w14
          exact h5 _ _ _ ‹_›

theorem execReadRsp_good {og : Origin} {a1 : PortId} {a2 : State} (h2 : Good og (a2)) :
    GoodOut og (@execReadRsp a1 a2) := by
  unfold execReadRsp
  refine goodOut_next ?_
  refine State.response_good ?_ ?_
  · assumption
  · intro v1 v2 v3 v4
    exact State.endReq_good ‹_›

theorem execAck_good {og : Origin} {a1 : PortId} {a2 : State} (h2 : Good og (a2)) :
    GoodOut og (@execAck a1 a2) := by
  unfold execAck
  refine goodOut_next ?_
  refine State.response_good ?_ ?_
  · assumption
  · intro v1 v2 v3 v4
    exact State.endReq_good ‹_›

theorem execAtomicRsp_good {og : Origin} {a1 : PortId} {a2 : State} (h2 : Good og (a2)) :
    GoodOut og (@execAtomicRsp a1 a2) := by
  unfold execAtomicRsp
  refine goodOut_next ?_
  refine State.response_good ?_ ?_
  · assumption
  · intro v1 v2 v3 v4
    exact State.endReq_good ‹_›

theorem execNack_good {og : Origin} {a1 : PortId} {a2 : State} (h2 : Good og (a2)) :
    GoodOut og (@execNack a1 a2) := by
  unfold execNack
  refine goodOut_next ?_
  refine State.response_good ?_ ?_
  · assumption
  · intro v1 v2 v3 v4
    refine good_ite ?_ ?_
    · assumption
    · exact State.endReq_good ‹_›

end Sys2Proof.Machine
end

