-- ==== Sys2Proof/Laws/Keep/Manifest.lean ====
section
/-! SUPPORT. What the operations of Machine/Manifest.lean keep. -/

namespace Sys2Proof.Machine

theorem State.publish_good {og : Origin} {a1 : State} {a2 : Nat} {a3 : Nat} {a4 : List Byte} (h1 : Good og (a1)) :
    Good og (@State.publish a1 a2 a3 a4) := by
  unfold State.publish
  exact good_mk ‹_› rfl rfl rfl rfl rfl rfl rfl

theorem State.loadGens_good {og : Origin} {a1 : State} {a2 : Nat} (h1 : Good og (a1)) :
    Good og (@State.loadGens a1 a2) := by
  unfold State.loadGens
  extract_lets +onlyGivenNames x1; try clear_value x1
  extract_lets +onlyGivenNames x2
  have h3 : Good og (x2) := by
    subst x2
    refine good_foldl ?_ (fun s4 y5 h6 => ?_)
    · assumption
    · exact State.setReg_good ‹_›
  try clear_value x2
  refine good_ite ?_ ?_
  · assumption
  · extract_lets +onlyGivenNames x7
    try clear_value x7
    exact good_mk ‹_› rfl rfl rfl rfl rfl rfl rfl

theorem State.resReady_good {og : Origin} {a1 : State} (h1 : Good og (a1)) :
    Good og (@State.resReady a1) := by
  unfold State.resReady
  refine State.wr_good ?_
  refine good_foldl ?_ (fun s1 y2 h3 => ?_)
  · assumption
  · exact State.loadGens_good ‹_›

end Sys2Proof.Machine
end

