-- ==== Sys2Proof/Laws/Keep/FabIn.lean ====
section
/-! SUPPORT. What the operations of Machine/FabIn.lean keep. -/

namespace Sys2Proof.Machine

theorem State.resolveIn_good {og : Origin} {a1 : State} {a2 : Nat} {a3 : Nat} {a4 : Nat} {a5 : Bool} (h1 : Good og (a1)) :
    Good og (@State.resolveIn a1 a2 a3 a4 a5).1 := by
  unfold State.resolveIn
  refine good_ite_fst ?_ ?_
  · split
    · rename_i w1 w2 w3
      exact good_pair ‹_›
    · rename_i w4 w5
      exact good_pair ‹_›
  · exact State.translate_good ‹_›

theorem State.sendRsp_good {og : Origin} {a1 : State} {a2 : Nat} {a3 : Nat} {a4 : Nat} {a5 : List Byte} (h1 : Good og (a1)) :
    Good og (@State.sendRsp a1 a2 a3 a4 a5) := by
  unfold State.sendRsp
  refine good_ite ?_ ?_
  · exact State.modPort_good ‹_›
  · split
    · rename_i w1 w2 w3
      exact State.sendPacket_good ‹_›
    · rename_i w4 w5
      assumption

theorem State.respond_good {og : Origin} {a1 : State} {a2 : Nat} {a3 : Pkt} {a4 : Nat} {a5 : Nat} {a6 : List Byte} (h1 : Good og (a1)) :
    Good og (@State.respond a1 a2 a3 a4 a5 a6) := by
  unfold State.respond
  refine good_ite ?_ ?_
  · assumption
  · exact State.sendRsp_good ‹_›

theorem State.ackOr_good {og : Origin} {a1 : State} {a2 : Nat} {a3 : Pkt} {a4 : Nat} (h1 : Good og (a1)) :
    Good og (@State.ackOr a1 a2 a3 a4) := by
  unfold State.ackOr
  refine good_ite ?_ ?_
  · exact State.respond_good ‹_›
  · exact State.respond_good ‹_›

theorem State.takeRequest_good {og : Origin} {a1 : State} {a2 : Nat} {a3 : Pkt} {a4 : List Byte} {a5 : List (List Byte)} (h1 : Good og (a1)) :
    Good og (@State.takeRequest a1 a2 a3 a4 a5) := by
  unfold State.takeRequest
  extract_lets +onlyGivenNames x1
  have h2 : Good og (x1) := by subst x1; exact State.modPort_good ‹_›
  try clear_value x1
  refine good_ite ?_ ?_
  · assumption
  · exact State.owe_good ‹_›

theorem State.inbound_good {og : Origin} {a1 : State} {a2 : Nat} {a3 : Nat} {a4 : State → Pkt → State} (h1 : Good og (a1)) (h4 : ∀ b1 b2, Good og (b1) → Good og (a4 b1 b2)) :
    Good og (@State.inbound a1 a2 a3 a4) := by
  unfold State.inbound
  split
  · assumption
  · extract_lets k rested
    have hr : Good og rested := State.takeRequest_good h1
    exact good_ite h1 (good_ite (State.e2eFail_good hr) (good_ite (State.respond_good hr) (good_ite h1 (h4 _ _ hr))))


theorem State.withTenant_good {og : Origin} {a1 : State} {a2 : Nat} {a3 : Pkt} {a4 : State → Nat → State} (h1 : Good og (a1)) (h4 : ∀ b1 b2, Good og (b1) → Good og (a4 b1 b2)) :
    Good og (@State.withTenant a1 a2 a3 a4) := by
  unfold State.withTenant
  split
  · rename_i w1 w2 w3
    exact h4 _ _ ‹_›
  · rename_i w4 w5
    exact State.respond_good ‹_›

theorem State.recordNack_good {og : Origin} {a1 : State} {a2 : Nat} {a3 : Pkt} (h1 : Good og (a1)) :
    Good og (@State.recordNack a1 a2 a3) := by
  unfold State.recordNack
  split
  · rename_i w1 w2 w3 w4
    have h5 : Good og w2 := good_fst w4 (State.refused_good (good_pair ‹_›))
    exact State.respond_good ‹_›

theorem State.withAddress_good {og : Origin} {a1 : State} {a2 : Nat} {a3 : Pkt} {a4 : Nat} {a5 : Nat} {a6 : Bool} {a7 : State → Nat → State} (h1 : Good og (a1)) (h7 : ∀ b1 b2, Good og (b1) → Good og (a7 b1 b2)) :
    Good og (@State.withAddress a1 a2 a3 a4 a5 a6 a7) := by
  unfold State.withAddress
  refine good_ite ?_ ?_
  · exact State.respond_good ‹_›
  · split
    · rename_i w1 w2 w3 w4 w5
      have h6 : Good og w2 := good_fst w5 (State.resolveIn_good ‹_›)
      exact State.respond_good ‹_›
    · rename_i w7 w8 w9 w10
      have h11 : Good og w8 := good_fst w10 (State.resolveIn_good ‹_›)
      refine good_ite ?_ ?_
      · exact State.recordNack_good ‹_›
      · exact h7 _ _ ‹_›

theorem State.inRead_good {og : Origin} {a1 : State} {a2 : Nat} {a3 : Pkt} (h1 : Good og (a1)) :
    Good og (@State.inRead a1 a2 a3) := by
  unfold State.inRead
  refine State.withTenant_good ?_ ?_
  · assumption
  · intro v1 v2 v3
    refine good_ite ?_ ?_
    · refine good_ite ?_ ?_
      · exact State.respond_good ‹_›
      · exact State.respond_good ‹_›
    · refine State.withAddress_good ?_ ?_
      · assumption
      · intro v4 v5 v6
        extract_lets +onlyGivenNames x7
        have h8 : Good og (x7) := by subst x7; exact State.readAs_good ‹_›
        try clear_value x7
        refine good_ite ?_ ?_
        · exact State.respond_good ‹_›
        · exact State.respond_good ‹_›

theorem execInboundRead_good {og : Origin} {a1 : PortId} {a2 : State} (h2 : Good og (a2)) :
    GoodOut og (@execInboundRead a1 a2) := by
  unfold execInboundRead
  refine goodOut_next ?_
  refine State.inbound_good ?_ ?_
  · assumption
  · intro v1 v2 v3
    exact State.inRead_good ‹_›

theorem State.inWrite_good {og : Origin} {a1 : State} {a2 : Nat} {a3 : Pkt} (h1 : Good og (a1)) :
    Good og (@State.inWrite a1 a2 a3) := by
  unfold State.inWrite
  refine State.withTenant_good ?_ ?_
  · assumption
  · intro v1 v2 v3
    refine good_ite ?_ ?_
    · exact State.respond_good ‹_›
    · refine State.withAddress_good ?_ ?_
      · assumption
      · intro v4 v5 v6
        extract_lets +onlyGivenNames x7; try clear_value x7
        exact State.ackOr_good (State.writeLine_good ‹_›)

theorem execInboundWrite_good {og : Origin} {a1 : PortId} {a2 : State} (h2 : Good og (a2)) :
    GoodOut og (@execInboundWrite a1 a2) := by
  unfold execInboundWrite
  refine goodOut_next ?_
  refine State.inbound_good ?_ ?_
  · assumption
  · intro v1 v2 v3
    exact State.inWrite_good ‹_›

theorem execInboundMcastWrite_good {og : Origin} {a1 : PortId} {a2 : State} (h2 : Good og (a2)) :
    GoodOut og (@execInboundMcastWrite a1 a2) := by
  unfold execInboundMcastWrite
  refine goodOut_next ?_
  refine State.inbound_good ?_ ?_
  · assumption
  · intro v1 v2 v3
    exact State.inWrite_good ‹_›

theorem State.land_good {og : Origin} {a1 : State} {a2 : Nat} {a3 : Nat} {a4 : Nat} {a5 : Pkt} {a6 : Nat} {a7 : Nat} {a8 : List Byte} {a9 : List AtomLane} (h1 : Good og (a1)) :
    Good og (@State.land a1 a2 a3 a4 a5 a6 a7 a8 a9) := by
  unfold State.land
  extract_lets +onlyGivenNames x1; try clear_value x1
  extract_lets +onlyGivenNames x2; try clear_value x2
  extract_lets +onlyGivenNames x3
  have h4 : Good og (x3) := by subst x3; exact good_mk ‹_› rfl rfl rfl rfl rfl rfl rfl
  try clear_value x3
  extract_lets +onlyGivenNames x5
  have h6 : Good og (x5) := by subst x5; exact State.modPort_good ‹_›
  try clear_value x5
  exact State.sendRed_good ‹_›

theorem State.inReduce_good {og : Origin} {a1 : State} {a2 : Nat} {a3 : Pkt} (h1 : Good og (a1)) :
    Good og (@State.inReduce a1 a2 a3) := by
  unfold State.inReduce
  refine State.withTenant_good ?_ ?_
  · assumption
  · intro v1 v2 v3
    refine good_ite ?_ ?_
    · exact State.respond_good ‹_›
    · refine State.withAddress_good ?_ ?_
      · assumption
      · intro v4 v5 v6
        extract_lets +onlyGivenNames x7; try clear_value x7
        refine good_ite ?_ ?_
        · exact State.respond_good ‹_›
        · exact State.land_good ‹_›

theorem execInboundReduce_good {og : Origin} {a1 : PortId} {a2 : State} (h2 : Good og (a2)) :
    GoodOut og (@execInboundReduce a1 a2) := by
  unfold execInboundReduce
  refine goodOut_next ?_
  refine State.inbound_good ?_ ?_
  · assumption
  · intro v1 v2 v3
    exact State.inReduce_good ‹_›

theorem State.atomicDone_good {og : Origin} {a1 : State} {a2 : Nat} {a3 : Pkt} {a4 : Nat} {a5 : Nat} {a6 : List Byte} (h1 : Good og (a1)) :
    Good og (@State.atomicDone a1 a2 a3 a4 a5 a6) := by
  unfold State.atomicDone
  extract_lets +onlyGivenNames x1; try clear_value x1
  extract_lets +onlyGivenNames x2
  have h3 : Good og (x2) := by subst x2; exact State.modPort_good ‹_›
  try clear_value x2
  exact State.sendRsp_good ‹_›

theorem State.atomicFirst_good {og : Origin} {a1 : State} {a2 : Nat} {a3 : Pkt} (h1 : Good og (a1)) :
    Good og (@State.atomicFirst a1 a2 a3) := by
  unfold State.atomicFirst
  extract_lets +onlyGivenNames x1
  have h2 : Good og (x1) := by subst x1; exact State.modPort_good ‹_›
  try clear_value x1
  extract_lets +onlyGivenNames x3
  subst x3
  split
  · rename_i w4 w5
    exact State.atomicDone_good ‹_›
  · rename_i w6 w7 w8
    extract_lets +onlyGivenNames x9; try clear_value x9
    extract_lets +onlyGivenNames x10; try clear_value x10
    refine good_ite ?_ ?_
    · exact State.atomicDone_good ‹_›
    · refine good_ite ?_ ?_
      · exact State.atomicDone_good ‹_›
      · refine good_ite ?_ ?_
        · exact State.atomicDone_good ‹_›
        · split
          · rename_i w11 w12 w13 w14 w15
            have h16 : Good og w12 := good_fst w15 (State.resolveIn_good ‹_›)
            exact State.atomicDone_good ‹_›
          · rename_i w17 w18 w19 w20
            have h21 : Good og w18 := good_fst w20 (State.resolveIn_good ‹_›)
            refine good_ite ?_ ?_
            · split
              · rename_i w22 w23 w24 w25
                have h26 : Good og w23 := good_fst w25 (State.refused_good (good_pair ‹_›))
                exact State.atomicDone_good ‹_›
            · exact State.land_good ‹_›

theorem State.inAtomic_good {og : Origin} {a1 : State} {a2 : Nat} {a3 : Pkt} (h1 : Good og (a1)) :
    Good og (@State.inAtomic a1 a2 a3) := by
  unfold State.inAtomic
  split
  · rename_i w1 w2 w3
    split
    · rename_i w4 w5 w6
      exact State.sendRsp_good (State.count_good ‹_›)
    · rename_i w7 w8
      assumption
  · rename_i w9 w10
    refine good_ite ?_ ?_
    · exact State.respond_good (State.count_good (State.setEvent_good ‹_›))
    · exact State.atomicFirst_good ‹_›

theorem execInboundAtomic_good {og : Origin} {a1 : PortId} {a2 : State} (h2 : Good og (a2)) :
    GoodOut og (@execInboundAtomic a1 a2) := by
  unfold execInboundAtomic
  refine goodOut_next ?_
  refine State.inbound_good ?_ ?_
  · assumption
  · intro v1 v2 v3
    exact State.inAtomic_good ‹_›

theorem execReceiptExpiry_good {og : Origin} {a1 : PortId} {a2 : State} (h2 : Good og (a2)) :
    GoodOut og (@execReceiptExpiry a1 a2) := by
  unfold execReceiptExpiry
  exact goodOut_next (State.modPort_good ‹_›)

theorem State.landed_good {og : Origin} {a1 : State} {a2 : Nat} {a3 : Nat} {a4 : Nat} {a5 : List (Nat × Nat)} (h1 : Good og (a1)) :
    Good og (@State.landed a1 a2 a3 a4 a5) := by
  unfold State.landed
  split
  · rename_i w1 w2
    assumption
  · rename_i w3 w4 w5
    extract_lets +onlyGivenNames x6
    have h7 : Good og (x6) := by subst x6; exact State.modPort_good ‹_›
    try clear_value x6
    extract_lets +onlyGivenNames x8; try clear_value x8
    refine good_ite ?_ ?_
    · exact State.ackOr_good ‹_›
    · refine good_ite ?_ ?_
      · exact State.atomicDone_good ‹_›
      · exact State.atomicDone_good ‹_›

theorem State.inSignal_good {og : Origin} {a1 : State} {a2 : Nat} {a3 : Pkt} (h1 : Good og (a1)) :
    Good og (@State.inSignal a1 a2 a3) := by
  unfold State.inSignal
  refine State.withTenant_good ?_ ?_
  · assumption
  · intro v1 v2 v3
    refine good_ite ?_ ?_
    · exact State.respond_good ‹_›
    · refine good_ite ?_ ?_
      · exact State.respond_good ‹_›
      · split
        · rename_i w4 w5 w6 w7 w8
          have h9 : Good og w5 := good_fst w8 (State.resolveIn_good ‹_›)
          exact State.respond_good ‹_›
        · rename_i w10 w11 w12 w13
          have h14 : Good og w11 := good_fst w13 (State.resolveIn_good ‹_›)
          split
          · rename_i w15 w16 w17 w18
            have h19 : Good og w16 := good_fst w18 (State.signalAt_good ‹_›)
            exact State.ackOr_good ‹_›

theorem execInboundSignal_good {og : Origin} {a1 : PortId} {a2 : State} (h2 : Good og (a2)) :
    GoodOut og (@execInboundSignal a1 a2) := by
  unfold execInboundSignal
  refine goodOut_next ?_
  refine good_ite ?_ ?_
  · refine State.inbound_good ?_ ?_
    · assumption
    · intro v1 v2 v3
      exact State.inSignal_good ‹_›
  · assumption

end Sys2Proof.Machine
end

