-- ==== Sys2Proof/Laws/Keep/Drain.lean ====
section
/-! SUPPORT. What the operations of Machine/Drain.lean keep. -/

namespace Sys2Proof.Machine

theorem State.setDrains_good {og : Origin} {a1 : State} {a2 : List Drain} (h1 : Good og (a1)) :
    Good og (@State.setDrains a1 a2) := by
  unfold State.setDrains
  exact State.wr_good (good_mk ‹_› rfl rfl rfl rfl rfl rfl rfl)

theorem State.putDrain_good {og : Origin} {a1 : State} {a2 : Drain} (h1 : Good og (a1)) :
    Good og (@State.putDrain a1 a2) := by
  unfold State.putDrain
  exact State.setDrains_good ‹_›

theorem State.genRecord_good {og : Origin} {a1 : State} {a2 : Nat} {a3 : Nat} {a4 : Nat} {a5 : Nat} {a6 : Nat} (h1 : Good og (a1)) :
    Good og (@State.genRecord a1 a2 a3 a4 a5 a6) := by
  unfold State.genRecord
  exact State.drawn_good (State.drawn_good (State.journalOffer_good ‹_›))

theorem State.freeGenSlot_good {og : Origin} {a1 : State} {a2 : Nat} (h1 : Good og (a1)) :
    Good og (@State.freeGenSlot a1 a2) := by
  unfold State.freeGenSlot
  split
  · rename_i w1 w2 w3
    refine good_ite ?_ ?_
    · exact State.genRecord_good (good_mk ‹_› rfl rfl rfl rfl rfl rfl rfl)
    · assumption
  · rename_i w4 w5
    assumption

theorem State.dropDrainXfers_good {og : Origin} {a1 : State} {a2 : Nat} {a3 : Nat} (h1 : Good og (a1)) :
    Good og (@State.dropDrainXfers a1 a2 a3) := by
  unfold State.dropDrainXfers
  exact good_mk ‹_› rfl rfl rfl rfl rfl rfl rfl

theorem State.lostEnd_good {og : Origin} {a1 : State} (h1 : Good og (a1)) :
    Good og (@State.lostEnd a1) := by
  unfold State.lostEnd
  refine good_ite ?_ ?_
  · exact State.resetSequence_good ‹_›
  · assumption

theorem State.abandon_good {og : Origin} {a1 : State} {a2 : Nat} {a3 : Nat} {a4 : Nat} (h1 : Good og (a1)) :
    Good og (@State.abandon a1 a2 a3 a4) := by
  unfold State.abandon
  split
  · rename_i w1 w2
    assumption
  · rename_i w3 w4 w5
    extract_lets +onlyGivenNames x6
    have h7 : Good og (x6) := by subst x6; exact State.dropDrainXfers_good (State.setDrains_good ‹_›)
    try clear_value x6
    extract_lets +onlyGivenNames x8
    have h9 : Good og (x8) := by
      subst x8
      refine good_ite ?_ ?_
      · exact State.setReg_good ‹_›
      · refine good_ite ?_ ?_
        · exact State.freeGenSlot_good ‹_›
        · assumption
    try clear_value x8
    exact State.lostEnd_good (State.tell_good (State.setEvent_good ‹_›))

theorem State.abandonStart_good {og : Origin} {a1 : State} {a2 : Nat} {a3 : Nat} {a4 : Nat} (h1 : Good og (a1)) :
    Good og (@State.abandonStart a1 a2 a3 a4) := by
  unfold State.abandonStart
  exact State.lostEnd_good (State.tell_good (State.setEvent_good ‹_›))

theorem State.abandonAll_good {og : Origin} {a1 : State} {a2 : Nat} {a3 : Nat} (h1 : Good og (a1)) :
    Good og (@State.abandonAll a1 a2 a3) := by
  unfold State.abandonAll
  refine good_foldl ?_ (fun s1 y2 h3 => ?_)
  · assumption
  · exact State.abandon_good ‹_›

theorem State.drainDone_good {og : Origin} {a1 : State} {a2 : Drain} (h1 : Good og (a1)) :
    Good og (@State.drainDone a1 a2) := by
  unfold State.drainDone
  extract_lets +onlyGivenNames x1
  have h2 : Good og (x1) := by subst x1; exact State.setDrains_good ‹_›
  try clear_value x1
  extract_lets +onlyGivenNames x3
  have h4 : Good og (x3) := by subst x3; exact State.tell_good (State.setEvent_good ‹_›)
  try clear_value x3
  extract_lets +onlyGivenNames x5
  have h6 : Good og (x5) := by subst x5; exact State.setReg_good ‹_›
  try clear_value x5
  refine State.lostEnd_good ?_
  refine good_ite ?_ ?_
  · assumption
  · exact State.publish_good ‹_›

theorem State.undue_good {og : Origin} {a1 : State} {a2 : Nat} {a3 : Nat} (h1 : Good og (a1)) :
    Good og (@State.undue a1 a2 a3) := by
  unfold State.undue
  exact good_mk ‹_› rfl rfl rfl rfl rfl rfl rfl

theorem State.startPartner_good {og : Origin} {a1 : State} {a2 : Nat} (h1 : Good og (a1)) :
    Good og (@State.startPartner a1 a2) := by
  unfold State.startPartner
  split
  · rename_i w1 w2
    assumption
  · rename_i w3 w4 w5
    extract_lets +onlyGivenNames x6; try clear_value x6
    extract_lets +onlyGivenNames x7
    have h8 : Good og (x7) := by subst x7; exact State.undue_good ‹_›
    try clear_value x7
    split
    · rename_i w9 w10
      exact State.abandonStart_good ‹_›
    · rename_i w11 w12 w13
      extract_lets +onlyGivenNames x14; try clear_value x14
      extract_lets +onlyGivenNames x15
      have h16 : Good og (x15) := by subst x15; exact good_mk ‹_› rfl rfl rfl rfl rfl rfl rfl
      try clear_value x15
      exact State.setDrains_good ‹_›

theorem State.startFlash_good {og : Origin} {a1 : State} {a2 : Nat} (h1 : Good og (a1)) :
    Good og (@State.startFlash a1 a2) := by
  unfold State.startFlash
  extract_lets +onlyGivenNames x1; try clear_value x1
  extract_lets +onlyGivenNames x2; try clear_value x2
  extract_lets +onlyGivenNames x3; try clear_value x3
  refine good_ite ?_ ?_
  · exact State.abandonStart_good (State.undue_good ‹_›)
  · refine good_ite ?_ ?_
    · refine good_ite ?_ ?_
      · assumption
      · exact State.event_good (State.setEvent_good (good_mk ‹_› rfl rfl rfl rfl rfl rfl rfl))
    · extract_lets +onlyGivenNames x4
      try clear_value x4
      extract_lets +onlyGivenNames x5
      have h6 : Good og (x5) := by subst x5; exact State.setBucket_good (State.undue_good ‹_›)
      try clear_value x5
      exact State.genRecord_good (State.setDrains_good ‹_›)

theorem State.startShared_good {og : Origin} {a1 : State} {a2 : Nat} (h1 : Good og (a1)) :
    Good og (@State.startShared a1 a2) := by
  unfold State.startShared
  extract_lets +onlyGivenNames x1; try clear_value x1
  extract_lets +onlyGivenNames x2
  have h3 : Good og (x2) := by subst x2; exact State.undue_good ‹_›
  try clear_value x2
  split
  · rename_i w4 w5
    assumption
  · rename_i w6 w7 w8
    refine good_ite ?_ ?_
    · assumption
    · refine good_ite ?_ ?_
      · exact State.abandonStart_good ‹_›
      · extract_lets +onlyGivenNames x9
        try clear_value x9
        exact State.setDrains_good ‹_›

theorem State.securingStart_good {og : Origin} {a1 : State} {a2 : Nat} (h1 : Good og (a1)) :
    Good og (@State.securingStart a1 a2) := by
  unfold State.securingStart
  refine good_foldl ?_ (fun s1 y2 h3 => ?_)
  · assumption
  · refine good_ite ?_ ?_
    · refine good_ite ?_ ?_
      · exact State.startPartner_good ‹_›
      · refine good_ite ?_ ?_
        · exact State.startFlash_good ‹_›
        · exact State.startShared_good ‹_›
    · assumption

theorem execSecuringStart_good {og : Origin} {a1 : TenantId} {a2 : State} (h2 : Good og (a2)) :
    GoodOut og (@execSecuringStart a1 a2) := by
  unfold execSecuringStart
  exact goodOut_next (State.securingStart_good ‹_›)

theorem State.bucketRefill_good {og : Origin} {a1 : State} (h1 : Good og (a1)) :
    Good og (@State.bucketRefill a1) := by
  unfold State.bucketRefill
  split
  · rename_i w1 w2
    assumption
  · rename_i w3 w4 w5 w6
    extract_lets +onlyGivenNames x7; try clear_value x7
    extract_lets +onlyGivenNames x8
    have h9 : Good og (x8) := by
      subst x8
      refine good_ite ?_ ?_
      · exact State.setBucket_good ‹_›
      · assumption
    try clear_value x8
    refine good_ite ?_ ?_
    · exact State.startFlash_good ‹_›
    · assumption

theorem execBucketRefill_good {og : Origin} {a1 : State} (h1 : Good og (a1)) :
    GoodOut og (@execBucketRefill a1) := by
  unfold execBucketRefill
  exact goodOut_next (State.bucketRefill_good ‹_›)

theorem State.drainPut_good {og : Origin} {a1 : State} {a2 : Nat} {a3 : Nat} {a4 : Bool} {a5 : Nat} {a6 : List Byte} (h1 : Good og (a1)) :
    Good og (@State.drainPut a1 a2 a3 a4 a5 a6) := by
  unfold State.drainPut
  extract_lets +onlyGivenNames x1; try clear_value x1
  split
  · rename_i w2 w3
    exact State.startXfer_good ‹_›
  · rename_i w4 w5
    exact State.abandon_good (State.event_good ‹_›)

theorem State.drainClose_good {og : Origin} {a1 : State} {a2 : Nat} {a3 : Nat} (h1 : Good og (a1)) :
    Good og (@State.drainClose a1 a2 a3) := by
  unfold State.drainClose
  split
  · rename_i w1 w2
    assumption
  · rename_i w3 w4 w5
    refine good_ite ?_ ?_
    · assumption
    · extract_lets +onlyGivenNames x6
      try clear_value x6
      extract_lets +onlyGivenNames x7
      have h8 : Good og (x7) := by subst x7; exact State.putDrain_good ‹_›
      try clear_value x7
      refine good_ite ?_ ?_
      · extract_lets +onlyGivenNames x9
        try clear_value x9
        extract_lets +onlyGivenNames x10; try clear_value x10
        extract_lets +onlyGivenNames x11
        have h12 : Good og (x11) := by subst x11; exact good_mk ‹_› rfl rfl rfl rfl rfl rfl rfl
        try clear_value x11
        exact State.genRecord_good (State.tlcWrite_good ‹_›)
      · exact State.drainPut_good ‹_›

theorem State.flashBlock_good {og : Origin} {a1 : State} {a2 : Drain} {a3 : GenBlock} (h1 : Good og (a1)) :
    Good og (@State.flashBlock a1 a2 a3) := by
  unfold State.flashBlock
  exact State.tlcWrite_good (good_mk ‹_› rfl rfl rfl rfl rfl rfl rfl)

theorem State.keepDigest_good {og : Origin} {a1 : State} {a2 : Drain} {a3 : GenBlock} (h1 : Good og (a1)) :
    Good og (@State.keepDigest a1 a2 a3) := by
  unfold State.keepDigest
  refine good_ite ?_ ?_
  · assumption
  · exact good_mk ‹_› rfl rfl rfl rfl rfl rfl rfl

theorem State.putBlock_good {og : Origin} {a1 : State} {a2 : Drain} {a3 : GenBlock} {a4 : List SrcBlock} (h1 : Good og (a1)) :
    Good og (@State.putBlock a1 a2 a3 a4) := by
  unfold State.putBlock
  extract_lets +onlyGivenNames x1
  have h2 : Good og (x1) := by subst x1; exact State.putDrain_good ‹_›
  try clear_value x1
  extract_lets +onlyGivenNames x3
  have h4 : Good og (x3) := by
    subst x3
    refine good_ite ?_ ?_
    · exact State.setReg_good ‹_›
    · assumption
  try clear_value x3
  extract_lets +onlyGivenNames x5
  have h6 : Good og (x5) := by subst x5; exact State.keepDigest_good ‹_›
  try clear_value x5
  extract_lets +onlyGivenNames x7
  have h8 : Good og (x7) := by
    subst x7
    refine good_ite ?_ ?_
    · exact State.flashBlock_good ‹_›
    · exact State.drainPut_good ‹_›
  try clear_value x7
  exact State.drainClose_good ‹_›

theorem State.unstable_good {og : Origin} {a1 : State} {a2 : Nat} (h1 : Good og (a1)) :
    Good og (@State.unstable a1 a2) := by
  unfold State.unstable
  extract_lets +onlyGivenNames x1
  have h2 : Good og (x1) := by subst x1; exact State.abandon_good (State.abandon_good ‹_›)
  try clear_value x1
  extract_lets +onlyGivenNames x3; try clear_value x3
  extract_lets +onlyGivenNames x4
  have h5 : Good og (x4) := by subst x4; exact good_mk ‹_› rfl rfl rfl rfl rfl rfl rfl
  try clear_value x4
  exact State.healthInput_good (State.event_good (State.setEvent_good ‹_›))

theorem State.drainBlockEnd_good {og : Origin} {a1 : State} {a2 : Nat} {a3 : Nat} {a4 : Option (List Byte)} {a5 : Bool} (h1 : Good og (a1)) :
    Good og (@State.drainBlockEnd a1 a2 a3 a4 a5) := by
  unfold State.drainBlockEnd
  split
  · rename_i w1 w2
    assumption
  · rename_i w3 w4 w5
    split
    · rename_i w6 w7
      assumption
    · rename_i w8 w9 w10 w11
      extract_lets +onlyGivenNames x12; try clear_value x12
      refine good_ite ?_ ?_
      · assumption
      · refine good_ite ?_ ?_
        · exact State.abandon_good ‹_›
        · extract_lets +onlyGivenNames x13
          have h14 : Good og (x13) := by
            subst x13
            refine good_ite ?_ ?_
            · exact State.touchSpans_good ‹_›
            · assumption
          try clear_value x13
          extract_lets +onlyGivenNames x15; try clear_value x15
          extract_lets +onlyGivenNames x16; try clear_value x16
          refine good_ite ?_ ?_
          · refine good_ite ?_ ?_
            · exact State.putDrain_good ‹_›
            · exact State.unstable_good ‹_›
          · exact State.putBlock_good ‹_›

theorem execDrainBlockEnd_good {og : Origin} {a1 : TenantId} {a2 : Fin 3} {a3 : Option (List Byte)} {a4 : Bool} {a5 : State} (h5 : Good og (a5)) :
    GoodOut og (@execDrainBlockEnd a1 a2 a3 a4 a5) := by
  unfold execDrainBlockEnd
  exact goodOut_next (State.drainBlockEnd_good ‹_›)

theorem State.drainWaitExpiry_good {og : Origin} {a1 : State} {a2 : Nat} (h1 : Good og (a1)) :
    Good og (@State.drainWaitExpiry a1 a2) := by
  unfold State.drainWaitExpiry
  extract_lets +onlyGivenNames x1; try clear_value x1
  refine good_ite ?_ ?_
  · assumption
  · refine good_foldl ?_ (fun s2 y3 h4 => ?_)
    · assumption
    · exact State.abandon_good ‹_›

theorem execDrainWaitExpiry_good {og : Origin} {a1 : TenantId} {a2 : State} (h2 : Good og (a2)) :
    GoodOut og (@execDrainWaitExpiry a1 a2) := by
  unfold execDrainWaitExpiry
  exact goodOut_next (State.drainWaitExpiry_good ‹_›)

theorem State.drainXferEnd_good {og : Origin} {a1 : State} {a2 : Nat} {a3 : Nat} {a4 : Bool} {a5 : Nat} (h1 : Good og (a1)) :
    Good og (@State.drainXferEnd a1 a2 a3 a4 a5) := by
  unfold State.drainXferEnd
  split
  · rename_i w1 w2
    assumption
  · rename_i w3 w4 w5
    refine good_ite ?_ ?_
    · assumption
    · refine good_ite ?_ ?_
      · exact State.abandon_good ‹_›
      · refine good_ite ?_ ?_
        · exact State.drainDone_good ‹_›
        · exact State.drainClose_good ‹_›

theorem State.openGenSlot_good {og : Origin} {a1 : State} {a2 : Nat} {a3 : List Byte} {a4 : Bool} (h1 : Good og (a1)) :
    Good og (@State.openGenSlot a1 a2 a3 a4) := by
  unfold State.openGenSlot
  extract_lets +onlyGivenNames x1; try clear_value x1
  extract_lets +onlyGivenNames x2; try clear_value x2
  extract_lets +onlyGivenNames x3
  have h4 : Good og (x3) := by subst x3; exact good_mk ‹_› rfl rfl rfl rfl rfl rfl rfl
  try clear_value x3
  refine good_ite ?_ ?_
  · assumption
  · exact State.freeGenSlot_good ‹_›

theorem State.genCommitted_good {og : Origin} {a1 : State} {a2 : Nat} {a3 : List Byte} (h1 : Good og (a1)) :
    Good og (@State.genCommitted a1 a2 a3) := by
  unfold State.genCommitted
  extract_lets +onlyGivenNames x1; try clear_value x1
  refine good_ite ?_ ?_
  · split
    · rename_i w2 w3 w4
      refine good_ite ?_ ?_
      · assumption
      · exact State.openGenSlot_good ‹_›
    · rename_i w5 w6
      exact State.openGenSlot_good ‹_›
  · refine good_ite ?_ ?_
    · split
      · rename_i w7 w8
        extract_lets +onlyGivenNames x9; try clear_value x9
        extract_lets +onlyGivenNames x10
        have h11 : Good og (x10) := by subst x10; exact good_mk ‹_› rfl rfl rfl rfl rfl rfl rfl
        try clear_value x10
        refine good_ite ?_ ?_
        · exact State.drainDone_good ‹_›
        · assumption
      · rename_i w12
        assumption
    · assumption

end Sys2Proof.Machine
end

