-- ==== Sys2Proof/Laws/Keep/FabEnd.lean ====
section
/-! SUPPORT. What the operations of Machine/FabEnd.lean keep. -/

namespace Sys2Proof.Machine

theorem State.getFailed_good {og : Origin} {a1 : State} {a2 : Nat} {a3 : Xfer} (h1 : Good og (a1)) :
    Good og (@State.getFailed a1 a2 a3) := by
  unfold State.getFailed
  refine good_ite ?_ ?_
  · assumption
  · refine good_foldl ?_ (fun s1 y2 h3 => ?_)
    · assumption
    · exact State.drawn_good (State.storeSpan_good ‹_›)

theorem State.writeXferRecord_good {og : Origin} {a1 : State} {a2 : Nat} {a3 : Xfer} (h1 : Good og (a1)) :
    Good og (@State.writeXferRecord a1 a2 a3) := by
  unfold State.writeXferRecord
  refine good_ite ?_ ?_
  · assumption
  · extract_lets +onlyGivenNames x1
    try clear_value x1
    split
    · rename_i w2 w3 w4 w5 w6 w7
      have h8 : Good og w3 := good_fst w7 (State.storeSpan_good (State.drawn_good (State.drawn_good ‹_›)))
      exact State.xferFault_good ‹_›
    · rename_i w9 w10 w11 w12
      have h13 : Good og w10 := good_fst w12 (State.storeSpan_good (State.drawn_good (State.drawn_good ‹_›)))
      assumption

theorem State.xferEnd_good {og : Origin} {a1 : State} {a2 : Nat} {a3 : Xfer} (h1 : Good og (a1)) :
    Good og (@State.xferEnd a1 a2 a3) := by
  unfold State.xferEnd
  extract_lets +onlyGivenNames x1
  have h2 : Good og (x1) := by subst x1; exact State.writeXferRecord_good (State.getFailed_good ‹_›)
  try clear_value x1
  extract_lets +onlyGivenNames x3; try clear_value x3
  extract_lets +onlyGivenNames x4; try clear_value x4
  extract_lets +onlyGivenNames x5
  have h6 : Good og (x5) := by subst x5; exact good_mk ‹_› rfl rfl rfl rfl rfl rfl rfl
  try clear_value x5
  extract_lets +onlyGivenNames x7
  have h8 : Good og (x7) := by
    subst x7
    split
    · rename_i w9 w10 w11 w12
      exact State.afterCode_good (State.finish_good ‹_›)
    · rename_i w13 w14 w15 w16 w17
      exact State.drainXferEnd_good ‹_›
  try clear_value x7
  exact State.takeXfer_good ‹_›

theorem State.transferEnd_good {og : Origin} {a1 : State} {a2 : Nat} (h1 : Good og (a1)) :
    Good og (@State.transferEnd a1 a2) := by
  unfold State.transferEnd
  split
  · rename_i w1 w2
    assumption
  · rename_i w3 w4 w5
    extract_lets +onlyGivenNames x6
    have h7 : Good og (x6) := by
      subst x6
      refine good_ite ?_ ?_
      · exact State.feedSignal_good ‹_›
      · assumption
    try clear_value x6
    split
    · rename_i w8 w9
      assumption
    · rename_i w10 w11 w12
      refine good_ite ?_ ?_
      · exact State.xferEnd_good ‹_›
      · assumption

theorem execTransferEnd_good {og : Origin} {a1 : Fin 16} {a2 : State} (h2 : Good og (a2)) :
    GoodOut og (@execTransferEnd a1 a2) := by
  unfold execTransferEnd
  exact goodOut_next (State.transferEnd_good ‹_›)

end Sys2Proof.Machine
end

