-- ==== Sys2Proof/Laws/Keep/Registers.lean ====
section
/-! SUPPORT. What the operations of Machine/Registers.lean keep. -/

namespace Sys2Proof.Machine

theorem State.setFwReg_good {og : Origin} {a1 : State} {a2 : Reg} {a3 : DWord} (h1 : Good og (a1)) :
    Good og (@State.setFwReg a1 a2 a3) := by
  unfold State.setFwReg
  exact good_mk ‹_› rfl rfl rfl rfl rfl rfl rfl

theorem State.writeChannel_good {og : Origin} {a1 : State} {a2 : Agent} {a3 : Reg} {a4 : DWord} {a5 : DWord} (h1 : Good og (a1)) :
    Good og (@State.writeChannel a1 a2 a3 a4 a5) := by
  unfold State.writeChannel
  extract_lets +onlyGivenNames x1; try clear_value x1
  split
  · rename_i w2 w3 w4
    refine good_ite ?_ ?_
    · assumption
    · exact State.setReg_good ‹_›
  · rename_i w5 w6 w7
    exact State.setReg_good ‹_›
  · rename_i w8 w9 w10 w11
    refine good_ite ?_ ?_
    · assumption
    · exact State.setFwReg_good ‹_›
  · rename_i w12 w13 w14 w15
    exact State.setFwReg_good ‹_›
  · rename_i w16 w17 w18 w19 w20 w21
    assumption

theorem State.writeReg_good {og : Origin} {a1 : State} {a2 : Agent} {a3 : Reg} {a4 : DWord} {a5 : DWord} (h1 : Good og (a1)) :
    Good og (@State.writeReg a1 a2 a3 a4 a5) := by
  unfold State.writeReg
  refine good_ite ?_ ?_
  · exact State.writeChannel_good ‹_›
  · extract_lets +onlyGivenNames x1
    try clear_value x1
    extract_lets +onlyGivenNames x2; try clear_value x2
    extract_lets +onlyGivenNames x3
    have h4 : Good og (x3) := by subst x3; exact State.setReg_good ‹_›
    try clear_value x3
    split
    · rename_i w5 w6
      refine good_ite ?_ ?_
      · exact State.denied_good ‹_›
      · assumption
    · rename_i w7 w8
      assumption

theorem State.touch_good {og : Origin} {a1 : State} {a2 : Agent} {a3 : Nat} (h1 : Good og (a1)) :
    Good og (@State.touch a1 a2 a3) := by
  unfold State.touch
  exact good_mk ‹_› rfl rfl rfl rfl rfl rfl rfl

theorem State.feed_good {og : Origin} {a1 : State} {a2 : Agent} {a3 : Nat} {a4 : List Byte} (h1 : Good og (a1)) :
    Good og (@State.feed a1 a2 a3 a4) := by
  unfold State.feed
  refine good_ite ?_ ?_
  · assumption
  · extract_lets +onlyGivenNames x1
    try clear_value x1
    refine good_ite ?_ ?_
    · refine good_ite ?_ ?_
      · exact State.wr_good (good_mk ‹_› rfl rfl rfl rfl rfl rfl rfl)
      · exact good_mk ‹_› rfl rfl rfl rfl rfl rfl rfl
    · exact State.wr_good ‹_›

theorem State.lowHalfRead_good {og : Origin} {a1 : State} {a2 : Agent} {a3 : Nat} (h1 : Good og (a1)) :
    Good og (@State.lowHalfRead a1 a2 a3) := by
  unfold State.lowHalfRead
  refine good_ite ?_ ?_
  · exact good_mk ‹_› rfl rfl rfl rfl rfl rfl rfl
  · split
    · rename_i w1 w2
      exact good_mk ‹_› rfl rfl rfl rfl rfl rfl rfl
    · rename_i w3 w4 w5
      extract_lets +onlyGivenNames x6; try clear_value x6
      extract_lets +onlyGivenNames x7
      have h8 : Good og (x7) := by subst x7; exact State.touch_good ‹_›
      try clear_value x7
      extract_lets +onlyGivenNames x9
      have h10 : Good og (x9) := by subst x9; exact good_mk ‹_› rfl rfl rfl rfl rfl rfl rfl
      try clear_value x9
      refine good_ite ?_ ?_
      · exact good_mk ‹_› rfl rfl rfl rfl rfl rfl rfl
      · assumption

theorem State.highHalfRead_good {og : Origin} {a1 : State} {a2 : Agent} {a3 : Nat} (h1 : Good og (a1)) :
    Good og (@State.highHalfRead a1 a2 a3) := by
  unfold State.highHalfRead
  refine good_ite ?_ ?_
  · exact good_mk ‹_› rfl rfl rfl rfl rfl rfl rfl
  · split
    · rename_i w1 w2
      exact good_mk ‹_› rfl rfl rfl rfl rfl rfl rfl
    · rename_i w3 w4 w5
      extract_lets +onlyGivenNames x6; try clear_value x6
      extract_lets +onlyGivenNames x7
      have h8 : Good og (x7) := by subst x7; exact State.touch_good ‹_›
      try clear_value x7
      exact good_mk ‹_› rfl rfl rfl rfl rfl rfl rfl

theorem State.lowHalfWrite_good {og : Origin} {a1 : State} {a2 : Agent} {a3 : Nat} {a4 : Word} (h1 : Good og (a1)) :
    Good og (@State.lowHalfWrite a1 a2 a3 a4) := by
  unfold State.lowHalfWrite
  refine good_ite ?_ ?_
  · exact good_mk ‹_› rfl rfl rfl rfl rfl rfl rfl
  · split
    · rename_i w1 w2 w3
      refine good_ite ?_ ?_
      · extract_lets +onlyGivenNames x4
        have h5 : Good og (x4) := by subst x4; exact State.touch_good ‹_›
        try clear_value x4
        exact good_mk ‹_› rfl rfl rfl rfl rfl rfl rfl
      · assumption
    · rename_i w6 w7
      assumption

theorem State.writeWide_good {og : Origin} {a1 : State} {a2 : Agent} {a3 : Reg} {a4 : DWord} {a5 : DWord} (h1 : Good og (a1)) :
    Good og (@State.writeWide a1 a2 a3 a4 a5) := by
  unfold State.writeWide
  split
  · rename_i w1 w2
    exact State.feed_good ‹_›
  · rename_i w3 w4
    exact State.writeReg_good ‹_›

theorem State.highHalfWrite_good {og : Origin} {a1 : State} {a2 : Agent} {a3 : Nat} {a4 : Word} (h1 : Good og (a1)) :
    Good og (@State.highHalfWrite a1 a2 a3 a4) := by
  unfold State.highHalfWrite
  refine good_ite ?_ ?_
  · exact good_mk ‹_› rfl rfl rfl rfl rfl rfl rfl
  · split
    · rename_i w1 w2 w3
      refine good_ite ?_ ?_
      · split
        · rename_i w4 w5 w6
          extract_lets +onlyGivenNames x7
          subst x7
          exact good_mk (State.writeWide_good (State.touch_good ‹_›)) rfl rfl rfl rfl rfl rfl rfl
        · rename_i w8 w9
          extract_lets +onlyGivenNames x10
          subst x10
          exact good_mk (State.writeWide_good (State.touch_good ‹_›)) rfl rfl rfl rfl rfl rfl rfl
      · assumption
    · rename_i w11 w12
      assumption

theorem State.writeWord_good {og : Origin} {a1 : State} {a2 : Agent} {a3 : Nat} {a4 : Word} (h1 : Good og (a1)) :
    Good og (@State.writeWord a1 a2 a3 a4) := by
  unfold State.writeWord
  split
  · rename_i w1 w2 w3
    refine good_ite ?_ ?_
    · exact State.lowHalfWrite_good ‹_›
    · exact State.writeReg_good ‹_›
  · rename_i w4 w5
    exact State.highHalfWrite_good ‹_›

theorem State.registerWrite_good {og : Origin} {a1 : State} {a2 : Agent} {a3 : Nat} {a4 : Bool} {a5 : DWord} (h1 : Good og (a1)) :
    Good og (@State.registerWrite a1 a2 a3 a4 a5) := by
  unfold State.registerWrite
  refine good_ite ?_ ?_
  · exact good_mk ‹_› rfl rfl rfl rfl rfl rfl rfl
  · refine good_ite ?_ ?_
    · split
      · rename_i w1 w2 w3
        refine good_ite ?_ ?_
        · extract_lets +onlyGivenNames x4
          subst x4
          exact good_mk (State.writeReg_good (State.touch_good ‹_›)) rfl rfl rfl rfl rfl rfl rfl
        · extract_lets +onlyGivenNames x5
          subst x5
          exact good_mk (State.writeWord_good (State.writeWord_good ‹_›)) rfl rfl rfl rfl rfl rfl rfl
      · rename_i w6 w7
        extract_lets +onlyGivenNames x8
        subst x8
        exact good_mk (State.writeWord_good ‹_›) rfl rfl rfl rfl rfl rfl rfl
    · extract_lets +onlyGivenNames x9
      subst x9
      exact good_mk (State.writeWord_good ‹_›) rfl rfl rfl rfl rfl rfl rfl

theorem State.unsupportedRequest_good {og : Origin} {a1 : State} {a2 : Agent} {a3 : Nat} {a4 : Nat} (h1 : Good og (a1)) :
    Good og (@State.unsupportedRequest a1 a2 a3 a4) := by
  unfold State.unsupportedRequest
  refine good_ite ?_ ?_
  · exact good_mk ‹_› rfl rfl rfl rfl rfl rfl rfl
  · assumption

theorem State.markerForward_good {og : Origin} {a1 : State} {a2 : Nat} (h1 : Good og (a1)) :
    Good og (@State.markerForward a1 a2) := by
  unfold State.markerForward
  split
  · rename_i w1 w2 w3 w4 w5
    refine good_ite ?_ ?_
    · assumption
    · exact State.emit_good (State.popMsg_good ‹_›)
  · rename_i w6 w7
    assumption

theorem execRegisterWrite_good {og : Origin} {a1 : Agent} {a2 : Nat} {a3 : Bool} {a4 : DWord} {a5 : State} (h5 : Good og (a5)) :
    GoodOut og (@execRegisterWrite a1 a2 a3 a4 a5) := by
  unfold execRegisterWrite
  exact goodOut_next (State.registerWrite_good ‹_›)

theorem execBar0UnsupportedRequest_good {og : Origin} {a1 : Agent} {a2 : Nat} {a3 : Nat} {a4 : Bool} {a5 : State} (h5 : Good og (a5)) :
    GoodOut og (@execBar0UnsupportedRequest a1 a2 a3 a4 a5) := by
  unfold execBar0UnsupportedRequest
  exact goodOut_next (State.unsupportedRequest_good ‹_›)

theorem execLowHalfRead_good {og : Origin} {a1 : Agent} {a2 : Nat} {a3 : State} (h3 : Good og (a3)) :
    GoodOut og (@execLowHalfRead a1 a2 a3) := by
  unfold execLowHalfRead
  exact goodOut_next (State.lowHalfRead_good ‹_›)

theorem execHighHalfRead_good {og : Origin} {a1 : Agent} {a2 : Nat} {a3 : State} (h3 : Good og (a3)) :
    GoodOut og (@execHighHalfRead a1 a2 a3) := by
  unfold execHighHalfRead
  exact goodOut_next (State.highHalfRead_good ‹_›)

theorem execLowHalfWrite_good {og : Origin} {a1 : Agent} {a2 : Nat} {a3 : Word} {a4 : State} (h4 : Good og (a4)) :
    GoodOut og (@execLowHalfWrite a1 a2 a3 a4) := by
  unfold execLowHalfWrite
  exact goodOut_next (State.lowHalfWrite_good ‹_›)

theorem execHighHalfWrite_good {og : Origin} {a1 : Agent} {a2 : Nat} {a3 : Word} {a4 : State} (h4 : Good og (a4)) :
    GoodOut og (@execHighHalfWrite a1 a2 a3 a4) := by
  unfold execHighHalfWrite
  exact goodOut_next (State.highHalfWrite_good ‹_›)

theorem execMarkerForward_good {og : Origin} {a1 : Nat} {a2 : State} (h2 : Good og (a2)) :
    GoodOut og (@execMarkerForward a1 a2) := by
  unfold execMarkerForward
  exact goodOut_next (State.markerForward_good ‹_›)

end Sys2Proof.Machine
end

