-- ==== Sys2Proof/Laws/Keep/Keeper.lean ====
section
/-! SUPPORT. What the operations of Machine/Keeper.lean keep. -/

namespace Sys2Proof.Machine

theorem State.mirrorPut_good {og : Origin} {a1 : State} {a2 : Nat} {a3 : Nat} {a4 : List Byte} (h1 : Good og (a1)) :
    Good og (@State.mirrorPut a1 a2 a3 a4) := by
  unfold State.mirrorPut
  exact good_mk ‹_› rfl rfl rfl rfl rfl rfl rfl

theorem State.keeperPut_good {og : Origin} {a1 : State} {a2 : Nat} {a3 : Nat} {a4 : List Byte} {a5 : KeeperNext} (h1 : Good og (a1)) :
    Good og (@State.keeperPut a1 a2 a3 a4 a5) := by
  unfold State.keeperPut
  exact State.journalOffer_good (good_mk ‹_› rfl rfl rfl rfl rfl rfl rfl)

theorem State.keeperSet_good {og : Origin} {a1 : State} {a2 : Nat} {a3 : Nat} {a4 : List Byte} (h1 : Good og (a1)) :
    Good og (@State.keeperSet a1 a2 a3 a4) := by
  unfold State.keeperSet
  exact State.journalOffer_good (State.mirrorPut_good ‹_›)

theorem State.markSlot_good {og : Origin} {a1 : State} {a2 : Nat} {a3 : Nat} (h1 : Good og (a1)) :
    Good og (@State.markSlot a1 a2 a3) := by
  unfold State.markSlot
  split
  · rename_i w1 w2 w3 w4 w5
    exact State.keeperSet_good ‹_›

theorem State.extendM_good {og : Origin} {a1 : State} {a2 : Nat} {a3 : List Byte} (h1 : Good og (a1)) :
    Good og (@State.extendM a1 a2 a3) := by
  unfold State.extendM
  exact good_mk ‹_› rfl rfl rfl rfl rfl rfl rfl

theorem State.mbxPut_good {og : Origin} {a1 : State} {a2 : Bool} {a3 : Reg} {a4 : DWord} (h1 : Good og (a1)) :
    Good og (@State.mbxPut a1 a2 a3 a4) := by
  unfold State.mbxPut
  refine good_ite ?_ ?_
  · exact State.setReg_good ‹_›
  · exact State.setFwReg_good ‹_›

theorem State.mbxWr_good {og : Origin} {a1 : State} {a2 : Bool} {a3 : Field} {a4 : Nat} (h1 : Good og (a1)) :
    Good og (@State.mbxWr a1 a2 a3 a4) := by
  unfold State.mbxWr
  exact State.mbxPut_good ‹_›

theorem State.mbxStore_good {og : Origin} {a1 : State} {a2 : Bool} {a3 : Nat} {a4 : List (List Byte)} (h1 : Good og (a1)) :
    Good og (@State.mbxStore a1 a2 a3 a4) := by
  induction a4 generalizing a1 a3 with
  | nil =>
    rw [State.mbxStore]
    assumption
  | cons x xs ih =>
    rw [State.mbxStore]
    exact ih (State.mbxPut_good ‹_›)

theorem State.mbxEnd_good {og : Origin} {a1 : State} {a2 : Nat} {a3 : List Byte} (h1 : Good og (a1)) :
    Good og (@State.mbxEnd a1 a2 a3) := by
  unfold State.mbxEnd
  split
  · rename_i w1 w2
    assumption
  · rename_i w3 w4 w5 w6
    extract_lets +onlyGivenNames x7
    have h8 : Good og (x7) := by subst x7; exact State.mbxStore_good ‹_›
    try clear_value x7
    extract_lets +onlyGivenNames x9
    have h10 : Good og (x9) := by subst x9; exact State.mbxWr_good (State.mbxWr_good ‹_›)
    try clear_value x9
    extract_lets +onlyGivenNames x11
    have h12 : Good og (x11) := by subst x11; exact State.mbxWr_good ‹_›
    try clear_value x11
    extract_lets +onlyGivenNames x13
    subst x13
    extract_lets +onlyGivenNames x14
    have h15 : Good og (x14) := by subst x14; exact good_mk ‹_› rfl rfl rfl rfl rfl rfl rfl
    try clear_value x14
    exact State.count_good (State.raise_good ‹_›)

theorem State.mbxSettle_good {og : Origin} {a1 : Nat} {a2 : State} (h2 : Good og (a2)) :
    Good og (@State.mbxSettle a1 a2) := by
  induction a1 generalizing a2 with
  | zero =>
    rw [State.mbxSettle]
    assumption
  | succ n ih =>
    rw [State.mbxSettle]
    split
    · rename_i w1 w2
      assumption
    · rename_i w3 w4 w5 w6
      refine good_ite ?_ ?_
      · exact ih (State.mbxEnd_good ‹_›)
      · assumption

theorem State.mbxFinish_good {og : Origin} {a1 : State} {a2 : Nat} {a3 : List Byte} (h1 : Good og (a1)) :
    Good og (@State.mbxFinish a1 a2 a3) := by
  unfold State.mbxFinish
  exact State.mbxSettle_good (State.mbxEnd_good ‹_›)

theorem State.mbxGo_good {og : Origin} {a1 : State} {a2 : Bool} {a3 : Word} (h1 : Good og (a1)) :
    Good og (@State.mbxGo a1 a2 a3) := by
  unfold State.mbxGo
  refine good_ite ?_ ?_
  · exact State.setEvent_good ‹_›
  · extract_lets +onlyGivenNames x1
    have h2 : Good og (x1) := by subst x1; exact State.mbxWr_good (State.mbxWr_good ‹_›)
    try clear_value x1
    refine good_ite ?_ ?_
    · extract_lets +onlyGivenNames x3
      have h4 : Good og (x3) := by subst x3; exact State.mbxWr_good ‹_›
      try clear_value x3
      exact State.mbxSettle_good (good_mk ‹_› rfl rfl rfl rfl rfl rfl rfl)
    · assumption

theorem execMbxGo_good {og : Origin} {a1 : Bool} {a2 : Word} {a3 : State} (h3 : Good og (a3)) :
    GoodOut og (@execMbxGo a1 a2 a3) := by
  unfold execMbxGo
  exact goodOut_next (State.mbxGo_good ‹_›)

theorem State.mbxDo_good {og : Origin} {a1 : State} {a2 : Nat} {a3 : State → Bool → List Byte → State} (h1 : Good og (a1)) (h3 : ∀ b1 b2 b3, Good og (b1) → Good og (a3 b1 b2 b3)) :
    Good og (@State.mbxDo a1 a2 a3) := by
  unfold State.mbxDo
  split
  · rename_i w1 w2
    assumption
  · rename_i w3 w4 w5 w6
    refine good_ite ?_ ?_
    · exact h3 _ _ _ ‹_›
    · assumption

theorem State.mbxWait_good {og : Origin} {a1 : State} {a2 : Nat} {a3 : Nat} {a4 : List Byte} {a5 : KeeperNext} (h1 : Good og (a1)) :
    Good og (@State.mbxWait a1 a2 a3 a4 a5) := by
  unfold State.mbxWait
  exact State.keeperPut_good (good_mk ‹_› rfl rfl rfl rfl rfl rfl rfl)

theorem State.useSig_good {og : Origin} {a1 : State} {a2 : SigUse} (h1 : Good og (a1)) :
    Good og (@State.useSig a1 a2) := by
  unfold State.useSig
  split
  · rename_i w1 w2 w3
    exact State.mbxFinish_good (State.count_good (State.hostWrite_good ‹_›))
  · rename_i w4 w5 w6
    exact State.count_good (State.emit_good ‹_›)

theorem State.releaseSigs_good {og : Origin} {a1 : Nat} {a2 : State} (h2 : Good og (a2)) :
    Good og (@State.releaseSigs a1 a2) := by
  induction a1 generalizing a2 with
  | zero =>
    rw [State.releaseSigs]
    assumption
  | succ n ih =>
    rw [State.releaseSigs]
    split
    · rename_i w1 w2
      assumption
    · rename_i w3 w4 w5 w6
      refine good_ite ?_ ?_
      · exact ih (State.useSig_good (good_mk ‹_› rfl rfl rfl rfl rfl rfl rfl))
      · assumption

theorem State.takeIndex_good {og : Origin} {a1 : State} {a2 : SigUse} (h1 : Good og (a1)) :
    Good og (@State.takeIndex a1 a2) := by
  unfold State.takeIndex
  extract_lets +onlyGivenNames x1; try clear_value x1
  extract_lets +onlyGivenNames x2
  subst x2
  extract_lets +onlyGivenNames x3
  have h4 : Good og (x3) := by subst x3; exact good_mk ‹_› rfl rfl rfl rfl rfl rfl rfl
  try clear_value x3
  refine good_ite ?_ ?_
  · exact State.releaseSigs_good ‹_›
  · split
    · rename_i w5 w6 w7
      assumption
    · rename_i w8 w9
      extract_lets +onlyGivenNames x10; try clear_value x10
      exact State.keeperPut_good (good_mk ‹_› rfl rfl rfl rfl rfl rfl rfl)

theorem State.confirmEnd_good {og : Origin} {a1 : State} {a2 : Nat} {a3 : Bool} (h1 : Good og (a1)) :
    Good og (@State.confirmEnd a1 a2 a3) := by
  unfold State.confirmEnd
  refine State.mbxFinish_good (State.wr_good (good_mk_fuses h1 rfl rfl rfl rfl rfl rfl ⟨rfl, rfl, rfl, ?_, id⟩))
  dsimp only
  split <;> omega


theorem State.confirmFloor_good {og : Origin} {a1 : State} {a2 : Nat} {a3 : Bool} (h1 : Good og (a1)) :
    Good og (@State.confirmFloor a1 a2 a3) := by
  unfold State.confirmFloor
  refine good_ite ?_ ?_
  · exact State.keeperPut_good ‹_›
  · exact State.confirmEnd_good ‹_›

theorem State.keeperThen_good {og : Origin} {a1 : State} {a2 : KeeperNext} (h1 : Good og (a1)) :
    Good og (@State.keeperThen a1 a2) := by
  unfold State.keeperThen
  split
  · assumption
  · exact State.mbxFinish_good h1
  · exact State.confirmFloor_good h1
  · exact State.confirmEnd_good h1
  · exact State.mbxFinish_good (State.extendM_good h1)
  · exact State.releaseSigs_good (State.event_good (State.setEvent_good (good_mk_fuses (State.wr_good h1) rfl rfl rfl rfl rfl rfl ⟨rfl, rfl, rfl, Nat.le_refl _, fun _ => rfl⟩)))


theorem State.keeperAck_good {og : Origin} {a1 : State} {a2 : Nat} {a3 : Nat} {a4 : List Byte} (h1 : Good og (a1)) :
    Good og (@State.keeperAck a1 a2 a3 a4) := by
  unfold State.keeperAck
  extract_lets +onlyGivenNames x1
  have h2 : Good og (x1) := by subst x1; exact State.mirrorPut_good ‹_›
  try clear_value x1
  split
  · rename_i w3 w4
    assumption
  · rename_i w5 w6 w7
    split
    · rename_i w8 w9
      assumption
    · rename_i w10 w11 w12
      exact State.keeperThen_good (good_mk ‹_› rfl rfl rfl rfl rfl rfl rfl)

theorem State.mbxReach_good {og : Origin} {a1 : State} {a2 : Nat} {a3 : Nat} {a4 : State → State} (h1 : Good og (a1)) (h4 : ∀ b1, Good og (b1) → Good og (a4 b1)) :
    Good og (@State.mbxReach a1 a2 a3 a4) := by
  unfold State.mbxReach
  refine good_ite ?_ ?_
  · exact h4 _ ‹_›
  · exact State.mbxFinish_good (State.setEvent_good ‹_›)

theorem execStatus_good {og : Origin} {a1 : State} (h1 : Good og (a1)) :
    GoodOut og (@execStatus a1) := by
  unfold execStatus
  refine goodOut_next ?_
  refine State.mbxDo_good ?_ ?_
  · assumption
  · intro v1 v2 v3 v4
    extract_lets +onlyGivenNames x5; try clear_value x5
    exact State.mbxFinish_good ‹_›

theorem execMeasure_good {og : Origin} {a1 : State} (h1 : Good og (a1)) :
    GoodOut og (@execMeasure a1) := by
  unfold execMeasure
  refine goodOut_next ?_
  refine State.mbxDo_good ?_ ?_
  · assumption
  · intro v1 v2 v3 v4
    exact State.mbxFinish_good ‹_›

theorem execAttest_good {og : Origin} {a1 : List Byte} {a2 : State} (h2 : Good og (a2)) :
    GoodOut og (@execAttest a1 a2) := by
  unfold execAttest
  refine goodOut_next ?_
  refine State.mbxDo_good ?_ ?_
  · assumption
  · intro v1 v2 v3 v4
    extract_lets +onlyGivenNames x5; try clear_value x5
    refine good_ite ?_ ?_
    · exact State.mbxFinish_good ‹_›
    · refine good_ite ?_ ?_
      · exact State.mbxFinish_good ‹_›
      · refine good_ite ?_ ?_
        · assumption
        · extract_lets +onlyGivenNames x6
          try clear_value x6
          refine State.mbxReach_good ?_ ?_
          · assumption
          · intro v7 v8
            exact State.takeIndex_good (good_mk ‹_› rfl rfl rfl rfl rfl rfl rfl)

theorem execExtend_good {og : Origin} {a1 : State} (h1 : Good og (a1)) :
    GoodOut og (@execExtend a1) := by
  unfold execExtend
  refine goodOut_next ?_
  refine State.mbxDo_good ?_ ?_
  · assumption
  · intro v1 v2 v3 v4
    extract_lets +onlyGivenNames x5; try clear_value x5
    refine good_ite ?_ ?_
    · exact State.mbxFinish_good (State.extendM_good ‹_›)
    · exact State.mbxFinish_good ‹_›

theorem execStage_good {og : Origin} {a1 : List Byte} {a2 : Bool} {a3 : Bool} {a4 : State} (h4 : Good og (a4)) :
    GoodOut og (@execStage a1 a2 a3 a4) := by
  unfold execStage
  refine goodOut_next ?_
  refine State.mbxDo_good ?_ ?_
  · assumption
  · intro v1 v2 v3 v4
    extract_lets +onlyGivenNames x5; try clear_value x5
    refine good_ite ?_ ?_
    · exact State.mbxFinish_good ‹_›
    · refine State.mbxReach_good ?_ ?_
      · assumption
      · intro v6 v7
        extract_lets +onlyGivenNames x8
        have h9 : Good og (x8) := by subst x8; exact State.emit_good ‹_›
        try clear_value x8
        refine good_ite ?_ ?_
        · exact State.mbxWait_good ‹_›
        · refine good_ite ?_ ?_
          · exact State.mbxWait_good ‹_›
          · extract_lets +onlyGivenNames x10
            try clear_value x10
            extract_lets +onlyGivenNames x11
            have h12 : Good og (x11) := by subst x11; exact good_mk ‹_› rfl rfl rfl rfl rfl rfl rfl
            try clear_value x11
            exact State.mbxWait_good ‹_›

theorem execActivate_good {og : Origin} {a1 : State} (h1 : Good og (a1)) :
    GoodOut og (@execActivate a1) := by
  unfold execActivate
  refine goodOut_next ?_
  refine State.mbxDo_good ?_ ?_
  · assumption
  · intro v1 v2 v3 v4
    extract_lets +onlyGivenNames x5; try clear_value x5
    extract_lets +onlyGivenNames x6; try clear_value x6
    refine good_ite ?_ ?_
    · exact State.mbxWait_good ‹_›
    · exact State.mbxFinish_good ‹_›

theorem execConfirm_good {og : Origin} {a1 : State} (h1 : Good og (a1)) :
    GoodOut og (@execConfirm a1) := by
  unfold execConfirm
  refine goodOut_next ?_
  refine State.mbxDo_good ?_ ?_
  · assumption
  · intro v1 v2 v3 v4
    extract_lets +onlyGivenNames x5; try clear_value x5
    extract_lets +onlyGivenNames x6; try clear_value x6
    refine good_ite ?_ ?_
    · extract_lets +onlyGivenNames x7
      try clear_value x7
      exact State.mbxWait_good ‹_›
    · exact State.mbxFinish_good ‹_›

theorem execAnchorSet_good {og : Origin} {a1 : State} (h1 : Good og (a1)) :
    GoodOut og (@execAnchorSet a1) := by
  unfold execAnchorSet
  refine goodOut_next ?_
  refine State.mbxDo_good ?_ ?_
  · assumption
  · intro v1 v2 v3 v4
    exact State.mbxWait_good ‹_›

theorem execDebugToken_good {og : Origin} {a1 : Bool} {a2 : List Byte} {a3 : State} (h3 : Good og (a3)) :
    GoodOut og (@execDebugToken a1 a2 a3) := by
  unfold execDebugToken
  refine goodOut_next ?_
  refine State.mbxDo_good ?_ ?_
  · assumption
  · intro v1 v2 v3 v4
    refine State.mbxReach_good ?_ ?_
    · assumption
    · intro v5 v6
      refine good_ite ?_ ?_
      · exact State.mbxFinish_good (good_mk ‹_› rfl rfl rfl rfl rfl rfl rfl)
      · exact State.mbxFinish_good ‹_›

theorem State.entropyFail_good {og : Origin} {a1 : State} (h1 : Good og (a1)) :
    Good og (@State.entropyFail a1) := by
  unfold State.entropyFail
  exact State.event_good (State.wr_good ‹_›)

theorem execEntropyFail_good {og : Origin} {a1 : State} (h1 : Good og (a1)) :
    GoodOut og (@execEntropyFail a1) := by
  unfold execEntropyFail
  exact goodOut_next (State.entropyFail_good ‹_›)

theorem State.trialExpiry_good {og : Origin} {a1 : State} (h1 : Good og (a1)) :
    Good og (@State.trialExpiry a1) := by
  unfold State.trialExpiry
  refine good_ite ?_ ?_
  · exact State.resetSequence_good (State.event_good (State.markSlot_good ‹_›))
  · assumption

theorem execTrialExpiry_good {og : Origin} {a1 : State} (h1 : Good og (a1)) :
    GoodOut og (@execTrialExpiry a1) := by
  unfold execTrialExpiry
  exact goodOut_next (State.trialExpiry_good ‹_›)

theorem State.watchdogExpiry_good {og : Origin} {a1 : State} (h1 : Good og (a1)) :
    Good og (@State.watchdogExpiry a1) := by
  unfold State.watchdogExpiry
  refine good_ite ?_ ?_
  · assumption
  · exact State.resetSequence_good (State.event_good ‹_›)

theorem execKeeperWatchdogExpiry_good {og : Origin} {a1 : State} (h1 : Good og (a1)) :
    GoodOut og (@execKeeperWatchdogExpiry a1) := by
  unfold execKeeperWatchdogExpiry
  exact goodOut_next (State.watchdogExpiry_good ‹_›)

theorem State.bootHalt_good {og : Origin} {a1 : State} {a2 : Nat} (h1 : Good og (a1)) :
    Good og (@State.bootHalt a1 a2) := by
  unfold State.bootHalt
  exact State.wr_good (State.wr_good ‹_›)

theorem State.stageTo_good {og : Origin} {a1 : State} {a2 : Nat} (h1 : Good og (a1)) :
    Good og (@State.stageTo a1 a2) := by
  unfold State.stageTo
  exact State.wr_good ‹_›

theorem State.loadKey_good {og : Origin} {a1 : State} {a2 : Nat × Nat} (h1 : Good og (a1)) :
    Good og (@State.loadKey a1 a2) := by
  unfold State.loadKey
  split
  · rename_i w1 w2 w3 w4 w5 w6
    refine good_ite ?_ ?_
    · assumption
    · exact State.keeperSet_good ‹_›
  · rename_i w7 w8 w9 w10 w11
    exact State.mirrorPut_good ‹_›
  · rename_i w12 w13 w14 w15 w16
    exact State.journalOffer_good ‹_›
  · rename_i w17 w18 w19 w20
    assumption

theorem State.loadRecords_good {og : Origin} {a1 : State} (h1 : Good og (a1)) :
    Good og (@State.loadRecords a1) := by
  unfold State.loadRecords
  extract_lets +onlyGivenNames x1
  have h2 : Good og (x1) := by
    subst x1
    refine good_foldl ?_ (fun s3 y4 h5 => ?_)
    · assumption
    · exact State.loadKey_good ‹_›
  try clear_value x1
  split
  · rename_i w6 w7 w8
    extract_lets +onlyGivenNames x9
    subst x9
    exact good_mk (State.wr_good ‹_›) rfl rfl rfl rfl rfl rfl rfl
  · rename_i w10 w11
    refine good_ite ?_ ?_
    · exact State.wr_good ‹_›
    · assumption

theorem State.failTrials_good {og : Origin} {a1 : State} (h1 : Good og (a1)) :
    Good og (@State.failTrials a1) := by
  unfold State.failTrials
  refine good_foldl ?_ (fun s1 y2 h3 => ?_)
  · assumption
  · extract_lets +onlyGivenNames x4
    have h5 : Good og (x4) := by
      subst x4
      refine good_ite ?_ ?_
      · exact State.event_good (State.markSlot_good ‹_›)
      · assumption
    try clear_value x4
    exact good_mk ‹_› rfl rfl rfl rfl rfl rfl rfl

theorem State.slotFails_good {og : Origin} {a1 : State} {a2 : Nat} {a3 : Nat} (h1 : Good og (a1)) :
    Good og (@State.slotFails a1 a2 a3) := by
  unfold State.slotFails
  extract_lets +onlyGivenNames x1; try clear_value x1
  extract_lets +onlyGivenNames x2
  have h3 : Good og (x2) := by subst x2; exact State.event_good (State.markSlot_good ‹_›)
  try clear_value x2
  extract_lets +onlyGivenNames x4
  have h5 : Good og (x4) := by
    subst x4
    refine good_ite ?_ ?_
    · exact State.event_good ‹_›
    · assumption
  try clear_value x4
  extract_lets +onlyGivenNames x6
  have h7 : Good og (x6) := by subst x6; exact State.stageTo_good (State.wr_good ‹_›)
  try clear_value x6
  refine good_ite ?_ ?_
  · exact State.bootHalt_good ‹_›
  · assumption

theorem State.chooseSlot_good {og : Origin} {a1 : State} {a2 : Bool} (h1 : Good og (a1)) :
    Good og (@State.chooseSlot a1 a2) := by
  unfold State.chooseSlot
  extract_lets +onlyGivenNames x1
  have h2 : Good og (x1) := by subst x1; exact State.failTrials_good ‹_›
  try clear_value x1
  split
  · rename_i w3 w4
    exact State.bootHalt_good ‹_›
  · rename_i w5 w6 w7
    extract_lets +onlyGivenNames x8; try clear_value x8
    refine good_ite ?_ ?_
    · exact State.slotFails_good ‹_›
    · refine good_ite ?_ ?_
      · exact State.slotFails_good ‹_›
      · extract_lets +onlyGivenNames x9
        have h10 : Good og (x9) := by subst x9; exact State.wr_good (State.wr_good ‹_›)
        try clear_value x9
        extract_lets +onlyGivenNames x11
        subst x11
        extract_lets +onlyGivenNames x12
        have h13 : Good og (x12) := by
          subst x12
          refine good_ite ?_ ?_
          · exact good_mk ‹_› rfl rfl rfl rfl rfl rfl rfl
          · refine good_ite ?_ ?_
            · exact State.keeperSet_good ‹_›
            · assumption
        try clear_value x12
        exact State.stageTo_good ‹_›

theorem State.startKeeper_good {og : Origin} {a1 : State} (h1 : Good og (a1)) :
    Good og (@State.startKeeper a1) := by
  unfold State.startKeeper
  extract_lets +onlyGivenNames x1
  subst x1
  extract_lets +onlyGivenNames x2
  have h3 : Good og (x2) := by subst x2; exact good_mk ‹_› rfl rfl rfl rfl rfl rfl rfl
  try clear_value x2
  extract_lets +onlyGivenNames x4; try clear_value x4
  extract_lets +onlyGivenNames x5
  have h6 : Good og (x5) := by subst x5; exact State.extendM_good ‹_›
  try clear_value x5
  extract_lets +onlyGivenNames x7
  have h8 : Good og (x7) := by subst x7; exact State.extendM_good ‹_›
  try clear_value x7
  extract_lets +onlyGivenNames x9
  have h10 : Good og (x9) := by subst x9; exact State.extendM_good ‹_›
  try clear_value x9
  extract_lets +onlyGivenNames x11
  have h12 : Good og (x11) := by subst x11; exact State.extendM_good ‹_›
  try clear_value x11
  extract_lets +onlyGivenNames x13
  have h14 : Good og (x13) := by
    subst x13
    split
    · rename_i w15 w16 w17
      refine good_ite ?_ ?_
      · exact State.extendM_good ‹_›
      · assumption
    · rename_i w18 w19
      assumption
  try clear_value x13
  extract_lets +onlyGivenNames x20
  have h21 : Good og (x20) := by
    subst x20
    split
    · rename_i w22 w23 w24
      refine good_ite ?_ ?_
      · assumption
      · exact State.extendM_good ‹_›
    · rename_i w25 w26
      assumption
  try clear_value x20
  extract_lets +onlyGivenNames x27
  have h28 : Good og (x27) := by subst x27; exact State.extendM_good ‹_›
  try clear_value x27
  extract_lets +onlyGivenNames x29
  subst x29
  extract_lets +onlyGivenNames x30
  have h31 : Good og (x30) := by subst x30; exact good_mk ‹_› rfl rfl rfl rfl rfl rfl rfl
  try clear_value x30
  extract_lets +onlyGivenNames x32
  have h33 : Good og (x32) := by
    subst x32
    refine good_ite ?_ ?_
    · exact State.event_good (State.event_good (State.wr_good ‹_›))
    · assumption
  try clear_value x32
  exact State.mbxSettle_good (State.stageTo_good ‹_›)

theorem State.reportReset_good {og : Origin} {a1 : State} (h1 : Good og (a1)) :
    Good og (@State.reportReset a1) := by
  unfold State.reportReset
  extract_lets +onlyGivenNames x1
  have h2 : Good og (x1) := by
    subst x1
    split
    · rename_i w3 w4
      exact State.event_good ‹_›
    · rename_i w5 w6
      exact State.event_good ‹_›
    · rename_i w7 w8
      exact State.event_good ‹_›
    · rename_i w9 w10 w11 w12
      assumption
  try clear_value x1
  extract_lets +onlyGivenNames x13; try clear_value x13
  extract_lets +onlyGivenNames x14
  have h15 : Good og (x14) := by subst x14; exact good_mk ‹_› rfl rfl rfl rfl rfl rfl rfl
  try clear_value x14
  split
  · rename_i w16 w17 w18
    extract_lets +onlyGivenNames x19
    subst x19
    exact good_mk (State.event_good ‹_›) rfl rfl rfl rfl rfl rfl rfl
  · rename_i w20 w21
    assumption

theorem State.bootDone_good {og : Origin} {a1 : State} (h1 : Good og (a1)) :
    Good og (@State.bootDone a1) := by
  unfold State.bootDone
  extract_lets +onlyGivenNames x1
  have h2 : Good og (x1) := by subst x1; exact State.wr_good (State.wr_good ‹_›)
  try clear_value x1
  extract_lets +onlyGivenNames x3
  subst x3
  extract_lets +onlyGivenNames x4
  have h5 : Good og (x4) := by subst x4; exact good_mk ‹_› rfl rfl rfl rfl rfl rfl rfl
  try clear_value x4
  exact State.reportReset_good ‹_›

theorem State.startFirmware_good {og : Origin} {a1 : State} (h1 : Good og (a1)) :
    Good og (@State.startFirmware a1) := by
  unfold State.startFirmware
  exact State.stageTo_good (State.resReady_good ‹_›)

theorem State.reserveRegions_good {og : Origin} {a1 : State} (h1 : Good og (a1)) :
    Good og (@State.reserveRegions a1) := by
  unfold State.reserveRegions
  refine good_foldl ?_ (fun s1 y2 h3 => ?_)
  · assumption
  · exact State.setClass_good ‹_›

theorem State.bootStage_good {og : Origin} {a1 : State} {a2 : StageEnd} (h1 : Good og (a1)) :
    Good og (@State.bootStage a1 a2) := by
  unfold State.bootStage
  extract_lets +onlyGivenNames x1; try clear_value x1
  refine good_ite ?_ ?_
  · assumption
  · split
    · rename_i w2 w3
      refine good_ite ?_ ?_
      · exact State.stageTo_good ‹_›
      · exact State.bootHalt_good ‹_›
    · rename_i w4 w5
      refine good_ite ?_ ?_
      · exact State.stageTo_good ‹_›
      · exact State.bootHalt_good ‹_›
    · rename_i w6 w7
      refine good_ite ?_ ?_
      · refine good_ite ?_ ?_
        · exact State.stageTo_good ‹_›
        · assumption
      · exact State.bootHalt_good ‹_›
    · rename_i w8 w9
      refine good_ite ?_ ?_
      · assumption
      · refine good_ite ?_ ?_
        · exact State.stageTo_good ‹_›
        · exact State.stageTo_good (State.entropyFail_good (State.wr_good (good_mk ‹_› rfl rfl rfl rfl rfl rfl rfl)))
    · rename_i w10 w11
      refine good_ite ?_ ?_
      · refine good_ite ?_ ?_
        · exact State.stageTo_good (State.loadRecords_good ‹_›)
        · assumption
      · exact State.bootHalt_good ‹_›
    · rename_i w12 w13
      exact State.chooseSlot_good ‹_›
    · rename_i w14 w15
      refine good_ite ?_ ?_
      · exact State.startKeeper_good ‹_›
      · assumption
    · rename_i w16 w17
      refine good_ite ?_ ?_
      · exact State.stageTo_good (State.extendM_good ‹_›)
      · exact State.slotFails_good ‹_›
    · rename_i w18 w19
      refine good_ite ?_ ?_
      · refine good_ite ?_ ?_
        · exact State.stageTo_good (State.reserveRegions_good ‹_›)
        · assumption
      · exact State.bootHalt_good ‹_›
    · rename_i w20 w21
      refine good_ite ?_ ?_
      · exact State.stageTo_good (State.extendM_good ‹_›)
      · exact State.slotFails_good ‹_›
    · rename_i w22 w23
      exact State.startFirmware_good ‹_›
    · rename_i w24 w25
      exact State.bootDone_good ‹_›
    · rename_i w26 w27 w28 w29 w30 w31 w32 w33 w34 w35 w36 w37 w38
      assumption

theorem execBootStage_good {og : Origin} {a1 : StageEnd} {a2 : State} (h2 : Good og (a2)) :
    GoodOut og (@execBootStage a1 a2) := by
  unfold execBootStage
  exact goodOut_next (State.bootStage_good ‹_›)

end Sys2Proof.Machine
end

