-- ==== Sys2Proof/Laws/Keep/FabMgmt.lean ====
section
/-! SUPPORT. What the operations of Machine/FabMgmt.lean keep. -/

namespace Sys2Proof.Machine

theorem State.mgmtInvalid_good {og : Origin} {a1 : State} {a2 : Nat} (h1 : Good og (a1)) :
    Good og (@State.mgmtInvalid a1 a2) := by
  unfold State.mgmtInvalid
  exact State.event_good ‹_›

theorem State.mgmt_good {og : Origin} {a1 : State} {a2 : Nat} {a3 : Nat} {a4 : State → List Byte → State} (h1 : Good og (a1)) (h4 : ∀ b1 b2, Good og (b1) → Good og (a4 b1 b2)) :
    Good og (@State.mgmt a1 a2 a3 a4) := by
  unfold State.mgmt
  split
  · rename_i w1 w2
    assumption
  · rename_i w3 w4 w5 w6
    extract_lets +onlyGivenNames x7; try clear_value x7
    extract_lets +onlyGivenNames x8
    subst x8
    refine good_ite ?_ ?_
    · exact State.e2eFail_good (State.owe_good (State.modPort_good ‹_›))
    · refine good_ite ?_ ?_
      · exact State.mgmtInvalid_good (State.owe_good (State.modPort_good ‹_›))
      · refine good_ite ?_ ?_
        · assumption
        · refine good_ite ?_ ?_
          · exact State.owe_good (State.modPort_good ‹_›)
          · refine good_ite ?_ ?_
            · exact State.mgmtInvalid_good (State.owe_good (State.modPort_good ‹_›))
            · extract_lets +onlyGivenNames x9
              have h10 : Good og (x9) := by subst x9; exact State.owe_good (State.modPort_good ‹_›)
              try clear_value x9
              exact h4 _ _ (good_mk ‹_› rfl rfl rfl rfl rfl rfl rfl)

theorem State.nodeAssign_good {og : Origin} {a1 : State} {a2 : List Byte} (h1 : Good og (a1)) :
    Good og (@State.nodeAssign a1 a2) := by
  unfold State.nodeAssign
  extract_lets +onlyGivenNames x1
  have h2 : Good og (x1) := by subst x1; exact State.wr_good (State.wr_good (State.wr_good ‹_›))
  try clear_value x1
  extract_lets +onlyGivenNames x3
  have h4 : Good og (x3) := by subst x3; exact State.wr_good (State.wr_good ‹_›)
  try clear_value x3
  extract_lets +onlyGivenNames x5; try clear_value x5
  extract_lets +onlyGivenNames x6
  have h7 : Good og (x6) := by subst x6; exact good_mk ‹_› rfl rfl rfl rfl rfl rfl rfl
  try clear_value x6
  refine good_ite ?_ ?_
  · exact State.event_good (State.setEvent_good ‹_›)
  · assumption

theorem execNodeAssign_good {og : Origin} {a1 : PortId} {a2 : State} (h2 : Good og (a2)) :
    GoodOut og (@execNodeAssign a1 a2) := by
  unfold execNodeAssign
  refine goodOut_next ?_
  refine State.mgmt_good ?_ ?_
  · assumption
  · intro v1 v2 v3
    exact State.nodeAssign_good ‹_›

theorem State.correlate_good {og : Origin} {a1 : State} {a2 : Peer} {a3 : Nat} (h1 : Good og (a1)) :
    Good og (@State.correlate a1 a2 a3) := by
  unfold State.correlate
  refine good_ite ?_ ?_
  · exact State.wr_good ‹_›
  · extract_lets +onlyGivenNames x1
    have h2 : Good og (x1) := by subst x1; exact State.setEvent_good (State.wr_good ‹_›)
    try clear_value x1
    extract_lets +onlyGivenNames x3
    have h4 : Good og (x3) := by subst x3; exact State.event_good (State.event_good ‹_›)
    try clear_value x3
    refine good_foldl ?_ (fun s5 y6 h7 => ?_)
    · assumption
    · refine good_ite ?_ ?_
      · exact State.tell_good ‹_›
      · assumption

theorem State.setPartner_good {og : Origin} {a1 : State} {a2 : Option (Nat × Peer)} (h1 : Good og (a1)) :
    Good og (@State.setPartner a1 a2) := by
  unfold State.setPartner
  extract_lets +onlyGivenNames x1; try clear_value x1
  extract_lets +onlyGivenNames x2; try clear_value x2
  extract_lets +onlyGivenNames x3
  have h4 : Good og (x3) := by subst x3; exact good_mk ‹_› rfl rfl rfl rfl rfl rfl rfl
  try clear_value x3
  extract_lets +onlyGivenNames x5
  have h6 : Good og (x5) := by subst x5; exact State.setEvent_good ‹_›
  try clear_value x5
  split
  · rename_i w7
    exact State.wr_good (State.wr_good (State.setReg_good ‹_›))
  · rename_i w8 w9 w10
    extract_lets +onlyGivenNames x11
    have h12 : Good og (x11) := by subst x11; exact State.wr_good (State.wr_good (State.wr_good ‹_›))
    try clear_value x11
    exact State.dueAll_good (State.correlate_good (State.wr_good ‹_›))

theorem State.choosePartner_good {og : Origin} {a1 : State} (h1 : Good og (a1)) :
    Good og (@State.choosePartner a1) := by
  unfold State.choosePartner
  extract_lets +onlyGivenNames x1; try clear_value x1
  refine good_ite ?_ ?_
  · assumption
  · exact State.setPartner_good ‹_›

theorem State.partnerLost_good {og : Origin} {a1 : State} (h1 : Good og (a1)) :
    Good og (@State.partnerLost a1) := by
  unfold State.partnerLost
  extract_lets +onlyGivenNames x1
  have h2 : Good og (x1) := by subst x1; exact State.event_good (State.setEvent_good ‹_›)
  try clear_value x1
  refine good_foldl ?_ (fun s3 y4 h5 => ?_)
  · assumption
  · exact State.setReg_good (State.abandon_good ‹_›)

theorem State.announceEntry_good {og : Origin} {a1 : State} {a2 : List Byte} (h1 : Good og (a1)) :
    Good og (@State.announceEntry a1 a2) := by
  unfold State.announceEntry
  extract_lets +onlyGivenNames x1; try clear_value x1
  refine good_ite ?_ ?_
  · assumption
  · extract_lets +onlyGivenNames x2
    try clear_value x2
    extract_lets +onlyGivenNames x3; try clear_value x3
    exact good_mk ‹_› rfl rfl rfl rfl rfl rfl rfl

theorem State.announce_good {og : Origin} {a1 : State} {a2 : List Byte} (h1 : Good og (a1)) :
    Good og (@State.announce a1 a2) := by
  unfold State.announce
  extract_lets +onlyGivenNames x1; try clear_value x1
  extract_lets +onlyGivenNames x2; try clear_value x2
  extract_lets +onlyGivenNames x3
  have h4 : Good og (x3) := by
    subst x3
    refine good_foldl ?_ (fun s5 y6 h7 => ?_)
    · assumption
    · exact State.announceEntry_good ‹_›
  try clear_value x3
  extract_lets +onlyGivenNames x8
  have h9 : Good og (x8) := by subst x8; exact State.wr_good ‹_›
  try clear_value x8
  extract_lets +onlyGivenNames x10
  have h11 : Good og (x10) := by subst x10; exact State.setEvent_good ‹_›
  try clear_value x10
  extract_lets +onlyGivenNames x12
  have h13 : Good og (x12) := by
    subst x12
    refine good_foldl ?_ (fun s14 y15 h16 => ?_)
    · assumption
    · exact State.send_good ‹_›
  try clear_value x12
  extract_lets +onlyGivenNames x17
  have h18 : Good og (x17) := by
    subst x17
    refine good_ite ?_ ?_
    · exact State.healthInput_good ‹_›
    · assumption
  try clear_value x17
  extract_lets +onlyGivenNames x19
  have h20 : Good og (x19) := by
    subst x19
    refine good_ite ?_ ?_
    · exact State.partnerLost_good ‹_›
    · assumption
  try clear_value x19
  exact State.choosePartner_good ‹_›

theorem execAnnounce_good {og : Origin} {a1 : PortId} {a2 : State} (h2 : Good og (a2)) :
    GoodOut og (@execAnnounce a1 a2) := by
  unfold execAnnounce
  refine goodOut_next ?_
  refine State.mgmt_good ?_ ?_
  · assumption
  · intro v1 v2 v3
    exact State.announce_good ‹_›

theorem State.tearDomain_good {og : Origin} {a1 : State} {a2 : Nat} (h1 : Good og (a1)) :
    Good og (@State.tearDomain a1 a2) := by
  unfold State.tearDomain
  extract_lets +onlyGivenNames x1
  subst x1
  extract_lets +onlyGivenNames x2
  have h3 : Good og (x2) := by subst x2; exact good_mk ‹_› rfl rfl rfl rfl rfl rfl rfl
  try clear_value x2
  extract_lets +onlyGivenNames x4
  have h5 : Good og (x4) := by subst x4; exact State.wr_good (State.markAll_good ‹_›)
  try clear_value x4
  refine good_foldl ?_ (fun s6 y7 h8 => ?_)
  · assumption
  · exact State.endReq_good ‹_›

theorem State.teardown_good {og : Origin} {a1 : State} {a2 : List Byte} (h1 : Good og (a1)) :
    Good og (@State.teardown a1 a2) := by
  unfold State.teardown
  extract_lets +onlyGivenNames x1; try clear_value x1
  split
  · rename_i w2 w3
    assumption
  · rename_i w4 w5 w6 w7
    extract_lets +onlyGivenNames x8
    have h9 : Good og (x8) := by subst x8; exact State.loseSlots_good (State.tearDomain_good ‹_›)
    try clear_value x8
    exact State.tell_good (State.setEvent_good ‹_›)

theorem execTeardown_good {og : Origin} {a1 : PortId} {a2 : State} (h2 : Good og (a2)) :
    GoodOut og (@execTeardown a1 a2) := by
  unfold execTeardown
  refine goodOut_next ?_
  refine State.mgmt_good ?_ ?_
  · assumption
  · intro v1 v2 v3
    exact State.teardown_good ‹_›

theorem State.feedAlert_good {og : Origin} {a1 : State} {a2 : List Byte} (h1 : Good og (a1)) :
    Good og (@State.feedAlert a1 a2) := by
  unfold State.feedAlert
  refine good_ite ?_ ?_
  · exact State.healthInput_good ‹_›
  · assumption

theorem execFeedAlert_good {og : Origin} {a1 : PortId} {a2 : State} (h2 : Good og (a2)) :
    GoodOut og (@execFeedAlert a1 a2) := by
  unfold execFeedAlert
  refine goodOut_next ?_
  refine State.mgmt_good ?_ ?_
  · assumption
  · intro v1 v2 v3
    exact State.feedAlert_good ‹_›

theorem State.releaseHeld_good {og : Origin} {a1 : State} {a2 : Nat} {a3 : Nat} (h1 : Good og (a1)) :
    Good og (@State.releaseHeld a1 a2 a3) := by
  unfold State.releaseHeld
  extract_lets +onlyGivenNames x1; try clear_value x1
  extract_lets +onlyGivenNames x2; try clear_value x2
  extract_lets +onlyGivenNames x3; try clear_value x3
  extract_lets +onlyGivenNames x4
  have h5 : Good og (x4) := by subst x4; exact good_mk ‹_› rfl rfl rfl rfl rfl rfl rfl
  try clear_value x4
  exact State.settleRetired_good (State.retire_good ‹_›)

theorem State.reserveHeld_good {og : Origin} {a1 : State} {a2 : Nat} {a3 : Nat} {a4 : Nat} {a5 : Nat} (h1 : Good og (a1)) :
    Good og (@State.reserveHeld a1 a2 a3 a4 a5) := by
  unfold State.reserveHeld
  extract_lets +onlyGivenNames x1
  have h2 : Good og (x1) := by subst x1; exact State.releaseHeld_good ‹_›
  try clear_value x1
  extract_lets +onlyGivenNames x3; try clear_value x3
  extract_lets +onlyGivenNames x4
  have h5 : Good og (x4) := by
    subst x4
    refine good_ite ?_ ?_
    · exact State.spillFor_good ‹_›
    · assumption
  try clear_value x4
  extract_lets +onlyGivenNames x6; try clear_value x6
  extract_lets +onlyGivenNames x7; try clear_value x7
  extract_lets +onlyGivenNames x8
  have h9 : Good og (x8) := by subst x8; exact State.homeFrames_good (State.convertGroups_good ‹_›)
  try clear_value x8
  exact good_mk ‹_› rfl rfl rfl rfl rfl rfl rfl

theorem State.partner_good {og : Origin} {a1 : State} {a2 : List Byte} (h1 : Good og (a1)) :
    Good og (@State.partner a1 a2) := by
  unfold State.partner
  extract_lets +onlyGivenNames x1; try clear_value x1
  extract_lets +onlyGivenNames x2; try clear_value x2
  extract_lets +onlyGivenNames x3; try clear_value x3
  refine good_ite ?_ ?_
  · refine good_ite ?_ ?_
    · exact State.reserveHeld_good ‹_›
    · exact State.releaseHeld_good ‹_›
  · extract_lets +onlyGivenNames x4
    try clear_value x4
    refine good_ite ?_ ?_
    · exact good_mk ‹_› rfl rfl rfl rfl rfl rfl rfl
    · extract_lets +onlyGivenNames x5
      try clear_value x5
      extract_lets +onlyGivenNames x6
      have h7 : Good og (x6) := by subst x6; exact good_mk ‹_› rfl rfl rfl rfl rfl rfl rfl
      try clear_value x6
      refine good_ite ?_ ?_
      · exact State.choosePartner_good (good_mk ‹_› rfl rfl rfl rfl rfl rfl rfl)
      · assumption

theorem execPartner_good {og : Origin} {a1 : PortId} {a2 : State} (h2 : Good og (a2)) :
    GoodOut og (@execPartner a1 a2) := by
  unfold execPartner
  refine goodOut_next ?_
  refine State.mgmt_good ?_ ?_
  · assumption
  · intro v1 v2 v3
    exact State.partner_good ‹_›

theorem State.sfWard_good {og : Origin} {a1 : State} {a2 : List Byte} (h1 : Good og (a1)) :
    Good og (@State.sfWard a1 a2) := by
  unfold State.sfWard
  extract_lets +onlyGivenNames x1; try clear_value x1
  extract_lets +onlyGivenNames x2; try clear_value x2
  extract_lets +onlyGivenNames x3; try clear_value x3
  exact State.markAll_good (good_mk ‹_› rfl rfl rfl rfl rfl rfl rfl)

theorem execSfWard_good {og : Origin} {a1 : PortId} {a2 : State} (h2 : Good og (a2)) :
    GoodOut og (@execSfWard a1 a2) := by
  unfold execSfWard
  refine goodOut_next ?_
  refine State.mgmt_good ?_ ?_
  · assumption
  · intro v1 v2 v3
    exact State.sfWard_good ‹_›

end Sys2Proof.Machine
end

