-- ==== Sys2Proof/Laws/Keep/Restore.lean ====
section
/-! SUPPORT. What the operations of Machine/Restore.lean keep. -/

namespace Sys2Proof.Machine

theorem State.spoilPending_good {og : Origin} {a1 : State} {a2 : Nat} (h1 : Good og (a1)) :
    Good og (@State.spoilPending a1 a2) := by
  unfold State.spoilPending
  refine good_foldl ?_ (fun s1 y2 h3 => ?_)
  · assumption
  · extract_lets +onlyGivenNames x4
    subst x4
    exact good_mk (State.writePart_good ‹_›) rfl rfl rfl rfl rfl rfl rfl

theorem State.restoreEnd_good {og : Origin} {a1 : State} {a2 : Nat} (h1 : Good og (a1)) :
    Good og (@State.restoreEnd a1 a2) := by
  unfold State.restoreEnd
  extract_lets +onlyGivenNames x1
  have h2 : Good og (x1) := by
    subst x1
    split
    · rename_i w3 w4 w5
      refine good_ite ?_ ?_
      · assumption
      · exact State.spoilPending_good ‹_›
    · rename_i w6 w7
      assumption
  try clear_value x1
  extract_lets +onlyGivenNames x8
  have h9 : Good og (x8) := by subst x8; exact State.setEvent_good (State.wr_good ‹_›)
  try clear_value x8
  exact State.wr_good (good_mk ‹_› rfl rfl rfl rfl rfl rfl rfl)

theorem State.restoreGo_good {og : Origin} {a1 : State} {a2 : Nat} {a3 : List Byte} {a4 : List Byte} (h1 : Good og (a1)) :
    Good og (@State.restoreGo a1 a2 a3 a4) := by
  unfold State.restoreGo
  refine good_ite ?_ ?_
  · assumption
  · extract_lets +onlyGivenNames x1
    try clear_value x1
    extract_lets +onlyGivenNames x2; try clear_value x2
    extract_lets +onlyGivenNames x3
    have h4 : Good og (x3) := by subst x3; exact State.wr_good (State.wr_good (State.wr_good ‹_›))
    try clear_value x3
    extract_lets +onlyGivenNames x5
    have h6 : Good og (x5) := by subst x5; exact State.wr_good ‹_›
    try clear_value x5
    refine good_ite ?_ ?_
    · exact State.restoreEnd_good (State.setEvent_good ‹_›)
    · extract_lets +onlyGivenNames x7
      have h8 : Good og (x7) := by subst x7; exact State.count_good (State.emit_good ‹_›)
      try clear_value x7
      extract_lets +onlyGivenNames x9
      have h10 : Good og (x9) := by
        subst x9
        refine good_ite ?_ ?_
        · assumption
        · exact State.count_good (State.emit_good ‹_›)
      try clear_value x9
      refine good_ite ?_ ?_
      · exact State.restoreEnd_good ‹_›
      · exact good_mk ‹_› rfl rfl rfl rfl rfl rfl rfl

theorem execRestoreGo_good {og : Origin} {a1 : Word} {a2 : List Byte} {a3 : List Byte} {a4 : State} (h4 : Good og (a4)) :
    GoodOut og (@execRestoreGo a1 a2 a3 a4) := by
  unfold execRestoreGo
  exact goodOut_next (State.restoreGo_good ‹_›)

theorem State.restoreNext_good {og : Origin} {a1 : State} {a2 : Restore} (h1 : Good og (a1)) :
    Good og (@State.restoreNext a1 a2) := by
  unfold State.restoreNext
  exact State.wr_good (good_mk ‹_› rfl rfl rfl rfl rfl rfl rfl)

theorem State.restore1_good {og : Origin} {a1 : State} {a2 : Restore} (h1 : Good og (a1)) :
    Good og (@State.restore1 a1 a2) := by
  unfold State.restore1
  extract_lets +onlyGivenNames x1; try clear_value x1
  refine good_ite ?_ ?_
  · exact State.restoreNext_good ‹_›
  · exact State.restoreEnd_good ‹_›

theorem State.restore2_good {og : Origin} {a1 : State} {a2 : Restore} {a3 : List Byte} {a4 : Nat} (h1 : Good og (a1)) :
    Good og (@State.restore2 a1 a2 a3 a4) := by
  unfold State.restore2
  extract_lets +onlyGivenNames x1; try clear_value x1
  refine good_ite ?_ ?_
  · split
    · rename_i w2 w3
      exact State.restoreEnd_good ‹_›
    · rename_i w4 w5 w6
      refine good_ite ?_ ?_
      · exact State.restoreEnd_good ‹_›
      · exact State.restoreNext_good ‹_›
  · refine good_ite ?_ ?_
    · exact State.restoreEnd_good ‹_›
    · refine good_ite ?_ ?_
      · exact State.restoreEnd_good ‹_›
      · refine good_ite ?_ ?_
        · exact State.restoreEnd_good ‹_›
        · exact State.restoreNext_good ‹_›

theorem State.restore3_good {og : Origin} {a1 : State} {a2 : Restore} (h1 : Good og (a1)) :
    Good og (@State.restore3 a1 a2) := by
  unfold State.restore3
  extract_lets +onlyGivenNames x1; try clear_value x1
  refine good_ite ?_ ?_
  · exact State.restoreNext_good ‹_›
  · exact State.restoreEnd_good ‹_›

theorem State.restore4_good {og : Origin} {a1 : State} {a2 : Restore} {a3 : List Byte} {a4 : Nat} (h1 : Good og (a1)) :
    Good og (@State.restore4 a1 a2 a3 a4) := by
  unfold State.restore4
  extract_lets +onlyGivenNames x1; try clear_value x1
  extract_lets +onlyGivenNames x2; try clear_value x2
  extract_lets +onlyGivenNames x3; try clear_value x3
  extract_lets +onlyGivenNames x4; try clear_value x4
  refine good_ite ?_ ?_
  · exact State.restoreEnd_good ‹_›
  · split
    · rename_i w5 w6
      exact State.restoreEnd_good ‹_›
    · rename_i w7 w8 w9
      refine good_ite ?_ ?_
      · exact State.restoreNext_good ‹_›
      · exact State.restoreEnd_good ‹_›

theorem State.restore5_good {og : Origin} {a1 : State} {a2 : Restore} {a3 : List Byte} {a4 : Nat} (h1 : Good og (a1)) :
    Good og (@State.restore5 a1 a2 a3 a4) := by
  unfold State.restore5
  extract_lets +onlyGivenNames x1; try clear_value x1
  extract_lets +onlyGivenNames x2; try clear_value x2
  refine good_ite ?_ ?_
  · exact State.restoreEnd_good ‹_›
  · extract_lets +onlyGivenNames x3
    try clear_value x3
    extract_lets +onlyGivenNames x4; try clear_value x4
    split
    · rename_i w5
      exact State.restoreNext_good ‹_›
    · rename_i w6 w7 w8 w9
      refine good_ite ?_ ?_
      · exact State.restoreEnd_good (State.tell_good ‹_›)
      · extract_lets +onlyGivenNames x10
        have h11 : Good og (x10) := by subst x10; exact State.tell_good ‹_›
        try clear_value x10
        exact State.restoreNext_good ‹_›

theorem State.restoreBlock_good {og : Origin} {a1 : State} {a2 : Nat} {a3 : List Byte × List Byte} (h1 : Good og (a1)) :
    Good og (@State.restoreBlock a1 a2 a3) := by
  unfold State.restoreBlock
  extract_lets +onlyGivenNames x1; try clear_value x1
  split
  · rename_i w2 w3 w4
    split
    · rename_i w5 w6 w7
      exact State.writePart_good ‹_›
    · rename_i w8 w9
      assumption
  · rename_i w10 w11
    assumption

theorem State.restore6_good {og : Origin} {a1 : State} {a2 : Restore} {a3 : List Byte} {a4 : Nat} (h1 : Good og (a1)) :
    Good og (@State.restore6 a1 a2 a3 a4) := by
  unfold State.restore6
  extract_lets +onlyGivenNames x1; try clear_value x1
  extract_lets +onlyGivenNames x2; try clear_value x2
  extract_lets +onlyGivenNames x3; try clear_value x3
  extract_lets +onlyGivenNames x4
  have h5 : Good og (x4) := by
    subst x4
    refine good_foldl ?_ (fun s6 y7 h8 => ?_)
    · assumption
    · exact State.restoreBlock_good ‹_›
  try clear_value x4
  refine good_ite ?_ ?_
  · exact State.restoreEnd_good ‹_›
  · exact State.restoreNext_good ‹_›

theorem State.restoreRecs_good {og : Origin} {a1 : State} {a2 : Nat} {a3 : List (List Byte)} {a4 : Nat} {a5 : Nat} (h1 : Good og (a1)) :
    Good og (@State.restoreRecs a1 a2 a3 a4 a5) := by
  unfold State.restoreRecs
  extract_lets +onlyGivenNames x1
  have h2 : Good og (x1).1 := by
    subst x1
    refine good_foldl_fst ?_ (fun s3 y4 h5 => ?_)
    · exact good_pair ‹_›
    · split
      · rename_i w6 w7 w8
        extract_lets +onlyGivenNames x9; try clear_value x9
        exact good_pair (State.setRec_good ‹_›)
      · rename_i w10 w11
        assumption
  try clear_value x1
  exact State.fellBack_good ‹_›

theorem State.restore7_good {og : Origin} {a1 : State} {a2 : Restore} (h1 : Good og (a1)) :
    Good og (@State.restore7 a1 a2) := by
  unfold State.restore7
  extract_lets +onlyGivenNames x1; try clear_value x1
  extract_lets +onlyGivenNames x2; try clear_value x2
  extract_lets +onlyGivenNames x3; try clear_value x3
  exact State.restoreNext_good (State.restoreRecs_good (State.setNum_good ‹_›))

theorem State.commitsLost_good {og : Origin} {a1 : State} {a2 : Restore} (h1 : Good og (a1)) :
    Good og (@State.commitsLost a1 a2) := by
  unfold State.commitsLost
  extract_lets +onlyGivenNames x1; try clear_value x1
  extract_lets +onlyGivenNames x2; try clear_value x2
  refine good_ite ?_ ?_
  · assumption
  · extract_lets +onlyGivenNames x3
    try clear_value x3
    extract_lets +onlyGivenNames x4; try clear_value x4
    refine good_ite ?_ ?_
    · exact State.tell_good (State.setEvent_good ‹_›)
    · refine good_ite ?_ ?_
      · exact State.tell_good (State.setEvent_good ‹_›)
      · assumption

theorem State.restore8_good {og : Origin} {a1 : State} {a2 : Restore} (h1 : Good og (a1)) :
    Good og (@State.restore8 a1 a2) := by
  unfold State.restore8
  extract_lets +onlyGivenNames x1; try clear_value x1
  extract_lets +onlyGivenNames x2; try clear_value x2
  extract_lets +onlyGivenNames x3; try clear_value x3
  extract_lets +onlyGivenNames x4
  have h5 : Good og (x4) := by subst x4; exact State.writeStepWord_good (State.writeRecord_good ‹_›)
  try clear_value x4
  extract_lets +onlyGivenNames x6
  have h7 : Good og (x6) := by subst x6; exact State.modStep_good ‹_›
  try clear_value x6
  exact State.restoreNext_good (State.commitsLost_good ‹_›)

theorem State.restore9_good {og : Origin} {a1 : State} {a2 : Restore} (h1 : Good og (a1)) :
    Good og (@State.restore9 a1 a2) := by
  unfold State.restore9
  extract_lets +onlyGivenNames x1; try clear_value x1
  extract_lets +onlyGivenNames x2
  have h3 : Good og (x2) := by subst x2; exact State.commitRecord_good (State.remapCopies_good ‹_›)
  try clear_value x2
  extract_lets +onlyGivenNames x4
  have h5 : Good og (x4) := by subst x4; exact State.hostWrite_good ‹_›
  try clear_value x4
  exact State.tell_good (State.restoreEnd_good ‹_›)

theorem State.restoreStepEnd_good {og : Origin} {a1 : State} {a2 : List Byte} {a3 : Nat} (h1 : Good og (a1)) :
    Good og (@State.restoreStepEnd a1 a2 a3) := by
  unfold State.restoreStepEnd
  split
  · rename_i w1 w2
    assumption
  · rename_i w3 w4 w5
    split
    · rename_i w6 w7
      exact State.restore1_good ‹_›
    · rename_i w8 w9
      exact State.restore2_good ‹_›
    · rename_i w10 w11
      exact State.restore3_good ‹_›
    · rename_i w12 w13
      exact State.restore4_good ‹_›
    · rename_i w14 w15
      exact State.restore5_good ‹_›
    · rename_i w16 w17
      exact State.restore6_good ‹_›
    · rename_i w18 w19
      exact State.restore7_good ‹_›
    · rename_i w20 w21
      exact State.restore8_good ‹_›
    · rename_i w22 w23 w24 w25 w26 w27 w28 w29 w30
      exact State.restore9_good ‹_›

theorem execRestoreStepEnd_good {og : Origin} {a1 : List Byte} {a2 : Half} {a3 : State} (h3 : Good og (a3)) :
    GoodOut og (@execRestoreStepEnd a1 a2 a3) := by
  unfold execRestoreStepEnd
  exact goodOut_next (State.restoreStepEnd_good ‹_›)

end Sys2Proof.Machine
end

