-- ==== Sys2Proof/Laws/Keep/HostOps.lean ====
section
/-! SUPPORT. What the operations of Machine/HostOps.lean keep. -/

namespace Sys2Proof.Machine

theorem State.startLaunch_good {og : Origin} {a1 : State} {a2 : Nat} {a3 : Nat} {a4 : Nat} {a5 : Nat} {a6 : List Byte} (h1 : Good og (a1)) :
    Good og (@State.startLaunch a1 a2 a3 a4 a5 a6) := by
  unfold State.startLaunch
  extract_lets +onlyGivenNames x1
  subst x1
  exact good_mk (State.endBoundary_good ‹_›) rfl rfl rfl rfl rfl rfl rfl

theorem State.launch_good {og : Origin} {a1 : State} {a2 : Nat} {a3 : Nat} {a4 : Entry} (h1 : Good og (a1)) :
    Good og (@State.launch a1 a2 a3 a4) := by
  unfold State.launch
  extract_lets +onlyGivenNames x1; try clear_value x1
  refine good_ite ?_ ?_
  · exact State.finish_good ‹_›
  · refine good_ite ?_ ?_
    · exact State.finish_good ‹_›
    · refine State.withRecord_good ?_ ?_
      · assumption
      · intro v2 v3 v4
        refine good_ite ?_ ?_
        · exact State.finish_good ‹_›
        · refine good_ite ?_ ?_
          · exact State.finish_good ‹_›
          · exact State.startLaunch_good ‹_›

theorem execLaunch_good {og : Origin} {a1 : TenantId} {a2 : RingId} {a3 : State} (h3 : Good og (a3)) :
    GoodOut og (@execLaunch a1 a2 a3) := by
  unfold execLaunch
  refine goodOut_next ?_
  refine State.runCommand_good ?_ ?_
  · assumption
  · intro v1 v2 v3
    exact State.launch_good ‹_›

theorem State.hostCopy_good {og : Origin} {a1 : State} {a2 : Nat} {a3 : Nat} {a4 : Entry} {a5 : List Byte} {a6 : Bool} (h1 : Good og (a1)) :
    Good og (@State.hostCopy a1 a2 a3 a4 a5 a6) := by
  unfold State.hostCopy
  extract_lets +onlyGivenNames x1; try clear_value x1
  extract_lets +onlyGivenNames x2; try clear_value x2
  extract_lets +onlyGivenNames x3; try clear_value x3
  refine good_ite ?_ ?_
  · exact State.finish_good ‹_›
  · refine good_ite ?_ ?_
    · exact State.finish_good (State.setEvent_good ‹_›)
    · extract_lets +onlyGivenNames x4
      have h5 : Good og (x4) := by
        subst x4
        refine good_ite ?_ ?_
        · exact State.count_good (State.emit_good ‹_›)
        · assumption
      try clear_value x4
      refine good_ite ?_ ?_
      · exact State.finish_good (State.setEvent_good ‹_›)
      · exact good_mk ‹_› rfl rfl rfl rfl rfl rfl rfl

theorem execHostCopy_good {og : Origin} {a1 : TenantId} {a2 : RingId} {a3 : List Byte} {a4 : Bool} {a5 : State} (h5 : Good og (a5)) :
    GoodOut og (@execHostCopy a1 a2 a3 a4 a5) := by
  unfold execHostCopy
  refine goodOut_next ?_
  refine State.runCommand_good ?_ ?_
  · assumption
  · intro v1 v2 v3
    exact State.hostCopy_good ‹_›

theorem State.moveCopy_good {og : Origin} {a1 : State} {a2 : HostJob} {a3 : Nat} {a4 : Bool} (h1 : Good og (a1)) :
    Good og (@State.moveCopy a1 a2 a3 a4).1 := by
  unfold State.moveCopy
  refine good_ite_fst ?_ ?_
  · split
    · rename_i w1 w2 w3 w4
      have h5 : Good og w2 := good_fst w4 (State.fwRead_good ‹_›)
      refine good_ite_fst ?_ ?_
      · exact good_pair (State.hostWrite_good ‹_›)
      · exact good_pair (State.setEvent_good ‹_›)
    · rename_i w6 w7 w8 w9 w10 w11
      have h12 : Good og w7 := good_fst w11 (State.fwRead_good ‹_›)
      exact good_pair ‹_›
  · exact State.fwWrite_good ‹_›

theorem State.hostCopyEnd_good {og : Origin} {a1 : State} {a2 : Nat} {a3 : Nat} {a4 : Nat} {a5 : Bool} (h1 : Good og (a1)) :
    Good og (@State.hostCopyEnd a1 a2 a3 a4 a5) := by
  unfold State.hostCopyEnd
  split
  · rename_i w1 w2
    assumption
  · rename_i w3 w4 w5
    split
    · rename_i w6 w7
      assumption
    · rename_i w8 w9 w10
      extract_lets +onlyGivenNames x11; try clear_value x11
      extract_lets +onlyGivenNames x12
      have h13 : Good og (x12) := by subst x12; exact good_mk ‹_› rfl rfl rfl rfl rfl rfl rfl
      try clear_value x12
      split
      · rename_i w14 w15 w16 w17
        have h18 : Good og w15 := good_fst w17 (State.moveCopy_good ‹_›)
        exact State.finish_good ‹_›
      · rename_i w19 w20 w21 w22 w23 w24
        have h25 : Good og w20 := good_fst w24 (State.moveCopy_good ‹_›)
        refine good_ite ?_ ?_
        · exact State.finish_good ‹_›
        · exact State.finishMem_good ‹_›

theorem execHostCopyEnd_good {og : Origin} {a1 : TenantId} {a2 : RingId} {a3 : Half} {a4 : Bool} {a5 : State} (h5 : Good og (a5)) :
    GoodOut og (@execHostCopyEnd a1 a2 a3 a4 a5) := by
  unfold execHostCopyEnd
  exact goodOut_next (State.hostCopyEnd_good ‹_›)

theorem State.waitCommand_good {og : Origin} {a1 : State} {a2 : Nat} {a3 : Nat} {a4 : Entry} (h1 : Good og (a1)) :
    Good og (@State.waitCommand a1 a2 a3 a4) := by
  unfold State.waitCommand
  extract_lets +onlyGivenNames x1; try clear_value x1
  refine good_ite ?_ ?_
  · exact State.finish_good ‹_›
  · refine good_ite ?_ ?_
    · exact State.finishMem_good ‹_›
    · split
      · rename_i w2 w3 w4 w5 w6
        have h7 : Good og w3 := good_fst w6 (State.translate_good ‹_›)
        exact State.finishMem_good ‹_›
      · rename_i w8 w9 w10 w11
        have h12 : Good og w9 := good_fst w11 (State.translate_good ‹_›)
        refine good_ite ?_ ?_
        · exact State.finishMem_good ‹_›
        · extract_lets +onlyGivenNames x13
          try clear_value x13
          exact State.settleWaits_good (good_mk ‹_› rfl rfl rfl rfl rfl rfl rfl)

theorem execWait_good {og : Origin} {a1 : TenantId} {a2 : RingId} {a3 : State} (h3 : Good og (a3)) :
    GoodOut og (@execWait a1 a2 a3) := by
  unfold execWait
  refine goodOut_next ?_
  refine State.runCommand_good ?_ ?_
  · assumption
  · intro v1 v2 v3
    exact State.waitCommand_good ‹_›

theorem State.dropWait_good {og : Origin} {a1 : State} {a2 : Nat} {a3 : Nat} (h1 : Good og (a1)) :
    Good og (@State.dropWait a1 a2 a3) := by
  unfold State.dropWait
  exact good_mk ‹_› rfl rfl rfl rfl rfl rfl rfl

theorem State.waitTimeout_good {og : Origin} {a1 : State} {a2 : Nat} {a3 : Nat} {a4 : Nat} (h1 : Good og (a1)) :
    Good og (@State.waitTimeout a1 a2 a3 a4) := by
  unfold State.waitTimeout
  extract_lets +onlyGivenNames x1
  have h2 : Good og (x1) := by subst x1; exact State.settleWaits_good ‹_›
  try clear_value x1
  split
  · rename_i w3 w4
    assumption
  · rename_i w5 w6 w7
    split
    · rename_i w8 w9
      assumption
    · rename_i w10 w11 w12
      refine good_ite ?_ ?_
      · assumption
      · exact State.finish_good (State.dropWait_good ‹_›)

theorem execWaitTimeout_good {og : Origin} {a1 : TenantId} {a2 : RingId} {a3 : Half} {a4 : State} (h4 : Good og (a4)) :
    GoodOut og (@execWaitTimeout a1 a2 a3 a4) := by
  unfold execWaitTimeout
  exact goodOut_next (State.waitTimeout_good ‹_›)

theorem State.deadMark_good {og : Origin} {a1 : State} {a2 : Nat} {a3 : Nat} {a4 : Entry} (h1 : Good og (a1)) :
    Good og (@State.deadMark a1 a2 a3 a4) := by
  unfold State.deadMark
  extract_lets +onlyGivenNames x1; try clear_value x1
  extract_lets +onlyGivenNames x2; try clear_value x2
  refine good_ite ?_ ?_
  · exact State.finish_good ‹_›
  · split
    · rename_i w3 w4 w5 w6 w7 w8
      have h9 : Good og w4 := good_fst w8 (State.translateSpan_good ‹_›)
      exact State.finishMem_good ‹_›
    · rename_i w10 w11 w12 w13
      have h14 : Good og w11 := good_fst w13 (State.translateSpan_good ‹_›)
      extract_lets +onlyGivenNames x15; try clear_value x15
      refine State.finish_good ?_
      refine good_foldl ?_ (fun s16 y17 h18 => ?_)
      · assumption
      · exact State.rangeRun_good ‹_›

theorem State.startDeadMark_good {og : Origin} {a1 : State} {a2 : Nat} {a3 : Nat} (h1 : Good og (a1)) :
    Good og (@State.startDeadMark a1 a2 a3) := by
  unfold State.startDeadMark
  split
  · rename_i w1 w2
    assumption
  · rename_i w3 w4 w5
    refine good_ite ?_ ?_
    · assumption
    · refine good_ite ?_ ?_
      · assumption
      · split
        · rename_i w6 w7
          refine State.runCommand_good ?_ ?_
          · assumption
          · intro v8 v9 v10
            exact State.deadMark_good ‹_›
        · rename_i w11 w12
          exact State.rangeWait_good ‹_›

theorem execDeadMark_good {og : Origin} {a1 : TenantId} {a2 : RingId} {a3 : State} (h3 : Good og (a3)) :
    GoodOut og (@execDeadMark a1 a2 a3) := by
  unfold execDeadMark
  exact goodOut_next (State.startDeadMark_good ‹_›)

theorem State.abortCopy_good {og : Origin} {a1 : State} {a2 : HostJob} (h1 : Good og (a1)) :
    Good og (@State.abortCopy a1 a2) := by
  unfold State.abortCopy
  extract_lets +onlyGivenNames x1; try clear_value x1
  extract_lets +onlyGivenNames x2; try clear_value x2
  extract_lets +onlyGivenNames x3
  have h4 : Good og (x3) := by subst x3; exact State.drawn_good (good_mk ‹_› rfl rfl rfl rfl rfl rfl rfl)
  try clear_value x3
  exact State.moveCopy_good ‹_›

theorem State.abortLaunch_good {og : Origin} {a1 : State} {a2 : Launch} (h1 : Good og (a1)) :
    Good og (@State.abortLaunch a1 a2) := by
  unfold State.abortLaunch
  extract_lets +onlyGivenNames x1
  have h2 : Good og (x1) := by subst x1; exact State.modLaunch_good ‹_›
  try clear_value x1
  exact State.launchStop_good (State.rowAbortLaunch_good (State.arrAbortLaunch_good ‹_›))

theorem State.abortStarted_good {og : Origin} {a1 : State} {a2 : Nat} {a3 : Nat} {a4 : Entry} (h1 : Good og (a1)) :
    Good og (@State.abortStarted a1 a2 a3 a4) := by
  unfold State.abortStarted
  split
  · rename_i w1 w2
    split
    · rename_i w3 w4 w5
      exact State.abortLaunch_good ‹_›
    · rename_i w6 w7
      exact State.finish_good ‹_›
  · rename_i w8 w9
    split
    · rename_i w10 w11 w12
      exact State.finish_good (State.abortCopy_good ‹_›)
    · rename_i w13 w14
      exact State.finish_good ‹_›
  · rename_i w15 w16
    exact State.finish_good (State.dropWait_good ‹_›)
  · rename_i w17 w18
    extract_lets +onlyGivenNames x19; try clear_value x19
    extract_lets +onlyGivenNames x20; try clear_value x20
    exact good_mk ‹_› rfl rfl rfl rfl rfl rfl rfl
  · rename_i w21 w22
    exact State.abortStep_good ‹_›
  · rename_i w23 w24
    exact State.finish_good (good_mk ‹_› rfl rfl rfl rfl rfl rfl rfl)
  · rename_i w25 w26 w27 w28 w29 w30 w31
    exact State.finish_good ‹_›

theorem State.abortOne_good {og : Origin} {a1 : State} {a2 : Nat} {a3 : Nat} {a4 : Entry} (h1 : Good og (a1)) :
    Good og (@State.abortOne a1 a2 a3 a4) := by
  unfold State.abortOne
  split
  · rename_i w1 w2
    exact State.abortStarted_good ‹_›
  · rename_i w3 w4
    exact State.modEntry_good ‹_›
  · rename_i w5 w6 w7
    exact State.finish_good ‹_›

theorem State.abortCommands_good {og : Origin} {a1 : State} {a2 : Nat} {a3 : Nat} {a4 : Entry} {a5 : Nat} {a6 : Nat} {a7 : Bool} {a8 : Nat} {a9 : Nat} (h1 : Good og (a1)) :
    Good og (@State.abortCommands a1 a2 a3 a4 a5 a6 a7 a8 a9) := by
  unfold State.abortCommands
  split
  · rename_i w1 w2
    exact State.finish_good ‹_›
  · rename_i w3 w4 w5
    extract_lets +onlyGivenNames x6; try clear_value x6
    split
    · rename_i w7 w8 w9 w10
      refine good_ite ?_ ?_
      · exact State.finish_good ‹_›
      · extract_lets +onlyGivenNames x11
        try clear_value x11
        extract_lets +onlyGivenNames x12; try clear_value x12
        extract_lets +onlyGivenNames x13; try clear_value x13
        extract_lets +onlyGivenNames x14; try clear_value x14
        extract_lets +onlyGivenNames x15; try clear_value x15
        extract_lets +onlyGivenNames x16; try clear_value x16
        extract_lets +onlyGivenNames x17
        have h18 : Good og (x17) := by subst x17; exact State.setSq_good ‹_›
        try clear_value x17
        extract_lets +onlyGivenNames x19; try clear_value x19
        extract_lets +onlyGivenNames x20
        have h21 : Good og (x20) := by subst x20; exact good_mk ‹_› rfl rfl rfl rfl rfl rfl rfl
        try clear_value x20
        refine State.closeAborts_good ?_
        refine good_foldl ?_ (fun s22 y23 h24 => ?_)
        · assumption
        · exact State.abortOne_good ‹_›

theorem State.abortArgs_good {og : Origin} {a1 : State} {a2 : Nat} {a3 : Nat} {a4 : Entry} {a5 : Nat} {a6 : Nat} (h1 : Good og (a1)) :
    Good og (@State.abortArgs a1 a2 a3 a4 a5 a6) := by
  unfold State.abortArgs
  refine good_ite ?_ ?_
  · exact State.finish_good ‹_›
  · exact State.abortCommands_good ‹_›

theorem execAbort_good {og : Origin} {a1 : TenantId} {a2 : RingId} {a3 : State} (h3 : Good og (a3)) :
    GoodOut og (@execAbort a1 a2 a3) := by
  unfold execAbort
  refine goodOut_next ?_
  refine State.runCommand_good ?_ ?_
  · assumption
  · intro v1 v2 v3
    exact State.abortArgs_good ‹_›

theorem execTenantAbort_good {og : Origin} {a1 : State} (h1 : Good og (a1)) :
    GoodOut og (@execTenantAbort a1) := by
  unfold execTenantAbort
  refine goodOut_next ?_
  refine State.runAdmin_good ?_ ?_
  · assumption
  · intro v1 v2 v3
    refine good_ite ?_ ?_
    · exact State.finish_good ‹_›
    · refine good_ite ?_ ?_
      · exact State.finish_good ‹_›
      · exact State.abortArgs_good ‹_›

end Sys2Proof.Machine
end

