-- ==== Sys2Proof/Laws/Keep/Interrupts.lean ====
section
/-! SUPPORT. What the operations of Machine/Interrupts.lean keep. -/

namespace Sys2Proof.Machine

theorem execRaise_good {og : Origin} {a1 : Agent} {a2 : BitVec 12} {a3 : State} (h3 : Good og (a3)) :
    GoodOut og (@execRaise a1 a2 a3) := by
  unfold execRaise
  exact goodOut_next (State.raise_good ‹_›)

theorem State.window_good {og : Origin} {a1 : State} {a2 : Agent} {a3 : Nat} {a4 : Word} {a5 : State → DWord → State} (h1 : Good og (a1)) (h5 : ∀ b1 b2, Good og (b1) → Good og (a5 b1 b2)) :
    Good og (@State.window a1 a2 a3 a4 a5) := by
  unfold State.window
  extract_lets +onlyGivenNames x1; try clear_value x1
  extract_lets +onlyGivenNames x2; try clear_value x2
  extract_lets +onlyGivenNames x3
  have h4 : Good og (x3) := by subst x3; exact h5 _ _ ‹_›
  try clear_value x3
  refine good_ite ?_ ?_
  · assumption
  · exact State.denied_good ‹_›

theorem execMaskClr_good {og : Origin} {a1 : Agent} {a2 : Fin 128} {a3 : Word} {a4 : State} (h4 : Good og (a4)) :
    GoodOut og (@execMaskClr a1 a2 a3 a4) := by
  unfold execMaskClr
  refine goodOut_next ?_
  refine State.window_good ?_ ?_
  · assumption
  · intro v1 v2 v3
    exact State.setReg_good ‹_›

theorem State.pendBits_good {og : Origin} {a1 : State} {a2 : Nat} {a3 : DWord} {a4 : Nat} {a5 : Nat} (h1 : Good og (a1)) :
    Good og (@State.pendBits a1 a2 a3 a4 a5) := by
  induction a4 generalizing a1 a5 with
  | zero =>
    rw [State.pendBits]
    assumption
  | succ n ih =>
    rw [State.pendBits]
    refine ih ?_
    refine good_ite ?_ ?_
    · exact State.pend_good ‹_›
    · assumption

theorem execPendSet_good {og : Origin} {a1 : Agent} {a2 : Fin 128} {a3 : Word} {a4 : State} (h4 : Good og (a4)) :
    GoodOut og (@execPendSet a1 a2 a3 a4) := by
  unfold execPendSet
  refine goodOut_next ?_
  refine State.window_good ?_ ?_
  · assumption
  · intro v1 v2 v3
    exact State.pendBits_good ‹_›

theorem State.unpend_good {og : Origin} {a1 : State} {a2 : Nat} (h1 : Good og (a1)) :
    Good og (@State.unpend a1 a2) := by
  unfold State.unpend
  exact State.setReg_good ‹_›

theorem State.setPba_good {og : Origin} {a1 : State} {a2 : Nat} {a3 : Bool} (h1 : Good og (a1)) :
    Good og (@State.setPba a1 a2 a3) := by
  unfold State.setPba
  extract_lets +onlyGivenNames x1; try clear_value x1
  exact State.setReg_good ‹_›

theorem State.sendMsix_good {og : Origin} {a1 : State} {a2 : Nat} (h1 : Good og (a1)) :
    Good og (@State.sendMsix a1 a2) := by
  unfold State.sendMsix
  exact State.count_good (State.count_good (State.emit_good ‹_›))

theorem State.showHeld_good {og : Origin} {a1 : State} (h1 : Good og (a1)) :
    Good og (@State.showHeld a1) := by
  unfold State.showHeld
  exact State.wr_good ‹_›

theorem State.dropHeld_good {og : Origin} {a1 : State} {a2 : Nat → Bool} (h1 : Good og (a1)) :
    Good og (@State.dropHeld a1 a2) := by
  unfold State.dropHeld
  extract_lets +onlyGivenNames x1; try clear_value x1
  extract_lets +onlyGivenNames x2; try clear_value x2
  extract_lets +onlyGivenNames x3; try clear_value x3
  extract_lets +onlyGivenNames x4
  have h5 : Good og (x4) := by subst x4; exact good_mk ‹_› rfl rfl rfl rfl rfl rfl rfl
  try clear_value x4
  refine State.showHeld_good ?_
  refine good_foldl ?_ (fun s6 y7 h8 => ?_)
  · assumption
  · refine good_ite ?_ ?_
    · assumption
    · exact State.setPba_good ‹_›

theorem execMaskSet_good {og : Origin} {a1 : Agent} {a2 : Fin 128} {a3 : Word} {a4 : State} (h4 : Good og (a4)) :
    GoodOut og (@execMaskSet a1 a2 a3 a4) := by
  unfold execMaskSet
  refine goodOut_next ?_
  refine State.window_good ?_ ?_
  · assumption
  · intro v1 v2 v3
    exact State.dropHeld_good (State.setReg_good ‹_›)

theorem execPendClr_good {og : Origin} {a1 : Agent} {a2 : Fin 128} {a3 : Word} {a4 : State} (h4 : Good og (a4)) :
    GoodOut og (@execPendClr a1 a2 a3 a4) := by
  unfold execPendClr
  refine goodOut_next ?_
  refine State.window_good ?_ ?_
  · assumption
  · intro v1 v2 v3
    exact State.dropHeld_good (State.setReg_good ‹_›)

theorem State.setCoreQ_good {og : Origin} {a1 : State} {a2 : Nat} {a3 : List Nat} (h1 : Good og (a1)) :
    Good og (@State.setCoreQ a1 a2 a3) := by
  unfold State.setCoreQ
  exact State.wr_good (good_mk ‹_› rfl rfl rfl rfl rfl rfl rfl)

theorem State.deliverOne_good {og : Origin} {a1 : State} {a2 : MsixCtl} {a3 : Budget} {a4 : Nat} (h1 : Good og (a1)) :
    Good og (@State.deliverOne a1 a2 a3 a4).1 := by
  unfold State.deliverOne
  split
  · rename_i w1 w2
    extract_lets +onlyGivenNames x3; try clear_value x3
    refine good_ite_fst ?_ ?_
    · refine good_ite_fst ?_ ?_
      · exact good_pair ‹_›
      · exact good_pair (State.showHeld_good (State.setPba_good (good_mk ‹_› rfl rfl rfl rfl rfl rfl rfl)))
    · refine good_ite_fst ?_ ?_
      · exact good_pair ‹_›
      · refine good_ite_fst ?_ ?_
        · exact good_pair (State.count_good (State.unpend_good ‹_›))
        · refine good_ite_fst ?_ ?_
          · exact good_pair (State.count_good (State.sendMsix_good (State.unpend_good ‹_›)))
          · exact good_pair ‹_›
  · rename_i w4 w5
    refine good_ite_fst ?_ ?_
    · exact good_pair ‹_›
    · split
      · rename_i w6 w7 w8
        extract_lets +onlyGivenNames x9
        have h10 : Good og (x9) := by subst x9; exact State.setCoreQ_good (State.unpend_good ‹_›)
        try clear_value x9
        exact good_pair (State.count_good (good_mk ‹_› rfl rfl rfl rfl rfl rfl rfl))
      · rename_i w11 w12
        refine good_ite_fst ?_ ?_
        · exact good_pair (State.setEvent_good ‹_›)
        · exact good_pair ‹_›
  · rename_i w13 w14
    refine good_ite_fst ?_ ?_
    · exact good_pair ‹_›
    · refine good_ite_fst ?_ ?_
      · refine good_pair ?_
        refine State.count_good ?_
        extract_lets +onlyGivenNames x15
        subst x15
        exact good_mk (State.unpend_good ‹_›) rfl rfl rfl rfl rfl rfl rfl
      · exact good_pair (State.setEvent_good ‹_›)
  · rename_i w16 w17 w18 w19
    exact good_pair ‹_›

theorem deliverWord_good {og : Origin} {a1 : MsixCtl} {a2 : Nat} {a3 : DWord} {a4 : Nat} {a5 : Nat} {a6 : State × Budget} (h6 : Good og (a6).1) :
    Good og (@deliverWord a1 a2 a3 a4 a5 a6).1 := by
  induction a4 generalizing a5 a6 with
  | zero =>
    rw [deliverWord]
    assumption
  | succ n ih =>
    rw [deliverWord]
    refine ih ?_
    refine good_ite_fst ?_ ?_
    · exact State.deliverOne_good ‹_›
    · assumption

theorem deliverFrom_good {og : Origin} {a1 : MsixCtl} {a2 : State} {a3 : Nat} {a4 : Nat} {a5 : State × Budget} (h2 : Good og (a2)) (h5 : Good og (a5).1) :
    Good og (@deliverFrom a1 a2 a3 a4 a5).1 := by
  induction a3 generalizing a4 a5 with
  | zero =>
    rw [deliverFrom]
    assumption
  | succ n ih =>
    rw [deliverFrom]
    refine ih ?_
    refine good_ite_fst ?_ ?_
    · assumption
    · exact deliverWord_good ‹_›

theorem execInterruptDelivery_good {og : Origin} {a1 : MsixCtl} {a2 : State} (h2 : Good og (a2)) :
    GoodOut og (@execInterruptDelivery a1 a2) := by
  unfold execInterruptDelivery
  refine goodOut_next ?_
  refine deliverFrom_good ?_ ?_
  · assumption
  · exact good_pair ‹_›

theorem execHeldVectorRelease_good {og : Origin} {a1 : MsixCtl} {a2 : Fin 2048} {a3 : State} (h3 : Good og (a3)) :
    GoodOut og (@execHeldVectorRelease a1 a2 a3) := by
  unfold execHeldVectorRelease
  extract_lets +onlyGivenNames x1; try clear_value x1
  split
  · rename_i w2
    exact goodOut_next ‹_›
  · rename_i w3
    extract_lets +onlyGivenNames x4; try clear_value x4
    extract_lets +onlyGivenNames x5
    have h6 : Good og (x5) := by subst x5; exact good_mk ‹_› rfl rfl rfl rfl rfl rfl rfl
    try clear_value x5
    extract_lets +onlyGivenNames x7
    have h8 : Good og (x7) := by
      subst x7
      refine good_foldl ?_ (fun s9 y10 h11 => ?_)
      · assumption
      · exact State.count_good (State.unpend_good ‹_›)
    try clear_value x7
    exact goodOut_next (State.showHeld_good (State.setPba_good (State.sendMsix_good ‹_›)))

theorem execInterruptTaken_good {og : Origin} {a1 : Option (Fin 8)} {a2 : State} (h2 : Good og (a2)) :
    GoodOut og (@execInterruptTaken a1 a2) := by
  unfold execInterruptTaken
  split
  · rename_i w1 w2
    refine goodOut_next ?_
    refine good_ite ?_ ?_
    · assumption
    · exact State.count_good (State.setCoreQ_good ‹_›)
  · rename_i w3
    exact goodOut_next (good_mk ‹_› rfl rfl rfl rfl rfl rfl rfl)

theorem execIcuReady_good {og : Origin} {a1 : State} (h1 : Good og (a1)) :
    GoodOut og (@execIcuReady a1) := by
  unfold execIcuReady
  refine goodOut_next ?_
  refine good_ite ?_ ?_
  · exact State.wr_good ‹_›
  · assumption

end Sys2Proof.Machine
end

