-- ==== Sys2Proof/Laws/Keep/Admin.lean ====
section
/-! SUPPORT. What the operations of Machine/Admin.lean keep. -/

namespace Sys2Proof.Machine

theorem State.adminEnd_good {og : Origin} {a1 : State} {a2 : Nat} {a3 : Nat} {a4 : Nat} (h1 : Good og (a1)) :
    Good og (@State.adminEnd a1 a2 a3 a4) := by
  unfold State.adminEnd
  exact State.finish_good ‹_›

theorem State.hostFetch_good {og : Origin} {a1 : State} {a2 : Nat} {a3 : Nat} {a4 : List Byte} {a5 : Bool} (h1 : Good og (a1)) :
    Good og (@State.hostFetch a1 a2 a3 a4 a5).1 := by
  unfold State.hostFetch
  refine good_ite_fst ?_ ?_
  · exact good_pair (State.setEvent_good ‹_›)
  · exact good_pair (State.count_good (State.emit_good ‹_›))

theorem State.putWard_good {og : Origin} {a1 : State} {a2 : Nat} {a3 : List Byte} (h1 : Good og (a1)) :
    Good og (@State.putWard a1 a2 a3) := by
  unfold State.putWard
  exact State.markAll_good (good_mk ‹_› rfl rfl rfl rfl rfl rfl rfl)

theorem State.putDomain_good {og : Origin} {a1 : State} {a2 : Nat} {a3 : Nat} (h1 : Good og (a1)) :
    Good og (@State.putDomain a1 a2 a3) := by
  unfold State.putDomain
  exact State.wr_good (good_mk ‹_› rfl rfl rfl rfl rfl rfl rfl)

theorem State.wardUpdate_good {og : Origin} {a1 : State} {a2 : Entry} {a3 : List Byte} {a4 : Bool} (h1 : Good og (a1)) :
    Good og (@State.wardUpdate a1 a2 a3 a4) := by
  unfold State.wardUpdate
  extract_lets +onlyGivenNames x1; try clear_value x1
  refine good_ite ?_ ?_
  · exact State.adminEnd_good ‹_›
  · refine good_ite ?_ ?_
    · exact State.adminEnd_good ‹_›
    · split
      · rename_i w2 w3 w4
        have h5 : Good og w3 := good_fst w4 (State.hostFetch_good ‹_›)
        exact State.adminEnd_good ‹_›
      · rename_i w6 w7 w8 w9
        have h10 : Good og w7 := good_fst w9 (State.hostFetch_good ‹_›)
        refine good_ite ?_ ?_
        · exact State.adminEnd_good (State.putWard_good ‹_›)
        · exact State.adminEnd_good ‹_›

theorem execWardUpdate_good {og : Origin} {a1 : List Byte} {a2 : Bool} {a3 : State} (h3 : Good og (a3)) :
    GoodOut og (@execWardUpdate a1 a2 a3) := by
  unfold execWardUpdate
  refine goodOut_next ?_
  refine State.runAdmin_good ?_ ?_
  · assumption
  · intro v1 v2 v3
    exact State.wardUpdate_good ‹_›

theorem State.ringCommand_good {og : Origin} {a1 : State} {a2 : Entry} {a3 : State → Nat → Nat → State} (h1 : Good og (a1)) (h3 : ∀ b1 b2 b3, Good og (b1) → Good og (a3 b1 b2 b3)) :
    Good og (@State.ringCommand a1 a2 a3) := by
  unfold State.ringCommand
  refine good_ite ?_ ?_
  · exact State.adminEnd_good ‹_›
  · refine good_ite ?_ ?_
    · exact State.adminEnd_good ‹_›
    · exact h3 _ _ _ ‹_›

theorem State.newRing_good {og : Origin} {a1 : State} {a2 : Entry} {a3 : Nat} {a4 : State → State} (h1 : Good og (a1)) (h4 : ∀ b1, Good og (b1) → Good og (a4 b1)) :
    Good og (@State.newRing a1 a2 a3 a4) := by
  unfold State.newRing
  extract_lets +onlyGivenNames x1; try clear_value x1
  refine good_ite ?_ ?_
  · exact State.adminEnd_good ‹_›
  · refine good_ite ?_ ?_
    · exact State.adminEnd_good (State.setEvent_good ‹_›)
    · exact h4 _ ‹_›

theorem State.cqCreate_good {og : Origin} {a1 : State} {a2 : Entry} (h1 : Good og (a1)) :
    Good og (@State.cqCreate a1 a2) := by
  unfold State.cqCreate
  refine State.ringCommand_good ?_ ?_
  · assumption
  · intro v1 v2 v3 v4
    refine State.newRing_good ?_ ?_
    · assumption
    · intro v5 v6
      refine good_ite ?_ ?_
      · exact State.adminEnd_good ‹_›
      · exact State.adminEnd_good (State.setCq_good ‹_›)

theorem execCqCreate_good {og : Origin} {a1 : State} (h1 : Good og (a1)) :
    GoodOut og (@execCqCreate a1) := by
  unfold execCqCreate
  refine goodOut_next ?_
  refine State.runAdmin_good ?_ ?_
  · assumption
  · intro v1 v2 v3
    exact State.cqCreate_good ‹_›

theorem State.sqCreate_good {og : Origin} {a1 : State} {a2 : Entry} (h1 : Good og (a1)) :
    Good og (@State.sqCreate a1 a2) := by
  unfold State.sqCreate
  refine State.ringCommand_good ?_ ?_
  · assumption
  · intro v1 v2 v3 v4
    refine good_ite ?_ ?_
    · exact State.adminEnd_good ‹_›
    · refine State.newRing_good ?_ ?_
      · assumption
      · intro v5 v6
        refine good_ite ?_ ?_
        · exact State.adminEnd_good ‹_›
        · exact State.adminEnd_good (State.setSq_good ‹_›)

theorem execSqCreate_good {og : Origin} {a1 : State} (h1 : Good og (a1)) :
    GoodOut og (@execSqCreate a1) := by
  unfold execSqCreate
  refine goodOut_next ?_
  refine State.runAdmin_good ?_ ?_
  · assumption
  · intro v1 v2 v3
    exact State.sqCreate_good ‹_›

theorem State.dropSq_good {og : Origin} {a1 : State} {a2 : Nat} {a3 : Nat} (h1 : Good og (a1)) :
    Good og (@State.dropSq a1 a2 a3) := by
  unfold State.dropSq
  exact State.showHalted_good (State.modTenant_good (good_mk ‹_› rfl rfl rfl rfl rfl rfl rfl))

theorem State.ringDelete_good {og : Origin} {a1 : State} {a2 : Entry} (h1 : Good og (a1)) :
    Good og (@State.ringDelete a1 a2) := by
  unfold State.ringDelete
  refine State.ringCommand_good ?_ ?_
  · assumption
  · intro v1 v2 v3 v4
    split
    · rename_i w5 w6
      split
      · rename_i w7 w8
        exact State.adminEnd_good ‹_›
      · rename_i w9 w10 w11
        refine good_ite ?_ ?_
        · exact State.adminEnd_good ‹_›
        · exact State.adminEnd_good (State.dropSq_good ‹_›)
    · rename_i w12 w13
      refine good_ite ?_ ?_
      · exact State.adminEnd_good ‹_›
      · exact State.adminEnd_good (State.modTenant_good ‹_›)
    · rename_i w14 w15 w16
      exact State.adminEnd_good ‹_›

theorem execRingDelete_good {og : Origin} {a1 : State} (h1 : Good og (a1)) :
    GoodOut og (@execRingDelete a1) := by
  unfold execRingDelete
  refine goodOut_next ?_
  refine State.runAdmin_good ?_ ?_
  · assumption
  · intro v1 v2 v3
    exact State.ringDelete_good ‹_›

theorem State.orderTenants_good {og : Origin} {a1 : State} (h1 : Good og (a1)) :
    Good og (@State.orderTenants a1) := by
  unfold State.orderTenants
  extract_lets +onlyGivenNames x1; try clear_value x1
  extract_lets +onlyGivenNames x2; try clear_value x2
  extract_lets +onlyGivenNames x3
  have h4 : Good og (x3) := by subst x3; exact State.setReg_good ‹_›
  try clear_value x3
  refine good_foldl ?_ (fun s5 y6 h7 => ?_)
  · assumption
  · exact State.wr_good (State.wr_good ‹_›)

theorem State.createPlace_good {og : Origin} {a1 : State} {a2 : Nat} {a3 : List Byte} {a4 : List Nat} (h1 : Good og (a1)) :
    Good og (@State.createPlace a1 a2 a3 a4) := by
  unfold State.createPlace
  extract_lets +onlyGivenNames x1
  have h2 : Good og (x1) := by subst x1; exact State.modPlace_good ‹_›
  try clear_value x1
  extract_lets +onlyGivenNames x3; try clear_value x3
  extract_lets +onlyGivenNames x4; try clear_value x4
  extract_lets +onlyGivenNames x5
  have h6 : Good og (x5) := by subst x5; exact State.grantFrames_good (State.grantFrames_good (State.homeFrames_good (State.convertGroups_good ‹_›)))
  try clear_value x5
  extract_lets +onlyGivenNames x7
  have h8 : Good og (x7) := by subst x7; exact State.freeTables_good ‹_›
  try clear_value x7
  extract_lets +onlyGivenNames x9
  have h10 : Good og (x9) := by subst x9; exact State.mapPages_good ‹_›
  try clear_value x9
  extract_lets +onlyGivenNames x11
  have h12 : Good og (x11) := by subst x11; exact State.mapPages_good ‹_›
  try clear_value x11
  extract_lets +onlyGivenNames x13
  have h14 : Good og (x13) := by subst x13; exact State.wr_good (State.wr_good ‹_›)
  try clear_value x13
  exact State.orderTenants_good ‹_›

theorem State.createState_good {og : Origin} {a1 : State} {a2 : Nat} {a3 : List Byte} {a4 : Option (List Byte)} (h1 : Good og (a1)) :
    Good og (@State.createState a1 a2 a3 a4) := by
  unfold State.createState
  extract_lets +onlyGivenNames x1
  have h2 : Good og (x1) := by subst x1; exact State.setNum_good ‹_›
  try clear_value x1
  extract_lets +onlyGivenNames x3
  have h4 : Good og (x3) := by
    subst x3
    split
    · rename_i w5 w6
      exact State.modStep_good ‹_›
    · rename_i w7
      exact State.modStep_good (good_mk ‹_› rfl rfl rfl rfl rfl rfl rfl)
  try clear_value x3
  extract_lets +onlyGivenNames x8
  have h9 : Good og (x8) := by subst x8; exact State.writeRecord_good ‹_›
  try clear_value x8
  extract_lets +onlyGivenNames x10
  have h11 : Good og (x10) := by subst x10; exact State.commitRecord_good (State.writeStepWord_good ‹_›)
  try clear_value x10
  extract_lets +onlyGivenNames x12; try clear_value x12
  extract_lets +onlyGivenNames x13
  have h14 : Good og (x13) := by subst x13; exact State.modFault_good ‹_›
  try clear_value x13
  exact State.setEvent_good (State.writeStatusBlock_good (State.wr_good ‹_›))

theorem State.createWith_good {og : Origin} {a1 : State} {a2 : Entry} {a3 : Nat} {a4 : List Byte} {a5 : List Byte} {a6 : Option (List Byte)} (h1 : Good og (a1)) :
    Good og (@State.createWith a1 a2 a3 a4 a5 a6) := by
  unfold State.createWith
  extract_lets +onlyGivenNames x1
  have h2 : Good og (x1) := by subst x1; exact State.passAll_good ‹_›
  try clear_value x1
  refine good_ite ?_ ?_
  · assumption
  · refine good_ite ?_ ?_
    · exact State.adminEnd_good ‹_›
    · refine good_ite ?_ ?_
      · exact State.adminEnd_good ‹_›
      · refine good_ite ?_ ?_
        · exact State.adminEnd_good ‹_›
        · refine good_ite ?_ ?_
          · exact State.adminEnd_good ‹_›
          · extract_lets +onlyGivenNames x3
            have h4 : Good og (x3) := by subst x3; exact State.spillFor_good ‹_›
            try clear_value x3
            extract_lets +onlyGivenNames x5; try clear_value x5
            refine good_ite ?_ ?_
            · exact State.adminEnd_good ‹_›
            · extract_lets +onlyGivenNames x6
              have h7 : Good og (x6) := by subst x6; exact State.putWard_good (State.putDomain_good (State.wr_good ‹_›))
              try clear_value x6
              exact State.adminEnd_good (State.createState_good (State.createPlace_good ‹_›))

theorem State.createReads_good {og : Origin} {a1 : State} {a2 : Entry} {a3 : Nat} {a4 : List Byte} {a5 : List Byte} {a6 : List Byte} (h1 : Good og (a1)) :
    Good og (@State.createReads a1 a2 a3 a4 a5 a6) := by
  unfold State.createReads
  split
  · rename_i w1 w2 w3
    have h4 : Good og w2 := good_fst w3 (State.hostFetch_good ‹_›)
    exact State.adminEnd_good ‹_›
  · rename_i w5 w6 w7 w8
    have h9 : Good og w6 := good_fst w8 (State.hostFetch_good ‹_›)
    refine good_ite ?_ ?_
    · exact State.createWith_good ‹_›
    · split
      · rename_i w10 w11 w12
        have h13 : Good og w11 := good_fst w12 (State.hostFetch_good ‹_›)
        exact State.adminEnd_good ‹_›
      · rename_i w14 w15 w16 w17
        have h18 : Good og w15 := good_fst w17 (State.hostFetch_good ‹_›)
        exact State.createWith_good ‹_›

theorem State.tenantCreate_good {og : Origin} {a1 : State} {a2 : Entry} {a3 : List Byte} {a4 : List Byte} {a5 : List Byte} {a6 : Bool} (h1 : Good og (a1)) :
    Good og (@State.tenantCreate a1 a2 a3 a4 a5 a6) := by
  unfold State.tenantCreate
  refine good_ite ?_ ?_
  · exact State.adminEnd_good ‹_›
  · split
    · rename_i w1 w2 w3
      have h4 : Good og w2 := good_fst w3 (State.hostFetch_good ‹_›)
      exact State.adminEnd_good ‹_›
    · rename_i w5 w6 w7 w8
      have h9 : Good og w6 := good_fst w8 (State.hostFetch_good ‹_›)
      extract_lets +onlyGivenNames x10; try clear_value x10
      refine good_ite ?_ ?_
      · exact State.adminEnd_good ‹_›
      · refine good_ite ?_ ?_
        · exact State.adminEnd_good ‹_›
        · refine good_ite ?_ ?_
          · exact State.adminEnd_good ‹_›
          · refine good_ite ?_ ?_
            · exact State.adminEnd_good (State.setEvent_good ‹_›)
            · exact State.createReads_good ‹_›

theorem execTenantCreate_good {og : Origin} {a1 : List Byte} {a2 : List Byte} {a3 : List Byte} {a4 : Bool} {a5 : State} (h5 : Good og (a5)) :
    GoodOut og (@execTenantCreate a1 a2 a3 a4 a5) := by
  unfold execTenantCreate
  refine goodOut_next ?_
  refine State.runAdmin_good ?_ ?_
  · assumption
  · intro v1 v2 v3
    exact State.tenantCreate_good ‹_›

theorem State.loseWaits_good {og : Origin} {a1 : State} {a2 : Nat} (h1 : Good og (a1)) :
    Good og (@State.loseWaits a1 a2) := by
  unfold State.loseWaits
  extract_lets +onlyGivenNames x1; try clear_value x1
  extract_lets +onlyGivenNames x2; try clear_value x2
  extract_lets +onlyGivenNames x3
  have h4 : Good og (x3) := by subst x3; exact good_mk ‹_› rfl rfl rfl rfl rfl rfl rfl
  try clear_value x3
  refine good_foldl ?_ (fun s5 y6 h7 => ?_)
  · assumption
  · exact State.finish_good ‹_›

theorem State.dropXfers_good {og : Origin} {a1 : State} {a2 : Nat} (h1 : Good og (a1)) :
    Good og (@State.dropXfers a1 a2) := by
  unfold State.dropXfers
  extract_lets +onlyGivenNames x1; try clear_value x1
  extract_lets +onlyGivenNames x2
  have h3 : Good og (x2) := by subst x2; exact good_mk ‹_› rfl rfl rfl rfl rfl rfl rfl
  try clear_value x2
  refine good_foldl ?_ (fun s4 y5 h6 => ?_)
  · assumption
  · split
    · rename_i w7 w8 w9
      refine good_ite ?_ ?_
      · exact State.xferEnd_good (State.putXfer_good ‹_›)
      · assumption
    · rename_i w10 w11
      assumption

theorem State.dropReductions_good {og : Origin} {a1 : State} {a2 : Nat} (h1 : Good og (a1)) :
    Good og (@State.dropReductions a1 a2) := by
  unfold State.dropReductions
  extract_lets +onlyGivenNames x1; try clear_value x1
  extract_lets +onlyGivenNames x2; try clear_value x2
  extract_lets +onlyGivenNames x3; try clear_value x3
  extract_lets +onlyGivenNames x4
  have h5 : Good og (x4) := by
    subst x4
    refine good_foldl ?_ (fun s6 y7 h8 => ?_)
    · assumption
    · exact State.setSlice_good ‹_›
  try clear_value x4
  refine good_foldl ?_ (fun s9 y10 h11 => ?_)
  · assumption
  · split
    · rename_i w12 w13 w14 w15
      exact State.modPort_good ‹_›
    · rename_i w16 w17
      assumption

theorem State.stopWork_good {og : Origin} {a1 : State} {a2 : Nat} (h1 : Good og (a1)) :
    Good og (@State.stopWork a1 a2) := by
  unfold State.stopWork
  extract_lets +onlyGivenNames x1
  have h2 : Good og (x1) := by subst x1; exact State.enginesOff_good (State.rowReset_good (State.arrReset_good ‹_›))
  try clear_value x1
  extract_lets +onlyGivenNames x3
  have h4 : Good og (x3) := by subst x3; exact State.dropReductions_good (State.dropSamples_good (State.tumReset_good ‹_›))
  try clear_value x3
  extract_lets +onlyGivenNames x5
  have h6 : Good og (x5) := by subst x5; exact good_mk ‹_› rfl rfl rfl rfl rfl rfl rfl
  try clear_value x5
  extract_lets +onlyGivenNames x7
  have h8 : Good og (x7) := by subst x7; exact State.wr_good ‹_›
  try clear_value x7
  extract_lets +onlyGivenNames x9
  have h10 : Good og (x9) := by
    subst x9
    split
    · rename_i w11 w12 w13
      refine good_ite ?_ ?_
      · exact State.restoreEnd_good ‹_›
      · assumption
    · rename_i w14 w15
      assumption
  try clear_value x9
  exact State.modStep_good (State.abandonAll_good ‹_›)

theorem State.abortSq_good {og : Origin} {a1 : State} {a2 : Nat} {a3 : Nat} {a4 : List (List Byte)} (h1 : Good og (a1)) :
    Good og (@State.abortSq a1 a2 a3 a4) := by
  unfold State.abortSq
  split
  · rename_i w1 w2
    assumption
  · rename_i w3 w4 w5
    extract_lets +onlyGivenNames x6; try clear_value x6
    extract_lets +onlyGivenNames x7
    have h8 : Good og (x7) := by
      subst x7
      refine good_foldl ?_ (fun s9 y10 h11 => ?_)
      · assumption
      · exact State.stageEntry_good ‹_›
    try clear_value x7
    refine good_foldl ?_ (fun s12 y13 h14 => ?_)
    · assumption
    · refine good_ite ?_ ?_
      · exact State.modEntry_good ‹_›
      · exact State.finish_good ‹_›

theorem State.endRings_good {og : Origin} {a1 : State} {a2 : Nat} {a3 : List (Nat × List Byte)} (h1 : Good og (a1)) :
    Good og (@State.endRings a1 a2 a3) := by
  unfold State.endRings
  extract_lets +onlyGivenNames x1
  have h2 : Good og (x1) := by
    subst x1
    refine good_foldl ?_ (fun s3 y4 h5 => ?_)
    · assumption
    · exact State.abortSq_good ‹_›
  try clear_value x1
  extract_lets +onlyGivenNames x6
  have h7 : Good og (x6) := by
    subst x6
    refine good_foldl ?_ (fun s8 y9 h10 => ?_)
    · assumption
    · refine good_times ?_ (fun s11 h12 => ?_)
      · assumption
      · exact State.recordWrite_good ‹_›
  try clear_value x6
  extract_lets +onlyGivenNames x13; try clear_value x13
  extract_lets +onlyGivenNames x14; try clear_value x14
  extract_lets +onlyGivenNames x15
  have h16 : Good og (x15) := by subst x15; exact good_mk ‹_› rfl rfl rfl rfl rfl rfl rfl
  try clear_value x15
  exact State.closeAborts_good (State.showHalted_good (State.modTenant_good ‹_›))

theorem State.dropSources_good {og : Origin} {a1 : State} {a2 : Nat} (h1 : Good og (a1)) :
    Good og (@State.dropSources a1 a2) := by
  unfold State.dropSources
  extract_lets +onlyGivenNames x1; try clear_value x1
  extract_lets +onlyGivenNames x2
  have h3 : Good og (x2) := by
    subst x2
    refine good_foldl ?_ (fun s4 y5 h6 => ?_)
    · assumption
    · extract_lets +onlyGivenNames x7
      try clear_value x7
      exact State.setReg_good (State.unpend_good (State.setReg_good ‹_›))
  try clear_value x2
  exact State.dropHeld_good ‹_›

theorem State.releaseTenant_good {og : Origin} {a1 : State} {a2 : Nat} (h1 : Good og (a1)) :
    Good og (@State.releaseTenant a1 a2) := by
  unfold State.releaseTenant
  extract_lets +onlyGivenNames x1; try clear_value x1
  extract_lets +onlyGivenNames x2
  have h3 : Good og (x2) := by subst x2; exact good_mk ‹_› rfl rfl rfl rfl rfl rfl rfl
  try clear_value x2
  extract_lets +onlyGivenNames x4
  have h5 : Good og (x4) := by
    subst x4
    refine good_foldl ?_ (fun s6 y7 h8 => ?_)
    · assumption
    · exact State.removeTensor_good ‹_›
  try clear_value x4
  extract_lets +onlyGivenNames x9
  have h10 : Good og (x9) := by subst x9; exact State.mapIso_good ‹_›
  try clear_value x9
  extract_lets +onlyGivenNames x11
  subst x11
  extract_lets +onlyGivenNames x12
  have h13 : Good og (x12) := by subst x12; exact good_mk ‹_› rfl rfl rfl rfl rfl rfl rfl
  try clear_value x12
  extract_lets +onlyGivenNames x14
  have h15 : Good og (x14) := by subst x14; exact State.passAll_good (State.retire_good (State.freeTables_good (State.markAll_good ‹_›)))
  try clear_value x14
  extract_lets +onlyGivenNames x16
  have h17 : Good og (x16) := by subst x16; exact State.setReg_good (State.setReg_good ‹_›)
  try clear_value x16
  extract_lets +onlyGivenNames x18
  have h19 : Good og (x18) := by subst x18; exact State.setReg_good (State.setReg_good ‹_›)
  try clear_value x18
  extract_lets +onlyGivenNames x20
  have h21 : Good og (x20) := by subst x20; exact State.setReg_good ‹_›
  try clear_value x20
  extract_lets +onlyGivenNames x22
  have h23 : Good og (x22) := by
    subst x22
    refine good_foldl ?_ (fun s24 y25 h26 => ?_)
    · assumption
    · exact State.setReg_good ‹_›
  try clear_value x22
  extract_lets +onlyGivenNames x27; try clear_value x27
  extract_lets +onlyGivenNames x28
  have h29 : Good og (x28) := by subst x28; exact good_mk ‹_› rfl rfl rfl rfl rfl rfl rfl
  try clear_value x28
  exact State.wr_good ‹_›

theorem State.tenantReset_good {og : Origin} {a1 : State} {a2 : Entry} {a3 : List (Nat × List Byte)} (h1 : Good og (a1)) :
    Good og (@State.tenantReset a1 a2 a3) := by
  unfold State.tenantReset
  extract_lets +onlyGivenNames x1; try clear_value x1
  refine good_ite ?_ ?_
  · exact State.adminEnd_good ‹_›
  · refine good_ite ?_ ?_
    · exact State.adminEnd_good ‹_›
    · extract_lets +onlyGivenNames x2
      have h3 : Good og (x2) := by subst x2; exact State.writeStatusBlock_good (State.wr_good ‹_›)
      try clear_value x2
      extract_lets +onlyGivenNames x4
      have h5 : Good og (x4) := by subst x4; exact State.dropXfers_good (State.tearDomain_good (State.loseWaits_good (State.loseSlots_good ‹_›)))
      try clear_value x4
      extract_lets +onlyGivenNames x6
      have h7 : Good og (x6) := by subst x6; exact State.dropSources_good (State.endRings_good (State.stopWork_good ‹_›))
      try clear_value x6
      extract_lets +onlyGivenNames x8
      have h9 : Good og (x8) := by subst x8; exact State.wr_good (State.releaseTenant_good ‹_›)
      try clear_value x8
      extract_lets +onlyGivenNames x10
      have h11 : Good og (x10) := by subst x10; exact State.setEvent_good (State.writeStatusBlock_good ‹_›)
      try clear_value x10
      extract_lets +onlyGivenNames x12
      have h13 : Good og (x12) := by subst x12; exact State.setReg_good (State.setTenant_good ‹_›)
      try clear_value x12
      exact State.adminEnd_good (State.planPins_good (State.orderTenants_good ‹_›))

theorem execTenantReset_good {og : Origin} {a1 : List (RingId × List Byte)} {a2 : State} (h2 : Good og (a2)) :
    GoodOut og (@execTenantReset a1 a2) := by
  unfold execTenantReset
  refine goodOut_next ?_
  refine good_ite ?_ ?_
  · refine State.runAdmin_good ?_ ?_
    · assumption
    · intro v1 v2 v3
      exact State.tenantReset_good ‹_›
  · assumption

end Sys2Proof.Machine
end

