-- ==== Sys2Proof/Laws/Keep/Checks.lean ====
section
/-! SUPPORT. What the operations of Machine/Checks.lean keep. -/

namespace Sys2Proof.Machine

theorem State.setChk_good {og : Origin} {a1 : State} {a2 : Nat} {a3 : Chk} (h1 : Good og (a1)) :
    Good og (@State.setChk a1 a2 a3) := by
  unfold State.setChk
  exact State.wr_good (good_mk ‹_› rfl rfl rfl rfl rfl rfl rfl)

theorem State.assignOwner_good {og : Origin} {a1 : State} {a2 : CheckId} {a3 : BitVec 2} (h1 : Good og (a1)) :
    Good og (@State.assignOwner a1 a2 a3) := by
  unfold State.assignOwner
  refine good_ite ?_ ?_
  · exact State.wr_good ‹_›
  · assumption

theorem execCheckOwnerAssign_good {og : Origin} {a1 : CheckId} {a2 : BitVec 2} {a3 : State} (h3 : Good og (a3)) :
    GoodOut og (@execCheckOwnerAssign a1 a2 a3) := by
  unfold execCheckOwnerAssign
  exact goodOut_next (State.assignOwner_good ‹_›)

theorem State.ctrlOwner_good {og : Origin} {a1 : State} {a2 : Agent} {a3 : CheckId} {a4 : Word} (h1 : Good og (a1)) :
    Good og (@State.ctrlOwner a1 a2 a3 a4) := by
  unfold State.ctrlOwner
  split
  · rename_i w1 w2
    exact State.assignOwner_good ‹_›
  · rename_i w3 w4
    assumption

theorem State.strayWaiting_good {og : Origin} {a1 : State} {a2 : Nat} (h1 : Good og (a1)) :
    Good og (@State.strayWaiting a1 a2) := by
  unfold State.strayWaiting
  refine good_ite ?_ ?_
  · assumption
  · exact State.wr_good ‹_›

theorem State.abortUnit_good {og : Origin} {a1 : State} {a2 : Nat} (h1 : Good og (a1)) :
    Good og (@State.abortUnit a1 a2) := by
  unfold State.abortUnit
  exact State.wr_good (State.setChk_good (State.strayWaiting_good ‹_›))

theorem State.checkStart_good {og : Origin} {a1 : State} {a2 : Agent} {a3 : CheckId} {a4 : Word} (h1 : Good og (a1)) :
    Good og (@State.checkStart a1 a2 a3 a4) := by
  unfold State.checkStart
  refine good_ite ?_ ?_
  · exact State.ctrlOwner_good ‹_›
  · refine good_ite ?_ ?_
    · assumption
    · extract_lets +onlyGivenNames x1
      have h2 : Good og (x1) := by subst x1; exact State.ctrlOwner_good ‹_›
      try clear_value x1
      extract_lets +onlyGivenNames x3
      have h4 : Good og (x3) := by subst x3; exact State.setReg_good ‹_›
      try clear_value x3
      refine good_ite ?_ ?_
      · exact State.abortUnit_good ‹_›
      · refine good_ite ?_ ?_
        · exact State.wr_good ‹_›
        · extract_lets +onlyGivenNames x5
          try clear_value x5
          extract_lets +onlyGivenNames x6; try clear_value x6
          extract_lets +onlyGivenNames x7; try clear_value x7
          extract_lets +onlyGivenNames x8
          have h9 : Good og (x8) := by subst x8; exact State.setChk_good ‹_›
          try clear_value x8
          extract_lets +onlyGivenNames x10
          have h11 : Good og (x10) := by subst x10; exact State.setReg_good (State.setReg_good ‹_›)
          try clear_value x10
          exact State.count_good (State.wr_good (State.wr_good ‹_›))

theorem execCheckStart_good {og : Origin} {a1 : Agent} {a2 : CheckId} {a3 : Word} {a4 : State} (h4 : Good og (a4)) :
    GoodOut og (@execCheckStart a1 a2 a3 a4) := by
  unfold execCheckStart
  exact goodOut_next (State.checkStart_good ‹_›)

theorem State.checkFinish_good {og : Origin} {a1 : State} {a2 : Agent} {a3 : CheckId} (h1 : Good og (a1)) :
    Good og (@State.checkFinish a1 a2 a3) := by
  unfold State.checkFinish
  refine good_ite ?_ ?_
  · exact State.setChk_good ‹_›
  · assumption

theorem execCheckFinish_good {og : Origin} {a1 : Agent} {a2 : CheckId} {a3 : State} (h3 : Good og (a3)) :
    GoodOut og (@execCheckFinish a1 a2 a3) := by
  unfold execCheckFinish
  exact goodOut_next (State.checkFinish_good ‹_›)

theorem State.checkAbort_good {og : Origin} {a1 : State} {a2 : Agent} {a3 : CheckId} (h1 : Good og (a1)) :
    Good og (@State.checkAbort a1 a2 a3) := by
  unfold State.checkAbort
  refine good_ite ?_ ?_
  · exact State.abortUnit_good ‹_›
  · assumption

theorem execCheckAbort_good {og : Origin} {a1 : Agent} {a2 : CheckId} {a3 : State} (h3 : Good og (a3)) :
    GoodOut og (@execCheckAbort a1 a2 a3) := by
  unfold execCheckAbort
  exact goodOut_next (State.checkAbort_good ‹_›)

theorem execFeedB_good {og : Origin} {a1 : Agent} {a2 : CheckId} {a3 : Byte} {a4 : State} (h4 : Good og (a4)) :
    GoodOut og (@execFeedB a1 a2 a3 a4) := by
  unfold execFeedB
  exact goodOut_next (State.feed_good ‹_›)

theorem execFeedH_good {og : Origin} {a1 : Agent} {a2 : CheckId} {a3 : Word} {a4 : State} (h4 : Good og (a4)) :
    GoodOut og (@execFeedH a1 a2 a3 a4) := by
  unfold execFeedH
  exact goodOut_next (State.feed_good ‹_›)

theorem execFeedW_good {og : Origin} {a1 : Agent} {a2 : CheckId} {a3 : DWord} {a4 : State} (h4 : Good og (a4)) :
    GoodOut og (@execFeedW a1 a2 a3 a4) := by
  unfold execFeedW
  exact goodOut_next (State.feed_good (State.touch_good ‹_›))

theorem State.checkFeedProcess_good {og : Origin} {a1 : State} {a2 : CheckId} (h1 : Good og (a1)) :
    Good og (@State.checkFeedProcess a1 a2) := by
  unfold State.checkFeedProcess
  extract_lets +onlyGivenNames x1; try clear_value x1
  split
  · rename_i w2 w3
    assumption
  · rename_i w4 w5 w6 w7
    refine good_ite ?_ ?_
    · exact State.wr_good (State.setChk_good ‹_›)
    · extract_lets +onlyGivenNames x8
      try clear_value x8
      extract_lets +onlyGivenNames x9; try clear_value x9
      refine good_ite ?_ ?_
      · extract_lets +onlyGivenNames x10
        have h11 : Good og (x10) := by subst x10; exact State.wr_good (State.setChk_good (State.strayWaiting_good ‹_›))
        try clear_value x10
        exact State.event_good (State.raise_good ‹_›)
      · exact State.count_good (State.setReg_good (State.setChk_good ‹_›))

theorem execCheckFeedProcess_good {og : Origin} {a1 : CheckId} {a2 : State} (h2 : Good og (a2)) :
    GoodOut og (@execCheckFeedProcess a1 a2) := by
  unfold execCheckFeedProcess
  exact goodOut_next (State.checkFeedProcess_good ‹_›)

theorem State.checkComplete_good {og : Origin} {a1 : State} {a2 : CheckId} (h1 : Good og (a1)) :
    Good og (@State.checkComplete a1 a2) := by
  unfold State.checkComplete
  refine good_ite ?_ ?_
  · assumption
  · extract_lets +onlyGivenNames x1
    try clear_value x1
    extract_lets +onlyGivenNames x2; try clear_value x2
    extract_lets +onlyGivenNames x3
    have h4 : Good og (x3) := by subst x3; exact State.setChk_good (State.setReg_good ‹_›)
    try clear_value x3
    refine good_ite ?_ ?_
    · extract_lets +onlyGivenNames x5
      have h6 : Good og (x5) := by subst x5; exact State.setEvent_good (State.wr_good ‹_›)
      try clear_value x5
      exact State.count_good (State.event_good (State.raise_good ‹_›))
    · extract_lets +onlyGivenNames x7
      have h8 : Good og (x7) := by subst x7; exact State.wr_good ‹_›
      try clear_value x7
      refine good_ite ?_ ?_
      · exact State.raise_good ‹_›
      · assumption

theorem execCheckComplete_good {og : Origin} {a1 : CheckId} {a2 : State} (h2 : Good og (a2)) :
    GoodOut og (@execCheckComplete a1 a2) := by
  unfold execCheckComplete
  exact goodOut_next (State.checkComplete_good ‹_›)

end Sys2Proof.Machine
end

