-- ==== Sys2Proof/Laws/Keep/FabLink.lean ====
section
/-! SUPPORT. What the operations of Machine/FabLink.lean keep. -/

namespace Sys2Proof.Machine

theorem State.authFail_good {og : Origin} {a1 : State} {a2 : Nat} {a3 : Nat} (h1 : Good og (a1)) :
    Good og (@State.authFail a1 a2 a3) := by
  unfold State.authFail
  extract_lets +onlyGivenNames x1
  have h2 : Good og (x1) := by
    subst x1
    refine good_ite ?_ ?_
    · exact State.emit_good ‹_›
    · assumption
  try clear_value x1
  extract_lets +onlyGivenNames x3
  have h4 : Good og (x3) := by subst x3; exact State.setEvent_good (State.setEvent_good ‹_›)
  try clear_value x3
  exact State.portTo_good (State.event_good ‹_›)

theorem State.authStart_good {og : Origin} {a1 : State} {a2 : Nat} (h1 : Good og (a1)) :
    Good og (@State.authStart a1 a2) := by
  unfold State.authStart
  extract_lets +onlyGivenNames x1
  have h2 : Good og (x1) := by subst x1; exact State.portTo_good ‹_›
  try clear_value x1
  extract_lets +onlyGivenNames x3; try clear_value x3
  refine good_ite ?_ ?_
  · exact State.authFail_good ‹_›
  · refine good_ite ?_ ?_
    · exact State.authFail_good ‹_›
    · extract_lets +onlyGivenNames x4
      try clear_value x4
      extract_lets +onlyGivenNames x5
      have h6 : Good og (x5) := by subst x5; exact State.modPort_good ‹_›
      try clear_value x5
      exact State.drawn_good (State.emit_good ‹_›)

theorem State.putAuth_good {og : Origin} {a1 : State} {a2 : Nat} {a3 : AuthX} (h1 : Good og (a1)) :
    Good og (@State.putAuth a1 a2 a3) := by
  unfold State.putAuth
  exact State.modPort_good ‹_›

theorem State.authFragment_good {og : Origin} {a1 : State} {a2 : Nat} {a3 : List Byte} (h1 : Good og (a1)) :
    Good og (@State.authFragment a1 a2 a3) := by
  unfold State.authFragment
  split
  · rename_i w1 w2
    assumption
  · rename_i w3 w4 w5
    refine good_ite ?_ ?_
    · assumption
    · refine good_ite ?_ ?_
      · exact State.authFail_good ‹_›
      · exact State.putAuth_good ‹_›

theorem execAuthFragment_good {og : Origin} {a1 : PortId} {a2 : List Byte} {a3 : State} (h3 : Good og (a3)) :
    GoodOut og (@execAuthFragment a1 a2 a3) := by
  unfold execAuthFragment
  exact goodOut_next (State.authFragment_good ‹_›)

theorem State.authFrame_good {og : Origin} {a1 : State} {a2 : Nat} {a3 : Nat} {a4 : State → AuthX → State} (h1 : Good og (a1)) (h4 : ∀ b1 b2, Good og (b1) → Good og (a4 b1 b2)) :
    Good og (@State.authFrame a1 a2 a3 a4) := by
  unfold State.authFrame
  split
  · rename_i w1 w2
    assumption
  · rename_i w3 w4 w5
    refine good_ite ?_ ?_
    · exact h4 _ _ (State.putAuth_good ‹_›)
    · assumption

theorem State.swHello_good {og : Origin} {a1 : State} {a2 : Nat} {a3 : Bool} {a4 : Bool} (h1 : Good og (a1)) :
    Good og (@State.swHello a1 a2 a3 a4) := by
  unfold State.swHello
  refine State.authFrame_good ?_ ?_
  · assumption
  · intro v1 v2 v3
    refine good_ite ?_ ?_
    · exact State.authFail_good ‹_›
    · refine good_ite ?_ ?_
      · exact State.authFail_good ‹_›
      · refine good_ite ?_ ?_
        · exact State.authFail_good ‹_›
        · refine good_ite ?_ ?_
          · exact State.authFail_good ‹_›
          · extract_lets +onlyGivenNames x4
            try clear_value x4
            extract_lets +onlyGivenNames x5
            have h6 : Good og (x5) := by subst x5; exact State.putAuth_good (State.drawn_good ‹_›)
            try clear_value x5
            exact State.takeIndex_good ‹_›

theorem execSwHello_good {og : Origin} {a1 : PortId} {a2 : Bool} {a3 : Bool} {a4 : State} (h4 : Good og (a4)) :
    GoodOut og (@execSwHello a1 a2 a3 a4) := by
  unfold execSwHello
  refine goodOut_next ?_
  refine good_ite ?_ ?_
  · exact State.swHello_good ‹_›
  · assumption

theorem State.swDone_good {og : Origin} {a1 : State} {a2 : Nat} (h1 : Good og (a1)) :
    Good og (@State.swDone a1 a2) := by
  unfold State.swDone
  refine State.authFrame_good ?_ ?_
  · assumption
  · intro v1 v2 v3
    refine good_ite ?_ ?_
    · exact State.authFail_good ‹_›
    · refine good_ite ?_ ?_
      · exact State.authFail_good ‹_›
      · exact State.portTo_good ‹_›

theorem execSwDone_good {og : Origin} {a1 : PortId} {a2 : State} (h2 : Good og (a2)) :
    GoodOut og (@execSwDone a1 a2) := by
  unfold execSwDone
  exact goodOut_next (State.swDone_good ‹_›)

theorem execAuthAbort_good {og : Origin} {a1 : PortId} {a2 : State} (h2 : Good og (a2)) :
    GoodOut og (@execAuthAbort a1 a2) := by
  unfold execAuthAbort
  refine goodOut_next ?_
  refine State.authFrame_good ?_ ?_
  · assumption
  · intro v1 v2 v3
    exact State.authFail_good ‹_›

theorem execAuthTimeout_good {og : Origin} {a1 : PortId} {a2 : State} (h2 : Good og (a2)) :
    GoodOut og (@execAuthTimeout a1 a2) := by
  unfold execAuthTimeout
  refine goodOut_next ?_
  refine good_ite ?_ ?_
  · exact State.authFail_good ‹_›
  · assumption

theorem State.portTrained_good {og : Origin} {a1 : State} {a2 : Nat} {a3 : TrainResult} (h1 : Good og (a1)) :
    Good og (@State.portTrained a1 a2 a3) := by
  unfold State.portTrained
  extract_lets +onlyGivenNames x1; try clear_value x1
  refine good_ite ?_ ?_
  · assumption
  · extract_lets +onlyGivenNames x2
    have h3 : Good og (x2) := by
      subst x2
      refine good_ite ?_ ?_
      · exact State.portTo_good ‹_›
      · assumption
    try clear_value x2
    split
    · rename_i w4
      exact State.authStart_good (State.wr_good ‹_›)
    · rename_i w5 w6
      exact State.authStart_good (State.wr_good ‹_›)
    · rename_i w7
      exact State.portTo_good ‹_›

theorem execPortTrainingEnd_good {og : Origin} {a1 : PortId} {a2 : TrainResult} {a3 : State} (h3 : Good og (a3)) :
    GoodOut og (@execPortTrainingEnd a1 a2 a3) := by
  unfold execPortTrainingEnd
  exact goodOut_next (State.portTrained_good ‹_›)

theorem State.fabRestart_good {og : Origin} {a1 : State} (h1 : Good og (a1)) :
    Good og (@State.fabRestart a1) := by
  unfold State.fabRestart
  exact State.resetBlock_good (good_mk ‹_› rfl rfl rfl rfl rfl rfl rfl)

theorem State.fabricReady_good {og : Origin} {a1 : State} (h1 : Good og (a1)) :
    Good og (@State.fabricReady a1) := by
  unfold State.fabricReady
  refine good_ite ?_ ?_
  · assumption
  · refine good_foldl ?_ (fun s1 y2 h3 => ?_)
    · exact State.wr_good ‹_›
    · exact State.portTo_good ‹_›

theorem execFabricReady_good {og : Origin} {a1 : State} (h1 : Good og (a1)) :
    GoodOut og (@execFabricReady a1) := by
  unfold execFabricReady
  exact goodOut_next (State.fabricReady_good ‹_›)

theorem State.linkAck_good {og : Origin} {a1 : State} {a2 : Nat} {a3 : Nat} (h1 : Good og (a1)) :
    Good og (@State.linkAck a1 a2 a3) := by
  unfold State.linkAck
  extract_lets +onlyGivenNames x1; try clear_value x1
  extract_lets +onlyGivenNames x2; try clear_value x2
  refine good_ite ?_ ?_
  · assumption
  · extract_lets +onlyGivenNames x3
    try clear_value x3
    extract_lets +onlyGivenNames x4; try clear_value x4
    extract_lets +onlyGivenNames x5
    have h6 : Good og (x5) := by subst x5; exact State.modPort_good ‹_›
    try clear_value x5
    extract_lets +onlyGivenNames x7
    have h8 : Good og (x7) := by subst x7; exact State.drainTx_good ‹_›
    try clear_value x7
    refine good_foldl ?_ (fun s9 y10 h11 => ?_)
    · assumption
    · split
      · rename_i w12 w13 w14
        exact State.endReq_good ‹_›
      · rename_i w15 w16
        assumption

theorem State.replay_good {og : Origin} {a1 : State} {a2 : Nat} (h1 : Good og (a1)) :
    Good og (@State.replay a1 a2) := by
  unfold State.replay
  extract_lets +onlyGivenNames x1
  have h2 : Good og (x1) := by subst x1; exact State.count_good (State.addSat_good ‹_›)
  try clear_value x1
  extract_lets +onlyGivenNames x3; try clear_value x3
  extract_lets +onlyGivenNames x4
  have h5 : Good og (x4) := by subst x4; exact State.modPort_good (State.drawn_good ‹_›)
  try clear_value x4
  refine good_ite ?_ ?_
  · exact State.retrain_good ‹_›
  · refine good_foldl ?_ (fun s6 y7 h8 => ?_)
    · assumption
    · exact State.sendFlit_good ‹_›

theorem State.enqueue_good {og : Origin} {a1 : Nat} {a2 : State} {a3 : List Byte} (h2 : Good og (a2)) :
    Good og (@State.enqueue a1 a2 a3) := by
  unfold State.enqueue
  extract_lets +onlyGivenNames x1; try clear_value x1
  refine good_ite ?_ ?_
  · exact State.modPort_good ‹_›
  · refine good_ite ?_ ?_
    · exact State.owe_good ‹_›
    · refine good_ite ?_ ?_
      · exact State.modPort_good ‹_›
      · refine good_ite ?_ ?_
        · exact State.owe_good (State.modPort_good ‹_›)
        · exact State.owe_good ‹_›

theorem State.takePackets_good {og : Origin} {a1 : State} {a2 : Nat} {a3 : List Byte} (h1 : Good og (a1)) :
    Good og (@State.takePackets a1 a2 a3) := by
  unfold State.takePackets
  extract_lets +onlyGivenNames x1; try clear_value x1
  extract_lets +onlyGivenNames x2; try clear_value x2
  refine good_foldl ?_ (fun s3 y4 h5 => ?_)
  · exact State.modPort_good ‹_›
  · exact State.enqueue_good ‹_›

theorem State.sendNak_good {og : Origin} {a1 : State} {a2 : Nat} (h1 : Good og (a1)) :
    Good og (@State.sendNak a1 a2) := by
  unfold State.sendNak
  exact State.emit_good ‹_›

theorem State.linkField_good {og : Origin} {a1 : State} {a2 : Nat} {a3 : Flit} (h1 : Good og (a1)) :
    Good og (@State.linkField a1 a2 a3) := by
  unfold State.linkField
  extract_lets +onlyGivenNames x1
  have h2 : Good og (x1) := by subst x1; exact State.linkAck_good ‹_›
  try clear_value x1
  refine good_ite ?_ ?_
  · refine good_ite ?_ ?_
    · exact State.replay_good ‹_›
    · assumption
  · exact State.modPort_good ‹_›

theorem State.flitReceive_good {og : Origin} {a1 : State} {a2 : Nat} {a3 : Flit} (h1 : Good og (a1)) :
    Good og (@State.flitReceive a1 a2 a3) := by
  unfold State.flitReceive
  extract_lets +onlyGivenNames x1; try clear_value x1
  refine good_ite ?_ ?_
  · assumption
  · extract_lets +onlyGivenNames x2
    have h3 : Good og (x2) := by subst x2; exact State.count_good ‹_›
    try clear_value x2
    extract_lets +onlyGivenNames x4; try clear_value x4
    refine good_ite ?_ ?_
    · exact State.sendNak_good ‹_›
    · extract_lets +onlyGivenNames x5
      have h6 : Good og (x5) := by
        subst x5
        refine good_ite ?_ ?_
        · assumption
        · exact State.count_good (State.addSat_good ‹_›)
      try clear_value x5
      extract_lets +onlyGivenNames x7; try clear_value x7
      refine good_ite ?_ ?_
      · extract_lets +onlyGivenNames x8
        have h9 : Good og (x8) := by subst x8; exact State.linkField_good (State.modPort_good ‹_›)
        try clear_value x8
        refine good_ite ?_ ?_
        · exact State.takePackets_good ‹_›
        · assumption
      · refine good_ite ?_ ?_
        · assumption
        · exact State.sendNak_good ‹_›

theorem execFlitReceive_good {og : Origin} {a1 : PortId} {a2 : Flit} {a3 : State} (h3 : Good og (a3)) :
    GoodOut og (@execFlitReceive a1 a2 a3) := by
  unfold execFlitReceive
  exact goodOut_next (State.flitReceive_good ‹_›)

end Sys2Proof.Machine
end

