-- ==== Sys2Proof/Laws/Keep/HostLink.lean ====
section
/-! SUPPORT. What the operations of Machine/HostLink.lean keep. -/

namespace Sys2Proof.Machine

theorem State.bar4Access_good {og : Origin} {a1 : State} {a2 : Nat} {a3 : Bool} {a4 : List Byte} (h1 : Good og (a1)) :
    Good og (@State.bar4Access a1 a2 a3 a4) := by
  unfold State.bar4Access
  extract_lets +onlyGivenNames x1; try clear_value x1
  refine good_ite ?_ ?_
  · exact good_mk ‹_› rfl rfl rfl rfl rfl rfl rfl
  · refine good_ite ?_ ?_
    · exact good_mk ‹_› rfl rfl rfl rfl rfl rfl rfl
    · refine good_ite ?_ ?_
      · extract_lets +onlyGivenNames x2
        subst x2
        exact good_mk (State.setEvent_good ‹_›) rfl rfl rfl rfl rfl rfl rfl
      · refine good_ite ?_ ?_
        · extract_lets +onlyGivenNames x3
          subst x3
          exact good_mk (State.write_good ‹_›) rfl rfl rfl rfl rfl rfl rfl
        · refine good_ite ?_ ?_
          · extract_lets +onlyGivenNames x4
            subst x4
            exact good_mk (State.drawn_good ‹_›) rfl rfl rfl rfl rfl rfl rfl
          · extract_lets +onlyGivenNames x5
            subst x5
            exact good_mk (State.readAs_good ‹_›) rfl rfl rfl rfl rfl rfl rfl

theorem execBar4Access_good {og : Origin} {a1 : Nat} {a2 : Bool} {a3 : List Byte} {a4 : State} (h4 : Good og (a4)) :
    GoodOut og (@execBar4Access a1 a2 a3 a4) := by
  unfold execBar4Access
  exact goodOut_next (State.bar4Access_good ‹_›)

theorem execConfigRetryEnd_good {og : Origin} {a1 : State} (h1 : Good og (a1)) :
    GoodOut og (@execConfigRetryEnd a1) := by
  unfold execConfigRetryEnd
  refine goodOut_next ?_
  refine good_ite ?_ ?_
  · exact State.emit_good (good_mk ‹_› rfl rfl rfl rfl rfl rfl rfl)
  · assumption

theorem State.hostLinkUp_good {og : Origin} {a1 : State} {a2 : Nat} {a3 : Nat} {a4 : Bool} (h1 : Good og (a1)) :
    Good og (@State.hostLinkUp a1 a2 a3 a4) := by
  unfold State.hostLinkUp
  refine good_ite ?_ ?_
  · assumption
  · extract_lets +onlyGivenNames x1
    try clear_value x1
    extract_lets +onlyGivenNames x2
    have h3 : Good og (x2) := by subst x2; exact good_mk ‹_› rfl rfl rfl rfl rfl rfl rfl
    try clear_value x2
    exact State.wr_good (State.wr_good (State.wr_good (State.wr_good ‹_›)))

theorem execHostLinkUp_good {og : Origin} {a1 : BitVec 2} {a2 : BitVec 3} {a3 : Bool} {a4 : State} (h4 : Good og (a4)) :
    GoodOut og (@execHostLinkUp a1 a2 a3 a4) := by
  unfold execHostLinkUp
  exact goodOut_next (State.hostLinkUp_good ‹_›)

theorem State.hostLinkDown_good {og : Origin} {a1 : State} (h1 : Good og (a1)) :
    Good og (@State.hostLinkDown a1) := by
  unfold State.hostLinkDown
  refine good_ite ?_ ?_
  · assumption
  · extract_lets +onlyGivenNames x1
    try clear_value x1
    extract_lets +onlyGivenNames x2
    have h3 : Good og (x2) := by subst x2; exact good_mk ‹_› rfl rfl rfl rfl rfl rfl rfl
    try clear_value x2
    extract_lets +onlyGivenNames x4
    have h5 : Good og (x4) := by subst x4; exact State.wr_good (State.wr_good (State.wr_good (State.wr_good ‹_›)))
    try clear_value x4
    exact State.setEvent_good ‹_›

theorem execHostLinkDown_good {og : Origin} {a1 : State} (h1 : Good og (a1)) :
    GoodOut og (@execHostLinkDown a1) := by
  unfold execHostLinkDown
  exact goodOut_next (State.hostLinkDown_good ‹_›)

theorem State.linkHoldExpiry_good {og : Origin} {a1 : State} (h1 : Good og (a1)) :
    Good og (@State.linkHoldExpiry a1) := by
  unfold State.linkHoldExpiry
  refine good_ite ?_ ?_
  · assumption
  · extract_lets +onlyGivenNames x1
    try clear_value x1
    extract_lets +onlyGivenNames x2
    have h3 : Good og (x2) := by subst x2; exact good_mk ‹_› rfl rfl rfl rfl rfl rfl rfl
    try clear_value x2
    exact State.lostEnd_good (State.dueAll_good (State.healthInput_good (State.event_good ‹_›)))

theorem execLinkHoldExpiry_good {og : Origin} {a1 : State} (h1 : Good og (a1)) :
    GoodOut og (@execLinkHoldExpiry a1) := by
  unfold execLinkHoldExpiry
  exact goodOut_next (State.linkHoldExpiry_good ‹_›)

theorem State.pcieReset_good {og : Origin} {a1 : State} {a2 : Straps} (h1 : Good og (a1)) :
    Good og (@State.pcieReset a1 a2) := by
  unfold State.pcieReset
  refine good_ite ?_ ?_
  · exact State.startClocks_good (State.deviceReset_good (State.finishRecords_good ‹_›))
  · assumption

theorem execPcieReset_good {og : Origin} {a1 : PcieReset} {a2 : Straps} {a3 : State} (h3 : Good og (a3)) :
    GoodOut og (@execPcieReset a1 a2 a3) := by
  unfold execPcieReset
  exact goodOut_next (State.pcieReset_good ‹_›)

end Sys2Proof.Machine
end

