-- ==== Sys2Proof/Laws/Keep/KeeperMem.lean ====
section
/-! SUPPORT. What the operations of Machine/KeeperMem.lean keep. -/

namespace Sys2Proof.Machine

theorem State.certGet_good {og : Origin} {a1 : State} {a2 : Bool} {a3 : List Byte} (h1 : Good og (a1)) :
    Good og (@State.certGet a1 a2 a3) := by
  unfold State.certGet
  extract_lets +onlyGivenNames x1; try clear_value x1
  extract_lets +onlyGivenNames x2; try clear_value x2
  refine good_ite ?_ ?_
  · exact State.mbxFinish_good (State.setEvent_good ‹_›)
  · extract_lets +onlyGivenNames x3
    have h4 : Good og (x3) := by
      subst x3
      refine good_ite ?_ ?_
      · exact State.hostWrite_good ‹_›
      · exact State.write_good ‹_›
    try clear_value x3
    exact State.mbxFinish_good ‹_›

theorem execCertGet_good {og : Origin} {a1 : State} (h1 : Good og (a1)) :
    GoodOut og (@execCertGet a1) := by
  unfold execCertGet
  refine goodOut_next ?_
  refine State.mbxDo_good ?_ ?_
  · assumption
  · intro v1 v2 v3 v4
    exact State.certGet_good ‹_›

theorem State.grant_good {og : Origin} {a1 : State} {a2 : List Byte} (h1 : Good og (a1)) :
    Good og (@State.grant a1 a2) := by
  unfold State.grant
  extract_lets +onlyGivenNames x1; try clear_value x1
  extract_lets +onlyGivenNames x2; try clear_value x2
  extract_lets +onlyGivenNames x3; try clear_value x3
  extract_lets +onlyGivenNames x4; try clear_value x4
  refine good_ite ?_ ?_
  · exact State.mbxFinish_good ‹_›
  · refine good_ite ?_ ?_
    · exact State.mbxFinish_good ‹_›
    · refine good_ite ?_ ?_
      · exact State.mbxFinish_good (State.grantFrames_good ‹_›)
      · exact State.mbxFinish_good ‹_›

theorem execGrant_good {og : Origin} {a1 : State} (h1 : Good og (a1)) :
    GoodOut og (@execGrant a1) := by
  unfold execGrant
  refine goodOut_next ?_
  refine State.mbxDo_good ?_ ?_
  · assumption
  · intro v1 v2 v3 v4
    exact State.grant_good ‹_›

theorem State.revoke_good {og : Origin} {a1 : State} {a2 : List Byte} (h1 : Good og (a1)) :
    Good og (@State.revoke a1 a2) := by
  unfold State.revoke
  extract_lets +onlyGivenNames x1; try clear_value x1
  extract_lets +onlyGivenNames x2; try clear_value x2
  extract_lets +onlyGivenNames x3; try clear_value x3
  refine good_ite ?_ ?_
  · exact State.mbxFinish_good ‹_›
  · exact State.mbxFinish_good (State.markAll_good (State.mapIso_good ‹_›))

theorem execRevoke_good {og : Origin} {a1 : State} (h1 : Good og (a1)) :
    GoodOut og (@execRevoke a1) := by
  unfold execRevoke
  refine goodOut_next ?_
  refine State.mbxDo_good ?_ ?_
  · assumption
  · intro v1 v2 v3 v4
    exact State.revoke_good ‹_›

theorem State.wardWrite_good {og : Origin} {a1 : State} {a2 : List Byte} (h1 : Good og (a1)) :
    Good og (@State.wardWrite a1 a2) := by
  unfold State.wardWrite
  extract_lets +onlyGivenNames x1; try clear_value x1
  extract_lets +onlyGivenNames x2; try clear_value x2
  refine good_ite ?_ ?_
  · exact State.mbxFinish_good ‹_›
  · refine good_ite ?_ ?_
    · exact State.mbxFinish_good (State.putWard_good ‹_›)
    · exact State.mbxFinish_good ‹_›

theorem execWardWrite_good {og : Origin} {a1 : State} (h1 : Good og (a1)) :
    GoodOut og (@execWardWrite a1) := by
  unfold execWardWrite
  refine goodOut_next ?_
  refine State.mbxDo_good ?_ ?_
  · assumption
  · intro v1 v2 v3 v4
    exact State.wardWrite_good ‹_›

theorem State.domainSet_good {og : Origin} {a1 : State} {a2 : List Byte} (h1 : Good og (a1)) :
    Good og (@State.domainSet a1 a2) := by
  unfold State.domainSet
  extract_lets +onlyGivenNames x1; try clear_value x1
  extract_lets +onlyGivenNames x2; try clear_value x2
  refine good_ite ?_ ?_
  · exact State.mbxFinish_good ‹_›
  · refine good_ite ?_ ?_
    · exact State.mbxFinish_good ‹_›
    · exact State.mbxFinish_good (State.markAll_good (State.putDomain_good ‹_›))

theorem execDomainSet_good {og : Origin} {a1 : State} (h1 : Good og (a1)) :
    GoodOut og (@execDomainSet a1) := by
  unfold execDomainSet
  refine goodOut_next ?_
  refine State.mbxDo_good ?_ ?_
  · assumption
  · intro v1 v2 v3 v4
    exact State.domainSet_good ‹_›

theorem State.frozenDigest_good {og : Origin} {a1 : State} {a2 : List Byte} (h1 : Good og (a1)) :
    Good og (@State.frozenDigest a1 a2) := by
  unfold State.frozenDigest
  extract_lets +onlyGivenNames x1; try clear_value x1
  refine good_ite ?_ ?_
  · exact State.mbxFinish_good ‹_›
  · extract_lets +onlyGivenNames x2
    try clear_value x2
    exact State.mbxFinish_good (good_mk ‹_› rfl rfl rfl rfl rfl rfl rfl)

theorem execFrozenDigest_good {og : Origin} {a1 : State} (h1 : Good og (a1)) :
    GoodOut og (@execFrozenDigest a1) := by
  unfold execFrozenDigest
  refine goodOut_next ?_
  refine State.mbxDo_good ?_ ?_
  · assumption
  · intro v1 v2 v3 v4
    exact State.frozenDigest_good ‹_›

theorem State.frozenRestore_good {og : Origin} {a1 : State} {a2 : List Byte} (h1 : Good og (a1)) :
    Good og (@State.frozenRestore a1 a2) := by
  unfold State.frozenRestore
  extract_lets +onlyGivenNames x1; try clear_value x1
  extract_lets +onlyGivenNames x2; try clear_value x2
  extract_lets +onlyGivenNames x3; try clear_value x3
  extract_lets +onlyGivenNames x4
  subst x4
  extract_lets +onlyGivenNames x5
  subst x5
  refine good_ite ?_ ?_
  · refine State.mbxFinish_good ?_
    refine good_ite ?_ ?_
    · exact good_mk ‹_› rfl rfl rfl rfl rfl rfl rfl
    · exact good_mk ‹_› rfl rfl rfl rfl rfl rfl rfl
  · exact State.mbxFinish_good (good_mk ‹_› rfl rfl rfl rfl rfl rfl rfl)

theorem execFrozenRestore_good {og : Origin} {a1 : State} (h1 : Good og (a1)) :
    GoodOut og (@execFrozenRestore a1) := by
  unfold execFrozenRestore
  refine goodOut_next ?_
  refine State.mbxDo_good ?_ ?_
  · assumption
  · intro v1 v2 v3 v4
    exact State.frozenRestore_good ‹_›

end Sys2Proof.Machine
end

