-- ==== Sys2Proof/Laws/Keep/Relayout.lean ====
section
/-! SUPPORT. What the operations of Machine/Relayout.lean keep. -/

namespace Sys2Proof.Machine

theorem State.moveAllHeld_good {og : Origin} {a1 : State} {a2 : Nat} (h1 : Good og (a1)) :
    Good og (@State.moveAllHeld a1 a2) := by
  unfold State.moveAllHeld
  refine good_foldl ?_ (fun s1 y2 h3 => ?_)
  · assumption
  · extract_lets +onlyGivenNames x4
    try clear_value x4
    refine good_ite ?_ ?_
    · assumption
    · refine State.tryMove_good ?_ ?_
      · exact State.spillFor_good ‹_›
      · intro v5 v6
        exact State.moveHeld_good ‹_›

theorem State.stageBuffer_good {og : Origin} {a1 : State} (h1 : Good og (a1)) :
    Good og (@State.stageBuffer a1) := by
  unfold State.stageBuffer
  extract_lets +onlyGivenNames x1; try clear_value x1
  extract_lets +onlyGivenNames x2; try clear_value x2
  extract_lets +onlyGivenNames x3; try clear_value x3
  extract_lets +onlyGivenNames x4; try clear_value x4
  refine good_mk_mem ?_ rfl rfl ?_ ?_ ?_ ?_ rfl
  · assumption
  all_goals first | exact fun c => c | exact fun c => putCells_canon c | exact fun c => dropRange_canon c | exact fun c => KMap.canon_set _ _ c | exact fun c => (by dsimp only; exact KMap.canon_set _ _ c) | exact fun c => (by dsimp only; exact KMap.canon_foldl _ _ c) | exact fun c => (by dsimp only; exact KMap.canon_foldl _ _ (dropRange_canon c)) | exact fun _ => ⟨rfl, rfl⟩

theorem State.startRelayout_good {og : Origin} {a1 : State} {a2 : Nat} {a3 : Nat} (h1 : Good og (a1)) :
    Good og (@State.startRelayout a1 a2 a3) := by
  unfold State.startRelayout
  extract_lets +onlyGivenNames x1; try clear_value x1
  extract_lets +onlyGivenNames x2
  have h3 : Good og (x2) := by subst x2; exact State.mapIso_good ‹_›
  try clear_value x2
  extract_lets +onlyGivenNames x4
  have h5 : Good og (x4) := by subst x4; exact State.markAll_good ‹_›
  try clear_value x4
  extract_lets +onlyGivenNames x6
  have h7 : Good og (x6) := by subst x6; exact State.setReg_good ‹_›
  try clear_value x6
  extract_lets +onlyGivenNames x8
  have h9 : Good og (x8) := by subst x8; exact State.buildMap_good ‹_›
  try clear_value x8
  exact State.wr_good (State.stageBuffer_good (good_mk ‹_› rfl rfl rfl rfl rfl rfl rfl))

theorem State.mapoutGo_good {og : Origin} {a1 : State} {a2 : Nat} (h1 : Good og (a1)) :
    Good og (@State.mapoutGo a1 a2) := by
  unfold State.mapoutGo
  extract_lets +onlyGivenNames x1
  have h2 : Good og (x1) := by subst x1; exact State.wr_good ‹_›
  try clear_value x1
  refine good_ite ?_ ?_
  · exact State.channelState_good ‹_›
  · refine good_ite ?_ ?_
    · exact State.setEvent_good ‹_›
    · refine good_ite ?_ ?_
      · assumption
      · extract_lets +onlyGivenNames x3
        try clear_value x3
        extract_lets +onlyGivenNames x4
        have h5 : Good og (x4) := by subst x4; exact State.moveAllHeld_good ‹_›
        try clear_value x4
        refine good_ite ?_ ?_
        · assumption
        · exact State.startRelayout_good ‹_›

theorem execMapoutGo_good {og : Origin} {a1 : Fin 192} {a2 : State} (h2 : Good og (a2)) :
    GoodOut og (@execMapoutGo a1 a2) := by
  unfold execMapoutGo
  exact goodOut_next (State.mapoutGo_good ‹_›)

theorem State.relayoutEnd_good {og : Origin} {a1 : State} {a2 : List Nat} (h1 : Good og (a1)) :
    Good og (@State.relayoutEnd a1 a2) := by
  unfold State.relayoutEnd
  split
  · rename_i w1 w2
    assumption
  · rename_i w3 w4 w5
    extract_lets +onlyGivenNames x6
    subst x6
    extract_lets +onlyGivenNames x7
    have h8 : Good og (x7) := by subst x7; exact State.stageBuffer_good (good_mk ‹_› rfl rfl rfl rfl rfl rfl rfl)
    try clear_value x7
    extract_lets +onlyGivenNames x9
    have h10 : Good og (x9) := by subst x9; exact State.zeroRange_good ‹_›
    try clear_value x9
    extract_lets +onlyGivenNames x11; try clear_value x11
    extract_lets +onlyGivenNames x12
    have h13 : Good og (x12) := by
      subst x12
      refine good_foldl ?_ (fun s14 y15 h16 => ?_)
      · assumption
      · exact State.hbmLostAt_good ‹_›
    try clear_value x12
    extract_lets +onlyGivenNames x17
    have h18 : Good og (x17) := by subst x17; exact State.wr_good ‹_›
    try clear_value x17
    exact State.channelState_good (State.setEvent_good (State.wr_good ‹_›))

end Sys2Proof.Machine
end

