-- ==== Sys2Proof/Laws/Keep/Recover.lean ====
section
/-! SUPPORT. What the operations of Machine/Recover.lean keep. -/

namespace Sys2Proof.Machine

theorem State.startRecovery_good {og : Origin} {a1 : State} {a2 : Nat} {a3 : Frozen} (h1 : Good og (a1)) :
    Good og (@State.startRecovery a1 a2 a3) := by
  unfold State.startRecovery
  refine good_ite ?_ ?_
  · assumption
  · extract_lets +onlyGivenNames x1
    try clear_value x1
    extract_lets +onlyGivenNames x2
    have h3 : Good og (x2) := by
      subst x2
      refine good_foldl ?_ (fun s4 y5 h6 => ?_)
      · assumption
      · exact State.abortStep_good ‹_›
    try clear_value x2
    exact good_mk ‹_› rfl rfl rfl rfl rfl rfl rfl

theorem State.tellRecovery_good {og : Origin} {a1 : State} {a2 : Recovery} {a3 : Nat} (h1 : Good og (a1)) :
    Good og (@State.tellRecovery a1 a2 a3) := by
  unfold State.tellRecovery
  extract_lets +onlyGivenNames x1; try clear_value x1
  refine good_foldl ?_ (fun s2 y3 h4 => ?_)
  · assumption
  · exact State.tell_good ‹_›

theorem State.endRecovery_good {og : Origin} {a1 : State} {a2 : Recovery} {a3 : Nat} (h1 : Good og (a1)) :
    Good og (@State.endRecovery a1 a2 a3) := by
  unfold State.endRecovery
  extract_lets +onlyGivenNames x1
  subst x1
  extract_lets +onlyGivenNames x2
  have h3 : Good og (x2) := by subst x2; exact good_mk ‹_› rfl rfl rfl rfl rfl rfl rfl
  try clear_value x2
  extract_lets +onlyGivenNames x4
  have h5 : Good og (x4) := by
    subst x4
    refine good_ite ?_ ?_
    · assumption
    · exact State.settleRetired_good (State.retire_good ‹_›)
  try clear_value x4
  extract_lets +onlyGivenNames x6
  have h7 : Good og (x6) := by subst x6; exact State.tellRecovery_good ‹_›
  try clear_value x6
  refine good_foldl ?_ (fun s8 y9 h10 => ?_)
  · assumption
  · exact State.tryOpen_good ‹_›

theorem State.recoveryFails_good {og : Origin} {a1 : State} {a2 : Recovery} (h1 : Good og (a1)) :
    Good og (@State.recoveryFails a1 a2) := by
  unfold State.recoveryFails
  exact State.endRecovery_good (good_mk ‹_› rfl rfl rfl rfl rfl rfl rfl)

theorem State.putRecovery_good {og : Origin} {a1 : State} {a2 : Recovery} (h1 : Good og (a1)) :
    Good og (@State.putRecovery a1 a2) := by
  unfold State.putRecovery
  exact good_mk ‹_› rfl rfl rfl rfl rfl rfl rfl

theorem State.stagingFrame_good {og : Origin} {a1 : State} {a2 : Recovery} (h1 : Good og (a1)) :
    Good og (@State.stagingFrame a1 a2).1 := by
  unfold State.stagingFrame
  refine good_ite_fst ?_ ?_
  · exact good_pair ‹_›
  · extract_lets +onlyGivenNames x1
    have h2 : Good og (x1) := by subst x1; exact State.spillFor_good ‹_›
    try clear_value x1
    split
    · rename_i w3 w4 w5 w6
      exact good_pair (State.convertGroups_good ‹_›)
    · rename_i w7 w8
      exact good_pair ‹_›

theorem State.askRestore_good {og : Origin} {a1 : State} {a2 : Nat} {a3 : Nat} (h1 : Good og (a1)) :
    Good og (@State.askRestore a1 a2 a3) := by
  unfold State.askRestore
  exact State.mbxGo_good (State.mbxStore_good ‹_›)

theorem State.frozenStageEnd_good {og : Origin} {a1 : State} {a2 : Option (List Byte)} (h1 : Good og (a1)) :
    Good og (@State.frozenStageEnd a1 a2) := by
  unfold State.frozenStageEnd
  split
  · rename_i w1 w2
    assumption
  · rename_i w3 w4 w5
    split
    · rename_i w6 w7
      refine good_ite ?_ ?_
      · exact State.putRecovery_good ‹_›
      · exact State.recoveryFails_good ‹_›
    · rename_i w8 w9 w10
      refine good_ite ?_ ?_
      · assumption
      · split
        · rename_i w11 w12 w13
          have h14 : Good og w12 := good_fst w13 (State.stagingFrame_good ‹_›)
          assumption
        · rename_i w15 w16 w17 w18
          have h19 : Good og w16 := good_fst w18 (State.stagingFrame_good ‹_›)
          extract_lets +onlyGivenNames x20
          have h21 : Good og (x20) := by subst x20; exact State.write_good ‹_›
          try clear_value x20
          exact State.askRestore_good (State.putRecovery_good ‹_›)

theorem execFrozenStageEnd_good {og : Origin} {a1 : Option (List Byte)} {a2 : State} (h2 : Good og (a2)) :
    GoodOut og (@execFrozenStageEnd a1 a2) := by
  unfold execFrozenStageEnd
  exact goodOut_next (State.frozenStageEnd_good ‹_›)

theorem State.frozenCopyEnd_good {og : Origin} {a1 : State} (h1 : Good og (a1)) :
    Good og (@State.frozenCopyEnd a1) := by
  unfold State.frozenCopyEnd
  split
  · rename_i w1 w2
    assumption
  · rename_i w3 w4 w5
    extract_lets +onlyGivenNames x6
    have h7 : Good og (x6) := by subst x6; exact State.write_good ‹_›
    try clear_value x6
    refine good_ite ?_ ?_
    · exact State.endRecovery_good ‹_›
    · assumption

theorem execFrozenRestoreCopyEnd_good {og : Origin} {a1 : State} (h1 : Good og (a1)) :
    GoodOut og (@execFrozenRestoreCopyEnd a1) := by
  unfold execFrozenRestoreCopyEnd
  exact goodOut_next (State.frozenCopyEnd_good ‹_›)

theorem State.repair_good {og : Origin} {a1 : State} {a2 : Nat} {a3 : Tensor} {a4 : Part} {a5 : Nat} {a6 : List (List Byte)} (h1 : Good og (a1)) :
    Good og (@State.repair a1 a2 a3 a4 a5 a6) := by
  unfold State.repair
  extract_lets +onlyGivenNames x1
  have h2 : Good og (x1) := by subst x1; exact State.abortStep_good ‹_›
  try clear_value x1
  split
  · rename_i w3 w4 w5
    exact State.tell_good (State.writePart_good ‹_›)
  · rename_i w6 w7
    exact State.tell_good (State.modStep_good ‹_›)

theorem State.repairSlot_good {og : Origin} {a1 : State} {a2 : Nat} {a3 : Nat} {a4 : List (List Byte)} (h1 : Good og (a1)) :
    Good og (@State.repairSlot a1 a2 a3 a4) := by
  unfold State.repairSlot
  extract_lets +onlyGivenNames x1
  have h2 : Good og (x1) := by subst x1; exact State.abortStep_good ‹_›
  try clear_value x1
  split
  · rename_i w3 w4 w5
    exact State.tell_good (State.putArea_good ‹_›)
  · rename_i w6 w7
    exact State.tell_good (State.modStep_good ‹_›)

theorem State.granLost_good {og : Origin} {a1 : State} {a2 : Nat} {a3 : List (List Byte)} (h1 : Good og (a1)) :
    Good og (@State.granLost a1 a2 a3) := by
  unfold State.granLost
  extract_lets +onlyGivenNames x1; try clear_value x1
  extract_lets +onlyGivenNames x2; try clear_value x2
  extract_lets +onlyGivenNames x3
  have h4 : Good og (x3) := by
    subst x3
    refine good_ite ?_ ?_
    · assumption
    · refine good_foldl ?_ (fun s5 y6 h7 => ?_)
      · assumption
      · exact State.abortStep_good ‹_›
  try clear_value x3
  extract_lets +onlyGivenNames x8
  have h9 : Good og (x8) := by
    subst x8
    split
    · rename_i w10 w11 w12 w13 w14 w15
      exact State.startRecovery_good ‹_›
    · rename_i w16 w17
      assumption
  try clear_value x8
  refine good_foldl ?_ (fun s18 y19 h20 => ?_)
  · assumption
  · split
    · rename_i w21 w22 w23 w24 w25 w26
      exact State.repair_good ‹_›
    · rename_i w27 w28 w29 w30 w31
      exact State.repairSlot_good ‹_›
    · rename_i w32 w33 w34 w35
      assumption

theorem State.findAll_good {og : Origin} {a1 : State} {a2 : List (Nat × Finding)} (h1 : Good og (a1)) :
    Good og (@State.findAll a1 a2).1 := by
  unfold State.findAll
  refine good_foldl_fst ?_ (fun s1 y2 h3 => ?_)
  · exact good_pair ‹_›
  · extract_lets +onlyGivenNames x4
    have h5 : Good og (x4) := by subst x4; exact State.find_good ‹_›
    try clear_value x4
    exact good_pair ‹_›

theorem State.lostAll_good {og : Origin} {a1 : State} {a2 : List Nat} {a3 : List (List Byte)} (h1 : Good og (a1)) :
    Good og (@State.lostAll a1 a2 a3) := by
  unfold State.lostAll
  refine good_foldl ?_ (fun s1 y2 h3 => ?_)
  · assumption
  · exact State.granLost_good ‹_›

theorem State.lineFillEnd_good {og : Origin} {a1 : State} {a2 : Nat} {a3 : Nat} {a4 : List Finding} {a5 : List (List Byte)} (h1 : Good og (a1)) :
    Good og (@State.lineFillEnd a1 a2 a3 a4 a5) := by
  unfold State.lineFillEnd
  split
  · rename_i w1 w2
    assumption
  · rename_i w3 w4 w5
    refine good_ite ?_ ?_
    · assumption
    · split
      · rename_i w6 w7 w8 w9
        have h10 : Good og w7 := good_fst w9 (State.findAll_good ‹_›)
        exact State.lostAll_good (State.fillEnd_good ‹_›)

theorem execLineFillEnd_good {og : Origin} {a1 : QuadId} {a2 : Nat} {a3 : List Finding} {a4 : List (List Byte)} {a5 : State} (h5 : Good og (a5)) :
    GoodOut og (@execLineFillEnd a1 a2 a3 a4 a5) := by
  unfold execLineFillEnd
  exact goodOut_next (State.lineFillEnd_good ‹_›)

theorem State.writebackAccepted_good {og : Origin} {a1 : State} {a2 : Nat} {a3 : Nat} {a4 : List Finding} {a5 : List (List Byte)} (h1 : Good og (a1)) :
    Good og (@State.writebackAccepted a1 a2 a3 a4 a5) := by
  unfold State.writebackAccepted
  split
  · rename_i w1 w2
    assumption
  · rename_i w3 w4 w5
    refine good_ite ?_ ?_
    · assumption
    · extract_lets +onlyGivenNames x6
      try clear_value x6
      split
      · rename_i w7 w8 w9 w10
        have h11 : Good og w8 := good_fst w10 (State.findAll_good ‹_›)
        extract_lets +onlyGivenNames x12
        subst x12
        extract_lets +onlyGivenNames x13
        have h14 : Good og (x13) := by subst x13; exact good_mk ‹_› rfl rfl rfl rfl rfl rfl rfl
        try clear_value x13
        exact State.lostAll_good (State.refillHeld_good (State.acceptLine_good ‹_›))

theorem execWritebackAccepted_good {og : Origin} {a1 : QuadId} {a2 : Nat} {a3 : List Finding} {a4 : List (List Byte)} {a5 : State} (h5 : Good og (a5)) :
    GoodOut og (@execWritebackAccepted a1 a2 a3 a4 a5) := by
  unfold execWritebackAccepted
  exact goodOut_next (State.writebackAccepted_good ‹_›)

theorem State.hbmScrub_good {og : Origin} {a1 : State} {a2 : Nat} {a3 : Finding} {a4 : List (List Byte)} (h1 : Good og (a1)) :
    Good og (@State.hbmScrub a1 a2 a3 a4) := by
  unfold State.hbmScrub
  refine good_ite ?_ ?_
  · assumption
  · split
    · rename_i w1 w2 w3 w4
      have h5 : Good og w2 := good_fst w4 (State.findAll_good ‹_›)
      exact State.lostAll_good ‹_›

theorem execHbmScrubRead_good {og : Origin} {a1 : Nat} {a2 : Finding} {a3 : List (List Byte)} {a4 : State} (h4 : Good og (a4)) :
    GoodOut og (@execHbmScrubRead a1 a2 a3 a4) := by
  unfold execHbmScrubRead
  exact goodOut_next (State.hbmScrub_good ‹_›)

theorem execRelayoutEnd_good {og : Origin} {a1 : List Nat} {a2 : List (List Byte)} {a3 : State} (h3 : Good og (a3)) :
    GoodOut og (@execRelayoutEnd a1 a2 a3) := by
  unfold execRelayoutEnd
  extract_lets +onlyGivenNames x1
  have h2 : Good og (x1) := by subst x1; exact State.relayoutEnd_good ‹_›
  try clear_value x1
  exact goodOut_next (State.lostAll_good ‹_›)

end Sys2Proof.Machine
end

