-- ==== Sys2Proof/Laws/Keep/Late.lean ====
section
/-! SUPPORT. What the operations of Machine/Late.lean keep. -/

namespace Sys2Proof.Machine

theorem State.forwardFirst_good {og : Origin} {a1 : State} {a2 : Nat} {a3 : TreeMsg → Bool} (h1 : Good og (a1)) :
    Good og (@State.forwardFirst a1 a2 a3) := by
  unfold State.forwardFirst
  extract_lets +onlyGivenNames x1
  have h2 : Good og (x1) := by subst x1; exact State.passMarkersIf_good ‹_›
  try clear_value x1
  split
  · rename_i w3 w4 w5 w6
    refine good_ite ?_ ?_
    · refine good_ite ?_ ?_
      · exact State.forward_good ‹_›
      · assumption
    · assumption
  · rename_i w7 w8
    assumption

theorem State.translationMarker_good {og : Origin} {a1 : State} {a2 : Nat} (h1 : Good og (a1)) :
    Good og (@State.translationMarker a1 a2) := by
  unfold State.translationMarker
  exact State.forwardFirst_good ‹_›

theorem execTranslationMarker_good {og : Origin} {a1 : Nat} {a2 : State} (h2 : Good og (a2)) :
    GoodOut og (@execTranslationMarker a1 a2) := by
  unfold execTranslationMarker
  exact goodOut_next (State.translationMarker_good ‹_›)

theorem State.isolationMarker_good {og : Origin} {a1 : State} {a2 : Nat} (h1 : Good og (a1)) :
    Good og (@State.isolationMarker a1 a2) := by
  unfold State.isolationMarker
  exact State.forwardFirst_good ‹_›

theorem execIsolationMarker_good {og : Origin} {a1 : Nat} {a2 : State} (h2 : Good og (a2)) :
    GoodOut og (@execIsolationMarker a1 a2) := by
  unfold execIsolationMarker
  exact goodOut_next (State.isolationMarker_good ‹_›)

theorem State.redAnswer_good {og : Origin} {a1 : State × Option RedAnswer} (h1 : Good og (a1).1) :
    Good og (@State.redAnswer a1) := by
  unfold State.redAnswer
  split
  · rename_i w1 w2
    assumption
  · rename_i w3 w4 w5
    split
    · rename_i w6 w7 w8 w9 w10
      exact State.sumAnswer_good ‹_›
    · rename_i w11 w12 w13 w14
      exact State.atomAnswer_good ‹_›
    · rename_i w15 w16 w17 w18
      exact State.landed_good ‹_›

theorem execReductionRequest_good {og : Origin} {a1 : QuadId} {a2 : State} (h2 : Good og (a2)) :
    GoodOut og (@execReductionRequest a1 a2) := by
  unfold execReductionRequest
  exact goodOut_next (State.redAnswer_good (State.redArrive_good ‹_›))

theorem execReductionExecute_good {og : Origin} {a1 : QuadId} {a2 : State} (h2 : Good og (a2)) :
    GoodOut og (@execReductionExecute a1 a2) := by
  unfold execReductionExecute
  exact goodOut_next (State.redAnswer_good (State.redExecute_good ‹_›))

theorem State.acknowledged_good {og : Origin} {a1 : State} {a2 : JRecord} (h1 : Good og (a1)) :
    Good og (@State.acknowledged a1 a2) := by
  unfold State.acknowledged
  refine good_ite ?_ ?_
  · exact State.keeperAck_good ‹_›
  · refine good_ite ?_ ?_
    · exact State.genCommitted_good ‹_›
    · assumption

theorem State.recordCommitted_good {og : Origin} {a1 : State} {a2 : Nat} (h1 : Good og (a1)) :
    Good og (@State.recordCommitted a1 a2) := by
  unfold State.recordCommitted
  split
  · rename_i w1 w2
    assumption
  · rename_i w3 w4 w5
    exact State.journalStart_good (State.acknowledged_good (State.journalCommit_good ‹_›))

theorem execJournalRecordCommitted_good {og : Origin} {a1 : Nat} {a2 : State} (h2 : Good og (a2)) :
    GoodOut og (@execJournalRecordCommitted a1 a2) := by
  unfold execJournalRecordCommitted
  exact goodOut_next (State.recordCommitted_good ‹_›)

theorem State.wearUpdate_good {og : Origin} {a1 : State} (h1 : Good og (a1)) :
    Good og (@State.wearUpdate a1) := by
  unfold State.wearUpdate
  refine good_ite ?_ ?_
  · assumption
  · extract_lets +onlyGivenNames x1
    have h2 : Good og (x1) := by subst x1; exact State.wearBudget_good ‹_›
    try clear_value x1
    refine good_ite ?_ ?_
    · refine good_foldl ?_ (fun s3 y4 h5 => ?_)
      · assumption
      · exact State.abandon_good ‹_›
    · assumption

theorem execWearBudgetUpdate_good {og : Origin} {a1 : State} (h1 : Good og (a1)) :
    GoodOut og (@execWearBudgetUpdate a1) := by
  unfold execWearBudgetUpdate
  exact goodOut_next (State.wearUpdate_good ‹_›)

theorem State.startArray_good {og : Origin} {a1 : State} (h1 : Good og (a1)) :
    Good og (@State.startArray a1) := by
  unfold State.startArray
  extract_lets +onlyGivenNames x1; try clear_value x1
  exact State.wr_good (State.wr_good (State.wr_good (good_mk ‹_› rfl rfl rfl rfl rfl rfl rfl)))

theorem State.domainRelease_good {og : Origin} {a1 : State} {a2 : Domain} (h1 : Good og (a1)) :
    Good og (@State.domainRelease a1 a2) := by
  unfold State.domainRelease
  refine good_ite ?_ ?_
  · assumption
  · extract_lets +onlyGivenNames x1
    try clear_value x1
    extract_lets +onlyGivenNames x2
    have h3 : Good og (x2) := by subst x2; exact good_mk ‹_› rfl rfl rfl rfl rfl rfl rfl
    try clear_value x2
    split
    · rename_i w4
      exact State.synRestart_good (State.storeRestart_good ‹_›)
    · rename_i w5
      exact State.fabRestart_good ‹_›
    · rename_i w6
      exact State.wr_good (State.divide_good (State.startArray_good (State.arrRestart_good ‹_›)))
    · rename_i w7 w8 w9 w10
      assumption

theorem execDomainRelease_good {og : Origin} {a1 : Domain} {a2 : State} (h2 : Good og (a2)) :
    GoodOut og (@execDomainRelease a1 a2) := by
  unfold execDomainRelease
  exact goodOut_next (State.domainRelease_good ‹_›)

end Sys2Proof.Machine
end

