-- ==== Sys2Proof/Laws/Keep/Side.lean ====
section
/-! SUPPORT. What the operations of Machine/Side.lean keep. -/

namespace Sys2Proof.Machine

theorem State.answer_good {og : Origin} {a1 : State} {a2 : Binding} {a3 : Nat} {a4 : Nat} {a5 : Nat} {a6 : List Byte} (h1 : Good og (a1)) :
    Good og (@State.answer a1 a2 a3 a4 a5 a6) := by
  unfold State.answer
  exact State.emit_good ‹_›

theorem State.setEid_good {og : Origin} {a1 : State} {a2 : Binding} {a3 : Nat} (h1 : Good og (a1)) :
    Good og (@State.setEid a1 a2 a3) := by
  unfold State.setEid
  split
  · rename_i w1
    exact good_mk ‹_› rfl rfl rfl rfl rfl rfl rfl
  · rename_i w2
    exact good_mk ‹_› rfl rfl rfl rfl rfl rfl rfl

theorem execSetEndpointId_good {og : Origin} {a1 : Binding} {a2 : Byte} {a3 : State} (h3 : Good og (a3)) :
    GoodOut og (@execSetEndpointId a1 a2 a3) := by
  unfold execSetEndpointId
  refine goodOut_next ?_
  refine good_ite ?_ ?_
  · exact State.answer_good ‹_›
  · exact State.answer_good (State.setEid_good ‹_›)

theorem execGetEndpointId_good {og : Origin} {a1 : Binding} {a2 : State} (h2 : Good og (a2)) :
    GoodOut og (@execGetEndpointId a1 a2) := by
  unfold execGetEndpointId
  exact goodOut_next (State.answer_good ‹_›)

theorem execGetEndpointUuid_good {og : Origin} {a1 : Binding} {a2 : State} (h2 : Good og (a2)) :
    GoodOut og (@execGetEndpointUuid a1 a2) := by
  unfold execGetEndpointUuid
  exact goodOut_next (State.answer_good ‹_›)

theorem execGetMctpVersionSupport_good {og : Origin} {a1 : Binding} {a2 : Byte} {a3 : State} (h3 : Good og (a3)) :
    GoodOut og (@execGetMctpVersionSupport a1 a2 a3) := by
  unfold execGetMctpVersionSupport
  refine goodOut_next ?_
  refine good_ite ?_ ?_
  · exact State.answer_good ‹_›
  · exact State.answer_good ‹_›

theorem execGetMessageTypeSupport_good {og : Origin} {a1 : Binding} {a2 : State} (h2 : Good og (a2)) :
    GoodOut og (@execGetMessageTypeSupport a1 a2) := by
  unfold execGetMessageTypeSupport
  exact goodOut_next (State.answer_good ‹_›)

theorem execGetVendorMessageSupport_good {og : Origin} {a1 : Binding} {a2 : State} (h2 : Good og (a2)) :
    GoodOut og (@execGetVendorMessageSupport a1 a2) := by
  unfold execGetVendorMessageSupport
  exact goodOut_next (State.answer_good ‹_›)

theorem execSettid_good {og : Origin} {a1 : Binding} {a2 : Byte} {a3 : State} (h3 : Good og (a3)) :
    GoodOut og (@execSettid a1 a2 a3) := by
  unfold execSettid
  refine goodOut_next ?_
  refine good_ite ?_ ?_
  · exact State.answer_good ‹_›
  · exact State.answer_good (good_mk ‹_› rfl rfl rfl rfl rfl rfl rfl)

theorem execGettid_good {og : Origin} {a1 : Binding} {a2 : State} (h2 : Good og (a2)) :
    GoodOut og (@execGettid a1 a2) := by
  unfold execGettid
  exact goodOut_next (State.answer_good ‹_›)

theorem execGetpldmversion_good {og : Origin} {a1 : Binding} {a2 : Byte} {a3 : State} (h3 : Good og (a3)) :
    GoodOut og (@execGetpldmversion a1 a2 a3) := by
  unfold execGetpldmversion
  refine goodOut_next ?_
  refine good_ite ?_ ?_
  · exact State.answer_good ‹_›
  · exact State.answer_good ‹_›

theorem execGetpldmtypes_good {og : Origin} {a1 : Binding} {a2 : State} (h2 : Good og (a2)) :
    GoodOut og (@execGetpldmtypes a1 a2) := by
  unfold execGetpldmtypes
  exact goodOut_next (State.answer_good ‹_›)

theorem execGetpldmcommands_good {og : Origin} {a1 : Binding} {a2 : Byte} {a3 : State} (h3 : Good og (a3)) :
    GoodOut og (@execGetpldmcommands a1 a2 a3) := by
  unfold execGetpldmcommands
  refine goodOut_next ?_
  refine good_ite ?_ ?_
  · exact State.answer_good ‹_›
  · exact State.answer_good ‹_›

theorem execGetpdrrepositoryinfo_good {og : Origin} {a1 : Binding} {a2 : State} (h2 : Good og (a2)) :
    GoodOut og (@execGetpdrrepositoryinfo a1 a2) := by
  unfold execGetpdrrepositoryinfo
  exact goodOut_next (State.answer_good ‹_›)

theorem execGetpdr_good {og : Origin} {a1 : Binding} {a2 : Word} {a3 : State} (h3 : Good og (a3)) :
    GoodOut og (@execGetpdr a1 a2 a3) := by
  unfold execGetpdr
  refine goodOut_next ?_
  split
  · rename_i w1 w2 w3
    refine good_ite ?_ ?_
    · exact State.answer_good ‹_›
    · exact State.answer_good ‹_›
  · rename_i w4 w5
    exact State.answer_good ‹_›

theorem execGetsensorreading_good {og : Origin} {a1 : Binding} {a2 : Half} {a3 : State} (h3 : Good og (a3)) :
    GoodOut og (@execGetsensorreading a1 a2 a3) := by
  unfold execGetsensorreading
  refine goodOut_next ?_
  refine good_ite ?_ ?_
  · split
    · rename_i w1 w2 w3
      exact State.answer_good ‹_›
    · rename_i w4 w5
      exact State.answer_good ‹_›
  · exact State.answer_good ‹_›

theorem execGetstatesensorreadings_good {og : Origin} {a1 : Binding} {a2 : Half} {a3 : State} (h3 : Good og (a3)) :
    GoodOut og (@execGetstatesensorreadings a1 a2 a3) := by
  unfold execGetstatesensorreadings
  refine goodOut_next ?_
  refine good_ite ?_ ?_
  · split
    · rename_i w1 w2 w3
      exact State.answer_good ‹_›
    · rename_i w4 w5
      exact State.answer_good ‹_›
  · exact State.answer_good ‹_›

theorem execPollforplatformeventmessage_good {og : Origin} {a1 : Binding} {a2 : State} (h2 : Good og (a2)) :
    GoodOut og (@execPollforplatformeventmessage a1 a2) := by
  unfold execPollforplatformeventmessage
  exact goodOut_next (State.answer_good ‹_›)

theorem execTelemetryGet_good {og : Origin} {a1 : Binding} {a2 : State} (h2 : Good og (a2)) :
    GoodOut og (@execTelemetryGet a1 a2) := by
  unfold execTelemetryGet
  refine goodOut_next ?_
  refine good_ite ?_ ?_
  · exact State.answer_good ‹_›
  · exact State.answer_good ‹_›

theorem execPowerStatus_good {og : Origin} {a1 : Binding} {a2 : State} (h2 : Good og (a2)) :
    GoodOut og (@execPowerStatus a1 a2) := by
  unfold execPowerStatus
  exact goodOut_next (State.answer_good ‹_›)

theorem execStrapsGet_good {og : Origin} {a1 : Binding} {a2 : Straps} {a3 : State} (h3 : Good og (a3)) :
    GoodOut og (@execStrapsGet a1 a2 a3) := by
  unfold execStrapsGet
  exact goodOut_next (State.answer_good ‹_›)

theorem execUnsupportedSidebandMessage_good {og : Origin} {a1 : Binding} {a2 : Byte} {a3 : Byte} {a4 : State} (h4 : Good og (a4)) :
    GoodOut og (@execUnsupportedSidebandMessage a1 a2 a3 a4) := by
  unfold execUnsupportedSidebandMessage
  refine goodOut_next ?_
  refine good_ite ?_ ?_
  · exact State.answer_good ‹_›
  · assumption

theorem execDynamicAddressAssignment_good {og : Origin} {a1 : BitVec 7} {a2 : State} (h2 : Good og (a2)) :
    GoodOut og (@execDynamicAddressAssignment a1 a2) := by
  unfold execDynamicAddressAssignment
  exact goodOut_next (good_mk ‹_› rfl rfl rfl rfl rfl rfl rfl)

end Sys2Proof.Machine
end

