-- ==== Sys2Proof/WellFormed.lean ====
section
/-! DEFINITION. Which commands are well formed: the operands' ranges and lengths that the types do not give. -/

namespace Sys2Proof

/-- The bytes of BAR0 (R8). -/
def bar0Bytes : Nat := 2 ^ 24

/-- Readings of four dies and twelve stacks (R503). -/
def tempsOk (t : Temps) : Bool := decide (t.die.length = 4) && decide (t.hbm.length = 12)

/-- Whether a command's operands are what the world outside the module can supply. -/
def Instr.wellFormed : Instr → Bool
  -- an offset lies in BAR0, 16 MiB; a 32-bit write has a 32-bit value (R8)
  | .registerWrite _ off wide v => decide (off < bar0Bytes) && (wide || decide (v.toNat < 2 ^ 32))
  | .bar0UnsupportedRequest _ off _ _ => decide (off < bar0Bytes)
  | .lowHalfRead _ off => decide (off < bar0Bytes)
  | .highHalfRead _ off => decide (off < bar0Bytes)
  | .lowHalfWrite _ off _ => decide (off < bar0Bytes)
  | .highHalfWrite _ off _ => decide (off < bar0Bytes)
  -- a flit brings 280 packet bytes (R302), a fragment 280 bytes (R470)
  | .flitReceive _ f => decide (f.bytes.length = 280)
  | .authFragment _ frag => decide (frag.length = 280)
  -- what reads of host memory return has the length of what was read (R360, R376, R379, R421)
  | .sqFetchEnd _ entries ok => !ok || entries.all fun e => decide (e.length = 64)
  | .tenantReset rest => rest.all fun x => decide (x.2.length % 64 = 0)
  | .tenantCreate block ward streams ok =>
    !ok || (decide (block.length = 256) && decide (ward.length = 2112) && (streams.isEmpty || decide (streams.length = 131072)))
  | .wardUpdate image ok => !ok || decide (image.length = 2112)
  | .restoreGo _ desc binds => decide (desc.length = 128) && decide (binds.length % 32 = 0)
  -- an access to BAR4 is of 1 to 64 bytes at an offset of its 64 GiB (R355, R356)
  | .bar4Access off _ data => decide (off < 2 ^ 36) && decide (0 < data.length) && decide (data.length ≤ 64)
  -- a manifest is 8,192 bytes (R458), a report's signature what follows its 640 bytes (R468)
  | .stage manifest _ _ => decide (manifest.length = 8192)
  | .attest sig => decide (sig.length = 9893)
  -- a journal record's payload is at most 4,024 bytes (R432)
  | .journalRecordRequest rec => decide (rec.payload.length ≤ 4024)
  -- a line has four granules
  | .lineFillEnd _ _ f _ => decide (f.length ≤ 4)
  | .writebackAccepted _ _ f _ => decide (f.length ≤ 4)
  -- the sensors: four dies, twelve stacks (R503)
  | .telemetryPeriod _ temps => tempsOk temps
  | .thermalRead temps => tempsOk temps
  -- a frozen frame is 2 MiB (R269)
  | .frozenStageEnd data => match data with | some bs => decide (bs.length = 2 ^ 21) | none => true
  -- a journal copy named is one of a record
  | .journalScrub weak => weak.all fun x => decide (x.1 < 2 ^ 64)
  -- every value of the operands' types
  | .markerForward _ | .clkHostRequest _ | .clkFwRequest _ | .arrayClockHold | .arrayClockResume | .deferredDividerChange
  | .refLost | .refReturn | .pllRelock | .pllUnlock | .holdoverDeadline | .refHostPresent | .refAutoTimeout
  | .moduleRailRelease _ | .pllLock | .pllLockTimeout | .domainRelease _ | .aissue _ _ _ | .arrayDescriptorAccept
  | .operationStart | .arrayOperandArrival | .cellTailEnd | .drainStart | .drainEnd | .completionWordAccepted
  | .chainWaitExpiry | .chainSpillEnd | .chainFillEnd | .arraySequencerReady | .samplePoint | .sampleFinish | .amaxReport
  | .poisonSource | .rissue _ _ _ | .rowDescriptorAccept | .rowOperationStart _ | .rowChunkStart _ | .rowChunkEnd _
  | .rowOperationEnd _ | .spindleReady | .stepOpen _ _ | .stepCommit _ _ | .updateStart _ | .updateResume _
  | .optimiserPassEnd _ | .quantiserPassEnd _ | .commitPoint _ | .stepCancel _ _ | .updateEngineReady | .iadd _ _ _
  | .isub _ _ _ | .imul _ _ _ | .imad _ _ _ | .imin _ _ _ | .imax _ _ _ | .ishl _ _ _ | .ishr _ _ _ | .and _ _ _ | .or _ _ _
  | .xor _ _ _ | .not _ _ _ | .mov _ _ _ | .sel _ _ _ | .icmp _ _ _ | .popc _ _ _ | .shfl _ _ _ | .vote _ _ _ | .sreg _ _ _
  | .movi _ _ _ | .fadd _ _ _ | .fmul _ _ _ | .ffma _ _ _ | .fmin _ _ _ | .fmax _ _ _ | .fcmp _ _ _ | .fdiv _ _ _
  | .fsqrt _ _ _ | .frsq _ _ _ | .fexp2 _ _ _ | .flog2 _ _ _ | .fabs _ _ _ | .bra _ _ _ | .call _ _ _ | .ret _ _ _
  | .exit _ _ _ | .nop _ _ _ | .fenceGroup _ _ _ | .fenceBlock _ _ _ | .fenceDevice _ _ _ | .fenceSystem _ _ _ | .ldl _ _ _
  | .stl _ _ _ | .ld _ _ _ | .st _ _ _ | .loadReturn _ _ | .tableWalkEnd _ _ | .ldr _ _ _ | .str _ _ _ | .twait _ _ _
  | .tokenCompletion _ | .cvt _ _ _ | .qblk _ _ _ | .rand _ _ _ | .atom _ _ _ | .barg _ _ _ | .barm _ _ _ | .barb _ _ _
  | .spoison _ _ _ | .barrierWatchdogExpiry _ _ | .repackWaitExpiry _ _ | .blockPlace _ _ | .launchComplete _
  | .launchStop _ | .blockPreempt _ _ _ | .blockResume _ _ _ | .tumblerReady _ | .translationMarker _ | .isolationMarker _
  | .slicemapWrite _ _ | .slicemapChangeEnd | .partitionApply | .partitionApplyEnd | .reductionRequest _
  | .reductionExecute _ | .evictionLockRelease _ | .cstWriteBack | .cstFlush | .cstDeadMark | .cstPin | .cstUnpin
  | .rangeOpEnd | .storeScrub _ _ _ | .deadReadsClear _ | .storeReady _ | .hbmTrainingEnd _ | .hbmInitGo | .hbmInitEnd
  | .protectionClassChange _ _ | .hbmScrubRead _ _ _ | .scrubPassEnd | .hbmTempRead _ _ | .mapoutGo _ | .relayoutEnd _ _
  | .frozenRestoreCopyEnd | .alloc _ _ | .free _ _ | .query _ _ | .constrain _ _ | .frozenLoad _ _ | .boundaryWork _ _
  | .portTrainingEnd _ _ | .swHello _ _ _ | .swDone _ | .authAbort _ | .authTimeout _ | .inboundRead _ | .inboundWrite _
  | .inboundReduce _ | .inboundAtomic _ | .inboundSignal _ | .inboundMcastWrite _ | .readRsp _ | .ack _ | .atomicRsp _
  | .nack _ | .nodeAssign _ | .announce _ | .peerMarker _ | .teardown _ | .feedAlert _ | .partner _ | .sfWard _
  | .remoteTimeout _ | .atomicRetry _ | .outcomeUnknown _ | .receiptExpiry _ | .transfer _ _ | .transferEnd _ | .fabricReady
  | .barActivate _ _ | .barMembers _ _ | .barClose _ _ | .barrierTimeout _ | .synReady | .sqTailWrite _ _ _
  | .cqHeadWrite _ _ _ | .completionRecordWrite _ _ | .ringResume _ _ | .ringFlush _ _ | .faultHeadWrite _ _
  | .nopCommand _ _ | .launch _ _ | .hostCopy _ _ _ _ | .wait _ _ | .waitTimeout _ _ _ | .signal _ _ | .numericPolicy _ _
  | .deadMark _ _ | .abort _ _ | .cqCreate | .sqCreate | .ringDelete | .tenantAbort | .adminDoorbell _ | .adminRingEnable _
  | .adminResume | .adminFlush | .configRetryEnd | .hostLinkDown | .hostLinkUp _ _ _ | .linkHoldExpiry | .pcieReset _ _
  | .raise _ _ | .maskSet _ _ _ | .maskClr _ _ _ | .pendSet _ _ _ | .pendClr _ _ _ | .interruptDelivery _
  | .heldVectorRelease _ _ | .icuReady | .checkStart _ _ _ | .checkFinish _ _ | .checkAbort _ _ | .checkOwnerAssign _ _
  | .feedB _ _ _ | .feedH _ _ _ | .feedW _ _ _ | .checkFeedProcess _ | .checkComplete _ | .healthInput _
  | .riskHoldExpiry _ | .secureRequest _ | .securingStart _ | .drainBlockEnd _ _ _ _ | .drainWaitExpiry _
  | .restoreStepEnd _ _ | .coalesceExpiry _ | .journalCopyAVerified _ | .journalRecordCommitted _ | .durableStoreStart
  | .wearBudgetUpdate | .powerSample _ | .inputLow | .inputHigh | .droopWarning | .droopRecovery | .resetLevel
  | .resetRecordsComplete | .inputStable | .holdupCharged | .holdupTestEnd _ | .holdupRetest _ | .railPowerGood
  | .railTimeout | .railRetry | .railsDown | .pwrEnOpen | .bootStage _ | .trialExpiry | .keeperWatchdogExpiry | .entropyFail
  | .mbxGo _ _ | .status | .measure | .certGet | .extend | .activate | .confirm | .anchorSet | .debugToken _ _ | .grant
  | .revoke | .wardWrite | .domainSet | .frozenDigest | .frozenRestore | .snapGo _ | .snapshotMarker _ | .snapshotComplete
  | .strapCompare _ | .thermalReliefExpiry | .coolDownExpiry | .setEndpointId _ _ | .getEndpointId _ | .getEndpointUuid _
  | .getMctpVersionSupport _ _ | .getMessageTypeSupport _ | .getVendorMessageSupport _ | .settid _ _ | .gettid _
  | .getpldmversion _ _ | .getpldmtypes _ | .getpldmcommands _ _ | .getpdrrepositoryinfo _ | .getpdr _ _
  | .getsensorreading _ _ | .getstatesensorreadings _ _ | .pollforplatformeventmessage _ | .telemetryGet _ | .powerStatus _
  | .strapsGet _ _ | .unsupportedSidebandMessage _ _ _ | .minClear | .pwrEnClose | .inputNormal | .hbmRefresh _ _
  | .interruptTaken _ | .bucketRefill | .hostCopyEnd _ _ _ _ | .frozenLoadEnd _ _ _ _ _ | .classChangeEnd
  | .dynamicAddressAssignment _ => true

end Sys2Proof
end

