-- ==== Sys2Proof/Tests/Slice0.lean ====
section
/-! SUPPORT. Tests: ill-formed commands that the check refuses, and for each statement a state and operands that meet its
hypotheses. -/

set_option maxRecDepth 100000
set_option Elab.async false
set_option linter.unusedVariables false

open Sys2Proof Sys2Proof.Machine

namespace Sys2Proof.Tests

/-! ### Ill-formed commands, each refused -/

theorem test_refuses_register_offset : Instr.wellFormed (.registerWrite .host 0x1000000 true 0) = false := by decide +kernel
theorem test_refuses_register_width : Instr.wellFormed (.registerWrite .host 0 false 0x100000000) = false := by decide +kernel
theorem test_refuses_unsupported_offset : Instr.wellFormed (.bar0UnsupportedRequest .host 0x1000000 4 false) = false := by decide +kernel
theorem test_refuses_low_read_offset : Instr.wellFormed (.lowHalfRead .host 0x1000000) = false := by decide +kernel
theorem test_refuses_high_read_offset : Instr.wellFormed (.highHalfRead .host 0x1000000) = false := by decide +kernel
theorem test_refuses_low_write_offset : Instr.wellFormed (.lowHalfWrite .host 0x1000000 0) = false := by decide +kernel
theorem test_refuses_high_write_offset : Instr.wellFormed (.highHalfWrite .host 0x1000000 0) = false := by decide +kernel
theorem test_refuses_short_fragment : Instr.wellFormed (.authFragment 0 [1]) = false := by decide +kernel
theorem test_refuses_short_entry : Instr.wellFormed (.sqFetchEnd .admin [[1]] true) = false := by decide +kernel
theorem test_refuses_reset_entries : Instr.wellFormed (.tenantReset [(0, [1])]) = false := by decide +kernel
theorem test_refuses_creation_block : Instr.wellFormed (.tenantCreate [] (zeros 2112) [] true) = false := by decide +kernel
theorem test_refuses_ward_table : Instr.wellFormed (.tenantCreate (zeros 256) [] [] true) = false := by decide +kernel
theorem test_refuses_stream_table : Instr.wellFormed (.tenantCreate (zeros 256) (zeros 2112) [1] true) = false := by decide +kernel
theorem test_refuses_ward_image : Instr.wellFormed (.wardUpdate [] true) = false := by decide +kernel
theorem test_refuses_restore_descriptor : Instr.wellFormed (.restoreGo 0 [] []) = false := by decide +kernel
theorem test_refuses_restore_bindings : Instr.wellFormed (.restoreGo 0 (zeros 128) [1]) = false := by decide +kernel
theorem test_refuses_bar4_offset : Instr.wellFormed (.bar4Access 0x1000000000 false [1]) = false := by decide +kernel
theorem test_refuses_bar4_empty : Instr.wellFormed (.bar4Access 0 false []) = false := by decide +kernel
theorem test_refuses_bar4_long : Instr.wellFormed (.bar4Access 0 false (zeros 65)) = false := by decide +kernel
theorem test_refuses_short_manifest : Instr.wellFormed (.stage [] true false) = false := by decide +kernel
theorem test_refuses_short_signature : Instr.wellFormed (.attest []) = false := by decide +kernel
theorem test_refuses_long_payload : Instr.wellFormed (.journalRecordRequest ⟨0, false, 0, 0, zeros 4025⟩) = false := by decide +kernel
theorem test_refuses_five_granules : Instr.wellFormed (.lineFillEnd 0 0 (List.replicate 5 .sound) []) = false := by decide +kernel
theorem test_refuses_five_granules_back : Instr.wellFormed (.writebackAccepted 0 0 (List.replicate 5 .sound) []) = false := by decide +kernel
theorem test_refuses_telemetry_sensors : Instr.wellFormed (.telemetryPeriod true ⟨[], [], 0⟩) = false := by decide +kernel
theorem test_refuses_thermal_sensors : Instr.wellFormed (.thermalRead ⟨[0, 0, 0, 0], [], 0⟩) = false := by decide +kernel
theorem test_refuses_frozen_data : Instr.wellFormed (.frozenStageEnd (some [])) = false := by decide +kernel
theorem test_refuses_journal_copy : Instr.wellFormed (.journalScrub [(0x10000000000000000, true)]) = false := by decide +kernel
theorem test_refuses_short_flit (f : Flit) (h : f.bytes = []) : Instr.wellFormed (.flitReceive 0 f) = false := by
  simp [Instr.wellFormed, h]

/-! ### Small states -/

/-- Bytes with some fields set: offset, width and value. -/
def bytesOf (n : Nat) (fs : List (Nat × Nat × Nat)) : List Byte :=
  fs.foldl (fun d x => setFld d x.1 x.2.1 x.2.2) (zeros n)

/-- A state in which unit `u` has cached tenant 0's pages 1 to 4, at the first frames of the scratchpad. -/
def withPages (u : Nat) : State :=
  (State.reset.wr (F.cstPartitionScratch 0) 16).setTlb u
    ((upto 0 4).map fun i => { tenant := 0, page := 1 + i, frame := 196608 + i, w := true, exec := true })

/-- An array descriptor: one product of BF16 vectors of 16 elements. -/
def arrDesc : List Byte :=
  bytesOf 128 [(0, 1, 2), (2, 1, 1), (3, 1, 1), (4, 1, 1), (6, 2, 0x30), (8, 2, 1), (0xA, 2, 1), (0xC, 3, 16), (0x10, 8, 2097152), (0x18, 8, 2097152),
    (0x20, 8, 4194304), (0x28, 4, 256), (0x2C, 4, 256), (0x30, 4, 256), (0x34, 2, 1), (0x44, 4, 0x3F800000)]

/-- An operation of tenant 0 with that descriptor. -/
def arrOp (p : ArrPhase) : ArrOp :=
  { tenant := 0, seq := 1, u := 3, slot := 0, launch := 0, desc := arrDesc, phase := p, status := 0, bank := 0, c0 := 0
    alpha := [], alphaOut := [], tileC := [], chain := none, data := [], inexact := false, opA := [], opB := [], outs := [], clash := false }

def withArr (ops : List ArrOp) (s : State) : State := { s with arr := { s.arr with ops := ops } }

/-- A row descriptor: the softmax of one row of one element. -/
def rowDesc : List Byte :=
  bytesOf 128 [(0, 1, 1), (1, 1, 3), (8, 4, 1), (0xC, 4, 1), (0x10, 8, 2097152), (0x18, 8, 4194304), (0x40, 4, 256), (0x44, 4, 256)]

def rowOp (phase : Nat) : RowOp :=
  { tenant := 0, seq := 1, u := 3, slot := 0, launch := 0, desc := rowDesc, phase := phase, status := 0, c0 := 0, lossScale := 0
    starts := [], ended := 0, spilled := false, dropped := false, amax := 0, nonfinite := 0, entries := [], escDenied := 0
    zeroFlush := 0, sums := 0, loss := 0, told := false, clash := false }

def withRows (x : Spindle) (s : State) : State := { s with spn := x }

/-- A numeric record of tenant 0's handle 5. -/
def numRec : NumRec :=
  { slot := 0, handle := 5, cls := 0, fmt := 2, baseFmt := 2, jit := false, escalated := false, pinFmt := false, frozen := false
    floor := false, tileScale := 0x3F800000, histLen := 16, histValid := 0, histHead := 0, jitLeft := 0, hist := List.replicate 16 0
    histStep := 0, stepAmax := 0, stepNonfinite := 0, stepSat := 0, floorExp := 0, ovfSteps := 0, alarmScore := 0, link := 0
    stepSamples := 0, stepDMax := 0, stepDSum := 0, runSamples := 0, runDMax := 0, warnCount := 0, alarmCount := 0, escDenied := 0
    zeroFlush := 0, escalations := 0, produced := false, alarmed := false, scoreBefore := 0, satRaised := false }

/-- A state in which tenant 0's part is `x`. -/
def withTenant (x : Tenant) : State := State.reset.setTenant 0 x

/-- A staged entry of an opcode with some argument bytes set. -/
def cmdEntry (opc : Nat) (args : List (Nat × Nat × Nat)) : Entry :=
  { cid := 7, idx := 0, bytes := bytesOf 64 ((0, 1, opc) :: args.map fun a => (8 + a.1, a.2)), phase := .staged, status := 0, result0 := 0
    result1 := 0, faults := false }

/-- A state in which an entry is the scheduler's next, on ring 0 of tenant 0, whose part is `x` otherwise. -/
def withEntry (e : Entry) (x : Tenant) (s : State) : State :=
  ((s.wr F.hifStatusReady 1).wr (F.tenStateState 0) 2).setTenant 0 { x with sqs := [(0, { Sq.reset with entries := [e] })] }

/-- Tenant 0 with its step changed. -/
def stepTenant (f : Step → Step) : Tenant := { Tenant.reset with step := f Step.reset }

/-- A tensor of one element and no parts. -/
def tensor1 (index cls : Nat) : Tensor :=
  { index := index, gen := 0, cls := cls, fmt := 0, lifetime := 0, reuse := 0, phases := 0, flags := 0, histLen := 1, vectors := 1, length := 1
    escCap := 0, link := 0, shareName := 0, parts := [], constraint := ⟨0, 0, 0⟩, pending := none, freed := false, charged := 0 }

/-- An update of the first tensor by the gradients of the second. -/
def updWork (idx quant : Nat) : UpdWork :=
  { descs := List.replicate 2 (bytesOf 64 [(0, 4, (tensor1 1 1).handle), (4, 4, (tensor1 2 5).handle), (8, 1, 2)]), idx := idx, quant := quant
    astep := List.replicate idx 0 }

def updTenant (w : UpdWork) : Tenant :=
  { stepTenant fun x => { x with phase := .updating, commit := some 7, work := some w } with
    place := { Place.reset with tensors := [tensor1 1 1, tensor1 2 5] } }

/-! ### A tumbler that runs a group -/

/-- Launch 1 of tenant 0: 32 registers, one group a block, 4,096 bytes of local memory. -/
def launch1 : Launch :=
  { id := 1, tenant := 0, ring := 0, cid := 7, desc := bytesOf 64 [(0, 1, 1), (2, 1, 4), (3, 1, 1), (4, 2, 1), (8, 8, 2097152)], blocks := 1
    placed := 1, ended := 0, code := 0, stopped := false }

/-- Its group, ready at the entry, with registers 4 to 7 set in lane 0. -/
def group1 : Group :=
  { launch1.group 0 0 with regs := [(128, 5), (160, 7), (192, 9), (224, 0)] }

def block1 : Block := { launch := 1, num := 0, slots := [0], lmem := [], saved := none }

/-- Tumbler 0 holds it in slot 0. -/
def tumbler1 : Tumbler := { Tumbler.reset with ready := true, groups := [(0, group1)], blocks := [block1] }

def withTumbler (x : Tumbler) : State := { (withPages (tumblerUnit 0)).setTumbler 0 x with launches := [launch1] }

/-- An instruction word whose guard is lane 0 by predicate 1, or every lane. -/
def word (dst sa sb sc mod : Nat) : IWord :=
  { dst := BitVec.ofNat 8 dst, sa := BitVec.ofNat 8 sa, sb := BitVec.ofNat 8 sb, sc := BitVec.ofNat 8 sc, pred := 15, pnot := false, keep := 0
    mod := BitVec.ofNat 16 mod }

/-- What the group of tumbler 0 issues with. -/
def ctx1 (w : IWord) : Ctx := { u := 0, l := launch1, w := w, ms := [{ slot := 0, i := 0, act := allLanes, on := allLanes }] }

/-! ### The central store -/

/-- A line whose second granule is dirty in its first eight bytes. -/
def line1 (pinned : Bool) : Line :=
  { pinned := pinned, dead := false, hint := 0, used := 1, region := some 5
    g := (upto 0 4).map fun i =>
      { held := allHeld, wrote := if i = 1 then 255 else 0, poison := false, data := List.replicate 64 3 } }

/-- A reduction of U32 sums, and an ATOM of one lane, on the scratchpad's first line. -/
def req0 : RedReq :=
  { line := 2 ^ 32, tenant := 0, code := 3, mask := 15, data := bytesOf 256 [(0, 4, 5)], atoms := [], src := .spindle 0 1 2097152, unit := spindleUnit 0 }
def atom0 : RedReq :=
  { req0 with code := 0, mask := 0, data := [], atoms := [⟨2, 4, 0, 0, 7, 0⟩], src := .tumbler 0 1, unit := tumblerUnit 0 }

def withMem (f : Mem → Mem) (s : State) : State := { s with mem := f s.mem }

/-- Three lines of frames 1, the first pinned or not; and slice `q` as given. -/
def withLines (pinned : Bool) : State :=
  withMem (fun m => { m with lines := [(9000, line1 pinned), (9001, line1 false), (9100, line1 false)] }) State.reset
def withSlice (q : Nat) (x : Slice) (s : State) : State := withMem (fun m => { m with slices := [(q, x)] }) s

/-- A recovery of frame 4, staged in frame 5, at a stage. -/
def rec0 (stage : Nat) : Recovery := { frame := 4, name := 1, tenants := [0], staging := 5, stage := stage, tried := 0 }

/-- HBM in use with one pseudo-channel, of channel 2, its first group corrected or not. -/
def withHbm (class0 : Nat) (s : State) : State :=
  ((((s.wr F.hbmStatusReady 1).wr F.hbmStatusLivePc 1).wr (F.hbmPcmapPc 0) 4).setReg .hbmCapacity (BitVec.ofNat 64 (2 ^ 30))).setReg (.hbmClassmap 0) (BitVec.ofNat 64 class0)

/-! ### Placement -/

/-- Tenant 0 holding one tensor: an activation, a frozen weight. -/
def tenantT : Tenant := { Tenant.reset with place := { Place.reset with tensors := [tensor1 1 6] } }
def tenantF : Tenant := { Tenant.reset with place := { Place.reset with tensors := [tensor1 1 2] } }

def frozen1 : Frozen :=
  { name := ownName 0 (tensor1 1 2).handle, vectors := 1, length := 1, fmt := 0, mask := 1, creator := 0, sharers := [(0, (tensor1 1 2).handle)]
    parts := [], loaded := false, loading := none, unrecovered := false, scale := 0, amax := 0 }

/-- A load of it that runs from the fabric. -/
def loading1 : Frozen := { frozen1 with loading := some (0, (tensor1 1 2).handle, 7) }
def loadE : Entry := { cmdEntry 0x1C [(0, 4, 1), (4, 1, 1)] with phase := .started }
def loadS : State := (withEntry loadE tenantF { State.reset with frozen := [loading1] }).setBucket 2 1

def queryE : Entry := cmdEntry 0x1A [(8, 8, 2097152), (0x10, 4, 4096)]
def queryS : State := withEntry queryE Tenant.reset (withPages (coreUnit 0))

/-- A tensor of one whole frame, the scratchpad's first. -/
def tensorP : Tensor :=
  { tensor1 1 6 with parts := [{ code := 0, side := 0, bytes := 2097152, va := 2097152, frames := [196608], packOff := none, corrected := false
                                 spilled := false, moving := false, pinned := false, declined := false, movedStep := 0 }] }

/-- A barrier slot whose record lies in its frame. -/
def slotP : SynSlot := { tenant := 0, va := 2097152, pa := windowBase, status := 0, image := zeros 2048 }
/-- The same with an arrival and a limit in its record. -/
def slotY : SynSlot := { slotP with image := setAt (setAt (zeros 2048) 0xE 1) 0x16 5 }

/-- An ALLOC of a scratch tensor of one element, with memory and quota to hold it. -/
def allocD : List Byte := bytesOf 64 [(0, 1, 8), (8, 4, 1), (0xC, 4, 1)]
def allocE : Entry := cmdEntry 0x18 [(0, 8, 2097152)]
def allocS : State :=
  withEntry allocE { Tenant.reset with place := { Place.reset with hbmQuota := 64 } }
    (((withPages (coreUnit 0)).write windowBase allocD).setReg .hbmCapacity (BitVec.ofNat 64 (2 ^ 30)))
def allocX : Option (State × Nat) := (((allocS.begun 0 0 allocE).fwRead 0 2097152 64).1.allocate 0 allocD).toOption

/-! ### Fabric -/

/-- Port 2 in AUTH on eight lanes, its exchange as given. -/
def authS (x : AuthX) : State :=
  ((State.reset.wr (F.fabPortState 2) portAuth).wr (F.fabPortLanes 2) 0xFF).modPort 2 fun y => { y with auth := some x }

/-- The CRC of an empty flit numbered `n` that returns two credits of channel 0. -/
def flitCrc (n : Nat) : Word := BitVec.ofNat 32 (crc32c (zeros 280 ++ leBytes 4 (n + 4095 * 2 ^ 12 + 2 * 2 ^ 26)))

/-- A request of node 3 for 8 bytes at page 1 of domain 9, and one whose trailer is wrong. -/
def inP (ty inc : Nat) (data : List Byte) : Pkt :=
  { ty := ty, flags := 0, len := if ty = 1 then 8 else data.length, dst := 0, src := 3, dstInc := inc, srcInc := 1, domain := 9, flow := 0
    op := if ty = 3 then 3 else 0, off := 2097152, id := 4, status := 0, mask := 0, data := data }
def inPkt (ty inc : Nat) : List Byte := (inP ty inc (if ty = 1 then [] else leBytes 8 5)).bytes
def inBad : List Byte := setAt (inPkt 1 0) 33 1
def inAtom : List Byte := (inP 4 0 (zeros 32 ++ leBytes 4 1 ++ zeros 4 ++ leBytes 8 7)).bytes
def inSig : List Byte := (inP 5 0 (leBytes 8 5 ++ [2] ++ zeros 7)).bytes

/-- Port 2 holding some requests; domain 9 is tenant 0's, whose pages the port's engine has cached. -/
def inS (rs : List (List Byte)) : State :=
  let s := (withPages (engineUnit (portEngine 2))).modPort 2 fun y => { y with requests := rs }
  { s with keeper := { s.keeper with domains := [(0, 9)] } }
def sigS : State := (inS [inSig]).wr F.synStatusReady 1

/-- A response of node 3 to request 6, and that request, as port 2 sent it. -/
def outRsp (ty st : Nat) (data : List Byte) : List Byte :=
  ({ inP ty 0 data with id := 6, status := st } : Pkt).bytes
def outReq (ty : Nat) (src : ReqSrc) : FabReq :=
  { id := 6, src := src, tenant := 0, engine := 3, packet := ({ inP ty 0 [] with dst := 3, src := 0, id := 6 } : Pkt).bytes, port := some 2, retried := false }

/-- A transfer of 64 bytes at page 1 that engine 3 runs, and one whose ward lets it go. -/
def xferD : List Byte := bytesOf 64 [(0, 1, 1), (1, 1, 1), (8, 8, 2097152), (0x10, 8, 3 * 2 ^ 48), (0x18, 8, 64)]
def outX (kind : Nat) : Xfer := { newXfer (.command 0 7) 0 (setFld xferD 1 1 kind) none with sent := 64 }
def outS (rsp : List Byte) (q : FabReq) (x : Xfer) : State :=
  let s := (((withPages (engineUnit 3)).wr (F.fabPortState 2) portUp).wr (F.fabPortmapPorts 6) 2).modPort 2 fun y => { y with responses := [rsp] }
  { s with fab := { s.fab with reqs := [q], xfers := [(3, x)] } }
def withWard (s : State) : State :=
  { s with keeper := { s.keeper with
      wards := [(0, bytesOf 128 [(0x20, 1, 1), (64, 2, 0), (66, 2, 9), (68, 2, 9), (70, 1, 255), (72, 8, 0), (80, 8, 65535)])] } }
/-- The same, tenant 0's page 5 mapped to the first frame of the scratchpad. -/
def mapS (s : State) : State :=
  (s.mapPage 0 10485760 196608 true false).setIso 196608 65537
/-- A state whose load is cut, its tumbler 0 holding a group. -/
def cutS : State :=
  { withTumbler tumbler1 with pwr := { State.reset.pwr with cut := true } }
def sigCmdS : State :=
  let s := (withWard (withEntry (cmdEntry 4 [(0, 8, 3 * 2 ^ 48)]) Tenant.reset State.reset)).wr F.fabStatusNodeValid 1
  { s with fab := { s.fab with peers := [(3, ⟨1, 0, 0, true⟩)] } }
def sigAsk : Ask :=
  { src := .command 0 0 7, tenant := 0, engine := 0, ty := tySignal, flags := 0, dst := 3, domain := 9, flow := 0, op := 0, off := 0, len := 16
    mask := 0, data := zeros 16 }

/-- A management packet for a device without a node, or for node 0, and port 2 holding it. -/
def mgPkt' (ty dst : Nat) (b : List Byte) : List Byte :=
  ({ inP tyMgmt 0 (leBytes 1 ty ++ [1] ++ leBytes 2 b.length ++ leBytes 4 1 ++ leBytes 8 2 ++ b) with dst := dst, domain := 0, off := 0 } : Pkt).bytes
def mgPkt (ty : Nat) (b : List Byte) : List Byte := mgPkt' ty 0xFFFF b
def mgS (ty : Nat) (b : List Byte) : State := State.reset.modPort 2 fun y => { y with mgmt := [mgPkt ty b] }
def annB : List Byte := bytesOf 16 [(0, 2, 1), (8, 2, 3), (10, 2, 1), (12, 2, 0xFFFF), (14, 1, 1), (15, 1, 1)]

/-- A barrier record in the scratchpad, to be activated; and an active slot on it. -/
def barE : Entry := cmdEntry 0x20 [(0, 8, 2097152)]
def barS : State :=
  withEntry barE Tenant.reset (((withPages (engineUnit 4)).write (windowBase + offMask) [3]).wr F.synStatusReady 1)
def barY : State × Nat × Nat := (barS.begun 0 0 barE).activateAt 0 2097152 windowBase
def memS : State :=
  withEntry (cmdEntry 0x21 [(2, 2, 5)]) Tenant.reset { State.reset.wr F.synStatusReady 1 with syn := [(0, slotP)] }

/-! ### Rings -/

/-- Tenant 0, ACTIVE, with its ring 0; and the admin ring, running. -/
def ringS (q : Sq) : State :=
  ((State.reset.wr F.hifStatusReady 1).wr (F.tenStateState 0) 2).setTenant 0 { Tenant.reset with sqs := [(0, q)] }
def adminS (q : Sq) : State :=
  { State.reset.wr F.hifStatusReady 1 with hif := { Hif.reset with adminOn := true, adminSq := q } }


/-! ### Commands of the host interface -/

def launchE : Entry := cmdEntry 1 [(0, 8, 2097152), (8, 4, 1)]
def launchS (d : List Byte) : State := withEntry launchE Tenant.reset ((withPages (coreUnit 0)).write windowBase d)

/-- A copy of 64 bytes between host memory and page 1, and a state in which it has started. -/
def copyJ (out : Bool) : HostJob :=
  { tenant := 0, ring := 0, cid := 7, addr := 4096, va := 2097152, bytes := 64, toHost := out, data := List.replicate 64 3 }
def started (opc : Nat) (args : List (Nat × Nat × Nat)) : Entry := { cmdEntry opc args with phase := .started }
def runsS (e : Entry) (s : State) : State := s.setTenant 0 { Tenant.reset with sqs := [(0, { Sq.reset with entries := [e] })] }
def copyS (out : Bool) : State :=
  runsS (started 2 []) { withPages (coreUnit 0) with hif := { Hif.reset with copies := [copyJ out] } }
def waitE (goal : Nat) : Entry := cmdEntry 3 [(0, 8, 2097152), (8, 8, goal), (0x14, 4, 9)]
def waitS (goal : Nat) : State := withEntry (waitE goal) Tenant.reset (withPages (coreUnit 0))
def markE : Entry := cmdEntry 0x1D [(0, 8, 2097152), (8, 8, 256)]

/-- An ABORT on ring 0 of the command at index 3 of ring 1, which stands in a phase; the same by TENANT_ABORT. -/
def abortE : Entry := cmdEntry 0x30 [(0, 1, 1), (2, 2, 3)]
def target (p : EntryPhase) : Entry := { cmdEntry 0 [] with cid := 9, idx := 3, phase := p }
def ring1 (p : EntryPhase) : Sq := { Sq.reset with head := 4, tail := 4, entries := [target p] }
def abortS (e : Entry) (p : EntryPhase) : State :=
  ((State.reset.wr F.hifStatusReady 1).wr (F.tenStateState 0) 2).setTenant 0
    { Tenant.reset with sqs := [(0, { Sq.reset with entries := [e] }), (1, ring1 p)] }
def adminE (opc : Nat) (args : List (Nat × Nat × Nat)) : Entry := cmdEntry opc args
def adminAs (e : Entry) (s : State) : State :=
  { s.wr F.hifStatusReady 1 with hif := { Hif.reset with adminOn := true, adminSq := { Sq.reset with entries := [e] } } }
def withRing1 (p : EntryPhase) : State :=
  (State.reset.wr (F.tenStateState 0) 2).setTenant 0 { Tenant.reset with sqs := [(1, ring1 p)] }

/-- Page 1 lies in frame 1 of HBM; line 8192 of it is resident, and locked in its slice or not. -/
def hbmS (locks : List Nat) : State :=
  let s := ((withHbm 0 State.reset).wr F.cstStatusReady 1).setTlb (coreUnit 0) [{ tenant := 0, page := 1, frame := 1, w := true, exec := false }]
  let x := Slice.reset
  withEntry markE Tenant.reset
    (withMem (fun m => { m with
      lines := [(8192, line1 false)]
      slices := (upto 0 4).map fun q => (q, { x with locked := locks }) }) s)
def lockS : State := hbmS [8192]

/-- A creation block of tenant 3, and a module whose frames are free. -/
def block3 (mib : Nat) : List Byte :=
  bytesOf 256 [(0, 1, 3), (2, 2, 9), (4, 4, mib), (0x11, 1, 2), (0x14, 4, 5), (0x18, 8, 64), (0x20, 8, 4096), (0x28, 4, 64)]
def ward0 : List Byte := bytesOf 2112 [(0x20, 1, 1), (64, 2, 9), (68, 2, 9), (70, 1, 7)]
def createS (bytes : Nat) : State := adminAs (adminE 0x80 []) (State.reset.setReg .hbmCapacity (BitVec.ofNat 64 bytes))
def tenant3 (x : Tenant) : State := (State.reset.wr (F.tenStateState 3) 2).setTenant 3 x
def resetE : Entry := adminE 0x81 [(0, 1, 3)]
def resetS : State :=
  adminAs resetE ((tenant3 { Tenant.reset with sqs := [(0, Sq.reset)], cqs := [(0, Cq.reset)], place := { Place.reset with areas := [40] } }).wr F.hifStatusLinkUp 1)
def ringE (opc kind : Nat) : Entry :=
  adminE opc ([(0, 1, 3), (1, 1, 5), (2, 1, kind), (8, 8, 4096)] ++ if opc = 0x83 then [(3, 1, 1), (4, 1, 1)] else [])
def ringsS (opc kind : Nat) : State :=
  adminAs (ringE opc kind) (tenant3 { Tenant.reset with sqs := [(7, Sq.reset)], cqs := [(1, Cq.reset)] })
def bar4S : State := (((State.reset.wr F.secStatusDebug 1).wr F.hifStatusReady 1).wr F.hifCtrlBar4En 1).wr (F.cstPartitionScratch 0) 16

/-! ### Securing and restore -/

/-! What a tenant's small state takes, without working its bytes out. -/

theorem leBytes_len (n v : Nat) : (leBytes n v).length = n := by
  induction n generalizing v with
  | zero => rfl
  | succ n ih => simp [leBytes, ih]
theorem upto_len (a n : Nat) : (upto a n).length = n := by
  induction n generalizing a with
  | zero => rfl
  | succ n ih => simp [upto, ih]
theorem flatten_len (k : Nat) (f : Nat → List Byte) (h : ∀ i, (f i).length = k) (xs : List Nat) :
    (xs.map f).flatten.length = xs.length * k := by
  induction xs with
  | nil => simp
  | cons x xs ih => simp only [List.map_cons, List.flatten_cons, List.length_append, h, ih, List.length_cons, Nat.succ_mul]; omega
theorem record_len (x : Step) (r : CommitRec) (h : r.cursor.length ≤ 16) : (x.recordBytes r).length = 131328 := by
  have z : ∀ n, (zeros n).length = n := fun n => by simp [zeros]
  have e : (x.snapshot r.counters).length = 131072 := by
    rw [Step.snapshot, flatten_len 32 _ fun i => by simp [leBytes_len, z], upto_len]
  simp only [Step.recordBytes, CommitRec.head, List.length_append, leBytes_len, z, e, List.length_take]
  omega
theorem num_len : Tenant.reset.num.bytes.length = 64 := by decide +kernel
theorem source_lens (s : State) (h : s.tenant 0 = Tenant.reset) : (s.sourceBlocks 0).map (·.len) = [131328, 64] := by
  have e : s.sourceBlocks 0 = s.smallState 0 := by simp [State.sourceBlocks, State.byHandle, h, Tenant.reset, Place.reset]
  have r : ((Tenant.reset.step).recordBytes (Tenant.reset.step).record).length = 131328 := record_len _ _ (by decide)
  rw [e]
  simp only [State.smallState, h, r, num_len]
  decide +kernel
theorem source_room (s : State) (h : s.tenant 0 = Tenant.reset) :
    genRoom (s.sourceBlocks (0 : TenantId)) = 196928 ∧ sourceBytes (s.sourceBlocks (0 : TenantId)) = 131392 := by
  show genRoom (s.sourceBlocks 0) = 196928 ∧ sourceBytes (s.sourceBlocks 0) = 131392
  have e := source_lens s h
  have l : (s.sourceBlocks 0).length = 2 := by rw [← List.length_map, e]; rfl
  have m : (s.sourceBlocks 0).map (fun b => blockRoom b.len) = ((s.sourceBlocks 0).map (·.len)).map blockRoom := by simp [Function.comp]
  refine ⟨?_, ?_⟩
  · rw [genRoom, l, m, e]; decide
  · rw [sourceBytes, e]; rfl


def resS : State := (State.reset.wr F.resStatusReady 1).wr (F.tenStateState 0) 2
def dueS (due : List (Nat × Nat)) (s : State) : State := { s with sec := { Secure.reset with due := due } }
/-- Partner 3 has reserved some bytes for this device. -/
def partS (bytes : Nat) : State :=
  { dueS [(0, 1)] resS with fab := { resS.fab with partner := some (3, 1), origins := [⟨3, 1, 0, bytes, []⟩] } }
def flashS : State :=
  dueS [(0, 2)] (((resS.wr F.durStatusReady 1).setBucket 0 1).wr (F.durBudgetDaily 0) 1)
def gen0 (state : Nat) (manifest : List Byte) : FlashGen := { state := state, step := 5, seq := 1, bytes := 1, manifest := manifest, blocks := [] }
/-- A drain of one staged byte, and of another after it. -/
def drain0 (layer rereads : Nat) : Drain :=
  { tenant := 0, layer := layer, step := 5, seq := 1, buf := 1, slot := 0, blocks := [⟨1, 0, 0, 1, some [9]⟩, ⟨1, 0, 1, 1, some [9]⟩]
    done := [], rereads := rereads, paused := false, phase := .blocks, genSlot := 0, base := 3 * 2 ^ 48, next := 0 }
def drainS (ds : List Drain) : State :=
  { resS with
    sec := { Secure.reset with drains := ds }
    flash := { State.reset.flash with gens := [(0, gen0 1 [])] } }
def drainOther : Drain := { drain0 1 0 with done := [⟨1, 0, 0, 1, 0, [8]⟩] }
/-- The same, a first drain having computed another digest of the first block. -/
def drainT (ds : List Drain) : State :=
  { drainS ds with sec := { (drainS ds).sec with digests := [(0, (1, [{ handle := 1, part := 0, off := 0, digest := 0 }]))] } }
/-- A manifest of some entries, an entry, a restore at a step, and a state that runs it. -/
def man0 (layer : Nat) (es : List (List Byte)) : List Byte :=
  let m := bytesOf 256 [(0, 8, 5), (0x10, 2, State.reset.node), (0x17, 1, layer), (0x18, 4, es.length), (0x1C, 4, 2)] ++ es.flatten
  setFld m 0x30 8 (crcFold 1 (crcFold 1 (crcInit 1) (leBytes 8 5)) (m.take 0x30 ++ (m.drop 256).take (64 * es.length)))
def ent (handle part flags len digest : Nat) : List Byte :=
  bytesOf 64 [(0, 4, handle), (4, 1, part), (5, 1, flags), (0x10, 4, len), (0x20, 32, digest)]
def smallEs : List (List Byte) := [ent 0 0xF0 0 131328 0, ent 0 0xF1 0 64 0]
def rdesc (source flags : Nat) : List Byte :=
  bytesOf 128 [(0, 1, 1), (1, 1, source), (2, 1, flags), (6, 2, State.reset.node), (8, 8, 5), (0x18, 2, 3)]
def restore0 (step source : Nat) (m : List Byte) : Restore :=
  { tenant := 0, desc := rdesc source 0, binds := [], step := step, manifest := m, slot := [], blocks := [], counters := [] }
def rsS (r : Restore) : State :=
  { resS.wr F.resRestoreStatusBusy 1 with
    sec := { Secure.reset with restore := some r }
    journal := { resS.journal with live := [(liveKey 2 0, 0)] }
    flash := { State.reset.flash with gens := [(0, gen0 2 (man0 2 []))], ringA := [(0, bytesOf 66 [(0x18, 2, 1), (0x40, 1, 2)])] } }
/-- The same, service firmware's ward covering every node's space. -/
def rsW (r : Restore) : State :=
  let s := rsS r
  { s with keeper := { s.keeper with sfWards := [(0, bytesOf 32 [(0, 2, 0), (2, 2, 0xFFFF), (6, 1, 255), (0x10, 6, 0xFFFFFFFFFFFF)])] } }
/-- What a replica's directory returns of step 5. -/
def replica5 (es : List (List Byte)) : List Byte :=
  let h := bytesOf 40 [(8, 8, 5)]
  setFld h 0x20 8 (crcFold 1 (crcFold 1 (crcInit 1) (leBytes 8 dirBase)) (h.take 0x20)) ++ zeros 4056 ++ man0 1 es
def bind1 : List Byte := bytesOf 32 [(0, 16, 7), (0x19, 1, 1)]
def rbind (flags : Nat) : Restore := { restore0 5 1 (man0 1 []) with desc := setFld (rdesc 1 flags) 0x20 16 (2 ^ 64 + 64), binds := bind1 }
def f1Data : List Byte := List.replicate 64 1
def f1Ent : List Byte := ent 0 0xF1 0 64 (blockDigest 5 0 0xF1 0 f1Data).toNat

/-- A LIFETIME record of JSEQ 1 without a payload, as a ring holds it. -/
def journal1 : List Byte := journalBody ⟨4, false, 255, 0, []⟩ 1 0 ++ leBytes 4 2029452011
theorem journal1_valid : journalValid journal1 = true := by decide +kernel

/-! ### Power -/

/-- The module's power controller at a phase. -/
def phaseS (p : PwrPhase) : State := { State.reset with pwr := { Pwr.reset with phase := p } }
def temps0 (d : Int) : Temps := { die := [d, 0, 0, 0], hbm := List.replicate 12 0, flash := 0 }
def read0 (vin mean : Nat) : PowerReading := ⟨BitVec.ofNat 16 vin, BitVec.ofNat 16 mean, 7, false, false⟩

/-! ### The keeper -/

/-- A keeper that runs, with a command of an opcode in front of a channel. -/
def mbxS (host : Bool) (op : Nat) (req : List Byte) : State :=
  let s := State.reset.wr F.secBootStatusStage 8
  let s := ((s.mbxWr host F.secMbxCtrlOpcode op).mbxWr host F.secMbxCtrlLength req.length).mbxWr host F.secStatusBusy 1
  let s := s.mbxStore host 0 (chunks 4 ((req.length + 3) / 4 * 4) req)
  { s with keeper := { s.keeper with chans := [host] } }
def modKeeper (f : Keeper → Keeper) (s : State) : State := { s with keeper := f s.keeper }
/-- A manifest of the reset keeper's root, but for what only its signature shows. -/
def manifest1 (svn : Nat) : List Byte := bytesOf 8192 [(0, 4, 0x4D424B48), (4, 2, 1), (6, 2, svn), (8, 8, 7), (0x11, 1, 3)]
/-- The module at a boot stage. -/
def bootS (n : Nat) : State := { State.reset.wr F.secBootStatusStage n with clk := { Clk.reset with rails := true } }

/-- A restore of frame 4 from staging frame 5, whose digest the keeper has recorded for frame 4. -/
def frzReq : List Byte := setFld (setFld (zeros 8) 0 4 5) 4 4 4
def frzS0 : State :=
  { mbxS false 0x25 frzReq with mem := { Mem.reset with recoveries := [{ rec0 1 with frame := 4, staging := 5 }] } }
def frzS : State := modKeeper (fun k => { k with digests := [(4, 0, digest256 (frzS0.read (frameAddr 5) (2 ^ 21)))] }) frzS0
theorem frz_holds : frzS.digestHolds 5 4 = true := by
  have h : frzS.read (frameAddr 5) (2 ^ 21) = frzS0.read (frameAddr 5) (2 ^ 21) := rfl
  have k : KMap.find frzS.keeper.digests 4 = some (0, digest256 (frzS0.read (frameAddr 5) (2 ^ 21))) := rfl
  rw [State.digestHolds, k, h]
  exact beq_self_eq_true _
theorem noSlot (i : Nat) :
    (modKeeper (fun k => { k with mirror := [(liveKey 0x101 0, leBytes 8 256)] }) ((bootS 5).wr F.durStatusReady 1)).keeperValue 0x103 i = none := by
  have h : ¬ liveKey 0x101 0 = liveKey 0x103 i := by unfold liveKey; omega
  simp [State.keeperValue, modKeeper, KMap.find, h]
theorem test_RegisterAccessesFollowTheirTypes_1 : ∃ a : Agent, ∃ off : Nat, ∃ v : DWord, ∃ r : Reg, ∃ s : State, Reg.find off = some r ∧ r.wide = false ∧ channelReg r = false ∧ r.own = false ∧ s.unsupported a off 4 = false :=
  ⟨.core 0, (Reg.cstCtrl).offset, 3, .cstCtrl, State.reset, by decide +kernel⟩

theorem test_RegisterAccessesFollowTheirTypes_2 : ∃ a : Agent, ∃ off size : Nat, ∃ w : Bool, ∃ s : State, s.unsupported a off size = true :=
  ⟨.host, 2, 4, true, State.reset, by decide +kernel⟩

theorem test_RegisterAccessesFollowTheirTypes_3 : ∃ a : Agent, ∃ off : Nat, ∃ r : Reg, ∃ s : State, Reg.find off = some r ∧ r.wide = true ∧ s.unsupported a off 4 = false :=
  ⟨.host, 0x10010, .clkFrame, State.reset, by decide +kernel⟩

theorem test_RegisterAccessesFollowTheirTypes_4 : ∃ a : Agent, ∃ off : Nat, ∃ r : Reg, ∃ v : Word, ∃ s : State, regBase off = some r ∧ s.unsupported a off 4 = false ∧ findHalf s.latches a (off - 4) = some v :=
  ⟨.host, 0x10014, .clkFrame, 7, { State.reset with latches := [(.host, 0x10010, 7)] }, by decide +kernel⟩

theorem test_RegisterAccessesFollowTheirTypes_5 : ∃ a : Agent, ∃ off : Nat, ∃ v : Word, ∃ r : Reg, ∃ s : State, Reg.find off = some r ∧ r.wide = true ∧ s.unsupported a off 4 = false :=
  ⟨.host, 0x10010, 5, .clkFrame, State.reset, by decide +kernel⟩

theorem test_RegisterAccessesFollowTheirTypes_6 : ∃ a : Agent, ∃ off : Nat, ∃ v lo : Word, ∃ r : Reg, ∃ s : State, regBase off = some r ∧ r.wide = true ∧ r.offset + 4 = off ∧ channelReg r = false ∧ r.own = false ∧ s.unsupported a off 4 = false ∧ findHalf s.lowHeld a (off - 4) = some lo :=
  ⟨.core 0, (Reg.hifApertureBase).offset + 4, 7, 3, .hifApertureBase, { State.reset with lowHeld := [(.core 0, (Reg.hifApertureBase).offset, 3)] }, by decide +kernel⟩

theorem test_RegisterAccessesFollowTheirTypes_7 : ∃ u : Nat, ∃ k x : Nat, ∃ rest : List TreeMsg, ∃ s : State, s.inbox u = .marker k x :: rest ∧ s.busyAt u = false :=
  ⟨5, 1, 2, [], { State.reset with tree := [(5, [.marker 1 2])] }, by decide +kernel⟩

theorem test_RegisterAccessesFollowTheirTypes_8 : ∃ u : Nat, ∃ k x : Nat, ∃ rest : List TreeMsg, ∃ s : State, s.inbox u = .marker k x :: rest ∧ s.busyAt u = true :=
  ⟨spindleUnit 0, 1, 2, [], { withRows { Spindle.reset with ops := [rowOp 0] } State.reset with tree := [(spindleUnit 0, [.marker 1 2])] }, by decide +kernel⟩

theorem test_ClocksStepAndHold_1 : ∃ d : BitVec 2, ∃ s : State, s.clk.step = .idle ∧ max (divider d.toNat) (max (divider (s.rd F.clkArrdivFwReq)) (divider (s.rd F.clkArrdivPwrFloor))) ≠ s.rd F.clkArrdivEffective :=
  ⟨2, State.reset, by decide +kernel⟩

theorem test_ClocksStepAndHold_2 : ∃ d : BitVec 2, ∃ s : State, s.clk.step = .idle ∧ max (divider (s.rd F.clkArrdivHostReq)) (max (divider d.toNat) (divider (s.rd F.clkArrdivPwrFloor))) ≠ s.rd F.clkArrdivEffective :=
  ⟨1, State.reset, by decide +kernel⟩

theorem test_ClocksStepAndHold_3 : ∃ s : State, s.clk.step = .waiting :=
  ⟨{ State.reset with clk := { Clk.reset with step := .waiting } }, by decide +kernel⟩

theorem test_ClocksStepAndHold_4 : ∃ s : State, s.clk.step = .held :=
  ⟨{ State.reset with clk := { Clk.reset with step := .held } }, by decide +kernel⟩

theorem test_ClocksStepAndHold_5 : ∃ s : State, s.clk.step = .idle ∧ s.clk.deferred = true ∧ s.slowest ≠ s.rd F.clkArrdivEffective :=
  ⟨({ State.reset with clk := { Clk.reset with deferred := true } }).wr F.clkArrdivPwrFloor 1, by decide +kernel⟩

theorem test_ClocksStepAndHold_6 : ∃ s : State, s.has F.clkStatusPllLock = true ∧ s.clk.refMissing = false :=
  ⟨State.reset.wr F.clkStatusPllLock 1, by decide +kernel⟩

theorem test_ClocksStepAndHold_7 : ∃ s : State, s.clk.refMissing = true ∧ s.rd F.clkStatusRefSrc ≠ 1 :=
  ⟨{ State.reset with clk := { Clk.reset with refMissing := true } }, by decide +kernel⟩

theorem test_ClocksStepAndHold_8 : ∃ s : State, s.clk.refMissing = true ∧ s.rd F.clkStatusRefSrc = 1 :=
  ⟨({ State.reset with clk := { Clk.reset with refMissing := true } }).wr F.clkStatusRefSrc 1, by decide +kernel⟩

theorem test_ClocksStepAndHold_9 : ∃ s : State, s.has F.clkStatusHoldover = true ∧ s.clk.refMissing = false :=
  ⟨State.reset.wr F.clkStatusHoldover 1, by decide +kernel⟩

theorem test_ClocksStepAndHold_10 : ∃ s : State, s.has F.clkStatusPllLock = true ∧ s.clk.unlocked = false :=
  ⟨State.reset.wr F.clkStatusPllLock 1, by decide +kernel⟩

theorem test_ClocksStepAndHold_11 : ∃ s : State, s.has F.clkStatusHoldover = true ∧ (s.clk.refMissing || s.clk.unlocked) = true ∧ s.pwr.resetting = none :=
  ⟨{ State.reset with clk := { Clk.reset with refMissing := true } }.wr F.clkStatusHoldover 1, by decide +kernel⟩

theorem test_ClocksStepAndHold_12 : ∃ s : State, s.clk.rails = true ∧ s.clk.selected = false ∧ ((s.refMode = 0 ∨ s.clk.autoWait = true)) :=
  ⟨{ State.reset with clk := { Clk.reset with rails := true, autoWait := true } }, by decide +kernel⟩

theorem test_ClocksStepAndHold_13 : ∃ s : State, s.clk.autoWait = true :=
  ⟨{ State.reset with clk := { Clk.reset with rails := true, autoWait := true } }, by decide +kernel⟩

theorem test_ClocksStepAndHold_14 : ∃ p : Straps, ∃ s : State, s.pwr.phase = .up ∧ s.clk.rails = false :=
  ⟨⟨5, true, 3⟩, { State.reset with pwr := { Pwr.reset with phase := .up } }, by decide +kernel⟩

theorem test_ClocksStepAndHold_15 : ∃ s : State, s.clk.rails = true ∧ s.clk.bypass = true ∧ s.clk.selected = true ∧ s.has F.secBootStatusHalted = false :=
  ⟨{ State.reset with clk := { Clk.reset with rails := true, selected := true } }, by decide +kernel⟩

theorem test_ClocksStepAndHold_16 : ∃ s : State, s.clk.rails = true ∧ s.clk.bypass = true ∧ s.clk.selected = true ∧ s.clk.tries < 3 :=
  ⟨{ State.reset with clk := { Clk.reset with rails := true, selected := true, tries := 2 } }, by decide +kernel⟩

theorem test_ClocksStepAndHold_17 : ∃ d : Domain, ∃ s : State, s.clk.rails = true ∧ s.clk.bypass = false ∧ domainOrder d = s.clk.released :=
  ⟨.service, { State.reset with clk := { Clk.reset with rails := true, bypass := false } }, by decide +kernel⟩

theorem test_InterruptSourcesAndWindows_1 : ∃ a : Agent, ∃ src : BitVec 12, ∃ s : State, s.has F.icuStatusReady = true ∧ s.sourceOwner src.toNat ≠ 3 :=
  ⟨.host, 0x800, State.reset.wr F.icuStatusReady 1, by decide +kernel⟩

theorem test_InterruptSourcesAndWindows_2 : ∃ a : Agent, ∃ src : BitVec 12, ∃ s : State, s.has F.icuStatusReady = true ∧ s.sourceOwner src.toNat = 3 :=
  ⟨.host, 0x460, State.reset.wr F.icuStatusReady 1, by decide +kernel⟩

theorem test_InterruptSourcesAndWindows_3 : ∃ a : Agent, ∃ i : Fin 128, ∃ v : Word, ∃ s : State, (v.setWidth 64 : DWord) &&& ~~~ s.ownedBits a i 32 0 = 0 ∧ (∀ x ∈ s.icu.held, x.2 < 2048) :=
  ⟨.core 1, 64, 5, State.reset, by decide +kernel⟩

theorem test_InterruptSourcesAndWindows_4 : ∃ a : Agent, ∃ i : Fin 128, ∃ v : Word, ∃ s : State, (v.setWidth 64 : DWord) &&& ~~~ s.ownedBits a i 32 0 = 0 :=
  ⟨.core 1, 64, 5, State.reset, by decide +kernel⟩

theorem test_InterruptSourcesAndWindows_5 : ∃ a : Agent, ∃ i : Fin 128, ∃ v : Word, ∃ s : State, s.ownedBits a i 32 0 = 0 ∧ v ≠ 0 :=
  ⟨.host, 64, 5, State.reset, by decide +kernel⟩

theorem test_InterruptSourcesAndWindows_6 : ∃ a : Agent, ∃ i : Fin 128, ∃ v : Word, ∃ s : State, s.has F.icuStatusReady = true ∧ (v.setWidth 64 : DWord) &&& ~~~ s.ownedBits a i 32 0 = 0 :=
  ⟨.core 1, 64, 5, State.reset.wr F.icuStatusReady 1, by decide +kernel⟩

theorem test_InterruptSourcesAndWindows_7 : ∃ a : Agent, ∃ i : Fin 128, ∃ v : Word, ∃ s : State, (v.setWidth 64 : DWord) &&& ~~~ s.ownedBits a i 32 0 = 0 ∧ (∀ x ∈ s.icu.held, x.2 < 2048) :=
  ⟨.core 1, 64, 5, State.reset.pend 0x800, by decide +kernel⟩

theorem test_InterruptSourcesAndWindows_8 : ∃ s : State, s.clk.rails = true :=
  ⟨{ State.reset with clk := { Clk.reset with rails := true } }, by decide +kernel⟩

theorem test_InterruptSourcesAndWindows_9 : ∃ k : Fin 8, ∃ n : Nat, ∃ rest : List Nat, ∃ s : State, s.coreQ k = n :: rest ∧ rest.length < 16 :=
  ⟨2, 7, [9], State.reset.setCoreQ 2 [7, 9], by decide +kernel⟩

theorem test_InterruptDeliveries_1 : ∃ ctl : MsixCtl, ∃ n : Nat, ∃ s : State, n < 4096 ∧ ((∀ w, w < 128 → s.reg (.icuPendSet w) &&& ~~~ s.reg (.icuMaskSet w) = if w = n / 32 then BitVec.ofNat 64 (2 ^ (n % 32)) else 0)) ∧ s.rd (F.icuRouteKind n) = 2 ∧ s.icu.keeperQ.length < 32 :=
  ⟨⟨true, false⟩, 0xC05, ((State.reset.wr F.icuStatusReady 1).pend 0xC05 |>.setReg (.icuMaskSet 96) 0 |>.wr (F.icuRouteKind 0xC05) 2), by decide +kernel⟩

theorem test_InterruptDeliveries_2 : ∃ ctl : MsixCtl, ∃ n k : Nat, ∃ s : State, n < 4096 ∧ ((∀ w, w < 128 → s.reg (.icuPendSet w) &&& ~~~ s.reg (.icuMaskSet w) = if w = n / 32 then BitVec.ofNat 64 (2 ^ (n % 32)) else 0)) ∧ s.rd (F.icuRouteKind n) = 1 ∧ s.lowestCore (s.eligible n) = some k :=
  ⟨⟨true, false⟩, 0x805, 0, ((State.reset.wr F.icuStatusReady 1).pend 0x805 |>.setReg (.icuMaskSet 64) 0 |>.wr (F.icuRouteKind 0x805) 1 |>.wr (F.icuRoutePrio 0x805) 9 |>.wr (F.icuCorePrioPrio 0) 3), by decide +kernel⟩

theorem test_InterruptDeliveries_3 : ∃ ctl : MsixCtl, ∃ n : Nat, ∃ s : State, n < 4096 ∧ ((∀ w, w < 128 → s.reg (.icuPendSet w) &&& ~~~ s.reg (.icuMaskSet w) = if w = n / 32 then BitVec.ofNat 64 (2 ^ (n % 32)) else 0)) ∧ s.rd (F.icuRouteKind n) = 0 ∧ s.vectorHeld ctl (s.vectorOf n) = true ∧ s.icu.held.any (fun x => x.1 == n) = false :=
  ⟨⟨false, false⟩, 0x485, ((State.reset.wr F.icuStatusReady 1).pend 0x485 |>.setReg (.icuMaskSet 36) 0 |>.wr (F.icuRouteKind 0x485) 0), by decide +kernel⟩

theorem test_InterruptDeliveries_4 : ∃ ctl : MsixCtl, ∃ n : Nat, ∃ s : State, n < 4096 ∧ ((∀ w, w < 128 → s.reg (.icuPendSet w) &&& ~~~ s.reg (.icuMaskSet w) = if w = n / 32 then BitVec.ofNat 64 (2 ^ (n % 32)) else 0)) ∧ s.rd (F.icuRouteKind n) = 0 ∧ s.vectorHeld ctl (s.vectorOf n) = false ∧ s.icu.held.any (fun x => x.1 == n) = false :=
  ⟨⟨true, false⟩, 0x485, ((State.reset.wr F.icuStatusReady 1).pend 0x485 |>.setReg (.icuMaskSet 36) 0 |>.wr (F.icuRouteKind 0x485) 0 |>.wr F.hifStatusLinkUp 1 |>.setReg (.icuMsix ((State.reset.wr F.icuStatusReady 1).vectorOf 0x485) 3) 0), by decide +kernel⟩

theorem test_InterruptDeliveries_5 : ∃ ctl : MsixCtl, ∃ vec : Fin 2048, ∃ s : State, s.vectorHeld ctl vec = false ∧ s.icu.held.any (fun x => x.2 == vec.val) = true :=
  ⟨⟨true, false⟩, 0, { ((State.reset.wr F.hifStatusLinkUp 1).setReg (.icuMsix 0 3) 0).setReg (.icuPendSet 36) 0xFF with icu := { Icu.reset with held := [(0x485, 0), (0x486, 1), (0x487, 0)] } }, by decide +kernel⟩

theorem test_CheckUnitsFeedAndComplete_1 : ∃ a : Agent, ∃ u : CheckId, ∃ v : Word, ∃ s : State, agentOwner a = s.chkOwner u ∧ v.getLsbD 5 = true ∧ v.getLsbD 7 = false ∧ s.rd (F.chkStatusState u) ≠ 1 ∧ s.chkOwner u = 2 :=
  ⟨.keeper, 29, 0x21, State.reset, by decide +kernel⟩

theorem test_CheckUnitsFeedAndComplete_2 : ∃ a : Agent, ∃ u : CheckId, ∃ s : State, agentOwner a = s.chkOwner u ∧ s.rd (F.chkStatusState u) = 1 ∧ s.reg (.chkLen u) = 0 :=
  ⟨.keeper, 29, State.reset.wr (F.chkStatusState 29) 1, by decide +kernel⟩

theorem test_CheckUnitsFeedAndComplete_3 : ∃ a : Agent, ∃ u : CheckId, ∃ s : State, agentOwner a = s.chkOwner u :=
  ⟨.core 0, 3, State.reset.wr (F.chkStatusState 3) 1, by decide +kernel⟩

theorem test_CheckUnitsFeedAndComplete_4 : ∃ u : CheckId, ∃ o : BitVec 2, ∃ s : State, u.val < 28 ∧ o.toNat < 2 :=
  ⟨3, 1, State.reset, by decide +kernel⟩

theorem test_CheckUnitsFeedAndComplete_5 : ∃ u : CheckId, ∃ o : BitVec 2, ∃ s : State, (28 ≤ u.val ∨ 2 ≤ o.toNat) :=
  ⟨30, 1, State.reset, by decide +kernel⟩

theorem test_CheckUnitsFeedAndComplete_6 : ∃ a : Agent, ∃ u : CheckId, ∃ v : Byte, ∃ s : State, agentOwner a = s.chkOwner u ∧ s.rd (F.chkStatusState u) = 1 ∧ (s.chkUnit u).finishing = false ∧ (s.chkUnit u).waiting = [] ∧ (s.chkUnit u).queue.length < 16 :=
  ⟨.keeper, 29, 7, State.reset.wr (F.chkStatusState 29) 1, by decide +kernel⟩

theorem test_CheckUnitsFeedAndComplete_7 : ∃ a : Agent, ∃ u : CheckId, ∃ v : Word, ∃ s : State, agentOwner a = s.chkOwner u ∧ s.rd (F.chkStatusState u) = 1 ∧ (s.chkUnit u).finishing = false ∧ (s.chkUnit u).queue.length = 16 :=
  ⟨.keeper, 29, 7, { State.reset.wr (F.chkStatusState 29) 1 with chk := [(29, { Chk.reset with queue := List.replicate 16 [1] })] }, by decide +kernel⟩

theorem test_CheckUnitsFeedAndComplete_8 : ∃ a : Agent, ∃ u : CheckId, ∃ v : DWord, ∃ s : State, agentOwner a = s.chkOwner u ∧ s.rd (F.chkStatusState u) = 1 ∧ (s.chkUnit u).finishing = false ∧ (s.chkUnit u).waiting = [] ∧ (s.chkUnit u).queue.length < 16 :=
  ⟨.keeper, 29, 7, State.reset.wr (F.chkStatusState 29) 1, by decide +kernel⟩

theorem test_CheckUnitsFeedAndComplete_9 : ∃ a : Agent, ∃ u : CheckId, ∃ v : DWord, ∃ s : State, agentOwner a = s.chkOwner u ∧ s.rd (F.chkStatusState u) ≠ 1 :=
  ⟨.core 2, 3, 7, State.reset, by decide +kernel⟩

theorem test_CheckUnitsFeedAndComplete_10 : ∃ u : CheckId, ∃ bs : List Byte, ∃ rest : List (List Byte), ∃ s : State, (s.chkUnit u).queue = bs :: rest ∧ (s.chkUnit u).waiting = [] ∧ s.rd (F.chkStatusState u) = 1 ∧ s.reg (.chkLen u) = 0 :=
  ⟨29, [1, 2], [[3]], { State.reset.wr (F.chkStatusState 29) 1 with chk := [(29, { Chk.reset with queue := [[1, 2], [3]] })] }, by decide +kernel⟩

theorem test_CheckUnitsFeedAndComplete_11 : ∃ u : CheckId, ∃ bs : List Byte, ∃ rest : List (List Byte), ∃ s : State, (s.chkUnit u).queue = bs :: rest ∧ s.rd (F.chkStatusState u) = 1 ∧ s.reg (.chkLen u) ≠ 0 ∧ (s.reg (.chkLen u)).toNat < (s.reg (.chkFed u)).toNat + bs.length :=
  ⟨29, [1, 2], [[3]], { (State.reset.wr (F.chkStatusState 29) 1).setReg (.chkLen 29) 1 with chk := [(29, { Chk.reset with queue := [[1, 2], [3]] })] }, by decide +kernel⟩

theorem test_CheckUnitsFeedAndComplete_12 : ∃ u : CheckId, ∃ s : State, s.checkDue u = true ∧ (s.chkUnit u).cmp = true ∧ crcFinal (s.chkUnit u).poly (s.chkUnit u).crc % 2 ^ crcWidth (s.chkUnit u).poly ≠ (s.reg (.chkExpect u)).toNat % 2 ^ crcWidth (s.chkUnit u).poly :=
  ⟨29, { State.reset.wr (F.chkStatusState 29) 1 with chk := [(29, { Chk.reset with finishing := true, cmp := true, crc := 5 })] }, by decide +kernel⟩

theorem test_CheckUnitsFeedAndComplete_13 : ∃ u : CheckId, ∃ s : State, s.checkDue u = true ∧ (s.chkUnit u).cmp = false :=
  ⟨29, { State.reset.wr (F.chkStatusState 29) 1 with chk := [(29, { Chk.reset with finishing := true, crc := 5 })] }, by decide +kernel⟩

theorem test_ArraySequencerAcceptsAndStarts_1 : ∃ u g lane dst n l slot : Nat, ∃ desc : List Byte, ∃ rest : List TreeMsg, ∃ s : State, s.inbox arrayUnit = .arrIssue u g lane dst n l desc :: rest ∧ s.has F.arrStatusReady = true ∧ s.arr.ops.length < 512 ∧ (s.arr.ops.filter fun o => o.tenant == n).length < s.rd (F.arrTenquotaQuota n) ∧ (s.tumbler u).freeToken = some slot ∧ s.arrayStops = false :=
  ⟨3, 0, 0, 4, 0, 0, 0, arrDesc, [], (State.reset.wr F.arrStatusReady 1).send arrayUnit (.arrIssue 3 0 0 4 0 0 arrDesc), by decide +kernel⟩

theorem test_ArraySequencerAcceptsAndStarts_2 : ∃ n : Nat, ∃ o : ArrOp, ∃ s : State, s.mayStart = true ∧ s.arrTurn = some n ∧ n < 16 ∧ s.nextOp n = some o ∧ ((s.chooseOp o).arrChecks o).2 = none ∧ dAccCont o.desc = false ∧ arrClaims o.desc = false ∧ dOfmt o.desc ≠ 6 ∧ s.arrayStops = false :=
  ⟨0, arrOp .queued, withArr [arrOp .queued] (withPages arrayUnit), by decide +kernel⟩

theorem test_ArraySequencerAcceptsAndStarts_3 : ∃ o : ArrOp, ∃ r : ArrRead, ∃ s : State, s.arr.ops.find? (fun o => o.phase == .reading) = some o ∧ s.bankClear o = true ∧ (s.readProblems arrayUnit tlbArray o.tenant o.desc (upto 0 (arrProblems o.desc))).2.toOption = some r ∧ s.arrayStops = false :=
  have ⟨r, h⟩ := Option.isSome_iff_exists.mp (show ((withArr [arrOp .reading] (withPages arrayUnit)).readProblems arrayUnit tlbArray 0 arrDesc (upto 0 1)).2.toOption.isSome = true by decide +kernel)
  ⟨arrOp .reading, r, withArr [arrOp .reading] (withPages arrayUnit), by decide +kernel, by decide +kernel, h, by decide +kernel⟩

theorem test_ArraySequencerAcceptsAndStarts_4 : ∃ o : ArrOp, ∃ k : Chain, ∃ bs : List (List Byte), ∃ s : State, s.arr.ops.find? (fun o => o.phase == .filling && s.bankClear o) = some o ∧ o.chain = some k ∧ (s.fetchVecs arrayUnit tlbArray o.tenant [(k.spill, spillBytes k.groups k.m k.n)]).2.toOption = some bs ∧ s.arrayStops = false :=
  ⟨{ arrOp .filling with chain := some ⟨0, 2, 1, 1, 0, 1, 1, [], 4194304, none, false, []⟩ }, ⟨0, 2, 1, 1, 0, 1, 1, [], 4194304, none, false, []⟩, [zeros 5], withArr [{ arrOp .filling with chain := some ⟨0, 2, 1, 1, 0, 1, 1, [], 4194304, none, false, []⟩ }] (withPages arrayUnit), by decide +kernel⟩

theorem test_ArraySequencerAcceptsAndStarts_5 : ∃ s : State, 5 ≤ s.clk.released :=
  ⟨{ State.reset with clk := { Clk.reset with released := 5 } }, by decide +kernel⟩

theorem test_ArrayOperationsEndAndDrain_1 : ∃ o : ArrOp, ∃ s : State, s.arr.ops.find? (fun o => o.phase == .tail) = some o ∧ dHold o.desc = false ∧ s.arrayStops = false :=
  ⟨arrOp .tail, withArr [arrOp .tail] State.reset, by decide +kernel⟩

theorem test_ArrayOperationsEndAndDrain_2 : ∃ o : ArrOp, ∃ s : State, s.arr.ops.find? (fun o => o.phase == .tail) = some o ∧ dHold o.desc = true ∧ s.arrayStops = false :=
  ⟨{ arrOp .tail with desc := setFld arrDesc 6 2 8 }, withArr [{ arrOp .tail with desc := setFld arrDesc 6 2 8 }] State.reset, by decide +kernel⟩

theorem test_ArrayOperationsEndAndDrain_3 : ∃ o : ArrOp, ∃ s : State, s.pathOp = some o ∧ o.phase = .due ∧ s.metaClash o.tenant (arrMetas o.desc) = false ∧ (∀ x ∈ s.arr.ops, x.meets o.tenant (arrMetas o.desc) = false) ∧ (∀ x ∈ s.spn.ops, x.meets o.tenant (arrMetas o.desc) = false) ∧ s.arrayStops = false :=
  ⟨arrOp .due, { State.reset with arr := { ArrSeq.reset with ops := [arrOp .due], path := [(false, 0, 1)] } }, by decide +kernel⟩

theorem test_ArrayOperationsEndAndDrain_4 : ∃ o : ArrOp, ∃ outs : List (DrainOut × List Nat), ∃ s : State, s.pathOp = some o ∧ o.phase = .draining ∧ (s.drainProblems o (upto 0 (arrProblems o.desc))).2.toOption = some outs ∧ dCMeta o.desc = 0 ∧ o.clash = false ∧ s.arrayStops = false :=
  ⟨arrOp .draining, (({ withPages arrayUnit with arr := { ArrSeq.reset with ops := [arrOp .draining], path := [(false, 0, 1)] } } : State).drainProblems (arrOp .draining) (upto 0 1)).2.toOption.getD [], { withPages arrayUnit with arr := { ArrSeq.reset with ops := [arrOp .draining], path := [(false, 0, 1)] } }, by decide +kernel⟩

theorem test_ArrayOperationsEndAndDrain_5 : ∃ o : ArrOp, ∃ s : State, s.arr.ops.find? (fun o => o.phase == .ending && !((s.arr.ops.takeWhile fun x => x != o).any fun x => x.tenant == o.tenant)) = some o ∧ dDone o.desc = 0 :=
  ⟨arrOp .ending, withArr [arrOp .ending] State.reset, by decide +kernel⟩

theorem test_ArrayOperationsEndAndDrain_6 : ∃ o : ArrOp, ∃ s : State, s.arr.ops.find? (fun o => o.phase == .ending && !((s.arr.ops.takeWhile fun x => x != o).any fun x => x.tenant == o.tenant)) = some o ∧ dDone o.desc ≠ 0 ∧ (s.drawn.storeSpan arrayUnit tlbArray o.tenant (dDone o.desc) (leBytes 2 o.status ++ zeros 2 ++ leBytes 4 (dTag o.desc) ++ leBytes 8 s.tag)).2 = .ok [] :=
  ⟨{ arrOp .ending with desc := setFld arrDesc 0x60 8 4194304 }, withArr [{ arrOp .ending with desc := setFld arrDesc 0x60 8 4194304 }] (withPages arrayUnit), by decide +kernel⟩

theorem test_ArrayOperationsEndAndDrain_7 : ∃ k : Chain, ∃ s : State, s.waitingChain = some k ∧ k.spill = 0 ∧ s.arrayStops = false :=
  ⟨⟨0, 2, 1, 1, 0, 1, 1, [], 0, some 0, false, [1]⟩, { State.reset with arr := { ArrSeq.reset with ops := [{ arrOp .queued with tenant := 1 }], chains := [⟨0, 2, 1, 1, 0, 1, 1, [], 0, some 0, false, [1]⟩] } }, by decide +kernel⟩

theorem test_ArrayOperationsEndAndDrain_8 : ∃ k : Chain, ∃ s : State, s.waitingChain = some k ∧ k.spill ≠ 0 ∧ s.arrayStops = false :=
  ⟨⟨0, 2, 1, 1, 0, 1, 1, [], 4194304, some 0, false, [1]⟩, { State.reset with arr := { ArrSeq.reset with ops := [{ arrOp .queued with tenant := 1 }], chains := [⟨0, 2, 1, 1, 0, 1, 1, [], 4194304, some 0, false, [1]⟩] } }, by decide +kernel⟩

theorem test_ArrayOperationsEndAndDrain_9 : ∃ n m : Nat, ∃ rest : List (Bool × Nat × Nat), ∃ k : Chain, ∃ s : State, s.arr.path = (true, n, m) :: rest ∧ s.chain? n m = some k ∧ ((s.setArr { s.arr with path := rest }).storeSpan arrayUnit tlbArray n k.spill (k.data.map fun x => leBytes 5 x).flatten).2 = .ok [] ∧ s.arrayStops = false :=
  ⟨0, 2, [], ⟨0, 2, 1, 1, 0, 1, 1, [], 4194304, some 0, true, [1]⟩, { withPages arrayUnit with arr := { ArrSeq.reset with chains := [⟨0, 2, 1, 1, 0, 1, 1, [], 4194304, some 0, true, [1]⟩], path := [(true, 0, 2)] } }, by decide +kernel⟩

theorem test_RowOperationsRun_1 : ∃ u g lane dst n l slot : Nat, ∃ desc : List Byte, ∃ rest : List TreeMsg, ∃ s : State, s.inbox (spindleUnit 0) = .rowIssue u g lane dst n l desc :: rest ∧ s.has F.arrSpnStatusReady = true ∧ s.spn.ops.length < 256 ∧ (s.spn.ops.filter fun o => o.tenant == n).length < s.rd (F.arrSpnTenantQuota n) ∧ (s.tumbler u).freeToken = some slot :=
  ⟨3, 0, 0, 4, 0, 0, 0, rowDesc, [], (State.reset.wr F.arrSpnStatusReady 1).send (spindleUnit 0) (.rowIssue 3 0 0 4 0 0 rowDesc), by decide +kernel⟩

theorem test_RowOperationsRun_2 : ∃ n : TenantId, ∃ o : RowOp, ∃ s : State, s.spn.ops.find? (fun o => o.tenant == n.val) = some o ∧ o.phase = 0 ∧ (s.rowChecks o).2 = none ∧ rOp o.desc ≠ rowFree ∧ rRound o.desc ≠ 1 :=
  ⟨0, rowOp 0, (withRows { Spindle.reset with ops := [rowOp 0], running := [] } (withPages (spindleUnit 0))), by decide +kernel⟩

theorem test_RowOperationsRun_3 : ∃ n : TenantId, ∃ o : RowOp, ∃ s : State, s.spn.ops.find? (fun o => o.tenant == n.val) = some o ∧ o.phase = 0 ∧ (s.rowChecks o).2 = none ∧ rOp o.desc = rowFree :=
  ⟨0, { rowOp 0 with desc := setFld rowDesc 1 1 15 }, (withRows { Spindle.reset with ops := [{ rowOp 0 with desc := setFld rowDesc 1 1 15 }], running := [] } (withPages (spindleUnit 0))), by decide +kernel⟩

theorem test_RowOperationsRun_4 : ∃ q : QuadId, ∃ o : RowOp, ∃ k : Nat, ∃ s : State, KMap.find s.spn.running q = none ∧ s.chunkTurn q = some o ∧ o.nextChunk q = some k ∧ rowReads o.desc = false ∧ (∀ x ∈ s.arr.ops, x.meets o.tenant (if o.starts.isEmpty then rowMetas o.desc else []) = false) ∧ (∀ x ∈ s.spn.ops, x.meets o.tenant (if o.starts.isEmpty then rowMetas o.desc else []) = false) ∧ (((s.markClash o.tenant (if o.starts.isEmpty then rowMetas o.desc else [])).modRow o.tenant o.seq fun x => { x with starts := KMap.put x.starts q (KMap.get x.starts q 0 + 1), clash := x.clash || s.metaClash o.tenant (if o.starts.isEmpty then rowMetas o.desc else []) }).chunkTranslate o q k).2 = none :=
  ⟨0, rowOp 1, 0, (withRows { Spindle.reset with ops := [rowOp 1], running := [] } (withPages (spindleUnit 0))), by decide +kernel⟩

theorem test_RowOperationsRun_5 : ∃ q : QuadId, ∃ n m k : Nat, ∃ o : RowOp, ∃ s : State, KMap.find s.spn.running q = some (n, m, k) ∧ s.spn.ops.find? (fun o => o.tenant == n && o.seq == m && o.phase == 1) = some o ∧ ((((s.setSpn { s.spn with running := KMap.del s.spn.running q }).count (spindleUnit q) 1 (rowPasses o.desc * rLen o.desc + 16)).count (spindleUnit q) 2 1).chunkRun o q k).2 = none :=
  ⟨0, 0, 1, 0, rowOp 1, (withRows { Spindle.reset with ops := [rowOp 1], running := [(0, (0, 1, 0))] } (withPages (spindleUnit 0))), by decide +kernel⟩

theorem test_RowOperationsRun_6 : ∃ n : TenantId, ∃ o : RowOp, ∃ s : State, s.spn.ops.find? (fun o => o.tenant == n.val) = some o ∧ o.phase = 2 ∧ rDone o.desc = 0 :=
  ⟨0, rowOp 2, (withRows { Spindle.reset with ops := [rowOp 2], running := [] } (withPages (spindleUnit 0))), by decide +kernel⟩

theorem test_RowOperationsRun_7 : ∃ n : TenantId, ∃ o : RowOp, ∃ s : State, s.spn.ops.find? (fun o => o.tenant == n.val) = some o ∧ o.phase = 1 ∧ o.ended = rowChunks o.desc ∧ o.sums = 0 ∧ o.clash = false ∧ f32bad o.loss.toNat = false ∧ rMeta o.desc = 0 ∧ rDone o.desc = 0 :=
  ⟨0, { rowOp 1 with ended := 1 }, (withRows { Spindle.reset with ops := [{ rowOp 1 with ended := 1 }], running := [] } (withPages (spindleUnit 0))), by decide +kernel⟩

theorem test_RowOperationsRun_8 : ∃ s : State, 2 ≤ s.clk.released :=
  ⟨{ State.reset with clk := { Clk.reset with released := 2 } }, by decide +kernel⟩

theorem test_NumericReportsReachTheirRecords_1 : ∃ x : AmaxReport, ∃ rest : List AmaxReport, ∃ r : NumRec, ∃ s : State, s.amax = x :: rest ∧ s.rec? x.tenant x.handle = some r ∧ r.handle = x.handle :=
  ⟨⟨0, 5, 0x3F800000, 2, 1, none⟩, [], numRec, { withTenant { Tenant.reset with recs := [(5, numRec)] } with amax := [⟨0, 5, 0x3F800000, 2, 1, none⟩] }, by decide +kernel⟩

theorem test_NumericReportsReachTheirRecords_2 : ∃ x : Sample, ∃ rest : List Sample, ∃ s : State, s.agm.offered = x :: rest ∧ s.agm.held.length < 4 ∧ s.arrayStops = false :=
  ⟨⟨0, 0, 1, 0, []⟩, [], { State.reset with agm := { Agm.reset with offered := [⟨0, 0, 1, 0, []⟩] } }, by decide +kernel⟩

theorem test_NumericReportsReachTheirRecords_3 : ∃ x : Sample, ∃ rest : List Sample, ∃ s : State, s.agm.offered = x :: rest ∧ 4 ≤ s.agm.held.length ∧ s.arrayStops = false :=
  ⟨⟨0, 0, 1, 0, []⟩, [], { State.reset with agm := { Agm.reset with offered := [⟨0, 0, 1, 0, []⟩], held := List.replicate 4 ⟨0, 0, 1, 0, []⟩ } }, by decide +kernel⟩

theorem test_NumericReportsReachTheirRecords_4 : ∃ x : Sample, ∃ rest : List Sample, ∃ d : Nat, ∃ s : State, s.agm.held = x :: rest ∧ disagreement (x.elems.map fun e => e.reference x.alpha) (x.elems.map fun e => e.y.toNat) = some d ∧ exceedsPow d (s.rd (F.arrAgmThreshWarnExp x.ofmt)) = false ∧ exceedsPow d (s.rd (F.arrAgmThreshAlarmExp x.ofmt)) = false ∧ s.arrayStops = false :=
  ⟨⟨0, 0, 1, 0x3F800000, [⟨[(0x3F800000, 0x3F800000)], none, 0x3F800000⟩]⟩, [], 0, { State.reset with agm := { Agm.reset with held := [⟨0, 0, 1, 0x3F800000, [⟨[(0x3F800000, 0x3F800000)], none, 0x3F800000⟩]⟩] } }, by decide +kernel⟩

theorem test_NumericReportsReachTheirRecords_5 : ∃ x : Sample, ∃ rest : List Sample, ∃ d : Nat, ∃ s : State, s.agm.held = x :: rest ∧ disagreement (x.elems.map fun e => e.reference x.alpha) (x.elems.map fun e => e.y.toNat) = some d ∧ exceedsPow d (s.rd (F.arrAgmThreshWarnExp x.ofmt)) = true ∧ exceedsPow d (s.rd (F.arrAgmThreshAlarmExp x.ofmt)) = false ∧ s.arrayStops = false :=
  ⟨⟨0, 0, 1, 0x3F800000, [⟨[(0x3F800000, 0x3F800000)], none, 0x40000000⟩]⟩, [], 0x3F800000, ({ State.reset with agm := { Agm.reset with held := [⟨0, 0, 1, 0x3F800000, [⟨[(0x3F800000, 0x3F800000)], none, 0x40000000⟩]⟩] } } : State).wr (F.arrAgmThreshWarnExp 1) 3 |>.wr (F.arrAgmThreshAlarmExp 1) 0, by decide +kernel⟩

theorem test_NumericReportsReachTheirRecords_6 : ∃ x : PoisonReport, ∃ rest : List PoisonReport, ∃ s : State, s.poison = x :: rest ∧ (s.tenant x.tenant).step.phase = .opened ∧ (s.tenant x.tenant).num.poison = false :=
  ⟨⟨0, 4, 7, 9⟩, [], { withTenant { Tenant.reset with step := { Step.reset with phase := .opened } } with poison := [⟨0, 4, 7, 9⟩] }, by decide +kernel⟩

theorem test_NumericReportsReachTheirRecords_7 : ∃ x : PoisonReport, ∃ rest : List PoisonReport, ∃ s : State, s.poison = x :: rest ∧ (s.tenant x.tenant).step.phase = .sealing ∧ (s.tenant x.tenant).num.poison = true :=
  ⟨⟨0, 4, 7, 9⟩, [], { withTenant { Tenant.reset with step := { Step.reset with phase := .sealing }, num := { NumState.reset with poison := true } } with poison := [⟨0, 4, 7, 9⟩] }, by decide +kernel⟩

theorem test_NumericReportsReachTheirRecords_8 : ∃ s : State, 2 ≤ s.clk.released :=
  ⟨{ State.reset with clk := { Clk.reset with released := 2 } }, by decide +kernel⟩

theorem test_StepCommandsAct_1 : ∃ n : TenantId, ∃ r : RingId, ∃ e : Entry, ∃ b : List Byte, ∃ s : State, s.mayRun n r 0x10 e ∧ e.arg 0 8 % 64 = 0 ∧ ((s.begun n r e).fwRead n (e.arg 0 8) 128).2 = .ok b ∧ scbOk b = true ∧ s.ringOf n e.cid = r ∧ (s.tenant n).step.lost = false ∧ (s.tenant n).step.phase = .idle ∧ (s.tenant n).step.openHeld = none ∧ fld b 0 8 = (s.tenant n).step.record.step + 1 :=
  ⟨0, 0, cmdEntry 0x10 [(0, 8, 2097152)], bytesOf 128 [(0, 8, 1)], withEntry (cmdEntry 0x10 [(0, 8, 2097152)]) Tenant.reset ((withPages (coreUnit 0)).write windowBase [1]), by decide +kernel⟩

theorem test_StepCommandsAct_2 : ∃ n : TenantId, ∃ r : RingId, ∃ e : Entry, ∃ b : List Byte, ∃ s : State, s.mayRun n r 0x11 e ∧ e.arg 0 8 % 64 = 0 ∧ ((s.begun n r e).fwRead n (e.arg 0 8) 128).2 = .ok b ∧ scbOk b = true ∧ (s.tenant n).step.phase = .opened ∧ (s.tenant n).step.commit = none ∧ fld b 0 8 = (s.tenant n).step.scbStep :=
  ⟨0, 0, cmdEntry 0x11 [(0, 8, 2097152)], bytesOf 128 [(0, 8, 1)], withEntry (cmdEntry 0x11 [(0, 8, 2097152)]) (stepTenant fun x => { x with phase := .opened, scbStep := 1 }) ((withPages (coreUnit 0)).write windowBase [1]), by decide +kernel⟩

theorem test_StepCommandsAct_3 : ∃ n : TenantId, ∃ r : RingId, ∃ e : Entry, ∃ b : List Byte, ∃ s : State, s.mayRun n r 0x12 e ∧ e.arg 0 8 % 64 = 0 ∧ ((s.begun n r e).fwRead n (e.arg 0 8) 128).2 = .ok b ∧ scbOk b = true ∧ (s.tenant n).step.phase = .opened ∧ (s.tenant n).step.commit = none ∧ fld b 0 8 = (s.tenant n).step.scbStep ∧ e.cid ∉ (s.tenant n).step.cancels :=
  ⟨0, 0, cmdEntry 0x12 [(0, 8, 2097152)], bytesOf 128 [(0, 8, 1)], withEntry (cmdEntry 0x12 [(0, 8, 2097152)]) (stepTenant fun x => { x with phase := .opened, scbStep := 1 }) ((withPages (coreUnit 0)).write windowBase [1]), by decide +kernel⟩

theorem test_StepCommandsAct_4 : ∃ n : TenantId, ∃ r : RingId, ∃ e : Entry, ∃ x : NumState, ∃ s : State, s.mayRun n r 0x13 e ∧ (s.tenant n).step.phase = .idle ∧ (s.tenant n).num.policyOf e = some x :=
  ⟨0, 0, cmdEntry 0x13 [(0, 2, 1), (4, 4, 100)], { NumState.reset with growthInterval := 100 }, withEntry (cmdEntry 0x13 [(0, 2, 1), (4, 4, 100)]) Tenant.reset State.reset, by decide +kernel⟩

theorem test_StepCommandsAct_5 : ∃ n : TenantId, ∃ bad : List (Nat × Nat × Nat), ∃ s : State, s.active n = true ∧ (s.tenant n).step.phase = .idle ∧ s.running n = true :=
  ⟨0, [], { withEntry (cmdEntry 0 []) Tenant.reset State.reset with spn := { Spindle.reset with ops := [rowOp 0] } }, by decide +kernel⟩

theorem test_StepCommandsAct_6 : ∃ n : TenantId, ∃ bad : List (Nat × Nat × Nat), ∃ k : Nat, ∃ s : State, s.active n = true ∧ (s.tenant n).step.phase = .idle ∧ s.running n = false ∧ s.boundaryDue n = false ∧ (s.tenant n).place.worked = false ∧ s.mapoutCap = none ∧ s.recovering n = false ∧ s.unrecovered n = false ∧ s.has F.cstStatusPartBusy = false ∧ (s.tenant n).step.openHeld = some k :=
  ⟨0, [], 7, withEntry (cmdEntry 0x10 []) (stepTenant fun x => { x with openHeld := some 7 }) State.reset, by decide +kernel⟩

theorem test_UpdateAndCommit_1 : ∃ n : TenantId, ∃ s : State, (s.tenant n).step.phase = .opened ∧ (s.tenant n).step.commit.isSome = true ∧ s.running n = false ∧ s.sampleHeld n = false ∧ s.enginesTaken n = false ∧ s.has F.arrUpdStatusReady = true ∧ (s.tenant n).num.poison = false ∧ (s.tenant n).step.listCount = 0 :=
  ⟨0, (withTenant (stepTenant fun x => { x with phase := .opened, commit := some 7 })).wr F.arrUpdStatusReady 1, by decide +kernel⟩

theorem test_UpdateAndCommit_2 : ∃ n : TenantId, ∃ bs : List Byte, ∃ s : State, (s.tenant n).step.phase = .opened ∧ (s.tenant n).step.commit.isSome = true ∧ s.running n = false ∧ s.sampleHeld n = false ∧ s.enginesTaken n = false ∧ s.has F.arrUpdStatusReady = true ∧ (s.tenant n).num.poison = false ∧ (s.tenant n).step.listCount ≠ 0 ∧ (s.tenant n).step.listAddr % 64 = 0 ∧ (s.tenant n).step.listCount ≤ 65536 ∧ ((s.setPhase n .updating).fetchSpan (updateUnit 0) tlbUpdate n (s.tenant n).step.listAddr (64 * (s.tenant n).step.listCount) false).2 = .ok bs ∧ (chunks 64 bs.length bs).all (fun d => s.updOk n d) = true ∧ namesDistinct ((chunks 64 bs.length bs).map fun d => fld d 0 4) = true ∧ bs ≠ [] ∧ s.bufferDrained n (1 - (s.tenant n).step.buf) = false :=
  ⟨0, (updWork 0 0).descs.headD [], ((((withPages (updateUnit 0)).write windowBase ((updWork 0 0).descs.headD [])).setTenant 0 { updTenant (updWork 0 0) with step := { Step.reset with phase := .opened, commit := some 7, listAddr := 2097152, listCount := 1 } }).wr F.arrUpdStatusReady 1), by decide +kernel⟩

theorem test_UpdateAndCommit_3 : ∃ n : TenantId, ∃ s : State, (s.tenant n).step.phase = .updating ∧ (s.tenant n).step.drainWait = true ∧ s.bufferDrained n (1 - (s.tenant n).step.buf) = false ∧ (s.tenant n).num.poison = false :=
  ⟨0, withTenant (stepTenant fun x => { x with phase := .updating, drainWait := true }), by decide +kernel⟩

theorem test_UpdateAndCommit_4 : ∃ n : TenantId, ∃ k : UpdWork, ∃ d : List Byte, ∃ w g : Tensor, ∃ a : Word, ∃ s : State, (s.tenant n).step.work = some k ∧ (s.tenant n).num.poison = false ∧ k.idx < k.quant + 2 ∧ k.descs[k.idx]? = some d ∧ s.updPair n d = some (w, g) ∧ g.parts.find? (fun q => q.code == 0 && s.partPoisoned q) = none ∧ (s.optimise n d w g).2.toOption = some a :=
  ⟨0, updWork 0 0, (updWork 0 0).descs.headD [], tensor1 1 1, tensor1 2 5, 0, withTenant (updTenant (updWork 0 0)), by decide +kernel⟩

theorem test_UpdateAndCommit_5 : ∃ n : TenantId, ∃ k : UpdWork, ∃ d : List Byte, ∃ w : Tensor, ∃ s : State, (s.tenant n).step.work = some k ∧ (s.tenant n).num.poison = false ∧ k.quant < k.idx ∧ k.descs[k.quant]? = some d ∧ s.heldTensor n (fld d 0 4) = some w ∧ k.quant + 1 ≠ k.descs.length :=
  ⟨0, updWork 1 0, (updWork 0 0).descs.headD [], tensor1 1 1, withTenant (updTenant (updWork 1 0)), by decide +kernel⟩

theorem test_UpdateAndCommit_6 : ∃ n : TenantId, ∃ k : UpdWork, ∃ d : List Byte, ∃ w : Tensor, ∃ s : State, (s.tenant n).step.work = some k ∧ (s.tenant n).num.poison = false ∧ k.quant < k.idx ∧ k.descs[k.quant]? = some d ∧ s.heldTensor n (fld d 0 4) = some w ∧ k.quant + 1 = k.descs.length :=
  ⟨0, updWork 2 1, (updWork 0 0).descs.headD [], tensor1 1 1, withTenant (updTenant (updWork 2 1)), by decide +kernel⟩

theorem test_UpdateAndCommit_7 : ∃ n : TenantId, ∃ k : Nat, ∃ e : Entry, ∃ s : State, (s.tenant n).step.phase = .sealing ∧ (s.tenant n).num.poison = false ∧ (s.tenant n).step.commit = some k ∧ k ∉ (s.tenant n).step.cancels ∧ s.entry? n (s.ringOf n k) k = some e ∧ e.ended = false ∧ (∀ w ∈ s.waits, w.met = none ∧ ¬(w.tenant = n.val ∧ w.ring = s.ringOf n k ∧ w.cid = k)) :=
  ⟨0, 7, cmdEntry 0x11 [], withEntry (cmdEntry 0x11 []) (stepTenant fun x => { x with phase := .sealing, commit := some 7 }) State.reset, by decide +kernel⟩

theorem test_IntegerInstructions_1 : ∃ u : TumblerId, ∃ g : SlotId, ∃ w : IWord, ∃ c : Ctx, ∃ s : State, s.issues u g w (formOf w 2 (intSpan w)) always c ∧ w.mod.toNat ≤ 3 ∧ w.dst.toNat + intSpan w ≤ c.l.regs :=
  ⟨0, 0, word 8 4 5 6 0, ctx1 (word 8 4 5 6 0), withTumbler tumbler1, by decide +kernel⟩

theorem test_IntegerInstructions_2 : ∃ u : TumblerId, ∃ g : SlotId, ∃ w : IWord, ∃ c : Ctx, ∃ s : State, s.issues u g w (formOf w 2 (intSpan w)) always c ∧ w.mod.toNat ≤ 3 ∧ w.dst.toNat + intSpan w ≤ c.l.regs :=
  ⟨0, 0, word 8 4 5 6 0, ctx1 (word 8 4 5 6 0), withTumbler tumbler1, by decide +kernel⟩

theorem test_IntegerInstructions_3 : ∃ u : TumblerId, ∃ g : SlotId, ∃ w : IWord, ∃ c : Ctx, ∃ s : State, s.issues u g w (formOf w 2 (intSpan w)) always c ∧ w.mod.toNat ≤ 3 ∧ w.dst.toNat + intSpan w ≤ c.l.regs :=
  ⟨0, 0, word 8 4 5 6 0, ctx1 (word 8 4 5 6 0), withTumbler tumbler1, by decide +kernel⟩

theorem test_IntegerInstructions_4 : ∃ u : TumblerId, ∃ g : SlotId, ∃ w : IWord, ∃ c : Ctx, ∃ s : State, s.issues u g w (formOf w 3 (intSpan w)) always c ∧ w.mod.toNat ≤ 3 ∧ w.dst.toNat + intSpan w ≤ c.l.regs :=
  ⟨0, 0, word 8 4 5 6 2, ctx1 (word 8 4 5 6 2), withTumbler tumbler1, by decide +kernel⟩

theorem test_IntegerInstructions_5 : ∃ u : TumblerId, ∃ g : SlotId, ∃ w : IWord, ∃ c : Ctx, ∃ s : State, s.issues u g w (formOf w 2 (intSpan w)) always c ∧ w.mod.toNat ≤ 3 ∧ w.dst.toNat + intSpan w ≤ c.l.regs :=
  ⟨0, 0, word 8 4 5 6 0, ctx1 (word 8 4 5 6 0), withTumbler tumbler1, by decide +kernel⟩

theorem test_IntegerInstructions_6 : ∃ u : TumblerId, ∃ g : SlotId, ∃ w : IWord, ∃ c : Ctx, ∃ s : State, s.issues u g w (formOf w 2 (intSpan w)) always c ∧ w.mod.toNat ≤ 3 ∧ w.dst.toNat + intSpan w ≤ c.l.regs :=
  ⟨0, 0, word 8 4 5 6 0, ctx1 (word 8 4 5 6 0), withTumbler tumbler1, by decide +kernel⟩

theorem test_IntegerInstructions_7 : ∃ u : TumblerId, ∃ g : SlotId, ∃ w : IWord, ∃ c : Ctx, ∃ s : State, s.issues u g w (formOf w 2 (intSpan w)) always c ∧ w.mod.toNat ≤ 3 ∧ w.dst.toNat + intSpan w ≤ c.l.regs :=
  ⟨0, 0, word 8 4 5 6 0, ctx1 (word 8 4 5 6 0), withTumbler tumbler1, by decide +kernel⟩

theorem test_IntegerInstructions_8 : ∃ u : TumblerId, ∃ g : SlotId, ∃ w : IWord, ∃ c : Ctx, ∃ s : State, s.issues u g w (formOf w 2 (intSpan w)) always c ∧ w.mod.toNat ≤ 3 ∧ w.dst.toNat + intSpan w ≤ c.l.regs :=
  ⟨0, 0, word 8 4 5 6 3, ctx1 (word 8 4 5 6 3), withTumbler tumbler1, by decide +kernel⟩

theorem test_LogicAndLaneInstructions_1 : ∃ u : TumblerId, ∃ g : SlotId, ∃ w : IWord, ∃ c : Ctx, ∃ s : State, s.issues u g w (formOf w 2 1) always c ∧ w.mod = 0 ∧ w.dst.toNat < c.l.regs :=
  ⟨0, 0, word 8 4 5 6 0, ctx1 (word 8 4 5 6 0), withTumbler tumbler1, by decide +kernel⟩

theorem test_LogicAndLaneInstructions_2 : ∃ u : TumblerId, ∃ g : SlotId, ∃ w : IWord, ∃ c : Ctx, ∃ s : State, s.issues u g w (formOf w 2 1) always c ∧ w.mod = 0 ∧ w.dst.toNat < c.l.regs :=
  ⟨0, 0, word 8 4 5 6 0, ctx1 (word 8 4 5 6 0), withTumbler tumbler1, by decide +kernel⟩

theorem test_LogicAndLaneInstructions_3 : ∃ u : TumblerId, ∃ g : SlotId, ∃ w : IWord, ∃ c : Ctx, ∃ s : State, s.issues u g w (formOf w 2 1) always c ∧ w.mod = 0 ∧ w.dst.toNat < c.l.regs :=
  ⟨0, 0, word 8 4 5 6 0, ctx1 (word 8 4 5 6 0), withTumbler tumbler1, by decide +kernel⟩

theorem test_LogicAndLaneInstructions_4 : ∃ u : TumblerId, ∃ g : SlotId, ∃ w : IWord, ∃ c : Ctx, ∃ s : State, s.issues u g w (formOf w 1 1) always c ∧ w.mod = 0 ∧ w.dst.toNat < c.l.regs :=
  ⟨0, 0, word 8 4 5 6 0, ctx1 (word 8 4 5 6 0), withTumbler tumbler1, by decide +kernel⟩

theorem test_LogicAndLaneInstructions_5 : ∃ u : TumblerId, ∃ g : SlotId, ∃ w : IWord, ∃ c : Ctx, ∃ s : State, s.issues u g w (formOf w 1 1) always c ∧ w.mod = 0 ∧ w.dst.toNat < c.l.regs :=
  ⟨0, 0, word 8 4 5 6 0, ctx1 (word 8 4 5 6 0), withTumbler tumbler1, by decide +kernel⟩

theorem test_LogicAndLaneInstructions_6 : ∃ u : TumblerId, ∃ g : SlotId, ∃ w : IWord, ∃ c : Ctx, ∃ s : State, s.issues u g w (formOf w 1 1) always c ∧ w.mod = 0 ∧ w.dst.toNat < c.l.regs :=
  ⟨0, 0, word 8 4 5 6 0, ctx1 (word 8 4 5 6 0), withTumbler tumbler1, by decide +kernel⟩

theorem test_LogicAndLaneInstructions_7 : ∃ u : TumblerId, ∃ g : SlotId, ∃ w : IWord, ∃ c : Ctx, ∃ s : State, s.issues u g w (formOf w 2 1) always c ∧ w.mod = 0 ∧ w.dst.toNat < c.l.regs :=
  ⟨0, 0, word 8 4 5 1 0, ctx1 (word 8 4 5 1 0), withTumbler tumbler1, by decide +kernel⟩

theorem test_LogicAndLaneInstructions_8 : ∃ u : TumblerId, ∃ g : SlotId, ∃ w : IWord, ∃ c : Ctx, ∃ s : State, s.issues u g w ({ srcs := [], dst := [(w.dst.toNat, 1)] }) always c ∧ w.dst.toNat < c.l.regs :=
  ⟨0, 0, word 8 4 5 1 0xFFFE, ctx1 (word 8 4 5 1 0xFFFE), withTumbler tumbler1, by decide +kernel⟩

theorem test_LogicAndLaneInstructions_9 : ∃ u : TumblerId, ∃ g : SlotId, ∃ w : IWord, ∃ c : Ctx, ∃ s : State, s.issues u g w (formOf w 2 1) always c ∧ w.mod.toNat ≤ 3 ∧ w.dst.toNat < c.l.regs :=
  ⟨0, 0, word 8 4 9 1 2, ctx1 (word 8 4 9 1 2), withTumbler tumbler1, by decide +kernel⟩

theorem test_LogicAndLaneInstructions_10 : ∃ u : TumblerId, ∃ g : SlotId, ∃ w : IWord, ∃ c : Ctx, ∃ s : State, s.issues u g w (formOf w 1 1) always c ∧ w.mod.toNat ≤ 2 ∧ w.dst.toNat < c.l.regs :=
  ⟨0, 0, word 8 4 5 1 2, ctx1 (word 8 4 5 1 2), withTumbler tumbler1, by decide +kernel⟩

theorem test_LogicAndLaneInstructions_11 : ∃ u : TumblerId, ∃ g : SlotId, ∃ w : IWord, ∃ c : Ctx, ∃ s : State, s.issues u g w ({ srcs := [], dst := [(w.dst.toNat, 1)] }) always c ∧ w.mod.toNat ≤ 8 ∧ w.dst.toNat < c.l.regs :=
  ⟨0, 0, word 8 4 5 1 8, ctx1 (word 8 4 5 1 8), withTumbler tumbler1, by decide +kernel⟩

theorem test_FloatingPointInstructions_1 : ∃ u : TumblerId, ∃ g : SlotId, ∃ w : IWord, ∃ c : Ctx, ∃ s : State, s.issues u g w (formOf w 2 1) always c ∧ w.mod.toNat ≤ 1 ∧ w.dst.toNat < c.l.regs :=
  ⟨0, 0, word 8 4 5 6 1, ctx1 (word 8 4 5 6 1), withTumbler tumbler1, by decide +kernel⟩

theorem test_FloatingPointInstructions_2 : ∃ u : TumblerId, ∃ g : SlotId, ∃ w : IWord, ∃ c : Ctx, ∃ s : State, s.issues u g w (formOf w 2 1) always c ∧ w.mod.toNat ≤ 1 ∧ w.dst.toNat < c.l.regs :=
  ⟨0, 0, word 8 4 5 6 1, ctx1 (word 8 4 5 6 1), withTumbler tumbler1, by decide +kernel⟩

theorem test_FloatingPointInstructions_3 : ∃ u : TumblerId, ∃ g : SlotId, ∃ w : IWord, ∃ c : Ctx, ∃ s : State, s.issues u g w (formOf w 3 1) always c ∧ w.mod.toNat ≤ 1 ∧ w.dst.toNat < c.l.regs :=
  ⟨0, 0, word 8 4 5 6 1, ctx1 (word 8 4 5 6 1), withTumbler tumbler1, by decide +kernel⟩

theorem test_FloatingPointInstructions_4 : ∃ u : TumblerId, ∃ g : SlotId, ∃ w : IWord, ∃ c : Ctx, ∃ s : State, s.issues u g w (formOf w 2 1) always c ∧ w.mod.toNat ≤ 1 ∧ w.dst.toNat < c.l.regs :=
  ⟨0, 0, word 8 4 5 6 1, ctx1 (word 8 4 5 6 1), withTumbler tumbler1, by decide +kernel⟩

theorem test_FloatingPointInstructions_5 : ∃ u : TumblerId, ∃ g : SlotId, ∃ w : IWord, ∃ c : Ctx, ∃ s : State, s.issues u g w (formOf w 2 1) always c ∧ w.mod.toNat ≤ 1 ∧ w.dst.toNat < c.l.regs :=
  ⟨0, 0, word 8 4 5 6 1, ctx1 (word 8 4 5 6 1), withTumbler tumbler1, by decide +kernel⟩

theorem test_FloatingPointInstructions_6 : ∃ u : TumblerId, ∃ g : SlotId, ∃ w : IWord, ∃ c : Ctx, ∃ s : State, s.issues u g w (formOf w 2 1) always c ∧ w.mod = 0 ∧ w.dst.toNat < c.l.regs :=
  ⟨0, 0, word 8 4 5 6 0, ctx1 (word 8 4 5 6 0), withTumbler tumbler1, by decide +kernel⟩

theorem test_FloatingPointInstructions_7 : ∃ u : TumblerId, ∃ g : SlotId, ∃ w : IWord, ∃ c : Ctx, ∃ s : State, s.issues u g w (formOf w 1 1) always c ∧ w.mod = 0 ∧ w.dst.toNat < c.l.regs :=
  ⟨0, 0, word 8 4 5 6 0, ctx1 (word 8 4 5 6 0), withTumbler tumbler1, by decide +kernel⟩

theorem test_FloatingPointInstructions_8 : ∃ u : TumblerId, ∃ g : SlotId, ∃ w : IWord, ∃ c : Ctx, ∃ s : State, s.issues u g w (formOf w 1 1) always c ∧ w.mod = 0 ∧ w.dst.toNat < c.l.regs :=
  ⟨0, 0, word 8 4 5 6 0, ctx1 (word 8 4 5 6 0), withTumbler tumbler1, by decide +kernel⟩

theorem test_FloatingPointInstructions_9 : ∃ u : TumblerId, ∃ g : SlotId, ∃ w : IWord, ∃ c : Ctx, ∃ s : State, s.issues u g w (formOf w 1 1) always c ∧ w.mod = 0 ∧ w.dst.toNat < c.l.regs :=
  ⟨0, 0, word 8 4 5 6 0, ctx1 (word 8 4 5 6 0), withTumbler tumbler1, by decide +kernel⟩

theorem test_FloatingPointInstructions_10 : ∃ u : TumblerId, ∃ g : SlotId, ∃ w : IWord, ∃ c : Ctx, ∃ s : State, s.issues u g w (formOf w 1 1) always c ∧ w.mod = 0 ∧ w.dst.toNat < c.l.regs :=
  ⟨0, 0, word 8 4 5 6 0, ctx1 (word 8 4 5 6 0), withTumbler tumbler1, by decide +kernel⟩

theorem test_FloatingPointInstructions_11 : ∃ u : TumblerId, ∃ g : SlotId, ∃ w : IWord, ∃ c : Ctx, ∃ s : State, s.issues u g w (formOf w 1 1) always c ∧ w.mod = 0 ∧ w.dst.toNat < c.l.regs :=
  ⟨0, 0, word 8 4 5 6 0, ctx1 (word 8 4 5 6 0), withTumbler tumbler1, by decide +kernel⟩

theorem test_FloatingPointInstructions_12 : ∃ u : TumblerId, ∃ g : SlotId, ∃ w : IWord, ∃ c : Ctx, ∃ s : State, s.issues u g w (predForm w) always c ∧ w.mod.toNat ≤ 5 ∧ w.dst.toNat < 15 :=
  ⟨0, 0, word 3 4 5 6 2, ctx1 (word 3 4 5 6 2), withTumbler tumbler1, by decide +kernel⟩

theorem test_FloatingPointInstructions_13 : ∃ u : TumblerId, ∃ g : SlotId, ∃ w : IWord, ∃ c : Ctx, ∃ s : State, s.issues u g w (predForm w) always c ∧ w.mod.toNat ≤ 5 ∧ w.dst.toNat < 15 :=
  ⟨0, 0, word 3 4 5 6 2, ctx1 (word 3 4 5 6 2), withTumbler tumbler1, by decide +kernel⟩

theorem test_ControlFlowInstructions_1 : ∃ u : TumblerId, ∃ g : SlotId, ∃ w : IWord, ∃ c : Ctx, ∃ m : Member, ∃ s : State, s.issues u g w ({ srcs := [], dst := [] }) always c ∧ c.ms = [m] ∧ m.on = m.act ∧ m.on ≠ 0 :=
  ⟨0, 0, word 0 0 0 0 4, ctx1 (word 0 0 0 0 4), ⟨0, 0, allLanes, allLanes⟩, withTumbler tumbler1, by decide +kernel⟩

theorem test_ControlFlowInstructions_2 : ∃ u : TumblerId, ∃ g : SlotId, ∃ w : IWord, ∃ c : Ctx, ∃ m : Member, ∃ x : Group, ∃ s : State, s.issues u g w ({ srcs := [], dst := [] }) always c ∧ c.ms = [m] ∧ m.on ≠ m.act ∧ m.on ≠ 0 ∧ ((s.fetched u g w ({ srcs := [], dst := [] }) c).split u c.ms).group? u m.slot = some x ∧ x.stack.length < 32 :=
  ⟨0, 0, { word 0 0 0 0 4 with pred := 1 }, { ctx1 { word 0 0 0 0 4 with pred := 1 } with ms := [⟨0, 0, allLanes, 1⟩] }, ⟨0, 0, allLanes, 1⟩, { group1 with preds := [(1, 1)], frags := [⟨allLanes, 2097160, [], .ready, none, false⟩] }, withTumbler { tumbler1 with groups := [(0, { group1 with preds := [(1, 1)] })] }, by decide +kernel⟩

theorem test_ControlFlowInstructions_3 : ∃ u : TumblerId, ∃ g : SlotId, ∃ w : IWord, ∃ c : Ctx, ∃ m : Member, ∃ s : State, s.issues u g w ({ srcs := [], dst := [] }) always c ∧ c.ms = [m] ∧ m.on = m.act ∧ m.on ≠ 0 :=
  ⟨0, 0, word 8 4 5 6 0, ctx1 (word 8 4 5 6 0), ⟨0, 0, allLanes, allLanes⟩, withTumbler tumbler1, by decide +kernel⟩

theorem test_ControlFlowInstructions_4 : ∃ u : TumblerId, ∃ g : SlotId, ∃ w : IWord, ∃ c : Ctx, ∃ m : Member, ∃ s : State, s.issues u g w ({ srcs := [], dst := [] }) always c ∧ c.ms = [m] ∧ m.on = m.act ∧ m.on ≠ 0 :=
  ⟨0, 0, word 8 4 5 6 0, ctx1 (word 8 4 5 6 0), ⟨0, 0, allLanes, allLanes⟩, withTumbler tumbler1, by decide +kernel⟩

theorem test_ControlFlowInstructions_5 : ∃ u : TumblerId, ∃ g : SlotId, ∃ w : IWord, ∃ c : Ctx, ∃ s : State, s.issues u g w ({ srcs := [], dst := [] }) always c ∧ w.mod = 0 :=
  ⟨0, 0, word 8 4 5 6 0, ctx1 (word 8 4 5 6 0), withTumbler tumbler1, by decide +kernel⟩

theorem test_ControlFlowInstructions_6 : ∃ u : TumblerId, ∃ g : SlotId, ∃ w : IWord, ∃ c : Ctx, ∃ s : State, s.issues u g w ({ srcs := [], dst := [] }) always c ∧ w.mod = 0 ∧ c.any = true :=
  ⟨0, 0, word 8 4 5 6 0, ctx1 (word 8 4 5 6 0), withTumbler tumbler1, by decide +kernel⟩

theorem test_ControlFlowInstructions_7 : ∃ u : TumblerId, ∃ g : SlotId, ∃ w : IWord, ∃ c : Ctx, ∃ s : State, s.issues u g w ({ srcs := [(0, w.sa.toNat, 1)], dst := [] }) always c ∧ w.mod = 0 ∧ c.any = true ∧ (c.ms.any fun m => (((s.fetched u g w ({ srcs := [(0, w.sa.toNat, 1)], dst := [] }) c).group? u m.slot).map fun x => barBad x (c.barInsts m x)).getD false) = false :=
  ⟨0, 0, { word 8 4 5 6 0 with pred := 1 }, { ctx1 { word 8 4 5 6 0 with pred := 1 } with ms := [⟨0, 0, allLanes, 1⟩] }, withTumbler { tumbler1 with groups := [(0, { group1 with preds := [(1, 1)] })] }, by decide +kernel⟩

theorem test_ControlFlowInstructions_8 : ∃ u : TumblerId, ∃ g : SlotId, ∃ w : IWord, ∃ c : Ctx, ∃ s : State, s.issues u g w ({ srcs := [], dst := [] }) always c ∧ w.mod.toNat < 16 ∧ c.any = true :=
  ⟨0, 0, word 0 0 0 0 3, ctx1 (word 0 0 0 0 3), withTumbler tumbler1, by decide +kernel⟩

theorem test_ControlFlowInstructions_9 : ∃ u : TumblerId, ∃ g : SlotId, ∃ w : IWord, ∃ c : Ctx, ∃ s : State, s.issues u g w ({ srcs := [], dst := [] }) always c ∧ w.mod.toNat = 0 :=
  ⟨0, 0, word 8 4 5 6 0, ctx1 (word 8 4 5 6 0), withTumbler tumbler1, by decide +kernel⟩

theorem test_ControlFlowInstructions_10 : ∃ u : TumblerId, ∃ g : SlotId, ∃ w : IWord, ∃ c : Ctx, ∃ s : State, s.issues u g w ({ srcs := [], dst := [] }) (fun s c => s.quiet c false) c ∧ w.mod.toNat < 8 :=
  ⟨0, 0, word 0 0 0 0 1, ctx1 (word 0 0 0 0 1), withTumbler tumbler1, by decide +kernel⟩

theorem test_ControlFlowInstructions_11 : ∃ u : TumblerId, ∃ g : SlotId, ∃ w : IWord, ∃ c : Ctx, ∃ s : State, s.issues u g w ({ srcs := [], dst := [] }) (fun s c => s.quiet c false) c ∧ w.mod.toNat < 8 :=
  ⟨0, 0, word 0 0 0 0 2, ctx1 (word 0 0 0 0 2), withTumbler tumbler1, by decide +kernel⟩

theorem test_ControlFlowInstructions_12 : ∃ u : TumblerId, ∃ g : SlotId, ∃ w : IWord, ∃ c : Ctx, ∃ s : State, s.issues u g w ({ srcs := [], dst := [] }) (fun s c => s.quiet c false) c ∧ w.mod.toNat < 8 ∧ c.any = true ∧ c.l.system = true :=
  ⟨0, 0, word 0 0 0 0 3, { ctx1 (word 0 0 0 0 3) with l := { launch1 with desc := setFld launch1.desc 1 1 2 } }, { withTumbler tumbler1 with launches := [{ launch1 with desc := setFld launch1.desc 1 1 2 }] }, by decide +kernel⟩

theorem test_ControlFlowInstructions_13 : ∃ u : TumblerId, ∃ g : SlotId, ∃ w : IWord, ∃ c : Ctx, ∃ s : State, s.issues u g w ({ srcs := [], dst := [] }) (fun s c => s.quiet c true) c ∧ w.mod.toNat < 8 ∧ c.any = true ∧ c.l.system = true :=
  ⟨0, 0, word 0 0 0 0 4, { ctx1 (word 0 0 0 0 4) with l := { launch1 with desc := setFld launch1.desc 1 1 2 } }, { withTumbler tumbler1 with launches := [{ launch1 with desc := setFld launch1.desc 1 1 2 }] }, by decide +kernel⟩

theorem test_EngineIssuesAndTokens_1 : ∃ u : TumblerId, ∃ g : SlotId, ∃ w : IWord, ∃ c : Ctx, ∃ s : State, s.issues u g w ({ srcs := [(0, w.sa.toNat, 1)], dst := [(w.dst.toNat, 2)] }) State.settled c ∧ w.mod = 0 ∧ (c.ms.all fun m => (s.issueAt c m 0 1).all fun a => a.2 % 128 == 0 && decide (a.2 + 128 ≤ c.l.lmem)) = true :=
  ⟨0, 0, word 8 6 0 0 0, ctx1 (word 8 6 0 0 0), withTumbler { tumbler1 with groups := [(0, { group1 with regs := [(192, 256)] })] }, by decide +kernel⟩

theorem test_EngineIssuesAndTokens_2 : ∃ u : TumblerId, ∃ g : SlotId, ∃ w : IWord, ∃ c : Ctx, ∃ s : State, s.issues u g w ({ srcs := [(0, w.sa.toNat, 1)], dst := [(w.dst.toNat, 2)] }) State.settled c ∧ w.mod = 0 ∧ (c.ms.all fun m => (s.issueAt c m 0 1).all fun a => a.2 % 128 == 0 && decide (a.2 + 128 ≤ c.l.lmem)) = true :=
  ⟨0, 0, word 8 6 0 0 0, ctx1 (word 8 6 0 0 0), withTumbler { tumbler1 with groups := [(0, { group1 with regs := [(192, 256)] })] }, by decide +kernel⟩

theorem test_EngineIssuesAndTokens_3 : ∃ u : TumblerId, ∃ g : SlotId, ∃ w : IWord, ∃ c : Ctx, ∃ s : State, s.issues u g w ({ srcs := [(0, w.sa.toNat, 2)], dst := [(w.dst.toNat, 1)] }) always c ∧ w.mod.toNat ≤ 1 ∧ w.dst.toNat < c.l.regs ∧ (c.ms.all fun m => (s.issueAt c m 0 2).all fun a => s.tokenAt u a.2 == none) = true :=
  ⟨0, 0, word 8 4 5 6 0, ctx1 (word 8 4 5 6 0), withTumbler tumbler1, by decide +kernel⟩

theorem test_EngineIssuesAndTokens_4 : ∃ u : TumblerId, ∃ g : SlotId, ∃ w : IWord, ∃ c : Ctx, ∃ m : Member, ∃ a q st : Nat, ∃ k : Token, ∃ s : State, s.issues u g w ({ srcs := [(0, w.sa.toNat, 2)], dst := [(w.dst.toNat, 1)] }) always c ∧ w.mod.toNat ≤ 1 ∧ w.dst.toNat < c.l.regs ∧ c.ms = [m] ∧ (s.issueAt c m 0 2).map (·.2) = some a ∧ s.tokenAt u a = some (q, k) ∧ k.status = some st :=
  ⟨0, 0, word 8 4 5 6 0, ctx1 (word 8 4 5 6 0), ⟨0, 0, allLanes, allLanes⟩, tokenWord 0 0 6, 0, 0x104, ⟨0, 6, 1, some 0x104⟩, withTumbler { tumbler1 with groups := [(0, { group1 with regs := [(128, 6), (160, 2 ^ 31)] })], tokens := [(0, ⟨0, 6, 1, some 0x104⟩)] }, by decide +kernel⟩

theorem test_EngineIssuesAndTokens_5 : ∃ u : TumblerId, ∃ g : SlotId, ∃ w : IWord, ∃ c : Ctx, ∃ m : Member, ∃ a q : Nat, ∃ k : Token, ∃ s : State, s.issues u g w ({ srcs := [(0, w.sa.toNat, 2)], dst := [(w.dst.toNat, 1)] }) always c ∧ w.mod.toNat = 0 ∧ c.ms = [m] ∧ (s.issueAt c m 0 2).map (·.2) = some a ∧ s.tokenAt u a = some (q, k) ∧ k.status = none ∧ m.on = m.act :=
  ⟨0, 0, word 8 4 5 6 0, ctx1 (word 8 4 5 6 0), ⟨0, 0, allLanes, allLanes⟩, tokenWord 0 0 6, 0, ⟨0, 6, 1, none⟩, withTumbler { tumbler1 with groups := [(0, { group1 with regs := [(128, 6), (160, 2 ^ 31)] })], tokens := [(0, ⟨0, 6, 1, none⟩)] }, by decide +kernel⟩

theorem test_EngineIssuesAndTokens_6 : ∃ u : TumblerId, ∃ q n st : Nat, ∃ k : Token, ∃ rest : List TreeMsg, ∃ s : State, s.inbox (tumblerUnit u) = .tokenDone q n st :: rest ∧ KMap.find (s.tumbler u).tokens q = some k ∧ k.seq = n ∧ (s.releaseToken u q st).2 = false ∧ s.onTumbler u k.launch = true :=
  ⟨0, 0, 6, 0x104, ⟨0, 6, 1, none⟩, [], (withTumbler { tumbler1 with groups := [(0, { group1 with regs := [(128, 6), (160, 2 ^ 31)] })], tokens := [(0, ⟨0, 6, 1, none⟩)] }).send (tumblerUnit 0) (.tokenDone 0 6 0x104), by decide +kernel⟩

theorem test_EngineIssuesAndTokens_7 : ∃ u : TumblerId, ∃ q n st : Nat, ∃ k : Token, ∃ rest : List TreeMsg, ∃ s : State, s.inbox (tumblerUnit u) = .tokenDone q n st :: rest ∧ KMap.find (s.tumbler u).tokens q = some k ∧ k.seq = n ∧ (s.releaseToken u q st).2 = true :=
  ⟨0, 0, 6, 0x104, ⟨0, 6, 1, none⟩, [], (withTumbler { tumbler1 with groups := [(0, { group1 with frags := [⟨allLanes, 0, [], .twait 8 0 allLanes, none, false⟩] })], tokens := [(0, ⟨0, 6, 1, none⟩)] }).send (tumblerUnit 0) (.tokenDone 0 6 0x104), by decide +kernel⟩

theorem test_TumblerMemoryInstructions_1 : ∃ u : TumblerId, ∃ g : SlotId, ∃ w : IWord, ∃ c : Ctx, ∃ s : State, s.issues u g w ({ srcs := [(0, w.sa.toNat, 1)], dst := [(w.dst.toNat, memRegs (memSize w))] }) always c ∧ memLegal w false = true ∧ ((s.localLanes c (memOffset w)).all fun x => localOk c.l (memSize w) x.2.2) = true ∧ w.dst.toNat + memRegs (memSize w) ≤ c.l.regs :=
  ⟨0, 0, word 8 6 0 0 2, ctx1 (word 8 6 0 0 2), withTumbler { tumbler1 with groups := [(0, { group1 with regs := [(192, 256), (193, 256), (224, 0)] })] }, by decide +kernel⟩

theorem test_TumblerMemoryInstructions_2 : ∃ u : TumblerId, ∃ g : SlotId, ∃ w : IWord, ∃ c : Ctx, ∃ s : State, s.issues u g w ({ srcs := [(0, w.sa.toNat, 1), (1, w.sb.toNat, memRegs (memSize w))], dst := [] }) always c ∧ memLegal w false = true ∧ ((s.localLanes c (memOffset w)).all fun x => localOk c.l (memSize w) x.2.2) = true ∧ ((s.localLanes c (memOffset w)).map fun x => x.2.2).Nodup ∧ (c.ms.all fun m => ((s.group? u m.slot).bind fun x => s.blockOf u x).isSome) = true :=
  ⟨0, 0, { word 0 6 4 0 2 with pred := 1 }, { ctx1 { word 0 6 4 0 2 with pred := 1 } with ms := [⟨0, 0, allLanes, 1⟩] }, withTumbler { tumbler1 with groups := [(0, { group1 with preds := [(1, 1)], regs := [(128, 77), (192, 256)] })] }, by decide +kernel⟩

theorem test_TumblerMemoryInstructions_3 : ∃ u : TumblerId, ∃ g : SlotId, ∃ w : IWord, ∃ c : Ctx, ∃ s : State, s.issues u g w ({ srcs := [(0, w.sa.toNat, 2)], dst := [(w.dst.toNat, memRegs (memSize w))] }) (fun s c => s.clear c (s.accLanes c (memOffset w) (memRegs (memSize w)))) c ∧ memLegal w true = true ∧ c.any = true ∧ (((s.fetched u g w ({ srcs := [(0, w.sa.toNat, 2)], dst := [(w.dst.toNat, memRegs (memSize w))] }) c).accLanes c (memOffset w) (memRegs (memSize w))).find? fun x => x.va % memSize w != 0) = none :=
  ⟨0, 0, { word 8 4 0 0 2 with pred := 1 }, { ctx1 { word 8 4 0 0 2 with pred := 1 } with ms := [⟨0, 0, allLanes, 1⟩] }, withTumbler { tumbler1 with groups := [(0, { group1 with preds := [(1, 1)], regs := [(128, 2097152), (160, 0), (192, 77)] })] }, by decide +kernel⟩

theorem test_TumblerMemoryInstructions_4 : ∃ u : TumblerId, ∃ g : SlotId, ∃ w : IWord, ∃ c : Ctx, ∃ s : State, s.issues u g w ({ srcs := [(0, w.sa.toNat, 2), (1, w.sb.toNat, memRegs (memSize w))], dst := [] }) (fun s c => s.clear c (s.accLanes c (memOffset w) (memRegs (memSize w)))) c ∧ memLegal w true = true ∧ c.any = true ∧ (((s.fetched u g w ({ srcs := [(0, w.sa.toNat, 2), (1, w.sb.toNat, memRegs (memSize w))], dst := [] }) c).accLanes c (memOffset w) (memRegs (memSize w))).find? fun x => x.va % memSize w != 0) = none :=
  ⟨0, 0, { word 0 4 6 0 2 with pred := 1 }, { ctx1 { word 0 4 6 0 2 with pred := 1 } with ms := [⟨0, 0, allLanes, 1⟩] }, withTumbler { tumbler1 with groups := [(0, { group1 with preds := [(1, 1)], regs := [(128, 2097152), (160, 0), (192, 77)] })] }, by decide +kernel⟩

theorem test_TumblerMemoryInstructions_5 : ∃ u : TumblerId, ∃ g : SlotId, ∃ w : IWord, ∃ c : Ctx, ∃ s : State, s.issues u g w (atomForm w) always c ∧ atomLegal w = true ∧ atomSpace w = 1 ∧ c.any = true :=
  ⟨0, 0, { word 8 4 6 0 0x40 with pred := 1 }, { ctx1 { word 8 4 6 0 0x40 with pred := 1 } with ms := [⟨0, 0, allLanes, 1⟩] }, withTumbler { tumbler1 with groups := [(0, { group1 with preds := [(1, 1)], regs := [(128, 256), (192, 7)] })] }, by decide +kernel⟩

theorem test_TumblerMemoryInstructions_6 : ∃ u : TumblerId, ∃ g : SlotId, ∃ w : IWord, ∃ c : Ctx, ∃ s : State, s.issues u g w (atomForm w) (fun s c => s.clear c (s.accLanes c 0 (atomRegs w))) c ∧ atomLegal w = true ∧ atomSpace w = 0 ∧ c.any = true :=
  ⟨0, 0, { word 8 4 6 0 0 with pred := 1 }, { ctx1 { word 8 4 6 0 0 with pred := 1 } with ms := [⟨0, 0, allLanes, 1⟩] }, withTumbler { tumbler1 with groups := [(0, { group1 with preds := [(1, 1)], regs := [(128, 2097152), (160, 0), (192, 77)] })] }, by decide +kernel⟩

theorem test_TumblerMemoryInstructions_7 : ∃ u : TumblerId, ∃ g : SlotId, ∃ w : IWord, ∃ c : Ctx, ∃ s : State, s.issues u g w ({ srcs := [(0, w.sa.toNat, 2)], dst := [(w.dst.toNat, memRegs (memSize w))] }) (fun s c => s.poolFree u (remoteDrafts (s.remoteAccess c .remote (memSize w) (s.accLanes c 0 (memRegs (memSize w)))) tyRead 0).length) c ∧ remoteLegal w false = true ∧ c.any = true ∧ ((s.fetched u g w ({ srcs := [(0, w.sa.toNat, 2)], dst := [(w.dst.toNat, memRegs (memSize w))] }) c).accLanes c 0 (memRegs (memSize w))).find? (fun x => x.va % memSize w != 0) = none :=
  ⟨0, 0, { word 8 4 0 0 2 with pred := 1 }, { ctx1 { word 8 4 0 0 2 with pred := 1 } with ms := [⟨0, 0, allLanes, 1⟩] }, withTumbler { tumbler1 with groups := [(0, { group1 with preds := [(1, 1)], regs := [(128, 2097152), (160, 0), (192, 77)] })] }, by decide +kernel⟩

theorem test_TumblerMemoryInstructions_8 : ∃ u : TumblerId, ∃ g : SlotId, ∃ w : IWord, ∃ c : Ctx, ∃ s : State, s.issues u g w ({ srcs := [(0, w.sa.toNat, 2), (1, w.sb.toNat, memRegs (memSize w))], dst := [] }) (fun s c => s.poolFree u (remoteDrafts (s.remoteAccess c .remoteStore (memSize w) (s.accLanes c 0 (memRegs (memSize w)))) tyWrite 0).length) c ∧ remoteLegal w true = true ∧ remoteKind w = 0 ∧ c.any = true ∧ ((s.fetched u g w ({ srcs := [(0, w.sa.toNat, 2), (1, w.sb.toNat, memRegs (memSize w))], dst := [] }) c).accLanes c 0 (memRegs (memSize w))).find? (fun x => x.va % memSize w != 0) = none :=
  ⟨0, 0, { word 0 4 6 0 2 with pred := 1 }, { ctx1 { word 0 4 6 0 2 with pred := 1 } with ms := [⟨0, 0, allLanes, 1⟩] }, withTumbler { tumbler1 with groups := [(0, { group1 with preds := [(1, 1)], regs := [(128, 2097152), (160, 0), (192, 77)] })] }, by decide +kernel⟩

theorem test_TumblerMemoryInstructions_9 : ∃ u : TumblerId, ∃ k : Nat, ∃ a : Access, ∃ s : State, (s.tumbler u).acc[k]? = some a ∧ a.kind = .load ∧ a.walks = [] ∧ (s.needs u a).all (s.loadsNow u a) = true :=
  ⟨0, 0, ⟨0, .load, 1, 0, true, 4, 8, [], 0, [], 0, []⟩, withTumbler { tumbler1 with acc := [⟨0, .load, 1, 0, true, 4, 8, [], 0, [], 0, []⟩] }, by decide +kernel⟩

theorem test_TumblerMemoryInstructions_10 : ∃ k : Nat, ∃ f : Finding, ∃ x : Nat × Access × Nat, ∃ s : State, s.allWalks[k]? = some x :=
  ⟨0, .sound, (0, ⟨0, .load, 1, 0, true, 4, 8, [], 0, [5], 0, []⟩, 5), withTumbler { tumbler1 with acc := [⟨0, .load, 1, 0, true, 4, 8, [], 0, [5], 0, []⟩] }, by decide +kernel⟩

theorem test_TumblerDataInstructions_1 : ∃ u : TumblerId, ∃ g : SlotId, ∃ w : IWord, ∃ c : Ctx, ∃ s : State, s.issues u g w ((if cvtRound w = 1 then formOf w 2 1 else formOf w 1 1)) always c ∧ cvtLegal w = true ∧ cvtRound w ≠ 1 ∧ w.dst.toNat < c.l.regs :=
  ⟨0, 0, word 8 4 0 0 0x1000, ctx1 (word 8 4 0 0 0x1000), withTumbler tumbler1, by decide +kernel⟩

theorem test_TumblerDataInstructions_2 : ∃ u : TumblerId, ∃ g : SlotId, ∃ w : IWord, ∃ c : Ctx, ∃ m : Member, ∃ a : Nat × Nat, ∃ s : State, s.issues u g w ({ srcs := [(0, w.sa.toNat, 1)], dst := [(w.dst.toNat, if w.mod.toNat = 1 then 2 else 1)] }) always c ∧ w.mod.toNat = 0 ∧ c.ms = [m] ∧ s.issueAt c m 0 1 = some a ∧ a.2 ≤ 4095 ∧ w.dst.toNat < c.l.regs :=
  ⟨0, 0, word 8 4 0 0 0, ctx1 (word 8 4 0 0 0), ⟨0, 0, allLanes, allLanes⟩, (0, 5), withTumbler tumbler1, by decide +kernel⟩

theorem test_TumblerDataInstructions_3 : ∃ u : TumblerId, ∃ g : SlotId, ∃ w : IWord, ∃ c : Ctx, ∃ m : Member, ∃ a : Nat × Nat, ∃ s : State, s.issues u g w ({ srcs := [(0, w.sa.toNat, 1)], dst := [(w.dst.toNat, if w.mod.toNat = 1 then 2 else 1)] }) always c ∧ w.mod.toNat = 1 ∧ c.ms = [m] ∧ s.issueAt c m 0 1 = some a ∧ a.2 ≤ 4095 ∧ w.dst.toNat + 1 < c.l.regs :=
  ⟨0, 0, word 8 4 0 0 1, ctx1 (word 8 4 0 0 1), ⟨0, 0, allLanes, allLanes⟩, (0, 5), withTumbler tumbler1, by decide +kernel⟩

theorem test_TumblerDataInstructions_4 : ∃ u : TumblerId, ∃ g : SlotId, ∃ w : IWord, ∃ c : Ctx, ∃ s : State, s.issues u g w (formOf w 2 1) (fun s c => s.quiet c false) c ∧ qLegal w = true ∧ c.any = true :=
  ⟨0, 0, word 8 4 7 0 0x16, ctx1 (word 8 4 7 0 0x16), withTumbler tumbler1, by decide +kernel⟩

theorem test_TumblerDataInstructions_5 : ∃ u : TumblerId, ∃ g : SlotId, ∃ w : IWord, ∃ c : Ctx, ∃ s : State, s.issues u g w ({ srcs := [(0, w.sa.toNat, 1)], dst := [] }) State.settled c ∧ w.mod = 0 ∧ (((s.tenant c.l.tenant).step.phase = .opened ∨ (s.tenant c.l.tenant).step.phase = .updating)) :=
  ⟨0, 0, word 0 4 0 0 0, ctx1 (word 0 4 0 0 0), ((withTumbler tumbler1).setTenant 0 (stepTenant fun x => { x with phase := .opened })), by decide +kernel⟩

theorem test_LaunchesPlaceAndEnd_1 : ∃ n : Nat, ∃ u : TumblerId, ∃ l : Launch, ∃ slots : List Nat, ∃ bs : List Byte, ∃ s : State, s.launch? n = some l ∧ (s.tumbler u).ready = true ∧ l.stopped = false ∧ l.placed < l.blocks ∧ s.blockFits u l = true ∧ s.slotsFor u (upto 0 l.groups) [] = some slots ∧ (s.fetchSpan (tumblerUnit u) tlbTumbler l.tenant l.args l.argSize false).2 = .ok bs :=
  ⟨1, 0, { launch1 with placed := 0 }, [0], [], { withTumbler { Tumbler.reset with ready := true } with launches := [{ launch1 with placed := 0 }] }, by decide +kernel⟩

theorem test_LaunchesPlaceAndEnd_2 : ∃ n : Nat, ∃ l : Launch, ∃ e : Entry, ∃ s : State, s.launch? n = some l ∧ (l.stopped || l.placed == l.blocks) = true ∧ l.ended = l.placed ∧ s.launchBusy n = false ∧ s.entry? l.tenant l.ring l.cid = some e ∧ e.ended = false ∧ (∀ w ∈ s.waits, w.met = none) :=
  ⟨1, { launch1 with ended := 1 }, cmdEntry 1 [], { withEntry (cmdEntry 1 []) Tenant.reset State.reset with launches := [{ launch1 with ended := 1 }] }, by decide +kernel⟩

theorem test_LaunchesPlaceAndEnd_3 : ∃ n : Nat, ∃ l : Launch, ∃ s : State, s.launch? n = some l ∧ l.stopped = true :=
  ⟨1, { launch1 with stopped := true }, { withTumbler tumbler1 with launches := [{ launch1 with stopped := true }] }, by decide +kernel⟩

theorem test_LaunchesPlaceAndEnd_4 : ∃ u : TumblerId, ∃ n k : Nat, ∃ s : State, (((s.blockSlots u n k).filterMap fun g => s.group? u g).isEmpty || (((s.blockSlots u n k).filterMap fun g => s.group? u g).any fun x => !x.busy.isEmpty) || (s.tumbler u).acc.any (fun a => a.lanes.any fun x => (s.blockSlots u n k).contains x.slot)) = false :=
  ⟨0, 1, 0, withTumbler tumbler1, by decide +kernel⟩

theorem test_LaunchesPlaceAndEnd_5 : ∃ u : TumblerId, ∃ n k : Nat, ∃ b : Block, ∃ l : Launch, ∃ gs : List Group, ∃ slots : List Nat, ∃ s : State, (s.tumbler u).blocks.find? (fun x => x.launch == n && x.num == k) = some b ∧ s.launch? n = some l ∧ b.saved = some gs ∧ s.blockFits u l = true ∧ s.slotsFor u (gs.map (·.idx)) [] = some slots :=
  ⟨0, 1, 0, { block1 with slots := [], saved := some [group1] }, launch1, [group1], [0], withTumbler { tumbler1 with groups := [], blocks := [{ block1 with slots := [], saved := some [group1] }] }, by decide +kernel⟩

theorem test_LaunchesPlaceAndEnd_6 : ∃ u : TumblerId, ∃ s : State, 2 ≤ s.clk.released ∧ (s.tumbler u).ready = false :=
  ⟨0, { State.reset with clk := { Clk.reset with released := 2 } }, by decide +kernel⟩

theorem test_LaunchesPlaceAndEnd_7 : ∃ u : TumblerId, ∃ k n : Nat, ∃ s : State, ((s.tumbler u).groups.map fun g => List.replicate g.2.instances g.2.launch).flatten[k]? = some n :=
  ⟨0, 0, 1, withTumbler { tumbler1 with groups := [(0, { group1 with frags := [⟨allLanes, 0, [], .barg 1, none, false⟩] })] }, by decide +kernel⟩

theorem test_LaunchesPlaceAndEnd_8 : ∃ u : TumblerId, ∃ g : SlotId, ∃ x : Group, ∃ s : State, s.group? u g = some x :=
  ⟨0, 0, group1, withTumbler tumbler1, by decide +kernel⟩

theorem test_StoreRangeOperations_1 : ∃ s : State, s.has F.cstStatusOpBusy = false ∧ s.rd F.cstOpLenLines ≠ 0 ∧ (∀ x ∈ s.rangeLines 0, s.rangeWaits x = false) :=
  ⟨((((withLines false).wr F.cstStatusReady 1).wr F.cstOpBaseLine 9000).wr F.cstOpLenLines 50), by decide +kernel⟩

theorem test_StoreRangeOperations_2 : ∃ s : State, s.has F.cstStatusOpBusy = false ∧ s.rd F.cstOpLenLines ≠ 0 ∧ (∀ x ∈ s.rangeLines 1, s.rangeWaits x = false) :=
  ⟨((((withLines false).wr F.cstStatusReady 1).wr F.cstOpBaseLine 9000).wr F.cstOpLenLines 50), by decide +kernel⟩

theorem test_StoreRangeOperations_3 : ∃ s : State, s.has F.cstStatusOpBusy = false ∧ s.rd F.cstOpLenLines ≠ 0 ∧ (∀ x ∈ s.rangeLines 2, s.rangeWaits x = false) :=
  ⟨((((withLines true).wr F.cstStatusReady 1).wr F.cstOpBaseLine 9000).wr F.cstOpLenLines 50), by decide +kernel⟩

theorem test_StoreRangeOperations_4 : ∃ s : State, s.has F.cstStatusOpBusy = false ∧ s.rd F.cstOpLenLines ≠ 0 ∧ (∀ x ∈ s.rangeLines 3, s.rangeWaits x = false) ∧ (∀ w ∈ s.mem.wb, ¬(s.rd F.cstOpBaseLine ≤ w.line ∧ w.line < s.rd F.cstOpBaseLine + s.rd F.cstOpLenLines)) :=
  ⟨((upto 0 4).foldl (fun (s : State) q => s.wr (F.cstPartitionPin q) 1) ((((withLines true).wr F.cstStatusReady 1).wr F.cstOpBaseLine 9000).wr F.cstOpLenLines 50)), by decide +kernel⟩

theorem test_StoreRangeOperations_5 : ∃ s : State, s.has F.cstStatusOpBusy = false ∧ s.rd F.cstOpLenLines ≠ 0 ∧ (∀ x ∈ s.rangeLines 4, s.rangeWaits x = false) :=
  ⟨((((withLines true).wr F.cstStatusReady 1).wr F.cstOpBaseLine 9000).wr F.cstOpLenLines 50), by decide +kernel⟩

theorem test_StoreRangeOperations_6 : ∃ o : RangeOp, ∃ s : State, s.mem.op = some o ∧ o.lines.any s.rangeWaits = false :=
  ⟨⟨1, [9000]⟩, withMem (fun m => { m with op := some ⟨1, [9000]⟩ }) ((withLines false).wr F.cstStatusReady 1), by decide +kernel⟩

theorem test_StoreRangeOperations_7 : ∃ o : RangeOp, ∃ s : State, s.mem.op = some o ∧ o.lines.any s.rangeWaits = true :=
  ⟨⟨1, [9000]⟩, withMem (fun m => { m with op := some ⟨1, [9000]⟩ }) (withSlice 1 { Slice.reset with ready := true, locked := [9000] } (withLines false)), by decide +kernel⟩

theorem test_StoreSetUp_1 : ∃ q : QuadId, ∃ s : State, 2 ≤ s.clk.released ∧ (s.slice q).ready = false :=
  ⟨3, { State.reset with clk := { Clk.reset with released := 2 }, mem := { State.reset.mem with slices := [(0, { Slice.reset with ready := true }), (1, { Slice.reset with ready := true }), (2, { Slice.reset with ready := true })] } }, by decide +kernel⟩

theorem test_StoreSetUp_2 : ∃ i : Nat, ∃ v : Word, ∃ s : State, i < 24576 ∧ mapChanged i (s.reg (.cstSlicemap i)).toNat v.toNat = [] :=
  ⟨5, 0x76547654, State.reset, by decide +kernel⟩

theorem test_StoreSetUp_3 : ∃ i : Nat, ∃ v : Word, ∃ s : State, i < 24576 ∧ mapChanged i (s.reg (.cstSlicemap i)).toNat v.toNat ≠ [] :=
  ⟨5, 1, State.reset, by decide +kernel⟩

theorem test_StoreSetUp_4 : ∃ i : Nat, ∃ v : Word, ∃ s : State, i < 24576 ∧ s.has F.cstStatusReady = true ∧ (s.mem.mapNew.filter fun x => x.1 == i).getLast? = some (i, v) ∧ (∀ x ∈ s.mem.lines, s.isLocked x.1 = false) :=
  ⟨0, 0, withMem (fun m => { m with mapNew := [(0, 0)] }) ((withLines false).wr F.cstStatusReady 1), by decide +kernel⟩

theorem test_StoreSetUp_5 : ∃ s : State, s.has F.cstStatusPartBusy = false ∧ ((∃ q ∈ upto 0 4, 256 < s.rd (F.cstPartitionNextScratch q) + s.rd (F.cstPartitionNextPin q))) :=
  ⟨((State.reset.wr (F.cstPartitionNextScratch 3) 200).wr (F.cstPartitionNextPin 3) 57), by decide +kernel⟩

theorem test_StoreSetUp_6 : ∃ s : State, s.has F.cstStatusPartBusy = false ∧ (∀ q ∈ upto 0 4, s.rd (F.cstPartitionNextScratch q) + s.rd (F.cstPartitionNextPin q) ≤ 256 ∧ s.rd (F.cstPartitionScratch q) ≤ 256) :=
  ⟨{ ((State.reset.wr (F.cstPartitionNextScratch 1) 200).wr (F.cstPartitionScratch 1) 255) with mem := { State.reset.mem with scratch := [(1, 9), (0x1C7FFFFF, 1), (0x1C800000, 2)] } }, by decide +kernel⟩

theorem test_StoreSetUp_7 : ∃ ps : List (Nat × Nat), ∃ s : State, s.mem.applying = some ps ∧ (∀ p ∈ ps, p.1 + p.2 ≤ 256) ∧ (∀ x ∈ s.leavingLines, s.isLocked x = false) :=
  ⟨[(200, 0)], withMem (fun m => { m with applying := some [(200, 0)] }) ((withLines true).wr F.cstStatusPartBusy 1), by decide +kernel⟩

theorem test_StoreTraffic_1 : ∃ u n p k : Nat, ∃ ms : List TreeMsg, ∃ s : State, s.inbox u = .translation n p k :: ms ∧ s.usesRange u n p k = false :=
  ⟨7, 0, 2, 1, [], (withPages 7).send 7 (.translation 0 2 1), by decide +kernel⟩

theorem test_StoreTraffic_2 : ∃ u f k : Nat, ∃ ms : List TreeMsg, ∃ s : State, s.inbox u = .isolation f k :: ms :=
  ⟨7, 196609, 2, [], (withPages 7).send 7 (.isolation 196609 2), by decide +kernel⟩

theorem test_StoreTraffic_3 : ∃ q : QuadId, ∃ k x : Nat, ∃ f : List Finding, ∃ gens : List (List Byte), ∃ s : State, s.has F.hbmStatusReady = true ∧ (s.slice q).fills[k]? = some x ∧ (∀ y ∈ f, y = Finding.sound) ∧ (∀ w ∈ s.mem.wb, w.line ≠ x) ∧ s.cacheList q ≠ [] ∧ (s.fill x false).2 = true ∧ s.pwr.cut = false :=
  ⟨0, 0, 9000, [.sound], [], withSlice 0 { Slice.reset with ready := true, fills := [9000] } (State.reset.wr F.hbmStatusReady 1), by decide +kernel⟩

theorem test_StoreTraffic_4 : ∃ q : QuadId, ∃ k : Nat, ∃ w : WriteBack, ∃ f : List Finding, ∃ gens : List (List Byte), ∃ s : State, s.has F.hbmStatusReady = true ∧ (s.mem.wb.filter fun w => w.slice == q.val)[k]? = some w ∧ (∀ y ∈ f, y = Finding.sound) ∧ (∀ y ∈ w.g, y.data.length = 64) ∧ s.pwr.cut = false :=
  ⟨0, 0, ⟨0, 9000, (line1 false).g⟩, [], [], { State.reset.wr F.hbmStatusReady 1 with mem := { State.reset.mem with hbm := [(9000 * 256 + 3, 9)], wb := [⟨0, 9000, (line1 false).g⟩] } }, by decide +kernel⟩

theorem test_StoreTraffic_5 : ∃ q : QuadId, ∃ r : RedReq, ∃ rs : List RedReq, ∃ s : State, (s.slice q).ready = true ∧ (s.slice q).hold.length < 64 ∧ (s.slice q).arrivals = r :: rs ∧ (if r.code = 0 then r.atoms ≠ [] else redValid r.code r.mask = true) ∧ s.resident r.line = true ∧ s.barred r.line = false ∧ ((inWindow (r.line * 256) = true ∨ ∀ x ∈ s.mem.classNew, x.1 ≠ r.line / 2 ^ 17)) ∧ (∀ y ∈ (s.slice q).hold, y.line ≠ r.line) ∧ (s.slice q).queue.length < 60 :=
  ⟨0, req0, [], withSlice 0 { Slice.reset with ready := true, arrivals := [req0] } State.reset, by decide +kernel⟩

theorem test_StoreTraffic_6 : ∃ q : QuadId, ∃ r : RedReq, ∃ rs : List RedReq, ∃ s : State, (s.slice q).ready = true ∧ (s.slice q).hold.length < 64 ∧ (s.slice q).arrivals = r :: rs ∧ (if r.code = 0 then r.atoms = [] else redValid r.code r.mask = false) :=
  ⟨0, { req0 with mask := 1 }, [], withSlice 0 { Slice.reset with ready := true, arrivals := [{ req0 with mask := 1 }] } State.reset, by decide +kernel⟩

theorem test_StoreTraffic_7 : ∃ q : QuadId, ∃ r : RedReq, ∃ rs : List RedReq, ∃ s : State, (s.slice q).arrivals = r :: rs ∧ (if r.code = 0 then r.atoms ≠ [] else redValid r.code r.mask = true) ∧ inWindow (r.line * 256) = false ∧ KMap.find s.mem.lines r.line = none ∧ s.home (r.line * 256) = q.val ∧ (s.slice q).ready = true ∧ (s.slice q).hold.length < 64 ∧ s.barred r.line = false ∧ (∀ x ∈ s.mem.classNew, x.1 ≠ r.line / 2 ^ 17) ∧ (∀ w ∈ s.mem.wb, w.line ≠ r.line) :=
  ⟨1, { req0 with line := 9000 }, [], withSlice 1 { Slice.reset with ready := true, arrivals := [{ req0 with line := 9000 }] } State.reset, by decide +kernel⟩

theorem test_StoreTraffic_8 : ∃ q : QuadId, ∃ r : RedReq, ∃ rs : List RedReq, ∃ n m va : Nat, ∃ s : State, (s.slice q).queue = r :: rs ∧ r.src = .spindle n m va ∧ redValid r.code r.mask = true ∧ r.mask < 2 ^ 256 ∧ inWindow (r.line * 256) = true ∧ s.poisoned (r.line * 256) 256 = false :=
  ⟨0, req0, [], 0, 1, 2097152, withSlice 0 { Slice.reset with ready := true, queue := [req0] } State.reset, by decide +kernel⟩

theorem test_StoreTraffic_9 : ∃ q : QuadId, ∃ r : RedReq, ∃ rs : List RedReq, ∃ u k : Nat, ∃ s : State, (s.slice q).queue = r :: rs ∧ r.src = .tumbler u k ∧ r.code = 0 ∧ (∀ x ∈ r.atoms, x.off + atomBytes x.ty ≤ 256) ∧ inWindow (r.line * 256) = true ∧ s.poisoned (r.line * 256) 256 = false :=
  ⟨0, atom0, [], 0, 1, withSlice 0 { Slice.reset with ready := true, queue := [atom0] } State.reset, by decide +kernel⟩

theorem test_StoreTraffic_10 : ∃ q : QuadId, ∃ x : Nat, ∃ xs : List Nat, ∃ l : Line, ∃ s : State, (s.slice q).waits.filter (fun x => !(s.slice q).locked.contains x && !(s.slice q).queue.any (fun r => r.line == x)) = x :: xs ∧ s.home (x * 256) = q.val ∧ inWindow (x * 256) = false ∧ KMap.find s.mem.lines x = some l ∧ l.dead = false ∧ l.g.any Gran.dirty = true ∧ (∀ y ∈ s.setMates x, y.2.region ≠ none) :=
  ⟨1, 9000, [], line1 false, withSlice 1 { Slice.reset with waits := [9000], hold := [{ req0 with line := 9000 }] } (withLines false), by decide +kernel⟩

theorem test_StoreTraffic_11 : ∃ q : QuadId, ∃ g : Nat, ∃ s : State, s.has F.cstCtrlScrub = true ∧ (s.slice q).ready = true :=
  ⟨0, 36000, withSlice 0 { Slice.reset with ready := true, fills := [] } State.reset, by decide +kernel⟩

theorem test_StoreTraffic_12 : ∃ q : QuadId, ∃ g : Nat, ∃ l : Line, ∃ s : State, s.has F.cstCtrlScrub = true ∧ (s.slice q).ready = true ∧ inWindow (64 * g) = false ∧ KMap.find s.mem.lines (g / 4) = some l ∧ (l.g.getD (g % 4) Gran.reset).wrote = 0 :=
  ⟨0, 36000, line1 false, withSlice 0 { Slice.reset with ready := true } (withLines false), by decide +kernel⟩

theorem test_StoreTraffic_13 : ∃ q : QuadId, ∃ g : Nat, ∃ l : Line, ∃ s : State, s.has F.cstCtrlScrub = true ∧ (s.slice q).ready = true ∧ inWindow (64 * g) = false ∧ KMap.find s.mem.lines (g / 4) = some l ∧ (l.g.getD (g % 4) Gran.reset).wrote ≠ 0 :=
  ⟨0, 36001, line1 false, withSlice 0 { Slice.reset with ready := true } (withLines false), by decide +kernel⟩

theorem test_HbmSetUp_1 : ∃ f : List (Fin 192), ∃ s : State, 4 ≤ s.clk.released ∧ s.has F.hbmStatusTrained = false ∧ s.has F.durStatusReady = false :=
  ⟨[5, 190], { State.reset with clk := { Clk.reset with released := 4 } }, by decide +kernel⟩

theorem test_HbmSetUp_2 : ∃ s : State, s.has F.hbmStatusTrained = true ∧ s.has F.hbmStatusReady = false ∧ s.has F.hbmStatusInitBusy = false ∧ s.has F.durStatusReady = true ∧ s.recordedChannels = [] :=
  ⟨(((State.reset.wr F.hbmStatusTrained 1).wr F.durStatusReady 1).wr (F.hbmChstateState 7) 3), by decide +kernel⟩

theorem test_HbmSetUp_3 : ∃ s : State, s.has F.hbmStatusInitBusy = true :=
  ⟨((State.reset.wr F.hbmStatusInitBusy 1).wr F.hbmStatusLivePc 384), by decide +kernel⟩

theorem test_HbmSetUp_4 : ∃ g : Nat, ∃ b : Bool, ∃ s : State, g < 12288 ∧ s.groupUsed g = false :=
  ⟨4, true, State.reset, by decide +kernel⟩

theorem test_HbmSetUp_5 : ∃ g : Nat, ∃ b : Bool, ∃ xs : List (Nat × Bool), ∃ s : State, s.mem.classNew = (g, b) :: xs ∧ g < 12288 :=
  ⟨1, true, [], withMem (fun m => { m with classNew := [(1, true)], hbm := [(2 ^ 25 + 1, 3), (2 ^ 26, 4)] }) State.reset, by decide +kernel⟩

theorem test_HbmSetUp_6 : ∃ ch : Fin 192, ∃ s : State, s.has F.hbmStatusReady = false :=
  ⟨9, State.reset, by decide +kernel⟩

theorem test_HbmSetUp_7 : ∃ ch : Fin 192, ∃ s : State, s.has F.hbmStatusReady = true ∧ s.rd F.hbmRelayoutBufRegions < 32 :=
  ⟨9, (State.reset.wr F.hbmStatusReady 1), by decide +kernel⟩

theorem test_HbmSetUp_8 : ∃ ch : Fin 192, ∃ s : State, s.has F.hbmStatusReady = true ∧ 32 ≤ s.rd F.hbmRelayoutBufRegions ∧ s.has F.hbmStatusRelayoutBusy = false ∧ s.rd (F.hbmChstateState ch) = 1 ∧ (KMap.find s.journal.live (liveKey 3 ch)).isSome = true ∧ ((∀ n ∈ upto 0 16, s.active n = true → s.atBoundary n = true)) ∧ ((∀ f ∈ s.usedFrames, f < 196608 → f * 2 ^ 21 < (s.reg .hbmCapacity).toNat - 2 ^ 31)) :=
  ⟨9, { ((((State.reset.wr F.hbmStatusReady 1).wr F.hbmRelayoutBufRegions 32).wr (F.hbmChstateState 9) 1).setReg .hbmCapacity (BitVec.ofNat 64 (384 * 2 ^ 30))) with journal := { State.reset.journal with live := [(liveKey 3 9, 0)] } }, by decide +kernel⟩

theorem test_HbmSetUp_9 : ∃ gs : List Nat, ∃ bs : List (List Byte), ∃ c : Nat, ∃ s : State, s.mem.relayout = some c ∧ c < 192 ∧ (∀ g ∈ gs, 64 * g < (s.reg .hbmCapacity).toNat ∧ s.wasOn c (g / 4) = true ∧ s.corrected (64 * g) = true ∧ s.frozenIn (64 * g / 2 ^ 21) = [] ∧ ∀ n ∈ upto 0 16, s.inForce n (64 * g / 2 ^ 21) (64 * g % 2 ^ 21) = none ∧ s.slotInForce n (64 * g / 2 ^ 21) (64 * g % 2 ^ 21) = none) :=
  ⟨[0], [], 0, (((withMem (fun m => { m with relayout := some 0 }) State.reset).setReg .hbmCapacity (BitVec.ofNat 64 (382 * 2 ^ 30))).setReg (.hbmClassmap 0) 1), by decide +kernel⟩

theorem test_HbmFindings_2 : ∃ g : Nat, ∃ bs : List (List Byte), ∃ s : State, KMap.get s.mem.hbmPoison g false = true :=
  ⟨5, [], withMem (fun m => { m with hbmPoison := [(5, true)] }) (State.reset.wr F.hbmStatusReady 1), by decide +kernel⟩

theorem test_HbmFindings_3 : ∃ g : Nat, ∃ bs : List (List Byte), ∃ s : State, s.has F.hbmStatusReady = true ∧ s.rd F.hbmCtrlScrubMin ≠ 0 ∧ 64 * g < (s.reg .hbmCapacity).toNat ∧ s.corrected (64 * g) = true ∧ s.channelOf (64 * g) < 192 ∧ s.pwr.cut = false :=
  ⟨5, [], withHbm 1 State.reset, by decide +kernel⟩

theorem test_HbmFindings_4 : ∃ g : Nat, ∃ bs : List (List Byte), ∃ s : State, s.has F.hbmStatusReady = true ∧ s.rd F.hbmCtrlScrubMin ≠ 0 ∧ 64 * g < (s.reg .hbmCapacity).toNat ∧ KMap.get s.mem.hbmPoison g false = false ∧ s.corrected (64 * g) = true ∧ s.channelOf (64 * g) < 192 ∧ s.frozenIn (64 * g / 2 ^ 21) = [] ∧ (∀ n ∈ upto 0 16, s.inForce n (64 * g / 2 ^ 21) (64 * g % 2 ^ 21) = none ∧ s.slotInForce n (64 * g / 2 ^ 21) (64 * g % 2 ^ 21) = none) ∧ s.pwr.cut = false :=
  ⟨5, [], withHbm 1 (withMem (fun m => { m with hbm := [(320, 9)] }) State.reset), by decide +kernel⟩

theorem test_HbmFindings_5 : ∃ g : Nat, ∃ bs : List (List Byte), ∃ n : TenantId, ∃ s : State, s.has F.hbmStatusReady = true ∧ s.rd F.hbmCtrlScrubMin ≠ 0 ∧ 64 * g < (s.reg .hbmCapacity).toNat ∧ KMap.get s.mem.hbmPoison g false = false ∧ s.corrected (64 * g) = false ∧ s.writers (64 * g / 2 ^ 21) = [n.val] ∧ (s.tenant n).step.phase = .opened ∧ s.frozenIn (64 * g / 2 ^ 21) = [] ∧ (∀ m ∈ upto 0 16, s.inForce m (64 * g / 2 ^ 21) (64 * g % 2 ^ 21) = none ∧ s.slotInForce m (64 * g / 2 ^ 21) (64 * g % 2 ^ 21) = none) ∧ s.pwr.cut = false :=
  ⟨5, [], 0, (withHbm 0 (withTenant (stepTenant fun x => { x with phase := .opened }))).setIso 0 65537, by decide +kernel⟩

theorem test_HbmFindings_6 : ∃ s : State, s.rd F.hbmCtrlScrubMin ≠ 0 :=
  ⟨(State.reset.setReg (.hbmChstate 4) 0x40030002), by decide +kernel⟩

theorem test_HbmFindings_9 : ∃ data : Option (List Byte), ∃ r : Recovery, ∃ bs : List Byte, ∃ x : State, ∃ a : Nat, ∃ s : State, s.mem.recoveries.find? (fun r => r.stage == 0) = some r ∧ s.sourceData r data = some bs ∧ s.mbxRd false F.secStatusBusy ≠ 1 ∧ s.stagingFrame r = (x, some a) :=
  ⟨some [], rec0 0, [], withMem (fun m => { m with recoveries := [rec0 0] }) State.reset, 5, withMem (fun m => { m with recoveries := [rec0 0] }) State.reset, by decide +kernel⟩

theorem test_HbmFindings_10 : ∃ r : Recovery, ∃ s : State, s.mem.recoveries.find? (fun r => r.stage == 0) = some r ∧ s.sourceData r none = none ∧ r.tried = 0 :=
  ⟨rec0 0, withMem (fun m => { m with recoveries := [rec0 0] }) State.reset, by decide +kernel⟩

theorem test_HbmFindings_11 : ∃ r : Recovery, ∃ s : State, s.mem.recoveries.find? (fun r => r.stage == 0) = some r ∧ s.sourceData r none = none ∧ r.tried ≠ 0 :=
  ⟨{ rec0 0 with tried := 1 }, withMem (fun m => { m with recoveries := [{ rec0 0 with tried := 1 }] }) State.reset, by decide +kernel⟩

theorem test_HbmFindings_12 : ∃ r : Recovery, ∃ s : State, s.mem.recoveries.find? (fun r => r.stage == 2) = some r :=
  ⟨rec0 2, withMem (fun m => { m with recoveries := [rec0 2] }) State.reset, by decide +kernel⟩

theorem test_PlacementCommandsAct_1 : ∃ n : TenantId, ∃ r : RingId, ∃ e : Entry, ∃ d : List Byte, ∃ x : State, ∃ h : Nat, ∃ s : State, s.mayRun n r 0x18 e ∧ e.arg 0 8 % 64 = 0 ∧ ((s.begun n r e).fwRead n (e.arg 0 8) 64).2 = .ok d ∧ (((s.begun n r e).fwRead n (e.arg 0 8) 64).1.allocate n d).toOption = some (x, h) :=
  ⟨0, 0, allocE, allocD, (allocX.getD (State.reset, 0)).1, (allocX.getD (State.reset, 0)).2, allocS, by decide +kernel⟩

theorem test_PlacementCommandsAct_2 : ∃ n : TenantId, ∃ r : RingId, ∃ e : Entry, ∃ d : List Byte, ∃ k : Nat, ∃ s : State, s.mayRun n r 0x18 e ∧ e.arg 0 8 % 64 = 0 ∧ ((s.begun n r e).fwRead n (e.arg 0 8) 64).2 = .ok d ∧ (match ((s.begun n r e).fwRead n (e.arg 0 8) 64).1.allocate n d with | .error j => some j | .ok _ => none) = some k :=
  ⟨0, 0, cmdEntry 0x18 [(0, 8, 2097152)], bytesOf 64 [(0, 1, 9)], 0x311, withEntry (cmdEntry 0x18 [(0, 8, 2097152)]) Tenant.reset ((withPages (coreUnit 0)).write windowBase [9]), by decide +kernel⟩

theorem test_PlacementCommandsAct_3 : ∃ n : TenantId, ∃ r : RingId, ∃ e : Entry, ∃ x : Tensor, ∃ s : State, s.mayRun n r 0x19 e ∧ s.tensor? n (e.arg 0 4) = some x ∧ s.holdsRecord x.parts = false :=
  ⟨0, 0, cmdEntry 0x19 [(0, 4, 1)], tensor1 1 6, withEntry (cmdEntry 0x19 [(0, 4, 1)]) tenantT State.reset, by decide +kernel⟩

theorem test_PlacementCommandsAct_4 : ∃ n : TenantId, ∃ r : RingId, ∃ e : Entry, ∃ s : State, s.mayRun n r 0x19 e ∧ s.tensor? n (e.arg 0 4) = none :=
  ⟨0, 0, cmdEntry 0x19 [(0, 4, 2)], withEntry (cmdEntry 0x19 [(0, 4, 2)]) tenantT State.reset, by decide +kernel⟩

theorem test_PlacementCommandsAct_5 : ∃ n : TenantId, ∃ r : RingId, ∃ e : Entry, ∃ x : Tensor, ∃ s : State, s.mayRun n r 0x19 e ∧ s.tensor? n (e.arg 0 4) = some x ∧ s.holdsRecord x.parts = true :=
  ⟨0, 0, cmdEntry 0x19 [(0, 4, 1)], tensorP, withEntry (cmdEntry 0x19 [(0, 4, 1)]) { tenantT with place := { Place.reset with tensors := [tensorP] } } { State.reset with syn := [(3, slotP)] }, by decide +kernel⟩

theorem test_PlacementCommandsAct_6 : ∃ n : TenantId, ∃ r : RingId, ∃ e : Entry, ∃ q : List (List Byte), ∃ x : State, ∃ bs : List Byte, ∃ s : State, s.mayRun n r 0x1A e ∧ e.arg 8 8 % 64 = 0 ∧ ((e.arg 0 4 = 0 ∨ (s.tensor? n (e.arg 0 4)).isSome = true)) ∧ ((byHandle ((s.tenant n).place.tensors.filter fun x => !x.freed && (e.arg 0 4 == 0 || x.handle == e.arg 0 4))).map fun x => (s.begun n r e).tensorRecords n x).flatten = q ∧ (s.begun n r e).fwWrite n (e.arg 8 8) (if e.arg 0x10 4 < 64 then [] else (s.begun n r e).queryHeader n q.length (q.take ((e.arg 0x10 4 - 64) / 64)).length ++ (q.take ((e.arg 0x10 4 - 64) / 64)).flatten) = (x, .ok bs) :=
  ⟨0, 0, cmdEntry 0x1A [(8, 8, 2097152), (0x10, 4, 4096)], [], ((queryS.begun 0 0 queryE).fwWrite 0 2097152 (queryS.queryHeader 0 0 0)).1, [], queryS, by decide +kernel⟩

theorem test_PlacementCommandsAct_7 : ∃ n : TenantId, ∃ r : RingId, ∃ e : Entry, ∃ x : Tensor, ∃ s : State, s.mayRun n r 0x1B e ∧ s.tensor? n (e.arg 0 4) = some x ∧ e.arg 8 4 < 128 ∧ e.arg 0xC 4 < 128 ∧ e.arg 0x10 1 < 16 ∧ e.arg 0x11 1 < 4 ∧ e.arg 0x12 6 = 0 ∧ (s.begun n r e).constraintRefused n x (e.arg 8 4) (e.arg 0xC 4) (e.arg 0x10 1) = false :=
  ⟨0, 0, cmdEntry 0x1B [(0, 4, 1), (8, 4, 2)], tensor1 1 6, withEntry (cmdEntry 0x1B [(0, 4, 1), (8, 4, 2)]) tenantT State.reset, by decide +kernel⟩

theorem test_PlacementCommandsAct_8 : ∃ n : TenantId, ∃ r : RingId, ∃ e : Entry, ∃ x : Tensor, ∃ s : State, s.mayRun n r 0x1B e ∧ s.tensor? n (e.arg 0 4) = some x ∧ e.arg 8 4 < 128 ∧ e.arg 0xC 4 < 128 ∧ e.arg 0x10 1 < 16 ∧ e.arg 0x11 1 < 4 ∧ e.arg 0x12 6 = 0 ∧ (s.begun n r e).constraintRefused n x (e.arg 8 4) (e.arg 0xC 4) (e.arg 0x10 1) = true :=
  ⟨0, 0, cmdEntry 0x1B [(0, 4, 1), (8, 4, 8)], tensor1 1 6, withEntry (cmdEntry 0x1B [(0, 4, 1), (8, 4, 8)]) tenantT State.reset, by decide +kernel⟩

theorem test_PlacementCommandsAct_9 : ∃ n : TenantId, ∃ r : RingId, ∃ e : Entry, ∃ x : Tensor, ∃ z : Frozen, ∃ s : State, s.mayRun n r 0x1C e ∧ s.tensor? n (e.arg 0 4) = some x ∧ x.cls = 2 ∧ e.arg 4 1 ≤ 1 ∧ e.arg 5 1 ≤ 1 ∧ s.frozenOf n x = some z ∧ z.creator = n ∧ z.loading = none :=
  ⟨0, 0, cmdEntry 0x1C [(0, 4, 1)], tensor1 1 2, frozen1, withEntry (cmdEntry 0x1C [(0, 4, 1)]) tenantF { State.reset with frozen := [frozen1] }, by decide +kernel⟩

theorem test_PlacementCommandsAct_10 : ∃ n : TenantId, ∃ r : RingId, ∃ e : Entry, ∃ x : Tensor, ∃ z : Frozen, ∃ s : State, s.mayRun n r 0x1C e ∧ s.tensor? n (e.arg 0 4) = some x ∧ x.cls = 2 ∧ e.arg 4 1 ≤ 1 ∧ e.arg 5 1 ≤ 1 ∧ s.frozenOf n x = some z ∧ ((z.creator ≠ n ∨ z.loading ≠ none)) :=
  ⟨0, 0, cmdEntry 0x1C [(0, 4, 1)], tensor1 1 2, { frozen1 with creator := 3 }, withEntry (cmdEntry 0x1C [(0, 4, 1)]) tenantF { State.reset with frozen := [{ frozen1 with creator := 3 }] }, by decide +kernel⟩

theorem test_PlacementCommandsAct_11 : ∃ n : TenantId, ∃ r : RingId, ∃ e : Entry, ∃ i k : Half, ∃ d : List Byte, ∃ x : Tensor, ∃ z : Frozen, ∃ s : State, s.startedAt n r i.toNat = some e ∧ s.entry? n r e.cid = some e ∧ s.waits = [] ∧ e.arg 4 1 = 1 ∧ k = 0 ∧ s.areaWritable 2 = true ∧ s.tensor? n (e.arg 0 4) = some x ∧ (∀ q ∈ x.parts, q.spilled = false) ∧ s.frozen.find? (fun z => match z.loading with | some (t', _, c) => t' == n.val && c == e.cid | none => false) = some z ∧ s.frozen.find? (fun y => y.name == z.name) = some z :=
  ⟨0, 0, loadE, 0, 0, leBytes 4 0x40000000, tensor1 1 2, loading1, loadS, by decide +kernel⟩

theorem test_PlacementCommandsAct_12 : ∃ n : TenantId, ∃ r : RingId, ∃ e : Entry, ∃ i : Half, ∃ d : List Byte, ∃ s : State, s.startedAt n r i.toNat = some e ∧ s.areaWritable 2 = false :=
  ⟨0, 0, loadE, 0, [], loadS.setBucket 2 0, by decide +kernel⟩

theorem test_PlacementCommandsAct_13 : ∃ n : TenantId, ∃ r : RingId, ∃ e : Entry, ∃ i k : Half, ∃ d : List Byte, ∃ x : Tensor, ∃ z : Frozen, ∃ s : State, s.startedAt n r i.toNat = some e ∧ s.entry? n r e.cid = some e ∧ s.waits = [] ∧ e.arg 4 1 = 1 ∧ k ≠ 0 ∧ s.tensor? n (e.arg 0 4) = some x ∧ (∀ q ∈ x.parts, q.spilled = false) ∧ s.frozen.find? (fun z => match z.loading with | some (t', _, c) => t' == n.val && c == e.cid | none => false) = some z ∧ s.frozen.find? (fun y => y.name == z.name) = some z :=
  ⟨0, 0, loadE, 0, 0x401, [], tensor1 1 2, loading1, loadS, by decide +kernel⟩

theorem test_PortsAndLinks_1 : ∃ s : State, 3 ≤ s.clk.released ∧ s.has F.fabStatusReady = false :=
  ⟨{ State.reset with clk := { Clk.reset with released := 3 } }, by decide +kernel⟩

theorem test_PortsAndLinks_2 : ∃ p : PortId, ∃ s : State, s.has F.fabStatusReady = true ∧ ((s.portState p = portTraining ∨ s.portState p = portRetrain)) :=
  ⟨2, ((State.reset.wr F.fabStatusReady 1).wr (F.fabPortState 2) 1), by decide +kernel⟩

theorem test_PortsAndLinks_3 : ∃ p : PortId, ∃ d : List Byte, ∃ s : State, s.has F.fabStatusReady = true ∧ ((s.portState p = portDown ∨ s.portState p = portTraining ∨ s.portState p = portRetrain)) ∧ s.keeperValue 0x104 0 = some d ∧ leNat d ≠ 0 ∧ s.has F.secStatusEntropyFail = false :=
  ⟨2, [1], { State.reset.wr F.fabStatusReady 1 with keeper := { State.reset.keeper with mirror := KMap.put State.reset.keeper.mirror (liveKey 0x104 0) [1] } }, by decide +kernel⟩

theorem test_PortsAndLinks_4 : ∃ p : PortId, ∃ d : List Byte, ∃ s : State, s.has F.fabStatusReady = true ∧ ((s.portState p = portDown ∨ s.portState p = portTraining ∨ s.portState p = portRetrain)) ∧ s.keeperValue 0x104 0 = some d ∧ leNat d ≠ 0 ∧ s.has F.secStatusEntropyFail = true :=
  ⟨2, [1], { (State.reset.wr F.fabStatusReady 1).wr F.secStatusEntropyFail 1 with keeper := { State.reset.keeper with mirror := KMap.put State.reset.keeper.mirror (liveKey 0x104 0) [1] } }, by decide +kernel⟩

theorem test_PortsAndLinks_5 : ∃ p : PortId, ∃ s : State, s.has F.fabStatusReady = true ∧ ((s.portState p = portDown ∨ s.portState p = portTraining ∨ s.portState p = portRetrain)) ∧ s.keeperValue 0x104 0 = none :=
  ⟨2, (State.reset.wr F.fabStatusReady 1), by decide +kernel⟩

theorem test_PortsAndLinks_6 : ∃ p : PortId, ∃ f : Flit, ∃ s : State, ((s.portState p = portAuth ∨ s.passes p = true)) ∧ ((f.uncorrectable = true ∨ crc32c (f.bytes ++ (leBytes 4 (f.seq.toNat + f.ack.toNat * 2 ^ 12 + f.vc.toNat * 2 ^ 24 + f.credits.toNat * 2 ^ 26))) ≠ f.crc.toNat)) :=
  ⟨2, { bytes := zeros 280, seq := 1, ack := 4095, vc := 0, credits := 2, crc := 0, correctedSymbols := 0, uncorrectable := false }, (State.reset.wr (F.fabPortState 2) 3), by decide +kernel⟩

theorem test_PortsAndLinks_7 : ∃ p : PortId, ∃ f : Flit, ∃ q : Nat, ∃ s : State, ((s.portState p = portAuth ∨ s.passes p = true)) ∧ f.uncorrectable = false ∧ crc32c (f.bytes ++ (leBytes 4 (f.seq.toNat + f.ack.toNat * 2 ^ 12 + f.vc.toNat * 2 ^ 24 + f.credits.toNat * 2 ^ 26))) = f.crc.toNat ∧ (s.port p).rxSeq = some q ∧ f.seq.toNat = q ∧ f.correctedSymbols = 0 :=
  ⟨2, { bytes := zeros 280, seq := 1, ack := 4095, vc := 0, credits := 2, crc := flitCrc 1, correctedSymbols := 0, uncorrectable := false }, 1, ((State.reset.wr (F.fabPortState 2) 3).modPort 2 fun x => { x with rxSeq := some 1 }), by decide +kernel⟩

theorem test_PortsAndLinks_8 : ∃ p : PortId, ∃ f : Flit, ∃ ps : List (List Byte), ∃ b : List Byte, ∃ s : State, s.passes p = true ∧ s.has F.fabStatusNodeValid = true ∧ f.uncorrectable = false ∧ crc32c (f.bytes ++ (leBytes 4 (f.seq.toNat + f.ack.toNat * 2 ^ 12 + f.vc.toNat * 2 ^ 24 + f.credits.toNat * 2 ^ 26))) = f.crc.toNat ∧ f.correctedSymbols = 0 ∧ (((s.port p).rxSeq = none ∨ (s.port p).rxSeq = some ((f.seq.toNat + 4095) % 4096))) ∧ (s.port p).txAck < 4096 ∧ f.ack.toNat = ((s.port p).txAck + 4095) % 4096 ∧ f.vc ≠ 3 ∧ cutPackets (((s.port p).rx ++ f.bytes).length / 8 + 1) ((s.port p).rx ++ f.bytes) = (ps, b) :=
  ⟨2, { bytes := zeros 280, seq := 2, ack := 4095, vc := 0, credits := 2, crc := flitCrc 2, correctedSymbols := 0, uncorrectable := false }, [], [], (((State.reset.wr F.fabStatusNodeValid 1).wr (F.fabPortState 2) 3).modPort 2 fun x => { x with rxSeq := some 1 }), by decide +kernel⟩

theorem test_PortsAndLinks_9 : ∃ p : PortId, ∃ b : List Byte, ∃ x : AuthX, ∃ s : State, s.auth? p = some x ∧ x.whole = false ∧ fragmentOk x b = true :=
  ⟨2, bytesOf 280 [(0, 1, 4), (2, 1, 1), (4, 2, 8)], { nonce := 0, ftype := 0, fragments := 0, frame := [], whole := false, proved := true }, authS { nonce := 0, ftype := 0, fragments := 0, frame := [], whole := false, proved := true }, by decide +kernel⟩

theorem test_PortsAndLinks_10 : ∃ p : PortId, ∃ b : List Byte, ∃ x : AuthX, ∃ s : State, s.auth? p = some x ∧ x.whole = false ∧ fragmentOk x b = false :=
  ⟨2, [], { nonce := 0, ftype := 0, fragments := 0, frame := [], whole := false, proved := true }, authS { nonce := 0, ftype := 0, fragments := 0, frame := [], whole := false, proved := true }, by decide +kernel⟩

theorem test_PortsAndLinks_11 : ∃ p : PortId, ∃ x : AuthX, ∃ s : State, s.canTake = true ∧ s.auth? p = some x ∧ x.whole = true ∧ x.ftype = 2 ∧ x.proved = false ∧ helloOk x.frame = true ∧ s.signRefusal = 0 :=
  ⟨2, { nonce := 0, ftype := 2, fragments := 1, frame := zeros 44, whole := true, proved := false }, authS { nonce := 0, ftype := 2, fragments := 1, frame := zeros 44, whole := true, proved := false }, by decide +kernel⟩

theorem test_PortsAndLinks_12 : ∃ p : PortId, ∃ ch sg : Bool, ∃ x : AuthX, ∃ s : State, s.canTake = true ∧ s.auth? p = some x ∧ x.whole = true ∧ x.ftype = 2 ∧ x.proved = false ∧ helloOk x.frame = true ∧ (ch && sg) = false :=
  ⟨2, true, false, { nonce := 0, ftype := 2, fragments := 1, frame := zeros 44, whole := true, proved := false }, authS { nonce := 0, ftype := 2, fragments := 1, frame := zeros 44, whole := true, proved := false }, by decide +kernel⟩

theorem test_PortsAndLinks_13 : ∃ p : PortId, ∃ x : AuthX, ∃ s : State, s.auth? p = some x ∧ x.whole = true ∧ x.ftype = 4 ∧ x.proved = true ∧ s.proofSent p = true ∧ x.frame.length = 8 ∧ fld x.frame 0 2 = 0 :=
  ⟨2, { nonce := 0, ftype := 4, fragments := 1, frame := zeros 8, whole := true, proved := true }, authS { nonce := 0, ftype := 4, fragments := 1, frame := zeros 8, whole := true, proved := true }, by decide +kernel⟩

theorem test_PortsAndLinks_14 : ∃ p : PortId, ∃ x : AuthX, ∃ s : State, s.auth? p = some x ∧ x.whole = true ∧ x.ftype = 4 ∧ x.proved = true ∧ s.proofSent p = true ∧ x.frame.length = 8 ∧ fld x.frame 0 2 ≠ 0 :=
  ⟨2, { nonce := 0, ftype := 4, fragments := 1, frame := bytesOf 8 [(0, 1, 1)], whole := true, proved := true }, authS { nonce := 0, ftype := 4, fragments := 1, frame := bytesOf 8 [(0, 1, 1)], whole := true, proved := true }, by decide +kernel⟩

theorem test_PortsAndLinks_15 : ∃ p : PortId, ∃ x : AuthX, ∃ s : State, s.auth? p = some x ∧ x.whole = true ∧ x.ftype = 0x0F :=
  ⟨2, { nonce := 0, ftype := 15, fragments := 1, frame := [], whole := true, proved := false }, authS { nonce := 0, ftype := 15, fragments := 1, frame := [], whole := true, proved := false }, by decide +kernel⟩

theorem test_PortsAndLinks_16 : ∃ p : PortId, ∃ s : State, (s.auth? p).isSome = true :=
  ⟨2, authS { nonce := 0, ftype := 15, fragments := 1, frame := [], whole := true, proved := false }, by decide +kernel⟩

theorem test_PortsAndLinks_17 : ∃ e : Fin 16, ∃ ns : List Nat, ∃ ms : List TreeMsg, ∃ s : State, s.inbox (engineUnit e) = .peers ns :: ms :=
  ⟨3, [5], [], { State.reset.send (engineUnit 3) (.peers [5]) with fab := { Fab.reset with cached := [(3, [(5, ⟨1, 0, 0, true⟩)])] } }, by decide +kernel⟩

theorem test_InboundRequests_1 : ∃ p : PortId, ∃ bs : List Byte, ∃ rest : List (List Byte), ∃ k : Pkt, ∃ s : State, (s.port p).requests = bs :: rest ∧ Pkt.of bs = k ∧ k.ty = tyRead ∧ pktSound bs = false :=
  ⟨2, inBad, [], Pkt.of inBad, inS [inBad], by decide +kernel⟩

theorem test_InboundRequests_2 : ∃ p : PortId, ∃ bs : List Byte, ∃ rest : List (List Byte), ∃ k : Pkt, ∃ s : State, (s.port p).requests = bs :: rest ∧ Pkt.of bs = k ∧ k.ty = tyWrite ∧ pktSound bs = true ∧ k.dstInc ≠ s.inc :=
  ⟨2, inPkt 2 9, [], Pkt.of (inPkt 2 9), inS [inPkt 2 9], by decide +kernel⟩

theorem test_InboundRequests_3 : ∃ p : PortId, ∃ bs : List Byte, ∃ rest : List (List Byte), ∃ k : Pkt, ∃ s : State, (s.port p).requests = bs :: rest ∧ Pkt.of bs = k ∧ k.ty = tyRead ∧ pktSound bs = true ∧ k.dstInc = s.inc ∧ s.mustWait p k = false ∧ s.domainTenant k.domain = none :=
  ⟨2, inPkt 1 0, [], Pkt.of (inPkt 1 0), { inS [inPkt 1 0] with keeper := State.reset.keeper }, by decide +kernel⟩

theorem test_InboundRequests_4 : ∃ p : PortId, ∃ bs : List Byte, ∃ rest : List (List Byte), ∃ k : Pkt, ∃ n : Nat, ∃ x : State, ∃ i a : Nat, ∃ s : State, (s.port p).requests = bs :: rest ∧ Pkt.of bs = k ∧ k.ty = tyRead ∧ pktSound bs = true ∧ k.dstInc = s.inc ∧ s.mustWait p k = false ∧ s.domainTenant k.domain = some n ∧ ((n ≠ sfTenant ∨ inDirs k.off = false)) ∧ k.inLine k.len = true ∧ (s.takeRequest p k bs rest).resolveIn p n k.off false = (x, .fault i a) :=
  ⟨2, inPkt 1 0, [], Pkt.of (inPkt 1 0), 0, ((inS [inPkt 1 0]).setTlb (engineUnit 0) []).takeRequest 2 (Pkt.of (inPkt 1 0)) (inPkt 1 0) [], 0x301, 0, (inS [inPkt 1 0]).setTlb (engineUnit 0) [], by decide +kernel⟩

theorem test_InboundRequests_5 : ∃ p : PortId, ∃ bs : List Byte, ∃ rest : List (List Byte), ∃ k : Pkt, ∃ n : Nat, ∃ x : State, ∃ a : Nat, ∃ s : State, (s.port p).requests = bs :: rest ∧ Pkt.of bs = k ∧ k.ty = tyRead ∧ pktSound bs = true ∧ k.dstInc = s.inc ∧ s.mustWait p k = false ∧ s.domainTenant k.domain = some n ∧ ((n ≠ sfTenant ∨ inDirs k.off = false)) ∧ k.inLine k.len = true ∧ (s.takeRequest p k bs rest).resolveIn p n k.off false = (x, .pa a) ∧ x.touchesRecord a k.len = false ∧ (x.readAs a k.len n (engineUnit (portEngine p)) false).poisoned a k.len = false :=
  ⟨2, inPkt 1 0, [], Pkt.of (inPkt 1 0), 0, (inS [inPkt 1 0]).takeRequest 2 (Pkt.of (inPkt 1 0)) (inPkt 1 0) [], windowBase, inS [inPkt 1 0], by decide +kernel⟩

theorem test_InboundRequests_6 : ∃ p : PortId, ∃ bs : List Byte, ∃ rest : List (List Byte), ∃ k : Pkt, ∃ n : Nat, ∃ x : State, ∃ a : Nat, ∃ s : State, (s.port p).requests = bs :: rest ∧ Pkt.of bs = k ∧ k.ty = tyWrite ∧ pktSound bs = true ∧ k.dstInc = s.inc ∧ s.mustWait p k = false ∧ s.domainTenant k.domain = some n ∧ ((n ≠ sfTenant ∨ inDirs k.off = false)) ∧ k.inLine k.data.length = true ∧ (s.takeRequest p k bs rest).resolveIn p n k.off true = (x, .pa a) ∧ x.touchesRecord a k.data.length = false :=
  ⟨2, inPkt 2 0, [], Pkt.of (inPkt 2 0), 0, (inS [inPkt 2 0]).takeRequest 2 (Pkt.of (inPkt 2 0)) (inPkt 2 0) [], windowBase, inS [inPkt 2 0], by decide +kernel⟩

theorem test_InboundRequests_7 : ∃ p : PortId, ∃ bs : List Byte, ∃ rest : List (List Byte), ∃ k : Pkt, ∃ n : Nat, ∃ x : State, ∃ a : Nat, ∃ s : State, (s.port p).requests = bs :: rest ∧ Pkt.of bs = k ∧ k.ty = tyMcast ∧ pktSound bs = true ∧ s.mustWait p k = false ∧ s.domainTenant k.domain = some n ∧ ((n ≠ sfTenant ∨ inDirs k.off = false)) ∧ k.inLine k.data.length = true ∧ (s.takeRequest p k bs rest).resolveIn p n k.off true = (x, .pa a) ∧ x.touchesRecord a k.data.length = false :=
  ⟨2, inPkt 6 0, [], Pkt.of (inPkt 6 0), 0, (inS [inPkt 6 0]).takeRequest 2 (Pkt.of (inPkt 6 0)) (inPkt 6 0) [], windowBase, inS [inPkt 6 0], by decide +kernel⟩

theorem test_InboundRequests_8 : ∃ p : PortId, ∃ bs : List Byte, ∃ rest : List (List Byte), ∃ k : Pkt, ∃ n : Nat, ∃ x : State, ∃ a : Nat, ∃ s : State, (s.port p).requests = bs :: rest ∧ Pkt.of bs = k ∧ k.ty = tyReduce ∧ pktSound bs = true ∧ k.dstInc = s.inc ∧ s.mustWait p k = false ∧ s.domainTenant k.domain = some n ∧ ((n ≠ sfTenant ∨ inDirs k.off = false)) ∧ k.inLine k.data.length = true ∧ (s.takeRequest p k bs rest).resolveIn p n k.off true = (x, .pa a) ∧ x.touchesRecord a k.data.length = false ∧ redSize k.op ≠ 0 :=
  ⟨2, inPkt 3 0, [], Pkt.of (inPkt 3 0), 0, (inS [inPkt 3 0]).takeRequest 2 (Pkt.of (inPkt 3 0)) (inPkt 3 0) [], windowBase, inS [inPkt 3 0], by decide +kernel⟩

theorem test_InboundRequests_9 : ∃ p : PortId, ∃ bs : List Byte, ∃ rest : List (List Byte), ∃ k : Pkt, ∃ n : Nat, ∃ x : State, ∃ a : Nat, ∃ s : State, (s.port p).requests = bs :: rest ∧ Pkt.of bs = k ∧ k.ty = tyAtomic ∧ pktSound bs = true ∧ k.dstInc = s.inc ∧ s.mustWait p k = false ∧ s.receipt? k = none ∧ (s.port k.home).receipts.length < 4096 ∧ s.domainTenant k.domain = some n ∧ ((n ≠ sfTenant ∨ inDirs k.off = false)) ∧ k.off % 8 = 0 ∧ k.op < 64 ∧ k.op % 16 < 8 ∧ ((k.op / 16 % 4 = 3 → k.op % 16 ∈ [0, 1, 2, 6, 7])) ∧ k.atoms ≠ [] ∧ (∀ y ∈ k.atoms, y.off % (if k.op / 16 % 4 = 2 then 8 else 4) = 0 ∧ x.touchesRecord (a / 256 * 256 + y.off) (if k.op / 16 % 4 = 2 then 8 else 4) = false) ∧ ((s.takeRequest p k bs rest).modPort k.home fun x => { x with receipts := x.receipts ++ [{ src := k.src, inc := k.srcInc, id := k.id, done := none }] }).resolveIn p n k.off true = (x, .pa a) :=
  ⟨2, inAtom, [], Pkt.of inAtom, 0, ((inS [inAtom]).takeRequest 2 (Pkt.of (inAtom)) (inAtom) []).modPort (Pkt.of inAtom).home (fun y => { y with receipts := y.receipts ++ [{ src := (Pkt.of inAtom).src, inc := (Pkt.of inAtom).srcInc, id := (Pkt.of inAtom).id, done := none }] }), windowBase, inS [inAtom], by decide +kernel⟩

theorem test_InboundRequests_10 : ∃ p : PortId, ∃ bs : List Byte, ∃ rest : List (List Byte), ∃ k : Pkt, ∃ y : Receipt, ∃ s : State, (s.port p).requests = bs :: rest ∧ Pkt.of bs = k ∧ k.ty = tyAtomic ∧ pktSound bs = true ∧ k.dstInc = s.inc ∧ s.mustWait p k = false ∧ s.receipt? k = some y :=
  ⟨2, inAtom, [], Pkt.of inAtom, { src := (Pkt.of inAtom).src, inc := (Pkt.of inAtom).srcInc, id := (Pkt.of inAtom).id, done := none }, (inS [inAtom]).modPort (Pkt.of inAtom).home (fun y => { y with receipts := [{ src := (Pkt.of inAtom).src, inc := (Pkt.of inAtom).srcInc, id := (Pkt.of inAtom).id, done := none }] }), by decide +kernel⟩

theorem test_InboundRequests_11 : ∃ p : PortId, ∃ bs : List Byte, ∃ rest : List (List Byte), ∃ k : Pkt, ∃ s : State, (s.port p).requests = bs :: rest ∧ Pkt.of bs = k ∧ k.ty = tyAtomic ∧ pktSound bs = true ∧ k.dstInc = s.inc ∧ s.mustWait p k = false ∧ s.receipt? k = none ∧ 4096 ≤ (s.port k.home).receipts.length :=
  ⟨2, inAtom, [], Pkt.of inAtom, (inS [inAtom]).modPort (Pkt.of inAtom).home (fun y => { y with receipts := y.receipts ++ List.replicate 4096 ⟨0, 0, 0, none⟩ }), by decide +kernel⟩

theorem test_InboundRequests_12 : ∃ p : PortId, ∃ bs : List Byte, ∃ rest : List (List Byte), ∃ k : Pkt, ∃ n : Nat, ∃ x y : State, ∃ a i : Nat, ∃ s : State, s.has F.synStatusReady = true ∧ (s.port p).requests = bs :: rest ∧ Pkt.of bs = k ∧ k.ty = tySignal ∧ pktSound bs = true ∧ k.dstInc = s.inc ∧ s.mustWait p k = false ∧ s.domainTenant k.domain = some n ∧ ((n ≠ sfTenant ∨ inDirs k.off = false)) ∧ k.off % 8 = 0 ∧ (s.takeRequest p k bs rest).resolveIn p n k.off true = (x, .pa a) ∧ x.signalAt a k.data = (y, i) :=
  ⟨2, inSig, [], Pkt.of inSig, 0, sigS.takeRequest 2 (Pkt.of inSig) inSig [], ((sigS.takeRequest 2 (Pkt.of inSig) inSig []).signalAt windowBase (Pkt.of inSig).data).1, windowBase, 0, sigS, by decide +kernel⟩

theorem test_OutboundRequestsEnd_1 : ∃ p : PortId, ∃ bs : List Byte, ∃ rest : List (List Byte), ∃ k : Pkt, ∃ q : FabReq, ∃ e i n : Nat, ∃ f : Xfer, ∃ x : State, ∃ b : List Byte, ∃ s : State, (s.port p).responses = bs :: rest ∧ Pkt.of bs = k ∧ k.ty = tyReadRsp ∧ pktSound bs = true ∧ s.fab.reqs.find? (fun q => (Pkt.of q.packet).id == k.id && q.port.isSome && (Pkt.of q.packet).dst == k.src && ((Pkt.of q.packet).ty == tyRead)) = some q ∧ q.src = .engine e i n ∧ s.xfer? e = some f ∧ xKind f.desc = 2 ∧ xCheck f.desc = false ∧ (((s.modPort p fun x => { x with responses := rest }).setReqs (s.fab.reqs.filter fun y => y.id != q.id)).storeSpan (engineUnit e) tlbEngine f.tenant (xLocal f.desc + i) (k.data.take n ++ zeros (n - k.data.length))) = (x, .ok b) :=
  ⟨2, outRsp 0x10 0 (leBytes 8 5), [], Pkt.of (outRsp 0x10 0 (leBytes 8 5)), outReq 1 (.engine 3 0 8), 3, 0, 8, outX 2, (((outS (outRsp 0x10 0 (leBytes 8 5)) (outReq 1 (.engine 3 0 8)) (outX 2)).modPort 2 (fun y => { y with responses := [] })).setReqs []).storeSpan (engineUnit 3) tlbEngine 0 2097152 (leBytes 8 5) |>.1, [], outS (outRsp 0x10 0 (leBytes 8 5)) (outReq 1 (.engine 3 0 8)) (outX 2), by decide +kernel⟩

theorem test_OutboundRequestsEnd_2 : ∃ p : PortId, ∃ bs : List Byte, ∃ rest : List (List Byte), ∃ k : Pkt, ∃ s : State, (s.port p).responses = bs :: rest ∧ Pkt.of bs = k ∧ k.ty = tyReadRsp ∧ pktSound bs = true ∧ (∀ q ∈ s.fab.reqs, (Pkt.of q.packet).id ≠ k.id) :=
  ⟨2, outRsp 0x10 0 [], [], Pkt.of (outRsp 0x10 0 []), State.reset.modPort 2 fun y => { y with responses := [outRsp 0x10 0 []] }, by decide +kernel⟩

theorem test_OutboundRequestsEnd_3 : ∃ p : PortId, ∃ bs : List Byte, ∃ rest : List (List Byte), ∃ k : Pkt, ∃ s : State, (s.port p).responses = bs :: rest ∧ Pkt.of bs = k ∧ k.ty = tyReadRsp ∧ pktSound bs = false :=
  ⟨2, setAt (outRsp 0x10 0 []) 33 1, [], Pkt.of (setAt (outRsp 0x10 0 []) 33 1), State.reset.modPort 2 fun y => { y with responses := [setAt (outRsp 0x10 0 []) 33 1] }, by decide +kernel⟩

theorem test_OutboundRequestsEnd_4 : ∃ p : PortId, ∃ bs : List Byte, ∃ rest : List (List Byte), ∃ k : Pkt, ∃ q : FabReq, ∃ e i n : Nat, ∃ f : Xfer, ∃ s : State, (s.port p).responses = bs :: rest ∧ Pkt.of bs = k ∧ k.ty = tyAck ∧ pktSound bs = true ∧ s.fab.reqs.find? (fun q => (Pkt.of q.packet).id == k.id && q.port.isSome && (Pkt.of q.packet).dst == k.src && ((Pkt.of q.packet).ty == tyWrite || (Pkt.of q.packet).ty == tyReduce || (Pkt.of q.packet).ty == tySignal)) = some q ∧ q.src = .engine e i n ∧ s.xfer? e = some f ∧ xKind f.desc ≠ 2 :=
  ⟨2, outRsp 0x11 0 [], [], Pkt.of (outRsp 0x11 0 []), outReq 2 (.engine 3 0 8), 3, 0, 8, outX 1, outS (outRsp 0x11 0 []) (outReq 2 (.engine 3 0 8)) (outX 1), by decide +kernel⟩

theorem test_OutboundRequestsEnd_5 : ∃ p : PortId, ∃ bs : List Byte, ∃ rest : List (List Byte), ∃ k : Pkt, ∃ q : FabReq, ∃ n : TenantId, ∃ r : RingId, ∃ e : Entry, ∃ s : State, (s.port p).responses = bs :: rest ∧ Pkt.of bs = k ∧ k.ty = tyAck ∧ pktSound bs = true ∧ s.fab.reqs.find? (fun q => (Pkt.of q.packet).id == k.id && q.port.isSome && (Pkt.of q.packet).dst == k.src && ((Pkt.of q.packet).ty == tyWrite || (Pkt.of q.packet).ty == tyReduce || (Pkt.of q.packet).ty == tySignal)) = some q ∧ q.src = .command n r e.cid ∧ s.entry? n r e.cid = some e ∧ e.ended = false ∧ s.waits = [] :=
  ⟨2, outRsp 0x11 0 [], [], Pkt.of (outRsp 0x11 0 []), outReq 5 (.command 0 0 7), 0, 0, { cmdEntry 4 [] with phase := .started }, withEntry { cmdEntry 4 [] with phase := .started } Tenant.reset (outS (outRsp 0x11 0 []) (outReq 5 (.command 0 0 7)) (outX 1)), by decide +kernel⟩

theorem test_OutboundRequestsEnd_6 : ∃ p : PortId, ∃ bs : List Byte, ∃ rest : List (List Byte), ∃ k : Pkt, ∃ q : FabReq, ∃ s : State, (s.port p).responses = bs :: rest ∧ Pkt.of bs = k ∧ k.ty = tyAtomicRsp ∧ pktSound bs = true ∧ s.fab.reqs.find? (fun q => (Pkt.of q.packet).id == k.id && q.port.isSome && (Pkt.of q.packet).dst == k.src && ((Pkt.of q.packet).ty == tyAtomic)) = some q :=
  ⟨2, outRsp 0x12 0 (leBytes 8 5), [], Pkt.of (outRsp 0x12 0 (leBytes 8 5)), outReq 4 (.tumbler 0 1 []), outS (outRsp 0x12 0 (leBytes 8 5)) (outReq 4 (.tumbler 0 1 [])) (outX 1), by decide +kernel⟩

theorem test_OutboundRequestsEnd_7 : ∃ p : PortId, ∃ bs : List Byte, ∃ rest : List (List Byte), ∃ k : Pkt, ∃ q : FabReq, ∃ e i n : Nat, ∃ f : Xfer, ∃ s : State, (s.port p).responses = bs :: rest ∧ Pkt.of bs = k ∧ k.ty = tyNack ∧ pktSound bs = true ∧ s.fab.reqs.find? (fun q => (Pkt.of q.packet).id == k.id && q.port.isSome && (Pkt.of q.packet).dst == k.src && ((Pkt.of q.packet).ty != tyMcast)) = some q ∧ q.src = .engine e i n ∧ s.xfer? e = some f ∧ k.status ≠ 0 ∧ (Pkt.of q.packet).ty ≠ tyAtomic :=
  ⟨2, outRsp 0x13 0x301 [], [], Pkt.of (outRsp 0x13 0x301 []), outReq 2 (.engine 3 0 8), 3, 0, 8, outX 1, outS (outRsp 0x13 0x301 []) (outReq 2 (.engine 3 0 8)) (outX 1), by decide +kernel⟩

theorem test_OutboundRequestsEnd_8 : ∃ p : PortId, ∃ bs : List Byte, ∃ rest : List (List Byte), ∃ k : Pkt, ∃ q : FabReq, ∃ s : State, (s.port p).responses = bs :: rest ∧ Pkt.of bs = k ∧ k.ty = tyNack ∧ pktSound bs = true ∧ s.fab.reqs.find? (fun q => (Pkt.of q.packet).id == k.id && q.port.isSome && (Pkt.of q.packet).dst == k.src && ((Pkt.of q.packet).ty != tyMcast)) = some q ∧ k.status = 0x407 ∧ q.atomic = true :=
  ⟨2, outRsp 0x13 0x407 [], [], Pkt.of (outRsp 0x13 0x407 []), outReq 4 (.tumbler 0 1 []), outS (outRsp 0x13 0x407 []) (outReq 4 (.tumbler 0 1 [])) (outX 1), by decide +kernel⟩

theorem test_OutboundRequestsEnd_9 : ∃ k : Word, ∃ q : FabReq, ∃ e i n : Nat, ∃ f : Xfer, ∃ s : State, s.reqOf false k.toNat = some q ∧ q.port.isSome = true ∧ q.src = .engine e i n ∧ s.xfer? e = some f :=
  ⟨6, outReq 2 (.engine 3 0 8), 3, 0, 8, outX 1, outS [] (outReq 2 (.engine 3 0 8)) (outX 1), by decide +kernel⟩

theorem test_OutboundRequestsEnd_10 : ∃ k : Word, ∃ s : State, s.reqOf false k.toNat = none :=
  ⟨6, outS [] (outReq 4 .release) (outX 1), by decide +kernel⟩

theorem test_OutboundRequestsEnd_11 : ∃ k : Word, ∃ q : FabReq, ∃ j : Nat, ∃ s : State, s.reqOf true k.toNat = some q ∧ s.req? q.id = some q ∧ q.port.isSome = true ∧ (Pkt.of q.packet).dst ≠ s.node ∧ s.mapped (Pkt.of q.packet).dst (Pkt.of q.packet).flow = some j :=
  ⟨6, outReq 4 .release, 2, outS [] (outReq 4 .release) (outX 1), by decide +kernel⟩

theorem test_OutboundRequestsEnd_12 : ∃ k : Word, ∃ q : FabReq, ∃ s : State, s.reqOf true k.toNat = some q ∧ q.port.isSome = true :=
  ⟨6, outReq 4 .release, outS [] (outReq 4 .release) (outX 1), by decide +kernel⟩

theorem test_OutboundRequestsEnd_13 : ∃ k : Word, ∃ s : State, s.reqOf true k.toNat = none :=
  ⟨6, outS [] (outReq 2 .release) (outX 1), by decide +kernel⟩

theorem test_TransfersAndSignals_1 : ∃ n : TenantId, ∃ r : RingId, ∃ e : Entry, ∃ d : List Byte, ∃ s : State, s.mayRun n r 5 e ∧ e.arg 0 8 % 64 = 0 ∧ ((s.begun n r e).fetchSpan (coreUnit 0) 0 n (e.arg 0 8) 64 false).2 = .ok d ∧ ((s.begun n r e).fetchSpan (coreUnit 0) 0 n (e.arg 0 8) 64 false).1.xferRefusal n d = 0 :=
  ⟨0, 0, cmdEntry 5 [(0, 8, 2097152)], xferD, withWard (withEntry (cmdEntry 5 [(0, 8, 2097152)]) Tenant.reset ((withPages (coreUnit 0)).write windowBase xferD)), by decide +kernel⟩

theorem test_TransfersAndSignals_2 : ∃ n : TenantId, ∃ r : RingId, ∃ e : Entry, ∃ d : List Byte, ∃ k : Nat, ∃ s : State, s.mayRun n r 5 e ∧ e.arg 0 8 % 64 = 0 ∧ ((s.begun n r e).fetchSpan (coreUnit 0) 0 n (e.arg 0 8) 64 false).2 = .ok d ∧ ((s.begun n r e).fetchSpan (coreUnit 0) 0 n (e.arg 0 8) 64 false).1.xferRefusal n d = k ∧ k ≠ 0 :=
  ⟨0, 0, cmdEntry 5 [(0, 8, 2097152)], xferD, 0x404, withEntry (cmdEntry 5 [(0, 8, 2097152)]) Tenant.reset ((withPages (coreUnit 0)).write windowBase xferD), by decide +kernel⟩

theorem test_TransfersAndSignals_3 : ∃ j : Fin 16, ∃ f : Xfer, ∃ n : TenantId, ∃ r : RingId, ∃ e : Entry, ∃ s : State, s.xfer? j = some f ∧ f.tenant = n ∧ f.owner = .command r e.cid ∧ xKind f.desc ≠ 2 ∧ xDone f.desc = 0 ∧ f.signal ≠ 1 ∧ s.xferOver j f = true ∧ s.fab.queue = [] ∧ s.entry? n r e.cid = some e ∧ e.ended = false ∧ s.waits = [] :=
  ⟨3, { outX 1 with sent := 64, done := 64 }, 0, 0, { cmdEntry 5 [] with phase := .started }, withEntry { cmdEntry 5 [] with phase := .started } Tenant.reset { State.reset with fab := { Fab.reset with xfers := [(3, { outX 1 with sent := 64, done := 64 })] } }, by decide +kernel⟩

theorem test_TransfersAndSignals_4 : ∃ n : TenantId, ∃ r : RingId, ∃ e : Entry, ∃ d : Nat, ∃ x : State, ∃ s : State, s.mayRun n r 4 e ∧ s.wardDomain n (nodeOf (e.arg 0 8)) (offsetOf (e.arg 0 8)) 8 tySignal = some d ∧ (s.begun n r e).ask { src := .command n r e.cid, tenant := n, engine := 0, ty := tySignal, flags := 0, dst := nodeOf (e.arg 0 8), domain := d, flow := 0, op := 0, off := offsetOf (e.arg 0 8), len := 16, mask := 0, data := (e.bytes.drop 16).take 16 } = (x, 0) :=
  ⟨0, 0, cmdEntry 4 [(0, 8, 3 * 2 ^ 48)], 9, (sigCmdS.begun 0 0 (cmdEntry 4 [(0, 8, 3 * 2 ^ 48)])).ask sigAsk |>.1, sigCmdS, by decide +kernel⟩

theorem test_TransfersAndSignals_5 : ∃ n : TenantId, ∃ r : RingId, ∃ e : Entry, ∃ s : State, s.mayRun n r 4 e ∧ s.wardDomain n (nodeOf (e.arg 0 8)) (offsetOf (e.arg 0 8)) 8 tySignal = none :=
  ⟨0, 0, cmdEntry 4 [(0, 8, 3 * 2 ^ 48)], withEntry (cmdEntry 4 [(0, 8, 3 * 2 ^ 48)]) Tenant.reset State.reset, by decide +kernel⟩

theorem test_TransfersAndSignals_6 : ∃ n : TenantId, ∃ r : RingId, ∃ e : Entry, ∃ d : Nat, ∃ x : Peer, ∃ s : State, s.mayRun n r 4 e ∧ s.wardDomain n (nodeOf (e.arg 0 8)) (offsetOf (e.arg 0 8)) 8 tySignal = some d ∧ s.has F.fabStatusNodeValid = true ∧ nodeOf (e.arg 0 8) ≠ s.node ∧ KMap.find (KMap.get s.fab.cached 0 []) (nodeOf (e.arg 0 8)) = some x ∧ x.state ≠ 0 :=
  ⟨0, 0, cmdEntry 4 [(0, 8, 3 * 2 ^ 48)], 9, ⟨1, 1, 0, true⟩, { sigCmdS with fab := { sigCmdS.fab with cached := [(0, [(3, ⟨1, 1, 0, true⟩)])] } }, by decide +kernel⟩

theorem test_ManagementMessages_1 : ∃ p : PortId, ∃ bs : List Byte, ∃ rest : List (List Byte), ∃ s : State, (s.port p).mgmt = bs :: rest ∧ pktSound bs = true ∧ ((s.mgmtHeadOk (Pkt.of bs) = false ∨ bodyOk (mType (Pkt.of bs).data) (mBody (Pkt.of bs).data) = false)) :=
  ⟨2, mgPkt 1 (zeros 8), [], mgS 1 (zeros 8), by decide +kernel⟩

theorem test_ManagementMessages_2 : ∃ p : PortId, ∃ bs : List Byte, ∃ rest : List (List Byte), ∃ s : State, (s.port p).mgmt = bs :: rest ∧ pktSound bs = true ∧ s.mgmtHeadOk (Pkt.of bs) = true ∧ bodyOk 2 (mBody (Pkt.of bs).data) = true ∧ mType (Pkt.of bs).data = 2 ∧ s.mgmtSeen (Pkt.of bs).data = true :=
  ⟨2, mgPkt 2 annB, [], { mgS 2 annB with fab := { (mgS 2 annB).fab with last := some (1, 9) } }, by decide +kernel⟩

theorem test_ManagementMessages_3 : ∃ p : PortId, ∃ bs : List Byte, ∃ rest : List (List Byte), ∃ b : List Byte, ∃ s : State, (s.port p).mgmt = bs :: rest ∧ pktSound bs = true ∧ s.mgmtHeadOk (Pkt.of bs) = true ∧ mType (Pkt.of bs).data = 1 ∧ mBody (Pkt.of bs).data = b ∧ bodyOk 1 b = true ∧ s.mgmtSeen (Pkt.of bs).data = false ∧ s.has F.fabStatusNodeValid = false :=
  ⟨2, mgPkt 1 (bytesOf 8 [(0, 2, 5), (2, 2, 1), (4, 2, 7), (6, 1, 1)]), [], (bytesOf 8 [(0, 2, 5), (2, 2, 1), (4, 2, 7), (6, 1, 1)]), mgS 1 (bytesOf 8 [(0, 2, 5), (2, 2, 1), (4, 2, 7), (6, 1, 1)]), by decide +kernel⟩

theorem test_ManagementMessages_4 : ∃ p : PortId, ∃ bs : List Byte, ∃ rest : List (List Byte), ∃ b : List Byte, ∃ s : State, (s.port p).mgmt = bs :: rest ∧ pktSound bs = true ∧ s.mgmtHeadOk (Pkt.of bs) = true ∧ mType (Pkt.of bs).data = 1 ∧ mBody (Pkt.of bs).data = b ∧ bodyOk 1 b = true ∧ s.mgmtSeen (Pkt.of bs).data = false ∧ s.has F.fabStatusNodeValid = true :=
  ⟨2, mgPkt 1 (bytesOf 8 [(0, 2, 5), (2, 2, 1)]), [], (bytesOf 8 [(0, 2, 5), (2, 2, 1)]), ((State.reset.wr F.fabStatusNodeValid 1).modPort 2 fun y => { y with mgmt := [mgPkt 1 (bytesOf 8 [(0, 2, 5), (2, 2, 1)])] }), by decide +kernel⟩

theorem test_ManagementMessages_5 : ∃ p : PortId, ∃ bs : List Byte, ∃ rest : List (List Byte), ∃ b : List Byte, ∃ e : List Byte, ∃ s : State, (s.port p).mgmt = bs :: rest ∧ pktSound bs = true ∧ s.mgmtHeadOk (Pkt.of bs) = true ∧ mType (Pkt.of bs).data = 2 ∧ mBody (Pkt.of bs).data = b ∧ bodyOk 2 b = true ∧ s.mgmtSeen (Pkt.of bs).data = false ∧ ((chunks 8 (fld b 0 2) (b.drop 8)).filter fun y => fld y 0 2 == fld e 0 2).getLast? = some e ∧ ((s.has F.fabStatusNodeValid = true → fld e 0 2 ≠ s.node)) :=
  ⟨2, mgPkt 2 annB, [], annB, annB.drop 8, mgS 2 annB, by decide +kernel⟩

theorem test_ManagementMessages_6 : ∃ p : PortId, ∃ bs : List Byte, ∃ rest : List (List Byte), ∃ b : List Byte, ∃ n : TenantId, ∃ s : State, (s.port p).mgmt = bs :: rest ∧ pktSound bs = true ∧ s.mgmtHeadOk (Pkt.of bs) = true ∧ mType (Pkt.of bs).data = 3 ∧ mBody (Pkt.of bs).data = b ∧ bodyOk 3 b = true ∧ s.mgmtSeen (Pkt.of bs).data = false ∧ s.keeper.domains.find? (fun x => x.2 == fld b 0 2) = some (n.val, fld b 0 2) :=
  ⟨2, mgPkt 3 (bytesOf 8 [(0, 2, 9)]), [], (bytesOf 8 [(0, 2, 9)]), 0, { mgS 3 (bytesOf 8 [(0, 2, 9)]) with keeper := { State.reset.keeper with domains := [(0, 9)] } }, by decide +kernel⟩

theorem test_ManagementMessages_7 : ∃ p : PortId, ∃ bs : List Byte, ∃ rest : List (List Byte), ∃ b : List Byte, ∃ s : State, (s.port p).mgmt = bs :: rest ∧ pktSound bs = true ∧ s.mgmtHeadOk (Pkt.of bs) = true ∧ mType (Pkt.of bs).data = 4 ∧ mBody (Pkt.of bs).data = b ∧ bodyOk 4 b = true ∧ s.mgmtSeen (Pkt.of bs).data = false :=
  ⟨2, mgPkt 4 (bytesOf 8 [(0, 2, 9), (2, 1, 1)]), [], (bytesOf 8 [(0, 2, 9), (2, 1, 1)]), (mgS 4 (bytesOf 8 [(0, 2, 9), (2, 1, 1)])).wr F.resStatusReady 1, by decide +kernel⟩

theorem test_ManagementMessages_8 : ∃ p : PortId, ∃ bs : List Byte, ∃ rest : List (List Byte), ∃ b : List Byte, ∃ s : State, (s.port p).mgmt = bs :: rest ∧ pktSound bs = true ∧ s.mgmtHeadOk (Pkt.of bs) = true ∧ mType (Pkt.of bs).data = 5 ∧ mBody (Pkt.of bs).data = b ∧ bodyOk 5 b = true ∧ s.mgmtSeen (Pkt.of bs).data = false ∧ fld b 0 1 = 1 ∧ fld b 1 1 = 1 :=
  ⟨2, mgPkt 5 (bytesOf 24 [(0, 1, 1), (1, 1, 1), (2, 2, 3), (4, 2, 1), (0x10, 8, 4194304)]), [], (bytesOf 24 [(0, 1, 1), (1, 1, 1), (2, 2, 3), (4, 2, 1), (0x10, 8, 4194304)]), mgS 5 (bytesOf 24 [(0, 1, 1), (1, 1, 1), (2, 2, 3), (4, 2, 1), (0x10, 8, 4194304)]), by decide +kernel⟩

theorem test_ManagementMessages_9 : ∃ p : PortId, ∃ bs : List Byte, ∃ rest : List (List Byte), ∃ b : List Byte, ∃ s : State, (s.port p).mgmt = bs :: rest ∧ pktSound bs = true ∧ s.mgmtHeadOk (Pkt.of bs) = true ∧ mType (Pkt.of bs).data = 5 ∧ mBody (Pkt.of bs).data = b ∧ bodyOk 5 b = true ∧ s.mgmtSeen (Pkt.of bs).data = false ∧ fld b 0 1 = 1 ∧ fld b 1 1 = 2 :=
  ⟨2, mgPkt 5 (bytesOf 24 [(0, 1, 1), (1, 1, 2), (2, 2, 3), (4, 2, 1), (0x10, 8, 4194304)]), [], (bytesOf 24 [(0, 1, 1), (1, 1, 2), (2, 2, 3), (4, 2, 1), (0x10, 8, 4194304)]), { mgS 5 (bytesOf 24 [(0, 1, 1), (1, 1, 2), (2, 2, 3), (4, 2, 1), (0x10, 8, 4194304)]) with fab := { (mgS 5 (bytesOf 24 [(0, 1, 1), (1, 1, 2), (2, 2, 3), (4, 2, 1), (0x10, 8, 4194304)])).fab with held := [⟨3, 1, 0, 4194304, [7]⟩] } }, by decide +kernel⟩

theorem test_ManagementMessages_10 : ∃ p : PortId, ∃ bs : List Byte, ∃ rest : List (List Byte), ∃ b : List Byte, ∃ s : State, (s.port p).mgmt = bs :: rest ∧ pktSound bs = true ∧ s.mgmtHeadOk (Pkt.of bs) = true ∧ mType (Pkt.of bs).data = 5 ∧ mBody (Pkt.of bs).data = b ∧ bodyOk 5 b = true ∧ s.mgmtSeen (Pkt.of bs).data = false ∧ fld b 0 1 = 2 ∧ fld b 1 1 = 1 :=
  ⟨2, mgPkt 5 (bytesOf 24 [(0, 1, 2), (1, 1, 1), (2, 2, 3), (4, 2, 1), (0x10, 8, 4194304)]), [], (bytesOf 24 [(0, 1, 2), (1, 1, 1), (2, 2, 3), (4, 2, 1), (0x10, 8, 4194304)]), mgS 5 (bytesOf 24 [(0, 1, 2), (1, 1, 1), (2, 2, 3), (4, 2, 1), (0x10, 8, 4194304)]), by decide +kernel⟩

theorem test_ManagementMessages_11 : ∃ p : PortId, ∃ bs : List Byte, ∃ rest : List (List Byte), ∃ b : List Byte, ∃ s : State, (s.port p).mgmt = bs :: rest ∧ pktSound bs = true ∧ s.mgmtHeadOk (Pkt.of bs) = true ∧ mType (Pkt.of bs).data = 5 ∧ mBody (Pkt.of bs).data = b ∧ bodyOk 5 b = true ∧ s.mgmtSeen (Pkt.of bs).data = false ∧ fld b 0 1 = 2 ∧ fld b 1 1 = 2 :=
  ⟨2, mgPkt 5 (bytesOf 24 [(0, 1, 2), (1, 1, 2), (2, 2, 3), (4, 2, 1), (0x10, 8, 4194304)]), [], (bytesOf 24 [(0, 1, 2), (1, 1, 2), (2, 2, 3), (4, 2, 1), (0x10, 8, 4194304)]), mgS 5 (bytesOf 24 [(0, 1, 2), (1, 1, 2), (2, 2, 3), (4, 2, 1), (0x10, 8, 4194304)]), by decide +kernel⟩

theorem test_ManagementMessages_12 : ∃ p : PortId, ∃ bs : List Byte, ∃ rest : List (List Byte), ∃ b : List Byte, ∃ s : State, (s.port p).mgmt = bs :: rest ∧ pktSound bs = true ∧ s.mgmtHeadOk (Pkt.of bs) = true ∧ mType (Pkt.of bs).data = 6 ∧ mBody (Pkt.of bs).data = b ∧ bodyOk 6 b = true ∧ s.mgmtSeen (Pkt.of bs).data = false :=
  ⟨2, mgPkt 6 (bytesOf 40 [(0, 1, 2), (1, 1, 1), (8, 2, 3), (10, 2, 3), (14, 1, 2)]), [], (bytesOf 40 [(0, 1, 2), (1, 1, 1), (8, 2, 3), (10, 2, 3), (14, 1, 2)]), mgS 6 (bytesOf 40 [(0, 1, 2), (1, 1, 1), (8, 2, 3), (10, 2, 3), (14, 1, 2)]), by decide +kernel⟩

theorem test_BarriersAct_1 : ∃ s : State, 2 ≤ s.clk.released :=
  ⟨{ State.reset with clk := { Clk.reset with released := 2 } }, by decide +kernel⟩

theorem test_BarriersAct_2 : ∃ n : TenantId, ∃ r : RingId, ∃ e : Entry, ∃ x y : State, ∃ a k : Nat, ∃ s : State, s.has F.synStatusReady = true ∧ s.mayRun n r 0x20 e ∧ e.arg 0 8 % 2048 = 0 ∧ ((s.begun n r e).translate (engineUnit 4) tlbEngine n (e.arg 0 8) true false) = (x, .pa a) ∧ x.poisoned a 2048 = false ∧ x.activateAt n (e.arg 0 8) a = (y, 0, k) :=
  ⟨0, 0, barE, barS.begun 0 0 barE, barY.1, windowBase, 0, barS, by decide +kernel, by decide +kernel, by decide +kernel, Prod.ext (by decide +kernel) (by decide +kernel), by decide +kernel, Prod.ext rfl (by decide +kernel)⟩

theorem test_BarriersAct_3 : ∃ n : TenantId, ∃ r : RingId, ∃ e : Entry, ∃ s : State, s.has F.synStatusReady = true ∧ s.mayRun n r 0x20 e ∧ e.arg 0 8 % 2048 ≠ 0 :=
  ⟨0, 0, cmdEntry 0x20 [(0, 8, 64)], (withEntry (cmdEntry 0x20 [(0, 8, 64)]) Tenant.reset (State.reset.wr F.synStatusReady 1)), by decide +kernel⟩

theorem test_BarriersAct_4 : ∃ n : TenantId, ∃ r : RingId, ∃ e : Entry, ∃ x : State, ∃ i g : Nat, ∃ s : State, s.has F.synStatusReady = true ∧ s.mayRun n r 0x21 e ∧ (s.begun n r e).members' n (e.arg 0 1) (e.arg 1 1) (e.arg 2 2) = (x, i, g) :=
  ⟨0, 0, cmdEntry 0x21 [(2, 2, 5)], ((memS.begun 0 0 (cmdEntry 0x21 [(2, 2, 5)])).members' 0 0 0 5).1, 0, 0, memS, by decide +kernel⟩

theorem test_BarriersAct_5 : ∃ n : TenantId, ∃ r : RingId, ∃ e : Entry, ∃ s : State, s.has F.synStatusReady = true ∧ s.mayRun n r 0x21 e ∧ (match s.ownSlot n (e.arg 0 1) with | none => true | some x => x.frozen) = true :=
  ⟨0, 0, cmdEntry 0x21 [], (withEntry (cmdEntry 0x21 []) Tenant.reset (State.reset.wr F.synStatusReady 1)), by decide +kernel⟩

theorem test_BarriersAct_6 : ∃ n : TenantId, ∃ r : RingId, ∃ e : Entry, ∃ x : SynSlot, ∃ s : State, s.has F.synStatusReady = true ∧ s.mayRun n r 0x22 e ∧ s.ownSlot n (e.arg 0 1) = some x :=
  ⟨0, 0, cmdEntry 0x22 [], { slotP with status := 0x50B }, (withEntry (cmdEntry 0x22 []) Tenant.reset { State.reset.wr F.synStatusReady 1 with syn := [(0, { slotP with status := 0x50B })] }), by decide +kernel⟩

theorem test_BarriersAct_7 : ∃ n : TenantId, ∃ r : RingId, ∃ e : Entry, ∃ s : State, s.has F.synStatusReady = true ∧ s.mayRun n r 0x22 e ∧ s.ownSlot n (e.arg 0 1) = none :=
  ⟨0, 0, cmdEntry 0x22 [], (withEntry (cmdEntry 0x22 []) Tenant.reset (State.reset.wr F.synStatusReady 1)), by decide +kernel⟩

theorem test_BarriersAct_8 : ∃ k : Fin 64, ∃ x : SynSlot, ∃ s : State, s.slot? k = some x ∧ x.frozen = false ∧ s.recField x 0x16 2 ≠ 0 ∧ s.recField x offArrivedN 2 ≠ 0 ∧ s.ownerPreempted x.tenant = false ∧ s.intact x = true :=
  ⟨0, slotY, { State.reset with syn := [(0, slotY)], mem := { State.reset.mem with scratch := [(0xE, 1), (0x16, 5)] } }, by decide +kernel⟩

theorem test_BarriersAct_9 : ∃ k : Fin 64, ∃ x : SynSlot, ∃ s : State, s.slot? k = some x ∧ ((x.frozen = true ∨ s.recField x 0x16 2 = 0 ∨ s.recField x offArrivedN 2 = 0 ∨ s.ownerPreempted x.tenant = true)) :=
  ⟨0, slotP, { State.reset with syn := [(0, slotP)] }, by decide +kernel⟩

theorem test_RingsAct_1 : ∃ n : TenantId, ∃ r : RingId, ∃ v : Half, ∃ q : Sq, ∃ s : State, s.doorbell n = true ∧ s.sq? n r = some q ∧ v.toNat < q.size :=
  ⟨0, 0, 5, Sq.reset, ringS Sq.reset, by decide +kernel⟩

theorem test_RingsAct_2 : ∃ n : TenantId, ∃ r : RingId, ∃ v : Half, ∃ q : Sq, ∃ s : State, s.doorbell n = true ∧ s.sq? n r = some q ∧ q.size ≤ v.toNat :=
  ⟨0, 0, 16, Sq.reset, ringS Sq.reset, by decide +kernel⟩

theorem test_RingsAct_3 : ∃ n : TenantId, ∃ r : RingId, ∃ v : Half, ∃ s : State, s.doorbell n = false :=
  ⟨0, 0, 16, State.reset, by decide +kernel⟩

theorem test_RingsAct_4 : ∃ q : RingSel, ∃ es : List (List Byte), ∃ x : Sq, ∃ s : State, s.sq? (ringPair q).1 (ringPair q).2 = some x ∧ 0 < x.fetchCount ∧ es.length = x.fetchCount ∧ s.reaches (x.base + 64 * x.head) (64 * x.fetchCount) = true ∧ x.marked = [] ∧ s.pwr.cut = false :=
  ⟨.tenant 0 0, [zeros 64, zeros 64], { Sq.reset with tail := 2 }, ringS { Sq.reset with tail := 2 }, by decide +kernel⟩

theorem test_RingsAct_5 : ∃ q : RingSel, ∃ es : List (List Byte), ∃ ok : Bool, ∃ x : Sq, ∃ s : State, s.sq? (ringPair q).1 (ringPair q).2 = some x ∧ 0 < x.fetchCount ∧ (s.reaches (x.base + 64 * x.head) (64 * x.fetchCount) && ok) = false ∧ s.pwr.cut = false :=
  ⟨.tenant 0 0, [], false, { Sq.reset with tail := 2 }, ringS { Sq.reset with tail := 2 }, by decide +kernel⟩

theorem test_RingsAct_6 : ∃ n : TenantId, ∃ r : RingId, ∃ v : Half, ∃ q : Cq, ∃ s : State, s.doorbell n = true ∧ s.cq? n r = some q ∧ v.toNat < q.size :=
  ⟨0, 0, 1, { Cq.reset with used := 2 }, ((ringS Sq.reset).setCq 0 0 { Cq.reset with used := 2 }), by decide +kernel⟩

theorem test_RingsAct_7 : ∃ n : TenantId, ∃ r : RingId, ∃ c : Cq, ∃ m d : Nat, ∃ rest : List (Nat × Nat), ∃ e : Entry, ∃ q : Sq, ∃ s : State, s.waits = [] ∧ s.cq? n r = some c ∧ c.waiting = (m, d) :: rest ∧ c.used ≠ c.size ∧ s.has F.hifStatusLinkUp = true ∧ s.sq? n m = some q ∧ s.entry? n m d = some e ∧ s.reaches (c.base + 32 * c.tail) 32 = true ∧ s.pwr.cut = false :=
  ⟨0, 0, { Cq.reset with waiting := [(0, 7)] }, 0, 7, [], { cmdEntry 0 [] with phase := .finished, status := 0x602 }, { Sq.reset with entries := [{ cmdEntry 0 [] with phase := .finished, status := 0x602 }] }, ((ringS { Sq.reset with entries := [{ cmdEntry 0 [] with phase := .finished, status := 0x602 }] }).setCq 0 0 { Cq.reset with waiting := [(0, 7)] }).wr F.hifStatusLinkUp 1, by decide +kernel⟩

theorem test_RingsAct_8 : ∃ n : TenantId, ∃ r : RingId, ∃ ok : Bool, ∃ c : Cq, ∃ s : State, s.waits = [] ∧ s.cq? n r = some c ∧ ((c.used = c.size ∨ s.has F.hifStatusLinkUp = false)) :=
  ⟨0, 0, true, Cq.reset, ((ringS Sq.reset).setCq 0 0 Cq.reset), by decide +kernel⟩

theorem test_RingsAct_9 : ∃ n : TenantId, ∃ r : RingId, ∃ q : Sq, ∃ k : Nat, ∃ s : State, s.doorbell n = true ∧ s.sq? n r = some q ∧ q.halted = some k :=
  ⟨0, 0, { Sq.reset with halted := some 5 }, 5, ringS { Sq.reset with halted := some 5 }, by decide +kernel⟩

theorem test_RingsAct_10 : ∃ n : TenantId, ∃ r : RingId, ∃ q : Sq, ∃ k : Nat, ∃ s : State, s.doorbell n = true ∧ s.waits = [] ∧ s.sq? n r = some q ∧ q.halted = some k ∧ (q.entries.map (·.cid)).Nodup :=
  ⟨0, 0, { Sq.reset with halted := some 5, entries := [cmdEntry 0 []] }, 5, ringS { Sq.reset with halted := some 5, entries := [cmdEntry 0 []] }, by decide +kernel⟩

theorem test_RingsAct_11 : ∃ n : TenantId, ∃ v : Word, ∃ s : State, s.doorbell n = true :=
  ⟨0, 5, ringS Sq.reset, by decide +kernel⟩

theorem test_RingsAct_12 : ∃ n : TenantId, ∃ r : RingId, ∃ e : Entry, ∃ s : State, s.mayRun n r 0 e :=
  ⟨0, 0, cmdEntry 0 [], withEntry (cmdEntry 0 []) Tenant.reset State.reset, by decide +kernel⟩

theorem test_AdminRingActs_1 : ∃ v : Word, ∃ s : State, v.getLsbD 31 = true ∧ s.hif.adminOn = false :=
  ⟨0x80000A04, State.reset, by decide +kernel⟩

theorem test_AdminRingActs_2 : ∃ v : Word, ∃ s : State, v.getLsbD 31 = false ∧ s.hif.adminOn = true ∧ s.hif.adminSq.head = s.hif.adminSq.tail ∧ (∀ e ∈ s.hif.adminSq.entries, e.phase = .recorded) :=
  ⟨0, { State.reset with hif := { Hif.reset with adminOn := true } }, by decide +kernel⟩

theorem test_AdminRingActs_3 : ∃ v : Word, ∃ s : State, s.has F.hifStatusReady = false :=
  ⟨7, State.reset, by decide +kernel⟩

theorem test_AdminRingActs_4 : ∃ v : Word, ∃ q : Sq, ∃ k : Cq, ∃ s : State, s.has F.hifStatusReady = true ∧ s.sq? adminOwner 0 = some q ∧ s.cq? adminOwner 0 = some k ∧ v.toNat % 2 ^ 16 < q.size ∧ v.toNat / 2 ^ 16 < k.size :=
  ⟨7, Sq.reset, Cq.reset, adminS Sq.reset, by decide +kernel⟩

theorem test_AdminRingActs_5 : ∃ v : Word, ∃ q : Sq, ∃ s : State, s.has F.hifStatusReady = true ∧ s.sq? adminOwner 0 = some q ∧ q.size ≤ v.toNat % 2 ^ 16 :=
  ⟨16, Sq.reset, adminS Sq.reset, by decide +kernel⟩

theorem test_AdminRingActs_6 : ∃ q : Sq, ∃ k : Nat, ∃ s : State, s.sq? adminOwner 0 = some q ∧ q.halted = some k :=
  ⟨{ Sq.reset with halted := some 5 }, 5, adminS { Sq.reset with halted := some 5 }, by decide +kernel⟩

theorem test_AdminRingActs_7 : ∃ q : Sq, ∃ k : Nat, ∃ s : State, s.waits = [] ∧ s.sq? adminOwner 0 = some q ∧ q.halted = some k ∧ (q.entries.map (·.cid)).Nodup :=
  ⟨{ Sq.reset with halted := some 5, entries := [cmdEntry 0x81 []] }, 5, adminS { Sq.reset with halted := some 5, entries := [cmdEntry 0x81 []] }, by decide +kernel⟩

theorem test_TenantHostCommands_1 : ∃ n : TenantId, ∃ r : RingId, ∃ e : Entry, ∃ d : List Byte, ∃ s : State, s.mayRun n r 1 e ∧ 1 ≤ e.arg 8 4 ∧ e.arg 8 4 ≤ 2 ^ 24 ∧ e.arg 0 8 % 64 = 0 ∧ ((s.begun n r e).fwRead n (e.arg 0 8) 64).2 = .ok d ∧ kernelOk d = true ∧ ((bit (fld d 1 1) 1 = false ∨ bit (s.tenant n).place.rights 0 = true)) :=
  ⟨0, 0, launchE, launch1.desc, launchS launch1.desc, by decide +kernel⟩

theorem test_TenantHostCommands_2 : ∃ n : TenantId, ∃ r : RingId, ∃ e : Entry, ∃ d : List Byte, ∃ s : State, s.mayRun n r 1 e ∧ 1 ≤ e.arg 8 4 ∧ e.arg 8 4 ≤ 2 ^ 24 ∧ e.arg 0 8 % 64 = 0 ∧ ((s.begun n r e).fwRead n (e.arg 0 8) 64).2 = .ok d ∧ kernelOk d = false :=
  ⟨0, 0, launchE, zeros 64, launchS [], by decide +kernel⟩

theorem test_TenantHostCommands_3 : ∃ n : TenantId, ∃ r : RingId, ∃ e : Entry, ∃ d : List Byte, ∃ s : State, s.mayRun n r 1 e ∧ 1 ≤ e.arg 8 4 ∧ e.arg 8 4 ≤ 2 ^ 24 ∧ e.arg 0 8 % 64 = 0 ∧ ((s.begun n r e).fwRead n (e.arg 0 8) 64).2 = .ok d ∧ kernelOk d = true ∧ bit (fld d 1 1) 1 = true ∧ bit (s.tenant n).place.rights 0 = false :=
  ⟨0, 0, launchE, setFld launch1.desc 1 1 2, launchS (setFld launch1.desc 1 1 2), by decide +kernel⟩

theorem test_TenantHostCommands_4 : ∃ n : TenantId, ∃ r : RingId, ∃ e : Entry, ∃ s : State, s.mayRun n r 1 e ∧ ((e.arg 8 4 = 0 ∨ 2 ^ 24 < e.arg 8 4)) :=
  ⟨0, 0, cmdEntry 1 [], withEntry (cmdEntry 1 []) Tenant.reset State.reset, by decide +kernel⟩

theorem test_TenantHostCommands_5 : ∃ n : TenantId, ∃ r : RingId, ∃ e : Entry, ∃ b : List Byte, ∃ ok : Bool, ∃ s : State, s.mayRun n r 2 e ∧ e.arg 0x10 4 % 64 = 0 ∧ e.arg 0x10 4 ≤ 2 ^ 20 ∧ e.arg 0x14 1 ≤ 1 ∧ s.reaches (e.arg 0 8) (e.arg 0x10 4) = true ∧ ((e.arg 0x14 1 = 0 → ok = true)) :=
  ⟨0, 0, cmdEntry 2 [(0, 8, 4096), (0x10, 4, 64)], [3], true, withEntry (cmdEntry 2 [(0, 8, 4096), (0x10, 4, 64)]) Tenant.reset State.reset, by decide +kernel⟩

theorem test_TenantHostCommands_6 : ∃ n : TenantId, ∃ r : RingId, ∃ e : Entry, ∃ b : List Byte, ∃ ok : Bool, ∃ s : State, s.mayRun n r 2 e ∧ ¬(e.arg 0x10 4 % 64 = 0 ∧ e.arg 0x10 4 ≤ 2 ^ 20 ∧ e.arg 0x14 1 ≤ 1) :=
  ⟨0, 0, cmdEntry 2 [(0x10, 4, 63)], [], true, withEntry (cmdEntry 2 [(0x10, 4, 63)]) Tenant.reset State.reset, by decide +kernel⟩

theorem test_TenantHostCommands_7 : ∃ n : TenantId, ∃ r : RingId, ∃ e : Entry, ∃ b : List Byte, ∃ ok : Bool, ∃ s : State, s.mayRun n r 2 e ∧ e.arg 0x10 4 % 64 = 0 ∧ e.arg 0x10 4 ≤ 2 ^ 20 ∧ e.arg 0x14 1 ≤ 1 ∧ ((s.reaches (e.arg 0 8) (e.arg 0x10 4) = false ∨ e.arg 0x14 1 = 0 ∧ ok = false)) :=
  ⟨0, 0, cmdEntry 2 [(0x10, 4, 64)], [], false, withEntry (cmdEntry 2 [(0x10, 4, 64)]) Tenant.reset State.reset, by decide +kernel⟩

theorem test_TenantHostCommands_8 : ∃ n : TenantId, ∃ r : RingId, ∃ idx : Half, ∃ ok : Bool, ∃ e : Entry, ∃ j : HostJob, ∃ x : State, ∃ b : List Byte, ∃ s : State, s.startedAt n r idx.toNat = some e ∧ s.entry? n r e.cid = some e ∧ s.waits = [] ∧ (s.hif.copies.find? fun j => j.tenant == n.val && j.cid == e.cid) = some j ∧ j.toHost = false ∧ { s with hif := { s.hif with copies := s.hif.copies.filter fun k => k.cid != e.cid } }.fwWrite n j.va (j.data.take j.bytes) = (x, .ok b) ∧ j.tenant = n :=
  ⟨0, 0, 0, true, started 2 [], copyJ false, ({ copyS false with hif := Hif.reset }.fwWrite 0 2097152 (List.replicate 64 3)).1, [], copyS false, by decide +kernel, by decide +kernel, by decide +kernel, by decide +kernel, by decide +kernel, Prod.ext (by decide +kernel) (by decide +kernel), by decide +kernel⟩

theorem test_TenantHostCommands_9 : ∃ n : TenantId, ∃ r : RingId, ∃ idx : Half, ∃ ok : Bool, ∃ e : Entry, ∃ j : HostJob, ∃ x : State, ∃ b : List Byte, ∃ s : State, s.startedAt n r idx.toNat = some e ∧ s.entry? n r e.cid = some e ∧ s.waits = [] ∧ (s.hif.copies.find? fun j => j.tenant == n.val && j.cid == e.cid) = some j ∧ j.toHost = true ∧ ok = true ∧ { s with hif := { s.hif with copies := s.hif.copies.filter fun k => k.cid != e.cid } }.fwRead n j.va j.bytes = (x, .ok b) ∧ j.tenant = n ∧ s.reaches j.addr b.length = true :=
  ⟨0, 0, 0, true, started 2 [], copyJ true, ({ copyS true with hif := Hif.reset }.fwRead 0 2097152 64).1, zeros 64, copyS true, by decide +kernel, by decide +kernel, by decide +kernel, by decide +kernel, by decide +kernel, rfl, Prod.ext (by decide +kernel) (by decide +kernel), by decide +kernel, by decide +kernel⟩

theorem test_TenantHostCommands_10 : ∃ n : TenantId, ∃ r : RingId, ∃ idx : Half, ∃ ok : Bool, ∃ e : Entry, ∃ j : HostJob, ∃ x : State, ∃ b : List Byte, ∃ s : State, s.startedAt n r idx.toNat = some e ∧ s.entry? n r e.cid = some e ∧ s.waits = [] ∧ (s.hif.copies.find? fun j => j.tenant == n.val && j.cid == e.cid) = some j ∧ j.toHost = true ∧ ok = false ∧ { s with hif := { s.hif with copies := s.hif.copies.filter fun k => k.cid != e.cid } }.fwRead n j.va j.bytes = (x, .ok b) ∧ j.tenant = n :=
  ⟨0, 0, 0, false, started 2 [], copyJ true, ({ copyS true with hif := Hif.reset }.fwRead 0 2097152 64).1, zeros 64, copyS true, by decide +kernel, by decide +kernel, by decide +kernel, by decide +kernel, by decide +kernel, rfl, Prod.ext (by decide +kernel) (by decide +kernel), by decide +kernel⟩

theorem test_TenantHostCommands_11 : ∃ n : TenantId, ∃ r : RingId, ∃ e : Entry, ∃ x : State, ∃ a k : Nat, ∃ s : State, s.mayRun n r 3 e ∧ s.waits = [] ∧ e.arg 0x10 1 ≤ 3 ∧ e.arg 0 8 % 8 = 0 ∧ (s.begun n r e).translate (coreUnit 0) 0 n (e.arg 0 8) false false = (x, .pa a) ∧ x.poisoned a 8 = false ∧ waitStatus (e.arg 0x10 1) (leNat (x.read a 8)) (e.arg 8 8) = some k :=
  ⟨0, 0, waitE 0, (((waitS 0).begun 0 0 (waitE 0)).translate (coreUnit 0) 0 0 2097152 false false).1, windowBase, 0, waitS 0, by decide +kernel, by decide +kernel, by decide +kernel, by decide +kernel, Prod.ext rfl (by decide +kernel), by decide +kernel, by decide +kernel⟩

theorem test_TenantHostCommands_12 : ∃ n : TenantId, ∃ r : RingId, ∃ e : Entry, ∃ x : State, ∃ a : Nat, ∃ s : State, s.mayRun n r 3 e ∧ s.waits = [] ∧ e.arg 0x10 1 ≤ 3 ∧ e.arg 0 8 % 8 = 0 ∧ (s.begun n r e).translate (coreUnit 0) 0 n (e.arg 0 8) false false = (x, .pa a) ∧ x.poisoned a 8 = false ∧ waitStatus (e.arg 0x10 1) (leNat (x.read a 8)) (e.arg 8 8) = none :=
  ⟨0, 0, waitE 1, (((waitS 1).begun 0 0 (waitE 1)).translate (coreUnit 0) 0 0 2097152 false false).1, windowBase, waitS 1, by decide +kernel, by decide +kernel, by decide +kernel, by decide +kernel, Prod.ext rfl (by decide +kernel), by decide +kernel, by decide +kernel⟩

theorem test_TenantHostCommands_13 : ∃ n : TenantId, ∃ r : RingId, ∃ e : Entry, ∃ s : State, s.mayRun n r 3 e ∧ 3 < e.arg 0x10 1 :=
  ⟨0, 0, cmdEntry 3 [(0x10, 1, 4)], withEntry (cmdEntry 3 [(0x10, 1, 4)]) Tenant.reset State.reset, by decide +kernel⟩

theorem test_TenantHostCommands_14 : ∃ n : TenantId, ∃ r : RingId, ∃ idx : Half, ∃ e : Entry, ∃ w : WaitCmd, ∃ s : State, s.startedAt n r idx.toNat = some e ∧ s.entry? n r e.cid = some e ∧ s.waits = [w] ∧ w.met = none ∧ w.tenant = n ∧ w.cid = e.cid ∧ e.arg 0x14 4 ≠ 0 :=
  ⟨0, 0, 0, started 3 [(0x14, 4, 9)], ⟨0, 0, 7, windowBase, 1, 1, none⟩, runsS (started 3 [(0x14, 4, 9)]) { State.reset with waits := [⟨0, 0, 7, windowBase, 1, 1, none⟩] }, by decide +kernel⟩

theorem test_TenantHostCommands_15 : ∃ n : TenantId, ∃ r : RingId, ∃ idx : Half, ∃ e : Entry, ∃ w : WaitCmd, ∃ s : State, s.startedAt n r idx.toNat = some e ∧ s.waits = [w] ∧ w.met = none ∧ e.arg 0x14 4 = 0 :=
  ⟨0, 0, 0, started 3 [], ⟨0, 0, 7, windowBase, 1, 1, none⟩, runsS (started 3 []) { State.reset with waits := [⟨0, 0, 7, windowBase, 1, 1, none⟩] }, by decide +kernel⟩

theorem test_TenantHostCommands_16 : ∃ n : TenantId, ∃ r : RingId, ∃ e : Entry, ∃ x : State, ∃ ps : List (Nat × Nat), ∃ s : State, s.mayRun n r 0x1D e ∧ e.arg 0 8 % 256 = 0 ∧ e.arg 8 8 % 256 = 0 ∧ s.has F.cstStatusOpBusy = false ∧ s.has F.cstStatusReady = true ∧ s.lockedIn n e = [] ∧ ((s.begun n r e).translateSpan (coreUnit 0) 0 n (e.arg 0 8) (e.arg 8 8) true) = (x, .ok ps) ∧ (∀ a ∈ pieceLines ps, x.isLocked a = false) :=
  ⟨0, 0, markE, (((hbmS []).begun 0 0 markE).translateSpan (coreUnit 0) 0 0 2097152 256 true).1, [(2097152, 256)], hbmS [], by decide +kernel, by decide +kernel, by decide +kernel, by decide +kernel, by decide +kernel, by decide +kernel, Prod.ext (by decide +kernel) (by decide +kernel), by decide +kernel⟩

theorem test_TenantHostCommands_17 : ∃ n : TenantId, ∃ r : RingId, ∃ e : Entry, ∃ s : State, s.mayRun n r 0x1D e ∧ s.has F.cstStatusOpBusy = false ∧ ((e.arg 0 8 % 256 ≠ 0 ∨ e.arg 8 8 % 256 ≠ 0)) :=
  ⟨0, 0, cmdEntry 0x1D [(0, 8, 1)], withEntry (cmdEntry 0x1D [(0, 8, 1)]) Tenant.reset State.reset, by decide +kernel⟩

theorem test_TenantHostCommands_18 : ∃ n : TenantId, ∃ r : RingId, ∃ e : Entry, ∃ ls : List Nat, ∃ s : State, s.mayRun n r 0x1D e ∧ s.has F.cstStatusOpBusy = false ∧ s.lockedIn n e = ls ∧ ls ≠ [] :=
  ⟨0, 0, markE, [8192], lockS, by decide +kernel⟩

theorem test_TenantHostCommands_19 : ∃ n : TenantId, ∃ r : RingId, ∃ e : Entry, ∃ s : State, s.mayRun n r 0x1D e ∧ s.has F.cstStatusOpBusy = true :=
  ⟨0, 0, markE, lockS.wr F.cstStatusOpBusy 1, by decide +kernel⟩

theorem test_AbortsAct_1 : ∃ n : TenantId, ∃ r : RingId, ∃ e : Entry, ∃ q : Sq, ∃ x : Entry, ∃ s : State, s.mayRun n r 0x30 e ∧ e.arg 0 1 < 64 ∧ e.arg (0 + 1) 1 = 0 ∧ e.arg 0 1 ≠ r ∧ s.sq? n (e.arg 0 1) = some q ∧ q.head = q.tail ∧ q.entries = [x] ∧ x.idx = e.arg (0 + 2) 2 ∧ x.cmdId = e.arg (0 + 4) 2 ∧ x.cid ≠ e.cid ∧ x.phase = .staged ∧ s.waits = [] ∧ s.hif.aborts = [] :=
  ⟨0, 0, abortE, ring1 .staged, target .staged, abortS abortE .staged, by decide +kernel⟩

theorem test_AbortsAct_2 : ∃ n : TenantId, ∃ r : RingId, ∃ e : Entry, ∃ q : Sq, ∃ x : Entry, ∃ s : State, s.mayRun n r 0x30 e ∧ e.arg 0 1 < 64 ∧ e.arg (0 + 1) 1 = 0 ∧ e.arg 0 1 ≠ r ∧ s.sq? n (e.arg 0 1) = some q ∧ q.head = q.tail ∧ q.entries = [x] ∧ x.idx = e.arg (0 + 2) 2 ∧ x.cmdId = e.arg (0 + 4) 2 ∧ x.cid ≠ e.cid ∧ x.phase = .recorded ∧ s.waits = [] ∧ s.hif.aborts = [] :=
  ⟨0, 0, abortE, ring1 .recorded, target .recorded, abortS abortE .recorded, by decide +kernel⟩

theorem test_AbortsAct_3 : ∃ n : TenantId, ∃ r : RingId, ∃ e : Entry, ∃ q : Sq, ∃ s : State, s.mayRun n r 0x30 e ∧ e.arg 0 1 < 64 ∧ e.arg (0 + 1) 1 = 0 ∧ s.sq? n (e.arg 0 1) = some q ∧ q.head = q.tail ∧ ((∀ y ∈ q.entries, y.cid = e.cid ∨ y.idx ≠ e.arg 2 2 ∨ y.cmdId ≠ e.arg 4 2)) ∧ e.arg 0 1 ≠ r :=
  ⟨0, 0, cmdEntry 0x30 [(0, 1, 1)], ring1 .staged, abortS (cmdEntry 0x30 [(0, 1, 1)]) .staged, by decide +kernel⟩

theorem test_AbortsAct_4 : ∃ n : TenantId, ∃ r : RingId, ∃ e : Entry, ∃ s : State, s.mayRun n r 0x30 e ∧ ((64 ≤ e.arg 0 1 ∨ 1 < e.arg 1 1)) :=
  ⟨0, 0, cmdEntry 0x30 [(0, 1, 64)], withEntry (cmdEntry 0x30 [(0, 1, 64)]) Tenant.reset State.reset, by decide +kernel⟩

theorem test_AbortsAct_5 : ∃ e : Entry, ∃ q : Sq, ∃ x : Entry, ∃ s : State, s.mayAdmin 0x86 e ∧ e.arg 0 1 < 16 ∧ s.active (e.arg 0 1) = true ∧ e.arg 8 1 < 64 ∧ e.arg (8 + 1) 1 = 0 ∧ s.sq? (e.arg 0 1) (e.arg 8 1) = some q ∧ q.head = q.tail ∧ q.entries = [x] ∧ x.idx = e.arg (8 + 2) 2 ∧ x.cmdId = e.arg (8 + 4) 2 ∧ x.cid ≠ e.cid ∧ x.phase = .staged ∧ s.waits = [] ∧ s.hif.aborts = [] :=
  ⟨adminE 0x86 [(8, 1, 1), (10, 2, 3)], ring1 .staged, target .staged, adminAs (adminE 0x86 [(8, 1, 1), (10, 2, 3)]) (withRing1 .staged), by decide +kernel⟩

theorem test_AbortsAct_6 : ∃ e : Entry, ∃ q : Sq, ∃ x : Entry, ∃ s : State, s.mayAdmin 0x86 e ∧ e.arg 0 1 < 16 ∧ s.active (e.arg 0 1) = true ∧ e.arg 8 1 < 64 ∧ e.arg (8 + 1) 1 = 0 ∧ s.sq? (e.arg 0 1) (e.arg 8 1) = some q ∧ q.head = q.tail ∧ q.entries = [x] ∧ x.idx = e.arg (8 + 2) 2 ∧ x.cmdId = e.arg (8 + 4) 2 ∧ x.cid ≠ e.cid ∧ x.phase = .recorded ∧ s.waits = [] ∧ s.hif.aborts = [] :=
  ⟨adminE 0x86 [(8, 1, 1), (10, 2, 3)], ring1 .recorded, target .recorded, adminAs (adminE 0x86 [(8, 1, 1), (10, 2, 3)]) (withRing1 .recorded), by decide +kernel⟩

theorem test_AbortsAct_7 : ∃ e : Entry, ∃ s : State, s.mayAdmin 0x86 e ∧ e.arg 0 1 < 16 ∧ s.active (e.arg 0 1) = false :=
  ⟨adminE 0x86 [], adminAs (adminE 0x86 []) State.reset, by decide +kernel⟩

theorem test_AbortsAct_8 : ∃ e : Entry, ∃ s : State, s.mayAdmin 0x86 e ∧ 16 ≤ e.arg 0 1 :=
  ⟨adminE 0x86 [(0, 1, 16)], adminAs (adminE 0x86 [(0, 1, 16)]) State.reset, by decide +kernel⟩

theorem test_TenantsCreatedAndReset_1 : ∃ e : Entry, ∃ b w str : List Byte, ∃ s : State, s.mayAdmin 0x80 e ∧ e.arg 0 8 % 64 = 0 ∧ s.reaches (e.arg 0 8) 256 = true ∧ b.length = 256 ∧ fld b 0 1 < 16 ∧ s.rd (F.tenStateState (fld b 0 1)) = 0 ∧ blockOk b = true ∧ s.blockReaches b = true ∧ s.reaches (fld b 0x48 8) 2112 = true ∧ w.length = 2112 ∧ ((fld b 0x40 8 = 0 ∨ s.reaches (fld b 0x40 8) 0x20000 = true ∧ str.length = 0x20000)) ∧ s.slotsGiven + fld b 0x11 1 ≤ 64 ∧ s.domainTaken (fld b 0 1) (fld b 2 2) = false ∧ wardImageOk w = true ∧ ((fld b 0x40 8 ≠ 0 ∨ s.has F.secStatusEntropyFail = false)) ∧ chargeOf 0 4 ≤ fld b 4 4 ∧ areaFrames ≤ (s.freeFrames true areaFrames s.frameCount).length :=
  ⟨adminE 0x80 [], block3 64, ward0, [], createS (2 ^ 30), by decide +kernel⟩

theorem test_TenantsCreatedAndReset_2 : ∃ e : Entry, ∃ b w str : List Byte, ∃ ok : Bool, ∃ s : State, s.mayAdmin 0x80 e ∧ e.arg 0 8 % 64 = 0 ∧ ((s.reaches (e.arg 0 8) 256 = false ∨ ok = false)) :=
  ⟨adminE 0x80 [], [], [], [], false, createS 0, by decide +kernel⟩

theorem test_TenantsCreatedAndReset_3 : ∃ e : Entry, ∃ b w str : List Byte, ∃ s : State, s.mayAdmin 0x80 e ∧ e.arg 0 8 % 64 = 0 ∧ s.reaches (e.arg 0 8) 256 = true ∧ b.length = 256 ∧ fld b 0 1 < 16 ∧ s.rd (F.tenStateState (fld b 0 1)) ≠ 0 :=
  ⟨adminE 0x80 [], block3 64, [], [], adminAs (adminE 0x80 []) (tenant3 Tenant.reset), by decide +kernel⟩

theorem test_TenantsCreatedAndReset_4 : ∃ e : Entry, ∃ b w str : List Byte, ∃ s : State, s.mayAdmin 0x80 e ∧ e.arg 0 8 % 64 = 0 ∧ s.reaches (e.arg 0 8) 256 = true ∧ b.length = 256 ∧ fld b 0 1 < 16 ∧ s.rd (F.tenStateState (fld b 0 1)) = 0 ∧ blockOk b = false :=
  ⟨adminE 0x80 [], zeros 256, [], [], createS 0, by decide +kernel⟩

theorem test_TenantsCreatedAndReset_5 : ∃ e : Entry, ∃ b w str : List Byte, ∃ s : State, s.mayAdmin 0x80 e ∧ e.arg 0 8 % 64 = 0 ∧ s.reaches (e.arg 0 8) 256 = true ∧ b.length = 256 ∧ fld b 0 1 < 16 ∧ s.rd (F.tenStateState (fld b 0 1)) = 0 ∧ blockOk b = true ∧ s.blockReaches b = true ∧ s.reaches (fld b 0x48 8) 2112 = true ∧ w.length = 2112 ∧ ((fld b 0x40 8 = 0 ∨ s.reaches (fld b 0x40 8) 0x20000 = true ∧ str.length = 0x20000)) ∧ 64 < s.slotsGiven + fld b 0x11 1 :=
  ⟨adminE 0x80 [], block3 64, ward0, [], adminAs (adminE 0x80 []) ((State.reset.wr (F.tenStateState 1) 2).wr (F.synTenslotsMax 1) 64), by decide +kernel⟩

theorem test_TenantsCreatedAndReset_6 : ∃ e : Entry, ∃ b w str : List Byte, ∃ s : State, s.mayAdmin 0x80 e ∧ e.arg 0 8 % 64 = 0 ∧ s.reaches (e.arg 0 8) 256 = true ∧ b.length = 256 ∧ fld b 0 1 < 16 ∧ s.rd (F.tenStateState (fld b 0 1)) = 0 ∧ blockOk b = true ∧ s.blockReaches b = true ∧ s.reaches (fld b 0x48 8) 2112 = true ∧ w.length = 2112 ∧ ((fld b 0x40 8 = 0 ∨ s.reaches (fld b 0x40 8) 0x20000 = true ∧ str.length = 0x20000)) ∧ s.slotsGiven + fld b 0x11 1 ≤ 64 ∧ s.domainTaken (fld b 0 1) (fld b 2 2) = true :=
  ⟨adminE 0x80 [], block3 64, ward0, [], { createS 0 with keeper := { State.reset.keeper with domains := [(1, 9)] } }, by decide +kernel⟩

theorem test_TenantsCreatedAndReset_7 : ∃ e : Entry, ∃ b w str : List Byte, ∃ s : State, s.mayAdmin 0x80 e ∧ e.arg 0 8 % 64 = 0 ∧ s.reaches (e.arg 0 8) 256 = true ∧ b.length = 256 ∧ fld b 0 1 < 16 ∧ s.rd (F.tenStateState (fld b 0 1)) = 0 ∧ blockOk b = true ∧ s.blockReaches b = true ∧ s.reaches (fld b 0x48 8) 2112 = true ∧ w.length = 2112 ∧ ((fld b 0x40 8 = 0 ∨ s.reaches (fld b 0x40 8) 0x20000 = true ∧ str.length = 0x20000)) ∧ s.slotsGiven + fld b 0x11 1 ≤ 64 ∧ s.domainTaken (fld b 0 1) (fld b 2 2) = false ∧ ((wardImageOk w = false ∨ fld b 0x40 8 = 0 ∧ s.has F.secStatusEntropyFail = true)) :=
  ⟨adminE 0x80 [], block3 64, setFld ward0 0x24 1 1, [], createS 0, by decide +kernel⟩

theorem test_TenantsCreatedAndReset_8 : ∃ e : Entry, ∃ b w str : List Byte, ∃ s : State, s.mayAdmin 0x80 e ∧ e.arg 0 8 % 64 = 0 ∧ s.reaches (e.arg 0 8) 256 = true ∧ b.length = 256 ∧ fld b 0 1 < 16 ∧ s.rd (F.tenStateState (fld b 0 1)) = 0 ∧ blockOk b = true ∧ s.blockReaches b = true ∧ s.reaches (fld b 0x48 8) 2112 = true ∧ w.length = 2112 ∧ ((fld b 0x40 8 = 0 ∨ s.reaches (fld b 0x40 8) 0x20000 = true ∧ str.length = 0x20000)) ∧ s.slotsGiven + fld b 0x11 1 ≤ 64 ∧ s.domainTaken (fld b 0 1) (fld b 2 2) = false ∧ wardImageOk w = true ∧ ((fld b 0x40 8 ≠ 0 ∨ s.has F.secStatusEntropyFail = false)) ∧ fld b 4 4 < chargeOf 0 4 :=
  ⟨adminE 0x80 [], block3 1, ward0, [], createS 0, by decide +kernel⟩

theorem test_TenantsCreatedAndReset_9 : ∃ e : Entry, ∃ b w str : List Byte, ∃ s : State, s.mayAdmin 0x80 e ∧ e.arg 0 8 % 64 = 0 ∧ s.reaches (e.arg 0 8) 256 = true ∧ b.length = 256 ∧ fld b 0 1 < 16 ∧ s.rd (F.tenStateState (fld b 0 1)) = 0 ∧ blockOk b = true ∧ s.blockReaches b = true ∧ s.reaches (fld b 0x48 8) 2112 = true ∧ w.length = 2112 ∧ ((fld b 0x40 8 = 0 ∨ s.reaches (fld b 0x40 8) 0x20000 = true ∧ str.length = 0x20000)) ∧ s.slotsGiven + fld b 0x11 1 ≤ 64 ∧ s.domainTaken (fld b 0 1) (fld b 2 2) = false ∧ wardImageOk w = true ∧ ((fld b 0x40 8 ≠ 0 ∨ s.has F.secStatusEntropyFail = false)) ∧ chargeOf 0 4 ≤ fld b 4 4 ∧ (s.freeFrames true areaFrames s.frameCount).length < areaFrames :=
  ⟨adminE 0x80 [], block3 64, ward0, [], createS 0, by decide +kernel⟩

theorem test_TenantsCreatedAndReset_10 : ∃ e : Entry, ∃ rest : List (RingId × List Byte), ∃ s : State, s.has F.hifStatusLinkUp = true ∧ s.waits = [] ∧ s.sec.restore = none ∧ s.mayAdmin 0x81 e ∧ e.arg 0 1 < 16 ∧ s.active (e.arg 0 1) = true :=
  ⟨resetE, [], resetS, by decide +kernel⟩

theorem test_TenantsCreatedAndReset_11 : ∃ e : Entry, ∃ rest : List (RingId × List Byte), ∃ s : State, s.has F.hifStatusLinkUp = true ∧ s.mayAdmin 0x81 e ∧ e.arg 0 1 < 16 ∧ s.active (e.arg 0 1) = false :=
  ⟨resetE, [], adminAs resetE (State.reset.wr F.hifStatusLinkUp 1), by decide +kernel⟩

theorem test_TenantsCreatedAndReset_12 : ∃ rest : List (RingId × List Byte), ∃ s : State, s.has F.hifStatusLinkUp = false :=
  ⟨[], State.reset, by decide +kernel⟩

theorem test_TenantsCreatedAndReset_13 : ∃ e : Entry, ∃ w : List Byte, ∃ s : State, s.mayAdmin 0x85 e ∧ e.arg 0 1 < 16 ∧ s.active (e.arg 0 1) = true ∧ s.reaches (e.arg 8 8) 2112 = true ∧ w.length = 2112 ∧ wardImageOk w = true :=
  ⟨adminE 0x85 [(0, 1, 3)], ward0, adminAs (adminE 0x85 [(0, 1, 3)]) (tenant3 Tenant.reset), by decide +kernel⟩

theorem test_TenantsCreatedAndReset_14 : ∃ e : Entry, ∃ w : List Byte, ∃ s : State, s.mayAdmin 0x85 e ∧ e.arg 0 1 < 16 ∧ s.active (e.arg 0 1) = true ∧ s.reaches (e.arg 8 8) 2112 = true ∧ w.length = 2112 ∧ wardImageOk w = false :=
  ⟨adminE 0x85 [(0, 1, 3)], setFld ward0 0x24 1 1, adminAs (adminE 0x85 [(0, 1, 3)]) (tenant3 Tenant.reset), by decide +kernel⟩

theorem test_TenantsCreatedAndReset_15 : ∃ e : Entry, ∃ w : List Byte, ∃ ok : Bool, ∃ s : State, s.mayAdmin 0x85 e ∧ e.arg 0 1 < 16 ∧ s.active (e.arg 0 1) = true ∧ ((s.reaches (e.arg 8 8) 2112 = false ∨ ok = false)) :=
  ⟨adminE 0x85 [(0, 1, 3)], [], false, adminAs (adminE 0x85 [(0, 1, 3)]) (tenant3 Tenant.reset), by decide +kernel⟩

theorem test_RingsCreatedAndDeleted_1 : ∃ e : Entry, ∃ s : State, s.mayAdmin 0x82 e ∧ e.arg 0 1 < 16 ∧ e.arg 1 1 < 64 ∧ s.active (e.arg 0 1) = true ∧ 4 ≤ e.arg 2 1 ∧ e.arg 2 1 ≤ 16 ∧ e.arg 8 8 % 4096 = 0 ∧ s.reaches (e.arg 8 8) (32 * 2 ^ e.arg 2 1) = true ∧ s.cq? (e.arg 0 1) (e.arg 1 1) = none :=
  ⟨ringE 0x82 5, ringsS 0x82 5, by decide +kernel⟩

theorem test_RingsCreatedAndDeleted_2 : ∃ e : Entry, ∃ q : Cq, ∃ s : State, s.mayAdmin 0x82 e ∧ e.arg 0 1 < 16 ∧ e.arg 1 1 < 64 ∧ s.active (e.arg 0 1) = true ∧ 4 ≤ e.arg 2 1 ∧ e.arg 2 1 ≤ 16 ∧ e.arg 8 8 % 4096 = 0 ∧ s.reaches (e.arg 8 8) (32 * 2 ^ e.arg 2 1) = true ∧ s.cq? (e.arg 0 1) (e.arg 1 1) = some q :=
  ⟨adminE 0x82 [(0, 1, 3), (1, 1, 1), (2, 1, 5)], Cq.reset, adminAs (adminE 0x82 [(0, 1, 3), (1, 1, 1), (2, 1, 5)]) (tenant3 { Tenant.reset with cqs := [(1, Cq.reset)] }), by decide +kernel⟩

theorem test_RingsCreatedAndDeleted_3 : ∃ e : Entry, ∃ s : State, s.mayAdmin 0x82 e ∧ e.arg 0 1 < 16 ∧ e.arg 1 1 < 64 ∧ s.active (e.arg 0 1) = true ∧ ¬(4 ≤ e.arg 2 1 ∧ e.arg 2 1 ≤ 16 ∧ e.arg 8 8 % 4096 = 0) :=
  ⟨ringE 0x82 17, ringsS 0x82 17, by decide +kernel⟩

theorem test_RingsCreatedAndDeleted_4 : ∃ e : Entry, ∃ s : State, s.mayAdmin 0x82 e ∧ e.arg 0 1 < 16 ∧ e.arg 1 1 < 64 ∧ s.active (e.arg 0 1) = false :=
  ⟨adminE 0x82 [], adminAs (adminE 0x82 []) State.reset, by decide +kernel⟩

theorem test_RingsCreatedAndDeleted_5 : ∃ e : Entry, ∃ k : Cq, ∃ s : State, s.mayAdmin 0x83 e ∧ e.arg 0 1 < 16 ∧ e.arg 1 1 < 64 ∧ s.active (e.arg 0 1) = true ∧ 4 ≤ e.arg 2 1 ∧ e.arg 2 1 ≤ 16 ∧ e.arg 8 8 % 4096 = 0 ∧ s.reaches (e.arg 8 8) (64 * 2 ^ e.arg 2 1) = true ∧ e.arg 3 1 < 64 ∧ 1 ≤ e.arg 4 1 ∧ e.arg 4 1 ≤ 15 ∧ s.sq? (e.arg 0 1) (e.arg 1 1) = none ∧ s.cq? (e.arg 0 1) (e.arg 3 1) = some k :=
  ⟨ringE 0x83 5, Cq.reset, ringsS 0x83 5, by decide +kernel⟩

theorem test_RingsCreatedAndDeleted_6 : ∃ e : Entry, ∃ s : State, s.mayAdmin 0x83 e ∧ e.arg 0 1 < 16 ∧ e.arg 1 1 < 64 ∧ s.active (e.arg 0 1) = true ∧ 4 ≤ e.arg 2 1 ∧ e.arg 2 1 ≤ 16 ∧ e.arg 8 8 % 4096 = 0 ∧ s.reaches (e.arg 8 8) (64 * 2 ^ e.arg 2 1) = true ∧ e.arg 3 1 < 64 ∧ 1 ≤ e.arg 4 1 ∧ e.arg 4 1 ≤ 15 ∧ ((s.sq? (e.arg 0 1) (e.arg 1 1) ≠ none ∨ s.cq? (e.arg 0 1) (e.arg 3 1) = none)) :=
  ⟨ringE 0x83 5, adminAs (ringE 0x83 5) (tenant3 Tenant.reset), by decide +kernel⟩

theorem test_RingsCreatedAndDeleted_7 : ∃ e : Entry, ∃ s : State, s.mayAdmin 0x83 e ∧ e.arg 0 1 < 16 ∧ e.arg 1 1 < 64 ∧ s.active (e.arg 0 1) = true ∧ e.arg 3 1 < 64 ∧ 1 ≤ e.arg 4 1 ∧ e.arg 4 1 ≤ 15 ∧ 4 ≤ e.arg 2 1 ∧ e.arg 2 1 ≤ 16 ∧ e.arg 8 8 % 4096 = 0 ∧ s.reaches (e.arg 8 8) (64 * 2 ^ e.arg 2 1) = false :=
  ⟨ringE 0x83 5, (ringsS 0x83 5).setReg .hifApertureBase 0x10000, by decide +kernel⟩

theorem test_RingsCreatedAndDeleted_8 : ∃ e : Entry, ∃ q : Sq, ∃ s : State, s.mayAdmin 0x84 e ∧ e.arg 0 1 < 16 ∧ e.arg 1 1 < 64 ∧ s.active (e.arg 0 1) = true ∧ e.arg 2 1 = 0 ∧ s.sq? (e.arg 0 1) (e.arg 1 1) = some q ∧ q.busy = false :=
  ⟨adminE 0x84 [(0, 1, 3), (1, 1, 7)], Sq.reset, adminAs (adminE 0x84 [(0, 1, 3), (1, 1, 7)]) (tenant3 { Tenant.reset with sqs := [(7, Sq.reset)], cqs := [(1, Cq.reset)] }), by decide +kernel⟩

theorem test_RingsCreatedAndDeleted_9 : ∃ e : Entry, ∃ q : Sq, ∃ s : State, s.mayAdmin 0x84 e ∧ e.arg 0 1 < 16 ∧ e.arg 1 1 < 64 ∧ s.active (e.arg 0 1) = true ∧ e.arg 2 1 = 0 ∧ s.sq? (e.arg 0 1) (e.arg 1 1) = some q ∧ q.busy = true :=
  ⟨adminE 0x84 [(0, 1, 3), (1, 1, 7)], { Sq.reset with tail := 1 }, adminAs (adminE 0x84 [(0, 1, 3), (1, 1, 7)]) (tenant3 { Tenant.reset with sqs := [(7, { Sq.reset with tail := 1 })] }), by decide +kernel⟩

theorem test_RingsCreatedAndDeleted_10 : ∃ e : Entry, ∃ q : Cq, ∃ s : State, s.mayAdmin 0x84 e ∧ e.arg 0 1 < 16 ∧ e.arg 1 1 < 64 ∧ s.active (e.arg 0 1) = true ∧ e.arg 2 1 = 1 ∧ s.cq? (e.arg 0 1) (e.arg 1 1) = some q ∧ (∀ x ∈ (s.tenant (e.arg 0 1)).sqs, x.2.cq ≠ e.arg 1 1) :=
  ⟨adminE 0x84 [(0, 1, 3), (1, 1, 1), (2, 1, 1)], Cq.reset, adminAs (adminE 0x84 [(0, 1, 3), (1, 1, 1), (2, 1, 1)]) (tenant3 { Tenant.reset with sqs := [(7, Sq.reset)], cqs := [(1, Cq.reset)] }), by decide +kernel⟩

theorem test_RingsCreatedAndDeleted_11 : ∃ e : Entry, ∃ x : Nat × Sq, ∃ s : State, s.mayAdmin 0x84 e ∧ e.arg 0 1 < 16 ∧ e.arg 1 1 < 64 ∧ s.active (e.arg 0 1) = true ∧ e.arg 2 1 = 1 ∧ x ∈ (s.tenant (e.arg 0 1)).sqs ∧ x.2.cq = e.arg 1 1 :=
  ⟨adminE 0x84 [(0, 1, 3), (2, 1, 1)], (7, Sq.reset), adminAs (adminE 0x84 [(0, 1, 3), (2, 1, 1)]) (tenant3 { Tenant.reset with sqs := [(7, Sq.reset)], cqs := [(0, Cq.reset)] }), by decide +kernel⟩

theorem test_HostLinkActs_1 : ∃ o : Nat, ∃ wr : Bool, ∃ d : List Byte, ∃ s : State, s.bar4 = false :=
  ⟨0, true, [1], State.reset, by decide +kernel⟩

theorem test_HostLinkActs_2 : ∃ o : Nat, ∃ wr : Bool, ∃ d : List Byte, ∃ s : State, s.bar4 = true ∧ s.has F.hifStatusReady = false :=
  ⟨0, false, [1], State.reset.wr F.secStatusDebug 1, by decide +kernel⟩

theorem test_HostLinkActs_3 : ∃ o : Nat, ∃ wr : Bool, ∃ d : List Byte, ∃ s : State, s.bar4 = true ∧ s.has F.hifStatusReady = true ∧ ¬(s.has F.hifCtrlBar4En = true ∧ s.inScratch o d.length = true) :=
  ⟨2 ^ 30, false, [1], bar4S, by decide +kernel⟩

theorem test_HostLinkActs_4 : ∃ o : Nat, ∃ d : List Byte, ∃ s : State, s.bar4 = true ∧ s.has F.hifStatusReady = true ∧ s.has F.hifCtrlBar4En = true ∧ s.inScratch o d.length = true :=
  ⟨0, [1, 2], bar4S, by decide +kernel⟩

theorem test_HostLinkActs_5 : ∃ o : Nat, ∃ d : List Byte, ∃ s : State, s.bar4 = true ∧ s.has F.hifStatusReady = true ∧ s.has F.hifCtrlBar4En = true ∧ s.inScratch o d.length = true ∧ s.poisoned (windowBase + o) d.length = false :=
  ⟨0, [1, 2], bar4S, by decide +kernel⟩

theorem test_HostLinkActs_6 : ∃ rate : BitVec 2, ∃ w : BitVec 3, ∃ fl : Bool, ∃ s : State, 3 ≤ s.clk.released ∧ s.has F.hifStatusLinkUp = false :=
  ⟨2, 4, true, { State.reset with clk := { Clk.reset with released := 3 } }, by decide +kernel⟩

theorem test_HostLinkActs_7 : ∃ rate : BitVec 2, ∃ w : BitVec 3, ∃ fl : Bool, ∃ s : State, ((s.clk.released < 3 ∨ s.has F.hifStatusLinkUp = true)) :=
  ⟨2, 4, true, State.reset, by decide +kernel⟩

theorem test_HostLinkActs_8 : ∃ s : State, s.has F.hifStatusLinkUp = true :=
  ⟨State.reset.wr F.hifStatusLinkUp 1, by decide +kernel⟩

theorem test_HostLinkActs_9 : ∃ s : State, s.has F.hifStatusLinkUp = false :=
  ⟨State.reset, by decide +kernel⟩

theorem test_HostLinkActs_10 : ∃ s : State, s.hif.trained = true ∧ s.hif.configReady = false :=
  ⟨{ State.reset with hif := { Hif.reset with trained := true } }, by decide +kernel⟩

theorem test_HostLinkActs_11 : ∃ s : State, ((s.hif.trained = false ∨ s.hif.configReady = true)) :=
  ⟨State.reset, by decide +kernel⟩

theorem test_HostLinkActs_12 : ∃ n : TenantId, ∃ s : State, s.hif.linkHold = true ∧ s.hif.hostLost = false ∧ s.active n = true :=
  ⟨0, { State.reset.wr (F.tenStateState 0) 2 with hif := { Hif.reset with linkHold := true } }, by decide +kernel⟩

theorem test_HostLinkActs_13 : ∃ s : State, s.hif.linkHold = true ∧ s.hif.hostLost = false ∧ (∀ n : TenantId, s.active n = false) ∧ s.sec.due = [] ∧ s.sec.drains = [] ∧ s.pwr.resetting = none :=
  ⟨{ State.reset with hif := { Hif.reset with linkHold := true } }, by decide +kernel⟩

theorem test_HostLinkActs_14 : ∃ s : State, ((s.hif.linkHold = false ∨ s.hif.hostLost = true)) :=
  ⟨State.reset, by decide +kernel⟩

theorem test_HostLinkActs_15 : ∃ k : PcieReset, ∃ pins : Straps, ∃ s : State, s.pwr.phase = .up ∧ s.pwr.resetting = none :=
  ⟨.hot, ⟨1, false, 2⟩, { State.reset with pwr := { State.reset.pwr with phase := .up } }, by decide +kernel⟩

theorem test_HostLinkActs_16 : ∃ k : PcieReset, ∃ pins : Straps, ∃ s : State, ¬(s.pwr.phase = .up ∧ s.pwr.resetting = none) :=
  ⟨.hot, ⟨1, false, 2⟩, { State.reset with pwr := { State.reset.pwr with phase := .falling } }, by decide +kernel⟩

theorem test_HealthAndSecuring_1 : ∃ i : RiskInput, ∃ s : State, s.has F.resStatusReady = true :=
  ⟨.feedWide, resS, by decide +kernel⟩

theorem test_HealthAndSecuring_2 : ∃ i : RiskInput, ∃ s : State, s.has F.resStatusReady = false :=
  ⟨.feedWide, State.reset, by decide +kernel⟩

theorem test_HealthAndSecuring_3 : ∃ i : RiskInput, ∃ f : Fin 192, ∃ s : State, s.rd (F.hbmChstateState f) = 0 :=
  ⟨.feedWide, 3, resS, by decide +kernel⟩

theorem test_HealthAndSecuring_4 : ∃ i : RiskInput, ∃ f : Fin 192, ∃ s : State, s.rd (F.hbmChstateState f) ≠ 0 ∧ s.has F.resStatusReady = false :=
  ⟨.feedWide, 3, State.reset.wr (F.hbmChstateState 3) 2, by decide +kernel⟩

theorem test_HealthAndSecuring_6 : ∃ v : Word, ∃ n : TenantId, ∃ s : State, (v.extractLsb' 0 4).toNat = n ∧ v.getLsbD 31 = true ∧ s.active n = true :=
  ⟨0x80000300, 0, resS, by decide +kernel⟩

theorem test_HealthAndSecuring_7 : ∃ v : Word, ∃ s : State, ((v.getLsbD 31 = false ∨ s.active (v.extractLsb' 0 4).toNat = false)) :=
  ⟨0x80000300, State.reset, by decide +kernel⟩

theorem test_HealthAndSecuring_8 : ∃ n : TenantId, ∃ s : State, s.mayStartDrain n 1 = false ∧ s.mayStartDrain n 2 = false ∧ s.mayStartDrain n 3 = false :=
  ⟨0, State.reset, by decide +kernel⟩

theorem test_HealthAndSecuring_9 : ∃ n : TenantId, ∃ r : Reservation, ∃ x : Nat × Nat, ∃ s : State, s.mayStartDrain n 1 = true ∧ s.dueFirst n 1 = true ∧ s.mayStartDrain n 2 = false ∧ s.mayStartDrain n 3 = false ∧ s.reservation = some r ∧ s.regionFor n (genRoom (s.sourceBlocks n)) r = some x :=
  ⟨0, ⟨3, 1, 0, 2 ^ 30, []⟩, (0, 196928), partS (2 ^ 30), by decide +kernel, by decide +kernel, by decide +kernel, by decide +kernel, by decide +kernel, by rw [(source_room _ rfl).1]; decide +kernel⟩

theorem test_HealthAndSecuring_10 : ∃ n : TenantId, ∃ r : Reservation, ∃ s : State, s.mayStartDrain n 1 = true ∧ s.dueFirst n 1 = true ∧ s.mayStartDrain n 2 = false ∧ s.mayStartDrain n 3 = false ∧ s.reservation = some r ∧ s.regionFor n (genRoom (s.sourceBlocks n)) r = none :=
  ⟨0, ⟨3, 1, 0, 5, []⟩, partS 5, by decide +kernel, by decide +kernel, by decide +kernel, by decide +kernel, by decide +kernel, by rw [(source_room _ rfl).1]; decide +kernel⟩

theorem test_HealthAndSecuring_11 : ∃ n : TenantId, ∃ s : State, s.mayStartDrain n 1 = false ∧ s.mayStartDrain n 2 = true ∧ s.dueFirst n 2 = true ∧ s.mayStartDrain n 3 = false ∧ s.has F.durStatusReadOnly = false ∧ s.extentsUsed (s.genSlotFor n) + genExtents (sourceBytes (s.sourceBlocks n)) ≤ 16384 ∧ s.bucketAllows (mibOf (sourceBytes (s.sourceBlocks n))) = true :=
  ⟨0, flashS, by decide +kernel, by decide +kernel, by decide +kernel, by decide +kernel, by decide +kernel, by rw [(source_room _ rfl).2]; decide +kernel, by rw [(source_room _ rfl).2]; decide +kernel⟩

theorem test_HealthAndSecuring_12 : ∃ n : TenantId, ∃ s : State, s.mayStartDrain n 1 = false ∧ s.mayStartDrain n 2 = true ∧ s.dueFirst n 2 = true ∧ s.mayStartDrain n 3 = false ∧ s.has F.durStatusReadOnly = false ∧ s.extentsUsed (s.genSlotFor n) + genExtents (sourceBytes (s.sourceBlocks n)) ≤ 16384 ∧ s.bucketAllows (mibOf (sourceBytes (s.sourceBlocks n))) = false ∧ n.val ∉ s.sec.budgetWait :=
  ⟨0, flashS.setBucket 0 0, by decide +kernel, by decide +kernel, by decide +kernel, by decide +kernel, by decide +kernel, by rw [(source_room _ rfl).2]; decide +kernel, by rw [(source_room _ rfl).2]; decide +kernel, by decide +kernel⟩

theorem test_HealthAndSecuring_13 : ∃ s : State, s.sec.budgetWait = [] :=
  ⟨State.reset, by decide +kernel⟩

theorem test_HealthAndSecuring_14 : ∃ n : TenantId, ∃ ns : List Nat, ∃ s : State, s.sec.budgetWait = n.val :: ns ∧ s.mayStartDrain n 2 = true ∧ s.has F.durStatusReadOnly = false ∧ s.extentsUsed (s.genSlotFor n) + genExtents (sourceBytes (s.sourceBlocks n)) ≤ 16384 ∧ mibOf (sourceBytes (s.sourceBlocks n)) ≤ 2 * s.rd (F.durBudgetDaily 0) ∧ s.rd (F.durBudgetDaily 0) < 2 ^ 30 :=
  ⟨0, [], { flashS.setBucket 0 0 with sec := { flashS.sec with budgetWait := [0] } }, by decide +kernel, by decide +kernel, by decide +kernel, by rw [(source_room _ rfl).2]; decide +kernel, by rw [(source_room _ rfl).2]; decide +kernel, by decide +kernel⟩

theorem test_HealthAndSecuring_15 : ∃ n : TenantId, ∃ d : Drain, ∃ b : SrcBlock, ∃ rest : List SrcBlock, ∃ x : List Byte, ∃ g : FlashGen, ∃ s : State, s.drain? n 2 = some d ∧ d.blocks = b :: rest ∧ d.paused = false ∧ s.slotOpen d = true ∧ s.canCheck = true ∧ s.has F.durStatusReadOnly = false ∧ b.staged = some x ∧ rest ≠ [] ∧ s.digestDiffers d ({ handle := b.handle, part := b.part, off := b.off, len := b.len, digest := blockDigest d.step b.handle b.part b.off x, data := x }) = false ∧ KMap.find s.flash.gens d.genSlot = some g ∧ s.pwr.cut = false :=
  ⟨0, drain0 2 0, ⟨1, 0, 0, 1, some [9]⟩, [⟨1, 0, 1, 1, some [9]⟩], [9], gen0 1 [], drainS [drain0 2 0], by decide +kernel⟩

theorem test_HealthAndSecuring_16 : ∃ n : TenantId, ∃ d : Drain, ∃ b : SrcBlock, ∃ rest : List SrcBlock, ∃ x : List Byte, ∃ s : State, s.drain? n 1 = some d ∧ d.blocks = b :: rest ∧ d.paused = false ∧ s.slotOpen d = true ∧ b.staged = some x ∧ s.digestDiffers d ({ handle := b.handle, part := b.part, off := b.off, len := b.len, digest := blockDigest d.step b.handle b.part b.off x, data := x }) = false ∧ s.pwr.cut = false :=
  ⟨0, drain0 1 0, ⟨1, 0, 0, 1, some [9]⟩, [⟨1, 0, 1, 1, some [9]⟩], [9], drainS [drain0 1 0], by decide +kernel⟩

theorem test_HealthAndSecuring_17 : ∃ n : TenantId, ∃ d : Drain, ∃ b : SrcBlock, ∃ rest : List SrcBlock, ∃ x : List Byte, ∃ s : State, s.drain? n 2 = some d ∧ d.blocks = b :: rest ∧ d.paused = false ∧ s.slotOpen d = true ∧ s.canCheck = true ∧ s.has F.durStatusReadOnly = false ∧ b.staged = some x ∧ s.digestDiffers d ({ handle := b.handle, part := b.part, off := b.off, len := b.len, digest := blockDigest d.step b.handle b.part b.off x, data := x }) = true ∧ d.rereads < 2 ∧ s.pwr.cut = false :=
  ⟨0, drain0 2 1, ⟨1, 0, 0, 1, some [9]⟩, [⟨1, 0, 1, 1, some [9]⟩], [9], drainT [drain0 2 1, drainOther], by decide +kernel⟩

theorem test_HealthAndSecuring_18 : ∃ n : TenantId, ∃ d : Drain, ∃ b : SrcBlock, ∃ rest : List SrcBlock, ∃ x : List Byte, ∃ s : State, s.drain? n 2 = some d ∧ d.blocks = b :: rest ∧ d.paused = false ∧ s.slotOpen d = true ∧ s.canCheck = true ∧ s.has F.durStatusReadOnly = false ∧ b.staged = some x ∧ s.digestDiffers d ({ handle := b.handle, part := b.part, off := b.off, len := b.len, digest := blockDigest d.step b.handle b.part b.off x, data := x }) = true ∧ 2 ≤ d.rereads ∧ s.pwr.cut = false :=
  ⟨0, drain0 2 2, ⟨1, 0, 0, 1, some [9]⟩, [⟨1, 0, 1, 1, some [9]⟩], [9], drainT [drain0 2 2, drainOther], by decide +kernel⟩

theorem test_HealthAndSecuring_19 : ∃ n : TenantId, ∃ z : Option (List Byte), ∃ d : Drain, ∃ b : SrcBlock, ∃ rest : List SrcBlock, ∃ s : State, s.drain? n 2 = some d ∧ d.blocks = b :: rest ∧ d.paused = false ∧ s.slotOpen d = true ∧ s.canCheck = true ∧ b.staged.isSome = true ∧ s.pwr.cut = false :=
  ⟨0, none, drain0 2 0, ⟨1, 0, 0, 1, some [9]⟩, [⟨1, 0, 1, 1, some [9]⟩], drainS [drain0 2 0], by decide +kernel⟩

theorem test_HealthAndSecuring_20 : ∃ n : TenantId, ∃ l : Fin 3, ∃ z : Option (List Byte), ∃ ok : Bool, ∃ s : State, (match s.drain? n (l + 1) with | none => true | some d => d.paused || d.blocks.isEmpty) = true :=
  ⟨0, 1, none, true, State.reset, by decide +kernel⟩

theorem test_HealthAndSecuring_21 : ∃ n : TenantId, ∃ s : State, ((s.rd F.resCtrlDrainWaitMs = 0 ∨ (s.tenant n).step.drainWait = false)) :=
  ⟨0, State.reset, by decide +kernel⟩

theorem test_HealthAndSecuring_22 : ∃ n : TenantId, ∃ s : State, s.rd F.resCtrlDrainWaitMs ≠ 0 ∧ (s.tenant n).step.drainWait = true :=
  ⟨0, ((drainS [drain0 2 0]).wr F.resCtrlDrainWaitMs 5).setTenant 0 (stepTenant fun x => { x with drainWait := true }), by decide +kernel⟩

theorem test_RestoreProceeds_1 : ∃ v : Word, ∃ d bs : List Byte, ∃ s : State, ((s.rd F.resRestoreStatusBusy = 1 ∨ v.getLsbD 31 = false ∨ s.has F.resStatusReady = false)) :=
  ⟨0, [], [], State.reset, by decide +kernel⟩

theorem test_RestoreProceeds_2 : ∃ v : Word, ∃ d bs : List Byte, ∃ s : State, v.getLsbD 31 = true ∧ s.has F.resStatusReady = true ∧ s.has F.resRestoreStatusBusy = false ∧ s.reaches (s.reg .resRestoreDesc).toNat 128 = true ∧ ((rdBinds d = 0 ∨ s.reaches (rdBindAddr d) (32 * rdBinds d) = true)) ∧ restoreDescOk d = true :=
  ⟨0x80000000, rdesc 1 0, [], resS, by decide +kernel⟩

theorem test_RestoreProceeds_3 : ∃ v : Word, ∃ d bs : List Byte, ∃ s : State, v.getLsbD 31 = true ∧ s.has F.resStatusReady = true ∧ s.has F.resRestoreStatusBusy = false ∧ s.sec.restore = none ∧ ((s.reaches (s.reg .resRestoreDesc).toNat 128 = false ∨ rdBinds d ≠ 0 ∧ s.reaches (rdBindAddr d) (32 * rdBinds d) = false)) :=
  ⟨0x80000000, [], [], resS.setReg .hifApertureBase 4096, by decide +kernel⟩

theorem test_RestoreProceeds_4 : ∃ v : Word, ∃ d bs : List Byte, ∃ s : State, v.getLsbD 31 = true ∧ s.has F.resStatusReady = true ∧ s.has F.resRestoreStatusBusy = false ∧ s.sec.restore = none ∧ s.reaches (s.reg .resRestoreDesc).toNat 128 = true ∧ ((rdBinds d = 0 ∨ s.reaches (rdBindAddr d) (32 * rdBinds d) = true)) ∧ restoreDescOk d = false :=
  ⟨0x80000000, zeros 128, [], resS, by decide +kernel⟩

theorem test_RestoreProceeds_5 : ∃ data : List Byte, ∃ code : Half, ∃ s : State, s.sec.restore = none :=
  ⟨[], 0, State.reset, by decide +kernel⟩

theorem test_RestoreProceeds_6 : ∃ data : List Byte, ∃ code : Half, ∃ r : Restore, ∃ s : State, s.sec.restore = some r ∧ r.step = 1 ∧ s.active r.tenant = true ∧ (s.tenant r.tenant).step.phase = .idle ∧ (∀ d ∈ s.sec.drains, d.tenant ≠ r.tenant) :=
  ⟨[], 0, restore0 1 1 [], rsS (restore0 1 1 []), by decide +kernel⟩

theorem test_RestoreProceeds_7 : ∃ data : List Byte, ∃ code : Half, ∃ r : Restore, ∃ s : State, s.sec.restore = some r ∧ r.step = 1 ∧ ¬(s.active r.tenant = true ∧ (s.tenant r.tenant).step.phase = .idle ∧ (∀ d ∈ s.sec.drains, d.tenant ≠ r.tenant)) :=
  ⟨[], 0, restore0 1 1 [], (rsS (restore0 1 1 [])).wr (F.tenStateState 0) 0, by decide +kernel⟩

theorem test_RestoreProceeds_8 : ∃ data : List Byte, ∃ r : Restore, ∃ g : FlashGen, ∃ s : State, s.sec.restore = some r ∧ r.step = 2 ∧ rdSource r.desc = 2 ∧ s.flashNamed r.desc = some g ∧ genManifestOk g.manifest 2 = true :=
  ⟨[], restore0 2 2 [], gen0 2 (man0 2 []), rsS (restore0 2 2 []), by decide +kernel⟩

theorem test_RestoreProceeds_9 : ∃ data : List Byte, ∃ code : Half, ∃ r : Restore, ∃ s : State, s.sec.restore = some r ∧ r.step = 2 ∧ rdSource r.desc = 2 ∧ s.flashNamed r.desc = none :=
  ⟨[], 0, restore0 2 2 [], { rsS (restore0 2 2 []) with flash := State.reset.flash }, by decide +kernel⟩

theorem test_RestoreProceeds_10 : ∃ data : List Byte, ∃ code : Half, ∃ r : Restore, ∃ g : FlashGen, ∃ s : State, s.sec.restore = some r ∧ r.step = 2 ∧ rdSource r.desc = 2 ∧ s.flashNamed r.desc = some g ∧ ((genManifestOk g.manifest 2 = false ∨ code.toNat ≠ 0)) :=
  ⟨[], 1, restore0 2 2 [], gen0 2 (man0 2 []), rsS (restore0 2 2 []), by decide +kernel⟩

theorem test_RestoreProceeds_11 : ∃ data : List Byte, ∃ r : Restore, ∃ s : State, s.sec.restore = some r ∧ r.step = 2 ∧ rdSource r.desc ≠ 2 ∧ s.sourceCode r.desc data 0 = 0 ∧ data ≠ [] ∧ genManifestOk data (rdSource r.desc) = true ∧ manifestNamed r.desc data = true :=
  ⟨man0 1 [], restore0 2 1 [], rsS (restore0 2 1 []), by decide +kernel⟩

theorem test_RestoreProceeds_12 : ∃ data : List Byte, ∃ code : Half, ∃ r : Restore, ∃ s : State, s.sec.restore = some r ∧ r.step = 2 ∧ rdSource r.desc ≠ 2 ∧ ((s.sourceCode r.desc data code.toNat ≠ 0 ∨ data = [])) :=
  ⟨[], 1, restore0 2 1 [], rsS (restore0 2 1 []), by decide +kernel⟩

theorem test_RestoreProceeds_13 : ∃ data : List Byte, ∃ code : Half, ∃ r : Restore, ∃ s : State, s.sec.restore = some r ∧ r.step = 3 ∧ smallOk (manifestEntries r.manifest) = true ∧ (∀ e ∈ (manifestEntries r.manifest), s.entryMatches r.tenant (manifestEntries r.manifest) e = true) :=
  ⟨[], 0, restore0 3 1 (man0 1 smallEs), rsS (restore0 3 1 (man0 1 smallEs)), by decide +kernel⟩

theorem test_RestoreProceeds_14 : ∃ data : List Byte, ∃ code : Half, ∃ r : Restore, ∃ s : State, s.sec.restore = some r ∧ r.step = 3 ∧ ((smallOk (manifestEntries r.manifest) = false ∨ ∃ e ∈ (manifestEntries r.manifest), s.entryMatches r.tenant (manifestEntries r.manifest) e = false)) :=
  ⟨[], 0, restore0 3 1 (man0 1 []), rsS (restore0 3 1 (man0 1 [])), by decide +kernel⟩

theorem test_RestoreProceeds_15 : ∃ data : List Byte, ∃ r : Restore, ∃ m : List Byte, ∃ s : State, s.sec.restore = some r ∧ r.step = 4 ∧ ¬(rdReplica r.desc = s.node ∧ s.has F.fabStatusNodeValid = true) ∧ s.getCode (rdReplica r.desc * 2 ^ 48 + dirBase + rdReplicaTenant r.desc * 2 ^ 21) 0x28 0 = 0 ∧ replicaManifest data (rdReplicaTenant r.desc) (fld r.manifest 0 8) = some m ∧ replicaAgrees (manifestEntries r.manifest) (manifestEntries m) = true :=
  ⟨replica5 [ent 1 4 1 8 7], restore0 4 1 (man0 1 [ent 1 4 1 8 7]), man0 1 [ent 1 4 1 8 7], rsW (restore0 4 1 (man0 1 [ent 1 4 1 8 7])), by decide +kernel⟩

theorem test_RestoreProceeds_16 : ∃ data : List Byte, ∃ r : Restore, ∃ m : List Byte, ∃ s : State, s.sec.restore = some r ∧ r.step = 4 ∧ ¬(rdReplica r.desc = s.node ∧ s.has F.fabStatusNodeValid = true) ∧ s.getCode (rdReplica r.desc * 2 ^ 48 + dirBase + rdReplicaTenant r.desc * 2 ^ 21) 0x28 0 = 0 ∧ replicaManifest data (rdReplicaTenant r.desc) (fld r.manifest 0 8) = some m ∧ replicaAgrees (manifestEntries r.manifest) (manifestEntries m) = false :=
  ⟨replica5 [ent 1 4 1 8 6], restore0 4 1 (man0 1 [ent 1 4 1 8 7]), man0 1 [ent 1 4 1 8 6], rsW (restore0 4 1 (man0 1 [ent 1 4 1 8 7])), by decide +kernel⟩

theorem test_RestoreProceeds_17 : ∃ data : List Byte, ∃ r : Restore, ∃ s : State, s.sec.restore = some r ∧ r.step = 4 ∧ ¬(rdReplica r.desc = s.node ∧ s.has F.fabStatusNodeValid = true) ∧ s.getCode (rdReplica r.desc * 2 ^ 48 + dirBase + rdReplicaTenant r.desc * 2 ^ 21) 0x28 0 = 0 ∧ replicaManifest data (rdReplicaTenant r.desc) (fld r.manifest 0 8) = none :=
  ⟨[], restore0 4 1 (man0 1 []), rsW (restore0 4 1 (man0 1 [])), by decide +kernel⟩

theorem test_RestoreProceeds_18 : ∃ data : List Byte, ∃ code : Half, ∃ r : Restore, ∃ s : State, s.sec.restore = some r ∧ r.step = 4 ∧ ¬(rdReplica r.desc = s.node ∧ s.has F.fabStatusNodeValid = true) ∧ s.getCode (rdReplica r.desc * 2 ^ 48 + dirBase + rdReplicaTenant r.desc * 2 ^ 21) 0x28 code.toNat = 0x404 :=
  ⟨[], 0, restore0 4 1 (man0 1 []), rsS (restore0 4 1 (man0 1 [])), by decide +kernel⟩

theorem test_RestoreProceeds_19 : ∃ data : List Byte, ∃ r : Restore, ∃ s : State, s.sec.restore = some r ∧ r.step = 5 ∧ rdSource r.desc ≠ 2 ∧ data.length = 131328 ∧ skewed (rdBinds r.desc) r.binds data = [] :=
  ⟨(List.replicate 131328 (0 : Byte)), restore0 5 1 (man0 1 []), rsS (restore0 5 1 (man0 1 [])), by decide +kernel, by decide +kernel, by decide +kernel, List.length_replicate, by decide +kernel⟩

theorem test_RestoreProceeds_20 : ∃ data : List Byte, ∃ r : Restore, ∃ i k : Nat, ∃ ks : List (Nat × Nat), ∃ s : State, s.sec.restore = some r ∧ r.step = 5 ∧ rdSource r.desc ≠ 2 ∧ data.length = 131328 ∧ skewed (rdBinds r.desc) r.binds data = (i, k) :: ks ∧ rdRealign r.desc = false :=
  ⟨(List.replicate 131328 (0 : Byte)), rbind 0, 0, 7, [], rsS (rbind 0), by decide +kernel, by decide +kernel, by decide +kernel, List.length_replicate, by decide +kernel, by decide +kernel⟩

theorem test_RestoreProceeds_21 : ∃ data : List Byte, ∃ r : Restore, ∃ i k : Nat, ∃ ks : List (Nat × Nat), ∃ s : State, s.sec.restore = some r ∧ r.step = 5 ∧ rdSource r.desc ≠ 2 ∧ data.length = 131328 ∧ skewed (rdBinds r.desc) r.binds data = (i, k) :: ks ∧ rdRealign r.desc = true :=
  ⟨(List.replicate 131328 (0 : Byte)), rbind 1, 0, 7, [], rsS (rbind 1), by decide +kernel, by decide +kernel, by decide +kernel, List.length_replicate, by decide +kernel, by decide +kernel⟩

theorem test_RestoreProceeds_22 : ∃ data : List Byte, ∃ r : Restore, ∃ s : State, s.sec.restore = some r ∧ r.step = 6 ∧ rdSource r.desc ≠ 2 ∧ ((manifestEntries r.manifest).zip (cutEntries (manifestEntries r.manifest) data)).all (blockGood (fld r.manifest 0 8)) = true :=
  ⟨f1Data, restore0 6 1 (man0 1 [f1Ent]), rsS (restore0 6 1 (man0 1 [f1Ent])), by decide +kernel⟩

theorem test_RestoreProceeds_23 : ∃ data : List Byte, ∃ r : Restore, ∃ s : State, s.sec.restore = some r ∧ r.step = 6 ∧ rdSource r.desc ≠ 2 ∧ ((manifestEntries r.manifest).zip (cutEntries (manifestEntries r.manifest) data)).all (blockGood (fld r.manifest 0 8)) = false :=
  ⟨[], restore0 6 1 (man0 1 [f1Ent]), rsS (restore0 6 1 (man0 1 [f1Ent])), by decide +kernel⟩

theorem test_RestoreProceeds_24 : ∃ data : List Byte, ∃ code : Half, ∃ r : Restore, ∃ s : State, s.sec.restore = some r ∧ r.step = 7 :=
  ⟨[], 0, { restore0 7 1 (man0 1 []) with slot := setFld (zeros 64) 0x14 4 0x3F800000 }, rsS { restore0 7 1 (man0 1 []) with slot := setFld (zeros 64) 0x14 4 0x3F800000 }, by decide +kernel⟩

theorem test_RestoreProceeds_25 : ∃ data : List Byte, ∃ code : Half, ∃ r : Restore, ∃ s : State, s.sec.restore = some r ∧ r.step = 8 :=
  ⟨[], 0, { restore0 8 1 (man0 1 []) with slot := setFld (zeros 64) 8 8 5 }, rsS { restore0 8 1 (man0 1 []) with slot := setFld (zeros 64) 8 8 5 }, by decide +kernel⟩

theorem test_RestoreProceeds_26 : ∃ data : List Byte, ∃ code : Half, ∃ r : Restore, ∃ s : State, s.sec.restore = some r ∧ r.step = 9 :=
  ⟨[], 0, restore0 9 1 [], rsS (restore0 9 1 []), by decide +kernel⟩

theorem test_JournalActs_1 : ∃ i : JRecord, ∃ s : State, journalTakes i = false :=
  ⟨⟨0x100, false, 0, 0, []⟩, State.reset, by decide +kernel⟩

theorem test_JournalActs_2 : ∃ i : JRecord, ∃ s : State, journalTakes i = true ∧ s.has F.durStatusReady = false :=
  ⟨⟨4, false, 255, 0, [5]⟩, State.reset, by decide +kernel⟩

theorem test_JournalActs_3 : ∃ i : JRecord, ∃ s : State, journalTakes i = true ∧ s.has F.durStatusReady = true ∧ i.kind.toNat ≠ 1 ∧ s.journal.run = [] ∧ s.journal.queue = [] ∧ s.journal.live = [] ∧ s.pwr.resetting = none :=
  ⟨⟨4, false, 255, 0, [5]⟩, { State.reset.wr F.durStatusReady 1 with journal := Journal.reset }, by decide +kernel⟩

theorem test_JournalActs_4 : ∃ i : JRecord, ∃ s : State, journalTakes i = true ∧ s.has F.durStatusReady = true ∧ i.kind.toNat = 1 ∧ s.rd F.durCtrlCoalesceUs ≠ 0 ∧ s.inWarning = false ∧ s.journal.run = [] ∧ (∀ q ∈ s.journal.queue, q.coalescing = true) :=
  ⟨⟨1, false, 0, 0, []⟩, ({ State.reset.wr F.durStatusReady 1 with journal := Journal.reset }).wr F.durCtrlCoalesceUs 5, by decide +kernel⟩

theorem test_JournalActs_5 : ∃ n : TenantId, ∃ q : JReq, ∃ s : State, s.has F.durStatusReady = true ∧ s.journal.run = [] ∧ s.journal.live = [] ∧ s.pwr.resetting = none ∧ s.journal.queue = [q] ∧ q.item.kind.toNat = 1 ∧ q.item.key.toNat = n :=
  ⟨0, ⟨⟨1, false, 0, 0, []⟩, true⟩, { State.reset.wr F.durStatusReady 1 with journal := { Journal.reset with queue := [⟨⟨1, false, 0, 0, []⟩, true⟩] } }, by decide +kernel⟩

theorem test_JournalActs_6 : ∃ j : Nat, ∃ x : JRun, ∃ s : State, s.journal.run.find? (fun y => y.jseq == j) = some x :=
  ⟨1, ⟨1, ⟨4, false, 255, 0, [5]⟩, [7], false⟩, { State.reset.wr F.durStatusReady 1 with journal := { Journal.reset with run := [⟨1, ⟨4, false, 255, 0, [5]⟩, [7], false⟩] } }, by decide +kernel⟩

theorem test_JournalActs_7 : ∃ j : Nat, ∃ s : State, (∀ y ∈ s.journal.run, y.jseq ≠ j) :=
  ⟨1, State.reset, by decide +kernel⟩

theorem test_JournalActs_8 : ∃ j : Nat, ∃ x : JRun, ∃ s : State, s.journal.run = [x] ∧ x.jseq = j ∧ x.copyA = true ∧ x.item.byKeeper = false ∧ x.item.kind ≠ 2 ∧ s.journal.queue = [] ∧ j < 2 ^ 64 :=
  ⟨1, ⟨1, ⟨4, false, 255, 0, [5]⟩, [7], true⟩, { State.reset.wr F.durStatusReady 1 with journal := { Journal.reset with run := [⟨1, ⟨4, false, 255, 0, [5]⟩, [7], true⟩] } }, by decide +kernel⟩

theorem test_JournalActs_9 : ∃ j : Nat, ∃ s : State, ((∀ y ∈ s.journal.run, y.jseq = j → y.copyA = false)) :=
  ⟨1, { State.reset.wr F.durStatusReady 1 with journal := { Journal.reset with run := [⟨1, ⟨4, false, 255, 0, [5]⟩, [7], false⟩] } }, by decide +kernel⟩

theorem test_JournalActs_10 : ∃ w : List (Nat × Bool), ∃ k j : Nat, ∃ a b : List Byte, ∃ s : State, s.journal.live = [(k, j)] ∧ KMap.get s.flash.ringA (j % journalSlots) [] = a ∧ KMap.get s.flash.ringB (j % journalSlots) [] = b ∧ journalValid b = true ∧ ((journalValid a = false ∨ (j, false) ∈ w)) :=
  ⟨[], 0, 1, [], journal1, { State.reset with journal := { Journal.reset with live := [(0, 1)] }, flash := { Flash.reset with ringB := [(1, journal1)] } }, rfl, rfl, rfl, journal1_valid, Or.inl (by decide +kernel)⟩

theorem test_JournalActs_11 : ∃ w : List (Nat × Bool), ∃ s : State, (∀ x ∈ s.journal.live, journalValid (KMap.get s.flash.ringA (x.2 % journalSlots) []) = true ∧ journalValid (KMap.get s.flash.ringB (x.2 % journalSlots) []) = true ∧ (x.2, false) ∉ w ∧ (x.2, true) ∉ w) :=
  ⟨[], { State.reset with journal := { Journal.reset with live := [(0, 1)] }, flash := { Flash.reset with ringA := [(1, journal1)], ringB := [(1, journal1)] } }, fun x h => by obtain rfl := List.mem_singleton.mp h; exact ⟨journal1_valid, journal1_valid, List.not_mem_nil, List.not_mem_nil⟩⟩

theorem test_JournalActs_12 : ∃ s : State, ((s.has F.durStatusReady = true ∨ s.clk.released = 0)) :=
  ⟨State.reset, by decide +kernel⟩

theorem test_JournalActs_13 : ∃ s : State, s.has F.durStatusReady = false ∧ s.clk.released ≠ 0 ∧ s.flash = Flash.reset ∧ s.journal = Journal.reset :=
  ⟨{ State.reset with clk := { Clk.reset with released := 1 } }, by decide +kernel⟩

theorem test_JournalActs_14 : ∃ k j : Nat, ∃ a : List Byte, ∃ s : State, s.has F.durStatusReady = false ∧ s.clk.released ≠ 0 ∧ s.flash = { Flash.reset with ringA := [(k, a)] } ∧ journalValid a = true ∧ fld a 4 2 = 4 ∧ fld a 8 8 = j :=
  ⟨1, 1, journal1, { State.reset with clk := { Clk.reset with released := 1 }, flash := { Flash.reset with ringA := [(1, journal1)] } }, by decide +kernel, by decide +kernel, rfl, journal1_valid, by decide +kernel, by decide +kernel⟩

theorem test_JournalActs_15 : ∃ s : State, s.has F.durStatusReady = true ∧ s.rd F.durTlcWrittenMib < tlcAllowance ∧ 20 ≤ s.rd F.durSpareTlc ∧ s.has F.durStatusReadOnly = false ∧ s.journal.tlcRest < 2 ^ 20 ∧ s.rd F.durHoursHours < 2 ^ 31 :=
  ⟨(State.reset.wr F.durStatusReady 1).wr F.durSpareTlc 1000, by decide +kernel⟩

theorem test_JournalActs_16 : ∃ s : State, s.has F.durStatusReady = true ∧ s.rd F.durSpareTlc < 20 :=
  ⟨(drainS [drain0 2 0]).wr F.durStatusReady 1, by decide +kernel⟩

theorem test_JournalActs_17 : ∃ s : State, s.has F.durStatusReady = false :=
  ⟨State.reset, by decide +kernel⟩

theorem test_InputAndPowerLevels_3 : ∃ s : State, s.rd F.pwrStatusState = 1 :=
  ⟨State.reset, by decide +kernel⟩

theorem test_InputAndPowerLevels_4 : ∃ s : State, s.rd F.pwrStatusState ≠ 1 :=
  ⟨State.reset.wr F.pwrStatusState 2, by decide +kernel⟩

theorem test_InputAndPowerLevels_5 : ∃ s : State, s.rd F.pwrStatusState = 2 :=
  ⟨State.reset.wr F.pwrStatusState 2, by decide +kernel⟩

theorem test_InputAndPowerLevels_6 : ∃ s : State, s.rd F.pwrStatusState ≠ 2 :=
  ⟨State.reset, by decide +kernel⟩

theorem test_InputAndPowerLevels_7 : ∃ s : State, s.pwr.phase = .up ∧ s.pwr.resetting = none :=
  ⟨(phaseS .up), by decide +kernel⟩

theorem test_InputAndPowerLevels_8 : ∃ s : State, s.pwr.phase = .charging :=
  ⟨(phaseS .charging), by decide +kernel⟩

theorem test_InputAndPowerLevels_9 : ∃ s : State, s.pwr.phase = .up ∧ ((s.rd F.pwrStatusState = 1 ∨ s.rd F.pwrStatusState = 2)) :=
  ⟨(phaseS .up).wr F.pwrStatusState 1, by decide +kernel⟩

theorem test_InputAndPowerLevels_10 : ∃ s : State, ((s.pwr.phase ≠ .up ∨ ¬(s.rd F.pwrStatusState = 1 ∨ s.rd F.pwrStatusState = 2))) :=
  ⟨State.reset, by decide +kernel⟩

theorem test_InputAndPowerLevels_11 : ∃ s : State, s.rd F.pwrStatusState = 3 ∧ s.pwr.resetting = none ∧ 40000 ≤ s.rd F.pwrVinVin :=
  ⟨((phaseS .up).wr F.pwrStatusState 3).wr F.pwrVinVin 48000, by decide +kernel⟩

theorem test_InputAndPowerLevels_12 : ∃ s : State, s.rd F.pwrStatusState = 3 ∧ s.pwr.resetting = none ∧ s.rd F.pwrVinVin < 40000 :=
  ⟨((phaseS .up).wr F.pwrStatusState 3).wr F.pwrVinVin 39500, by decide +kernel⟩

theorem test_InputAndPowerLevels_13 : ∃ s : State, ((s.rd F.pwrStatusState ≠ 3 ∨ s.pwr.resetting ≠ none)) :=
  ⟨State.reset, by decide +kernel⟩

theorem test_InputAndPowerLevels_14 : ∃ s : State, s.pwr.phase = .up ∧ s.pwr.resetting = none :=
  ⟨(phaseS .up), by decide +kernel⟩

theorem test_InputAndPowerLevels_15 : ∃ n : Nat, ∃ s : State, s.pwr.phase = .rails n :=
  ⟨3, (phaseS (.rails 3)), by decide +kernel⟩

theorem test_InputAndPowerLevels_16 : ∃ s : State, s.pwr.phase = .up ∧ s.pwr.resetting ≠ none :=
  ⟨{ State.reset with pwr := { Pwr.reset with phase := .up, resetting := some 5 } }, by decide +kernel⟩

theorem test_InputAndPowerLevels_17 : ∃ s : State, s.pwr.phase = .up ∧ s.pwr.resetting = none :=
  ⟨(phaseS .up), by decide +kernel⟩

theorem test_InputAndPowerLevels_19 : ∃ s : State, s.pwr.resetting = none :=
  ⟨State.reset, by decide +kernel⟩

theorem test_InputAndPowerLevels_20 : ∃ s : State, s.pwr.resetting = some 6 ∧ s.journal.run = [] :=
  ⟨{ State.reset with pwr := { Pwr.reset with phase := .up, resetting := some 6 } }, by decide +kernel⟩

theorem test_InputAndPowerLevels_21 : ∃ s : State, s.pwr.resetting = some 5 ∧ s.pwr.phase = .up ∧ s.journal.run = [] :=
  ⟨{ State.reset with pwr := { Pwr.reset with phase := .up, resetting := some 5 } }, by decide +kernel⟩

theorem test_InputAndPowerLevels_22 : ∃ k : Nat, ∃ s : State, s.pwr.resetting = some k ∧ s.journal.run = [] ∧ 2 ≤ k ∧ k ≤ 4 :=
  ⟨2, { State.reset with pwr := { Pwr.reset with phase := .up, resetting := some 2 } }, by decide +kernel⟩

theorem test_PowerUpAndTemperatures_1 : ∃ s : State, s.pwr.phase = .waitInput ∧ s.pwr.enOpen = false ∧ s.pwr.cooled = true :=
  ⟨State.reset, by decide +kernel⟩

theorem test_PowerUpAndTemperatures_2 : ∃ s : State, ((s.pwr.phase ≠ .waitInput ∨ s.pwr.enOpen = true ∨ s.pwr.cooled = false)) :=
  ⟨{ State.reset with pwr := { Pwr.reset with cooled := false } }, by decide +kernel⟩

theorem test_PowerUpAndTemperatures_3 : ∃ s : State, s.pwr.phase = .charging :=
  ⟨(phaseS .charging), by decide +kernel⟩

theorem test_PowerUpAndTemperatures_4 : ∃ s : State, s.pwr.phase ≠ .charging :=
  ⟨State.reset, by decide +kernel⟩

theorem test_PowerUpAndTemperatures_5 : ∃ us : Half, ∃ s : State, s.pwr.phase = .testing ∧ 4000 ≤ us.toNat :=
  ⟨5000, (phaseS .testing), by decide +kernel⟩

theorem test_PowerUpAndTemperatures_6 : ∃ us : Half, ∃ s : State, s.pwr.phase = .testing ∧ us.toNat < 4000 :=
  ⟨3000, (phaseS .testing), by decide +kernel⟩

theorem test_PowerUpAndTemperatures_7 : ∃ us : Half, ∃ s : State, s.pwr.phase ≠ .testing :=
  ⟨3000, State.reset, by decide +kernel⟩

theorem test_PowerUpAndTemperatures_8 : ∃ us : Half, ∃ s : State, s.pwr.phase = .up ∧ us.toNat < 4000 :=
  ⟨3000, (phaseS .up), by decide +kernel⟩

theorem test_PowerUpAndTemperatures_9 : ∃ us : Half, ∃ s : State, s.pwr.phase = .up ∧ 4000 ≤ us.toNat :=
  ⟨4000, (phaseS .up), by decide +kernel⟩

theorem test_PowerUpAndTemperatures_10 : ∃ us : Half, ∃ s : State, s.pwr.phase ≠ .up :=
  ⟨4000, State.reset, by decide +kernel⟩

theorem test_PowerUpAndTemperatures_11 : ∃ n : Nat, ∃ s : State, s.pwr.phase = .rails n ∧ n ≠ 8 :=
  ⟨0, (phaseS (.rails 0)), by decide +kernel⟩

theorem test_PowerUpAndTemperatures_12 : ∃ s : State, s.pwr.phase = .rails 8 :=
  ⟨(phaseS (.rails 8)), by decide +kernel⟩

theorem test_PowerUpAndTemperatures_13 : ∃ s : State, (∀ n : Nat, s.pwr.phase ≠ .rails n) :=
  ⟨State.reset, fun n h => by cases h⟩

theorem test_PowerUpAndTemperatures_14 : ∃ n : Nat, ∃ s : State, s.pwr.phase = .rails n :=
  ⟨4, (phaseS (.rails 4)), by decide +kernel⟩

theorem test_PowerUpAndTemperatures_15 : ∃ s : State, (∀ n : Nat, s.pwr.phase ≠ .rails n) :=
  ⟨State.reset, fun n h => by cases h⟩

theorem test_PowerUpAndTemperatures_16 : ∃ s : State, s.pwr.phase = .retryWait :=
  ⟨(phaseS .retryWait), by decide +kernel⟩

theorem test_PowerUpAndTemperatures_17 : ∃ s : State, s.pwr.phase ≠ .retryWait :=
  ⟨(phaseS .failedOff), by decide +kernel⟩

theorem test_PowerUpAndTemperatures_18 : ∃ s : State, s.pwr.phase = .falling :=
  ⟨(phaseS .falling), by decide +kernel⟩

theorem test_PowerUpAndTemperatures_19 : ∃ s : State, s.pwr.phase ≠ .falling :=
  ⟨State.reset, by decide +kernel⟩

theorem test_PowerUpAndTemperatures_20 : ∃ x : Temps, ∃ s : State, s.pwr.phase = .up ∧ s.pwr.resetting = none ∧ twice (above x fun l => l.2) s.pwr.trips = [] :=
  ⟨temps0 960, { phaseS .up with pwr := { (phaseS .up).pwr with hot := [4] } }, by decide +kernel⟩

theorem test_PowerUpAndTemperatures_21 : ∃ x : Temps, ∃ k : Nat, ∃ ks : List Nat, ∃ s : State, s.pwr.phase = .up ∧ s.pwr.resetting = none ∧ twice (above x fun l => l.2) s.pwr.trips = k :: ks :=
  ⟨temps0 1200, 4, [], { phaseS .up with pwr := { (phaseS .up).pwr with trips := [4] } }, by decide +kernel⟩

theorem test_PowerUpAndTemperatures_22 : ∃ x : Temps, ∃ s : State, s.pwr.phase ≠ .up :=
  ⟨temps0 1200, State.reset, by decide +kernel⟩

theorem test_PowerUpAndTemperatures_23 : ∃ s : State, s.allWithin (fun l => l.1 - 50) = true :=
  ⟨{ State.reset.wr F.clkArrdivFwReq 1 with pwr := { Pwr.reset with temps := some (temps0 900) } }, by decide +kernel⟩

theorem test_PowerUpAndTemperatures_24 : ∃ s : State, s.allWithin (fun l => l.1 - 50) = false :=
  ⟨{ State.reset.wr F.clkArrdivFwReq 1 with pwr := { Pwr.reset with temps := some (temps0 901) } }, by decide +kernel⟩

theorem test_PowerUpAndTemperatures_25 : ∃ s : State, s.allWithin (fun l => l.1 - 1) = true :=
  ⟨{ State.reset with pwr := { Pwr.reset with cooled := false, temps := some (temps0 949) } }, by decide +kernel⟩

theorem test_PowerUpAndTemperatures_26 : ∃ s : State, s.allWithin (fun l => l.1 - 1) = false :=
  ⟨{ State.reset with pwr := { Pwr.reset with cooled := false, temps := some (temps0 950) } }, by decide +kernel⟩

theorem test_KeeperMailboxActs_1 : ∃ h : Bool, ∃ v : Word, ∃ s : State, s.mbxRd h F.secStatusBusy = 1 :=
  ⟨true, 0x80000001, State.reset.wr F.secStatusBusy 1, by decide +kernel⟩

theorem test_KeeperMailboxActs_2 : ∃ h : Bool, ∃ v : Word, ∃ s : State, s.mbxRd h F.secStatusBusy = 0 ∧ v.getLsbD 31 = true ∧ s.keeperRuns = true ∧ s.keeper.chans = [] ∧ mbxKnows h (bits v.toNat 7 0) = true :=
  ⟨true, 0x80000001, bootS 8, by decide +kernel⟩

theorem test_KeeperMailboxActs_3 : ∃ h : Bool, ∃ v : Word, ∃ s : State, s.mbxRd h F.secStatusBusy = 0 ∧ v.getLsbD 31 = true ∧ s.keeperRuns = true ∧ s.keeper.chans = [] ∧ mbxKnows h (bits v.toNat 7 0) = false :=
  ⟨true, 0x80000005, bootS 8, by decide +kernel⟩

theorem test_KeeperMailboxActs_4 : ∃ h : Bool, ∃ s : State, s.keeper.chans = [h] ∧ s.keeperRuns = true ∧ s.keeper.busy = false ∧ s.mbxRd h F.secMbxCtrlOpcode = 1 :=
  ⟨true, mbxS true 1 [], by decide +kernel⟩

theorem test_KeeperMailboxActs_5 : ∃ h : Bool, ∃ s : State, s.keeper.chans = [h] ∧ s.keeperRuns = true ∧ s.keeper.busy = false ∧ s.mbxRd h F.secMbxCtrlOpcode = 2 :=
  ⟨false, mbxS false 2 [], by decide +kernel⟩

theorem test_KeeperMailboxActs_6 : ∃ h : Bool, ∃ req : List Byte, ∃ s : State, s.keeper.chans = [h] ∧ s.keeperRuns = true ∧ s.keeper.busy = false ∧ s.mbxRd h F.secMbxCtrlOpcode = 3 ∧ s.mbxRequest h = req ∧ h = true ∧ s.reaches (fld req 0 8) (s.keeper.cert.take (fld req 8 4)).length = true :=
  ⟨true, zeros 12, mbxS true 3 (zeros 12), by decide +kernel⟩

theorem test_KeeperMailboxActs_7 : ∃ h : Bool, ∃ req : List Byte, ∃ s : State, s.keeper.chans = [h] ∧ s.keeperRuns = true ∧ s.keeper.busy = false ∧ s.mbxRd h F.secMbxCtrlOpcode = 3 ∧ s.mbxRequest h = req ∧ h = true ∧ s.reaches (fld req 0 8) (s.keeper.cert.take (fld req 8 4)).length = false :=
  ⟨true, zeros 12, (mbxS true 3 (zeros 12)).setReg .hifApertureBase 4096, by decide +kernel⟩

theorem test_KeeperMailboxActs_8 : ∃ sig : List Byte, ∃ h : Bool, ∃ req : List Byte, ∃ s : State, s.keeper.chans = [h] ∧ s.keeperRuns = true ∧ s.keeper.busy = false ∧ s.mbxRd h F.secMbxCtrlOpcode = 4 ∧ s.mbxRequest h = req ∧ (fld req 0 1 < 16 ∨ fld req 0 1 = 255) ∧ s.signRefusal = 0 ∧ s.keeper.next < s.limit ∧ s.keeper.sigs = [] ∧ s.keeper.reserving = none ∧ h = true ∧ s.reaches (fld req 33 8) ((s.report (fld req 0 1) ((req.drop 1).take 32)).length + sig.length) = true :=
  ⟨[7], true, setFld (zeros 41) 0 1 255, (mbxS true 4 (setFld (zeros 41) 0 1 255)).wr F.secLimitLimit 256, by decide +kernel⟩

theorem test_KeeperMailboxActs_9 : ∃ sig : List Byte, ∃ h : Bool, ∃ req : List Byte, ∃ s : State, s.keeper.chans = [h] ∧ s.keeperRuns = true ∧ s.keeper.busy = false ∧ s.mbxRd h F.secMbxCtrlOpcode = 4 ∧ s.mbxRequest h = req ∧ (fld req 0 1 < 16 ∨ fld req 0 1 = 255) ∧ s.signRefusal = 0 ∧ s.keeper.next = s.limit ∧ s.keeper.sigs = [] ∧ s.keeper.reserving = none ∧ s.has F.durStatusReady = false ∧ s.reaches (fld req 33 8) ((s.report (fld req 0 1) ((req.drop 1).take 32)).length + sig.length) = true :=
  ⟨[7], true, setFld (zeros 41) 0 1 255, mbxS true 4 (setFld (zeros 41) 0 1 255), by decide +kernel⟩

theorem test_KeeperMailboxActs_10 : ∃ sig : List Byte, ∃ h : Bool, ∃ req : List Byte, ∃ s : State, s.keeper.chans = [h] ∧ s.keeperRuns = true ∧ s.keeper.busy = false ∧ s.mbxRd h F.secMbxCtrlOpcode = 4 ∧ s.mbxRequest h = req ∧ (fld req 0 1 < 16 ∨ fld req 0 1 = 255) ∧ s.signRefusal ≠ 0 :=
  ⟨[7], true, setFld (zeros 41) 0 1 255, (mbxS true 4 (setFld (zeros 41) 0 1 255)).wr F.secStatusIdentLocked 1, by decide +kernel⟩

theorem test_KeeperMailboxActs_11 : ∃ sig : List Byte, ∃ h : Bool, ∃ req : List Byte, ∃ s : State, s.keeper.chans = [h] ∧ s.keeperRuns = true ∧ s.keeper.busy = false ∧ s.mbxRd h F.secMbxCtrlOpcode = 4 ∧ s.mbxRequest h = req ∧ (fld req 0 1 < 16 ∨ fld req 0 1 = 255) ∧ s.signRefusal = 0 ∧ s.canTake = true ∧ s.reaches (fld req 33 8) ((s.report (fld req 0 1) ((req.drop 1).take 32)).length + sig.length) = false :=
  ⟨[7], true, setFld (zeros 41) 0 1 255, ((mbxS true 4 (setFld (zeros 41) 0 1 255)).wr F.secLimitLimit 256).setReg .hifApertureBase 4096, by decide +kernel⟩

theorem test_KeeperMailboxActs_12 : ∃ h : Bool, ∃ req : List Byte, ∃ s : State, s.keeper.chans = [h] ∧ s.keeperRuns = true ∧ s.keeper.busy = false ∧ s.mbxRd h F.secMbxCtrlOpcode = 5 ∧ s.mbxRequest h = req ∧ 8 ≤ fld req 0 1 ∧ fld req 0 1 < 16 :=
  ⟨false, setFld (zeros 33) 0 1 8, mbxS false 5 (setFld (zeros 33) 0 1 8), by decide +kernel⟩

theorem test_KeeperMailboxActs_13 : ∃ h : Bool, ∃ req : List Byte, ∃ s : State, s.keeper.chans = [h] ∧ s.keeperRuns = true ∧ s.keeper.busy = false ∧ s.mbxRd h F.secMbxCtrlOpcode = 5 ∧ s.mbxRequest h = req ∧ ¬(8 ≤ fld req 0 1 ∧ fld req 0 1 < 16) :=
  ⟨false, zeros 33, mbxS false 5 (zeros 33), by decide +kernel⟩

theorem test_KeeperMailboxActs_14 : ∃ m : List Byte, ∃ h : Bool, ∃ req : List Byte, ∃ s : State, s.keeper.chans = [h] ∧ s.keeperRuns = true ∧ s.keeper.busy = false ∧ s.mbxRd h F.secMbxCtrlOpcode = 0x10 ∧ s.mbxRequest h = req ∧ fld req 0 1 < 4 ∧ fld req 9 4 ≤ 2 ^ 28 ∧ fld req 0 1 ≠ s.bootedSlot ∧ s.otherGood ≠ [fld req 0 1] ∧ s.reaches (fld req 1 8) (fld req 9 4) = true ∧ s.manifestOk m = true ∧ s.floor ≤ fld m 6 2 :=
  ⟨manifest1 5, true, setFld (zeros 13) 0 1 1, modKeeper (fun k => { k with fuses := { k.fuses with rootDigest := digest256 (zeros 68) } }) (mbxS true 0x10 (setFld (zeros 13) 0 1 1)), by decide +kernel⟩

theorem test_KeeperMailboxActs_15 : ∃ m : List Byte, ∃ vf cut : Bool, ∃ h : Bool, ∃ req : List Byte, ∃ s : State, s.keeper.chans = [h] ∧ s.keeperRuns = true ∧ s.keeper.busy = false ∧ s.mbxRd h F.secMbxCtrlOpcode = 0x10 ∧ s.mbxRequest h = req ∧ ((4 ≤ fld req 0 1 ∨ 2 ^ 28 < fld req 9 4 ∨ fld req 0 1 = s.bootedSlot ∨ s.otherGood = [fld req 0 1])) :=
  ⟨[], true, false, true, zeros 13, mbxS true 0x10 (zeros 13), by decide +kernel⟩

theorem test_KeeperMailboxActs_16 : ∃ m : List Byte, ∃ vf cut : Bool, ∃ h : Bool, ∃ req : List Byte, ∃ s : State, s.keeper.chans = [h] ∧ s.keeperRuns = true ∧ s.keeper.busy = false ∧ s.mbxRd h F.secMbxCtrlOpcode = 0x10 ∧ s.mbxRequest h = req ∧ fld req 0 1 < 4 ∧ fld req 9 4 ≤ 2 ^ 28 ∧ fld req 0 1 ≠ s.bootedSlot ∧ s.otherGood ≠ [fld req 0 1] ∧ s.reaches (fld req 1 8) (fld req 9 4) = true ∧ ((cut = true ∨ vf = false ∨ s.manifestOk m = false)) :=
  ⟨[], false, false, true, setFld (zeros 13) 0 1 1, mbxS true 0x10 (setFld (zeros 13) 0 1 1), by decide +kernel⟩

theorem test_KeeperMailboxActs_17 : ∃ m : List Byte, ∃ h : Bool, ∃ req : List Byte, ∃ s : State, s.keeper.chans = [h] ∧ s.keeperRuns = true ∧ s.keeper.busy = false ∧ s.mbxRd h F.secMbxCtrlOpcode = 0x10 ∧ s.mbxRequest h = req ∧ fld req 0 1 < 4 ∧ fld req 9 4 ≤ 2 ^ 28 ∧ fld req 0 1 ≠ s.bootedSlot ∧ s.otherGood ≠ [fld req 0 1] ∧ s.reaches (fld req 1 8) (fld req 9 4) = true ∧ s.manifestOk m = true ∧ fld m 6 2 < s.floor :=
  ⟨manifest1 5, true, setFld (zeros 13) 0 1 1, modKeeper (fun k => { k with fuses := { k.fuses with rootDigest := digest256 (zeros 68), svn := 1 } }) (mbxS true 0x10 (setFld (zeros 13) 0 1 1)), by decide +kernel⟩

theorem test_KeeperMailboxActs_18 : ∃ m : List Byte, ∃ vf cut : Bool, ∃ h : Bool, ∃ req : List Byte, ∃ s : State, s.keeper.chans = [h] ∧ s.keeperRuns = true ∧ s.keeper.busy = false ∧ s.mbxRd h F.secMbxCtrlOpcode = 0x10 ∧ s.mbxRequest h = req ∧ fld req 0 1 < 4 ∧ fld req 9 4 ≤ 2 ^ 28 ∧ fld req 0 1 ≠ s.bootedSlot ∧ s.otherGood ≠ [fld req 0 1] ∧ s.reaches (fld req 1 8) (fld req 9 4) = false :=
  ⟨[], true, false, true, setFld (zeros 13) 0 1 1, (mbxS true 0x10 (setFld (zeros 13) 0 1 1)).setReg .hifApertureBase 4096, by decide +kernel⟩

theorem test_KeeperMailboxActs_19 : ∃ j : Nat, ∃ x : JRun, ∃ h : Bool, ∃ code : Nat, ∃ resp : List Byte, ∃ s : State, s.journal.run = [x] ∧ x.jseq = j ∧ x.copyA = true ∧ x.item.byKeeper = true ∧ s.journal.queue = [] ∧ s.keeper.waits = [⟨x.item.kind.toNat, x.item.key.toNat, .finish code resp⟩] ∧ s.keeper.chans = [h] ∧ s.keeperRuns = true ∧ code < 2 ^ 16 ∧ resp.length < 2 ^ 13 :=
  ⟨1, ⟨1, keeperRecord 0x103 1 [5], [7], true⟩, true, 0, [], { modKeeper (fun k => { k with busy := true, waits := [⟨0x103, 1, .finish 0 []⟩] }) (mbxS true 0x11 [1]) with journal := { Journal.reset with run := [⟨1, keeperRecord 0x103 1 [5], [7], true⟩] } }, by decide +kernel⟩

theorem test_KeeperMailboxActs_20 : ∃ h : Bool, ∃ req : List Byte, ∃ s : State, s.keeper.chans = [h] ∧ s.keeperRuns = true ∧ s.keeper.busy = false ∧ s.mbxRd h F.secMbxCtrlOpcode = 0x11 ∧ s.mbxRequest h = req ∧ fld req 0 1 < 4 ∧ (s.slotState (fld req 0 1)).1 = slotStaged :=
  ⟨true, [1], (mbxS true 0x11 [1]).mirrorPut 0x103 1 (slotPayload slotStaged 7 5), by decide +kernel⟩

theorem test_KeeperMailboxActs_21 : ∃ h : Bool, ∃ req : List Byte, ∃ s : State, s.keeper.chans = [h] ∧ s.keeperRuns = true ∧ s.keeper.busy = false ∧ s.mbxRd h F.secMbxCtrlOpcode = 0x11 ∧ s.mbxRequest h = req ∧ ((4 ≤ fld req 0 1 ∨ (s.slotState (fld req 0 1)).1 ≠ slotStaged)) :=
  ⟨true, [1], mbxS true 0x11 ([1]), by decide +kernel⟩

theorem test_KeeperMailboxActs_22 : ∃ h : Bool, ∃ s : State, s.keeper.chans = [h] ∧ s.keeperRuns = true ∧ s.keeper.busy = false ∧ s.mbxRd h F.secMbxCtrlOpcode = 0x12 ∧ s.has F.secBootStatusTrial = true :=
  ⟨false, (mbxS false 0x12 []).wr F.secBootStatusTrial 1, by decide +kernel⟩

theorem test_KeeperMailboxActs_23 : ∃ h : Bool, ∃ s : State, s.keeper.chans = [h] ∧ s.keeperRuns = true ∧ s.keeper.busy = false ∧ s.mbxRd h F.secMbxCtrlOpcode = 0x12 ∧ s.has F.secBootStatusTrial = false :=
  ⟨false, mbxS false 0x12 [], by decide +kernel⟩

theorem test_KeeperMailboxActs_24 : ∃ h : Bool, ∃ req : List Byte, ∃ s : State, s.keeper.chans = [h] ∧ s.keeperRuns = true ∧ s.keeper.busy = false ∧ s.mbxRd h F.secMbxCtrlOpcode = 0x13 ∧ s.mbxRequest h = req :=
  ⟨true, [1], mbxS true 0x13 ([1]), by decide +kernel⟩

theorem test_KeeperMailboxActs_25 : ∃ k : List Byte, ∃ h : Bool, ∃ req : List Byte, ∃ s : State, s.keeper.chans = [h] ∧ s.keeperRuns = true ∧ s.keeper.busy = false ∧ s.mbxRd h F.secMbxCtrlOpcode = 0x14 ∧ s.mbxRequest h = req ∧ s.reaches (fld req 0 8) k.length = true ∧ s.keeper.fuses.debug = 1 ∧ s.keeper.forced = false :=
  ⟨[1], true, [], modKeeper (fun k => { k with fuses := { k.fuses with debug := 1 } }) (mbxS true 0x14 []), by decide +kernel⟩

theorem test_KeeperMailboxActs_26 : ∃ acc : Bool, ∃ k : List Byte, ∃ h : Bool, ∃ req : List Byte, ∃ s : State, s.keeper.chans = [h] ∧ s.keeperRuns = true ∧ s.keeper.busy = false ∧ s.mbxRd h F.secMbxCtrlOpcode = 0x14 ∧ s.mbxRequest h = req ∧ s.reaches (fld req 0 8) k.length = true ∧ ((acc = false ∨ s.debugFuse ≠ 1)) :=
  ⟨true, [1], true, [], mbxS true 0x14 [], by decide +kernel⟩

theorem test_KeeperMailboxActs_27 : ∃ acc : Bool, ∃ k : List Byte, ∃ h : Bool, ∃ req : List Byte, ∃ s : State, s.keeper.chans = [h] ∧ s.keeperRuns = true ∧ s.keeper.busy = false ∧ s.mbxRd h F.secMbxCtrlOpcode = 0x14 ∧ s.mbxRequest h = req ∧ s.reaches (fld req 0 8) k.length = false :=
  ⟨true, [1], true, [], (mbxS true 0x14 []).setReg .hifApertureBase 4096, by decide +kernel⟩

theorem test_KeeperMailboxActs_28 : ∃ h : Bool, ∃ req : List Byte, ∃ s : State, s.keeper.chans = [h] ∧ s.keeperRuns = true ∧ s.keeper.busy = false ∧ s.mbxRd h F.secMbxCtrlOpcode = 0x20 ∧ s.mbxRequest h = req ∧ fld req 0 1 < 16 ∧ fld req 9 1 ≤ 1 ∧ fld req 1 4 + fld req 5 4 ≤ frameEnd ∧ 0xA ≤ s.rd F.secBootStatusStage ∧ ((∀ g ∈ upto (fld req 1 4) (fld req 5 4), s.grantOk g (fld req 0 1) (fld req 9 1 == 1) = true ∧ (g < s.frameCount ∨ 196608 ≤ g))) :=
  ⟨false, setFld (setFld (zeros 10) 1 4 9) 5 5 (2 ^ 32 + 2), ((mbxS false 0x20 (setFld (setFld (zeros 10) 1 4 9) 5 5 (2 ^ 32 + 2))).wr F.secBootStatusStage 10).setReg .hbmCapacity (2 ^ 34), by decide +kernel⟩

theorem test_KeeperMailboxActs_29 : ∃ h : Bool, ∃ req : List Byte, ∃ s : State, s.keeper.chans = [h] ∧ s.keeperRuns = true ∧ s.keeper.busy = false ∧ s.mbxRd h F.secMbxCtrlOpcode = 0x20 ∧ s.mbxRequest h = req ∧ ((16 ≤ fld req 0 1 ∨ 1 < fld req 9 1 ∨ frameEnd < fld req 1 4 + fld req 5 4 ∨ s.rd F.secBootStatusStage < 0xA ∨ ∃ g ∈ upto (fld req 1 4) (fld req 5 4), s.grantOk g (fld req 0 1) (fld req 9 1 == 1) = false ∨ (s.frameCount ≤ g ∧ g < 196608))) :=
  ⟨false, zeros 10, mbxS false 0x20 (zeros 10), by decide +kernel⟩

theorem test_KeeperMailboxActs_30 : ∃ h : Bool, ∃ req : List Byte, ∃ s : State, s.keeper.chans = [h] ∧ s.keeperRuns = true ∧ s.keeper.busy = false ∧ s.mbxRd h F.secMbxCtrlOpcode = 0x21 ∧ s.mbxRequest h = req ∧ fld req 0 1 < 16 ∧ fld req 5 4 ≠ 0 :=
  ⟨false, setFld (setFld (zeros 9) 1 4 9) 5 4 2, modKeeper (fun k => { k with iso := [(9, 65537)] }) (mbxS false 0x21 (setFld (setFld (zeros 9) 1 4 9) 5 4 2)), by decide +kernel⟩

theorem test_KeeperMailboxActs_31 : ∃ h : Bool, ∃ req : List Byte, ∃ s : State, s.keeper.chans = [h] ∧ s.keeperRuns = true ∧ s.keeper.busy = false ∧ s.mbxRd h F.secMbxCtrlOpcode = 0x22 ∧ s.mbxRequest h = req ∧ fld req 0 1 < 16 ∧ wardImageOk (s.read (fld req 1 8) 2112) = true :=
  ⟨false, setFld (zeros 9) 1 8 windowBase, (mbxS false 0x22 (setFld (zeros 9) 1 8 windowBase)).write windowBase ward0, by decide +kernel⟩

theorem test_KeeperMailboxActs_32 : ∃ h : Bool, ∃ req : List Byte, ∃ s : State, s.keeper.chans = [h] ∧ s.keeperRuns = true ∧ s.keeper.busy = false ∧ s.mbxRd h F.secMbxCtrlOpcode = 0x22 ∧ s.mbxRequest h = req ∧ fld req 0 1 < 16 ∧ wardImageOk (s.read (fld req 1 8) 2112) = false :=
  ⟨false, setFld (zeros 9) 1 8 windowBase, (mbxS false 0x22 (setFld (zeros 9) 1 8 windowBase)).write windowBase (setFld ward0 0x24 1 1), by decide +kernel⟩

theorem test_KeeperMailboxActs_33 : ∃ h : Bool, ∃ req : List Byte, ∃ s : State, s.keeper.chans = [h] ∧ s.keeperRuns = true ∧ s.keeper.busy = false ∧ s.mbxRd h F.secMbxCtrlOpcode = 0x23 ∧ s.mbxRequest h = req ∧ fld req 0 1 < 16 ∧ fld req 1 2 ≠ 0 ∧ s.domainTaken (fld req 0 1) (fld req 1 2) = false :=
  ⟨false, [3, 9, 0], mbxS false 0x23 ([3, 9, 0]), by decide +kernel⟩

theorem test_KeeperMailboxActs_34 : ∃ h : Bool, ∃ req : List Byte, ∃ s : State, s.keeper.chans = [h] ∧ s.keeperRuns = true ∧ s.keeper.busy = false ∧ s.mbxRd h F.secMbxCtrlOpcode = 0x23 ∧ s.mbxRequest h = req ∧ fld req 0 1 < 16 ∧ fld req 1 2 ≠ 0 ∧ s.domainTaken (fld req 0 1) (fld req 1 2) = true :=
  ⟨false, [3, 9, 0], modKeeper (fun k => { k with domains := [(1, 9)] }) (mbxS false 0x23 [3, 9, 0]), by decide +kernel⟩

theorem test_KeeperMailboxActs_35 : ∃ h : Bool, ∃ req : List Byte, ∃ s : State, s.keeper.chans = [h] ∧ s.keeperRuns = true ∧ s.keeper.busy = false ∧ s.mbxRd h F.secMbxCtrlOpcode = 0x24 ∧ s.mbxRequest h = req ∧ fld req 0 4 < frameEnd :=
  ⟨false, zeros 8, mbxS false 0x24 (zeros 8), by decide +kernel⟩

theorem test_KeeperMailboxActs_36 : ∃ h : Bool, ∃ req : List Byte, ∃ s : State, s.keeper.chans = [h] ∧ s.keeperRuns = true ∧ s.keeper.busy = false ∧ s.mbxRd h F.secMbxCtrlOpcode = 0x24 ∧ s.mbxRequest h = req ∧ frameEnd ≤ fld req 0 4 :=
  ⟨false, setFld (zeros 8) 0 4 frameEnd, mbxS false 0x24 (setFld (zeros 8) 0 4 frameEnd), by decide +kernel⟩

theorem test_KeeperMailboxActs_37 : ∃ h : Bool, ∃ req : List Byte, ∃ g : Recovery, ∃ s : State, s.keeper.chans = [h] ∧ s.keeperRuns = true ∧ s.keeper.busy = false ∧ s.mbxRd h F.secMbxCtrlOpcode = 0x25 ∧ s.mbxRequest h = req ∧ s.mem.recoveries = [g] ∧ g.frame = fld req 4 4 ∧ g.staging = fld req 0 4 ∧ g.stage = 1 ∧ s.digestHolds (fld req 0 4) (fld req 4 4) = true :=
  ⟨false, frzReq, { rec0 1 with frame := 4, staging := 5 }, frzS, by decide +kernel, by decide +kernel, by decide +kernel, by decide +kernel, by decide +kernel, rfl, rfl, rfl, rfl, frz_holds⟩

theorem test_KeeperMailboxActs_38 : ∃ h : Bool, ∃ req : List Byte, ∃ g : Recovery, ∃ s : State, s.keeper.chans = [h] ∧ s.keeperRuns = true ∧ s.keeper.busy = false ∧ s.mbxRd h F.secMbxCtrlOpcode = 0x25 ∧ s.mbxRequest h = req ∧ s.mem.recoveries = [g] ∧ g.frame = fld req 4 4 ∧ g.staging = fld req 0 4 ∧ g.stage = 1 ∧ s.digestHolds (fld req 0 4) (fld req 4 4) = false :=
  ⟨false, setFld (setFld (zeros 8) 0 4 5) 4 4 4, { rec0 1 with frame := 4, staging := 5 }, { mbxS false 0x25 (setFld (setFld (zeros 8) 0 4 5) 4 4 4) with mem := { Mem.reset with recoveries := [{ rec0 1 with frame := 4, staging := 5 }] } }, by decide +kernel⟩

theorem test_BootAndKeeperFailures_1 : ∃ s : State, s.clk.rails = true ∧ s.has F.secBootStatusHalted = false ∧ s.has F.secBootStatusDone = false ∧ s.rd F.secBootStatusStage = 1 :=
  ⟨bootS 1, by decide +kernel⟩

theorem test_BootAndKeeperFailures_2 : ∃ s : State, s.clk.rails = true ∧ s.has F.secBootStatusHalted = false ∧ s.has F.secBootStatusDone = false ∧ s.rd F.secBootStatusStage = 2 :=
  ⟨bootS 2, by decide +kernel⟩

theorem test_BootAndKeeperFailures_3 : ∃ s : State, s.clk.rails = true ∧ s.has F.secBootStatusHalted = false ∧ s.has F.secBootStatusDone = false ∧ s.rd F.secBootStatusStage = 3 ∧ s.has F.clkStatusPllLock = true :=
  ⟨(bootS 3).wr F.clkStatusPllLock 1, by decide +kernel⟩

theorem test_BootAndKeeperFailures_4 : ∃ s : State, s.clk.rails = true ∧ s.has F.secBootStatusHalted = false ∧ s.has F.secBootStatusDone = false ∧ s.rd F.secBootStatusStage = 4 ∧ s.clk.released = 5 :=
  ⟨{ bootS 4 with clk := { Clk.reset with rails := true, released := 5 } }, by decide +kernel⟩

theorem test_BootAndKeeperFailures_5 : ∃ s : State, s.clk.rails = true ∧ s.has F.secBootStatusHalted = false ∧ s.has F.secBootStatusDone = false ∧ s.rd F.secBootStatusStage = 1 :=
  ⟨bootS 1, by decide +kernel⟩

theorem test_BootAndKeeperFailures_6 : ∃ s : State, s.clk.rails = true ∧ s.has F.secBootStatusHalted = false ∧ s.has F.secBootStatusDone = false ∧ s.rd F.secBootStatusStage = 2 :=
  ⟨bootS 2, by decide +kernel⟩

theorem test_BootAndKeeperFailures_7 : ∃ s : State, s.clk.rails = true ∧ s.has F.secBootStatusHalted = false ∧ s.has F.secBootStatusDone = false ∧ s.rd F.secBootStatusStage = 3 :=
  ⟨bootS 3, by decide +kernel⟩

theorem test_BootAndKeeperFailures_8 : ∃ s : State, s.clk.rails = true ∧ s.has F.secBootStatusHalted = false ∧ s.has F.secBootStatusDone = false ∧ s.rd F.secBootStatusStage = 5 :=
  ⟨bootS 5, by decide +kernel⟩

theorem test_BootAndKeeperFailures_9 : ∃ s : State, s.clk.rails = true ∧ s.has F.secBootStatusHalted = false ∧ s.has F.secBootStatusDone = false ∧ s.rd F.secBootStatusStage = 9 :=
  ⟨bootS 9, by decide +kernel⟩

theorem test_BootAndKeeperFailures_10 : ∃ s : State, s.clk.rails = true ∧ s.has F.secBootStatusHalted = false ∧ s.has F.secBootStatusDone = false ∧ s.rd F.secBootStatusStage = 4 ∧ s.clk.released = 5 :=
  ⟨{ bootS 4 with clk := { Clk.reset with rails := true, released := 5 } }, by decide +kernel⟩

theorem test_BootAndKeeperFailures_11 : ∃ p : List Byte, ∃ s : State, s.clk.rails = true ∧ s.has F.secBootStatusHalted = false ∧ s.has F.secBootStatusDone = false ∧ s.rd F.secBootStatusStage = 5 ∧ s.has F.durStatusReady = true ∧ s.journal.live = [] ∧ s.keeperValue 0x101 0 = some p ∧ s.keeperValue 0x102 0 = none ∧ s.keeperValue 0x104 0 = none ∧ (∀ i : Nat, s.keeperValue 0x103 i = none) :=
  ⟨leBytes 8 256, modKeeper (fun k => { k with mirror := [(liveKey 0x101 0, leBytes 8 256)] }) ((bootS 5).wr F.durStatusReady 1), by decide +kernel, by decide +kernel, by decide +kernel, by decide +kernel, by decide +kernel, rfl, rfl, rfl, rfl, noSlot⟩

theorem test_BootAndKeeperFailures_12 : ∃ s : State, s.clk.rails = true ∧ s.has F.secBootStatusHalted = false ∧ s.has F.secBootStatusDone = false ∧ s.rd F.secBootStatusStage = 5 ∧ s.has F.durStatusReady = true ∧ s.journal.live = [] ∧ s.keeper.mirror = [] ∧ s.keeper.fuses.used = true :=
  ⟨modKeeper (fun k => { k with mirror := [], fuses := { k.fuses with used := true } }) ((bootS 5).wr F.durStatusReady 1), by decide +kernel⟩

theorem test_BootAndKeeperFailures_13 : ∃ i : Fin 4, ∃ s : State, s.clk.rails = true ∧ s.has F.secBootStatusHalted = false ∧ s.has F.secBootStatusDone = false ∧ s.rd F.secBootStatusStage = 6 ∧ s.keeper.tried = [] ∧ s.bootCandidate = some i ∧ s.floor ≤ (s.slotState i).2.2 :=
  ⟨0, bootS 6, by decide +kernel⟩

theorem test_BootAndKeeperFailures_14 : ∃ i j : Fin 4, ∃ s : State, s.clk.rails = true ∧ s.has F.secBootStatusHalted = false ∧ s.has F.secBootStatusDone = false ∧ s.rd F.secBootStatusStage = 6 ∧ s.keeper.tried = [] ∧ s.bootCandidate = some i ∧ s.floor ≤ (s.slotState i).2.2 ∧ j ≠ i ∧ (s.slotState j).1 = slotGood :=
  ⟨0, 1, (bootS 6).mirrorPut 0x103 1 (slotPayload slotGood 0 0), by decide +kernel⟩

theorem test_BootAndKeeperFailures_15 : ∃ i : Fin 4, ∃ s : State, s.clk.rails = true ∧ s.has F.secBootStatusHalted = false ∧ s.has F.secBootStatusDone = false ∧ s.rd F.secBootStatusStage = 6 ∧ s.keeper.tried = [] ∧ s.bootCandidate = some i ∧ s.floor ≤ (s.slotState i).2.2 ∧ ((∀ j : Fin 4, j ≠ i → (s.slotState j).1 ≠ slotGood ∧ (s.slotState j).1 ≠ slotTrial)) :=
  ⟨0, bootS 6, by decide +kernel⟩

theorem test_BootAndKeeperFailures_16 : ∃ i : Fin 4, ∃ s : State, s.clk.rails = true ∧ s.has F.secBootStatusHalted = false ∧ s.has F.secBootStatusDone = false ∧ s.rd F.secBootStatusStage = 6 ∧ s.keeper.tried = [] ∧ s.bootCandidate = some i ∧ (s.slotState i).2.2 < s.floor :=
  ⟨0, modKeeper (fun k => { k with fuses := { k.fuses with svn := 1 } }) (bootS 6), by decide +kernel⟩

theorem test_BootAndKeeperFailures_17 : ∃ e : StageEnd, ∃ s : State, s.clk.rails = true ∧ s.has F.secBootStatusHalted = false ∧ s.has F.secBootStatusDone = false ∧ s.rd F.secBootStatusStage = 6 ∧ s.keeper.tried = [] ∧ s.bootCandidate = none :=
  ⟨.ok, modKeeper (fun k => { k with mirror := [] }) (bootS 6), by decide +kernel⟩

theorem test_BootAndKeeperFailures_18 : ∃ s : State, s.clk.rails = true ∧ s.has F.secBootStatusHalted = false ∧ s.has F.secBootStatusDone = false ∧ s.rd F.secBootStatusStage = 7 ∧ s.keeper.chans = [] ∧ s.debugFuse = 0 :=
  ⟨bootS 7, by decide +kernel⟩

theorem test_BootAndKeeperFailures_19 : ∃ s : State, s.clk.rails = true ∧ s.has F.secBootStatusHalted = false ∧ s.has F.secBootStatusDone = false ∧ s.rd F.secBootStatusStage = 7 ∧ s.keeper.chans = [] ∧ ((s.debugFuse = 2 ∨ s.debugFuse = 1 ∧ s.keeper.token ≠ none)) :=
  ⟨modKeeper (fun k => { k with fuses := { k.fuses with debug := 2 } }) (bootS 7), by decide +kernel⟩

theorem test_BootAndKeeperFailures_20 : ∃ s : State, s.clk.rails = true ∧ s.has F.secBootStatusHalted = false ∧ s.has F.secBootStatusDone = false ∧ s.rd F.secBootStatusStage = 8 :=
  ⟨bootS 8, by decide +kernel⟩

theorem test_BootAndKeeperFailures_21 : ∃ s : State, s.clk.rails = true ∧ s.has F.secBootStatusHalted = false ∧ s.has F.secBootStatusDone = false ∧ s.rd F.secBootStatusStage = 9 ∧ s.has F.hbmStatusReady = true :=
  ⟨(bootS 9).wr F.hbmStatusReady 1, by decide +kernel⟩

theorem test_BootAndKeeperFailures_22 : ∃ s : State, s.clk.rails = true ∧ s.has F.secBootStatusHalted = false ∧ s.has F.secBootStatusDone = false ∧ s.rd F.secBootStatusStage = 10 :=
  ⟨bootS 10, by decide +kernel⟩

theorem test_BootAndKeeperFailures_23 : ∃ e : StageEnd, ∃ s : State, s.clk.rails = true ∧ s.has F.secBootStatusHalted = false ∧ s.has F.secBootStatusDone = false ∧ s.rd F.secBootStatusStage = 11 :=
  ⟨.ok, bootS 11, by decide +kernel⟩

theorem test_BootAndKeeperFailures_24 : ∃ e : StageEnd, ∃ s : State, s.clk.rails = true ∧ s.has F.secBootStatusHalted = false ∧ s.has F.secBootStatusDone = false ∧ s.rd F.secBootStatusStage = 12 :=
  ⟨.ok, { bootS 12 with pwr := { Pwr.reset with report := 3 } }, by decide +kernel⟩

theorem test_BootAndKeeperFailures_25 : ∃ e : StageEnd, ∃ s : State, ((s.has F.secBootStatusHalted = true ∨ s.has F.secBootStatusDone = true ∨ s.clk.rails = false)) :=
  ⟨.ok, State.reset, by decide +kernel⟩

theorem test_BootAndKeeperFailures_27 : ∃ s : State, s.keeper.trial = true ∧ s.pwr.resetting = none :=
  ⟨modKeeper (fun k => { k with trial := true }) State.reset, by decide +kernel⟩

theorem test_BootAndKeeperFailures_28 : ∃ s : State, s.keeper.trial = false :=
  ⟨State.reset, by decide +kernel⟩

theorem test_BootAndKeeperFailures_29 : ∃ s : State, s.keeper.chans ≠ [] ∧ s.pwr.resetting = none :=
  ⟨modKeeper (fun k => { k with chans := [true] }) State.reset, by decide +kernel⟩

theorem test_BootAndKeeperFailures_30 : ∃ s : State, s.keeper.chans = [] :=
  ⟨State.reset, by decide +kernel⟩

theorem test_SnapshotRequest_1 : ∃ a : Agent, ∃ s : State, s.has F.cntStatusReady = true ∧ s.has F.cntStatusSnapBusy = false :=
  ⟨.host, State.reset.wr F.cntStatusReady 1, by decide +kernel⟩

theorem test_SnapshotRequest_2 : ∃ a : Agent, ∃ s : State, s.has F.cntStatusSnapBusy = true :=
  ⟨.host, (State.reset.wr F.cntStatusReady 1).wr F.cntStatusSnapBusy 1, by decide +kernel⟩

theorem test_SnapshotRequest_3 : ∃ a : Agent, ∃ s : State, s.has F.cntStatusReady = false :=
  ⟨.host, State.reset, by decide +kernel⟩

theorem test_SnapshotsAndTelemetry_1 : ∃ u i q : Nat, ∃ s : State, unitIndex u = some i ∧ (s.inbox u).findSome? TreeMsg.snapSeq = some q :=
  ⟨unitAt 5, 5, 9, { (State.reset.wr F.cntStatusReady 1).wr F.cntStatusSnapBusy 1 with tree := [(unitAt 5, [.isolation 0 1, .snapshot 9])] }, by decide +kernel⟩

theorem test_SnapshotsAndTelemetry_2 : ∃ u : Nat, ∃ s : State, (s.inbox u).findSome? TreeMsg.snapSeq = none :=
  ⟨unitAt 0, State.reset, by decide +kernel⟩

theorem test_SnapshotsAndTelemetry_3 : ∃ s : State, s.has F.cntStatusSnapBusy = true ∧ s.cnt.taken.length = 603 :=
  ⟨{ (State.reset.wr F.cntStatusReady 1).wr F.cntStatusSnapBusy 1 with cnt := { Cnt.reset with taken := List.replicate 603 0 } }, by decide +kernel⟩

theorem test_SnapshotsAndTelemetry_4 : ∃ s : State, ((s.has F.cntStatusSnapBusy = false ∨ s.cnt.taken.length ≠ 603)) :=
  ⟨State.reset, by decide +kernel⟩

theorem test_SnapshotsAndTelemetry_5 : ∃ ok : Bool, ∃ t0 : Temps, ∃ s : State, s.has F.cntTeleCfgEnable = false :=
  ⟨true, temps0 500, State.reset, by decide +kernel⟩

theorem test_SnapshotsAndTelemetry_6 : ∃ ok : Bool, ∃ t0 : Temps, ∃ s : State, s.has F.cntTeleCfgEnable = true ∧ ((s.has F.cntStatusSnapBusy = true ∨ s.has F.cntStatusReady = false)) :=
  ⟨true, temps0 500, State.reset.wr F.cntTeleCfgEnable 1, by decide +kernel⟩

theorem test_SnapshotsAndTelemetry_7 : ∃ t0 : Temps, ∃ s : State, s.has F.cntTeleCfgEnable = true ∧ s.has F.cntStatusSnapBusy = false ∧ s.has F.cntStatusReady = true ∧ s.reaches (s.rd F.cntTeleBaseBase * 256 + 256 * ((s.rd F.cntTeleSeqSeq + 1) % 2 ^ 32 % 2 ^ s.teleLog2)) 256 = true ∧ s.has F.hifStatusLinkUp = true :=
  ⟨temps0 500, ((State.reset.wr F.cntStatusReady 1).wr F.cntTeleCfgEnable 1).wr F.hifStatusLinkUp 1, by decide +kernel⟩

theorem test_SnapshotsAndTelemetry_8 : ∃ ok : Bool, ∃ t0 : Temps, ∃ s : State, s.has F.cntTeleCfgEnable = true ∧ s.has F.cntStatusSnapBusy = false ∧ s.has F.cntStatusReady = true ∧ ((ok = false ∨ s.has F.hifStatusLinkUp = false ∨ s.reaches (s.rd F.cntTeleBaseBase * 256 + 256 * ((s.rd F.cntTeleSeqSeq + 1) % 2 ^ 32 % 2 ^ s.teleLog2)) 256 = false)) :=
  ⟨false, temps0 500, ((State.reset.wr F.cntStatusReady 1).wr F.cntTeleCfgEnable 1), by decide +kernel⟩

theorem test_SidebandMessages_1 : ∃ e : Byte, ∃ s : State, e ≠ 0 ∧ e ≠ 0xFF :=
  ⟨9, State.reset, by decide +kernel⟩

theorem test_SidebandMessages_2 : ∃ e : Byte, ∃ s : State, e ≠ 0 ∧ e ≠ 0xFF :=
  ⟨9, State.reset, by decide +kernel⟩

theorem test_SidebandMessages_3 : ∃ b : Binding, ∃ e : Byte, ∃ s : State, ((e = 0 ∨ e = 0xFF)) :=
  ⟨.smbus, 0, State.reset, by decide +kernel⟩

theorem test_SidebandMessages_7 : ∃ b : Binding, ∃ m : Byte, ∃ s : State, ((m = 0 ∨ m = 1 ∨ m = 0x7E ∨ m = 0xFF)) :=
  ⟨.smbus, 1, State.reset, by decide +kernel⟩

theorem test_SidebandMessages_8 : ∃ b : Binding, ∃ m : Byte, ∃ s : State, m ≠ 0 ∧ m ≠ 1 ∧ m ≠ 0x7E ∧ m ≠ 0xFF :=
  ⟨.smbus, 5, State.reset, by decide +kernel⟩

theorem test_SidebandMessages_11 : ∃ b : Binding, ∃ n : Byte, ∃ s : State, n ≠ 0 ∧ n ≠ 0xFF :=
  ⟨.smbus, 3, State.reset, by decide +kernel⟩

theorem test_SidebandMessages_12 : ∃ b : Binding, ∃ n : Byte, ∃ s : State, ((n = 0 ∨ n = 0xFF)) :=
  ⟨.smbus, 0, State.reset, by decide +kernel⟩

theorem test_SidebandMessages_14 : ∃ b : Binding, ∃ p : Byte, ∃ s : State, ((p = 0 ∨ p = 2)) :=
  ⟨.smbus, 2, State.reset, by decide +kernel⟩

theorem test_SidebandMessages_15 : ∃ b : Binding, ∃ p : Byte, ∃ s : State, p ≠ 0 ∧ p ≠ 2 :=
  ⟨.smbus, 1, State.reset, by decide +kernel⟩

theorem test_SidebandMessages_19 : ∃ b : Binding, ∃ p : Byte, ∃ s : State, p ≠ 0 ∧ p ≠ 2 :=
  ⟨.smbus, 1, State.reset, by decide +kernel⟩

theorem test_SidebandMessages_21 : ∃ b : Binding, ∃ h : Word, ∃ s : State, 1 ≤ h.toNat ∧ h.toNat ≤ 20 :=
  ⟨.smbus, 7, State.reset, by decide +kernel⟩

theorem test_SidebandMessages_22 : ∃ b : Binding, ∃ h : Word, ∃ s : State, 21 ≤ h.toNat ∧ h.toNat ≤ 24 :=
  ⟨.smbus, 24, State.reset, by decide +kernel⟩

theorem test_SidebandMessages_23 : ∃ b : Binding, ∃ h : Word, ∃ s : State, ((h.toNat = 0 ∨ 24 < h.toNat)) :=
  ⟨.smbus, 25, State.reset, by decide +kernel⟩

theorem test_SidebandMessages_24 : ∃ b : Binding, ∃ i : Half, ∃ v : Nat, ∃ s : State, 1 ≤ i.toNat ∧ i.toNat ≤ 20 ∧ s.numeric i.toNat = some v :=
  ⟨.smbus, 1, 48000, State.reset.wr F.pwrVinVin 48000, by decide +kernel⟩

theorem test_SidebandMessages_25 : ∃ b : Binding, ∃ i : Half, ∃ s : State, 1 ≤ i.toNat ∧ i.toNat ≤ 20 ∧ s.numeric i.toNat = none :=
  ⟨.smbus, 1, State.reset, by decide +kernel⟩

theorem test_SidebandMessages_26 : ∃ b : Binding, ∃ i : Half, ∃ s : State, ((i.toNat = 0 ∨ 20 < i.toNat)) :=
  ⟨.smbus, 32, State.reset, by decide +kernel⟩

theorem test_SidebandMessages_27 : ∃ b : Binding, ∃ i : Half, ∃ v : Nat, ∃ s : State, 32 ≤ i.toNat ∧ i.toNat ≤ 35 ∧ s.stateOf i.toNat = some v :=
  ⟨.smbus, 34, 0, State.reset.wr F.pwrVinVin 48000, by decide +kernel⟩

theorem test_SidebandMessages_28 : ∃ b : Binding, ∃ i : Half, ∃ s : State, 32 ≤ i.toNat ∧ i.toNat ≤ 35 ∧ s.stateOf i.toNat = none :=
  ⟨.smbus, 32, State.reset, by decide +kernel⟩

theorem test_SidebandMessages_29 : ∃ b : Binding, ∃ i : Half, ∃ s : State, ((i.toNat < 32 ∨ 35 < i.toNat)) :=
  ⟨.smbus, 3, State.reset, by decide +kernel⟩

theorem test_SidebandMessages_31 : ∃ b : Binding, ∃ s : State, s.cnt.newest = [] :=
  ⟨.smbus, State.reset, by decide +kernel⟩

theorem test_SidebandMessages_32 : ∃ b : Binding, ∃ s : State, s.cnt.newest ≠ [] :=
  ⟨.smbus, { State.reset with cnt := { Cnt.reset with newest := zeros 256 } }, by decide +kernel⟩

theorem test_SidebandMessages_35 : ∃ b : Binding, ∃ m k : Byte, ∃ s : State, ((m = 0 ∨ m = 1 ∨ m = 0x7E)) :=
  ⟨.smbus, 1, 9, State.reset, by decide +kernel⟩

theorem test_SidebandMessages_36 : ∃ b : Binding, ∃ m k : Byte, ∃ s : State, m ≠ 0 ∧ m ≠ 1 ∧ m ≠ 0x7E :=
  ⟨.smbus, 5, 9, State.reset, by decide +kernel⟩

theorem test_StrapComparison_1 : ∃ p : Straps, ∃ s : State, p ≠ s.pwr.straps :=
  ⟨⟨1, false, 2⟩, State.reset, by decide +kernel⟩

theorem test_StrapComparison_2 : ∃ p : Straps, ∃ s : State, p = s.pwr.straps :=
  ⟨Straps.reset, State.reset, by decide +kernel⟩

theorem test_StepRunsTheCommandInFront : State.reset.pending = [] := rfl

theorem test_EveryStepKeepsTheCanonicalForm : ∃ s : State, s.Canonical ∧ s.pending ≠ [] :=
  ⟨{ State.reset with pending := [.entropyFail] }, ⟨rfl, rfl⟩, by decide⟩

theorem test_ComputingInstructionsTouchOnlyTheirResult : ∃ (i : Instr) (u : TumblerId) (g : SlotId) (w : IWord) (f : Form) (c : Ctx)
    (s : State), computes i = some (u, g, w, f, true) ∧ s.issues u g w f always c :=
  ⟨.iadd 0 0 (word 8 4 5 6 0), 0, 0, word 8 4 5 6 0, formOf (word 8 4 5 6 0) 2 1, ctx1 (word 8 4 5 6 0), withTumbler tumbler1,
    rfl, by decide +kernel⟩

theorem test_StepCommandsComplete_1 : ∃ n : TenantId, ∃ r : RingId, ∃ e : Entry, ∃ b : List Byte, ∃ s : State, s.mayRun n r 0x10 e ∧ e.arg 0 8 % 64 = 0 ∧ ((s.begun n r e).fwRead n (e.arg 0 8) 128).2 = .ok b ∧ scbOk b = true ∧ s.ringOf n e.cid = r ∧ (s.tenant n).step.lost = false ∧ (s.tenant n).step.phase = .idle ∧ (s.tenant n).step.openHeld = none ∧ fld b 0 8 = (s.tenant n).step.record.step + 1 ∧ (s.tenant n).place.phase = fld b 8 1 ∧ ((∀ x ∈ (s.tenant n).place.tensors, x.freed = false → inPhases x.phases (fld b 8 1) = true → ∀ q ∈ x.parts, q.spilled = false)) ∧ ((s.begun n r e).fwRead n (e.arg 0 8) 128).1.mem.replan = false ∧ ((s.begun n r e).fwRead n (e.arg 0 8) 128).1.releaseDue n = [] ∧ (((s.tenant n).place.worked = true ∨ (((s.begun n r e).fwRead n (e.arg 0 8) 128).1.mapoutCap = none ∧ ∀ x ∈ (s.tenant n).place.tensors, x.pending = none))) ∧ ((s.begun n r e).fwRead n (e.arg 0 8) 128).1.recovering n = false ∧ ((s.begun n r e).fwRead n (e.arg 0 8) 128).1.unrecovered n = false ∧ ((s.begun n r e).fwRead n (e.arg 0 8) 128).1.has F.cstStatusPartBusy = false :=
  ⟨0, 0, cmdEntry 0x10 [(0, 8, 2097152)], bytesOf 128 [(0, 8, 1)], withEntry (cmdEntry 0x10 [(0, 8, 2097152)]) Tenant.reset ((withPages (coreUnit 0)).write windowBase [1]), by decide +kernel⟩

theorem test_StepCommandsComplete_2 : ∃ n : TenantId, ∃ r : RingId, ∃ e : Entry, ∃ b : List Byte, ∃ s : State, s.mayRun n r 0x10 e ∧ e.arg 0 8 % 64 = 0 ∧ ((s.begun n r e).fwRead n (e.arg 0 8) 128).2 = .ok b ∧ scbOk b = true ∧ s.ringOf n e.cid = r ∧ (s.tenant n).step.lost = false ∧ (s.tenant n).step.phase = .idle ∧ (s.tenant n).step.openHeld = none ∧ fld b 0 8 = (s.tenant n).step.record.step + 1 ∧ ((((s.begun n r e).fwRead n (e.arg 0 8) 128).1.recovering n = true ∨ (((s.begun n r e).fwRead n (e.arg 0 8) 128).1.unrecovered n = false ∧ ((s.begun n r e).fwRead n (e.arg 0 8) 128).1.has F.cstStatusPartBusy = true))) :=
  ⟨0, 0, cmdEntry 0x10 [(0, 8, 2097152)], bytesOf 128 [(0, 8, 1)], (withEntry (cmdEntry 0x10 [(0, 8, 2097152)]) Tenant.reset ((withPages (coreUnit 0)).write windowBase [1])).wr F.cstStatusPartBusy 1, by decide +kernel⟩

theorem test_StepCommandsComplete_3 : ∃ n : TenantId, ∃ r : RingId, ∃ e : Entry, ∃ b : List Byte, ∃ s : State, s.mayRun n r 0x10 e ∧ e.arg 0 8 % 64 = 0 ∧ ((s.begun n r e).fwRead n (e.arg 0 8) 128).2 = .ok b ∧ scbOk b = true ∧ s.ringOf n e.cid = r ∧ (s.tenant n).step.lost = false ∧ (s.tenant n).step.phase = .idle ∧ (s.tenant n).step.openHeld = none ∧ fld b 0 8 = (s.tenant n).step.record.step + 1 ∧ ((s.begun n r e).fwRead n (e.arg 0 8) 128).1.recovering n = false ∧ ((s.begun n r e).fwRead n (e.arg 0 8) 128).1.unrecovered n = true :=
  ⟨0, 0, cmdEntry 0x10 [(0, 8, 2097152)], bytesOf 128 [(0, 8, 1)], { withEntry (cmdEntry 0x10 [(0, 8, 2097152)]) Tenant.reset ((withPages (coreUnit 0)).write windowBase [1]) with frozen := [{ name := 5, vectors := 1, length := 1, fmt := 0, mask := 0, creator := 0, sharers := [(0, 5)], parts := [], loaded := true, loading := none, unrecovered := true, scale := 0, amax := 0 }] }, by decide +kernel⟩

theorem test_StepCommandsComplete_4 : ∃ n : TenantId, ∃ r : RingId, ∃ e : Entry, ∃ b : List Byte, ∃ s : State, s.mayRun n r 0x11 e ∧ e.arg 0 8 % 64 = 0 ∧ ((s.begun n r e).fwRead n (e.arg 0 8) 128).2 = .ok b ∧ scbOk b = true ∧ (s.tenant n).step.phase = .idle :=
  ⟨0, 0, cmdEntry 0x11 [(0, 8, 2097152)], bytesOf 128 [(0, 8, 1)], withEntry (cmdEntry 0x11 [(0, 8, 2097152)]) (stepTenant fun x => { x with phase := .idle }) ((withPages (coreUnit 0)).write windowBase [1]), by decide +kernel⟩

theorem test_StepCommandsComplete_5 : ∃ n : TenantId, ∃ r : RingId, ∃ e : Entry, ∃ b : List Byte, ∃ s : State, s.mayRun n r 0x11 e ∧ e.arg 0 8 % 64 = 0 ∧ ((s.begun n r e).fwRead n (e.arg 0 8) 128).2 = .ok b ∧ scbOk b = true ∧ (s.tenant n).step.phase ≠ .idle ∧ (((s.tenant n).step.phase ≠ .opened ∨ (s.tenant n).step.commit.isSome = true ∨ fld b 0 8 ≠ (s.tenant n).step.scbStep)) :=
  ⟨0, 0, cmdEntry 0x11 [(0, 8, 2097152)], bytesOf 128 [(0, 8, 1)], withEntry (cmdEntry 0x11 [(0, 8, 2097152)]) (stepTenant fun x => { x with phase := .opened, scbStep := 2 }) ((withPages (coreUnit 0)).write windowBase [1]), by decide +kernel⟩

theorem test_StepCommandsComplete_6 : ∃ n : TenantId, ∃ r : RingId, ∃ e : Entry, ∃ b : List Byte, ∃ s : State, s.mayRun n r 0x11 e ∧ e.arg 0 8 % 64 = 0 ∧ ((s.begun n r e).fwRead n (e.arg 0 8) 128).2 = .ok b ∧ scbOk b = true ∧ (s.tenant n).step.phase = .opened ∧ (s.tenant n).step.commit = none ∧ fld b 0 8 = (s.tenant n).step.scbStep :=
  ⟨0, 0, cmdEntry 0x11 [(0, 8, 2097152)], bytesOf 128 [(0, 8, 1)], withEntry (cmdEntry 0x11 [(0, 8, 2097152)]) (stepTenant fun x => { x with phase := .opened, scbStep := 1 }) ((withPages (coreUnit 0)).write windowBase [1]), by decide +kernel⟩

theorem test_StepCommandsComplete_7 : ∃ n : TenantId, ∃ r : RingId, ∃ e : Entry, ∃ b : List Byte, ∃ k : Nat, ∃ f : Entry, ∃ s : State, s.mayRun n r 0x12 e ∧ e.arg 0 8 % 64 = 0 ∧ ((s.begun n r e).fwRead n (e.arg 0 8) 128).2 = .ok b ∧ scbOk b = true ∧ (((s.tenant n).step.phase = .opened ∨ (s.tenant n).step.phase = .updating)) ∧ fld b 0 8 = (s.tenant n).step.scbStep ∧ (s.tenant n).step.cancels = [] ∧ (s.tenant n).step.commit = some k ∧ k ≠ e.cid ∧ s.entry? n (s.ringOf n k) k = some f ∧ f.ended = false ∧ (∀ w ∈ s.waits, ¬(w.tenant = n.val ∧ w.ring = s.ringOf n k ∧ w.cid = k)) :=
  ⟨0, 0, cmdEntry 0x12 [(0, 8, 2097152)], bytesOf 128 [(0, 8, 1)], 9, { cmdEntry 0x11 [] with cid := 9, idx := 1, phase := .started }, (withEntry (cmdEntry 0x12 [(0, 8, 2097152)]) (stepTenant fun x => { x with phase := .opened, scbStep := 1, commit := some 9 }) ((withPages (coreUnit 0)).write windowBase [1])).setSq 0 0 { Sq.reset with entries := [cmdEntry 0x12 [(0, 8, 2097152)], { cmdEntry 0x11 [] with cid := 9, idx := 1, phase := .started }] }, by decide +kernel⟩

theorem test_StepCommandsComplete_8 : ∃ n : TenantId, ∃ r : RingId, ∃ e : Entry, ∃ b : List Byte, ∃ s : State, s.mayRun n r 0x12 e ∧ e.arg 0 8 % 64 = 0 ∧ ((s.begun n r e).fwRead n (e.arg 0 8) 128).2 = .ok b ∧ scbOk b = true ∧ (((s.tenant n).step.phase = .opened ∨ (s.tenant n).step.phase = .updating)) ∧ fld b 0 8 = (s.tenant n).step.scbStep ∧ (s.tenant n).step.cancels = [] ∧ (s.tenant n).step.commit = none :=
  ⟨0, 0, cmdEntry 0x12 [(0, 8, 2097152)], bytesOf 128 [(0, 8, 1)], withEntry (cmdEntry 0x12 [(0, 8, 2097152)]) (stepTenant fun x => { x with phase := .opened, scbStep := 1 }) ((withPages (coreUnit 0)).write windowBase [1]), by decide +kernel⟩

theorem test_StepCommandsComplete_9 : ∃ n : TenantId, ∃ r : RingId, ∃ e : Entry, ∃ b : List Byte, ∃ s : State, s.mayRun n r 0x12 e ∧ e.arg 0 8 % 64 = 0 ∧ ((s.begun n r e).fwRead n (e.arg 0 8) 128).2 = .ok b ∧ scbOk b = true ∧ (((s.tenant n).step.phase = .sealing ∨ (s.tenant n).step.phase = .post)) ∧ fld b 0 8 = (s.tenant n).step.scbStep :=
  ⟨0, 0, cmdEntry 0x12 [(0, 8, 2097152)], bytesOf 128 [(0, 8, 1)], withEntry (cmdEntry 0x12 [(0, 8, 2097152)]) (stepTenant fun x => { x with phase := .sealing, scbStep := 1 }) ((withPages (coreUnit 0)).write windowBase [1]), by decide +kernel⟩

theorem test_StepCommandsComplete_10 : ∃ n : TenantId, ∃ r : RingId, ∃ e : Entry, ∃ b : List Byte, ∃ s : State, s.mayRun n r 0x12 e ∧ e.arg 0 8 % 64 = 0 ∧ ((s.begun n r e).fwRead n (e.arg 0 8) 128).2 = .ok b ∧ scbOk b = true ∧ (s.tenant n).step.phase = .idle :=
  ⟨0, 0, cmdEntry 0x12 [(0, 8, 2097152)], bytesOf 128 [(0, 8, 1)], withEntry (cmdEntry 0x12 [(0, 8, 2097152)]) (stepTenant fun x => { x with phase := .idle }) ((withPages (coreUnit 0)).write windowBase [1]), by decide +kernel⟩

theorem test_StepCommandsComplete_11 : ∃ n : TenantId, ∃ r : RingId, ∃ e : Entry, ∃ b : List Byte, ∃ s : State, s.mayRun n r 0x12 e ∧ e.arg 0 8 % 64 = 0 ∧ ((s.begun n r e).fwRead n (e.arg 0 8) 128).2 = .ok b ∧ scbOk b = true ∧ (s.tenant n).step.phase ≠ .idle ∧ fld b 0 8 ≠ (s.tenant n).step.scbStep :=
  ⟨0, 0, cmdEntry 0x12 [(0, 8, 2097152)], bytesOf 128 [(0, 8, 1)], withEntry (cmdEntry 0x12 [(0, 8, 2097152)]) (stepTenant fun x => { x with phase := .opened, scbStep := 2 }) ((withPages (coreUnit 0)).write windowBase [1]), by decide +kernel⟩

theorem test_StepCommandsComplete_12 : ∃ n : TenantId, ∃ r : RingId, ∃ e : Entry, ∃ x : NumState, ∃ s : State, s.mayRun n r 0x13 e ∧ (s.tenant n).step.phase = .idle ∧ (s.tenant n).num.policyOf e = some x :=
  ⟨0, 0, cmdEntry 0x13 [(0, 2, 1), (4, 4, 100)], { NumState.reset with growthInterval := 100 }, withEntry (cmdEntry 0x13 [(0, 2, 1), (4, 4, 100)]) Tenant.reset State.reset, by decide +kernel⟩

theorem test_StepCommandsComplete_13 : ∃ n : TenantId, ∃ r : RingId, ∃ e : Entry, ∃ s : State, s.mayRun n r 0x13 e ∧ (s.tenant n).step.phase = .idle ∧ (s.tenant n).num.policyOf e = none :=
  ⟨0, 0, cmdEntry 0x13 [(0, 2, 1)], withEntry (cmdEntry 0x13 [(0, 2, 1)]) Tenant.reset State.reset, by decide +kernel⟩

theorem test_StepCommandsComplete_14 : ∃ n : TenantId, ∃ bad : List (Nat × Nat × Nat), ∃ k : Nat, ∃ e : Entry, ∃ s : State, s.active n = true ∧ (s.tenant n).step.phase = .idle ∧ s.running n = false ∧ s.boundaryDue n = false ∧ (s.tenant n).place.worked = false ∧ s.mapoutCap = none ∧ s.recovering n = false ∧ s.unrecovered n = false ∧ s.has F.cstStatusPartBusy = false ∧ (s.tenant n).step.openHeld = some k ∧ s.entry? n (s.ringOf n k) k = some e ∧ e.ended = false ∧ (∀ w ∈ s.waits, w.met = none ∧ ¬(w.tenant = n.val ∧ w.ring = s.ringOf n k ∧ w.cid = k)) :=
  ⟨0, [], 7, { cmdEntry 0x10 [] with phase := .started }, withEntry { cmdEntry 0x10 [] with phase := .started } (stepTenant fun x => { x with openHeld := some 7, scbStep := 1 }) State.reset, by decide +kernel⟩

theorem test_StepCommandsComplete_15 : ∃ n : TenantId, ∃ bad : List (Nat × Nat × Nat), ∃ s : State, ((s.active n = false ∨ (s.tenant n).step.phase ≠ .idle)) :=
  ⟨0, [], State.reset, by decide +kernel⟩

theorem test_TumblerMemoryComplete_1 : ∃ u : TumblerId, ∃ g : SlotId, ∃ w : IWord, ∃ c : Ctx, ∃ s : State, s.issues u g w ({ srcs := [(0, w.sa.toNat, 1)], dst := [(w.dst.toNat, memRegs (memSize w))] }) always c ∧ memLegal w false = true ∧ 4 ≤ memSize w ∧ ((s.localLanes c (memOffset w)).all fun x => localOk c.l (memSize w) x.2.2) = true ∧ w.dst.toNat + memRegs (memSize w) ≤ c.l.regs :=
  ⟨0, 0, word 8 6 0 0 2, ctx1 (word 8 6 0 0 2), withTumbler { tumbler1 with groups := [(0, { group1 with regs := [(192, 256), (193, 256), (224, 0)] })] }, by decide +kernel⟩

theorem test_TumblerMemoryComplete_2 : ∃ u : TumblerId, ∃ g : SlotId, ∃ w : IWord, ∃ c : Ctx, ∃ m : Member, ∃ k : Nat, ∃ s : State, s.issues u g w ({ srcs := [(0, w.sa.toNat, 1), (1, w.sb.toNat, memRegs (memSize w))], dst := [] }) always c ∧ memLegal w false = true ∧ c.ms = [m] ∧ lanesOf m.on = [k] ∧ ((s.localLanes c (memOffset w)).all fun x => localOk c.l (memSize w) x.2.2) = true ∧ (c.ms.all fun m => ((s.group? u m.slot).bind fun x => s.blockOf u x).isSome) = true :=
  ⟨0, 0, { word 0 6 4 0 2 with pred := 1 }, { ctx1 { word 0 6 4 0 2 with pred := 1 } with ms := [⟨0, 0, allLanes, 1⟩] }, ⟨0, 0, allLanes, 1⟩, 0, withTumbler { tumbler1 with groups := [(0, { group1 with preds := [(1, 1)], regs := [(128, 77), (192, 256)] })] }, by decide +kernel⟩

theorem test_TumblerMemoryComplete_3 : ∃ u : TumblerId, ∃ g : SlotId, ∃ w : IWord, ∃ c : Ctx, ∃ m : Member, ∃ k : Nat, ∃ old a b : Nat, ∃ s : State, s.issues u g w (atomForm w) always c ∧ atomLegal w = true ∧ atomSpace w = 1 ∧ c.ms = [m] ∧ lanesOf m.on = [k] ∧ localOk c.l (4 * atomRegs w) (s.wideOf u m.slot c.l.regs w.sa.toNat 2 k) = true ∧ (c.ms.all fun m => ((s.group? u m.slot).bind fun x => s.blockOf u x).isSome) = true ∧ w.dst.toNat + atomRegs w ≤ c.l.regs ∧ leNat (s.localBytes u m.slot (s.wideOf u m.slot c.l.regs w.sa.toNat 2 k) (4 * atomRegs w)) = old ∧ s.wideOf u m.slot c.l.regs w.sb.toNat (atomRegs w) k = a ∧ s.wideOf u m.slot c.l.regs w.sc.toNat (atomRegs w) k = b :=
  ⟨0, 0, { word 8 4 6 0 0x40 with pred := 1 }, { ctx1 { word 8 4 6 0 0x40 with pred := 1 } with ms := [⟨0, 0, allLanes, 1⟩] }, ⟨0, 0, allLanes, 1⟩, 0, 0, 7, 5, withTumbler { tumbler1 with groups := [(0, { group1 with preds := [(1, 1)], regs := [(0, 5), (128, 256), (192, 7)] })] }, by decide +kernel⟩

theorem test_TumblerMemoryComplete_4 : ∃ u : TumblerId, ∃ g : SlotId, ∃ w : IWord, ∃ c : Ctx, ∃ m : Member, ∃ k : Nat, ∃ s : State, s.issues u g w (atomForm w) (fun s c => s.clear c (s.accLanes c 0 (atomRegs w))) c ∧ atomLegal w = true ∧ atomSpace w = 0 ∧ c.ms = [m] ∧ lanesOf m.on = [k] ∧ (unsigned 64 ((s.wideOf u m.slot c.l.regs w.sa.toNat 2 k : Int) + 0)) % (4 * atomRegs w) = 0 ∧ ((s.fetched u g w (atomForm w) c).tlbFind (tumblerUnit u) c.l.tenant (unsigned 64 ((s.wideOf u m.slot c.l.regs w.sa.toNat 2 k : Int) + 0))).isNone = true :=
  ⟨0, 0, { word 8 4 6 0 0 with pred := 1 }, { ctx1 { word 8 4 6 0 0 with pred := 1 } with ms := [⟨0, 0, allLanes, 1⟩] }, ⟨0, 0, allLanes, 1⟩, 0, withTumbler { tumbler1 with groups := [(0, { group1 with preds := [(1, 1)], regs := [(128, 41943040), (192, 7)] })] }, by decide +kernel⟩

theorem test_TumblerMemoryComplete_5 : ∃ u : TumblerId, ∃ g : SlotId, ∃ w : IWord, ∃ c : Ctx, ∃ m : Member, ∃ k : Nat, ∃ s : State, s.issues u g w ({ srcs := [(0, w.sa.toNat, 2)], dst := [(w.dst.toNat, memRegs (memSize w))] }) (fun s c => s.clear c (s.accLanes c (memOffset w) (memRegs (memSize w)))) c ∧ memLegal w true = true ∧ c.ms = [m] ∧ lanesOf m.on = [k] ∧ (unsigned 64 ((s.wideOf u m.slot c.l.regs w.sa.toNat 2 k : Int) + memOffset w)) % memSize w = 0 ∧ ((s.fetched u g w ({ srcs := [(0, w.sa.toNat, 2)], dst := [(w.dst.toNat, memRegs (memSize w))] }) c).tlbFind (tumblerUnit u) c.l.tenant (unsigned 64 ((s.wideOf u m.slot c.l.regs w.sa.toNat 2 k : Int) + memOffset w))).isNone = true :=
  ⟨0, 0, { word 8 4 0 0 2 with pred := 1 }, { ctx1 { word 8 4 0 0 2 with pred := 1 } with ms := [⟨0, 0, allLanes, 1⟩] }, ⟨0, 0, allLanes, 1⟩, 0, withTumbler { tumbler1 with groups := [(0, { group1 with preds := [(1, 1)], regs := [(128, 41943040), (192, 7)] })] }, by decide +kernel⟩

theorem test_TumblerMemoryComplete_6 : ∃ u : TumblerId, ∃ g : SlotId, ∃ w : IWord, ∃ c : Ctx, ∃ m : Member, ∃ k : Nat, ∃ s : State, s.issues u g w ({ srcs := [(0, w.sa.toNat, 2), (1, w.sb.toNat, memRegs (memSize w))], dst := [] }) (fun s c => s.clear c (s.accLanes c (memOffset w) (memRegs (memSize w)))) c ∧ memLegal w true = true ∧ c.ms = [m] ∧ lanesOf m.on = [k] ∧ (unsigned 64 ((s.wideOf u m.slot c.l.regs w.sa.toNat 2 k : Int) + memOffset w)) % memSize w = 0 ∧ ((s.fetched u g w ({ srcs := [(0, w.sa.toNat, 2), (1, w.sb.toNat, memRegs (memSize w))], dst := [] }) c).tlbFind (tumblerUnit u) c.l.tenant (unsigned 64 ((s.wideOf u m.slot c.l.regs w.sa.toNat 2 k : Int) + memOffset w))).isNone = true :=
  ⟨0, 0, { word 0 4 6 0 2 with pred := 1 }, { ctx1 { word 0 4 6 0 2 with pred := 1 } with ms := [⟨0, 0, allLanes, 1⟩] }, ⟨0, 0, allLanes, 1⟩, 0, withTumbler { tumbler1 with groups := [(0, { group1 with preds := [(1, 1)], regs := [(128, 41943040), (192, 7)] })] }, by decide +kernel⟩

theorem test_TumblerMemoryComplete_7 : ∃ u : TumblerId, ∃ g : SlotId, ∃ w : IWord, ∃ c : Ctx, ∃ m : Member, ∃ k : Nat, ∃ e : Tlb, ∃ pa : Nat, ∃ s : State, s.issues u g w ({ srcs := [(0, w.sa.toNat, 2), (1, w.sb.toNat, memRegs (memSize w))], dst := [] }) (fun s c => s.clear c (s.accLanes c (memOffset w) (memRegs (memSize w)))) c ∧ memLegal w true = true ∧ w.mod.toNat.testBit 3 = true ∧ c.ms = [m] ∧ lanesOf m.on = [k] ∧ (unsigned 64 ((s.wideOf u m.slot c.l.regs w.sa.toNat 2 k : Int) + memOffset w)) % memSize w = 0 ∧ (s.fetched u g w ({ srcs := [(0, w.sa.toNat, 2), (1, w.sb.toNat, memRegs (memSize w))], dst := [] }) c).tlbFind (tumblerUnit u) c.l.tenant (unsigned 64 ((s.wideOf u m.slot c.l.regs w.sa.toNat 2 k : Int) + memOffset w)) = some e ∧ (s.fetched u g w ({ srcs := [(0, w.sa.toNat, 2), (1, w.sb.toNat, memRegs (memSize w))], dst := [] }) c).accessFault e (unsigned 64 ((s.wideOf u m.slot c.l.regs w.sa.toNat 2 k : Int) + memOffset w)) true false = .pa pa ∧ inWindow pa = true ∧ s.nearLine u c.l.id (pa / 256) = none :=
  ⟨0, 0, { word 0 4 6 0 10 with pred := 1 }, { ctx1 { word 0 4 6 0 10 with pred := 1 } with ms := [⟨0, 0, allLanes, 1⟩] }, ⟨0, 0, allLanes, 1⟩, 0, { tenant := 0, page := 1, frame := 196608, w := true, exec := true }, windowBase + 256, withTumbler { tumbler1 with groups := [(0, { group1 with preds := [(1, 1)], regs := [(128, 2097408), (192, 77)] })] }, by decide +kernel⟩

theorem test_TumblerMemoryComplete_8 : ∃ u : TumblerId, ∃ g : SlotId, ∃ w : IWord, ∃ c : Ctx, ∃ m : Member, ∃ k : Nat, ∃ d : Nat, ∃ s : State, s.issues u g w ({ srcs := [(0, w.sa.toNat, 2)], dst := [(w.dst.toNat, memRegs (memSize w))] }) (fun s c => s.poolFree u (remoteDrafts (s.remoteAccess c .remote (memSize w) (s.accLanes c 0 (memRegs (memSize w)))) tyRead 0).length) c ∧ remoteLegal w false = true ∧ c.ms = [m] ∧ lanesOf m.on = [k] ∧ (unsigned 64 ((s.wideOf u m.slot c.l.regs w.sa.toNat 2 k : Int) + 0)) % memSize w = 0 ∧ s.has F.fabStatusNodeValid = true ∧ s.wardDomain c.l.tenant (nodeOf (unsigned 64 ((s.wideOf u m.slot c.l.regs w.sa.toNat 2 k : Int) + 0))) (offsetOf (unsigned 64 ((s.wideOf u m.slot c.l.regs w.sa.toNat 2 k : Int) + 0))) (memSize w) tyRead = some d ∧ ((nodeOf (unsigned 64 ((s.wideOf u m.slot c.l.regs w.sa.toNat 2 k : Int) + 0)) = s.node ∨ (KMap.find (KMap.get s.fab.cached (engineOf u) []) (nodeOf (unsigned 64 ((s.wideOf u m.slot c.l.regs w.sa.toNat 2 k : Int) + 0)))).map (·.state) = some 0)) :=
  ⟨0, 0, { word 8 4 0 0 2 with pred := 1 }, { ctx1 { word 8 4 0 0 2 with pred := 1 } with ms := [⟨0, 0, allLanes, 1⟩] }, ⟨0, 0, allLanes, 1⟩, 0, 9, ((withWard (withTumbler { tumbler1 with groups := [(0, { group1 with preds := [(1, 1)], regs := [(128, 4096), (160, 0)] })] })).wr F.fabStatusNodeValid 1).wr F.fabNodeNode 0, by decide +kernel, by decide +kernel, by decide +kernel, by decide +kernel, by decide +kernel, by decide +kernel, by decide +kernel, by decide +kernel⟩

theorem test_TumblerMemoryComplete_9 : ∃ u : TumblerId, ∃ g : SlotId, ∃ w : IWord, ∃ c : Ctx, ∃ m : Member, ∃ k : Nat, ∃ d : Nat, ∃ s : State, s.issues u g w ({ srcs := [(0, w.sa.toNat, 2), (1, w.sb.toNat, memRegs (memSize w))], dst := [] }) (fun s c => s.poolFree u (remoteDrafts (s.remoteAccess c .remoteStore (memSize w) (s.accLanes c 0 (memRegs (memSize w)))) tyWrite 0).length) c ∧ remoteLegal w true = true ∧ remoteKind w = 0 ∧ c.ms = [m] ∧ lanesOf m.on = [k] ∧ (unsigned 64 ((s.wideOf u m.slot c.l.regs w.sa.toNat 2 k : Int) + 0)) % memSize w = 0 ∧ s.has F.fabStatusNodeValid = true ∧ s.wardDomain c.l.tenant (nodeOf (unsigned 64 ((s.wideOf u m.slot c.l.regs w.sa.toNat 2 k : Int) + 0))) (offsetOf (unsigned 64 ((s.wideOf u m.slot c.l.regs w.sa.toNat 2 k : Int) + 0))) (memSize w) tyWrite = some d ∧ ((nodeOf (unsigned 64 ((s.wideOf u m.slot c.l.regs w.sa.toNat 2 k : Int) + 0)) = s.node ∨ (KMap.find (KMap.get s.fab.cached (engineOf u) []) (nodeOf (unsigned 64 ((s.wideOf u m.slot c.l.regs w.sa.toNat 2 k : Int) + 0)))).map (·.state) = some 0)) :=
  ⟨0, 0, { word 0 4 6 0 2 with pred := 1 }, { ctx1 { word 0 4 6 0 2 with pred := 1 } with ms := [⟨0, 0, allLanes, 1⟩] }, ⟨0, 0, allLanes, 1⟩, 0, 9, ((withWard (withTumbler { tumbler1 with groups := [(0, { group1 with preds := [(1, 1)], regs := [(128, 4096), (160, 0), (192, 77)] })] })).wr F.fabStatusNodeValid 1).wr F.fabNodeNode 0, by decide +kernel, by decide +kernel, by decide +kernel, by decide +kernel, by decide +kernel, by decide +kernel, by decide +kernel, by decide +kernel, by decide +kernel⟩

theorem test_TumblerMemoryComplete_10 : ∃ u : TumblerId, ∃ k : Nat, ∃ a : Access, ∃ s : State, (s.tumbler u).acc[k]? = some a ∧ a.kind = .load ∧ a.walks = [] ∧ a.nc = true ∧ a.size ∈ [1, 2, 4, 8, 16] ∧ a.dst + memRegs a.size ≤ s.regLimit a.launch ∧ (a.lanes.map fun x => (x.slot, x.lane)).Nodup ∧ (∀ x ∈ a.lanes, x.lane < 32 ∧ inWindow x.pa = true ∧ x.pa % a.size = 0 ∧ s.poisoned x.pa a.size = false ∧ (s.group? u x.slot).map (·.launch) = some a.launch) :=
  ⟨0, 0, ⟨0, .load, 1, 0, true, 4, 8, [⟨0, 3, 2097152, windowBase, 0, 0⟩], 0, [], 0, []⟩, (withTumbler { tumbler1 with acc := [⟨0, .load, 1, 0, true, 4, 8, [⟨0, 3, 2097152, windowBase, 0, 0⟩], 0, [], 0, []⟩] }).write windowBase [9, 8, 7, 6], by decide +kernel⟩

theorem test_TumblerMemoryComplete_11 : ∃ k u p : Nat, ∃ a : Access, ∃ e : Tlb, ∃ s : State, s.allWalks[k]? = some (u, a, p) ∧ s.walk a.tenant (p * 2 ^ 21) = .entry e ∧ e.tenant = a.tenant ∧ inRun e.page e.span p = true ∧ a ∈ (s.tumbler u).acc :=
  ⟨0, 0, 5, ⟨0, .load, 1, 0, true, 4, 8, [⟨0, 3, 10485760, 0, 0, 0⟩], 0, [5], 0, []⟩, { tenant := 0, page := 5, frame := 196608, w := true, exec := false }, mapS (withTumbler { tumbler1 with acc := [⟨0, .load, 1, 0, true, 4, 8, [⟨0, 3, 10485760, 0, 0, 0⟩], 0, [5], 0, []⟩] }), by decide +kernel⟩

theorem test_LoadCut_1 : ∃ u : TumblerId, ∃ g : SlotId, ∃ w : IWord, ∃ s : State, s.pwr.cut = true :=
  ⟨0, 0, word 8 4 5 6 0, cutS, by decide +kernel⟩

theorem test_LoadCut_2 : ∃ u : TumblerId, ∃ g : SlotId, ∃ w : IWord, ∃ s : State, s.pwr.cut = true :=
  ⟨0, 0, word 8 4 5 6 0, cutS, by decide +kernel⟩

theorem test_LoadCut_3 : ∃ u : TumblerId, ∃ g : SlotId, ∃ w : IWord, ∃ s : State, s.pwr.cut = true :=
  ⟨0, 0, word 8 4 5 6 0, cutS, by decide +kernel⟩

theorem test_LoadCut_4 : ∃ u : TumblerId, ∃ g : SlotId, ∃ w : IWord, ∃ s : State, s.pwr.cut = true :=
  ⟨0, 0, word 8 4 5 6 0, cutS, by decide +kernel⟩

theorem test_LoadCut_5 : ∃ u : TumblerId, ∃ g : SlotId, ∃ w : IWord, ∃ s : State, s.pwr.cut = true :=
  ⟨0, 0, word 8 4 5 6 0, cutS, by decide +kernel⟩

theorem test_LoadCut_6 : ∃ u : TumblerId, ∃ g : SlotId, ∃ w : IWord, ∃ s : State, s.pwr.cut = true :=
  ⟨0, 0, word 8 4 5 6 0, cutS, by decide +kernel⟩

theorem test_LoadCut_7 : ∃ u : TumblerId, ∃ g : SlotId, ∃ w : IWord, ∃ s : State, s.pwr.cut = true :=
  ⟨0, 0, word 8 4 5 6 0, cutS, by decide +kernel⟩

theorem test_LoadCut_8 : ∃ u : TumblerId, ∃ g : SlotId, ∃ w : IWord, ∃ s : State, s.pwr.cut = true :=
  ⟨0, 0, word 8 4 5 6 0, cutS, by decide +kernel⟩

theorem test_LoadCut_9 : ∃ u : TumblerId, ∃ g : SlotId, ∃ w : IWord, ∃ s : State, s.pwr.cut = true :=
  ⟨0, 0, word 8 4 5 6 0, cutS, by decide +kernel⟩

theorem test_LoadCut_10 : ∃ u : TumblerId, ∃ g : SlotId, ∃ w : IWord, ∃ s : State, s.pwr.cut = true :=
  ⟨0, 0, word 8 4 5 6 0, cutS, by decide +kernel⟩

theorem test_LoadCut_11 : ∃ u : TumblerId, ∃ g : SlotId, ∃ w : IWord, ∃ s : State, s.pwr.cut = true :=
  ⟨0, 0, word 8 4 5 6 0, cutS, by decide +kernel⟩

theorem test_LoadCut_12 : ∃ u : TumblerId, ∃ g : SlotId, ∃ w : IWord, ∃ s : State, s.pwr.cut = true :=
  ⟨0, 0, word 8 4 5 6 0, cutS, by decide +kernel⟩

theorem test_LoadCut_13 : ∃ u : TumblerId, ∃ g : SlotId, ∃ w : IWord, ∃ s : State, s.pwr.cut = true :=
  ⟨0, 0, word 8 4 5 6 0, cutS, by decide +kernel⟩

theorem test_LoadCut_14 : ∃ u : TumblerId, ∃ g : SlotId, ∃ w : IWord, ∃ s : State, s.pwr.cut = true :=
  ⟨0, 0, word 8 4 5 6 0, cutS, by decide +kernel⟩

theorem test_LoadCut_15 : ∃ u : TumblerId, ∃ g : SlotId, ∃ w : IWord, ∃ s : State, s.pwr.cut = true :=
  ⟨0, 0, word 8 4 5 6 0, cutS, by decide +kernel⟩

theorem test_LoadCut_16 : ∃ u : TumblerId, ∃ g : SlotId, ∃ w : IWord, ∃ s : State, s.pwr.cut = true :=
  ⟨0, 0, word 8 4 5 6 0, cutS, by decide +kernel⟩

theorem test_LoadCut_17 : ∃ u : TumblerId, ∃ g : SlotId, ∃ w : IWord, ∃ s : State, s.pwr.cut = true :=
  ⟨0, 0, word 8 4 5 6 0, cutS, by decide +kernel⟩

theorem test_LoadCut_18 : ∃ u : TumblerId, ∃ g : SlotId, ∃ w : IWord, ∃ s : State, s.pwr.cut = true :=
  ⟨0, 0, word 8 4 5 6 0, cutS, by decide +kernel⟩

theorem test_LoadCut_19 : ∃ u : TumblerId, ∃ g : SlotId, ∃ w : IWord, ∃ s : State, s.pwr.cut = true :=
  ⟨0, 0, word 8 4 5 6 0, cutS, by decide +kernel⟩

theorem test_LoadCut_20 : ∃ u : TumblerId, ∃ g : SlotId, ∃ w : IWord, ∃ s : State, s.pwr.cut = true :=
  ⟨0, 0, word 8 4 5 6 0, cutS, by decide +kernel⟩

theorem test_LoadCut_21 : ∃ u : TumblerId, ∃ g : SlotId, ∃ w : IWord, ∃ s : State, s.pwr.cut = true :=
  ⟨0, 0, word 8 4 5 6 0, cutS, by decide +kernel⟩

theorem test_LoadCut_22 : ∃ u : TumblerId, ∃ g : SlotId, ∃ w : IWord, ∃ s : State, s.pwr.cut = true :=
  ⟨0, 0, word 8 4 5 6 0, cutS, by decide +kernel⟩

theorem test_LoadCut_23 : ∃ u : TumblerId, ∃ g : SlotId, ∃ w : IWord, ∃ s : State, s.pwr.cut = true :=
  ⟨0, 0, word 8 4 5 6 0, cutS, by decide +kernel⟩

theorem test_LoadCut_24 : ∃ u : TumblerId, ∃ g : SlotId, ∃ w : IWord, ∃ s : State, s.pwr.cut = true :=
  ⟨0, 0, word 8 4 5 6 0, cutS, by decide +kernel⟩

theorem test_LoadCut_25 : ∃ u : TumblerId, ∃ g : SlotId, ∃ w : IWord, ∃ s : State, s.pwr.cut = true :=
  ⟨0, 0, word 8 4 5 6 0, cutS, by decide +kernel⟩

theorem test_LoadCut_26 : ∃ u : TumblerId, ∃ g : SlotId, ∃ w : IWord, ∃ s : State, s.pwr.cut = true :=
  ⟨0, 0, word 8 4 5 6 0, cutS, by decide +kernel⟩

theorem test_LoadCut_27 : ∃ u : TumblerId, ∃ g : SlotId, ∃ w : IWord, ∃ s : State, s.pwr.cut = true :=
  ⟨0, 0, word 8 4 5 6 0, cutS, by decide +kernel⟩

theorem test_LoadCut_28 : ∃ u : TumblerId, ∃ g : SlotId, ∃ w : IWord, ∃ s : State, s.pwr.cut = true :=
  ⟨0, 0, word 8 4 5 6 0, cutS, by decide +kernel⟩

theorem test_LoadCut_29 : ∃ u : TumblerId, ∃ g : SlotId, ∃ w : IWord, ∃ s : State, s.pwr.cut = true :=
  ⟨0, 0, word 8 4 5 6 0, cutS, by decide +kernel⟩

theorem test_LoadCut_30 : ∃ u : TumblerId, ∃ g : SlotId, ∃ w : IWord, ∃ s : State, s.pwr.cut = true :=
  ⟨0, 0, word 8 4 5 6 0, cutS, by decide +kernel⟩

theorem test_LoadCut_31 : ∃ u : TumblerId, ∃ g : SlotId, ∃ w : IWord, ∃ s : State, s.pwr.cut = true :=
  ⟨0, 0, word 8 4 5 6 0, cutS, by decide +kernel⟩

theorem test_LoadCut_32 : ∃ s : State, s.arrayStops = true :=
  ⟨cutS, by decide +kernel⟩

theorem test_LoadCut_33 : ∃ s : State, s.arrayStops = true :=
  ⟨cutS, by decide +kernel⟩

theorem test_LoadCut_34 : ∃ s : State, s.arrayStops = true :=
  ⟨cutS, by decide +kernel⟩

theorem test_LoadCut_35 : ∃ s : State, s.arrayStops = true :=
  ⟨cutS, by decide +kernel⟩

theorem test_LoadCut_36 : ∃ s : State, s.arrayStops = true :=
  ⟨cutS, by decide +kernel⟩

theorem test_LoadCut_37 : ∃ s : State, s.arrayStops = true :=
  ⟨cutS, by decide +kernel⟩

theorem test_LoadCut_38 : ∃ s : State, s.arrayStops = true :=
  ⟨cutS, by decide +kernel⟩

theorem test_LoadCut_39 : ∃ s : State, s.arrayStops = true :=
  ⟨cutS, by decide +kernel⟩

theorem test_LoadCut_40 : ∃ s : State, s.arrayStops = true :=
  ⟨cutS, by decide +kernel⟩

theorem test_LoadCut_41 : ∃ s : State, s.arrayStops = true :=
  ⟨cutS, by decide +kernel⟩

theorem test_LoadCut_42 : ∃ s : State, s.arrayStops = true :=
  ⟨cutS, by decide +kernel⟩

theorem test_LoadCut_43 : ∃ q : RingSel, ∃ es : List (List Byte), ∃ ok : Bool, ∃ s : State, s.pwr.cut = true :=
  ⟨.admin, [], true, cutS, by decide +kernel⟩

theorem test_LoadCut_44 : ∃ q : RingSel, ∃ ok : Bool, ∃ s : State, s.pwr.cut = true :=
  ⟨.admin, true, cutS, by decide +kernel⟩

theorem test_LoadCut_45 : ∃ q : QuadId, ∃ k : Nat, ∃ f : List Finding, ∃ gs : List (List Byte), ∃ s : State, s.pwr.cut = true :=
  ⟨0, 0, [], [], cutS, by decide +kernel⟩

theorem test_LoadCut_46 : ∃ q : QuadId, ∃ k : Nat, ∃ f : List Finding, ∃ gs : List (List Byte), ∃ s : State, s.pwr.cut = true :=
  ⟨0, 0, [], [], cutS, by decide +kernel⟩

theorem test_LoadCut_47 : ∃ g : Nat, ∃ f : Finding, ∃ gs : List (List Byte), ∃ s : State, s.pwr.cut = true :=
  ⟨0, .sound, [], cutS, by decide +kernel⟩

theorem test_LoadCut_48 : ∃ n : TenantId, ∃ l : Fin 3, ∃ z : Option (List Byte), ∃ ok : Bool, ∃ s : State, s.pwr.cut = true :=
  ⟨0, 0, none, true, { drainS [drain0 1 0] with pwr := { State.reset.pwr with cut := true } }, by decide +kernel⟩

end Sys2Proof.Tests
end

section
/-! PROOFS. One step of the block: every command answers a next state, which keeps what `Good` gathers. -/

namespace Sys2Proof.Machine

variable {s : State}

/-! ### Every command answers a next state -/

theorem execArrayClockHold_next (s : State) : ∃ t, execArrayClockHold s = .next t := by
  unfold execArrayClockHold
  split <;> exact ⟨_, rfl⟩

theorem execDeferredDividerChange_next (s : State) : ∃ t, execDeferredDividerChange s = .next t := by
  unfold execDeferredDividerChange
  split
  · split <;> exact ⟨_, rfl⟩
  · exact ⟨_, rfl⟩

theorem execRefAutoTimeout_next (s : State) : ∃ t, execRefAutoTimeout s = .next t := by
  unfold execRefAutoTimeout
  split <;> exact ⟨_, rfl⟩

theorem execHeldVectorRelease_next (ctl : MsixCtl) (vec : Fin 2048) (s : State) :
    ∃ t, execHeldVectorRelease ctl vec s = .next t := by
  unfold execHeldVectorRelease
  dsimp only
  split <;> exact ⟨_, rfl⟩

theorem execInterruptTaken_next (core : Option (Fin 8)) (s : State) : ∃ t, execInterruptTaken core s = .next t := by
  unfold execInterruptTaken
  split <;> exact ⟨_, rfl⟩

/-- No command ends in a fault or a refusal: the five whose meaning branches before it answers stand above, and the
meaning of every other is a next state as it is written. -/
theorem exec_next (i : Instr) (s : State) : ∃ t, exec i s = .next t := by
  cases i
  case arrayClockHold => exact execArrayClockHold_next s
  case deferredDividerChange => exact execDeferredDividerChange_next s
  case refAutoTimeout => exact execRefAutoTimeout_next s
  case heldVectorRelease ctl vec => exact execHeldVectorRelease_next ctl vec s
  case interruptTaken core => exact execInterruptTaken_next core s
  all_goals exact ⟨_, rfl⟩

/-! ### Every command keeps what `Good` gathers -/

/-- The dispatch keeps what each command's own meaning keeps, arm by arm. -/
theorem exec_good {o : Origin} (h : Good o s) (i : Instr) : GoodOut o (exec i s) :=
  match i with
  | .registerWrite .. => execRegisterWrite_good h
  | .bar0UnsupportedRequest _ _ _ w => execBar0UnsupportedRequest_good (a4 := w) h
  | .lowHalfRead .. => execLowHalfRead_good h
  | .highHalfRead .. => execHighHalfRead_good h
  | .lowHalfWrite .. => execLowHalfWrite_good h
  | .highHalfWrite .. => execHighHalfWrite_good h
  | .markerForward .. => execMarkerForward_good h
  | .clkHostRequest .. => execClkHostRequest_good h
  | .clkFwRequest .. => execClkFwRequest_good h
  | .arrayClockHold => execArrayClockHold_good h
  | .arrayClockResume => execArrayClockResume_good h
  | .deferredDividerChange => execDeferredDividerChange_good h
  | .refLost => execRefLost_good h
  | .refReturn => execRefReturn_good h
  | .pllRelock => execPllRelock_good h
  | .pllUnlock => execPllUnlock_good h
  | .holdoverDeadline => execHoldoverDeadline_good h
  | .refHostPresent => execRefHostPresent_good h
  | .refAutoTimeout => execRefAutoTimeout_good h
  | .moduleRailRelease .. => execModuleRailRelease_good h
  | .pllLock => execPllLock_good h
  | .pllLockTimeout => execPllLockTimeout_good h
  | .domainRelease .. => execDomainRelease_good h
  | .aissue .. => execAissue_good h
  | .arrayDescriptorAccept => execArrayDescriptorAccept_good h
  | .operationStart => execOperationStart_good h
  | .arrayOperandArrival => execArrayOperandArrival_good h
  | .cellTailEnd => execCellTailEnd_good h
  | .drainStart => execDrainStart_good h
  | .drainEnd => execDrainEnd_good h
  | .completionWordAccepted => execCompletionWordAccepted_good h
  | .chainWaitExpiry => execChainWaitExpiry_good h
  | .chainSpillEnd => execChainSpillEnd_good h
  | .chainFillEnd => execChainFillEnd_good h
  | .arraySequencerReady => execArraySequencerReady_good h
  | .samplePoint => execSamplePoint_good h
  | .sampleFinish => execSampleFinish_good h
  | .amaxReport => execAmaxReport_good h
  | .poisonSource => execPoisonSource_good h
  | .rissue .. => execRissue_good h
  | .rowDescriptorAccept => execRowDescriptorAccept_good h
  | .rowOperationStart .. => execRowOperationStart_good h
  | .rowChunkStart .. => execRowChunkStart_good h
  | .rowChunkEnd .. => execRowChunkEnd_good h
  | .rowOperationEnd .. => execRowOperationEnd_good h
  | .spindleReady => execSpindleReady_good h
  | .stepOpen .. => execStepOpen_good h
  | .stepCommit .. => execStepCommit_good h
  | .updateStart .. => execUpdateStart_good h
  | .updateResume .. => execUpdateResume_good h
  | .optimiserPassEnd .. => execOptimiserPassEnd_good h
  | .quantiserPassEnd .. => execQuantiserPassEnd_good h
  | .commitPoint .. => execCommitPoint_good h
  | .stepCancel .. => execStepCancel_good h
  | .updateEngineReady => execUpdateEngineReady_good h
  | .iadd .. => execIadd_good h
  | .isub .. => execIsub_good h
  | .imul .. => execImul_good h
  | .imad .. => execImad_good h
  | .imin .. => execImin_good h
  | .imax .. => execImax_good h
  | .ishl .. => execIshl_good h
  | .ishr .. => execIshr_good h
  | .and .. => execAnd_good h
  | .or .. => execOr_good h
  | .xor .. => execXor_good h
  | .not .. => execNot_good h
  | .mov .. => execMov_good h
  | .sel .. => execSel_good h
  | .icmp .. => execIcmp_good h
  | .popc .. => execPopc_good h
  | .shfl .. => execShfl_good h
  | .vote .. => execVote_good h
  | .sreg .. => execSreg_good h
  | .movi .. => execMovi_good h
  | .fadd .. => execFadd_good h
  | .fmul .. => execFmul_good h
  | .ffma .. => execFfma_good h
  | .fmin .. => execFmin_good h
  | .fmax .. => execFmax_good h
  | .fcmp .. => execFcmp_good h
  | .fdiv .. => execFdiv_good h
  | .fsqrt .. => execFsqrt_good h
  | .frsq .. => execFrsq_good h
  | .fexp2 .. => execFexp2_good h
  | .flog2 .. => execFlog2_good h
  | .fabs .. => execFabs_good h
  | .bra .. => execBra_good h
  | .call .. => execCall_good h
  | .ret .. => execRet_good h
  | .exit .. => execExit_good h
  | .nop .. => execNop_good h
  | .fenceGroup .. => execFenceGroup_good h
  | .fenceBlock .. => execFenceBlock_good h
  | .fenceDevice .. => execFenceDevice_good h
  | .fenceSystem .. => execFenceSystem_good h
  | .ldl .. => execLdl_good h
  | .stl .. => execStl_good h
  | .ld .. => execLd_good h
  | .st .. => execSt_good h
  | .loadReturn .. => execLoadReturn_good h
  | .tableWalkEnd .. => execTableWalkEnd_good h
  | .ldr .. => execLdr_good h
  | .str .. => execStr_good h
  | .twait .. => execTwait_good h
  | .tokenCompletion .. => execTokenCompletion_good h
  | .cvt .. => execCvt_good h
  | .qblk .. => execQblk_good h
  | .rand .. => execRand_good h
  | .atom .. => execAtom_good h
  | .barg .. => execBarg_good h
  | .barm .. => execBarm_good h
  | .barb .. => execBarb_good h
  | .spoison .. => execSpoison_good h
  | .barrierWatchdogExpiry .. => execBarrierWatchdogExpiry_good h
  | .repackWaitExpiry .. => execRepackWaitExpiry_good h
  | .blockPlace .. => execBlockPlace_good h
  | .launchComplete .. => execLaunchComplete_good h
  | .launchStop .. => execLaunchStop_good h
  | .blockPreempt .. => execBlockPreempt_good h
  | .blockResume .. => execBlockResume_good h
  | .tumblerReady .. => execTumblerReady_good h
  | .translationMarker .. => execTranslationMarker_good h
  | .isolationMarker .. => execIsolationMarker_good h
  | .slicemapWrite .. => execSlicemapWrite_good h
  | .slicemapChangeEnd => execSlicemapChangeEnd_good h
  | .partitionApply => execPartitionApply_good h
  | .partitionApplyEnd => execPartitionApplyEnd_good h
  | .lineFillEnd .. => execLineFillEnd_good h
  | .writebackAccepted .. => execWritebackAccepted_good h
  | .reductionRequest .. => execReductionRequest_good h
  | .reductionExecute .. => execReductionExecute_good h
  | .evictionLockRelease .. => execEvictionLockRelease_good h
  | .cstWriteBack => execCstWriteBack_good h
  | .cstFlush => execCstFlush_good h
  | .cstDeadMark => execCstDeadMark_good h
  | .cstPin => execCstPin_good h
  | .cstUnpin => execCstUnpin_good h
  | .rangeOpEnd => execRangeOpEnd_good h
  | .storeScrub .. => execStoreScrub_good h
  | .deadReadsClear .. => execDeadReadsClear_good h
  | .storeReady .. => execStoreReady_good h
  | .hbmTrainingEnd .. => execHbmTrainingEnd_good h
  | .hbmInitGo => execHbmInitGo_good h
  | .hbmInitEnd => execHbmInitEnd_good h
  | .protectionClassChange .. => execProtectionClassChange_good h
  | .hbmScrubRead .. => execHbmScrubRead_good h
  | .scrubPassEnd => execScrubPassEnd_good h
  | .hbmTempRead .. => execHbmTempRead_good h
  | .mapoutGo .. => execMapoutGo_good h
  | .relayoutEnd .. => execRelayoutEnd_good h
  | .frozenStageEnd .. => execFrozenStageEnd_good h
  | .frozenRestoreCopyEnd => execFrozenRestoreCopyEnd_good h
  | .alloc .. => execAlloc_good h
  | .free .. => execFree_good h
  | .query .. => execQuery_good h
  | .constrain .. => execConstrain_good h
  | .frozenLoad .. => execFrozenLoad_good h
  | .boundaryWork .. => execBoundaryWork_good h
  | .flitReceive .. => execFlitReceive_good h
  | .portTrainingEnd .. => execPortTrainingEnd_good h
  | .authFragment .. => execAuthFragment_good h
  | .swHello .. => execSwHello_good h
  | .swDone .. => execSwDone_good h
  | .authAbort .. => execAuthAbort_good h
  | .authTimeout .. => execAuthTimeout_good h
  | .inboundRead .. => execInboundRead_good h
  | .inboundWrite .. => execInboundWrite_good h
  | .inboundReduce .. => execInboundReduce_good h
  | .inboundAtomic .. => execInboundAtomic_good h
  | .inboundSignal .. => execInboundSignal_good h
  | .inboundMcastWrite .. => execInboundMcastWrite_good h
  | .readRsp .. => execReadRsp_good h
  | .ack .. => execAck_good h
  | .atomicRsp .. => execAtomicRsp_good h
  | .nack .. => execNack_good h
  | .nodeAssign .. => execNodeAssign_good h
  | .announce .. => execAnnounce_good h
  | .peerMarker .. => execPeerMarker_good h
  | .teardown .. => execTeardown_good h
  | .feedAlert .. => execFeedAlert_good h
  | .partner .. => execPartner_good h
  | .sfWard .. => execSfWard_good h
  | .remoteTimeout .. => execRemoteTimeout_good h
  | .atomicRetry .. => execAtomicRetry_good h
  | .outcomeUnknown .. => execOutcomeUnknown_good h
  | .receiptExpiry .. => execReceiptExpiry_good h
  | .transfer .. => execTransfer_good h
  | .transferEnd .. => execTransferEnd_good h
  | .fabricReady => execFabricReady_good h
  | .barActivate .. => execBarActivate_good h
  | .barMembers .. => execBarMembers_good h
  | .barClose .. => execBarClose_good h
  | .barrierTimeout .. => execBarrierTimeout_good h
  | .synReady => execSynReady_good h
  | .sqTailWrite .. => execSqTailWrite_good h
  | .sqFetchEnd .. => execSqFetchEnd_good h
  | .cqHeadWrite .. => execCqHeadWrite_good h
  | .completionRecordWrite .. => execCompletionRecordWrite_good h
  | .ringResume .. => execRingResume_good h
  | .ringFlush .. => execRingFlush_good h
  | .faultHeadWrite .. => execFaultHeadWrite_good h
  | .nopCommand .. => execNopCommand_good h
  | .launch .. => execLaunch_good h
  | .hostCopy .. => execHostCopy_good h
  | .wait .. => execWait_good h
  | .waitTimeout .. => execWaitTimeout_good h
  | .signal .. => execSignal_good h
  | .numericPolicy .. => execNumericPolicy_good h
  | .deadMark .. => execDeadMark_good h
  | .abort .. => execAbort_good h
  | .tenantCreate .. => execTenantCreate_good h
  | .tenantReset .. => execTenantReset_good h
  | .cqCreate => execCqCreate_good h
  | .sqCreate => execSqCreate_good h
  | .ringDelete => execRingDelete_good h
  | .wardUpdate .. => execWardUpdate_good h
  | .tenantAbort => execTenantAbort_good h
  | .adminDoorbell .. => execAdminDoorbell_good h
  | .adminRingEnable .. => execAdminRingEnable_good h
  | .adminResume => execAdminResume_good h
  | .adminFlush => execAdminFlush_good h
  | .bar4Access .. => execBar4Access_good h
  | .configRetryEnd => execConfigRetryEnd_good h
  | .hostLinkDown => execHostLinkDown_good h
  | .hostLinkUp .. => execHostLinkUp_good h
  | .linkHoldExpiry => execLinkHoldExpiry_good h
  | .pcieReset k _ => execPcieReset_good (a1 := k) h
  | .raise a _ => execRaise_good (a1 := a) h
  | .maskSet .. => execMaskSet_good h
  | .maskClr .. => execMaskClr_good h
  | .pendSet .. => execPendSet_good h
  | .pendClr .. => execPendClr_good h
  | .interruptDelivery .. => execInterruptDelivery_good h
  | .heldVectorRelease .. => execHeldVectorRelease_good h
  | .icuReady => execIcuReady_good h
  | .checkStart .. => execCheckStart_good h
  | .checkFinish .. => execCheckFinish_good h
  | .checkAbort .. => execCheckAbort_good h
  | .checkOwnerAssign .. => execCheckOwnerAssign_good h
  | .feedB .. => execFeedB_good h
  | .feedH .. => execFeedH_good h
  | .feedW .. => execFeedW_good h
  | .checkFeedProcess .. => execCheckFeedProcess_good h
  | .checkComplete .. => execCheckComplete_good h
  | .healthInput .. => execHealthInput_good h
  | .riskHoldExpiry .. => execRiskHoldExpiry_good h
  | .secureRequest .. => execSecureRequest_good h
  | .securingStart .. => execSecuringStart_good h
  | .drainBlockEnd .. => execDrainBlockEnd_good h
  | .drainWaitExpiry .. => execDrainWaitExpiry_good h
  | .restoreGo .. => execRestoreGo_good h
  | .restoreStepEnd .. => execRestoreStepEnd_good h
  | .journalRecordRequest .. => execJournalRecordRequest_good h
  | .coalesceExpiry .. => execCoalesceExpiry_good h
  | .journalCopyAVerified .. => execJournalCopyAVerified_good h
  | .journalRecordCommitted .. => execJournalRecordCommitted_good h
  | .journalScrub .. => execJournalScrub_good h
  | .durableStoreStart => execDurableStoreStart_good h
  | .wearBudgetUpdate => execWearBudgetUpdate_good h
  | .powerSample .. => execPowerSample_good h
  | .inputLow => execInputLow_good h
  | .inputHigh => execInputHigh_good h
  | .droopWarning => execDroopWarning_good h
  | .droopRecovery => execDroopRecovery_good h
  | .resetLevel => execResetLevel_good h
  | .resetRecordsComplete => execResetRecordsComplete_good h
  | .inputStable => execInputStable_good h
  | .holdupCharged => execHoldupCharged_good h
  | .holdupTestEnd .. => execHoldupTestEnd_good h
  | .holdupRetest .. => execHoldupRetest_good h
  | .railPowerGood => execRailPowerGood_good h
  | .railTimeout => execRailTimeout_good h
  | .railRetry => execRailRetry_good h
  | .railsDown => execRailsDown_good h
  | .pwrEnOpen => execPwrEnOpen_good h
  | .bootStage .. => execBootStage_good h
  | .trialExpiry => execTrialExpiry_good h
  | .keeperWatchdogExpiry => execKeeperWatchdogExpiry_good h
  | .entropyFail => execEntropyFail_good h
  | .mbxGo .. => execMbxGo_good h
  | .status => execStatus_good h
  | .measure => execMeasure_good h
  | .certGet => execCertGet_good h
  | .attest .. => execAttest_good h
  | .extend => execExtend_good h
  | .stage .. => execStage_good h
  | .activate => execActivate_good h
  | .confirm => execConfirm_good h
  | .anchorSet => execAnchorSet_good h
  | .debugToken .. => execDebugToken_good h
  | .grant => execGrant_good h
  | .revoke => execRevoke_good h
  | .wardWrite => execWardWrite_good h
  | .domainSet => execDomainSet_good h
  | .frozenDigest => execFrozenDigest_good h
  | .frozenRestore => execFrozenRestore_good h
  | .snapGo a => execSnapGo_good (a1 := a) h
  | .snapshotMarker .. => execSnapshotMarker_good h
  | .snapshotComplete => execSnapshotComplete_good h
  | .telemetryPeriod .. => execTelemetryPeriod_good h
  | .strapCompare .. => execStrapCompare_good h
  | .thermalRead .. => execThermalRead_good h
  | .thermalReliefExpiry => execThermalReliefExpiry_good h
  | .coolDownExpiry => execCoolDownExpiry_good h
  | .setEndpointId .. => execSetEndpointId_good h
  | .getEndpointId .. => execGetEndpointId_good h
  | .getEndpointUuid .. => execGetEndpointUuid_good h
  | .getMctpVersionSupport .. => execGetMctpVersionSupport_good h
  | .getMessageTypeSupport .. => execGetMessageTypeSupport_good h
  | .getVendorMessageSupport .. => execGetVendorMessageSupport_good h
  | .settid .. => execSettid_good h
  | .gettid .. => execGettid_good h
  | .getpldmversion .. => execGetpldmversion_good h
  | .getpldmtypes .. => execGetpldmtypes_good h
  | .getpldmcommands .. => execGetpldmcommands_good h
  | .getpdrrepositoryinfo .. => execGetpdrrepositoryinfo_good h
  | .getpdr .. => execGetpdr_good h
  | .getsensorreading .. => execGetsensorreading_good h
  | .getstatesensorreadings .. => execGetstatesensorreadings_good h
  | .pollforplatformeventmessage .. => execPollforplatformeventmessage_good h
  | .telemetryGet .. => execTelemetryGet_good h
  | .powerStatus .. => execPowerStatus_good h
  | .strapsGet .. => execStrapsGet_good h
  | .unsupportedSidebandMessage .. => execUnsupportedSidebandMessage_good h
  | .minClear => execMinClear_good h
  | .pwrEnClose => execPwrEnClose_good h
  | .inputNormal => execInputNormal_good h
  | .hbmRefresh _ b => execHbmRefresh_good (a2 := b) h
  | .interruptTaken .. => execInterruptTaken_good h
  | .bucketRefill => execBucketRefill_good h
  | .hostCopyEnd .. => execHostCopyEnd_good h
  | .frozenLoadEnd .. => execFrozenLoadEnd_good h
  | .classChangeEnd => execClassChangeEnd_good h
  | .dynamicAddressAssignment .. => execDynamicAddressAssignment_good h

/-! ### A step -/

/-- The origin of a command that runs on `s`. -/
def State.origin (s : State) : Origin := { pending := s.pending, out := s.out, fuses := s.keeper.fuses }

/-- A state in canonical form is good for its own origin. -/
theorem State.Canonical.good (h : s.Canonical) : Good s.origin s :=
  { pending := rfl, out := ⟨[], rfl⟩, regs := h.1, mem := h.2, fuses := Fuses.kept_refl _ }

theorem Good.canonical {o : Origin} (h : Good o s) : s.Canonical := ⟨h.regs, h.mem⟩

theorem step_of_idle (h : s.pending = []) : step s = .next s := by
  unfold step
  rw [h]

theorem step_of_pending {c : Instr} {cs : List Instr} (h : s.pending = c :: cs) :
    step s = exec c { s with pending := cs } := by
  unfold step
  rw [h]

/-- A command run on a state in canonical form leaves a state in canonical form. -/
theorem exec_canonical (h : s.Canonical) (i : Instr) : ∃ t, exec i s = .next t ∧ t.Canonical := by
  obtain ⟨t, ht⟩ := exec_next i s
  exact ⟨t, ht, (exec_good h.good i t ht).canonical⟩

end Sys2Proof.Machine
end

section
/-! PROOFS. Accesses to BAR0 and markers of the command tree: what each meaning does where its conditions hold. -/

namespace Sys2Proof.Machine

variable {s : State} {a : Agent} {off : Nat} {r : Reg}

/-! ### Typed writes (R8) -/

/-- What an agent's write leaves in a register: the bits that take the write are set, the W1C bits written as 1
cleared. -/
def State.written (s : State) (a : Agent) (r : Reg) (v part : DWord) : DWord :=
  ((s.reg r &&& ~~~ (s.setMask a r &&& part)) ||| (v &&& (s.setMask a r &&& part))) &&& ~~~ (v &&& clearMask a r &&& part)

/-- The bits that take a write depend on the registers alone. -/
theorem State.setMask_congr {t : State} (h : t.regs = s.regs) (a : Agent) (r : Reg) : t.setMask a r = s.setMask a r := by
  have hsrc : t.sourceOwner = s.sourceOwner := by
    funext n
    simp only [State.sourceOwner, State.rd_congr h]
  have hchk : t.chkOwner = s.chkOwner := by
    funext u
    simp only [State.chkOwner, State.rd_congr h]
  unfold State.setMask
  rw [hsrc, hchk]

theorem State.written_congr {t : State} (h : t.regs = s.regs) (a : Agent) (r : Reg) (v part : DWord) :
    t.written a r v part = s.written a r v part := by
  simp only [State.written, State.reg_congr h, State.setMask_congr h]

/-- A write of a register with no rule of its own is a typed write. -/
theorem State.writeReg_eq (hc : channelReg r = false) (ho : r.own = false) (v part : DWord) :
    s.writeReg a r v part = s.setReg r (s.written a r v part) := by
  unfold State.writeReg
  rw [hc]
  split
  · contradiction
  · dsimp only
    split
    · simp [Reg.own] at ho
    · rfl

theorem State.writeWide_eq (hc : channelReg r = false) (ho : r.own = false) (v part : DWord) :
    s.writeWide a r v part = s.setReg r (s.written a r v part) := by
  unfold State.writeWide
  split
  · simp [Reg.own] at ho
  · exact State.writeReg_eq hc ho v part

/-- A 32-bit write of a 32-bit register. -/
theorem State.registerWrite_eq (hf : Reg.find off = some r) (hw : r.wide = false) (hc : channelReg r = false)
    (ho : r.own = false) (hu : s.unsupported a off 4 = false) (v : DWord) :
    s.registerWrite a off false v =
      { s.setReg r (s.written a r ((v.setWidth 32).setWidth 64) 0xFFFFFFFF) with resp := .none } := by
  have hword : s.writeWord a off (v.setWidth 32) = s.setReg r (s.written a r ((v.setWidth 32).setWidth 64) 0xFFFFFFFF) := by
    simp [State.writeWord, hf, hw, State.writeReg_eq hc ho]
  simp [State.registerWrite, hu, hword]

/-! ### Half accesses (R11) -/

theorem findHalf_cons_same (a : Agent) (base : Nat) (v : Word) (xs : List (Agent × Nat × Word)) :
    findHalf ((a, base, v) :: xs) a base = some v := by
  simp [findHalf]

/-- With the entries of a requester and a register taken out, none is found. -/
theorem findHalf_filter_out (a : Agent) (base : Nat) (xs : List (Agent × Nat × Word)) :
    findHalf (xs.filter fun x => !(x.1 == a && x.2.1 == base)) a base = none := by
  simp only [findHalf, Option.map_eq_none_iff, List.find?_eq_none]
  intro x hx
  simpa only [Bool.not_eq_true, Bool.not_eq_true'] using (List.mem_filter.1 hx).2

@[simp] theorem State.touch_regs (base : Nat) : (s.touch a base).regs = s.regs := rfl

theorem State.touch_latches (base : Nat) : findHalf (s.touch a base).latches a base = none := findHalf_filter_out _ _ _

theorem State.lowHalfRead_eq (hf : Reg.find off = some r) (hw : r.wide = true) (hu : s.unsupported a off 4 = false) :
    s.lowHalfRead a off =
      { s.touch a off with
        resp := .data ((lowHalf (s.readReg a r)).setWidth 64), free := s.free + 1,
        latches := (a, off, highHalf (s.readReg a r)) :: (s.touch a off).latches } := by
  unfold State.lowHalfRead
  rw [hu, hf]
  exact if_pos hw

/-- A high-half read with the half latched returns it. -/
theorem State.highHalfRead_eq {v : Word} (hb : regBase off = some r) (hu : s.unsupported a off 4 = false)
    (hl : findHalf s.latches a (off - 4) = some v) :
    s.highHalfRead a off = { s.touch a (off - 4) with resp := .data (v.setWidth 64), free := s.free + 1 } := by
  unfold State.highHalfRead
  rw [hu, hb, hl]
  rfl

theorem State.lowHalfWrite_eq (hf : Reg.find off = some r) (hw : r.wide = true) (hu : s.unsupported a off 4 = false)
    (v : Word) :
    s.lowHalfWrite a off v =
      { s.touch a off with lowHeld := (a, off, v) :: (s.touch a off).lowHeld, resp := .none } := by
  simp [State.lowHalfWrite, hf, hw, hu]

/-- A high-half write with a low half held writes both halves. -/
theorem State.highHalfWrite_eq {lo : Word} (hb : regBase off = some r) (hw : r.wide = true) (hoff : r.offset + 4 = off)
    (hu : s.unsupported a off 4 = false) (hl : findHalf s.lowHeld a (off - 4) = some lo) (v : Word) :
    s.highHalfWrite a off v =
      { (s.touch a (off - 4)).writeWide a r (joinHalves v lo) (BitVec.allOnes 64) with resp := .none } := by
  simp [State.highHalfWrite, hb, hw, hoff, hu, hl]

/-- A write that covers the whole register. -/
theorem State.written_allOnes (v : DWord) :
    s.written a r v (BitVec.allOnes 64) =
      ((s.reg r &&& ~~~ (s.setMask a r)) ||| (v &&& s.setMask a r)) &&& ~~~ (v &&& clearMask a r) := by
  simp only [State.written, BitVec.and_allOnes]

/-! ### Unsupported Requests and markers (R10, R19) -/

theorem State.unsupportedRequest_eq {size : Nat} (hu : s.unsupported a off size = true) :
    s.unsupportedRequest a off size = { s with resp := .unsupported } := by
  simp [State.unsupportedRequest, hu]

theorem State.inbox_popMsg (s : State) (u : Nat) : (s.popMsg u).inbox u = (s.inbox u).tail :=
  KMap.get_set_same _ _ _ _

/-- A marker first at a unit with nothing under way leaves it for the tree. -/
theorem State.markerForward_idle {u k x : Nat} {rest : List TreeMsg} (hi : s.inbox u = .marker k x :: rest)
    (hb : s.busyAt u = false) : s.markerForward u = (s.popMsg u).emit (.marker u k x) := by
  simp [State.markerForward, hi, hb]

/-- A marker waits at a unit that has an operation under way. -/
theorem State.markerForward_busy {u k x : Nat} {rest : List TreeMsg} (hi : s.inbox u = .marker k x :: rest)
    (hb : s.busyAt u = true) : s.markerForward u = s := by
  simp [State.markerForward, hi, hb]

end Sys2Proof.Machine
end

section
/-! PROOFS. The statement about register accesses. -/

open Sys2Proof Sys2Proof.Machine

/-- Settles O1: each clause runs its command to the state that the access's own lemma names, and reads that state. -/
theorem registerAccessesFollowTheirTypes : Obligations.RegisterAccessesFollowTheirTypes := by
  unfold Obligations.RegisterAccessesFollowTheirTypes
  refine ⟨?typedWrite, ?unsupported, ?lowRead, ?highRead, ?lowWrite, ?highWrite, ?forwarded, ?waits⟩
  case typedWrite =>
    intro a off v r s hf hw hc ho hu
    refine ⟨_, rfl, ?_⟩
    rw [State.registerWrite_eq hf hw hc ho hu]
    exact ⟨State.reg_setReg_same _ _ _, fun q hq => State.reg_setReg_ne _ _ hq, rfl, rfl⟩
  case unsupported =>
    intro a off size w s hu
    exact ⟨_, rfl, State.unsupportedRequest_eq hu⟩
  case lowRead =>
    intro a off r s hf hw hu
    refine ⟨_, rfl, ?_⟩
    rw [State.lowHalfRead_eq hf hw hu]
    exact ⟨rfl, findHalf_cons_same _ _ _ _, rfl⟩
  case highRead =>
    intro a off r v s hb hu hl
    refine ⟨_, rfl, ?_⟩
    rw [State.highHalfRead_eq hb hu hl]
    exact ⟨rfl, State.touch_latches _, rfl⟩
  case lowWrite =>
    intro a off v r s hf hw hu
    refine ⟨_, rfl, ?_⟩
    rw [State.lowHalfWrite_eq hf hw hu]
    exact ⟨findHalf_cons_same _ _ _ _, rfl⟩
  case highWrite =>
    intro a off v lo r s hb hw hoff hc ho hu hl
    refine ⟨_, rfl, ?_⟩
    rw [State.highHalfWrite_eq hb hw hoff hu hl, State.writeWide_eq hc ho, ← State.written_allOnes]
    exact (State.reg_setReg_same _ _ _).trans (State.written_congr (State.touch_regs _) _ _ _ _)
  case forwarded =>
    intro u k x rest s hi hb
    refine ⟨_, rfl, ?_⟩
    rw [State.markerForward_idle hi hb]
    have hrest : (s.popMsg u).inbox u = rest := by rw [State.inbox_popMsg, hi, List.tail_cons]
    exact ⟨hrest, rfl, rfl, rfl⟩
  case waits =>
    intro u k x rest s hi hb
    exact ⟨_, rfl, State.markerForward_busy hi hb⟩

end

section
/-! PROOFS. The statements about the canonical form of the registers and the memories. -/

open Sys2Proof Sys2Proof.Machine

/-- Settles O51, by cases on the queue: an idle step leaves the state as it is, and a command's meaning keeps the
canonical form (`exec_canonical`), of which the queue is no part. -/
theorem everyStepKeepsTheCanonicalForm : Obligations.EveryStepKeepsTheCanonicalForm := by
  unfold Obligations.EveryStepKeepsTheCanonicalForm
  intro s hs
  cases hp : s.pending with
  | nil => exact ⟨s, step_of_idle hp, hs⟩
  | cons c cs =>
    have hrest : State.Canonical { s with pending := cs } := hs
    obtain ⟨t, ht, htc⟩ := exec_canonical hrest c
    exact ⟨t, (step_of_pending hp).trans ht, htc⟩

/-- Settles O52: at reset no register, no memory byte and no poison mark is listed. -/
theorem resetIsCanonical : Obligations.ResetIsCanonical := by
  unfold Obligations.ResetIsCanonical
  have hregs : KMap.rising State.reset.regs = true := rfl
  have hmem : Memory.wf State.reset.mem = true := rfl
  exact ⟨hregs, hmem⟩

end

section
/-! PROOFS. Clocks: the reference mode that acts is the one chosen at reset. -/

namespace Sys2Proof.Machine

/-- A reference mode other than Host, chosen at reset, keeps the host reference from being selected once no Auto wait
runs, whatever CLK.REFSEL reads since (R26). -/
theorem State.refHostPresent_clk {s : State} (hm : s.clk.mode ≠ 0) (ha : s.clk.autoWait = false) :
    s.refHostPresent.clk = s.clk := by
  unfold State.refHostPresent
  simp [hm, ha]

/-- The module rails stand released in the Auto mode chosen at reset, with no source selected and no wait running, and
CLK.REFSEL has been written to Host since. The start-up of R30 leaves no such state, and the statement speaks of every
state. -/
def refselRewritten : State := { State.reset with clk := { Clk.reset with rails := true } }.wr F.clkRefselMode 0

theorem refselRewritten_refMode : refselRewritten.refMode = 0 := by decide

end Sys2Proof.Machine
end

section
/-! PROOFS. The statement about the clocks. -/

open Sys2Proof Sys2Proof.Machine

/-- Refutes O2: its clause about REF_HOST_PRESENT takes the mode from CLK.REFSEL as it reads now, while R26 and the model
act on the mode chosen at reset; a write of REFSEL since then selects nothing. -/
theorem not_clocksStepAndHold : ¬ Obligations.ClocksStepAndHold := by
  unfold Obligations.ClocksStepAndHold
  rintro ⟨-, -, -, -, -, -, -, -, -, -, -, hostPresent, -⟩
  obtain ⟨t, ht, -, hselected, -⟩ := hostPresent refselRewritten rfl rfl (.inl refselRewritten_refMode)
  obtain rfl : refselRewritten.refHostPresent = t := by
    injection ht
  have hkept : refselRewritten.refHostPresent.clk = refselRewritten.clk :=
    State.refHostPresent_clk (by decide) rfl
  rw [hkept] at hselected
  exact absurd hselected (by decide)

end

section
/-! PROOFS. What follows a state: the queue of waiting commands is as it was, and what had been sent stands behind what is
sent since. `Good` gathers this with the canonical form, and so speaks of states in that form alone; this holds from every
state. One lemma for each operation is named after it, and its proof names what the operation is made of, in order. -/

namespace Sys2Proof.Machine

/-- The state `s` follows `o`: no waiting command has come or gone, and nothing that was sent is taken back. -/
structure Follows (o s : State) : Prop where
  pending : s.pending = o.pending
  out : ∃ new, s.out = new ++ o.out

/-- The same of a command's outcome, where it is a next state. -/
def FollowsOut (o : State) (r : Host.Outcome State Fault Refusal) : Prop := ∀ t, r = .next t → Follows o t

/-- The same of a state that may be absent. -/
def FollowsOpt (o : State) (r : Option State) : Prop := ∀ t, r = some t → Follows o t

/-- The same of a state with a result that may be absent together. -/
def FollowsSome {β : Type} (o : State) (r : Option (State × β)) : Prop := ∀ x, r = some x → Follows o x.1

/-- The same of a state with a result, or a refusal. -/
def FollowsOk {ε β : Type} (o : State) (r : Except ε (State × β)) : Prop := ∀ x, r = .ok x → Follows o x.1

variable {o s t : State}

namespace Follows

/-! ### How an operation is put together -/

theorem refl (s : State) : Follows s s := ⟨rfl, [], rfl⟩

/-- An update of fields other than the queue and what has been sent. -/
theorem same {free resp regs latches lowHeld tree counts clk icu chk hif pwr mem flash journal health sec keeper cnt
    side agm arr spn tum launches nextLaunch fab syn waits amax poison frozen ten} (h : Follows o s) :
    Follows o ⟨s.pending, s.out, free, resp, regs, latches, lowHeld, tree, counts, clk, icu, chk, hif, pwr, mem,
      flash, journal, health, sec, keeper, cnt, side, agm, arr, spn, tum, launches, nextLaunch, fab, syn, waits,
      amax, poison, frozen, ten⟩ :=
  ⟨h.pending, h.out⟩

/-- What is put in front of what has been sent. -/
theorem sends {new : List Output} (h : Follows o s) (hp : t.pending = s.pending)
    (ho : t.out = new ++ s.out) : Follows o t := by
  obtain ⟨sent, e⟩ := h.out
  exact ⟨hp.trans h.pending, new ++ sent, by rw [ho, e, List.append_assoc]⟩

/-- Names the state reached, where more than one branch goes on from it. -/
theorem thus (h : Follows o s) (k : Follows o s → Follows o t) : Follows o t := k h

theorem thusFst {β : Type} {d : State × β} (h : Follows o d.1) (k : Follows o d.1 → Follows o t) : Follows o t :=
  k h

theorem ite {c : Prop} [Decidable c] (hs : Follows o s) (ht : Follows o t) : Follows o (if c then s else t) := by
  split <;> assumption

theorem iteFst {c : Prop} [Decidable c] {β : Type} {d e : State × β} (hd : Follows o d.1) (he : Follows o e.1) :
    Follows o (if c then d else e).1 := by
  split <;> assumption

theorem foldl {α : Type} {g : State → α → State} {xs : List α} (h : Follows o s)
    (hg : ∀ s x, Follows o s → Follows o (g s x)) : Follows o (xs.foldl g s) := by
  induction xs generalizing s with
  | nil => exact h
  | cons x xs ih => exact ih (hg s x h)

theorem foldlFst {α β : Type} {g : State × β → α → State × β} {d : State × β} {xs : List α} (h : Follows o d.1)
    (hg : ∀ d x, Follows o d.1 → Follows o (g d x).1) : Follows o (xs.foldl g d).1 := by
  induction xs generalizing d with
  | nil => exact h
  | cons x xs ih => exact ih (hg d x h)

theorem times {g : State → State} {n : Nat} (h : Follows o s) (hg : ∀ s, Follows o s → Follows o (g s)) :
    Follows o (times g n s) := by
  induction n generalizing s with
  | zero => exact h
  | succ n ih => exact ih (hg s h)

theorem pair {β : Type} {x : β} (h : Follows o s) : Follows o (s, x).1 := h

/-- The state of a result that has been taken apart. -/
theorem of_eq {β : Type} {d : State × β} {x : β} (h : Follows o d.1) (e : d = (t, x)) : Follows o t := by
  rw [e] at h
  exact h

theorem next (h : Follows o s) : FollowsOut o (.next s) := fun t e => by
  injection e with e
  exact e ▸ h

/-! ### Sending, and writing a register -/

theorem emit {x} (h : Follows o s) : Follows o (s.emit x) := h.sends (new := [x]) rfl rfl

theorem setReg {r v} (h : Follows o s) : Follows o (s.setReg r v) := h.same

end Follows

/-! ### Results that may be absent or refused -/

theorem FollowsOpt.none : FollowsOpt o none :=
  fun _ e => nomatch e

theorem FollowsOpt.some (h : Follows o s) : FollowsOpt o (some s) := fun t e => by
  injection e with e
  exact e ▸ h

theorem FollowsOpt.bind {d : Option State} {f : State → Option State} (h : FollowsOpt o d)
    (hf : ∀ s, Follows o s → FollowsOpt o (f s)) : FollowsOpt o (d.bind f) := by
  cases d with
  | none => exact .none
  | some t => exact hf t (h t rfl)

theorem FollowsOpt.bindVal {β : Type} {d : Option β} {f : β → Option State} (hf : ∀ y, FollowsOpt o (f y)) :
    FollowsOpt o (d.bind f) := by
  cases d with
  | none => exact .none
  | some y => exact hf y

theorem FollowsOpt.map {d : Option State} {f : State → State} (h : FollowsOpt o d)
    (hf : ∀ s, Follows o s → Follows o (f s)) : FollowsOpt o (d.map f) := by
  cases d with
  | none => exact .none
  | some t => exact .some (hf t (h t rfl))

theorem FollowsOpt.elim {β : Type} {d : Option β} {z : Option State} {f : β → Option State} (hz : FollowsOpt o z)
    (hf : ∀ y, FollowsOpt o (f y)) : FollowsOpt o (d.elim z f) := by
  cases d with
  | none => exact hz
  | some y => exact hf y

theorem FollowsOpt.foldl {α : Type} {g : Option State → α → Option State} {d : Option State} {xs : List α}
    (h : FollowsOpt o d) (hg : ∀ d x, FollowsOpt o d → FollowsOpt o (g d x)) : FollowsOpt o (xs.foldl g d) := by
  induction xs generalizing d with
  | nil => exact h
  | cons x xs ih => exact ih (hg d x h)

theorem FollowsOpt.getD {d : Option State} (hd : FollowsOpt o d) (h : Follows o s) : Follows o (d.getD s) := by
  cases d with
  | none => exact h
  | some t => exact hd t rfl

theorem FollowsSome.none {β : Type} : FollowsSome o (none : Option (State × β)) :=
  fun _ e => nomatch e

theorem FollowsSome.some {β : Type} {x : β} (h : Follows o s) : FollowsSome o (some (s, x)) := fun y e => by
  injection e with e
  exact e ▸ h

theorem FollowsSome.of_eq {β : Type} {d : Option (State × β)} {x : β} (h : FollowsSome o d)
    (e : d = Option.some (t, x)) : Follows o t := h (t, x) e

theorem FollowsOk.error {ε β : Type} {e : ε} : FollowsOk o (.error e : Except ε (State × β)) :=
  fun _ e => nomatch e

theorem FollowsOk.ok {ε β : Type} {x : β} (h : Follows o s) : FollowsOk o (.ok (s, x) : Except ε (State × β)) :=
  fun y e => by
    injection e with e
    exact e ▸ h

theorem FollowsOk.of_eq {ε β : Type} {d : Except ε (State × β)} {x : β} (h : FollowsOk o d) (e : d = .ok (t, x)) :
    Follows o t := h (t, x) e

end Sys2Proof.Machine
end

section
/-! PROOFS. What follows a state through the operations of Machine/Ops.lean. -/

namespace Sys2Proof.Machine

variable {o s : State}

theorem Follows.resetBlock {lo hi} (h : Follows o s) : Follows o (s.resetBlock lo hi) := h.same

theorem Follows.wr {f v} (h : Follows o s) : Follows o (s.wr f v) := h.setReg

theorem Follows.add {f n} (h : Follows o s) : Follows o (s.add f n) := h.wr

theorem Follows.addSat {f n} (h : Follows o s) : Follows o (s.addSat f n) := h.wr

theorem Follows.event {code d args} (h : Follows o s) : Follows o (s.event code d args) := h.emit

theorem Follows.drawn (h : Follows o s) : Follows o s.drawn := h.same

theorem Follows.count {u k n} (h : Follows o s) : Follows o (s.count u k n) := h.same

theorem Follows.pend {n} (h : Follows o s) : Follows o (s.pend n) := h.setReg.count.ite h

theorem Follows.setEvent {f} (h : Follows o s) : Follows o (s.setEvent f) := by
  unfold State.setEvent
  refine h.ite ?_
  split
  · exact h.wr.pend.pend.ite h.wr.pend
  · split
    · exact h.wr.pend
    · exact h.wr

theorem Follows.raise {n} (h : Follows o s) : Follows o (s.raise n) := h.ite (h.setEvent.count.ite h.pend)

theorem Follows.denied (h : Follows o s) : Follows o s.denied := h.setEvent.count

theorem Follows.send {u m} (h : Follows o s) : Follows o (s.send u m) := h.same

theorem Follows.popMsg {u} (h : Follows o s) : Follows o (s.popMsg u) := h.same

theorem Follows.setTenant {t' x} (h : Follows o s) : Follows o (s.setTenant t' x) := h.same

theorem Follows.modTenant {t' f} (h : Follows o s) : Follows o (s.modTenant t' f) := h.setTenant

theorem Follows.hostWrite {addr bs} (h : Follows o s) : Follows o (s.hostWrite addr bs) := h.emit.count.ite h.setEvent

end Sys2Proof.Machine
end

section
/-! PROOFS. What follows a state through the operations of Machine/JournalOps.lean. -/

namespace Sys2Proof.Machine

variable {o s : State}

theorem Follows.journalBegin {r} (h : Follows o s) : Follows o (s.journalBegin r) := h.same

theorem Follows.journalGuard (h : Follows o s) : Follows o s.journalGuard := by
  unfold State.journalGuard
  split
  · exact (h.ite h.journalBegin).ite h
  · exact h

theorem Follows.journalStart {x} (h : Follows o s) : Follows o (State.journalStart x s) := by
  induction x generalizing s with
  | zero => exact h
  | succ n ih =>
    rw [State.journalStart]
    refine Follows.ite ?_ h
    split
    · exact h
    · split
      · exact h
      · exact ih h.journalGuard.same.journalBegin

theorem Follows.journalOffer {r} (h : Follows o s) : Follows o (s.journalOffer r) := h.event.ite h.same.journalStart

theorem Follows.journalProgram {x} (h : Follows o s) : Follows o (s.journalProgram x) := h.same

theorem Follows.slcWrite {n} (h : Follows o s) : Follows o (s.slcWrite n) := h.same.add.wr

theorem Follows.tlcWrite {n} (h : Follows o s) : Follows o (s.tlcWrite n) :=
  h.same.add.count.thus fun h1 => h1.wr.wr.setEvent.event.ite h1.wr

theorem Follows.journalCommit {x} (h : Follows o s) : Follows o (s.journalCommit x) :=
  h.journalProgram.thus fun h1 => (h1.same.setReg.ite h1.same).count.count.slcWrite

end Sys2Proof.Machine
end

section
/-! PROOFS. What follows a state through the operations of Machine/Reset.lean. -/

namespace Sys2Proof.Machine

variable {o s : State}

theorem Follows.deviceReset (h : Follows o s) : Follows o s.deviceReset := h.same

theorem Follows.resetSequence {cause} (h : Follows o s) : Follows o (s.resetSequence cause) := by
  unfold State.resetSequence
  split
  · exact h
  · exact h.same

theorem Follows.finishRecords (h : Follows o s) : Follows o s.finishRecords := h.foldl fun _ _ h1 => h1.journalCommit

theorem Follows.powerEvent {cause} (h : Follows o s) : Follows o (s.powerEvent cause) := h.journalBegin.finishRecords

theorem Follows.resetEnd {cause} (h : Follows o s) : Follows o (s.resetEnd cause) :=
  h.finishRecords.thus fun h1 => (h1.powerEvent.ite h1).deviceReset.thus fun h2 => h2.same.ite h2

end Sys2Proof.Machine
end

section
/-! PROOFS. What follows a state through the operations of Machine/Health.lean. -/

namespace Sys2Proof.Machine

variable {o s : State}

theorem Follows.dueLayer {t' layer} (h : Follows o s) : Follows o (s.dueLayer t' layer) := h.same

theorem Follows.dueAll {layers older} (h : Follows o s) : Follows o (s.dueAll layers older) :=
  h.foldl fun _ _ h1 => (h1.foldl fun _ _ h2 => h2.dueLayer).ite h1

theorem Follows.recomputeRisk (h : Follows o s) : Follows o s.recomputeRisk :=
  h.wr.wr.ite (h.wr.wr.setEvent.event.thus fun h1 => (h1.dueAll.ite h1).thus fun h2 => h2.dueAll.ite h2)

theorem Follows.healthInput {i} (h : Follows o s) : Follows o (s.healthInput i) := h.same.recomputeRisk.ite h

theorem Follows.riskExpiry {i} (h : Follows o s) : Follows o (s.riskExpiry i) := h.same.recomputeRisk

theorem Follows.secureRequest {v} (h : Follows o s) : Follows o (s.secureRequest v) :=
  (h.foldl fun _ _ h1 => h1.dueLayer.ite h1).ite h

end Sys2Proof.Machine
end

section
/-! PROOFS. What follows a state through the operations of Machine/Clock.lean. -/

namespace Sys2Proof.Machine

variable {o s : State}

theorem Follows.divide (h : Follows o s) : Follows o s.divide := by
  unfold State.divide
  split
  · exact h.ite h.same.wr.wr.count
  · exact h.same

theorem Follows.fwRequest {d} (h : Follows o s) : Follows o (s.fwRequest d) := h.wr.divide

theorem Follows.clockResume (h : Follows o s) : Follows o s.clockResume := by
  unfold State.clockResume
  split
  · exact h.same.wr.wr.setEvent
  · exact h

theorem Follows.enterHoldover (h : Follows o s) : Follows o s.enterHoldover := h.ite h.wr.count

theorem Follows.refLost (h : Follows o s) : Follows o s.refLost :=
  h.ite (h.same.wr.ite h.same.wr).enterHoldover.setEvent.event.healthInput

theorem Follows.refReturn (h : Follows o s) : Follows o s.refReturn := (h.same.wr.ite h.same).ite h

theorem Follows.pllRelock (h : Follows o s) : Follows o s.pllRelock := (h.same.ite h.same.wr).ite h

theorem Follows.pllUnlock (h : Follows o s) : Follows o s.pllUnlock :=
  h.ite h.same.enterHoldover.setEvent.event.healthInput

theorem Follows.holdoverDeadline (h : Follows o s) : Follows o s.holdoverDeadline :=
  h.setEvent.event.resetSequence.ite h

theorem Follows.refHostPresent (h : Follows o s) : Follows o s.refHostPresent := h.wr.same.wr.ite h.wr

theorem Follows.sampleStraps {p} (h : Follows o s) : Follows o (s.sampleStraps p) :=
  h.same.wr.wr.wr.thus fun h1 => h1.wr.event.ite h1.wr

theorem Follows.startClocks {p} (h : Follows o s) : Follows o (s.startClocks p) := h.sampleStraps.wr.same.wr.wr

theorem Follows.railRelease {p} (h : Follows o s) : Follows o (s.railRelease p) := h.startClocks.ite h

theorem Follows.pllLock (h : Follows o s) : Follows o s.pllLock := h.same.wr.ite h

theorem Follows.pllLockTimeout (h : Follows o s) : Follows o s.pllLockTimeout := (h.same.wr.wr.ite h.same).ite h

end Sys2Proof.Machine
end

section
/-! PROOFS. What follows a state through the operations of Machine/Power.lean. -/

namespace Sys2Proof.Machine

variable {o s : State}

theorem Follows.setFloor {n} (h : Follows o s) : Follows o (s.setFloor n) := h.ite h.wr.setEvent.count.divide

theorem Follows.supplyLost (h : Follows o s) : Follows o s.supplyLost := h.same.wr

theorem Follows.powerSample {p} (h : Follows o s) : Follows o (s.powerSample p) :=
  (h.supplyLost.ite h).wr.wr.wr.wr.count.drawn.setFloor

theorem Follows.minClear (h : Follows o s) : Follows o s.minClear := h.wr

theorem Follows.enterLow (h : Follows o s) : Follows o s.enterLow := h.wr.setEvent.event

theorem Follows.inputLow (h : Follows o s) : Follows o s.inputLow := h.enterLow.ite h

theorem Follows.inputNormal (h : Follows o s) : Follows o s.inputNormal := h.wr.ite h

theorem Follows.inputReset {cause} (h : Follows o s) : Follows o (s.inputReset cause) := by
  unfold State.inputReset
  split
  · exact h.resetSequence
  · exact h.same
  · exact h.same
  · exact h.same
  · exact h

theorem Follows.inputHigh (h : Follows o s) : Follows o s.inputHigh := h.wr.setEvent.event.inputReset

theorem Follows.pauseDrains {p} (h : Follows o s) : Follows o (s.pauseDrains p) := h.same

theorem Follows.endCoalescing (h : Follows o s) : Follows o s.endCoalescing := h.same.journalStart

theorem Follows.droopWarning (h : Follows o s) : Follows o s.droopWarning :=
  h.same.wr.setEvent.event.setFloor.endCoalescing.journalOffer.pauseDrains.addSat.count.healthInput.ite h

theorem Follows.droopRecovery (h : Follows o s) : Follows o s.droopRecovery :=
  (h.enterLow.ite h.wr).setEvent.setFloor.drawn.journalOffer.pauseDrains.ite h

theorem Follows.resetLevel (h : Follows o s) : Follows o s.resetLevel := h.inputReset

theorem Follows.resetRecordsComplete (h : Follows o s) : Follows o s.resetRecordsComplete := by
  unfold State.resetRecordsComplete
  split
  · exact h.resetEnd.drawn.startClocks.ite h.resetEnd
  · exact h

theorem Follows.pwrEnOpen (h : Follows o s) : Follows o s.pwrEnOpen := h.same.resetLevel

theorem Follows.inputStable (h : Follows o s) : Follows o s.inputStable := h.same.ite h

theorem Follows.holdup {us} (h : Follows o s) : Follows o (s.holdup us) :=
  h.same.wr.wr.setEvent.event.ite h.same.wr.wr

theorem Follows.holdupTestEnd {us} (h : Follows o s) : Follows o (s.holdupTestEnd us) := h.holdup.same.ite h

theorem Follows.railPowerGood (h : Follows o s) : Follows o s.railPowerGood := by
  unfold State.railPowerGood
  split
  · exact h.same.ite h.same
  · exact h

theorem Follows.railTimeout (h : Follows o s) : Follows o s.railTimeout := by
  unfold State.railTimeout
  split
  · exact h.same
  · exact h

theorem Follows.railsDown (h : Follows o s) : Follows o s.railsDown := h.same.setReg.ite h

theorem Follows.strapCompare {p} (h : Follows o s) : Follows o (s.strapCompare p) := h.wr.ite h.wr.event

theorem Follows.thermalRead {t'} (h : Follows o s) : Follows o (s.thermalRead t') := by
  unfold State.thermalRead
  refine h.same.ite ?_
  extract_lets +onlyGivenNames hot hotter near tooHot warn warn5 trip _ s1 s2 s3 s4
  have h1 : Follows o s4 := h.same.wr.wr.ite h.same.wr.wr.healthInput
  extract_lets +onlyGivenNames s5
  have h2 : Follows o s5 := h1.ite h1.healthInput
  extract_lets +onlyGivenNames s6
  have h3 : Follows o s6 := h2.ite h2.fwRequest
  extract_lets +onlyGivenNames s7
  have h4 : Follows o s7 := h3.ite h3.fwRequest
  split
  · exact h4.wr.same.resetSequence
  · exact h4

end Sys2Proof.Machine
end

section
/-! PROOFS. What follows a state through the operations of Machine/Counters.lean. -/

namespace Sys2Proof.Machine

variable {o s : State}

theorem Follows.shadow {i unit x x'} (h : Follows o s) : Follows o (s.shadow i unit x x') := by
  induction x generalizing s x' with
  | zero => exact h
  | succ n ih =>
    exact ih h.setReg

theorem Follows.takeShadow {seq i} (h : Follows o s) : Follows o (s.takeShadow seq i) := h.shadow.same.setReg

theorem Follows.snapGo (h : Follows o s) : Follows o s.snapGo := h.same.wr.same.ite h.setEvent

theorem Follows.snapshotMarker {unit} (h : Follows o s) : Follows o (s.snapshotMarker unit) := by
  unfold State.snapshotMarker
  split
  · exact h.same.takeShadow.same
  · exact h

theorem Follows.snapshotEnd (h : Follows o s) : Follows o s.snapshotEnd := h.wr.wr.setEvent

theorem Follows.snapshotComplete (h : Follows o s) : Follows o s.snapshotComplete := h.snapshotEnd.ite h

theorem Follows.telemetry {hostOk t'} (h : Follows o s) : Follows o (s.telemetry hostOk t') :=
  h.wr.ite (h.ite ((h.wr.same.foldl fun _ _ h1 => h1.takeShadow).snapshotEnd.thus fun h2 =>
    (h2.hostWrite.ite h2.setEvent).wr.same))

end Sys2Proof.Machine
end

section
/-! PROOFS. What follows a state through the operations of Machine/Durable.lean. -/

namespace Sys2Proof.Machine

variable {o s : State}

theorem Follows.coalesceExpiry {t'} (h : Follows o s) : Follows o (s.coalesceExpiry t') := h.same.journalStart

theorem Follows.copyAVerified {jseq} (h : Follows o s) : Follows o (s.copyAVerified jseq) := by
  unfold State.copyAVerified
  split
  · exact h
  · exact h.same

theorem Follows.repaired (h : Follows o s) : Follows o s.repaired := h.setEvent.event

theorem Follows.corrupt (h : Follows o s) : Follows o s.corrupt := h.setEvent.event

theorem Follows.scrubRecord {weak jseq} (h : Follows o s) : Follows o (s.scrubRecord weak jseq) :=
  (h.same.repaired.slcWrite.ite h).thus fun h1 => h1.same.repaired.slcWrite.ite h1

theorem Follows.scanOne {last x slot} (h : Follows o x.1) : Follows o (State.scanOne last x slot).1 := by
  unfold State.scanOne
  split
  extract_lets +onlyGivenNames d s1
  have h1 : Follows o s1 := h.corrupt.ite h
  split
  · exact h1
  · exact (h1.repaired.wr.slcWrite.ite h1).same

theorem Follows.fillCommit {u} (h : Follows o s) : Follows o (s.fillCommit u) := by
  unfold State.fillCommit
  split
  · exact h
  · exact h.setReg.setReg.setReg.setReg.same

theorem Follows.fillLifetime (h : Follows o s) : Follows o s.fillLifetime := by
  unfold State.fillLifetime
  split
  · exact h.wr.wr
  · exact h.setReg.setReg.setReg.setReg.setReg.setReg.setReg.setReg.setReg

theorem Follows.countEvents (h : Follows o s) : Follows o s.countEvents :=
  h.foldl fun _ _ h1 => (h1.addSat.ite h1).thus fun h2 => h2.addSat.ite h2

theorem Follows.freeGeneration {g} (h : Follows o s) : Follows o (s.freeGeneration g) := by
  unfold State.freeGeneration
  split
  · exact h.same
  · exact h.same.journalOffer.ite (h.same.ite h)

theorem Follows.checkReserve (h : Follows o s) : Follows o s.checkReserve := h.wr.ite h

theorem Follows.durableStart (h : Follows o s) : Follows o s.durableStart :=
  h.ite (((h.foldlFst fun _ _ h1 =>
    h1.scanOne).same.setReg.fillLifetime.countEvents.checkReserve.foldl fun _ _ h2 =>
    h2.fillCommit).wr.same.same.foldl fun _ _ h3 => h3.freeGeneration).wr.wr.journalStart

theorem Follows.setBucket {a v} (h : Follows o s) : Follows o (s.setBucket a v) := h.wr

theorem Follows.refill {a} (h : Follows o s) : Follows o (s.refill a) := h.wr.setBucket

theorem Follows.wearBudget (h : Follows o s) : Follows o s.wearBudget :=
  h.add.refill.refill.refill.tlcWrite.checkReserve

end Sys2Proof.Machine
end

section
/-! PROOFS. What follows a state through the operations of Machine/Faults.lean. -/

namespace Sys2Proof.Machine

variable {o s : State}

theorem Follows.modFault {t' f} (h : Follows o s) : Follows o (s.modFault t' f) := h.modTenant

theorem Follows.writeFaultStatus {t'} (h : Follows o s) : Follows o (s.writeFaultStatus t') := h.hostWrite

theorem Follows.writeStatusBlock {t'} (h : Follows o s) : Follows o (s.writeStatusBlock t') := h.hostWrite

theorem Follows.pushFault {t' e} (h : Follows o s) : Follows o (s.pushFault t' e) :=
  h.hostWrite.modFault.writeFaultStatus.raise

theorem Follows.faultEntry {t' e} (h : Follows o s) : Follows o (s.faultEntry t' e) :=
  h.ite (h.modFault.pushFault.ite (h.modFault.modFault.thus fun h1 =>
    h1.writeFaultStatus.ite h1.modFault.pushFault.drawn))

theorem Follows.tell {t' code unit a0 a1} (h : Follows o s) : Follows o (s.tell t' code unit a0 a1) :=
  h.event.faultEntry.drawn

theorem Follows.memFault {code kind t' unit va pa} (h : Follows o s) :
    Follows o (s.memFault code kind t' unit va pa) :=
  h.event.faultEntry.drawn

end Sys2Proof.Machine
end

section
/-! PROOFS. What follows a state through the operations of Machine/Memory.lean. -/

namespace Sys2Proof.Machine

variable {o s : State}

theorem Follows.setSlice {q x} (h : Follows o s) : Follows o (s.setSlice q x) := h.same

theorem Follows.bankCount {a k} (h : Follows o s) : Follows o (s.bankCount a k) := h.count

theorem Follows.evict {line} (h : Follows o s) : Follows o (s.evict line) := by
  unfold State.evict
  split
  · exact h
  · exact h.same.same.bankCount.ite h.same

theorem Follows.makeRoom {x x' x2 x3} (h : Follows o s) : Follows o (State.makeRoom x s x' x2 x3).1 := by
  induction x generalizing s with
  | zero => exact h
  | succ n ih =>
    rw [State.makeRoom]
    split
    · exact h
    · split
      · exact h
      · exact ih h.evict

theorem Follows.keepRoom {line} (h : Follows o s) : Follows o (s.keepRoom line) := by
  unfold State.keepRoom
  refine Follows.ite ?_ h
  split
  · exact h.evict
  · exact h

theorem Follows.putLine {line l} (h : Follows o s) : Follows o (s.putLine line l) := h.same

theorem Follows.useLine {line} (h : Follows o s) : Follows o (s.useLine line) := by
  unfold State.useLine
  split
  · exact h
  · exact h.putLine.same

theorem Follows.install {line l} (h : Follows o s) : Follows o (s.install line l).1 := by
  unfold State.install
  refine h.putLine.iteFst ?_
  extract_lets +onlyGivenNames s1
  have h1 : Follows o s1 := h.keepRoom.ite h
  split
  · exact (h1.makeRoom.of_eq ‹_›).putLine
  · exact h1.makeRoom.of_eq ‹_›

theorem Follows.lockWait {line} (h : Follows o s) : Follows o (s.lockWait line) := by
  unfold State.lockWait
  extract_lets +onlyGivenNames q
  split
  · exact h.setSlice.setEvent.bankCount
  · exact h

theorem Follows.requestFill {line} (h : Follows o s) : Follows o (s.requestFill line) := h.ite h.setSlice.bankCount

theorem Follows.tickUse (h : Follows o s) : Follows o s.tickUse := h.same

theorem Follows.fill {line streaming} (h : Follows o s) : Follows o (s.fill line streaming).1 :=
  h.count.tickUse.install

theorem Follows.miss {line streaming} (h : Follows o s) : Follows o (s.miss line streaming) := by
  unfold State.miss
  extract_lets +onlyGivenNames s1
  have h1 : Follows o s1 := h.bankCount
  refine h1.ite ?_
  split
  · exact h1.fill.of_eq ‹_›
  · rename_i e5
    have h2 := h1.fill.of_eq e5
    exact h2.ite h2.lockWait.requestFill

theorem Follows.deadTouch {line t' unit} (h : Follows o s) : Follows o (s.deadTouch line t' unit) :=
  h.addSat.bankCount.thus fun h1 => ((h1.tell.ite h1.event).ite h1).same

theorem Follows.deadRead {line t' unit streaming} (h : Follows o s) : Follows o (s.deadRead line t' unit streaming) :=
  h.deadTouch.miss

theorem Follows.hbmWrite {g m d poison} (h : Follows o s) : Follows o (s.hbmWrite g m d poison) := h.same.count

theorem Follows.acceptLine {w} (h : Follows o s) : Follows o (s.acceptLine w) :=
  h.foldl fun _ _ h1 => h1.hbmWrite.ite h1

theorem Follows.settle {line} (h : Follows o s) : Follows o (s.settle line) :=
  h.same.foldl fun _ _ h1 => h1.acceptLine

theorem Follows.checkWaits {line} (h : Follows o s) : Follows o (s.checkWaits line) := h.same.ite h

theorem Follows.setIso {f v} (h : Follows o s) : Follows o (s.setIso f v) := h.same

theorem Follows.mapIso {g} (h : Follows o s) : Follows o (s.mapIso g) := h.foldl fun _ _ h1 => h1.setIso

theorem Follows.zeroRange {a n} (h : Follows o s) : Follows o (s.zeroRange a n) := h.same.ite h.same

theorem Follows.flushRange {a n} (h : Follows o s) : Follows o (s.flushRange a n) :=
  h.foldl fun _ _ h1 => h1.evict.settle

theorem Follows.slicemapChangeEnd (h : Follows o s) : Follows o s.slicemapChangeEnd :=
  h.setEvent.ite ((h.foldl fun _ _ h1 => h1.flushRange).foldl fun _ _ h2 => h2.setReg).same.wr

theorem Follows.setClass {g c} (h : Follows o s) : Follows o (s.setClass g c) := h.zeroRange.setReg

theorem Follows.endClass {x} (h : Follows o s) : Follows o (s.endClass x) := h.same.setClass

theorem Follows.awaitHeld {line} (h : Follows o s) : Follows o (s.awaitHeld line) := by
  unfold State.awaitHeld
  refine h.ite ?_
  extract_lets +onlyGivenNames s1 s2
  have h1 : Follows o s2 := (h.slicemapChangeEnd.ite h).foldl fun _ _ h2 => h2.endClass
  split
  · exact h1.evict.settle.ite h1
  · exact h1

theorem Follows.readBytes {line mask t' unit streaming} (h : Follows o s) :
    Follows o (s.readBytes line mask t' unit streaming) := by
  unfold State.readBytes
  extract_lets +onlyGivenNames s1
  have h1 : Follows o s1 := h.awaitHeld.bankCount
  refine h1.ite ?_
  split
  · exact h1.deadRead.ite (h1.useLine.ite h1.miss)
  · exact h1.miss

theorem Follows.readAs {a n t' unit streaming} (h : Follows o s) : Follows o (s.readAs a n t' unit streaming) :=
  h.foldl fun _ _ h1 => h1.readBytes

theorem Follows.writeThrough {line l} (h : Follows o s) : Follows o (s.writeThrough line l) :=
  h.same.acceptLine.ite h.putLine.lockWait

theorem Follows.lineBytes {line mask d} (h : Follows o s) : Follows o (s.lineBytes line mask d) := by
  unfold State.lineBytes
  extract_lets +onlyGivenNames s1
  have h1 : Follows o s1 := h.awaitHeld.bankCount
  refine (h1.foldl fun _ _ h2 => h2.same).ite ?_
  extract_lets +onlyGivenNames s2
  have h3 : Follows o s2 := h1.settle
  extract_lets +onlyGivenNames new l
  split
  · exact h3.tickUse.install.of_eq ‹_›
  · exact (h3.tickUse.install.of_eq ‹_›).writeThrough

theorem Follows.writeLine {line mask d} (h : Follows o s) : Follows o (s.writeLine line mask d) :=
  h.event.ite h.lineBytes.checkWaits

theorem Follows.write {a bs} (h : Follows o s) : Follows o (s.write a bs) := h.foldl fun _ _ h1 => h1.writeLine

theorem Follows.perform {r} (h : Follows o s) : Follows o (s.perform r).1 :=
  h.bankCount.thus fun h1 => (h1.ite h1.writeLine).iteFst (h1.ite h1.writeLine)

end Sys2Proof.Machine
end

section
/-! PROOFS. What follows a state through the operations of Machine/Store.lean. -/

namespace Sys2Proof.Machine

variable {o s : State}

theorem Follows.admitWaiting {q} (h : Follows o s) : Follows o (s.admitWaiting q) := h.setSlice

theorem Follows.refillHeld {line} (h : Follows o s) : Follows o (s.refillHeld line) := h.requestFill.ite h

theorem Follows.proceed (h : Follows o s) : Follows o s.proceed :=
  h.foldl fun _ _ h1 => h1.admitWaiting.foldl fun _ _ h2 => h2.refillHeld

theorem Follows.storeRestart (h : Follows o s) : Follows o s.storeRestart := h.resetBlock.resetBlock

theorem Follows.storeReady {q} (h : Follows o s) : Follows o (s.storeReady q) :=
  h.ite (h.same.zeroRange.setSlice.thus fun h1 => h1.wr.ite h1)

theorem Follows.slicemapWrite {i v} (h : Follows o s) : Follows o (s.slicemapWrite i v) :=
  h.ite (h.setReg.ite h.same.wr)

theorem Follows.partitionApply (h : Follows o s) : Follows o s.partitionApply :=
  h.ite (h.setEvent.ite (h.foldl fun _ _ h1 => h1.zeroRange).same.wr)

theorem Follows.unpinLine {line} (h : Follows o s) : Follows o (s.unpinLine line) := by
  unfold State.unpinLine
  split
  · exact h.evict.ite h
  · exact h

theorem Follows.partitionLine {line} (h : Follows o s) : Follows o (s.partitionLine line) := by
  unfold State.partitionLine
  split
  · exact h
  · exact h.evict.setEvent.ite h.evict

theorem Follows.partitionApplyEnd (h : Follows o s) : Follows o s.partitionApplyEnd := by
  unfold State.partitionApplyEnd
  split
  · exact h
  · exact (h.foldl fun _ _ h1 => h1.partitionLine).thus fun h2 => h2.setEvent.ite (h2.foldl fun _ _ h3 =>
      h3.wr.wr.wr).same.wr.setEvent.proceed

theorem Follows.deadMarkLine {line} (h : Follows o s) : Follows o (s.deadMarkLine line) := by
  unfold State.deadMarkLine
  split
  · exact h.ite (h.same.ite h.putLine)
  · exact h

theorem Follows.pinLine {line} (h : Follows o s) : Follows o (s.pinLine line) := by
  unfold State.pinLine
  refine h.settle.ite ?_
  split
  · exact h.settle.putLine
  · exact h.settle.add.setEvent

theorem Follows.cleanLine {line} (h : Follows o s) : Follows o (s.cleanLine line) := by
  unfold State.cleanLine
  split
  · exact h.ite h.settle.acceptLine.bankCount.putLine
  · exact h

theorem Follows.rangeLine {op line} (h : Follows o s) : Follows o (s.rangeLine op line) := by
  unfold State.rangeLine
  split
  · exact h.cleanLine
  · exact h.evict
  · exact h.deadMarkLine
  · exact h.pinLine
  · exact h.unpinLine

theorem Follows.rangeOp {op} (h : Follows o s) : Follows o (s.rangeOp op) :=
  h.ite (h.wr.ite (((h.wr.wr.setReg.ite h.wr.wr).foldl fun _ _ h1 => h1.rangeLine).thus fun h2 =>
    (h2.setEvent.ite h2).same))

theorem Follows.rangeOpEnd (h : Follows o s) : Follows o s.rangeOpEnd := by
  unfold State.rangeOpEnd
  split
  · exact h
  · exact h.ite (h.foldl fun _ _ h1 => h1.rangeLine).same.wr.proceed

theorem Follows.rangeRun {op line n} (h : Follows o s) : Follows o (s.rangeRun op line n) :=
  h.wr.wr.rangeOp.rangeOpEnd

theorem Follows.rangeWait {op lines} (h : Follows o s) : Follows o (s.rangeWait op lines) := h.same.wr.setEvent

theorem Follows.sramCorrected {a} (h : Follows o s) : Follows o (s.sramCorrected a) := h.addSat.setEvent.bankCount

theorem Follows.sramLost {g} (h : Follows o s) : Follows o (s.sramLost g) := by
  unfold State.sramLost
  refine h.setEvent.same.event.healthInput.ite ?_
  split
  · exact h.setEvent
  · exact h.setEvent.evict.settle.putLine.ite h.setEvent.putLine.event.healthInput

theorem Follows.storeScrub {q g f} (h : Follows o s) : Follows o (s.storeScrub q g f) := by
  unfold State.storeScrub
  refine h.ite ?_
  split
  · exact h.sramCorrected
  · exact h.sramLost
  · exact h
  · exact h
  · exact h

theorem Follows.sendRed {r} (h : Follows o s) : Follows o (s.sendRed r) := h.setSlice

theorem Follows.holdRed {q r} (h : Follows o s) : Follows o (s.holdRed q r) := by
  unfold State.holdRed
  extract_lets +onlyGivenNames s1
  have h1 : Follows o s1 := by
    subst s1
    split
    · exact h.deadTouch.ite h
    · exact h
  clear_value s1
  exact h1.setSlice.thus fun h2 => h2.ite h2.refillHeld

theorem Follows.redArrive {q} (h : Follows o s) : Follows o (s.redArrive q).1 := by
  unfold State.redArrive
  extract_lets +onlyGivenNames x
  split
  · exact h
  · exact h.iteFst (h.setSlice.iteFst (h.setSlice.awaitHeld.thus fun h1 => h1.setSlice.iteFst h1.holdRed))

theorem Follows.dropTransient {q line} (h : Follows o s) : Follows o (s.dropTransient q line) := by
  unfold State.dropTransient
  split
  · exact h.evict.ite h
  · exact h

theorem Follows.redExecute {q} (h : Follows o s) : Follows o (s.redExecute q).1 := by
  unfold State.redExecute
  extract_lets +onlyGivenNames x
  split
  · exact h
  · exact h.perform.setSlice.admitWaiting.thus fun h1 => h1.ite h1.dropTransient

theorem Follows.placeWaiting {line} (h : Follows o s) : Follows o (s.placeWaiting line) :=
  h.foldl fun _ _ h1 => h1.install

theorem Follows.lockRelease {q} (h : Follows o s) : Follows o (s.lockRelease q) := by
  unfold State.lockRelease
  extract_lets +onlyGivenNames x
  split
  · exact h
  · exact h.evict.setSlice.placeWaiting.refillHeld

theorem Follows.fillEnd {q k} (h : Follows o s) : Follows o (s.fillEnd q k) := by
  unfold State.fillEnd
  split
  · exact h
  · refine h.ite ?_
    refine (h.ite h.count.putLine.setSlice.admitWaiting).ite ?_
    split
    · exact (h.fill.of_eq ‹_›).setSlice.admitWaiting
    · exact h.lockWait

end Sys2Proof.Machine
end

section
/-! PROOFS. What follows a state through the operations of Machine/Hbm.lean. -/

namespace Sys2Proof.Machine

variable {o s : State}

theorem Follows.channelState {c st} (h : Follows o s) : Follows o (s.channelState c st) := h.wr.setEvent.event

theorem Follows.readDies (h : Follows o s) : Follows o s.readDies := h.same

theorem Follows.recordsRead (h : Follows o s) : Follows o s.recordsRead :=
  h.ite (h.foldl fun _ _ h1 => h1.channelState.ite h1)

theorem Follows.trainingEnd {failed} (h : Follows o s) : Follows o (s.trainingEnd failed) :=
  h.ite (h.foldl fun _ _ h1 => h1.channelState).wr.readDies.recordsRead

theorem Follows.buildMap {channels} (h : Follows o s) : Follows o (s.buildMap channels) :=
  (h.foldl fun _ _ h1 => h1.wr).wr

theorem Follows.initGo (h : Follows o s) : Follows o s.initGo :=
  h.ite ((h.recordsRead.foldl fun _ _ h1 => h1.wr.channelState).buildMap.foldl fun _ _ h2 => h2.setReg).wr

theorem Follows.initEnd (h : Follows o s) : Follows o s.initEnd := h.ite h.same.setReg.wr.wr

theorem Follows.classChange {g c} (h : Follows o s) : Follows o (s.classChange g c) := h.ite h.same

theorem Follows.classChangeEnd (h : Follows o s) : Follows o s.classChangeEnd := by
  unfold State.classChangeEnd
  split
  · exact h
  · exact h.endClass

theorem Follows.mapoutRecord {c} (h : Follows o s) : Follows o (s.mapoutRecord c) := h.journalOffer

theorem Follows.failing {c} (h : Follows o s) : Follows o (s.failing c) :=
  h.channelState.mapoutRecord.healthInput.ite h

theorem Follows.hbmLostAt {c g} (h : Follows o s) : Follows o (s.hbmLostAt c g) :=
  h.ite (h.hbmWrite.addSat.count.setReg.setEvent.event.event.thus fun h1 => (h1.healthInput.ite h1).thus fun h2 =>
    h2.failing.ite h2)

theorem Follows.hbmLost {g} (h : Follows o s) : Follows o (s.hbmLost g) := h.hbmLostAt

theorem Follows.hbmCorrected {g} (h : Follows o s) : Follows o (s.hbmCorrected g) := h.addSat.count.ite h.hbmLost

theorem Follows.findWord {g w} (h : Follows o s) : Follows o (s.findWord g w) := h.hbmLost.ite (h.same.ite h)

theorem Follows.find {g f} (h : Follows o s) : Follows o (s.find g f) := by
  unfold State.find
  split
  · exact h
  · exact h.same
  · exact h.hbmCorrected
  · exact h.hbmLost
  · exact h.findWord

theorem Follows.scrubPassEnd (h : Follows o s) : Follows o s.scrubPassEnd :=
  h.ite (h.foldl fun _ _ h1 => h1.wr).setEvent.readDies

theorem Follows.hbmTemp {k t'} (h : Follows o s) : Follows o (s.hbmTemp k t') :=
  ((h.ite h.same.setEvent).thus fun h1 => h1.healthInput.ite h1).ite h.same

theorem Follows.refresh {ch} (h : Follows o s) : Follows o (s.refresh ch) := h.count.drawn

theorem Follows.healthDecides {h'} (h : Follows o s) : Follows o (s.healthDecides h') := by
  unfold State.healthDecides
  extract_lets +onlyGivenNames s1
  have h1 : Follows o s1 := h.healthInput
  split
  · exact h1.failing
  · exact h1

theorem Follows.markAll {m} (h : Follows o s) : Follows o (s.markAll m) := h.foldl fun _ _ h1 => h1.send

end Sys2Proof.Machine
end

section
/-! PROOFS. What follows a state through the operations of Machine/Translate.lean. -/

namespace Sys2Proof.Machine

variable {o s : State}

theorem Follows.setTlb {u x} (h : Follows o s) : Follows o (s.setTlb u x) := h.same

theorem Follows.tlbPut {u cap e} (h : Follows o s) : Follows o (s.tlbPut u cap e) := h.setTlb

theorem Follows.translate {u cap t' va write fetch} (h : Follows o s) :
    Follows o (s.translate u cap t' va write fetch).1 := by
  unfold State.translate
  split
  · exact h
  · split
    · exact h
    · exact h.tlbPut

theorem Follows.translatePieces {u cap t' write x} (h : Follows o s) :
    Follows o (s.translatePieces u cap t' write x).1 := by
  induction x generalizing s with
  | nil => exact h
  | cons x xs ih =>
    obtain ⟨_, _⟩ := x
    rw [State.translatePieces]
    split
    · exact h.translate.of_eq ‹_›
    · rename_i e2
      have h1 := h.translate.of_eq e2
      split
      · split
        · exact (ih h1).of_eq ‹_›
        · exact ih h1
      · exact h1

theorem Follows.translateSpan {u cap t' va n write} (h : Follows o s) :
    Follows o (s.translateSpan u cap t' va n write).1 :=
  h.iteFst h.translatePieces

theorem Follows.checkSpans {u cap t' write x} (h : Follows o s) : Follows o (s.checkSpans u cap t' write x).1 := by
  induction x generalizing s with
  | nil => exact h
  | cons x xs ih =>
    obtain ⟨_, _⟩ := x
    rw [State.checkSpans]
    split
    · exact h.translateSpan.of_eq ‹_›
    · exact ih (h.translateSpan.of_eq ‹_›)

theorem Follows.touchSpans {ps t' u streaming} (h : Follows o s) : Follows o (s.touchSpans ps t' u streaming) :=
  h.foldl fun _ _ h1 => h1.readAs

theorem Follows.writeSpans {x x'} (h : Follows o s) : Follows o (s.writeSpans x x') := by
  induction x generalizing s x' with
  | nil => exact h
  | cons x xs ih =>
    obtain ⟨_, _⟩ := x
    exact ih h.write

theorem Follows.fetchSpan {u cap t' va n streaming} (h : Follows o s) :
    Follows o (s.fetchSpan u cap t' va n streaming).1 := by
  unfold State.fetchSpan
  split
  · exact h.translateSpan.of_eq ‹_›
  · exact (h.translateSpan.of_eq ‹_›).touchSpans.thus fun h1 => h1.iteFst h1

theorem Follows.storeSpan {u cap t' va bs} (h : Follows o s) : Follows o (s.storeSpan u cap t' va bs).1 := by
  unfold State.storeSpan
  split
  · exact h.translateSpan.of_eq ‹_›
  · exact (h.translateSpan.of_eq ‹_›).writeSpans

theorem Follows.mapPage {t' va f w exec} (h : Follows o s) : Follows o (s.mapPage t' va f w exec) :=
  h.ite h.write.write

theorem Follows.unmapPage {t' va} (h : Follows o s) : Follows o (s.unmapPage t' va) := h.ite h.write

theorem Follows.mapPages {fuel t' va fs big w exec} (h : Follows o s) :
    Follows o (s.mapPages fuel t' va fs big w exec) := by
  induction fuel generalizing s va fs with
  | zero => exact h
  | succ n ih =>
    unfold State.mapPages
    split
    · exact h
    · exact (ih h.write).ite (ih h.mapPage)

theorem Follows.unmapPages {t' va n} (h : Follows o s) : Follows o (s.unmapPages t' va n) :=
  ((h.foldl fun _ _ h1 => h1.unmapPage).foldl fun _ _ h2 => h2.write.ite h2).markAll

theorem Follows.freeTables {t'} (h : Follows o s) : Follows o (s.freeTables t') := h.zeroRange.zeroRange

theorem Follows.grantFrame {t' write f} (h : Follows o s) : Follows o (s.grantFrame t' write f) := h.setIso

theorem Follows.revokeFrame {t' f} (h : Follows o s) : Follows o (s.revokeFrame t' f) := h.setIso

theorem Follows.markFrames {fs} (h : Follows o s) : Follows o (s.markFrames fs) := h.foldl fun _ _ h1 => h1.markAll

theorem Follows.grantFrames {t' write fs} (h : Follows o s) : Follows o (s.grantFrames t' write fs) :=
  (h.foldl fun _ _ h1 => h1.grantFrame).markFrames

theorem Follows.revokeFrames {t' fs} (h : Follows o s) : Follows o (s.revokeFrames t' fs) :=
  (h.foldl fun _ _ h1 => h1.revokeFrame).markFrames

theorem Follows.retire {fs} (h : Follows o s) : Follows o (s.retire fs) := h.same

theorem Follows.settleRetired (h : Follows o s) : Follows o s.settleRetired :=
  h.ite (h.foldl fun _ _ h1 => h1.zeroRange).same

theorem Follows.forwardMarker {u m} (h : Follows o s) : Follows o (s.forwardMarker u m) := by
  unfold State.forwardMarker
  extract_lets +onlyGivenNames s1
  have h1 : Follows o s1 := h.popMsg.setTlb
  refine Follows.settleRetired ?_
  split
  · exact h1.emit
  · exact h1.emit
  · exact h1

theorem Follows.forward {u m} (h : Follows o s) : Follows o (s.forward u m) := by
  unfold State.forward
  split
  · exact h.popMsg.emit
  · exact h.snapshotMarker
  · exact h.forwardMarker

theorem Follows.passMarkersIf {p u x} (h : Follows o s) : Follows o (State.passMarkersIf p u x s) := by
  induction x generalizing s with
  | zero => exact h
  | succ n ih =>
    rw [State.passMarkersIf]
    split
    · exact (ih h.forward).ite h
    · exact h

theorem Follows.passMarkers {u} (h : Follows o s) : Follows o (s.passMarkers u) := h.passMarkersIf

theorem Follows.passAll (h : Follows o s) : Follows o s.passAll := h.foldl fun _ _ h1 => h1.passMarkers

end Sys2Proof.Machine
end

section
/-! PROOFS. What follows a state through the operations of Machine/Rings.lean. -/

namespace Sys2Proof.Machine

variable {o s : State}

theorem Follows.showHalted {o'} (h : Follows o s) : Follows o (s.showHalted o') := h.wr.ite h.wr

theorem Follows.setSq {o' r x} (h : Follows o s) : Follows o (s.setSq o' r x) :=
  h.same.wr.showHalted.ite h.modTenant.showHalted

theorem Follows.setCq {o' r x} (h : Follows o s) : Follows o (s.setCq o' r x) := h.same.wr.ite h.modTenant

theorem Follows.modEntry {o' r cid f} (h : Follows o s) : Follows o (s.modEntry o' r cid f) := by
  unfold State.modEntry
  split
  · exact h.setSq
  · exact h

theorem Follows.finishOne {o' r cid status res0 res1} (h : Follows o s) :
    Follows o (s.finishOne o' r cid status res0 res1) := by
  unfold State.finishOne
  split
  · exact h
  · split
    · exact h
    · refine h.ite ?_
      refine h.setSq.ite ?_
      split
      · exact h.setSq.setCq
      · exact h.setSq

theorem Follows.settleWaits (h : Follows o s) : Follows o s.settleWaits := by
  unfold State.settleWaits
  refine h.ite ?_
  refine h.same.foldl fun _ _ h1 => ?_
  split
  · exact h1.finishOne
  · exact h1

theorem Follows.finish {o' r cid status res0 res1} (h : Follows o s) :
    Follows o (s.finish o' r cid status res0 res1) :=
  h.settleWaits.finishOne

theorem Follows.markFaults {o' r cid} (h : Follows o s) : Follows o (s.markFaults o' r cid) := h.modEntry

theorem Follows.halt {o' r st} (h : Follows o s) : Follows o (s.halt o' r st) := by
  unfold State.halt
  split
  · exact h
  · exact h.setSq.setEvent.ite h.setSq

theorem Follows.closeAborts (h : Follows o s) : Follows o s.closeAborts := h.same.foldl fun _ _ h1 => h1.finish

theorem Follows.recorded {cid} (h : Follows o s) : Follows o (s.recorded cid) := h.same.closeAborts

theorem Follows.adminIdle (h : Follows o s) : Follows o s.adminIdle := h.same.showHalted.ite h

theorem Follows.recordWrite {o' c ok} (h : Follows o s) : Follows o (s.recordWrite o' c ok) := by
  unfold State.recordWrite
  extract_lets +onlyGivenNames s1
  have h1 : Follows o s1 := h.settleWaits
  split
  · exact h1
  · split
    · exact h1
    · refine h1.ite ?_
      split
      · exact h1.setCq
      · exact (h1.hostWrite.ite h1.setEvent).setCq.modEntry.drawn.thus fun h2 => (h2.raise.ite h2).thus fun h3 =>
          (h3.halt.ite h3).recorded.adminIdle

theorem Follows.stageEntry {o' r bytes} (h : Follows o s) : Follows o (s.stageEntry o' r bytes) := by
  unfold State.stageEntry
  split
  · exact h
  · exact h.same.setSq.thus fun h1 => h1.finish.ite h1

theorem Follows.fetchEnd {o' r es ok} (h : Follows o s) : Follows o (s.fetchEnd o' r es ok) := by
  unfold State.fetchEnd
  split
  · exact h
  · exact h.ite (h.setEvent.halt.ite (h.emit.count.foldl fun _ _ h1 => h1.stageEntry))

theorem Follows.passTurn {t' r} (h : Follows o s) : Follows o (s.passTurn t' r) := h.same

theorem Follows.startEntry {o' r e run} (h : Follows o s) (hf : ∀ s x1, Follows o s → Follows o (run s x1)) :
    Follows o (s.startEntry o' r e run) :=
  h.modEntry.finish.ite (h.modEntry.finish.ite (hf _ _ h.modEntry))

theorem Follows.runCommand {t' r opc run} (h : Follows o s) (hf : ∀ s x1, Follows o s → Follows o (run s x1)) :
    Follows o (s.runCommand t' r opc run) := by
  unfold State.runCommand
  extract_lets +onlyGivenNames s1
  have h1 : Follows o s1 := h.settleWaits
  refine h1.ite ?_
  split
  · exact h1
  · exact h1.ite (h1.passTurn.startEntry (fun _ _ h2 => hf _ _ h2))

theorem Follows.runAdmin {opc run} (h : Follows o s) (hf : ∀ s x1, Follows o s → Follows o (run s x1)) :
    Follows o (s.runAdmin opc run) := by
  unfold State.runAdmin
  extract_lets +onlyGivenNames s1
  have h1 : Follows o s1 := h.settleWaits
  refine h1.ite ?_
  split
  · exact h1
  · exact h1.ite (h1.startEntry (fun _ _ h2 => hf _ _ h2))

theorem Follows.newTail {o' r v} (h : Follows o s) : Follows o (s.newTail o' r v) := by
  unfold State.newTail
  split
  · exact h
  · exact h.halt.ite h.setSq

theorem Follows.newHead {o' c v} (h : Follows o s) : Follows o (s.newHead o' c v) := by
  unfold State.newHead
  split
  · exact h
  · exact h.ite h.setCq

theorem Follows.ringResume {o' r} (h : Follows o s) : Follows o (s.ringResume o' r) := by
  unfold State.ringResume
  split
  · exact h.setSq.ite h
  · exact h

theorem Follows.ringFlush {o' r} (h : Follows o s) : Follows o (s.ringFlush o' r) := by
  unfold State.ringFlush
  split
  · exact (h.foldl fun _ _ h1 => h1.finish).ringResume.ite h
  · exact h

theorem Follows.adminDoorbell {v} (h : Follows o s) : Follows o (s.adminDoorbell v) := h.ite h.setReg.newTail.newHead

theorem Follows.adminEnable {v} (h : Follows o s) : Follows o (s.adminEnable v) :=
  h.setReg.adminIdle.ite (h.setReg.ite h.setReg.same.setSq.setCq)

end Sys2Proof.Machine
end

section
/-! PROOFS. What follows a state through the operations of Machine/Scale.lean. -/

namespace Sys2Proof.Machine

variable {o s : State}

theorem Follows.putArea {t' i off bs} (h : Follows o s) : Follows o (s.putArea t' i off bs) := by
  unfold State.putArea
  split
  · exact h.write
  · exact h

theorem Follows.setNum {t' n} (h : Follows o s) : Follows o (s.setNum t' n) := h.modTenant.putArea

theorem Follows.setRec {t' r} (h : Follows o s) : Follows o (s.setRec t' r) := h.modTenant.putArea

theorem Follows.modRec {t' h' f} (h : Follows o s) : Follows o (s.modRec t' h' f) := by
  unfold State.modRec
  split
  · exact h.setRec
  · exact h

theorem Follows.mapRecs {t' f} (h : Follows o s) : Follows o (s.mapRecs t' f) := h.foldl fun _ _ h1 => h1.modRec

theorem Follows.scaleEvent {t' code a0 a1} (h : Follows o s) : Follows o (s.scaleEvent t' code a0 a1) := h.tell

theorem Follows.takeAmax {x} (h : Follows o s) : Follows o (s.takeAmax x) := by
  unfold State.takeAmax
  split
  · exact h
  · exact (h.scaleEvent.ite h).setRec

theorem Follows.amaxReport (h : Follows o s) : Follows o s.amaxReport := by
  unfold State.amaxReport
  split
  · exact h
  · exact h.same.takeAmax

theorem Follows.reportAmax {t' h' amax nonfinite fmt scale} (h : Follows o s) :
    Follows o (s.reportAmax t' h' amax nonfinite fmt scale) :=
  h.same

theorem Follows.fellBack {t' n} (h : Follows o s) : Follows o (s.fellBack t' n) := h.ite h.setNum.scaleEvent

theorem Follows.rebuilt {t' before} (h : Follows o s) : Follows o (s.rebuilt t' before) := h.scaleEvent.ite h

theorem Follows.escalateOne {t' h' f} (h : Follows o s) : Follows o (s.escalateOne t' h' f) :=
  h.modRec.setEvent.scaleEvent

theorem Follows.escalate {t' h'} (h : Follows o s) : Follows o (s.escalate t' h').1 := by
  unfold State.escalate
  split
  · exact h
  · split
    · exact h
    · extract_lets +onlyGivenNames s1
      have h1 : Follows o s1 := h.escalateOne
      split
      · exact h1.escalateOne.iteFst h1
      · exact h1

theorem Follows.commitScore {s' t' h'} (h : Follows o s'.1) : Follows o (State.commitScore s' t' h').1 := by
  unfold State.commitScore
  split
  · exact h
  · refine Follows.iteFst ?_ ?_
    · exact h
    · extract_lets +onlyGivenNames score s1
      have h1 : Follows o s1 := h.setRec
      refine Follows.iteFst ?_ ?_
      · extract_lets +onlyGivenNames s2
        have h2 : Follows o s2.1 := h1.escalate
        exact h2
      · exact h1

theorem Follows.commitScales {t' step} (h : Follows o s) : Follows o (s.commitScales t' step) :=
  (h.mapRecs.rebuilt.foldlFst fun _ _ h1 => h1.commitScore).fellBack.mapRecs

theorem Follows.backOffRec {s' t' h'} (h : Follows o s'.1) : Follows o (State.backOffRec s' t' h').1 := by
  unfold State.backOffRec
  split
  · exact h
  · refine Follows.iteFst ?_ ?_
    · exact h
    · extract_lets +onlyGivenNames num r r
      refine Follows.iteFst ?_ ?_
      · extract_lets +onlyGivenNames s1
        have h1 : Follows o s1 := h.setRec
        refine Follows.iteFst ?_ ?_
        · extract_lets +onlyGivenNames s2
          have h2 : Follows o s2.1 := h1.escalate
          exact h2
        · exact h1
      · exact h.setRec

theorem Follows.backOff {t'} (h : Follows o s) : Follows o (s.backOff t') :=
  (h.setNum.mapRecs.foldlFst fun _ _ h1 => h1.backOffRec).fellBack

theorem Follows.clearStepNums {t'} (h : Follows o s) : Follows o (s.clearStepNums t') := h.setNum.mapRecs

theorem Follows.poisonNow {t' cause unit h'} (h : Follows o s) : Follows o (s.poisonNow t' cause unit h') :=
  h.ite h.setNum

theorem Follows.poisonSource (h : Follows o s) : Follows o s.poisonSource := by
  unfold State.poisonSource
  split
  · exact h
  · exact h.same.poisonNow

theorem Follows.sendPoison {t' cause unit h'} (h : Follows o s) : Follows o (s.sendPoison t' cause unit h') := h.same

theorem Follows.numericPolicy {t' r e} (h : Follows o s) : Follows o (s.numericPolicy t' r e) := by
  unfold State.numericPolicy
  refine h.finish.ite ?_
  split
  · exact h.finish
  · exact h.setNum.finish

end Sys2Proof.Machine
end

section
/-! PROOFS. What follows a state through the operations of Machine/StepBase.lean. -/

namespace Sys2Proof.Machine

variable {o s : State}

theorem Follows.modStep {t' f} (h : Follows o s) : Follows o (s.modStep t' f) := h.modTenant

theorem Follows.setPhase {t' p} (h : Follows o s) : Follows o (s.setPhase t' p) := h.modStep.wr

theorem Follows.endCmd {t' cid status r0 r1} (h : Follows o s) : Follows o (s.endCmd t' cid status r0 r1) := h.finish

theorem Follows.engines {t' busy} (h : Follows o s) : Follows o (s.engines t' busy) := h.wr.wr

theorem Follows.enginesOff {t'} (h : Follows o s) : Follows o (s.enginesOff t') := h.engines.ite h

theorem Follows.endStep {t'} (h : Follows o s) : Follows o (s.endStep t') :=
  h.enginesOff.clearStepNums.modStep.setPhase.foldl fun _ _ h1 => h1.endCmd

theorem Follows.rewind {t'} (h : Follows o s) : Follows o (s.rewind t') := h.modStep

theorem Follows.settleReports {t'} (h : Follows o s) : Follows o (s.settleReports t') :=
  (h.same.foldl fun _ _ h1 => h1.takeAmax).foldl fun _ _ h2 => h2.poisonNow

theorem Follows.poisonEnd {t'} (h : Follows o s) : Follows o (s.poisonEnd t') := h.setNum.backOff.ite h

theorem Follows.abortStep {t'} (h : Follows o s) : Follows o (s.abortStep t') := by
  unfold State.abortStep
  refine h.ite ?_
  extract_lets +onlyGivenNames s1 s2
  have h1 : Follows o s2 := h.settleReports.rewind.poisonEnd.setEvent.endStep
  split
  · exact h1.endCmd
  · exact h1.tell

theorem Follows.afterCode {t' code} (h : Follows o s) : Follows o (s.afterCode t' code) := h.abortStep.ite h

theorem Follows.finishMem {o' r cid code kind unit va pa res0} (h : Follows o s) :
    Follows o (s.finishMem o' r cid code kind unit va pa res0) :=
  h.memFault.markFaults.finish.afterCode

end Sys2Proof.Machine
end

section
/-! PROOFS. What follows a state through the operations of Machine/Agm.lean. -/

namespace Sys2Proof.Machine

variable {o s : State}

theorem Follows.agmRestart (h : Follows o s) : Follows o s.agmRestart := h.same.drawn

theorem Follows.countBlocks {n sample} (h : Follows o s) : Follows o (s.countBlocks n sample) :=
  h.ite (h.same.times fun _ h1 => h1.same.ite h1)

theorem Follows.samplePoint (h : Follows o s) : Follows o s.samplePoint := by
  unfold State.samplePoint
  split
  · exact h
  · exact h.same.same.wr.ite h.same.addSat.setEvent.count

theorem Follows.sampleFinish (h : Follows o s) : Follows o s.sampleFinish := by
  unfold State.sampleFinish
  split
  · exact h
  · exact h.same.wr.add.count.thus fun h1 => (h1.ite h1.modRec).thus fun h2 =>
      (h2.setEvent.count.tell.ite h2).thus fun h3 => (h3.setEvent.count.tell.healthInput.thus fun h4 =>
      h4.sendPoison.ite h4).ite h3

theorem Follows.dropSamples {t'} (h : Follows o s) : Follows o (s.dropSamples t') := h.same.wr

end Sys2Proof.Machine
end

section
/-! PROOFS. What follows a state through the operations of Machine/PlaceOps.lean. -/

namespace Sys2Proof.Machine

variable {o s : State}

theorem Follows.modPlace {t' f} (h : Follows o s) : Follows o (s.modPlace t' f) := h.modTenant

theorem Follows.endBoundary {t'} (h : Follows o s) : Follows o (s.endBoundary t') := h.modPlace

theorem Follows.modTensor {t' h' f} (h : Follows o s) : Follows o (s.modTensor t' h' f) := h.modPlace

theorem Follows.convertGroups {corr fs} (h : Follows o s) : Follows o (s.convertGroups corr fs) :=
  h.foldl fun _ _ h1 => h1.ite h1.setClass

theorem Follows.setMapEntry {f slice hint} (h : Follows o s) : Follows o (s.setMapEntry f slice hint) :=
  h.setReg.ite h

theorem Follows.homeFrames {fs slices hint} (h : Follows o s) : Follows o (s.homeFrames fs slices hint) :=
  h.foldl fun _ _ h1 => h1.flushRange.setMapEntry

theorem Follows.packPart {t' cls corr x done slices hint} (h : Follows o s) :
    FollowsSome o (s.packPart t' cls corr x done slices hint) := by
  unfold State.packPart
  extract_lets +onlyGivenNames p n mine part
  split
  · exact .some h.modPlace
  · split
    · extract_lets k
      split
      · exact .none
      · exact .some h.convertGroups.homeFrames.grantFrames.mapPage.modPlace
    · exact .none

theorem Follows.mapPart {t' cls q} (h : Follows o s) : Follows o (s.mapPart t' cls q) := h.mapPages

theorem Follows.wholePart {t' cls corr x done slices hint inForce} (h : Follows o s) :
    FollowsSome o (s.wholePart t' cls corr x done slices hint inForce) := by
  unfold State.wholePart
  extract_lets +onlyGivenNames n fs va
  split
  · exact .none
  · exact .some (h.convertGroups.homeFrames.grantFrames.thus fun h1 => h1.mapPart.ite h1)

theorem Follows.writePart {q off bs} (h : Follows o s) : Follows o (s.writePart q off bs) := h.writeSpans

theorem Follows.openMeta {t' h' fmt n cap q} (h : Follows o s) : Follows o (s.openMeta t' h' fmt n cap q) :=
  (h.writePart.ite h).thus fun h1 => h1.ite h1.same

theorem Follows.buildParts {t' h' cls fmt n cap corr slices reuse inForce x x'} (h : Follows o s) :
    FollowsSome o (s.buildParts t' h' cls fmt n cap corr slices reuse inForce x x') := by
  induction x generalizing s x' with
  | nil => exact .some h
  | cons x xs ih =>
    rw [State.buildParts]
    split
    · exact .none
    · rename_i s1 q e
      have h1 : Follows o s1 := by
        refine FollowsSome.of_eq ?_ e
        split
        · exact h.packPart
        · exact h.wholePart
      exact ih (h1.openMeta.ite h1)

theorem Follows.unpack {t' f} (h : Follows o s) : Follows o (s.unpack t' f) := by
  unfold State.unpack
  extract_lets +onlyGivenNames p
  split
  · exact h
  · exact h.modPlace.ite h.unmapPages.revokeFrames.retire.modPlace

theorem Follows.releasePart {t' q} (h : Follows o s) : Follows o (s.releasePart t' q) := by
  unfold State.releasePart
  split
  · exact h.unpack
  · exact h.unmapPages.revokeFrames.retire

theorem Follows.detachPart {t' q} (h : Follows o s) : Follows o (s.detachPart t' q) := h.unmapPages.revokeFrames

theorem Follows.modFrozen {name f} (h : Follows o s) : Follows o (s.modFrozen name f) := h.same

theorem Follows.dropImages {z} (h : Follows o s) : Follows o (s.dropImages z) := h.same

theorem Follows.dropSpill {t' h'} (h : Follows o s) : Follows o (s.dropSpill t' h') := h.same

theorem Follows.releaseParts {t' x} (h : Follows o s) : Follows o (s.releaseParts t' x) := by
  unfold State.releaseParts
  split
  · exact (h.foldl fun _ _ h1 => h1.releasePart).dropSpill
  · exact (h.foldl fun _ _ h2 => h2.detachPart).modFrozen.ite (h.foldl fun _ _ h3 => h3.releasePart).dropImages.same

theorem Follows.removeTensor {t' x} (h : Follows o s) : Follows o (s.removeTensor t' x) := by
  unfold State.removeTensor
  exact h.releaseParts.same.modTenant

end Sys2Proof.Machine
end

section
/-! PROOFS. What follows a state through the operations of Machine/Copies.lean. -/

namespace Sys2Proof.Machine

variable {o s : State}

theorem Follows.writeCopy {t' fmt tile amax mode data md vs} (h : Follows o s) :
    Follows o (s.writeCopy t' fmt tile amax mode data md vs) := by
  unfold State.writeCopy
  exact h.same.writePart.writePart.thus fun h1 => (h1.ite h1.writePart).writePart.countBlocks

theorem Follows.writeCopies {t' fmt tile amax key c0 ps side vs} (h : Follows o s) :
    Follows o (s.writeCopies t' fmt tile amax key c0 ps side vs) := by
  unfold State.writeCopies
  extract_lets +onlyGivenNames l s1
  have h1 : Follows o s1 := by
    subst s1
    split
    · exact h.writeCopy
    · exact h
  clear_value s1
  split
  · exact h1.writeCopy
  · exact h1

end Sys2Proof.Machine
end

section
/-! PROOFS. What follows a state through the operations of Machine/Place.lean. -/

namespace Sys2Proof.Machine

variable {o s : State}

theorem Follows.fwRead {t' va n} (h : Follows o s) : Follows o (s.fwRead t' va n).1 := h.fetchSpan

theorem Follows.fwWrite {t' va bs} (h : Follows o s) : Follows o (s.fwWrite t' va bs).1 := h.storeSpan

theorem Follows.withRecord {t' r e va n k} (h : Follows o s) (hf : ∀ s x1, Follows o s → Follows o (k s x1)) :
    Follows o (s.withRecord t' r e va n k) := by
  unfold State.withRecord
  refine h.finish.ite ?_
  split
  · exact (h.fwRead.of_eq ‹_›).finishMem
  · exact hf _ _ (h.fwRead.of_eq ‹_›)

theorem Follows.modParts {t' x f} (h : Follows o s) : Follows o (s.modParts t' x f) := by
  unfold State.modParts
  extract_lets +onlyGivenNames s1
  have h1 : Follows o s1 := h.foldl fun _ _ h2 => h2.modTensor
  split
  · exact h1.modFrozen
  · exact h1

theorem Follows.modPart {t' x q f} (h : Follows o s) : Follows o (s.modPart t' x q f) := h.modParts

theorem Follows.unmapPart {t' x q} (h : Follows o s) : Follows o (s.unmapPart t' x q) := by
  unfold State.unmapPart
  refine h.foldl fun _ _ h1 => ?_
  split
  · exact h1.detachPart
  · exact h1

theorem Follows.remapPart {t' x q} (h : Follows o s) : Follows o (s.remapPart t' x q) := by
  unfold State.remapPart
  refine h.foldl fun _ _ h1 => ?_
  split
  · exact h1.grantFrames.mapPart
  · exact h1

theorem Follows.moveDigest {old new} (h : Follows o s) : Follows o (s.moveDigest old new) := by
  unfold State.moveDigest
  split
  · exact h.same
  · exact h

theorem Follows.spillPart {t' x q} (h : Follows o s) : Follows o (s.spillPart t' x q) := by
  unfold State.spillPart
  extract_lets +onlyGivenNames _ s1 s2 s3
  have h1 : Follows o s3 := ((h.ite (h.foldl fun _ _ h2 => h2.same).tlcWrite.setBucket).foldl fun _ _ h3 =>
    h3.flushRange).unmapPart.retire
  extract_lets +onlyGivenNames s4
  have h4 : Follows o s4 := by
    subst s4
    split
    · exact h1.foldl fun _ _ h5 => h5.moveDigest
    · exact h1
  clear_value s4
  exact h4.modPart

theorem Follows.spillTurns {corr n top x} (h : Follows o s) : Follows o (s.spillTurns corr n top x) := by
  induction x generalizing s with
  | zero => exact h
  | succ n ih =>
    rw [State.spillTurns]
    refine h.ite ?_
    split
    · exact ih h.spillPart.passAll
    · exact h

theorem Follows.spillFor {corr n top} (h : Follows o s) : Follows o (s.spillFor corr n top) :=
  h.ite h.passAll.spillTurns

theorem Follows.poisonFrame {f d} (h : Follows o s) : Follows o (s.poisonFrame f d) :=
  h.foldl fun _ _ h1 => h1.hbmWrite

theorem Follows.fetchFrame {t' x q f i bad} (h : Follows o s) : Follows o (s.fetchFrame t' x q f i bad) := by
  unfold State.fetchFrame
  split
  extract_lets +onlyGivenNames s1
  have h1 : Follows o s1 := by
    subst s1
    split
    · exact h.moveDigest
    · exact h
  clear_value s1
  exact h1.write.ite h1.poisonFrame.tell

theorem Follows.fetchPart {t' x q bad} (h : Follows o s) : FollowsOpt o (s.fetchPart t' x q bad) := by
  unfold State.fetchPart
  extract_lets +onlyGivenNames n s1 fs
  have h1 : Follows o s1 := h.spillFor
  split
  · exact .none
  · exact .some ((h1.convertGroups.homeFrames.foldl fun _ _ h2 => h2.fetchFrame).modPart.remapPart.same)

theorem Follows.fetchTensor {t' x bad} (h : Follows o s) : Follows o (s.fetchTensor t' x bad) :=
  h.foldl fun _ _ h1 => h1.fetchPart.getD h1

theorem Follows.loadRec {t' h' scale amax} (h : Follows o s) : Follows o (s.loadRec t' h' scale amax) :=
  h.modRec.rebuilt

theorem Follows.enterTensor {t' x slot} (h : Follows o s) : Follows o (s.enterTensor t' x slot) :=
  (h.modPlace.setRec.fellBack.ite h.modPlace).thus fun h1 => h1.modRec.ite h1

theorem Follows.buildTensor {t' x} (h : Follows o s) : FollowsOk o (s.buildTensor t' x) := by
  unfold State.buildTensor
  extract_lets +onlyGivenNames corr specs whole packs charge packCharge
  split
  · exact .error
  · extract_lets +onlyGivenNames s1
    split
    · exact .error
    · exact .ok (h.spillFor.buildParts.of_eq ‹_›)

theorem Follows.attachTensor {t' x z} (h : Follows o s) : FollowsOk o (s.attachTensor t' x z) := by
  unfold State.attachTensor
  split
  · exact .error
  · extract_lets +onlyGivenNames charge
    split
    · exact .error
    · extract_lets +onlyGivenNames ps
      split
      · exact .error
      · exact .ok ((h.foldl fun _ _ h1 => h1.grantFrames.mapPart).same.modFrozen)

theorem Follows.allocate {t' d} (h : Follows o s) : FollowsOk o (s.allocate t' d) := by
  unfold State.allocate
  extract_lets +onlyGivenNames x
  split
  · exact .error
  · split
    · exact .error
    · exact .error
    · extract_lets +onlyGivenNames y slot
      split
      · exact .error
      · extract_lets +onlyGivenNames named
        split
        · exact .error
        · extract_lets +onlyGivenNames made
          have hmade : FollowsOk o made := by
            subst made
            split
            · exact h.attachTensor
            · exact h.buildTensor
          clear_value made named
          split
          · exact .error
          · rename_i s1 z
            have h1 : Follows o s1 := hmade.of_eq rfl
            extract_lets +onlyGivenNames s2
            have h2 : Follows o s2 := h1.enterTensor
            split
            · split
              · exact .ok h2.loadRec
              · exact .ok h2
            · split
              · exact .ok h2.same
              · exact .ok h2

theorem Follows.alloc {t' r e} (h : Follows o s) : Follows o (s.alloc t' r e) := by
  unfold State.alloc
  refine Follows.withRecord h fun _ _ h1 => ?_
  split
  · exact h1.finish
  · exact (h1.allocate.of_eq ‹_›).finish

theorem Follows.freeTensor {t' r e} (h : Follows o s) : Follows o (s.freeTensor t' r e) := by
  unfold State.freeTensor
  extract_lets +onlyGivenNames x
  split
  · exact h.finish
  · exact h.finish.ite h.modTensor.finish

theorem Follows.query {t' r e} (h : Follows o s) : Follows o (s.query t' r e) := by
  unfold State.query
  refine h.finish.ite ?_
  refine h.finish.ite ?_
  extract_lets +onlyGivenNames xs recs fit bytes
  split
  · exact (h.fwWrite.of_eq ‹_›).finishMem
  · exact (h.fwWrite.of_eq ‹_›).finish

theorem Follows.constrain {t' r e} (h : Follows o s) : Follows o (s.constrain t' r e) := by
  unfold State.constrain
  extract_lets +onlyGivenNames x set clear slices hint
  split
  · exact h.finish
  · exact h.finish.ite (h.finish.ite h.modTensor.modPlace.finish)

theorem Follows.frozenLoad {t' r e} (h : Follows o s) : Follows o (s.frozenLoad t' r e) := by
  unfold State.frozenLoad
  split
  · exact h.finish
  · refine h.finish.ite ?_
    split
    · exact h.finish
    · exact h.finish.ite h.modFrozen

theorem Follows.recordImages {z h'} (h : Follows o s) : Follows o (s.recordImages z h') :=
  (h.foldl fun _ _ h1 => h1.foldl fun _ _ h2 => h2.same).tlcWrite.setBucket

theorem Follows.loadFrozen {t' h' z ws} (h : Follows o s) : Follows o (s.loadFrozen t' h' z ws) :=
  h.writeCopies.recordImages.modFrozen.foldl fun _ _ h1 => h1.loadRec

theorem Follows.loadFrames {t' x} (h : Follows o s) : FollowsOpt o (s.loadFrames t' x) := by
  unfold State.loadFrames
  refine (FollowsOpt.some h).foldl fun _ _ hd => hd.bind fun s h1 => ?_
  extract_lets +onlyGivenNames n s1 fs
  split
  · exact .none
  · exact .some h1.spillFor.convertGroups.homeFrames.modPart.remapPart

theorem Follows.loadFailed {z} (h : Follows o s) : Follows o (s.loadFailed z) := h.modFrozen

theorem Follows.frozenLoadEnd {t' r idx data code} (h : Follows o s) :
    Follows o (s.frozenLoadEnd t' r idx data code) := by
  unfold State.frozenLoadEnd
  split
  · exact h
  · split
    · exact h
    · refine h.ite ?_
      split
      · exact h.loadFailed.finish
      · rename_i s1 e
        have h1 : Follows o s1 := FollowsOpt.elim (.some h) (fun _ => h.loadFrames) s1 e
        extract_lets +onlyGivenNames z fmt n x
        refine (h1.loadFailed.finish.afterCode.ite h1.loadFrozen.finish).ite ?_
        split
        · exact (h1.fetchSpan.of_eq ‹_›).loadFailed.finishMem
        · exact (h1.fetchSpan.of_eq ‹_›).loadFrozen.finish

end Sys2Proof.Machine
end

section
/-! PROOFS. What follows a state through the operations of Machine/Steps.lean. -/

namespace Sys2Proof.Machine

variable {o s : State}

theorem Follows.claim {t' i n} (h : Follows o s) : Follows o (s.claim t' i n).1 := h.modStep.pair

theorem Follows.writeRecord {t' slot r} (h : Follows o s) : Follows o (s.writeRecord t' slot r) := h.modStep.putArea

theorem Follows.writeStepWord {t' seq slot buf} (h : Follows o s) : Follows o (s.writeStepWord t' seq slot buf) :=
  h.modStep.putArea

theorem Follows.commitRecord {t'} (h : Follows o s) : Follows o (s.commitRecord t') := h.journalOffer

theorem Follows.skipRecord {t'} (h : Follows o s) : Follows o (s.skipRecord t') :=
  h.writeRecord.writeStepWord.commitRecord.tell

theorem Follows.refuse {t'} (h : Follows o s) : Follows o (s.refuse t') := by
  unfold State.refuse
  extract_lets +onlyGivenNames x s1 n s2
  have h1 : Follows o s2 := h.settleReports.rewind.poisonEnd.setEvent
  extract_lets +onlyGivenNames s3 s4
  have h2 : Follows o s4 := (h1.skipRecord.ite h1).endStep
  split
  · exact h2.event.endCmd
  · exact h2

theorem Follows.cancelStep {t' r e scb} (h : Follows o s) : Follows o (s.cancelStep t' r e scb) := by
  unfold State.cancelStep
  extract_lets +onlyGivenNames x
  split
  · exact h.finish
  · refine h.finish.ite ?_
    refine h.modStep.ite ?_
    extract_lets +onlyGivenNames s1
    have h1 : Follows o s1 := h.settleReports
    extract_lets +onlyGivenNames s2 s3
    have h2 : Follows o s3 := (h1.mapRecs.ite h1).rewind.endStep
    extract_lets +onlyGivenNames s4
    have h3 : Follows o s4 := by
      subst s4
      split
      · exact h2.endCmd
      · exact h2
    clear_value s4
    exact h3.finish

theorem Follows.withScb {t' r e k} (h : Follows o s) (hf : ∀ s x1, Follows o s → Follows o (k s x1)) :
    Follows o (s.withScb t' r e k) :=
  h.withRecord (fun _ _ h1 => (hf _ _ h1).ite h1.finish)

theorem Follows.acceptCommit {t' r e b} (h : Follows o s) : Follows o (s.acceptCommit t' r e b) :=
  h.finish.ite (h.finish.ite h.modStep)

theorem Follows.listInvalid {t'} (h : Follows o s) : Follows o (s.listInvalid t') := by
  unfold State.listInvalid
  split
  · exact h
  · exact h.modStep.setPhase.setEvent.endCmd

theorem Follows.updateFault {t' q code kind va pa} (h : Follows o s) :
    Follows o (s.updateFault t' q code kind va pa) := by
  unfold State.updateFault
  refine h.memFault.abortStep.ite ?_
  split
  · exact h.memFault
  · exact h.memFault.settleReports.rewind.poisonEnd.setEvent.endStep.markFaults.endCmd

theorem Follows.seal {t' updated} (h : Follows o s) : Follows o (s.seal t' updated) :=
  h.enginesOff.modStep.writeRecord.setPhase

theorem Follows.remapCopies {t'} (h : Follows o s) : Follows o (s.remapCopies t') :=
  h.foldl fun _ _ h1 => h1.unmapPages.mapPart.ite h1

theorem Follows.addSums {t'} (h : Follows o s) : Follows o (s.addSums t') := h.foldl fun _ _ h1 => h1.modRec

theorem Follows.floorsDue {t'} (h : Follows o s) : Follows o (s.floorsDue t') :=
  (h.dueLayer.ite h).thus fun h1 => (h1.dueLayer.ite h1).thus fun h2 => h2.dueLayer.ite h2

theorem Follows.postCommit {t' updated} (h : Follows o s) : Follows o (s.postCommit t' updated) := by
  unfold State.postCommit
  extract_lets +onlyGivenNames x r s1 s2 _ s3 s4 s5 s6
  have h1 : Follows o s6 := (h.remapCopies.ite h).commitScales.setNum.addSums.commitRecord.floorsDue.hostWrite.endStep
  split
  · exact h1.endCmd
  · exact h1

theorem Follows.commitPoint {t'} (h : Follows o s) : Follows o (s.commitPoint t') :=
  h.ite (h.ite (h.refuse.ite h.writeStepWord.setPhase.postCommit))

theorem Follows.startWork {t' ds} (h : Follows o s) : Follows o (s.startWork t' ds) := h.seal.ite h.modStep.engines

theorem Follows.listGood {t' ds} (h : Follows o s) : Follows o (s.listGood t' ds) :=
  (h.ite h.modStep.setEvent.tell).ite h.startWork

theorem Follows.readList {t'} (h : Follows o s) : Follows o (s.readList t') := by
  unfold State.readList
  refine h.listGood.ite ?_
  refine h.listInvalid.ite ?_
  split
  · exact (h.fetchSpan.of_eq ‹_›).updateFault
  · rename_i e2
    have h1 := h.fetchSpan.of_eq e2
    exact h1.listGood.ite h1.listInvalid

theorem Follows.updateStart {t'} (h : Follows o s) : Follows o (s.updateStart t') :=
  h.ite ((h.setPhase.foldl fun _ _ h1 => h1.passMarkers).thus fun h2 => h2.refuse.ite h2.readList)

theorem Follows.updateResume {t'} (h : Follows o s) : Follows o (s.updateResume t') :=
  h.ite (h.add.drawn.thus fun h1 => h1.refuse.ite h1.readList)

theorem Follows.putPart {ps code side w xs} (h : Follows o s) : Follows o (s.putPart ps code side w xs) := by
  unfold State.putPart
  split
  · exact h.writePart
  · exact h

theorem Follows.optimise {t' d w g} (h : Follows o s) : Follows o (s.optimise t' d w g).1 := by
  unfold State.optimise
  extract_lets +onlyGivenNames buf n res gw ws rs ms vs ls
  split
  · exact h
  · exact h.putPart.putPart.putPart.putPart.foldl fun _ _ h1 => h1.count

theorem Follows.panelCheck {t' reads writes x} (h : Follows o s) : Follows o (s.panelCheck t' reads writes x).1 := by
  induction x generalizing s with
  | nil => exact h
  | cons x xs ih =>
    rw [State.panelCheck]
    split
    · exact h.checkSpans.of_eq ‹_›
    · rename_i e2
      have h1 := h.checkSpans.of_eq e2
      split
      · exact h1.checkSpans.of_eq ‹_›
      · exact ih (h1.checkSpans.of_eq ‹_›)

theorem Follows.optimiserPassEnd {t'} (h : Follows o s) : Follows o (s.optimiserPassEnd t') := by
  unfold State.optimiserPassEnd
  split
  · exact h
  · refine h.refuse.ite ?_
    refine h.ite ?_
    split
    · exact h
    · split
      · exact h
      · extract_lets +onlyGivenNames buf
        split
        · exact (h.panelCheck.of_eq ‹_›).updateFault
        · rename_i e2
          have h1 := h.panelCheck.of_eq e2
          extract_lets +onlyGivenNames read
          split
          · exact h1.updateFault
          · split
            · exact (h1.optimise.of_eq ‹_›).poisonNow.refuse
            · exact (h1.optimise.of_eq ‹_›).modStep

theorem Follows.growCopy {t' w fmt code side} (h : Follows o s) : Follows o (s.growCopy t' w fmt code side) := by
  unfold State.growCopy
  split
  · exact h
  · exact h.ite h.convertGroups.homeFrames.grantFrames.modTensor

theorem Follows.openCopyMeta {fmt n w ps code side} (h : Follows o s) :
    Follows o (s.openCopyMeta fmt n w ps code side) := by
  unfold State.openCopyMeta
  split
  · exact h.writePart.ite h
  · exact h

theorem Follows.quantise {t' d w a} (h : Follows o s) : Follows o (s.quantise t' d w a) :=
  ((h.foldl fun _ _ h1 => h1.growCopy).foldl fun _ _ h2 => h2.openCopyMeta).thus fun h3 =>
    ((h3.claim.iteFst h3).writeCopies.foldl fun _ _ h4 => h4.count).reportAmax

theorem Follows.quantiserPassEnd {t'} (h : Follows o s) : Follows o (s.quantiserPassEnd t') := by
  unfold State.quantiserPassEnd
  split
  · exact h
  · refine h.refuse.ite ?_
    refine h.ite ?_
    split
    · exact h
    · split
      · exact h
      · split
        · exact (h.panelCheck.of_eq ‹_›).updateFault
        · exact (h.panelCheck.of_eq ‹_›).quantise.thus fun h1 => h1.seal.ite h1.modStep

theorem Follows.poisonArrives (h : Follows o s) : Follows o s.poisonArrives := by
  unfold State.poisonArrives
  split
  · exact h
  · exact h.poisonSource.thus fun h1 => h1.refuse.ite h1

end Sys2Proof.Machine
end

section
/-! PROOFS. What follows a state through the operations of Machine/Boundary.lean. -/

namespace Sys2Proof.Machine

variable {o s : State}

theorem Follows.copyFrame {f f'} (h : Follows o s) : Follows o (s.copyFrame f f') :=
  h.flushRange.write.same.moveDigest

theorem Follows.copyFrames {olds news} (h : Follows o s) : FollowsOpt o (s.copyFrames olds news) := by
  unfold State.copyFrames
  extract_lets +onlyGivenNames s1
  have h1 : Follows o s1 := h.foldl fun _ _ h2 => h2.copyFrame
  split
  · exact .some h1
  · exact .none

theorem Follows.movePart {t' x q sel corr top} (h : Follows o s) : FollowsOpt o (s.movePart t' x q sel corr top) :=
  .bindVal fun _ => h.convertGroups.homeFrames.copyFrames.map fun _ h1 =>
    (h1.unmapPart.ite h1.revokeFrames).modPart.thus fun h2 => (h2.remapPart.ite h2.grantFrames).retire

theorem Follows.movePack {t' k corr top} (h : Follows o s) : FollowsOpt o (s.movePack t' k corr top) :=
  .bindVal fun _ => h.convertGroups.setMapEntry.copyFrames.map fun _ h1 =>
    h1.unmapPages.revokeFrames.grantFrames.mapPage.modPlace.same.retire

theorem Follows.moveArea {t' i top} (h : Follows o s) : FollowsOpt o (s.moveArea t' i top) :=
  .bindVal fun _ => h.convertGroups.copyFrames.map fun _ h1 =>
    h1.unmapPages.revokeFrames.grantFrames.mapPage.modPlace.retire

theorem Follows.moveHeld {r sel top} (h : Follows o s) : FollowsOpt o (s.moveHeld r sel top) := by
  unfold State.moveHeld
  extract_lets +onlyGivenNames olds news
  split
  · exact .none
  · exact h.convertGroups.homeFrames.copyFrames.map fun _ h1 => h1.same.retire

theorem Follows.tryMove {f} (h : Follows o s) (hf : ∀ s, Follows o s → FollowsOpt o (f s)) :
    Follows o (s.tryMove f) :=
  (hf s h).getD h

theorem Follows.mapoutMoves {t'} (h : Follows o s) : Follows o (s.mapoutMoves t') := by
  unfold State.mapoutMoves
  split
  · exact h
  · exact ((h.foldl fun _ _ h1 => (h1.spillFor.tryMove fun _ h2 => h2.moveArea).ite h1).foldl fun _ _ h1 =>
      h1.spillFor.tryMove fun _ h2 => h2.movePack).foldl fun _ _ h1 => h1.foldl fun _ _ h2 =>
        h2.spillFor.tryMove fun _ h3 => h3.movePart

theorem Follows.planPins (h : Follows o s) : Follows o s.planPins := h.same

theorem Follows.pinTensor {t' x on} (h : Follows o s) : Follows o (s.pinTensor t' x on) :=
  (h.foldl fun _ _ h1 => h1.rangeRun).modParts

theorem Follows.declinePin {t' x} (h : Follows o s) : Follows o (s.declinePin t' x) := h.modTensor.tell.ite h

theorem Follows.changePins {k d} (h : Follows o s) : Follows o (s.changePins k d) :=
  h.ite (((h.foldl fun _ _ h1 => h1.pinTensor).foldl fun _ _ h2 => h2.pinTensor).foldl fun _ _ h3 =>
    h3.declinePin).same

theorem Follows.pinWork (h : Follows o s) : Follows o s.pinWork :=
  h.ite ((h.foldl fun _ _ h1 => h1.wr.wr).partitionApply.ite h.changePins)

theorem Follows.clearEscalation {t' h'} (h : Follows o s) : Follows o (s.clearEscalation t' h') := by
  unfold State.clearEscalation
  extract_lets +onlyGivenNames margin back
  split
  · exact h
  · exact h.modRec.modRec.fellBack.ite h.modRec.fellBack

theorem Follows.countMoved {t' n} (h : Follows o s) : Follows o (s.countMoved t' n) := h.modPlace

theorem Follows.moveClass {t' x corr} (h : Follows o s) : Follows o (s.moveClass t' x corr) :=
  (h.foldl fun _ _ h1 => h1.ite (h1.tryMove fun _ h2 => h2.movePart.map fun _ h3 =>
    h3.countMoved)).foldl fun _ _ h1 =>
    (h1.tryMove fun _ h2 => h2.movePack.map fun _ h3 => h3.countMoved).ite h1

theorem Follows.settleConstraint {t' x clear k} (h : Follows o s) : Follows o (s.settleConstraint t' x clear k) :=
  h.modTensor.thus fun h1 => (h1.modRec.ite h1).thus fun h2 => (h2.clearEscalation.ite h2).thus fun h3 =>
    ((h3.foldl fun _ _ h4 => h4.homeFrames).ite h3).thus fun h5 => h5.planPins.ite h5

theorem Follows.applyConstraint {t' h' clear k} (h : Follows o s) : Follows o (s.applyConstraint t' h' clear k) := by
  unfold State.applyConstraint
  split
  · exact h
  · extract_lets +onlyGivenNames corr s1
    have h1 : Follows o s1 := h.moveClass.ite h
    split
    · exact h1
    · exact h1.ite h1.settleConstraint

theorem Follows.constraintWork {t'} (h : Follows o s) : Follows o (s.constraintWork t') := by
  unfold State.constraintWork
  refine h.foldl fun _ _ h1 => ?_
  split
  · exact h1.applyConstraint
  · exact h1

theorem Follows.tryOpen {t'} (h : Follows o s) : Follows o (s.tryOpen t') := by
  unfold State.tryOpen
  split
  · exact h
  · exact h.ite (h.modStep.endCmd.ite (h.ite h.modStep.modPlace.endBoundary.mapRecs.setPhase.endCmd))

theorem Follows.boundaryWork {t' bad} (h : Follows o s) : Follows o (s.boundaryWork t' bad) :=
  h.ite (h.endBoundary.modPlace.ite ((h.mapRecs.mapoutMoves.foldl fun _ _ h1 =>
    h1.fetchTensor).pinWork.thus fun h2 => h2.modPlace.ite (h2.constraintWork.foldl fun _ _ h3 =>
    h3.removeTensor).modPlace.tryOpen))

theorem Follows.openStep {t' r e b} (h : Follows o s) : Follows o (s.openStep t' r e b) :=
  h.finish.ite (h.finish.ite (h.modStep.modPlace.thus fun h1 => (h1.ite h1.planPins).tryOpen))

end Sys2Proof.Machine
end

section
/-! PROOFS. What follows a state through the operations of Machine/TumBase.lean. -/

namespace Sys2Proof.Machine

variable {o s : State}

theorem Follows.modLaunch {l f} (h : Follows o s) : Follows o (s.modLaunch l f) := h.same

theorem Follows.setTumbler {u x} (h : Follows o s) : Follows o (s.setTumbler u x) := h.same

theorem Follows.modTumbler {u f} (h : Follows o s) : Follows o (s.modTumbler u f) := h.setTumbler

theorem Follows.setGroup {u g x} (h : Follows o s) : Follows o (s.setGroup u g x) := h.modTumbler

theorem Follows.modGroup {u g f} (h : Follows o s) : Follows o (s.modGroup u g f) := by
  unfold State.modGroup
  split
  · exact h.setGroup
  · exact h

theorem Follows.answerIssue {u g lane dst launch v} (h : Follows o s) :
    Follows o (s.answerIssue u g lane dst launch v) := by
  unfold State.answerIssue
  split
  · exact h
  · exact h.setGroup.ite h

theorem Follows.takeToken {u slot t' seq launch} (h : Follows o s) : Follows o (s.takeToken u slot t' seq launch) :=
  h.modTumbler

end Sys2Proof.Machine
end

section
/-! PROOFS. What follows a state through the operations of Machine/ArrDesc.lean. -/

namespace Sys2Proof.Machine

variable {o s : State}

theorem Follows.fetchVecs {u cap t' x} (h : Follows o s) : Follows o (s.fetchVecs u cap t' x).1 := by
  induction x generalizing s with
  | nil => exact h
  | cons x xs ih =>
    obtain ⟨_, _⟩ := x
    rw [State.fetchVecs]
    split
    · exact h.fetchSpan.of_eq ‹_›
    · rename_i e2
      have h1 := h.fetchSpan.of_eq e2
      split
      · exact (ih h1).of_eq ‹_›
      · exact ih h1

theorem Follows.storeVecs {u cap t' x} (h : Follows o s) : Follows o (s.storeVecs u cap t' x).1 := by
  induction x generalizing s with
  | nil => exact h
  | cons x xs ih =>
    obtain ⟨_, _⟩ := x
    rw [State.storeVecs]
    split
    · exact h.storeSpan.of_eq ‹_›
    · exact ih (h.storeSpan.of_eq ‹_›)

theorem Follows.scribble {u cap t' ps} (h : Follows o s) : Follows o (s.scribble u cap t' ps) :=
  h.foldl fun _ _ h1 => h1.storeSpan.same

end Sys2Proof.Machine
end

section
/-! PROOFS. What follows a state through the operations of Machine/ArrData.lean. -/

namespace Sys2Proof.Machine

variable {o s : State}

theorem Follows.readEntries {u cap t' fmt pos side count x x'} (h : Follows o s) :
    Follows o (s.readEntries u cap t' fmt pos side count x x').1 := by
  induction x generalizing s x' with
  | nil => exact h
  | cons x xs ih =>
    rw [State.readEntries]
    refine h.iteFst ?_
    split
    · exact h.fetchSpan.of_eq ‹_›
    · rename_i e2
      have h1 := h.fetchSpan.of_eq e2
      refine h1.iteFst ?_
      split
      · exact (ih h1).of_eq ‹_›
      · exact ih h1

theorem Follows.readOpnd {u cap t' x k} (h : Follows o s) : Follows o (s.readOpnd u cap t' x k).1 := by
  unfold State.readOpnd
  split
  · exact h.fetchVecs.of_eq ‹_›
  · rename_i e2
    have h1 := h.fetchVecs.of_eq e2
    refine h1.iteFst ?_
    extract_lets +onlyGivenNames esc
    split
    · exact h1.readEntries.of_eq ‹_›
    · rename_i e4
      have h2 := h1.readEntries.of_eq e4
      split <;> exact h2.fetchVecs.of_eq ‹_›

theorem Follows.readProblems {u cap t' d x} (h : Follows o s) : Follows o (s.readProblems u cap t' d x).1 := by
  induction x generalizing s with
  | nil => exact h
  | cons x xs ih =>
    rw [State.readProblems]
    split
    · exact h.readOpnd.of_eq ‹_›
    · rename_i e2
      have h1 := h.readOpnd.of_eq e2
      split
      · exact h1.readOpnd.of_eq ‹_›
      · rename_i e4
        have h2 := h1.readOpnd.of_eq e4
        split
        · exact (ih h2).of_eq ‹_›
        · exact ih h2

theorem Follows.drainProblem {o' g} (h : Follows o s) : Follows o (s.drainProblem o' g).1 := by
  unfold State.drainProblem
  extract_lets +onlyGivenNames d u size acc alpha key reads
  split
  · exact h.fetchVecs.of_eq ‹_›
  · rename_i e2
    have h1 := h.fetchVecs.of_eq e2
    extract_lets +onlyGivenNames out s1
    split <;> exact (h1.same.ite h1).storeVecs.of_eq ‹_›

theorem Follows.drainProblems {o' x} (h : Follows o s) : Follows o (s.drainProblems o' x).1 := by
  induction x generalizing s with
  | nil => exact h
  | cons x xs ih =>
    rw [State.drainProblems]
    split
    · exact h.drainProblem.of_eq ‹_›
    · rename_i e2
      have h1 := h.drainProblem.of_eq e2
      split
      · exact (ih h1).of_eq ‹_›
      · exact ih h1

end Sys2Proof.Machine
end

section
/-! PROOFS. What follows a state through the operations of Machine/Array.lean. -/

namespace Sys2Proof.Machine

variable {o s : State}

theorem Follows.showArr (h : Follows o s) : Follows o s.showArr := h.wr.wr.wr.wr

theorem Follows.setArr {x} (h : Follows o s) : Follows o (s.setArr x) := h.same.showArr

theorem Follows.modOp {t' q f} (h : Follows o s) : Follows o (s.modOp t' q f) := h.setArr

theorem Follows.arrRestart (h : Follows o s) : Follows o s.arrRestart :=
  (h.same.resetBlock.foldl fun _ _ h1 => h1.modTumbler).agmRestart

theorem Follows.arrReady (h : Follows o s) : Follows o s.arrReady := h.ite h.wr

theorem Follows.arrAccept (h : Follows o s) : Follows o s.arrAccept := by
  unfold State.arrAccept
  extract_lets +onlyGivenNames s1
  have h1 : Follows o s1 := h.passMarkers
  split
  · extract_lets +onlyGivenNames s2
    have h2 : Follows o s2 := h1.popMsg
    refine h2.setEvent.answerIssue.ite ?_
    split
    · exact h2.answerIssue
    · exact h2.setArr.takeToken.answerIssue
  · exact h1

theorem Follows.dropChain {t' c} (h : Follows o s) : Follows o (s.dropChain t' c) := h.setArr

theorem Follows.passArr {t'} (h : Follows o s) : Follows o (s.passArr t') := h.setArr

theorem Follows.arrEnd {o' status} (h : Follows o s) : Follows o (s.arrEnd o' status) := h.setArr.modOp

theorem Follows.arrFaulted {o' e} (h : Follows o s) : Follows o (s.arrFaulted o' e) := by
  unfold State.arrFaulted
  extract_lets +onlyGivenNames s1
  have h1 : Follows o s1 := by
    subst s1
    split
    · exact h.memFault
    · exact h
  clear_value s1
  exact (h1.dropChain.ite h1).setEvent.count.thus fun h2 => h2.abortStep.ite h2

theorem Follows.arrFault {o' e} (h : Follows o s) : Follows o (s.arrFault o' e) := h.count.arrEnd.arrFaulted

theorem Follows.arrSample {o'} (h : Follows o s) : Follows o (s.arrSample o') := h.ite h.countBlocks

theorem Follows.arrWord (h : Follows o s) : Follows o s.arrWord := by
  unfold State.arrWord
  split
  · exact h
  · extract_lets +onlyGivenNames word
    split
    rename_i s1 _ e
    have h1 : Follows o s1 := by
      refine Follows.of_eq ?_ e
      refine h.iteFst ?_
      split
      · exact h.drawn.storeSpan.of_eq ‹_›
      · rename_i e2
        have h2 := h.drawn.storeSpan.of_eq e2
        exact h2.arrFaulted.iteFst h2
    exact (h1.arrSample.ite h1).setArr.send

theorem Follows.arrChecks {o'} (h : Follows o s) : Follows o (s.arrChecks o').1 := by
  unfold State.arrChecks
  refine h.iteFst ?_
  refine h.iteFst ?_
  refine h.iteFst ?_
  refine h.iteFst ?_
  refine h.iteFst ?_
  extract_lets +onlyGivenNames fill prior
  split
  · exact h.checkSpans.of_eq ‹_›
  · rename_i e2
    have h1 := h.checkSpans.of_eq e2
    split
    · exact h1.checkSpans.of_eq ‹_›
    · rename_i e4
      have h2 := h1.checkSpans.of_eq e4
      refine h2.iteFst ?_
      split <;> exact h2.checkSpans.of_eq ‹_›

theorem Follows.readTiles {o'} (h : Follows o s) : Follows o (s.readTiles o').1 := by
  unfold State.readTiles
  refine Follows.iteFst ?_ h
  split
  · exact h.fetchVecs.of_eq ‹_›
  · rename_i e2
    have h1 := h.fetchVecs.of_eq e2
    exact h1.iteFst h1

theorem Follows.chooseOp {o'} (h : Follows o s) : Follows o (s.chooseOp o') := h.setArr

theorem Follows.arrBegin {o'} (h : Follows o s) : Follows o (s.arrBegin o') := by
  unfold State.arrBegin
  extract_lets +onlyGivenNames d x s1 ch
  split
  rename_i e16
  have h1 := (h.passArr.claim.iteFst h.passArr).of_eq e16
  split
  rename_i e18
  have h2 := h1.readTiles.of_eq e18
  split
  · exact h2.arrFault
  · exact (h2.dropChain.ite h2).count.drawn.wr.modOp

theorem Follows.opStart (h : Follows o s) : Follows o s.opStart := by
  unfold State.opStart
  refine h.ite ?_
  split
  · exact h
  · split
    · exact h
    · split
      · exact (h.chooseOp.arrChecks.of_eq ‹_›).arrFault
      · exact (h.chooseOp.arrChecks.of_eq ‹_›).arrBegin

theorem Follows.fillBank (h : Follows o s) : Follows o s.fillBank := by
  unfold State.fillBank
  split
  · exact h
  · split
    · exact h
    · split
      · exact (h.fetchVecs.of_eq ‹_›).arrFault
      · exact (h.fetchVecs.of_eq ‹_›).modOp

theorem Follows.countRun {d e} (h : Follows o s) : Follows o (s.countRun d e) :=
  (h.ite h.drawn).count.count.setReg.thus fun h1 => (h1.ite (h1.foldlFst fun _ _ h2 =>
    h2.count.drawn).count).thus fun h3 => h3.ite (h3.foldl fun _ _ h4 => h4.count)

theorem Follows.operands (h : Follows o s) : Follows o s.operands := by
  unfold State.operands
  split
  · exact h
  · refine h.ite ?_
    split
    · exact (h.readProblems.of_eq ‹_›).arrFault
    · exact (h.readProblems.of_eq ‹_›).countRun.modOp

theorem Follows.tailEnd (h : Follows o s) : Follows o s.tailEnd := by
  unfold State.tailEnd
  split
  · exact h
  · exact h.dropChain.count.setArr.arrEnd.ite h.setArr.modOp

theorem Follows.markClash {t' ms} (h : Follows o s) : Follows o (s.markClash t' ms) := h.same

theorem Follows.drainStart (h : Follows o s) : Follows o s.drainStart := by
  unfold State.drainStart
  split
  · exact h.markClash.modOp.ite h
  · exact h

theorem Follows.spoil {o'} (h : Follows o s) : Follows o (s.spoil o') := h.scribble

theorem Follows.reportDrain {o' outs} (h : Follows o s) : Follows o (s.reportDrain o' outs) := by
  unfold State.reportDrain
  refine h.ite ?_
  refine h.foldl fun _ _ h1 => ?_
  split
  · exact h1.reportAmax
  · exact h1

theorem Follows.drainEnd (h : Follows o s) : Follows o s.drainEnd := by
  unfold State.drainEnd
  split
  · exact h
  · refine h.ite ?_
    split
    · exact (h.drainProblems.of_eq ‹_›).spoil.arrFault
    · rename_i e2
      have h1 := h.drainProblems.of_eq e2
      exact (h1.scribble.ite h1).count.count.reportDrain.arrEnd.modOp

theorem Follows.chainWait (h : Follows o s) : Follows o s.chainWait := by
  unfold State.chainWait
  split
  · exact h
  · exact h.dropChain.setEvent.count.ite h.setArr

theorem Follows.spillEnd (h : Follows o s) : Follows o s.spillEnd := by
  unfold State.spillEnd
  split
  · extract_lets +onlyGivenNames _ s1
    split
    · exact h.setArr
    · split
      · exact (h.setArr.storeSpan.of_eq ‹_›).memFault.dropChain.setEvent.count
      · exact (h.setArr.storeSpan.of_eq ‹_›).setArr.setEvent.count
  · exact h

theorem Follows.arrAbort {o'} (h : Follows o s) : Follows o (s.arrAbort o') :=
  ((h.spoil.ite h).thus fun h1 => (h1.dropChain.ite h1).modOp).ite ((h.spoil.ite h).thus fun h2 =>
    (h2.dropChain.ite h2).count.arrEnd)

theorem Follows.arrAbortLaunch {l} (h : Follows o s) : Follows o (s.arrAbortLaunch l) :=
  h.foldl fun _ _ h1 => h1.arrAbort

theorem Follows.arrReset {t'} (h : Follows o s) : Follows o (s.arrReset t') :=
  (h.foldl fun _ _ h1 => h1.arrAbort).setArr.same.setReg.setReg

end Sys2Proof.Machine
end

section
/-! PROOFS. What follows a state through the operations of Machine/Spindle.lean. -/

namespace Sys2Proof.Machine

variable {o s : State}

theorem Follows.showSpn (h : Follows o s) : Follows o s.showSpn := h.wr.wr.wr.foldl fun _ _ h1 => h1.wr

theorem Follows.setSpn {x} (h : Follows o s) : Follows o (s.setSpn x) := h.same.showSpn

theorem Follows.modRow {t' q f} (h : Follows o s) : Follows o (s.modRow t' q f) := h.setSpn

theorem Follows.spnReady (h : Follows o s) : Follows o s.spnReady := h.ite h.wr

theorem Follows.rowAccept (h : Follows o s) : Follows o s.rowAccept := by
  unfold State.rowAccept
  extract_lets +onlyGivenNames s1
  have h1 : Follows o s1 := h.passMarkers
  split
  · extract_lets +onlyGivenNames s2
    have h2 : Follows o s2 := h1.popMsg
    refine h2.answerIssue.ite ?_
    split
    · exact h2.answerIssue
    · exact h2.setSpn.takeToken.answerIssue
  · exact h1

theorem Follows.takePage {t' set n} (h : Follows o s) : Follows o (s.takePage t' set n).1 :=
  h.iteFst (h.setSpn.iteFst h)

theorem Follows.putStat {n e} (h : Follows o s) : Follows o (s.putStat n e) := h.setSpn

theorem Follows.freePages {t' set} (h : Follows o s) : Follows o (s.freePages t' set) := h.setSpn

theorem Follows.rowFault {o' q e} (h : Follows o s) : Follows o (s.rowFault o' q e) := by
  unfold State.rowFault
  extract_lets +onlyGivenNames s1
  have h1 : Follows o s1 := by
    subst s1
    split
    · exact h.memFault
    · exact h
  clear_value s1
  exact (h1.ite h1.scribble).setEvent.modRow.thus fun h2 => h2.abortStep.ite h2

theorem Follows.rowWord {o' status} (h : Follows o s) : Follows o (s.rowWord o' status) := by
  unfold State.rowWord
  extract_lets +onlyGivenNames word
  split
  rename_i s1 _ e
  have h1 : Follows o s1 := by
    refine Follows.of_eq ?_ e
    refine h.iteFst ?_
    split
    · exact h.drawn.storeSpan.of_eq ‹_›
    · rename_i e2
      have h2 := h.drawn.storeSpan.of_eq e2
      exact h2.memFault.setEvent.iteFst h2
  exact h1.setSpn.send

theorem Follows.rowChecks {o'} (h : Follows o s) : Follows o (s.rowChecks o').1 := by
  unfold State.rowChecks
  refine h.iteFst ?_
  refine h.iteFst ?_
  refine h.iteFst ?_
  split
  · exact h.checkSpans.of_eq ‹_›
  · rename_i e2
    have h1 := h.checkSpans.of_eq e2
    extract_lets +onlyGivenNames writes
    split <;> exact h1.checkSpans.of_eq ‹_›

theorem Follows.rowStart {t'} (h : Follows o s) : Follows o (s.rowStart t') := by
  unfold State.rowStart
  split
  · exact h
  · refine h.ite ?_
    split
    · exact (h.rowChecks.of_eq ‹_›).rowFault
    · rename_i e2
      have h1 := h.rowChecks.of_eq e2
      exact h1.freePages.modRow.ite (h1.claim.iteFst h1).modRow

theorem Follows.chunkTranslate {o' q c} (h : Follows o s) : Follows o (s.chunkTranslate o' q c).1 := by
  unfold State.chunkTranslate
  extract_lets +onlyGivenNames d n s1
  have h1 : Follows o s1 := h.passMarkers
  split
  · exact h1.checkSpans.of_eq ‹_›
  · rename_i e7
    have h2 := h1.checkSpans.of_eq e7
    split <;> exact h2.checkSpans.of_eq ‹_›

theorem Follows.chunkStart {q} (h : Follows o s) : Follows o (s.chunkStart q) := by
  unfold State.chunkStart
  refine h.ite ?_
  split
  · exact h
  · refine h.setEvent.count.rowFault.ite ?_
    split
    · exact h
    · extract_lets +onlyGivenNames ms clash s1
      have h1 : Follows o s1 := h.markClash.modRow
      split
      · exact (h1.chunkTranslate.of_eq ‹_›).rowFault
      · exact (h1.chunkTranslate.of_eq ‹_›).setSpn

theorem Follows.fetchGroups {u cap t' x} (h : Follows o s) : Follows o (s.fetchGroups u cap t' x).1 := by
  induction x generalizing s with
  | nil => exact h
  | cons x xs ih =>
    rw [State.fetchGroups]
    split
    · exact h.fetchVecs.of_eq ‹_›
    · rename_i e2
      have h1 := h.fetchVecs.of_eq e2
      split
      · exact (ih h1).of_eq ‹_›
      · exact ih h1

theorem Follows.storeSums {u o' va ws} (h : Follows o s) : Follows o (s.storeSums u o' va ws).1 := by
  unfold State.storeSums
  extract_lets +onlyGivenNames bs
  split
  · exact h.translateSpan.of_eq ‹_›
  · exact ((h.translateSpan.of_eq ‹_›).foldl fun _ _ h1 => h1.sendRed).modRow

theorem Follows.keepStat {o' q r st} (h : Follows o s) : Follows o (s.keepStat o' q r st).1 := by
  unfold State.keepStat
  extract_lets +onlyGivenNames d n
  split
  rename_i e7
  have h1 := h.takePage.of_eq e7
  extract_lets +onlyGivenNames s1
  have h2 : Follows o s1 := h1.putStat.ite h1
  refine Follows.iteFst ?_ (h2.iteFst h2.setEvent.modRow)
  split
  · exact h2.storeSpan.of_eq ‹_›
  · rename_i e12
    have h3 := h2.storeSpan.of_eq e12
    exact h3.iteFst h3.setEvent.count.modRow

theorem Follows.keepStats {o' q x} (h : Follows o s) : Follows o (s.keepStats o' q x).1 := by
  induction x generalizing s with
  | nil => exact h
  | cons x xs ih =>
    obtain ⟨_, _⟩ := x
    rw [State.keepStats]
    split
    · exact ih (h.keepStat.of_eq ‹_›)
    · exact h.keepStat

theorem Follows.chunkSums {o' q r0 rs} (h : Follows o s) : Follows o (s.chunkSums o' q r0 rs).1 := by
  unfold State.chunkSums
  refine Follows.iteFst ?_ ?_
  · extract_lets +onlyGivenNames col
    split
    · exact h.storeSums.of_eq ‹_›
    · exact (h.storeSums.of_eq ‹_›).storeSums
  · refine Follows.iteFst ?_ (h.keepStats.iteFst h)
    extract_lets +onlyGivenNames sum bad s1 s2
    have h1 : Follows o s2 := h.modRow.sendPoison.ite h.modRow
    split
    · exact h1.storeVecs.of_eq ‹_›
    · exact (h1.storeVecs.of_eq ‹_›).storeSums

theorem Follows.chunkRun {o' q c} (h : Follows o s) : Follows o (s.chunkRun o' q c).1 := by
  unfold State.chunkRun
  extract_lets +onlyGivenNames d u r0 n
  split
  · exact h.fetchGroups.of_eq ‹_›
  · rename_i e2
    have h1 := h.fetchGroups.of_eq e2
    extract_lets +onlyGivenNames free rs s1 hd junk key g s2
    split
    · exact h1.same.same.storeVecs.of_eq ‹_›
    · exact (h1.same.same.storeVecs.of_eq ‹_›).modRow.chunkSums

theorem Follows.chunkEnd {q} (h : Follows o s) : Follows o (s.chunkEnd q) := by
  unfold State.chunkEnd
  split
  · exact h
  · extract_lets +onlyGivenNames _ s1
    split
    · exact h.setSpn
    · extract_lets +onlyGivenNames s2
      have h1 : Follows o s2 := h.setSpn.count.count
      split
      · exact (h1.chunkRun.of_eq ‹_›).rowFault
      · exact (h1.chunkRun.of_eq ‹_›).modRow

theorem Follows.sumAnswer {t' seq va code line} (h : Follows o s) : Follows o (s.sumAnswer t' seq va code line) := by
  unfold State.sumAnswer
  split
  · exact h
  · exact h.modRow.rowFault.ite h.modRow

theorem Follows.rowEnd {t'} (h : Follows o s) : Follows o (s.rowEnd t') := by
  unfold State.rowEnd
  split
  · exact h
  · refine h.rowWord.ite ?_
    refine Follows.ite ?_ h
    extract_lets +onlyGivenNames s1
    have h1 : Follows o s1 := h.sendPoison.ite h
    extract_lets +onlyGivenNames md
    split
    · exact (h1.fetchVecs.of_eq ‹_›).rowFault
    · rename_i e9
      have h2 := h1.fetchVecs.of_eq e9
      split
      · exact (h2.storeVecs.of_eq ‹_›).rowFault
      · rename_i e11
        have h3 := h2.storeVecs.of_eq e11
        exact (h3.scribble.ite h3).rowWord

theorem Follows.rowAbort {o'} (h : Follows o s) : Follows o (s.rowAbort o') := (h.scribble.ite h).modRow

theorem Follows.rowAbortLaunch {l} (h : Follows o s) : Follows o (s.rowAbortLaunch l) :=
  h.foldl fun _ _ h1 => h1.rowAbort

theorem Follows.rowReset {t'} (h : Follows o s) : Follows o (s.rowReset t') := by
  unfold State.rowReset
  exact (h.foldl fun _ _ h1 => h1.rowAbort).setSpn.same.freePages.setReg.showSpn

end Sys2Proof.Machine
end

section
/-! PROOFS. What follows a state through the operations of Machine/TumExec.lean. -/

namespace Sys2Proof.Machine

variable {o s : State}

theorem Follows.nearBack {n} (h : Follows o s) : Follows o (s.nearBack n) := h.ite h.writeLine

theorem Follows.nearFlush {u p} (h : Follows o s) : Follows o (s.nearFlush u p) := by
  unfold State.nearFlush
  exact (h.foldl fun _ _ h1 => h1.nearBack).modTumbler

theorem Follows.nearPut {u n} (h : Follows o s) : Follows o (s.nearPut u n) := by
  unfold State.nearPut
  extract_lets +onlyGivenNames set s1
  have h1 : Follows o s1 := by
    subst s1
    refine h.ite ?_
    split
    · exact h.nearFlush
    · exact h
  clear_value s1
  exact h1.modTumbler

theorem Follows.leaveTumbler {u l} (h : Follows o s) : Follows o (s.leaveTumbler u l) := h.ite h.nearFlush.modTumbler

theorem Follows.stopHere {l u} (h : Follows o s) : Follows o (s.stopHere l u) :=
  h.ite h.modTumbler.modLaunch.leaveTumbler

theorem Follows.tumFault {u l code} (h : Follows o s) : Follows o (s.tumFault u l code) := h.count.modLaunch.stopHere

theorem Follows.tumMemFault {u l t' code kind va pa} (h : Follows o s) :
    Follows o (s.tumMemFault u l t' code kind va pa) :=
  h.memFault.tumFault.thus fun h1 => h1.abortStep.ite h1

theorem Follows.blockBars {u l b} (h : Follows o s) : Follows o (s.blockBars u l b) :=
  h.ite (h.foldl fun _ _ h1 => (h1.foldl fun _ _ h2 => h2.modGroup).ite h1)

theorem Follows.releaseBars {u l} (h : Follows o s) : Follows o (s.releaseBars u l) :=
  (h.foldl fun _ _ h1 => h1.ite h1.modGroup).foldl fun _ _ h2 => h2.blockBars

theorem Follows.gather {u xs} (h : Follows o s) : Follows o (s.gather u xs) :=
  h.foldl fun _ _ h1 => (h1.count.ite h1).foldl fun _ _ h2 => h2.modGroup

theorem Follows.members {u g l w} (h : Follows o s) : Follows o (s.members u g l w).1 := by
  unfold State.members
  split
  · exact h
  · split
    · exact h
    · split
      · exact h
      · refine h.iteFst ?_
        extract_lets +onlyGivenNames _ s1
        have h1 : Follows o s1 := (h.modGroup.ite h.gather).ite h
        split
        · exact h1
        · refine h1.iteFst ?_
          split
          · exact h1
          · exact h1.iteFst h1

theorem Follows.split {u ms} (h : Follows o s) : Follows o (s.split u ms) := h.foldl fun _ _ h1 => h1.modGroup

theorem Follows.afterIssue {u ms} (h : Follows o s) : Follows o (s.afterIssue u ms) :=
  (h.foldl fun _ _ h1 => h1.modGroup).thus fun h2 => h2.ite h2.split

theorem Follows.advance {c f} (h : Follows o s) : Follows o (s.advance c f) := h.foldl fun _ _ h1 => h1.modGroup

theorem Follows.issue {u g w f ok run} (h : Follows o s) (hf : ∀ s x1, Follows o s → Follows o (run s x1)) :
    Follows o (s.issue u g w f ok run) := by
  unfold State.issue
  refine h.ite ?_
  split
  · exact h
  · split
    rename_i e2
    have h1 := h.members.of_eq e2
    refine h1.ite ?_
    extract_lets +onlyGivenNames pc
    split
    · exact (h1.translate.of_eq ‹_›).tumMemFault
    · exact (h1.translate.of_eq ‹_›).readAs.thus fun h2 => h2.tumMemFault.ite (h2.count.count.count.thus fun h3 =>
        h3.tumFault.ite (hf _ _ h3.advance).afterIssue)

theorem Follows.legal {c good run} (h : Follows o s) (hf : ∀ s, Follows o s → Follows o (run s)) :
    Follows o (s.legal c good run) :=
  h.ite ((hf _ h).ite h.tumFault)

end Sys2Proof.Machine
end

section
/-! PROOFS. What follows a state through the operations of Machine/TumAlu.lean. -/

namespace Sys2Proof.Machine

variable {o s : State}

theorem Follows.eachMember {c f} (h : Follows o s) : Follows o (s.eachMember c f) := h.foldl fun _ _ h1 => h1.modGroup

theorem Follows.eachLane {c f} (h : Follows o s) : Follows o (s.eachLane c f) := h.eachMember

theorem Follows.eachPair {c f} (h : Follows o s) : Follows o (s.eachPair c f) := h.eachMember

theorem Follows.eachPred {c f} (h : Follows o s) : Follows o (s.eachPred c f) := h.eachMember

theorem Follows.intOp {u g w n f} (h : Follows o s) : Follows o (s.intOp u g w n f) :=
  h.issue (fun _ _ h1 => h1.legal (fun _ h2 => h2.eachPair.ite h2.eachLane))

theorem Follows.shiftOp {u g w f} (h : Follows o s) : Follows o (s.shiftOp u g w f) :=
  h.issue (fun _ _ h1 => h1.legal (fun _ h2 => (h2.eachPair.ite h2.eachLane).drawn))

theorem Follows.logicOp {u g w n f} (h : Follows o s) : Follows o (s.logicOp u g w n f) :=
  h.issue (fun _ _ h1 => h1.legal (fun _ h2 => h2.eachLane))

theorem Follows.selOp {u g w} (h : Follows o s) : Follows o (s.selOp u g w) :=
  h.issue (fun _ _ h1 => h1.legal (fun _ h2 => h2.eachLane))

theorem Follows.icmpOp {u g w} (h : Follows o s) : Follows o (s.icmpOp u g w) :=
  h.issue (fun _ _ h1 => h1.legal (fun _ h2 => h2.eachPred))

theorem Follows.shflOp {u g w} (h : Follows o s) : Follows o (s.shflOp u g w) :=
  h.issue (fun _ _ h1 => h1.legal (fun _ h2 => h2.eachLane.drawn))

theorem Follows.voteOp {u g w} (h : Follows o s) : Follows o (s.voteOp u g w) :=
  h.issue (fun _ _ h1 => h1.legal (fun _ h2 => h2.eachLane))

theorem Follows.sregOp {u g w} (h : Follows o s) : Follows o (s.sregOp u g w) :=
  h.issue (fun _ _ h1 => h1.legal (fun _ h2 => h2.eachLane.thus fun h3 => (h3.eachMember.ite h3).drawn))

theorem Follows.moviOp {u g w} (h : Follows o s) : Follows o (s.moviOp u g w) := h.issue (fun _ _ h1 => h1.eachLane)

theorem Follows.fpOp {u g w n f} (h : Follows o s) : Follows o (s.fpOp u g w n f) :=
  h.issue (fun _ _ h1 => h1.legal (fun _ h2 => h2.eachLane))

theorem Follows.fcmpOp {u g w} (h : Follows o s) : Follows o (s.fcmpOp u g w) :=
  h.issue (fun _ _ h1 => h1.legal (fun _ h2 => h2.eachPred))

theorem Follows.fpPlain {u g w n f} (h : Follows o s) : Follows o (s.fpPlain u g w n f) := h.logicOp

end Sys2Proof.Machine
end

section
/-! PROOFS. What follows a state through the operations of Machine/TumMem.lean. -/

namespace Sys2Proof.Machine

variable {o s : State}

theorem Follows.modBlock {u l n f} (h : Follows o s) : Follows o (s.modBlock u l n f) := h.modTumbler

theorem Follows.putLocal {u slot a bs} (h : Follows o s) : Follows o (s.putLocal u slot a bs) := by
  unfold State.putLocal
  split
  · exact h
  · exact h.modBlock

theorem Follows.localOp {u g w store} (h : Follows o s) : Follows o (s.localOp u g w store) := by
  unfold State.localOp
  refine Follows.issue h fun _ _ h1 => ?_
  refine Follows.legal h1 fun _ h2 => ?_
  refine h2.tumFault.ite ?_
  refine h2.count.drawn.foldl fun _ _ h3 => ?_
  refine Follows.ite ?_ h3.modGroup
  split
  · exact h3.putLocal
  · exact h3

theorem Follows.localAtom {c} (h : Follows o s) : Follows o (s.localAtom c) := by
  unfold State.localAtom
  refine h.tumFault.ite ?_
  refine h.foldl fun _ _ h1 => ?_
  split
  · exact h1
  · exact h1.putLocal.modGroup

theorem Follows.putAccess {u a} (h : Follows o s) : Follows o (s.putAccess u a) := h.modTumbler

theorem Follows.dropAccess {u id} (h : Follows o s) : Follows o (s.dropAccess u id) := h.modTumbler

theorem Follows.await {u a on} (h : Follows o s) : Follows o (s.await u a on) :=
  h.ite (h.foldl fun _ _ h1 => h1.modGroup)

theorem Follows.finishAccess {u a} (h : Follows o s) : Follows o (s.finishAccess u a) :=
  (h.drawn.foldl fun _ _ h1 => h1.modGroup).await.dropAccess.releaseBars

theorem Follows.failAccess {u a code kind va pa} (h : Follows o s) : Follows o (s.failAccess u a code kind va pa) :=
  h.await.dropAccess.tumMemFault

theorem Follows.askLines {u a ls} (h : Follows o s) : Follows o (s.askLines u a ls) :=
  h.foldl fun _ _ h1 => h1.ite h1.requestFill

theorem Follows.nearFill {u a line} (h : Follows o s) : Follows o (s.nearFill u a line).1 :=
  h.count.iteFst h.count.readBytes

theorem Follows.finishLoad {u a} (h : Follows o s) : Follows o (s.finishLoad u a) := by
  unfold State.finishLoad
  extract_lets +onlyGivenNames s1
  have h1 : Follows o s1.1 := h.foldlFst fun _ _ h2 => h2.readBytes.iteFst h2.nearFill.nearPut
  split
  · exact h1.failAccess
  · exact h1.finishAccess

theorem Follows.startLoad {u a} (h : Follows o s) : Follows o (s.startLoad u a) := by
  unfold State.startLoad
  extract_lets +onlyGivenNames s1
  have h1 : Follows o s1 := (h.foldl fun _ _ h2 => h2.nearFlush).ite h
  split
  · exact h1.finishLoad
  · exact h1.putAccess.askLines

theorem Follows.loadReturn {u k} (h : Follows o s) : Follows o (s.loadReturn u k) := by
  unfold State.loadReturn
  split
  · exact h
  · exact h.ite (h.finishLoad.ite h.askLines)

theorem Follows.doStore {u a} (h : Follows o s) : Follows o (s.doStore u a) :=
  h.foldl fun _ _ h1 => h1.nearFlush.writeLine.ite h1.count.nearPut

theorem Follows.sendAtoms {u a} (h : Follows o s) : Follows o (s.sendAtoms u a) :=
  h.foldl fun _ _ h1 => h1.nearFlush.sendRed

theorem Follows.atomAnswer {u id code values} (h : Follows o s) : Follows o (s.atomAnswer u id code values) := by
  unfold State.atomAnswer
  split
  · exact h
  · exact h.failAccess.ite (h.finishAccess.ite h.putAccess)

theorem Follows.runAccess {u a} (h : Follows o s) : Follows o (s.runAccess u a) := by
  unfold State.runAccess
  split
  · exact h.putAccess
  · exact h.failAccess
  · extract_lets +onlyGivenNames a
    split
    · exact h.startLoad
    · exact h.putAccess.doStore.dropAccess.releaseBars
    · exact h.putAccess.sendAtoms
    · exact h
    · exact h

theorem Follows.walkDone {u a p va f} (h : Follows o s) : Follows o (s.walkDone u a p va f) := by
  unfold State.walkDone
  extract_lets +onlyGivenNames x s1
  have h1 : Follows o s1 := h.find.ite h
  split
  · exact h1.failAccess
  · exact h1.tlbPut.thus fun h2 => h2.runAccess.ite h2.putAccess

theorem Follows.tableWalkEnd {k f} (h : Follows o s) : Follows o (s.tableWalkEnd k f) := by
  unfold State.tableWalkEnd
  split
  · exact h
  · exact h.walkDone

theorem Follows.access {c kind nc size lanes} (h : Follows o s) : Follows o (s.access c kind nc size lanes) := by
  unfold State.access
  split
  · exact h.tumMemFault
  · exact h.modTumbler.await.runAccess

theorem Follows.tenantOp {u g w store} (h : Follows o s) : Follows o (s.tenantOp u g w store) := by
  unfold State.tenantOp
  exact h.issue (fun _ _ h1 => h1.legal (fun _ h2 => h2.access))

theorem Follows.tenantAtom {c} (h : Follows o s) : Follows o (s.tenantAtom c) := h.access

theorem Follows.nopOp {u g w code} (h : Follows o s) : Follows o (s.nopOp u g w code) := by
  unfold State.nopOp
  exact h.issue (fun _ _ h1 => h1.legal (fun _ h2 => h2.nearFlush.ite h2))

end Sys2Proof.Machine
end

section
/-! PROOFS. What follows a state through the operations of Machine/TumCtl.lean. -/

namespace Sys2Proof.Machine

variable {o s : State}

theorem Follows.branch {c pc m} (h : Follows o s) : Follows o (s.branch c pc m) := by
  unfold State.branch
  extract_lets +onlyGivenNames target point
  split
  · exact h
  · exact h.ite (h.setGroup.ite (h.tumFault.ite h.setGroup))

theorem Follows.braOp {u g w} (h : Follows o s) : Follows o (s.braOp u g w) :=
  h.issue (fun _ _ h1 => (h1.ite h1.split).foldl fun _ _ h2 => h2.branch)

theorem Follows.callOp {u g w} (h : Follows o s) : Follows o (s.callOp u g w) :=
  h.issue (fun _ _ h1 => (h1.ite h1.split).drawn.eachMember)

theorem Follows.endGroup {u slot} (h : Follows o s) : Follows o (s.endGroup u slot) := by
  unfold State.endGroup
  split
  · exact h
  · exact h.ite (h.modTumbler.thus fun h1 => h1.modTumbler.modLaunch.leaveTumbler.ite h1)

theorem Follows.exitOp {u g w} (h : Follows o s) : Follows o (s.exitOp u g w) :=
  h.issue (fun _ _ h1 => h1.legal (fun _ h2 => (h2.split.eachMember.foldl fun _ _ h3 =>
    h3.modGroup.endGroup).releaseBars))

theorem Follows.barWait {c st} (h : Follows o s) : Follows o (s.barWait c st) := h.split.eachMember.releaseBars

theorem Follows.bargOp {u g w} (h : Follows o s) : Follows o (s.bargOp u g w) :=
  h.issue (fun _ _ h1 => h1.legal (fun _ h2 => h2.barWait))

theorem Follows.barmOp {u g w} (h : Follows o s) : Follows o (s.barmOp u g w) :=
  h.issue (fun _ _ h1 => h1.legal (fun _ h2 => h2.tumFault.ite h2.barWait))

theorem Follows.barbOp {u g w} (h : Follows o s) : Follows o (s.barbOp u g w) :=
  h.issue (fun _ _ h1 => h1.legal (fun _ h2 => h2.barWait))

theorem Follows.barExpiry {u k} (h : Follows o s) : Follows o (s.barExpiry u k) := by
  unfold State.barExpiry
  extract_lets +onlyGivenNames all
  split
  · exact h.tumFault
  · exact h

theorem Follows.repackExpiry {u g} (h : Follows o s) : Follows o (s.repackExpiry u g) := h.modGroup

theorem Follows.issueOne {c row m} (h : Follows o s) : Follows o (s.issueOne c row m) := by
  unfold State.issueOne
  split
  · exact h.tumFault.ite (h.setGroup.send.ite h.setGroup.send)
  · exact h

theorem Follows.engineOp {u g w row} (h : Follows o s) : Follows o (s.engineOp u g w row) :=
  h.issue (fun _ _ h1 => h1.legal (fun _ h2 => h2.foldl fun _ _ h3 => h3.issueOne))

theorem Follows.freeSlot {u slot} (h : Follows o s) : Follows o (s.freeSlot u slot) := h.modTumbler

theorem Follows.writeLanes {u g lim dst lanes f} (h : Follows o s) : Follows o (s.writeLanes u g lim dst lanes f) :=
  h.modGroup

theorem Follows.releaseToken {u slot status} (h : Follows o s) : Follows o (s.releaseToken u slot status).1 :=
  h.modTumbler.pair

theorem Follows.twaitOne {c m} (h : Follows o s) : Follows o (s.twaitOne c m) := by
  unfold State.twaitOne
  split
  · extract_lets +onlyGivenNames d put
    split
    · exact h.writeLanes
    · split
      · exact h.writeLanes.freeSlot
      · exact h.writeLanes.drawn.ite h.setGroup
  · exact h

theorem Follows.twaitOp {u g w} (h : Follows o s) : Follows o (s.twaitOp u g w) :=
  h.issue (fun _ _ h1 => h1.legal (fun _ h2 => h2.foldl fun _ _ h3 => h3.twaitOne))

theorem Follows.tokenCompletion {u} (h : Follows o s) : Follows o (s.tokenCompletion u) := by
  unfold State.tokenCompletion
  extract_lets +onlyGivenNames s1
  have h1 : Follows o s1 := h.passMarkers
  split
  · extract_lets +onlyGivenNames s2
    have h2 : Follows o s2 := h1.popMsg
    split
    · exact h2
    · exact h2.ite (h2.modTumbler.releaseToken.thusFst fun h3 => h3.freeSlot.ite h3)
  · exact h1

end Sys2Proof.Machine
end

section
/-! PROOFS. What follows a state through the operations of Machine/TumData.lean. -/

namespace Sys2Proof.Machine

variable {o s : State}

theorem Follows.randOne {c m} (h : Follows o s) : Follows o (s.randOne c m) := by
  unfold State.randOne
  split
  · exact h.tumFault.ite h.claim.modGroup
  · exact h

theorem Follows.randOp {u g w} (h : Follows o s) : Follows o (s.randOp u g w) :=
  h.issue (fun _ _ h1 => h1.legal (fun _ h2 => h2.foldl fun _ _ h3 => h3.randOne))

theorem Follows.cvtOne {c m} (h : Follows o s) : Follows o (s.cvtOne c m) := by
  unfold State.cvtOne
  split
  · exact h.tumFault.ite (h.claim.iteFst h).modGroup.drawn
  · exact h

theorem Follows.cvtOp {u g w} (h : Follows o s) : Follows o (s.cvtOp u g w) := by
  unfold State.cvtOp
  exact h.issue (fun _ _ h1 => h1.legal (fun _ h2 => h2.foldl fun _ _ h3 => h3.cvtOne))

theorem Follows.nearGran {u l t' g} (h : Follows o s) : Follows o (s.nearGran u l t' g).1 :=
  h.count.iteFst h.count.readBytes.nearPut

theorem Follows.nearBytes {u l t' a n} (h : Follows o s) : Follows o (s.nearBytes u l t' a n).1 :=
  h.foldlFst fun _ _ h1 => h1.nearGran

theorem Follows.nearWrite {u l t' a bs} (h : Follows o s) : Follows o (s.nearWrite u l t' a bs) :=
  h.foldl fun _ _ h1 => h1.nearPut

theorem Follows.spanLoad {u l va n} (h : Follows o s) : Follows o (s.spanLoad u l va n).1 := by
  unfold State.spanLoad
  split
  · exact h.translateSpan.of_eq ‹_›
  · rename_i e
    have h1 := h.translateSpan.of_eq e
    extract_lets +onlyGivenNames r
    have h2 : Follows o r.1 := h1.pair.foldlFst fun _ _ h3 => h3.nearBytes
    split
    · exact h2
    · exact h2

theorem Follows.spanStore {u l va bs} (h : Follows o s) : Follows o (s.spanStore u l va bs).1 := by
  unfold State.spanStore
  split
  · exact h.translateSpan.of_eq ‹_›
  · exact (h.translateSpan.of_eq ‹_›).foldlFst fun _ _ h1 => h1.nearWrite

theorem Follows.fieldAtomic {u l va n f} (h : Follows o s) : Follows o (s.fieldAtomic u l va n f).1 := by
  unfold State.fieldAtomic
  split
  · exact h.translateSpan.of_eq ‹_›
  · exact ((h.translateSpan.of_eq ‹_›).foldl fun _ _ h1 => h1.nearFlush).thus fun h2 =>
      h2.iteFst h2.touchSpans.writeSpans

theorem Follows.andThen {α β : Type} {r : Part2 α} {f : State → α → Part2 β} (h : Follows o r.1)
    (hf : ∀ s x, Follows o s → Follows o (f s x).1) : Follows o (r.andThen f).1 := by
  unfold Part2.andThen
  split
  · exact h
  · exact hf _ _ h

theorem Follows.qEscape {u l x hd fmt e} (h : Follows o s) : Follows o (s.qEscape u l x hd fmt e).1 :=
  h.fieldAtomic.andThen (fun _ _ h1 => h1.spanStore)

theorem Follows.qHeader {u l x fmt b} (h : Follows o s) : Follows o (s.qHeader u l x fmt b).1 :=
  h.fieldAtomic.andThen (fun _ _ h1 => h1.fieldAtomic.andThen (fun _ _ h2 => h2.fieldAtomic.andThen (fun _ _ h3 =>
    h3.fieldAtomic.andThen (fun _ _ h4 => h4))))

theorem Follows.qEncode {c m g x fmt draw} (h : Follows o s) : Follows o (s.qEncode c m g x fmt draw).1 := by
  unfold State.qEncode
  refine Follows.andThen h.fieldAtomic fun _ _ h1 => ?_
  refine Follows.andThen ?_ fun _ _ h2 => ?_
  · split
    · exact h1.drawn.qEscape
    · exact h1.drawn.iteFst (h1.drawn.fieldAtomic.andThen (fun _ _ h3 => h3))
  · refine Follows.andThen h2.spanStore fun _ _ h4 => ?_
    refine Follows.andThen h4.qHeader fun _ _ h5 => ?_
    extract_lets +onlyGivenNames s1
    have h6 : Follows o s1 := by
      subst s1
      split
      · exact h5.reportAmax
      · exact h5
    clear_value s1
    exact h6

theorem Follows.qDecodeOne {c g x fmt} (h : Follows o s) : Follows o (s.qDecodeOne c g x fmt).1 :=
  h.spanLoad.andThen (fun _ _ h1 => ((h1.spanLoad.andThen (fun _ _ h2 => h2)).iteFst h1).andThen (fun _ _ h3 =>
    h3.same.iteFst h3))

theorem Follows.qblkOne {c m} (h : Follows o s) : Follows o (s.qblkOne c m) := by
  unfold State.qblkOne
  split
  · refine h.tumFault.ite ?_
    refine h.tumFault.ite ?_
    extract_lets +onlyGivenNames key
    split
    rename_i e11
    have h1 := (h.claim.iteFst h).of_eq e11
    split
    · exact ((h1.qDecodeOne.iteFst h1.qEncode).of_eq ‹_›).tumMemFault
    · exact ((h1.qDecodeOne.iteFst h1.qEncode).of_eq ‹_›).modGroup
  · exact h

theorem Follows.qblkOp {u g w} (h : Follows o s) : Follows o (s.qblkOp u g w) :=
  h.issue (fun _ _ h1 => h1.legal (fun _ h2 => h2.foldl fun _ _ h3 => h3.qblkOne))

theorem Follows.spoisonOne {c m} (h : Follows o s) : Follows o (s.spoisonOne c m) := by
  unfold State.spoisonOne
  split
  · exact h.sendPoison.ite h
  · exact h

theorem Follows.spoisonOp {u g w} (h : Follows o s) : Follows o (s.spoisonOp u g w) :=
  h.issue (fun _ _ h1 => h1.legal (fun _ h2 => h2.foldl fun _ _ h3 => h3.spoisonOne))

end Sys2Proof.Machine
end

section
/-! PROOFS. What follows a state through the operations of Machine/TumLaunch.lean. -/

namespace Sys2Proof.Machine

variable {o s : State}

theorem Follows.blockPlace {n u} (h : Follows o s) : Follows o (s.blockPlace n u) := by
  unfold State.blockPlace
  extract_lets +onlyGivenNames s1
  have h1 : Follows o s1 := h.passMarkers
  split
  · exact h1
  · refine h1.ite ?_
    split
    · exact h1
    · extract_lets +onlyGivenNames k s2 s3 s4
      have h2 : Follows o s4 := h1.modLaunch.modTumbler.foldl fun _ _ h3 => h3.setGroup
      split
      · exact (h2.fetchSpan.of_eq ‹_›).tumMemFault
      · exact (h2.fetchSpan.of_eq ‹_›).modBlock

theorem Follows.launchStop {n} (h : Follows o s) : Follows o (s.launchStop n) := by
  unfold State.launchStop
  split
  · exact h
  · exact (h.foldl fun _ _ h1 => h1.stopHere).ite h

theorem Follows.launchComplete {n} (h : Follows o s) : Follows o (s.launchComplete n) := by
  unfold State.launchComplete
  split
  · exact h
  · exact (h.same.markFaults.ite h.same).finish.ite h

theorem Follows.saveBlock {u l} (h : Follows o s) : Follows o (s.saveBlock u l) := by
  unfold State.saveBlock
  split
  · exact h
  · exact h.ite h.scribble

theorem Follows.blockPreempt {u l b} (h : Follows o s) : Follows o (s.blockPreempt u l b) :=
  h.ite h.split.modTumbler.saveBlock

theorem Follows.loadBlock {u k} (h : Follows o s) : Follows o (s.loadBlock u k).1 := h.iteFst h.fetchSpan

theorem Follows.blockResume {u l b} (h : Follows o s) : Follows o (s.blockResume u l b) := by
  unfold State.blockResume
  split
  · split
    · exact h
    · refine h.ite ?_
      split
      · exact h
      · extract_lets +onlyGivenNames s1 s2
        have h1 : Follows o s2 := h.modTumbler.foldl fun _ _ h2 => h2.setGroup
        split
        · exact (h1.loadBlock.of_eq ‹_›).tumMemFault
        · exact (h1.loadBlock.of_eq ‹_›).releaseBars
  · exact h

theorem Follows.tumReset {t'} (h : Follows o s) : Follows o (s.tumReset t') := h.same

end Sys2Proof.Machine
end

section
/-! PROOFS. What follows a state through the operations of Machine/FabBase.lean. -/

namespace Sys2Proof.Machine

variable {o s : State}

theorem Follows.modPort {p f} (h : Follows o s) : Follows o (s.modPort p f) := h.same

theorem Follows.sendFlit {p f} (h : Follows o s) : Follows o (State.sendFlit p s f) := h.modPort.emit

theorem Follows.owe {p vc bs} (h : Follows o s) : Follows o (s.owe p vc bs) := h.modPort

theorem Follows.txStep {p} (h : Follows o s) : Follows o (State.txStep p s) := by
  unfold State.txStep
  split
  · exact h
  · exact h.ite (h.modPort.emit.foldl fun _ _ h1 => h1.sendFlit).count

theorem Follows.drainTx {p} (h : Follows o s) : Follows o (s.drainTx p) := h.times fun _ h1 => h1.txStep

theorem Follows.sendPacket {p bs mc} (h : Follows o s) : Follows o (s.sendPacket p bs mc) := h.modPort.drainTx

theorem Follows.setReqs {rs} (h : Follows o s) : Follows o (s.setReqs rs) := h.same.wr.wr

theorem Follows.pumpReq {x r} (h : Follows o x.1) : Follows o (State.pumpReq x r).1 := by
  unfold State.pumpReq
  split
  extract_lets +onlyGivenNames k
  split
  · exact h
  · refine Follows.iteFst ?_ ?_
    · exact h
    · extract_lets +onlyGivenNames s1
      have h1 : Follows o s1 := h.setReqs
      exact h1.sendPacket.count

theorem Follows.pump (h : Follows o s) : Follows o s.pump := h.foldlFst fun _ _ h1 => h1.pumpReq

theorem Follows.fillMap (h : Follows o s) : Follows o s.fillMap := h.foldl fun _ _ h1 => h1.wr

theorem Follows.portTo {p st} (h : Follows o s) : Follows o (s.portTo p st) :=
  h.ite ((h.wr.wr.modPort.ite h.wr).modPort.wr.setEvent.event.event.thus fun h1 =>
    (h1.healthInput.ite h1).thus fun h2 => ((h2.healthInput.ite h2).fillMap.foldl fun _ _ h3 => h3.drainTx).pump)

theorem Follows.retrain {p} (h : Follows o s) : Follows o (s.retrain p) := h.addSat.count.healthInput.modPort.portTo

theorem Follows.peer {e node} (h : Follows o s) : Follows o (s.peer e node).1 := by
  unfold State.peer
  extract_lets +onlyGivenNames c
  split
  · exact h
  · split
    · exact h
    · exact h.same

theorem Follows.peerMarker {e} (h : Follows o s) : Follows o (s.peerMarker e) := by
  unfold State.peerMarker
  extract_lets +onlyGivenNames s1
  have h1 : Follows o s1 := h.passMarkers
  split
  · exact h1.popMsg.same.emit
  · exact h1

theorem Follows.target {a} (h : Follows o s) : Follows o (s.target a).1 := by
  unfold State.target
  refine h.iteFst ?_
  refine h.iteFst ?_
  split <;> exact h.peer.of_eq ‹_›

theorem Follows.ask {a} (h : Follows o s) : Follows o (s.ask a).1 := by
  unfold State.ask
  refine h.iteFst ?_
  split
  · exact h.target.of_eq ‹_›
  · exact (h.target.of_eq ‹_›).same.setReqs.thus fun h1 => h1.modPort.count.iteFst h1.pump

end Sys2Proof.Machine
end

section
/-! PROOFS. What follows a state through the operations of Machine/Sync.lean. -/

namespace Sys2Proof.Machine

variable {o s : State}

theorem Follows.putField {x off n v} (h : Follows o s) : Follows o (s.putField x off n v) := h.write

theorem Follows.putMember {x off m v} (h : Follows o s) : Follows o (s.putMember x off m v) := h.putField

theorem Follows.showSlots (h : Follows o s) : Follows o s.showSlots := h.wr.foldl fun _ _ h1 => h1.wr

theorem Follows.putSlot {k x} (h : Follows o s) : Follows o (s.putSlot k x) := h.same.wr.wr.wr.showSlots

theorem Follows.dropSlot {k} (h : Follows o s) : Follows o (s.dropSlot k) := h.same.setReg.showSlots

theorem Follows.synRestart (h : Follows o s) : Follows o s.synRestart := h.same.resetBlock

theorem Follows.upset {k x} (h : Follows o s) : Follows o (s.upset k x).1 := h.drawn.drawn.drawn.write.putSlot

theorem Follows.sendRelease {x} (h : Follows o s) : Follows o (s.sendRelease x).1 := by
  unfold State.sendRelease
  refine h.iteFst ?_
  extract_lets +onlyGivenNames g f
  split
  · exact h.setEvent
  · exact h.ask

theorem Follows.writeRelease {x completed st} (h : Follows o s) : Follows o (s.writeRelease x completed st) :=
  h.putField

theorem Follows.freeze {k x st} (h : Follows o s) : Follows o (s.freeze k x st) :=
  h.writeRelease.thus fun h1 => (h1.ite h1.sendRelease).tell.setEvent.putSlot

theorem Follows.complete {k x x'} (h : Follows o s) : Follows o (State.complete k x x' s) := by
  induction x' generalizing s with
  | zero => exact h
  | succ n ih =>
    rw [State.complete]
    refine h.ite ?_
    extract_lets +onlyGivenNames g s1 s2 s3 s4 s5
    have h1 : Follows o s5 := h.writeRelease.putField.write.putField.write.putField.count.putSlot
    split
    · exact ih (h1.sendRelease.of_eq ‹_›)
    · exact (h1.sendRelease.of_eq ‹_›).freeze

theorem Follows.arrive {k x v} (h : Follows o s) : Follows o (s.arrive k x v).1 :=
  h.count.iteFst (h.count.upset.iteFst (h.count.iteFst (h.count.iteFst (h.count.iteFst
    ((h.count.iteFst h.count.putMember.putField.putSlot.complete).iteFst ((h.count.iteFst
    (h.count.iteFst h.count.putMember.putField.putSlot)).iteFst (h.count.freeze.iteFst h.count)))))))

theorem Follows.refused {x} (h : Follows o x.1) : Follows o (State.refused x).1 := h.iteFst h.setEvent.addSat.count

theorem Follows.signalAt {pa b} (h : Follows o s) : Follows o (s.signalAt pa b).1 := by
  unfold State.signalAt
  refine h.refused.iteFst ?_
  split
  · exact (h.arrive.iteFst h).refused
  · exact h.refused.iteFst (h.readAs.iteFst h.readAs.bankCount.write)

theorem Follows.activateAt {t' va pa} (h : Follows o s) : Follows o (s.activateAt t' va pa).1 := by
  unfold State.activateAt
  refine h.iteFst ?_
  refine h.iteFst ?_
  split
  · exact h
  · exact h.iteFst h.putField.putField.putField.putField.putField.write.write.writeRelease.putSlot

theorem Follows.barActivate {t' r e} (h : Follows o s) : Follows o (s.barActivate t' r e) := by
  unfold State.barActivate
  refine h.finish.ite ?_
  split
  · exact (h.translate.of_eq ‹_›).finish
  · rename_i e2
    have h1 := h.translate.of_eq e2
    refine h1.finish.ite ?_
    split <;> exact (h1.activateAt.of_eq ‹_›).finish

theorem Follows.members' {t' k op m} (h : Follows o s) : Follows o (s.members' t' k op m).1 := by
  unfold State.members'
  split
  · exact h
  · refine Follows.iteFst ?_ ?_
    · exact h
    · refine Follows.iteFst ?_ ?_
      · extract_lets +onlyGivenNames s1
        have h1 : Follows o s1.1 := h.upset
        exact h1
      · extract_lets +onlyGivenNames n has
        refine Follows.iteFst ?_ ?_
        · refine Follows.iteFst ?_ ?_
          · exact h
          · extract_lets +onlyGivenNames s2
            have h2 : Follows o s2 := h.putMember.putField.putSlot
            exact h2
        · refine Follows.iteFst ?_ ?_
          · exact h
          · extract_lets +onlyGivenNames a x s3
            have h3 : Follows o s3 := h.putMember.putMember.putMember
            extract_lets +onlyGivenNames s4
            have h4 : Follows o s4 := h3.putField
            extract_lets +onlyGivenNames s5
            have h5 : Follows o s5 := h4.putField
            extract_lets +onlyGivenNames s6
            have h6 : Follows o s6 := h5.putField
            extract_lets +onlyGivenNames s7
            have h7 : Follows o s7 := h6.putSlot.complete
            exact h7

theorem Follows.closeSlot {k x} (h : Follows o s) : Follows o (s.closeSlot k x) :=
  h.dropSlot.ite h.writeRelease.sendRelease.dropSlot

theorem Follows.barrierTimeout {k} (h : Follows o s) : Follows o (s.barrierTimeout k) := by
  unfold State.barrierTimeout
  split
  · exact h
  · exact h.ite (h.freeze.ite h.upset)

theorem Follows.loseSlot {k x send} (h : Follows o s) : Follows o (s.loseSlot k x send) :=
  h.writeRelease.thus fun h1 => (h1.sendRelease.event.ite h1).setEvent.dropSlot

theorem Follows.loseSlots {t' send} (h : Follows o s) : Follows o (s.loseSlots t' send) :=
  h.foldl fun _ _ h1 => h1.loseSlot

theorem Follows.synReady (h : Follows o s) : Follows o s.synReady := h.ite h.wr

end Sys2Proof.Machine
end

section
/-! PROOFS. What follows a state through the operations of Machine/FabTum.lean. -/

namespace Sys2Proof.Machine

variable {o s : State}

theorem Follows.fabFault {code ty t' unit target addr id op retried} (h : Follows o s) :
    Follows o (s.fabFault code ty t' unit target addr id op retried) :=
  h.event.faultEntry.drawn

theorem Follows.remoteError {u l lanes code} (h : Follows o s) : Follows o (s.remoteError u l lanes code) :=
  h.foldl fun _ _ h1 => h1.modGroup

theorem Follows.wake {u a} (h : Follows o s) : Follows o (s.wake u a) := h.foldl fun _ _ h1 => h1.modGroup

theorem Follows.remotePart {u a vals} (h : Follows o s) : Follows o (s.remotePart u a vals) :=
  h.putAccess.ite (h.wake.finishAccess.ite h.dropAccess)

theorem Follows.remoteFail {u id lanes p code retried} (h : Follows o s) :
    Follows o (s.remoteFail u id lanes p code retried) := by
  unfold State.remoteFail
  split
  · exact h
  · exact h.remoteError.fabFault.remotePart

theorem Follows.remoteAnswer {u id lanes p rsp} (h : Follows o s) : Follows o (s.remoteAnswer u id lanes p rsp) := by
  unfold State.remoteAnswer
  split
  · exact h
  · exact h.remotePart

theorem Follows.sendDraft {u a flow d} (h : Follows o s) : Follows o (s.sendDraft u a flow d) := by
  unfold State.sendDraft
  extract_lets +onlyGivenNames node ls fail
  split
  · exact h.remoteFail
  · split
    · exact h.ask.of_eq ‹_›
    · exact (h.ask.of_eq ‹_›).remoteFail

theorem Follows.remoteGo {c a ty kind flow} (h : Follows o s) : Follows o (s.remoteGo c a ty kind flow) :=
  h.count.modTumbler.thus fun h1 => ((h1.foldl fun _ _ h2 => h2.ite h2.modGroup).ite h1).foldl fun _ _ h3 =>
    h3.sendDraft

theorem Follows.remoteStart {c a ty kind flow size} (h : Follows o s) :
    Follows o (s.remoteStart c a ty kind flow size) := by
  unfold State.remoteStart
  split
  · exact h.tumMemFault
  · exact h.remoteGo

theorem Follows.remoteOp {u g w store} (h : Follows o s) : Follows o (s.remoteOp u g w store) := by
  unfold State.remoteOp
  exact h.issue (fun _ _ h1 => h1.legal (fun _ h2 => h2.remoteStart))

theorem Follows.atomOp' {u g w} (h : Follows o s) : Follows o (s.atomOp' u g w) := by
  unfold State.atomOp'
  exact h.issue (fun _ _ h1 => h1.legal (fun _ h2 => h2.tenantAtom.ite (h2.localAtom.ite h2.remoteStart)))

end Sys2Proof.Machine
end

section
/-! PROOFS. What follows a state through the operations of Machine/FabXfer.lean. -/

namespace Sys2Proof.Machine

variable {o s : State}

theorem Follows.putXfer {e x} (h : Follows o s) : Follows o (s.putXfer e x) := h.same

theorem Follows.xferFault {e x code kind va pa} (h : Follows o s) : Follows o (s.xferFault e x code kind va pa) := by
  unfold State.xferFault
  refine Follows.ite ?_ h.putXfer
  extract_lets +onlyGivenNames s1
  have h1 : Follows o s1 := h.putXfer.memFault
  split
  · exact h1.markFaults
  · exact h1

theorem Follows.xferData {e x off n} (h : Follows o s) : Follows o (s.xferData e x off n).1 := by
  unfold State.xferData
  split
  · exact h
  · exact h.fetchSpan

theorem Follows.askData {e x off n flow dom data} (h : Follows o s) :
    Follows o (s.askData e x off n flow dom data).1 :=
  h.ask

theorem Follows.feedData {e x} (h : Follows o s) : Follows o (s.feedData e x) := by
  unfold State.feedData
  extract_lets +onlyGivenNames a n i flow
  split
  · exact h.putXfer
  · split
    · exact ((h.iteFst h.xferData).of_eq ‹_›).xferFault
    · rename_i e2
      have h1 := (h.iteFst h.xferData).of_eq e2
      extract_lets +onlyGivenNames x
      split <;> exact (h1.askData.of_eq ‹_›).putXfer

theorem Follows.feedSignal {e x} (h : Follows o s) : Follows o (s.feedSignal e x) := by
  unfold State.feedSignal
  extract_lets +onlyGivenNames x6
  clear_value x6
  extract_lets +onlyGivenNames x5
  clear_value x5
  extract_lets +onlyGivenNames x4
  clear_value x4
  split
  · refine Follows.putXfer h
  · extract_lets +onlyGivenNames x3
    clear_value x3
    split
    · exact (h.ask.of_eq ‹_›).putXfer
    · refine Follows.putXfer (h.ask.of_eq ‹_›)

theorem Follows.feedStep {e} (h : Follows o s) : Follows o (State.feedStep e s) := by
  unfold State.feedStep
  split
  · exact h
  · exact h.ite (h.feedData.ite (h.feedSignal.ite h))

theorem Follows.feedEngine {e} (h : Follows o s) : Follows o (s.feedEngine e) := h.times fun _ h1 => h1.feedStep

theorem Follows.takeXfer {e} (h : Follows o s) : Follows o (s.takeXfer e) := by
  unfold State.takeXfer
  split
  · exact h.same.passMarkers.putXfer.feedEngine
  · exact h

theorem Follows.startXfer {x} (h : Follows o s) : Follows o (s.startXfer x) := by
  unfold State.startXfer
  extract_lets +onlyGivenNames _ s1
  split
  · exact h.same.takeXfer
  · exact h.same

theorem Follows.transfer {t' r e} (h : Follows o s) : Follows o (s.transfer t' r e) := by
  unfold State.transfer
  refine h.finish.ite ?_
  split
  · exact (h.fetchSpan.of_eq ‹_›).finishMem
  · rename_i e2
    have h1 := h.fetchSpan.of_eq e2
    split
    · exact h1.startXfer
    · exact h1.finish

theorem Follows.signalCommand {t' r e} (h : Follows o s) : Follows o (s.signalCommand t' r e) := by
  unfold State.signalCommand
  extract_lets +onlyGivenNames a
  split
  · exact h.finish
  · split
    · exact h.ask.of_eq ‹_›
    · exact (h.ask.of_eq ‹_›).finish

theorem Follows.xferAnswer {e off n code data} (h : Follows o s) : Follows o (s.xferAnswer e off n code data) := by
  unfold State.xferAnswer
  split
  · exact h
  · refine h.putXfer.ite ?_
    refine Follows.ite ?_ h.putXfer.count
    extract_lets +onlyGivenNames bs x
    split
    · exact (h.storeSpan.of_eq ‹_›).xferFault
    · exact (h.storeSpan.of_eq ‹_›).putXfer.count

theorem Follows.signalAnswer {e code} (h : Follows o s) : Follows o (s.signalAnswer e code) := by
  unfold State.signalAnswer
  split
  · exact h
  · exact h.putXfer

theorem Follows.fabGo (h : Follows o s) : Follows o s.fabGo := h.pump.foldl fun _ _ h1 => h1.feedEngine

theorem Follows.endReq {r code rsp} (h : Follows o s) : Follows o (s.endReq r code rsp) := by
  unfold State.endReq
  extract_lets +onlyGivenNames s1 p s2
  have h1 : Follows o s2 := h.setReqs.count.ite (h.setReqs.count.ite h.setReqs)
  extract_lets +onlyGivenNames s3
  have h2 : Follows o s3 := by
    subst s3
    split
    · exact h1.remoteAnswer.ite h1.remoteFail
    · exact h1.xferAnswer
    · exact h1.signalAnswer
    · exact h1.finish.afterCode
    · exact h1
  clear_value s3
  exact h2.fabGo

theorem Follows.remoteTimeout {id} (h : Follows o s) : Follows o (s.remoteTimeout id) := by
  unfold State.remoteTimeout
  split
  · exact h.endReq.ite h
  · exact h

theorem Follows.atomicRetry {id} (h : Follows o s) : Follows o (s.atomicRetry id) := by
  unfold State.atomicRetry
  split
  · refine Follows.ite ?_ h
    refine h.setReqs.modPort.ite ?_
    split
    · exact h.setReqs.sendPacket
    · exact h.setReqs
  · exact h

theorem Follows.outcomeUnknown {id} (h : Follows o s) : Follows o (s.outcomeUnknown id) := by
  unfold State.outcomeUnknown
  split
  · exact h.endReq.ite h
  · exact h

theorem Follows.e2eFail {p} (h : Follows o s) : Follows o (s.e2eFail p) := h.addSat.setEvent.event.event.count

theorem Follows.response {p ty match' f} (h : Follows o s)
    (hf : ∀ s x1 x2, Follows o s → Follows o (f s x1 x2)) : Follows o (s.response p ty match' f) := by
  unfold State.response
  split
  · exact h
  · refine h.ite ?_
    refine h.modPort.e2eFail.ite ?_
    extract_lets +onlyGivenNames k
    split
    · exact h.modPort.setEvent
    · exact hf _ _ _ h.modPort

end Sys2Proof.Machine
end

section
/-! PROOFS. What follows a state through the operations of Machine/Manifest.lean. -/

namespace Sys2Proof.Machine

variable {o s : State}

theorem Follows.publish {u step m} (h : Follows o s) : Follows o (s.publish u step m) := h.same

theorem Follows.loadGens {u} (h : Follows o s) : Follows o (s.loadGens u) :=
  (h.foldl fun _ _ h1 => h1.setReg).thus fun h2 => h2.ite h2.same

theorem Follows.resReady (h : Follows o s) : Follows o s.resReady := (h.foldl fun _ _ h1 => h1.loadGens).wr

end Sys2Proof.Machine
end

section
/-! PROOFS. What follows a state through the operations of Machine/FabIn.lean. -/

namespace Sys2Proof.Machine

variable {o s : State}

theorem Follows.resolveIn {p t' off write} (h : Follows o s) : Follows o (s.resolveIn p t' off write).1 := by
  unfold State.resolveIn
  refine Follows.iteFst ?_ h.translate
  split <;> exact h

theorem Follows.sendRsp {p dst flow bs} (h : Follows o s) : Follows o (s.sendRsp p dst flow bs) := by
  unfold State.sendRsp
  refine h.modPort.ite ?_
  split
  · exact h.sendPacket
  · exact h

theorem Follows.respond {p k ty status data} (h : Follows o s) : Follows o (s.respond p k ty status data) :=
  h.ite h.sendRsp

theorem Follows.ackOr {p k code} (h : Follows o s) : Follows o (s.ackOr p k code) := h.respond.ite h.respond

theorem Follows.takeRequest {p k bs rest} (h : Follows o s) : Follows o (s.takeRequest p k bs rest) :=
  h.modPort.ite h.modPort.owe

theorem Follows.inbound {p ty f} (h : Follows o s) (hf : ∀ s x1, Follows o s → Follows o (f s x1)) :
    Follows o (s.inbound p ty f) := by
  unfold State.inbound
  split
  · exact h
  · exact h.ite (h.takeRequest.thus fun h1 => h1.e2eFail.ite (h1.respond.ite (h.ite (hf _ _ h1))))

theorem Follows.withTenant {p k f} (h : Follows o s) (hf : ∀ s x1, Follows o s → Follows o (f s x1)) :
    Follows o (s.withTenant p k f) := by
  unfold State.withTenant
  split
  · exact hf _ _ h
  · exact h.respond

theorem Follows.recordNack {p k} (h : Follows o s) : Follows o (s.recordNack p k) := by
  unfold State.recordNack
  split
  exact (h.pair.refused.of_eq ‹_›).respond

theorem Follows.withAddress {p k t' n write f} (h : Follows o s)
    (hf : ∀ s x1, Follows o s → Follows o (f s x1)) : Follows o (s.withAddress p k t' n write f) := by
  unfold State.withAddress
  refine h.respond.ite ?_
  split
  · exact (h.resolveIn.of_eq ‹_›).respond
  · rename_i e2
    have h1 := h.resolveIn.of_eq e2
    exact h1.recordNack.ite (hf _ _ h1)

theorem Follows.inRead {p k} (h : Follows o s) : Follows o (s.inRead p k) :=
  h.withTenant (fun _ _ h1 => (h1.respond.ite h1.respond).ite (h1.withAddress (fun _ _ h2 =>
    h2.readAs.thus fun h3 => h3.respond.ite h3.respond)))

theorem Follows.inWrite {p k} (h : Follows o s) : Follows o (s.inWrite p k) :=
  h.withTenant (fun _ _ h1 => h1.respond.ite (h1.withAddress (fun _ _ h2 => h2.writeLine.ackOr)))

theorem Follows.land {p t' pa k code mask data atoms} (h : Follows o s) :
    Follows o (s.land p t' pa k code mask data atoms) :=
  h.same.modPort.sendRed

theorem Follows.inReduce {p k} (h : Follows o s) : Follows o (s.inReduce p k) :=
  h.withTenant (fun _ _ h1 => h1.respond.ite (h1.withAddress (fun _ _ h2 => h2.respond.ite h2.land)))

theorem Follows.atomicDone {p k ty status data} (h : Follows o s) : Follows o (s.atomicDone p k ty status data) :=
  h.modPort.sendRsp

theorem Follows.atomicFirst {p k} (h : Follows o s) : Follows o (s.atomicFirst p k) := by
  unfold State.atomicFirst
  extract_lets +onlyGivenNames s1 nack
  have h1 : Follows o s1 := h.modPort
  split
  · exact h1.atomicDone
  · refine h1.atomicDone.ite (h1.atomicDone.ite (h1.atomicDone.ite ?_))
    split
    · exact (h1.resolveIn.of_eq ‹_›).atomicDone
    · rename_i e
      have h2 := h1.resolveIn.of_eq e
      refine Follows.ite ?_ h2.land
      split
      exact (h2.pair.refused.of_eq ‹_›).atomicDone

theorem Follows.inAtomic {p k} (h : Follows o s) : Follows o (s.inAtomic p k) := by
  unfold State.inAtomic
  split
  · split
    · exact h.count.sendRsp
    · exact h
  · exact h.setEvent.count.respond.ite h.atomicFirst

theorem Follows.landed {p key code values} (h : Follows o s) : Follows o (s.landed p key code values) := by
  unfold State.landed
  split
  · exact h
  · exact h.modPort.ackOr.ite (h.modPort.atomicDone.ite h.modPort.atomicDone)

theorem Follows.inSignal {p k} (h : Follows o s) : Follows o (s.inSignal p k) := by
  unfold State.inSignal
  refine Follows.withTenant h fun _ _ h1 => ?_
  refine h1.respond.ite ?_
  refine h1.respond.ite ?_
  split
  · exact (h1.resolveIn.of_eq ‹_›).respond
  · exact (h1.resolveIn.of_eq ‹_›).signalAt.ackOr

end Sys2Proof.Machine
end

section
/-! PROOFS. What follows a state through the operations of Machine/Drain.lean. -/

namespace Sys2Proof.Machine

variable {o s : State}

theorem Follows.setDrains {ds} (h : Follows o s) : Follows o (s.setDrains ds) := h.same.wr

theorem Follows.putDrain {d} (h : Follows o s) : Follows o (s.putDrain d) := h.setDrains

theorem Follows.genRecord {g st step seq bytes} (h : Follows o s) : Follows o (s.genRecord g st step seq bytes) :=
  h.journalOffer.drawn.drawn

theorem Follows.freeGenSlot {g} (h : Follows o s) : Follows o (s.freeGenSlot g) := by
  unfold State.freeGenSlot
  split
  · exact h.same.genRecord.ite h
  · exact h

theorem Follows.dropDrainXfers {t' layer} (h : Follows o s) : Follows o (s.dropDrainXfers t' layer) := h.same

theorem Follows.lostEnd (h : Follows o s) : Follows o s.lostEnd := h.resetSequence.ite h

theorem Follows.abandon {t' layer cause} (h : Follows o s) : Follows o (s.abandon t' layer cause) := by
  unfold State.abandon
  split
  · exact h
  · exact h.setDrains.dropDrainXfers.thus fun h1 => (h1.setReg.ite (h1.freeGenSlot.ite h1)).setEvent.tell.lostEnd

theorem Follows.abandonStart {t' layer cause} (h : Follows o s) : Follows o (s.abandonStart t' layer cause) :=
  h.setEvent.tell.lostEnd

theorem Follows.abandonAll {t' cause} (h : Follows o s) : Follows o (s.abandonAll t' cause) :=
  h.foldl fun _ _ h1 => h1.abandon

theorem Follows.drainDone {d} (h : Follows o s) : Follows o (s.drainDone d) :=
  h.setDrains.setEvent.tell.setReg.thus fun h1 => (h1.ite h1.publish).lostEnd

theorem Follows.undue {t' layer} (h : Follows o s) : Follows o (s.undue t' layer) := h.same

theorem Follows.startPartner {t'} (h : Follows o s) : Follows o (s.startPartner t') := by
  unfold State.startPartner
  split
  · exact h
  · extract_lets +onlyGivenNames bs s1
    split
    · exact h.undue.abandonStart
    · exact h.undue.same.setDrains

theorem Follows.startFlash {t'} (h : Follows o s) : Follows o (s.startFlash t') :=
  h.undue.abandonStart.ite ((h.ite h.same.setEvent.event).ite h.undue.setBucket.setDrains.genRecord)

theorem Follows.startShared {t'} (h : Follows o s) : Follows o (s.startShared t') := by
  unfold State.startShared
  extract_lets +onlyGivenNames a s1
  split
  · exact h.undue
  · exact h.undue.ite (h.undue.abandonStart.ite h.undue.setDrains)

theorem Follows.securingStart {t'} (h : Follows o s) : Follows o (s.securingStart t') :=
  h.foldl fun _ _ h1 => (h1.startPartner.ite (h1.startFlash.ite h1.startShared)).ite h1

theorem Follows.bucketRefill (h : Follows o s) : Follows o s.bucketRefill := by
  unfold State.bucketRefill
  split
  · exact h
  · exact (h.setBucket.ite h).thus fun h1 => h1.startFlash.ite h1

theorem Follows.drainPut {t' layer manifest addr bs} (h : Follows o s) :
    Follows o (s.drainPut t' layer manifest addr bs) := by
  unfold State.drainPut
  extract_lets +onlyGivenNames d
  split
  · exact h.startXfer
  · exact h.event.abandon

theorem Follows.drainClose {t' layer} (h : Follows o s) : Follows o (s.drainClose t' layer) := by
  unfold State.drainClose
  split
  · exact h
  · exact h.ite (h.putDrain.same.tlcWrite.genRecord.ite h.putDrain.drainPut)

theorem Follows.flashBlock {d b} (h : Follows o s) : Follows o (s.flashBlock d b) := h.same.tlcWrite

theorem Follows.keepDigest {d b} (h : Follows o s) : Follows o (s.keepDigest d b) := h.ite h.same

theorem Follows.putBlock {d b rest} (h : Follows o s) : Follows o (s.putBlock d b rest) :=
  (h.putDrain.setReg.ite h.putDrain).keepDigest.thus fun h1 => (h1.flashBlock.ite h1.drainPut).drainClose

theorem Follows.unstable {t'} (h : Follows o s) : Follows o (s.unstable t') :=
  h.abandon.abandon.same.setEvent.event.healthInput

theorem Follows.drainBlockEnd {t' layer other ok} (h : Follows o s) :
    Follows o (s.drainBlockEnd t' layer other ok) := by
  unfold State.drainBlockEnd
  split
  · exact h
  · split
    · exact h
    · exact h.ite (h.abandon.ite ((h.touchSpans.ite h).thus fun h1 => (h1.putDrain.ite h1.unstable).ite h1.putBlock))

theorem Follows.drainWaitExpiry {t'} (h : Follows o s) : Follows o (s.drainWaitExpiry t') :=
  h.ite (h.foldl fun _ _ h1 => h1.abandon)

theorem Follows.drainXferEnd {t' layer manifest status} (h : Follows o s) :
    Follows o (s.drainXferEnd t' layer manifest status) := by
  unfold State.drainXferEnd
  split
  · exact h
  · exact h.ite (h.abandon.ite (h.drainDone.ite h.drainClose))

theorem Follows.openGenSlot {g p runs} (h : Follows o s) : Follows o (s.openGenSlot g p runs) :=
  h.same.ite h.same.freeGenSlot

theorem Follows.genCommitted {g p} (h : Follows o s) : Follows o (s.genCommitted g p) := by
  unfold State.genCommitted
  refine Follows.ite ?_ ?_
  · split
    · exact h.ite h.openGenSlot
    · exact h.openGenSlot
  · refine Follows.ite ?_ h
    split
    · exact h.same.drainDone.ite h.same
    · exact h

end Sys2Proof.Machine
end

section
/-! PROOFS. What follows a state through the operations of Machine/FabEnd.lean. -/

namespace Sys2Proof.Machine

variable {o s : State}

theorem Follows.getFailed {e x} (h : Follows o s) : Follows o (s.getFailed e x) :=
  h.ite (h.foldl fun _ _ h1 => h1.storeSpan.drawn)

theorem Follows.writeXferRecord {e x} (h : Follows o s) : Follows o (s.writeXferRecord e x) := by
  unfold State.writeXferRecord
  refine h.ite ?_
  extract_lets +onlyGivenNames r
  split
  · exact (h.drawn.drawn.storeSpan.of_eq ‹_›).xferFault
  · exact h.drawn.drawn.storeSpan.of_eq ‹_›

theorem Follows.xferEnd {e x} (h : Follows o s) : Follows o (s.xferEnd e x) := by
  unfold State.xferEnd
  extract_lets +onlyGivenNames s1
  have h1 : Follows o s1 := h.getFailed.writeXferRecord
  extract_lets +onlyGivenNames st _ s2 s3
  have h2 : Follows o s3 := by
    subst s3
    split
    · exact h1.same.finish.afterCode
    · exact h1.same.drainXferEnd
  clear_value s3
  exact h2.takeXfer

theorem Follows.transferEnd {e} (h : Follows o s) : Follows o (s.transferEnd e) := by
  unfold State.transferEnd
  split
  · exact h
  · extract_lets +onlyGivenNames s1
    have h1 : Follows o s1 := h.feedSignal.ite h
    split
    · exact h1
    · exact h1.xferEnd.ite h1

end Sys2Proof.Machine
end

section
/-! PROOFS. What follows a state through the operations of Machine/Registers.lean. -/

namespace Sys2Proof.Machine

variable {o s : State}

theorem Follows.setFwReg {r v} (h : Follows o s) : Follows o (s.setFwReg r v) := h.same

theorem Follows.writeChannel {a r v part} (h : Follows o s) : Follows o (s.writeChannel a r v part) := by
  unfold State.writeChannel
  extract_lets +onlyGivenNames m
  split
  · exact h.ite h.setReg
  · exact h.setReg
  · exact h.ite h.setFwReg
  · exact h.setFwReg
  · exact h

theorem Follows.writeReg {a r v part} (h : Follows o s) : Follows o (s.writeReg a r v part) := by
  unfold State.writeReg
  refine h.writeChannel.ite ?_
  extract_lets +onlyGivenNames m old s1
  split
  · exact h.denied.ite h.setReg
  · exact h.setReg

theorem Follows.touch {a base} (h : Follows o s) : Follows o (s.touch a base) := h.same

theorem Follows.feed {a u bs} (h : Follows o s) : Follows o (s.feed a u bs) := h.ite ((h.same.wr.ite h.same).ite h.wr)

theorem Follows.lowHalfRead {a off} (h : Follows o s) : Follows o (s.lowHalfRead a off) := by
  unfold State.lowHalfRead
  refine h.same.ite ?_
  split
  · exact h.same
  · exact h.touch.same.thus fun h1 => h1.same.ite h1

theorem Follows.highHalfRead {a off} (h : Follows o s) : Follows o (s.highHalfRead a off) := by
  unfold State.highHalfRead
  refine h.same.ite ?_
  split
  · exact h.same
  · exact h.touch.same

theorem Follows.lowHalfWrite {a off v} (h : Follows o s) : Follows o (s.lowHalfWrite a off v) := by
  unfold State.lowHalfWrite
  refine h.same.ite ?_
  split
  · exact h.touch.same.ite h
  · exact h

theorem Follows.writeWide {a r v part} (h : Follows o s) : Follows o (s.writeWide a r v part) := by
  unfold State.writeWide
  split
  · exact h.feed
  · exact h.writeReg

theorem Follows.highHalfWrite {a off v} (h : Follows o s) : Follows o (s.highHalfWrite a off v) := by
  unfold State.highHalfWrite
  refine h.same.ite ?_
  split
  · refine Follows.ite ?_ h
    split <;> exact h.touch.writeWide.same
  · exact h

theorem Follows.writeWord {a off v} (h : Follows o s) : Follows o (s.writeWord a off v) := by
  unfold State.writeWord
  split
  · exact h.lowHalfWrite.ite h.writeReg
  · exact h.highHalfWrite

theorem Follows.registerWrite {a off wide v} (h : Follows o s) : Follows o (s.registerWrite a off wide v) := by
  unfold State.registerWrite
  refine h.same.ite ?_
  refine Follows.ite ?_ h.writeWord.same
  split
  · exact h.touch.writeReg.same.ite h.writeWord.writeWord.same
  · exact h.writeWord.same

theorem Follows.unsupportedRequest {a off size} (h : Follows o s) : Follows o (s.unsupportedRequest a off size) :=
  h.same.ite h

theorem Follows.markerForward {u} (h : Follows o s) : Follows o (s.markerForward u) := by
  unfold State.markerForward
  split
  · exact h.ite h.popMsg.emit
  · exact h

end Sys2Proof.Machine
end

section
/-! PROOFS. What follows a state through the operations of Machine/Keeper.lean. -/

namespace Sys2Proof.Machine

variable {o s : State}

theorem Follows.mirrorPut {kind key p} (h : Follows o s) : Follows o (s.mirrorPut kind key p) := h.same

theorem Follows.keeperPut {kind key p next} (h : Follows o s) : Follows o (s.keeperPut kind key p next) :=
  h.same.journalOffer

theorem Follows.keeperSet {kind key p} (h : Follows o s) : Follows o (s.keeperSet kind key p) :=
  h.mirrorPut.journalOffer

theorem Follows.markSlot {i st} (h : Follows o s) : Follows o (s.markSlot i st) := h.keeperSet

theorem Follows.extendM {i d} (h : Follows o s) : Follows o (s.extendM i d) := h.same

theorem Follows.mbxPut {host r v} (h : Follows o s) : Follows o (s.mbxPut host r v) := h.setReg.ite h.setFwReg

theorem Follows.mbxWr {host f v} (h : Follows o s) : Follows o (s.mbxWr host f v) := h.mbxPut

theorem Follows.mbxStore {host x x'} (h : Follows o s) : Follows o (s.mbxStore host x x') := by
  induction x' generalizing s x with
  | nil => exact h
  | cons x xs ih =>
    exact ih h.mbxPut

theorem Follows.mbxEnd {code resp} (h : Follows o s) : Follows o (s.mbxEnd code resp) := by
  unfold State.mbxEnd
  split
  · exact h
  · exact h.mbxStore.mbxWr.mbxWr.mbxWr.same.raise.count

theorem Follows.mbxSettle {x} (h : Follows o s) : Follows o (State.mbxSettle x s) := by
  induction x generalizing s with
  | zero => exact h
  | succ n ih =>
    rw [State.mbxSettle]
    split
    · exact h
    · exact (ih h.mbxEnd).ite h

theorem Follows.mbxFinish {code resp} (h : Follows o s) : Follows o (s.mbxFinish code resp) := h.mbxEnd.mbxSettle

theorem Follows.mbxGo {host v} (h : Follows o s) : Follows o (s.mbxGo host v) :=
  h.setEvent.ite (h.mbxWr.mbxWr.thus fun h1 => h1.mbxWr.same.mbxSettle.ite h1)

theorem Follows.mbxDo {op f} (h : Follows o s) (hf : ∀ s x1 x2, Follows o s → Follows o (f s x1 x2)) :
    Follows o (s.mbxDo op f) := by
  unfold State.mbxDo
  split
  · exact h
  · exact (hf _ _ _ h).ite h

theorem Follows.mbxWait {kind key p next} (h : Follows o s) : Follows o (s.mbxWait kind key p next) :=
  h.same.keeperPut

theorem Follows.useSig {u} (h : Follows o s) : Follows o (s.useSig u) := by
  unfold State.useSig
  split
  · exact h.hostWrite.count.mbxFinish
  · exact h.emit.count

theorem Follows.releaseSigs {x} (h : Follows o s) : Follows o (State.releaseSigs x s) := by
  induction x generalizing s with
  | zero => exact h
  | succ n ih =>
    rw [State.releaseSigs]
    split
    · exact h
    · exact (ih h.same.useSig).ite h

theorem Follows.takeIndex {u} (h : Follows o s) : Follows o (s.takeIndex u) := by
  unfold State.takeIndex
  refine h.same.releaseSigs.ite ?_
  split
  · exact h.same
  · exact h.same.same.keeperPut

theorem Follows.confirmEnd {svn fuse} (h : Follows o s) : Follows o (s.confirmEnd svn fuse) := h.same.wr.mbxFinish

theorem Follows.confirmFloor {svn fuse} (h : Follows o s) : Follows o (s.confirmFloor svn fuse) :=
  h.keeperPut.ite h.confirmEnd

theorem Follows.keeperThen {n} (h : Follows o s) : Follows o (s.keeperThen n) := by
  unfold State.keeperThen
  split
  · exact h
  · exact h.mbxFinish
  · exact h.confirmFloor
  · exact h.confirmEnd
  · exact h.extendM.mbxFinish
  · exact h.wr.same.setEvent.event.releaseSigs

theorem Follows.keeperAck {kind key p} (h : Follows o s) : Follows o (s.keeperAck kind key p) := by
  unfold State.keeperAck
  extract_lets +onlyGivenNames s1
  have h1 : Follows o s1 := h.mirrorPut
  split
  · exact h1
  · split
    · exact h1
    · exact h1.same.keeperThen

theorem Follows.mbxReach {addr n f} (h : Follows o s) (hf : ∀ s, Follows o s → Follows o (f s)) :
    Follows o (s.mbxReach addr n f) :=
  (hf _ h).ite h.setEvent.mbxFinish

theorem Follows.entropyFail (h : Follows o s) : Follows o s.entropyFail := h.wr.event

theorem Follows.trialExpiry (h : Follows o s) : Follows o s.trialExpiry := h.markSlot.event.resetSequence.ite h

theorem Follows.watchdogExpiry (h : Follows o s) : Follows o s.watchdogExpiry := h.ite h.event.resetSequence

theorem Follows.bootHalt {err} (h : Follows o s) : Follows o (s.bootHalt err) := h.wr.wr

theorem Follows.stageTo {n} (h : Follows o s) : Follows o (s.stageTo n) := h.wr

theorem Follows.loadKey {x} (h : Follows o s) : Follows o (s.loadKey x) := by
  unfold State.loadKey
  split
  · exact h.ite h.keeperSet
  · exact h.mirrorPut
  · exact h.journalOffer
  · exact h

theorem Follows.loadRecords (h : Follows o s) : Follows o s.loadRecords := by
  unfold State.loadRecords
  extract_lets +onlyGivenNames s1
  have h1 : Follows o s1 := h.foldl fun _ _ h2 => h2.loadKey
  split
  · exact h1.wr.same
  · exact h1.wr.ite h1

theorem Follows.failTrials (h : Follows o s) : Follows o s.failTrials :=
  h.foldl fun _ _ h1 => (h1.markSlot.event.ite h1).same

theorem Follows.slotFails {i code} (h : Follows o s) : Follows o (s.slotFails i code) :=
  h.markSlot.event.thus fun h1 => (h1.event.ite h1).wr.stageTo.thus fun h2 => h2.bootHalt.ite h2

theorem Follows.chooseSlot {ok} (h : Follows o s) : Follows o (s.chooseSlot ok) := by
  unfold State.chooseSlot
  extract_lets +onlyGivenNames s1
  have h1 : Follows o s1 := h.failTrials
  split
  · exact h1.bootHalt
  · exact h1.slotFails.ite (h1.slotFails.ite (h1.wr.wr.same.ite (h1.wr.wr.keeperSet.ite h1.wr.wr)).stageTo)

theorem Follows.startKeeper (h : Follows o s) : Follows o s.startKeeper := by
  unfold State.startKeeper
  extract_lets +onlyGivenNames _ s1 opened s2 s3 s4 s5
  have h1 : Follows o s5 := h.same.extendM.extendM.extendM.extendM
  extract_lets +onlyGivenNames s6
  have h2 : Follows o s6 := by
    subst s6
    split
    · exact h1.extendM.ite h1
    · exact h1
  clear_value s6
  extract_lets +onlyGivenNames s7
  have h3 : Follows o s7 := by
    subst s7
    split
    · exact h2.ite h2.extendM
    · exact h2
  clear_value s7
  exact h3.extendM.thus fun h4 => (h4.same.wr.event.event.ite h4.same).stageTo.mbxSettle

theorem Follows.reportReset (h : Follows o s) : Follows o s.reportReset := by
  unfold State.reportReset
  extract_lets +onlyGivenNames s1
  have h1 : Follows o s1 := by
    subst s1
    split
    · exact h.event
    · exact h.event
    · exact h.event
    · exact h
  clear_value s1
  extract_lets +onlyGivenNames _ s2
  split
  · exact h1.same.event.same
  · exact h1.same

theorem Follows.bootDone (h : Follows o s) : Follows o s.bootDone := h.wr.wr.same.reportReset

theorem Follows.startFirmware (h : Follows o s) : Follows o s.startFirmware := h.resReady.stageTo

theorem Follows.reserveRegions (h : Follows o s) : Follows o s.reserveRegions := h.foldl fun _ _ h1 => h1.setClass

theorem Follows.bootStage {e} (h : Follows o s) : Follows o (s.bootStage e) := by
  unfold State.bootStage
  refine h.ite ?_
  split
  · exact h.stageTo.ite h.bootHalt
  · exact h.stageTo.ite h.bootHalt
  · exact (h.stageTo.ite h).ite h.bootHalt
  · exact h.ite (h.stageTo.ite h.same.wr.entropyFail.stageTo)
  · exact (h.loadRecords.stageTo.ite h).ite h.bootHalt
  · exact h.chooseSlot
  · exact h.startKeeper.ite h
  · exact h.extendM.stageTo.ite h.slotFails
  · exact (h.reserveRegions.stageTo.ite h).ite h.bootHalt
  · exact h.extendM.stageTo.ite h.slotFails
  · exact h.startFirmware
  · exact h.bootDone
  · exact h

end Sys2Proof.Machine
end

section
/-! PROOFS. What follows a state through the operations of Machine/FabMgmt.lean. -/

namespace Sys2Proof.Machine

variable {o s : State}

theorem Follows.mgmtInvalid {p} (h : Follows o s) : Follows o (s.mgmtInvalid p) := h.event

theorem Follows.mgmt {p mtype act} (h : Follows o s) (hf : ∀ s x1, Follows o s → Follows o (act s x1)) :
    Follows o (s.mgmt p mtype act) := by
  unfold State.mgmt
  split
  · exact h
  · exact h.modPort.owe.e2eFail.ite (h.modPort.owe.mgmtInvalid.ite (h.ite (h.modPort.owe.ite
      (h.modPort.owe.mgmtInvalid.ite (hf _ _ h.modPort.owe.same)))))

theorem Follows.nodeAssign {b} (h : Follows o s) : Follows o (s.nodeAssign b) :=
  h.wr.wr.wr.wr.wr.thus fun h1 => h1.same.setEvent.event.ite h1.same

theorem Follows.correlate {x node} (h : Follows o s) : Follows o (s.correlate x node) :=
  h.wr.ite (h.wr.setEvent.event.event.foldl fun _ _ h1 => h1.tell.ite h1)

theorem Follows.setPartner {c} (h : Follows o s) : Follows o (s.setPartner c) := by
  unfold State.setPartner
  extract_lets +onlyGivenNames _ _ s1 s2
  have h1 : Follows o s2 := h.same.setEvent
  split
  · exact h1.setReg.wr.wr
  · exact h1.wr.wr.wr.wr.correlate.dueAll

theorem Follows.choosePartner (h : Follows o s) : Follows o s.choosePartner := h.ite h.setPartner

theorem Follows.partnerLost (h : Follows o s) : Follows o s.partnerLost :=
  h.setEvent.event.foldl fun _ _ h1 => h1.abandon.setReg

theorem Follows.announceEntry {e} (h : Follows o s) : Follows o (s.announceEntry e) := h.ite h.same

theorem Follows.announce {b} (h : Follows o s) : Follows o (s.announce b) :=
  ((h.foldl fun _ _ h1 => h1.announceEntry).wr.setEvent.foldl fun _ _ h2 => h2.send).thus fun h3 =>
    (h3.healthInput.ite h3).thus fun h4 => (h4.partnerLost.ite h4).choosePartner

theorem Follows.tearDomain {t'} (h : Follows o s) : Follows o (s.tearDomain t') :=
  h.same.markAll.wr.foldl fun _ _ h1 => h1.endReq

theorem Follows.teardown {b} (h : Follows o s) : Follows o (s.teardown b) := by
  unfold State.teardown
  extract_lets +onlyGivenNames d
  split
  · exact h
  · exact h.tearDomain.loseSlots.setEvent.tell

theorem Follows.feedAlert {b} (h : Follows o s) : Follows o (s.feedAlert b) := h.healthInput.ite h

theorem Follows.releaseHeld {peer off} (h : Follows o s) : Follows o (s.releaseHeld peer off) :=
  h.same.retire.settleRetired

theorem Follows.reserveHeld {peer inc off bytes} (h : Follows o s) : Follows o (s.reserveHeld peer inc off bytes) :=
  h.releaseHeld.thus fun h1 => (h1.spillFor.ite h1).convertGroups.homeFrames.same

theorem Follows.partner {b} (h : Follows o s) : Follows o (s.partner b) :=
  (h.reserveHeld.ite h.releaseHeld).ite (h.same.ite (h.same.same.choosePartner.ite h.same))

theorem Follows.sfWard {b} (h : Follows o s) : Follows o (s.sfWard b) := h.same.markAll

end Sys2Proof.Machine
end

section
/-! PROOFS. What follows a state through the operations of Machine/Restore.lean. -/

namespace Sys2Proof.Machine

variable {o s : State}

theorem Follows.spoilPending {t'} (h : Follows o s) : Follows o (s.spoilPending t') :=
  h.foldl fun _ _ h1 => h1.writePart.same

theorem Follows.restoreEnd {code} (h : Follows o s) : Follows o (s.restoreEnd code) := by
  unfold State.restoreEnd
  extract_lets +onlyGivenNames s1
  have h1 : Follows o s1 := by
    subst s1
    split
    · exact h.ite h.spoilPending
    · exact h
  clear_value s1
  exact h1.wr.setEvent.same.wr

theorem Follows.restoreGo {v desc binds} (h : Follows o s) : Follows o (s.restoreGo v desc binds) :=
  h.ite (h.wr.wr.wr.wr.thus fun h1 => h1.setEvent.restoreEnd.ite (h1.emit.count.thus fun h2 =>
    (h2.ite h2.emit.count).thus fun h3 => h3.restoreEnd.ite h3.same))

theorem Follows.restoreNext {r} (h : Follows o s) : Follows o (s.restoreNext r) := h.same.wr

theorem Follows.restore1 {r} (h : Follows o s) : Follows o (s.restore1 r) := h.restoreNext.ite h.restoreEnd

theorem Follows.restore2 {r data code} (h : Follows o s) : Follows o (s.restore2 r data code) := by
  unfold State.restore2
  refine Follows.ite ?_ (h.restoreEnd.ite (h.restoreEnd.ite (h.restoreEnd.ite h.restoreNext)))
  split
  · exact h.restoreEnd
  · exact h.restoreEnd.ite h.restoreNext

theorem Follows.restore3 {r} (h : Follows o s) : Follows o (s.restore3 r) := h.restoreNext.ite h.restoreEnd

theorem Follows.restore4 {r data code} (h : Follows o s) : Follows o (s.restore4 r data code) := by
  unfold State.restore4
  refine h.restoreEnd.ite ?_
  split
  · exact h.restoreEnd
  · exact h.restoreNext.ite h.restoreEnd

theorem Follows.restore5 {r data code} (h : Follows o s) : Follows o (s.restore5 r data code) := by
  unfold State.restore5
  extract_lets +onlyGivenNames x7
  clear_value x7
  extract_lets +onlyGivenNames x6
  clear_value x6
  refine h.restoreEnd.ite ?_
  extract_lets +onlyGivenNames x5
  clear_value x5
  extract_lets +onlyGivenNames x4
  clear_value x4
  split
  · exact h.restoreNext
  · refine Follows.ite ?_ ?_
    · exact h.tell.restoreEnd
    · extract_lets +onlyGivenNames s1
      have h1 : Follows o s1 := h.tell
      clear_value s1
      exact h1.restoreNext

theorem Follows.restoreBlock {t' x} (h : Follows o s) : Follows o (s.restoreBlock t' x) := by
  unfold State.restoreBlock
  extract_lets +onlyGivenNames x
  split
  · split
    · exact h.writePart
    · exact h
  · exact h

theorem Follows.restore6 {r data code} (h : Follows o s) : Follows o (s.restore6 r data code) :=
  (h.foldl fun _ _ h1 => h1.restoreBlock).thus fun h2 => h2.restoreEnd.ite h2.restoreNext

theorem Follows.restoreRecs {t' bs step margin} (h : Follows o s) : Follows o (s.restoreRecs t' bs step margin) := by
  unfold State.restoreRecs
  extract_lets +onlyGivenNames s1
  have h1 : Follows o s1.1 := by
    subst s1
    refine h.foldlFst fun _ _ h2 => ?_
    split
    · exact h2.setRec
    · exact h2
  clear_value s1
  exact h1.fellBack

theorem Follows.restore7 {r} (h : Follows o s) : Follows o (s.restore7 r) := h.setNum.restoreRecs.restoreNext

theorem Follows.commitsLost {r} (h : Follows o s) : Follows o (s.commitsLost r) :=
  h.ite (h.setEvent.tell.ite (h.setEvent.tell.ite h))

theorem Follows.restore8 {r} (h : Follows o s) : Follows o (s.restore8 r) :=
  h.writeRecord.writeStepWord.modStep.commitsLost.restoreNext

theorem Follows.restore9 {r} (h : Follows o s) : Follows o (s.restore9 r) :=
  h.remapCopies.commitRecord.hostWrite.restoreEnd.tell

theorem Follows.restoreStepEnd {data code} (h : Follows o s) : Follows o (s.restoreStepEnd data code) := by
  unfold State.restoreStepEnd
  split
  · exact h
  · split
    · exact h.restore1
    · exact h.restore2
    · exact h.restore3
    · exact h.restore4
    · exact h.restore5
    · exact h.restore6
    · exact h.restore7
    · exact h.restore8
    · exact h.restore9

end Sys2Proof.Machine
end

section
/-! PROOFS. What follows a state through the operations of Machine/HostOps.lean. -/

namespace Sys2Proof.Machine

variable {o s : State}

theorem Follows.startLaunch {t' r cid blocks d} (h : Follows o s) : Follows o (s.startLaunch t' r cid blocks d) :=
  h.endBoundary.same

theorem Follows.launch {t' r e} (h : Follows o s) : Follows o (s.launch t' r e) :=
  h.finish.ite (h.finish.ite (h.withRecord (fun _ _ h1 => h1.finish.ite (h1.finish.ite h1.startLaunch))))

theorem Follows.hostCopy {t' r e data ok} (h : Follows o s) : Follows o (s.hostCopy t' r e data ok) :=
  h.finish.ite (h.setEvent.finish.ite ((h.emit.count.ite h).thus fun h1 => h1.setEvent.finish.ite h1.same))

theorem Follows.moveCopy {j n ok} (h : Follows o s) : Follows o (s.moveCopy j n ok).1 := by
  unfold State.moveCopy
  refine Follows.iteFst ?_ h.fwWrite
  split
  · rename_i e1
    have h1 := h.fwRead.of_eq e1
    exact h1.hostWrite.iteFst h1.setEvent
  · exact h.fwRead.of_eq ‹_›

theorem Follows.hostCopyEnd {t' r idx ok} (h : Follows o s) : Follows o (s.hostCopyEnd t' r idx ok) := by
  unfold State.hostCopyEnd
  split
  · exact h
  · split
    · exact h
    · extract_lets +onlyGivenNames _ s1
      split
      · exact (h.same.moveCopy.of_eq ‹_›).finish
      · rename_i e5
        have h1 := h.same.moveCopy.of_eq e5
        exact h1.finish.ite h1.finishMem

theorem Follows.waitCommand {t' r e} (h : Follows o s) : Follows o (s.waitCommand t' r e) := by
  unfold State.waitCommand
  refine h.finish.ite ?_
  refine h.finishMem.ite ?_
  split
  · exact (h.translate.of_eq ‹_›).finishMem
  · rename_i e2
    have h1 := h.translate.of_eq e2
    exact h1.finishMem.ite h1.same.settleWaits

theorem Follows.dropWait {t' cid} (h : Follows o s) : Follows o (s.dropWait t' cid) := h.same

theorem Follows.waitTimeout {t' r idx} (h : Follows o s) : Follows o (s.waitTimeout t' r idx) := by
  unfold State.waitTimeout
  extract_lets +onlyGivenNames s1
  have h1 : Follows o s1 := h.settleWaits
  split
  · exact h1
  · split
    · exact h1
    · exact h1.ite h1.dropWait.finish

theorem Follows.deadMark {t' r e} (h : Follows o s) : Follows o (s.deadMark t' r e) := by
  unfold State.deadMark
  refine h.finish.ite ?_
  split
  · exact (h.translateSpan.of_eq ‹_›).finishMem
  · exact ((h.translateSpan.of_eq ‹_›).foldl fun _ _ h1 => h1.rangeRun).finish

theorem Follows.startDeadMark {t' r} (h : Follows o s) : Follows o (s.startDeadMark t' r) := by
  unfold State.startDeadMark
  split
  · exact h
  · refine h.ite ?_
    refine h.ite ?_
    split
    · exact h.runCommand (fun _ _ h1 => h1.deadMark)
    · exact h.rangeWait

theorem Follows.abortCopy {j} (h : Follows o s) : Follows o (s.abortCopy j) := h.same.drawn.moveCopy

theorem Follows.abortLaunch {l} (h : Follows o s) : Follows o (s.abortLaunch l) :=
  h.modLaunch.arrAbortLaunch.rowAbortLaunch.launchStop

theorem Follows.abortStarted {t' r e} (h : Follows o s) : Follows o (s.abortStarted t' r e) := by
  unfold State.abortStarted
  split
  · split
    · exact h.abortLaunch
    · exact h.finish
  · split
    · exact h.abortCopy.finish
    · exact h.finish
  · exact h.dropWait.finish
  · exact h.same
  · exact h.abortStep
  · exact h.same.finish
  · exact h.finish

theorem Follows.abortOne {t' r e} (h : Follows o s) : Follows o (s.abortOne t' r e) := by
  unfold State.abortOne
  split
  · exact h.abortStarted
  · exact h.modEntry
  · exact h.finish

theorem Follows.abortCommands {o' r e t' sq all idx cmd} (h : Follows o s) :
    Follows o (s.abortCommands o' r e t' sq all idx cmd) := by
  unfold State.abortCommands
  split
  · exact h.finish
  · exact h.finish.ite (h.setSq.same.foldl fun _ _ h1 => h1.abortOne).closeAborts

theorem Follows.abortArgs {o' r e t' b} (h : Follows o s) : Follows o (s.abortArgs o' r e t' b) :=
  h.finish.ite h.abortCommands

end Sys2Proof.Machine
end

section
/-! PROOFS. What follows a state through the operations of Machine/Interrupts.lean. -/

namespace Sys2Proof.Machine

variable {o s : State}

theorem Follows.window {a i v act} (h : Follows o s) (hf : ∀ s x1, Follows o s → Follows o (act s x1)) :
    Follows o (s.window a i v act) :=
  (hf _ _ h).ite (hf _ _ h).denied

theorem Follows.pendBits {w bits x x'} (h : Follows o s) : Follows o (s.pendBits w bits x x') := by
  induction x generalizing s x' with
  | zero => exact h
  | succ n ih =>
    exact ih (h.pend.ite h)

theorem Follows.unpend {n} (h : Follows o s) : Follows o (s.unpend n) := h.setReg

theorem Follows.setPba {v b} (h : Follows o s) : Follows o (s.setPba v b) := h.setReg

theorem Follows.sendMsix {v} (h : Follows o s) : Follows o (s.sendMsix v) := h.emit.count.count

theorem Follows.showHeld (h : Follows o s) : Follows o s.showHeld := h.wr

theorem Follows.dropHeld {p} (h : Follows o s) : Follows o (s.dropHeld p) :=
  (h.same.foldl fun _ _ h1 => h1.ite h1.setPba).showHeld

theorem Follows.setCoreQ {c q} (h : Follows o s) : Follows o (s.setCoreQ c q) := h.same.wr

theorem Follows.deliverOne {ctl b n} (h : Follows o s) : Follows o (s.deliverOne ctl b n).1 := by
  unfold State.deliverOne
  split
  · exact (h.iteFst h.same.setPba.showHeld).iteFst (h.iteFst (h.unpend.count.iteFst
      (h.unpend.sendMsix.count.iteFst h)))
  · refine h.iteFst ?_
    split
    · exact h.unpend.setCoreQ.same.count
    · exact h.setEvent.iteFst h
  · exact h.iteFst (h.unpend.same.count.iteFst h.setEvent)
  · exact h

theorem Follows.deliverWord {ctl w word x x' x2} (h : Follows o x2.1) :
    Follows o (deliverWord ctl w word x x' x2).1 := by
  induction x generalizing x' x2 with
  | zero => exact h
  | succ n ih =>
    exact ih (h.deliverOne.iteFst h)

theorem Follows.deliverFrom {ctl n i x} (h : Follows o x.1) : Follows o (deliverFrom ctl s n i x).1 := by
  induction n generalizing i x with
  | zero => exact h
  | succ n ih =>
    rw [Machine.deliverFrom]
    exact ih (h.iteFst h.deliverWord)

end Sys2Proof.Machine
end

section
/-! PROOFS. What follows a state through the operations of Machine/Admin.lean. -/

namespace Sys2Proof.Machine

variable {o s : State}

theorem Follows.adminEnd {cid status res0} (h : Follows o s) : Follows o (s.adminEnd cid status res0) := h.finish

theorem Follows.hostFetch {addr n bytes ok} (h : Follows o s) : Follows o (s.hostFetch addr n bytes ok).1 :=
  h.setEvent.iteFst h.emit.count

theorem Follows.putWard {t' w} (h : Follows o s) : Follows o (s.putWard t' w) := h.same.markAll

theorem Follows.putDomain {t' d} (h : Follows o s) : Follows o (s.putDomain t' d) := h.same.wr

theorem Follows.wardUpdate {e image ok} (h : Follows o s) : Follows o (s.wardUpdate e image ok) := by
  unfold State.wardUpdate
  refine h.adminEnd.ite ?_
  refine h.adminEnd.ite ?_
  split
  · exact (h.hostFetch.of_eq ‹_›).adminEnd
  · rename_i e2
    have h1 := h.hostFetch.of_eq e2
    exact h1.putWard.adminEnd.ite h1.adminEnd

theorem Follows.ringCommand {e f} (h : Follows o s) (hf : ∀ s x1 x2, Follows o s → Follows o (f s x1 x2)) :
    Follows o (s.ringCommand e f) :=
  h.adminEnd.ite (h.adminEnd.ite (hf _ _ _ h))

theorem Follows.newRing {e w f} (h : Follows o s) (hf : ∀ s, Follows o s → Follows o (f s)) :
    Follows o (s.newRing e w f) :=
  h.adminEnd.ite (h.setEvent.adminEnd.ite (hf _ h))

theorem Follows.cqCreate {e} (h : Follows o s) : Follows o (s.cqCreate e) :=
  h.ringCommand (fun _ _ _ h1 => h1.newRing (fun _ h2 => h2.adminEnd.ite h2.setCq.adminEnd))

theorem Follows.sqCreate {e} (h : Follows o s) : Follows o (s.sqCreate e) :=
  h.ringCommand (fun _ _ _ h1 => h1.adminEnd.ite (h1.newRing (fun _ h2 => h2.adminEnd.ite h2.setSq.adminEnd)))

theorem Follows.dropSq {t' r} (h : Follows o s) : Follows o (s.dropSq t' r) := h.same.modTenant.showHalted

theorem Follows.ringDelete {e} (h : Follows o s) : Follows o (s.ringDelete e) := by
  unfold State.ringDelete
  refine Follows.ringCommand h fun _ _ _ h1 => ?_
  split
  · split
    · exact h1.adminEnd
    · exact h1.adminEnd.ite h1.dropSq.adminEnd
  · exact h1.adminEnd.ite h1.modTenant.adminEnd
  · exact h1.adminEnd

theorem Follows.orderTenants (h : Follows o s) : Follows o s.orderTenants := h.setReg.foldl fun _ _ h1 => h1.wr.wr

theorem Follows.createPlace {t' b fs} (h : Follows o s) : Follows o (s.createPlace t' b fs) :=
  h.modPlace.convertGroups.homeFrames.grantFrames.grantFrames.freeTables.mapPages.mapPages.wr.wr.orderTenants

theorem Follows.createState {t' b table} (h : Follows o s) : Follows o (s.createState t' b table) := by
  unfold State.createState
  extract_lets +onlyGivenNames s1 s2
  have h1 : Follows o s2 := by
    subst s2
    split
    · exact h.setNum.modStep
    · exact h.setNum.same.modStep
  clear_value s2
  exact h1.writeRecord.writeStepWord.commitRecord.modFault.wr.writeStatusBlock.setEvent

theorem Follows.createWith {e t' b w table} (h : Follows o s) : Follows o (s.createWith e t' b w table) := by
  unfold State.createWith
  exact h.passAll.ite (h.passAll.adminEnd.ite (h.passAll.adminEnd.ite (h.passAll.adminEnd.ite
    (h.passAll.adminEnd.ite (h.passAll.spillFor.thus fun h1 =>
    h1.adminEnd.ite h1.wr.putDomain.putWard.createPlace.createState.adminEnd)))))

theorem Follows.createReads {e t' b ward streams} (h : Follows o s) :
    Follows o (s.createReads e t' b ward streams) := by
  unfold State.createReads
  split
  · exact (h.hostFetch.of_eq ‹_›).adminEnd
  · rename_i e2
    have h1 := h.hostFetch.of_eq e2
    refine h1.createWith.ite ?_
    split
    · exact (h1.hostFetch.of_eq ‹_›).adminEnd
    · exact (h1.hostFetch.of_eq ‹_›).createWith

theorem Follows.tenantCreate {e block ward streams ok} (h : Follows o s) :
    Follows o (s.tenantCreate e block ward streams ok) := by
  unfold State.tenantCreate
  refine h.adminEnd.ite ?_
  split
  · exact (h.hostFetch.of_eq ‹_›).adminEnd
  · rename_i e2
    have h1 := h.hostFetch.of_eq e2
    exact h1.adminEnd.ite (h1.adminEnd.ite (h1.adminEnd.ite (h1.setEvent.adminEnd.ite h1.createReads)))

theorem Follows.loseWaits {t'} (h : Follows o s) : Follows o (s.loseWaits t') := h.same.foldl fun _ _ h1 => h1.finish

theorem Follows.dropXfers {t'} (h : Follows o s) : Follows o (s.dropXfers t') := by
  unfold State.dropXfers
  refine h.same.foldl fun _ _ h1 => ?_
  split
  · exact h1.putXfer.xferEnd.ite h1
  · exact h1

theorem Follows.dropReductions {t'} (h : Follows o s) : Follows o (s.dropReductions t') := by
  unfold State.dropReductions
  refine (h.foldl fun _ _ h1 => h1.setSlice).foldl fun _ _ h2 => ?_
  split
  · exact h2.modPort
  · exact h2

theorem Follows.stopWork {t'} (h : Follows o s) : Follows o (s.stopWork t') := by
  unfold State.stopWork
  extract_lets +onlyGivenNames s1 s2
  have h1 : Follows o s2 := h.arrReset.rowReset.enginesOff.tumReset.dropSamples.dropReductions
  extract_lets +onlyGivenNames s3 s4 s5
  have h2 : Follows o s5 := by
    subst s5
    split
    · exact h1.same.wr.restoreEnd.ite h1.same.wr
    · exact h1.same.wr
  clear_value s5
  exact h2.abandonAll.modStep

theorem Follows.abortSq {t' r rest} (h : Follows o s) : Follows o (s.abortSq t' r rest) := by
  unfold State.abortSq
  split
  · exact h
  · exact (h.foldl fun _ _ h1 => h1.stageEntry).foldl fun _ _ h2 => h2.modEntry.ite h2.finish

theorem Follows.endRings {t' rest} (h : Follows o s) : Follows o (s.endRings t' rest) :=
  ((h.foldl fun _ _ h1 => h1.abortSq).foldl fun _ _ h2 => h2.times fun _ h3 =>
    h3.recordWrite).same.modTenant.showHalted.closeAborts

theorem Follows.dropSources {t'} (h : Follows o s) : Follows o (s.dropSources t') := by
  unfold State.dropSources
  exact (h.foldl fun _ _ h1 => h1.setReg.unpend.setReg).dropHeld

theorem Follows.releaseTenant {t'} (h : Follows o s) : Follows o (s.releaseTenant t') :=
  (h.same.foldl fun _ _ h1 => h1.removeTensor).thus fun h2 =>
    (h2.mapIso.same.markAll.freeTables.retire.passAll.setReg.setReg.setReg.setReg.setReg.foldl fun _ _ h3 =>
      h3.setReg).same.wr

theorem Follows.tenantReset {e rest} (h : Follows o s) : Follows o (s.tenantReset e rest) :=
  h.adminEnd.ite (h.adminEnd.ite (h.wr.writeStatusBlock.loseSlots.loseWaits.tearDomain.dropXfers.stopWork.endRings
    |>.dropSources.releaseTenant.wr.writeStatusBlock.setEvent.setTenant.setReg.orderTenants.planPins.adminEnd))

end Sys2Proof.Machine
end

section
/-! PROOFS. What follows a state through the operations of Machine/Checks.lean. -/

namespace Sys2Proof.Machine

variable {o s : State}

theorem Follows.setChk {u c} (h : Follows o s) : Follows o (s.setChk u c) := h.same.wr

theorem Follows.assignOwner {u o'} (h : Follows o s) : Follows o (s.assignOwner u o') := h.wr.ite h

theorem Follows.ctrlOwner {a u v} (h : Follows o s) : Follows o (s.ctrlOwner a u v) := by
  unfold State.ctrlOwner
  split
  · exact h.assignOwner
  · exact h

theorem Follows.strayWaiting {u} (h : Follows o s) : Follows o (s.strayWaiting u) := h.ite h.wr

theorem Follows.abortUnit {u} (h : Follows o s) : Follows o (s.abortUnit u) := h.strayWaiting.setChk.wr

theorem Follows.checkStart {a u v} (h : Follows o s) : Follows o (s.checkStart a u v) :=
  h.ctrlOwner.ite (h.ite (h.ctrlOwner.setReg.thus fun h1 => h1.abortUnit.ite
    (h1.wr.ite h1.setChk.setReg.setReg.wr.wr.count)))

theorem Follows.checkFinish {a u} (h : Follows o s) : Follows o (s.checkFinish a u) := h.setChk.ite h

theorem Follows.checkAbort {a u} (h : Follows o s) : Follows o (s.checkAbort a u) := h.abortUnit.ite h

theorem Follows.checkFeedProcess {u} (h : Follows o s) : Follows o (s.checkFeedProcess u) := by
  unfold State.checkFeedProcess
  extract_lets +onlyGivenNames c
  split
  · exact h
  · exact h.setChk.wr.ite (h.strayWaiting.setChk.wr.raise.event.ite h.setChk.setReg.count)

theorem Follows.checkComplete {u} (h : Follows o s) : Follows o (s.checkComplete u) :=
  h.ite (h.setReg.setChk.thus fun h1 => h1.wr.setEvent.raise.event.count.ite (h1.wr.raise.ite h1.wr))

end Sys2Proof.Machine
end

section
/-! PROOFS. What follows a state through the operations of Machine/FabLink.lean. -/

namespace Sys2Proof.Machine

variable {o s : State}

theorem Follows.authFail {p cause} (h : Follows o s) : Follows o (s.authFail p cause) :=
  (h.emit.ite h).setEvent.setEvent.event.portTo

theorem Follows.authStart {p} (h : Follows o s) : Follows o (s.authStart p) :=
  h.portTo.authFail.ite (h.portTo.authFail.ite h.portTo.modPort.emit.drawn)

theorem Follows.putAuth {p x} (h : Follows o s) : Follows o (s.putAuth p x) := h.modPort

theorem Follows.authFragment {p b} (h : Follows o s) : Follows o (s.authFragment p b) := by
  unfold State.authFragment
  split
  · exact h
  · exact h.ite (h.authFail.ite h.putAuth)

theorem Follows.authFrame {p ftype f} (h : Follows o s) (hf : ∀ s x1, Follows o s → Follows o (f s x1)) :
    Follows o (s.authFrame p ftype f) := by
  unfold State.authFrame
  split
  · exact h
  · exact (hf _ _ h.putAuth).ite h

theorem Follows.swHello {p chainOk sigOk} (h : Follows o s) : Follows o (s.swHello p chainOk sigOk) :=
  h.authFrame (fun _ _ h1 => h1.authFail.ite (h1.authFail.ite (h1.authFail.ite
    (h1.authFail.ite h1.drawn.putAuth.takeIndex))))

theorem Follows.swDone {p} (h : Follows o s) : Follows o (s.swDone p) :=
  h.authFrame (fun _ _ h1 => h1.authFail.ite (h1.authFail.ite h1.portTo))

theorem Follows.portTrained {p res} (h : Follows o s) : Follows o (s.portTrained p res) := by
  unfold State.portTrained
  refine h.ite ?_
  extract_lets +onlyGivenNames s1
  have h1 : Follows o s1 := h.portTo.ite h
  split
  · exact h1.wr.authStart
  · exact h1.wr.authStart
  · exact h1.portTo

theorem Follows.fabRestart (h : Follows o s) : Follows o s.fabRestart := h.same.resetBlock

theorem Follows.fabricReady (h : Follows o s) : Follows o s.fabricReady := h.ite (h.wr.foldl fun _ _ h1 => h1.portTo)

theorem Follows.linkAck {p ack} (h : Follows o s) : Follows o (s.linkAck p ack) := by
  unfold State.linkAck
  refine h.ite ?_
  refine h.modPort.drainTx.foldl fun _ _ h1 => ?_
  split
  · exact h1.endReq
  · exact h1

theorem Follows.replay {p} (h : Follows o s) : Follows o (s.replay p) :=
  h.addSat.count.drawn.modPort.thus fun h1 => h1.retrain.ite (h1.foldl fun _ _ h2 => h2.sendFlit)

theorem Follows.enqueue {p bs} (h : Follows o s) : Follows o (State.enqueue p s bs) :=
  h.modPort.ite (h.owe.ite (h.modPort.ite (h.modPort.owe.ite h.owe)))

theorem Follows.takePackets {p bytes} (h : Follows o s) : Follows o (s.takePackets p bytes) :=
  h.modPort.foldl fun _ _ h1 => h1.enqueue

theorem Follows.sendNak {p} (h : Follows o s) : Follows o (s.sendNak p) := h.emit

theorem Follows.linkField {p f} (h : Follows o s) : Follows o (s.linkField p f) :=
  (h.linkAck.replay.ite h.linkAck).ite h.linkAck.modPort

theorem Follows.flitReceive {p f} (h : Follows o s) : Follows o (s.flitReceive p f) :=
  h.ite (h.count.sendNak.ite ((h.count.ite h.count.addSat.count).thus fun h1 => (h1.modPort.linkField.thus fun h2 =>
    h2.takePackets.ite h2).ite (h1.ite h1.sendNak)))

end Sys2Proof.Machine
end

section
/-! PROOFS. What follows a state through the operations of Machine/HostLink.lean. -/

namespace Sys2Proof.Machine

variable {o s : State}

theorem Follows.bar4Access {o' write data} (h : Follows o s) : Follows o (s.bar4Access o' write data) :=
  h.same.ite (h.same.ite (h.setEvent.same.ite (h.write.same.ite (h.drawn.same.ite h.readAs.same))))

theorem Follows.hostLinkUp {rate width flit} (h : Follows o s) : Follows o (s.hostLinkUp rate width flit) :=
  h.ite h.same.wr.wr.wr.wr

theorem Follows.hostLinkDown (h : Follows o s) : Follows o s.hostLinkDown := h.ite h.same.wr.wr.wr.wr.setEvent

theorem Follows.linkHoldExpiry (h : Follows o s) : Follows o s.linkHoldExpiry :=
  h.ite h.same.event.healthInput.dueAll.lostEnd

theorem Follows.pcieReset {pins} (h : Follows o s) : Follows o (s.pcieReset pins) :=
  h.finishRecords.deviceReset.startClocks.ite h

end Sys2Proof.Machine
end

section
/-! PROOFS. What follows a state through the operations of Machine/KeeperMem.lean. -/

namespace Sys2Proof.Machine

variable {o s : State}

theorem Follows.certGet {host req} (h : Follows o s) : Follows o (s.certGet host req) :=
  h.setEvent.mbxFinish.ite (h.hostWrite.ite h.write).mbxFinish

theorem Follows.grant {req} (h : Follows o s) : Follows o (s.grant req) :=
  h.mbxFinish.ite (h.mbxFinish.ite (h.grantFrames.mbxFinish.ite h.mbxFinish))

theorem Follows.revoke {req} (h : Follows o s) : Follows o (s.revoke req) :=
  h.mbxFinish.ite h.mapIso.markAll.mbxFinish

theorem Follows.wardWrite {req} (h : Follows o s) : Follows o (s.wardWrite req) :=
  h.mbxFinish.ite (h.putWard.mbxFinish.ite h.mbxFinish)

theorem Follows.domainSet {req} (h : Follows o s) : Follows o (s.domainSet req) :=
  h.mbxFinish.ite (h.mbxFinish.ite h.putDomain.markAll.mbxFinish)

theorem Follows.frozenDigest {req} (h : Follows o s) : Follows o (s.frozenDigest req) :=
  h.mbxFinish.ite h.same.mbxFinish

theorem Follows.frozenRestore {req} (h : Follows o s) : Follows o (s.frozenRestore req) :=
  (h.same.ite h.same).mbxFinish.ite h.same.mbxFinish

end Sys2Proof.Machine
end

section
/-! PROOFS. What follows a state through the operations of Machine/Relayout.lean. -/

namespace Sys2Proof.Machine

variable {o s : State}

theorem Follows.moveAllHeld {cap} (h : Follows o s) : Follows o (s.moveAllHeld cap) :=
  h.foldl fun _ _ h1 => h1.ite (h1.spillFor.tryMove fun _ h2 => h2.moveHeld)

theorem Follows.stageBuffer (h : Follows o s) : Follows o s.stageBuffer := h.same

theorem Follows.startRelayout {c cap} (h : Follows o s) : Follows o (s.startRelayout c cap) :=
  h.mapIso.markAll.setReg.buildMap.same.stageBuffer.wr

theorem Follows.mapoutGo {c} (h : Follows o s) : Follows o (s.mapoutGo c) :=
  h.wr.channelState.ite (h.wr.setEvent.ite (h.wr.ite (h.wr.moveAllHeld.thus fun h1 => h1.ite h1.startRelayout)))

theorem Follows.relayoutEnd {lost} (h : Follows o s) : Follows o (s.relayoutEnd lost) := by
  unfold State.relayoutEnd
  split
  · exact h
  · exact (h.same.stageBuffer.zeroRange.foldl fun _ _ h1 => h1.hbmLostAt).wr.wr.setEvent.channelState

end Sys2Proof.Machine
end

section
/-! PROOFS. What follows a state through the operations of Machine/Recover.lean. -/

namespace Sys2Proof.Machine

variable {o s : State}

theorem Follows.startRecovery {f z} (h : Follows o s) : Follows o (s.startRecovery f z) :=
  h.ite (h.foldl fun _ _ h1 => h1.abortStep).same

theorem Follows.tellRecovery {r code} (h : Follows o s) : Follows o (s.tellRecovery r code) :=
  h.foldl fun _ _ h1 => h1.tell

theorem Follows.endRecovery {r code} (h : Follows o s) : Follows o (s.endRecovery r code) :=
  (h.same.ite h.same.retire.settleRetired).tellRecovery.foldl fun _ _ h1 => h1.tryOpen

theorem Follows.recoveryFails {r} (h : Follows o s) : Follows o (s.recoveryFails r) := h.same.endRecovery

theorem Follows.putRecovery {r} (h : Follows o s) : Follows o (s.putRecovery r) := h.same

theorem Follows.stagingFrame {r} (h : Follows o s) : Follows o (s.stagingFrame r).1 := by
  unfold State.stagingFrame
  refine h.iteFst ?_
  extract_lets +onlyGivenNames s1
  split
  · exact h.spillFor.convertGroups
  · exact h.spillFor

theorem Follows.askRestore {staging target} (h : Follows o s) : Follows o (s.askRestore staging target) :=
  h.mbxStore.mbxGo

theorem Follows.frozenStageEnd {data} (h : Follows o s) : Follows o (s.frozenStageEnd data) := by
  unfold State.frozenStageEnd
  split
  · exact h
  · split
    · exact h.putRecovery.ite h.recoveryFails
    · refine h.ite ?_
      split
      · exact h.stagingFrame.of_eq ‹_›
      · exact (h.stagingFrame.of_eq ‹_›).write.putRecovery.askRestore

theorem Follows.frozenCopyEnd (h : Follows o s) : Follows o s.frozenCopyEnd := by
  unfold State.frozenCopyEnd
  split
  · exact h
  · exact h.write.endRecovery.ite h

theorem Follows.repair {t' x q off gens} (h : Follows o s) : Follows o (s.repair t' x q off gens) := by
  unfold State.repair
  extract_lets +onlyGivenNames s1
  have h1 : Follows o s1 := h.abortStep
  split
  · exact h1.writePart.tell
  · exact h1.modStep.tell

theorem Follows.repairSlot {t' off gens} (h : Follows o s) : Follows o (s.repairSlot t' off gens) := by
  unfold State.repairSlot
  extract_lets +onlyGivenNames s1
  have h1 : Follows o s1 := h.abortStep
  split
  · exact h1.putArea.tell
  · exact h1.modStep.tell

theorem Follows.granLost {g gens} (h : Follows o s) : Follows o (s.granLost g gens) := by
  unfold State.granLost
  extract_lets +onlyGivenNames f x s1
  have h1 : Follows o s1 := h.ite (h.foldl fun _ _ h2 => h2.abortStep)
  extract_lets +onlyGivenNames s2
  have h3 : Follows o s2 := by
    subst s2
    split
    · exact h1.startRecovery
    · exact h1
  clear_value s2
  refine h3.foldl fun _ _ h4 => ?_
  split
  · exact h4.repair
  · exact h4.repairSlot
  · exact h4

theorem Follows.findAll {xs} (h : Follows o s) : Follows o (s.findAll xs).1 := h.foldlFst fun _ _ h1 => h1.find

theorem Follows.lostAll {gs gens} (h : Follows o s) : Follows o (s.lostAll gs gens) :=
  h.foldl fun _ _ h1 => h1.granLost

theorem Follows.lineFillEnd {q k f gens} (h : Follows o s) : Follows o (s.lineFillEnd q k f gens) := by
  unfold State.lineFillEnd
  split
  · exact h
  · refine h.ite ?_
    split
    exact (h.findAll.of_eq ‹_›).fillEnd.lostAll

theorem Follows.writebackAccepted {q k f gens} (h : Follows o s) : Follows o (s.writebackAccepted q k f gens) := by
  unfold State.writebackAccepted
  split
  · exact h
  · exact h.ite h.findAll.same.acceptLine.refillHeld.lostAll

theorem Follows.hbmScrub {g f gens} (h : Follows o s) : Follows o (s.hbmScrub g f gens) := by
  unfold State.hbmScrub
  refine h.ite ?_
  split
  exact (h.findAll.of_eq ‹_›).lostAll

end Sys2Proof.Machine
end

section
/-! PROOFS. What follows a state through the operations of Machine/Late.lean. -/

namespace Sys2Proof.Machine

variable {o s : State}

theorem Follows.forwardFirst {u p} (h : Follows o s) : Follows o (s.forwardFirst u p) := by
  unfold State.forwardFirst
  extract_lets +onlyGivenNames s1
  have h1 : Follows o s1 := h.passMarkersIf
  split
  · exact (h1.forward.ite h1).ite h
  · exact h

theorem Follows.translationMarker {u} (h : Follows o s) : Follows o (s.translationMarker u) := h.forwardFirst

theorem Follows.isolationMarker {u} (h : Follows o s) : Follows o (s.isolationMarker u) := h.forwardFirst

theorem Follows.redAnswer {x} (h : Follows o x.1) : Follows o (State.redAnswer x) := by
  unfold State.redAnswer
  split
  · exact h
  · split
    · exact h.sumAnswer
    · exact h.atomAnswer
    · exact h.landed

theorem Follows.acknowledged {r} (h : Follows o s) : Follows o (s.acknowledged r) :=
  h.keeperAck.ite (h.genCommitted.ite h)

theorem Follows.recordCommitted {jseq} (h : Follows o s) : Follows o (s.recordCommitted jseq) := by
  unfold State.recordCommitted
  split
  · exact h
  · exact h.journalCommit.acknowledged.journalStart

theorem Follows.wearUpdate (h : Follows o s) : Follows o s.wearUpdate :=
  h.ite (h.wearBudget.thus fun h1 => (h1.foldl fun _ _ h2 => h2.abandon).ite h1)

theorem Follows.startArray (h : Follows o s) : Follows o s.startArray := h.same.wr.wr.wr

theorem Follows.domainRelease {d} (h : Follows o s) : Follows o (s.domainRelease d) := by
  unfold State.domainRelease
  refine h.ite ?_
  extract_lets +onlyGivenNames _ s1
  split
  · exact h.same.storeRestart.synRestart
  · exact h.same.fabRestart
  · exact h.same.arrRestart.startArray.divide.wr
  · exact h.same

end Sys2Proof.Machine
end

section
/-! PROOFS. What follows a state through the operations of Machine/Side.lean. -/

namespace Sys2Proof.Machine

variable {o s : State}

theorem Follows.answer {b mtype cmd code data} (h : Follows o s) : Follows o (s.answer b mtype cmd code data) :=
  h.emit

theorem Follows.setEid {b v} (h : Follows o s) : Follows o (s.setEid b v) := by
  unfold State.setEid
  split <;> exact h.same

end Sys2Proof.Machine
end

section
/-! PROOFS. What follows a state through a command. -/

namespace Sys2Proof.Machine

variable {o s : State}

theorem execArrayClockHold_follows (h : Follows o s) : FollowsOut o (execArrayClockHold s) := by
  unfold execArrayClockHold
  split
  · exact h.same.next
  · exact h.next

theorem execDeferredDividerChange_follows (h : Follows o s) : FollowsOut o (execDeferredDividerChange s) := by
  unfold execDeferredDividerChange
  split
  · split
    · exact h.same.divide.next
    · exact h.next
  · exact h.next

theorem execRefAutoTimeout_follows (h : Follows o s) : FollowsOut o (execRefAutoTimeout s) := by
  unfold execRefAutoTimeout
  split
  · exact h.same.wr.next
  · exact h.next

theorem execBarClose_follows {t r} (h : Follows o s) : FollowsOut o (execBarClose t r s) := by
  unfold execBarClose
  refine (Follows.ite (h.runCommand fun _ _ h1 => ?_) h).next
  split
  · exact h1.finish
  · exact h1.closeSlot.finish

theorem execHeldVectorRelease_follows {ctl vec} (h : Follows o s) : FollowsOut o (execHeldVectorRelease ctl vec s) := by
  unfold execHeldVectorRelease
  extract_lets +onlyGivenNames mine
  split
  · exact h.next
  · exact (h.same.foldl fun _ _ h1 => h1.unpend.count).sendMsix.setPba.showHeld.next

theorem execInterruptTaken_follows {core} (h : Follows o s) : FollowsOut o (execInterruptTaken core s) := by
  unfold execInterruptTaken
  split
  · exact (h.ite h.setCoreQ.count).next
  · exact h.same.next

theorem execRelayoutEnd_follows {lost gens} (h : Follows o s) : FollowsOut o (execRelayoutEnd lost gens s) :=
  h.relayoutEnd.lostAll.next

theorem execGetpdr_follows {b handle} (h : Follows o s) : FollowsOut o (execGetpdr b handle s) := by
  unfold execGetpdr
  refine Follows.next ?_
  split
  · exact h.answer.ite h.answer
  · exact h.answer

theorem execGetsensorreading_follows {b id} (h : Follows o s) : FollowsOut o (execGetsensorreading b id s) := by
  unfold execGetsensorreading
  refine (Follows.ite ?_ h.answer).next
  split
  · exact h.answer
  · exact h.answer

theorem execGetstatesensorreadings_follows {b id} (h : Follows o s) :
    FollowsOut o (execGetstatesensorreadings b id s) := by
  unfold execGetstatesensorreadings
  refine (Follows.ite ?_ h.answer).next
  split
  · exact h.answer
  · exact h.answer

/-- What a command leaves follows the state that it ran on, arm by arm of the dispatch: each proof names the operations
of the command's meaning in the order in which they are put together. -/
theorem exec_follows (h : Follows o s) (i : Instr) : FollowsOut o (exec i s) :=
  match i with
  | .registerWrite .. => h.registerWrite.next
  | .bar0UnsupportedRequest .. => h.unsupportedRequest.next
  | .lowHalfRead .. => h.lowHalfRead.next
  | .highHalfRead .. => h.highHalfRead.next
  | .lowHalfWrite .. => h.lowHalfWrite.next
  | .highHalfWrite .. => h.highHalfWrite.next
  | .markerForward .. => h.markerForward.next
  | .clkHostRequest .. => h.wr.divide.next
  | .clkFwRequest .. => h.fwRequest.next
  | .arrayClockHold => execArrayClockHold_follows h
  | .arrayClockResume => h.clockResume.next
  | .deferredDividerChange => execDeferredDividerChange_follows h
  | .refLost => h.refLost.next
  | .refReturn => h.refReturn.next
  | .pllRelock => h.pllRelock.next
  | .pllUnlock => h.pllUnlock.next
  | .holdoverDeadline => h.holdoverDeadline.next
  | .refHostPresent => h.refHostPresent.next
  | .refAutoTimeout => execRefAutoTimeout_follows h
  | .moduleRailRelease .. => h.railRelease.next
  | .pllLock => h.pllLock.next
  | .pllLockTimeout => h.pllLockTimeout.next
  | .domainRelease .. => h.domainRelease.next
  | .aissue .. => h.engineOp.next
  | .arrayDescriptorAccept => (h.ite h.arrAccept).next
  | .operationStart => (h.ite h.opStart).next
  | .arrayOperandArrival => (h.ite h.operands).next
  | .cellTailEnd => (h.ite h.tailEnd).next
  | .drainStart => (h.ite h.drainStart).next
  | .drainEnd => (h.ite h.drainEnd).next
  | .completionWordAccepted => h.arrWord.next
  | .chainWaitExpiry => (h.ite h.chainWait).next
  | .chainSpillEnd => (h.ite h.spillEnd).next
  | .chainFillEnd => (h.ite h.fillBank).next
  | .arraySequencerReady => h.arrReady.next
  | .samplePoint => (h.ite h.samplePoint).next
  | .sampleFinish => (h.ite h.sampleFinish).next
  | .amaxReport => h.amaxReport.next
  | .poisonSource => h.poisonArrives.next
  | .rissue .. => h.engineOp.next
  | .rowDescriptorAccept => h.rowAccept.next
  | .rowOperationStart .. => h.rowStart.next
  | .rowChunkStart .. => h.chunkStart.next
  | .rowChunkEnd .. => h.chunkEnd.next
  | .rowOperationEnd .. => h.rowEnd.next
  | .spindleReady => h.spnReady.next
  | .stepOpen .. => (h.runCommand (fun _ _ h1 => h1.withScb (fun _ _ h2 => h2.openStep))).next
  | .stepCommit .. => (h.runCommand (fun _ _ h1 => h1.withScb (fun _ _ h2 => h2.acceptCommit))).next
  | .updateStart .. => h.updateStart.next
  | .updateResume .. => h.updateResume.next
  | .optimiserPassEnd .. => h.optimiserPassEnd.next
  | .quantiserPassEnd .. => h.quantiserPassEnd.next
  | .commitPoint .. => h.commitPoint.next
  | .stepCancel .. => (h.runCommand (fun _ _ h1 => h1.withScb (fun _ _ h2 => h2.cancelStep))).next
  | .updateEngineReady => (h.ite h.wr).next
  | .iadd .. => h.intOp.next
  | .isub .. => h.intOp.next
  | .imul .. => h.intOp.next
  | .imad .. => h.intOp.next
  | .imin .. => h.intOp.next
  | .imax .. => h.intOp.next
  | .ishl .. => h.shiftOp.next
  | .ishr .. => h.shiftOp.next
  | .and .. => h.logicOp.next
  | .or .. => h.logicOp.next
  | .xor .. => h.logicOp.next
  | .not .. => h.logicOp.next
  | .mov .. => h.logicOp.next
  | .sel .. => h.selOp.next
  | .icmp .. => h.icmpOp.next
  | .popc .. => h.logicOp.next
  | .shfl .. => h.shflOp.next
  | .vote .. => h.voteOp.next
  | .sreg .. => h.sregOp.next
  | .movi .. => h.moviOp.next
  | .fadd .. => h.fpOp.next
  | .fmul .. => h.fpOp.next
  | .ffma .. => h.fpOp.next
  | .fmin .. => h.fpOp.next
  | .fmax .. => h.fpOp.next
  | .fcmp .. => h.fcmpOp.next
  | .fdiv .. => h.fpPlain.next
  | .fsqrt .. => h.fpPlain.next
  | .frsq .. => h.fpPlain.next
  | .fexp2 .. => h.fpPlain.next
  | .flog2 .. => h.fpPlain.next
  | .fabs .. => h.fpPlain.next
  | .bra .. => h.braOp.next
  | .call .. => h.callOp.next
  | .ret .. => h.callOp.next
  | .exit .. => h.exitOp.next
  | .nop .. => h.nopOp.next
  | .fenceGroup .. => h.nopOp.next
  | .fenceBlock .. => h.nopOp.next
  | .fenceDevice .. => h.nopOp.next
  | .fenceSystem .. => h.nopOp.next
  | .ldl .. => h.localOp.next
  | .stl .. => h.localOp.next
  | .ld .. => h.tenantOp.next
  | .st .. => h.tenantOp.next
  | .loadReturn .. => h.loadReturn.next
  | .tableWalkEnd .. => h.tableWalkEnd.next
  | .ldr .. => h.remoteOp.next
  | .str .. => h.remoteOp.next
  | .twait .. => h.twaitOp.next
  | .tokenCompletion .. => h.tokenCompletion.next
  | .cvt .. => h.cvtOp.next
  | .qblk .. => h.qblkOp.next
  | .rand .. => h.randOp.next
  | .atom .. => h.atomOp'.next
  | .barg .. => h.bargOp.next
  | .barm .. => h.barmOp.next
  | .barb .. => h.barbOp.next
  | .spoison .. => h.spoisonOp.next
  | .barrierWatchdogExpiry .. => h.barExpiry.next
  | .repackWaitExpiry .. => h.repackExpiry.next
  | .blockPlace .. => h.blockPlace.next
  | .launchComplete .. => h.launchComplete.next
  | .launchStop .. => h.launchStop.next
  | .blockPreempt .. => h.blockPreempt.next
  | .blockResume .. => h.blockResume.next
  | .tumblerReady .. => (h.ite h.setTumbler).next
  | .translationMarker .. => h.translationMarker.next
  | .isolationMarker .. => h.isolationMarker.next
  | .slicemapWrite .. => h.slicemapWrite.next
  | .slicemapChangeEnd => (h.slicemapChangeEnd.proceed.ite h).next
  | .partitionApply => h.partitionApply.next
  | .partitionApplyEnd => h.partitionApplyEnd.next
  | .lineFillEnd .. => h.lineFillEnd.next
  | .writebackAccepted .. => h.writebackAccepted.next
  | .reductionRequest .. => h.redArrive.redAnswer.next
  | .reductionExecute .. => h.redExecute.redAnswer.next
  | .evictionLockRelease .. => h.lockRelease.next
  | .cstWriteBack => h.rangeOp.next
  | .cstFlush => h.rangeOp.next
  | .cstDeadMark => h.rangeOp.next
  | .cstPin => h.rangeOp.next
  | .cstUnpin => h.rangeOp.next
  | .rangeOpEnd => h.rangeOpEnd.next
  | .storeScrub .. => h.storeScrub.next
  | .deadReadsClear .. => h.wr.next
  | .storeReady .. => h.storeReady.next
  | .hbmTrainingEnd .. => h.trainingEnd.next
  | .hbmInitGo => h.initGo.next
  | .hbmInitEnd => h.initEnd.next
  | .protectionClassChange .. => h.classChange.next
  | .hbmScrubRead .. => h.hbmScrub.next
  | .scrubPassEnd => h.scrubPassEnd.next
  | .hbmTempRead .. => h.hbmTemp.next
  | .mapoutGo .. => h.mapoutGo.next
  | .relayoutEnd .. => execRelayoutEnd_follows h
  | .frozenStageEnd .. => h.frozenStageEnd.next
  | .frozenRestoreCopyEnd => h.frozenCopyEnd.next
  | .alloc .. => (h.runCommand (fun _ _ h1 => h1.alloc)).next
  | .free .. => (h.runCommand (fun _ _ h1 => h1.freeTensor)).next
  | .query .. => (h.runCommand (fun _ _ h1 => h1.query)).next
  | .constrain .. => (h.runCommand (fun _ _ h1 => h1.constrain)).next
  | .frozenLoad .. => (h.runCommand (fun _ _ h1 => h1.frozenLoad)).next
  | .boundaryWork .. => h.boundaryWork.next
  | .flitReceive .. => h.flitReceive.next
  | .portTrainingEnd .. => h.portTrained.next
  | .authFragment .. => h.authFragment.next
  | .swHello .. => (h.swHello.ite h).next
  | .swDone .. => h.swDone.next
  | .authAbort .. => (h.authFrame (fun _ _ h1 => h1.authFail)).next
  | .authTimeout .. => (h.authFail.ite h).next
  | .inboundRead .. => (h.inbound (fun _ _ h1 => h1.inRead)).next
  | .inboundWrite .. => (h.inbound (fun _ _ h1 => h1.inWrite)).next
  | .inboundReduce .. => (h.inbound (fun _ _ h1 => h1.inReduce)).next
  | .inboundAtomic .. => (h.inbound (fun _ _ h1 => h1.inAtomic)).next
  | .inboundSignal .. => ((h.inbound (fun _ _ h1 => h1.inSignal)).ite h).next
  | .inboundMcastWrite .. => (h.inbound (fun _ _ h1 => h1.inWrite)).next
  | .readRsp .. => (h.response (fun _ _ _ h1 => h1.endReq)).next
  | .ack .. => (h.response (fun _ _ _ h1 => h1.endReq)).next
  | .atomicRsp .. => (h.response (fun _ _ _ h1 => h1.endReq)).next
  | .nack .. => (h.response (fun _ _ _ h1 => h1.ite h1.endReq)).next
  | .nodeAssign .. => (h.mgmt (fun _ _ h1 => h1.nodeAssign)).next
  | .announce .. => (h.mgmt (fun _ _ h1 => h1.announce)).next
  | .peerMarker .. => h.peerMarker.next
  | .teardown .. => (h.mgmt (fun _ _ h1 => h1.teardown)).next
  | .feedAlert .. => (h.mgmt (fun _ _ h1 => h1.feedAlert)).next
  | .partner .. => (h.mgmt (fun _ _ h1 => h1.partner)).next
  | .sfWard .. => (h.mgmt (fun _ _ h1 => h1.sfWard)).next
  | .remoteTimeout .. => h.remoteTimeout.next
  | .atomicRetry .. => h.atomicRetry.next
  | .outcomeUnknown .. => h.outcomeUnknown.next
  | .receiptExpiry .. => h.modPort.next
  | .transfer .. => (h.runCommand (fun _ _ h1 => h1.transfer)).next
  | .transferEnd .. => h.transferEnd.next
  | .fabricReady => h.fabricReady.next
  | .barActivate .. => ((h.runCommand (fun _ _ h1 => h1.barActivate)).ite h).next
  | .barMembers .. => ((h.runCommand (fun _ _ h1 => h1.members'.finish)).ite h).next
  | .barClose .. => execBarClose_follows h
  | .barrierTimeout .. => h.barrierTimeout.next
  | .synReady => h.synReady.next
  | .sqTailWrite .. => (h.newTail.ite h).next
  | .sqFetchEnd .. => (h.ite h.fetchEnd).next
  | .cqHeadWrite .. => (h.newHead.ite h).next
  | .completionRecordWrite .. => (h.ite h.recordWrite).next
  | .ringResume .. => (h.ringResume.ite h).next
  | .ringFlush .. => (h.ringFlush.ite h).next
  | .faultHeadWrite .. => (h.modFault.ite h).next
  | .nopCommand .. => (h.runCommand (fun _ _ h1 => h1.finish)).next
  | .launch .. => (h.runCommand (fun _ _ h1 => h1.launch)).next
  | .hostCopy .. => (h.runCommand (fun _ _ h1 => h1.hostCopy)).next
  | .wait .. => (h.runCommand (fun _ _ h1 => h1.waitCommand)).next
  | .waitTimeout .. => h.waitTimeout.next
  | .signal .. => (h.runCommand (fun _ _ h1 => h1.signalCommand)).next
  | .numericPolicy .. => (h.runCommand (fun _ _ h1 => h1.numericPolicy)).next
  | .deadMark .. => h.startDeadMark.next
  | .abort .. => (h.runCommand (fun _ _ h1 => h1.abortArgs)).next
  | .tenantCreate .. => (h.runAdmin (fun _ _ h1 => h1.tenantCreate)).next
  | .tenantReset .. => ((h.runAdmin (fun _ _ h1 => h1.tenantReset)).ite h).next
  | .cqCreate => (h.runAdmin (fun _ _ h1 => h1.cqCreate)).next
  | .sqCreate => (h.runAdmin (fun _ _ h1 => h1.sqCreate)).next
  | .ringDelete => (h.runAdmin (fun _ _ h1 => h1.ringDelete)).next
  | .wardUpdate .. => (h.runAdmin (fun _ _ h1 => h1.wardUpdate)).next
  | .tenantAbort => (h.runAdmin (fun _ _ h1 => h1.finish.ite (h1.finish.ite h1.abortArgs))).next
  | .adminDoorbell .. => h.adminDoorbell.next
  | .adminRingEnable .. => h.adminEnable.next
  | .adminResume => h.ringResume.next
  | .adminFlush => h.ringFlush.next
  | .bar4Access .. => h.bar4Access.next
  | .configRetryEnd => (h.same.emit.ite h).next
  | .hostLinkDown => h.hostLinkDown.next
  | .hostLinkUp .. => h.hostLinkUp.next
  | .linkHoldExpiry => h.linkHoldExpiry.next
  | .pcieReset .. => h.pcieReset.next
  | .raise .. => h.raise.next
  | .maskSet .. => (h.window (fun _ _ h1 => h1.setReg.dropHeld)).next
  | .maskClr .. => (h.window (fun _ _ h1 => h1.setReg)).next
  | .pendSet .. => (h.window (fun _ _ h1 => h1.pendBits)).next
  | .pendClr .. => (h.window (fun _ _ h1 => h1.setReg.dropHeld)).next
  | .interruptDelivery .. => h.deliverFrom.next
  | .heldVectorRelease .. => execHeldVectorRelease_follows h
  | .icuReady => (h.wr.ite h).next
  | .checkStart .. => h.checkStart.next
  | .checkFinish .. => h.checkFinish.next
  | .checkAbort .. => h.checkAbort.next
  | .checkOwnerAssign .. => h.assignOwner.next
  | .feedB .. => h.feed.next
  | .feedH .. => h.feed.next
  | .feedW .. => h.touch.feed.next
  | .checkFeedProcess .. => h.checkFeedProcess.next
  | .checkComplete .. => h.checkComplete.next
  | .healthInput .. => h.healthDecides.next
  | .riskHoldExpiry .. => h.riskExpiry.next
  | .secureRequest .. => h.secureRequest.next
  | .securingStart .. => h.securingStart.next
  | .drainBlockEnd .. => h.drainBlockEnd.next
  | .drainWaitExpiry .. => h.drainWaitExpiry.next
  | .restoreGo .. => h.restoreGo.next
  | .restoreStepEnd .. => h.restoreStepEnd.next
  | .journalRecordRequest .. => h.journalOffer.next
  | .coalesceExpiry .. => h.coalesceExpiry.next
  | .journalCopyAVerified .. => h.copyAVerified.next
  | .journalRecordCommitted .. => h.recordCommitted.next
  | .journalScrub .. => (h.foldl fun _ _ h1 => h1.scrubRecord).next
  | .durableStoreStart => h.durableStart.next
  | .wearBudgetUpdate => h.wearUpdate.next
  | .powerSample .. => h.powerSample.next
  | .inputLow => h.inputLow.next
  | .inputHigh => h.inputHigh.next
  | .droopWarning => h.droopWarning.next
  | .droopRecovery => h.droopRecovery.next
  | .resetLevel => h.resetLevel.next
  | .resetRecordsComplete => h.resetRecordsComplete.next
  | .inputStable => h.inputStable.next
  | .holdupCharged => (h.same.ite h).next
  | .holdupTestEnd .. => h.holdupTestEnd.next
  | .holdupRetest .. => (h.holdup.ite h).next
  | .railPowerGood => h.railPowerGood.next
  | .railTimeout => h.railTimeout.next
  | .railRetry => (h.same.ite h).next
  | .railsDown => h.railsDown.next
  | .pwrEnOpen => h.pwrEnOpen.next
  | .bootStage .. => h.bootStage.next
  | .trialExpiry => h.trialExpiry.next
  | .keeperWatchdogExpiry => h.watchdogExpiry.next
  | .entropyFail => h.entropyFail.next
  | .mbxGo .. => h.mbxGo.next
  | .status => (h.mbxDo (fun _ _ _ h1 => h1.mbxFinish)).next
  | .measure => (h.mbxDo (fun _ _ _ h1 => h1.mbxFinish)).next
  | .certGet => (h.mbxDo (fun _ _ _ h1 => h1.certGet)).next
  | .attest .. => (h.mbxDo (fun _ _ _ h1 => h1.mbxFinish.ite (h1.mbxFinish.ite (h1.ite (h1.mbxReach (fun _ h2 =>
    h2.same.takeIndex)))))).next
  | .extend => (h.mbxDo (fun _ _ _ h1 => h1.extendM.mbxFinish.ite h1.mbxFinish)).next
  | .stage .. => (h.mbxDo (fun _ _ _ h1 => h1.mbxFinish.ite (h1.mbxReach (fun _ h2 => h2.emit.mbxWait.ite
    (h2.emit.mbxWait.ite h2.emit.same.mbxWait))))).next
  | .activate => (h.mbxDo (fun _ _ _ h1 => h1.mbxWait.ite h1.mbxFinish)).next
  | .confirm => (h.mbxDo (fun _ _ _ h1 => h1.mbxWait.ite h1.mbxFinish)).next
  | .anchorSet => (h.mbxDo (fun _ _ _ h1 => h1.mbxWait)).next
  | .debugToken .. => (h.mbxDo (fun _ _ _ h1 => h1.mbxReach (fun _ h2 => h2.same.mbxFinish.ite h2.mbxFinish))).next
  | .grant => (h.mbxDo (fun _ _ _ h1 => h1.grant)).next
  | .revoke => (h.mbxDo (fun _ _ _ h1 => h1.revoke)).next
  | .wardWrite => (h.mbxDo (fun _ _ _ h1 => h1.wardWrite)).next
  | .domainSet => (h.mbxDo (fun _ _ _ h1 => h1.domainSet)).next
  | .frozenDigest => (h.mbxDo (fun _ _ _ h1 => h1.frozenDigest)).next
  | .frozenRestore => (h.mbxDo (fun _ _ _ h1 => h1.frozenRestore)).next
  | .snapGo .. => h.snapGo.next
  | .snapshotMarker .. => h.snapshotMarker.next
  | .snapshotComplete => h.snapshotComplete.next
  | .telemetryPeriod .. => h.telemetry.next
  | .strapCompare .. => h.strapCompare.next
  | .thermalRead .. => h.thermalRead.next
  | .thermalReliefExpiry => (h.fwRequest.ite h).next
  | .coolDownExpiry => (h.same.ite h).next
  | .setEndpointId .. => (h.answer.ite h.setEid.answer).next
  | .getEndpointId .. => h.answer.next
  | .getEndpointUuid .. => h.answer.next
  | .getMctpVersionSupport .. => (h.answer.ite h.answer).next
  | .getMessageTypeSupport .. => h.answer.next
  | .getVendorMessageSupport .. => h.answer.next
  | .settid .. => (h.answer.ite h.same.answer).next
  | .gettid .. => h.answer.next
  | .getpldmversion .. => (h.answer.ite h.answer).next
  | .getpldmtypes .. => h.answer.next
  | .getpldmcommands .. => (h.answer.ite h.answer).next
  | .getpdrrepositoryinfo .. => h.answer.next
  | .getpdr .. => execGetpdr_follows h
  | .getsensorreading .. => execGetsensorreading_follows h
  | .getstatesensorreadings .. => execGetstatesensorreadings_follows h
  | .pollforplatformeventmessage .. => h.answer.next
  | .telemetryGet .. => (h.answer.ite h.answer).next
  | .powerStatus .. => h.answer.next
  | .strapsGet .. => h.answer.next
  | .unsupportedSidebandMessage .. => (h.answer.ite h).next
  | .minClear => h.minClear.next
  | .pwrEnClose => h.same.next
  | .inputNormal => h.inputNormal.next
  | .hbmRefresh .. => h.refresh.next
  | .interruptTaken .. => execInterruptTaken_follows h
  | .bucketRefill => h.bucketRefill.next
  | .hostCopyEnd .. => h.hostCopyEnd.next
  | .frozenLoadEnd .. => h.frozenLoadEnd.next
  | .classChangeEnd => h.classChangeEnd.next
  | .dynamicAddressAssignment .. => h.same.next

end Sys2Proof.Machine
end

section
/-! PROOFS. The statement about the queue and what has been sent. -/

open Sys2Proof Sys2Proof.Machine

/-- Settles O54: a command answers a next state (`exec_next`), and that state follows the one it ran on (`exec_follows`). -/
theorem commandsLeaveTheQueueAndWhatWasSent : Obligations.CommandsLeaveTheQueueAndWhatWasSent := by
  unfold Obligations.CommandsLeaveTheQueueAndWhatWasSent
  intro c s
  obtain ⟨t, ht⟩ := exec_next c s
  obtain ⟨hpending, hout⟩ := exec_follows (.refl s) c t ht
  exact ⟨t, ht, hpending, hout⟩

end

section
/-! PROOFS. What accesses to memory leave alone: they act on the memories, on registers, counters and waited words, and on the
events that they send and the faults that they tell a tenant. -/

namespace Sys2Proof.Machine

/-- A state without the parts that accesses to memory act on. -/
def State.beyondMemory (s : State) : State :=
  { s with out := [], free := 0, regs := [], counts := [], mem := Mem.reset, waits := [], ten := [] }

variable {s t : State}

/-- An access to memory leaves the array sequencer and the command tree as they are. -/
theorem State.arr_of_beyondMemory (h : t.beyondMemory = s.beyondMemory) : t.arr = s.arr := by
  have harr := congrArg State.arr h
  exact harr

theorem State.tree_of_beyondMemory (h : t.beyondMemory = s.beyondMemory) : t.tree = s.tree := by
  have htree := congrArg State.tree h
  exact htree

/-! ### How an operation is put together -/

theorem beyondMemory_foldl {α : Type} {g : State → α → State} (hg : ∀ s x, (g s x).beyondMemory = s.beyondMemory) (xs : List α)
    (s : State) : (xs.foldl g s).beyondMemory = s.beyondMemory := by
  induction xs generalizing s with
  | nil => rfl
  | cons x xs ih => exact (ih (g s x)).trans (hg s x)

/-- The state of a result that has been taken apart. -/
theorem beyondMemory_of_eq {β : Type} {d : State × β} {x : β} (e : d = (t, x)) (h : d.1.beyondMemory = s.beyondMemory) :
    t.beyondMemory = s.beyondMemory := by
  rw [← h, e]

/-! ### Registers, events and a tenant's fault ring -/

variable (s)

@[simp] theorem State.setReg_beyondMemory (r : Reg) (v : DWord) : (s.setReg r v).beyondMemory = s.beyondMemory := rfl
@[simp] theorem State.wr_beyondMemory (f : Field) (v : Nat) : (s.wr f v).beyondMemory = s.beyondMemory := rfl
@[simp] theorem State.count_beyondMemory (u k n : Nat) : (s.count u k n).beyondMemory = s.beyondMemory := rfl
@[simp] theorem State.drawn_beyondMemory : s.drawn.beyondMemory = s.beyondMemory := rfl
@[simp] theorem State.event_beyondMemory (c : Nat) (d : Dest) (as : List Nat) :
    (s.event c d as).beyondMemory = s.beyondMemory := rfl
@[simp] theorem State.modFault_beyondMemory (n : Nat) (f : FaultRing → FaultRing) :
    (s.modFault n f).beyondMemory = s.beyondMemory := rfl

@[simp] theorem State.pend_beyondMemory (n : Nat) : (s.pend n).beyondMemory = s.beyondMemory := by
  unfold State.pend
  split <;> rfl

@[simp] theorem State.setEvent_beyondMemory (f : Field) : (s.setEvent f).beyondMemory = s.beyondMemory := by
  unfold State.setEvent
  split
  · rfl
  · split
    · dsimp only
      split <;> simp
    · split <;> simp

@[simp] theorem State.raise_beyondMemory (n : Nat) : (s.raise n).beyondMemory = s.beyondMemory := by
  unfold State.raise
  split
  · rfl
  · split <;> simp

@[simp] theorem State.hostWrite_beyondMemory (a : Nat) (bs : List Byte) : (s.hostWrite a bs).beyondMemory = s.beyondMemory := by
  unfold State.hostWrite
  split
  · rfl
  · simp

@[simp] theorem State.writeFaultStatus_beyondMemory (n : Nat) : (s.writeFaultStatus n).beyondMemory = s.beyondMemory :=
  State.hostWrite_beyondMemory _ _ _

@[simp] theorem State.pushFault_beyondMemory (n : Nat) (e : List Byte) : (s.pushFault n e).beyondMemory = s.beyondMemory := by
  simp [State.pushFault]

@[simp] theorem State.faultEntry_beyondMemory (n : Nat) (e : List Byte) : (s.faultEntry n e).beyondMemory = s.beyondMemory := by
  unfold State.faultEntry
  dsimp only
  split
  · rfl
  · split
    · simp
    · split <;> simp

@[simp] theorem State.tell_beyondMemory (n code unit a0 a1 : Nat) : (s.tell n code unit a0 a1).beyondMemory = s.beyondMemory := by
  simp [State.tell]

/-! ### The lines of the store -/

@[simp] theorem State.evict_beyondMemory (line : Nat) : (s.evict line).beyondMemory = s.beyondMemory := by
  unfold State.evict
  split
  · rfl
  · dsimp only
    split <;> rfl

theorem State.makeRoom_beyondMemory (n : Nat) (s : State) (line need : Nat) (own : Option Nat) :
    (State.makeRoom n s line need own).1.beyondMemory = s.beyondMemory := by
  induction n generalizing s with
  | zero => rfl
  | succ n ih =>
    unfold State.makeRoom
    split
    · rfl
    · split
      · rfl
      · rw [ih, State.evict_beyondMemory]

@[simp] theorem State.keepRoom_beyondMemory (line : Nat) : (s.keepRoom line).beyondMemory = s.beyondMemory := by
  unfold State.keepRoom
  split
  · split
    · simp
    · rfl
  · rfl

@[simp] theorem State.putLine_beyondMemory (line : Nat) (l : Line) : (s.putLine line l).beyondMemory = s.beyondMemory := rfl

@[simp] theorem State.useLine_beyondMemory (line : Nat) : (s.useLine line).beyondMemory = s.beyondMemory := by
  unfold State.useLine
  split <;> rfl

@[simp] theorem State.install_beyondMemory (line : Nat) (l : Line) : (s.install line l).1.beyondMemory = s.beyondMemory := by
  have hkeep : (if l.hint = 1 then s.keepRoom line else s).beyondMemory = s.beyondMemory := by
    split <;> simp
  unfold State.install
  dsimp only
  split
  · rfl
  · split
    · rename_i e
      simpa [hkeep] using beyondMemory_of_eq e (State.makeRoom_beyondMemory ..)
    · rename_i e
      simpa [hkeep] using beyondMemory_of_eq e (State.makeRoom_beyondMemory ..)

@[simp] theorem State.setSlice_beyondMemory (q : Nat) (x : Slice) : (s.setSlice q x).beyondMemory = s.beyondMemory := rfl
@[simp] theorem State.bankCount_beyondMemory (a k : Nat) : (s.bankCount a k).beyondMemory = s.beyondMemory := rfl
@[simp] theorem State.tickUse_beyondMemory : s.tickUse.beyondMemory = s.beyondMemory := rfl

@[simp] theorem State.lockWait_beyondMemory (line : Nat) : (s.lockWait line).beyondMemory = s.beyondMemory := by
  unfold State.lockWait
  dsimp only
  split <;> simp

@[simp] theorem State.requestFill_beyondMemory (line : Nat) : (s.requestFill line).beyondMemory = s.beyondMemory := by
  unfold State.requestFill
  dsimp only
  split <;> rfl

@[simp] theorem State.fill_beyondMemory (line : Nat) (streaming : Bool) :
    (s.fill line streaming).1.beyondMemory = s.beyondMemory := by
  simp [State.fill]

@[simp] theorem State.miss_beyondMemory (line : Nat) (streaming : Bool) : (s.miss line streaming).beyondMemory = s.beyondMemory := by
  unfold State.miss
  dsimp only
  split
  · rfl
  · split
    · rename_i e
      exact beyondMemory_of_eq e (State.fill_beyondMemory ..)
    · rename_i t e
      have ht : t.beyondMemory = s.beyondMemory := beyondMemory_of_eq e (State.fill_beyondMemory ..)
      split <;> simp [ht]

@[simp] theorem State.deadTouch_beyondMemory (line n unit : Nat) : (s.deadTouch line n unit).beyondMemory = s.beyondMemory := by
  unfold State.deadTouch
  dsimp only
  split
  · split
    · exact State.tell_beyondMemory ..
    · rfl
  · rfl

@[simp] theorem State.deadRead_beyondMemory (line n unit : Nat) (streaming : Bool) :
    (s.deadRead line n unit streaming).beyondMemory = s.beyondMemory := by
  simp [State.deadRead]

@[simp] theorem State.acceptLine_beyondMemory (w : WriteBack) : (s.acceptLine w).beyondMemory = s.beyondMemory := by
  refine beyondMemory_foldl (fun s i => ?_) _ _
  dsimp only
  split <;> rfl

@[simp] theorem State.settle_beyondMemory (line : Nat) : (s.settle line).beyondMemory = s.beyondMemory :=
  beyondMemory_foldl (fun s w => State.acceptLine_beyondMemory s w) _ _

@[simp] theorem State.checkWaits_beyondMemory (line : Nat) : (s.checkWaits line).beyondMemory = s.beyondMemory := by
  unfold State.checkWaits
  split <;> rfl

/-! ### Held requests -/

@[simp] theorem State.zeroRange_beyondMemory (a n : Nat) : (s.zeroRange a n).beyondMemory = s.beyondMemory := by
  unfold State.zeroRange
  split <;> rfl

@[simp] theorem State.flushRange_beyondMemory (a n : Nat) : (s.flushRange a n).beyondMemory = s.beyondMemory :=
  beyondMemory_foldl (fun s l => by simp) _ _

@[simp] theorem State.slicemapChangeEnd_beyondMemory : s.slicemapChangeEnd.beyondMemory = s.beyondMemory := by
  unfold State.slicemapChangeEnd
  extract_lets +onlyGivenNames frames flushed mapped
  have hflushed : flushed.beyondMemory = s.beyondMemory :=
    beyondMemory_foldl (fun s f => State.flushRange_beyondMemory s _ _) _ _
  have hmapped : mapped.beyondMemory = flushed.beyondMemory :=
    beyondMemory_foldl (fun s x => State.setReg_beyondMemory s _ _) _ _
  clear_value mapped flushed
  split
  · simp
  · exact hmapped.trans hflushed

theorem State.setClass_beyondMemory (g : Nat) (c : Bool) : (s.setClass g c).beyondMemory = s.beyondMemory := by
  unfold State.setClass
  exact (State.setReg_beyondMemory ..).trans (State.zeroRange_beyondMemory ..)

@[simp] theorem State.endClass_beyondMemory (x : Nat × Bool) : (s.endClass x).beyondMemory = s.beyondMemory := by
  unfold State.endClass
  exact (State.setClass_beyondMemory ..).trans rfl

@[simp] theorem State.awaitHeld_beyondMemory (line : Nat) : (s.awaitHeld line).beyondMemory = s.beyondMemory := by
  unfold State.awaitHeld
  extract_lets +onlyGivenNames mapped ended
  have hmapped : mapped.beyondMemory = s.beyondMemory := by
    dsimp only [mapped]
    split <;> simp
  have hended : ended.beyondMemory = s.beyondMemory :=
    (beyondMemory_foldl State.endClass_beyondMemory _ _).trans hmapped
  split
  · rfl
  · split
    · split <;> simp [hended]
    · exact hended

/-! ### Reads and writes -/

@[simp] theorem State.readBytes_beyondMemory (line mask n unit : Nat) (streaming : Bool) :
    (s.readBytes line mask n unit streaming).beyondMemory = s.beyondMemory := by
  unfold State.readBytes
  dsimp only
  split
  · simp
  · split
    · split
      · simp
      · split <;> simp
    · simp

@[simp] theorem State.readAs_beyondMemory (a k n unit : Nat) (streaming : Bool) :
    (s.readAs a k n unit streaming).beyondMemory = s.beyondMemory :=
  beyondMemory_foldl (fun s l => by simp) _ _

@[simp] theorem State.writeThrough_beyondMemory (line : Nat) (l : Line) : (s.writeThrough line l).beyondMemory = s.beyondMemory := by
  unfold State.writeThrough
  dsimp only
  split
  · exact State.acceptLine_beyondMemory ..
  · simp

@[simp] theorem State.lineBytes_beyondMemory (line mask : Nat) (d : List Byte) :
    (s.lineBytes line mask d).beyondMemory = s.beyondMemory := by
  unfold State.lineBytes
  extract_lets +onlyGivenNames counted
  have hcounted : counted.beyondMemory = s.beyondMemory := State.awaitHeld_beyondMemory s line
  clear_value counted
  extract_lets +onlyGivenNames gm gd settled new l
  have hinstall : (settled.tickUse.install line l).1.beyondMemory = s.beyondMemory := by
    simp [settled, hcounted]
  split
  · refine (beyondMemory_foldl (fun s i => ?_) _ _).trans hcounted
    rfl
  · split
    · rename_i e
      exact beyondMemory_of_eq e hinstall
    · rename_i e
      exact (State.writeThrough_beyondMemory ..).trans (beyondMemory_of_eq e hinstall)

@[simp] theorem State.writeLine_beyondMemory (line mask : Nat) (d : List Byte) :
    (s.writeLine line mask d).beyondMemory = s.beyondMemory := by
  unfold State.writeLine
  split <;> simp

@[simp] theorem State.write_beyondMemory (a : Nat) (bs : List Byte) : (s.write a bs).beyondMemory = s.beyondMemory :=
  beyondMemory_foldl (fun s l => by simp) _ _

/-! ### A tenant's spans -/

@[simp] theorem State.translate_beyondMemory (u cap n va : Nat) (write fetch : Bool) :
    (s.translate u cap n va write fetch).1.beyondMemory = s.beyondMemory := by
  unfold State.translate
  split
  · rfl
  · split <;> rfl

theorem State.translatePieces_beyondMemory (u cap n : Nat) (write : Bool) (ps : List (Nat × Nat)) (s : State) :
    (s.translatePieces u cap n write ps).1.beyondMemory = s.beyondMemory := by
  induction ps generalizing s with
  | nil => rfl
  | cons p ps ih =>
    obtain ⟨va, len⟩ := p
    have htr := State.translate_beyondMemory s u cap n va write false
    unfold State.translatePieces
    split
    · rename_i e
      exact beyondMemory_of_eq e htr
    · rename_i t a e
      have ht := beyondMemory_of_eq e htr
      split
      · split
        · rename_i e'
          exact (beyondMemory_of_eq e' (ih t)).trans ht
        · exact (ih t).trans ht
      · exact ht

@[simp] theorem State.translateSpan_beyondMemory (u cap n va len : Nat) (write : Bool) :
    (s.translateSpan u cap n va len write).1.beyondMemory = s.beyondMemory := by
  unfold State.translateSpan
  split
  · rfl
  · exact State.translatePieces_beyondMemory ..

@[simp] theorem State.touchSpans_beyondMemory (ps : List (Nat × Nat)) (n u : Nat) (streaming : Bool) :
    (s.touchSpans ps n u streaming).beyondMemory = s.beyondMemory :=
  beyondMemory_foldl (fun s p => by simp) _ _

theorem State.writeSpans_beyondMemory (ps : List (Nat × Nat)) (bs : List Byte) (s : State) :
    (s.writeSpans ps bs).beyondMemory = s.beyondMemory := by
  induction ps generalizing s bs with
  | nil => rfl
  | cons p ps ih =>
    unfold State.writeSpans
    rw [ih, State.write_beyondMemory]

@[simp] theorem State.fetchSpan_beyondMemory (u cap n va len : Nat) (streaming : Bool) :
    (s.fetchSpan u cap n va len streaming).1.beyondMemory = s.beyondMemory := by
  have htr := State.translateSpan_beyondMemory s u cap n va len false
  unfold State.fetchSpan
  split
  · rename_i e
    exact beyondMemory_of_eq e htr
  · rename_i t ps e
    have ht := beyondMemory_of_eq e htr
    dsimp only
    split <;> simp [ht]

@[simp] theorem State.storeSpan_beyondMemory (u cap n va : Nat) (bs : List Byte) :
    (s.storeSpan u cap n va bs).1.beyondMemory = s.beyondMemory := by
  have htr := State.translateSpan_beyondMemory s u cap n va bs.length true
  unfold State.storeSpan
  split
  · rename_i e
    exact beyondMemory_of_eq e htr
  · rename_i t ps e
    exact (State.writeSpans_beyondMemory ..).trans (beyondMemory_of_eq e htr)

theorem State.fetchVecs_beyondMemory (u cap n : Nat) (ps : List (Nat × Nat)) (s : State) :
    (s.fetchVecs u cap n ps).1.beyondMemory = s.beyondMemory := by
  induction ps generalizing s with
  | nil => rfl
  | cons p ps ih =>
    obtain ⟨va, len⟩ := p
    have hf := State.fetchSpan_beyondMemory s u cap n va len false
    unfold State.fetchVecs
    split
    · rename_i e
      exact beyondMemory_of_eq e hf
    · rename_i t bs e
      have ht := beyondMemory_of_eq e hf
      split
      · rename_i e'
        exact (beyondMemory_of_eq e' (ih t)).trans ht
      · exact (ih t).trans ht

theorem State.storeVecs_beyondMemory (u cap n : Nat) (ws : List (Nat × List Byte)) (s : State) :
    (s.storeVecs u cap n ws).1.beyondMemory = s.beyondMemory := by
  induction ws generalizing s with
  | nil => rfl
  | cons w ws ih =>
    obtain ⟨va, bs⟩ := w
    have hst := State.storeSpan_beyondMemory s u cap n va bs
    unfold State.storeVecs
    split
    · rename_i e
      exact beyondMemory_of_eq e hst
    · rename_i t _ e
      exact (ih t).trans (beyondMemory_of_eq e hst)

end Sys2Proof.Machine
end

section
/-! PROOFS. The array sequencer: what its operations write, and the state that each command of the drain path and of a chain's bank
leaves where its conditions hold. -/

namespace Sys2Proof.Machine

variable (s : State)

/-! ### The sequencer's state (R66) -/

@[simp] theorem State.setArr_arr (x : ArrSeq) : (s.setArr x).arr = x := rfl
@[simp] theorem State.setArr_mem (x : ArrSeq) : (s.setArr x).mem = s.mem := rfl
@[simp] theorem State.setArr_ten (x : ArrSeq) : (s.setArr x).ten = s.ten := rfl
@[simp] theorem State.setArr_out (x : ArrSeq) : (s.setArr x).out = s.out := rfl
@[simp] theorem State.setArr_tree (x : ArrSeq) : (s.setArr x).tree = s.tree := rfl

/-- The operations with those of a tenant's sequence number changed. -/
def ArrSeq.modOps (x : ArrSeq) (n q : Nat) (f : ArrOp → ArrOp) : List ArrOp :=
  x.ops.map fun o => if o.tenant = n ∧ o.seq = q then f o else o

@[simp] theorem State.modOp_arr (n q : Nat) (f : ArrOp → ArrOp) :
    (s.modOp n q f).arr = { s.arr with ops := s.arr.modOps n q f } := rfl
@[simp] theorem State.modOp_mem (n q : Nat) (f : ArrOp → ArrOp) : (s.modOp n q f).mem = s.mem := rfl
@[simp] theorem State.modOp_ten (n q : Nat) (f : ArrOp → ArrOp) : (s.modOp n q f).ten = s.ten := rfl
@[simp] theorem State.modOp_out (n q : Nat) (f : ArrOp → ArrOp) : (s.modOp n q f).out = s.out := rfl

/-- Two changes of an operation that leave its name are one. -/
theorem ArrSeq.modOps_modOps (x : ArrSeq) (n q : Nat) {f g : ArrOp → ArrOp} (hf : ∀ o, (f o).tenant = o.tenant ∧ (f o).seq = o.seq) :
    ArrSeq.modOps { x with ops := x.modOps n q f } n q g = x.modOps n q fun o => g (f o) := by
  simp only [ArrSeq.modOps, List.map_map]
  refine List.map_congr_left fun o _ => ?_
  by_cases h : o.tenant = n ∧ o.seq = q
  · simp [h, hf]
  · simp [h]

/-- STATUS.DRAINING shows a drain, a fill or a spill under way. -/
theorem State.showArr_draining : s.showArr.has F.arrStatusDraining =
    (s.arr.ops.any (fun o => o.phase == .draining || o.phase == .filling) || s.arr.chains.any fun c => c.spilling) := by
  have hdepth (t : State) (v : Nat) : (t.wr F.arrQdepthDepth v).rd F.arrStatusDraining = t.rd F.arrStatusDraining :=
    State.rd_wr_reg t v (by decide)
  have hrunning (t : State) (v : Nat) : (t.wr F.arrStatusRunning v).rd F.arrStatusDraining = t.rd F.arrStatusDraining :=
    State.rd_wr_field t v (by decide) rfl (by decide)
  have hdraining (t : State) (b : Bool) : (t.wr F.arrStatusDraining (b2n b)).rd F.arrStatusDraining = b2n b := by
    rw [State.rd_wr_same t _ _ (by decide)]
    cases b <;> rfl
  have hone (b : Bool) : (b2n b == 1) = b := by
    cases b <;> rfl
  unfold State.showArr State.has
  simp only [hdepth, hrunning, hdraining, hone, State.wr_arr]

/-- An event of the sequencer stands in its events register: the pending bits that it raises lie elsewhere (R386). -/
theorem State.setEvent_arrEvents {e : Field} (hr : e.reg = .arrEvents) (hw : e.w = 1) (hf : e.Fits) : (s.setEvent e).has e = true := by
  have hpend : ∀ (t : State) (n : Nat), n < 4096 → (t.pend n).rd e = t.rd e := by
    intro t n hn
    have hoff : e.reg.offset ≠ (Reg.icuPendSet (n / 32)).offset := by
      simp only [hr, Reg.offset]
      omega
    unfold State.pend
    split
    · exact State.rd_setReg_ne _ _ hoff
    · rfl
  have hbit : 1 % 2 ^ e.w = 1 := congrArg (1 % 2 ^ ·) hw
  have hset : (s.wr e 1).rd e = 1 := (State.rd_wr_same _ _ _ hf).trans hbit
  unfold State.setEvent
  split
  · assumption
  · simp [State.has, blockEvent, hr, hpend, hset]

/-! ### Ending, and the completion word (R39, R62) -/

theorem State.arrEnd_arr (o : ArrOp) (status : Nat) :
    (s.arrEnd o status).arr =
      { s.arr with
        path := s.arr.path.filter fun p => p != (false, o.tenant, o.seq)
        ops := s.arr.modOps o.tenant o.seq fun x =>
          { x with phase := .ending, status := status, chain := none, data := [], opA := [], opB := [], outs := [] } } := rfl

/-- A state without the agreement monitor. -/
def State.beyondMonitor (s : State) : State := { s with agm := Agm.reset }

theorem State.arr_of_beyondMonitor {s t : State} (h : t.beyondMonitor = s.beyondMonitor) : t.arr = s.arr := by
  have harr := congrArg State.arr h
  exact harr

theorem State.tree_of_beyondMonitor {s t : State} (h : t.beyondMonitor = s.beyondMonitor) : t.tree = s.tree := by
  have htree := congrArg State.tree h
  exact htree

theorem State.mem_of_beyondMonitor {s t : State} (h : t.beyondMonitor = s.beyondMonitor) : t.mem = s.mem := by
  have hmem := congrArg State.mem h
  exact hmem

theorem State.ten_of_beyondMonitor {s t : State} (h : t.beyondMonitor = s.beyondMonitor) : t.ten = s.ten := by
  have hten := congrArg State.ten h
  exact hten

theorem State.out_of_beyondMonitor {s t : State} (h : t.beyondMonitor = s.beyondMonitor) : t.out = s.out := by
  have hout := congrArg State.out h
  exact hout

theorem State.countBlocks_beyondMonitor (n : Nat) (f : Nat → Sample) : (s.countBlocks n f).beyondMonitor = s.beyondMonitor := by
  have htimes : ∀ (k : Nat) (g : State → State) (t : State), (∀ t, (g t).beyondMonitor = t.beyondMonitor) →
      (times g k t).beyondMonitor = t.beyondMonitor := by
    intro k g t hg
    induction k generalizing t with
    | zero => rfl
    | succ k ih => exact (ih (g t)).trans (hg t)
  unfold State.countBlocks
  split
  · rfl
  · refine (htimes _ _ _ fun t => ?_).trans rfl
    dsimp only
    split <;> rfl

/-- What the agreement monitor takes of an operation changes the monitor alone (R104, R105). -/
theorem State.arrSample_beyondMonitor (o : ArrOp) : (s.arrSample o).beyondMonitor = s.beyondMonitor := by
  unfold State.arrSample
  dsimp only
  split
  · rfl
  · exact State.countBlocks_beyondMonitor ..

/-- An ended operation leaves the queue and its token message is sent. -/
def State.arrRetire (s : State) (o : ArrOp) (status : Nat) : State :=
  let s := if arrSuccess status then s.arrSample o else s
  let s := s.setArr { s.arr with ops := s.arr.ops.filter fun x => !(x.tenant == o.tenant && x.seq == o.seq) }
  s.send (tumblerUnit o.u) (.tokenDone o.slot o.seq status)

section
variable (o : ArrOp) (status : Nat)

/-- The state with the operation's blocks sampled, if it ended in success. -/
theorem State.sampled_beyondMonitor :
    (if arrSuccess status then s.arrSample o else s).beyondMonitor = s.beyondMonitor := by
  split
  · exact State.arrSample_beyondMonitor ..
  · rfl

@[simp] theorem State.arrRetire_ops :
    (s.arrRetire o status).arr.ops = s.arr.ops.filter fun x => !(x.tenant == o.tenant && x.seq == o.seq) := by
  have harr := State.arr_of_beyondMonitor (s.sampled_beyondMonitor o status)
  simp [State.arrRetire, harr]

@[simp] theorem State.arrRetire_inbox :
    (s.arrRetire o status).inbox (tumblerUnit o.u) = s.inbox (tumblerUnit o.u) ++ [.tokenDone o.slot o.seq status] := by
  have htree := State.tree_of_beyondMonitor (s.sampled_beyondMonitor o status)
  simp [State.arrRetire, State.send, State.inbox, KMap.get_set_same, htree]

@[simp] theorem State.arrRetire_mem : (s.arrRetire o status).mem = s.mem := by
  simp [State.arrRetire, State.mem_of_beyondMonitor (s.sampled_beyondMonitor o status)]

@[simp] theorem State.arrRetire_ten : (s.arrRetire o status).ten = s.ten := by
  simp [State.arrRetire, State.ten_of_beyondMonitor (s.sampled_beyondMonitor o status)]

@[simp] theorem State.arrRetire_out : (s.arrRetire o status).out = s.out := by
  simp [State.arrRetire, State.out_of_beyondMonitor (s.sampled_beyondMonitor o status)]

end

/-- The ended operation whose completion is next: none of its tenant stands before it. -/
def State.ended? (s : State) : Option ArrOp :=
  s.arr.ops.find? fun o => o.phase == .ending && !((s.arr.ops.takeWhile fun x => x != o).any fun x => x.tenant == o.tenant)

variable {s}

theorem State.arrWord_of_no_word {o : ArrOp} (ho : s.ended? = some o) (hd : dDone o.desc = 0) : s.arrWord = s.arrRetire o o.status := by
  unfold State.ended? at ho
  unfold State.arrWord
  rw [ho]
  simp only [hd, if_true, State.arrRetire]

theorem State.arrWord_of_word {o : ArrOp} {t : State} {bs : List Byte} (ho : s.ended? = some o) (hd : dDone o.desc ≠ 0)
    (hst : s.drawn.storeSpan arrayUnit tlbArray o.tenant (dDone o.desc)
      (leBytes 2 o.status ++ zeros 2 ++ leBytes 4 (dTag o.desc) ++ leBytes 8 s.tag) = (t, .ok bs)) :
    s.arrWord = t.arrRetire o o.status := by
  unfold State.ended? at ho
  unfold State.arrWord
  rw [ho]
  simp only [hd, if_false, hst, State.arrRetire]

/-! ### The tail and the drain path (R50, R51, R58, R64) -/

theorem State.tailEnd_of_due {o : ArrOp} (ho : s.arr.ops.find? (fun o => o.phase == .tail) = some o) (hh : dHold o.desc = false) :
    s.tailEnd = (s.setArr { s.arr with path := s.arr.path ++ [(false, o.tenant, o.seq)] }).modOp o.tenant o.seq
      fun x => { x with phase := .due } := by
  unfold State.tailEnd
  rw [ho]
  simp [hh]

/-- The chains with `k` as the one of its name. -/
def ArrSeq.chainsWith (x : ArrSeq) (k : Chain) : List Chain :=
  (x.chains.filter fun c => !(c.tenant == k.tenant && c.chain == k.chain)) ++ [k]

theorem ArrSeq.mem_chainsWith (x : ArrSeq) (k : Chain) : k ∈ x.chainsWith k := by
  simp [ArrSeq.chainsWith]

theorem ArrSeq.eq_of_mem_chainsWith {x : ArrSeq} {k c : Chain} (hc : c ∈ x.chainsWith k) (ht : c.tenant = k.tenant)
    (hn : c.chain = k.chain) : c = k := by
  simpa [ArrSeq.chainsWith, ht, hn] using hc

/-- What a HOLD link's tail leaves, beside the registers and the counters. -/
theorem State.tailEnd_of_hold {o : ArrOp} (ho : s.arr.ops.find? (fun o => o.phase == .tail) = some o) (hh : dHold o.desc = true) :
    s.tailEnd.arr.chains = s.arr.chainsWith o.held ∧
    s.tailEnd.arr.ops = s.arr.modOps o.tenant o.seq (fun x =>
      { x with phase := .ending, status := o.success, chain := none, data := [], opA := [], opB := [], outs := [] }) ∧
    s.tailEnd.mem = s.mem ∧ s.tailEnd.ten = s.ten ∧ s.tailEnd.out = s.out := by
  unfold State.tailEnd
  rw [ho]
  simp [hh, State.arrEnd, State.dropChain, ArrSeq.chainsWith, ArrSeq.modOps, ArrOp.held]

/-- An operation at work that a starting one does not meet keeps its mark. -/
theorem State.markClash_of_no_meets {n : Nat} {ms : List (Nat × Nat)} (ha : ∀ x ∈ s.arr.ops, x.meets n ms = false)
    (hr : ∀ x ∈ s.spn.ops, x.meets n ms = false) : s.markClash n ms = s := by
  have harr : (s.arr.ops.map fun o => if o.meets n ms then { o with clash := true } else o) = s.arr.ops :=
    (List.map_congr_left fun o ho => by simp [ha o ho]).trans (List.map_id' _)
  have hspn : (s.spn.ops.map fun o => if o.meets n ms then { o with clash := true } else o) = s.spn.ops :=
    (List.map_congr_left fun o ho => by simp [hr o ho]).trans (List.map_id' _)
  unfold State.markClash
  rw [harr, hspn]

theorem State.drainStart_of_due {o : ArrOp} (ho : s.pathOp = some o) (hp : o.phase = .due)
    (hc : s.metaClash o.tenant (arrMetas o.desc) = false) (ha : ∀ x ∈ s.arr.ops, x.meets o.tenant (arrMetas o.desc) = false)
    (hr : ∀ x ∈ s.spn.ops, x.meets o.tenant (arrMetas o.desc) = false) :
    s.drainStart = s.modOp o.tenant o.seq fun x => { x with phase := .draining, clash := false } := by
  unfold State.drainStart
  rw [ho]
  simp only [hp, if_true, hc, State.markClash_of_no_meets ha hr]

/-- The operation that the path names is in the queue. -/
theorem State.pathOp_mem {o : ArrOp} (ho : s.pathOp = some o) : o ∈ s.arr.ops := by
  unfold State.pathOp at ho
  split at ho
  · exact List.mem_of_find?_eq_some ho
  · simp at ho

/-- STATUS.DRAINING shows an operation that has been made to drain. -/
theorem State.modOp_draining {o : ArrOp} {f : ArrOp → ArrOp} (ho : o ∈ s.arr.ops) (hf : (f o).phase = .draining) :
    (s.modOp o.tenant o.seq f).has F.arrStatusDraining = true := by
  have hmem : f o ∈ s.arr.modOps o.tenant o.seq f := List.mem_map.2 ⟨o, ho, by simp⟩
  have hany : (s.arr.modOps o.tenant o.seq f).any (fun o => o.phase == .draining || o.phase == .filling) = true :=
    List.any_eq_true.2 ⟨f o, hmem, by simp [hf]⟩
  change (State.showArr _).has _ = true
  rw [State.showArr_draining]
  exact Bool.or_eq_true_iff.2 (.inl hany)

/-! ### The drain's accesses -/

theorem eq_ok_of_toOption {ε α : Type} {x : Except ε α} {a : α} (h : x.toOption = some a) : x = .ok a := by
  cases x with
  | error e => cases h
  | ok b => exact congrArg _ (Option.some.inj h)

section
variable (s : State)

@[simp] theorem State.drainProblem_beyondMemory (o : ArrOp) (g : Nat) : (s.drainProblem o g).1.beyondMemory = s.beyondMemory := by
  unfold State.drainProblem
  dsimp only
  split
  · rename_i e
    exact beyondMemory_of_eq e (State.fetchVecs_beyondMemory ..)
  · rename_i t rs e
    have ht : t.beyondMemory = s.beyondMemory := beyondMemory_of_eq e (State.fetchVecs_beyondMemory ..)
    have hfree : ∀ n : Nat, (if dOfmt o.desc = 6 then { t with free := t.free + n } else t).beyondMemory = s.beyondMemory := by
      intro n
      split <;> exact ht
    split
    · rename_i e'
      exact beyondMemory_of_eq e' ((State.storeVecs_beyondMemory ..).trans (hfree _))
    · rename_i e'
      exact beyondMemory_of_eq e' ((State.storeVecs_beyondMemory ..).trans (hfree _))

end

@[simp] theorem State.drainProblems_beyondMemory (o : ArrOp) (gs : List Nat) (s : State) :
    (s.drainProblems o gs).1.beyondMemory = s.beyondMemory := by
  induction gs generalizing s with
  | nil => rfl
  | cons g gs ih =>
    unfold State.drainProblems
    split
    · rename_i e
      exact beyondMemory_of_eq e (State.drainProblem_beyondMemory ..)
    · rename_i t _ e
      have ht := beyondMemory_of_eq e (State.drainProblem_beyondMemory ..)
      split
      · rename_i e'
        exact (beyondMemory_of_eq e' (ih t)).trans ht
      · exact (ih t).trans ht

/-- A drain without a fault, of an operation that names no metadata area and has met no other producer (R62, R64). -/
theorem State.drainEnd_of_drained {o : ArrOp} {t : State} {outs : List (DrainOut × List Nat)} (ho : s.pathOp = some o)
    (hp : o.phase = .draining) (hd : s.drainProblems o (upto 0 (arrProblems o.desc)) = (t, .ok outs)) (hm : dCMeta o.desc = 0)
    (hc : o.clash = false) :
    s.drainEnd = ((((t.count arrayUnit 2 (drainCycles o.desc)).count arrayUnit 4 1).arrEnd o o.success).modOp o.tenant o.seq
      fun x => { x with opA := o.opA, opB := o.opB, outs := outs.map fun y => (y.1.outs, y.2) }) := by
  unfold State.drainEnd
  rw [ho]
  simp [hp, hd, hc, State.reportDrain, hm]

/-! ### Held banks that wait, and their spills (R60) -/

theorem State.chainWait_of_no_area {k : Chain} (hk : s.waitingChain = some k) (hs : k.spill = 0) :
    s.chainWait = ((s.dropChain k.tenant k.chain).setEvent F.arrEventsChainDiscard).count arrayUnit 7 1 := by
  unfold State.chainWait
  rw [hk]
  simp only [hs, if_true]

theorem State.chainWait_of_area {k : Chain} (hk : s.waitingChain = some k) (hs : k.spill ≠ 0) :
    s.chainWait = s.setArr { s.arr with
      chains := s.arr.chains.map fun x => if x.tenant = k.tenant ∧ x.chain = k.chain then { x with spilling := true } else x
      path := s.arr.path ++ [(true, k.tenant, k.chain)] } := by
  unfold State.chainWait
  rw [hk]
  simp only [hs, if_false]

theorem State.spillEnd_of_written {n m : Nat} {rest : List (Bool × Nat × Nat)} {k : Chain} {t : State} {bs : List Byte}
    (hp : s.arr.path = (true, n, m) :: rest) (hk : s.chain? n m = some k)
    (hst : (s.setArr { s.arr with path := rest }).storeSpan arrayUnit tlbArray n k.spill (k.data.map fun x => leBytes 5 x).flatten =
      (t, .ok bs)) :
    s.spillEnd = ((t.setArr { t.arr with
      chains := t.arr.chains.map fun x =>
        if x.tenant = n ∧ x.chain = m then { x with bank := none, spilling := false, data := [] } else x }).setEvent
          F.arrEventsChainSpill).count arrayUnit 6 1 := by
  have hk' : (s.setArr { s.arr with path := rest }).chain? n m = some k := hk
  unfold State.spillEnd
  rw [hp]
  simp only [hk', hst]

/-! ### The array clock (R23) -/

/-- A command of the array domain runs while the domain's clock does. -/
theorem Runs.of_array_clock {c : Instr} {t : State} {P : State → Prop} (he : exec c s = .next (if s.arrayStops then s else t))
    (hs : s.arrayStops = false) (ht : P t) : Runs c s P := by
  refine ⟨t, ?_, ht⟩
  rw [he, hs]
  rfl

end Sys2Proof.Machine
end

section
/-! PROOFS. The statement about how operations of the array sequencer end and drain. -/

open Sys2Proof Sys2Proof.Machine

/-- Settles O7: each command's state is the one that its equation gives under the clause's conditions, and accesses to memory leave the
sequencer and the command tree as they are (`State.arr_of_beyondMemory`). -/
theorem arrayOperationsEndAndDrain : Obligations.ArrayOperationsEndAndDrain := by
  unfold Obligations.ArrayOperationsEndAndDrain
  refine ⟨?due, ?held, ?drains, ?drained, ?noWord, ?word, ?discarded, ?spills, ?spilled⟩
  case due =>
    intro o s ho hh hs
    refine .of_array_clock rfl hs ?_
    rw [State.tailEnd_of_due ho hh]
    simp [ArrSeq.modOps]
  case held =>
    intro o s ho hh hs
    obtain ⟨hchains, hops, hmem, hten, hout⟩ := State.tailEnd_of_hold ho hh
    refine .of_array_clock rfl hs ⟨?_, ?_, hops, hmem, hten, hout⟩
    · rw [hchains]
      exact ArrSeq.mem_chainsWith ..
    · intro k hk htenant hname
      rw [hchains] at hk
      exact ArrSeq.eq_of_mem_chainsWith hk htenant hname
  case drains =>
    intro o s ho hp hc ha hr hs
    refine .of_array_clock rfl hs ?_
    rw [State.drainStart_of_due ho hp hc ha hr]
    refine ⟨?_, ?_, State.modOp_draining (State.pathOp_mem ho) rfl, ?_⟩
    all_goals simp [ArrSeq.modOps]
  case drained =>
    intro o outs s ho hp hd hm hc hs
    have hok := eq_ok_of_toOption hd
    have harr := State.arr_of_beyondMemory (State.drainProblems_beyondMemory o (upto 0 (arrProblems o.desc)) s)
    refine .of_array_clock rfl hs ?_
    rw [State.drainEnd_of_drained ho hp (Prod.ext rfl hok) hm hc]
    refine ⟨?_, ?_, ?_⟩
    · simp only [State.modOp_arr, State.arrEnd_arr, State.count_arr, harr]
      exact ArrSeq.modOps_modOps s.arr o.tenant o.seq fun _ => ⟨rfl, rfl⟩
    · simp [State.arrEnd_arr]
    · simp [State.arrEnd]
  case noWord =>
    intro o s ho hd
    refine ⟨s.arrWord, rfl, ?_⟩
    rw [State.arrWord_of_no_word ho hd]
    refine ⟨State.arrRetire_inbox .., fun x hx => ?_, State.arrRetire_mem .., State.arrRetire_ten .., State.arrRetire_out ..⟩
    simpa only [State.arrRetire_ops, List.mem_filter, Bool.not_eq_true', Bool.and_eq_false_iff, beq_eq_false_iff_ne, ne_eq,
      Decidable.not_and_iff_not_or_not] using hx
  case word =>
    intro o s ho hd hst
    have hbeyond := State.storeSpan_beyondMemory s.drawn arrayUnit tlbArray o.tenant (dDone o.desc)
      (leBytes 2 o.status ++ zeros 2 ++ leBytes 4 (dTag o.desc) ++ leBytes 8 s.tag)
    have htree := State.tree_of_beyondMemory hbeyond
    refine ⟨s.arrWord, rfl, ?_⟩
    rw [State.arrWord_of_word ho hd (Prod.ext rfl hst)]
    refine ⟨?_, State.arrRetire_mem ..⟩
    rw [State.arrRetire_inbox, State.inbox, htree]
    rfl
  case discarded =>
    intro k s hk hsp hs
    refine .of_array_clock rfl hs ?_
    rw [State.chainWait_of_no_area hk hsp]
    refine ⟨fun x hx => ?_, State.setEvent_arrEvents _ rfl rfl (by decide), ?_, ?_, ?_⟩
    · simpa only [State.count_arr, State.setEvent_arr, State.dropChain, State.setArr_arr, List.mem_filter, Bool.not_eq_true',
        Bool.and_eq_false_iff, beq_eq_false_iff_ne, ne_eq, Decidable.not_and_iff_not_or_not] using hx
    all_goals simp [State.dropChain]
  case spills =>
    intro k s hk hsp hs
    refine .of_array_clock rfl hs ?_
    rw [State.chainWait_of_area hk hsp]
    simp
  case spilled =>
    intro n m rest k s hp hk hst hs
    have harr := State.arr_of_beyondMemory (State.storeSpan_beyondMemory (s.setArr { s.arr with path := rest }) arrayUnit tlbArray n
      k.spill (k.data.map fun x => leBytes 5 x).flatten)
    refine .of_array_clock rfl hs ?_
    rw [State.spillEnd_of_written hp hk (Prod.ext rfl hst)]
    refine ⟨?_, ?_, State.setEvent_arrEvents _ rfl rfl (by decide), ?_⟩
    all_goals simp [harr]

end

section
/-! PROOFS. Runs that part from statements about the engines and the tumbler: states that meet a clause's conditions, and what the
model does in them. -/

namespace Sys2Proof.Machine

/-! ### What the states are made of -/

/-- A descriptor of fields, each given by its place, its width in bytes and its value; its other bytes are 0. -/
def descriptorOf (fs : List (Nat × Nat × Nat)) : List Byte := fs.foldl (fun d x => setFld d x.1 x.2.1 x.2.2) (zeros 128)

/-- Unit `u` has pages 1 and 2 of tenant 0 in its buffer, frames of the scratchpad that it may write. -/
def scratchpadPages (u : Nat) : State :=
  (State.reset.wr (F.cstPartitionScratch 0) 16).setTlb u
    ((upto 1 2).map fun p => { tenant := 0, page := p, frame := 196608 + p, w := true, exec := true })

/-! ### A product that stands twice in the array sequencer's queue -/

/-- One product of two tiles of the least size, in the scratchpad, that ends without a completion word. -/
def plainProduct : ArrOp :=
  { tenant := 0, seq := 1, u := 0, slot := 0, launch := 0
    desc := descriptorOf [(0, 1, 2), (2, 1, 1), (3, 1, 1), (4, 1, 1), (8, 2, 1), (0xA, 2, 1), (0xC, 3, 16), (0x10, 8, 2 ^ 21),
      (0x18, 8, 2 ^ 21), (0x20, 8, 2 ^ 22), (0x28, 4, 256), (0x2C, 4, 256), (0x30, 4, 256), (0x34, 2, 1)]
    phase := .queued, status := 0, bank := 0, c0 := 0, alpha := [], alphaOut := [], tileC := [], chain := none, data := []
    inexact := false, opA := [], opB := [], outs := [], clash := false }

/-- Two queued operations bear one tenant's sequence number. Acceptance numbers them apart, and the statement speaks of every
state. -/
def queuedTwice : State := { scratchpadPages arrayUnit with arr := { ArrSeq.reset with ops := [plainProduct, plainProduct] } }

theorem queuedTwice_arrayStops : queuedTwice.arrayStops = false := rfl

/-- OPERATION_START runs while the array clock does (R23). -/
theorem execOperationStart_of_clock {s : State} (h : s.arrayStops = false) : exec .operationStart s = .next s.opStart := by
  have hexec : exec .operationStart s = .next (if s.arrayStops then s else s.opStart) := rfl
  rw [hexec, h]
  rfl

theorem queuedTwice_turn :
    queuedTwice.mayStart = true ∧ queuedTwice.arrTurn = some 0 ∧ queuedTwice.nextOp 0 = some plainProduct := by
  decide +kernel

theorem queuedTwice_checks : ((queuedTwice.chooseOp plainProduct).arrChecks plainProduct).2 = none := by
  decide +kernel

theorem plainProduct_desc :
    dAccCont plainProduct.desc = false ∧ arrClaims plainProduct.desc = false ∧ dOfmt plainProduct.desc ≠ 6 := by
  decide +kernel

/-- The start takes both for the one that it chose and keeps one. -/
theorem queuedTwice_opStart_ops : queuedTwice.opStart.arr.ops.length ≠ queuedTwice.arr.ops.length := by
  decide +kernel

/-! ### A translation marker that stands before the spindle -/

/-- A softmax of one row in the scratchpad, started. -/
def softmaxOp : RowOp :=
  { tenant := 0, seq := 1, u := 0, slot := 0, launch := 0
    desc := descriptorOf [(0, 1, 1), (1, 1, 3), (8, 4, 1), (0xC, 4, 1), (0x10, 8, 2 ^ 21), (0x18, 8, 2 ^ 22), (0x40, 4, 256),
      (0x44, 4, 256)]
    phase := 1, status := 0, c0 := 0, lossScale := 0, starts := [], ended := 0, spilled := false, dropped := false, amax := 0
    nonfinite := 0, entries := [], escDenied := 0, zeroFlush := 0, sums := 0, loss := 0, told := false, clash := false }

/-- A translation marker of another tenant has come to the spindle's first section, which is free, with a chunk to take. -/
def markerBeforeChunk : State :=
  { (scratchpadPages (spindleUnit 0)).send (spindleUnit 0) (.translation 1 0 1) with spn := { Spindle.reset with ops := [softmaxOp] } }

theorem markerBeforeChunk_turn : KMap.find markerBeforeChunk.spn.running 0 = none ∧ markerBeforeChunk.chunkTurn 0 = some softmaxOp ∧
    softmaxOp.nextChunk 0 = some 0 ∧ rowReads softmaxOp.desc = false := by
  decide +kernel

theorem markerBeforeChunk_meets :
    (∀ x ∈ markerBeforeChunk.arr.ops,
      x.meets softmaxOp.tenant (if softmaxOp.starts.isEmpty then rowMetas softmaxOp.desc else []) = false) ∧
    (∀ x ∈ markerBeforeChunk.spn.ops,
      x.meets softmaxOp.tenant (if softmaxOp.starts.isEmpty then rowMetas softmaxOp.desc else []) = false) := by
  decide +kernel

/-- No page that the chunk touches faults. -/
theorem markerBeforeChunk_translate :
    (((markerBeforeChunk.markClash softmaxOp.tenant (if softmaxOp.starts.isEmpty then rowMetas softmaxOp.desc else [])).modRow
      softmaxOp.tenant softmaxOp.seq fun x =>
        { x with
          starts := KMap.put x.starts 0 (KMap.get x.starts 0 0 + 1)
          clash := x.clash ||
            markerBeforeChunk.metaClash softmaxOp.tenant (if softmaxOp.starts.isEmpty then rowMetas softmaxOp.desc else []) }
      ).chunkTranslate softmaxOp 0 0).2 = none := by
  decide +kernel

/-- The marker is passed first, and its passing is sent. -/
theorem markerBeforeChunk_chunkStart_out : (markerBeforeChunk.chunkStart 0).out ≠ markerBeforeChunk.out := by
  decide +kernel

/-! ### An instruction whose memory has been lost under its cache line -/

/-- A launch of one block of one group, its program at 2 ^ 21. -/
def oneGroupLaunch : Launch :=
  { id := 1, tenant := 0, ring := 0, cid := 0, desc := descriptorOf [(0, 1, 1), (2, 1, 2), (3, 1, 1), (8, 8, 2 ^ 21)], blocks := 1
    placed := 1, ended := 0, code := 0, stopped := false }

/-- The group runs, and the line of its first instruction is resident, clean and sound. -/
def residentProgram : State :=
  let s := (State.reset.setReg .hbmCapacity (2 ^ 30)).setTlb (tumblerUnit 0)
    [{ tenant := 0, page := 1, frame := 64, w := false, exec := true }]
  let line : Line :=
    { pinned := false, dead := false, hint := 0, used := 0, region := some 0
      g := List.replicate 4 { held := allHeld, wrote := 0, poison := false, data := zeros 64 } }
  let tumbler : Tumbler :=
    { Tumbler.reset with
      ready := true, groups := [(0, oneGroupLaunch.group 0 0)]
      blocks := [{ launch := 1, num := 0, slots := [0], lmem := [], saved := none }] }
  { s with mem := { s.mem with lines := [(2 ^ 19, line)] }, launches := [oneGroupLaunch], tum := [(0, tumbler)] }

/-- The HBM granule below that line is then lost, and a change of the frame's slice map stands. A read of the frame ends the change
first (`State.awaitHeld`), which drops the clean line. -/
def lostUnderLine : State := (residentProgram.hbmLost (2 ^ 21)).slicemapWrite 8 1

/-- An instruction word with MOD 0 and no predicate, that reads registers from 4 on and writes register 8. -/
def plainWord : IWord := { dst := 8, sa := 4, sb := 0, sc := 0, pred := 15, pnot := false, keep := 0, mod := 0 }

/-- The group in slot 0, all of whose lanes execute. -/
def wholeGroup : Member := { slot := 0, i := 0, act := allLanes, on := allLanes }

def wholeCtx : Ctx := { u := 0, l := oneGroupLaunch, w := plainWord, ms := [wholeGroup] }

/-- What the fetch reads is judged before the change has ended. -/
theorem lostUnderLine_issues_twait :
    lostUnderLine.issues 0 0 plainWord { srcs := [(0, plainWord.sa.toNat, 2)], dst := [(plainWord.dst.toNat, 1)] } always wholeCtx := by
  decide +kernel

theorem lostUnderLine_issues_rand :
    lostUnderLine.issues 0 0 plainWord
      { srcs := [(0, plainWord.sa.toNat, 1)], dst := [(plainWord.dst.toNat, if plainWord.mod.toNat = 1 then 2 else 1)] } always
      wholeCtx := by
  decide +kernel

theorem lostUnderLine_tokenAt :
    (wholeCtx.ms.all fun m => (lostUnderLine.issueAt wholeCtx m 0 2).all fun a => lostUnderLine.tokenAt 0 a.2 == none) = true := by
  decide +kernel

theorem lostUnderLine_issueAt : lostUnderLine.issueAt wholeCtx wholeGroup 0 1 = some (0, 0) := by
  decide +kernel

theorem zero_mem_lanesOf_wholeGroup : 0 ∈ lanesOf wholeGroup.on := by
  decide +kernel

/-- The fetch reads the lost granule and stops the launch: the wait writes no register. -/
theorem lostUnderLine_twaitOp_laneOf : (lostUnderLine.twaitOp 0 0 plainWord).laneOf 0 0 oneGroupLaunch.regs 8 0 = 0 := by
  decide +kernel

/-- The same of the draw, which then claims nothing. -/
theorem lostUnderLine_randOp_counters :
    KMap.get ((lostUnderLine.randOp 0 0 plainWord).tenant wholeCtx.l.tenant).step.counters 0 0 ≠
      (KMap.get (lostUnderLine.tenant wholeCtx.l.tenant).step.counters 0 0 + 32) % 2 ^ 128 := by
  decide +kernel

end Sys2Proof.Machine
end

section
/-! PROOFS. The statements about the engines and the tumbler that such a run contradicts. -/

open Sys2Proof Sys2Proof.Machine

/-- Refutes O6: its clause about OPERATION_START keeps the number of queued operations. Two operations of one tenant with one sequence
number, which no acceptance leaves, become one as the start chooses between them. -/
theorem not_arraySequencerAcceptsAndStarts : ¬ Obligations.ArraySequencerAcceptsAndStarts := by
  unfold Obligations.ArraySequencerAcceptsAndStarts
  rintro ⟨-, start, -⟩
  obtain ⟨hmay, hturn, hnext⟩ := queuedTwice_turn
  obtain ⟨hcont, hclaims, hofmt⟩ := plainProduct_desc
  obtain ⟨t, ht, -, hops, -⟩ :=
    start 0 plainProduct queuedTwice hmay hturn (by decide) hnext queuedTwice_checks hcont hclaims hofmt queuedTwice_arrayStops
  rw [execOperationStart_of_clock queuedTwice_arrayStops] at ht
  obtain rfl : queuedTwice.opStart = t := by
    injection ht
  exact queuedTwice_opStart_ops hops

/-- Refutes O8: its clause about ROW_CHUNK_START sends nothing, while the section first passes the markers that stand before it, as a
unit that handles its messages in order does (R19), and sends that it has. -/
theorem not_rowOperationsRun : ¬ Obligations.RowOperationsRun := by
  unfold Obligations.RowOperationsRun
  rintro ⟨-, -, -, chunkStart, -⟩
  obtain ⟨hfree, hturn, hchunk, hreads⟩ := markerBeforeChunk_turn
  obtain ⟨harr, hspn⟩ := markerBeforeChunk_meets
  obtain ⟨t, ht, -, -, -, -, hout⟩ :=
    chunkStart 0 softmaxOp 0 markerBeforeChunk hfree hturn hchunk hreads harr hspn markerBeforeChunk_translate
  obtain rfl : markerBeforeChunk.chunkStart 0 = t := by
    injection ht
  exact markerBeforeChunk_chunkStart_out hout

/-- Refutes O16: its clause about a TWAIT on a stale token gives 010Ch wherever the fetch meets no fault in the state as it stands. The
fetch's own read can end a change of the slice map first and drop a sound line over a lost granule; it then faults, and no lane is
written. -/
theorem not_engineIssuesAndTokens : ¬ Obligations.EngineIssuesAndTokens := by
  unfold Obligations.EngineIssuesAndTokens
  rintro ⟨-, -, stale, -⟩
  obtain ⟨t, ht, hlane⟩ :=
    stale 0 0 plainWord wholeCtx lostUnderLine lostUnderLine_issues_twait (by decide) (by decide) lostUnderLine_tokenAt
  obtain rfl : lostUnderLine.twaitOp 0 0 plainWord = t := by
    injection ht
  have hcode : (lostUnderLine.twaitOp 0 0 plainWord).laneOf 0 0 oneGroupLaunch.regs 8 0 = 0x10C :=
    hlane wholeGroup (List.mem_singleton_self _) 0 zero_mem_lanesOf_wholeGroup
  rw [lostUnderLine_twaitOp_laneOf] at hcode
  exact absurd hcode (by decide)

/-- Refutes O18: its clause about RAND advances the stream's counter wherever the fetch meets no fault in the state as it stands; in
`lostUnderLine` that fetch faults, and nothing is claimed. -/
theorem not_tumblerDataInstructions : ¬ Obligations.TumblerDataInstructions := by
  unfold Obligations.TumblerDataInstructions
  rintro ⟨-, rand, -⟩
  obtain ⟨t, ht, -, hcounter⟩ :=
    rand 0 0 plainWord wholeCtx wholeGroup (0, 0) lostUnderLine lostUnderLine_issues_rand rfl rfl lostUnderLine_issueAt (by decide)
      (by decide)
  obtain rfl : lostUnderLine.randOp 0 0 plainWord = t := by
    injection ht
  exact lostUnderLine_randOp_counters hcounter

end

section
/-! PROOFS. The statement about floating point and comparison, which the same run contradicts. -/

namespace Sys2Proof.Machine

/-- A division of `lostUnderLine` issues as the wait does: what its fetch reads is judged before the change has ended. -/
theorem lostUnderLine_issues_fdiv : lostUnderLine.issues 0 0 plainWord (formOf plainWord 2 1) always wholeCtx := by
  decide +kernel

/-- Its sources are both 0, and the quotient of two zeros is a NaN, whose word is not 0. -/
theorem lostUnderLine_quotient_ne_zero :
    f32div (lostUnderLine.laneOf 0 0 oneGroupLaunch.regs 4 0) (lostUnderLine.laneOf 0 0 oneGroupLaunch.regs 0 0) % 2 ^ 32 ≠ 0 := by
  decide +kernel

/-- The fetch reads the lost granule and stops the launch: the division writes no register. -/
theorem lostUnderLine_fdiv_laneOf :
    (lostUnderLine.fpPlain 0 0 plainWord 2 f32div).laneOf 0 0 oneGroupLaunch.regs 8 0 = 0 := by
  decide +kernel

end Sys2Proof.Machine

open Sys2Proof Sys2Proof.Machine

/-- Refutes O14: its clause about FDIV writes the quotient wherever the fetch meets no fault in the state as it stands. In
`lostUnderLine` the fetch's own read ends a change of the slice map first and then faults, so the lanes get no NaN from 0 / 0. -/
theorem not_floatingPointInstructions : ¬ Obligations.FloatingPointInstructions := by
  unfold Obligations.FloatingPointInstructions
  rintro ⟨-, -, -, -, -, fdiv, -⟩
  obtain ⟨t, ht, hlane⟩ := fdiv 0 0 plainWord wholeCtx lostUnderLine lostUnderLine_issues_fdiv rfl (by decide)
  obtain rfl : lostUnderLine.fpPlain 0 0 plainWord 2 f32div = t := by
    injection ht
  have hquotient := hlane wholeGroup (List.mem_singleton_self _) 0 zero_mem_lanesOf_wholeGroup
  exact lostUnderLine_quotient_ne_zero (hquotient.symm.trans lostUnderLine_fdiv_laneOf)

end

section
/-! PROOFS. Runs that part from the statements about numeric reports and step commands: states that meet a clause's conditions, and
what the model does in them. -/

namespace Sys2Proof.Machine

-- the runs below are evaluated whole
set_option maxRecDepth 10000

/-! ### A sample of a format past the table of thresholds -/

/-- One element that the array drained as 2.0 where its reference is 1.0, of format 12. The thresholds of R118 are those of formats 0
to 8; what lies where the one of format 12 would is ARR.AGM_STATUS. -/
def pastTableSample : Sample :=
  { tenant := 0, cMeta := 0, ofmt := 12, alpha := 0x3F800000
    elems := [{ pairs := [(0x3F800000, 0x3F800000)], prior := none, y := 0x40000000 }] }

/-- That sample is held, and HELD of ARR.AGM_STATUS shows it. -/
def pastTableHeld : State := { State.reset with agm := { Agm.reset with held := [pastTableSample] } }.wr F.arrAgmStatusHeld 1

theorem pastTableHeld_arrayStops : pastTableHeld.arrayStops = false := rfl

theorem pastTableSample_disagreement :
    disagreement (pastTableSample.elems.map fun e => e.reference pastTableSample.alpha)
      (pastTableSample.elems.map fun e => e.y.toNat) = some 0x3F800000 := by
  decide

/-- HELD reads as a warning exponent of 1, which a disagreement of 1.0 exceeds; the alarm is off. -/
theorem pastTableHeld_thresholds :
    exceedsPow 0x3F800000 (pastTableHeld.rd (F.arrAgmThreshWarnExp pastTableSample.ofmt)) = true ∧
      exceedsPow 0x3F800000 (pastTableHeld.rd (F.arrAgmThreshAlarmExp pastTableSample.ofmt)) = false := by
  decide

/-- The finish lets the sample go first, and with HELD at 0 the exponent has turned the test off. -/
theorem pastTableHeld_sampleFinish_has_warn : pastTableHeld.sampleFinish.has F.arrAgmEventsWarn = false := by
  decide

/-- SAMPLE_FINISH runs while the array clock does (R23). -/
theorem execSampleFinish_of_clock {s : State} (h : s.arrayStops = false) : exec .sampleFinish s = .next s.sampleFinish := by
  have hexec : exec .sampleFinish s = .next (if s.arrayStops then s else s.sampleFinish) := rfl
  rw [hexec, h]
  rfl

/-! ### A boundary at which a numeric record holds a maximum of the step -/

/-- The started STEP_OPEN that the boundary keeps waiting. -/
def heldOpen : Entry :=
  { cid := 7, idx := 0, bytes := setFld (zeros 64) 0 1 0x10, phase := .started, status := 0, result0 := 0, result1 := 0, faults := false }

/-- A record of an FP8 tensor to which a maximum of 1.0 has been reported. -/
def reportedRec : NumRec :=
  { slot := 0, handle := 5, cls := 0, fmt := 2, baseFmt := 2, jit := false, escalated := false, pinFmt := false, frozen := false
    floor := false, tileScale := 0x3F800000, histLen := 16, histValid := 0, histHead := 0, jitLeft := 0, hist := List.replicate 16 0
    histStep := 0, stepAmax := 0x3F800000, stepNonfinite := 0, stepSat := 0, floorExp := 0, ovfSteps := 0, alarmScore := 0, link := 0
    stepSamples := 0, stepDMax := 0, stepDSum := 0, runSamples := 0, runDMax := 0, warnCount := 0, alarmCount := 0, escDenied := 0
    zeroFlush := 0, escalations := 0, produced := true, alarmed := false, scoreBefore := 0, satRaised := false }

/-- Tenant 0 stands at a step boundary with that STEP_OPEN held, its areas at frames 64 to 67. -/
def openWaits : State :=
  (State.reset.wr (F.tenStateState 0) 2).setTenant 0
    { Tenant.reset with
      sqs := [(0, { Sq.reset with entries := [heldOpen] })]
      step := { Step.reset with openHeld := some 7, scbStep := 1 }
      place := { Place.reset with areas := upto 64 4 } }

/-- The scale manager has written the record into the numeric area, with the maximum (R96, R100). -/
def reportedAtBoundary : State := openWaits.setRec 0 reportedRec

theorem reportedAtBoundary_atBoundary :
    reportedAtBoundary.active (0 : TenantId) = true ∧ (reportedAtBoundary.tenant (0 : TenantId)).step.phase = .idle ∧
      reportedAtBoundary.running (0 : TenantId) = false := by
  decide

theorem reportedAtBoundary_nothingDue :
    reportedAtBoundary.boundaryDue (0 : TenantId) = false ∧ (reportedAtBoundary.tenant (0 : TenantId)).place.worked = false ∧
      reportedAtBoundary.mapoutCap = none := by
  decide

theorem reportedAtBoundary_mayOpen :
    reportedAtBoundary.recovering (0 : TenantId) = false ∧ reportedAtBoundary.unrecovered (0 : TenantId) = false ∧
      reportedAtBoundary.has F.cstStatusPartBusy = false := by
  decide

theorem reportedAtBoundary_openHeld :
    (reportedAtBoundary.tenant (0 : TenantId)).step.openHeld = some 7 ∧
      reportedAtBoundary.entry? (0 : TenantId) (reportedAtBoundary.ringOf (0 : TenantId) 7) 7 = some heldOpen ∧
      heldOpen.ended = false := by
  decide

theorem reportedAtBoundary_waits : reportedAtBoundary.waits = [] := by
  decide

/-- The boundary returns the record's step fields to 0 (R97), and writes it so into the numeric area. -/
theorem reportedAtBoundary_boundaryWork_mem :
    (reportedAtBoundary.boundaryWork (0 : TenantId) []).mem ≠ reportedAtBoundary.mem := by
  decide

/-- So nothing that keeps the memories holds of what BOUNDARY_WORK leaves there. -/
theorem Runs.mem_ne_of_reportedAtBoundary {P : State → Prop} (h : Runs (.boundaryWork 0 []) reportedAtBoundary P) :
    ∃ t, P t ∧ t.mem ≠ reportedAtBoundary.mem := by
  obtain ⟨t, ht, hP⟩ := h
  obtain rfl : reportedAtBoundary.boundaryWork (0 : TenantId) [] = t := by
    injection ht
  exact ⟨_, hP, reportedAtBoundary_boundaryWork_mem⟩

end Sys2Proof.Machine
end

section
/-! PROOFS. The statements about numeric reports and step commands, which these runs contradict. -/

open Sys2Proof Sys2Proof.Machine

/-- Refutes O9: its clause about a sample past the warning threshold bounds no format. For format 12, which no operation has, the
threshold is read where ARR.AGM_STATUS stands; SAMPLE_FINISH takes the sample out of HELD first, so the exponent that the clause read is
gone, and nothing is warned of. -/
theorem not_numericReportsReachTheirRecords : ¬ Obligations.NumericReportsReachTheirRecords := by
  unfold Obligations.NumericReportsReachTheirRecords
  rintro ⟨-, -, -, -, warns, -⟩
  obtain ⟨hwarn, halarm⟩ := pastTableHeld_thresholds
  obtain ⟨t, ht, -, hevent, -⟩ :=
    warns pastTableSample [] 0x3F800000 pastTableHeld rfl pastTableSample_disagreement hwarn halarm pastTableHeld_arrayStops
  rw [execSampleFinish_of_clock pastTableHeld_arrayStops] at ht
  obtain rfl : pastTableHeld.sampleFinish = t := by
    injection ht
  rw [pastTableHeld_sampleFinish_has_warn] at hevent
  exact Bool.false_ne_true hevent

/-- Refutes O10: its clause about a boundary that opens the step held leaves the memories as they are, while the boundary returns the
step fields of the tenant's records to 0 (R97) and writes the records into its numeric area. -/
theorem not_stepCommandsAct : ¬ Obligations.StepCommandsAct := by
  unfold Obligations.StepCommandsAct
  rintro ⟨-, -, -, -, -, opens⟩
  obtain ⟨hactive, hidle, hruns⟩ := reportedAtBoundary_atBoundary
  obtain ⟨hdue, hworked, hcap⟩ := reportedAtBoundary_nothingDue
  obtain ⟨hrec, hunrec, hpart⟩ := reportedAtBoundary_mayOpen
  obtain ⟨hheld, -, -⟩ := reportedAtBoundary_openHeld
  have hopens := opens 0 [] 7 reportedAtBoundary hactive hidle hruns hdue hworked hcap hrec hunrec hpart hheld
  obtain ⟨t, ⟨-, -, -, -, hmem, -⟩, hne⟩ := hopens.mem_ne_of_reportedAtBoundary
  exact hne hmem

/-- Refutes O57: its clause about boundary work with nothing due leaves the memories as they are, too, and so does not hold of a tenant
with a record whose step fields the boundary writes as 0 (R97). -/
theorem not_stepCommandsComplete : ¬ Obligations.StepCommandsComplete := by
  unfold Obligations.StepCommandsComplete
  rintro ⟨-, -, -, -, -, -, -, -, -, -, -, -, -, opens, -⟩
  obtain ⟨hactive, hidle, hruns⟩ := reportedAtBoundary_atBoundary
  obtain ⟨hdue, hworked, hcap⟩ := reportedAtBoundary_nothingDue
  obtain ⟨hrec, hunrec, hpart⟩ := reportedAtBoundary_mayOpen
  obtain ⟨hheld, hentry, hended⟩ := reportedAtBoundary_openHeld
  have hwaits : ∀ w ∈ reportedAtBoundary.waits,
      w.met = none ∧ ¬(w.tenant = (0 : TenantId).val ∧ w.ring = reportedAtBoundary.ringOf (0 : TenantId) 7 ∧ w.cid = 7) := by
    simp [reportedAtBoundary_waits]
  have hopens :=
    opens 0 [] 7 heldOpen reportedAtBoundary hactive hidle hruns hdue hworked hcap hrec hunrec hpart hheld hentry hended hwaits
  obtain ⟨t, ⟨-, -, -, -, -, hmem⟩, hne⟩ := hopens.mem_ne_of_reportedAtBoundary
  exact hne hmem

end

section
/-! PROOFS. Runs that part from the statements about the weight update and about what HBM finds: states that meet a clause's conditions,
and what the model does in them. -/

namespace Sys2Proof.Machine

/-! ### A commit whose report to the scale manager is still on its way -/

/-- UPDATE_START waits until the tenant's reports have reached the scale manager (R158). -/
theorem State.updateStart_of_reportsDue {s : State} {n : Nat} (h : s.reportsDue n = true) : s.updateStart n = s := by
  simp [State.updateStart, h]

/-- Tenant 0's open step has an accepted commit without an update list, and the update engines are ready. A maximum that one of its
operations reported still stands at the scale manager (R100). -/
def reportBeforeCommit : State :=
  { (State.reset.wr F.arrUpdStatusReady 1).setTenant 0
      { Tenant.reset with step := { Step.reset with phase := .opened, commit := some 7 } } with
    amax := [{ tenant := 0, handle := 5, amax := 0x3F800000, nonfinite := 0, fmt := 2, scale := none }] }

theorem reportBeforeCommit_commit :
    (reportBeforeCommit.tenant (0 : TenantId)).step.phase = .opened ∧
      (reportBeforeCommit.tenant (0 : TenantId)).step.commit.isSome = true ∧
      (reportBeforeCommit.tenant (0 : TenantId)).step.listCount = 0 ∧ (reportBeforeCommit.tenant (0 : TenantId)).num.poison = false := by
  decide

theorem reportBeforeCommit_engines :
    reportBeforeCommit.running (0 : TenantId) = false ∧ reportBeforeCommit.sampleHeld (0 : TenantId) = false ∧
      reportBeforeCommit.enginesTaken (0 : TenantId) = false ∧ reportBeforeCommit.has F.arrUpdStatusReady = true := by
  decide

theorem reportBeforeCommit_reportsDue : reportBeforeCommit.reportsDue (0 : TenantId) = true := by
  decide

/-! ### A finding on a channel whose state register would lie in CLASSMAP -/

/-- The first granule of protection group 16, in frame 256. -/
def group16Granule : Nat := 2 ^ 23

/-- HBM is ready, with a map that names pseudo-channel 1,920: its channel, 960, is past the 192 there are, and a state register of that
number lies where word 0 of CLASSMAP does. Tenant 0 may write the granule's frame, which is detect-only, and its step is open. -/
def strayChannel : State :=
  ((((State.reset.wr F.hbmStatusReady 1).setReg .hbmCapacity (BitVec.ofNat 64 (2 ^ 30))).setReg (.hbmPcmap 0) 1920).setTenant 0
    { Tenant.reset with step := { Step.reset with phase := .opened } }).setIso 256 0x10001

theorem strayChannel_scrubs :
    strayChannel.has F.hbmStatusReady = true ∧ strayChannel.rd F.hbmCtrlScrubMin ≠ 0 ∧
      64 * group16Granule < (strayChannel.reg .hbmCapacity).toNat ∧ strayChannel.pwr.cut = false := by
  decide

theorem strayChannel_granule :
    KMap.get strayChannel.mem.hbmPoison group16Granule false = false ∧ strayChannel.corrected (64 * group16Granule) = false ∧
      strayChannel.frozenIn (64 * group16Granule / 2 ^ 21) = [] ∧
      ∀ m ∈ upto 0 16, strayChannel.inForce m (64 * group16Granule / 2 ^ 21) (64 * group16Granule % 2 ^ 21) = none ∧
        strayChannel.slotInForce m (64 * group16Granule / 2 ^ 21) (64 * group16Granule % 2 ^ 21) = none := by
  decide

theorem strayChannel_writer :
    strayChannel.writers (64 * group16Granule / 2 ^ 21) = [(0 : TenantId).val] ∧
      (strayChannel.tenant (0 : TenantId)).step.phase = .opened := by
  decide

/-- The finding is counted where the group's class stands, so that the granule counts as corrected from then on, and the writer's step is
left open. -/
theorem strayChannel_hbmScrub_phase :
    ((strayChannel.hbmScrub group16Granule .uncorrectable []).tenant (0 : TenantId)).step.phase = .opened := by
  decide

end Sys2Proof.Machine
end

section
/-! PROOFS. The statements about the weight update and about what HBM finds, which these runs contradict. -/

open Sys2Proof Sys2Proof.Machine

/-- Refutes O11: its clause about a commit without an update list does not ask that the tenant's reports have reached the scale manager.
While one stands there UPDATE_START waits (R158), so the step stays open and nothing is sealed. -/
theorem not_updateAndCommit : ¬ Obligations.UpdateAndCommit := by
  unfold Obligations.UpdateAndCommit
  rintro ⟨seals, -⟩
  obtain ⟨hopened, hcommit, hlist, hpoison⟩ := reportBeforeCommit_commit
  obtain ⟨hruns, hsample, htaken, hready⟩ := reportBeforeCommit_engines
  obtain ⟨t, ht, hsealing, -⟩ := seals 0 reportBeforeCommit hopened hcommit hruns hsample htaken hready hpoison hlist
  obtain rfl : reportBeforeCommit.updateStart (0 : TenantId) = t := by
    injection ht
  rw [State.updateStart_of_reportsDue reportBeforeCommit_reportsDue, hopened] at hsealing
  cases hsealing

/-- Refutes O24: its clause about a detect-only frame bounds no channel, where the clauses before it ask for one below 192. With a map
that names channel 960 the finding's count falls into CLASSMAP, the frame's group reads as corrected, and no step ends. -/
theorem not_hbmFindings : ¬ Obligations.HbmFindings := by
  unfold Obligations.HbmFindings
  rintro ⟨-, -, -, -, aborts, -⟩
  obtain ⟨hready, hscrub, hcapacity, hcut⟩ := strayChannel_scrubs
  obtain ⟨hsound, hdetect, hfrozen, hforce⟩ := strayChannel_granule
  obtain ⟨hwriter, hopened⟩ := strayChannel_writer
  obtain ⟨t, ht, -, hidle⟩ :=
    aborts group16Granule [] 0 strayChannel hready hscrub hcapacity hsound hdetect hwriter hopened hfrozen hforce hcut
  obtain rfl : strayChannel.hbmScrub group16Granule .uncorrectable [] = t := by
    injection ht
  rw [strayChannel_hbmScrub_phase] at hidle
  cases hidle

end

section
/-! PROOFS. Runs that part from the statements about the fabric manager's messages, about tenants and about the keeper's mailbox: states
that meet a clause's conditions, and what the model does in them. -/

namespace Sys2Proof.Machine

-- the runs below are evaluated one after the other, which bounds the memory that checking them takes
set_option Elab.async false

/-- `n` bytes of fields, each given by its place, its width in bytes and its value; the other bytes are 0. -/
def bytesWith (n : Nat) (fs : List (Nat × Nat × Nat)) : List Byte := fs.foldl (fun d x => setFld d x.1 x.2.1 x.2.2) (zeros n)

/-! ### A frame that a marker still stands for -/

/-- A PARTNER message to the holder: node 3 releases its 2 MiB at offset 0 (R312). -/
def releaseBody : List Byte := bytesWith 24 [(0, 1, 1), (1, 1, 2), (2, 2, 3), (4, 2, 1), (0x10, 8, 2 ^ 21)]

/-- The management packet that carries it (R311): type 5, version 1, epoch 1, number 2. -/
def releasePacket : List Byte :=
  ({ ty := tyMgmt, flags := 0, len := 40, dst := 0xFFFF, src := 3, dstInc := 0, srcInc := 1, domain := 0, flow := 0, op := 0, off := 0
     id := 4, status := 0, mask := 0, data := bytesWith 16 [(0, 1, 5), (1, 1, 1), (2, 2, 24), (4, 4, 1), (8, 8, 2)] ++ releaseBody } :
    Pkt).bytes

/-- The message stands at port 2, and frame 64, whose first byte is 5, is what node 3 has reserved. The isolation marker of a revocation of
all of a tenant's frames (R215) has not passed tumbler 0 yet. -/
def reservedUnderMarker : State :=
  let s := (State.reset.modPort 2 fun x => { x with mgmt := [releasePacket] }).send (tumblerUnit 0) (.isolation 0 frameEnd)
  { s with
    fab := { s.fab with held := [{ peer := 3, inc := 1, off := 0, bytes := 2 ^ 21, frames := [64] }] }
    mem := { s.mem with hbm := [(64 * 2 ^ 21, 5)] } }

theorem reservedUnderMarker_message :
    (reservedUnderMarker.port 2).mgmt = [releasePacket] ∧ pktSound releasePacket = true ∧
      reservedUnderMarker.mgmtHeadOk (Pkt.of releasePacket) = true ∧ mType (Pkt.of releasePacket).data = 5 ∧
      mBody (Pkt.of releasePacket).data = releaseBody ∧ reservedUnderMarker.mgmtSeen (Pkt.of releasePacket).data = false := by
  decide +kernel

theorem releaseBody_releases :
    bodyOk 5 releaseBody = true ∧ fld releaseBody 0 1 = 1 ∧ fld releaseBody 1 1 = 2 ∧ fld releaseBody 2 2 = 3 ∧
      fld releaseBody 8 8 = 0 := by
  decide +kernel

/-- The frame is let go and keeps what it holds until the marker has passed. -/
theorem reservedUnderMarker_partner_read :
    (reservedUnderMarker.mgmt 2 5 State.partner).read (64 * 2 ^ 21) 1 = [5] := by
  decide +kernel

/-! ### A tenant slot whose last tenant's translations are not all gone -/

/-- A TENANT_CREATE that its ring has fetched; its block stands at address 0. -/
def createEntry : Entry :=
  { cid := 7, idx := 0, bytes := bytesWith 64 [(0, 1, 0x80)], phase := .staged, status := 0, result0 := 0, result1 := 0, faults := false }

/-- A block for tenant 3 in domain 9: 64 MiB, two barrier slots, a status block and a fault ring of 64 entries, no stream table. -/
def createBlock : List Byte :=
  bytesWith 256 [(0, 1, 3), (2, 2, 9), (4, 4, 64), (0x11, 1, 2), (0x14, 4, 5), (0x18, 8, 64), (0x20, 8, 4096), (0x28, 4, 64)]

/-- A load of tenant 0's on its way, which its entry onto frame 64 has translated. -/
def loadOnItsWay : Access :=
  { id := 0, kind := .load, launch := 1, tenant := 0, nc := false, size := 4, dst := 8
    lanes := [{ slot := 0, lane := 0, va := 2 ^ 21, pa := 64 * 2 ^ 21, data := 0, compare := 0 }], mod := 0, walks := [], left := 1
    vals := [] }

/-- Tenant 3 has been reset, and the isolation marker stands at tumbler 0, which completes the load first (R19): an entry of tenant 3's
stands there, too. Its slot is FREE, and the admin ring has the creation next. -/
def slotUnderMarker : State :=
  let s := (State.reset.setReg .hbmCapacity (2 ^ 30)).wr F.hifStatusReady 1
  let s := (s.send (tumblerUnit 0) (.isolation 0 frameEnd)).setTlb (tumblerUnit 0)
    [{ tenant := 0, page := 1, frame := 64, w := false, exec := false }, { tenant := 3, page := 1, frame := 65, w := false, exec := false }]
  { s with
    hif := { s.hif with adminOn := true, adminSq := { Sq.reset with entries := [createEntry] } }
    tum := [(0, { Tumbler.reset with ready := true, acc := [loadOnItsWay] })] }

theorem slotUnderMarker_mayAdmin : slotUnderMarker.mayAdmin 0x80 createEntry := by
  decide +kernel

theorem createBlock_passes :
    createBlock.length = 256 ∧ fld createBlock 0 1 < 16 ∧ blockOk createBlock = true ∧ fld createBlock 0x40 8 = 0 ∧
      chargeOf 0 4 ≤ fld createBlock 4 4 := by
  decide +kernel

theorem wardOfZeros_passes : (zeros 2112).length = 2112 ∧ wardImageOk (zeros 2112) = true := by
  decide +kernel

theorem slotUnderMarker_reaches :
    createEntry.arg 0 8 % 64 = 0 ∧ slotUnderMarker.reaches (createEntry.arg 0 8) 256 = true ∧
      slotUnderMarker.blockReaches createBlock = true ∧ slotUnderMarker.reaches (fld createBlock 0x48 8) 2112 = true := by
  decide +kernel

theorem slotUnderMarker_takes :
    slotUnderMarker.rd (F.tenStateState (fld createBlock 0 1)) = 0 ∧ slotUnderMarker.slotsGiven + fld createBlock 0x11 1 ≤ 64 ∧
      slotUnderMarker.domainTaken (fld createBlock 0 1) (fld createBlock 2 2) = false ∧
      slotUnderMarker.has F.secStatusEntropyFail = false ∧
      areaFrames ≤ (slotUnderMarker.freeFrames true areaFrames slotUnderMarker.frameCount).length := by
  decide +kernel

/-- The creation waits for the marker (R230): its command has not ended. -/
theorem slotUnderMarker_tenantCreate_outcome :
    (slotUnderMarker.runAdmin 0x80 fun s e => s.tenantCreate e createBlock (zeros 2112) [] true).outcome adminOwner 0 createEntry.cid =
      none := by
  decide +kernel

/-! ### A mailbox response past LENGTH's width -/

/-- What a field reads of a word into which it was put. -/
theorem Field.extract_put (f : Field) (w : DWord) (v : Nat) (h : f.Fits) :
    ((f.put w v).extractLsb' f.lo f.w).toNat = v % 2 ^ f.w := by
  have hrd := State.rd_wr_same (State.reset.setReg f.reg w) f v h
  unfold State.rd State.wr at hrd
  simpa only [State.reg_setReg_same] using hrd

theorem State.mbxGet_mbxPut_same (s : State) (host : Bool) (r : Reg) (v : DWord) : (s.mbxPut host r v).mbxGet host r = v := by
  cases host
  · exact KMap.get_set_same _ _ _ _
  · exact State.reg_setReg_same s r v

theorem State.mbxGet_mbxPut_ne (s : State) (host : Bool) {r q : Reg} (v : DWord) (h : q.offset ≠ r.offset) :
    (s.mbxPut host r v).mbxGet host q = s.mbxGet host q := by
  cases host
  · exact KMap.get_set_ne _ _ _ _ h
  · exact State.reg_setReg_ne s v h

/-- A field written in a channel's mailbox reads back there, modulo its width. -/
theorem State.mbxRd_mbxWr_same (s : State) (host : Bool) (f : Field) (v : Nat) (h : f.Fits) :
    (s.mbxWr host f v).mbxRd host f = v % 2 ^ f.w := by
  unfold State.mbxRd State.mbxWr
  rw [State.mbxGet_mbxPut_same, Field.extract_put _ _ _ h]

/-- A field of another register of the mailbox stands. -/
theorem State.mbxRd_mbxWr_reg (s : State) (host : Bool) {f g : Field} (v : Nat) (h : g.reg.offset ≠ f.reg.offset) :
    (s.mbxWr host f v).mbxRd host g = s.mbxRd host g := by
  unfold State.mbxRd State.mbxWr
  rw [State.mbxGet_mbxPut_ne s host _ h]

/-- Service firmware's channel stands in the keeper's part of the state. -/
theorem State.mbxRd_fw_congr {s t : State} (h : t.keeper.fw = s.keeper.fw) (f : Field) : t.mbxRd false f = s.mbxRd false f := by
  unfold State.mbxRd State.mbxGet State.fwReg
  simp only [h, Bool.false_eq_true, if_false]

@[simp] theorem State.raise_keeper (s : State) (n : Nat) : (s.raise n).keeper = s.keeper := by
  unfold State.raise
  split
  · rfl
  · split <;> simp

/-- The command in front is the last one: the mailbox stands empty after its end, and no other command turns up. -/
theorem State.mbxFinish_of_last {s : State} {host : Bool} (hc : s.keeper.chans = [host]) (code : Nat) (resp : List Byte) :
    s.mbxFinish code resp = s.mbxEnd code resp := by
  have hempty : (s.mbxEnd code resp).keeper.chans = [] := by
    simp [State.mbxEnd, hc]
  simp [State.mbxFinish, State.mbxSettle, hempty]

/-- LENGTH shows a response's length modulo the field's width, 13 bits. -/
theorem State.mbxEnd_length_fw {s : State} (hc : s.keeper.chans = [false]) (code : Nat) (resp : List Byte) :
    (s.mbxEnd code resp).mbxRd false F.secMbxStatusLength = resp.length % 2 ^ F.secMbxStatusLength.w := by
  have hfits : F.secMbxStatusLength.Fits := by decide
  have hreg : F.secMbxStatusLength.reg.offset ≠ F.secStatusBusy.reg.offset := by decide
  have hkept : (s.mbxEnd code resp).keeper.fw =
      ((((s.mbxStore false 0 (chunks 4 resp.length resp)).mbxWr false F.secMbxStatusCode code).mbxWr false F.secMbxStatusLength
        resp.length).mbxWr false F.secStatusBusy 0).keeper.fw := by
    simp [State.mbxEnd, hc]
  rw [State.mbxRd_fw_congr hkept, State.mbxRd_mbxWr_reg _ _ _ hreg, State.mbxRd_mbxWr_same _ _ _ _ hfits]

theorem leBytes_length (n v : Nat) : (leBytes n v).length = n := by
  induction n generalizing v with
  | zero => rfl
  | succ n ih => rw [leBytes, List.length_cons, ih]

theorem State.measBytes_length (s : State) : s.measBytes.length = 32 * s.keeper.meas.length := by
  unfold State.measBytes
  induction s.keeper.meas with
  | nil => rfl
  | cons m ms ih =>
    rw [List.map_cons, List.flatten_cons, List.length_append, leBytes_length, ih, List.length_cons, Nat.mul_succ, Nat.add_comm]

/-- The keeper has taken a MEASURE of service firmware's. It holds 256 measurement registers; R467 gives 16, and the statement speaks of
every state. -/
def manyMeasurements : State :=
  let s := (State.reset.wr F.secBootStatusStage 8).mbxWr false F.secMbxCtrlOpcode 2
  { s with keeper := { s.keeper with chans := [false], meas := List.replicate 256 0 } }

theorem manyMeasurements_measure :
    manyMeasurements.keeperRuns = true ∧ manyMeasurements.keeper.busy = false ∧
      manyMeasurements.mbxRd false F.secMbxCtrlOpcode = 2 := by
  decide +kernel

theorem manyMeasurements_measBytes_length : manyMeasurements.measBytes.length = 8192 := by
  have hmeas : manyMeasurements.keeper.meas.length = 256 := List.length_replicate
  rw [State.measBytes_length, hmeas]

/-- MEASURE answers with the measurement registers. -/
theorem execMeasure_of_front {s : State} {host : Bool} (hc : s.keeper.chans = [host]) (hr : s.keeperRuns = true)
    (hb : s.keeper.busy = false) (ho : s.mbxRd host F.secMbxCtrlOpcode = 2) :
    exec .measure s = .next (s.mbxEnd 0 s.measBytes) := by
  have hexec : exec .measure s = .next (s.mbxDo 2 fun s _ _ => s.mbxFinish 0 s.measBytes) := rfl
  rw [hexec, ← State.mbxFinish_of_last hc]
  simp [State.mbxDo, hc, hr, hb, ho]

end Sys2Proof.Machine
end

section
/-! PROOFS. The statements about the fabric manager's messages, tenants and the keeper's mailbox, which these runs contradict. -/

set_option Elab.async false

open Sys2Proof Sys2Proof.Machine

/-- Refutes O30: its clause about a release of a reservation reads the frames as 0 at once. A frame that is let go is zeroed once the
markers that stand for it have passed every unit (R215), and in `reservedUnderMarker` one has not. -/
theorem not_managementMessages : ¬ Obligations.ManagementMessages := by
  unfold Obligations.ManagementMessages
  rintro ⟨-, -, -, -, -, -, -, -, releases, -⟩
  obtain ⟨hfront, hsound, hhead, htype, hbody, hseen⟩ := reservedUnderMarker_message
  obtain ⟨hok, hrole, hact, hpeer, hoff⟩ := releaseBody_releases
  obtain ⟨t, ht, -, hzero, -⟩ :=
    releases 2 releasePacket [] releaseBody reservedUnderMarker hfront hsound hhead htype hbody hok hseen hrole hact
  obtain rfl : reservedUnderMarker.mgmt 2 5 State.partner = t := by
    injection ht
  have hread : (reservedUnderMarker.mgmt 2 5 State.partner).read (64 * 2 ^ 21) 1 = [0] :=
    hzero _ (List.mem_singleton_self _) hpeer.symm hoff.symm 64 (List.mem_singleton_self _) (by decide) _ (by decide)
  rw [reservedUnderMarker_partner_read] at hread
  exact absurd hread (by decide)

/-- Refutes O36: its clause about a TENANT_CREATE that passes every check ends it with 0, while the creation waits as long as a unit holds a
translation of the slot's last tenant (R230), and in `slotUnderMarker` one does. -/
theorem not_tenantsCreatedAndReset : ¬ Obligations.TenantsCreatedAndReset := by
  unfold Obligations.TenantsCreatedAndReset
  rintro ⟨creates, -⟩
  obtain ⟨hlength, htenant, hblock, htable, hcharge⟩ := createBlock_passes
  obtain ⟨hward, himage⟩ := wardOfZeros_passes
  obtain ⟨haligned, hreach, hnamed, hwardAt⟩ := slotUnderMarker_reaches
  obtain ⟨hfree, hslots, hdomain, hentropy, hframes⟩ := slotUnderMarker_takes
  obtain ⟨t, ht, hends, -⟩ :=
    creates createEntry createBlock (zeros 2112) [] slotUnderMarker slotUnderMarker_mayAdmin haligned hreach hlength htenant hfree hblock
      hnamed hwardAt hward (.inl htable) hslots hdomain himage (.inr hentropy) hcharge hframes
  obtain rfl : (slotUnderMarker.runAdmin 0x80 fun s e => s.tenantCreate e createBlock (zeros 2112) [] true) = t := by
    injection ht
  rw [slotUnderMarker_tenantCreate_outcome] at hends
  cases hends

/-- Refutes O44: its clause about MEASURE reads the response's length in LENGTH and bounds no number of measurement registers. With 256 of
them the response has 2^13 bytes, and LENGTH, 13 bits wide, shows 0. -/
theorem not_keeperMailboxActs : ¬ Obligations.KeeperMailboxActs := by
  unfold Obligations.KeeperMailboxActs
  rintro ⟨-, -, -, -, measures, -⟩
  obtain ⟨hruns, hbusy, hopcode⟩ := manyMeasurements_measure
  obtain ⟨t, ht, -, hlength, -⟩ := measures false manyMeasurements rfl hruns hbusy hopcode
  rw [execMeasure_of_front rfl hruns hbusy hopcode] at ht
  obtain rfl : manyMeasurements.mbxEnd 0 manyMeasurements.measBytes = t := by
    injection ht
  rw [State.mbxEnd_length_fw rfl, manyMeasurements_measBytes_length] at hlength
  exact absurd hlength (by decide)

end

section
/-! PROOFS. The central store: what its data, registers and events read back, and what its operations on a line leave alone. -/

namespace Sys2Proof.Machine

/-! ### Lists and sparse data -/

theorem upto_eq_range' (a n : Nat) : upto a n = List.range' a n := by
  induction n generalizing a with
  | zero => rfl
  | succ n ih => rw [upto, ih, List.range'_succ]

theorem mem_upto {x a n : Nat} : x ∈ upto a n ↔ a ≤ x ∧ x < a + n := by
  rw [upto_eq_range', List.mem_range'_1]

theorem nodup_upto (a n : Nat) : (upto a n).Nodup := by
  rw [upto_eq_range']
  exact List.nodup_range'

section sparse
variable {α : Type}

/-- Keeping the entries of some keys keeps what those keys read as. -/
theorem KMap.find_filter_key (m : KMap α) (p : Nat → Bool) (x : Nat) :
    KMap.find (m.filter fun e => p e.1) x = if p x then KMap.find m x else none := by
  induction m with
  | nil => simp [KMap.find]
  | cons e m ih =>
    obtain ⟨k, v⟩ := e
    by_cases hk : k = x
    · subst hk
      cases hp : p k <;> simp [KMap.find, hp, ih]
    · cases hp : p k <;> simp [KMap.find, hp, hk, ih]

theorem KMap.mem_of_find {m : KMap α} {x : Nat} {v : α} (h : KMap.find m x = some v) : (x, v) ∈ m := by
  induction m with
  | nil => cases h
  | cons e m ih =>
    obtain ⟨k, w⟩ := e
    simp only [KMap.find] at h
    split at h
    · simp_all
    · exact List.mem_cons_of_mem _ (ih h)

theorem KMap.ne_of_find_none {m : KMap α} {x : Nat} (h : KMap.find m x = none) {e : Nat × α} (he : e ∈ m) : e.1 ≠ x := by
  induction m with
  | nil => cases he
  | cons d m ih =>
    obtain ⟨k, w⟩ := d
    simp only [KMap.find] at h
    split at h
    · cases h
    · rcases List.mem_cons.1 he with rfl | he
      · assumption
      · exact ih h he

theorem KMap.del_of_find_none {m : KMap α} {x : Nat} (h : KMap.find m x = none) : KMap.del m x = m :=
  List.filter_eq_self.2 fun _ he => bne_iff_ne.2 (KMap.ne_of_find_none h he)

theorem KMap.get_dropRange (m : KMap α) (a n x : Nat) (d : α) :
    KMap.get (dropRange m a n) x d = if a ≤ x ∧ x < a + n then d else KMap.get m x d := by
  unfold KMap.get dropRange
  rw [KMap.find_filter_key m (fun k => !decide (a ≤ k ∧ k < a + n))]
  by_cases h : a ≤ x ∧ x < a + n
  · simp [h]
  · rw [if_neg h]
    simp only [h, decide_false, Bool.not_false, if_true]

theorem dropRange_zero (m : KMap α) (a : Nat) : dropRange m a 0 = m :=
  List.filter_eq_self.2 fun e _ => by
    have h : ¬ (a ≤ e.1 ∧ e.1 < a + 0) := by omega
    simp only [h, decide_false, Bool.not_false]

end sparse

/-! ### Steps over a list -/

section steps
variable {σ β γ : Type} {f : σ → β → σ}

/-- What every step leaves alone stands after all of them. -/
theorem foldl_keeps {g : σ → γ} (hf : ∀ s y, g (f s y) = g s) (xs : List β) (s : σ) : g (xs.foldl f s) = g s :=
  List.foldlRecOn (motive := fun t => g t = g s) xs f rfl fun t ht y _ => (hf t y).trans ht

/-- The step of `x` brings `Q` about where `P` holds; the others keep `P` before it, and every step keeps `Q`. -/
theorem foldl_establishes {P Q : σ → Prop} {x : β} {xs : List β} (hx : x ∈ xs) (before : ∀ s y, y ≠ x → P s → P (f s y))
    (here : ∀ s, P s → Q (f s x)) (after : ∀ s y, Q s → Q (f s y)) {s : σ} (hs : P s) : Q (xs.foldl f s) := by
  induction xs generalizing s with
  | nil => cases hx
  | cons y ys ih =>
    by_cases hy : y = x
    · subst hy
      exact List.foldlRecOn (motive := Q) ys f (here s hs) fun t ht y _ => after t y ht
    · exact ih ((List.mem_cons.1 hx).resolve_left (Ne.symm hy)) (before s y hy hs)

end steps

/-! ### The store's registers and events (R386) -/

section registers
variable {s t : State}

theorem State.rd_of_reg {f : Field} (h : t.reg f.reg = s.reg f.reg) : t.rd f = s.rd f := by
  unfold State.rd
  rw [h]

theorem State.has_of_reg {f : Field} (h : t.reg f.reg = s.reg f.reg) : t.has f = s.has f := by
  unfold State.has
  rw [State.rd_of_reg h]

/-- The slice map lies above the store's other registers. -/
theorem Reg.slicemap_offset_ne {r : Reg} (h : r.offset < 0x310000) (w : Nat) : (Reg.cstSlicemap w).offset ≠ r.offset := by
  have hw : (Reg.cstSlicemap w).offset = 0x310000 + 4 * w := rfl
  omega

/-- The home slice reads the slice map alone (R232). -/
theorem State.home_of_slicemap (h : ∀ w, t.reg (.cstSlicemap w) = s.reg (.cstSlicemap w)) (a : Nat) : t.home a = s.home a := by
  unfold State.home State.mapEntry
  rw [h]

theorem State.isLocked_of (hs : t.mem.slices = s.mem.slices) (hh : ∀ a, t.home a = s.home a) (x : Nat) : t.isLocked x = s.isLocked x := by
  unfold State.isLocked State.slice
  rw [hh, hs]

/-- The pending bits lie below the store's registers. -/
theorem State.pend_reg_store (s : State) {n : Nat} (hn : n < 4096) {r : Reg} (hr : 0x300000 ≤ r.offset) :
    (s.pend n).reg r = s.reg r := by
  have hoff : r.offset ≠ (Reg.icuPendSet (n / 32)).offset := by
    simp only [Reg.offset] at hr ⊢
    omega
  unfold State.pend
  split
  · rw [State.count_reg, State.reg_setReg_ne _ _ hoff]
  · rfl

/-- An event of the store raises both copies of block event 7. -/
theorem State.setEvent_store (s : State) {e : Field} (he : e.reg = .cstEvents) :
    s.setEvent e = if s.has e then s else ((s.wr e 1).pend 0x447).pend 0x487 := by
  unfold State.setEvent
  simp only [blockEvent, he]
  rfl

theorem State.setEvent_store_reg (s : State) {e : Field} (he : e.reg = .cstEvents) {r : Reg} (hr : 0x300000 ≤ r.offset)
    (hne : r.offset ≠ Reg.cstEvents.offset) : (s.setEvent e).reg r = s.reg r := by
  rw [State.setEvent_store s he]
  split
  · rfl
  · rw [State.pend_reg_store _ (by decide) hr, State.pend_reg_store _ (by decide) hr]
    exact State.reg_setReg_ne _ _ (he ▸ hne)

theorem State.setEvent_store_has (s : State) {e : Field} (he : e.reg = .cstEvents) (hw : e.w = 1) (hf : e.Fits) :
    (s.setEvent e).has e = true := by
  have hoff : 0x300000 ≤ e.reg.offset := by
    rw [he]
    decide
  have hset : (s.wr e 1).rd e = 1 := (State.rd_wr_same _ _ _ hf).trans (congrArg (1 % 2 ^ ·) hw)
  rw [State.setEvent_store s he]
  split
  · assumption
  · rw [State.has_of_reg (State.pend_reg_store _ (by decide) hoff), State.has_of_reg (State.pend_reg_store _ (by decide) hoff)]
    exact beq_iff_eq.2 hset

end registers

/-! ### What an operation on the store's lines leaves alone -/

/-- From `s` to `t` the tenants, the slices, the changes that wait, the scratchpad and the store's registers other than EVENTS and OP_RESULT
stand. -/
structure State.Steady (s t : State) : Prop where
  ten : t.ten = s.ten
  slices : t.mem.slices = s.mem.slices
  mapNew : t.mem.mapNew = s.mem.mapNew
  applying : t.mem.applying = s.mem.applying
  scratch : t.mem.scratch = s.mem.scratch
  reg : ∀ r : Reg, 0x300000 ≤ r.offset → r.offset ≠ Reg.cstEvents.offset → r.offset ≠ Reg.cstOpResult.offset → t.reg r = s.reg r

section steady
variable {s t u : State}

theorem State.Steady.refl (s : State) : State.Steady s s := ⟨rfl, rfl, rfl, rfl, rfl, fun _ _ _ _ => rfl⟩

theorem State.Steady.trans (h : State.Steady s t) (k : State.Steady t u) : State.Steady s u :=
  ⟨k.ten.trans h.ten, k.slices.trans h.slices, k.mapNew.trans h.mapNew, k.applying.trans h.applying, k.scratch.trans h.scratch,
    fun r h1 h2 h3 => (k.reg r h1 h2 h3).trans (h.reg r h1 h2 h3)⟩

theorem State.Steady.foldl {β : Type} {f : State → β → State} (hf : ∀ s y, State.Steady s (f s y)) (xs : List β) (s : State) :
    State.Steady s (xs.foldl f s) :=
  List.foldlRecOn (motive := State.Steady s) xs f (.refl s) fun t ht y _ => ht.trans (hf t y)

theorem State.Steady.slicemap (h : State.Steady s t) (w : Nat) : t.reg (.cstSlicemap w) = s.reg (.cstSlicemap w) := by
  refine h.reg _ ?_ ?_ ?_ <;> simp only [Reg.offset] <;> omega

theorem State.Steady.partition (h : State.Steady s t) (q : Nat) (hq : q < 4) : t.reg (.cstPartition q) = s.reg (.cstPartition q) := by
  refine h.reg _ ?_ ?_ ?_ <;> simp only [Reg.offset] <;> omega

theorem State.Steady.status (h : State.Steady s t) : t.reg .cstStatus = s.reg .cstStatus := h.reg _ (by decide) (by decide) (by decide)

theorem State.Steady.opCtrl (h : State.Steady s t) : t.reg .cstOpCtrl = s.reg .cstOpCtrl := h.reg _ (by decide) (by decide) (by decide)

theorem State.Steady.home (h : State.Steady s t) (a : Nat) : t.home a = s.home a := State.home_of_slicemap h.slicemap a

theorem State.Steady.isLocked (h : State.Steady s t) (x : Nat) : t.isLocked x = s.isLocked x := State.isLocked_of h.slices h.home x

end steady

variable (s : State)

theorem State.setEvent_steady {e : Field} (he : e.reg = .cstEvents) : State.Steady s (s.setEvent e) := by
  refine ⟨?_, ?_, ?_, ?_, ?_, fun r h1 h2 _ => State.setEvent_store_reg s he h1 h2⟩ <;> simp

/-! ### One line removed (R242) -/

/-- What the removal of a line adds to the write-back buffer. -/
def State.writtenBack (s : State) (line : Nat) : List WriteBack :=
  match KMap.find s.mem.lines line with
  | none => []
  | some l => if !l.dead && l.g.any Gran.dirty then [⟨s.home (line * 256), line, l.g⟩] else []

theorem State.evict_mem (line : Nat) :
    (s.evict line).mem = { s.mem with lines := KMap.del s.mem.lines line, wb := s.mem.wb ++ s.writtenBack line } := by
  unfold State.evict State.writtenBack
  cases hl : KMap.find s.mem.lines line with
  | none => simp [KMap.del_of_find_none hl]
  | some l =>
    dsimp only
    split
    · rfl
    · simp

theorem State.evict_lines (line : Nat) : (s.evict line).mem.lines = KMap.del s.mem.lines line := by
  rw [State.evict_mem]

theorem State.evict_hbm (line : Nat) : (s.evict line).mem.hbm = s.mem.hbm := by
  rw [State.evict_mem]

theorem State.evict_keeps_wb {w : WriteBack} {line : Nat} (h : w ∈ s.mem.wb) : w ∈ (s.evict line).mem.wb := by
  rw [State.evict_mem]
  exact List.mem_append_left _ h

/-- A line's dirty data moves to the write-back buffer. -/
theorem State.mem_evict_wb {line : Nat} {l : Line} (hl : KMap.find s.mem.lines line = some l) (hdead : l.dead = false)
    (hdirty : l.g.any Gran.dirty = true) : ⟨s.home (line * 256), line, l.g⟩ ∈ (s.evict line).mem.wb := by
  rw [State.evict_mem]
  refine List.mem_append_right _ ?_
  simp [State.writtenBack, hl, hdead, hdirty]

theorem State.evict_steady (line : Nat) : State.Steady s (s.evict line) := by
  have hmem := State.evict_mem s line
  have houtside : (s.evict line).ten = s.ten ∧ (s.evict line).regs = s.regs := by
    unfold State.evict
    split
    · exact ⟨rfl, rfl⟩
    · dsimp only
      split <;> exact ⟨rfl, rfl⟩
  obtain ⟨hten, hregs⟩ := houtside
  exact ⟨hten, by rw [hmem], by rw [hmem], by rw [hmem], by rw [hmem], fun r _ _ _ => State.reg_congr hregs r⟩

/-- Steps that each unlist their line leave the lines that no step names. -/
theorem foldl_lines_of_del {f : State → Nat → State} (hf : ∀ s x, (f s x).mem.lines = KMap.del s.mem.lines x) (xs : List Nat)
    (s : State) : (xs.foldl f s).mem.lines = s.mem.lines.filter fun e => !xs.contains e.1 := by
  induction xs generalizing s with
  | nil => exact (List.filter_eq_self.2 fun _ _ => rfl).symm
  | cons x xs ih =>
    rw [List.foldl_cons, ih, hf, KMap.del, List.filter_filter]
    refine List.filter_congr fun e _ => ?_
    rw [List.contains_cons, Bool.not_or, Bool.and_comm]
    rfl

/-- A line that a step has removed stays away. -/
theorem foldl_find_of_del {f : State → Nat → State} (hf : ∀ s x, (f s x).mem.lines = KMap.del s.mem.lines x) (xs : List Nat)
    (s : State) (x : Nat) : KMap.find (xs.foldl f s).mem.lines x = if x ∈ xs then none else KMap.find s.mem.lines x := by
  rw [foldl_lines_of_del hf, KMap.find_filter_key s.mem.lines (fun k => !xs.contains k)]
  by_cases h : x ∈ xs <;> simp [h]

/-! ### Write-backs accepted (R242, R266) -/

theorem State.acceptLine_lines (w : WriteBack) : (s.acceptLine w).mem.lines = s.mem.lines :=
  foldl_keeps (g := fun s : State => s.mem.lines) (fun s i => by dsimp only; split <;> rfl) _ _

theorem State.acceptLine_steady (w : WriteBack) : State.Steady s (s.acceptLine w) :=
  .foldl (fun s i => by dsimp only; split <;> exact ⟨rfl, rfl, rfl, rfl, rfl, fun _ _ _ _ => rfl⟩) _ _

theorem State.settle_lines (line : Nat) : (s.settle line).mem.lines = s.mem.lines :=
  foldl_keeps (g := fun s : State => s.mem.lines) State.acceptLine_lines _ _

theorem State.settle_steady (line : Nat) : State.Steady s (s.settle line) :=
  State.Steady.trans (t := { s with mem := { s.mem with wb := s.mem.wb.filter fun w => w.line != line } })
    ⟨rfl, rfl, rfl, rfl, rfl, fun _ _ _ _ => rfl⟩ (.foldl State.acceptLine_steady _ _)

theorem State.settle_of_none {line : Nat} (h : ∀ w ∈ s.mem.wb, w.line ≠ line) : s.settle line = s := by
  have hmine : (s.mem.wb.filter fun w => w.line == line) = [] :=
    List.filter_eq_nil_iff.2 fun w hw => by simpa using h w hw
  have hrest : (s.mem.wb.filter fun w => w.line != line) = s.mem.wb :=
    List.filter_eq_self.2 fun w hw => bne_iff_ne.2 (h w hw)
  unfold State.settle
  rw [hmine, hrest]
  rfl

/-! ### Lines flushed (R246) -/

theorem State.evict_settle_lines (line : Nat) : ((s.evict line).settle line).mem.lines = KMap.del s.mem.lines line := by
  rw [State.settle_lines, State.evict_lines]

theorem State.flushRange_steady (a n : Nat) : State.Steady s (s.flushRange a n) :=
  .foldl (fun s x => (State.evict_steady s x).trans (State.settle_steady _ x)) _ _

theorem State.flushRange_find (a n x : Nat) :
    KMap.find (s.flushRange a n).mem.lines x = if a / 256 ≤ x ∧ x < a / 256 + n / 256 then none else KMap.find s.mem.lines x := by
  unfold State.flushRange
  dsimp only
  rw [foldl_find_of_del State.evict_settle_lines]
  cases hx : KMap.find s.mem.lines x with
  | none => simp
  | some l =>
    have hmem := KMap.mem_of_find hx
    congr 1
    simp only [List.mem_map, List.mem_filter, decide_eq_true_eq, eq_iff_iff]
    constructor
    · rintro ⟨e, ⟨-, he⟩, rfl⟩
      exact he
    · exact fun h => ⟨(x, l), ⟨hmem, h⟩, rfl⟩

/-! ### Held requests that go on (R244, R245) -/

/-- From `s` to `t` nothing has changed but the slices and the counters. -/
structure State.SlicesOnly (s t : State) : Prop where
  ten : t.ten = s.ten
  regs : t.regs = s.regs
  mem : t.mem = { s.mem with slices := t.mem.slices }

theorem State.SlicesOnly.refl : State.SlicesOnly s s := ⟨rfl, rfl, rfl⟩

variable {s} in
theorem State.SlicesOnly.trans {t u : State} (h : State.SlicesOnly s t) (k : State.SlicesOnly t u) : State.SlicesOnly s u :=
  ⟨k.ten.trans h.ten, k.regs.trans h.regs, by rw [k.mem, h.mem]⟩

theorem State.SlicesOnly.foldl {β : Type} {f : State → β → State} (hf : ∀ s y, State.SlicesOnly s (f s y)) (xs : List β) (s : State) :
    State.SlicesOnly s (xs.foldl f s) :=
  List.foldlRecOn (motive := State.SlicesOnly s) xs f (.refl s) fun t ht y _ => ht.trans (hf t y)

theorem State.refillHeld_slicesOnly (line : Nat) : State.SlicesOnly s (s.refillHeld line) := by
  unfold State.refillHeld State.requestFill
  dsimp only
  split
  · split <;> exact ⟨rfl, rfl, rfl⟩
  · exact ⟨rfl, rfl, rfl⟩

theorem State.admitWaiting_slicesOnly (q : Nat) : State.SlicesOnly s (s.admitWaiting q) := ⟨rfl, rfl, rfl⟩

theorem State.proceed_slicesOnly : State.SlicesOnly s s.proceed := by
  unfold State.proceed
  refine .foldl (fun s q => ?_) _ _
  refine (State.admitWaiting_slicesOnly s q).trans ?_
  refine .foldl (fun s r => ?_) _ _
  exact State.refillHeld_slicesOnly s r.line

theorem State.proceed_mem : s.proceed.mem = { s.mem with slices := s.proceed.mem.slices } := (State.proceed_slicesOnly s).mem

theorem State.proceed_ten : s.proceed.ten = s.ten := (State.proceed_slicesOnly s).ten

theorem State.proceed_reg (r : Reg) : s.proceed.reg r = s.reg r := State.reg_congr (State.proceed_slicesOnly s).regs r

theorem State.proceed_rd (f : Field) : s.proceed.rd f = s.rd f := State.rd_congr (State.proceed_slicesOnly s).regs f

theorem State.proceed_has (f : Field) : s.proceed.has f = s.has f := by
  unfold State.has
  rw [State.proceed_rd]

end Sys2Proof.Machine
end

section
/-! PROOFS. Range operations of the central store (R246): what each does to a line, and the state that an operation leaves when no line of
its range is locked. -/

namespace Sys2Proof.Machine

variable (s : State)

theorem State.putLine_steady (line : Nat) (l : Line) : State.Steady s (s.putLine line l) :=
  ⟨rfl, rfl, rfl, rfl, rfl, fun _ _ _ _ => rfl⟩

theorem State.putLine_find_same (line : Nat) (l : Line) : KMap.find (s.putLine line l).mem.lines line = some l :=
  KMap.find_put_same _ _ _

theorem State.putLine_find_ne {line x : Nat} (l : Line) (h : x ≠ line) :
    KMap.find (s.putLine line l).mem.lines x = KMap.find s.mem.lines x :=
  KMap.find_put_ne _ _ h

theorem State.evict_find_same (line : Nat) : KMap.find (s.evict line).mem.lines line = none := by
  rw [State.evict_lines, KMap.find_del_same]

theorem State.evict_find_ne {line x : Nat} (h : x ≠ line) : KMap.find (s.evict line).mem.lines x = KMap.find s.mem.lines x := by
  rw [State.evict_lines, KMap.find_del_ne _ h]

/-! ### WRITE_BACK -/

/-- `m` is what a write-back leaves of line `l`: a live one has no dirty byte. -/
def Line.CleanedTo (l m : Line) : Prop :=
  m.pinned = l.pinned ∧ m.dead = l.dead ∧ (l.dead = false → ∀ y ∈ m.g, y.wrote = 0)

theorem Line.CleanedTo.trans {l m n : Line} (h : l.CleanedTo m) (k : m.CleanedTo n) : l.CleanedTo n := by
  obtain ⟨hpin, hdead, -⟩ := h
  obtain ⟨kpin, kdead, kclean⟩ := k
  exact ⟨kpin.trans hpin, kdead.trans hdead, fun hl => kclean (hdead.trans hl)⟩

theorem State.cleanLine_find_same {line : Nat} {l : Line} (hl : KMap.find s.mem.lines line = some l) :
    ∃ m, KMap.find (s.cleanLine line).mem.lines line = some m ∧ l.CleanedTo m := by
  unfold State.cleanLine
  simp only [hl]
  split
  · rename_i h
    refine ⟨l, hl, rfl, rfl, fun hlive y hy => ?_⟩
    simp only [hlive, Bool.false_or, Bool.not_eq_true', List.any_eq_false] at h
    simpa [Gran.dirty] using h y hy
  · refine ⟨_, State.putLine_find_same _ _ _, rfl, rfl, fun _ y hy => ?_⟩
    obtain ⟨i, -, rfl⟩ := List.mem_map.1 hy
    rfl

theorem State.cleanLine_find_ne {line x : Nat} (h : x ≠ line) :
    KMap.find (s.cleanLine line).mem.lines x = KMap.find s.mem.lines x := by
  unfold State.cleanLine
  split
  · split
    · rfl
    · refine (State.putLine_find_ne _ _ h).trans (congrArg (KMap.find · x) ?_)
      exact (State.acceptLine_lines _ _).trans (State.settle_lines s line)
  · rfl

theorem State.bankCount_steady (a k : Nat) : State.Steady s (s.bankCount a k) := ⟨rfl, rfl, rfl, rfl, rfl, fun _ _ _ _ => rfl⟩

theorem State.cleanLine_steady (line : Nat) : State.Steady s (s.cleanLine line) := by
  unfold State.cleanLine
  split
  · split
    · exact .refl s
    · exact (((State.settle_steady s line).trans (State.acceptLine_steady _ _)).trans (State.bankCount_steady _ _ _)).trans
        (State.putLine_steady _ _ _)
  · exact .refl s

/-! ### DEAD_MARK (R247) -/

/-- What a dead mark leaves of a line: a pinned one stands, one in a transient buffer is gone, any other keeps its tag alone. -/
def Line.deadMarked (l : Line) : Option Line :=
  if l.pinned then some l else if l.region = none then none
  else some { l with dead := true, form := 0, g := List.replicate 4 Gran.reset }

theorem Line.deadMarked_twice (l : Line) : l.deadMarked.bind Line.deadMarked = l.deadMarked := by
  unfold Line.deadMarked
  split
  · rename_i h
    simp [h]
  · rename_i h
    split
    · rfl
    · rename_i hr
      simp [h, hr]

theorem State.deadMarkLine_find_same (line : Nat) :
    KMap.find (s.deadMarkLine line).mem.lines line = (KMap.find s.mem.lines line).bind Line.deadMarked := by
  unfold State.deadMarkLine Line.deadMarked
  cases hl : KMap.find s.mem.lines line with
  | none => simpa using hl
  | some l =>
    cases hp : l.pinned with
    | true => simp [hp, hl]
    | false =>
      cases hr : l.region with
      | none => simp [hp, hr, KMap.find_del_same]
      | some r => simp [hp, hr, State.putLine_find_same]

theorem State.deadMarkLine_find_ne {line x : Nat} (h : x ≠ line) :
    KMap.find (s.deadMarkLine line).mem.lines x = KMap.find s.mem.lines x := by
  unfold State.deadMarkLine
  split
  · split
    · rfl
    · split
      · exact KMap.find_del_ne _ h
      · exact State.putLine_find_ne _ _ h
  · rfl

/-- A dead mark writes nothing back (R247). -/
theorem State.deadMarkLine_below (line : Nat) :
    (s.deadMarkLine line).mem.hbm = s.mem.hbm ∧ (s.deadMarkLine line).mem.wb = s.mem.wb := by
  unfold State.deadMarkLine
  split
  · split
    · exact ⟨rfl, rfl⟩
    · split <;> exact ⟨rfl, rfl⟩
  · exact ⟨rfl, rfl⟩

theorem State.deadMarkLine_steady (line : Nat) : State.Steady s (s.deadMarkLine line) := by
  unfold State.deadMarkLine
  split
  · split
    · exact .refl s
    · split <;> exact ⟨rfl, rfl, rfl, rfl, rfl, fun _ _ _ _ => rfl⟩
  · exact .refl s

/-- Marking twice is marking once, so a run of marks is one mark of each line that it names. -/
theorem foldl_deadMarkLine_find (xs : List Nat) (s : State) (x : Nat) :
    KMap.find (xs.foldl State.deadMarkLine s).mem.lines x =
      if x ∈ xs then (KMap.find s.mem.lines x).bind Line.deadMarked else KMap.find s.mem.lines x := by
  induction xs generalizing s with
  | nil => simp
  | cons y ys ih =>
    rw [List.foldl_cons, ih]
    by_cases hy : x = y
    · subst hy
      rw [State.deadMarkLine_find_same]
      cases KMap.find s.mem.lines x with
      | none => simp
      | some l => simp [Line.deadMarked_twice]
    · rw [State.deadMarkLine_find_ne s hy]
      simp [hy]

/-! ### UNPIN (R241) -/

theorem State.unpinLine_of_pinned {line : Nat} {l : Line} (hl : KMap.find s.mem.lines line = some l) (hp : l.pinned = true) :
    s.unpinLine line = s.evict line := by
  simp [State.unpinLine, hl, hp]

theorem State.unpinLine_of_unpinned {line : Nat} {l : Line} (hl : KMap.find s.mem.lines line = some l) (hp : l.pinned = false) :
    s.unpinLine line = s := by
  simp [State.unpinLine, hl, hp]

/-- An unpin removes the line or leaves the state as it is. -/
theorem State.unpinLine_cases (line : Nat) : s.unpinLine line = s.evict line ∨ s.unpinLine line = s := by
  unfold State.unpinLine
  split
  · split
    · exact .inl rfl
    · exact .inr rfl
  · exact .inr rfl

theorem State.unpinLine_find_ne {line x : Nat} (h : x ≠ line) :
    KMap.find (s.unpinLine line).mem.lines x = KMap.find s.mem.lines x := by
  rcases State.unpinLine_cases s line with e | e <;> rw [e]
  exact State.evict_find_ne s h

theorem State.unpinLine_find_none {line x : Nat} (h : KMap.find s.mem.lines x = none) :
    KMap.find (s.unpinLine line).mem.lines x = none := by
  rcases State.unpinLine_cases s line with e | e <;> rw [e]
  · by_cases hx : x = line
    · rw [hx, State.evict_find_same]
    · rwa [State.evict_find_ne s hx]
  · exact h

theorem State.unpinLine_hbm (line : Nat) : (s.unpinLine line).mem.hbm = s.mem.hbm := by
  rcases State.unpinLine_cases s line with e | e <;> rw [e]
  exact State.evict_hbm s line

theorem State.unpinLine_keeps_wb {w : WriteBack} {line : Nat} (h : w ∈ s.mem.wb) : w ∈ (s.unpinLine line).mem.wb := by
  rcases State.unpinLine_cases s line with e | e <;> rw [e]
  · exact State.evict_keeps_wb s h
  · exact h

theorem State.unpinLine_steady (line : Nat) : State.Steady s (s.unpinLine line) := by
  rcases State.unpinLine_cases s line with e | e <;> rw [e]
  · exact State.evict_steady s line
  · exact .refl s

/-! ### PIN (R241) -/

/-- Whether a line stands pinned. -/
def State.pinnedAt (s : State) (x : Nat) : Bool := (KMap.find s.mem.lines x).map (·.pinned) == some true

theorem State.pinnedAt_of_find {t : State} {x : Nat} (h : KMap.find t.mem.lines x = KMap.find s.mem.lines x) :
    t.pinnedAt x = s.pinnedAt x := by
  unfold State.pinnedAt
  rw [h]

/-- A pin finds the line pinned, or puts it into a pinned slot, or counts it. -/
theorem State.pinLine_cases (line : Nat) :
    (s.pinnedAt line = true ∧ s.pinLine line = s.settle line) ∨
      s.pinnedAt line = false ∧
        ((∃ m : Line, m.pinned = true ∧ s.pinLine line = (s.settle line).putLine line m) ∨
          s.pinLine line = ((s.settle line).add F.cstOpResultNotPinned 1).setEvent F.cstEventsPinFail) := by
  unfold State.pinLine State.pinnedAt
  dsimp only
  rw [State.settle_lines]
  cases hl : KMap.find s.mem.lines line with
  | none =>
    refine .inr ⟨rfl, ?_⟩
    simp only [Option.map_none, Option.getD_none, Bool.false_eq_true, if_false]
    split
    · exact .inl ⟨_, rfl, rfl⟩
    · exact .inr rfl
  | some l =>
    cases hp : l.pinned with
    | true => exact .inl ⟨by simp [hp], by simp [hp]⟩
    | false =>
      refine .inr ⟨by simp [hp], ?_⟩
      simp only [Option.map_some, Option.getD_some, hp, Bool.false_eq_true, if_false]
      split
      · exact .inl ⟨_, rfl, rfl⟩
      · exact .inr rfl

theorem State.countUnpinned_steady :
    State.Steady s ((s.add F.cstOpResultNotPinned 1).setEvent F.cstEventsPinFail) := by
  have hadd : State.Steady s (s.add F.cstOpResultNotPinned 1) :=
    ⟨rfl, rfl, rfl, rfl, rfl, fun r _ _ h => State.reg_setReg_ne s _ h⟩
  exact hadd.trans (State.setEvent_steady _ rfl)

theorem State.pinLine_steady (line : Nat) : State.Steady s (s.pinLine line) := by
  have hsettle := State.settle_steady s line
  rcases State.pinLine_cases s line with ⟨-, e⟩ | ⟨-, ⟨m, -, e⟩ | e⟩ <;> rw [e]
  · exact hsettle
  · exact hsettle.trans (State.putLine_steady _ _ _)
  · exact hsettle.trans (State.countUnpinned_steady _)

theorem State.countUnpinned_mem :
    ((s.add F.cstOpResultNotPinned 1).setEvent F.cstEventsPinFail).mem = s.mem := by
  rw [State.setEvent_mem]
  rfl

theorem State.pinLine_find_ne {line x : Nat} (h : x ≠ line) :
    KMap.find (s.pinLine line).mem.lines x = KMap.find s.mem.lines x := by
  rw [← State.settle_lines s line]
  rcases State.pinLine_cases s line with ⟨-, e⟩ | ⟨-, ⟨m, -, e⟩ | e⟩ <;> rw [e]
  · exact State.putLine_find_ne _ _ h
  · rw [State.countUnpinned_mem]

/-- A resident line stays resident, and a pinned one as it is. -/
theorem State.pinLine_keeps {line x : Nat} {l : Line} (hl : KMap.find s.mem.lines x = some l) :
    ∃ m, KMap.find (s.pinLine line).mem.lines x = some m ∧ (l.pinned = true → m = l) := by
  have hsettle : KMap.find (s.settle line).mem.lines x = some l := by rwa [State.settle_lines]
  by_cases hx : x = line
  · subst hx
    rcases State.pinLine_cases s x with ⟨-, e⟩ | ⟨hun, ⟨m, -, e⟩ | e⟩ <;> rw [e]
    · exact ⟨l, hsettle, fun _ => rfl⟩
    · refine ⟨m, State.putLine_find_same _ _ _, fun hp => ?_⟩
      simp [State.pinnedAt, hl, hp] at hun
    · rw [State.countUnpinned_mem]
      exact ⟨l, hsettle, fun _ => rfl⟩
  · exact ⟨l, (State.pinLine_find_ne s hx).trans hl, fun _ => rfl⟩

/-- A pin of a line without a write-back on its way touches neither HBM nor the write-back buffer. -/
theorem State.pinLine_below {line : Nat} (hwb : ∀ w ∈ s.mem.wb, w.line ≠ line) :
    (s.pinLine line).mem.hbm = s.mem.hbm ∧ (s.pinLine line).mem.wb = s.mem.wb := by
  rcases State.pinLine_cases s line with ⟨-, e⟩ | ⟨-, ⟨m, -, e⟩ | e⟩ <;> rw [e, State.settle_of_none s hwb]
  · exact ⟨rfl, rfl⟩
  · exact ⟨rfl, rfl⟩
  · rw [State.countUnpinned_mem]
    exact ⟨rfl, rfl⟩

theorem State.countUnpinned_rd :
    ((s.add F.cstOpResultNotPinned 1).setEvent F.cstEventsPinFail).rd F.cstOpResultNotPinned =
      (s.rd F.cstOpResultNotPinned + 1) % 2 ^ 32 := by
  rw [State.rd_of_reg (State.setEvent_store_reg _ rfl (by decide) (by decide))]
  exact State.rd_wr_same s F.cstOpResultNotPinned _ (by decide)

/-- A pin leaves the line pinned, or OP_RESULT counts it. -/
theorem State.pinLine_counts {line : Nat} (hwb : ∀ w ∈ s.mem.wb, w.line ≠ line) :
    ((s.pinLine line).pinnedAt line = true ∧ (s.pinLine line).rd F.cstOpResultNotPinned = s.rd F.cstOpResultNotPinned) ∨
      ((s.pinLine line).pinnedAt line = false ∧
        (s.pinLine line).rd F.cstOpResultNotPinned = (s.rd F.cstOpResultNotPinned + 1) % 2 ^ 32) := by
  rcases State.pinLine_cases s line with ⟨hpin, e⟩ | ⟨hun, ⟨m, hm, e⟩ | e⟩ <;> rw [e, State.settle_of_none s hwb]
  · exact .inl ⟨hpin, rfl⟩
  · refine .inl ⟨?_, rfl⟩
    simp [State.pinnedAt, State.putLine_find_same, hm]
  · refine .inr ⟨?_, State.countUnpinned_rd s⟩
    rwa [State.pinnedAt_of_find s (by rw [State.countUnpinned_mem])]

/-- What no step of a run names reads as before it. -/
theorem foldl_find_not_mem {f : State → Nat → State}
    (hf : ∀ (s : State) {line x : Nat}, x ≠ line → KMap.find (f s line).mem.lines x = KMap.find s.mem.lines x) {xs : List Nat}
    (s : State) {x : Nat} (hx : x ∉ xs) : KMap.find (xs.foldl f s).mem.lines x = KMap.find s.mem.lines x :=
  List.foldlRecOn (motive := fun t : State => KMap.find t.mem.lines x = KMap.find s.mem.lines x) xs f rfl
    fun t ht _ hy => (hf t (ne_of_mem_of_not_mem hy hx).symm).trans ht

theorem foldl_pinLine_keeps (xs : List Nat) (s : State) {x : Nat} {l : Line} (hl : KMap.find s.mem.lines x = some l) :
    ∃ m, KMap.find (xs.foldl State.pinLine s).mem.lines x = some m ∧ (l.pinned = true → m = l) := by
  refine List.foldlRecOn (motive := fun t : State => ∃ m, KMap.find t.mem.lines x = some m ∧ (l.pinned = true → m = l)) xs _
    ⟨l, hl, fun _ => rfl⟩ ?_
  rintro t ⟨m, hm, hml⟩ y -
  obtain ⟨n, hn, hnm⟩ := State.pinLine_keeps t (line := y) hm
  refine ⟨n, hn, fun hp => ?_⟩
  obtain rfl := hml hp
  exact hnm hp

theorem foldl_pinLine_below (xs : List Nat) (s : State) (hwb : ∀ w ∈ s.mem.wb, w.line ∉ xs) :
    (xs.foldl State.pinLine s).mem.hbm = s.mem.hbm ∧ (xs.foldl State.pinLine s).mem.wb = s.mem.wb := by
  refine List.foldlRecOn (motive := fun t : State => t.mem.hbm = s.mem.hbm ∧ t.mem.wb = s.mem.wb) xs _ ⟨rfl, rfl⟩ ?_
  rintro t ⟨hhbm, htwb⟩ y hy
  obtain ⟨hhbm', hwb'⟩ := State.pinLine_below t (line := y) fun w hw => (ne_of_mem_of_not_mem hy (hwb w (htwb ▸ hw))).symm
  exact ⟨hhbm'.trans hhbm, hwb'.trans htwb⟩

theorem State.rd_lt (f : Field) : s.rd f < 2 ^ f.w := BitVec.isLt _

/-- OP_RESULT counts the lines of a run that it leaves unpinned, modulo its width. -/
theorem foldl_pinLine_counts {xs : List Nat} (hxs : xs.Nodup) (s : State) (hwb : ∀ w ∈ s.mem.wb, w.line ∉ xs) :
    ((xs.filter fun x => !(xs.foldl State.pinLine s).pinnedAt x).length + s.rd F.cstOpResultNotPinned) % 2 ^ 32 =
      (xs.foldl State.pinLine s).rd F.cstOpResultNotPinned := by
  induction xs generalizing s with
  | nil => exact (congrArg (· % 2 ^ 32) (Nat.zero_add _)).trans (Nat.mod_eq_of_lt (State.rd_lt s F.cstOpResultNotPinned))
  | cons x xs ih =>
    obtain ⟨hx, hxs⟩ := List.nodup_cons.1 hxs
    have hwbx : ∀ w ∈ s.mem.wb, w.line ≠ x := fun w hw h => hwb w hw (h ▸ List.mem_cons_self)
    have hwbxs : ∀ w ∈ (s.pinLine x).mem.wb, w.line ∉ xs := fun w hw h =>
      hwb w ((State.pinLine_below s hwbx).2 ▸ hw) (List.mem_cons_of_mem _ h)
    have hrest := ih hxs (s.pinLine x) hwbxs
    have hstands : (xs.foldl State.pinLine (s.pinLine x)).pinnedAt x = (s.pinLine x).pinnedAt x :=
      State.pinnedAt_of_find _ (foldl_find_not_mem State.pinLine_find_ne (s.pinLine x) hx)
    rw [List.foldl_cons, ← hrest, List.filter_cons, hstands]
    rcases State.pinLine_counts s hwbx with ⟨hpin, hrd⟩ | ⟨hun, hrd⟩
    · rw [hpin, hrd]
      rfl
    · rw [hun, hrd]
      simp only [Bool.not_false, if_true, List.length_cons]
      omega

/-! ### One line of an operation, and the operation (R246) -/

theorem State.rangeLine_steady (op line : Nat) : State.Steady s (s.rangeLine op line) := by
  unfold State.rangeLine
  split
  · exact State.cleanLine_steady s line
  · exact State.evict_steady s line
  · exact State.deadMarkLine_steady s line
  · exact State.pinLine_steady s line
  · exact State.unpinLine_steady s line

/-- The state in which a range operation acts on its lines: its number stands, OP_BUSY is set, and a pin's count starts at 0. -/
def State.rangeStarted (s : State) (op : Nat) : State :=
  let s := (s.wr F.cstOpCtrlOp op).wr F.cstStatusOpBusy 1
  if op = 3 then s.setReg .cstOpResult 0 else s

theorem State.rangeStarted_cases (op : Nat) :
    s.rangeStarted op = (s.wr F.cstOpCtrlOp op).wr F.cstStatusOpBusy 1 ∨
      s.rangeStarted op = ((s.wr F.cstOpCtrlOp op).wr F.cstStatusOpBusy 1).setReg .cstOpResult 0 := by
  unfold State.rangeStarted
  dsimp only
  split
  · exact .inr rfl
  · exact .inl rfl

theorem State.rangeStarted_mem (op : Nat) : (s.rangeStarted op).mem = s.mem := by
  rcases State.rangeStarted_cases s op with e | e <;> rw [e] <;> rfl

theorem State.rangeStarted_ten (op : Nat) : (s.rangeStarted op).ten = s.ten := by
  rcases State.rangeStarted_cases s op with e | e <;> rw [e] <;> rfl

theorem State.rangeStarted_rd (op : Nat) (f : Field) (h : f.reg.offset ≠ Reg.cstOpResult.offset) :
    (s.rangeStarted op).rd f = ((s.wr F.cstOpCtrlOp op).wr F.cstStatusOpBusy 1).rd f := by
  rcases State.rangeStarted_cases s op with e | e <;> rw [e]
  exact State.rd_setReg_ne _ _ h

theorem State.rangeStarted_busy (op : Nat) : (s.rangeStarted op).has F.cstStatusOpBusy = true := by
  unfold State.has
  rw [State.rangeStarted_rd s op _ (by decide), State.rd_wr_same _ _ _ (by decide)]
  rfl

theorem State.rangeStarted_op (op : Nat) : (s.rangeStarted op).rd F.cstOpCtrlOp = op % 8 := by
  rw [State.rangeStarted_rd s op _ (by decide), State.rd_wr_reg _ _ (by decide), State.rd_wr_same _ _ _ (by decide)]
  rfl

theorem State.rangeStarted_ready (op : Nat) : (s.rangeStarted op).has F.cstStatusReady = s.has F.cstStatusReady := by
  unfold State.has
  have hbusy (t : State) : (t.wr F.cstStatusOpBusy 1).rd F.cstStatusReady = t.rd F.cstStatusReady :=
    State.rd_wr_field t _ (by decide) rfl (by decide)
  rw [State.rangeStarted_rd s op _ (by decide), hbusy, State.rd_wr_reg _ _ (by decide)]

theorem State.rangeStarted_home (op a : Nat) : (s.rangeStarted op).home a = s.home a := by
  refine State.home_of_slicemap (fun w => ?_) a
  have hwritten : ((s.wr F.cstOpCtrlOp op).wr F.cstStatusOpBusy 1).reg (.cstSlicemap w) = s.reg (.cstSlicemap w) :=
    (State.reg_setReg_ne _ _ (Reg.slicemap_offset_ne (by decide) w)).trans
      (State.reg_setReg_ne s _ (Reg.slicemap_offset_ne (by decide) w))
  rcases State.rangeStarted_cases s op with e | e <;> rw [e]
  · exact hwritten
  · exact (State.reg_setReg_ne _ _ (Reg.slicemap_offset_ne (by decide) w)).trans hwritten

theorem State.rangeStarted_isLocked (op x : Nat) : (s.rangeStarted op).isLocked x = s.isLocked x :=
  State.isLocked_of (by rw [State.rangeStarted_mem]) (State.rangeStarted_home s op) x

theorem State.rangeStarted_rangeWaits (op x : Nat) : (s.rangeStarted op).rangeWaits x = s.rangeWaits x := by
  unfold State.rangeWaits
  rw [State.rangeStarted_isLocked, State.rangeStarted_ready]

/-- Operation `op` done on each of some lines. -/
def State.runLines (s : State) (op : Nat) (xs : List Nat) : State := xs.foldl (fun s x => s.rangeLine op x) s

theorem State.runLines_steady (op : Nat) (xs : List Nat) : State.Steady s (s.runLines op xs) :=
  .foldl (fun s x => State.rangeLine_steady s op x) _ _

/-- The range operation that runs, replaced. -/
def State.setRangeOp (s : State) (o : Option RangeOp) : State := { s with mem := { s.mem with op := o } }

/-- LOCK_WAIT sets when one of some lines is locked (R245). -/
def State.seeLocks (s : State) (xs : List Nat) : State := if xs.any s.isLocked then s.setEvent F.cstEventsLockWait else s

/-- The state after an operation has acted on every line that it has to visit. -/
def State.rangeDone (s : State) (op : Nat) : State := (s.rangeStarted op).runLines op (s.rangeLines op)

theorem State.rangeDone_steady (op : Nat) : State.Steady (s.rangeStarted op) (s.rangeDone op) :=
  State.runLines_steady _ _ _

theorem State.rangeDone_ten (op : Nat) : (s.rangeDone op).ten = s.ten :=
  (State.rangeDone_steady s op).ten.trans (State.rangeStarted_ten s op)

theorem State.rangeDone_busy (op : Nat) : (s.rangeDone op).has F.cstStatusOpBusy = true :=
  (State.has_of_reg (State.rangeDone_steady s op).status).trans (State.rangeStarted_busy s op)

theorem State.rangeDone_op (op : Nat) : (s.rangeDone op).rd F.cstOpCtrlOp = op % 8 :=
  (State.rd_of_reg (State.rangeDone_steady s op).opCtrl).trans (State.rangeStarted_op s op)

theorem State.rangeDone_isLocked (op x : Nat) : (s.rangeDone op).isLocked x = s.isLocked x :=
  ((State.rangeDone_steady s op).isLocked x).trans (State.rangeStarted_isLocked s op x)

/-- An operation with a length, none running: the lines that need not wait are done, the others stand in what then runs. -/
theorem State.rangeOp_runs {op : Nat} (hbusy : s.has F.cstStatusOpBusy = false) (hlen : s.rd F.cstOpLenLines ≠ 0) :
    s.rangeOp op =
      (((s.rangeStarted op).runLines op ((s.rangeLines op).filter fun x => !(s.rangeStarted op).rangeWaits x)).seeLocks
        (s.rangeLines op)).setRangeOp (some { op := op, lines := (s.rangeLines op).filter (s.rangeStarted op).rangeWaits }) := by
  unfold State.rangeOp
  rw [if_neg (by simp [hbusy]), if_neg hlen]
  rfl

/-- A range operation that finds none running and no line of its range locked does all of its lines (R246). -/
theorem State.rangeOp_unlocked {op : Nat} (hbusy : s.has F.cstStatusOpBusy = false) (hlen : s.rd F.cstOpLenLines ≠ 0)
    (hfree : ∀ x ∈ s.rangeLines op, s.rangeWaits x = false) :
    s.rangeOp op = (s.rangeDone op).setRangeOp (some { op := op, lines := [] }) := by
  have hwait : (s.rangeLines op).filter (s.rangeStarted op).rangeWaits = [] :=
    List.filter_eq_nil_iff.2 fun x hx => by simp [State.rangeStarted_rangeWaits, hfree x hx]
  have hnow : ((s.rangeLines op).filter fun x => !(s.rangeStarted op).rangeWaits x) = s.rangeLines op :=
    List.filter_eq_self.2 fun x hx => by simp [State.rangeStarted_rangeWaits, hfree x hx]
  have hlocked : (s.rangeDone op).seeLocks (s.rangeLines op) = s.rangeDone op := by
    refine if_neg ?_
    simp only [List.any_eq_true, not_exists, not_and, Bool.not_eq_true]
    intro x hx
    have hx := hfree x hx
    simp only [State.rangeWaits, Bool.or_eq_false_iff] at hx
    exact (State.rangeDone_isLocked s op x).trans hx.1
  rw [State.rangeOp_runs s hbusy hlen, hwait, hnow]
  exact congrArg (State.setRangeOp · _) hlocked

/-! ### The lines of a range -/

/-- Whether a line lies in the range that OP_BASE and OP_LEN give. -/
def State.InRange (s : State) (x : Nat) : Prop := s.rd F.cstOpBaseLine ≤ x ∧ x < s.rd F.cstOpBaseLine + s.rd F.cstOpLenLines

theorem State.rangeLines_pin : s.rangeLines 3 = upto (s.rd F.cstOpBaseLine) (s.rd F.cstOpLenLines) := rfl

variable {s}

theorem State.inRange_of_mem_rangeLines {op x : Nat} (hop : op ≠ 3) (h : x ∈ s.rangeLines op) : s.InRange x := by
  simp only [State.rangeLines, hop, if_false, List.mem_map, List.mem_filter, decide_eq_true_eq] at h
  obtain ⟨e, ⟨-, he⟩, rfl⟩ := h
  exact he

theorem State.mem_rangeLines {op x : Nat} {l : Line} (hop : op ≠ 3) (hr : s.InRange x) (hl : KMap.find s.mem.lines x = some l) :
    x ∈ s.rangeLines op := by
  simp only [State.rangeLines, hop, if_false, List.mem_map, List.mem_filter, decide_eq_true_eq]
  exact ⟨(x, l), ⟨KMap.mem_of_find hl, hr⟩, rfl⟩

theorem State.not_mem_rangeLines_of_none {op x : Nat} (hop : op ≠ 3) (hl : KMap.find s.mem.lines x = none) :
    x ∉ s.rangeLines op := by
  simp only [State.rangeLines, hop, if_false, List.mem_map, List.mem_filter]
  rintro ⟨e, ⟨he, -⟩, rfl⟩
  exact KMap.ne_of_find_none hl he rfl

/-! ### What each operation leaves -/

variable (s)

theorem State.rangeStarted_find (op x : Nat) : KMap.find (s.rangeStarted op).mem.lines x = KMap.find s.mem.lines x := by
  rw [State.rangeStarted_mem]

theorem State.writeBackDone_cleans {x : Nat} {l : Line} (hr : s.InRange x) (hl : KMap.find s.mem.lines x = some l) :
    ∃ m, KMap.find (s.rangeDone 0).mem.lines x = some m ∧ l.CleanedTo m := by
  refine foldl_establishes (P := fun t : State => KMap.find t.mem.lines x = some l)
    (Q := fun t : State => ∃ m, KMap.find t.mem.lines x = some m ∧ l.CleanedTo m) (State.mem_rangeLines (op := 0) (by decide) hr hl)
    (fun t y hy ht => (State.cleanLine_find_ne t (Ne.symm hy)).trans ht) (fun t ht => State.cleanLine_find_same t ht) ?_
    ((State.rangeStarted_find s 0 x).trans hl)
  rintro t y ⟨m, hm, hlm⟩
  by_cases hy : x = y
  · subst hy
    obtain ⟨n, hn, hmn⟩ := State.cleanLine_find_same t hm
    exact ⟨n, hn, hlm.trans hmn⟩
  · exact ⟨m, (State.cleanLine_find_ne t hy).trans hm, hlm⟩

theorem State.writeBackDone_find {x : Nat} (hr : ¬ s.InRange x) :
    KMap.find (s.rangeDone 0).mem.lines x = KMap.find s.mem.lines x :=
  (foldl_find_not_mem State.cleanLine_find_ne (s.rangeStarted 0)
    fun hx => hr (State.inRange_of_mem_rangeLines (op := 0) (by decide) hx)).trans (State.rangeStarted_find s 0 x)

theorem State.flushDone_find (x : Nat) :
    KMap.find (s.rangeDone 1).mem.lines x = if x ∈ s.rangeLines 1 then none else KMap.find s.mem.lines x :=
  (foldl_find_of_del State.evict_lines (s.rangeLines 1) (s.rangeStarted 1) x).trans (by rw [State.rangeStarted_find])

theorem State.flushDone_find_in {x : Nat} (hr : s.InRange x) : KMap.find (s.rangeDone 1).mem.lines x = none := by
  rw [State.flushDone_find]
  cases hl : KMap.find s.mem.lines x with
  | none => exact ite_self _
  | some l => exact if_pos (State.mem_rangeLines (by decide) hr hl)

theorem State.flushDone_find_out {x : Nat} (hr : ¬ s.InRange x) :
    KMap.find (s.rangeDone 1).mem.lines x = KMap.find s.mem.lines x := by
  rw [State.flushDone_find]
  exact if_neg fun hx => hr (State.inRange_of_mem_rangeLines (by decide) hx)

theorem State.flushDone_hbm : (s.rangeDone 1).mem.hbm = s.mem.hbm :=
  (foldl_keeps (g := fun t : State => t.mem.hbm) State.evict_hbm _ (s.rangeStarted 1)).trans (by rw [State.rangeStarted_mem])

/-- Where a line stands, and which slice is its home, until its turn comes. -/
def State.StandsAs (s t : State) (x : Nat) : Prop :=
  KMap.find t.mem.lines x = KMap.find s.mem.lines x ∧ ∀ a, t.home a = s.home a

theorem State.rangeStarted_standsAs (op x : Nat) : s.StandsAs (s.rangeStarted op) x :=
  ⟨State.rangeStarted_find s op x, State.rangeStarted_home s op⟩

variable {s} in
theorem State.StandsAs.step {t u : State} {x : Nat} (h : s.StandsAs t x) (hu : State.Steady t u)
    (hfind : KMap.find u.mem.lines x = KMap.find t.mem.lines x) : s.StandsAs u x :=
  ⟨hfind.trans h.1, fun a => (hu.home a).trans (h.2 a)⟩

variable {s} in
/-- The removal of a line that stands as in `s` moves its dirty data to the write-back buffer. -/
theorem State.StandsAs.mem_evict_wb {t : State} {x : Nat} {l : Line} (h : s.StandsAs t x) (hl : KMap.find s.mem.lines x = some l)
    (hdead : l.dead = false) (hdirty : l.g.any Gran.dirty = true) : ⟨s.home (x * 256), x, l.g⟩ ∈ (t.evict x).mem.wb := by
  obtain ⟨hfind, hhome⟩ := h
  rw [← hhome]
  exact State.mem_evict_wb t (hfind.trans hl) hdead hdirty

theorem State.flushDone_wb {x : Nat} {l : Line} (hr : s.InRange x) (hl : KMap.find s.mem.lines x = some l) (hdead : l.dead = false)
    (hdirty : l.g.any Gran.dirty = true) : ⟨s.home (x * 256), x, l.g⟩ ∈ (s.rangeDone 1).mem.wb :=
  foldl_establishes (P := fun t => s.StandsAs t x) (Q := fun t : State => ⟨s.home (x * 256), x, l.g⟩ ∈ t.mem.wb)
    (State.mem_rangeLines (op := 1) (by decide) hr hl)
    (fun t y hy ht => ht.step (State.evict_steady t y) (State.evict_find_ne t (Ne.symm hy)))
    (fun _ ht => ht.mem_evict_wb hl hdead hdirty) (fun t _ ht => State.evict_keeps_wb t ht) (State.rangeStarted_standsAs s 1 x)

theorem State.deadMarkDone_find (x : Nat) :
    KMap.find (s.rangeDone 2).mem.lines x =
      if x ∈ s.rangeLines 2 then (KMap.find s.mem.lines x).bind Line.deadMarked else KMap.find s.mem.lines x :=
  (foldl_deadMarkLine_find (s.rangeLines 2) (s.rangeStarted 2) x).trans (by rw [State.rangeStarted_find])

theorem State.deadMarkDone_find_in {x : Nat} {l : Line} (hr : s.InRange x) (hl : KMap.find s.mem.lines x = some l) :
    KMap.find (s.rangeDone 2).mem.lines x = l.deadMarked := by
  rw [State.deadMarkDone_find, if_pos (State.mem_rangeLines (by decide) hr hl), hl]
  rfl

theorem State.deadMarkDone_find_out {x : Nat} (h : ¬ s.InRange x ∨ KMap.find s.mem.lines x = none) :
    KMap.find (s.rangeDone 2).mem.lines x = KMap.find s.mem.lines x := by
  rw [State.deadMarkDone_find]
  refine if_neg fun hx => ?_
  rcases h with hr | hl
  · exact hr (State.inRange_of_mem_rangeLines (by decide) hx)
  · exact State.not_mem_rangeLines_of_none (by decide) hl hx

theorem State.deadMarkDone_below : (s.rangeDone 2).mem.hbm = s.mem.hbm ∧ (s.rangeDone 2).mem.wb = s.mem.wb := by
  have hhbm := foldl_keeps (g := fun t : State => t.mem.hbm) (fun t y => (State.deadMarkLine_below t y).1) (s.rangeLines 2)
    (s.rangeStarted 2)
  have hwb := foldl_keeps (g := fun t : State => t.mem.wb) (fun t y => (State.deadMarkLine_below t y).2) (s.rangeLines 2)
    (s.rangeStarted 2)
  rw [State.rangeStarted_mem] at hhbm hwb
  exact ⟨hhbm, hwb⟩

theorem State.pinStarted_rd : (s.rangeStarted 3).rd F.cstOpResultNotPinned = 0 := by
  have hreg : (s.rangeStarted 3).reg F.cstOpResultNotPinned.reg = 0 := State.reg_setReg_same _ _ _
  unfold State.rd
  rw [hreg]
  rfl

section pin
variable {s} (hwb : ∀ w ∈ s.mem.wb, ¬ s.InRange w.line)
include hwb

theorem State.pinStarted_wb : ∀ w ∈ (s.rangeStarted 3).mem.wb, w.line ∉ s.rangeLines 3 := by
  intro w hw hx
  rw [State.rangeStarted_mem] at hw
  rw [State.rangeLines_pin, mem_upto] at hx
  exact hwb w hw hx

theorem State.pinDone_counts :
    ((upto (s.rd F.cstOpBaseLine) (s.rd F.cstOpLenLines)).filter fun x => !(s.rangeDone 3).pinnedAt x).length % 2 ^ 32 =
      (s.rangeDone 3).rd F.cstOpResultNotPinned := by
  have hcount := foldl_pinLine_counts (xs := s.rangeLines 3) (nodup_upto _ _) (s.rangeStarted 3) (State.pinStarted_wb hwb)
  rw [State.pinStarted_rd, Nat.add_zero] at hcount
  exact hcount

theorem State.pinDone_below : (s.rangeDone 3).mem.hbm = s.mem.hbm ∧ (s.rangeDone 3).mem.wb = s.mem.wb := by
  have hbelow := foldl_pinLine_below (s.rangeLines 3) (s.rangeStarted 3) (State.pinStarted_wb hwb)
  rw [State.rangeStarted_mem] at hbelow
  exact hbelow

end pin

theorem State.pinDone_keeps {x : Nat} {l : Line} (hl : KMap.find s.mem.lines x = some l) :
    ∃ m, KMap.find (s.rangeDone 3).mem.lines x = some m ∧ (l.pinned = true → m = l) :=
  foldl_pinLine_keeps (s.rangeLines 3) (s.rangeStarted 3) ((State.rangeStarted_find s 3 x).trans hl)

theorem State.unpinDone_find_out {x : Nat} (hr : ¬ s.InRange x) :
    KMap.find (s.rangeDone 4).mem.lines x = KMap.find s.mem.lines x :=
  (foldl_find_not_mem State.unpinLine_find_ne (s.rangeStarted 4)
    fun hx => hr (State.inRange_of_mem_rangeLines (op := 4) (by decide) hx)).trans (State.rangeStarted_find s 4 x)

theorem State.unpinDone_hbm : (s.rangeDone 4).mem.hbm = s.mem.hbm :=
  (foldl_keeps (g := fun t : State => t.mem.hbm) State.unpinLine_hbm _ (s.rangeStarted 4)).trans (by rw [State.rangeStarted_mem])

theorem State.unpinDone_find_unpinned {x : Nat} {l : Line} (hl : KMap.find s.mem.lines x = some l) (hp : l.pinned = false) :
    KMap.find (s.rangeDone 4).mem.lines x = some l := by
  refine List.foldlRecOn (motive := fun t : State => KMap.find t.mem.lines x = some l) _ _
    ((State.rangeStarted_find s 4 x).trans hl) fun t ht y _ => ?_
  by_cases hy : x = y
  · subst hy
    exact (congrArg (fun u : State => KMap.find u.mem.lines x) (State.unpinLine_of_unpinned t ht hp)).trans ht
  · exact (State.unpinLine_find_ne t hy).trans ht

section unpinned
variable {s} {x : Nat} {l : Line} (hr : s.InRange x) (hl : KMap.find s.mem.lines x = some l) (hp : l.pinned = true)
include hr hl hp

/-- An unpin removes a pinned line at its turn: what the removal brings about, and later steps keep, holds at the end. -/
theorem State.unpinDone_of_evict {Q : State → Prop} (here : ∀ t, s.StandsAs t x → Q (t.evict x))
    (after : ∀ t y, Q t → Q (t.unpinLine y)) : Q (s.rangeDone 4) := by
  refine foldl_establishes (P := fun t => s.StandsAs t x) (State.mem_rangeLines (op := 4) (by decide) hr hl)
    (fun t y hy ht => ht.step (State.unpinLine_steady t y) (State.unpinLine_find_ne t (Ne.symm hy))) (fun t ht => ?_) after
    (State.rangeStarted_standsAs s 4 x)
  rw [State.unpinLine_of_pinned t (ht.1.trans hl) hp]
  exact here t ht

theorem State.unpinDone_find_pinned : KMap.find (s.rangeDone 4).mem.lines x = none :=
  State.unpinDone_of_evict (Q := fun t => KMap.find t.mem.lines x = none) hr hl hp (fun t _ => State.evict_find_same t x)
    fun t _ ht => State.unpinLine_find_none t ht

theorem State.unpinDone_wb (hdead : l.dead = false) (hdirty : l.g.any Gran.dirty = true) :
    ⟨s.home (x * 256), x, l.g⟩ ∈ (s.rangeDone 4).mem.wb :=
  State.unpinDone_of_evict (Q := fun t => ⟨s.home (x * 256), x, l.g⟩ ∈ t.mem.wb) hr hl hp
    (fun _ ht => ht.mem_evict_wb hl hdead hdirty) fun t _ ht => State.unpinLine_keeps_wb t ht

end unpinned

/-! ### The end of an operation that waited (R245, R246) -/

/-- The state after an operation has done the lines that it waited for. -/
def State.rangeEnded (s : State) (o : RangeOp) : State := ((s.runLines o.op o.lines).setRangeOp none).wr F.cstStatusOpBusy 0

theorem State.rangeOpEnd_unlocked {o : RangeOp} (ho : s.mem.op = some o) (hfree : o.lines.any s.rangeWaits = false) :
    s.rangeOpEnd = (s.rangeEnded o).proceed := by
  unfold State.rangeOpEnd
  simp only [ho, hfree, Bool.false_eq_true, if_false]
  rfl

theorem State.rangeOpEnd_locked {o : RangeOp} (ho : s.mem.op = some o) (hwait : o.lines.any s.rangeWaits = true) :
    s.rangeOpEnd = s := by
  unfold State.rangeOpEnd
  simp only [ho, hwait, if_true]

theorem State.rangeEnded_proceed_lines (o : RangeOp) :
    (s.rangeEnded o).proceed.mem.lines = (s.runLines o.op o.lines).mem.lines := by
  rw [State.proceed_mem]
  rfl

theorem State.rangeEnded_proceed_op (o : RangeOp) : (s.rangeEnded o).proceed.mem.op = none := by
  rw [State.proceed_mem]
  rfl

theorem State.rangeEnded_proceed_busy (o : RangeOp) : (s.rangeEnded o).proceed.has F.cstStatusOpBusy = false := by
  unfold State.has State.rangeEnded
  rw [State.proceed_rd, State.rd_wr_same _ _ _ (by decide)]
  rfl

theorem State.rangeEnded_proceed_ten (o : RangeOp) : (s.rangeEnded o).proceed.ten = s.ten := by
  rw [State.proceed_ten]
  exact (State.runLines_steady s o.op o.lines).ten

end Sys2Proof.Machine
end

section
/-! PROOFS. The statement about range operations of the central store. -/

open Sys2Proof Sys2Proof.Machine

/-- Settles O20: with no line locked an operation is one run over the lines of its range, and each of its steps acts on one line. -/
theorem storeRangeOperations : Obligations.StoreRangeOperations := by
  unfold Obligations.StoreRangeOperations
  refine ⟨?writeBack, ?flush, ?deadMark, ?pin, ?unpin, ?ends, ?waits⟩
  case writeBack =>
    intro s hbusy hlen hfree
    refine ⟨_, congrArg Host.Outcome.next (State.rangeOp_unlocked s hbusy hlen hfree), ?_⟩
    exact ⟨fun x l hlo hhi hl => State.writeBackDone_cleans s ⟨hlo, hhi⟩ hl, fun x hx => State.writeBackDone_find s hx,
      State.rangeDone_busy s 0, State.rangeDone_op s 0, State.rangeDone_ten s 0⟩
  case flush =>
    intro s hbusy hlen hfree
    refine ⟨_, congrArg Host.Outcome.next (State.rangeOp_unlocked s hbusy hlen hfree), ?_⟩
    exact ⟨fun x hlo hhi => ⟨State.flushDone_find_in s ⟨hlo, hhi⟩, fun l hl => State.flushDone_wb s ⟨hlo, hhi⟩ hl⟩,
      fun x hx => State.flushDone_find_out s hx, State.flushDone_hbm s, State.rangeDone_busy s 1, State.rangeDone_op s 1,
      State.rangeDone_ten s 1⟩
  case deadMark =>
    intro s hbusy hlen hfree
    obtain ⟨hhbm, hwb⟩ := State.deadMarkDone_below s
    refine ⟨_, congrArg Host.Outcome.next (State.rangeOp_unlocked s hbusy hlen hfree), ?_⟩
    exact ⟨fun x l hlo hhi hl => State.deadMarkDone_find_in s ⟨hlo, hhi⟩ hl, fun x hx => State.deadMarkDone_find_out s hx, hhbm, hwb,
      State.rangeDone_busy s 2, State.rangeDone_ten s 2⟩
  case pin =>
    intro s hbusy hlen hfree hbuffer
    obtain ⟨hhbm, hwb⟩ := State.pinDone_below hbuffer
    refine ⟨_, congrArg Host.Outcome.next (State.rangeOp_unlocked s hbusy hlen hfree), ?_⟩
    exact ⟨State.pinDone_counts hbuffer, fun x l hl => State.pinDone_keeps s hl, hhbm, hwb, State.rangeDone_busy s 3,
      State.rangeDone_ten s 3⟩
  case unpin =>
    intro s hbusy hlen hfree
    refine ⟨_, congrArg Host.Outcome.next (State.rangeOp_unlocked s hbusy hlen hfree), fun x l hlo hhi hl => ?_, fun x hx =>
      State.unpinDone_find_out s hx, State.unpinDone_hbm s, State.rangeDone_busy s 4, State.rangeDone_ten s 4⟩
    cases hp : l.pinned with
    | true => exact ⟨State.unpinDone_find_pinned ⟨hlo, hhi⟩ hl hp, State.unpinDone_wb ⟨hlo, hhi⟩ hl hp⟩
    | false => exact State.unpinDone_find_unpinned s hl hp
  case ends =>
    intro o s ho hfree
    refine ⟨_, congrArg Host.Outcome.next (State.rangeOpEnd_unlocked s ho hfree), State.rangeEnded_proceed_op s o, State.rangeEnded_proceed_busy s o,
      fun hop x hx => ?_, fun hop x hx l hl => ?_, State.rangeEnded_proceed_ten s o⟩
    · rw [State.rangeEnded_proceed_lines, hop]
      exact (foldl_find_of_del State.evict_lines o.lines s x).trans (if_pos hx)
    · rw [State.rangeEnded_proceed_lines, hop]
      refine (foldl_deadMarkLine_find o.lines s x).trans ?_
      rw [if_pos hx, hl]
      rfl
  case waits =>
    intro o s ho hwait
    exact ⟨_, congrArg Host.Outcome.next (State.rangeOpEnd_locked s ho hwait), rfl⟩

end

section
/-! PROOFS. Setting the central store up (R233 to R236, R253): a slice that becomes ready, the slice map, and the partition. -/

namespace Sys2Proof.Machine

variable (s : State)

/-! ### Ranges of the scratchpad -/

/-- A range of the scratchpad window, empty at its end too, is dropped there and nowhere else. -/
theorem State.zeroRange_window {o n : Nat} (h : o + n ≤ 2 ^ 30) :
    s.zeroRange (windowBase + o) n =
      { s with mem := { s.mem with
          scratch := dropRange s.mem.scratch o n
          scratchPoison := dropRange s.mem.scratchPoison (o / 64) (n / 64) } } := by
  have hbase : windowBase + o - windowBase = o := Nat.add_sub_cancel_left _ _
  by_cases hin : inWindow (windowBase + o) = true
  · rw [State.zeroRange, if_pos hin, hbase]
  · have hn : n = 0 := by
      simp only [inWindow, decide_eq_true_eq] at hin
      omega
    have hwb : (s.mem.wb.filter fun w => !decide ((windowBase + o) / 256 ≤ w.line ∧ w.line < (windowBase + o) / 256 + 0)) = s.mem.wb :=
      List.filter_eq_self.2 fun w _ => by
        have hw : ¬ ((windowBase + o) / 256 ≤ w.line ∧ w.line < (windowBase + o) / 256 + 0) := by omega
        simp only [hw, decide_false, Bool.not_false]
    subst hn
    simp only [State.zeroRange, if_neg hin, Nat.zero_div, dropRange_zero, hwb]

theorem State.slice_setSlice_same (q : Nat) (x : Slice) : (s.setSlice q x).slice q = x := KMap.get_set_same _ _ _ _

theorem State.slice_setSlice_ne {p q : Nat} (x : Slice) (h : p ≠ q) : (s.setSlice q x).slice p = s.slice p :=
  KMap.get_set_ne _ _ _ _ h

/-! ### A slice becomes ready (R253) -/

/-- The state in which a slice has started: its lines and its part of the scratchpad are gone. -/
def State.sliceStarted (s : State) (q : Nat) : State :=
  ({ s with mem := { s.mem with
      lines := s.mem.lines.filter fun x => s.home (x.1 * 256) != q
      scratch := dropRange s.mem.scratch (q * 2 ^ 28) (2 ^ 28)
      scratchPoison := dropRange s.mem.scratchPoison (q * 2 ^ 28 / 64) (2 ^ 28 / 64) } }).setSlice q
    { Slice.reset with ready := true, arrivals := (s.slice q).arrivals }

/-- READY sets once every slice is ready. -/
def State.seeReady (s : State) : State := if (upto 0 4).all fun i => (s.slice i).ready then s.wr F.cstStatusReady 1 else s

theorem State.seeReady_mem : s.seeReady.mem = s.mem := by
  unfold State.seeReady
  split <;> rfl

theorem State.seeReady_slice (q : Nat) : s.seeReady.slice q = s.slice q := by
  unfold State.slice
  rw [State.seeReady_mem]

theorem State.seeReady_ten : s.seeReady.ten = s.ten := by
  unfold State.seeReady
  split <;> rfl

theorem State.seeReady_out : s.seeReady.out = s.out := by
  unfold State.seeReady
  split <;> rfl

theorem State.seeReady_rd :
    s.seeReady.rd F.cstStatusReady = if (upto 0 4).all fun i => (s.slice i).ready then 1 else s.rd F.cstStatusReady := by
  unfold State.seeReady
  split
  · exact State.rd_wr_same s F.cstStatusReady 1 (by decide)
  · rfl

theorem State.storeReady_starts {q : Nat} (hq : q < 4) (hclk : 2 ≤ s.clk.released) (hr : (s.slice q).ready = false) :
    s.storeReady q = (s.sliceStarted q).seeReady := by
  have hclk' : ¬ s.clk.released < 2 := Nat.not_lt.2 hclk
  unfold State.storeReady
  rw [if_neg (by simp [hclk', hr])]
  dsimp only
  rw [State.zeroRange_window _ (by omega)]
  rfl

theorem State.sliceStarted_slice_same (q : Nat) :
    (s.sliceStarted q).slice q = { Slice.reset with ready := true, arrivals := (s.slice q).arrivals } :=
  State.slice_setSlice_same _ _ _

theorem State.sliceStarted_slice_ne {p q : Nat} (h : p ≠ q) : (s.sliceStarted q).slice p = s.slice p :=
  State.slice_setSlice_ne _ _ h

theorem State.sliceStarted_ready (q i : Nat) : ((s.sliceStarted q).slice i).ready = (i == q || (s.slice i).ready) := by
  by_cases h : i = q
  · rw [h, State.sliceStarted_slice_same]
    simp
  · rw [State.sliceStarted_slice_ne s h]
    simp [h]

theorem State.sliceStarted_lines {q : Nat} {x : Nat × Line} (h : x ∈ (s.sliceStarted q).mem.lines) : s.home (x.1 * 256) ≠ q :=
  bne_iff_ne.1 (List.mem_filter.1 h).2

theorem State.sliceStarted_scratch (q o : Nat) :
    KMap.get (s.sliceStarted q).mem.scratch o 0 =
      if q * 2 ^ 28 ≤ o ∧ o < (q + 1) * 2 ^ 28 then 0 else KMap.get s.mem.scratch o 0 := by
  rw [Nat.succ_mul]
  exact KMap.get_dropRange _ _ _ _ _

/-! ### Dead reads (R252) -/

theorem Reg.deadReads_offset_ne {i j : Nat} (h : j ≠ i) : (Reg.cstDeadReads j).offset ≠ (Reg.cstDeadReads i).offset := by
  simp only [Reg.offset]
  omega

/-! ### The slice map (R233) -/

theorem Reg.slicemap_offset_ne_slicemap {i j : Nat} (h : j ≠ i) : (Reg.cstSlicemap j).offset ≠ (Reg.cstSlicemap i).offset := by
  simp only [Reg.offset]
  omega

theorem State.slicemapWrite_hint {i : Nat} {v : Word} (hi : i < 24576)
    (h : mapChanged i (s.reg (.cstSlicemap i)).toNat v.toNat = []) : s.slicemapWrite i v = s.setReg (.cstSlicemap i) (v.setWidth 64) := by
  unfold State.slicemapWrite
  rw [if_neg (Nat.not_le.2 hi), if_pos (List.isEmpty_iff.2 h)]

theorem State.slicemapWrite_slice {i : Nat} {v : Word} (hi : i < 24576)
    (h : mapChanged i (s.reg (.cstSlicemap i)).toNat v.toNat ≠ []) :
    s.slicemapWrite i v = { s with mem := { s.mem with mapNew := s.mem.mapNew ++ [(i, v)] } }.wr F.cstStatusMapBusy 1 := by
  unfold State.slicemapWrite
  rw [if_neg (Nat.not_le.2 hi), if_neg (fun he => h (List.isEmpty_iff.1 he))]

/-- The entries that wait stand in force, in the order of their writes. -/
def State.putMap (s : State) (xs : List (Nat × Word)) : State :=
  xs.foldl (fun s x => s.setReg (.cstSlicemap x.1) (x.2.setWidth 64)) s

theorem State.putMap_reg_of_none {i : Nat} (xs : List (Nat × Word)) (s : State) (h : (xs.filter fun x => x.1 == i) = []) :
    (s.putMap xs).reg (.cstSlicemap i) = s.reg (.cstSlicemap i) := by
  refine List.foldlRecOn (motive := fun t : State => t.reg (.cstSlicemap i) = s.reg (.cstSlicemap i)) xs _ rfl fun t ht x hx => ?_
  have hne : x.1 ≠ i := fun e => List.filter_eq_nil_iff.1 h x hx (beq_iff_eq.2 e)
  exact (State.reg_setReg_ne _ _ (Reg.slicemap_offset_ne_slicemap (Ne.symm hne))).trans ht

/-- The last write to an entry is the one that stands. -/
theorem State.putMap_reg {xs : List (Nat × Word)} {i : Nat} {v : Word} (s : State)
    (h : (xs.filter fun x => x.1 == i).getLast? = some (i, v)) : (s.putMap xs).reg (.cstSlicemap i) = v.setWidth 64 := by
  induction xs generalizing s with
  | nil => cases h
  | cons x xs ih =>
    cases hrest : (xs.filter fun x => x.1 == i).getLast? with
    | some y =>
      refine ih _ ?_
      rw [List.filter_cons] at h
      split at h
      · rw [List.getLast?_cons, hrest] at h
        rw [hrest]
        exact h
      · exact h
    | none =>
      have hnone := List.getLast?_eq_none_iff.1 hrest
      rw [List.filter_cons, hnone] at h
      split at h
      · obtain rfl : x = (i, v) := Option.some.inj h
        exact (State.putMap_reg_of_none xs _ hnone).trans (State.reg_setReg_same _ _ _)
      · cases h

theorem State.putMap_mem (xs : List (Nat × Word)) : (s.putMap xs).mem = s.mem :=
  foldl_keeps (g := State.mem) (fun s _ => State.setReg_mem s _ _) xs s

theorem State.putMap_ten (xs : List (Nat × Word)) : (s.putMap xs).ten = s.ten :=
  foldl_keeps (g := State.ten) (fun s _ => State.setReg_ten s _ _) xs s

/-- The frames whose slice the waiting entries change. -/
def State.changedFrames (s : State) : List Nat :=
  (s.mem.mapNew.map fun x => mapChanged x.1 (s.reg (.cstSlicemap x.1)).toNat x.2.toNat).flatten

/-- The lines of the changed frames, flushed. -/
def State.framesFlushed (s : State) : State := s.changedFrames.foldl (fun s f => s.flushRange (f * 2 ^ 21) (2 ^ 21)) s

/-- The changes that wait, all ended. -/
def State.mapSettled (s : State) : State := { s with mem := { s.mem with mapNew := [] } }.wr F.cstStatusMapBusy 0

theorem State.mapSettled_busy : s.mapSettled.has F.cstStatusMapBusy = false := by
  unfold State.has State.mapSettled
  rw [State.rd_wr_same _ _ _ (by decide)]
  rfl

theorem State.mapSettled_slicemap (i : Nat) : s.mapSettled.reg (.cstSlicemap i) = s.reg (.cstSlicemap i) :=
  State.reg_setReg_ne _ _ (Reg.slicemap_offset_ne (by decide) i)

/-- The end of the changes with no line locked (R233). -/
theorem State.slicemapChangeEnd_unlocked (hfree : ∀ x ∈ s.mem.lines, s.isLocked x.1 = false) :
    s.slicemapChangeEnd = (s.framesFlushed.putMap s.framesFlushed.mem.mapNew).mapSettled := by
  have hlocked : ¬ (s.mem.lines.any fun x => s.changedFrames.contains (x.1 / 8192) && s.isLocked x.1) = true := by
    simp only [List.any_eq_true, not_exists, not_and]
    intro x hx
    simp [hfree x hx]
  unfold State.slicemapChangeEnd
  exact if_neg hlocked

theorem State.framesFlushed_steady : State.Steady s s.framesFlushed := .foldl (fun s _ => State.flushRange_steady s _ _) _ _

theorem State.framesFlushed_find {f x : Nat} (hf : f ∈ s.changedFrames) (hx : x / 8192 = f) :
    KMap.find s.framesFlushed.mem.lines x = none := by
  refine foldl_establishes (P := fun _ => True) (Q := fun t : State => KMap.find t.mem.lines x = none) hf (fun _ _ _ _ => trivial)
    (fun t _ => ?_) (fun t _ ht => ?_) trivial
  · rw [State.flushRange_find]
    exact if_pos (by omega)
  · rw [State.flushRange_find, ht]
    exact ite_self _

theorem State.mem_changedFrames {i f : Nat} {v : Word} (hi : (i, v) ∈ s.mem.mapNew)
    (hf : f ∈ mapChanged i (s.reg (.cstSlicemap i)).toNat v.toNat) : f ∈ s.changedFrames :=
  List.mem_flatten.2 ⟨_, List.mem_map.2 ⟨_, hi, rfl⟩, hf⟩

/-! ### The partition (R234 to R236) -/

/-- Step 1 of R236 in one slice: the regions that leave the scratchpad lose their contents. -/
def State.takeRegions (s : State) (q : Nat) : State :=
  s.zeroRange (windowBase + q * 2 ^ 28 + s.rd (F.cstPartitionNextScratch q) * 2 ^ 20)
    ((s.rd (F.cstPartitionScratch q) - s.rd (F.cstPartitionNextScratch q)) * 2 ^ 20)

/-- A byte of the window that lies in a region that leaves the scratchpad part of slice `q`. -/
abbrev State.LeavesScratch (s : State) (q o : Nat) : Prop :=
  q * 2 ^ 28 + s.rd (F.cstPartitionNextScratch q) * 2 ^ 20 ≤ o ∧ o < q * 2 ^ 28 + s.rd (F.cstPartitionScratch q) * 2 ^ 20

/-- What a slice asks for, and what it has, lies within its 256 regions. -/
abbrev State.RegionsFit (s : State) (q : Nat) : Prop :=
  s.rd (F.cstPartitionNextScratch q) + s.rd (F.cstPartitionNextPin q) ≤ 256 ∧ s.rd (F.cstPartitionScratch q) ≤ 256

theorem State.takeRegions_drops {q : Nat} (hq : q < 4) (h : s.RegionsFit q) :
    ∃ sc po, s.takeRegions q = { s with mem := { s.mem with scratch := sc, scratchPoison := po } } ∧
      ∀ o, KMap.get sc o 0 = if s.LeavesScratch q o then 0 else KMap.get s.mem.scratch o 0 := by
  obtain ⟨hnext, hnow⟩ := h
  unfold State.takeRegions
  rw [Nat.add_assoc, State.zeroRange_window s (by omega)]
  refine ⟨_, _, rfl, fun o => ?_⟩
  rw [KMap.get_dropRange]
  have hrange : (q * 2 ^ 28 + s.rd (F.cstPartitionNextScratch q) * 2 ^ 20 ≤ o ∧
      o < q * 2 ^ 28 + s.rd (F.cstPartitionNextScratch q) * 2 ^ 20 +
        (s.rd (F.cstPartitionScratch q) - s.rd (F.cstPartitionNextScratch q)) * 2 ^ 20) ↔ s.LeavesScratch q o := by
    omega
  by_cases hin : s.LeavesScratch q o
  · rw [if_pos (hrange.2 hin), if_pos hin]
  · rw [if_neg fun h => hin (hrange.1 h), if_neg hin]

/-- The regions that leave, in every slice of a list. -/
theorem State.takeRegions_run (qs : List Nat) (s : State) (h : ∀ q ∈ qs, q < 4 ∧ s.RegionsFit q) :
    ∃ sc po, qs.foldl State.takeRegions s = { s with mem := { s.mem with scratch := sc, scratchPoison := po } } ∧
      ∀ o, KMap.get sc o 0 = if ∃ q ∈ qs, s.LeavesScratch q o then 0 else KMap.get s.mem.scratch o 0 := by
  induction qs generalizing s with
  | nil => exact ⟨s.mem.scratch, s.mem.scratchPoison, rfl, fun o => by simp⟩
  | cons q qs ih =>
    obtain ⟨hq, hfit⟩ := h q List.mem_cons_self
    obtain ⟨sc, po, hstep, hsc⟩ := State.takeRegions_drops s hq hfit
    obtain ⟨sc', po', hrest, hsc'⟩ := ih (s.takeRegions q) fun p hp => by
      rw [hstep]
      exact h p (List.mem_cons_of_mem _ hp)
    rw [hstep] at hrest hsc'
    refine ⟨sc', po', by rw [List.foldl_cons, hstep, hrest], fun o => ?_⟩
    have hcons : (∃ p ∈ q :: qs, s.LeavesScratch p o) ↔ s.LeavesScratch q o ∨ ∃ p ∈ qs, s.LeavesScratch p o := by
      simp only [List.mem_cons, or_and_right, exists_or, exists_eq_left]
    have hlast : KMap.get sc' o 0 = if ∃ p ∈ qs, s.LeavesScratch p o then 0 else KMap.get sc o 0 := hsc' o
    rw [hlast]
    by_cases hlater : ∃ p ∈ qs, s.LeavesScratch p o
    · rw [if_pos hlater, if_pos (hcons.2 (.inr hlater))]
    · rw [if_neg hlater, hsc]
      by_cases hhere : s.LeavesScratch q o
      · rw [if_pos hhere, if_pos (hcons.2 (.inl hhere))]
      · rw [if_neg hhere, if_neg fun h => (hcons.1 h).elim hhere hlater]

/-- Step 1 of R236 ends: the values are taken and PART_BUSY sets. -/
def State.startApply (s : State) : State :=
  { s with mem := { s.mem with
      applying := some ((upto 0 4).map fun q => (s.rd (F.cstPartitionNextScratch q), s.rd (F.cstPartitionNextPin q))) } }.wr
    F.cstStatusPartBusy 1

theorem State.startApply_busy : s.startApply.has F.cstStatusPartBusy = true := by
  unfold State.has State.startApply
  rw [State.rd_wr_same _ _ _ (by decide)]
  rfl

theorem Reg.partition_offset_ne_status (q : Nat) : (Reg.cstPartition q).offset ≠ Reg.cstStatus.offset := by
  simp only [Reg.offset]
  omega

theorem State.startApply_partition (q : Nat) : s.startApply.reg (.cstPartition q) = s.reg (.cstPartition q) :=
  State.reg_setReg_ne _ _ (Reg.partition_offset_ne_status q)

theorem State.setEvent_partition {e : Field} (he : e.reg = .cstEvents) (q : Nat) :
    (s.setEvent e).reg (.cstPartition q) = s.reg (.cstPartition q) := by
  refine State.setEvent_store_reg s he ?_ ?_ <;> simp only [Reg.offset] <;> omega

theorem State.partitionApply_invalid (hbusy : s.has F.cstStatusPartBusy = false)
    (h : ∃ q ∈ upto 0 4, 256 < s.rd (F.cstPartitionNextScratch q) + s.rd (F.cstPartitionNextPin q)) :
    s.partitionApply = s.setEvent F.cstEventsPartInvalid := by
  have hany : ((upto 0 4).any fun q => decide (256 < s.rd (F.cstPartitionNextScratch q) + s.rd (F.cstPartitionNextPin q))) = true := by
    simpa only [List.any_eq_true, decide_eq_true_eq] using h
  unfold State.partitionApply
  rw [if_neg (by simp [hbusy]), if_pos hany]

theorem State.partitionApply_valid (hbusy : s.has F.cstStatusPartBusy = false) (h : ∀ q ∈ upto 0 4, s.RegionsFit q) :
    s.partitionApply = ((upto 0 4).foldl State.takeRegions s).startApply := by
  have hany : ¬ ((upto 0 4).any fun q => decide (256 < s.rd (F.cstPartitionNextScratch q) + s.rd (F.cstPartitionNextPin q))) = true := by
    simp only [List.any_eq_true, decide_eq_true_eq, not_exists, not_and, Nat.not_lt]
    exact fun q hq => (h q hq).1
  unfold State.partitionApply
  rw [if_neg (by simp [hbusy]), if_neg hany]
  unfold State.startApply
  generalize upto 0 4 = qs
  rfl

/-! ### The end of an apply (R236) -/

/-- A line of a leaving region is removed, and a pinned one sets PIN_FAIL. -/
theorem State.partitionLine_cases (line : Nat) :
    s.partitionLine line = s.evict line ∨ s.partitionLine line = (s.evict line).setEvent F.cstEventsPinFail := by
  unfold State.partitionLine
  split
  · rename_i h
    refine .inl ?_
    unfold State.evict
    rw [h]
  · split
    · exact .inr rfl
    · exact .inl rfl

theorem State.partitionLine_mem (line : Nat) : (s.partitionLine line).mem = (s.evict line).mem := by
  rcases State.partitionLine_cases s line with e | e <;> rw [e]
  exact State.setEvent_mem _ _

theorem State.partitionLine_lines (line : Nat) : (s.partitionLine line).mem.lines = KMap.del s.mem.lines line := by
  rw [State.partitionLine_mem, State.evict_lines]

theorem State.partitionLine_hbm (line : Nat) : (s.partitionLine line).mem.hbm = s.mem.hbm := by
  rw [State.partitionLine_mem, State.evict_hbm]

theorem State.partitionLine_steady (line : Nat) : State.Steady s (s.partitionLine line) := by
  have hevict := State.evict_steady s line
  rcases State.partitionLine_cases s line with e | e <;> rw [e]
  · exact hevict
  · exact hevict.trans (State.setEvent_steady _ rfl)

theorem State.home_lt (a : Nat) : s.home a < 4 := by
  unfold State.home
  split
  · rename_i h
    simp only [inWindow, decide_eq_true_eq] at h
    omega
  · exact Nat.mod_lt _ (by decide)

/-- Which lines an apply takes away depends on the partition and on the homes of the lines. -/
theorem State.Steady.leaving {s t : State} (h : State.Steady s t) (x : Nat) (l : Line) : t.leaving x l = s.leaving x l := by
  have hrd (f : Nat → Field) (hf : ∀ q, (f q).reg = .cstPartition q) : t.rd (f (s.home (x * 256))) = s.rd (f (s.home (x * 256))) :=
    State.rd_of_reg (by rw [hf]; exact h.partition _ (State.home_lt s _))
  have hscratch := hrd F.cstPartitionScratch fun _ => rfl
  have hpin := hrd F.cstPartitionPin fun _ => rfl
  unfold State.leaving State.pinList State.cacheList State.partNext State.partNow
  rw [h.applying, h.home, hscratch, hpin]

/-- The state after the lines of the leaving regions are gone. -/
def State.regionsEmptied (s : State) : State := s.leavingLines.foldl State.partitionLine s

theorem State.regionsEmptied_steady : State.Steady s s.regionsEmptied := .foldl State.partitionLine_steady _ _

theorem State.regionsEmptied_lines :
    s.regionsEmptied.mem.lines = s.mem.lines.filter fun e => !s.leavingLines.contains e.1 :=
  foldl_lines_of_del State.partitionLine_lines _ _

theorem State.regionsEmptied_find (x : Nat) :
    KMap.find s.regionsEmptied.mem.lines x = if x ∈ s.leavingLines then none else KMap.find s.mem.lines x :=
  foldl_find_of_del State.partitionLine_lines _ _ _

theorem State.regionsEmptied_hbm : s.regionsEmptied.mem.hbm = s.mem.hbm :=
  foldl_keeps (g := fun t : State => t.mem.hbm) State.partitionLine_hbm _ _

theorem State.regionsEmptied_leavingLines : s.regionsEmptied.leavingLines = [] := by
  unfold State.leavingLines
  rw [List.map_eq_nil_iff, List.filter_eq_nil_iff]
  intro e he
  rw [State.regionsEmptied_lines, List.mem_filter] at he
  obtain ⟨hmem, hstays⟩ := he
  rw [(State.regionsEmptied_steady s).leaving]
  intro hleaves
  have hin : e.1 ∈ s.leavingLines := List.mem_map.2 ⟨e, List.mem_filter.2 ⟨hmem, hleaves⟩, rfl⟩
  simp [hin] at hstays

/-- SCRATCH, PIN and CACHE of one slice, put in force. -/
def State.putPartition (ps : List (Nat × Nat)) (s : State) (q : Nat) : State :=
  let p := ps.getD q (0, 0)
  ((s.wr (F.cstPartitionScratch q) p.1).wr (F.cstPartitionPin q) p.2).wr (F.cstPartitionCache q) (256 - p.1 - p.2)

/-- The partition of a slice that `p` gives. -/
def State.HasPartition (s : State) (q : Nat) (p : Nat × Nat) : Prop :=
  s.rd (F.cstPartitionScratch q) = p.1 ∧ s.rd (F.cstPartitionPin q) = p.2 ∧ s.rd (F.cstPartitionCache q) = 256 - p.1 - p.2

theorem State.HasPartition.of_reg {s t : State} {q : Nat} {p : Nat × Nat} (h : s.HasPartition q p)
    (hreg : t.reg (.cstPartition q) = s.reg (.cstPartition q)) : t.HasPartition q p := by
  obtain ⟨hscratch, hpin, hcache⟩ := h
  exact ⟨(State.rd_of_reg (f := F.cstPartitionScratch q) hreg).trans hscratch,
    (State.rd_of_reg (f := F.cstPartitionPin q) hreg).trans hpin, (State.rd_of_reg (f := F.cstPartitionCache q) hreg).trans hcache⟩

theorem partitionFields_fit (q : Nat) :
    (F.cstPartitionScratch q).Fits ∧ (F.cstPartitionPin q).Fits ∧ (F.cstPartitionCache q).Fits :=
  ⟨show 18 + 9 ≤ 64 by decide, show 9 + 9 ≤ 64 by decide, show 0 + 9 ≤ 64 by decide⟩

theorem State.putPartition_same {ps : List (Nat × Nat)} (q : Nat) (h : (ps.getD q (0, 0)).1 + (ps.getD q (0, 0)).2 ≤ 256) :
    (State.putPartition ps s q).HasPartition q (ps.getD q (0, 0)) := by
  obtain ⟨hs, hp, hc⟩ := partitionFields_fit q
  have hpin (t : State) (v : Nat) : (t.wr (F.cstPartitionPin q) v).rd (F.cstPartitionScratch q) = t.rd (F.cstPartitionScratch q) :=
    State.rd_wr_field t v hp rfl (.inr (show 9 + 9 ≤ 18 by decide))
  have hcache (t : State) (v : Nat) : (t.wr (F.cstPartitionCache q) v).rd (F.cstPartitionScratch q) = t.rd (F.cstPartitionScratch q) :=
    State.rd_wr_field t v hc rfl (.inr (show 0 + 9 ≤ 18 by decide))
  have hcache' (t : State) (v : Nat) : (t.wr (F.cstPartitionCache q) v).rd (F.cstPartitionPin q) = t.rd (F.cstPartitionPin q) :=
    State.rd_wr_field t v hc rfl (.inr (show 0 + 9 ≤ 9 by decide))
  have hsame {f : Field} (hf : f.Fits) (hw : f.w = 9) (t : State) {v : Nat} (hv : v ≤ 256) : (t.wr f v).rd f = v := by
    rw [State.rd_wr_same _ _ _ hf, hw]
    omega
  unfold State.putPartition State.HasPartition
  dsimp only
  rw [hcache, hpin, hcache']
  exact ⟨hsame hs rfl _ (by omega), hsame hp rfl _ (by omega), hsame hc rfl _ (by omega)⟩

theorem State.putPartition_mem (ps : List (Nat × Nat)) (q : Nat) : (State.putPartition ps s q).mem = s.mem := rfl

theorem State.putPartition_ten (ps : List (Nat × Nat)) (q : Nat) : (State.putPartition ps s q).ten = s.ten := rfl

theorem State.putPartition_reg_ne (ps : List (Nat × Nat)) {p q : Nat} (h : p ≠ q) :
    (State.putPartition ps s q).reg (.cstPartition p) = s.reg (.cstPartition p) := by
  have hoff : (Reg.cstPartition p).offset ≠ (Reg.cstPartition q).offset := by
    simp only [Reg.offset]
    omega
  exact (State.reg_setReg_ne _ _ hoff).trans ((State.reg_setReg_ne _ _ hoff).trans (State.reg_setReg_ne _ _ hoff))

/-- The partition put in force in every slice. -/
def State.putPartitions (s : State) (ps : List (Nat × Nat)) : State := (upto 0 4).foldl (State.putPartition ps) s

theorem State.putPartitions_mem (ps : List (Nat × Nat)) : (s.putPartitions ps).mem = s.mem :=
  foldl_keeps (g := State.mem) (fun s => State.putPartition_mem s ps) _ _

theorem State.putPartitions_ten (ps : List (Nat × Nat)) : (s.putPartitions ps).ten = s.ten :=
  foldl_keeps (g := State.ten) (fun s => State.putPartition_ten s ps) _ _

theorem State.putPartitions_has {ps : List (Nat × Nat)} (h : ∀ p ∈ ps, p.1 + p.2 ≤ 256) {q : Nat} (hq : q ∈ upto 0 4) :
    (s.putPartitions ps).HasPartition q (ps.getD q (0, 0)) := by
  have hget : (ps.getD q (0, 0)).1 + (ps.getD q (0, 0)).2 ≤ 256 := by
    rw [List.getD_eq_getElem?_getD]
    cases hp : ps[q]? with
    | none => decide
    | some p => exact h p (List.mem_of_getElem? hp)
  refine foldl_establishes (P := fun _ => True) (Q := fun t : State => t.HasPartition q (ps.getD q (0, 0))) hq (fun _ _ _ _ => trivial)
    (fun t _ => State.putPartition_same t q hget) (fun t p ht => ?_) trivial
  by_cases hp : q = p
  · subst hp
    exact State.putPartition_same t q hget
  · exact ht.of_reg (State.putPartition_reg_ne t ps hp)

/-- The apply ends: PART_BUSY clears and PART_DONE sets. -/
def State.endApply (s : State) : State :=
  ({ s with mem := { s.mem with applying := none } }.wr F.cstStatusPartBusy 0).setEvent F.cstEventsPartDone

theorem State.partitionApplyEnd_unlocked {ps : List (Nat × Nat)} (hps : s.mem.applying = some ps)
    (hfree : ∀ x ∈ s.leavingLines, s.isLocked x = false) :
    s.partitionApplyEnd = (s.regionsEmptied.putPartitions ps).endApply.proceed := by
  have hall : (s.leavingLines.filter fun x => !s.isLocked x) = s.leavingLines :=
    List.filter_eq_self.2 fun x hx => by simp [hfree x hx]
  have hempty : ¬ (s.regionsEmptied.leavingLines != []) = true := by simp [State.regionsEmptied_leavingLines]
  unfold State.partitionApplyEnd
  simp only [hps, hall]
  exact if_neg hempty

theorem State.endApply_mem : s.endApply.mem = { s.mem with applying := none } := State.setEvent_mem _ _

theorem State.endApply_ten : s.endApply.ten = s.ten := State.setEvent_ten _ _

theorem State.endApply_partition (q : Nat) : s.endApply.reg (.cstPartition q) = s.reg (.cstPartition q) :=
  (State.setEvent_partition _ rfl q).trans (State.reg_setReg_ne _ _ (Reg.partition_offset_ne_status q))

theorem State.endApply_busy : s.endApply.has F.cstStatusPartBusy = false := by
  refine (State.has_of_reg (State.setEvent_store_reg _ rfl (by decide) (by decide))).trans ?_
  unfold State.has
  rw [State.rd_wr_same _ _ _ (by decide)]
  rfl

theorem State.endApply_done : s.endApply.has F.cstEventsPartDone = true := State.setEvent_store_has _ rfl rfl (by decide)

end Sys2Proof.Machine
end

section
/-! PROOFS. The statement about setting the central store up. -/

open Sys2Proof Sys2Proof.Machine

/-- Settles O21: each operation is a run over slices, frames or lines, whose steps act on one of them. -/
theorem storeSetUp : Obligations.StoreSetUp := by
  unfold Obligations.StoreSetUp
  refine ⟨?ready, ?hint, ?slice, ?mapEnd, ?invalid, ?apply, ?applyEnd, ?reads⟩
  case ready =>
    intro q s hclk hr
    refine ⟨_, congrArg Host.Outcome.next (State.storeReady_starts s q.isLt hclk hr), ?_, ?_, ?_, ?_, ?_, ?_, ?_, ?_⟩
    · rw [State.seeReady_slice, State.sliceStarted_slice_same]
    · rw [State.seeReady_mem]
      exact fun x hx => State.sliceStarted_lines s hx
    · rw [State.seeReady_mem]
      exact fun o => State.sliceStarted_scratch s q o
    · rw [State.seeReady_mem]
      rfl
    · intro p hp
      rw [State.seeReady_slice, State.sliceStarted_slice_ne s hp]
    · rw [State.seeReady_rd]
      simp only [State.sliceStarted_ready]
      rfl
    · rw [State.seeReady_ten]
      rfl
    · rw [State.seeReady_out]
      rfl
  case hint =>
    intro i v s hi h
    exact ⟨_, congrArg Host.Outcome.next (State.slicemapWrite_hint s hi h), State.reg_setReg_same _ _ _,
      fun j _ hj => State.reg_setReg_ne s _ (Reg.slicemap_offset_ne_slicemap hj), rfl, rfl⟩
  case slice =>
    intro i v s hi h
    refine ⟨_, congrArg Host.Outcome.next (State.slicemapWrite_slice s hi h), rfl, ?_,
      fun j _ => State.reg_setReg_ne _ _ (Reg.slicemap_offset_ne (by decide) j), rfl⟩
    unfold State.has
    rw [State.rd_wr_same _ _ _ (by decide)]
    rfl
  case mapEnd =>
    intro i v s hi hready hlast hfree
    have hflushed := State.framesFlushed_steady s
    have hmem : (i, v) ∈ s.mem.mapNew := (List.mem_filter.1 (List.mem_of_getLast? hlast)).1
    have hrun : exec .slicemapChangeEnd s =
        .next (s.framesFlushed.putMap s.framesFlushed.mem.mapNew).mapSettled.proceed := by
      change Host.Outcome.next (if s.has F.cstStatusReady then s.slicemapChangeEnd.proceed else s) = _
      rw [if_pos hready, State.slicemapChangeEnd_unlocked s hfree]
    refine ⟨_, hrun, ?_, ?_, ?_, ?_, ?_⟩
    · rw [State.proceed_mem]
      rfl
    · rw [State.proceed_has, State.mapSettled_busy]
    · rw [State.proceed_reg, State.mapSettled_slicemap, hflushed.mapNew, State.putMap_reg _ hlast]
    · intro f hf x hx
      rw [State.proceed_mem]
      change KMap.find (s.framesFlushed.putMap s.framesFlushed.mem.mapNew).mem.lines x = none
      rw [State.putMap_mem]
      exact State.framesFlushed_find s (State.mem_changedFrames s hmem hf) hx
    · rw [State.proceed_ten]
      exact (State.putMap_ten _ _).trans hflushed.ten
  case invalid =>
    intro s hbusy hover
    refine ⟨_, congrArg Host.Outcome.next (State.partitionApply_invalid s hbusy hover),
      State.setEvent_store_has s rfl rfl (by decide), ?_, State.setEvent_mem _ _, fun q hq => ?_, State.setEvent_ten _ _⟩
    · exact (State.has_of_reg (State.setEvent_store_reg s rfl (by decide) (by decide))).trans hbusy
    · exact State.setEvent_partition s rfl q
  case apply =>
    intro s hbusy hfit
    obtain ⟨sc, po, hrun, hsc⟩ := State.takeRegions_run (upto 0 4) s fun q hq => ⟨(mem_upto.1 hq).2, hfit q hq⟩
    have hexec := State.partitionApply_valid s hbusy hfit
    rw [hrun] at hexec
    refine ⟨_, congrArg Host.Outcome.next hexec, State.startApply_busy _, fun o => ⟨fun h => ?_, fun h => ?_⟩, rfl, rfl, rfl,
      fun q hq => ?_, rfl⟩
    · exact (hsc o).trans (if_pos h)
    · exact (hsc o).trans (if_neg h)
    · exact State.startApply_partition _ q
  case applyEnd =>
    intro ps s hps hsum hfree
    refine ⟨_, congrArg Host.Outcome.next (State.partitionApplyEnd_unlocked s hps hfree), ?_, ?_, ?_, fun q hq => ?_, fun x => ?_,
      fun x hx => ?_, ?_, ?_, ?_⟩
    · rw [State.proceed_has, State.endApply_busy]
    · rw [State.proceed_has, State.endApply_done]
    · rw [State.proceed_mem, State.endApply_mem]
    · refine (State.putPartitions_has s.regionsEmptied hsum hq).of_reg ?_
      rw [State.proceed_reg, State.endApply_partition]
    · rw [State.proceed_mem, State.endApply_mem, State.putPartitions_mem]
      exact State.regionsEmptied_find s x
    · rw [State.proceed_mem, State.endApply_mem, State.putPartitions_mem] at hx
      exact (List.mem_filter.1 (State.regionsEmptied_lines s ▸ hx)).1
    · rw [State.proceed_mem, State.endApply_mem, State.putPartitions_mem]
      exact State.regionsEmptied_hbm s
    · rw [State.proceed_mem, State.endApply_mem, State.putPartitions_mem]
      exact (State.regionsEmptied_steady s).scratch
    · rw [State.proceed_ten, State.endApply_ten, State.putPartitions_ten]
      exact (State.regionsEmptied_steady s).ten
  case reads =>
    intro n s
    refine ⟨_, rfl, ?_, fun m hm => State.rd_wr_reg _ _ (Reg.deadReads_offset_ne (Fin.val_ne_of_ne hm)), rfl, rfl, rfl⟩
    exact State.rd_wr_same s (F.cstDeadReadsCount n) 0 (show 0 + 32 ≤ 64 by decide)

end

section
/-! PROOFS. A run that parts from the statement about setting HBM up: a state that meets a clause's conditions, and what the model does
in it. -/

namespace Sys2Proof.Machine

/-! ### A granule whose class would stand in RES.RISK -/

/-- A granule of protection group 25,133,120, at 767 TiB. The 12,288 groups of HBM have their classes in words 0 to 383 of CLASSMAP. -/
def riskGranule : Nat := 25133120 * 2 ^ 19

/-- Word 785,410 of CLASSMAP, which would hold the group's class, lies where RES.RISK does: the class is bit 0 of LEVEL. -/
theorem State.corrected_riskGranule (s : State) : s.corrected (64 * riskGranule) = (s.reg .resRisk).getLsbD 0 := rfl

/-- A relayout that maps out channel 76 runs, with CAPACITY past the 384 GiB that there are. The health monitor holds an input of level 1.
Tenant 0, whose step is open, may write the granule's frame. -/
def strayCapacity : State :=
  (((({ State.reset with health := { inputs := [.hbmCe1] }, mem := { Mem.reset with relayout := some 76 } }.wr F.resStatusReady 1).wr
    F.resRiskLevel 1).setReg .hbmCapacity (BitVec.ofNat 64 (2 ^ 50))).setTenant 0
      { Tenant.reset with step := { Step.reset with phase := .opened } }).setIso (64 * riskGranule / 2 ^ 21) 0x10001

theorem strayCapacity_corrected : strayCapacity.corrected (64 * riskGranule) = true :=
  (State.corrected_riskGranule _).trans (by decide)

theorem strayCapacity_granule :
    64 * riskGranule < (strayCapacity.reg .hbmCapacity).toNat ∧ strayCapacity.wasOn 76 (riskGranule / 4) = true ∧
      strayCapacity.frozenIn (64 * riskGranule / 2 ^ 21) = [] ∧
      ∀ n ∈ upto 0 16, strayCapacity.inForce n (64 * riskGranule / 2 ^ 21) (64 * riskGranule % 2 ^ 21) = none ∧
        strayCapacity.slotInForce n (64 * riskGranule / 2 ^ 21) (64 * riskGranule % 2 ^ 21) = none := by
  decide +kernel

theorem strayCapacity_opened : (strayCapacity.tenant 0).step.phase = .opened := by
  decide

/-- The granule lost raises LEVEL from 1 to 2, so it counts as detect-only from then on, and the writer's step ends (R266). -/
theorem strayCapacity_relayoutEnd :
    Runs (.relayoutEnd [riskGranule] []) strayCapacity fun t =>
      t.corrected (64 * riskGranule) = false ∧ (t.tenant 0).step.phase = .idle :=
  ⟨_, rfl, by decide +kernel⟩

end Sys2Proof.Machine
end

section
/-! PROOFS. The statement about setting HBM up, which this run contradicts. -/

open Sys2Proof Sys2Proof.Machine

/-- Refutes O23: its clause about the relayout's end bounds CAPACITY by no size of HBM, and has every tenant stand. With CAPACITY at 1 PiB
a granule may be lost whose class would stand in RES.RISK: it was corrected, the risk level that its loss raises makes it detect-only, and
the open step of the tenant that may write it ends. -/
theorem not_hbmSetUp : ¬ Obligations.HbmSetUp := by
  unfold Obligations.HbmSetUp
  rintro ⟨-, -, -, -, -, -, -, -, relayoutEnds⟩
  obtain ⟨hbelow, hchannel, hfrozen, hforce⟩ := strayCapacity_granule
  obtain ⟨t, ht, -, -, -, -, -, -, -, hten⟩ :=
    relayoutEnds [riskGranule] [] 76 strayCapacity rfl (by decide)
      (List.forall_mem_singleton.2 ⟨hbelow, hchannel, strayCapacity_corrected, hfrozen, hforce⟩)
  obtain ⟨t', ht', -, hidle⟩ := strayCapacity_relayoutEnd
  obtain rfl : t = t' := by
    injection ht.symm.trans ht'
  have htenant : t.tenant 0 = strayCapacity.tenant 0 := congrArg (KMap.get · 0 Tenant.reset) hten
  rw [htenant, strayCapacity_opened] at hidle
  cases hidle

end

section
/-! PROOFS. A run that parts from the statement about placement commands: a FROZEN_LOAD in an open step, whose fabric source turns out
poisoned. -/

namespace Sys2Proof.Machine

/-- A FROZEN_LOAD of handle 1 from a fabric source, which has started. -/
def poisonedLoad : Entry :=
  { cid := 7, idx := 0, bytes := bytesWith 64 [(0, 1, 0x1C), (8, 4, 1), (12, 1, 1)], phase := .started, status := 0, result0 := 0
    result1 := 0, faults := false }

/-- The tensor of handle 1: a frozen weight of one BF16 element. -/
def loadedTensor : Tensor :=
  { index := 1, gen := 0, cls := 2, fmt := 1, lifetime := 0, reuse := 0, phases := 0, flags := 0, histLen := 1, vectors := 1, length := 1
    escCap := 0, link := 0, shareName := 0, parts := [], constraint := ⟨0, 0, 0⟩, pending := none, freed := false, charged := 0 }

/-- The weight that it is, while that command loads it (R284). -/
def loadingWeight : Frozen :=
  { name := ownName 0 loadedTensor.handle, vectors := 1, length := 1, fmt := 1, mask := 1, creator := 0
    sharers := [(0, loadedTensor.handle)], parts := [], loaded := false, loading := some (0, loadedTensor.handle, poisonedLoad.cid)
    unrecovered := false, scale := 0x3F800000, amax := 0 }

/-- Tenant 0's step is open while the load runs. Beside the weight it holds an FP8 activation of handle 5, to whose record a maximum has
been reported in that step; the record stands so in the numeric area (R96, R100). -/
def loadInOpenStep : State :=
  (({ State.reset with frozen := [loadingWeight] }.wr (F.tenStateState 0) 2).setTenant 0
    { Tenant.reset with
      sqs := [(0, { Sq.reset with entries := [poisonedLoad] })]
      step := { Step.reset with phase := .opened, scbStep := 1 }
      place := { Place.reset with tensors := [loadedTensor, { loadedTensor with index := 5, cls := 6, fmt := 2 }], areas := upto 64 4 } }).setRec
    0 reportedRec

theorem loadInOpenStep_command :
    loadInOpenStep.startedAt (0 : TenantId) (0 : RingId) (0 : Half).toNat = some poisonedLoad ∧
      loadInOpenStep.entry? (0 : TenantId) (0 : RingId) poisonedLoad.cid = some poisonedLoad ∧ loadInOpenStep.waits = [] ∧
      poisonedLoad.arg 4 1 = 1 := by
  decide +kernel

theorem loadInOpenStep_weight :
    loadInOpenStep.tensor? (0 : TenantId) (poisonedLoad.arg 0 4) = some loadedTensor ∧ loadInOpenStep.frozen = [loadingWeight] := by
  decide +kernel

/-- The end with 0304h aborts the open step (R162), and that end clears the step fields of the tenant's records in the numeric area. -/
theorem loadInOpenStep_frozenLoadEnd_mem :
    (loadInOpenStep.frozenLoadEnd (0 : TenantId) (0 : RingId) (0 : Half).toNat [] (0x304 : Half).toNat).mem ≠ loadInOpenStep.mem := by
  decide +kernel

end Sys2Proof.Machine
end

section
/-! PROOFS. The statement about placement commands, which this run contradicts. -/

open Sys2Proof Sys2Proof.Machine

/-- Refutes O25: its clause about a load whose fabric source failed keeps the memories whatever the status is. A command that ends with
0304h POISON_READ aborts its tenant's open step (R162, log 184), and the step fields of the tenant's numeric records are then written as 0
into its numeric area. -/
theorem not_placementCommandsAct : ¬ Obligations.PlacementCommandsAct := by
  unfold Obligations.PlacementCommandsAct
  rintro ⟨-, -, -, -, -, -, -, -, -, -, -, -, fails⟩
  obtain ⟨hstarted, hentry, hwaits, hfabric⟩ := loadInOpenStep_command
  obtain ⟨htensor, hfrozen⟩ := loadInOpenStep_weight
  obtain ⟨t, ht, -, -, hmem, -⟩ :=
    fails 0 0 poisonedLoad 0 0x304 [] loadedTensor loadingWeight loadInOpenStep hstarted hentry hwaits hfabric (by decide) htensor
      (List.forall_mem_nil _) (by rw [hfrozen]; rfl) (by rw [hfrozen]; rfl)
  obtain rfl : loadInOpenStep.frozenLoadEnd (0 : TenantId) (0 : RingId) (0 : Half).toNat [] (0x304 : Half).toNat = t := by
    injection ht
  exact loadInOpenStep_frozenLoadEnd_mem hmem

end

section
/-! PROOFS. The state after reset lists no register, so that each reads as its Reset column. -/

namespace Sys2Proof.Machine

theorem State.reset_reg (r : Reg) : State.reset.reg r = r.reset := rfl

theorem State.reset_rd (f : Field) : State.reset.rd f = (f.reg.reset.extractLsb' f.lo f.w).toNat := rfl

theorem State.reset_has (f : Field) : State.reset.has f = ((f.reg.reset.extractLsb' f.lo f.w).toNat == 1) := rfl

/-- STATE of every TEN.STATE register is FREE. -/
theorem State.reset_active (t : Nat) : State.reset.active t = false := by
  have hfree : State.reset.rd (F.tenStateState t) = 0 := rfl
  simp [State.active, hfree]

end Sys2Proof.Machine
end

section
/-! PROOFS. The statement about the state after reset. -/

open Sys2Proof Sys2Proof.Machine

/-- Settles O56: registers and fields read as their Reset columns, and nothing else is listed. -/
theorem stateAfterReset : Obligations.StateAfterReset := by
  unfold Obligations.StateAfterReset
  simp only [State.reset_reg, State.reset_rd, State.reset_has]
  have hgen : ∀ (t : Fin 16) (n : Fin 3), (Reg.resGen t n).reset = BitVec.allOnes 64 := fun _ _ => rfl
  have hshadow : ∀ i k : Nat, (Reg.cntShadow i k).reset = 0 := fun _ _ => rfl
  have hcount : ∀ unit k : Nat, KMap.get State.reset.counts (16 * unit + k) 0 = 0 := fun _ _ => rfl
  refine ⟨?node, ?inc, ?vinMin, ?linkHold, ?chainwait, ?refsel, ?arrdiv, ?teleLog2, ?teleCfg, ?units, ?risk, ?statusBits,
    hgen, hshadow, hcount, fun t => State.reset_active t, rfl, rfl, rfl, rfl, rfl⟩
  all_goals decide

end
